-- ==== Sys2Proof/Word.lean ====
section
/-! DEFINITION. The plainest types of the model: bytes, words, and the sparse map in canonical form that holds every
table of the module (addresses or indices strictly rising, no entry equal to what an unlisted one reads as). -/

namespace Sys2Proof

/-- A byte of a structure held in memory or on a wire. -/
abbrev Byte := BitVec 8

/-- A device register or a word of a table (R8). -/
abbrev Word := BitVec 32

/-- A sparse map from numbers to values; an unlisted number reads as a default its reader names. -/
abbrev SMap (α : Type) := List (Nat × α)

namespace SMap

variable {α : Type}

/-- The entry of number k, if one is listed. -/
def find (m : SMap α) (k : Nat) : Option α :=
  match m with
  | [] => none
  | (a, v) :: r => if a = k then some v else find r k

/-- The value of number k: its entry's, or the default d. -/
def get (d : α) (m : SMap α) (k : Nat) : α := (find m k).getD d

/-- The map without an entry for number k. -/
def erase (m : SMap α) (k : Nat) : SMap α := m.filter fun e => decide (e.1 ≠ k)

/-- The map with an entry put before the first higher number. -/
def insert (m : SMap α) (k : Nat) (v : α) : SMap α :=
  match m with
  | [] => [(k, v)]
  | (a, w) :: r => if k < a then (k, v) :: (a, w) :: r else (a, w) :: insert r k v

/-- The map in which number k reads as v; v equal to the default d leaves no entry. -/
def set [DecidableEq α] (d : α) (m : SMap α) (k : Nat) (v : α) : SMap α :=
  if v = d then erase m k else insert (erase m k) k v

/-- The map in which number k reads as f of what it read as. -/
def modify [DecidableEq α] (d : α) (m : SMap α) (k : Nat) (f : α → α) : SMap α := set d m k (f (get d m k))

/-- Numbers strictly rising. -/
def rising (m : SMap α) : Bool :=
  match m with
  | [] => true
  | [_] => true
  | (a, _) :: (b, w) :: r => decide (a < b) && rising ((b, w) :: r)

/-- The canonical form for a default d: numbers strictly rising, no entry equal to d. -/
def wf [DecidableEq α] (d : α) (m : SMap α) : Bool := rising m && m.all fun e => decide (e.2 ≠ d)

end SMap

/-- The n low bytes of a number, little-endian (R7). -/
def leBytes (n v : Nat) : List Byte :=
  match n with
  | 0 => []
  | k + 1 => BitVec.ofNat 8 v :: leBytes k (v / 256)

/-- The number that bytes spell little-endian (R7). -/
def ofLeBytes (bs : List Byte) : Nat :=
  match bs with
  | [] => 0
  | b :: r => b.toNat + 256 * ofLeBytes r

/-- Bit n of a number. -/
def bitOf (v n : Nat) : Bool := v / 2 ^ n % 2 == 1

/-- Bits hi down to lo of a number (R6). -/
def bitsOf (v hi lo : Nat) : Nat := v / 2 ^ lo % 2 ^ (hi + 1 - lo)

/-- 1 for true, 0 for false. -/
def bitVal (b : Bool) : Nat := if b then 1 else 0

end Sys2Proof
end

