-- ==== Sys2Proof/Syntax.lean ====
section
/-! DEFINITION. The commands of the module: one constructor of `Instr` for each row of spec/opcode_table.json, with the
operands the rule of the row names, and the types of those operands (TLPs, frames, messages, descriptors). -/

namespace Sys2Proof

/-- The four service classes (R199). -/
inductive Cls where
  | s | c | l | b
  deriving DecidableEq, Repr

/-- CLASS field of a frame header (R199). -/
def Cls.code (c : Cls) : Nat :=
  match c with
  | .s => 0
  | .c => 1
  | .l => 2
  | .b => 3

/-- The class a two-bit CLASS field names (R199). -/
def Cls.ofCode (n : Nat) : Cls :=
  match n % 4 with
  | 0 => .s
  | 1 => .c
  | 2 => .l
  | _ => .b

/-- What a TLP is (R143 to R149, R158). -/
inductive TlpKind where
  | memRead | memWrite | cfgRead | cfgWrite | ioRead | ioWrite | atomic
  | memReadLocked | cpl | cplData | cplLocked | cplDataLocked
  | pmPme | vendorMsg | atsMsg
  /-- Set_Slot_Power_Limit from a host; FRS of an endpoint -/
  | slotPowerMsg | frsMsg
  /-- Assert_INTx or Deassert_INTx: `addr` is the wire, 0 to 3, and 4 more to assert -/
  | intxMsg
  /-- Unlock from a host (R149, R158) -/
  | unlockMsg
  deriving DecidableEq, Repr

/-- A request that is owed a completion. -/
def TlpKind.nonPosted (k : TlpKind) : Bool :=
  match k with
  | .memRead | .cfgRead | .cfgWrite | .ioRead | .ioWrite | .atomic | .memReadLocked => true
  | _ => false

/-- A completion of either kind. -/
def TlpKind.completion (k : TlpKind) : Bool :=
  match k with
  | .cpl | .cplData | .cplLocked | .cplDataLocked => true
  | _ => false

/-- A TLP as a port receives or sends it. -/
structure Tlp where
  kind : TlpKind
  /-- memory or I/O address; for a configuration request the register's byte offset -/
  addr : Nat := 0
  /-- target bus, device and function of a configuration request, or of an ID-routed message -/
  target : Nat := 0
  requester : Nat := 0
  tag : Nat := 0
  completer : Nat := 0
  /-- completion status: 0 success, 1 Unsupported Request, 2 Request Retry Status, 4 Completer Abort -/
  status : Nat := 0
  /-- payload bytes carried, or bytes a read asks for -/
  bytes : Nat := 0
  /-- bytes of the header in Flit Mode form with any OHC (R144) -/
  header : Nat := 16
  ldId : Nat := 0
  /-- byte enables of a request of one word -/
  be : Nat := 15
  /-- EP: the data is poisoned (R147) -/
  ep : Bool := false
  /-- Relaxed Ordering and ID-Based Ordering (R110) -/
  relaxed : Bool := false
  idOrdered : Bool := false
  /-- in Flit Mode form, and the contents of its OHC; in non-flit form of its TLP Prefixes (R145, R147) -/
  flit : Bool := true
  ohc : List Nat := []
  /-- the ECRC: none, or whether it checks (R111) -/
  ecrc : Option Bool := none
  /-- a message from a host that goes to every endpoint (R149) -/
  broadcast : Bool := false
  /-- the last, or only, part of a completion (R257) -/
  final : Bool := true
  data : List Byte := []
  deriving DecidableEq, Repr

/-- A TLP carries data. -/
def Tlp.hasData (t : Tlp) : Bool :=
  match t.kind with
  | .memWrite | .cfgWrite | .ioWrite | .atomic | .cplData | .cplDataLocked => true
  | .vendorMsg | .atsMsg => decide (t.bytes ≠ 0)
  | _ => false

/-- A CXL.mem message (R150). -/
structure MemMsg where
  /-- M2S RwD or S2M DRS: 64 bytes of data follow -/
  withData : Bool
  /-- a write, which completes with NDR -/
  write : Bool := false
  /-- S2M: a completion -/
  response : Bool := false
  addr : Nat := 0
  tag : Nat := 0
  ldId : Nat := 0
  poison : Bool := false
  /-- opcode within its class, metadata fields, and the data (R150) -/
  opcode : Nat := 0
  metadata : Nat := 0
  data : List Byte := []
  deriving DecidableEq, Repr

/-- Kinds of credit frame (R86). -/
inductive CreditKind where
  | ret | grant | resyncReq | resyncAck
  deriving DecidableEq, Repr

/-- KIND of a time frame (R425). -/
inductive TimeKind where
  | sync | delayReq | delayRsp
  deriving DecidableEq, Repr

/-- The body of a time frame (R425): kind, the sender's root by class, priority and module, its hops from it, its time state, T_TX. -/
structure TimeMsg where
  kind : TimeKind
  cls : Nat := 3
  prio : Nat := 255
  rhops : Nat := 0
  root : Nat := 0
  state : Nat := 0
  stamp : Nat := 0
  deriving DecidableEq, Repr

/-- What a management frame carries between modules. -/
inductive MgmtMsg where
  /-- formation kinds (R480, R481) -/
  | hello (fields : List Nat)
  | adj (fields : List Nat)
  | admitMsg (fields : List Nat)
  /-- DRAIN and DRAIN_ACK of a window and class (R211) -/
  | drain (src dst : Nat) (cls : Cls)
  | drainAck (src dst : Nat) (cls : Cls)
  /-- a containment notice and its acknowledgement (R268) -/
  | notice (scope id cause : Nat)
  | noticeAck (scope id : Nat)
  /-- a sideband event (R151) -/
  | sideband (kind state value source eseq : Nat)
  /-- a module's share of a Vitrine's in-flight count (R252) -/
  | inflight (gvh count : Nat)
  /-- squash, reset or unbind of a Vitrine's part on another module (R254, R251) -/
  | squash (gvh : Nat)
  | resetEndpoint (fpid : Nat)
  /-- binding and unbinding at the endpoint's module (R247, R250) -/
  | bind (gvh fpid share : Nat)
  | unbind (gvh fpid : Nat)
  /-- a freeze and a pending change of upstream port (R258, R262) -/
  | freeze (gvh tcut : Nat)
  | upstream (gvh fpid tcut : Nat)
  | release (gvh : Nat)
  /-- acknowledgement of a pending entry (R209) -/
  | pinAck (entry : Nat)
  /-- a link withdrawn, or trained again with a partner, for the Registrar (R214) -/
  | linkWithdrawn (port : Nat)
  | linkTrained (port partner : Nat)
  /-- a command for another module, its progress and its result (R366) -/
  | command (id : Nat) (opcode : Nat)
  | progress (id : Nat)
  | result (id status : Nat)
  /-- a save image asked for or sent to the composition store (R260, R261) -/
  | image (gvh : Nat)
  /-- a module's route tables (R485) -/
  | routes (fields : List Nat)
  /-- a report to the Registrar that names what and whom -/
  | report (what : String) (args : List Nat)
  deriving DecidableEq, Repr

/-- A segment of one scan line of a console stream (R303): engine, FLAGS, line, first pixel, pixels, and the segment's pixel bytes. -/
structure ConsoleSeg where
  engine : Nat
  flags : Nat := 0
  line : Nat := 0
  x : Nat := 0
  count : Nat := 0
  pixels : List Byte := []
  deriving DecidableEq, Repr

/-- The body of a fabric frame. -/
inductive Body where
  | tlp (t : Tlp)
  | mem (m : MemMsg)
  | credit (kind : CreditKind) (cseq value : Nat)
  | time (m : TimeMsg)
  | mgmt (m : MgmtMsg)
  | console (c : ConsoleSeg)
  /-- a body the model does not look into: a reserved type's -/
  | raw (bytes : Nat)
  deriving DecidableEq, Repr

/-- A fabric frame: its header (R199) and its body. -/
structure Frame where
  /-- TYPE, 4 bits -/
  ftype : Nat
  cls : Cls
  poison : Bool := false
  hops : Nat := 0
  /-- LENGTH in granules of 16 bytes -/
  len : Nat
  dst : Nat
  src : Nat
  gvh : Nat
  fseq : Nat := 0
  /-- fabric time at injection, low 32 bits -/
  itime : Nat := 0
  body : Body
  deriving DecidableEq, Repr

/-- A frame's cells in the Basin (R172), its cost in credits (R85). -/
def Frame.cells (f : Frame) : Nat := (f.len * 16 + 63) / 64

/-- Frames of type TLP or CXL.mem are credited (R85). -/
def Frame.credited (f : Frame) : Bool := f.ftype == 1 || f.ftype == 2

/-- Frames of type credit, time or management (R179). -/
def Frame.control (f : Frame) : Bool := f.ftype == 3 || f.ftype == 4 || f.ftype == 5

/-- A four-bit TYPE that R199 reserves. -/
def reservedType (t : Nat) : Bool := t == 0 || decide (7 ≤ t)

/-- Module ID of an FPID (R17). -/
def fpidModule (f : Nat) : Nat := f / 512 % 8192

/-- Local port of an FPID (R17). -/
def fpidPort (f : Nat) : Nat := f % 512

/-- The FPID of a local port of a module (R17). -/
def fpidOf (m p : Nat) : Nat := m % 8192 * 512 + p % 512

/-- The Global Vitrine Handle of a local ID whose home is module m (R17). -/
def gvhOf (m l : Nat) : Nat := m % 8192 * 1024 + l % 1024

/-- The handle that marks credit, time and management frames (R197). -/
def gvhModule : Nat := 0x7FFFFF

/-- The handle that marks fabric-window traffic (R197). -/
def gvhWindow : Nat := 0x7FFFFE

/-- Bytes of the frame that carries a TLP (R144). -/
def tlpFrameBytes (t : Tlp) : Nat :=
  24 + (if t.header ≤ 24 then 24 else 40) + (if t.hasData then (t.bytes + 15) / 16 * 16 else 0)

/-- Bytes of the frame that carries a CXL.mem message (R150). -/
def memFrameBytes (m : MemMsg) : Nat := if m.withData then 112 else 48

/-- Where a register access goes (R8, R16): an address in device register space; an offset in BAR0 of the VMF whose host the master is; an
offset in BAR2 of a Console Engine. -/
inductive RegAt where
  | device (addr : Nat)
  | bar0 (off : Nat)
  | bar2 (engine : Fin 64) (off : Nat)
  deriving DecidableEq, Repr

/-- What a link partner asks of a transmitter: taps, or a preset by number (R41, R42). -/
inductive TapRequest where
  | coefficients (pre post : Nat)
  | preset (n : Fin 16)
  deriving DecidableEq, Repr

/-- A single-step change of a transmitter's coefficients (R52, R61). -/
inductive TapStep where
  | postUp | postDown | preUp | preDown
  deriving DecidableEq, Repr

/-- What a receiver's search on a fabric link measures (R52): the score of each preset in the order tried, 11 to 15 then 0 to 10, and of
each coefficient step tried after them. -/
structure EqSearch where
  scores : List Nat := []
  steps : List (TapStep × Nat) := []
  deriving DecidableEq, Repr

/-- The margins of one eye (R58). -/
structure Eye where
  left : Nat
  right : Nat
  up : Nat
  down : Nat
  deriving DecidableEq, Repr

/-- PARAMS (R92): layer version, sender, configured width code, rate codes, replay capacity, admitted flag. -/
structure Params where
  version : Nat := 1
  fpid : Nat := 0
  width : Nat := 0
  rates : List Nat := [6, 7]
  capacity : Nat := 160
  admitted : Bool := false
  deriving DecidableEq, Repr

/-- What a completed capability exchange finds on a PCIe or CXL port (R49, R106, R109, R114), with the die temperature. -/
structure Capx where
  width : Nat := 0
  rate : Nat := 1
  flit : Bool := true
  cxl : Bool := false
  reversed : Bool := false
  temp : Nat := 0
  deriving DecidableEq, Repr

/-- A class 4 condition of a fabric link (R265): the partner's FPID at CAPX differs from the fabric directory, the third LINK_LOST
within 10 minutes, a multi-bit error in replay SRAM. -/
inductive LinkFault where
  | partner | losses | replaySram
  deriving DecidableEq, Repr

/-- What an endpoint's configuration space says of it (R376, ENDPOINT_INFO): Vendor ID, Device ID, class code, functions. -/
structure EpFacts where
  vendor : Nat := 0
  device : Nat := 0
  classCode : Nat := 0
  functions : Nat := 1
  deriving DecidableEq, Repr

/-- What Accession finds at an endpoint before its SPDM exchange (R115, R217): logical device, BARs (sizes, log 2, and bases),
requester ID of function 0, ARI, front port of its tunnel. -/
structure Found where
  ldId : Option Nat := none
  bars : List (Nat × Nat) := []
  busDev : Nat := 0
  ari : Bool := false
  front : Nat := 0
  facts : EpFacts := {}
  deriving DecidableEq, Repr

/-- What reading a frame's cells from the Basin meets (R173, R194): nothing, n words corrected, or a multi-bit error in a
header word, which lies in its first cell, or in another word of one of its cells, counted from the first. -/
inductive CellError where
  | clean
  | corrected (n : Nat)
  | multiHeader
  | multiOther (cell : Nat)
  deriving DecidableEq, Repr

/-- A word the Curator stores in the fabric windows (R168): its offset in the windows, its value and byte enables. -/
structure WinWord where
  off : Nat
  value : Word
  be : Fin 16
  deriving DecidableEq, Repr

/-- What the module that holds an endpoint knows of its attachment: alone on its physical port (R118, R125, R157), in a power-controlled slot
(R134), on a port that runs CXL.mem (R114), and the containment object of a tunnel or Console Engine (R267, log entry 10). -/
structure EpPlace where
  alone : Bool := true
  slot : Bool := false
  cxl : Bool := false
  object : Nat := 0
  deriving DecidableEq, Repr

/-- What another module answers for a bind of an endpoint it holds (R250): a status, the endpoint's BARs (sizes, log 2, and
bases), its identity, its attachment, its slot power limit (R155). -/
structure RemoteEp where
  place : EpPlace := {}
  spl : Nat × Nat := (0, 0)
  status : Nat := 0
  bars : List (Nat × Nat) := []
  identity : Nat := 0
  deriving DecidableEq, Repr

/-- An Address Translation Table entry in effect (R215). -/
structure Att where
  valid : Bool := false
  sizeLog2 : Nat := 0
  lvid : Nat := 0
  fpid : Nat := 0
  host : Nat := 0
  ep : Nat := 0
  deriving DecidableEq, Repr

/-- An HDM decoder (R244): enabled, range, interleave and its targets, virtual downstream port numbers. -/
structure Hdm where
  enabled : Bool := false
  base : Nat := 0
  size : Nat := 0
  ways : Nat := 1
  gran : Nat := 256
  targets : List Nat := []
  deriving DecidableEq, Repr

/-- The virtual downstream port registers the manual acts on (R152, R153, R242, R266); true is 1. -/
structure VPort where
  presence : Bool := false
  presenceChanged : Bool := false
  dllActive : Bool := false
  dllChanged : Bool := false
  attention : Bool := false
  powerFault : Bool := false
  commandCompleted : Bool := false
  attnInd : Nat := 3
  pwrInd : Nat := 3
  powerOff : Bool := false
  linkDisable : Bool := false
  hotplugIntEnable : Bool := false
  /-- the per-event enables of Slot Control, bits 0, 1, 3, 4 and 12 in their places (R153) -/
  slotEnables : Nat := 0
  msi : Bool := false
  secondaryBus : Nat := 0
  p2pRedirect : Bool := false
  ioBase : Nat := 0
  ioLimit : Nat := 0
  dpcEnable : Nat := 0
  dpcStatus : Bool := false
  surpriseDown : Bool := false
  aerCorrectable : Nat := 0
  aerNonfatal : Nat := 0
  aerFatal : Nat := 0
  splValue : Nat := 0
  splScale : Nat := 0
  deriving DecidableEq, Repr

/-- A binding in a save image (R260): what the manual lists, with the endpoint's number, its identity and its translation entries. -/
structure SavedBinding where
  k : Nat
  fpid : Nat
  ep : Nat
  ldId : Option Nat := none
  share : Nat := 256
  identity : Nat := 0
  cls : Cls := .l
  place : EpPlace := {}
  atts : List Att := []
  deriving DecidableEq, Repr

/-- A save image by its contents (R260; log entry 18). `valid` says that MAGIC, VERSION, LENGTH and CRC check. -/
structure Image where
  valid : Bool := true
  gvh : Nat := 0
  srcModule : Nat := 0
  srcLvid : Nat := 0
  tcut1 : Nat := 0
  savedAt : Nat := 0
  nvdp : Nat := 1
  cto : Nat := 0
  silent : Bool := false
  slotPower : Bool := false
  minimum : Nat := 0
  quota : Nat := 0
  channels : Nat := 0
  bindings : List SavedBinding := []
  intx : List (Nat × Nat) := []
  bus : Nat := 0
  hostLtr : Option Nat := none
  aspmL1 : Bool := false
  hdm : List Hdm := []
  vports : List (Nat × VPort) := []
  /-- configuration words by virtual function and word, and BAR0 registers of the VMF by place and value -/
  cfg : List (Nat × Nat) := []
  vmf : List (Nat × Nat) := []
  vmfEnables : Bool × Bool × Bool := (false, false, false)
  /-- of each shaper slot: rate, burst in 64-byte units, RESET_FULL; of each class queue: shaper slot, quantum -/
  shapers : List (Nat × Nat × Bool) := []
  queues : List (Option Nat × Nat) := []
  /-- counters by number: VALUE, WRAP, SAT -/
  counters : List (Nat × Nat × Bool × Bool) := []
  deriving DecidableEq, Repr

/-- What the hub of another module answers about the tunnel a Console Engine of this one is attached to (R288, R289, R302). -/
inductive FarGrant where
  | granted
  | refused
  | withdrawn
  | sinkLost
  deriving DecidableEq, Repr

/-- What USB4 link initialisation finds on a front port (R283). -/
inductive Usb4Partner where
  | deviceRouter | host | other
  deriving DecidableEq, Repr

/-- A timing a display's EDID lists: W, H and refresh (R299). -/
structure Timing where
  w : Nat
  h : Nat
  refresh : Nat
  deriving DecidableEq, Repr

/-- A console frame's header and body header (R303): flags bit 0 first segment of a frame, bit 1 30-bit pixels, bit 2 first frame
of a stream. -/
structure ConsoleFrame where
  engine : Fin 64
  flags : Fin 8
  fseq : Fin 65536
  line : Fin 65536
  x : Fin 65536
  count : Fin 65536
  deriving DecidableEq, Repr

/-- A sink's request (R330, R331): the kind of object it takes, and its voltage and current in the PD units of R156. -/
inductive PdRequest where
  | fixed (voltage current : Nat)
  | pps (voltage current : Nat)
  | avs (voltage current : Nat)
  deriving DecidableEq, Repr

/-- Role swaps (R334). -/
inductive PdSwap where
  | pr | dr | vconn | fr
  deriving DecidableEq, Repr

/-- The code PD_POLICY_SET and records give a swap (R376). -/
def swapCode (k : PdSwap) : Nat :=
  match k with
  | .pr => 1
  | .dr => 2
  | .vconn => 3
  | .fr => 4

/-- What a cable marker answers (R328): USB Highest Speed, 5 A, EPR Mode Capable with a 50 V rating, active, an answer on SOP″. -/
structure Marker where
  speed : Fin 8
  amp5 : Bool
  epr : Bool
  active : Bool
  sop2 : Bool
  deriving DecidableEq, Repr

/-- Impedances to ground in ohms (R326). -/
structure Moisture where
  cc1 : Nat
  cc2 : Nat
  sbu1 : Nat
  sbu2 : Nat
  deriving DecidableEq, Repr

/-- What heads a command as its module runs it: the descriptor's header after intake (R361, R362). -/
structure CmdHdr where
  /-- address of the descriptor in the caller's memory -/
  addr : Nat := 0
  /-- CALLER: the master ID the binding table gives -/
  caller : Nat := 0
  /-- ROLE as the management Ethernet agent wrote it (R362) -/
  agentRole : Nat := 5
  /-- ROLE as the receiving module wrote it, for a command another module forwarded (R366) -/
  forwarded : Option Nat := none
  tag : Nat := 0
  notify : Bool := false
  detach : Bool := false
  /-- MODULE, 0xFFFF when the object selects -/
  modul : Nat := 0xFFFF
  deriving DecidableEq, Repr

/-- Where a command's bulk data comes from: the module's own memory at the address named, or a host's or another
module's memory, which answers with bytes or cannot be read (R374, R378). -/
inductive Fetch where
  | local_
  | remote (bytes : Option (List Byte))
  deriving DecidableEq, Repr

/-- How a command that stays PENDING will end: what it waits for. -/
inductive Wait where
  | nothing
  /-- a state change of a Vitrine: FREEZE, THAW, RESTORE, SAVE, VITRINE_DESTROY of local ID lv; UNBIND_ENDPOINT of port k -/
  | freeze (lv : Nat) | thaw (lv : Nat) | destroy (lv : Nat) | unbind (lv k : Nat)
  /-- SLUICE_RELEASE of an object -/
  | release (scope id : Nat)
  /-- MARGIN_SCAN of lanes, BITSLIP of a lane, a swap of a front port, a RETRAIN's width change -/
  | scan (first count : Nat) (refused : Bool) | bitslip (lane : Nat) | swap (port : Nat)
  /-- the result of another module -/
  | remote (modul : Nat)
  /-- POWER_STATE: the entry it has begun -/
  | power
  /-- its objects, in use by an earlier command (R370) -/
  | objects
  deriving DecidableEq, Repr

/-- A command descriptor's fields as they stand when it is read, but for its parameters (R361): `stray` is the offset, from 0x18, of the
first reserved parameter byte that is not zero. -/
structure Descriptor where
  opcode : Nat
  flags : Nat := 0
  tag : Nat := 0
  length : Nat := 0
  modul : Nat := 0xFFFF
  role : Nat := 5
  byte15 : Nat := 0
  word20 : Nat := 0
  stray : Option Nat := none
  deriving DecidableEq, Repr

/-- What another module answers for a command forwarded to it (R366). -/
structure RemoteResult where
  status : Nat
  detail : Nat := 0
  resp : List (Nat × Nat × Nat) := []
  deriving DecidableEq, Repr

/-- A hardware-timed action (R431). -/
inductive TimedAction where
  | gateEntry (port : Fin 512)
  | gateStart (port : Fin 512)
  | pins
  | freezeCut (lvid : Fin 1024)
  | thawCut (lvid : Fin 1024) (sourceHeld : Bool)
  | catalogue (tenant : Option (Fin 1024))
  deriving DecidableEq, Repr

/-- A message on the management Ethernet port (R423): one of an accepted profile that gives the module's offset in ticks, ahead positive;
one of another profile, or one that would have the module serve time. -/
inductive PtpMsg where
  | offset (ahead : Int)
  | other
  deriving DecidableEq, Repr

/-- A TLP, CXL.mem message or window access as the edge that samples it saw it (R451, R453): die, type by its bit in the type mask, ingress
and destination FPID, handle, first 16 bytes of the carried header, address as received and as translated, class and poison. -/
structure Sampled where
  die : Nat := 0
  kind : Nat := 0
  src : Nat := 0
  dst : Nat := 0
  gvh : Nat := 0
  hdr : List Byte := []
  addr : Nat := 0
  xaddr : Nat := 0
  cls : Cls := .l
  poison : Bool := false
  deriving DecidableEq, Repr

/-- How a sampled TLP ended (R453): timed out, its completion's status, poisoned data. -/
structure SampleEnd where
  timedOut : Bool := false
  status : Nat := 0
  poison : Bool := false
  deriving DecidableEq, Repr

/-- What a run of the margin plan finds (R470): whether it is a weekly run, the operating hours, and the eyes of each lane scanned with the
die temperature. -/
structure PlanRun where
  weekly : Bool := false
  hours : Nat := 0
  scans : List (Fin 512 × List Eye) := []
  temp : Byte := 0
  deriving DecidableEq, Repr

/-- What start-up finds up to step 5 (R475 to R477): the time each of steps 1 to 5 took in ms, whether the signatures of images A and B
check, the dies that fail self-test, and whether the second Curator pair can stand by. -/
structure StartRun where
  took : List Nat := []
  signedA : Bool := true
  signedB : Bool := true
  failed : List (Fin 7) := []
  standby : Bool := true
  deriving DecidableEq, Repr

/-- A HELLO (R480): PRIO, LAST_ID, SERIAL and GEN of the sender. -/
structure HelloMsg where
  prio : Nat := 128
  lastId : Option Nat := none
  serial : Nat := 0
  gen : Nat := 0
  deriving DecidableEq, Repr

/-- An ACTIVE fabric link in an ADJ (R480): local port, partner SERIAL, width and rate codes. -/
structure AdjLink where
  port : Nat
  partner : Nat
  width : Nat
  rate : Nat
  deriving DecidableEq, Repr

/-- An ADJ (R480, R481): its part and the parts in all, ASEQ, the module it describes with that module's PRIO, LAST_ID and GEN, and its
links. -/
structure AdjMsg where
  origin : HelloMsg := {}
  part : Nat := 0
  parts : Nat := 1
  aseq : Nat := 0
  links : List AdjLink := []
  deriving DecidableEq, Repr

/-- A Module Route Table entry with its candidate group (R204, R485): destination, distance, group and the ports in its slots. -/
structure RouteEntry where
  dest : Fin 8192
  dist : Fin 8
  group : Fin 4096
  ports : List (Fin 512)
  deriving DecidableEq, Repr

/-- A Vitrine as the composition store holds it (R487): what VITRINE_CREATE and BIND_ENDPOINT set, its shapers (rate, burst, RESET_FULL),
the shaper slot and quantum of its class queues, and the gate list of its upstream port (base, cycle, entry words); of an endpoint on
another module what that module answers. -/
structure StoredVitrine where
  gvh : Nat := 0
  port : Nat := 0
  nvdp : Nat := 1
  cto : Nat := 0
  silent : Bool := false
  slotPower : Bool := false
  minimum : Nat := 0
  quota : Nat := 0
  channels : Nat := 0
  bindings : List (SavedBinding × RemoteEp) := []
  shapers : List (Nat × Nat × Bool) := []
  queues : List (Option Nat × Nat) := []
  gates : Option (Nat × Nat × List Nat) := none
  deriving DecidableEq, Repr

/-- What a lane reports with its agreed taps: the die temperature, and on a fabric link the scores of its search (R52). -/
structure TapsReport where
  temp : Byte
  search : EqSearch
  deriving DecidableEq, Repr

/-- What becomes of a re-equalisation of a PCIe or CXL link (R63): whether the host takes up a request, and the lanes that end below their floors. -/
structure ReeqAnswer where
  taken : Bool
  closed : List (Fin 512)
  deriving DecidableEq, Repr

/-- A link-control request that awaits its answer (R92): its link and its subtype. -/
structure CtlAwaited where
  port : Fin 512
  subtype : Fin 256
  deriving DecidableEq, Repr

/-- A link-control frame of a speed change (R97): the new rate code, and whether it is the SPEED_ACK to a request of this end. -/
structure SpeedCtl where
  rate : Fin 8
  ack : Bool
  deriving DecidableEq, Repr

/-- An event of an attention button (R152): its cage, and whether it is let go or has been held for 20 ms. -/
structure ButtonEvent where
  cage : Fin 56
  released : Bool
  deriving DecidableEq, Repr

/-- What places a sideband frame (R151): its ESEQ and, where its source is port 447, the Type-C port whose tunnel or VBUS switch it concerns (log entry 17). -/
structure SidebandTag where
  eseq : Word
  front : Fin 16
  deriving DecidableEq, Repr

/-- The enables of a Slot Control word (R153): Hot-Plug Interrupt Enable, and the event enables in bits 0, 1, 3, 4 and 12. -/
structure SlotEnables where
  interrupt : Bool
  enables : Fin 8192
  deriving DecidableEq, Repr

/-- A Vitrine at TCUT2 (R262): its local ID, and whether the module it moves from holds a reset under R121, where that is another module. -/
structure ThawCut where
  lvid : Fin 1024
  sourceHeld : Bool
  deriving DecidableEq, Repr

/-- A request for DP bandwidth (R288): its units of 0.5 Gb/s and, at the module of the Console Engine named, the answer of the hub of another module that holds the tunnel. -/
structure DpAsk where
  units : Fin 256
  far : Option (Fin 64 × FarGrant)
  deriving DecidableEq, Repr

/-- A sink that reappears (R302): the timings of its EDID, and the Console Engine of this module whose destination on another module it is. -/
structure DpSink where
  edid : List Timing
  far : Option (Fin 64)
  deriving DecidableEq, Repr

/-- How a command can end: whether the Registrar has recorded its change on all three replicas (R372), and whether the caller's memory can be written (R364). -/
structure CmdCommit where
  recorded : Bool
  writable : Bool
  deriving DecidableEq, Repr

/-- A master whose oldest window store is tried, and a store that the Curator makes before it (R168). -/
structure WindowTry where
  master : Fin 2048
  curator : Option WinWord
  deriving DecidableEq, Repr


/-- The commands, in the order of spec/opcode_table.json; each constructor names its row and rule. -/
inductive Instr where
  /-- MODULE_RESET_EVENT (R13) -/
  | moduleResetEvent
  /-- REGISTER_WRITE (R9): the master, the register and the word -/
  | registerWrite (master : Fin 2048) (place : RegAt) (value : Word)
  /-- REG_ACCESS_BAD (R8): the master, where the access goes, whether it is a read -/
  | regAccessBad (master : Fin 2048) (place : RegAt) (load : Bool)
  /-- REG_PAIR_LOW_READ (R8): the master and the low word -/
  | regPairLowRead (master : Fin 2048) (place : RegAt)
  /-- REG_PAIR_HIGH_READ (R8): the master and the high word -/
  | regPairHighRead (master : Fin 2048) (place : RegAt)
  /-- READ_CLEAR_FIELD_READ (R9): the master and the register -/
  | readClearFieldRead (master : Fin 2048) (place : RegAt)
  /-- LANE_ENABLE_SET (R49): the writing master and the lane -/
  | laneEnableSet (master : Fin 2048) (lane : Fin 512)
  /-- LANE_ENABLE_CLEARED (R49): the writing master and the lane -/
  | laneEnableCleared (master : Fin 2048) (lane : Fin 512)
  /-- LANE_TX_EQ_WRITE (R39): the writing master, the lane and the taps -/
  | laneTxEqWrite (master : Fin 2048) (lane : Fin 512) (pre : Fin 16) (post : Fin 32)
  /-- CAGE_POWER_GOOD_LANE_RELEASE (R51): the cage -/
  | cagePowerGoodLaneRelease (cage : Fin 56)
  /-- RECEIVER_DETECTED (R49): the lane -/
  | receiverDetected (lane : Fin 512)
  /-- DETECT_TIMER_EXPIRY (R49): the lane -/
  | detectTimerExpiry (lane : Fin 512)
  /-- BIT_LOCK_ACQUIRED (R49): the lane -/
  | bitLockAcquired (lane : Fin 512)
  /-- SYMBOL_LOCK_ACQUIRED (R49): the lane and MATCH -/
  | symbolLockAcquired (lane : Fin 512) (found : Fin 256)
  /-- REAR_SYMLOCK_TIMEOUT (R49): the lane -/
  | rearSymlockTimeout (lane : Fin 512)
  /-- BITSLIP_SEARCH_STEP (R55): the lane, LOCKED and MATCH in the step's window -/
  | bitslipSearchStep (lane : Fin 512) (locked : Bool) (found : Fin 256)
  /-- LNA_BITSLIP_DELAY_WRITE (R53): the writing master, the lane and DELAY -/
  | lnaBitslipDelayWrite (master : Fin 2048) (lane : Fin 512) (delay : Byte)
  /-- BITSLIP_DELAY_APPLIED (R53): the lane -/
  | bitslipDelayApplied (lane : Fin 512)
  /-- PARTNER_COEFFICIENT_REQUEST (R42): the lane and what its partner asks -/
  | partnerCoefficientRequest (lane : Fin 512) (request : TapRequest)
  /-- TAPS_AGREED (R52): the lane, the die temperature, and on a fabric link the scores the search of R52 measured -/
  | tapsAgreed (lane : Fin 512) (report : TapsReport)
  /-- CAPX_EXCHANGE_COMPLETE (R93): the port and what a PCIe or CXL exchange finds -/
  | capxExchangeComplete (port : Fin 512) (found : Capx)
  /-- LANE_ATTEMPT_TIMER_EXPIRY (R49): the lane -/
  | laneAttemptTimerExpiry (lane : Fin 512)
  /-- LANE_BIT_LOCK_LOST (R49): the lane -/
  | laneBitLockLost (lane : Fin 512)
  /-- DESKEW_FAIL (R56): the fabric link and the skew of each of its lanes -/
  | deskewFail (port : Fin 512) (skews : List Int)
  /-- LANE_RETIREMENT (R65): the lane -/
  | laneRetirement (lane : Fin 512)
  /-- MARGIN_SCAN_START (R59): the writing master, the lane and the word -/
  | marginScanStart (master : Fin 2048) (lane : Fin 512) (value : Word)
  /-- MARGIN_SCAN_ABORT (R59): the writing master, the lane and the word -/
  | marginScanAbort (master : Fin 2048) (lane : Fin 512) (value : Word)
  /-- MARGIN_SCAN_COMPLETE (R58): the lane, the margins of its eyes from the lowest, the die temperature -/
  | marginScanComplete (lane : Fin 512) (eyes : List Eye) (temp : Byte)
  /-- LOAD_TRIGGER_EVALUATION (R60): the port, its utilisation in percent, the die temperature -/
  | loadTriggerEvaluation (port : Fin 512) (util : Fin 101) (temp : Byte)
  /-- FABRIC_LINK_REEQUALISATION (R61): the link, by lane whether POST + 1, POST − 1, PRE + 1 and PRE − 1 leave the four points open, the die temperature -/
  | fabricLinkReequalisation (port : Fin 512) (tries : List (Fin 512 × List Bool)) (temp : Byte)
  /-- PCIE_REEQ_WINDOW_OPEN (R63): the port, whether its host takes up a request for equalisation, the lanes that end below their floors, the die temperature -/
  | pcieReeqWindowOpen (port : Fin 512) (answer : ReeqAnswer) (temp : Byte)
  /-- REEQ_DEFERRED (R63): the port -/
  | reeqDeferred (port : Fin 512)
  /-- FLIT_RECEIVED (R75): the link, the 256 bytes received, and the bodies of the TLP, CXL.mem and management frames that end in them -/
  | flitReceived (port : Fin 512) (bytes : List Byte) (bodies : List Body)
  /-- NAK_RECEIVED (R77): the link and EXPECTED -/
  | nakReceived (port : Fin 512) (expected : Fin 16384)
  /-- REPLAY_TIMER_EXPIRY (R79): the link -/
  | replayTimerExpiry (port : Fin 512)
  /-- ALIGNMENT_MARKER (R71): the link and the skew of each of its lanes by the partner's markers -/
  | alignmentMarker (port : Fin 512) (skews : List Int)
  /-- ECHO_REQ (R94): the link; a request received, its tag and the turnaround in ns, or none as this end sends its own -/
  | echoReq (port : Fin 512) (asked : Option (Nat × Nat))
  /-- ECHO_RSP (R94): the link, the tag and the responder's turnaround in ns -/
  | echoRsp (port : Fin 512) (tag turnaround : Nat)
  /-- PARAMS (R93): the link and what its partner sent -/
  | params (port : Fin 512) (partner : Params)
  /-- LINK_CTL_RETRY_TIMER (R92): the link and the subtype of the request that awaits its answer -/
  | linkCtlRetryTimer (request : CtlAwaited)
  /-- FABRIC_LANE_LOST (R95): the lane -/
  | fabricLaneLost (lane : Fin 512)
  /-- WIDTH_REQ (R95): the link, the new width code and the lane mask -/
  | widthReq (port : Fin 512) (width : Fin 5) (mask : Fin 65536)
  /-- WIDTH_ACK (R95): the link, the new width code and the lane mask -/
  | widthAck (port : Fin 512) (width : Fin 5) (mask : Fin 65536)
  /-- RESUME (R95): the link and the partner's E -/
  | resume (port : Fin 512) (expected : Fin 16384)
  /-- LINK_WIDTH_INCREASE (R96): the link and the width code to reach -/
  | linkWidthIncrease (port : Fin 512) (width : Fin 5)
  /-- SPEED_REQ (R97): the link, the new rate code, and whether this is the SPEED_ACK to a request of this end -/
  | speedReq (port : Fin 512) (frame : SpeedCtl)
  /-- SPEED_CHANGE_TIMEOUT (R97): the link -/
  | speedChangeTimeout (port : Fin 512)
  /-- PAUSE_REQ (R98): the link and the reason -/
  | pauseReq (port : Fin 512) (reason : Byte)
  /-- PAUSE_ACK (R98): the link -/
  | pauseAck (port : Fin 512)
  /-- CREDIT_FRAME_RECEIVED (R89): the window's source and destination FPIDs, and the frame's body -/
  | creditFrameReceived (src dst : Fin 4194304) (kind : CreditKind) (cseq : Fin 65536) (value : Word)
  /-- CREDIT_RETURN_SEND (R86): the window -/
  | creditReturnSend (src dst : Fin 4194304)
  /-- CREDIT_WINDOW_GRANT (R85): the two ports, and the first flow that needs the window -/
  | creditWindowGrant (src dst : Fin 4194304) (gvh : Fin 8388608) (cls : Cls)
  /-- CREDIT_QUIET_POINT (R89): the window -/
  | creditQuietPoint (window : Fin 32768)
  /-- RESYNC_START (R90): the link or port -/
  | resyncStart (port : Fin 512)
  /-- RESYNC_REQ (R90): the window and SENT_CUM -/
  | resyncReq (src dst : Fin 4194304) (sent : Word)
  /-- RESYNC_ACK (R90): the window, CSEQ and the cells held -/
  | resyncAck (src dst : Fin 4194304) (cseq : Fin 65536) (held : Word)
  /-- RESYNC_TIMEOUT (R91): the window -/
  | resyncTimeout (window : Fin 32768)
  /-- PORT_CONFIG (R103): its header and parameters -/
  | portConfig (h : CmdHdr) (fpid : Word) (kind width rate flags : Byte) (lr : Word) (oversub : Byte) (windows : Fin 65536) (pm : Word)
  /-- PORT_ENABLE (R117): its header and parameters -/
  | portEnable (h : CmdHdr) (fpid : Word) (on : Byte)
  /-- EQ_TABLE_LOAD (R47): its header, parameters and where the table comes from -/
  | eqTableLoad (h : CmdHdr) (addr : Nat) (length : Word) (source : Fetch)
  /-- MARGIN_SCAN (R376): its header and parameters -/
  | marginScan (h : CmdHdr) (first : Fin 65536) (count dwell errLimit axes hfloor vfloor : Byte)
  /-- BITSLIP (R376): its header, parameters, and what the window after it finds -/
  | bitslip (h : CmdHdr) (lane : Fin 65536) (delay : Byte) (locked : Bool) (found : Fin 256)
  /-- RETRAIN (R49): its header and parameters -/
  | retrain (h : CmdHdr) (object : Word) (flags : Byte)
  /-- TLP_INGRESS (R145): the port it arrives at and the TLP as received -/
  | tlpIngress (port : Fin 512) (t : Tlp)
  /-- TLP_EGRESS (R147): the port whose oldest frame leaves -/
  | tlpEgress (port : Fin 512)
  /-- CXL_MEM_REQUEST (R244): the CXL port and the message -/
  | cxlMemRequest (port : Fin 512) (m : MemMsg)
  /-- INTX_MESSAGE (R127): Assert_INTx or Deassert_INTx of a function behind virtual downstream port k reaches the upstream edge. -/
  | intxMessage (lvid : Fin 1024) (k : Fin 64) (fn : Fin 256) (wire : Fin 4) (assert : Bool)
  /-- ERROR_MESSAGE (R266): ERR_COR, ERR_NONFATAL or ERR_FATAL from an endpoint. -/
  | errorMessage (port : Fin 512) (ep : Fin 128) (severity : Fin 3)
  /-- PME_TURN_OFF (R125) -/
  | pmeTurnOff (port : Fin 512)
  /-- PME_TO_ACK (R125): of the endpoint at binding k. -/
  | pmeToAck (lvid : Fin 1024) (k : Fin 64)
  /-- PME_TO_ACK_TIMEOUT (R125) -/
  | pmeToAckTimeout (lvid : Fin 1024)
  /-- LTR_MESSAGE (R137): the FPID of the endpoint's port, the endpoint at it, the smaller of the snoop and no-snoop values. -/
  | ltrMessage (fpid : Fin 4194304) (ep : Fin 128) (required : Bool) (ns : Nat)
  /-- LTR_UPSTREAM_SEND (R138) -/
  | ltrUpstreamSend (port : Fin 512)
  /-- MESSAGE_DISCARDED (R149) -/
  | messageDiscarded (port : Fin 512)
  /-- MRDLK (R158): an MRdLk from the upstream port src of a Vitrine reaches the destination edge of a port, with its substituted tag. -/
  | mrdlk (port : Fin 512) (src : Fin 4194304) (gvh : Fin 8388608) (t : Tlp)
  /-- CPLDLK (R158): a locked completion comes from the endpoint of a port. -/
  | cpldlk (port : Fin 512) (t : Tlp) (withData : Bool)
  /-- UNLOCK (R158): an Unlock from a Vitrine reaches the destination edge of a port. -/
  | unlock (port : Fin 512) (gvh : Fin 8388608)
  /-- LOCK_TIMER_EXPIRY (R158) -/
  | lockTimerExpiry (port : Fin 512)
  /-- LOCK_SIDE_LIST_MOVE (R159) -/
  | lockSideListMove (queue : Fin 65536)
  /-- COMPLETION_RECEIVED (R257): a completion TLP or CXL.mem response from the link partner of a port. -/
  | completionReceived (port : Fin 512) (body : Body)
  /-- TRACKER_DEADLINE (R273) -/
  | trackerDeadline (handle : Fin 262144)
  /-- LATE_COMPLETION (R274): from the link partner of a port, or in a frame from a completer port. -/
  | lateCompletion (port : Fin 512) (source : Option (Fin 4194304)) (body : Body)
  /-- UNEXPECTED_COMPLETION (R276) -/
  | unexpectedCompletion (port : Fin 512) (source : Option (Fin 4194304)) (body : Body)
  /-- TAG_QUARANTINE_EXPIRY (R274) -/
  | tagQuarantineExpiry (port : Fin 512) (tag : Nat)
  /-- LATE_RECORD_EXPIRY (R275) -/
  | lateRecordExpiry (completer : Fin 4194304) (requester : Fin 65536) (tag : Nat)
  /-- DRS_RECEIVED (R122) -/
  | drsReceived (port : Fin 512) (ep : Fin 128)
  /-- DRS_WAIT_EXPIRY (R122) -/
  | drsWaitExpiry (port : Fin 512)
  /-- RRS_RETRY_LIMIT (R122) -/
  | rrsRetryLimit (port : Fin 512) (ep : Fin 128)
  /-- PENDING_ENDPOINT_RESET (R118): the link is DL_Active again. -/
  | pendingEndpointReset (port : Fin 512)
  /-- HOST_PERST_ASSERTED (R120) -/
  | hostPerstAsserted (cage : Fin 64)
  /-- HOT_RESET_RECEIVED (R117) -/
  | hotResetReceived (port : Fin 512)
  /-- UPSTREAM_DL_ACTIVE_LOST (R117) -/
  | upstreamDlActiveLost (port : Fin 512)
  /-- UPSTREAM_DL_ACTIVE (R249) -/
  | upstreamDlActive (port : Fin 512)
  /-- RRS_EXPIRED (R142) -/
  | rrsExpired (port : Fin 512)
  /-- SURPRISE_REMOVAL (R135): the link left DL_Active, or presence was lost. -/
  | surpriseRemoval (port : Fin 512) (presence : Bool)
  /-- PRESENCE_DEBOUNCED (R136) -/
  | presenceDebounced (cage : Fin 64)
  /-- ATTENTION_BUTTON (R152): held for 20 ms, or let go -/
  | attentionButton (button : ButtonEvent)
  /-- SIDEBAND_FRAME (R151): where the source is port 447, also the Type-C port whose tunnel or VBUS switch it concerns (log entry 17). -/
  | sidebandFrame (source : Fin 4194304) (kind : Fin 256) (state value : Byte) (tag : SidebandTag)
  /-- SLOT_CONTROL_WRITE (R153): of virtual downstream port k: Power Controller Control, the indicators, Hot-Plug Interrupt Enable, and the event enables in bits 0, 1, 3, 4 and 12. -/
  | slotControlWrite (lvid : Fin 1024) (k : Fin 64) (off : Bool) (attention power : Fin 4) (irq : SlotEnables)
  /-- BAR_WRITE (R216): a register of BAR number `bar` of the bound function, its upper or lower half; a wide BAR has two registers. -/
  | barWrite (lvid : Fin 1024) (k : Fin 64) (bar : Fin 6) (upper wide : Bool) (value : Word)
  /-- SECONDARY_BUS_RESET (R118): a Secondary Bus Reset, or a new value of Link Disable. -/
  | secondaryBusReset (lvid : Fin 1024) (k : Fin 64) (disable : Option Bool)
  /-- ENDPOINT_FLR (R124): the host's port and its write of the function's Device Control -/
  | endpointFlr (port : Fin 512) (t : Tlp)
  /-- DPC_TRIGGER_STATUS_CLEAR (R266) -/
  | dpcTriggerStatusClear (lvid : Fin 1024) (k : Fin 64)
  /-- ASPM_L1_IDLE_TIMER (R139): `enabled` has bit n for each substate L1.n the link partner has enabled. -/
  | aspmL1IdleTimer (port : Fin 512) (enabled : Fin 8)
  /-- ENDPOINT_L1_REQUEST (R139): `enabled` has bit n for each substate L1.n the endpoint has enabled. -/
  | endpointL1Request (port : Fin 512) (enabled : Fin 8)
  /-- L0P_EVALUATION (R139): utilisation over 1 ms in tenths of a percent of full width; both ends support L0p. -/
  | l0pEvaluation (port : Fin 512) (util : Fin 1001) (supported : Bool)
  /-- FRAME_ADMISSION (R179) -/
  | frameAdmission
  /-- FRAME_SELECTION (R221): the output, and what reading the frame's cells finds -/
  | frameSelection (port : Fin 512) (cells : CellError)
  /-- AGE_DISCARD (R189): the frame at the head of a queue -/
  | ageDiscard (queue : Fin 65536)
  /-- QUEUE_HEAD_AGE_CHECK (R189) -/
  | queueHeadAgeCheck
  /-- LINK_ECC (R195): the queue and how many of its frames it can still reach -/
  | linkEcc (queue : Fin 65536) (reach : Nat)
  /-- CELL_AUDIT (R195): whether cells are missing without a recorded error -/
  | cellAudit (missing : Bool)
  /-- FRAME_ROUTE (R202) -/
  | frameRoute
  /-- LINK_WITHDRAWAL (R214): the fabric link -/
  | linkWithdrawal (port : Fin 512)
  /-- WITHDRAWN_CLEAR (R214): the master, the slot and the word -/
  | withdrawnClear (master : Fin 2048) (slot : Fin 65536) (value : Word)
  /-- PATH_PIN_ENTRY_WRITE (R206): the master, the entry and word 0 -/
  | pathPinEntryWrite (master : Fin 2048) (entry : Fin 16384) (value : Word)
  /-- PIN_CUT_POINT (R210) -/
  | pinCutPoint
  /-- REPIN_ABORTED (R209): the cut point, the modules that hold entries, the command that asked -/
  | repinAborted (tcut : Nat) (modules : List (Fin 8192)) (command : Option CmdHdr)
  /-- DRAIN (R211): the window and class of the marker -/
  | drain (src dst : Fin 4194304) (cls : Cls)
  /-- DRAIN_ACK (R211): the window and class answered -/
  | drainAck (src dst : Fin 4194304) (cls : Cls)
  /-- DRAIN_CAP_EXPIRY (R211): the window and class -/
  | drainCapExpiry (window : Fin 32768) (cls : Cls)
  /-- OLD_PATH_EXPIRY (R212) -/
  | oldPathExpiry
  /-- ATT_ENTRY_WRITE (R215): the master, the entry and word 0 -/
  | attEntryWrite (master : Fin 2048) (entry : Fin 65536) (value : Word)
  /-- SHAPER_WHEEL_SLOT (R228) -/
  | shaperWheelSlot
  /-- WR_SHP_RATE_WRITE (R227): the writing master and the word -/
  | wrShpRateWrite (master : Fin 2048) (value : Word)
  /-- GATE_BANK_COUNT_WRITE (R239): the master, the bank and the word -/
  | gateBankCountWrite (master : Fin 2048) (port : Fin 512) (bank : Fin 2) (value : Word)
  /-- GATE_LIST_START (R230): the output -/
  | gateListStart (port : Fin 512)
  /-- GATE_ENTRY_BOUNDARY (R229): the output -/
  | gateEntryBoundary (port : Fin 512)
  /-- GUARD_BAND_RECOMPUTE (R233): the output -/
  | guardBandRecompute (port : Fin 512)
  /-- B_OVERSIZE (R234): the class B queue -/
  | bOversize (queue : Fin 65536)
  /-- SHAPER_AUDIT (R238): shapers a fault let exceed their bound -/
  | shaperAudit (faulty : List (Fin 16384))
  /-- SHAPER_SET (R378): rate in Mb/s, burst in bytes; an owner of 0xFFFF_FFFF is none. -/
  | shaperSet (h : CmdHdr) (shaper : Fin 65536) (flags : Byte) (queues : List (Fin 65536)) (owner rate burst : Word)
  /-- QUANTUM_SET (R225): quantum in bytes. -/
  | quantumSet (h : CmdHdr) (queue : Fin 65536) (quantum : Word)
  /-- GATE_LIST_LOAD (R229): the COUNT entry words lie at addr. -/
  | gateListLoad (h : CmdHdr) (fpid : Word) (count bmax : Fin 65536) (base : Nat) (cycle : Word) (addr : Nat) (source : Fetch)
  /-- AGE_LIMIT_SET (R235): limit in µs. -/
  | ageLimitSet (h : CmdHdr) (cls : Byte) (limit : Word)
  /-- VITRINE_CREATE (R245) -/
  | vitrineCreate (h : CmdHdr) (fpid : Word) (lvid : Fin 65536) (nvdp cto : Byte) (flags minimum quota : Word) (shapers channels : Byte)
  /-- VITRINE_DESTROY (R255) -/
  | vitrineDestroy (h : CmdHdr) (gvh : Word)
  /-- BIND_ENDPOINT (R250): `far` is the answer of another module that holds the endpoint. -/
  | bindEndpoint (h : CmdHdr) (gvh fpid : Word) (ld k cls : Byte) (share : Fin 65536) (far : RemoteEp)
  /-- UNBIND_ENDPOINT (R251) -/
  | unbindEndpoint (h : CmdHdr) (gvh : Word) (k : Byte)
  /-- VITRINE_SET (R129) -/
  | vitrineSet (h : CmdHdr) (gvh : Word) (cto flags : Byte)
  /-- VITRINE_HOT_RESET (R254) -/
  | vitrineHotReset (lvid : Fin 1024)
  /-- INFLIGHT_COUNT_ZERO (R249): of the Vitrine, or of binding k being unbound. -/
  | inflightCountZero (lvid : Fin 1024) (k : Option (Fin 64))
  /-- INFLIGHT_REPORT (R252) -/
  | inflightReport (modul : Fin 8192) (gvh : Fin 8388608) (count : Nat)
  /-- SQUASH_TIMEOUT (R256): of a reset or destroy, or of the unbind of k. -/
  | squashTimeout (lvid : Fin 1024) (k : Option (Fin 64))
  /-- FREEZE (R258): TCUT1 in ticks of fabric time. -/
  | freeze (h : CmdHdr) (gvh : Word) (tcut : Nat)
  /-- FREEZE_CUT_POINT (R258) -/
  | freezeCutPoint (lvid : Fin 1024)
  /-- FREEZE_TIMEOUT (R258) -/
  | freezeTimeout (lvid : Fin 1024)
  /-- SAVE (R260) -/
  | save (h : CmdHdr) (gvh : Word)
  /-- RESTORE (R261): `image` is what the source module, or the composition store, answers. -/
  | restore (h : CmdHdr) (gvh fpid : Word) (lvid source : Fin 65536) (image : Option Image)
  /-- THAW (R262): TCUT2 in ticks of fabric time. -/
  | thaw (h : CmdHdr) (gvh : Word) (modul : Fin 65536) (tcut : Nat)
  /-- THAW_CUT_POINT (R262): whether the module it moves from holds a reset under R121, where that is another module -/
  | thawCutPoint (cut : ThawCut)
  /-- THAW_COMPLETE_RELEASE (R263): the module the Vitrine now runs on. -/
  | thawCompleteRelease (lvid : Fin 1024) (target : Fin 8192)
  /-- CLASS3_ERROR (R270): the port, and the endpoint where the port is 447 -/
  | class3Error (port : Fin 512) (ep : Fin 128) (error : Fin 5)
  /-- CLASS4_CONDITION (R270): the fabric link and the condition -/
  | class4Condition (port : Fin 512) (fault : LinkFault)
  /-- CONTAINMENT_NOTICE (R268): the module that sends it, the scope, the FPID or handle, the cause -/
  | containmentNotice (source : Fin 8192) (scope : Fin 4) (id : Fin 8388608) (cause : Fin 4)
  /-- NOTICE_REPEAT_TIMER (R268): the module that has not acknowledged, the scope and local ID -/
  | noticeRepeatTimer (modul : Fin 8192) (scope : Fin 4) (id : Fin 1024)
  /-- ACCESSION_START (R486): the endpoint and what is found there -/
  | accessionStart (port : Fin 512) (ep : Fin 128) (found : Found)
  /-- ACCESSION_SUCCEEDS (R270): the endpoint and its SPDM identity, none without a responder -/
  | accessionSucceeds (port : Fin 512) (ep : Fin 128) (identity : Option Nat)
  /-- ACCESSION_FAILED (R270): the endpoint -/
  | accessionFailed (port : Fin 512) (ep : Fin 128) (responder : Bool)
  /-- ACCESSION_LIMIT (R486): the endpoint -/
  | accessionLimit (port : Fin 512) (ep : Fin 128)
  /-- SLUICE_RELEASE (R272): its header, the scope, the FPID or handle, the ESEQ -/
  | sluiceRelease (h : CmdHdr) (scope : Fin 4) (object : Word) (eseq : Nat)
  /-- RELEASE_COMPLETE (R272): the object -/
  | releaseComplete (scope : Fin 4) (id : Fin 1024)
  /-- RELEASE_FAILED (R272): the object -/
  | releaseFailed (scope : Fin 4) (id : Fin 1024)
  /-- MASKED_SUMMARY (R529) -/
  | maskedSummary
  /-- STAGING_COPY (R280) -/
  | stagingCopy
  /-- FAULT_INJECT (R281): its header and parameters -/
  | faultInject (h : CmdHdr) (point : Byte) (count : Word) (target argument : Nat)
  /-- EVENT_LOG_READ (R376): its header and parameters -/
  | eventLogRead (h : CmdHdr) (first : Nat) (most : Word) (dest : Nat)
  /-- USB4_ATTACH (R283): the partner found, the link trained as a LINK code, and whether cable and partner support asymmetric operation -/
  | usb4Attach (port : Fin 16) (partner : Usb4Partner) (trained : Fin 5) (asym : Bool)
  /-- USB4_LINK_LOSS (R294): a front port -/
  | usb4LinkLoss (port : Fin 16)
  /-- DP_BANDWIDTH_REQUEST (R288): in units of 0.5 Gb/s; `far` is, at the module of the Console Engine named, the answer of the hub of another module that holds the tunnel -/
  | dpBandwidthRequest (port : Fin 16) (tunnel : Fin 2) (ask : DpAsk)
  /-- USB4_POOL_SHRINK (R289): the LINK code the link retrains at -/
  | usb4PoolShrink (port : Fin 16) (link : Fin 5)
  /-- SYMMETRY_EVALUATION (R290): demand in tenths of Gb/s toward and from the partner, over 100 ms and over 1 s -/
  | symmetryEvaluation (port : Fin 16) (to100 from100 to1s from1s : Nat)
  /-- PCIE_TUNNEL_ESTABLISH (R291): the devices enumeration finds, and whether the hierarchy is deeper than two switch levels -/
  | pcieTunnelEstablish (port : Fin 16) (found : List Found) (deep : Bool)
  /-- TUN_CE_MODE_WRITE (R297): by the bound host -/
  | tunCeModeWrite (engine : Fin 64) (value : Word)
  /-- TUN_CE_SCANOUT_WRITE (R300): by the bound host -/
  | tunCeScanoutWrite (engine : Fin 64) (value : Word)
  /-- VERTICAL_BLANKING (R300): an engine -/
  | verticalBlanking (engine : Fin 64)
  /-- CONSOLE_ENGINE_FLR (R295): an engine -/
  | consoleEngineFlr (engine : Fin 64)
  /-- STREAM_BUDGET_FREED (R298): capacity has been freed -/
  | streamBudgetFreed
  /-- DP_SINK_REAPPEARS (R302): the timings its EDID lists; `far` is the Console Engine of this module whose destination on another module it is -/
  | dpSinkReappears (port : Fin 16) (tunnel : Fin 2) (sink : DpSink)
  /-- CONSOLE_FRAME (R303): from the hub of another module -/
  | consoleFrame (source : Fin 8192) (frame : ConsoleFrame)
  /-- CONSOLE_LINE_DUE (R304): the module of the engine: another, whose line is due here, with the first pixels of its segments; this one, which fetches the line and sends it (R303) -/
  | consoleLineDue (source : Fin 8192) (engine : Fin 64) (line : Fin 65536) (segments : List (Fin 65536))
  /-- CONSOLE_SEGMENTS (R304): each second -/
  | consoleSegments
  /-- CONSOLE_ATTACH (R302): `far` is the status another module answers for its tunnel -/
  | consoleAttach (h : CmdHdr) (engine : Byte) (dest : Fin 65536) (port tunnel : Byte) (far : Nat)
  /-- CONSOLE_DETACH (R302): an engine -/
  | consoleDetach (h : CmdHdr) (engine : Byte)
  /-- TUNNEL_CONFIG (R376): the TUN_PORT_CFG word -/
  | tunnelConfig (h : CmdHdr) (port : Byte) (value : Word)
  /-- SERVICE_OWNER (R308): front port, 0xFF for none; 1 to pin -/
  | serviceOwner (h : CmdHdr) (port pin : Byte)
  /-- SERVICE_CANDIDATE_ATTACH (R307): a host attaches to a front port; whether it is a USB4 host -/
  | serviceCandidateAttach (port : Fin 16) (usb4 : Bool)
  /-- OWNER_DETACH (R308): the owner's partner detaches -/
  | ownerDetach
  /-- OWNER_WAIT_EXPIRY (R308): the 1 s wait ends -/
  | ownerWaitExpiry
  /-- OWNER_CHANGED (R309): the hub connects to the owner; the speed at which its host configures the Management USB Device, 0 when it does not -/
  | ownerChanged (speed : Fin 4)
  /-- USBA_OVERCURRENT (R311): a USB-A port -/
  | usbaOvercurrent (port : Fin 4)
  /-- USH_MUD_CONNECT_WRITE (R313): the writing master, the word, and the speed at which the host configures the device -/
  | ushMudConnectWrite (master : Fin 2048) (value : Word) (speed : Fin 4)
  /-- GET_INFO (R314): wLength -/
  | getInfo (len : Fin 65536)
  /-- SUBMIT_COMMAND (R318): wLength, the buffer in the Curator region, the data stage, and whether the status stage completes -/
  | submitCommand (len : Fin 65536) (addr : Nat) (data : List Byte) (completes : Bool)
  /-- GET_RESPONSE (R315): wLength and the tag -/
  | getResponse (len tag : Fin 65536)
  /-- IMAGE_BEGIN (R316): wLength, the session, and whether the status stage completes -/
  | imageBegin (len : Fin 65536) (target length crc : Word) (completes : Bool)
  /-- IMAGE_DATA (R316): a transfer on endpoint 0x01 -/
  | imageData (data : List Byte)
  /-- IMAGE_COMMIT (R316): wLength, and whether the status stage completes -/
  | imageCommit (len : Fin 65536) (completes : Bool)
  /-- IMAGE_ABORT (R316): wLength, and whether the status stage completes -/
  | imageAbort (len : Fin 65536) (completes : Bool)
  /-- LOG_OPEN (R317): wLength, the source, the first ESEQ, and whether the status stage completes -/
  | logOpen (len : Fin 65536) (source : Word) (start : Nat) (completes : Bool)
  /-- LOG_CLOSE (R317): wLength, and whether the status stage completes -/
  | logClose (len : Fin 65536) (completes : Bool)
  /-- LOG_PIPE_SEND (R317): the records an armed transfer has room for -/
  | logPipeSend (count : Nat)
  /-- USB_BUS_RESET (R318): a disconnect rather than a reset, whether a state-changing request was under way, and the speed the device is configured at again -/
  | usbBusReset (gone abandons : Bool) (speed : Fin 4)
  /-- RESPONSE_EXPIRY (R315): the tag -/
  | responseExpiry (tag : Fin 65536)
  /-- USB_LPM_REQUEST (R319): 1 L1, 2 U1, 3 U2, and the BESL of an L1 token -/
  | usbLpmRequest (state : Fin 4) (besl : Fin 16)
  /-- USB_IDLE_LINK_ENTRY (R319): U2 rather than U1, and whether the host has enabled it -/
  | usbIdleLinkEntry (u2 enabled : Bool)
  /-- REMOTE_WAKE (R320): the device signals wake -/
  | remoteWake
  /-- HOST_RESUME (R321): the host resumes the device -/
  | hostResume
  /-- PD_PORT_DISABLED (R323): the front port -/
  | pdPortDisabled (port : Fin 16)
  /-- MOISTURE_CHECK (R326): the front port and the reading -/
  | moistureCheck (port : Fin 16) (reading : Moisture)
  /-- MOISTURE_RECHECK (R327): the front port and the reading -/
  | moistureRecheck (port : Fin 16) (reading : Moisture)
  /-- CORROSION (R327): the front port -/
  | corrosion (port : Fin 16)
  /-- TYPEC_ATTACH (R323): the front port, whether it attaches as source, and whether the partner is on CC2 -/
  | typecAttach (port : Fin 16) (source cc2 : Bool)
  /-- CABLE_MARKER_READ (R328): the front port and the answer -/
  | cableMarkerRead (port : Fin 16) (marker : Marker)
  /-- CABLE_MARKER_TIMEOUT (R285): the front port -/
  | cableMarkerTimeout (port : Fin 16)
  /-- SOURCE_CAPABILITIES_OFFER (R331): the front port -/
  | sourceCapabilitiesOffer (port : Fin 16)
  /-- PD_REQUEST (R331): the front port and what its sink asks -/
  | pdRequest (port : Fin 16) (request : PdRequest)
  /-- VBUS_WITHIN_RANGE (R323): the front port -/
  | vbusWithinRange (port : Fin 16)
  /-- PD_HEADROOM_GROWTH (R332): the PD pool's headroom has grown -/
  | pdHeadroomGrowth
  /-- PD_POOL_SHED (R332): the PD pool has shrunk -/
  | pdPoolShed
  /-- EPR_KEEPALIVE_LAPSE (R333): the front port -/
  | eprKeepaliveLapse (port : Fin 16)
  /-- SWAP_REQUEST (R334): the front port, the swap, who asks, and whether a partner asked by the module is able and accepts -/
  | swapRequest (port : Fin 16) (swap : PdSwap) (byPartner able : Bool)
  /-- SWAP_COMPLETE (R323): the front port -/
  | swapComplete (port : Fin 16)
  /-- SWAP_RETRY_HOLD_EXPIRY (R334): the front port -/
  | swapRetryHoldExpiry (port : Fin 16)
  /-- PD_HARD_RESET (R335): the front port -/
  | pdHardReset (port : Fin 16)
  /-- HARD_RESET_RECOVERY (R323): the front port -/
  | hardResetRecovery (port : Fin 16)
  /-- CC_OPEN (R337): the front port -/
  | ccOpen (port : Fin 16)
  /-- DISCHARGE_COMPLETE (R323): the front port -/
  | dischargeComplete (port : Fin 16)
  /-- DISCHARGE_TIMEOUT (R338): the front port and VBUS in mV -/
  | dischargeTimeout (port : Fin 16) (mv : Fin 65536)
  /-- PD_POLICY_SET (R339): front port, swap to request, PD_PORT_POLICY word, and whether the partner is able and accepts -/
  | pdPolicySet (h : CmdHdr) (port swap : Byte) (policy : Word) (able : Bool)
  /-- FEED_PRESENT (R341): feed A or B, its voltage and frequency -/
  | feedPresent (feed : Fin 2) (vrms : Fin 512) (freq : Fin 256)
  /-- FEED_LOST (R341): feed A or B, its voltage and frequency -/
  | feedLost (feed : Fin 2) (vrms : Fin 512) (freq : Fin 256)
  /-- LINE_CATEGORY_CHANGE (R342): feed A or B -/
  | lineCategoryChange (feed : Fin 2) (high : Bool)
  /-- LOAD_SHEDDING (R346): the pools have shrunk -/
  | loadShedding
  /-- STAGE_LOST (R348): the conversion stage -/
  | stageLost (stage : Fin 3)
  /-- BOTH_FEEDS_LOST (R347): for longer than 12 ms -/
  | bothFeedsLost
  /-- BUDGET_SET (R345): pools in W -/
  | budgetSet (h : CmdHdr) (highCage highPd lowCage lowPd : Fin 65536)
  /-- EFUSE_ENABLE (R154): cage, slot power limit, PRIORITY -/
  | efuseEnable (h : CmdHdr) (cage value scale priority : Byte)
  /-- EFUSE_DISABLE (R352): cage -/
  | efuseDisable (h : CmdHdr) (cage : Byte)
  /-- EF_CTL_ENABLE (R350): the writing master, the e-fuse and the word -/
  | efCtlEnable (master : Fin 2048) (fuse : Fin 72) (value : Word)
  /-- EF_CTL_DISABLE (R352): the writing master, the e-fuse and the word -/
  | efCtlDisable (master : Fin 2048) (fuse : Fin 72) (value : Word)
  /-- EFUSE_GATE_CHECK (R356): the e-fuse and its gate-source voltage in 0.1 V -/
  | efuseGateCheck (fuse : Fin 72) (vgs : Fin 256)
  /-- EFUSE_GATE_FULL (R352): the e-fuse -/
  | efuseGateFull (fuse : Fin 72)
  /-- EFUSE_POWER_GOOD (R353): the e-fuse -/
  | efusePowerGood (fuse : Fin 72)
  /-- EFUSE_CURRENT_LIMIT (R354): the e-fuse and its current in mA -/
  | efuseCurrentLimit (fuse : Fin 72) (ma : Fin 65536)
  /-- EFUSE_CURRENT_NORMAL (R352): the e-fuse and its current in mA -/
  | efuseCurrentNormal (fuse : Fin 72) (ma : Fin 65536)
  /-- EFUSE_FAULT_TIMER_EXPIRY (R352): the e-fuse -/
  | efuseFaultTimerExpiry (fuse : Fin 72)
  /-- EFUSE_FAST_TRIP (R352): the e-fuse and its current in mA -/
  | efuseFastTrip (fuse : Fin 72) (ma : Fin 65536)
  /-- EFUSE_RETRY (R355): the e-fuse -/
  | efuseRetry (fuse : Fin 72)
  /-- EFUSE_PRESENCE_CHANGE (R352): the e-fuse -/
  | efusePresenceChange (fuse : Fin 72)
  /-- EFUSE_RETRIES_CLEAR (R352): the e-fuse -/
  | efuseRetriesClear (fuse : Fin 72)
  /-- BACKFEED (R357): the front port and the output in mV -/
  | backfeed (port : Fin 16) (mv : Fin 65536)
  /-- VBUS_SWITCH_TEST (R357): the front port, and whether the output rises with the converter at 5 V and the switch off -/
  | vbusSwitchTest (port : Fin 16) (rises : Bool)
  /-- CAGE_PRESENCE_LOST_POWERED (R518): the cage -/
  | cagePresenceLostPowered (cage : Fin 56)
  /-- CAGE_ID (R519): the cage and its identification block, none when it does not answer -/
  | cageId (cage : Fin 56) (block : Option (List Byte))
  /-- CAGE_ALERT (R520): the cage and STATUS -/
  | cageAlert (cage : Fin 56) (status : Byte)
  /-- COMMAND_NOTICE_INTAKE (R363): a notice to the Curator; for a VMF's, `.remote none` issues the descriptor read and `.remote (some bytes)` is its completion -/
  | commandNoticeIntake (channel : Fin 256) (source : Fetch)
  /-- COMMAND_DONE (R364): the result of the module that ran it, if another did, whether the Registrar has recorded the change on all three replicas (R372), and whether the caller's memory can be written -/
  | commandDone (h : CmdHdr) (far : Option RemoteResult) (commit : CmdCommit)
  /-- COMMAND_FORWARD (R366): a command another module forwards to this one -/
  | commandForward (h : CmdHdr) (source : Fin 8192) (x : Descriptor)
  /-- REMOTE_PROGRESS (R366): progress received from a module, or sent to the module that forwarded the command -/
  | remoteProgress (h : CmdHdr) (source : Option (Fin 8192))
  /-- REMOTE_TIMEOUT (R366): a forwarded command -/
  | remoteTimeout (h : CmdHdr)
  /-- OBJECT_WAIT_TIMEOUT (R371): a command that waits for its objects -/
  | objectWaitTimeout (h : CmdHdr)
  /-- MODULE_INFO (R376): its header -/
  | moduleInfo (h : CmdHdr)
  /-- PORT_LIST (R376): first local port -/
  | portList (h : CmdHdr) (first : Fin 65536)
  /-- ENDPOINT_LIST (R376): first index -/
  | endpointList (h : CmdHdr) (first : Word)
  /-- ENDPOINT_INFO (R376): FPID and LD-ID -/
  | endpointInfo (h : CmdHdr) (fpid : Word) (ld : Byte)
  /-- VITRINE_INFO (R376): the handle -/
  | vitrineInfo (h : CmdHdr) (gvh : Word)
  /-- POWER_STATE (R503): the header, the state asked for, the AUTO byte -/
  | powerState (h : CmdHdr) (target auto : Byte)
  /-- CATALOGUE_CONFIG (R445): its parameters -/
  | catalogueConfig (h : CmdHdr) (scope dest : Byte) (count : Fin 65536) (first : Word) (period ring : Word) (addr : Nat)
  /-- SPECIMEN_CONFIG (R451): its parameters -/
  | specimenConfig (h : CmdHdr) (on k : Byte) (mask : Fin 65536) (port gvh ring : Word) (addr : Nat)
  /-- COUNTER_CLEAR_STICKY (R439): the counters, count 0 for the whole bank -/
  | counterClearSticky (h : CmdHdr) (bank : Word) (first count : Byte)
  /-- TIME_GET (R376): its header -/
  | timeGet (h : CmdHdr)
  /-- TIME_SOURCE_SET (R423): source, priority, and whether the source has a signal -/
  | timeSourceSet (h : CmdHdr) (source prio : Byte) (signal : Bool)
  /-- SCHEDULE (R379): fabric time, and the second descriptor's address and bytes -/
  | schedule (h : CmdHdr) (time addr : Nat) (source : Fetch)
  /-- SCHEDULE_CANCEL (R379): schedule ID -/
  | scheduleCancel (h : CmdHdr) (id : Fin 65536)
  /-- SCHEDULED_COMMAND_DUE (R431): the schedule ID -/
  | scheduledCommandDue (id : Fin 65536)
  /-- IMAGE_STAGE (R380): target, length, address, CRC-32, and the bytes -/
  | imageStage (h : CmdHdr) (target : Byte) (length : Word) (addr : Nat) (crc : Word) (source : Fetch)
  /-- FW_WRITE (R380): target, whether a Curator image's signature checks, whether the copy written checks valid, and the image's version -/
  | fwWrite (h : CmdHdr) (target : Byte) (signed checks : Bool) (version : Fin 65536)
  /-- FW_ACTIVATE (R380): image 0 A, 1 B; 1 to reset the module -/
  | fwActivate (h : CmdHdr) (image reset : Byte)
  /-- ROLE_SET (R380): Docent and role -/
  | roleSet (h : CmdHdr) (docent role : Byte)
  /-- RANGE_SET (R162): table entry, its words and the translated address -/
  | rangeSet (h : CmdHdr) (entry flags : Byte) (base limit attr fpid : Word) (addr : Nat)
  /-- MODULE_RESET (R376): the word that confirms -/
  | moduleReset (h : CmdHdr) (confirm : Word)
  /-- MAILBOX_POST (R390): the writing master, the channel and PTR_HI -/
  | mailboxPost (master : Fin 2048) (channel : Fin 256) (value : Word)
  /-- MAILBOX_POP (R390): the writing master, the channel and the word written to MBX_CH_CTL -/
  | mailboxPop (master : Fin 2048) (channel : Fin 256) (value : Word)
  /-- MBX_LOCK_WRITE (R394): the writing master and the word -/
  | mbxLockWrite (master : Fin 2048) (value : Word)
  /-- CHANNEL_ABORTED (R395): the master that is reset, and REASON -/
  | channelAborted (master : Fin 2048) (reason : Fin 16)
  /-- VMF_BME_CLEAR (R400): the VMF -/
  | vmfBmeClear (lvid : Fin 1024)
  /-- VMF_FLR (R401): the VMF -/
  | vmfFlr (lvid : Fin 1024)
  /-- VMF_READ_TIMEOUT (R399): the VMF -/
  | vmfReadTimeout (lvid : Fin 1024)
  /-- DOC_CORE_RUN_SET (R404): the master and the word written to DOC_CORE_CTL -/
  | docCoreRunSet (master : Fin 2048) (core : Fin 16) (value : Word)
  /-- DOCENT_RESET (R418): the master and the word written to DOC_CORE_CTL -/
  | docentReset (master : Fin 2048) (core : Fin 16) (value : Word)
  /-- DOCENT_FENCE (R413): the core -/
  | docentFence (core : Fin 16)
  /-- DOCENT_STORE (R409): the core, the address in the Docent map, the bytes stored -/
  | docentStore (core : Fin 16) (addr : Nat) (data : List Byte)
  /-- STORE_BUFFER_ENTRY_DELIVERY (R410): the core, and which of the two paths -/
  | storeBufferEntryDelivery (core : Fin 16) (cached : Bool)
  /-- WINDOW_STORE_ACCEPTED (R168): the master whose oldest window store is tried, and a store that the Curator makes before it -/
  | windowStoreAccepted (tried : WindowTry)
  /-- DOCENT_WINDOW_LOAD (R163): the master, the window offset, the bytes loaded -/
  | docentWindowLoad (master : Fin 2048) (off : Nat) (bytes : Fin 9)
  /-- PREFETCH_MISS_FETCH (R164): the master whose oldest miss is fetched -/
  | prefetchMissFetch (master : Fin 2048)
  /-- HELD_READ_DETACH (R166): the master whose segment an inbound access has waited 256 ns for -/
  | heldReadDetach (master : Fin 2048)
  /-- PARKED_COMPLETION_REPLAY (R166): the master whose segment has a free cycle -/
  | parkedCompletionReplay (master : Fin 2048)
  /-- WINDOW_READ_ERROR (R167): the tracker entry of the read, the status it ends with -/
  | windowReadError (handle : Fin 262144) (status : Fin 8)
  /-- PREFETCH_LINE_EXPIRY (R165) -/
  | prefetchLineExpiry
  /-- DOCENT_LR (R415): the core, the address, 4 or 8 bytes, whether its loop is constrained -/
  | docentLr (core : Fin 16) (addr : Nat) (bytes : Fin 9) (constrained : Bool)
  /-- DOCENT_SC (R415): the core, the address, the bytes, whether it fails without a cause -/
  | docentSc (core : Fin 16) (addr : Nat) (data : List Byte) (spurious : Bool)
  /-- DOCENT_DEVICE_ATOMIC (R417): the core, an address outside memory, 0 LR, 1 SC, 2 AMO -/
  | docentDeviceAtomic (core : Fin 16) (addr : Nat) (kind : Fin 3)
  /-- DOCENT_WFI (R418): the core -/
  | docentWfi (core : Fin 16)
  /-- DOCENT_TIMER_INTERRUPT (R405): the core, whether its enables let it take the interrupt -/
  | docentTimerInterrupt (core : Fin 16) (taken : Bool)
  /-- DOCENT_ACCESS_FAULT (R32): the core, the address and bytes, 0 fetch, 1 load, 2 store or AMO -/
  | docentAccessFault (core : Fin 16) (addr : Nat) (bytes : Fin 9) (kind : Fin 3)
  /-- SYNC (R426): the 250 µs interval of a link, or a SYNC with its arrival stamp and REPLAYED -/
  | sync (port : Fin 512) (received : Option (TimeMsg × Nat × Bool))
  /-- DELAY_REQ (R426): the link, its arrival stamp and REPLAYED -/
  | delayReq (port : Fin 512) (arrival : Nat) (replayed : Bool)
  /-- DELAY_RSP (R426): the link, its T_TX and REPLAYED -/
  | delayRsp (port : Fin 512) (stamp : Nat) (replayed : Bool)
  /-- PARENT_LINK_LOST (R424) -/
  | parentLinkLost
  /-- PPS_EDGE (R525): the second that IEEE 1588 gives it -/
  | ppsEdge (seconds : Option Nat)
  /-- TIME_SOURCE_LOST (R525) -/
  | timeSourceLost
  /-- HARDWARE_TIMED_ACTION (R431): the action -/
  | hardwareTimedAction (action : TimedAction)
  /-- CATALOGUE_SNAPSHOT (R446): the module stream's instant, or that of a local ID's -/
  | catalogueSnapshot (tenant : Option (Fin 1024))
  /-- CATALOGUE_DUMP_COMPLETE (R447): the module stream's dump, or that of a local ID's -/
  | catalogueDumpComplete (tenant : Option (Fin 1024))
  /-- SPECIMEN_SAMPLE (R452): a TLP that enters the fabric at an edge, or a window access -/
  | specimenSample (tlp : Sampled)
  /-- SPECIMEN_RECORD_WRITE (R453): which of the samples taken, how it ended, and whether the writer has room -/
  | specimenRecordWrite (sample : Nat) (result : SampleEnd) (room : Bool)
  /-- TEL_MODE_CHANGED (R438): 0 start-up, 1 recovery, 2 test -/
  | telModeChanged (which : Fin 3) (on : Bool)
  /-- LOCKSTEP_DIVERGENCE (R457): Curator pair A or B -/
  | lockstepDivergence (pair : Fin 2)
  /-- FAILOVER (R458) -/
  | failover
  /-- PAIR_SELFTEST_DONE (R459): its result -/
  | pairSelftestDone (passed : Bool)
  /-- TABLE_PARITY (R460): the table by its number at injection point 5, the entry, and whether both copies fail -/
  | tableParity (table : Fin 7) (entry : Word) (both : Bool)
  /-- TABLE_SCRUB (R460): the words one copy of which failed parity -/
  | tableScrub (found : List (Fin 7 × Word))
  /-- REFCLK_SWITCH (R461): the die -/
  | refclkSwitch (die : Fin 7)
  /-- MEM_UNCORRECTABLE (R462): the LPDDR4X offset, and the Docent that reads it, fetching or not -/
  | memUncorrectable (offset : Nat) (reader : Option (Fin 16 × Bool))
  /-- COOLANT_FLOW_LOW (R463) -/
  | coolantFlowLow
  /-- COOLANT_HOT (R463) -/
  | coolantHot
  /-- THERMAL_WARN (R463): the die and its temperature -/
  | thermalWarn (die : Fin 7) (temp : Byte)
  /-- THERMAL_TRIP (R463): the die -/
  | thermalTrip (die : Fin 7)
  /-- AMBIENT_HOT (R510): the intake temperature -/
  | ambientHot (temp : Byte)
  /-- AGEING_MEASUREMENT (R464): stressed and reference frequency of each pair, and the hottest sensor -/
  | ageingMeasurement (die : Fin 7) (pairs : List (Nat × Nat)) (temp : Byte)
  /-- DROOP_RAISE (R466): the rail -/
  | droopRaise (rail : Fin 7)
  /-- AVS_ACKNOWLEDGED (R467): the rail -/
  | avsAcknowledged (rail : Fin 7)
  /-- AVS_ACK_TIMEOUT (R467): the rail and VOUT in mV -/
  | avsAckTimeout (rail : Fin 7) (vout : Fin 65536)
  /-- MARGIN_PLAN_RUN (R470): what the run finds -/
  | marginPlanRun (run : PlanRun)
  /-- HLT_PLAN_RUN_WRITE (R469): the master and the word -/
  | hltPlanRunWrite (master : Fin 2048) (value : Word)
  /-- MODULE_WATCHDOG_EXPIRY (R30) -/
  | moduleWatchdogExpiry
  /-- PORT_DIE_LOSS (R28): the port die -/
  | portDieLoss (die : Fin 4)
  /-- TUNNEL_HUB_DIE_LOSS (R29) -/
  | tunnelHubDieLoss
  /-- MODULE_START (R475): what start-up finds -/
  | moduleStart (run : StartRun)
  /-- CAGE_GROUP_ENABLE (R478): the group -/
  | cageGroupEnable (group : Fin 7)
  /-- MODULE_READY (R479): ms from the reference to ready, whether 500 ms have passed since the last power-good, the ms each step took -/
  | moduleReady (ms : Word) (late : Bool) (steps : List (Fin 4096))
  /-- HELLO (R481): the fabric link, and the HELLO received; without one this module's turn to send -/
  | hello (port : Fin 512) (msg : Option HelloMsg)
  /-- ADJ (R481): the fabric link and the ADJ received -/
  | adj (port : Fin 512) (msg : AdjMsg)
  /-- TOPOLOGY_SETTLED (R482): serial numbers and IDs of the fabric directory with the highest GEN -/
  | topologySettled (directory : List (Nat × Fin 8192))
  /-- ADMIT (R483): the link it came by, the SERIAL it is for, the ID assigned, the Registrar's module -/
  | admitModule (port : Fin 512) (target : Nat) (id registrar : Fin 8192)
  /-- COMPOSITION_LOADED (R484): generation of the copy read, 0 when no module announces one, and the module of each Vitrine -/
  | compositionLoaded (gen : Nat) (homes : List (Nat × Fin 8192))
  /-- ROUTE_DISTRIBUTION (R485): this module's tables; as Registrar, the tables it sends to others -/
  | routeDistribution (entries : List RouteEntry) (sent : List (Fin 8192 × List Nat))
  /-- VITRINE_RESTORE_AT_START (R487): the local ID recorded and the Vitrine -/
  | vitrineRestoreAtStart (lvid : Fin 1024) (vitrine : StoredVitrine)
  /-- REGISTRAR_LOST (R489) -/
  | registrarLost
  /-- QUIET_EVALUATION (R494) -/
  | quietEvaluation
  /-- PWR_MODE_ARM (R496): the master and the word written to PWR_MODE -/
  | pwrModeArm (master : Fin 2048) (value : Word)
  /-- POWER_ENTRY_COMMIT (R496) -/
  | powerEntryCommit
  /-- QUIET_ENTRY (R497): the upstream port whose host answers PM_Active_State_Nak, if one does -/
  | quietEntry (nak : Option (Fin 512))
  /-- WAKE_EVENT (R495): the bit of the event -/
  | wakeEvent (event : Fin 10)
  /-- WAKE_REPLAYED (R498) -/
  | wakeReplayed
  /-- PAD_RELEASE_WRITE (R499): the master and the word written to PWR_PAD_HOLD -/
  | padReleaseWrite (master : Fin 2048) (value : Word)
  /-- DORMANT_ENTRY (R501) -/
  | dormantEntry
  /-- WAKE_N (R522) -/
  | wakeN
  /-- RATE_CHANGE_ORDERED (R49): the port and the rate code -/
  | rateChangeOrdered (port : Fin 512) (rate : Fin 8)
  /-- HOST_PERST_RELEASE (R120) -/
  | hostPerstRelease (cage : Fin 64)
  /-- DEVICE_PERST_RELEASE (R119): a cage, or a rear group counted from 56. -/
  | devicePerstRelease (cage : Fin 64)
  /-- EPR_MODE_ENTRY (R331): the front port -/
  | eprModeEntry (port : Fin 16)
  /-- USB_SUSPEND (R319): whether the host has enabled remote wakeup -/
  | usbSuspend (remoteWakeup : Bool)
  /-- IEEE_1588_MESSAGE (R423): what the message gives -/
  | ieee1588Message (message : PtpMsg)
  /-- CONTAINMENT_NOTICE_ACK (R268): the module that acknowledges, the scope and local ID -/
  | containmentNoticeAck (modul : Fin 8192) (scope : Fin 4) (id : Fin 1024)
  /-- PIN_ENTRY_ACK (R209): the module that acknowledges and the cut point -/
  | pinEntryAck (modul : Fin 8192) (tcut : Nat)
  /-- FRONT_END_DISCONNECT (R341): feed A or B -/
  | frontEndDisconnect (feed : Fin 2)
  deriving DecidableEq, Repr

end Sys2Proof
end

