-- ==== Sys2Proof/Decode.lean ====
section
/-! DEFINITION. The commands that words spell. The module is a block: its commands are accesses, frames, messages, pins and timers, and
no row of spec/opcode_table.json gives its command bits, so no word spells one. -/

namespace Sys2Proof

/-- The command that an nbits-bit word w spells by the table's bits: none, for no row gives bits. -/
def decodeTableWord (_nbits _w : Nat) : Option Instr := none

end Sys2Proof
end

