-- ==== Sys2Proof/Config.lean ====
section
/-! DEFINITION. What the manual leaves open: free values. Each is an opaque constant with no body, applied to the count
of values drawn (`Dev.drawn`) or to the operands it depends on, so that nothing proved can rest on what it is. -/

namespace Sys2Proof

/-- Event codes of records whose cause the manual gives no code (log entry 4). -/
inductive UncodedRecord where
  | sourceRefused | laneRefused | lockCleared | linkFailed | startRefused | windowConfig | other
  deriving DecidableEq, Repr

/-- CODE[7:0] of a record that the manual asks for without giving its code (log entry 4). -/
opaque Config.recordCode : UncodedRecord → Nat

/-- A value the manual does not state, the n-th one drawn (log entry 5). -/
opaque Config.freeValue : Nat → Nat

/-- The bytes of a frame body, or of a TLP's header in Flit Mode form, whose layout the manual leaves to another standard or does not give
(log entry 97). -/
opaque Config.bodyBytes : Body → List Byte

/-- The bytes of a save image at offsets where the manual does not give the inner layout of a section (R260, log entry 18). -/
opaque Config.imageByte : Image → Nat → Byte

/-- The 24-bit pixel an RGB565 pixel is sent as, which the manual does not give (R303, log entry 110). -/
opaque Config.rgb24 : Nat → Nat

/-- Bytes the receive buffer of a local port holds, which the manual does not give (R146, log entry 106). -/
opaque Config.receiveBuffer : Nat → Nat

/-- Creinfer's Vendor ID, which the manual does not state (R241, R295, log entry 5). -/
opaque Config.vendorId : Nat

/-- A capability register of a virtual function that the module acts on, whose place in configuration space the manual does not give
(log entry 38). -/
inductive CapReg where
  | deviceCap | deviceControl | deviceCap2 | deviceControl2 | linkCap | link | slotCap | slot | ltr | msi | dpcControl | dpcStatus | acs | aer | aerControl
  | l1Cap
  deriving DecidableEq, Repr

/-- The configuration word of a capability register, less 16, of a kind of function: 0 virtual upstream port, 1 VMF, 2 virtual downstream
port, 3 Console Engine (log entry 38). -/
opaque Config.capWord : Nat → CapReg → Nat

/-- The word of the CXL component registers at which the HDM decoder capability starts (log entry 38). -/
opaque Config.hdmWord : Nat

end Sys2Proof
end

