-- ==== Sys2Proof/Machine/Regs.lean ====
section
/-! DEFINITION. The register map of the module: every register the field maps of the manual give, with its fields,
access codes, reset values and place in device register space (R6, R8, R9, R13, R16). The words of the Path Pin Table,
the Address Translation Table and the gate-list banks (R206, R215, R239) stand in it under names of the model's own,
since the manual lays them out by offset and gives them no mnemonic. -/

namespace Sys2Proof.Machine

/-- Field access codes (R9); a reserved bit has no row and reads zero (RSV). -/
inductive Access where
  | ro | rw | rw1c | rwl | wo | rc
  deriving DecidableEq, Repr

/-- Where a register lies: in a block of device register space (base, stride, count), behind a select register
(address, number of instances), among the entry words of the gate-list banks, in a VMF's BAR0 or in a Console Engine's
BAR2 (offset). -/
inductive Place where
  | block (base stride count : Nat)
  | selected (addr count : Nat)
  | gateEntry
  | bar0 (off : Nat)
  | bar2 (off : Nat)
  deriving DecidableEq, Repr

/-- One field of a field map: its name, lowest bit, width, access code and the value the Reset column gives. -/
structure FieldRow where
  name : String
  lo : Nat
  width : Nat
  acc : Access
  reset : Nat
  deriving DecidableEq, Repr

/-- Every register mnemonic of the manual (R16), and the words of its tables. -/
inductive Reg where
  /-- spec/02_lanes.md, field map after R37. -/
  | LNA_LANE_CFG
  /-- spec/02_lanes.md, field map after R48. -/
  | LNA_LANE_STATE
  /-- spec/02_lanes.md, field map after R38. -/
  | LNA_TX_EQ
  /-- spec/02_lanes.md, field map after R47. -/
  | LNA_RX_EQ
  /-- spec/02_lanes.md, field map after R52. -/
  | LNA_BITSLIP
  /-- spec/02_lanes.md, field map after R52. -/
  | LNA_ALIGN
  /-- spec/02_lanes.md, field map after R59. -/
  | LNA_TRAIN_REF
  /-- spec/02_lanes.md, field map after R57. -/
  | LNA_MRG_CTL
  /-- spec/02_lanes.md, field map after R57. -/
  | LNA_MRG_RESULT
  /-- spec/02_lanes.md, field map after R59. -/
  | LNA_EVENTS
  /-- spec/02_lanes.md, field map after R59. -/
  | LNA_TRIG_CFG
  /-- spec/02_lanes.md, field map after R59. -/
  | LNA_REEQ_CFG
  /-- spec/04_ports.md, field map after R107. -/
  | PRT_PORT_CFG
  /-- spec/04_ports.md, field map after R107. -/
  | PRT_PORT_STATUS
  /-- spec/04_ports.md, field map after R107. -/
  | PRT_LTR
  /-- spec/04_ports.md, field map after R107. -/
  | PRT_PM_CFG
  /-- spec/04_ports.md, field map after R107. -/
  | PRT_EVENTS
  /-- spec/03_fabric_link.md, field map after R99. -/
  | FLL_LINK_STATUS
  /-- spec/03_fabric_link.md, field map after R99. -/
  | FLL_PARTNER
  /-- spec/03_fabric_link.md, field map after R99. -/
  | FLL_RTT
  /-- spec/03_fabric_link.md, field map after R99. -/
  | FLL_REPLAY
  /-- spec/03_fabric_link.md, field map after R99. -/
  | FLL_SEQ
  /-- spec/03_fabric_link.md, field map after R99. -/
  | FLL_EVENTS
  /-- spec/03_fabric_link.md, field map after R91. -/
  | EBR_CRD_SEL
  /-- spec/03_fabric_link.md, field map after R91. -/
  | EBR_CRD_GRANT
  /-- spec/03_fabric_link.md, field map after R91. -/
  | EBR_CRD_AVAIL
  /-- spec/03_fabric_link.md, field map after R91. -/
  | EBR_CRD_AUDIT
  /-- spec/03_fabric_link.md, field map after R91. -/
  | EBR_CRD_LOST
  /-- spec/05_edge_bridge.md, field map after R171. -/
  | EBR_SIDEBAND
  /-- spec/05_edge_bridge.md, field map after R171. -/
  | EBR_LOCK
  /-- spec/05_edge_bridge.md, field map after R171. -/
  | EBR_EVENTS
  /-- spec/05_edge_bridge.md, field map after R162. -/
  | EBR_RAT_BASE
  /-- spec/05_edge_bridge.md, field map after R162. -/
  | EBR_RAT_LIMIT
  /-- spec/05_edge_bridge.md, field map after R162. -/
  | EBR_RAT_ATTR
  /-- spec/05_edge_bridge.md, field map after R162. -/
  | EBR_RAT_TARGET
  /-- spec/05_edge_bridge.md, field map after R162. -/
  | EBR_RAT_XLATE_LO
  /-- spec/05_edge_bridge.md, field map after R162. -/
  | EBR_RAT_XLATE_HI
  /-- spec/05_edge_bridge.md, field map after R162. -/
  | EBR_RAT_PFDISC_LO
  /-- spec/05_edge_bridge.md, field map after R162. -/
  | EBR_RAT_PFDISC_HI
  /-- spec/05_edge_bridge.md, field map after R165. -/
  | EBR_PF_CFG
  /-- spec/05_edge_bridge.md, field map after R169. -/
  | EBR_PFLOG_HEAD
  /-- spec/06_basin.md, field map after R196. -/
  | BSN_SHARED_FREE
  /-- spec/06_basin.md, field map after R196. -/
  | BSN_SHARED_SIZE
  /-- spec/06_basin.md, field map after R196. -/
  | BSN_RESERVED
  /-- spec/06_basin.md, field map after R196. -/
  | BSN_AGE_S
  /-- spec/06_basin.md, field map after R196. -/
  | BSN_AGE_C
  /-- spec/06_basin.md, field map after R196. -/
  | BSN_AGE_L
  /-- spec/06_basin.md, field map after R196. -/
  | BSN_AGE_B
  /-- spec/06_basin.md, field map after R196. -/
  | BSN_EVENTS
  /-- spec/06_basin.md, field map after R196. -/
  | BSN_Q_SEL
  /-- spec/06_basin.md, field map after R196. -/
  | BSN_Q_CFG
  /-- spec/06_basin.md, field map after R196. -/
  | BSN_Q_STATUS
  /-- spec/06_basin.md, field map after R196. -/
  | BSN_Q_SHARED
  /-- spec/06_basin.md, field map after R196. -/
  | BSN_PORT_RSV
  /-- spec/06_basin.md, field map after R196. -/
  | BSN_PORT_WIN
  /-- spec/06_basin.md, field map after R196. -/
  | BSN_PORT_GRANT
  /-- spec/06_basin.md, field map after R196. -/
  | BSN_PORT_USE
  /-- spec/07_routing.md, field map after R204. -/
  | RTE_MRT
  /-- spec/07_routing.md, field map after R218. -/
  | RTE_MODULE_ID
  /-- spec/07_routing.md, field map after R218. -/
  | RTE_EVENTS
  /-- spec/07_routing.md, field map after R204. -/
  | RTE_GRP_SLOT
  /-- spec/08_weir.md, field map after R239. -/
  | WR_Q_SEL
  /-- spec/08_weir.md, field map after R239. -/
  | WR_Q_CFG
  /-- spec/08_weir.md, field map after R239. -/
  | WR_Q_DRR
  /-- spec/08_weir.md, field map after R239. -/
  | WR_SHP_SEL
  /-- spec/08_weir.md, field map after R239. -/
  | WR_SHP_RATE
  /-- spec/08_weir.md, field map after R239. -/
  | WR_SHP_BURST
  /-- spec/08_weir.md, field map after R239. -/
  | WR_SHP_TOKENS
  /-- spec/08_weir.md, field map after R239. -/
  | WR_EVENTS
  /-- spec/08_weir.md, field map after R239. -/
  | WR_PORT_CFG
  /-- spec/08_weir.md, field map after R239. -/
  | WR_PORT_GUARD
  /-- spec/08_weir.md, field map after R239. -/
  | WR_GATE_STATUS
  /-- spec/08_weir.md, field map after R239. -/
  | WR_GATE_STAT
  /-- spec/08_weir.md, field map after R239. -/
  | WR_PORT_EVENTS
  /-- spec/09_vitrines.md, field map after R264. -/
  | VIT_SEL
  /-- spec/09_vitrines.md, field map after R264. -/
  | VIT_STATE
  /-- spec/09_vitrines.md, field map after R264. -/
  | VIT_PORT
  /-- spec/09_vitrines.md, field map after R264. -/
  | VIT_INFLIGHT
  /-- spec/09_vitrines.md, field map after R264. -/
  | VIT_SQUASH_TMO
  /-- spec/09_vitrines.md, field map after R264. -/
  | VIT_FREEZE_TMO
  /-- spec/09_vitrines.md, field map after R264. -/
  | VIT_EVENTS
  /-- spec/09_vitrines.md, field map after R264. -/
  | TRK_FREE
  /-- spec/09_vitrines.md, field map after R264. -/
  | TRK_CPL_RSV
  /-- spec/09_vitrines.md, field map after R264. -/
  | TRK_VIT_QUOTA
  /-- spec/09_vitrines.md, field map after R264. -/
  | TRK_VIT_USE
  /-- spec/10_sluice.md, field map after R282. -/
  | SLC_ESEQ_LO
  /-- spec/10_sluice.md, field map after R282. -/
  | SLC_ESEQ_HI
  /-- spec/10_sluice.md, field map after R282. -/
  | SLC_LOG_HEAD
  /-- spec/10_sluice.md, field map after R282. -/
  | SLC_LOG_WRAPS
  /-- spec/10_sluice.md, field map after R282. -/
  | SLC_CONT_SEL
  /-- spec/10_sluice.md, field map after R282. -/
  | SLC_CONT_STATE
  /-- spec/10_sluice.md, field map after R282. -/
  | SLC_CONT_ESEQ_LO
  /-- spec/10_sluice.md, field map after R282. -/
  | SLC_CONT_ESEQ_HI
  /-- spec/10_sluice.md, field map after R282. -/
  | SLC_INJ_ARMED
  /-- spec/11_tunnel_hub.md, field map after R306. -/
  | TUN_PORT_CFG
  /-- spec/11_tunnel_hub.md, field map after R306. -/
  | TUN_PORT_STATUS
  /-- spec/11_tunnel_hub.md, field map after R306. -/
  | TUN_PORT_ALLOT
  /-- spec/11_tunnel_hub.md, field map after R306. -/
  | TUN_PORT_EVENTS
  /-- spec/11_tunnel_hub.md, field map after R302. -/
  | TUN_CE_DEST
  /-- spec/12_service_hub.md, field map after R322. -/
  | USH_OWNER_CFG
  /-- spec/12_service_hub.md, field map after R322. -/
  | USH_OWNER
  /-- spec/12_service_hub.md, field map after R322. -/
  | USH_MUD_CTL
  /-- spec/12_service_hub.md, field map after R322. -/
  | USH_MUD_STATUS
  /-- spec/12_service_hub.md, field map after R322. -/
  | USH_MUD_WAKE
  /-- spec/12_service_hub.md, field map after R322. -/
  | USH_EVENTS
  /-- spec/13_typec_pd.md, field map after R339. -/
  | PD_PORT_POLICY
  /-- spec/13_typec_pd.md, field map after R339. -/
  | PD_PORT_STATUS
  /-- spec/13_typec_pd.md, field map after R339. -/
  | PD_CONTRACT
  /-- spec/13_typec_pd.md, field map after R339. -/
  | PD_CABLE
  /-- spec/13_typec_pd.md, field map after R339. -/
  | PD_MOIST
  /-- spec/13_typec_pd.md, field map after R339. -/
  | PD_EVENTS
  /-- spec/13_typec_pd.md, field map after R339. -/
  | PD_POOL_LIMIT
  /-- spec/13_typec_pd.md, field map after R339. -/
  | PD_POOL_USED
  /-- spec/14_power_entry.md, field map after R360. -/
  | PWR_FEED_A
  /-- spec/14_power_entry.md, field map after R360. -/
  | PWR_FEED_B
  /-- spec/14_power_entry.md, field map after R360. -/
  | PWR_BUDGET
  /-- spec/14_power_entry.md, field map after R360. -/
  | PWR_POOLS
  /-- spec/14_power_entry.md, field map after R360. -/
  | PWR_CAGE_USED
  /-- spec/14_power_entry.md, field map after R360. -/
  | PWR_STAGES
  /-- spec/14_power_entry.md, field map after R360. -/
  | PWR_EVENTS
  /-- spec/22_power_states.md, field map after R504. -/
  | PWR_MODE
  /-- spec/22_power_states.md, field map after R504. -/
  | PWR_PS_STATUS
  /-- spec/22_power_states.md, field map after R504. -/
  | PWR_WAKE
  /-- spec/22_power_states.md, field map after R504. -/
  | PWR_PAD_HOLD
  /-- spec/22_power_states.md, field map after R504. -/
  | PWR_PS_LAST
  /-- spec/22_power_states.md, field map after R504. -/
  | PWR_PS_CNT
  /-- spec/14_power_entry.md, field map after R360. -/
  | EF_CTL
  /-- spec/14_power_entry.md, field map after R360. -/
  | EF_STATUS
  /-- spec/14_power_entry.md, field map after R360. -/
  | EF_MEAS
  /-- spec/14_power_entry.md, field map after R360. -/
  | EF_EVENTS
  /-- spec/15_curator_commands.md, field map after R382. -/
  | CUR_DOC_ROLE_LO
  /-- spec/15_curator_commands.md, field map after R382. -/
  | CUR_DOC_ROLE_HI
  /-- spec/15_curator_commands.md, field map after R382. -/
  | CUR_CMD_LOAD
  /-- spec/20_reliability.md, field map after R459. -/
  | CUR_PAIR_STATUS
  /-- spec/21_formation.md, field map after R490. -/
  | CUR_START_STATUS
  /-- spec/21_formation.md, field map after R490. -/
  | CUR_START_CFG
  /-- spec/16_mailboxes.md, field map after R389. -/
  | MBX_CH_PTR_LO
  /-- spec/16_mailboxes.md, field map after R389. -/
  | MBX_CH_PTR_HI
  /-- spec/16_mailboxes.md, field map after R389. -/
  | MBX_CH_STATUS
  /-- spec/16_mailboxes.md, field map after R389. -/
  | MBX_CH_CTL
  /-- spec/16_mailboxes.md, field map after R394. -/
  | MBX_BIND
  /-- spec/16_mailboxes.md, field map after R394. -/
  | MBX_LOCK
  /-- spec/17_docents.md, field map after R420. -/
  | DOC_CORE_CTL
  /-- spec/17_docents.md, field map after R420. -/
  | DOC_CORE_STATUS
  /-- spec/17_docents.md, field map after R420. -/
  | DOC_STB_DISCARD
  /-- spec/17_docents.md, field map after R420. -/
  | DOC_WSTORE_LOST
  /-- spec/17_docents.md, field map after R420. -/
  | DOC_MTIMECMP_LO
  /-- spec/17_docents.md, field map after R420. -/
  | DOC_MTIMECMP_HI
  /-- spec/17_docents.md, field map after R420. -/
  | DOC_EVENTS
  /-- spec/18_fabric_time.md, field map after R434. -/
  | TIM_NOW_LO
  /-- spec/18_fabric_time.md, field map after R434. -/
  | TIM_NOW_HI
  /-- spec/18_fabric_time.md, field map after R434. -/
  | TIM_STATE
  /-- spec/18_fabric_time.md, field map after R434. -/
  | TIM_ROOT
  /-- spec/18_fabric_time.md, field map after R434. -/
  | TIM_OFFSET
  /-- spec/18_fabric_time.md, field map after R434. -/
  | TIM_ERR_EST
  /-- spec/18_fabric_time.md, field map after R434. -/
  | TIM_SRC_CFG
  /-- spec/18_fabric_time.md, field map after R434. -/
  | TIM_EVENTS
  /-- spec/19_telemetry.md, field map after R455. -/
  | TEL_MODE
  /-- spec/19_telemetry.md, field map after R455. -/
  | TEL_CNT_SEL
  /-- spec/19_telemetry.md, field map after R455. -/
  | TEL_CNT_LO
  /-- spec/19_telemetry.md, field map after R455. -/
  | TEL_CNT_HI
  /-- spec/19_telemetry.md, field map after R455. -/
  | TEL_CAT_WPTR
  /-- spec/19_telemetry.md, field map after R455. -/
  | TEL_SPC_WPTR
  /-- spec/19_telemetry.md, field map after R455. -/
  | TEL_EVENTS
  /-- spec/20_reliability.md, field map after R474. -/
  | HLT_PLAN_CTL
  /-- spec/20_reliability.md, field map after R474. -/
  | HLT_PLAN_STATUS
  /-- spec/20_reliability.md, field map after R474. -/
  | HLT_FORECAST
  /-- spec/20_reliability.md, field map after R474. -/
  | HLT_DROOP_CFG
  /-- spec/20_reliability.md, field map after R474. -/
  | HLT_EVENTS
  /-- spec/20_reliability.md, field map after R474. -/
  | HLT_RAIL_PLAN
  /-- spec/20_reliability.md, field map after R474. -/
  | HLT_RAIL_NOW
  /-- spec/20_reliability.md, field map after R474. -/
  | HLT_RAIL_AGE
  /-- spec/16_mailboxes.md, field map after R385. -/
  | VMF_ID
  /-- spec/16_mailboxes.md, field map after R385. -/
  | VMF_VERSION
  /-- spec/16_mailboxes.md, field map after R385. -/
  | VMF_GVH
  /-- spec/16_mailboxes.md, field map after R386. -/
  | VMF_INTX
  /-- spec/16_mailboxes.md, field map after R399. -/
  | VMF_BME
  /-- spec/16_mailboxes.md, field map after R399. -/
  | VMF_CPL_TMO
  /-- spec/16_mailboxes.md, field map after R386. -/
  | VMF_EVENT_FLAGS
  /-- spec/16_mailboxes.md, field map after R386. -/
  | VMF_EVENT_MASK
  /-- spec/16_mailboxes.md, field map after R387. -/
  | VMF_CAT_ADDR_LO
  /-- spec/16_mailboxes.md, field map after R387. -/
  | VMF_CAT_ADDR_HI
  /-- spec/16_mailboxes.md, field map after R387. -/
  | VMF_CAT_SIZE
  /-- spec/16_mailboxes.md, field map after R387. -/
  | VMF_CAT_WPTR
  /-- spec/16_mailboxes.md, field map after R387. -/
  | VMF_SPC_ADDR_LO
  /-- spec/16_mailboxes.md, field map after R387. -/
  | VMF_SPC_ADDR_HI
  /-- spec/16_mailboxes.md, field map after R387. -/
  | VMF_SPC_SIZE
  /-- spec/16_mailboxes.md, field map after R387. -/
  | VMF_SPC_WPTR
  /-- spec/11_tunnel_hub.md, field map after R301. -/
  | TUN_CE_MODE
  /-- spec/11_tunnel_hub.md, field map after R301. -/
  | TUN_CE_GEOM
  /-- spec/11_tunnel_hub.md, field map after R301. -/
  | TUN_CE_STRIDE
  /-- spec/11_tunnel_hub.md, field map after R301. -/
  | TUN_CE_SCANOUT
  /-- spec/11_tunnel_hub.md, field map after R301. -/
  | TUN_CE_STATUS
  /-- spec/11_tunnel_hub.md, field map after R301. -/
  | TUN_CE_IRQ
  /-- spec/07_routing.md, field map after R206. -/
  | PIN_CTL
  /-- spec/07_routing.md, field map after R206. -/
  | PIN_SRC
  /-- spec/07_routing.md, field map after R206. -/
  | PIN_DST
  /-- spec/07_routing.md, field map after R206. -/
  | PIN_OLD
  /-- spec/07_routing.md, field map after R206. -/
  | PIN_TCUT_LO
  /-- spec/07_routing.md, field map after R206. -/
  | PIN_TCUT_HI
  /-- spec/07_routing.md, field map after R215. -/
  | ATT_CTL
  /-- spec/07_routing.md, field map after R215. -/
  | ATT_FPID
  /-- spec/07_routing.md, field map after R215. -/
  | ATT_HOST_LO
  /-- spec/07_routing.md, field map after R215. -/
  | ATT_HOST_HI
  /-- spec/07_routing.md, field map after R215. -/
  | ATT_EP_LO
  /-- spec/07_routing.md, field map after R215. -/
  | ATT_EP_HI
  /-- spec/08_weir.md, field map after R239. -/
  | GATE_BASE_LO
  /-- spec/08_weir.md, field map after R239. -/
  | GATE_BASE_HI
  /-- spec/08_weir.md, field map after R239. -/
  | GATE_CYCLE
  /-- spec/08_weir.md, field map after R239. -/
  | GATE_COUNT
  /-- spec/08_weir.md, field map after R239. -/
  | GATE_ENTRY
  deriving DecidableEq, Repr

/-- The fields of each register, highest first, as its field map lists them. -/
def Reg.fields : Reg → List FieldRow
  | .LNA_LANE_CFG => [⟨"RATE_MAX", 8, 4, .rw, 7⟩, ⟨"TEST", 7, 1, .rw, 0⟩, ⟨"REAR", 1, 1, .ro, 0⟩, ⟨"ENABLE", 0, 1, .rw, 0⟩]
  | .LNA_LANE_STATE => [⟨"ATTEMPTS", 24, 8, .ro, 0⟩, ⟨"RATE", 16, 4, .ro, 0⟩, ⟨"LAST_FAIL", 4, 4, .ro, 0⟩, ⟨"STATE", 0, 4, .ro, 0⟩]
  | .LNA_TX_EQ => [⟨"PRESET", 24, 4, .ro, 4⟩, ⟨"SOURCE", 22, 2, .ro, 0⟩, ⟨"MAIN", 16, 6, .ro, 63⟩, ⟨"POST", 8, 5, .rw, 0⟩, ⟨"PRE", 0, 4, .rw, 0⟩]
  | .LNA_RX_EQ => [⟨"FIXED", 31, 1, .ro, 0⟩, ⟨"DFE1", 8, 7, .ro, 0⟩, ⟨"CTLE", 0, 5, .ro, 0⟩]
  | .LNA_BITSLIP => [⟨"APPLIED", 31, 1, .ro, 1⟩, ⟨"DELAY", 0, 8, .rw, 0⟩]
  | .LNA_ALIGN => [⟨"LOCKED", 31, 1, .ro, 0⟩, ⟨"MATCH", 16, 8, .ro, 0⟩, ⟨"SKEW", 0, 11, .ro, 0⟩]
  | .LNA_TRAIN_REF => [⟨"TEMP", 0, 8, .ro, 0⟩]
  | .LNA_MRG_CTL => [⟨"START", 31, 1, .wo, 0⟩, ⟨"ABORT", 30, 1, .wo, 0⟩, ⟨"DWELL", 26, 4, .rw, 4⟩, ⟨"ERR_LIMIT", 22, 4, .rw, 0⟩, ⟨"AXES", 20, 2, .rw, 3⟩, ⟨"VFLOOR", 8, 6, .rw, 4⟩, ⟨"HFLOOR", 0, 6, .rw, 6⟩]
  | .LNA_MRG_RESULT => [⟨"STATUS", 30, 2, .ro, 0⟩, ⟨"WORST_EYE", 28, 2, .ro, 0⟩, ⟨"BELOW_FLOOR", 27, 1, .ro, 0⟩, ⟨"LEFT", 18, 6, .ro, 0⟩, ⟨"RIGHT", 12, 6, .ro, 0⟩, ⟨"DOWN", 6, 6, .ro, 0⟩, ⟨"UP", 0, 6, .ro, 0⟩]
  | .LNA_EVENTS => [⟨"REEQ_NO_FLOOR", 5, 1, .rw1c, 0⟩, ⟨"BELOW_FLOOR", 4, 1, .rw1c, 0⟩, ⟨"SLIP_NEEDED", 3, 1, .rw1c, 0⟩, ⟨"DESKEW_FAIL", 2, 1, .rw1c, 0⟩, ⟨"BRINGUP_FAILED", 1, 1, .rw1c, 0⟩, ⟨"LOCK_LOST", 0, 1, .rw1c, 0⟩]
  | .LNA_TRIG_CFG => [⟨"UTIL_PCT", 16, 8, .rw, 50⟩, ⟨"REARM_PCT", 8, 8, .rw, 40⟩, ⟨"TEMP_DELTA", 0, 8, .rw, 15⟩]
  | .LNA_REEQ_CFG => [⟨"DEFER_MAX", 16, 16, .rw, 24⟩, ⟨"LTR_MIN", 0, 16, .rw, 2000⟩]
  | .PRT_PORT_CFG => [⟨"RATE_MAX", 20, 4, .rw, 7⟩, ⟨"WIDTH", 16, 3, .rw, 0⟩, ⟨"REVERSAL_OK", 8, 1, .rw, 1⟩, ⟨"CXL_HOST", 4, 1, .rw, 0⟩, ⟨"KIND", 0, 3, .rw, 0⟩]
  | .PRT_PORT_STATUS => [⟨"DL_ACTIVE", 31, 1, .ro, 0⟩, ⟨"FLIT", 30, 1, .ro, 0⟩, ⟨"CXL", 29, 1, .ro, 0⟩, ⟨"REVERSED", 28, 1, .ro, 0⟩, ⟨"RATE", 24, 4, .ro, 0⟩, ⟨"WIDTH", 21, 3, .ro, 0⟩, ⟨"LINK_PM", 12, 4, .ro, 0⟩, ⟨"LTSSM", 0, 4, .ro, 0⟩]
  | .PRT_LTR => [⟨"NONE", 31, 1, .ro, 1⟩, ⟨"LTR_US", 0, 26, .ro, 0⟩]
  | .PRT_PM_CFG => [⟨"L0P_EN", 31, 1, .rw, 1⟩, ⟨"L1_EN", 30, 1, .rw, 1⟩, ⟨"L11_EN", 29, 1, .rw, 1⟩, ⟨"L12_EN", 28, 1, .rw, 1⟩, ⟨"L1_IDLE", 16, 8, .rw, 32⟩, ⟨"LTR_BUDGET", 0, 16, .rw, 5000⟩]
  | .PRT_EVENTS => [⟨"PME_TO_LATE", 6, 1, .rw1c, 0⟩, ⟨"RRS_EXPIRED", 5, 1, .rw1c, 0⟩, ⟨"CXL_NOT_NEGOTIATED", 4, 1, .rw1c, 0⟩, ⟨"FLIT_REFUSED", 3, 1, .rw1c, 0⟩, ⟨"HOT_INSERT", 2, 1, .rw1c, 0⟩, ⟨"SURPRISE_DOWN", 1, 1, .rw1c, 0⟩, ⟨"L1_REFUSED", 0, 1, .rw1c, 0⟩]
  | .FLL_LINK_STATUS => [⟨"RATE", 8, 4, .ro, 0⟩, ⟨"WIDTH", 5, 3, .ro, 0⟩, ⟨"STATE", 0, 4, .ro, 0⟩]
  | .FLL_PARTNER => [⟨"FPID", 0, 22, .ro, 0⟩]
  | .FLL_RTT => [⟨"RTT", 0, 16, .ro, 0⟩]
  | .FLL_REPLAY => [⟨"CONSEC_TIMEOUTS", 28, 4, .ro, 0⟩, ⟨"OUTSTANDING", 0, 12, .ro, 0⟩]
  | .FLL_SEQ => [⟨"NEXT_TX", 16, 14, .ro, 0⟩, ⟨"EXPECTED", 0, 14, .ro, 0⟩]
  | .FLL_EVENTS => [⟨"SPEED_FAILED", 5, 1, .rw1c, 0⟩, ⟨"WIDTH_REDUCED", 4, 1, .rw1c, 0⟩, ⟨"LINK_LOST", 3, 1, .rw1c, 0⟩, ⟨"REPLAY_STALL", 2, 1, .rw1c, 0⟩, ⟨"BAD_ACK", 1, 1, .rw1c, 0⟩, ⟨"BAD_TYPE", 0, 1, .rw1c, 0⟩]
  | .EBR_CRD_SEL => [⟨"WINDOW", 0, 15, .rw, 0⟩]
  | .EBR_CRD_GRANT => [⟨"VALID", 31, 1, .ro, 0⟩, ⟨"GRANT", 0, 24, .ro, 0⟩]
  | .EBR_CRD_AVAIL => [⟨"RESYNC_ACTIVE", 31, 1, .ro, 0⟩, ⟨"AVAIL", 0, 24, .ro, 0⟩]
  | .EBR_CRD_AUDIT => [⟨"LOW", 31, 1, .rw1c, 0⟩, ⟨"OVERRUN", 30, 1, .rw1c, 0⟩, ⟨"RESYNC_FAILED", 29, 1, .rw1c, 0⟩, ⟨"SHRINK", 0, 24, .ro, 0⟩]
  | .EBR_CRD_LOST => [⟨"RESYNCS", 16, 16, .ro, 0⟩, ⟨"LOST_CFRAMES", 0, 16, .ro, 0⟩]
  | .EBR_SIDEBAND => [⟨"PRSNT", 31, 1, .ro, 0⟩, ⟨"ATTN", 30, 1, .ro, 0⟩, ⟨"PFAULT", 29, 1, .ro, 0⟩, ⟨"IND_ATTN", 26, 2, .ro, 3⟩, ⟨"IND_PWR", 24, 2, .ro, 3⟩, ⟨"SPL_SCALE", 20, 2, .ro, 0⟩, ⟨"SPL_VALUE", 12, 8, .ro, 0⟩, ⟨"LIMIT_MA", 0, 11, .ro, 0⟩]
  | .EBR_LOCK => [⟨"STATE", 30, 2, .ro, 0⟩, ⟨"OWNER", 0, 23, .ro, 0⟩]
  | .EBR_EVENTS => [⟨"SPL_REFUSED", 3, 1, .rw1c, 0⟩, ⟨"STORE_DISCARDED", 2, 1, .rw1c, 0⟩, ⟨"LOCK_REFUSED", 1, 1, .rw1c, 0⟩, ⟨"LOCK_BROKEN", 0, 1, .rw1c, 0⟩]
  | .EBR_RAT_BASE => [⟨"VALID", 31, 1, .rw, 0⟩, ⟨"BASE_PG", 0, 28, .rw, 0⟩]
  | .EBR_RAT_LIMIT => [⟨"LIMIT_PG", 0, 28, .rw, 0⟩]
  | .EBR_RAT_ATTR => [⟨"DOCENT_MASK", 16, 16, .rw, 0⟩, ⟨"CURATOR", 15, 1, .rw, 0⟩, ⟨"WRITE", 14, 1, .rw, 0⟩, ⟨"KIND", 12, 2, .rw, 0⟩, ⟨"PF_LINES", 8, 3, .rw, 0⟩, ⟨"MODE", 0, 1, .rw, 0⟩]
  | .EBR_RAT_TARGET => [⟨"FPID", 0, 22, .rw, 0⟩]
  | .EBR_RAT_XLATE_LO => [⟨"ADDR", 0, 32, .rw, 0⟩]
  | .EBR_RAT_XLATE_HI => [⟨"ADDR", 0, 32, .rw, 0⟩]
  | .EBR_RAT_PFDISC_LO => [⟨"BYTES", 0, 32, .ro, 0⟩]
  | .EBR_RAT_PFDISC_HI => [⟨"BYTES", 0, 32, .ro, 0⟩]
  | .EBR_PF_CFG => [⟨"PF_TTL", 0, 8, .rw, 20⟩]
  | .EBR_PFLOG_HEAD => [⟨"NEXT", 0, 8, .ro, 0⟩]
  | .BSN_SHARED_FREE => [⟨"FREE", 0, 21, .ro, 0⟩]
  | .BSN_SHARED_SIZE => [⟨"SIZE", 0, 21, .ro, 0⟩]
  | .BSN_RESERVED => [⟨"TOTAL", 0, 21, .ro, 0⟩]
  | .BSN_AGE_S => [⟨"LIMIT_US", 0, 20, .rw, 0⟩]
  | .BSN_AGE_C => [⟨"LIMIT_US", 0, 20, .rw, 0⟩]
  | .BSN_AGE_L => [⟨"LIMIT_US", 0, 20, .rw, 0⟩]
  | .BSN_AGE_B => [⟨"LIMIT_US", 0, 20, .rw, 0⟩]
  | .BSN_EVENTS => [⟨"CELL_AUDIT", 6, 1, .rw1c, 0⟩, ⟨"RSV_REFUSED", 5, 1, .rw1c, 0⟩, ⟨"LINK_ECC", 4, 1, .rw1c, 0⟩, ⟨"ECC_MULTI", 3, 1, .rw1c, 0⟩, ⟨"FULL_DROP", 2, 1, .rw1c, 0⟩, ⟨"ADMIT_REFUSED", 1, 1, .rw1c, 0⟩, ⟨"AGE_DISCARD", 0, 1, .rw1c, 0⟩]
  | .BSN_Q_SEL => [⟨"QUEUE", 0, 16, .rw, 0⟩]
  | .BSN_Q_CFG => [⟨"K", 24, 3, .rw, 0⟩, ⟨"MIN", 0, 21, .rw, 8⟩]
  | .BSN_Q_STATUS => [⟨"STATE", 29, 3, .ro, 0⟩, ⟨"LEN", 0, 21, .ro, 0⟩]
  | .BSN_Q_SHARED => [⟨"SHARED", 0, 21, .ro, 0⟩]
  | .BSN_PORT_RSV => [⟨"LR", 0, 21, .rw, 0⟩]
  | .BSN_PORT_WIN => [⟨"OVERSUB", 24, 2, .rw, 0⟩, ⟨"WINDOWS", 0, 9, .rw, 8⟩]
  | .BSN_PORT_GRANT => [⟨"GRANT", 0, 21, .ro, 0⟩]
  | .BSN_PORT_USE => [⟨"RSV_USED", 0, 21, .ro, 0⟩]
  | .RTE_MRT => [⟨"VALID", 31, 1, .rw, 0⟩, ⟨"DIST", 28, 3, .rw, 0⟩, ⟨"NCAND", 20, 5, .rw, 0⟩, ⟨"GROUP", 0, 12, .rw, 0⟩]
  | .RTE_MODULE_ID => [⟨"ASSIGNED", 31, 1, .ro, 0⟩, ⟨"ID", 0, 13, .ro, 0⟩]
  | .RTE_EVENTS => [⟨"LINK_WITHDRAWN", 7, 1, .rw1c, 0⟩, ⟨"REPIN_ABORTED", 6, 1, .rw1c, 0⟩, ⟨"PIN_FULL", 5, 1, .rw1c, 0⟩, ⟨"FLOW_GAP", 4, 1, .rw1c, 0⟩, ⟨"ORDER_DISCARD", 3, 1, .rw1c, 0⟩, ⟨"BAD_HEADER", 2, 1, .rw1c, 0⟩, ⟨"HOP_LIMIT", 1, 1, .rw1c, 0⟩, ⟨"NO_ROUTE", 0, 1, .rw1c, 0⟩]
  | .RTE_GRP_SLOT => [⟨"VALID", 31, 1, .rw, 0⟩, ⟨"WITHDRAWN", 30, 1, .ro, 0⟩, ⟨"PORT", 0, 9, .rw, 0⟩]
  | .WR_Q_SEL => [⟨"QUEUE", 0, 16, .rw, 0⟩]
  | .WR_Q_CFG => [⟨"SHAPED", 31, 1, .rw, 0⟩, ⟨"SHAPER", 16, 14, .rw, 0⟩, ⟨"QUANTUM", 0, 15, .rw, 0⟩]
  | .WR_Q_DRR => [⟨"ACTIVE", 31, 1, .ro, 0⟩, ⟨"STARTED", 30, 1, .ro, 0⟩, ⟨"DEFICIT", 0, 21, .ro, 0⟩]
  | .WR_SHP_SEL => [⟨"SHAPER", 0, 14, .rw, 0⟩]
  | .WR_SHP_RATE => [⟨"RESET_FULL", 31, 1, .rw, 0⟩, ⟨"RATE_MBPS", 0, 21, .rw, 0⟩]
  | .WR_SHP_BURST => [⟨"BURST", 0, 15, .rw, 64⟩]
  | .WR_SHP_TOKENS => [⟨"ON_WHEEL", 31, 1, .ro, 0⟩, ⟨"TOKENS", 0, 22, .ro, 0⟩]
  | .WR_EVENTS => [⟨"SHAPER_AUDIT", 0, 1, .rw1c, 0⟩]
  | .WR_PORT_CFG => [⟨"LATE_LIMIT", 16, 9, .rw, 64⟩, ⟨"B_MAX", 0, 9, .rw, 260⟩]
  | .WR_PORT_GUARD => [⟨"GUARD_NS", 0, 16, .ro, 0⟩]
  | .WR_GATE_STATUS => [⟨"LIST", 31, 1, .ro, 0⟩, ⟨"PENDING", 30, 1, .ro, 0⟩, ⟨"BANK", 29, 1, .ro, 0⟩, ⟨"S_OPEN", 28, 1, .ro, 1⟩, ⟨"B_OPEN", 27, 1, .ro, 1⟩, ⟨"ENTRY", 0, 8, .ro, 0⟩]
  | .WR_GATE_STAT => [⟨"LATE_COUNT", 16, 16, .rc, 0⟩, ⟨"MAX_LATE_NS", 0, 16, .rc, 0⟩]
  | .WR_PORT_EVENTS => [⟨"PENDING_REPLACED", 4, 1, .rw1c, 0⟩, ⟨"GATE_TIME_STEP", 3, 1, .rw1c, 0⟩, ⟨"GATE_LATE", 2, 1, .rw1c, 0⟩, ⟨"S_OVERRUN", 1, 1, .rw1c, 0⟩, ⟨"B_OVERSIZE", 0, 1, .rw1c, 0⟩]
  | .VIT_SEL => [⟨"LVID", 0, 10, .rw, 0⟩]
  | .VIT_STATE => [⟨"STATE", 28, 4, .ro, 0⟩, ⟨"HELD_RESET", 27, 1, .ro, 0⟩, ⟨"GVH", 0, 23, .ro, 0⟩]
  | .VIT_PORT => [⟨"NVDP", 24, 7, .ro, 0⟩, ⟨"UPORT", 0, 9, .ro, 0⟩]
  | .VIT_INFLIGHT => [⟨"COUNT", 0, 21, .ro, 0⟩]
  | .VIT_SQUASH_TMO => [⟨"TMO_US", 0, 17, .rw, 2000⟩]
  | .VIT_FREEZE_TMO => [⟨"TMO_MS", 0, 16, .rw, 100⟩]
  | .VIT_EVENTS => [⟨"IMAGE_BAD", 4, 1, .rw1c, 0⟩, ⟨"THAW_ABORTED", 3, 1, .rw1c, 0⟩, ⟨"FREEZE_TIMEOUT", 2, 1, .rw1c, 0⟩, ⟨"SQUASH_TIMEOUT", 1, 1, .rw1c, 0⟩, ⟨"STRAY_TRAFFIC", 0, 1, .rw1c, 0⟩]
  | .TRK_FREE => [⟨"UNALLOCATED", 0, 19, .ro, 262144⟩]
  | .TRK_CPL_RSV => [⟨"RESERVED", 0, 19, .ro, 0⟩]
  | .TRK_VIT_QUOTA => [⟨"QUOTA", 0, 16, .ro, 0⟩]
  | .TRK_VIT_USE => [⟨"SQUASHED", 16, 16, .ro, 0⟩, ⟨"OPEN", 0, 16, .ro, 0⟩]
  | .SLC_ESEQ_LO => [⟨"ESEQ", 0, 32, .ro, 0⟩]
  | .SLC_ESEQ_HI => [⟨"ESEQ", 0, 32, .ro, 0⟩]
  | .SLC_LOG_HEAD => [⟨"STAGING", 31, 1, .ro, 1⟩, ⟨"NEXT", 0, 24, .ro, 0⟩]
  | .SLC_LOG_WRAPS => [⟨"WRAPS", 0, 32, .ro, 0⟩]
  | .SLC_CONT_SEL => [⟨"SCOPE", 16, 2, .rw, 0⟩, ⟨"ID", 0, 10, .rw, 0⟩]
  | .SLC_CONT_STATE => [⟨"STATE", 30, 2, .ro, 0⟩, ⟨"CAUSE", 28, 2, .ro, 0⟩, ⟨"CLASS", 24, 4, .ro, 0⟩, ⟨"UNACKED", 8, 8, .ro, 0⟩, ⟨"REPEATS", 0, 8, .ro, 0⟩]
  | .SLC_CONT_ESEQ_LO => [⟨"ESEQ", 0, 32, .ro, 0⟩]
  | .SLC_CONT_ESEQ_HI => [⟨"ESEQ", 0, 32, .ro, 0⟩]
  | .SLC_INJ_ARMED => [⟨"ARMED", 0, 14, .ro, 0⟩]
  | .TUN_PORT_CFG => [⟨"PCIE_EN", 31, 1, .rw, 1⟩, ⟨"H2H_EN", 30, 1, .rw, 1⟩, ⟨"ASYM_EN", 29, 1, .rw, 1⟩, ⟨"ALLOW_UNAUTH", 28, 1, .rw, 0⟩, ⟨"PCIE_FLOOR", 0, 8, .rw, 8⟩]
  | .TUN_PORT_STATUS => [⟨"ROLE", 29, 3, .ro, 0⟩, ⟨"LINK", 26, 3, .ro, 0⟩, ⟨"CABLE", 23, 3, .ro, 0⟩, ⟨"ACTIVE_CABLE", 22, 1, .ro, 0⟩, ⟨"ENDPOINTS", 16, 4, .ro, 0⟩, ⟨"PCIE_UP", 15, 1, .ro, 0⟩, ⟨"USB3_UP", 14, 1, .ro, 0⟩, ⟨"H2H_UP", 13, 1, .ro, 0⟩, ⟨"DP1_UP", 12, 1, .ro, 0⟩, ⟨"DP0_UP", 11, 1, .ro, 0⟩, ⟨"POOL", 0, 8, .ro, 0⟩]
  | .TUN_PORT_ALLOT => [⟨"POOL_RX", 24, 8, .ro, 0⟩, ⟨"DP1_GRANT", 8, 8, .ro, 0⟩, ⟨"DP0_GRANT", 0, 8, .ro, 0⟩]
  | .TUN_PORT_EVENTS => [⟨"UNAUTH_REFUSED", 5, 1, .rw1c, 0⟩, ⟨"DOCK_LIMIT", 4, 1, .rw1c, 0⟩, ⟨"ASYM_CHANGE", 3, 1, .rw1c, 0⟩, ⟨"LINK_DOWNGRADED", 2, 1, .rw1c, 0⟩, ⟨"DP_LOST", 1, 1, .rw1c, 0⟩, ⟨"DP_REFUSED", 0, 1, .rw1c, 0⟩]
  | .TUN_CE_DEST => [⟨"VALID", 31, 1, .ro, 0⟩, ⟨"REMOTE", 30, 1, .ro, 0⟩, ⟨"MODULE", 5, 13, .ro, 0⟩, ⟨"PORT", 1, 4, .ro, 0⟩, ⟨"TUNNEL", 0, 1, .ro, 0⟩]
  | .USH_OWNER_CFG => [⟨"PIN", 31, 1, .rw, 0⟩, ⟨"PIN_PORT", 0, 4, .rw, 0⟩]
  | .USH_OWNER => [⟨"VALID", 31, 1, .ro, 0⟩, ⟨"WAITING", 30, 1, .ro, 0⟩, ⟨"PATH", 24, 2, .ro, 0⟩, ⟨"PORT", 0, 4, .ro, 0⟩]
  | .USH_MUD_CTL => [⟨"CONNECT", 0, 1, .rw, 0⟩]
  | .USH_MUD_STATUS => [⟨"SPEED", 29, 3, .ro, 0⟩, ⟨"LINK", 26, 3, .ro, 0⟩, ⟨"CONFIGURED", 25, 1, .ro, 0⟩, ⟨"WAKE_PENDING", 24, 1, .ro, 0⟩, ⟨"IMAGE_OPEN", 23, 1, .ro, 0⟩, ⟨"LOG_OPEN", 22, 1, .ro, 0⟩, ⟨"OUTSTANDING", 0, 5, .ro, 0⟩]
  | .USH_MUD_WAKE => [⟨"COLLIDED", 16, 16, .ro, 0⟩, ⟨"SIGNALLED", 0, 16, .ro, 0⟩]
  | .USH_EVENTS => [⟨"IMAGE_ABORTED", 4, 1, .rw1c, 0⟩, ⟨"WAKE_COLLIDED", 3, 1, .rw1c, 0⟩, ⟨"CTRL_ABANDONED", 2, 1, .rw1c, 0⟩, ⟨"USBA_OVERCURRENT", 1, 1, .rw1c, 0⟩, ⟨"OWNER_CHANGED", 0, 1, .rw1c, 0⟩]
  | .PD_PORT_POLICY => [⟨"ENABLE", 31, 1, .rw, 1⟩, ⟨"PREFER_SRC", 30, 1, .rw, 1⟩, ⟨"PR_ACCEPT", 29, 1, .rw, 0⟩, ⟨"DR_ACCEPT", 28, 1, .rw, 1⟩, ⟨"TRY", 26, 2, .rw, 0⟩, ⟨"PRIORITY", 24, 2, .rw, 0⟩, ⟨"PMAX", 0, 8, .rw, 140⟩]
  | .PD_PORT_STATUS => [⟨"STATE", 28, 4, .ro, 0⟩, ⟨"DFP", 27, 1, .ro, 0⟩, ⟨"VCONN", 26, 1, .ro, 0⟩, ⟨"EPR", 25, 1, .ro, 0⟩, ⟨"POOL_LIMITED", 24, 1, .ro, 0⟩, ⟨"CC2", 16, 1, .ro, 0⟩, ⟨"VBUS_MV", 0, 16, .ro, 0⟩]
  | .PD_CONTRACT => [⟨"MV", 16, 16, .ro, 0⟩, ⟨"MA", 0, 16, .ro, 0⟩]
  | .PD_CABLE => [⟨"ANSWERED", 31, 1, .ro, 0⟩, ⟨"EPR_OK", 30, 1, .ro, 0⟩, ⟨"AMP5", 29, 1, .ro, 0⟩, ⟨"ACTIVE", 28, 1, .ro, 0⟩, ⟨"SOP2", 27, 1, .ro, 0⟩, ⟨"SPEED", 0, 3, .ro, 0⟩]
  | .PD_MOIST => [⟨"CC1_KOHM", 24, 8, .ro, 255⟩, ⟨"CC2_KOHM", 16, 8, .ro, 255⟩, ⟨"SBU1_KOHM", 8, 8, .ro, 255⟩, ⟨"SBU2_KOHM", 0, 8, .ro, 255⟩]
  | .PD_EVENTS => [⟨"EPR_EXIT", 7, 1, .rw1c, 0⟩, ⟨"CONTRACT_REDUCED", 6, 1, .rw1c, 0⟩, ⟨"POOL_REFUSED", 5, 1, .rw1c, 0⟩, ⟨"TRANSITION_ABORTED", 4, 1, .rw1c, 0⟩, ⟨"SWAP_FAILED", 3, 1, .rw1c, 0⟩, ⟨"CORROSION", 2, 1, .rw1c, 0⟩, ⟨"WET", 1, 1, .rw1c, 0⟩, ⟨"HARD_RESET", 0, 1, .rw1c, 0⟩]
  | .PD_POOL_LIMIT => [⟨"LIMIT_W", 0, 12, .ro, 0⟩]
  | .PD_POOL_USED => [⟨"USED_MW", 0, 22, .ro, 0⟩]
  | .PWR_FEED_A => [⟨"PRESENT", 31, 1, .ro, 0⟩, ⟨"HIGH_LINE", 30, 1, .ro, 0⟩, ⟨"FREQ_HZ", 16, 8, .ro, 0⟩, ⟨"VRMS", 0, 9, .ro, 0⟩]
  | .PWR_FEED_B => [⟨"PRESENT", 31, 1, .ro, 0⟩, ⟨"HIGH_LINE", 30, 1, .ro, 0⟩, ⟨"FREQ_HZ", 16, 8, .ro, 0⟩, ⟨"VRMS", 0, 9, .ro, 0⟩]
  | .PWR_BUDGET => [⟨"HIGH", 31, 1, .ro, 0⟩, ⟨"SINGLE_FEED", 30, 1, .ro, 0⟩, ⟨"BUDGET_W", 0, 12, .ro, 0⟩]
  | .PWR_POOLS => [⟨"CAGE_W", 16, 16, .ro, 0⟩, ⟨"PD_W", 0, 16, .ro, 0⟩]
  | .PWR_CAGE_USED => [⟨"USED_MW", 0, 21, .ro, 0⟩]
  | .PWR_STAGES => [⟨"STAGE_OK", 0, 3, .ro, 7⟩]
  | .PWR_EVENTS => [⟨"SINGLE_FEED", 5, 1, .rw1c, 0⟩, ⟨"STAGE_LOST", 4, 1, .rw1c, 0⟩, ⟨"SHED", 3, 1, .rw1c, 0⟩, ⟨"LINE_CHANGE", 2, 1, .rw1c, 0⟩, ⟨"FEED_RESTORED", 1, 1, .rw1c, 0⟩, ⟨"FEED_LOST", 0, 1, .rw1c, 0⟩]
  | .PWR_MODE => [⟨"ARM", 31, 1, .rw, 0⟩, ⟨"AUTO", 30, 1, .rw, 0⟩, ⟨"BASE", 2, 2, .rw, 0⟩, ⟨"TARGET", 0, 2, .rw, 0⟩]
  | .PWR_PS_STATUS => [⟨"STATE", 30, 2, .ro, 0⟩, ⟨"ENTERING", 29, 1, .ro, 0⟩, ⟨"GATED", 0, 6, .ro, 0⟩]
  | .PWR_WAKE => [⟨"REPLAY_PENDING", 31, 1, .ro, 0⟩, ⟨"SOURCE", 0, 10, .rw1c, 0⟩]
  | .PWR_PAD_HOLD => [⟨"RELEASE", 16, 5, .wo, 0⟩, ⟨"HELD", 0, 5, .ro, 0⟩]
  | .PWR_PS_LAST => [⟨"KIND", 24, 8, .ro, 0⟩, ⟨"ABORTED", 23, 1, .ro, 0⟩, ⟨"INDEX", 0, 16, .ro, 0⟩]
  | .PWR_PS_CNT => [⟨"COUNT", 0, 32, .ro, 0⟩]
  | .EF_CTL => [⟨"ENABLE", 31, 1, .wo, 0⟩, ⟨"DISABLE", 30, 1, .wo, 0⟩, ⟨"PRIORITY", 28, 2, .rw, 0⟩, ⟨"LIMIT_MA", 0, 13, .rw, 0⟩]
  | .EF_STATUS => [⟨"STATE", 28, 4, .ro, 0⟩, ⟨"PG", 27, 1, .ro, 0⟩, ⟨"TIMER", 26, 1, .ro, 0⟩, ⟨"RETRIES", 22, 4, .ro, 0⟩, ⟨"DAMAGE", 20, 2, .ro, 0⟩, ⟨"QUEUED", 19, 1, .ro, 0⟩, ⟨"VGS", 0, 8, .ro, 0⟩]
  | .EF_MEAS => [⟨"MV", 16, 16, .ro, 0⟩, ⟨"MA", 0, 16, .ro, 0⟩]
  | .EF_EVENTS => [⟨"SHED", 7, 1, .rw1c, 0⟩, ⟨"PRESENCE_CHANGED_DURING_RETRY", 6, 1, .rw1c, 0⟩, ⟨"BACKFEED", 5, 1, .rw1c, 0⟩, ⟨"GATE_NO_RISE", 4, 1, .rw1c, 0⟩, ⟨"LATCHED", 3, 1, .rw1c, 0⟩, ⟨"PG_WITHDRAWN", 2, 1, .rw1c, 0⟩, ⟨"FAST_TRIP", 1, 1, .rw1c, 0⟩, ⟨"TRIP", 0, 1, .rw1c, 0⟩]
  | .CUR_DOC_ROLE_LO => [⟨"ROLE", 0, 32, .rw, 0⟩]
  | .CUR_DOC_ROLE_HI => [⟨"ROLE", 0, 32, .rw, 0⟩]
  | .CUR_CMD_LOAD => [⟨"EXECUTING", 16, 7, .ro, 0⟩, ⟨"QUEUED", 0, 11, .ro, 0⟩]
  | .CUR_PAIR_STATUS => [⟨"ACTIVE", 31, 1, .ro, 0⟩, ⟨"STANDBY_OK", 30, 1, .ro, 0⟩, ⟨"A_STATE", 28, 2, .ro, 0⟩, ⟨"B_STATE", 26, 2, .ro, 0⟩, ⟨"FAILOVERS", 0, 16, .ro, 0⟩]
  | .CUR_START_STATUS => [⟨"STEP", 28, 4, .ro, 0⟩, ⟨"READY", 27, 1, .ro, 0⟩, ⟨"PHASE", 24, 3, .ro, 0⟩, ⟨"REGISTRAR", 23, 1, .ro, 0⟩, ⟨"READY_MS", 0, 16, .ro, 0⟩]
  | .CUR_START_CFG => [⟨"PRIO", 0, 8, .rw, 0⟩]
  | .MBX_CH_PTR_LO => [⟨"PTR", 0, 32, .rw, 0⟩]
  | .MBX_CH_PTR_HI => [⟨"PTR", 0, 32, .rw, 0⟩]
  | .MBX_CH_STATUS => [⟨"ABORTED", 31, 1, .rw1c, 0⟩, ⟨"REASON", 24, 4, .ro, 0⟩, ⟨"REFUSED", 23, 1, .rw1c, 0⟩, ⟨"COUNT", 16, 5, .ro, 0⟩, ⟨"DISCARDED", 8, 8, .ro, 0⟩, ⟨"FLAG", 0, 1, .ro, 0⟩]
  | .MBX_CH_CTL => [⟨"POP", 0, 1, .wo, 0⟩]
  | .MBX_BIND => [⟨"VALID", 31, 1, .rwl, 0⟩, ⟨"SENDER", 16, 11, .rwl, 0⟩, ⟨"RECEIVER", 0, 11, .rwl, 0⟩]
  | .MBX_LOCK => [⟨"LOCK", 0, 1, .rwl, 0⟩]
  | .DOC_CORE_CTL => [⟨"RUN", 31, 1, .rw, 0⟩, ⟨"RESET", 30, 1, .wo, 0⟩]
  | .DOC_CORE_STATUS => [⟨"STATE", 28, 4, .ro, 0⟩, ⟨"STB_USED", 16, 5, .ro, 0⟩, ⟨"SLOTS", 0, 3, .ro, 0⟩]
  | .DOC_STB_DISCARD => [⟨"ENTRIES", 0, 32, .ro, 0⟩]
  | .DOC_WSTORE_LOST => [⟨"STORES", 0, 32, .ro, 0⟩]
  | .DOC_MTIMECMP_LO => [⟨"CMP", 0, 32, .rw, 4294967295⟩]
  | .DOC_MTIMECMP_HI => [⟨"CMP", 0, 32, .rw, 4294967295⟩]
  | .DOC_EVENTS => [⟨"STB_DISCARD", 1, 1, .rw1c, 0⟩, ⟨"WSTORE_LOST", 0, 1, .rw1c, 0⟩]
  | .TIM_NOW_LO => [⟨"TIME", 0, 32, .ro, 0⟩]
  | .TIM_NOW_HI => [⟨"TIME", 0, 32, .ro, 0⟩]
  | .TIM_STATE => [⟨"STATE", 30, 2, .ro, 0⟩, ⟨"SOURCE", 28, 2, .ro, 0⟩, ⟨"ROOT", 27, 1, .ro, 0⟩, ⟨"HOPS", 12, 3, .ro, 0⟩, ⟨"PARENT", 0, 9, .ro, 0⟩]
  | .TIM_ROOT => [⟨"CLASS", 30, 2, .ro, 3⟩, ⟨"PRIO", 16, 8, .ro, 255⟩, ⟨"MODULE", 0, 13, .ro, 8191⟩]
  | .TIM_OFFSET => [⟨"OFFSET_PS", 0, 32, .ro, 0⟩]
  | .TIM_ERR_EST => [⟨"ERR_PS", 0, 32, .ro, 4294967295⟩]
  | .TIM_SRC_CFG => [⟨"SOURCE", 24, 2, .rw, 0⟩, ⟨"PRIO", 0, 8, .rw, 255⟩]
  | .TIM_EVENTS => [⟨"SOURCE_LOST", 5, 1, .rw1c, 0⟩, ⟨"AHEAD", 4, 1, .rw1c, 0⟩, ⟨"ROOT_CHANGE", 3, 1, .rw1c, 0⟩, ⟨"HOLDOVER", 2, 1, .rw1c, 0⟩, ⟨"LOCKED", 1, 1, .rw1c, 0⟩, ⟨"STEP", 0, 1, .rw1c, 0⟩]
  | .TEL_MODE => [⟨"TEST", 2, 1, .ro, 0⟩, ⟨"RECOVERY", 1, 1, .ro, 0⟩, ⟨"STARTUP", 0, 1, .ro, 1⟩]
  | .TEL_CNT_SEL => [⟨"WORD", 0, 18, .rw, 0⟩]
  | .TEL_CNT_LO => [⟨"WORD", 0, 32, .ro, 0⟩]
  | .TEL_CNT_HI => [⟨"WORD", 0, 32, .ro, 0⟩]
  | .TEL_CAT_WPTR => [⟨"OFFSET", 0, 30, .ro, 0⟩]
  | .TEL_SPC_WPTR => [⟨"OFFSET", 0, 32, .ro, 0⟩]
  | .TEL_EVENTS => [⟨"SPC_DROPPED", 1, 1, .rw1c, 0⟩, ⟨"CAT_SKIPPED", 0, 1, .rw1c, 0⟩]
  | .HLT_PLAN_CTL => [⟨"RUN", 31, 1, .wo, 0⟩, ⟨"WEEKLY", 30, 1, .rw, 1⟩]
  | .HLT_PLAN_STATUS => [⟨"STATE", 30, 2, .ro, 0⟩, ⟨"RUNS", 0, 16, .ro, 0⟩]
  | .HLT_FORECAST => [⟨"VOLT_DAYS", 16, 16, .ro, 65535⟩, ⟨"LANE_DAYS", 0, 16, .ro, 65535⟩]
  | .HLT_DROOP_CFG => [⟨"COUNT", 16, 8, .rw, 16⟩, ⟨"MARGIN_MV", 8, 8, .rw, 15⟩, ⟨"MAX_MV", 0, 8, .rw, 20⟩]
  | .HLT_EVENTS => [⟨"THERMAL_WARN", 5, 1, .rw1c, 0⟩, ⟨"AVS_NO_ACK", 4, 1, .rw1c, 0⟩, ⟨"FORECAST_SHORT", 3, 1, .rw1c, 0⟩, ⟨"LANE_AT_RISK", 2, 1, .rw1c, 0⟩, ⟨"LANE_RETIRED", 1, 1, .rw1c, 0⟩, ⟨"DROOP_RAISE", 0, 1, .rw1c, 0⟩]
  | .HLT_RAIL_PLAN => [⟨"FUSED_MV", 16, 16, .ro, 0⟩, ⟨"PLAN_MV", 0, 16, .ro, 0⟩]
  | .HLT_RAIL_NOW => [⟨"SETPOINT_MV", 16, 16, .ro, 0⟩, ⟨"DROOP_ADD_MV", 8, 8, .ro, 0⟩, ⟨"AVS", 2, 2, .ro, 0⟩]
  | .HLT_RAIL_AGE => [⟨"TEMP_C", 24, 8, .ro, 0⟩, ⟨"SLOWDOWN_PPM", 0, 24, .ro, 0⟩]
  | .VMF_ID => [⟨"MODULE", 16, 13, .ro, 0⟩, ⟨"LVID", 0, 10, .ro, 0⟩]
  | .VMF_VERSION => [⟨"VALUE", 0, 32, .ro, 0⟩]
  | .VMF_GVH => [⟨"VALUE", 0, 32, .ro, 0⟩]
  | .VMF_INTX => [⟨"ASSERTED", 31, 1, .ro, 0⟩, ⟨"SENT", 0, 16, .ro, 0⟩]
  | .VMF_BME => [⟨"BME_PENDING", 31, 1, .ro, 0⟩, ⟨"FLR_PENDING", 30, 1, .ro, 0⟩, ⟨"OUTSTANDING", 0, 8, .ro, 0⟩]
  | .VMF_CPL_TMO => [⟨"TMO_MS", 0, 6, .rw, 16⟩]
  | .VMF_EVENT_FLAGS => [⟨"CMD_LOST", 4, 1, .rw1c, 0⟩, ⟨"SPECIMEN", 3, 1, .rw1c, 0⟩, ⟨"CATALOGUE", 2, 1, .rw1c, 0⟩, ⟨"CONTAINED", 1, 1, .rw1c, 0⟩, ⟨"EVENT", 0, 1, .rw1c, 0⟩]
  | .VMF_EVENT_MASK => [⟨"CMD_LOST", 4, 1, .rw, 0⟩, ⟨"SPECIMEN", 3, 1, .rw, 0⟩, ⟨"CATALOGUE", 2, 1, .rw, 0⟩, ⟨"CONTAINED", 1, 1, .rw, 0⟩, ⟨"EVENT", 0, 1, .rw, 0⟩]
  | .VMF_CAT_ADDR_LO => [⟨"VALUE", 0, 32, .ro, 0⟩]
  | .VMF_CAT_ADDR_HI => [⟨"VALUE", 0, 32, .ro, 0⟩]
  | .VMF_CAT_SIZE => [⟨"VALUE", 0, 32, .ro, 0⟩]
  | .VMF_CAT_WPTR => [⟨"VALUE", 0, 32, .ro, 0⟩]
  | .VMF_SPC_ADDR_LO => [⟨"VALUE", 0, 32, .ro, 0⟩]
  | .VMF_SPC_ADDR_HI => [⟨"VALUE", 0, 32, .ro, 0⟩]
  | .VMF_SPC_SIZE => [⟨"VALUE", 0, 32, .ro, 0⟩]
  | .VMF_SPC_WPTR => [⟨"VALUE", 0, 32, .ro, 0⟩]
  | .TUN_CE_MODE => [⟨"ENABLE", 31, 1, .rw, 0⟩, ⟨"FORMAT", 24, 2, .rw, 0⟩, ⟨"REFRESH", 0, 7, .rw, 60⟩]
  | .TUN_CE_GEOM => [⟨"HEIGHT", 16, 12, .rw, 1080⟩, ⟨"WIDTH", 0, 12, .rw, 1920⟩]
  | .TUN_CE_STRIDE => [⟨"STRIDE", 0, 15, .rw, 7680⟩]
  | .TUN_CE_SCANOUT => [⟨"PENDING", 31, 1, .ro, 0⟩, ⟨"BASE", 0, 26, .rw, 0⟩]
  | .TUN_CE_STATUS => [⟨"VBLANK", 24, 8, .ro, 0⟩, ⟨"FLIP_DONE", 7, 1, .rw1c, 0⟩, ⟨"MODE_ERR", 6, 1, .rw1c, 0⟩, ⟨"BW_REFUSED", 5, 1, .rw1c, 0⟩, ⟨"BW_LOST", 4, 1, .rw1c, 0⟩, ⟨"BUDGET", 3, 1, .ro, 0⟩, ⟨"SINK_MODE", 2, 1, .ro, 0⟩, ⟨"ATTACHED", 1, 1, .ro, 0⟩, ⟨"STREAMING", 0, 1, .ro, 0⟩]
  | .TUN_CE_IRQ => [⟨"STATE_EN", 2, 1, .rw, 0⟩, ⟨"FLIP_EN", 1, 1, .rw, 0⟩, ⟨"VBLANK_EN", 0, 1, .rw, 0⟩]
  | .PIN_CTL => [⟨"VALID", 31, 1, .rw, 0⟩, ⟨"PENDING", 30, 1, .rw, 0⟩, ⟨"NEW_PORT", 0, 9, .rw, 0⟩]
  | .PIN_SRC => [⟨"FPID", 0, 22, .rw, 0⟩]
  | .PIN_DST => [⟨"FPID", 0, 22, .rw, 0⟩]
  | .PIN_OLD => [⟨"OLD_VALID", 31, 1, .rw, 0⟩, ⟨"OLD_PORT", 0, 9, .rw, 0⟩]
  | .PIN_TCUT_LO => [⟨"TCUT", 0, 32, .rw, 0⟩]
  | .PIN_TCUT_HI => [⟨"TCUT", 0, 32, .rw, 0⟩]
  | .ATT_CTL => [⟨"VALID", 31, 1, .rw, 0⟩, ⟨"SIZE_LOG2", 16, 6, .rw, 0⟩, ⟨"LVID", 0, 10, .rw, 0⟩]
  | .ATT_FPID => [⟨"FPID", 0, 22, .rw, 0⟩]
  | .ATT_HOST_LO => [⟨"BASE", 0, 32, .rw, 0⟩]
  | .ATT_HOST_HI => [⟨"BASE", 0, 32, .rw, 0⟩]
  | .ATT_EP_LO => [⟨"BASE", 0, 32, .rw, 0⟩]
  | .ATT_EP_HI => [⟨"BASE", 0, 32, .rw, 0⟩]
  | .GATE_BASE_LO => [⟨"BASE", 0, 32, .rw, 0⟩]
  | .GATE_BASE_HI => [⟨"BASE", 0, 32, .rw, 0⟩]
  | .GATE_CYCLE => [⟨"RSV", 27, 5, .rw, 0⟩, ⟨"CYCLE", 0, 27, .rw, 0⟩]
  | .GATE_COUNT => [⟨"RSV", 9, 23, .rw, 0⟩, ⟨"COUNT", 0, 9, .rw, 0⟩]
  | .GATE_ENTRY => [⟨"S_OPEN", 31, 1, .rw, 0⟩, ⟨"RSV", 27, 4, .rw, 0⟩, ⟨"DURATION", 0, 27, .rw, 0⟩]

/-- Where each register lies. -/
def Reg.place : Reg → Place
  | .LNA_LANE_CFG => .block 0x801000000 0x100 512
  | .LNA_LANE_STATE => .block 0x801000004 0x100 512
  | .LNA_TX_EQ => .block 0x801000008 0x100 512
  | .LNA_RX_EQ => .block 0x80100000C 0x100 512
  | .LNA_BITSLIP => .block 0x801000010 0x100 512
  | .LNA_ALIGN => .block 0x801000014 0x100 512
  | .LNA_TRAIN_REF => .block 0x801000018 0x100 512
  | .LNA_MRG_CTL => .block 0x801000020 0x100 512
  | .LNA_MRG_RESULT => .block 0x801000024 0x100 512
  | .LNA_EVENTS => .block 0x801000028 0x100 512
  | .LNA_TRIG_CFG => .block 0x801020000 0x0 1
  | .LNA_REEQ_CFG => .block 0x801020004 0x0 1
  | .PRT_PORT_CFG => .block 0x801800000 0x100 512
  | .PRT_PORT_STATUS => .block 0x801800004 0x100 512
  | .PRT_LTR => .block 0x801800008 0x100 512
  | .PRT_PM_CFG => .block 0x80180000C 0x100 512
  | .PRT_EVENTS => .block 0x801800010 0x100 512
  | .FLL_LINK_STATUS => .block 0x802000000 0x100 512
  | .FLL_PARTNER => .block 0x802000004 0x100 512
  | .FLL_RTT => .block 0x802000008 0x100 512
  | .FLL_REPLAY => .block 0x80200000C 0x100 512
  | .FLL_SEQ => .block 0x802000010 0x100 512
  | .FLL_EVENTS => .block 0x802000014 0x100 512
  | .EBR_CRD_SEL => .block 0x802040000 0x0 1
  | .EBR_CRD_GRANT => .selected 0x802040004 32768
  | .EBR_CRD_AVAIL => .selected 0x802040008 32768
  | .EBR_CRD_AUDIT => .selected 0x80204000C 32768
  | .EBR_CRD_LOST => .selected 0x802040010 32768
  | .EBR_SIDEBAND => .block 0x802080000 0x40 512
  | .EBR_LOCK => .block 0x802080004 0x40 512
  | .EBR_EVENTS => .block 0x802080008 0x40 512
  | .EBR_RAT_BASE => .block 0x8020C0000 0x20 64
  | .EBR_RAT_LIMIT => .block 0x8020C0004 0x20 64
  | .EBR_RAT_ATTR => .block 0x8020C0008 0x20 64
  | .EBR_RAT_TARGET => .block 0x8020C000C 0x20 64
  | .EBR_RAT_XLATE_LO => .block 0x8020C0010 0x20 64
  | .EBR_RAT_XLATE_HI => .block 0x8020C0014 0x20 64
  | .EBR_RAT_PFDISC_LO => .block 0x8020C0018 0x20 64
  | .EBR_RAT_PFDISC_HI => .block 0x8020C001C 0x20 64
  | .EBR_PF_CFG => .block 0x8020D0000 0x0 1
  | .EBR_PFLOG_HEAD => .block 0x8020D0004 0x0 1
  | .BSN_SHARED_FREE => .block 0x802800000 0x0 1
  | .BSN_SHARED_SIZE => .block 0x802800004 0x0 1
  | .BSN_RESERVED => .block 0x802800008 0x0 1
  | .BSN_AGE_S => .block 0x80280000C 0x0 1
  | .BSN_AGE_C => .block 0x802800010 0x0 1
  | .BSN_AGE_L => .block 0x802800014 0x0 1
  | .BSN_AGE_B => .block 0x802800018 0x0 1
  | .BSN_EVENTS => .block 0x80280001C 0x0 1
  | .BSN_Q_SEL => .block 0x802800020 0x0 1
  | .BSN_Q_CFG => .selected 0x802800024 65536
  | .BSN_Q_STATUS => .selected 0x802800028 65536
  | .BSN_Q_SHARED => .selected 0x80280002C 65536
  | .BSN_PORT_RSV => .block 0x802810000 0x10 512
  | .BSN_PORT_WIN => .block 0x802810004 0x10 512
  | .BSN_PORT_GRANT => .block 0x802810008 0x10 512
  | .BSN_PORT_USE => .block 0x80281000C 0x10 512
  | .RTE_MRT => .block 0x803000000 0x4 8192
  | .RTE_MODULE_ID => .block 0x803008000 0x0 1
  | .RTE_EVENTS => .block 0x803008004 0x0 1
  | .RTE_GRP_SLOT => .block 0x803040000 0x4 65536
  | .WR_Q_SEL => .block 0x803800000 0x0 1
  | .WR_Q_CFG => .selected 0x803800004 65536
  | .WR_Q_DRR => .selected 0x803800008 65536
  | .WR_SHP_SEL => .block 0x803800010 0x0 1
  | .WR_SHP_RATE => .selected 0x803800014 16384
  | .WR_SHP_BURST => .selected 0x803800018 16384
  | .WR_SHP_TOKENS => .selected 0x80380001C 16384
  | .WR_EVENTS => .block 0x803800020 0x0 1
  | .WR_PORT_CFG => .block 0x803810000 0x20 512
  | .WR_PORT_GUARD => .block 0x803810004 0x20 512
  | .WR_GATE_STATUS => .block 0x803810008 0x20 512
  | .WR_GATE_STAT => .block 0x80381000C 0x20 512
  | .WR_PORT_EVENTS => .block 0x803810010 0x20 512
  | .VIT_SEL => .block 0x804000000 0x0 1
  | .VIT_STATE => .selected 0x804000004 1024
  | .VIT_PORT => .selected 0x804000008 1024
  | .VIT_INFLIGHT => .selected 0x80400000C 1024
  | .VIT_SQUASH_TMO => .block 0x804000010 0x0 1
  | .VIT_FREEZE_TMO => .block 0x804000014 0x0 1
  | .VIT_EVENTS => .selected 0x804000018 1024
  | .TRK_FREE => .block 0x804800000 0x0 1
  | .TRK_CPL_RSV => .block 0x804800004 0x0 1
  | .TRK_VIT_QUOTA => .selected 0x804800008 1024
  | .TRK_VIT_USE => .selected 0x80480000C 1024
  | .SLC_ESEQ_LO => .block 0x805000000 0x0 1
  | .SLC_ESEQ_HI => .block 0x805000004 0x0 1
  | .SLC_LOG_HEAD => .block 0x805000008 0x0 1
  | .SLC_LOG_WRAPS => .block 0x80500000C 0x0 1
  | .SLC_CONT_SEL => .block 0x805000010 0x0 1
  | .SLC_CONT_STATE => .selected 0x805000014 4096
  | .SLC_CONT_ESEQ_LO => .selected 0x805000018 4096
  | .SLC_CONT_ESEQ_HI => .selected 0x80500001C 4096
  | .SLC_INJ_ARMED => .block 0x805000020 0x0 1
  | .TUN_PORT_CFG => .block 0x805800000 0x40 16
  | .TUN_PORT_STATUS => .block 0x805800004 0x40 16
  | .TUN_PORT_ALLOT => .block 0x805800008 0x40 16
  | .TUN_PORT_EVENTS => .block 0x80580000C 0x40 16
  | .TUN_CE_DEST => .block 0x805810000 0x4 64
  | .USH_OWNER_CFG => .block 0x806000000 0x0 1
  | .USH_OWNER => .block 0x806000004 0x0 1
  | .USH_MUD_CTL => .block 0x806000008 0x0 1
  | .USH_MUD_STATUS => .block 0x80600000C 0x0 1
  | .USH_MUD_WAKE => .block 0x806000010 0x0 1
  | .USH_EVENTS => .block 0x806000014 0x0 1
  | .PD_PORT_POLICY => .block 0x806800000 0x40 16
  | .PD_PORT_STATUS => .block 0x806800004 0x40 16
  | .PD_CONTRACT => .block 0x806800008 0x40 16
  | .PD_CABLE => .block 0x80680000C 0x40 16
  | .PD_MOIST => .block 0x806800010 0x40 16
  | .PD_EVENTS => .block 0x806800014 0x40 16
  | .PD_POOL_LIMIT => .block 0x806800400 0x0 1
  | .PD_POOL_USED => .block 0x806800404 0x0 1
  | .PWR_FEED_A => .block 0x807000000 0x0 1
  | .PWR_FEED_B => .block 0x807000004 0x0 1
  | .PWR_BUDGET => .block 0x807000008 0x0 1
  | .PWR_POOLS => .block 0x80700000C 0x0 1
  | .PWR_CAGE_USED => .block 0x807000010 0x0 1
  | .PWR_STAGES => .block 0x807000014 0x0 1
  | .PWR_EVENTS => .block 0x807000018 0x0 1
  | .PWR_MODE => .block 0x807000020 0x0 1
  | .PWR_PS_STATUS => .block 0x807000024 0x0 1
  | .PWR_WAKE => .block 0x807000028 0x0 1
  | .PWR_PAD_HOLD => .block 0x80700002C 0x0 1
  | .PWR_PS_LAST => .block 0x807000030 0x0 1
  | .PWR_PS_CNT => .block 0x807000040 0x4 12
  | .EF_CTL => .block 0x807080000 0x10 72
  | .EF_STATUS => .block 0x807080004 0x10 72
  | .EF_MEAS => .block 0x807080008 0x10 72
  | .EF_EVENTS => .block 0x80708000C 0x10 72
  | .CUR_DOC_ROLE_LO => .block 0x808000000 0x0 1
  | .CUR_DOC_ROLE_HI => .block 0x808000004 0x0 1
  | .CUR_CMD_LOAD => .block 0x808000008 0x0 1
  | .CUR_PAIR_STATUS => .block 0x80800000C 0x0 1
  | .CUR_START_STATUS => .block 0x808000010 0x0 1
  | .CUR_START_CFG => .block 0x808000014 0x0 1
  | .MBX_CH_PTR_LO => .block 0x808800000 0x10 256
  | .MBX_CH_PTR_HI => .block 0x808800004 0x10 256
  | .MBX_CH_STATUS => .block 0x808800008 0x10 256
  | .MBX_CH_CTL => .block 0x80880000C 0x10 256
  | .MBX_BIND => .block 0x808801000 0x4 256
  | .MBX_LOCK => .block 0x808802000 0x0 1
  | .DOC_CORE_CTL => .block 0x809000000 0x20 16
  | .DOC_CORE_STATUS => .block 0x809000004 0x20 16
  | .DOC_STB_DISCARD => .block 0x809000008 0x20 16
  | .DOC_WSTORE_LOST => .block 0x80900000C 0x20 16
  | .DOC_MTIMECMP_LO => .block 0x809000010 0x20 16
  | .DOC_MTIMECMP_HI => .block 0x809000014 0x20 16
  | .DOC_EVENTS => .block 0x809000018 0x20 16
  | .TIM_NOW_LO => .block 0x809800000 0x0 1
  | .TIM_NOW_HI => .block 0x809800004 0x0 1
  | .TIM_STATE => .block 0x809800008 0x0 1
  | .TIM_ROOT => .block 0x80980000C 0x0 1
  | .TIM_OFFSET => .block 0x809800010 0x0 1
  | .TIM_ERR_EST => .block 0x809800014 0x0 1
  | .TIM_SRC_CFG => .block 0x809800018 0x0 1
  | .TIM_EVENTS => .block 0x80980001C 0x0 1
  | .TEL_MODE => .block 0x80A000000 0x0 1
  | .TEL_CNT_SEL => .block 0x80A000004 0x0 1
  | .TEL_CNT_LO => .block 0x80A000008 0x0 1
  | .TEL_CNT_HI => .block 0x80A00000C 0x0 1
  | .TEL_CAT_WPTR => .block 0x80A000010 0x0 1
  | .TEL_SPC_WPTR => .block 0x80A000014 0x0 1
  | .TEL_EVENTS => .block 0x80A000018 0x0 1
  | .HLT_PLAN_CTL => .block 0x80A800000 0x0 1
  | .HLT_PLAN_STATUS => .block 0x80A800004 0x0 1
  | .HLT_FORECAST => .block 0x80A800008 0x0 1
  | .HLT_DROOP_CFG => .block 0x80A80000C 0x0 1
  | .HLT_EVENTS => .block 0x80A800010 0x0 1
  | .HLT_RAIL_PLAN => .block 0x80A800100 0x10 7
  | .HLT_RAIL_NOW => .block 0x80A800104 0x10 7
  | .HLT_RAIL_AGE => .block 0x80A800108 0x10 7
  | .VMF_ID => .bar0 0x0
  | .VMF_VERSION => .bar0 0x4
  | .VMF_GVH => .bar0 0x8
  | .VMF_INTX => .bar0 0x100
  | .VMF_BME => .bar0 0x200
  | .VMF_CPL_TMO => .bar0 0x204
  | .VMF_EVENT_FLAGS => .bar0 0x2000
  | .VMF_EVENT_MASK => .bar0 0x2004
  | .VMF_CAT_ADDR_LO => .bar0 0x3000
  | .VMF_CAT_ADDR_HI => .bar0 0x3004
  | .VMF_CAT_SIZE => .bar0 0x3008
  | .VMF_CAT_WPTR => .bar0 0x300C
  | .VMF_SPC_ADDR_LO => .bar0 0x3010
  | .VMF_SPC_ADDR_HI => .bar0 0x3014
  | .VMF_SPC_SIZE => .bar0 0x3018
  | .VMF_SPC_WPTR => .bar0 0x301C
  | .TUN_CE_MODE => .bar2 0x0
  | .TUN_CE_GEOM => .bar2 0x4
  | .TUN_CE_STRIDE => .bar2 0x8
  | .TUN_CE_SCANOUT => .bar2 0xC
  | .TUN_CE_STATUS => .bar2 0x10
  | .TUN_CE_IRQ => .bar2 0x14
  | .PIN_CTL => .block 0x803100000 0x20 16384
  | .PIN_SRC => .block 0x803100004 0x20 16384
  | .PIN_DST => .block 0x803100008 0x20 16384
  | .PIN_OLD => .block 0x80310000C 0x20 16384
  | .PIN_TCUT_LO => .block 0x803100010 0x20 16384
  | .PIN_TCUT_HI => .block 0x803100014 0x20 16384
  | .ATT_CTL => .block 0x803200000 0x20 65536
  | .ATT_FPID => .block 0x803200004 0x20 65536
  | .ATT_HOST_LO => .block 0x803200008 0x20 65536
  | .ATT_HOST_HI => .block 0x80320000C 0x20 65536
  | .ATT_EP_LO => .block 0x803200010 0x20 65536
  | .ATT_EP_HI => .block 0x803200014 0x20 65536
  | .GATE_BASE_LO => .block 0x803900000 0x800 1024
  | .GATE_BASE_HI => .block 0x803900004 0x800 1024
  | .GATE_CYCLE => .block 0x803900008 0x800 1024
  | .GATE_COUNT => .block 0x80390000C 0x800 1024
  | .GATE_ENTRY => .gateEntry

/-- A register field: the register, its lowest bit and its width. -/
structure Fld where
  reg : Reg
  lo : Nat
  width : Nat
  deriving DecidableEq, Repr

/-- The word a register holds at module reset in instance `i`, from the Reset column; a value the manual takes from
stored configuration or EEPROM is the one it gives for none stored (log entry 3). -/
def Reg.resetWord : Reg → Nat → Nat
  | .LNA_LANE_CFG, i => 0x700 + (if 448 ≤ i then 2 else 0)
  | .LNA_TX_EQ, _ => 0x43F0000
  | .LNA_RX_EQ, i => if 448 ≤ i then 0x80000000 else 0
  | .LNA_BITSLIP, _ => 0x80000000
  | .LNA_MRG_CTL, _ => 0x10300406
  | .LNA_TRIG_CFG, _ => 0x32280F
  | .LNA_REEQ_CFG, _ => 0x1807D0
  | .PRT_PORT_CFG, _ => 0x700100
  | .PRT_LTR, _ => 0x80000000
  | .PRT_PM_CFG, _ => 0xF0201388
  | .EBR_SIDEBAND, _ => 0xF000000
  | .EBR_PF_CFG, _ => 0x14
  | .BSN_AGE_S, _ => 100
  | .BSN_AGE_C, _ => 10000
  | .BSN_AGE_L, _ => 2000
  | .BSN_AGE_B, _ => 20000
  | .BSN_Q_CFG, _ => 0x8
  | .BSN_PORT_WIN, _ => 0x8
  | .WR_Q_CFG, i => if i % 128 / 32 = 2 then 256 else if i % 128 / 32 = 3 then 64 else 0
  | .WR_SHP_BURST, _ => 0x40
  | .WR_PORT_CFG, _ => 0x400104
  | .WR_GATE_STATUS, _ => 0x18000000
  | .VIT_SQUASH_TMO, _ => 0x7D0
  | .VIT_FREEZE_TMO, _ => 0x64
  | .TRK_FREE, _ => 0x40000
  | .SLC_LOG_HEAD, _ => 0x80000000
  | .TUN_PORT_CFG, _ => 0xE0000008
  | .PD_PORT_POLICY, _ => 0xD000008C
  | .PD_MOIST, _ => 0xFFFFFFFF
  | .PWR_STAGES, _ => 0x7
  | .EF_CTL, i => if i < 56 then 1500 else 3750
  | .CUR_DOC_ROLE_LO, _ => 0x22222222
  | .CUR_DOC_ROLE_HI, _ => 0x22222222
  | .CUR_START_CFG, _ => 128
  | .DOC_MTIMECMP_LO, _ => 0xFFFFFFFF
  | .DOC_MTIMECMP_HI, _ => 0xFFFFFFFF
  | .TIM_ROOT, _ => 0xC0FF1FFF
  | .TIM_ERR_EST, _ => 0xFFFFFFFF
  | .TIM_SRC_CFG, _ => 0xFF
  | .TEL_MODE, _ => 0x1
  | .HLT_PLAN_CTL, _ => 0x40000000
  | .HLT_FORECAST, _ => 0xFFFFFFFF
  | .HLT_DROOP_CFG, _ => 0x100F14
  | .HLT_RAIL_PLAN, _ => 750 * 0x10000 + 750
  | .HLT_RAIL_NOW, _ => 780 * 0x10000
  | .VMF_CPL_TMO, _ => 0x10
  | .TUN_CE_MODE, _ => 0x3C
  | .TUN_CE_GEOM, _ => 0x4380780
  | .TUN_CE_STRIDE, _ => 0x1E00
  | _, _ => 0

/-- The value a field holds at module reset. -/
def Fld.reset (f : Fld) (i : Nat) : Nat := f.reg.resetWord i / 2 ^ f.lo % 2 ^ f.width

/-- A code below 8192 that names the register and lowest bit of a field. -/
def Fld.code (f : Fld) : Nat := (f.reg.ctorIdx * 32 + f.lo) % 8192

/-- The key under which a field of instance `i` is stored. -/
def Fld.key (f : Fld) (i : Nat) : Nat := f.code + 8192 * i

/-- LNA_LANE_CFG[11:8], RW. -/
def LNA_LANE_CFG.RATE_MAX : Fld := ⟨.LNA_LANE_CFG, 8, 4⟩
/-- LNA_LANE_CFG[7:7], RW. -/
def LNA_LANE_CFG.TEST : Fld := ⟨.LNA_LANE_CFG, 7, 1⟩
/-- LNA_LANE_CFG[1:1], RO. -/
def LNA_LANE_CFG.REAR : Fld := ⟨.LNA_LANE_CFG, 1, 1⟩
/-- LNA_LANE_CFG[0:0], RW. -/
def LNA_LANE_CFG.ENABLE : Fld := ⟨.LNA_LANE_CFG, 0, 1⟩
/-- LNA_LANE_STATE[31:24], RO. -/
def LNA_LANE_STATE.ATTEMPTS : Fld := ⟨.LNA_LANE_STATE, 24, 8⟩
/-- LNA_LANE_STATE[19:16], RO. -/
def LNA_LANE_STATE.RATE : Fld := ⟨.LNA_LANE_STATE, 16, 4⟩
/-- LNA_LANE_STATE[7:4], RO. -/
def LNA_LANE_STATE.LAST_FAIL : Fld := ⟨.LNA_LANE_STATE, 4, 4⟩
/-- LNA_LANE_STATE[3:0], RO. -/
def LNA_LANE_STATE.STATE : Fld := ⟨.LNA_LANE_STATE, 0, 4⟩
/-- LNA_TX_EQ[27:24], RO. -/
def LNA_TX_EQ.PRESET : Fld := ⟨.LNA_TX_EQ, 24, 4⟩
/-- LNA_TX_EQ[23:22], RO. -/
def LNA_TX_EQ.SOURCE : Fld := ⟨.LNA_TX_EQ, 22, 2⟩
/-- LNA_TX_EQ[21:16], RO. -/
def LNA_TX_EQ.MAIN : Fld := ⟨.LNA_TX_EQ, 16, 6⟩
/-- LNA_TX_EQ[12:8], RW. -/
def LNA_TX_EQ.POST : Fld := ⟨.LNA_TX_EQ, 8, 5⟩
/-- LNA_TX_EQ[3:0], RW. -/
def LNA_TX_EQ.PRE : Fld := ⟨.LNA_TX_EQ, 0, 4⟩
/-- LNA_RX_EQ[31:31], RO. -/
def LNA_RX_EQ.FIXED : Fld := ⟨.LNA_RX_EQ, 31, 1⟩
/-- LNA_RX_EQ[14:8], RO. -/
def LNA_RX_EQ.DFE1 : Fld := ⟨.LNA_RX_EQ, 8, 7⟩
/-- LNA_RX_EQ[4:0], RO. -/
def LNA_RX_EQ.CTLE : Fld := ⟨.LNA_RX_EQ, 0, 5⟩
/-- LNA_BITSLIP[31:31], RO. -/
def LNA_BITSLIP.APPLIED : Fld := ⟨.LNA_BITSLIP, 31, 1⟩
/-- LNA_BITSLIP[7:0], RW. -/
def LNA_BITSLIP.DELAY : Fld := ⟨.LNA_BITSLIP, 0, 8⟩
/-- LNA_ALIGN[31:31], RO. -/
def LNA_ALIGN.LOCKED : Fld := ⟨.LNA_ALIGN, 31, 1⟩
/-- LNA_ALIGN[23:16], RO. -/
def LNA_ALIGN.MATCH : Fld := ⟨.LNA_ALIGN, 16, 8⟩
/-- LNA_ALIGN[10:0], RO. -/
def LNA_ALIGN.SKEW : Fld := ⟨.LNA_ALIGN, 0, 11⟩
/-- LNA_TRAIN_REF[7:0], RO. -/
def LNA_TRAIN_REF.TEMP : Fld := ⟨.LNA_TRAIN_REF, 0, 8⟩
/-- LNA_MRG_CTL[31:31], WO. -/
def LNA_MRG_CTL.START : Fld := ⟨.LNA_MRG_CTL, 31, 1⟩
/-- LNA_MRG_CTL[30:30], WO. -/
def LNA_MRG_CTL.ABORT : Fld := ⟨.LNA_MRG_CTL, 30, 1⟩
/-- LNA_MRG_CTL[29:26], RW. -/
def LNA_MRG_CTL.DWELL : Fld := ⟨.LNA_MRG_CTL, 26, 4⟩
/-- LNA_MRG_CTL[25:22], RW. -/
def LNA_MRG_CTL.ERR_LIMIT : Fld := ⟨.LNA_MRG_CTL, 22, 4⟩
/-- LNA_MRG_CTL[21:20], RW. -/
def LNA_MRG_CTL.AXES : Fld := ⟨.LNA_MRG_CTL, 20, 2⟩
/-- LNA_MRG_CTL[13:8], RW. -/
def LNA_MRG_CTL.VFLOOR : Fld := ⟨.LNA_MRG_CTL, 8, 6⟩
/-- LNA_MRG_CTL[5:0], RW. -/
def LNA_MRG_CTL.HFLOOR : Fld := ⟨.LNA_MRG_CTL, 0, 6⟩
/-- LNA_MRG_RESULT[31:30], RO. -/
def LNA_MRG_RESULT.STATUS : Fld := ⟨.LNA_MRG_RESULT, 30, 2⟩
/-- LNA_MRG_RESULT[29:28], RO. -/
def LNA_MRG_RESULT.WORST_EYE : Fld := ⟨.LNA_MRG_RESULT, 28, 2⟩
/-- LNA_MRG_RESULT[27:27], RO. -/
def LNA_MRG_RESULT.BELOW_FLOOR : Fld := ⟨.LNA_MRG_RESULT, 27, 1⟩
/-- LNA_MRG_RESULT[23:18], RO. -/
def LNA_MRG_RESULT.LEFT : Fld := ⟨.LNA_MRG_RESULT, 18, 6⟩
/-- LNA_MRG_RESULT[17:12], RO. -/
def LNA_MRG_RESULT.RIGHT : Fld := ⟨.LNA_MRG_RESULT, 12, 6⟩
/-- LNA_MRG_RESULT[11:6], RO. -/
def LNA_MRG_RESULT.DOWN : Fld := ⟨.LNA_MRG_RESULT, 6, 6⟩
/-- LNA_MRG_RESULT[5:0], RO. -/
def LNA_MRG_RESULT.UP : Fld := ⟨.LNA_MRG_RESULT, 0, 6⟩
/-- LNA_EVENTS[5:5], RW1C. -/
def LNA_EVENTS.REEQ_NO_FLOOR : Fld := ⟨.LNA_EVENTS, 5, 1⟩
/-- LNA_EVENTS[4:4], RW1C. -/
def LNA_EVENTS.BELOW_FLOOR : Fld := ⟨.LNA_EVENTS, 4, 1⟩
/-- LNA_EVENTS[3:3], RW1C. -/
def LNA_EVENTS.SLIP_NEEDED : Fld := ⟨.LNA_EVENTS, 3, 1⟩
/-- LNA_EVENTS[2:2], RW1C. -/
def LNA_EVENTS.DESKEW_FAIL : Fld := ⟨.LNA_EVENTS, 2, 1⟩
/-- LNA_EVENTS[1:1], RW1C. -/
def LNA_EVENTS.BRINGUP_FAILED : Fld := ⟨.LNA_EVENTS, 1, 1⟩
/-- LNA_EVENTS[0:0], RW1C. -/
def LNA_EVENTS.LOCK_LOST : Fld := ⟨.LNA_EVENTS, 0, 1⟩
/-- LNA_TRIG_CFG[23:16], RW. -/
def LNA_TRIG_CFG.UTIL_PCT : Fld := ⟨.LNA_TRIG_CFG, 16, 8⟩
/-- LNA_TRIG_CFG[15:8], RW. -/
def LNA_TRIG_CFG.REARM_PCT : Fld := ⟨.LNA_TRIG_CFG, 8, 8⟩
/-- LNA_TRIG_CFG[7:0], RW. -/
def LNA_TRIG_CFG.TEMP_DELTA : Fld := ⟨.LNA_TRIG_CFG, 0, 8⟩
/-- LNA_REEQ_CFG[31:16], RW. -/
def LNA_REEQ_CFG.DEFER_MAX : Fld := ⟨.LNA_REEQ_CFG, 16, 16⟩
/-- LNA_REEQ_CFG[15:0], RW. -/
def LNA_REEQ_CFG.LTR_MIN : Fld := ⟨.LNA_REEQ_CFG, 0, 16⟩
/-- PRT_PORT_CFG[23:20], RW. -/
def PRT_PORT_CFG.RATE_MAX : Fld := ⟨.PRT_PORT_CFG, 20, 4⟩
/-- PRT_PORT_CFG[18:16], RW. -/
def PRT_PORT_CFG.WIDTH : Fld := ⟨.PRT_PORT_CFG, 16, 3⟩
/-- PRT_PORT_CFG[8:8], RW. -/
def PRT_PORT_CFG.REVERSAL_OK : Fld := ⟨.PRT_PORT_CFG, 8, 1⟩
/-- PRT_PORT_CFG[4:4], RW. -/
def PRT_PORT_CFG.CXL_HOST : Fld := ⟨.PRT_PORT_CFG, 4, 1⟩
/-- PRT_PORT_CFG[2:0], RW. -/
def PRT_PORT_CFG.KIND : Fld := ⟨.PRT_PORT_CFG, 0, 3⟩
/-- PRT_PORT_STATUS[31:31], RO. -/
def PRT_PORT_STATUS.DL_ACTIVE : Fld := ⟨.PRT_PORT_STATUS, 31, 1⟩
/-- PRT_PORT_STATUS[30:30], RO. -/
def PRT_PORT_STATUS.FLIT : Fld := ⟨.PRT_PORT_STATUS, 30, 1⟩
/-- PRT_PORT_STATUS[29:29], RO. -/
def PRT_PORT_STATUS.CXL : Fld := ⟨.PRT_PORT_STATUS, 29, 1⟩
/-- PRT_PORT_STATUS[28:28], RO. -/
def PRT_PORT_STATUS.REVERSED : Fld := ⟨.PRT_PORT_STATUS, 28, 1⟩
/-- PRT_PORT_STATUS[27:24], RO. -/
def PRT_PORT_STATUS.RATE : Fld := ⟨.PRT_PORT_STATUS, 24, 4⟩
/-- PRT_PORT_STATUS[23:21], RO. -/
def PRT_PORT_STATUS.WIDTH : Fld := ⟨.PRT_PORT_STATUS, 21, 3⟩
/-- PRT_PORT_STATUS[15:12], RO. -/
def PRT_PORT_STATUS.LINK_PM : Fld := ⟨.PRT_PORT_STATUS, 12, 4⟩
/-- PRT_PORT_STATUS[3:0], RO. -/
def PRT_PORT_STATUS.LTSSM : Fld := ⟨.PRT_PORT_STATUS, 0, 4⟩
/-- PRT_LTR[31:31], RO. -/
def PRT_LTR.NONE : Fld := ⟨.PRT_LTR, 31, 1⟩
/-- PRT_LTR[25:0], RO. -/
def PRT_LTR.LTR_US : Fld := ⟨.PRT_LTR, 0, 26⟩
/-- PRT_PM_CFG[31:31], RW. -/
def PRT_PM_CFG.L0P_EN : Fld := ⟨.PRT_PM_CFG, 31, 1⟩
/-- PRT_PM_CFG[30:30], RW. -/
def PRT_PM_CFG.L1_EN : Fld := ⟨.PRT_PM_CFG, 30, 1⟩
/-- PRT_PM_CFG[29:29], RW. -/
def PRT_PM_CFG.L11_EN : Fld := ⟨.PRT_PM_CFG, 29, 1⟩
/-- PRT_PM_CFG[28:28], RW. -/
def PRT_PM_CFG.L12_EN : Fld := ⟨.PRT_PM_CFG, 28, 1⟩
/-- PRT_PM_CFG[23:16], RW. -/
def PRT_PM_CFG.L1_IDLE : Fld := ⟨.PRT_PM_CFG, 16, 8⟩
/-- PRT_PM_CFG[15:0], RW. -/
def PRT_PM_CFG.LTR_BUDGET : Fld := ⟨.PRT_PM_CFG, 0, 16⟩
/-- PRT_EVENTS[6:6], RW1C. -/
def PRT_EVENTS.PME_TO_LATE : Fld := ⟨.PRT_EVENTS, 6, 1⟩
/-- PRT_EVENTS[5:5], RW1C. -/
def PRT_EVENTS.RRS_EXPIRED : Fld := ⟨.PRT_EVENTS, 5, 1⟩
/-- PRT_EVENTS[4:4], RW1C. -/
def PRT_EVENTS.CXL_NOT_NEGOTIATED : Fld := ⟨.PRT_EVENTS, 4, 1⟩
/-- PRT_EVENTS[3:3], RW1C. -/
def PRT_EVENTS.FLIT_REFUSED : Fld := ⟨.PRT_EVENTS, 3, 1⟩
/-- PRT_EVENTS[2:2], RW1C. -/
def PRT_EVENTS.HOT_INSERT : Fld := ⟨.PRT_EVENTS, 2, 1⟩
/-- PRT_EVENTS[1:1], RW1C. -/
def PRT_EVENTS.SURPRISE_DOWN : Fld := ⟨.PRT_EVENTS, 1, 1⟩
/-- PRT_EVENTS[0:0], RW1C. -/
def PRT_EVENTS.L1_REFUSED : Fld := ⟨.PRT_EVENTS, 0, 1⟩
/-- FLL_LINK_STATUS[11:8], RO. -/
def FLL_LINK_STATUS.RATE : Fld := ⟨.FLL_LINK_STATUS, 8, 4⟩
/-- FLL_LINK_STATUS[7:5], RO. -/
def FLL_LINK_STATUS.WIDTH : Fld := ⟨.FLL_LINK_STATUS, 5, 3⟩
/-- FLL_LINK_STATUS[3:0], RO. -/
def FLL_LINK_STATUS.STATE : Fld := ⟨.FLL_LINK_STATUS, 0, 4⟩
/-- FLL_PARTNER[21:0], RO. -/
def FLL_PARTNER.FPID : Fld := ⟨.FLL_PARTNER, 0, 22⟩
/-- FLL_RTT[15:0], RO. -/
def FLL_RTT.RTT : Fld := ⟨.FLL_RTT, 0, 16⟩
/-- FLL_REPLAY[31:28], RO. -/
def FLL_REPLAY.CONSEC_TIMEOUTS : Fld := ⟨.FLL_REPLAY, 28, 4⟩
/-- FLL_REPLAY[11:0], RO. -/
def FLL_REPLAY.OUTSTANDING : Fld := ⟨.FLL_REPLAY, 0, 12⟩
/-- FLL_SEQ[29:16], RO. -/
def FLL_SEQ.NEXT_TX : Fld := ⟨.FLL_SEQ, 16, 14⟩
/-- FLL_SEQ[13:0], RO. -/
def FLL_SEQ.EXPECTED : Fld := ⟨.FLL_SEQ, 0, 14⟩
/-- FLL_EVENTS[5:5], RW1C. -/
def FLL_EVENTS.SPEED_FAILED : Fld := ⟨.FLL_EVENTS, 5, 1⟩
/-- FLL_EVENTS[4:4], RW1C. -/
def FLL_EVENTS.WIDTH_REDUCED : Fld := ⟨.FLL_EVENTS, 4, 1⟩
/-- FLL_EVENTS[3:3], RW1C. -/
def FLL_EVENTS.LINK_LOST : Fld := ⟨.FLL_EVENTS, 3, 1⟩
/-- FLL_EVENTS[2:2], RW1C. -/
def FLL_EVENTS.REPLAY_STALL : Fld := ⟨.FLL_EVENTS, 2, 1⟩
/-- FLL_EVENTS[1:1], RW1C. -/
def FLL_EVENTS.BAD_ACK : Fld := ⟨.FLL_EVENTS, 1, 1⟩
/-- FLL_EVENTS[0:0], RW1C. -/
def FLL_EVENTS.BAD_TYPE : Fld := ⟨.FLL_EVENTS, 0, 1⟩
/-- EBR_CRD_SEL[14:0], RW. -/
def EBR_CRD_SEL.WINDOW : Fld := ⟨.EBR_CRD_SEL, 0, 15⟩
/-- EBR_CRD_GRANT[31:31], RO. -/
def EBR_CRD_GRANT.VALID : Fld := ⟨.EBR_CRD_GRANT, 31, 1⟩
/-- EBR_CRD_GRANT[23:0], RO. -/
def EBR_CRD_GRANT.GRANT : Fld := ⟨.EBR_CRD_GRANT, 0, 24⟩
/-- EBR_CRD_AVAIL[31:31], RO. -/
def EBR_CRD_AVAIL.RESYNC_ACTIVE : Fld := ⟨.EBR_CRD_AVAIL, 31, 1⟩
/-- EBR_CRD_AVAIL[23:0], RO. -/
def EBR_CRD_AVAIL.AVAIL : Fld := ⟨.EBR_CRD_AVAIL, 0, 24⟩
/-- EBR_CRD_AUDIT[31:31], RW1C. -/
def EBR_CRD_AUDIT.LOW : Fld := ⟨.EBR_CRD_AUDIT, 31, 1⟩
/-- EBR_CRD_AUDIT[30:30], RW1C. -/
def EBR_CRD_AUDIT.OVERRUN : Fld := ⟨.EBR_CRD_AUDIT, 30, 1⟩
/-- EBR_CRD_AUDIT[29:29], RW1C. -/
def EBR_CRD_AUDIT.RESYNC_FAILED : Fld := ⟨.EBR_CRD_AUDIT, 29, 1⟩
/-- EBR_CRD_AUDIT[23:0], RO. -/
def EBR_CRD_AUDIT.SHRINK : Fld := ⟨.EBR_CRD_AUDIT, 0, 24⟩
/-- EBR_CRD_LOST[31:16], RO. -/
def EBR_CRD_LOST.RESYNCS : Fld := ⟨.EBR_CRD_LOST, 16, 16⟩
/-- EBR_CRD_LOST[15:0], RO. -/
def EBR_CRD_LOST.LOST_CFRAMES : Fld := ⟨.EBR_CRD_LOST, 0, 16⟩
/-- EBR_SIDEBAND[31:31], RO. -/
def EBR_SIDEBAND.PRSNT : Fld := ⟨.EBR_SIDEBAND, 31, 1⟩
/-- EBR_SIDEBAND[30:30], RO. -/
def EBR_SIDEBAND.ATTN : Fld := ⟨.EBR_SIDEBAND, 30, 1⟩
/-- EBR_SIDEBAND[29:29], RO. -/
def EBR_SIDEBAND.PFAULT : Fld := ⟨.EBR_SIDEBAND, 29, 1⟩
/-- EBR_SIDEBAND[27:26], RO. -/
def EBR_SIDEBAND.IND_ATTN : Fld := ⟨.EBR_SIDEBAND, 26, 2⟩
/-- EBR_SIDEBAND[25:24], RO. -/
def EBR_SIDEBAND.IND_PWR : Fld := ⟨.EBR_SIDEBAND, 24, 2⟩
/-- EBR_SIDEBAND[21:20], RO. -/
def EBR_SIDEBAND.SPL_SCALE : Fld := ⟨.EBR_SIDEBAND, 20, 2⟩
/-- EBR_SIDEBAND[19:12], RO. -/
def EBR_SIDEBAND.SPL_VALUE : Fld := ⟨.EBR_SIDEBAND, 12, 8⟩
/-- EBR_SIDEBAND[10:0], RO. -/
def EBR_SIDEBAND.LIMIT_MA : Fld := ⟨.EBR_SIDEBAND, 0, 11⟩
/-- EBR_LOCK[31:30], RO. -/
def EBR_LOCK.STATE : Fld := ⟨.EBR_LOCK, 30, 2⟩
/-- EBR_LOCK[22:0], RO. -/
def EBR_LOCK.OWNER : Fld := ⟨.EBR_LOCK, 0, 23⟩
/-- EBR_EVENTS[3:3], RW1C. -/
def EBR_EVENTS.SPL_REFUSED : Fld := ⟨.EBR_EVENTS, 3, 1⟩
/-- EBR_EVENTS[2:2], RW1C. -/
def EBR_EVENTS.STORE_DISCARDED : Fld := ⟨.EBR_EVENTS, 2, 1⟩
/-- EBR_EVENTS[1:1], RW1C. -/
def EBR_EVENTS.LOCK_REFUSED : Fld := ⟨.EBR_EVENTS, 1, 1⟩
/-- EBR_EVENTS[0:0], RW1C. -/
def EBR_EVENTS.LOCK_BROKEN : Fld := ⟨.EBR_EVENTS, 0, 1⟩
/-- EBR_RAT_BASE[31:31], RW. -/
def EBR_RAT_BASE.VALID : Fld := ⟨.EBR_RAT_BASE, 31, 1⟩
/-- EBR_RAT_BASE[27:0], RW. -/
def EBR_RAT_BASE.BASE_PG : Fld := ⟨.EBR_RAT_BASE, 0, 28⟩
/-- EBR_RAT_LIMIT[27:0], RW. -/
def EBR_RAT_LIMIT.LIMIT_PG : Fld := ⟨.EBR_RAT_LIMIT, 0, 28⟩
/-- EBR_RAT_ATTR[31:16], RW. -/
def EBR_RAT_ATTR.DOCENT_MASK : Fld := ⟨.EBR_RAT_ATTR, 16, 16⟩
/-- EBR_RAT_ATTR[15:15], RW. -/
def EBR_RAT_ATTR.CURATOR : Fld := ⟨.EBR_RAT_ATTR, 15, 1⟩
/-- EBR_RAT_ATTR[14:14], RW. -/
def EBR_RAT_ATTR.WRITE : Fld := ⟨.EBR_RAT_ATTR, 14, 1⟩
/-- EBR_RAT_ATTR[13:12], RW. -/
def EBR_RAT_ATTR.KIND : Fld := ⟨.EBR_RAT_ATTR, 12, 2⟩
/-- EBR_RAT_ATTR[10:8], RW. -/
def EBR_RAT_ATTR.PF_LINES : Fld := ⟨.EBR_RAT_ATTR, 8, 3⟩
/-- EBR_RAT_ATTR[0:0], RW. -/
def EBR_RAT_ATTR.MODE : Fld := ⟨.EBR_RAT_ATTR, 0, 1⟩
/-- EBR_RAT_TARGET[21:0], RW. -/
def EBR_RAT_TARGET.FPID : Fld := ⟨.EBR_RAT_TARGET, 0, 22⟩
/-- EBR_RAT_XLATE_LO[31:0], RW. -/
def EBR_RAT_XLATE_LO.ADDR : Fld := ⟨.EBR_RAT_XLATE_LO, 0, 32⟩
/-- EBR_RAT_XLATE_HI[31:0], RW. -/
def EBR_RAT_XLATE_HI.ADDR : Fld := ⟨.EBR_RAT_XLATE_HI, 0, 32⟩
/-- EBR_RAT_PFDISC_LO[31:0], RO. -/
def EBR_RAT_PFDISC_LO.BYTES : Fld := ⟨.EBR_RAT_PFDISC_LO, 0, 32⟩
/-- EBR_RAT_PFDISC_HI[31:0], RO. -/
def EBR_RAT_PFDISC_HI.BYTES : Fld := ⟨.EBR_RAT_PFDISC_HI, 0, 32⟩
/-- EBR_PF_CFG[7:0], RW. -/
def EBR_PF_CFG.PF_TTL : Fld := ⟨.EBR_PF_CFG, 0, 8⟩
/-- EBR_PFLOG_HEAD[7:0], RO. -/
def EBR_PFLOG_HEAD.NEXT : Fld := ⟨.EBR_PFLOG_HEAD, 0, 8⟩
/-- BSN_SHARED_FREE[20:0], RO. -/
def BSN_SHARED_FREE.FREE : Fld := ⟨.BSN_SHARED_FREE, 0, 21⟩
/-- BSN_SHARED_SIZE[20:0], RO. -/
def BSN_SHARED_SIZE.SIZE : Fld := ⟨.BSN_SHARED_SIZE, 0, 21⟩
/-- BSN_RESERVED[20:0], RO. -/
def BSN_RESERVED.TOTAL : Fld := ⟨.BSN_RESERVED, 0, 21⟩
/-- BSN_AGE_S[19:0], RW. -/
def BSN_AGE_S.LIMIT_US : Fld := ⟨.BSN_AGE_S, 0, 20⟩
/-- BSN_AGE_C[19:0], RW. -/
def BSN_AGE_C.LIMIT_US : Fld := ⟨.BSN_AGE_C, 0, 20⟩
/-- BSN_AGE_L[19:0], RW. -/
def BSN_AGE_L.LIMIT_US : Fld := ⟨.BSN_AGE_L, 0, 20⟩
/-- BSN_AGE_B[19:0], RW. -/
def BSN_AGE_B.LIMIT_US : Fld := ⟨.BSN_AGE_B, 0, 20⟩
/-- BSN_EVENTS[6:6], RW1C. -/
def BSN_EVENTS.CELL_AUDIT : Fld := ⟨.BSN_EVENTS, 6, 1⟩
/-- BSN_EVENTS[5:5], RW1C. -/
def BSN_EVENTS.RSV_REFUSED : Fld := ⟨.BSN_EVENTS, 5, 1⟩
/-- BSN_EVENTS[4:4], RW1C. -/
def BSN_EVENTS.LINK_ECC : Fld := ⟨.BSN_EVENTS, 4, 1⟩
/-- BSN_EVENTS[3:3], RW1C. -/
def BSN_EVENTS.ECC_MULTI : Fld := ⟨.BSN_EVENTS, 3, 1⟩
/-- BSN_EVENTS[2:2], RW1C. -/
def BSN_EVENTS.FULL_DROP : Fld := ⟨.BSN_EVENTS, 2, 1⟩
/-- BSN_EVENTS[1:1], RW1C. -/
def BSN_EVENTS.ADMIT_REFUSED : Fld := ⟨.BSN_EVENTS, 1, 1⟩
/-- BSN_EVENTS[0:0], RW1C. -/
def BSN_EVENTS.AGE_DISCARD : Fld := ⟨.BSN_EVENTS, 0, 1⟩
/-- BSN_Q_SEL[15:0], RW. -/
def BSN_Q_SEL.QUEUE : Fld := ⟨.BSN_Q_SEL, 0, 16⟩
/-- BSN_Q_CFG[26:24], RW. -/
def BSN_Q_CFG.K : Fld := ⟨.BSN_Q_CFG, 24, 3⟩
/-- BSN_Q_CFG[20:0], RW. -/
def BSN_Q_CFG.MIN : Fld := ⟨.BSN_Q_CFG, 0, 21⟩
/-- BSN_Q_STATUS[31:29], RO. -/
def BSN_Q_STATUS.STATE : Fld := ⟨.BSN_Q_STATUS, 29, 3⟩
/-- BSN_Q_STATUS[20:0], RO. -/
def BSN_Q_STATUS.LEN : Fld := ⟨.BSN_Q_STATUS, 0, 21⟩
/-- BSN_Q_SHARED[20:0], RO. -/
def BSN_Q_SHARED.SHARED : Fld := ⟨.BSN_Q_SHARED, 0, 21⟩
/-- BSN_PORT_RSV[20:0], RW. -/
def BSN_PORT_RSV.LR : Fld := ⟨.BSN_PORT_RSV, 0, 21⟩
/-- BSN_PORT_WIN[25:24], RW. -/
def BSN_PORT_WIN.OVERSUB : Fld := ⟨.BSN_PORT_WIN, 24, 2⟩
/-- BSN_PORT_WIN[8:0], RW. -/
def BSN_PORT_WIN.WINDOWS : Fld := ⟨.BSN_PORT_WIN, 0, 9⟩
/-- BSN_PORT_GRANT[20:0], RO. -/
def BSN_PORT_GRANT.GRANT : Fld := ⟨.BSN_PORT_GRANT, 0, 21⟩
/-- BSN_PORT_USE[20:0], RO. -/
def BSN_PORT_USE.RSV_USED : Fld := ⟨.BSN_PORT_USE, 0, 21⟩
/-- RTE_MRT[31:31], RW. -/
def RTE_MRT.VALID : Fld := ⟨.RTE_MRT, 31, 1⟩
/-- RTE_MRT[30:28], RW. -/
def RTE_MRT.DIST : Fld := ⟨.RTE_MRT, 28, 3⟩
/-- RTE_MRT[24:20], RW. -/
def RTE_MRT.NCAND : Fld := ⟨.RTE_MRT, 20, 5⟩
/-- RTE_MRT[11:0], RW. -/
def RTE_MRT.GROUP : Fld := ⟨.RTE_MRT, 0, 12⟩
/-- RTE_MODULE_ID[31:31], RO. -/
def RTE_MODULE_ID.ASSIGNED : Fld := ⟨.RTE_MODULE_ID, 31, 1⟩
/-- RTE_MODULE_ID[12:0], RO. -/
def RTE_MODULE_ID.ID : Fld := ⟨.RTE_MODULE_ID, 0, 13⟩
/-- RTE_EVENTS[7:7], RW1C. -/
def RTE_EVENTS.LINK_WITHDRAWN : Fld := ⟨.RTE_EVENTS, 7, 1⟩
/-- RTE_EVENTS[6:6], RW1C. -/
def RTE_EVENTS.REPIN_ABORTED : Fld := ⟨.RTE_EVENTS, 6, 1⟩
/-- RTE_EVENTS[5:5], RW1C. -/
def RTE_EVENTS.PIN_FULL : Fld := ⟨.RTE_EVENTS, 5, 1⟩
/-- RTE_EVENTS[4:4], RW1C. -/
def RTE_EVENTS.FLOW_GAP : Fld := ⟨.RTE_EVENTS, 4, 1⟩
/-- RTE_EVENTS[3:3], RW1C. -/
def RTE_EVENTS.ORDER_DISCARD : Fld := ⟨.RTE_EVENTS, 3, 1⟩
/-- RTE_EVENTS[2:2], RW1C. -/
def RTE_EVENTS.BAD_HEADER : Fld := ⟨.RTE_EVENTS, 2, 1⟩
/-- RTE_EVENTS[1:1], RW1C. -/
def RTE_EVENTS.HOP_LIMIT : Fld := ⟨.RTE_EVENTS, 1, 1⟩
/-- RTE_EVENTS[0:0], RW1C. -/
def RTE_EVENTS.NO_ROUTE : Fld := ⟨.RTE_EVENTS, 0, 1⟩
/-- RTE_GRP_SLOT[31:31], RW. -/
def RTE_GRP_SLOT.VALID : Fld := ⟨.RTE_GRP_SLOT, 31, 1⟩
/-- RTE_GRP_SLOT[30:30], RO. -/
def RTE_GRP_SLOT.WITHDRAWN : Fld := ⟨.RTE_GRP_SLOT, 30, 1⟩
/-- RTE_GRP_SLOT[8:0], RW. -/
def RTE_GRP_SLOT.PORT : Fld := ⟨.RTE_GRP_SLOT, 0, 9⟩
/-- WR_Q_SEL[15:0], RW. -/
def WR_Q_SEL.QUEUE : Fld := ⟨.WR_Q_SEL, 0, 16⟩
/-- WR_Q_CFG[31:31], RW. -/
def WR_Q_CFG.SHAPED : Fld := ⟨.WR_Q_CFG, 31, 1⟩
/-- WR_Q_CFG[29:16], RW. -/
def WR_Q_CFG.SHAPER : Fld := ⟨.WR_Q_CFG, 16, 14⟩
/-- WR_Q_CFG[14:0], RW. -/
def WR_Q_CFG.QUANTUM : Fld := ⟨.WR_Q_CFG, 0, 15⟩
/-- WR_Q_DRR[31:31], RO. -/
def WR_Q_DRR.ACTIVE : Fld := ⟨.WR_Q_DRR, 31, 1⟩
/-- WR_Q_DRR[30:30], RO. -/
def WR_Q_DRR.STARTED : Fld := ⟨.WR_Q_DRR, 30, 1⟩
/-- WR_Q_DRR[20:0], RO. -/
def WR_Q_DRR.DEFICIT : Fld := ⟨.WR_Q_DRR, 0, 21⟩
/-- WR_SHP_SEL[13:0], RW. -/
def WR_SHP_SEL.SHAPER : Fld := ⟨.WR_SHP_SEL, 0, 14⟩
/-- WR_SHP_RATE[31:31], RW. -/
def WR_SHP_RATE.RESET_FULL : Fld := ⟨.WR_SHP_RATE, 31, 1⟩
/-- WR_SHP_RATE[20:0], RW. -/
def WR_SHP_RATE.RATE_MBPS : Fld := ⟨.WR_SHP_RATE, 0, 21⟩
/-- WR_SHP_BURST[14:0], RW. -/
def WR_SHP_BURST.BURST : Fld := ⟨.WR_SHP_BURST, 0, 15⟩
/-- WR_SHP_TOKENS[31:31], RO. -/
def WR_SHP_TOKENS.ON_WHEEL : Fld := ⟨.WR_SHP_TOKENS, 31, 1⟩
/-- WR_SHP_TOKENS[21:0], RO. -/
def WR_SHP_TOKENS.TOKENS : Fld := ⟨.WR_SHP_TOKENS, 0, 22⟩
/-- WR_EVENTS[0:0], RW1C. -/
def WR_EVENTS.SHAPER_AUDIT : Fld := ⟨.WR_EVENTS, 0, 1⟩
/-- WR_PORT_CFG[24:16], RW. -/
def WR_PORT_CFG.LATE_LIMIT : Fld := ⟨.WR_PORT_CFG, 16, 9⟩
/-- WR_PORT_CFG[8:0], RW. -/
def WR_PORT_CFG.B_MAX : Fld := ⟨.WR_PORT_CFG, 0, 9⟩
/-- WR_PORT_GUARD[15:0], RO. -/
def WR_PORT_GUARD.GUARD_NS : Fld := ⟨.WR_PORT_GUARD, 0, 16⟩
/-- WR_GATE_STATUS[31:31], RO. -/
def WR_GATE_STATUS.LIST : Fld := ⟨.WR_GATE_STATUS, 31, 1⟩
/-- WR_GATE_STATUS[30:30], RO. -/
def WR_GATE_STATUS.PENDING : Fld := ⟨.WR_GATE_STATUS, 30, 1⟩
/-- WR_GATE_STATUS[29:29], RO. -/
def WR_GATE_STATUS.BANK : Fld := ⟨.WR_GATE_STATUS, 29, 1⟩
/-- WR_GATE_STATUS[28:28], RO. -/
def WR_GATE_STATUS.S_OPEN : Fld := ⟨.WR_GATE_STATUS, 28, 1⟩
/-- WR_GATE_STATUS[27:27], RO. -/
def WR_GATE_STATUS.B_OPEN : Fld := ⟨.WR_GATE_STATUS, 27, 1⟩
/-- WR_GATE_STATUS[7:0], RO. -/
def WR_GATE_STATUS.ENTRY : Fld := ⟨.WR_GATE_STATUS, 0, 8⟩
/-- WR_GATE_STAT[31:16], RC. -/
def WR_GATE_STAT.LATE_COUNT : Fld := ⟨.WR_GATE_STAT, 16, 16⟩
/-- WR_GATE_STAT[15:0], RC. -/
def WR_GATE_STAT.MAX_LATE_NS : Fld := ⟨.WR_GATE_STAT, 0, 16⟩
/-- WR_PORT_EVENTS[4:4], RW1C. -/
def WR_PORT_EVENTS.PENDING_REPLACED : Fld := ⟨.WR_PORT_EVENTS, 4, 1⟩
/-- WR_PORT_EVENTS[3:3], RW1C. -/
def WR_PORT_EVENTS.GATE_TIME_STEP : Fld := ⟨.WR_PORT_EVENTS, 3, 1⟩
/-- WR_PORT_EVENTS[2:2], RW1C. -/
def WR_PORT_EVENTS.GATE_LATE : Fld := ⟨.WR_PORT_EVENTS, 2, 1⟩
/-- WR_PORT_EVENTS[1:1], RW1C. -/
def WR_PORT_EVENTS.S_OVERRUN : Fld := ⟨.WR_PORT_EVENTS, 1, 1⟩
/-- WR_PORT_EVENTS[0:0], RW1C. -/
def WR_PORT_EVENTS.B_OVERSIZE : Fld := ⟨.WR_PORT_EVENTS, 0, 1⟩
/-- VIT_SEL[9:0], RW. -/
def VIT_SEL.LVID : Fld := ⟨.VIT_SEL, 0, 10⟩
/-- VIT_STATE[31:28], RO. -/
def VIT_STATE.STATE : Fld := ⟨.VIT_STATE, 28, 4⟩
/-- VIT_STATE[27:27], RO. -/
def VIT_STATE.HELD_RESET : Fld := ⟨.VIT_STATE, 27, 1⟩
/-- VIT_STATE[22:0], RO. -/
def VIT_STATE.GVH : Fld := ⟨.VIT_STATE, 0, 23⟩
/-- VIT_PORT[30:24], RO. -/
def VIT_PORT.NVDP : Fld := ⟨.VIT_PORT, 24, 7⟩
/-- VIT_PORT[8:0], RO. -/
def VIT_PORT.UPORT : Fld := ⟨.VIT_PORT, 0, 9⟩
/-- VIT_INFLIGHT[20:0], RO. -/
def VIT_INFLIGHT.COUNT : Fld := ⟨.VIT_INFLIGHT, 0, 21⟩
/-- VIT_SQUASH_TMO[16:0], RW. -/
def VIT_SQUASH_TMO.TMO_US : Fld := ⟨.VIT_SQUASH_TMO, 0, 17⟩
/-- VIT_FREEZE_TMO[15:0], RW. -/
def VIT_FREEZE_TMO.TMO_MS : Fld := ⟨.VIT_FREEZE_TMO, 0, 16⟩
/-- VIT_EVENTS[4:4], RW1C. -/
def VIT_EVENTS.IMAGE_BAD : Fld := ⟨.VIT_EVENTS, 4, 1⟩
/-- VIT_EVENTS[3:3], RW1C. -/
def VIT_EVENTS.THAW_ABORTED : Fld := ⟨.VIT_EVENTS, 3, 1⟩
/-- VIT_EVENTS[2:2], RW1C. -/
def VIT_EVENTS.FREEZE_TIMEOUT : Fld := ⟨.VIT_EVENTS, 2, 1⟩
/-- VIT_EVENTS[1:1], RW1C. -/
def VIT_EVENTS.SQUASH_TIMEOUT : Fld := ⟨.VIT_EVENTS, 1, 1⟩
/-- VIT_EVENTS[0:0], RW1C. -/
def VIT_EVENTS.STRAY_TRAFFIC : Fld := ⟨.VIT_EVENTS, 0, 1⟩
/-- TRK_FREE[18:0], RO. -/
def TRK_FREE.UNALLOCATED : Fld := ⟨.TRK_FREE, 0, 19⟩
/-- TRK_CPL_RSV[18:0], RO. -/
def TRK_CPL_RSV.RESERVED : Fld := ⟨.TRK_CPL_RSV, 0, 19⟩
/-- TRK_VIT_QUOTA[15:0], RO. -/
def TRK_VIT_QUOTA.QUOTA : Fld := ⟨.TRK_VIT_QUOTA, 0, 16⟩
/-- TRK_VIT_USE[31:16], RO. -/
def TRK_VIT_USE.SQUASHED : Fld := ⟨.TRK_VIT_USE, 16, 16⟩
/-- TRK_VIT_USE[15:0], RO. -/
def TRK_VIT_USE.OPEN : Fld := ⟨.TRK_VIT_USE, 0, 16⟩
/-- SLC_ESEQ_LO[31:0], RO. -/
def SLC_ESEQ_LO.ESEQ : Fld := ⟨.SLC_ESEQ_LO, 0, 32⟩
/-- SLC_ESEQ_HI[31:0], RO. -/
def SLC_ESEQ_HI.ESEQ : Fld := ⟨.SLC_ESEQ_HI, 0, 32⟩
/-- SLC_LOG_HEAD[31:31], RO. -/
def SLC_LOG_HEAD.STAGING : Fld := ⟨.SLC_LOG_HEAD, 31, 1⟩
/-- SLC_LOG_HEAD[23:0], RO. -/
def SLC_LOG_HEAD.NEXT : Fld := ⟨.SLC_LOG_HEAD, 0, 24⟩
/-- SLC_LOG_WRAPS[31:0], RO. -/
def SLC_LOG_WRAPS.WRAPS : Fld := ⟨.SLC_LOG_WRAPS, 0, 32⟩
/-- SLC_CONT_SEL[17:16], RW. -/
def SLC_CONT_SEL.SCOPE : Fld := ⟨.SLC_CONT_SEL, 16, 2⟩
/-- SLC_CONT_SEL[9:0], RW. -/
def SLC_CONT_SEL.ID : Fld := ⟨.SLC_CONT_SEL, 0, 10⟩
/-- SLC_CONT_STATE[31:30], RO. -/
def SLC_CONT_STATE.STATE : Fld := ⟨.SLC_CONT_STATE, 30, 2⟩
/-- SLC_CONT_STATE[29:28], RO. -/
def SLC_CONT_STATE.CAUSE : Fld := ⟨.SLC_CONT_STATE, 28, 2⟩
/-- SLC_CONT_STATE[27:24], RO. -/
def SLC_CONT_STATE.CLASS : Fld := ⟨.SLC_CONT_STATE, 24, 4⟩
/-- SLC_CONT_STATE[15:8], RO. -/
def SLC_CONT_STATE.UNACKED : Fld := ⟨.SLC_CONT_STATE, 8, 8⟩
/-- SLC_CONT_STATE[7:0], RO. -/
def SLC_CONT_STATE.REPEATS : Fld := ⟨.SLC_CONT_STATE, 0, 8⟩
/-- SLC_CONT_ESEQ_LO[31:0], RO. -/
def SLC_CONT_ESEQ_LO.ESEQ : Fld := ⟨.SLC_CONT_ESEQ_LO, 0, 32⟩
/-- SLC_CONT_ESEQ_HI[31:0], RO. -/
def SLC_CONT_ESEQ_HI.ESEQ : Fld := ⟨.SLC_CONT_ESEQ_HI, 0, 32⟩
/-- SLC_INJ_ARMED[13:0], RO. -/
def SLC_INJ_ARMED.ARMED : Fld := ⟨.SLC_INJ_ARMED, 0, 14⟩
/-- TUN_PORT_CFG[31:31], RW. -/
def TUN_PORT_CFG.PCIE_EN : Fld := ⟨.TUN_PORT_CFG, 31, 1⟩
/-- TUN_PORT_CFG[30:30], RW. -/
def TUN_PORT_CFG.H2H_EN : Fld := ⟨.TUN_PORT_CFG, 30, 1⟩
/-- TUN_PORT_CFG[29:29], RW. -/
def TUN_PORT_CFG.ASYM_EN : Fld := ⟨.TUN_PORT_CFG, 29, 1⟩
/-- TUN_PORT_CFG[28:28], RW. -/
def TUN_PORT_CFG.ALLOW_UNAUTH : Fld := ⟨.TUN_PORT_CFG, 28, 1⟩
/-- TUN_PORT_CFG[7:0], RW. -/
def TUN_PORT_CFG.PCIE_FLOOR : Fld := ⟨.TUN_PORT_CFG, 0, 8⟩
/-- TUN_PORT_STATUS[31:29], RO. -/
def TUN_PORT_STATUS.ROLE : Fld := ⟨.TUN_PORT_STATUS, 29, 3⟩
/-- TUN_PORT_STATUS[28:26], RO. -/
def TUN_PORT_STATUS.LINK : Fld := ⟨.TUN_PORT_STATUS, 26, 3⟩
/-- TUN_PORT_STATUS[25:23], RO. -/
def TUN_PORT_STATUS.CABLE : Fld := ⟨.TUN_PORT_STATUS, 23, 3⟩
/-- TUN_PORT_STATUS[22:22], RO. -/
def TUN_PORT_STATUS.ACTIVE_CABLE : Fld := ⟨.TUN_PORT_STATUS, 22, 1⟩
/-- TUN_PORT_STATUS[19:16], RO. -/
def TUN_PORT_STATUS.ENDPOINTS : Fld := ⟨.TUN_PORT_STATUS, 16, 4⟩
/-- TUN_PORT_STATUS[15:15], RO. -/
def TUN_PORT_STATUS.PCIE_UP : Fld := ⟨.TUN_PORT_STATUS, 15, 1⟩
/-- TUN_PORT_STATUS[14:14], RO. -/
def TUN_PORT_STATUS.USB3_UP : Fld := ⟨.TUN_PORT_STATUS, 14, 1⟩
/-- TUN_PORT_STATUS[13:13], RO. -/
def TUN_PORT_STATUS.H2H_UP : Fld := ⟨.TUN_PORT_STATUS, 13, 1⟩
/-- TUN_PORT_STATUS[12:12], RO. -/
def TUN_PORT_STATUS.DP1_UP : Fld := ⟨.TUN_PORT_STATUS, 12, 1⟩
/-- TUN_PORT_STATUS[11:11], RO. -/
def TUN_PORT_STATUS.DP0_UP : Fld := ⟨.TUN_PORT_STATUS, 11, 1⟩
/-- TUN_PORT_STATUS[7:0], RO. -/
def TUN_PORT_STATUS.POOL : Fld := ⟨.TUN_PORT_STATUS, 0, 8⟩
/-- TUN_PORT_ALLOT[31:24], RO. -/
def TUN_PORT_ALLOT.POOL_RX : Fld := ⟨.TUN_PORT_ALLOT, 24, 8⟩
/-- TUN_PORT_ALLOT[15:8], RO. -/
def TUN_PORT_ALLOT.DP1_GRANT : Fld := ⟨.TUN_PORT_ALLOT, 8, 8⟩
/-- TUN_PORT_ALLOT[7:0], RO. -/
def TUN_PORT_ALLOT.DP0_GRANT : Fld := ⟨.TUN_PORT_ALLOT, 0, 8⟩
/-- TUN_PORT_EVENTS[5:5], RW1C. -/
def TUN_PORT_EVENTS.UNAUTH_REFUSED : Fld := ⟨.TUN_PORT_EVENTS, 5, 1⟩
/-- TUN_PORT_EVENTS[4:4], RW1C. -/
def TUN_PORT_EVENTS.DOCK_LIMIT : Fld := ⟨.TUN_PORT_EVENTS, 4, 1⟩
/-- TUN_PORT_EVENTS[3:3], RW1C. -/
def TUN_PORT_EVENTS.ASYM_CHANGE : Fld := ⟨.TUN_PORT_EVENTS, 3, 1⟩
/-- TUN_PORT_EVENTS[2:2], RW1C. -/
def TUN_PORT_EVENTS.LINK_DOWNGRADED : Fld := ⟨.TUN_PORT_EVENTS, 2, 1⟩
/-- TUN_PORT_EVENTS[1:1], RW1C. -/
def TUN_PORT_EVENTS.DP_LOST : Fld := ⟨.TUN_PORT_EVENTS, 1, 1⟩
/-- TUN_PORT_EVENTS[0:0], RW1C. -/
def TUN_PORT_EVENTS.DP_REFUSED : Fld := ⟨.TUN_PORT_EVENTS, 0, 1⟩
/-- TUN_CE_DEST[31:31], RO. -/
def TUN_CE_DEST.VALID : Fld := ⟨.TUN_CE_DEST, 31, 1⟩
/-- TUN_CE_DEST[30:30], RO. -/
def TUN_CE_DEST.REMOTE : Fld := ⟨.TUN_CE_DEST, 30, 1⟩
/-- TUN_CE_DEST[17:5], RO. -/
def TUN_CE_DEST.MODULE : Fld := ⟨.TUN_CE_DEST, 5, 13⟩
/-- TUN_CE_DEST[4:1], RO. -/
def TUN_CE_DEST.PORT : Fld := ⟨.TUN_CE_DEST, 1, 4⟩
/-- TUN_CE_DEST[0:0], RO. -/
def TUN_CE_DEST.TUNNEL : Fld := ⟨.TUN_CE_DEST, 0, 1⟩
/-- USH_OWNER_CFG[31:31], RW. -/
def USH_OWNER_CFG.PIN : Fld := ⟨.USH_OWNER_CFG, 31, 1⟩
/-- USH_OWNER_CFG[3:0], RW. -/
def USH_OWNER_CFG.PIN_PORT : Fld := ⟨.USH_OWNER_CFG, 0, 4⟩
/-- USH_OWNER[31:31], RO. -/
def USH_OWNER.VALID : Fld := ⟨.USH_OWNER, 31, 1⟩
/-- USH_OWNER[30:30], RO. -/
def USH_OWNER.WAITING : Fld := ⟨.USH_OWNER, 30, 1⟩
/-- USH_OWNER[25:24], RO. -/
def USH_OWNER.PATH : Fld := ⟨.USH_OWNER, 24, 2⟩
/-- USH_OWNER[3:0], RO. -/
def USH_OWNER.PORT : Fld := ⟨.USH_OWNER, 0, 4⟩
/-- USH_MUD_CTL[0:0], RW. -/
def USH_MUD_CTL.CONNECT : Fld := ⟨.USH_MUD_CTL, 0, 1⟩
/-- USH_MUD_STATUS[31:29], RO. -/
def USH_MUD_STATUS.SPEED : Fld := ⟨.USH_MUD_STATUS, 29, 3⟩
/-- USH_MUD_STATUS[28:26], RO. -/
def USH_MUD_STATUS.LINK : Fld := ⟨.USH_MUD_STATUS, 26, 3⟩
/-- USH_MUD_STATUS[25:25], RO. -/
def USH_MUD_STATUS.CONFIGURED : Fld := ⟨.USH_MUD_STATUS, 25, 1⟩
/-- USH_MUD_STATUS[24:24], RO. -/
def USH_MUD_STATUS.WAKE_PENDING : Fld := ⟨.USH_MUD_STATUS, 24, 1⟩
/-- USH_MUD_STATUS[23:23], RO. -/
def USH_MUD_STATUS.IMAGE_OPEN : Fld := ⟨.USH_MUD_STATUS, 23, 1⟩
/-- USH_MUD_STATUS[22:22], RO. -/
def USH_MUD_STATUS.LOG_OPEN : Fld := ⟨.USH_MUD_STATUS, 22, 1⟩
/-- USH_MUD_STATUS[4:0], RO. -/
def USH_MUD_STATUS.OUTSTANDING : Fld := ⟨.USH_MUD_STATUS, 0, 5⟩
/-- USH_MUD_WAKE[31:16], RO. -/
def USH_MUD_WAKE.COLLIDED : Fld := ⟨.USH_MUD_WAKE, 16, 16⟩
/-- USH_MUD_WAKE[15:0], RO. -/
def USH_MUD_WAKE.SIGNALLED : Fld := ⟨.USH_MUD_WAKE, 0, 16⟩
/-- USH_EVENTS[4:4], RW1C. -/
def USH_EVENTS.IMAGE_ABORTED : Fld := ⟨.USH_EVENTS, 4, 1⟩
/-- USH_EVENTS[3:3], RW1C. -/
def USH_EVENTS.WAKE_COLLIDED : Fld := ⟨.USH_EVENTS, 3, 1⟩
/-- USH_EVENTS[2:2], RW1C. -/
def USH_EVENTS.CTRL_ABANDONED : Fld := ⟨.USH_EVENTS, 2, 1⟩
/-- USH_EVENTS[1:1], RW1C. -/
def USH_EVENTS.USBA_OVERCURRENT : Fld := ⟨.USH_EVENTS, 1, 1⟩
/-- USH_EVENTS[0:0], RW1C. -/
def USH_EVENTS.OWNER_CHANGED : Fld := ⟨.USH_EVENTS, 0, 1⟩
/-- PD_PORT_POLICY[31:31], RW. -/
def PD_PORT_POLICY.ENABLE : Fld := ⟨.PD_PORT_POLICY, 31, 1⟩
/-- PD_PORT_POLICY[30:30], RW. -/
def PD_PORT_POLICY.PREFER_SRC : Fld := ⟨.PD_PORT_POLICY, 30, 1⟩
/-- PD_PORT_POLICY[29:29], RW. -/
def PD_PORT_POLICY.PR_ACCEPT : Fld := ⟨.PD_PORT_POLICY, 29, 1⟩
/-- PD_PORT_POLICY[28:28], RW. -/
def PD_PORT_POLICY.DR_ACCEPT : Fld := ⟨.PD_PORT_POLICY, 28, 1⟩
/-- PD_PORT_POLICY[27:26], RW. -/
def PD_PORT_POLICY.TRY : Fld := ⟨.PD_PORT_POLICY, 26, 2⟩
/-- PD_PORT_POLICY[25:24], RW. -/
def PD_PORT_POLICY.PRIORITY : Fld := ⟨.PD_PORT_POLICY, 24, 2⟩
/-- PD_PORT_POLICY[7:0], RW. -/
def PD_PORT_POLICY.PMAX : Fld := ⟨.PD_PORT_POLICY, 0, 8⟩
/-- PD_PORT_STATUS[31:28], RO. -/
def PD_PORT_STATUS.STATE : Fld := ⟨.PD_PORT_STATUS, 28, 4⟩
/-- PD_PORT_STATUS[27:27], RO. -/
def PD_PORT_STATUS.DFP : Fld := ⟨.PD_PORT_STATUS, 27, 1⟩
/-- PD_PORT_STATUS[26:26], RO. -/
def PD_PORT_STATUS.VCONN : Fld := ⟨.PD_PORT_STATUS, 26, 1⟩
/-- PD_PORT_STATUS[25:25], RO. -/
def PD_PORT_STATUS.EPR : Fld := ⟨.PD_PORT_STATUS, 25, 1⟩
/-- PD_PORT_STATUS[24:24], RO. -/
def PD_PORT_STATUS.POOL_LIMITED : Fld := ⟨.PD_PORT_STATUS, 24, 1⟩
/-- PD_PORT_STATUS[16:16], RO. -/
def PD_PORT_STATUS.CC2 : Fld := ⟨.PD_PORT_STATUS, 16, 1⟩
/-- PD_PORT_STATUS[15:0], RO. -/
def PD_PORT_STATUS.VBUS_MV : Fld := ⟨.PD_PORT_STATUS, 0, 16⟩
/-- PD_CONTRACT[31:16], RO. -/
def PD_CONTRACT.MV : Fld := ⟨.PD_CONTRACT, 16, 16⟩
/-- PD_CONTRACT[15:0], RO. -/
def PD_CONTRACT.MA : Fld := ⟨.PD_CONTRACT, 0, 16⟩
/-- PD_CABLE[31:31], RO. -/
def PD_CABLE.ANSWERED : Fld := ⟨.PD_CABLE, 31, 1⟩
/-- PD_CABLE[30:30], RO. -/
def PD_CABLE.EPR_OK : Fld := ⟨.PD_CABLE, 30, 1⟩
/-- PD_CABLE[29:29], RO. -/
def PD_CABLE.AMP5 : Fld := ⟨.PD_CABLE, 29, 1⟩
/-- PD_CABLE[28:28], RO. -/
def PD_CABLE.ACTIVE : Fld := ⟨.PD_CABLE, 28, 1⟩
/-- PD_CABLE[27:27], RO. -/
def PD_CABLE.SOP2 : Fld := ⟨.PD_CABLE, 27, 1⟩
/-- PD_CABLE[2:0], RO. -/
def PD_CABLE.SPEED : Fld := ⟨.PD_CABLE, 0, 3⟩
/-- PD_MOIST[31:24], RO. -/
def PD_MOIST.CC1_KOHM : Fld := ⟨.PD_MOIST, 24, 8⟩
/-- PD_MOIST[23:16], RO. -/
def PD_MOIST.CC2_KOHM : Fld := ⟨.PD_MOIST, 16, 8⟩
/-- PD_MOIST[15:8], RO. -/
def PD_MOIST.SBU1_KOHM : Fld := ⟨.PD_MOIST, 8, 8⟩
/-- PD_MOIST[7:0], RO. -/
def PD_MOIST.SBU2_KOHM : Fld := ⟨.PD_MOIST, 0, 8⟩
/-- PD_EVENTS[7:7], RW1C. -/
def PD_EVENTS.EPR_EXIT : Fld := ⟨.PD_EVENTS, 7, 1⟩
/-- PD_EVENTS[6:6], RW1C. -/
def PD_EVENTS.CONTRACT_REDUCED : Fld := ⟨.PD_EVENTS, 6, 1⟩
/-- PD_EVENTS[5:5], RW1C. -/
def PD_EVENTS.POOL_REFUSED : Fld := ⟨.PD_EVENTS, 5, 1⟩
/-- PD_EVENTS[4:4], RW1C. -/
def PD_EVENTS.TRANSITION_ABORTED : Fld := ⟨.PD_EVENTS, 4, 1⟩
/-- PD_EVENTS[3:3], RW1C. -/
def PD_EVENTS.SWAP_FAILED : Fld := ⟨.PD_EVENTS, 3, 1⟩
/-- PD_EVENTS[2:2], RW1C. -/
def PD_EVENTS.CORROSION : Fld := ⟨.PD_EVENTS, 2, 1⟩
/-- PD_EVENTS[1:1], RW1C. -/
def PD_EVENTS.WET : Fld := ⟨.PD_EVENTS, 1, 1⟩
/-- PD_EVENTS[0:0], RW1C. -/
def PD_EVENTS.HARD_RESET : Fld := ⟨.PD_EVENTS, 0, 1⟩
/-- PD_POOL_LIMIT[11:0], RO. -/
def PD_POOL_LIMIT.LIMIT_W : Fld := ⟨.PD_POOL_LIMIT, 0, 12⟩
/-- PD_POOL_USED[21:0], RO. -/
def PD_POOL_USED.USED_MW : Fld := ⟨.PD_POOL_USED, 0, 22⟩
/-- PWR_FEED_A[31:31], RO. -/
def PWR_FEED_A.PRESENT : Fld := ⟨.PWR_FEED_A, 31, 1⟩
/-- PWR_FEED_A[30:30], RO. -/
def PWR_FEED_A.HIGH_LINE : Fld := ⟨.PWR_FEED_A, 30, 1⟩
/-- PWR_FEED_A[23:16], RO. -/
def PWR_FEED_A.FREQ_HZ : Fld := ⟨.PWR_FEED_A, 16, 8⟩
/-- PWR_FEED_A[8:0], RO. -/
def PWR_FEED_A.VRMS : Fld := ⟨.PWR_FEED_A, 0, 9⟩
/-- PWR_FEED_B[31:31], RO. -/
def PWR_FEED_B.PRESENT : Fld := ⟨.PWR_FEED_B, 31, 1⟩
/-- PWR_FEED_B[30:30], RO. -/
def PWR_FEED_B.HIGH_LINE : Fld := ⟨.PWR_FEED_B, 30, 1⟩
/-- PWR_FEED_B[23:16], RO. -/
def PWR_FEED_B.FREQ_HZ : Fld := ⟨.PWR_FEED_B, 16, 8⟩
/-- PWR_FEED_B[8:0], RO. -/
def PWR_FEED_B.VRMS : Fld := ⟨.PWR_FEED_B, 0, 9⟩
/-- PWR_BUDGET[31:31], RO. -/
def PWR_BUDGET.HIGH : Fld := ⟨.PWR_BUDGET, 31, 1⟩
/-- PWR_BUDGET[30:30], RO. -/
def PWR_BUDGET.SINGLE_FEED : Fld := ⟨.PWR_BUDGET, 30, 1⟩
/-- PWR_BUDGET[11:0], RO. -/
def PWR_BUDGET.BUDGET_W : Fld := ⟨.PWR_BUDGET, 0, 12⟩
/-- PWR_POOLS[31:16], RO. -/
def PWR_POOLS.CAGE_W : Fld := ⟨.PWR_POOLS, 16, 16⟩
/-- PWR_POOLS[15:0], RO. -/
def PWR_POOLS.PD_W : Fld := ⟨.PWR_POOLS, 0, 16⟩
/-- PWR_CAGE_USED[20:0], RO. -/
def PWR_CAGE_USED.USED_MW : Fld := ⟨.PWR_CAGE_USED, 0, 21⟩
/-- PWR_STAGES[2:0], RO. -/
def PWR_STAGES.STAGE_OK : Fld := ⟨.PWR_STAGES, 0, 3⟩
/-- PWR_EVENTS[5:5], RW1C. -/
def PWR_EVENTS.SINGLE_FEED : Fld := ⟨.PWR_EVENTS, 5, 1⟩
/-- PWR_EVENTS[4:4], RW1C. -/
def PWR_EVENTS.STAGE_LOST : Fld := ⟨.PWR_EVENTS, 4, 1⟩
/-- PWR_EVENTS[3:3], RW1C. -/
def PWR_EVENTS.SHED : Fld := ⟨.PWR_EVENTS, 3, 1⟩
/-- PWR_EVENTS[2:2], RW1C. -/
def PWR_EVENTS.LINE_CHANGE : Fld := ⟨.PWR_EVENTS, 2, 1⟩
/-- PWR_EVENTS[1:1], RW1C. -/
def PWR_EVENTS.FEED_RESTORED : Fld := ⟨.PWR_EVENTS, 1, 1⟩
/-- PWR_EVENTS[0:0], RW1C. -/
def PWR_EVENTS.FEED_LOST : Fld := ⟨.PWR_EVENTS, 0, 1⟩
/-- PWR_MODE[31:31], RW. -/
def PWR_MODE.ARM : Fld := ⟨.PWR_MODE, 31, 1⟩
/-- PWR_MODE[30:30], RW. -/
def PWR_MODE.AUTO : Fld := ⟨.PWR_MODE, 30, 1⟩
/-- PWR_MODE[3:2], RW. -/
def PWR_MODE.BASE : Fld := ⟨.PWR_MODE, 2, 2⟩
/-- PWR_MODE[1:0], RW. -/
def PWR_MODE.TARGET : Fld := ⟨.PWR_MODE, 0, 2⟩
/-- PWR_PS_STATUS[31:30], RO. -/
def PWR_PS_STATUS.STATE : Fld := ⟨.PWR_PS_STATUS, 30, 2⟩
/-- PWR_PS_STATUS[29:29], RO. -/
def PWR_PS_STATUS.ENTERING : Fld := ⟨.PWR_PS_STATUS, 29, 1⟩
/-- PWR_PS_STATUS[5:0], RO. -/
def PWR_PS_STATUS.GATED : Fld := ⟨.PWR_PS_STATUS, 0, 6⟩
/-- PWR_WAKE[31:31], RO. -/
def PWR_WAKE.REPLAY_PENDING : Fld := ⟨.PWR_WAKE, 31, 1⟩
/-- PWR_WAKE[9:0], RW1C. -/
def PWR_WAKE.SOURCE : Fld := ⟨.PWR_WAKE, 0, 10⟩
/-- PWR_PAD_HOLD[20:16], WO. -/
def PWR_PAD_HOLD.RELEASE : Fld := ⟨.PWR_PAD_HOLD, 16, 5⟩
/-- PWR_PAD_HOLD[4:0], RO. -/
def PWR_PAD_HOLD.HELD : Fld := ⟨.PWR_PAD_HOLD, 0, 5⟩
/-- PWR_PS_LAST[31:24], RO. -/
def PWR_PS_LAST.KIND : Fld := ⟨.PWR_PS_LAST, 24, 8⟩
/-- PWR_PS_LAST[23:23], RO. -/
def PWR_PS_LAST.ABORTED : Fld := ⟨.PWR_PS_LAST, 23, 1⟩
/-- PWR_PS_LAST[15:0], RO. -/
def PWR_PS_LAST.INDEX : Fld := ⟨.PWR_PS_LAST, 0, 16⟩
/-- PWR_PS_CNT[31:0], RO. -/
def PWR_PS_CNT.COUNT : Fld := ⟨.PWR_PS_CNT, 0, 32⟩
/-- EF_CTL[31:31], WO. -/
def EF_CTL.ENABLE : Fld := ⟨.EF_CTL, 31, 1⟩
/-- EF_CTL[30:30], WO. -/
def EF_CTL.DISABLE : Fld := ⟨.EF_CTL, 30, 1⟩
/-- EF_CTL[29:28], RW. -/
def EF_CTL.PRIORITY : Fld := ⟨.EF_CTL, 28, 2⟩
/-- EF_CTL[12:0], RW. -/
def EF_CTL.LIMIT_MA : Fld := ⟨.EF_CTL, 0, 13⟩
/-- EF_STATUS[31:28], RO. -/
def EF_STATUS.STATE : Fld := ⟨.EF_STATUS, 28, 4⟩
/-- EF_STATUS[27:27], RO. -/
def EF_STATUS.PG : Fld := ⟨.EF_STATUS, 27, 1⟩
/-- EF_STATUS[26:26], RO. -/
def EF_STATUS.TIMER : Fld := ⟨.EF_STATUS, 26, 1⟩
/-- EF_STATUS[25:22], RO. -/
def EF_STATUS.RETRIES : Fld := ⟨.EF_STATUS, 22, 4⟩
/-- EF_STATUS[21:20], RO. -/
def EF_STATUS.DAMAGE : Fld := ⟨.EF_STATUS, 20, 2⟩
/-- EF_STATUS[19:19], RO. -/
def EF_STATUS.QUEUED : Fld := ⟨.EF_STATUS, 19, 1⟩
/-- EF_STATUS[7:0], RO. -/
def EF_STATUS.VGS : Fld := ⟨.EF_STATUS, 0, 8⟩
/-- EF_MEAS[31:16], RO. -/
def EF_MEAS.MV : Fld := ⟨.EF_MEAS, 16, 16⟩
/-- EF_MEAS[15:0], RO. -/
def EF_MEAS.MA : Fld := ⟨.EF_MEAS, 0, 16⟩
/-- EF_EVENTS[7:7], RW1C. -/
def EF_EVENTS.SHED : Fld := ⟨.EF_EVENTS, 7, 1⟩
/-- EF_EVENTS[6:6], RW1C. -/
def EF_EVENTS.PRESENCE_CHANGED_DURING_RETRY : Fld := ⟨.EF_EVENTS, 6, 1⟩
/-- EF_EVENTS[5:5], RW1C. -/
def EF_EVENTS.BACKFEED : Fld := ⟨.EF_EVENTS, 5, 1⟩
/-- EF_EVENTS[4:4], RW1C. -/
def EF_EVENTS.GATE_NO_RISE : Fld := ⟨.EF_EVENTS, 4, 1⟩
/-- EF_EVENTS[3:3], RW1C. -/
def EF_EVENTS.LATCHED : Fld := ⟨.EF_EVENTS, 3, 1⟩
/-- EF_EVENTS[2:2], RW1C. -/
def EF_EVENTS.PG_WITHDRAWN : Fld := ⟨.EF_EVENTS, 2, 1⟩
/-- EF_EVENTS[1:1], RW1C. -/
def EF_EVENTS.FAST_TRIP : Fld := ⟨.EF_EVENTS, 1, 1⟩
/-- EF_EVENTS[0:0], RW1C. -/
def EF_EVENTS.TRIP : Fld := ⟨.EF_EVENTS, 0, 1⟩
/-- CUR_DOC_ROLE_LO[31:0], RW. -/
def CUR_DOC_ROLE_LO.ROLE : Fld := ⟨.CUR_DOC_ROLE_LO, 0, 32⟩
/-- CUR_DOC_ROLE_HI[31:0], RW. -/
def CUR_DOC_ROLE_HI.ROLE : Fld := ⟨.CUR_DOC_ROLE_HI, 0, 32⟩
/-- CUR_CMD_LOAD[22:16], RO. -/
def CUR_CMD_LOAD.EXECUTING : Fld := ⟨.CUR_CMD_LOAD, 16, 7⟩
/-- CUR_CMD_LOAD[10:0], RO. -/
def CUR_CMD_LOAD.QUEUED : Fld := ⟨.CUR_CMD_LOAD, 0, 11⟩
/-- CUR_PAIR_STATUS[31:31], RO. -/
def CUR_PAIR_STATUS.ACTIVE : Fld := ⟨.CUR_PAIR_STATUS, 31, 1⟩
/-- CUR_PAIR_STATUS[30:30], RO. -/
def CUR_PAIR_STATUS.STANDBY_OK : Fld := ⟨.CUR_PAIR_STATUS, 30, 1⟩
/-- CUR_PAIR_STATUS[29:28], RO. -/
def CUR_PAIR_STATUS.A_STATE : Fld := ⟨.CUR_PAIR_STATUS, 28, 2⟩
/-- CUR_PAIR_STATUS[27:26], RO. -/
def CUR_PAIR_STATUS.B_STATE : Fld := ⟨.CUR_PAIR_STATUS, 26, 2⟩
/-- CUR_PAIR_STATUS[15:0], RO. -/
def CUR_PAIR_STATUS.FAILOVERS : Fld := ⟨.CUR_PAIR_STATUS, 0, 16⟩
/-- CUR_START_STATUS[31:28], RO. -/
def CUR_START_STATUS.STEP : Fld := ⟨.CUR_START_STATUS, 28, 4⟩
/-- CUR_START_STATUS[27:27], RO. -/
def CUR_START_STATUS.READY : Fld := ⟨.CUR_START_STATUS, 27, 1⟩
/-- CUR_START_STATUS[26:24], RO. -/
def CUR_START_STATUS.PHASE : Fld := ⟨.CUR_START_STATUS, 24, 3⟩
/-- CUR_START_STATUS[23:23], RO. -/
def CUR_START_STATUS.REGISTRAR : Fld := ⟨.CUR_START_STATUS, 23, 1⟩
/-- CUR_START_STATUS[15:0], RO. -/
def CUR_START_STATUS.READY_MS : Fld := ⟨.CUR_START_STATUS, 0, 16⟩
/-- CUR_START_CFG[7:0], RW. -/
def CUR_START_CFG.PRIO : Fld := ⟨.CUR_START_CFG, 0, 8⟩
/-- MBX_CH_PTR_LO[31:0], RW. -/
def MBX_CH_PTR_LO.PTR : Fld := ⟨.MBX_CH_PTR_LO, 0, 32⟩
/-- MBX_CH_PTR_HI[31:0], RW. -/
def MBX_CH_PTR_HI.PTR : Fld := ⟨.MBX_CH_PTR_HI, 0, 32⟩
/-- MBX_CH_STATUS[31:31], RW1C. -/
def MBX_CH_STATUS.ABORTED : Fld := ⟨.MBX_CH_STATUS, 31, 1⟩
/-- MBX_CH_STATUS[27:24], RO. -/
def MBX_CH_STATUS.REASON : Fld := ⟨.MBX_CH_STATUS, 24, 4⟩
/-- MBX_CH_STATUS[23:23], RW1C. -/
def MBX_CH_STATUS.REFUSED : Fld := ⟨.MBX_CH_STATUS, 23, 1⟩
/-- MBX_CH_STATUS[20:16], RO. -/
def MBX_CH_STATUS.COUNT : Fld := ⟨.MBX_CH_STATUS, 16, 5⟩
/-- MBX_CH_STATUS[15:8], RO. -/
def MBX_CH_STATUS.DISCARDED : Fld := ⟨.MBX_CH_STATUS, 8, 8⟩
/-- MBX_CH_STATUS[0:0], RO. -/
def MBX_CH_STATUS.FLAG : Fld := ⟨.MBX_CH_STATUS, 0, 1⟩
/-- MBX_CH_CTL[0:0], WO. -/
def MBX_CH_CTL.POP : Fld := ⟨.MBX_CH_CTL, 0, 1⟩
/-- MBX_BIND[31:31], RWL. -/
def MBX_BIND.VALID : Fld := ⟨.MBX_BIND, 31, 1⟩
/-- MBX_BIND[26:16], RWL. -/
def MBX_BIND.SENDER : Fld := ⟨.MBX_BIND, 16, 11⟩
/-- MBX_BIND[10:0], RWL. -/
def MBX_BIND.RECEIVER : Fld := ⟨.MBX_BIND, 0, 11⟩
/-- MBX_LOCK[0:0], RWL. -/
def MBX_LOCK.LOCK : Fld := ⟨.MBX_LOCK, 0, 1⟩
/-- DOC_CORE_CTL[31:31], RW. -/
def DOC_CORE_CTL.RUN : Fld := ⟨.DOC_CORE_CTL, 31, 1⟩
/-- DOC_CORE_CTL[30:30], WO. -/
def DOC_CORE_CTL.RESET : Fld := ⟨.DOC_CORE_CTL, 30, 1⟩
/-- DOC_CORE_STATUS[31:28], RO. -/
def DOC_CORE_STATUS.STATE : Fld := ⟨.DOC_CORE_STATUS, 28, 4⟩
/-- DOC_CORE_STATUS[20:16], RO. -/
def DOC_CORE_STATUS.STB_USED : Fld := ⟨.DOC_CORE_STATUS, 16, 5⟩
/-- DOC_CORE_STATUS[2:0], RO. -/
def DOC_CORE_STATUS.SLOTS : Fld := ⟨.DOC_CORE_STATUS, 0, 3⟩
/-- DOC_STB_DISCARD[31:0], RO. -/
def DOC_STB_DISCARD.ENTRIES : Fld := ⟨.DOC_STB_DISCARD, 0, 32⟩
/-- DOC_WSTORE_LOST[31:0], RO. -/
def DOC_WSTORE_LOST.STORES : Fld := ⟨.DOC_WSTORE_LOST, 0, 32⟩
/-- DOC_MTIMECMP_LO[31:0], RW. -/
def DOC_MTIMECMP_LO.CMP : Fld := ⟨.DOC_MTIMECMP_LO, 0, 32⟩
/-- DOC_MTIMECMP_HI[31:0], RW. -/
def DOC_MTIMECMP_HI.CMP : Fld := ⟨.DOC_MTIMECMP_HI, 0, 32⟩
/-- DOC_EVENTS[1:1], RW1C. -/
def DOC_EVENTS.STB_DISCARD : Fld := ⟨.DOC_EVENTS, 1, 1⟩
/-- DOC_EVENTS[0:0], RW1C. -/
def DOC_EVENTS.WSTORE_LOST : Fld := ⟨.DOC_EVENTS, 0, 1⟩
/-- TIM_NOW_LO[31:0], RO. -/
def TIM_NOW_LO.TIME : Fld := ⟨.TIM_NOW_LO, 0, 32⟩
/-- TIM_NOW_HI[31:0], RO. -/
def TIM_NOW_HI.TIME : Fld := ⟨.TIM_NOW_HI, 0, 32⟩
/-- TIM_STATE[31:30], RO. -/
def TIM_STATE.STATE : Fld := ⟨.TIM_STATE, 30, 2⟩
/-- TIM_STATE[29:28], RO. -/
def TIM_STATE.SOURCE : Fld := ⟨.TIM_STATE, 28, 2⟩
/-- TIM_STATE[27:27], RO. -/
def TIM_STATE.ROOT : Fld := ⟨.TIM_STATE, 27, 1⟩
/-- TIM_STATE[14:12], RO. -/
def TIM_STATE.HOPS : Fld := ⟨.TIM_STATE, 12, 3⟩
/-- TIM_STATE[8:0], RO. -/
def TIM_STATE.PARENT : Fld := ⟨.TIM_STATE, 0, 9⟩
/-- TIM_ROOT[31:30], RO. -/
def TIM_ROOT.CLASS : Fld := ⟨.TIM_ROOT, 30, 2⟩
/-- TIM_ROOT[23:16], RO. -/
def TIM_ROOT.PRIO : Fld := ⟨.TIM_ROOT, 16, 8⟩
/-- TIM_ROOT[12:0], RO. -/
def TIM_ROOT.MODULE : Fld := ⟨.TIM_ROOT, 0, 13⟩
/-- TIM_OFFSET[31:0], RO. -/
def TIM_OFFSET.OFFSET_PS : Fld := ⟨.TIM_OFFSET, 0, 32⟩
/-- TIM_ERR_EST[31:0], RO. -/
def TIM_ERR_EST.ERR_PS : Fld := ⟨.TIM_ERR_EST, 0, 32⟩
/-- TIM_SRC_CFG[25:24], RW. -/
def TIM_SRC_CFG.SOURCE : Fld := ⟨.TIM_SRC_CFG, 24, 2⟩
/-- TIM_SRC_CFG[7:0], RW. -/
def TIM_SRC_CFG.PRIO : Fld := ⟨.TIM_SRC_CFG, 0, 8⟩
/-- TIM_EVENTS[5:5], RW1C. -/
def TIM_EVENTS.SOURCE_LOST : Fld := ⟨.TIM_EVENTS, 5, 1⟩
/-- TIM_EVENTS[4:4], RW1C. -/
def TIM_EVENTS.AHEAD : Fld := ⟨.TIM_EVENTS, 4, 1⟩
/-- TIM_EVENTS[3:3], RW1C. -/
def TIM_EVENTS.ROOT_CHANGE : Fld := ⟨.TIM_EVENTS, 3, 1⟩
/-- TIM_EVENTS[2:2], RW1C. -/
def TIM_EVENTS.HOLDOVER : Fld := ⟨.TIM_EVENTS, 2, 1⟩
/-- TIM_EVENTS[1:1], RW1C. -/
def TIM_EVENTS.LOCKED : Fld := ⟨.TIM_EVENTS, 1, 1⟩
/-- TIM_EVENTS[0:0], RW1C. -/
def TIM_EVENTS.STEP : Fld := ⟨.TIM_EVENTS, 0, 1⟩
/-- TEL_MODE[2:2], RO. -/
def TEL_MODE.TEST : Fld := ⟨.TEL_MODE, 2, 1⟩
/-- TEL_MODE[1:1], RO. -/
def TEL_MODE.RECOVERY : Fld := ⟨.TEL_MODE, 1, 1⟩
/-- TEL_MODE[0:0], RO. -/
def TEL_MODE.STARTUP : Fld := ⟨.TEL_MODE, 0, 1⟩
/-- TEL_CNT_SEL[17:0], RW. -/
def TEL_CNT_SEL.WORD : Fld := ⟨.TEL_CNT_SEL, 0, 18⟩
/-- TEL_CNT_LO[31:0], RO. -/
def TEL_CNT_LO.WORD : Fld := ⟨.TEL_CNT_LO, 0, 32⟩
/-- TEL_CNT_HI[31:0], RO. -/
def TEL_CNT_HI.WORD : Fld := ⟨.TEL_CNT_HI, 0, 32⟩
/-- TEL_CAT_WPTR[29:0], RO. -/
def TEL_CAT_WPTR.OFFSET : Fld := ⟨.TEL_CAT_WPTR, 0, 30⟩
/-- TEL_SPC_WPTR[31:0], RO. -/
def TEL_SPC_WPTR.OFFSET : Fld := ⟨.TEL_SPC_WPTR, 0, 32⟩
/-- TEL_EVENTS[1:1], RW1C. -/
def TEL_EVENTS.SPC_DROPPED : Fld := ⟨.TEL_EVENTS, 1, 1⟩
/-- TEL_EVENTS[0:0], RW1C. -/
def TEL_EVENTS.CAT_SKIPPED : Fld := ⟨.TEL_EVENTS, 0, 1⟩
/-- HLT_PLAN_CTL[31:31], WO. -/
def HLT_PLAN_CTL.RUN : Fld := ⟨.HLT_PLAN_CTL, 31, 1⟩
/-- HLT_PLAN_CTL[30:30], RW. -/
def HLT_PLAN_CTL.WEEKLY : Fld := ⟨.HLT_PLAN_CTL, 30, 1⟩
/-- HLT_PLAN_STATUS[31:30], RO. -/
def HLT_PLAN_STATUS.STATE : Fld := ⟨.HLT_PLAN_STATUS, 30, 2⟩
/-- HLT_PLAN_STATUS[15:0], RO. -/
def HLT_PLAN_STATUS.RUNS : Fld := ⟨.HLT_PLAN_STATUS, 0, 16⟩
/-- HLT_FORECAST[31:16], RO. -/
def HLT_FORECAST.VOLT_DAYS : Fld := ⟨.HLT_FORECAST, 16, 16⟩
/-- HLT_FORECAST[15:0], RO. -/
def HLT_FORECAST.LANE_DAYS : Fld := ⟨.HLT_FORECAST, 0, 16⟩
/-- HLT_DROOP_CFG[23:16], RW. -/
def HLT_DROOP_CFG.COUNT : Fld := ⟨.HLT_DROOP_CFG, 16, 8⟩
/-- HLT_DROOP_CFG[15:8], RW. -/
def HLT_DROOP_CFG.MARGIN_MV : Fld := ⟨.HLT_DROOP_CFG, 8, 8⟩
/-- HLT_DROOP_CFG[7:0], RW. -/
def HLT_DROOP_CFG.MAX_MV : Fld := ⟨.HLT_DROOP_CFG, 0, 8⟩
/-- HLT_EVENTS[5:5], RW1C. -/
def HLT_EVENTS.THERMAL_WARN : Fld := ⟨.HLT_EVENTS, 5, 1⟩
/-- HLT_EVENTS[4:4], RW1C. -/
def HLT_EVENTS.AVS_NO_ACK : Fld := ⟨.HLT_EVENTS, 4, 1⟩
/-- HLT_EVENTS[3:3], RW1C. -/
def HLT_EVENTS.FORECAST_SHORT : Fld := ⟨.HLT_EVENTS, 3, 1⟩
/-- HLT_EVENTS[2:2], RW1C. -/
def HLT_EVENTS.LANE_AT_RISK : Fld := ⟨.HLT_EVENTS, 2, 1⟩
/-- HLT_EVENTS[1:1], RW1C. -/
def HLT_EVENTS.LANE_RETIRED : Fld := ⟨.HLT_EVENTS, 1, 1⟩
/-- HLT_EVENTS[0:0], RW1C. -/
def HLT_EVENTS.DROOP_RAISE : Fld := ⟨.HLT_EVENTS, 0, 1⟩
/-- HLT_RAIL_PLAN[31:16], RO. -/
def HLT_RAIL_PLAN.FUSED_MV : Fld := ⟨.HLT_RAIL_PLAN, 16, 16⟩
/-- HLT_RAIL_PLAN[15:0], RO. -/
def HLT_RAIL_PLAN.PLAN_MV : Fld := ⟨.HLT_RAIL_PLAN, 0, 16⟩
/-- HLT_RAIL_NOW[31:16], RO. -/
def HLT_RAIL_NOW.SETPOINT_MV : Fld := ⟨.HLT_RAIL_NOW, 16, 16⟩
/-- HLT_RAIL_NOW[15:8], RO. -/
def HLT_RAIL_NOW.DROOP_ADD_MV : Fld := ⟨.HLT_RAIL_NOW, 8, 8⟩
/-- HLT_RAIL_NOW[3:2], RO. -/
def HLT_RAIL_NOW.AVS : Fld := ⟨.HLT_RAIL_NOW, 2, 2⟩
/-- HLT_RAIL_AGE[31:24], RO. -/
def HLT_RAIL_AGE.TEMP_C : Fld := ⟨.HLT_RAIL_AGE, 24, 8⟩
/-- HLT_RAIL_AGE[23:0], RO. -/
def HLT_RAIL_AGE.SLOWDOWN_PPM : Fld := ⟨.HLT_RAIL_AGE, 0, 24⟩
/-- VMF_ID[28:16], RO. -/
def VMF_ID.MODULE : Fld := ⟨.VMF_ID, 16, 13⟩
/-- VMF_ID[9:0], RO. -/
def VMF_ID.LVID : Fld := ⟨.VMF_ID, 0, 10⟩
/-- VMF_VERSION[31:0], RO. -/
def VMF_VERSION.VALUE : Fld := ⟨.VMF_VERSION, 0, 32⟩
/-- VMF_GVH[31:0], RO. -/
def VMF_GVH.VALUE : Fld := ⟨.VMF_GVH, 0, 32⟩
/-- VMF_INTX[31:31], RO. -/
def VMF_INTX.ASSERTED : Fld := ⟨.VMF_INTX, 31, 1⟩
/-- VMF_INTX[15:0], RO. -/
def VMF_INTX.SENT : Fld := ⟨.VMF_INTX, 0, 16⟩
/-- VMF_BME[31:31], RO. -/
def VMF_BME.BME_PENDING : Fld := ⟨.VMF_BME, 31, 1⟩
/-- VMF_BME[30:30], RO. -/
def VMF_BME.FLR_PENDING : Fld := ⟨.VMF_BME, 30, 1⟩
/-- VMF_BME[7:0], RO. -/
def VMF_BME.OUTSTANDING : Fld := ⟨.VMF_BME, 0, 8⟩
/-- VMF_CPL_TMO[5:0], RW. -/
def VMF_CPL_TMO.TMO_MS : Fld := ⟨.VMF_CPL_TMO, 0, 6⟩
/-- VMF_EVENT_FLAGS[4:4], RW1C. -/
def VMF_EVENT_FLAGS.CMD_LOST : Fld := ⟨.VMF_EVENT_FLAGS, 4, 1⟩
/-- VMF_EVENT_FLAGS[3:3], RW1C. -/
def VMF_EVENT_FLAGS.SPECIMEN : Fld := ⟨.VMF_EVENT_FLAGS, 3, 1⟩
/-- VMF_EVENT_FLAGS[2:2], RW1C. -/
def VMF_EVENT_FLAGS.CATALOGUE : Fld := ⟨.VMF_EVENT_FLAGS, 2, 1⟩
/-- VMF_EVENT_FLAGS[1:1], RW1C. -/
def VMF_EVENT_FLAGS.CONTAINED : Fld := ⟨.VMF_EVENT_FLAGS, 1, 1⟩
/-- VMF_EVENT_FLAGS[0:0], RW1C. -/
def VMF_EVENT_FLAGS.EVENT : Fld := ⟨.VMF_EVENT_FLAGS, 0, 1⟩
/-- VMF_EVENT_MASK[4:4], RW. -/
def VMF_EVENT_MASK.CMD_LOST : Fld := ⟨.VMF_EVENT_MASK, 4, 1⟩
/-- VMF_EVENT_MASK[3:3], RW. -/
def VMF_EVENT_MASK.SPECIMEN : Fld := ⟨.VMF_EVENT_MASK, 3, 1⟩
/-- VMF_EVENT_MASK[2:2], RW. -/
def VMF_EVENT_MASK.CATALOGUE : Fld := ⟨.VMF_EVENT_MASK, 2, 1⟩
/-- VMF_EVENT_MASK[1:1], RW. -/
def VMF_EVENT_MASK.CONTAINED : Fld := ⟨.VMF_EVENT_MASK, 1, 1⟩
/-- VMF_EVENT_MASK[0:0], RW. -/
def VMF_EVENT_MASK.EVENT : Fld := ⟨.VMF_EVENT_MASK, 0, 1⟩
/-- VMF_CAT_ADDR_LO[31:0], RO. -/
def VMF_CAT_ADDR_LO.VALUE : Fld := ⟨.VMF_CAT_ADDR_LO, 0, 32⟩
/-- VMF_CAT_ADDR_HI[31:0], RO. -/
def VMF_CAT_ADDR_HI.VALUE : Fld := ⟨.VMF_CAT_ADDR_HI, 0, 32⟩
/-- VMF_CAT_SIZE[31:0], RO. -/
def VMF_CAT_SIZE.VALUE : Fld := ⟨.VMF_CAT_SIZE, 0, 32⟩
/-- VMF_CAT_WPTR[31:0], RO. -/
def VMF_CAT_WPTR.VALUE : Fld := ⟨.VMF_CAT_WPTR, 0, 32⟩
/-- VMF_SPC_ADDR_LO[31:0], RO. -/
def VMF_SPC_ADDR_LO.VALUE : Fld := ⟨.VMF_SPC_ADDR_LO, 0, 32⟩
/-- VMF_SPC_ADDR_HI[31:0], RO. -/
def VMF_SPC_ADDR_HI.VALUE : Fld := ⟨.VMF_SPC_ADDR_HI, 0, 32⟩
/-- VMF_SPC_SIZE[31:0], RO. -/
def VMF_SPC_SIZE.VALUE : Fld := ⟨.VMF_SPC_SIZE, 0, 32⟩
/-- VMF_SPC_WPTR[31:0], RO. -/
def VMF_SPC_WPTR.VALUE : Fld := ⟨.VMF_SPC_WPTR, 0, 32⟩
/-- TUN_CE_MODE[31:31], RW. -/
def TUN_CE_MODE.ENABLE : Fld := ⟨.TUN_CE_MODE, 31, 1⟩
/-- TUN_CE_MODE[25:24], RW. -/
def TUN_CE_MODE.FORMAT : Fld := ⟨.TUN_CE_MODE, 24, 2⟩
/-- TUN_CE_MODE[6:0], RW. -/
def TUN_CE_MODE.REFRESH : Fld := ⟨.TUN_CE_MODE, 0, 7⟩
/-- TUN_CE_GEOM[27:16], RW. -/
def TUN_CE_GEOM.HEIGHT : Fld := ⟨.TUN_CE_GEOM, 16, 12⟩
/-- TUN_CE_GEOM[11:0], RW. -/
def TUN_CE_GEOM.WIDTH : Fld := ⟨.TUN_CE_GEOM, 0, 12⟩
/-- TUN_CE_STRIDE[14:0], RW. -/
def TUN_CE_STRIDE.STRIDE : Fld := ⟨.TUN_CE_STRIDE, 0, 15⟩
/-- TUN_CE_SCANOUT[31:31], RO. -/
def TUN_CE_SCANOUT.PENDING : Fld := ⟨.TUN_CE_SCANOUT, 31, 1⟩
/-- TUN_CE_SCANOUT[25:0], RW. -/
def TUN_CE_SCANOUT.BASE : Fld := ⟨.TUN_CE_SCANOUT, 0, 26⟩
/-- TUN_CE_STATUS[31:24], RO. -/
def TUN_CE_STATUS.VBLANK : Fld := ⟨.TUN_CE_STATUS, 24, 8⟩
/-- TUN_CE_STATUS[7:7], RW1C. -/
def TUN_CE_STATUS.FLIP_DONE : Fld := ⟨.TUN_CE_STATUS, 7, 1⟩
/-- TUN_CE_STATUS[6:6], RW1C. -/
def TUN_CE_STATUS.MODE_ERR : Fld := ⟨.TUN_CE_STATUS, 6, 1⟩
/-- TUN_CE_STATUS[5:5], RW1C. -/
def TUN_CE_STATUS.BW_REFUSED : Fld := ⟨.TUN_CE_STATUS, 5, 1⟩
/-- TUN_CE_STATUS[4:4], RW1C. -/
def TUN_CE_STATUS.BW_LOST : Fld := ⟨.TUN_CE_STATUS, 4, 1⟩
/-- TUN_CE_STATUS[3:3], RO. -/
def TUN_CE_STATUS.BUDGET : Fld := ⟨.TUN_CE_STATUS, 3, 1⟩
/-- TUN_CE_STATUS[2:2], RO. -/
def TUN_CE_STATUS.SINK_MODE : Fld := ⟨.TUN_CE_STATUS, 2, 1⟩
/-- TUN_CE_STATUS[1:1], RO. -/
def TUN_CE_STATUS.ATTACHED : Fld := ⟨.TUN_CE_STATUS, 1, 1⟩
/-- TUN_CE_STATUS[0:0], RO. -/
def TUN_CE_STATUS.STREAMING : Fld := ⟨.TUN_CE_STATUS, 0, 1⟩
/-- TUN_CE_IRQ[2:2], RW. -/
def TUN_CE_IRQ.STATE_EN : Fld := ⟨.TUN_CE_IRQ, 2, 1⟩
/-- TUN_CE_IRQ[1:1], RW. -/
def TUN_CE_IRQ.FLIP_EN : Fld := ⟨.TUN_CE_IRQ, 1, 1⟩
/-- TUN_CE_IRQ[0:0], RW. -/
def TUN_CE_IRQ.VBLANK_EN : Fld := ⟨.TUN_CE_IRQ, 0, 1⟩
/-- PIN_CTL[31:31], RW. -/
def PIN_CTL.VALID : Fld := ⟨.PIN_CTL, 31, 1⟩
/-- PIN_CTL[30:30], RW. -/
def PIN_CTL.PENDING : Fld := ⟨.PIN_CTL, 30, 1⟩
/-- PIN_CTL[8:0], RW. -/
def PIN_CTL.NEW_PORT : Fld := ⟨.PIN_CTL, 0, 9⟩
/-- PIN_SRC[21:0], RW. -/
def PIN_SRC.FPID : Fld := ⟨.PIN_SRC, 0, 22⟩
/-- PIN_DST[21:0], RW. -/
def PIN_DST.FPID : Fld := ⟨.PIN_DST, 0, 22⟩
/-- PIN_OLD[31:31], RW. -/
def PIN_OLD.OLD_VALID : Fld := ⟨.PIN_OLD, 31, 1⟩
/-- PIN_OLD[8:0], RW. -/
def PIN_OLD.OLD_PORT : Fld := ⟨.PIN_OLD, 0, 9⟩
/-- PIN_TCUT_LO[31:0], RW. -/
def PIN_TCUT_LO.TCUT : Fld := ⟨.PIN_TCUT_LO, 0, 32⟩
/-- PIN_TCUT_HI[31:0], RW. -/
def PIN_TCUT_HI.TCUT : Fld := ⟨.PIN_TCUT_HI, 0, 32⟩
/-- ATT_CTL[31:31], RW. -/
def ATT_CTL.VALID : Fld := ⟨.ATT_CTL, 31, 1⟩
/-- ATT_CTL[21:16], RW. -/
def ATT_CTL.SIZE_LOG2 : Fld := ⟨.ATT_CTL, 16, 6⟩
/-- ATT_CTL[9:0], RW. -/
def ATT_CTL.LVID : Fld := ⟨.ATT_CTL, 0, 10⟩
/-- ATT_FPID[21:0], RW. -/
def ATT_FPID.FPID : Fld := ⟨.ATT_FPID, 0, 22⟩
/-- ATT_HOST_LO[31:0], RW. -/
def ATT_HOST_LO.BASE : Fld := ⟨.ATT_HOST_LO, 0, 32⟩
/-- ATT_HOST_HI[31:0], RW. -/
def ATT_HOST_HI.BASE : Fld := ⟨.ATT_HOST_HI, 0, 32⟩
/-- ATT_EP_LO[31:0], RW. -/
def ATT_EP_LO.BASE : Fld := ⟨.ATT_EP_LO, 0, 32⟩
/-- ATT_EP_HI[31:0], RW. -/
def ATT_EP_HI.BASE : Fld := ⟨.ATT_EP_HI, 0, 32⟩
/-- GATE_BASE_LO[31:0], RW. -/
def GATE_BASE_LO.BASE : Fld := ⟨.GATE_BASE_LO, 0, 32⟩
/-- GATE_BASE_HI[31:0], RW. -/
def GATE_BASE_HI.BASE : Fld := ⟨.GATE_BASE_HI, 0, 32⟩
/-- GATE_CYCLE[31:27], RW. -/
def GATE_CYCLE.RSV : Fld := ⟨.GATE_CYCLE, 27, 5⟩
/-- GATE_CYCLE[26:0], RW. -/
def GATE_CYCLE.CYCLE : Fld := ⟨.GATE_CYCLE, 0, 27⟩
/-- GATE_COUNT[31:9], RW. -/
def GATE_COUNT.RSV : Fld := ⟨.GATE_COUNT, 9, 23⟩
/-- GATE_COUNT[8:0], RW. -/
def GATE_COUNT.COUNT : Fld := ⟨.GATE_COUNT, 0, 9⟩
/-- GATE_ENTRY[31:31], RW. -/
def GATE_ENTRY.S_OPEN : Fld := ⟨.GATE_ENTRY, 31, 1⟩
/-- GATE_ENTRY[30:27], RW. -/
def GATE_ENTRY.RSV : Fld := ⟨.GATE_ENTRY, 27, 4⟩
/-- GATE_ENTRY[26:0], RW. -/
def GATE_ENTRY.DURATION : Fld := ⟨.GATE_ENTRY, 0, 27⟩

end Sys2Proof.Machine
end

