-- ==== Sys2Proof/Machine/State.lean ====
section
/-! DEFINITION. The state of the module as plain data: its registers (`Regs.lean` gives them), the structures behind
them, its memories, what it has sent, and the commands that wait. Every default is the value at reset. -/

namespace Sys2Proof.Machine

/-- Why a step stops with a fault. -/
inductive Fault where
  /-- No meaning raises it: every error the manual gives the module has an effect there. It is declared so that the
  type of stops is closed; safe. -/
  | unreached
  deriving DecidableEq, Repr

/-- Why a command has no meaning here. -/
inductive Refusal where
  /-- Raised by `exec` for a command of the table that has no meaning yet; safe. -/
  | notModelled (mnemonic : String)
  deriving DecidableEq, Repr

/-- What stopped start-up (R476, R477): the image that failed last, or the die. -/
inductive HaltCause where
  | image (n : Nat)
  | die (n : Nat)
  deriving DecidableEq, Repr

/-- What the status display strip shows (R513). -/
inductive StripItem where
  | moduleId (id : Nat)
  | power (state : Nat)
  | ready
  | step (n : Nat)
  | halt (step : Nat) (cause : HaltCause)
  /-- a class 5 condition, in amber: its record code and OBJECT -/
  | amber (code object : Nat)
  deriving DecidableEq, Repr

/-- What a line of UART_TX names: a step of R475 or a record (R523). -/
inductive UartName where
  | step (n : Nat)
  | recorded (code : Nat)
  deriving DecidableEq, Repr

/-- What the module sends or drives on its interfaces: each entry of `Dev.out` is one of these. -/
inductive Out where
  /-- a read's data, returned to the master that asked -/
  | readData (master addr value : Nat)
  /-- a TLP sent on a PCIe or CXL port, or to a tunnel endpoint or Console Engine behind port 447 or 511 -/
  | tlp (port : Nat) (t : Tlp)
  /-- a CXL.mem message sent on a CXL port -/
  | mem (port : Nat) (m : MemMsg)
  /-- Assert_INTx or Deassert_INTx of wire 0 to 3 sent to a host (R127) -/
  | intx (port wire : Nat) (assert : Bool)
  /-- messages to a host or an endpoint -/
  | drs (port : Nat)
  | ltr (port : Nat) (ns : Option Nat)
  | pmeTurnOff (port : Nat)
  | pmeToAck (port : Nat)
  | setSlotPowerLimit (port value scale : Nat)
  | unlock (port : Nat)
  | hotPlugInterrupt (gvh k : Nat)
  /-- a frame a fabric-link output starts to send -/
  | frame (port : Nat) (f : Frame)
  /-- a frame delivered to a function of this module, by local port -/
  | delivered (port : Nat) (f : Frame)
  /-- the 256 bytes of a flit, byte i on lane i mod w of the lanes named (R67) -/
  | flit (port : Nat) (lanes : List Nat) (bytes : List Byte)
  /-- a LINK_CTL flit: subtype and fields; in lane-copy form, the lanes that each carry it whole (R92) -/
  | linkCtl (port subtype : Nat) (fields copies : List Nat)
  /-- an alignment marker on a lane (R71) -/
  | marker (port lane : Nat)
  /-- what a lane or a port is told to do -/
  | laneIdle (lane : Nat)
  | laneTrain (lane rate : Nat)
  | coefficients (lane pre post : Nat)
  | coefficientReject (lane : Nat)
  /-- a preset asked of the partner's transmitter (R52) -/
  | presetRequest (lane preset : Nat)
  | linkReset (port : Nat) (how : String)
  | perst (cage : Nat) (asserted : Bool)
  | indicator (cage which value : Nat)
  /-- a notice to a master's mailbox, a descriptor written back, an answer on the management interfaces -/
  | respond (what : String) (args : List Nat)
  /-- what the display strip now shows, dark where none (R513) -/
  | strip (item : Option StripItem)
  /-- a line of UART_TX: ESEQ, where a record has one, FTIME and the name (R523) -/
  | uart (eseq : Option Nat) (ftime : Nat) (name : UartName)
  /-- a signal of the power, Type-C, USB or display side -/
  | signal (what : String) (args : List Nat)
  deriving DecidableEq, Repr

/-- An event record (R277): the fields of its 64 bytes; MAGIC-free, its CRC is a view of the others. -/
structure EvRec where
  /-- ESEQ; none while the record waits for its number (R278) -/
  eseq : Option Nat := none
  ftime : Nat := 0
  modul : Nat := 0
  code : Nat := 0
  cls : Nat := 0
  flags : Nat := 0
  die : Nat := 255
  port : Nat := 0xFFFFFFFF
  gvh : Nat := 0xFFFFFFFF
  object : Nat := 0
  count : Nat := 1
  addr : Nat := 0
  detail : List Byte := []
  deriving DecidableEq, Repr

/-- What a cause gives of its record; the rest R277 and R529 give. -/
structure Ev where
  cls : Nat := 6
  contained : Bool := false
  summary : Bool := false
  injected : Bool := false
  die : Nat := 255
  port : Nat := 0xFFFFFFFF
  gvh : Nat := 0xFFFFFFFF
  object : Nat := 0
  count : Nat := 1
  addr : Nat := 0
  detail : List Byte := []
  deriving DecidableEq, Repr

/-- A source of records held to one in an interval (R182, R190, R201): when it last wrote one, and how many events it
has held back since. -/
structure Limited where
  last : Option Nat := none
  held : Nat := 0
  /-- the largest age among them, in 64 ns units (R190) -/
  oldest : Nat := 0
  deriving DecidableEq, Repr

/-- A source of class 0 events (R529): its subsystem, port and object, the events since its last summary, the last
address. -/
structure Masked where
  subsystem : Nat
  port : Nat
  object : Nat
  count : Nat
  addr : Nat
  deriving DecidableEq, Repr

/-- A counter (R436); its MODE is that of its bank (R438). -/
structure Ctr where
  value : Nat := 0
  wrap : Bool := false
  sat : Bool := false
  deriving DecidableEq, Repr

/-- A region a frame's cells are charged to (R175). -/
inductive Region where
  | portReserve | controlReserve | queueMinimum | sharedPool
  deriving DecidableEq, Repr

/-- A frame held in the Basin (R173). -/
structure QFrame where
  frame : Frame
  /-- arrival stamp, in 64 ns units of fabric time -/
  stamp : Nat
  /-- the age at which a hold began, while one lasts (R188) -/
  hold : Option Nat := none
  region : Region
  /-- local port the frame came in by -/
  ingress : Nat := 0
  /-- its place in its port's lock side list, once it has stood there (R159) -/
  ticket : Option Nat := none
  /-- the cells that hold it, first to last (R172, R173) -/
  cellNos : List Nat := []
  deriving DecidableEq, Repr

/-- An output queue: its frames, oldest first, and those moved to the port's lock side list (R159). -/
structure Queue where
  frames : List QFrame := []
  side : List QFrame := []
  /-- frames a broken link left unreachable, whose cells the audit returns (R195) -/
  orphans : List QFrame := []
  deriving DecidableEq, Repr

/-- What the Weir keeps for an output beside its registers: the last class S and C queues served, the active list of the
deficit round robin (R223), the pending bank's T_START, the S window in progress (R237), and when it may select next. -/
structure OutPort where
  rrS : Nat := 31
  rrC : Nat := 31
  drr : List Nat := []
  tstart : Option Nat := none
  /-- a pending "no list" -/
  noList : Bool := false
  /-- fabric time the open S window opened, when a class S frame was eligible then and none has started -/
  waitS : Option Nat := none
  /-- fabric time a class S frame in transmission ends -/
  busyS : Nat := 0
  /-- fabric times at which frames of 2 granules were last sent, and until when the cells a PCIe or CXL port has written use its share (R174) -/
  small : List Nat := []
  /-- the next place in the lock side list (R159) -/
  sideNo : Nat := 0
  cellsUntil : Nat := 0
  /-- since when the limit of R174 holds the port back, for its counter 7 -/
  rateHeld : Option Nat := none
  deriving DecidableEq, Repr

/-- An injector's credit window beside its registers (R85, R89, R90, R208, R211). -/
structure Win where
  src : Nat := 0
  dst : Nat := 0
  /-- the CSEQ expected; none before the first credit frame after the grant -/
  cseq : Option Nat := none
  /-- credits consumed, modulo 2^32 -/
  sent : Nat := 0
  /-- fabric time of the last injection -/
  last : Nat := 0
  /-- next FSEQ of each class S, C, L, B -/
  fseq : List Nat := [0, 0, 0, 0]
  /-- classes whose injection waits for DRAIN_ACK -/
  drain : List Cls := []
  /-- the output its path leaves by, for the accounting of R185 -/
  out : Nat := 0
  /-- fabric time the last RESYNC_REQ was sent -/
  asked : Nat := 0
  deriving DecidableEq, Repr

/-- A destination edge's side of a window (R86, R90, R208). -/
structure DWin where
  src : Nat
  dst : Nat
  grant : Nat
  /-- cells freed and not yet returned -/
  owed : Nat := 0
  /-- cells now held -/
  held : Nat := 0
  /-- credited cells received, modulo 2^32 -/
  received : Nat := 0
  /-- CSEQ of the next credit frame sent -/
  cseq : Nat := 0
  /-- FSEQ expected in each class; none before the first frame -/
  expect : List (Option Nat) := [none, none, none, none]
  /-- a RESYNC_REQ that waits: its SENT_CUM and when it came -/
  resync : Option (Nat × Nat) := none
  deriving DecidableEq, Repr

/-- Which edge of a request a tracker entry serves (R25). -/
inductive Edge where
  | requester | completer | both
  deriving DecidableEq, Repr

/-- A tracker entry that is not FREE (R257). -/
structure Trk where
  gvh : Nat := 0
  edge : Edge := .both
  squashed : Bool := false
  requester : Nat := 0
  tag : Nat := 0
  /-- the substituted tag toward the completer -/
  subTag : Nat := 0
  src : Nat := 0
  dst : Nat := 0
  /-- its deadline, from ITIME; none until injection -/
  deadline : Option Nat := none
  /-- the class of the flow and when the request arrived, for late records and Specimens -/
  cls : Cls := .l
  arrived : Nat := 0
  /-- a request from a host (its Vitrine's quota) rather than from an endpoint (its share) -/
  fromHost : Bool := true
  /-- the binding (virtual downstream port) it goes to or comes from -/
  k : Nat := 0
  kind : TlpKind := .memRead
  /-- a CXL.mem request -/
  mem : Bool := false
  deriving DecidableEq, Repr

/-- A quarantined tag toward a port (R274): the entry it timed out with, whether that was SQUASHED, and until when. -/
structure TagHold where
  port : Nat
  subTag : Nat
  handle : Nat
  gvh : Nat
  squashed : Bool
  deadline : Nat
  until_ : Nat
  deriving DecidableEq, Repr

/-- A late record of a requester edge (R275). -/
structure LateRec where
  completer : Nat
  requester : Nat
  tag : Nat
  handle : Nat
  gvh : Nat
  deadline : Nat
  until_ : Nat
  deriving DecidableEq, Repr

/-- Where a local endpoint stands with Accession (R486). -/
inductive Accession where
  | none | running | passed | failed
  deriving DecidableEq, Repr

/-- What an endpoint's module holds of its binding (R217, R250, R251, R258, R262). -/
structure EpBind where
  gvh : Nat
  k : Nat
  /-- FPID of the Vitrine's upstream port -/
  up : Nat
  share : Nat := 256
  cls : Cls := .l
  /-- of a Vitrine on another module: its completion timeout code and silent-timeout flag (R129, R130), its host-written LTR maxima (R137), and
  ECRC generation at its virtual port (R111) -/
  cto : Nat := 0
  silent : Bool := false
  hostLtr : Option Nat := none
  ecrc : Bool := false
  /-- the secondary bus number the host gave the virtual downstream port -/
  bus : Nat := 0
  /-- its traffic toward the Vitrine is refused (R251) -/
  refusing : Bool := false
  /-- its TLPs are held from TCUT1 (R258) -/
  holding : Bool := false
  /-- a pending change of upstream FPID and its cut point (R262) -/
  next : Option (Nat × Nat) := none
  deriving DecidableEq, Repr

/-- An endpoint attached to this module: a device, a logical device, a tunnel endpoint or a Console Engine. -/
structure Endpoint where
  exists_ : Bool := false
  /-- SPDM identity as authenticated, 0 without one -/
  identity : Nat := 0
  unauthenticated : Bool := false
  accession : Accession := .none
  accessionStart : Nat := 0
  /-- requester ID of its function 0, and whether ARI widens the function number (R217) -/
  busDev : Nat := 0
  ari : Bool := false
  ldId : Option Nat := none
  /-- front port whose USB4 tunnel it is behind -/
  front : Nat := 0
  /-- sizes of its BARs, log 2, and their bases in the port's address space (R216) -/
  bars : List (Nat × Nat) := []
  facts : EpFacts := {}
  bound : Option EpBind := none
  /-- latest LTR in ns; none when none was sent or its Requirement bit is clear -/
  ltr : Option Nat := none
  ltrSeen : Bool := false
  /-- a reset held until DL_Active (R118) -/
  resetPending : Bool := false
  /-- after a reset: no configuration request until DRS or the wait's end (R122) -/
  awaitDrs : Bool := false
  /-- link held in Disabled by a host's Link Disable -/
  linkDisabled : Bool := false
  deriving DecidableEq, Repr

/-- What a host has written to one BAR since the binding or the last sizing write (R216): each half, and whether its last write
was a sizing write. -/
structure BarX where
  lo : Option Nat := none
  hi : Option Nat := none
  loSize : Bool := false
  hiSize : Bool := false
  deriving DecidableEq, Repr

/-- A completion an injected fault holds at its completer edge (R281): port, when it goes. -/
structure HeldCpl where
  port : Nat
  body : Body
  due : Nat
  deriving DecidableEq, Repr

/-- A binding of a Vitrine (R250). -/
structure Binding where
  k : Nat
  fpid : Nat
  ep : Nat
  ldId : Option Nat := none
  share : Nat := 256
  identity : Nat := 0
  cls : Cls := .l
  /-- its attachment, where another module holds the endpoint -/
  place : EpPlace := {}
  /-- the latest LTR in ns of an endpoint on another module: none before one came, `some none` when unlimited (R137) -/
  farLtr : Option (Option Nat) := none
  atts : List Nat := []
  barx : SMap BarX := []
  /-- shown to the host: bound, accessed and not contained (R242) -/
  presented : Bool := true
  /-- UNBIND_ENDPOINT has begun: the command that asked, if any -/
  unbinding : Bool := false
  deriving DecidableEq, Repr

/-- A TLP or CXL.mem message held at a port, as the frame it will be injected in (R146, R258): where it waits, when it
came, the tracker entry it has taken, and for a request without one the entry it needs. -/
structure HeldTlp where
  port : Nat
  frame : Frame
  arrived : Nat
  handle : Option Nat := none
  need : Option Trk := none
  deriving DecidableEq, Repr

/-- A Path Pin Table entry in effect (R206, R210). -/
structure Pin where
  valid : Bool := false
  pending : Bool := false
  newPort : Nat := 0
  src : Nat := 0
  dst : Nat := 0
  oldValid : Bool := false
  oldPort : Nat := 0
  tcut : Nat := 0
  deriving DecidableEq, Repr

/-- A Vitrine beside its registers (R245 to R263). -/
structure Vit where
  /-- the local ID is in use -/
  live : Bool := false
  ctoCode : Nat := 0
  silent : Bool := false
  slotPower : Bool := false
  basinMin : Nat := 0
  channels : Nat := 0
  shapers : List Nat := []
  bindings : List Binding := []
  /-- asserted INTx contributions: source and virtual wire (R126, R127) -/
  intx : List (Nat × Nat) := []
  hdm : List Hdm := []
  /-- endpoint requests are refused as in step 1 of R251 -/
  refusing : Bool := false
  /-- injection is held from TCUT1 (R258) -/
  holding : Bool := false
  tcut1 : Option Nat := none
  tcut2 : Option Nat := none
  /-- edge modules whose acknowledgement of TCUT2 is awaited (R262) -/
  unacked : List Nat := []
  /-- when the squash or freeze timeout started -/
  since : Nat := 0
  /-- in-flight shares other modules reported (R252) -/
  remote : SMap Nat := []
  /-- the lock it holds or asks for as owner: FPID of the port (R157) -/
  lock : Option Nat := none
  /-- bus numbers the host wrote to the virtual upstream port: secondary (the internal bus) -/
  bus : Nat := 0
  /-- host-written: LTR maxima in ns when LTR Mechanism Enable is set; ASPM L1 enabled -/
  hostLtr : Option Nat := none
  aspmL1 : Bool := false
  /-- uncorrectable non-fatal errors reported on the AER of the virtual upstream port (R111) -/
  upAer : Nat := 0
  /-- fabric time SAVE completed, and of an image restored here the module it came from (R260, R261) -/
  savedAt : Nat := 0
  source : Nat := 0
  /-- a containment trigger held for THAW (R271): its class -/
  heldError : Option Nat := none
  /-- the PME_Turn_Off forwarded and not yet acknowledged, by virtual downstream port (R125); none when none is under way -/
  pmeWait : Option (List Nat) := none
  /-- the LTR value last sent upstream in ns, and when (R138) -/
  ltrSent : Option Nat := none
  ltrAt : Option Nat := none
  deriving DecidableEq, Repr

/-- The VMF of a Vitrine beside its BAR0 registers (R384 to R401). -/
structure Vmf where
  busMaster : Bool := false
  memEnable : Bool := false
  intDisable : Bool := false
  /-- descriptor reads issued and unresolved: channel, notice, and whether issued before Bus Master Enable was cleared -/
  reads : List (Nat × Nat × Bool) := []
  /-- an FLR waits for the reads outstanding (R401) -/
  flr : Bool := false
  deriving DecidableEq, Repr

/-- A containment notice that another module has not acknowledged (R268). -/
structure Notice where
  modul : Nat
  object : Nat
  attempts : Nat := 0
  recorded : Bool := false
  deriving DecidableEq, Repr

/-- An armed injection (R281). -/
structure Injection where
  point : Nat
  target : Nat
  argument : Nat
  count : Nat
  deriving DecidableEq, Repr

/-- An entry of the rear-lane table (R43); DFE1 in two's complement, 7 bits. -/
structure EqEntry where
  lane : Nat
  rate : Nat
  pre : Nat
  post : Nat
  ctle : Nat
  dfe1 : Nat
  slip : Nat
  deriving DecidableEq, Repr

/-- A lane beside its registers. -/
structure LaneX where
  /-- a bit-slip delay still being applied (R53) -/
  delay : Option Nat := none
  /-- rates the lane has been equalised at since it last entered DETECT (R49, R96), and since its link's last CAPX (R97) -/
  eqRates : List Nat := []
  eqSince : List Nat := []
  /-- of a rear lane, its entries of the table in force when it last entered DETECT (R47) -/
  entries : List EqEntry := []
  /-- a bit-slip search: its start and the step to try (R55) -/
  search : Option (Nat × Nat) := none
  /-- a scan is running (R59) -/
  scanning : Bool := false
  /-- AXES of the running scan, and whether it is a load scan of its port (R59, R60) -/
  axes : Nat := 3
  loadScan : Bool := false
  /-- the taps of the partner's transmitter, as last agreed (R61) -/
  partner : Nat × Nat := (0, 0)
  /-- bit-lock losses since the last margin plan run, and whether the last two runs ended below floor (R471) -/
  lockLosses : Nat := 0
  belowRuns : Nat := 0
  /-- operating hours and worst margin at the last eight plan runs, newest last (R472) -/
  margins : List (Nat × Nat) := []
  /-- a re-equalisation since the last plan run failed to reach the floor (R471) -/
  noFloor : Bool := false
  /-- PRE, POST and SOURCE of the transmitter before a speed change (R97) -/
  oldTaps : Option (Nat × Nat × Nat) := none
  /-- a lane of a fabric link lost, or a contained link's: OFF and held (R49, R268) -/
  held : Bool := false
  deriving DecidableEq, Repr

/-- A port beside its registers: the load trigger and re-equalisation (R60 to R63). -/
structure PortX where
  disarmed : Bool := false
  /-- die temperature at the last load evaluation, two's complement (R60) -/
  temp : Nat := 0
  /-- its cage's PERST_N, an input, is asserted: its lanes are held in DETECT (R117, R120) -/
  hostPerst : Bool := false
  /-- its link was released from a fundamental reset: no configuration request until DRS or the wait's end (R122) -/
  awaitDrs : Bool := false
  /-- its removal was ordered by PORT_ENABLE (R270) -/
  ordered : Bool := false
  /-- a fabric link waits for its re-equalisation pause: its smallest margin (R61, R62) -/
  reeq : Option Nat := none
  /-- lanes whose confirming scan follows the pause (R61) -/
  confirm : List Nat := []
  /-- a PCIe or CXL port waits for a window, and since when it has not been reported (R63) -/
  wanted : Option Nat := none
  /-- a lane of the port waits for retirement at the first window (R471) -/
  retireLater : Option Nat := none
  deriving DecidableEq, Repr

/-- Granules of a frame in the byte stream of a link (R69): the first of them, and how many. -/
structure Piece where
  frame : Frame
  from_ : Nat
  count : Nat
  deriving DecidableEq, Repr

/-- A DATA flit in the replay buffer (R78): its sequence number and the granules it carries, in order. -/
structure TxFlit where
  seq : Nat
  pieces : List Piece
  deriving DecidableEq, Repr

/-- A LINK_CTL request that awaits its answer (R92). -/
structure CtlReq where
  subtype : Nat
  fields : List Nat
  attempts : Nat := 1
  deriving DecidableEq, Repr

/-- A fabric link beside its registers. -/
structure Link where
  /-- unacknowledged DATA flits, oldest first (R77, R83) -/
  unacked : List TxFlit := []
  /-- the value of E the last NAK carried and when it was sent (R76) -/
  nak : Option (Nat × Nat) := none
  stalled : Bool := false
  /-- granules of frames started that no flit carries yet (R69) -/
  stream : List Piece := []
  /-- bytes received of a frame whose last granule has not come (R69) -/
  rx : List Byte := []
  /-- LINK_CTL requests without their answers, by subtype (R92) -/
  requests : List CtlReq := []
  /-- ECHO_REQ: tag and when it was sent (R94) -/
  echo : Option (Nat × Nat) := none
  echoTag : Nat := 0
  /-- lanes the link stripes over (R67) -/
  lanes : List Nat := []
  /-- the width code and lanes a width change goes to, the rate a speed change goes to -/
  newWidth : Option (Nat × List Nat) := none
  newRate : Option Nat := none
  /-- a width increase whose added lanes still train beside the link: its width code and lanes (R96) -/
  widening : Option (Nat × List Nat) := none
  /-- this end asked for the pause under way (R98) -/
  ownPause : Bool := false
  /-- the E of a RESUME that came before this end was ready to resume (R97, R98) -/
  peerE : Option Nat := none
  /-- the rate of its lanes; FLL_LINK_STATUS.RATE shows it while ACTIVE or PAUSED (R99) -/
  rate : Nat := 0
  /-- the partner's PARAMS (R93) -/
  params : Option Params := none
  /-- the link has been admitted at both ends (R480) -/
  admitSent : Bool := false
  /-- a width change narrows the link for a lost lane (R95) -/
  narrowing : Bool := false
  partnerAdmitted : Bool := false
  /-- fabric times of LINK_LOST since the link was last contained or released (R265) -/
  losses : List Nat := []
  deriving DecidableEq, Repr

/-- A shaper beside its registers (R226 to R228): tokens in units of 1/128,000 byte as of Weir time `at_`, the burst in
force in 64-byte units, its place on the calendar wheel: level and eligible time. -/
structure Shaper where
  exact : Int := 0
  at_ : Nat := 0
  burst : Nat := 64
  wheel : Option (Nat × Nat) := none
  /-- bytes sent since the last audit and when that was (R238) -/
  sent : Nat := 0
  since : Nat := 0
  deriving DecidableEq, Repr

/-- A front port's USB4 side beside its registers (R283 to R294): the sinks of DP0 and DP1 as their EDIDs list them, whether the link may turn
asymmetric, ALLOW_UNAUTH as of the attach, and when symmetry last changed. -/
structure Front where
  sinks : SMap (List Timing) := []
  asymOk : Bool := false
  allowUnauth : Bool := false
  symAt : Option Nat := none
  /-- tunnels that are a destination: tunnel, module of the engine, engine (R302) -/
  dests : List (Nat × Nat × Nat) := []
  deriving DecidableEq, Repr

/-- A mode of a Console Engine (R296, R297). -/
structure Mode where
  w : Nat
  h : Nat
  refresh : Nat
  format : Nat
  stride : Nat
  deriving DecidableEq, Repr

/-- A Console Engine beside its registers: the mode that runs, one that awaits its bandwidth, the scanout base in force, an armed flip, whether
the stream counts against R298, and the next FSEQ of a remote stream. -/
structure Engine where
  running : Option Mode := none
  next : Option Mode := none
  base : Nat := 0
  armed : Option Nat := none
  counted : Bool := false
  fseq : Nat := 0
  /-- the timings of the sink on a destination on another module, while there is one -/
  farSink : Option (List Timing) := none
  deriving DecidableEq, Repr

/-- A remote console stream at its destination (R303, R304): where it comes from, the FSEQ expected, the frame coming in and the frame going
out with its last due line, the segments held by frame, line and first pixel, and what has been sent black or discarded. -/
structure InStream where
  modul : Nat
  engine : Nat
  expect : Nat := 0
  frameIn : Nat := 0
  frameOut : Nat := 0
  dueLine : Option Nat := none
  held : List (Nat × Nat × Nat) := []
  port : Nat := 0
  black : Nat := 0
  discarded : Nat := 0
  deriving DecidableEq, Repr

/-- What the Management USB Device keeps beside its registers (R312 to R321): the image session (target, length, CRC-32 and the bytes so
far), the log pipe (source and the next record), whether an armed bulk IN transfer has data waiting, and remote wakeup as the host has
enabled it. -/
structure Mud where
  session : Option (Nat × Nat × Nat × List Byte) := none
  log : Option (Nat × Nat) := none
  armed : Bool := false
  remoteWakeup : Bool := false
  deriving DecidableEq, Repr

/-- A service candidate (R307): its port, whether its host is a USB4 one, and when its attach completed. -/
structure Candidate where
  port : Nat
  usb4 : Bool
  since : Nat
  deriving DecidableEq, Repr

/-- A power object of an offer (R331): 0 fixed, 1 PPS, 2 AVS; its least and highest voltage and its current in the PD units of R156. -/
structure Pdo where
  kind : Nat
  low : Nat
  high : Nat
  current : Nat
  deriving DecidableEq, Repr

/-- A front port's PD controller beside its registers (R323 to R338). -/
structure PdPort where
  /-- the power role now, and the roles taken at attach (R335) -/
  source : Bool := false
  attachSource : Bool := false
  attachDfp : Bool := false
  attachVconn : Bool := false
  /-- charge to the PD pool in mW (R330), and an explicit contract -/
  charge : Nat := 0
  explicit : Bool := false
  /-- vSafe5V was refused for lack of pool (R330) -/
  refused : Bool := false
  offer : List Pdo := []
  /-- voltage a transition goes to, in mV -/
  target : Option Nat := none
  /-- the swap under way, and whether the module asked for it; those that wait, with whether the partner accepts (R336) -/
  swap : Option (PdSwap × Bool) := none
  waiting : List (PdSwap × Bool × Bool) := []
  /-- swaps the policy may not request again yet (R334, R335) -/
  hold : List PdSwap := []
  failed : List PdSwap := []
  /-- the cable marker has not answered yet (R328) -/
  discovering : Bool := false
  /-- the VBUS switch watches its output (R357) -/
  watch : Bool := false
  /-- fabric time the port was declared wet -/
  wetSince : Nat := 0
  deriving DecidableEq, Repr

/-- An electronic fuse beside its registers: the charge of a cage in mW and its slot power limit (R154, R349). -/
structure Efuse where
  /-- when power-good came (R119) -/
  pgAt : Nat := 0
  charge : Nat := 0
  value : Nat := 0
  scale : Nat := 0
  deriving DecidableEq, Repr

/-- The pool splits in W for high and for low line (R345). -/
structure Splits where
  highCage : Nat := 935
  highPd : Nat := 600
  lowCage : Nat := 45
  lowPd : Nat := 240
  deriving DecidableEq, Repr

/-- A command in the module's table: its descriptor's fields and where it stands (R361 to R375). -/
structure Cmd where
  addr : Nat
  caller : Nat
  role : Nat
  tag : Nat
  opcode : Nat
  notify : Bool := false
  detach : Bool := false
  /-- the Vitrine it names, or 0xFFFF_FFFF -/
  gvh : Nat := 0xFFFFFFFF
  status : Nat := 2
  detail : Nat := 0
  /-- response fields: offset from 0x18, size, value -/
  resp : List (Nat × Nat × Nat) := []
  wait : Wait := .nothing
  /-- DETACH: ACCEPTED has been written and the descriptor is no longer touched -/
  accepted : Bool := false
  /-- the module that forwarded it -/
  origin : Option Nat := none
  /-- fabric time of intake, and of the last progress or result -/
  since : Nat := 0
  heard : Nat := 0
  /-- a step has been journaled (R373) -/
  journaled : Bool := false
  /-- the channel its notice came by (R369) -/
  channel : Option Nat := none
  /-- offset of the first reserved parameter byte that is not zero (R365, R376) -/
  stray : Option Nat := none
  /-- DETACH: ACCEPTED stands in the descriptor -/
  told : Bool := false
  /-- it sets the queues of a Vitrine (R372) -/
  onVitrine : Bool := false
  /-- when the Registrar was asked to record its change (R372) -/
  asked : Option Nat := none
  /-- a new active Curator pair finishes it (R373) -/
  failover : Bool := false
  deriving DecidableEq, Repr

/-- A scheduled command (R379): its ID, its fabric time and the entry it becomes. -/
structure Sched where
  id : Nat
  time : Nat
  cmd : Cmd
  deriving DecidableEq, Repr

/-- A line of the bridge's read cache (R164, R165): its table entry, its line number in the window, its bytes, when it was fetched, and
whether a load has read from it. -/
structure PfLine where
  entry : Nat
  line : Nat
  data : List Byte := []
  at_ : Nat := 0
  read : Bool := false
  deriving DecidableEq, Repr

/-- An entry of the discarded-prefetch log (R169). -/
structure PfLog where
  ftime : Nat := 0
  addr : Nat := 0
  entry : Nat := 0
  reason : Nat := 0
  lseq : Nat := 0
  deriving DecidableEq, Repr

/-- A window load that has not retired (R163 to R166): its master, window offset, size, table entry; whether it fetches lines, the tag of
its request once sent, whether it has been detached from its segment, and the parked data. -/
structure WinRead where
  master : Nat
  addr : Nat
  bytes : Nat
  entry : Nat
  prefetch : Bool := false
  tag : Option Nat := none
  detached : Bool := false
  parked : Option (List Byte) := none
  deriving DecidableEq, Repr

/-- A line fetched beyond the requested one (R164): the tag of its request, its table entry, its line number in the window. -/
structure WinFetch where
  tag : Nat
  entry : Nat
  line : Nat
  deriving DecidableEq, Repr

/-- A 32-bit window store at the bridge that has not been accepted (R168): its master, the table entry that admitted it, its window offset,
its value, and which of its bytes are written. -/
structure WinStore where
  master : Nat
  entry : Nat
  addr : Nat
  value : Nat
  be : Nat := 15
  deriving DecidableEq, Repr

/-- An entry of a core's store buffer (R409): its 64-byte line, the bytes written into it by offset, and for a line of the fabric window
the table entry that admitted it (R408). -/
structure StbEntry where
  line : Nat
  bytes : SMap Byte := []
  entry : Nat := 0
  deriving DecidableEq, Repr

/-- A Docent core beside its registers (R409 to R418): its store buffer in allocation order, its reservation (the 64-byte granule), until
when it defers probes of that line (R416), a pending machine timer interrupt, and a FENCE or WFI that waits to retire. -/
structure Core where
  stb : List StbEntry := []
  reserved : Option Nat := none
  holdUntil : Option Nat := none
  timer : Bool := false
  fence : Bool := false
  wfi : Bool := false
  deriving DecidableEq, Repr

/-- What a partner has announced of its root (R424, R426). -/
structure Announce where
  cls : Nat
  prio : Nat
  modul : Nat
  hops : Nat
  deriving DecidableEq, Repr

/-- An exchange under way (R426): its port, T_TX and arrival of the SYNC, departure of the DELAY_REQ once sent. -/
structure Exchange where
  port : Nat
  t1 : Nat
  t2 : Nat
  t3 : Option Nat := none
  deriving DecidableEq, Repr

/-- The time base beside its registers (R423 to R429): announcements by port, the exchange under way, twice the last 16 accepted path
delays, half ticks the time is still to be slewed (ahead negative) with the ticks since the last of them, whether the external source is
locked or in holdover, and the offsets of 1PPS edges discarded in a row. -/
structure TimeX where
  heard : List (Nat × Announce) := []
  exch : Option Exchange := none
  delays : List Nat := []
  slew : Int := 0
  phase : Nat := 0
  srcLocked : Bool := false
  srcHeld : Bool := false
  rejected : List Int := []
  deriving DecidableEq, Repr


/-- A snapshot being written as a dump (R446, R447): its banks, instant, whether taken at a time step, the time state, whether full, the
instants skipped before it, its words, and the stream it was taken under: when that was configured, the offset and host address it is
written to. -/
structure CatDump where
  first : Nat
  banks : Nat
  ftime : Nat
  atStep : Bool := false
  tstate : Nat := 0
  full : Bool := false
  skipped : Nat := 0
  words : List Nat := []
  since : Nat := 0
  start : Nat := 0
  addr : Nat := 0
  deriving DecidableEq, Repr

/-- A Catalogue stream (R445 to R449): scope 0 full, 1 a range of banks, 2 off; its period in µs; its ring's size and, of a tenant stream,
host address; where the next dump begins, its DSEQ, the instants skipped since the last; the last instant, and when it was configured; the
dump being written. -/
structure CatStream where
  scope : Nat := 2
  first : Nat := 0
  banks : Nat := 0
  period : Nat := 10000
  ring : Nat := 0x40000000
  addr : Nat := 0
  wptr : Nat := 0
  dseq : Nat := 0
  skipped : Nat := 0
  last : Option Nat := none
  since : Nat := 0
  writing : Option CatDump := none
  deriving DecidableEq, Repr

/-- A Specimen stream (R451 to R454): its filters, ring and host address, where the next record goes, SSEQ, the matching TLPs each die has
counted, and the bytes written since a tenant's SPECIMEN flag was last set. -/
structure SpcStream where
  on : Bool := false
  k : Nat := 0
  mask : Nat := 0
  port : Nat := 0xFFFFFFFF
  gvh : Nat := 0xFFFFFFFF
  ring : Nat := 0x100000000
  addr : Nat := 0
  wptr : Nat := 0
  sseq : Nat := 0
  seen : SMap Nat := []
  half : Nat := 0
  deriving DecidableEq, Repr

/-- A sampled TLP whose latency is not yet known (R453): its stream (0 the module's, else a local ID and 1), when it arrived, and whether
every matching TLP was sampled. -/
structure Sample where
  stream : Nat
  arrived : Nat
  all : Bool
  tlp : Sampled
  deriving DecidableEq, Repr


/-- A core rail beside its registers (R465 to R468, R472): the set point the margin plan asks for, droop raises not yet acknowledged, the step
that awaits its acknowledgement (up, and its attempts), whether the rail is held, when it was last raised for droop and last lowered, and the
operating hours and slowdown at the last 26 plan runs. -/
structure Rail where
  goal : Option Nat := none
  raises : Nat := 0
  step : Option (Bool × Nat) := none
  held : Bool := false
  raisedAt : Option Nat := none
  loweredAt : Option Nat := none
  history : List (Nat × Nat) := []
  deriving DecidableEq, Repr


/-- A module in the topology store (R481): what it announced, ASEQ, and its links by part. -/
structure Node where
  info : HelloMsg
  aseq : Nat := 0
  parts : List (Nat × List AdjLink) := []
  deriving DecidableEq, Repr


/-- What powers the module (R347, R502): its rails, only the standby converters in DORMANT, or nothing. -/
inductive Supply where
  | on | dormant | off
  deriving DecidableEq, Repr


/-- The module but for its memories and its waiting commands. -/
structure Dev where
  /-- fabric time, in ticks, modulo 2^64 (R421) -/
  now : Nat := 0
  /-- Weir time, in ticks since module reset (R228) -/
  weir : Nat := 0
  /-- register fields that do not hold their reset value, by field and instance -/
  regs : SMap Nat := []
  /-- 64-bit shadows: master ID, register address of the pair, latched high word (R8) -/
  shadows : List (Nat × Nat × Nat) := []
  /-- free values drawn so far: the model's own count, no state of the module -/
  drawn : Nat := 0
  /-- what the module has sent on its interfaces, oldest first -/
  out : List Out := []
  /-- the event log ring by ring index, and the staging buffer with its overrun (R280) -/
  ring : SMap EvRec := []
  staging : List EvRec := []
  overrun : Nat := 0
  /-- the boot count has been incremented, so records are numbered (R278) -/
  booted : Bool := false
  limited : SMap Limited := []
  masked : List Masked := []
  ctrs : SMap Ctr := []
  injections : List Injection := []
  /-- the step under way carries out an injected fault (R281): set and cleared within a step -/
  injecting : Bool := false
  /-- frames received or injected that wait for routing, and routed frames that wait for admission with their output -/
  arrived : List (Nat × Frame) := []
  routed : List (Nat × Nat × Frame) := []
  /-- frames selected toward a PCIe, CXL or internal output, by port -/
  egress : List (Nat × Frame) := []
  queues : SMap Queue := []
  /-- the Basin's free list: cells returned, oldest first, and how many have ever been taken, from 0 up (R172, R195) -/
  cellsFree : List Nat := []
  cellsUsed : Nat := 0
  outs : SMap OutPort := []
  wins : SMap Win := []
  dwins : List DWin := []
  trk : SMap Trk := []
  tagHolds : List TagHold := []
  lates : List LateRec := []
  endpoints : SMap Endpoint := []
  vits : SMap Vit := []
  vports : SMap VPort := []
  vmfs : SMap Vmf := []
  /-- configuration words hosts wrote to virtual functions, and endpoint BARs sized or partly written -/
  cfg : SMap Nat := []
  /-- TLPs held at ports for tracker entries, credits, a freeze or a lock (R146, R258) -/
  heldTlps : List HeldTlp := []
  notices : List Notice := []
  /-- FPID of the upstream port that owns the lock of a downstream port (R158, R159) -/
  lockSrc : SMap Nat := []
  /-- fabric time the lock of a port left FREE (R158) -/
  lockSince : SMap Nat := []
  /-- queue slots of PCIe and CXL outputs: port, Global Vitrine Handle, slot (R177) -/
  slots : List (Nat × Nat × Nat) := []
  /-- fabric time a frame of type TLP, CXL.mem or console was last admitted (R494) -/
  lastTraffic : Nat := 0
  /-- queues a link-memory error broke, until the audit completes (R195) -/
  brokenQueues : List Nat := []
  links : SMap Link := []
  shapers : SMap Shaper := []
  /-- the pin and translation entries in effect: what the last writes of their words 0 latched (R206, R215) -/
  pins : SMap Pin := []
  atts : SMap Att := []
  /-- acknowledgements of pending entries: cut point and module (R209) -/
  pinAcks : List (Nat × Nat) := []
  /-- the Registrar's module, once elected (R482) -/
  registrar : Option Nat := none
  /-- cages and rear groups whose PERST_N is released; at reset all are asserted (R117, R119) -/
  perstReleased : List Nat := []
  /-- upstream ports that send DRS when their link is up again (R142) -/
  owesDrs : List Nat := []
  /-- sideband sequence numbers: of the next event of each source port here, and of the last applied from each source (R151) -/
  sbSeq : SMap Nat := []
  sbSeen : List (Nat × Nat) := []
  heldCpls : List HeldCpl := []
  /-- the save-image slots, by local ID (R31, R260) -/
  saves : SMap Image := []
  lanes : SMap LaneX := []
  ports : SMap PortX := []
  /-- fabric links in a re-equalisation pause (R62) -/
  pausedLinks : List Nat := []
  /-- the rear-lane table as checked at module reset or loaded since; none when it is invalid (R44, R47) -/
  eqTable : Option (List EqEntry) := none
  /-- REAR_EQ_TABLE_INVALID has been written (R45) -/
  eqReported : Bool := false
  /-- upstream ports that answer Unsupported Request until a Vitrine is presented, which takes the link through Detect once
  (R142, R255) -/
  owesDetect : List Nat := []
  fronts : SMap Front := []
  engines : SMap Engine := []
  inStreams : List InStream := []
  /-- service candidates (R307) -/
  candidates : List Candidate := []
  /-- USB-A ports whose switch is open after an over-current (R311) -/
  usbaOpen : List Nat := []
  /-- the front port the Service Hub is connected to (R309) -/
  hubPort : Option Nat := none
  mud : Mud := {}
  /-- responses of the Management USB Device's commands that await GET_RESPONSE: tag, descriptor address, completion (R315) -/
  mudDone : List (Nat × Nat × Nat) := []
  /-- records of 64 bytes written to the Catalogue and Specimen rings since they were set (R317), by log source 2 and 3 -/
  ringRecords : SMap Nat := []
  pds : SMap PdPort := []
  efuses : SMap Efuse := []
  /-- enables that wait behind eight ramps, in the order given (R350) -/
  efQueue : List Nat := []
  splits : Splits := {}
  /-- feeds whose front end has disconnected (R341) -/
  feedOff : List Nat := []
  /-- commands taken at intake whose outcome has not been written, oldest first -/
  cmds : List Cmd := []
  /-- the composition store's view of where a Vitrine's upstream port is: handle and module (R366, R484) -/
  homes : List (Nat × Nat) := []
  /-- the edge ports the Registrar has assigned, by FPID, in the Registrar's module (R18) -/
  edges : List Nat := []
  /-- trained edge ports of this module that the Registrar did not assign (R18) -/
  edgesOut : List Nat := []
  /-- staged images by target; none staged reads empty (R316, R380) -/
  images : SMap (List Byte) := []
  /-- scheduled commands, by ID (R379) -/
  scheduled : List Sched := []
  /-- notices queued in the mailbox channels, oldest first (R388) -/
  chans : SMap (List Nat) := []
  /-- the bridge's read cache, least recently used first (R164) -/
  pfLines : List PfLine := []
  pfLog : SMap PfLog := []
  pfSeq : Nat := 0
  winReads : List WinRead := []
  winFetches : List WinFetch := []
  winStores : List WinStore := []
  /-- FPIDs of ports of other modules whose containment has taken effect here (R268, R414) -/
  heldRemote : List Nat := []
  cores : SMap Core := []
  time : TimeX := {}
  /-- Catalogue and Specimen streams: 0 the module's, local ID + 1 a tenant's; and the samples taken (R445, R451) -/
  cats : SMap CatStream := []
  spcs : SMap SpcStream := []
  samples : List Sample := []
  rails : SMap Rail := []
  /-- dies that run on reference oscillator B (R461) -/
  refB : List Nat := []
  /-- every port and fabric link is at electrical idle until a module reset (R30, R463) -/
  halted : Bool := false
  /-- the step start-up stopped at, and why (R476, R477) -/
  haltedBy : Option (Nat × HaltCause) := none
  /-- class 5 conditions since the module reset: record code and OBJECT (R513) -/
  conditions : List (Nat × Nat) := []
  /-- when ALERT_N may go high again, and the thermal trip that holds it low (R463, R521) -/
  alertUntil : Nat := 0
  tripped : Bool := false
  /-- dies lost: port dies 0 to 3, the tunnel hub 5 (R28, R29) -/
  lostDies : List Nat := []
  /-- PCIe and CXL ports whose receive buffer is full, and since when: no flow-control credits are given (R146) -/
  withheld : List (Nat × Nat) := []
  /-- the topology store, one entry for each other module; the SERIAL found on each fabric link; this module's ASEQ and the links it last
  described (R481) -/
  topo : List Node := []
  partners : SMap Nat := []
  ownAseq : Nat := 0
  described : List AdjLink := []
  /-- SERIAL of the elected Registrar; the IDs it has assigned, by SERIAL (R482, R483) -/
  elected : Option Nat := none
  assigned : List (Nat × Nat) := []
  /-- secure boot found no image that checks (R476) -/
  bootFailed : Bool := false
  /-- the Registrar is lost and none is elected yet (R489) -/
  orphaned : Bool := false
  /-- a module with a lower SERIAL holds this module's ID (R483) -/
  conflict : Bool := false
  /-- what is powered; and the QUIET entered or being entered was commanded, when an automatic attempt last failed, the wake events latched
  since ARM, when a frame of each port was last admitted (R494 to R503) -/
  supply : Supply := .on
  byCommand : Bool := false
  tried : Option Nat := none
  latched : Nat := 0
  trafficAt : SMap Nat := []
  deriving DecidableEq, Repr

/-- What PORT_CONFIG sets, and the stored configuration holds of a port (R103, R475). -/
structure PortSetting where
  kind : Nat
  width : Nat
  rate : Nat
  flags : Nat
  lr : Nat
  oversub : Nat
  windows : Nat
  pm : Nat
  deriving DecidableEq, Repr

/-- A cage enable of the stored configuration (R478): the cage, its slot power limit and its priority. -/
structure StoredCage where
  cage : Nat
  value : Nat
  scale : Nat
  priority : Nat
  deriving DecidableEq, Repr

/-- A Curator image in SPI NOR (R380): its bytes, its version (major in the high byte), and whether it has checked valid since it was
written. -/
structure FwImage where
  bytes : List Byte := []
  version : Nat := 0
  checked : Bool := true
  deriving DecidableEq, Repr

/-- What outlives a module reset: the EEPROM, the SPI NOR and the stored configuration. -/
structure NonVolatile where
  /-- boot count in SPI NOR (R278) -/
  boot : Nat := 0
  /-- module ID in SPI NOR, once admitted (R483) -/
  moduleId : Option Nat := none
  /-- rear-lane table in EEPROM, as bytes (R43, R47) -/
  eqTable : List Byte := []
  /-- serial number -/
  serial : Nat := 0
  /-- Curator images A and B in SPI NOR, the one the next secure boot uses, and the one that booted (R380) -/
  fwA : FwImage := {}
  fwB : FwImage := { checked := false }
  nextImage : Nat := 0
  booted : Nat := 0
  /-- SPDM trust anchors in SPI NOR (R380) -/
  anchors : List Byte := []
  /-- the stored CUR_DOC_ROLE words, once ROLE_SET has written them (R380) -/
  docRoles : Option (Nat × Nat) := none
  /-- of each rail, V_fused and the last V_plan stored, in mV (R470) -/
  rails : List (Nat × Nat) := List.replicate 7 (750, 750)
  /-- the stored configuration (R394, R475, R478, R490, R491): ports with whether each is enabled, cage enables, the binding list as channel,
  sender and receiver, Registrar priority, base power state with AUTO -/
  ports : List (Nat × PortSetting × Bool) := []
  cages : List StoredCage := []
  bindings : Option (List (Nat × Nat × Nat)) := none
  prio : Option Nat := none
  base : Option (Nat × Bool) := none
  /-- the composition store copy held: its generation, 0 none; its fabric directory; the module of each Vitrine (R480, R483, R484) -/
  storeGen : Nat := 0
  directory : List (Nat × Nat) := []
  storeHomes : List (Nat × Nat) := []
  deriving DecidableEq, Repr

/-- The module. -/
structure State where
  /-- commands that wait, oldest first -/
  pending : List Instr := []
  /-- LPDDR4X and boot SRAM, by Docent physical address, in canonical form: an unlisted byte reads 0 -/
  mem : List Host.Cell := []
  nv : NonVolatile := {}
  dev : Dev := {}
  deriving DecidableEq, Repr

/-- The module right after a module reset, before its first start-up step (R13). -/
def State.reset : State := {}

/-- What an unlisted byte of memory reads as. -/
def emptyByte : Byte := 0

end Sys2Proof.Machine
end

