-- ==== Sys2Proof/Machine/Ops.lean ====
section
/-! DEFINITION. The named operations every meaning is built from: register fields, counters, output, the event record,
event bits, INTx wires and the VMF's flags. -/

namespace Sys2Proof.Machine

/-! ### Register fields -/

/-- The value of field f in instance i. -/
def Dev.get (d : Dev) (f : Fld) (i : Nat) : Nat := SMap.get (f.reset i) d.regs (f.key i)

/-- Field f of instance i takes value v, cut to its width. -/
def Dev.put (d : Dev) (f : Fld) (i v : Nat) : Dev :=
  { d with regs := SMap.set (f.reset i) d.regs (f.key i) (v % 2 ^ f.width) }

/-- Field f of instance i is 1. -/
def Dev.is (d : Dev) (f : Fld) (i : Nat) : Bool := d.get f i == 1

/-- A one-bit field takes a truth value. -/
def Dev.mark (d : Dev) (f : Fld) (i : Nat) (b : Bool) : Dev := d.put f i (bitVal b)

/-- Field f counts n more and stops at its largest value. -/
def Dev.bump (d : Dev) (f : Fld) (i n : Nat) : Dev := d.put f i (min (d.get f i + n) (2 ^ f.width - 1))

/-- A 64-bit quantity in two 32-bit fields, low word first (R8). -/
def Dev.get64 (d : Dev) (lo hi : Fld) (i : Nat) : Nat := d.get lo i + 2 ^ 32 * d.get hi i

/-- Two 32-bit fields take a 64-bit quantity (R8). -/
def Dev.put64 (d : Dev) (lo hi : Fld) (i v : Nat) : Dev := (d.put lo i (v % 2 ^ 32)).put hi i (v / 2 ^ 32)

/-- A field the manual writes as two's complement, as an integer. -/
def signedOf (width v : Nat) : Int := if 2 ^ (width - 1) ≤ v then (v : Int) - 2 ^ width else v

/-- The bits of an integer in two's complement. -/
def ofSigned (width : Nat) (x : Int) : Nat := (x % 2 ^ width).toNat

/-- The word of a register in instance i, from its stored fields. -/
def Dev.word (d : Dev) (r : Reg) (i : Nat) : Nat :=
  r.fields.foldl (fun n row => n + d.get ⟨r, row.lo, row.width⟩ i * 2 ^ row.lo) 0

/-! ### Choosing, sending, drawing -/

/-- f where b holds, else no change. -/
def Dev.when (d : Dev) (b : Bool) (f : Dev → Dev) : Dev := if b then f d else d

/-- f for every entry of a list, in order. -/
def Dev.forEach {α : Type} (d : Dev) (xs : List α) (f : Dev → α → Dev) : Dev := xs.foldl f d

/-- The module sends o. -/
def Dev.emit (d : Dev) (o : Out) : Dev := { d with out := d.out ++ [o] }

/-- The next free value, and the module after drawing it. -/
def Dev.draw (d : Dev) : Nat × Dev := (Config.freeValue d.drawn, { d with drawn := d.drawn + 1 })

/-! ### Time -/

/-- Ticks of 62.5 ps in n nanoseconds (R421). -/
def nsTicks (n : Nat) : Nat := n * 16

/-- Ticks in n microseconds. -/
def usTicks (n : Nat) : Nat := n * 16000

/-- Ticks in n milliseconds. -/
def msTicks (n : Nat) : Nat := n * 16000000

/-- Ticks from an earlier fabric time to a later one, modulo 2^64 (R421). -/
def sinceTicks (earlier later : Nat) : Nat := (later + 2 ^ 64 - earlier % 2 ^ 64) % 2 ^ 64

/-! ### Identity -/

/-- The module ID as assigned (RTE_MODULE_ID). -/
def Dev.moduleId (d : Dev) : Nat := d.get RTE_MODULE_ID.ID 0

/-- The FPID of a local port of this module. -/
def Dev.fpid (d : Dev) (p : Nat) : Nat := fpidOf d.moduleId p

/-- The local ID under which the Vitrine of a handle now runs on this module; a RESTORED copy only where there is no other. -/
def Dev.lvidOf (d : Dev) (gvh : Nat) : Option Nat :=
  let mine := d.vits.filter fun e => e.2.live && d.get VIT_STATE.GVH e.1 == gvh
  match mine.find? fun e => d.get VIT_STATE.STATE e.1 != 7 with
  | some e => some e.1
  | none => mine.head?.map (·.1)

/-- The Vitrine of a local ID beside its registers. -/
def Dev.vit (d : Dev) (lv : Nat) : Vit := SMap.get {} d.vits lv

/-- A Vitrine changes. -/
def Dev.setVit (d : Dev) (lv : Nat) (f : Vit → Vit) : Dev := { d with vits := SMap.modify {} d.vits lv f }

/-- The VMF of a local ID. -/
def Dev.vmf (d : Dev) (lv : Nat) : Vmf := SMap.get {} d.vmfs lv

/-- A VMF changes. -/
def Dev.setVmf (d : Dev) (lv : Nat) (f : Vmf → Vmf) : Dev := { d with vmfs := SMap.modify {} d.vmfs lv f }

/-- Virtual downstream port k of a local ID. -/
def Dev.vport (d : Dev) (lv k : Nat) : VPort := SMap.get {} d.vports (lv * 64 + k)

/-- A virtual downstream port changes. -/
def Dev.setVport (d : Dev) (lv k : Nat) (f : VPort → VPort) : Dev :=
  { d with vports := SMap.modify {} d.vports (lv * 64 + k) f }

/-- Endpoint e of local port p. -/
def Dev.endpoint (d : Dev) (p e : Nat) : Endpoint := SMap.get {} d.endpoints (p * 256 + e)

/-- An endpoint changes. -/
def Dev.setEndpoint (d : Dev) (p e : Nat) (f : Endpoint → Endpoint) : Dev :=
  { d with endpoints := SMap.modify {} d.endpoints (p * 256 + e) f }

/-- The endpoints known on local port p, by number. -/
def Dev.endpointsOf (d : Dev) (p : Nat) : List Nat :=
  (d.endpoints.filter fun e => e.1 / 256 == p && e.2.exists_).map fun e => e.1 % 256

/-- The port whose first lane is p is configured (R107). -/
def Dev.configured (d : Dev) (p : Nat) : Bool := d.get PRT_PORT_CFG.KIND p != 0

/-- Lanes of a width code (R107). -/
def widthLanes (code : Nat) : Nat := 2 ^ code

/-- The lanes of a configured port (R101). -/
def Dev.lanesOf (d : Dev) (p : Nat) : List Nat := (List.range (widthLanes (d.get PRT_PORT_CFG.WIDTH p))).map (p + ·)

/-- The configured port that holds lane n, if one does. -/
def Dev.portOfLane (d : Dev) (n : Nat) : Option Nat :=
  [0, 1, 2, 3, 4].findSome? fun w =>
    let p := n / 2 ^ w * 2 ^ w
    if d.configured p && n < p + widthLanes (d.get PRT_PORT_CFG.WIDTH p) then some p else none

/-- Local ports 447 and 511 are internal attachments (R198). -/
def internalPort (p : Nat) : Bool := p == 447 || p == 511

/-- A port that faces a host: PCIe upstream, or CXL with CXL_HOST (R100, R102). -/
def Dev.hostFacing (d : Dev) (p : Nat) : Bool :=
  d.get PRT_PORT_CFG.KIND p == 1 || (d.get PRT_PORT_CFG.KIND p == 3 && d.is PRT_PORT_CFG.CXL_HOST p)

/-- A port that faces a device (R100). -/
def Dev.deviceFacing (d : Dev) (p : Nat) : Bool :=
  d.get PRT_PORT_CFG.KIND p == 2 || (d.get PRT_PORT_CFG.KIND p == 3 && !d.is PRT_PORT_CFG.CXL_HOST p)

/-- A fabric-link port (R100). -/
def Dev.fabricPort (d : Dev) (p : Nat) : Bool := d.get PRT_PORT_CFG.KIND p == 4

/-- The port die of a lane or port (R20). -/
def dieOf (n : Nat) : Nat := if n < 448 then n / 112 else (n - 448) / 16

/-- The cage of a front lane (R20); a rear group counts on from 56. -/
def cageOf (n : Nat) : Nat := n / 8

/-! ### Counters -/

/-- Word index of counter e of a port's bank (R435). -/
def portCtr (p e : Nat) : Nat := p * 128 + e

/-- Word index of counter e of a Vitrine's bank (R435). -/
def vitCtr (lv e : Nat) : Nat := 65536 + lv * 64 + e

/-- Word index of counter e of a module bank, 1,536 to 1,543 (R435). -/
def modCtr (b e : Nat) : Nat := 131072 + (b - 1536) * 128 + e

/-- The module-wide condition of R438 holds. -/
def Dev.countingHeld (d : Dev) : Bool := d.is TEL_MODE.TEST 0 || d.is TEL_MODE.RECOVERY 0 || d.is TEL_MODE.STARTUP 0

/-- The bank of word w is in saturating mode (R438). -/
def Dev.saturating (d : Dev) (w : Nat) : Bool :=
  d.countingHeld ||
    (w < 65536 && d.configured (w / 128) && (d.lanesOf (w / 128)).any fun n => d.get LNA_LANE_STATE.STATE n == 10)

/-- An increment of n (R437). -/
def Ctr.add (c : Ctr) (sat : Bool) (n : Nat) : Ctr :=
  if sat then
    { c with value := min (c.value + n) (2 ^ 48 - 1), sat := c.sat || decide (2 ^ 48 - 1 < c.value + n) }
  else
    { c with value := (c.value + n) % 2 ^ 48, wrap := c.wrap || decide (2 ^ 48 ≤ c.value + n) }

/-- Counter w counts n (R437). -/
def Dev.count (d : Dev) (w n : Nat) : Dev :=
  { d with ctrs := SMap.modify {} d.ctrs w fun c => c.add (d.saturating w) n }

/-! ### INTx and the VMF's flags -/

/-- Wire x of the Vitrine is asserted by some contribution (R127). -/
def Vit.wire (v : Vit) (x : Nat) : Bool := v.intx.any fun c => c.2 == x

/-- A Vitrine whose host sees it: PRESENTED, RESETTING or a later state with its view kept. -/
def Dev.presented (d : Dev) (lv : Nat) : Bool :=
  let s := d.get VIT_STATE.STATE lv
  decide (2 ≤ s) && decide (s ≤ 6) || s == 8

/-- The contributions of a Vitrine become cs; each wire whose OR changes is sent to the host (R127). -/
def Dev.setIntx (d : Dev) (lv : Nat) (cs : List (Nat × Nat)) : Dev :=
  let v := d.vit lv
  let v' : Vit := { v with intx := cs }
  (d.setVit lv fun _ => v').forEach [0, 1, 2, 3] fun d x =>
    if v.wire x == v'.wire x then d
    else (d.emit (.intx (d.get VIT_PORT.UPORT lv) x (v'.wire x))).when (v'.wire x) (·.count (vitCtr lv 29) 1)

/-- One contribution is set or cleared (R126, R127). -/
def Dev.contribute (d : Dev) (lv source wire : Nat) (on : Bool) : Dev :=
  let rest := (d.vit lv).intx.filter fun c => !(c.1 == source && c.2 == wire)
  d.setIntx lv (if on then rest ++ [(source, wire)] else rest)

/-- The contributions of the sources that p names are cleared (R128). -/
def Dev.clearContributions (d : Dev) (lv : Nat) (p : Nat → Bool) : Dev :=
  d.setIntx lv ((d.vit lv).intx.filter fun c => !p c.1)

/-- Contribution source of function f of the endpoint at virtual downstream port k. -/
def intxOfEndpoint (k f : Nat) : Nat := k * 256 + f

/-- Contribution source of the VMF. -/
def intxOfVmf : Nat := 65536

/-- Contribution source of virtual downstream port k itself (R243). -/
def intxOfVport (k : Nat) : Nat := 65537 + k

/-- The VMF's event flags and masks as five bits (R386). -/
def Dev.vmfFlags (d : Dev) (lv : Nat) : List (Nat × Nat) :=
  [(d.get VMF_EVENT_FLAGS.EVENT lv, d.get VMF_EVENT_MASK.EVENT lv),
   (d.get VMF_EVENT_FLAGS.CONTAINED lv, d.get VMF_EVENT_MASK.CONTAINED lv),
   (d.get VMF_EVENT_FLAGS.CATALOGUE lv, d.get VMF_EVENT_MASK.CATALOGUE lv),
   (d.get VMF_EVENT_FLAGS.SPECIMEN lv, d.get VMF_EVENT_MASK.SPECIMEN lv),
   (d.get VMF_EVENT_FLAGS.CMD_LOST lv, d.get VMF_EVENT_MASK.CMD_LOST lv)]

/-- The VMF's INTA follows its flags, masks and Interrupt Disable (R386). -/
def Dev.vmfInta (d : Dev) (lv : Nat) : Dev :=
  let on := !(d.vmf lv).intDisable && (d.vmfFlags lv).any fun p => p.1 == 1 && p.2 == 1
  if d.is VMF_INTX.ASSERTED lv == on then d
  else
    let sent := !(d.vit lv).wire 0 && on
    ((d.mark VMF_INTX.ASSERTED lv on).when sent fun d => d.put VMF_INTX.SENT lv (d.get VMF_INTX.SENT lv + 1)).contribute
      lv intxOfVmf 0 on

/-- A flag of the VMF is set (R386). -/
def Dev.vmfFlag (d : Dev) (lv : Nat) (f : Fld) : Dev := (d.put f lv 1).vmfInta lv

/-! ### The event record -/

/-- Severity of a class (R265). -/
def severityOf (cls : Nat) : Nat :=
  match cls with
  | 0 => 1
  | 1 => 1
  | 2 => 2
  | 3 => 3
  | 4 => 3
  | 5 => 3
  | _ => 0

/-- A wake event is seen; one that arrives between ARM and the end of an entry waits to be replayed (R495, R498). -/
def Dev.noteWake (d : Dev) (bit : Nat) : Dev :=
  let seen := d.get PWR_WAKE.SOURCE 0
  let d := if bitOf seen bit then d else d.put PWR_WAKE.SOURCE 0 (seen + 2 ^ bit)
  if d.is PWR_MODE.ARM 0 || d.is PWR_PS_STATUS.ENTERING 0 then
    Dev.mark { d with latched := if bitOf d.latched bit then d.latched else d.latched + 2 ^ bit } PWR_WAKE.REPLAY_PENDING 0 true
  else d

/-- A Vitrine's state changes; one created, or leaving PRESENTED, is a wake event (R249, R495). -/
def Dev.setVitState (d : Dev) (lv st : Nat) : Dev :=
  let old := d.get VIT_STATE.STATE lv
  (d.put VIT_STATE.STATE lv st).when (old != st && (old == 2 || old == 0)) (·.noteWake 2)

/-- A numbered record goes into the event log ring (R280). -/
def Dev.ringWrite (d : Dev) (r : EvRec) : Dev :=
  let n := d.get SLC_LOG_HEAD.NEXT 0
  let d := { d with ring := SMap.set {} d.ring n r }
  if n + 1 = 16777216 then
    (d.put SLC_LOG_HEAD.NEXT 0 0).put SLC_LOG_WRAPS.WRAPS 0 (d.get SLC_LOG_WRAPS.WRAPS 0 + 1)
  else d.put SLC_LOG_HEAD.NEXT 0 (n + 1)

/-- ESEQ of the next record (R278). -/
def Dev.nextEseq (d : Dev) : Nat := d.get64 SLC_ESEQ_LO.ESEQ SLC_ESEQ_HI.ESEQ 0

/-- The record takes the next ESEQ (R278). -/
def Dev.number (d : Dev) (r : EvRec) : EvRec × Dev :=
  ({ r with eseq := some d.nextEseq }, d.put64 SLC_ESEQ_LO.ESEQ SLC_ESEQ_HI.ESEQ 0 (d.nextEseq + 1))

/-- A record is numbered, once the boot count is, and kept in the ring or in the staging buffer (R278, R280). -/
def Dev.keep (d : Dev) (r : EvRec) : Dev :=
  if d.is SLC_LOG_HEAD.STAGING 0 then
    if 4096 ≤ d.staging.length then { d with overrun := d.overrun + 1 }
    else if d.booted then
      let n := d.number r
      { n.2 with staging := n.2.staging ++ [n.1] }
    else { d with staging := d.staging ++ [r] }
  else
    let n := d.number r
    n.2.ringWrite n.1

/-- The record of a cause e under a code (R277, R529). -/
def Dev.recordOf (d : Dev) (code : Nat) (e : Ev) : EvRec :=
  { ftime := d.now
    modul := if d.is RTE_MODULE_ID.ASSIGNED 0 then d.moduleId else 0x8000
    code := code
    cls := e.cls
    flags := severityOf e.cls + 4 * bitVal e.contained + 8 * bitVal e.summary + 16 * bitVal (e.injected || d.injecting) +
      32 * d.get TIM_STATE.STATE 0
    die := e.die
    port := e.port
    gvh := e.gvh
    object := e.object
    count := e.count
    addr := e.addr
    detail := e.detail }

/-- The Management USB Device, suspended with remote wakeup enabled, has a wake pending (R320). -/
def Dev.wakePending (d : Dev) : Dev :=
  d.when (d.get USH_MUD_STATUS.LINK 0 == 4 && d.mud.remoteWakeup) (·.put USH_MUD_STATUS.WAKE_PENDING 0 1)

/-- The items of the status display strip, in their turn (R513): a class 5 condition first. -/
def Dev.stripItems (d : Dev) : List StripItem :=
  let progress : StripItem := match d.haltedBy with
    | some (n, cause) => .halt n cause
    | none => if d.is CUR_START_STATUS.READY 0 then .ready else .step (d.get CUR_START_STATUS.STEP 0)
  d.conditions.map (fun (c : Nat × Nat) => StripItem.amber c.1 c.2) ++
    [.moduleId d.moduleId, .power (d.get PWR_PS_STATUS.STATE 0), progress]

/-- What the strip shows: each item for 2 s, nothing without the main rails (R513). -/
def Dev.strip (d : Dev) : Option StripItem :=
  if d.supply = .on then d.stripItems[d.now / msTicks 2000 % d.stripItems.length]? else none

/-- ALERT_N is low for 100 ms from each class 5 record, and throughout a thermal trip (R463, R521). -/
def Dev.alertN (d : Dev) : Bool := !d.tripped && decide (d.alertUntil ≤ d.now)

/-- READY is high while the module is ready and not in DORMANT (R479, R521). -/
def Dev.readyPin (d : Dev) : Bool := d.is CUR_START_STATUS.READY 0 && decide (d.supply = .on)

/-- A class 5 record on the panel (R513, R521): ALERT_N falls, and a condition that lasts joins the strip; a failover (0x1083) and a memory error
(0x1583) are over when they are recorded (DESIGN CHOICE, log entry 108). -/
def Dev.showCondition (d : Dev) (code object : Nat) : Dev :=
  let d := { d with alertUntil := d.now + msTicks 100 }
  if code = 0x1083 ∨ code = 0x1583 ∨ d.conditions.contains (code, object) then d
  else
    let d := { d with conditions := d.conditions ++ [(code, object)] }
    d.emit (.strip d.strip)

/-- The ESEQ of the next record; none while records wait for the boot count, or are lost to a full staging buffer (R278). -/
def Dev.eseqOf (d : Dev) : Option Nat :=
  if d.is SLC_LOG_HEAD.STAGING 0 && (!d.booted || decide (4096 ≤ d.staging.length)) then none else some d.nextEseq

/-- The line of UART_TX for a record of class 3, 4 or 5, and for MODULE_READY (R523). -/
def Dev.uartRecord (d : Dev) (code cls : Nat) : Dev :=
  d.when (code == 0x1085 || (decide (3 ≤ cls) && decide (cls ≤ 5))) (·.emit (.uart d.eseqOf d.now (.recorded code)))

/-- A record is kept, sent to the panel and UART_TX, shown to its Vitrine, and wakes the hub's stream and the Curator (R513, R523). -/
def Dev.record (d : Dev) (code : Nat) (e : Ev) : Dev :=
  let d := (d.uartRecord code e.cls).keep (d.recordOf code e)
  let d := match d.lvidOf e.gvh with
    | some lv => d.vmfFlag lv VMF_EVENT_FLAGS.EVENT
    | none => d
  let d := d.when (e.cls == 5) (·.showCondition code e.object)
  d.when (decide (3 ≤ e.cls) && decide (e.cls ≤ 5)) fun d => (d.noteWake 6).wakePending

/-- A record is written at most once in `gap` ticks per source, with the events since the one before (R182, R190, R201). -/
def Dev.recordLimited (d : Dev) (source gap code : Nat) (e : Ev) : Dev :=
  let l := SMap.get {} d.limited source
  let due := match l.last with
    | some t => decide (gap ≤ sinceTicks t d.now)
    | none => true
  if due then
    ({ d with limited := SMap.set {} d.limited source { last := some d.now } }).record code
      { e with count := l.held + e.count }
  else { d with limited := SMap.set {} d.limited source { l with held := l.held + e.count } }

/-- A class 0 event is counted at its source, for the source's summary (R529). -/
def Dev.mask (d : Dev) (subsystem port object n addr : Nat) : Dev :=
  let same (m : Masked) : Bool := m.subsystem == subsystem && m.port == port && m.object == object
  let before := match d.masked.find? same with
    | some m => m.count
    | none => 0
  { d with masked := (d.masked.filter fun m => !same m) ++ [⟨subsystem, port, object, before + n, addr⟩] }

/-- The tunnel-hub die is lost, until the module starts again: its engines, tunnels, PD controllers and Service Hub stay stopped (R29). -/
def Dev.hubLost (d : Dev) : Bool := d.lostDies.contains 5

end Sys2Proof.Machine
end

