-- ==== Sys2Proof/Machine/Flags.lean ====
section
/-! DEFINITION. Event bits and the codes of their records (R279), and the records about register accesses. -/

namespace Sys2Proof.Machine

/-- Subsystem of an _EVENTS register and its place among the subsystem's (R279): 256 × subsystem + 32 × n. -/
def eventBase (r : Reg) : Nat :=
  match r with
  | .LNA_EVENTS => 0x0100
  | .PRT_EVENTS => 0x0200
  | .FLL_EVENTS => 0x0300
  | .EBR_EVENTS => 0x0400
  | .BSN_EVENTS => 0x0500
  | .RTE_EVENTS => 0x0600
  | .WR_EVENTS => 0x0700
  | .WR_PORT_EVENTS => 0x0720
  | .VIT_EVENTS => 0x0800
  | .TUN_PORT_EVENTS => 0x0B00
  | .USH_EVENTS => 0x0C00
  | .PD_EVENTS => 0x0D00
  | .PWR_EVENTS => 0x0E00
  | .EF_EVENTS => 0x0F00
  | .DOC_EVENTS => 0x1100
  | .TIM_EVENTS => 0x1300
  | .TEL_EVENTS => 0x1400
  | .HLT_EVENTS => 0x1500
  | _ => 0

/-- Code of the record written because event bit f was set (R279). -/
def eventCode (f : Fld) : Nat := eventBase f.reg + f.lo

/-- Event bit f is set and its record written. -/
def Dev.raise (d : Dev) (f : Fld) (i : Nat) (e : Ev) : Dev := (d.put f i 1).record (eventCode f) e

/-- Event bit f is set, with at most one record per source in each millisecond (R182, R190, R201, R234, R237). -/
def Dev.raiseLimited (d : Dev) (f : Fld) (i object : Nat) (e : Ev) : Dev :=
  (d.put f i 1).recordLimited (eventCode f + 65536 * object) (msTicks 1) (eventCode f) e

/-- A record whose cause the manual gives no code, under a subsystem (log entry 4). -/
def Dev.recordUncoded (d : Dev) (subsystem : Nat) (u : UncodedRecord) (e : Ev) : Dev :=
  d.record (subsystem * 256 + Config.recordCode u % 256) e

/-- Start addresses of the register blocks with the subsystem each names (R279), from the highest. -/
def subsystemBlocks : List (Nat × Nat) :=
  [(0x80A800000, 0x15), (0x80A000000, 0x14), (0x809800000, 0x13), (0x809000000, 0x11), (0x808800000, 0x16),
   (0x808000000, 0x10), (0x807080000, 0x0F), (0x807000000, 0x0E), (0x806800000, 0x0D), (0x806000000, 0x0C),
   (0x805800000, 0x0B), (0x805000000, 0x0A), (0x804800000, 0x09), (0x804000000, 0x08), (0x803800000, 0x07),
   (0x803000000, 0x06), (0x802800000, 0x05), (0x802040000, 0x04), (0x802000000, 0x03), (0x801800000, 0x02),
   (0x801000000, 0x01)]

/-- Subsystem a record about an access to a device-register address names (R279). -/
def subsystemAt (addr : Nat) : Nat :=
  match subsystemBlocks.find? fun b => decide (b.1 ≤ addr) with
  | some b => b.2
  | none => 0x0A

/-- A record about an access to an address by a master: REG_ACCESS_BAD 0x70, LOCKED_WRITE 0x71, WRITE_NOT_PERMITTED 0x72,
VALUE_REFUSED 0x73 (R8, R10, R37, R279). -/
def Dev.accessRecord (d : Dev) (subsystem what master addr : Nat) : Dev :=
  d.record (subsystem * 256 + what) { object := master, addr := addr }

/-! ### Injected faults -/

/-- A point is armed for a target (R281). -/
def Dev.armedFor (d : Dev) (point target : Nat) : Bool := d.injections.any fun i => i.point == point && i.target == target

/-- A condition of R438 changes, with its record. -/
def Dev.setTel (d : Dev) (f : Fld) (on : Bool) : Dev :=
  if d.is f 0 == on then d else ((d.mark f 0 on).count (modCtr 1543 6) 1).record 0x1481 {}

/-- SLC_INJ_ARMED shows the armed points, and the test condition follows it (R282, R438). -/
def Dev.showArmed (d : Dev) : Dev :=
  (d.put SLC_INJ_ARMED.ARMED 0 (d.injections.foldl (fun n i => n + 2 ^ i.point) 0)).setTel TEL_MODE.TEST (!d.injections.isEmpty)

/-- One use of the armed injection at a point; the last disarms it (R281). -/
def Dev.consume (d : Dev) (point : Nat) : Dev :=
  let used := d.injections.map fun i => if i.point = point then { i with count := i.count - 1 } else i
  ({ d with injections := used.filter fun i => decide (i.count ≠ 0) }).showArmed

/-- f, with INJECTED in the records it writes where the point is armed for the target (R281). -/
def Dev.underInjection (d : Dev) (point target : Nat) (f : Dev → Dev) : Dev :=
  if d.armedFor point target then
    Dev.consume { f { d with injecting := true } with injecting := d.injecting } point
  else f d

end Sys2Proof.Machine
end

