-- ==== Sys2Proof/Machine/Codec.lean ====
section
/-! DEFINITION. The checks of the manual over bytes: CRC-32 (R43, R277, R447), CRC-32C (R205), the flit's CRC-64 (R72) and
its Reed–Solomon FEC (R73). -/

namespace Sys2Proof.Machine

/-- n steps of f. -/
def iter {α : Type} (n : Nat) (f : α → α) (x : α) : α :=
  match n with
  | 0 => x
  | k + 1 => iter k f (f x)

/-- A reflected CRC register after one more byte, with the polynomial's bits reversed. -/
def crcReflStep (poly : Nat) (crc : Nat) (b : Byte) : Nat :=
  iter 8 (fun c => if c % 2 = 1 then (c / 2) ^^^ poly else c / 2) (crc ^^^ b.toNat)

/-- CRC-32 with the polynomial 0x04C1_1DB7 as IEEE 802.3 computes it: reflected, all ones before and inverted after
(R43). -/
def crc32 (bs : List Byte) : Nat := (bs.foldl (crcReflStep 0xEDB88320) 0xFFFFFFFF) ^^^ 0xFFFFFFFF

/-- CRC-32C with the polynomial 0x1EDC_6F41, all ones before and not inverted after (R205); reflected as CRC-32C is
(DEDUCED, log entry 6). -/
def crc32c (bs : List Byte) : Nat := bs.foldl (crcReflStep 0x82F63B78) 0xFFFFFFFF

/-- The CRC-64 register after one more byte, most significant bit first (R72). -/
def crc64Step (crc : Nat) (b : Byte) : Nat :=
  iter 8 (fun c => if 2 ^ 63 ≤ c then ((c * 2) % 2 ^ 64) ^^^ 0x42F0E1EBA9EA3693 else c * 2) (crc ^^^ (b.toNat * 2 ^ 56))

/-- The flit's CRC: all ones before, inverted after (R72). -/
def crc64 (bs : List Byte) : Nat := (bs.foldl crc64Step (2 ^ 64 - 1)) ^^^ (2 ^ 64 - 1)

/-- The number that bytes spell most significant byte first (R67). -/
def ofBeBytes (bs : List Byte) : Nat := bs.foldl (fun n b => n * 256 + b.toNat) 0

/-- The n low bytes of a number, most significant first (R67). -/
def beBytes (n v : Nat) : List Byte := (leBytes n v).reverse

/-! ### GF(2^8) with x^8 + x^4 + x^3 + x^2 + 1, α = 2 (R73) -/

/-- Product by α. -/
def gfDouble (a : Nat) : Nat := if 128 ≤ a then ((a * 2) % 256) ^^^ 0x1D else a * 2

/-- Product, bit by bit. -/
def gfMul (a b : Nat) : Nat :=
  (List.range 8).foldl (fun acc i => if bitOf b i then acc ^^^ iter i gfDouble a else acc) 0

/-- α to the n. -/
def gfExp (n : Nat) : Nat := iter (n % 255) gfDouble 1

/-- The exponent of a non-zero element. -/
def gfLog (a : Nat) : Nat :=
  ((List.range 255).foldl (fun (acc : Nat × Option Nat) i =>
    (gfDouble acc.1, if acc.2.isNone && acc.1 == a then some i else acc.2)) (1, none)).2.getD 0

/-- Quotient by a non-zero element. -/
def gfDiv (a b : Nat) : Nat := if a = 0 then 0 else gfExp (gfLog a + 255 - gfLog b)

/-- Syndrome j of a code word, its highest-degree symbol first. -/
def syndrome (w : List Nat) (j : Nat) : Nat := w.foldl (fun acc c => gfMul acc (gfExp j) ^^^ c) 0

/-- A list with entry i combined with e. -/
def xorAt (w : List Nat) (i e : Nat) : List Nat := w.set i ((w.getD i 0) ^^^ e)

/-- A code word of length n corrected of up to two symbol errors, with how many there were; none when it cannot be
corrected (R73). -/
def rsCorrect (w : List Nat) : Option (List Nat × Nat) :=
  let n := w.length
  let s0 := syndrome w 0
  let s1 := syndrome w 1
  let s2 := syndrome w 2
  let s3 := syndrome w 3
  if s0 = 0 ∧ s1 = 0 ∧ s2 = 0 ∧ s3 = 0 then some (w, 0)
  else
    let det := gfMul s1 s1 ^^^ gfMul s0 s2
    if det = 0 then
      if s0 = 0 ∨ s1 = 0 then none
      else
        let p := gfLog (gfDiv s1 s0)
        if p < n ∧ gfMul s1 (gfExp p) = s2 ∧ gfMul s2 (gfExp p) = s3 then some (xorAt w (n - 1 - p) s0, 1) else none
    else
      let l1 := gfDiv (gfMul s0 s3 ^^^ gfMul s1 s2) det
      let l2 := gfDiv (gfMul s1 s3 ^^^ gfMul s2 s2) det
      let roots := (List.range n).filter fun p =>
        gfMul (gfExp p) (gfExp p) ^^^ gfMul l1 (gfExp p) ^^^ l2 = 0
      match roots with
      | [p, q] =>
        let e := gfDiv (s1 ^^^ gfMul s0 (gfExp q)) (gfExp p ^^^ gfExp q)
        some (xorAt (xorAt w (n - 1 - p) e) (n - 1 - q) (s0 ^^^ e), 2)
      | _ => none

/-- The symbols of code c of a flit, flit byte i belonging to code i mod 3 (R73). -/
def flitCode (bs : List Byte) (c : Nat) : List Nat :=
  ((List.range 256).filter fun i => i % 3 == c).map fun i => (bs.getD i 0).toNat

/-- The 256 bytes of a flit after FEC decoding, with the symbols corrected; none when a code cannot be corrected (R74). -/
def fecDecode (bs : List Byte) : Option (List Byte × Nat) :=
  match rsCorrect (flitCode bs 0), rsCorrect (flitCode bs 1), rsCorrect (flitCode bs 2) with
  | some (a, na), some (b, nb), some (c, nc) =>
    some ((List.range 256).map fun i =>
      BitVec.ofNat 8 ((if i % 3 = 0 then a else if i % 3 = 1 then b else c).getD (i / 3) 0), na + nb + nc)
  | _, _, _ => none

/-- The corrected bytes pass the CRC kept in bytes 236 to 243 (R72, R74). -/
def flitCrcOk (bs : List Byte) : Bool := crc64 (bs.take 236) == ofBeBytes ((bs.drop 236).take 8)

end Sys2Proof.Machine
end

