-- ==== Sys2Proof/Machine/Memory.lean ====
section
/-! DEFINITION. Memory by Docent physical address (R31, R402): boot SRAM and LPDDR4X, as cells in canonical form. -/

namespace Sys2Proof.Machine

/-- Where LPDDR4X starts in the Docent address map (R31). -/
def ddrBase : Nat := 0x1000000000

/-- The LPDDR4X regions: offset and size (R31). -/
def regionDirectory : Nat × Nat := (0x080000000, 0x040000000)
def regionComposition : Nat × Nat := (0x0C0000000, 0x080000000)
def regionEventLog : Nat × Nat := (0x140000000, 0x040000000)
def regionCatalogue : Nat × Nat := (0x180000000, 0x040000000)
def regionSpecimen : Nat × Nat := (0x1C0000000, 0x100000000)
def regionConsole : Nat × Nat := (0x2C0000000, 0x100000000)
def regionSave : Nat × Nat := (0x3C0000000, 0x200000000)
def regionDocent : Nat × Nat := (0x5C0000000, 0x840000000)

/-- A byte range of n bytes at an LPDDR4X offset lies in a region. -/
def inRegion (r : Nat × Nat) (off n : Nat) : Bool := decide (r.1 ≤ off) && decide (off + n ≤ r.1 + r.2)

/-- The byte of a cell at an address. -/
def readByte (m : List Host.Cell) (a : Nat) : Byte := SMap.get emptyByte m a

/-- The byte at an address becomes b. -/
def writeByte (m : List Host.Cell) (a : Nat) (b : Byte) : List Host.Cell := SMap.set emptyByte m a b

/-- The n bytes of the cells from an address on. -/
def readBytes (m : List Host.Cell) (a n : Nat) : List Byte := (List.range n).map fun i => readByte m (a + i)

/-- Bytes written from an address on. -/
def writeBytes (m : List Host.Cell) (a : Nat) (bs : List Byte) : List Host.Cell :=
  match bs with
  | [] => m
  | b :: r => writeBytes (writeByte m a b) (a + 1) r

/-- The canonical form: addresses strictly rising, no entry of the byte an unlisted address reads as. -/
def Memory.wf (m : List Host.Cell) : Bool := SMap.wf emptyByte m

/-- Each core's reservation on a 64-byte granule of the n bytes from an address on is lost, but for core `own`'s (R415). -/
def Dev.loseReservations (d : Dev) (own : Option Nat) (a n : Nat) : Dev :=
  d.forEach (List.range 16) fun d k =>
    match (SMap.get {} d.cores k).reserved with
    | some g =>
      if own ≠ some k ∧ a / 64 ≤ g ∧ g ≤ (a + n - 1) / 64 then
        { d with cores := SMap.modify {} d.cores k fun c => { c with reserved := none } }
      else d
    | none => d

/-- Bytes stored from an address on by Docent `own`, or by another master (R415). -/
def State.store (s : State) (own : Option Nat) (a : Nat) (bs : List Byte) : State :=
  { s with mem := writeBytes s.mem a bs, dev := s.dev.loseReservations own a bs.length }

/-! ### What the Sluice's and the Vitrines' regions hold (R31) -/

/-- The 64 bytes of a record (R277). -/
def EvRec.bytes (r : EvRec) : List Byte :=
  let body := leBytes 8 (r.eseq.getD 0) ++ leBytes 8 r.ftime ++ leBytes 2 r.modul ++ leBytes 2 r.code ++ leBytes 1 r.cls ++
    leBytes 1 r.flags ++ leBytes 1 r.die ++ [0] ++ leBytes 4 r.port ++ leBytes 4 r.gvh ++ leBytes 4 r.object ++
    leBytes 4 r.count ++ leBytes 8 r.addr ++ (r.detail ++ List.replicate 12 0).take 12
  body ++ leBytes 4 (crc32 body)

/-- A counter word (R436). -/
def counterWord (value : Nat) (wrap sat mode : Bool) : Nat :=
  value + 2 ^ 48 * bitVal wrap + 2 ^ 49 * bitVal sat + 2 ^ 50 * bitVal mode

/-- The 32 bytes of a translation entry (R215). -/
def attBytes (a : Att) : List Byte :=
  leBytes 4 (2 ^ 31 * bitVal a.valid + 2 ^ 16 * (a.sizeLog2 % 64) + a.lvid % 1024) ++ leBytes 4 (a.fpid % 2 ^ 22) ++ leBytes 8 a.host ++
    leBytes 8 a.ep ++ leBytes 8 0

/-- The header of a save image before its CRC (R260). -/
def imageHeader (x : Image) : List Byte :=
  leBytes 4 0x54564E59 ++ leBytes 2 1 ++ leBytes 1 x.nvdp ++ leBytes 1 0 ++ leBytes 4 0x4E200 ++ leBytes 4 x.gvh ++ leBytes 2 x.srcModule ++
    leBytes 2 x.srcLvid ++ leBytes 8 x.tcut1 ++ leBytes 8 x.savedAt

/-- A byte of a save image but for its CRC (R260): the sections whose inner layout the manual does not give are free (log entry 18). -/
def imageRawByte (x : Image) (off : Nat) : Byte :=
  if off < 0x100 then (imageHeader x).getD off 0
  else if 0x45000 ≤ off ∧ off < 0x4D000 then
    match (x.bindings.flatMap (·.atts))[(off - 0x45000) / 32]? with
    | some a => (attBytes a).getD ((off - 0x45000) % 32) 0
    | none => 0
  else if 0x4E000 ≤ off then
    match x.counters.find? fun c => c.1 == (off - 0x4E000) / 8 with
    | some c => (leBytes 8 (counterWord c.2.1 c.2.2.1 c.2.2.2 false)).getD ((off - 0x4E000) % 8) 0
    | none => 0
  else if 0x300 ≤ off ∧ off < 0x1000 then 0
  else Config.imageByte x off

/-- CRC of a save image: over its bytes 0x00 to 0xFB and from 0x100 on (R260). -/
def imageCrc (x : Image) : Nat :=
  crc32 (((List.range 0xFC) ++ (List.range (0x4E200 - 0x100)).map (0x100 + ·)).map (imageRawByte x))

/-- A byte of a save image (R260); of one hit by a memory error the CRC, which then fails, is free (R462). -/
def imageByte (x : Image) (off : Nat) : Byte :=
  if 0xFC ≤ off ∧ off < 0x100 then if x.valid then (leBytes 4 (imageCrc x)).getD (off - 0xFC) 0 else Config.imageByte x off
  else imageRawByte x off

/-- The byte at an address as a master reads it: the Event log region holds the ring of records and the Save-image region the images (R31,
R260, R280), every other place its cell. -/
def State.byteAt (s : State) (a : Nat) : Byte :=
  let off := a - ddrBase
  if a < ddrBase then readByte s.mem a
  else if inRegion regionEventLog off 1 then
    match SMap.find s.dev.ring ((off - regionEventLog.1) / 64) with
    | some r => r.bytes.getD (off % 64) 0
    | none => readByte s.mem a
  else if inRegion regionSave off 1 then
    match SMap.find s.dev.saves ((off - regionSave.1) / 0x800000) with
    | some x => if off % 0x800000 < 0x4E200 then imageByte x (off % 0x800000) else readByte s.mem a
    | none => readByte s.mem a
  else readByte s.mem a

/-- The n bytes from an address on, as a master reads them. -/
def State.bytesAt (s : State) (a n : Nat) : List Byte := (List.range n).map fun i => s.byteAt (a + i)

/-- The state changes in its registers and structures only, whatever is powered. -/
def onSupply (s : State) (f : Dev → Dev) : Host.Outcome State Fault Refusal := .next { s with dev := f s.dev }

/-- A module whose rails are down does nothing (R347, R502). -/
def powered (s t : State) : State := if s.dev.supply = .on then t else s

/-- The state changes in its registers and structures only. -/
def onDev (s : State) (f : Dev → Dev) : Host.Outcome State Fault Refusal := .next (powered s { s with dev := f s.dev })

/-- The state changes as f says. -/
def onState (s : State) (f : State → State) : Host.Outcome State Fault Refusal := .next (powered s (f s))

end Sys2Proof.Machine
end

