-- ==== Sys2Proof/Machine/Descriptors.lean ====
section
/-! DEFINITION. What every command of the Curator command protocol shares: roles, the module that carries it out, its entry
in the command table and its final status (R361 to R375, R381). -/

namespace Sys2Proof.Machine

namespace Status

/-- Status codes (R381). -/
def ok : Nat := 0x0000
def accepted : Nat := 0x0001
def pending : Nat := 0x0002
def cancelled : Nat := 0x0003
def badOpcode : Nat := 0x0010
def badLength : Nat := 0x0011
def badParam : Nat := 0x0012
def notPermitted : Nat := 0x0013
def busy : Nat := 0x0014
def noObject : Nat := 0x0015
def remoteTimeout : Nat := 0x0016
def aborted : Nat := 0x0017
def bmeAborted : Nat := 0x0018
def badState : Nat := 0x0201
def poolExhausted : Nat := 0x0202
def reserveLimit : Nat := 0x0203
def idReserved : Nat := 0x0204
def notAccessed : Nat := 0x0205
def endpointBound : Nat := 0x0206
def portOccupied : Nat := 0x0207
def windowRefused : Nat := 0x0208
def channelsShort : Nat := 0x0209
def cutTooSoon : Nat := 0x0301
def freezeTimeout : Nat := 0x0302
def imageBad : Nat := 0x0303
def thawAborted : Nat := 0x0304
def repinAborted : Nat := 0x0305
def listInvalid : Nat := 0x0401
def ageConflict : Nat := 0x0402
def notOwned : Nat := 0x0403
def internalPort : Nat := 0x0404
def lanesActive : Nat := 0x0501
def overlap : Nat := 0x0502
def badLayout : Nat := 0x0503
def tableInvalid : Nat := 0x0504
def scanRefused : Nat := 0x0505
def scanAborted : Nat := 0x0506
def laneState : Nat := 0x0507
def windowsExist : Nat := 0x0508
def budgetExceeded : Nat := 0x0601
def limitExceeded : Nat := 0x0602
def latched : Nat := 0x0603
def damaged : Nat := 0x0604
def splitInvalid : Nat := 0x0605
def swapHold : Nat := 0x0606
def refusedState : Nat := 0x0607
def badDest : Nat := 0x0701
def ringTooLarge : Nat := 0x0702
def notContained : Nat := 0x0801
def noticePending : Nat := 0x0802
def staleEseq : Nat := 0x0803
def releaseFailed : Nat := 0x0804
def pointArmed : Nat := 0x0805
def sourceAbsent : Nat := 0x0901
def timeOutOfRange : Nat := 0x0902
def scheduleFull : Nat := 0x0903
def tunnelInUse : Nat := 0x0A01
def notHostRouter : Nat := 0x0A02
def notCandidate : Nat := 0x0A03
def noImage : Nat := 0x0B01
def signatureBad : Nat := 0x0B02
def flashFailed : Nat := 0x0B03
def imageNotChecked : Nat := 0x0B04

end Status

/-- Role codes of ROLE (R361): 0 Curator, 1 fabric manager, 2 module owner, 3 tenant, 4 service, 5 none. -/
def docentRole (nibble : Nat) : Nat := if nibble == 1 || nibble == 2 || nibble == 4 then nibble else 5

/-- The role of a master (R362, R367). -/
def Dev.roleOf (d : Dev) (h : CmdHdr) : Nat :=
  match h.forwarded with
  | some r => r
  | none =>
    if h.caller ≤ 1 then 0
    else if 0x010 ≤ h.caller ∧ h.caller ≤ 0x017 then
      docentRole (d.get CUR_DOC_ROLE_LO.ROLE 0 / 16 ^ (h.caller - 0x010) % 16)
    else if 0x018 ≤ h.caller ∧ h.caller ≤ 0x01F then
      docentRole (d.get CUR_DOC_ROLE_HI.ROLE 0 / 16 ^ (h.caller - 0x018) % 16)
    else if h.caller = 0x020 then 4
    else if h.caller = 0x021 then
      if h.agentRole = 3 then 4 else if h.agentRole = 0 ∨ 4 < h.agentRole then 5 else h.agentRole
    else if 0x400 ≤ h.caller ∧ h.caller ≤ 0x7FF then 3
    else 5

/-- The local ID of the tenant that calls, if a tenant does (R367). -/
def tenantOf (h : CmdHdr) : Option Nat :=
  if 0x400 ≤ h.caller ∧ h.caller ≤ 0x7FF then some (h.caller - 0x400) else none

/-- The entry a header names. -/
def Cmd.matches (h : CmdHdr) (c : Cmd) : Bool := c.addr == h.addr && c.caller == h.caller

/-- A new entry for a command (R361). -/
def Dev.newCmd (d : Dev) (h : CmdHdr) (opcode : Nat) : Cmd :=
  { addr := h.addr, caller := h.caller, role := d.roleOf h, tag := h.tag, opcode := opcode, notify := h.notify,
    detach := h.detach, since := d.now, heard := d.now }

/-- The entry of a header in the table, or a new one. -/
def Dev.cmdOf (d : Dev) (h : CmdHdr) (opcode : Nat) : Cmd :=
  match d.cmds.find? (Cmd.matches h) with
  | some c => { c with opcode := opcode }
  | none => d.newCmd h opcode

/-- The entry of a header becomes c; a new entry goes last. -/
def Dev.setCmd (d : Dev) (h : CmdHdr) (c : Cmd) : Dev :=
  { d with cmds := (d.cmds.filter fun e => !Cmd.matches h e) ++ [c] }

/-- The command ends with a status, DETAIL and response; `COMMAND_DONE` writes them (R363, R381). -/
def Dev.finish (d : Dev) (h : CmdHdr) (opcode status : Nat) (detail : Nat := 0) (resp : List (Nat × Nat × Nat) := [])
    (gvh : Nat := 0xFFFFFFFF) : Dev :=
  d.setCmd h { d.cmdOf h opcode with
    status := status, detail := detail, resp := resp, gvh := gvh, wait := .nothing,
    accepted := (d.cmdOf h opcode).accepted || (h.detach && status == Status.ok) }

/-- The command goes on and stays PENDING until what it waits for (R364, R377). -/
def Dev.waitFor (d : Dev) (h : CmdHdr) (opcode : Nat) (w : Wait) (gvh : Nat := 0xFFFFFFFF) : Dev :=
  d.setCmd h { d.cmdOf h opcode with
    status := Status.pending, wait := w, gvh := gvh, accepted := h.detach, journaled := true }

/-- Every command that waits for w ends with a status, DETAIL and response. -/
def Dev.endWaiting (d : Dev) (w : Wait) (status : Nat) (detail : Nat := 0) (resp : List (Nat × Nat × Nat) := []) : Dev :=
  { d with cmds := d.cmds.map fun c =>
      if c.wait = w then { c with wait := .nothing, status := status, detail := detail, resp := resp } else c }

/-- BAD_PARAM with the offset of the field, counted from 0x18 (R365). -/
def Dev.badParam (d : Dev) (h : CmdHdr) (opcode offset : Nat) : Dev := d.finish h opcode Status.badParam offset

/-- A non-zero reserved parameter byte is reported unless a field before it is wrong (R365). -/
def Dev.checkStray (d : Dev) (h : CmdHdr) (opcode : Nat) (body : Dev → Dev) : Dev :=
  match (d.cmdOf h opcode).stray with
  | none => body d
  | some r =>
    let c := (body d).cmdOf h opcode
    if c.status = Status.badParam ∧ (c.detail ≤ r ∨ 2 ^ 31 ≤ c.detail) then body d else d.badParam h opcode r

/-- An earlier command that has not ended holds an object that p picks (R370). -/
def Dev.objectHeld (d : Dev) (h : CmdHdr) (p : Wait → Bool) : Bool :=
  d.cmds.any fun c => !Cmd.matches h c && p c.wait

/-- A command that has changed composition: of the composition and migration families, or on the queues of a Vitrine (R372). -/
def Cmd.composes (c : Cmd) : Bool := c.status == Status.ok && (c.opcode / 256 == 2 || c.opcode / 256 == 3 || c.onVitrine)

/-- An earlier command on a Vitrine has changed composition and has no final status yet, since the Registrar is recording it (R370, R372); a
destroy waits behind no FREEZE, RESTORE or THAW (R371), and what reads only behind none. -/
def Dev.recording (d : Dev) (h : CmdHdr) (opcode gvh : Nat) : Bool :=
  opcode / 256 != 1 && gvh != 0xFFFFFFFF &&
    d.cmds.any fun c => !Cmd.matches h c && c.gvh == gvh && c.composes &&
      !(opcode == 0x0202 && [0x0301, 0x0303, 0x0304].contains c.opcode)

/-- body, or the command waits for an object an earlier one holds: its row runs again once that has ended (R370, log entry
20). -/
def Dev.orWait (d : Dev) (h : CmdHdr) (opcode : Nat) (p : Wait → Bool) (gvh : Nat) (body : Dev → Dev) : Dev :=
  if d.objectHeld h p || d.recording h opcode gvh then
    d.setCmd h { d.cmdOf h opcode with status := Status.pending, wait := .objects, gvh := gvh }
  else body d

/-- What holds a Vitrine. -/
def Wait.holdsVitrine (lv : Nat) (w : Wait) : Bool :=
  match w with
  | .freeze l => l == lv
  | .thaw l => l == lv
  | .destroy l => l == lv
  | .unbind l _ => l == lv
  | .release 1 l => l == lv
  | _ => false

/-- What holds a Vitrine against VITRINE_DESTROY: not FREEZE, THAW or RESTORE (R371). -/
def Wait.holdsDestroy (lv : Nat) (w : Wait) : Bool :=
  match w with
  | .freeze _ => false
  | .thaw _ => false
  | w => Wait.holdsVitrine lv w

/-- Nothing holds the objects of a command that reads only (R370). -/
def Wait.holdsNone (_ : Nat) (_ : Wait) : Bool := false

/-- What holds a lane of a list. -/
def Wait.holdsLanes (ls : List Nat) (w : Wait) : Bool :=
  match w with
  | .scan first count _ => ls.any fun n => decide (first ≤ n) && decide (n < first + count)
  | .bitslip n => ls.contains n
  | _ => false

/-- No Curator pair runs: the active one has diverged, and its successor has not taken over (R457, R459). -/
def Dev.curatorDown (d : Dev) : Bool :=
  (if d.is CUR_PAIR_STATUS.ACTIVE 0 then d.get CUR_PAIR_STATUS.B_STATE 0 else d.get CUR_PAIR_STATUS.A_STATE 0) != 0

/-- The Curator takes a command now (R369, R476, R479, R489): from module ready on, while a pair runs; commands that change composition
not while a lost Registrar has no successor; with no valid image only those that mend it, from the rear management port. One that is not
taken waits at intake. -/
def Dev.takes (d : Dev) (h : CmdHdr) (opcode : Nat) : Bool :=
  !d.curatorDown && !(d.orphaned && (opcode / 256 == 2 || opcode / 256 == 3)) &&
    (d.is CUR_START_STATUS.READY 0 ||
      (d.bootFailed && h.caller == 0x021 && (opcode == 0x0B01 || opcode == 0x0B02 || opcode == 0x0B03 || opcode == 0x0B06) &&
        (d.roleOf h == 2 || d.roleOf h == 4)))

/-- A command as its receiving module takes it (R365 to R368): the MODULE field, the role, the module that carries it out,
then `body`. `roles` are those permitted, `own` says that a tenant names its own, `away` that a service caller's
command may be forwarded. -/
def Dev.command (d : Dev) (h : CmdHdr) (opcode : Nat) (roles : List Nat) (own : Bool) (target : Nat) (body : Dev → Dev)
    (away : Bool := false) : Dev :=
  if !d.takes h opcode then d
  else if h.modul ≠ 0xFFFF ∧ h.modul ≠ target then d.badParam h opcode 0xFFFFFFF4
  else
    let role := d.roleOf h
    if ¬(role = 0 ∨ role ∈ roles ∨ (role = 3 ∧ own)) then d.finish h opcode Status.notPermitted
    else if target = d.moduleId then d.checkStray h opcode body
    else if role = 2 ∨ (role = 4 ∧ !away) then d.finish h opcode Status.notPermitted
    else
      ((d.waitFor h opcode (.remote target)).emit (.respond "forward" [target, opcode, h.caller, role, h.tag]))

/-- A command whose object is the module its MODULE field names (R366). -/
def Dev.moduleCommand (d : Dev) (h : CmdHdr) (opcode : Nat) (roles : List Nat) (own : Bool) (body : Dev → Dev) : Dev :=
  d.command h opcode roles own (if h.modul = 0xFFFF then d.moduleId else h.modul) body

/-- Where a Vitrine's upstream port is, by the composition store (R366): here, or on the module the store names. -/
def Dev.vitrineModule (d : Dev) (gvh : Nat) : Option Nat :=
  match d.lvidOf gvh with
  | some _ => some d.moduleId
  | none => (d.homes.find? fun e => e.1 == gvh).map (·.2)

/-- A command that names a Global Vitrine Handle (R366): NO_OBJECT when the composition store holds none. -/
def Dev.vitrineCommand (d : Dev) (h : CmdHdr) (opcode gvh : Nat) (roles : List Nat) (own : Bool) (body : Dev → Nat → Dev)
    (holds : Nat → Wait → Bool := Wait.holdsVitrine) : Dev :=
  match d.vitrineModule gvh with
  | none =>
    if !d.takes h opcode then d
    else if h.modul ≠ 0xFFFF ∧ h.modul ≠ d.moduleId then d.badParam h opcode 0xFFFFFFF4
    else if d.roleOf h = 0 ∨ d.roleOf h ∈ roles ∨ (d.roleOf h = 3 ∧ own) then
      d.checkStray h opcode fun d => d.finish h opcode Status.noObject
    else d.finish h opcode Status.notPermitted
  | some m =>
    d.command h opcode roles own m fun d =>
      match d.lvidOf gvh with
      | some lv => d.orWait h opcode (holds lv) gvh fun d => body d lv
      | none => d.finish h opcode Status.noObject

/-- The tenant that calls names its own Vitrine (R368). -/
def Dev.ownVitrine (d : Dev) (h : CmdHdr) (gvh : Nat) : Bool :=
  match tenantOf h with
  | some lv => (d.vit lv).live && d.get VIT_STATE.GVH lv == gvh
  | none => false

/-- A command body on the whole state, for a caller the command's roles permit on this module; a non-zero reserved parameter byte is
reported unless a field before it is wrong (R365 to R368). -/
def stateCommand (s : State) (h : CmdHdr) (opcode : Nat) (roles : List Nat) (body : State → State) :
    Host.Outcome State Fault Refusal :=
  onState s fun s =>
    let d := s.dev
    let role := d.roleOf h
    if !d.takes h opcode then s
    else if (h.modul = 0xFFFF ∨ h.modul = d.moduleId) ∧ (role = 0 ∨ role ∈ roles) then
      match (d.cmdOf h opcode).stray with
      | none => body s
      | some r =>
        let c := (body s).dev.cmdOf h opcode
        if c.status = Status.badParam ∧ c.detail ≤ r then body s else { s with dev := d.badParam h opcode r }
    else { s with dev := d.moduleCommand h opcode roles false fun d => d }

/-- The bytes a fetch gives: n bytes of the module's memory at an address, or what the other side answers (R378). -/
def fetched (m : List Host.Cell) (f : Fetch) (addr n : Nat) : Option (List Byte) :=
  match f with
  | .local_ =>
    if addr + n ≤ 0x100000 ∨ (ddrBase ≤ addr ∧ inRegion regionDocent (addr - ddrBase) n) then some (readBytes m addr n)
    else none
  | .remote (some bs) => if n ≤ bs.length then some (bs.take n) else none
  | .remote none => none

end Sys2Proof.Machine
end

