-- ==== Sys2Proof/Machine/Operands.lean ====
section
/-! DEFINITION. The operand forms of the manual: FPIDs and handles named by a descriptor, rates, widths and frame times
(R33, R232), slot power limits (R154) and PD units (R156), completion timeout codes (R129), transmit taps (R38, R40). -/

namespace Sys2Proof.Machine

/-- FPID bits 21:0 of a descriptor field (R376). -/
def fpidField (v : Nat) : Nat := v % 2 ^ 22

/-- Global Vitrine Handle bits 22:0 of a descriptor field (R376). -/
def gvhField (v : Nat) : Nat := v % 2 ^ 23

/-- Quarter bytes per ns of one lane at a rate code (R33, R232): GT/s ÷ 8 at codes 3 to 7, ÷ 10 at codes 1 and 2. -/
def laneQuarterBytes (rate : Nat) : Nat := if rate = 0 then 0 else 2 ^ (rate - 1)

/-- tx(n) in ns of a frame of n granules at w lanes and a rate code, rounded up to 8 ns (R232). -/
def txNs (n w rate : Nat) : Nat :=
  let r := w * laneQuarterBytes rate
  let ns := (((16 * n + 223) / 224 + 1) * 256 * 4 + r - 1) / r
  (ns + 7) / 8 * 8

/-- Value of a completion timeout code in ticks (R129); none for a code the table does not hold. -/
def ctoTicks (code : Nat) : Option Nat :=
  match code with
  | 0b0000 => some (msTicks 50)
  | 0b0001 => some (usTicks 50)
  | 0b0010 => some (msTicks 9)
  | 0b0101 => some (msTicks 50)
  | 0b0110 => some (msTicks 190)
  | 0b1001 => some (msTicks 800)
  | 0b1010 => some (msTicks 3000)
  | 0b1101 => some (msTicks 12000)
  | 0b1110 => some (msTicks 60000)
  | _ => none

/-- A slot power limit in mW: Value × 1,000 × 10^(−Scale) (R154). -/
def splMilliwatts (value scale : Nat) : Nat := value * 1000 / 10 ^ scale

/-- The e-fuse current limit of a power in mW at 12 V: rounded up to 25 mA, at least 250 mA (R154). -/
def splMilliamps (mw : Nat) : Nat := max 250 ((mw + 299) / 300 * 25)

/-- What each of n ports of a cage is told of an allotment: tenths of a watt, Scale 0b01 (R155). -/
def splShare (mw n : Nat) : Nat := mw / n / 100

/-- PD object units to telemetry (R156). -/
def pdFixedMv (field : Nat) : Nat := field * 50
def pdFixedMa (field : Nat) : Nat := field * 10
def pdApdoMv (field : Nat) : Nat := field * 100
def pdApdoMa (field : Nat) : Nat := field * 50
def pdPpsRdoMv (field : Nat) : Nat := field * 20
def pdAvsRdoMv (field : Nat) : Nat := field * 25

/-- Telemetry to PD object units, rounded down so that no more is offered than allowed (R156). -/
def mvToFixed (mv : Nat) : Nat := mv / 50
def maToFixed (ma : Nat) : Nat := ma / 10

/-- The taps obey R38. -/
def tapsOk (pre post : Nat) : Bool := decide (pre ≤ 15) && decide (post ≤ 21) && decide (pre + post ≤ 21)

/-- PRE and POST of a transmit preset (R40). -/
def presetTaps (n : Nat) : Nat × Nat :=
  match n with
  | 0 => (0, 16)
  | 1 => (0, 10)
  | 2 => (0, 12)
  | 3 => (0, 8)
  | 4 => (0, 0)
  | 5 => (6, 0)
  | 6 => (8, 0)
  | 7 => (6, 13)
  | 8 => (8, 8)
  | 9 => (10, 0)
  | 10 => (0, 21)
  | 11 => (4, 14)
  | 12 => (6, 12)
  | 13 => (8, 10)
  | 14 => (3, 18)
  | _ => (10, 11)

/-- LTR value and scale that encode a latency in ns, rounded down: the least scale whose 10-bit value holds it (R138). -/
def ltrEncode (ns : Nat) : Nat × Nat :=
  match [0, 1, 2, 3, 4, 5].find? fun s => decide (ns / 32 ^ s < 1024) with
  | some s => (ns / 32 ^ s, s)
  | none => (1023, 5)

/-- The latency an LTR value and scale stand for. -/
def ltrNs (e : Nat × Nat) : Nat := e.1 * 32 ^ e.2

end Sys2Proof.Machine
end

