-- ==== Sys2Proof/Machine/Basin.lean ====
section
/-! DEFINITION. The Basin: queues, regions, admission, ageing, squashing and the errors of its memories (R172 to R196). -/

namespace Sys2Proof.Machine

/-- Global number of queue index i of local port p (R177). -/
def queueNo (p i : Nat) : Nat := p * 128 + i

/-- The class of a global queue number (R177). -/
def queueClass (q : Nat) : Cls := .ofCode (q % 128 / 32)

/-- Queue q beside its registers. -/
def Dev.queue (d : Dev) (q : Nat) : Queue := SMap.get {} d.queues q

/-- Queue q becomes v. -/
def Dev.setQueue (d : Dev) (q : Nat) (v : Queue) : Dev := { d with queues := SMap.set {} d.queues q v }

/-- What the Weir keeps for output p. -/
def Dev.outPort (d : Dev) (p : Nat) : OutPort := SMap.get {} d.outs p

/-- The Weir's record of output p changes. -/
def Dev.setOut (d : Dev) (p : Nat) (f : OutPort → OutPort) : Dev := { d with outs := SMap.modify {} d.outs p f }

/-- The limit of R174 holds a port back from now on. -/
def Dev.rateWait (d : Dev) (p : Nat) : Dev :=
  d.when (d.outPort p).rateHeld.isNone (·.setOut p fun o => { o with rateHeld := some d.now })

/-- The limit of R174 no longer holds the port: the nanoseconds it did count (R441). -/
def Dev.rateGo (d : Dev) (p : Nat) : Dev :=
  match (d.outPort p).rateHeld with
  | some t => (d.setOut p fun o => { o with rateHeld := none }).count (portCtr p 7) (sinceTicks t d.now / 16)
  | none => d

/-- Cells of a queue charged to a region. -/
def regionCells (q : Queue) (r : Region) : Nat :=
  ((q.frames ++ q.side ++ q.orphans).filter fun f => f.region = r).foldl (fun n f => n + f.frame.cells) 0

/-- LEN: cells held by a queue from every region (R196). -/
def queueLen (q : Queue) : Nat :=
  regionCells q .portReserve + regionCells q .controlReserve + regionCells q .queueMinimum + regionCells q .sharedPool

/-- Cells charged to a region over the queues that `sel` names. -/
def Dev.regionUsed (d : Dev) (r : Region) (sel : Nat → Bool) : Nat :=
  (d.queues.filter fun e => sel e.1).foldl (fun n e => n + regionCells e.2 r) 0

/-- RSV_USED: cells of a port's reserve now held (R196). -/
def Dev.rsvUsed (d : Dev) (p : Nat) : Nat := d.regionUsed .portReserve fun q => q / 128 == p

/-- FREE: free cells of the shared pool (R196). -/
def Dev.sharedFree (d : Dev) : Nat := d.get BSN_SHARED_SIZE.SIZE 0 - d.regionUsed .sharedPool fun _ => true

/-- The regions are divided anew after the reserved space changes to `total` cells (R175, R176). -/
def Dev.setReserved (d : Dev) (total : Nat) : Dev :=
  (d.put BSN_RESERVED.TOTAL 0 total).put BSN_SHARED_SIZE.SIZE 0 (1572864 - total)

/-- The most cells that may be reserved (R176). -/
def reserveLimit : Nat := 1179648

/-- Grant of each window toward port p: ⌊LR × OVERSUB ÷ WINDOWS⌋, 0 below 65 (R183, R196). -/
def Dev.portGrant (d : Dev) (p : Nat) : Nat :=
  let g := d.get BSN_PORT_RSV.LR p * 2 ^ d.get BSN_PORT_WIN.OVERSUB p / d.get BSN_PORT_WIN.WINDOWS p
  if g < 65 then 0 else g

/-- BSN_PORT_GRANT follows LR, OVERSUB and WINDOWS. -/
def Dev.refreshGrant (d : Dev) (p : Nat) : Dev := d.put BSN_PORT_GRANT.GRANT p (d.portGrant p)

/-- The slot of a frame at output p (R177); none when its handle holds none there. -/
def Dev.slotOf (d : Dev) (p : Nat) (f : Frame) : Option Nat :=
  if f.gvh = gvhModule ∨ f.gvh = gvhWindow ∨ f.ftype = 4 ∨ f.ftype = 5 then some 31
  else if d.fabricPort p || internalPort p then some (f.gvh % 31)
  else (d.slots.find? fun s => s.1 == p && s.2.1 == f.gvh).map (·.2.2)

/-- Output p is the destination edge of a frame (R179). -/
def Dev.atDestination (d : Dev) (p : Nat) (f : Frame) : Bool :=
  !d.fabricPort p && f.dst == d.fpid p

/-- The destination side of the window a credited frame used. -/
def Dev.dwin (d : Dev) (src dst : Nat) : Option DWin := d.dwins.find? fun w => w.src == src && w.dst == dst

/-- The destination side of a window changes. -/
def Dev.setDwin (d : Dev) (src dst : Nat) (f : DWin → DWin) : Dev :=
  { d with dwins := d.dwins.map fun w => if w.src = src ∧ w.dst = dst then f w else w }

/-- The cells of a credited frame are freed at its destination edge: they will be returned (R86). -/
def Dev.owe (d : Dev) (p : Nat) (f : Frame) : Dev :=
  d.when (f.credited && d.atDestination p f) fun d =>
    d.setDwin f.src f.dst fun w => { w with owed := w.owed + f.cells, held := w.held - f.cells }

/-- A frame's cells are no longer held at its destination edge, but its credits are lost in transit (R88, R194, R195). -/
def Dev.lose (d : Dev) (p : Nat) (f : Frame) : Dev :=
  d.when (f.credited && d.atDestination p f) fun d => d.setDwin f.src f.dst fun w => { w with held := w.held - f.cells }

/-- A credit frame: class C, 2 granules, from one port of a pair to the other (R86, R197). -/
def Dev.creditFrame (d : Dev) (src dst : Nat) (kind : CreditKind) (cseq value : Nat) : Dev :=
  { d with arrived := d.arrived ++ [(fpidPort src,
      { ftype := 3, cls := .c, len := 2, dst := dst, src := src, gvh := gvhModule, itime := d.now % 2 ^ 32,
        body := .credit kind cseq value })] }

/-- The largest class age limit in force, in µs. -/
def Dev.maxAgeUs (d : Dev) : Nat :=
  max (max (d.get BSN_AGE_S.LIMIT_US 0) (d.get BSN_AGE_C.LIMIT_US 0)) (max (d.get BSN_AGE_L.LIMIT_US 0)
    (d.get BSN_AGE_B.LIMIT_US 0))

/-- Q: 10 × the largest class age limit, or 20 ms if that is more (R89). -/
def Dev.quietTicks (d : Dev) : Nat := usTicks (max (10 * d.maxAgeUs) 20000)

/-- The destination edge answers a RESYNC_REQ with the cells it holds, once it has received all the window sent or Q ÷ 2 has
passed (R90). -/
def Dev.answerResync (d : Dev) (src dst : Nat) : Dev :=
  match d.dwin src dst with
  | some w =>
    match w.resync with
    | some (sent, since) =>
      if w.received = sent ∨ d.quietTicks / 2 ≤ sinceTicks since d.now then
        (d.setDwin src dst fun w => { w with resync := none, cseq := (w.cseq + 1) % 65536 }).creditFrame dst src .resyncAck
          w.cseq w.held
      else d
    | none => d
  | none => d

/-- A credited frame reaches its destination edge (R90). -/
def Dev.receiveCells (d : Dev) (p : Nat) (f : Frame) : Dev :=
  d.when (f.credited && d.atDestination p f) fun d =>
    (d.setDwin f.src f.dst fun w =>
      { w with received := (w.received + f.cells) % 2 ^ 32, held := w.held + f.cells }).answerResync f.src f.dst

/-- Fabric time in 64 ns units, 32 bits (R173). -/
def Dev.stampNow (d : Dev) : Nat := d.now / 1024 % 2 ^ 32

/-- Age of a held frame in 64 ns units (R187, R188). -/
def Dev.age (d : Dev) (f : QFrame) : Nat :=
  match f.hold with
  | some a => a
  | none => (d.stampNow + 2 ^ 32 - f.stamp) % 2 ^ 32

/-- A hold of a frame's age begins, or ends (R188). -/
def Dev.holdAge (d : Dev) (on : Bool) (f : QFrame) : QFrame :=
  if on then { f with hold := some (d.age f) }
  else { f with stamp := (d.stampNow + 2 ^ 32 - d.age f % 2 ^ 32) % 2 ^ 32, hold := none }

/-- Age limit of a class in µs (R187). -/
def Dev.ageLimitUs (d : Dev) (c : Cls) : Nat :=
  match c with
  | .s => d.get BSN_AGE_S.LIMIT_US 0
  | .c => d.get BSN_AGE_C.LIMIT_US 0
  | .l => d.get BSN_AGE_L.LIMIT_US 0
  | .b => d.get BSN_AGE_B.LIMIT_US 0

/-- A frame is past its class limit: its age in ns exceeds the limit, or as the Weir selects it has reached it (R189). -/
def Dev.aged (d : Dev) (selected : Bool) (f : QFrame) : Bool :=
  decide (d.ageLimitUs f.frame.cls * 1000 < d.age f * 64 + bitVal selected)

/-- The Vitrine that a queue of an upstream port serves, for its bank (R442). -/
def Dev.queueVitrine (d : Dev) (q : Nat) : Option Nat :=
  (d.slots.find? fun s => s.1 == q / 128 && s.2.2 == q % 32).bind fun s => d.lvidOf s.2.1

/-- A counter of the bank of the Vitrine a queue serves counts (R442). -/
def Dev.countQueue (d : Dev) (q e n : Nat) : Dev :=
  match d.queueVitrine q with
  | some lv => d.count (vitCtr lv e) n
  | none => d

/-- The active list forgets a queue that has emptied: its deficit is 0 (R224). -/
def Dev.leaveRound (d : Dev) (q : Nat) : Dev :=
  if (d.queue q).frames.isEmpty then
    ((d.setOut (q / 128) fun o => { o with drr := o.drr.filter (· ≠ q) }).put WR_Q_DRR.DEFICIT q 0).put
      WR_Q_DRR.STARTED q 0
  else d

/-- A frame's cells go back to the free list and are counted (R175, R195). -/
def Dev.freeCells (d : Dev) (q : Nat) (f : QFrame) : Dev :=
  (({ d with cellsFree := d.cellsFree ++ f.cellNos }).count (portCtr (q / 128) 5) f.frame.cells).count (modCtr 1536 1) f.frame.cells

/-- A frame of queue q leaves the Basin: its cells, and at its destination edge its credits, return (R86, R175). -/
def Dev.leave (d : Dev) (q : Nat) (f : QFrame) : Dev := (d.owe (q / 128) f.frame).freeCells q f

/-- A frame of queue q is discarded and lost in transit: its cells return, its credits do not (R88, R194). -/
def Dev.leaveLost (d : Dev) (q : Nat) (f : QFrame) : Dev := (d.lose (q / 128) f.frame).freeCells q f

/-- The named frames of a queue are discarded (R181, R190). -/
def Dev.dropFrames (d : Dev) (q : Nat) (keep : QFrame → Bool) (each : Dev → QFrame → Dev) : Dev :=
  let v := d.queue q
  let gone := (v.frames ++ v.side).filter fun f => !keep f
  let d := d.setQueue q { v with frames := v.frames.filter keep, side := v.side.filter keep }
  (d.forEach gone fun d f => each (d.leave q f) f).leaveRound q

/-- A squashed frame is counted (R181, R441). -/
def countSquashed (q : Nat) (d : Dev) (f : QFrame) : Dev := d.count (portCtr (q / 128) (40 + f.frame.cls.code)) 1

/-- A queue is put in state SQUASH and discards what it holds (R181). -/
def Dev.squashQueue (d : Dev) (q : Nat) : Dev :=
  (d.put BSN_Q_STATUS.STATE q 3).dropFrames q (fun _ => false) (countSquashed q)

/-- A queue's state changes; a hold of its frames' ages begins or ends with STOPPED and FROZEN (R188). -/
def Dev.setQueueState (d : Dev) (q state : Nat) : Dev :=
  let held (s : Nat) : Bool := s == 1 || s == 2
  let before := held (d.get BSN_Q_STATUS.STATE q)
  let d' := d.put BSN_Q_STATUS.STATE q state
  if before == held state then d'
  else
    let v := d.queue q
    d'.setQueue q { v with frames := v.frames.map (d.holdAge (held state)) }

/-- The queues of a port that hold frames. -/
def Dev.busyQueues (d : Dev) (p : Nat) : List Nat := (d.queues.filter fun e => e.1 / 128 == p).map (·.1)

/-- The region a frame is charged to, or none when it is refused (R179). -/
def Dev.admitRegion (d : Dev) (p q : Nat) (f : Frame) : Option Region :=
  let c := f.cells
  let v := d.queue q
  let free := d.sharedFree
  let k := signedOf 3 (d.get BSN_Q_CFG.K q)
  let shared := regionCells v .sharedPool
  let below : Bool := if 0 ≤ k then decide (shared < 2 ^ k.toNat * free) else decide (shared * 2 ^ (-k).toNat < free)
  if f.credited ∧ d.rsvUsed p + c ≤ d.get BSN_PORT_RSV.LR p then some .portReserve
  else if f.control ∧ (d.regionUsed .controlReserve fun _ => true) + c ≤ 16384 then some .controlReserve
  else if regionCells v .queueMinimum + c ≤ d.get BSN_Q_CFG.MIN q then some .queueMinimum
  else if free ≤ c - 1 then none
  else if below then some .sharedPool
  else if f.credited ∧ ¬d.atDestination p f then some .sharedPool
  else none

/-- A frame is refused as its cells arrive: at most one record per queue in each millisecond, with the count (R182). -/
def Dev.refuseFrame (d : Dev) (p q : Nat) (f : Frame) : Dev :=
  let d := (d.receiveCells p f).owe p f
  let d := (d.count (portCtr p (32 + f.cls.code)) 1).count (modCtr 1536 2) 1
  let d := d.countQueue q (12 + f.cls.code) 1
  let d := d.when (f.credited && !d.atDestination p f) fun d => (d.count (portCtr p 54) 1).put BSN_EVENTS.FULL_DROP 0 1
  d.raiseLimited BSN_EVENTS.ADMIT_REFUSED 0 q { die := 4, port := d.fpid p, object := q }

/-- n cells from the free list (R172): those returned, oldest first, then those never used, in ascending order (the model's choice of
list order, log entry 98). -/
def Dev.takeCells (d : Dev) (n : Nat) : List Nat × Dev :=
  let back := d.cellsFree.take n
  let fresh := n - back.length
  (back ++ (List.range fresh).map (d.cellsUsed + ·), { d with cellsFree := d.cellsFree.drop n, cellsUsed := d.cellsUsed + fresh })

/-- A frame is charged to a region and joins the tail of its queue, which joins the round robin when it held none
(R175, R223). -/
def Dev.enqueue (d : Dev) (p q ingress : Nat) (f : Frame) (r : Region) : Dev :=
  let v := d.queue q
  let s := d.get BSN_Q_STATUS.STATE q
  let hold := if s = 1 ∨ s = 2 then some 0 else none
  let cells := d.takeCells f.cells
  let d := cells.2
  let qf : QFrame := { frame := f, stamp := d.stampNow, hold := hold, region := r, ingress := ingress, cellNos := cells.1 }
  let d := (d.receiveCells p f).setQueue q { v with frames := v.frames ++ [qf] }
  let d := (d.count (portCtr p 4) f.cells).count (modCtr 1536 0) f.cells
  let d := d.when (v.frames.isEmpty && (f.cls == .l || f.cls == .b)) fun d =>
    d.setOut p fun o => { o with drr := o.drr.filter (· ≠ q) ++ [q] }
  d.when (f.ftype == 1 || f.ftype == 2 || f.ftype == 6) fun d =>
    ({ d with lastTraffic := d.now, trafficAt := SMap.insert (SMap.erase d.trafficAt ingress) ingress d.now }).when (d.get PWR_PS_STATUS.STATE 0 == 2 || d.is PWR_PS_STATUS.ENTERING 0 ||
      d.is PWR_MODE.ARM 0) (·.noteWake 0)

/-- The admission of one frame toward output p (R177, R179, R181); one whose handle holds no slot there is lost in transit (R88). -/
def Dev.enterBasin (d : Dev) (ingress p : Nat) (f : Frame) : Dev :=
  match d.slotOf p f with
  | none =>
    (d.count (portCtr p 57) 1).raiseLimited RTE_EVENTS.NO_ROUTE 0 p { die := 4, port := d.fpid p, gvh := f.gvh }
  | some slot =>
    let q := queueNo p (f.cls.code * 32 + slot)
    if d.get BSN_Q_STATUS.STATE q = 3 then
      countSquashed q ((d.receiveCells p f).owe p f) { frame := f, stamp := 0, region := .sharedPool }
    else
      match d.admitRegion p q f with
      | some r => d.enqueue p q ingress f r
      | none => d.refuseFrame p q f

/-! ### The lock side list -/

/-- A request toward port p that the port's lock blocks: its semaphore is not FREE and the request is from another source than
the owner's upstream port (R159). -/
def Dev.lockBlocks (d : Dev) (p : Nat) (f : Frame) : Bool :=
  d.get EBR_LOCK.STATE p != 0 &&
    (match f.body with
     | .tlp t => !t.kind.completion
     | .mem m => !m.response
     | _ => false) &&
    f.src != SMap.get 0 d.lockSrc p

/-- The head f of queue q takes the next place in its port's lock side list, or the one it had, and does not age there; r follows it (R159). -/
def Dev.toSide (d : Dev) (q : Nat) (f : QFrame) (r : List QFrame) : Dev :=
  let p := q / 128
  let n := (d.outPort p).sideNo
  let v := d.queue q
  let moved : QFrame := { d.holdAge true f with ticket := some (f.ticket.getD n) }
  let d := (d.setOut p fun o => { o with sideNo := n + 1 }).setQueue q { v with frames := r, side := v.side ++ [moved] }
  (d.count (portCtr p 87) 1).leaveRound q

/-- Blocked requests at the head of queue q go to the port's lock side list, where they do not age (R159). -/
def Dev.sideMove (d : Dev) (fuel q : Nat) : Dev :=
  match fuel with
  | 0 => d
  | n + 1 =>
    let v := d.queue q
    match v.frames with
    | [] => d
    | f :: r =>
      if d.lockBlocks (q / 128) f.frame then
        (d.toSide q f r).sideMove n q
      else d

/-- The side list of port p goes back to the heads of its queues, in arrival order (R159); the frames age again unless their queue is
STOPPED or FROZEN (R188). -/
def Dev.sideReturn (d : Dev) (p : Nat) : Dev :=
  d.forEach (d.busyQueues p) fun d q =>
    let v := d.queue q
    let s := d.get BSN_Q_STATUS.STATE q
    if v.side.isEmpty then d
    else
      let back := if s = 1 ∨ s = 2 then v.side else v.side.map (d.holdAge false)
      let d' := d.setQueue q { v with frames := back ++ v.frames, side := [] }
      d'.when (v.frames.isEmpty && (queueClass q == .l || queueClass q == .b)) fun d =>
        d.setOut p fun o => { o with drr := o.drr.filter (· ≠ q) ++ [q] }

/-- FRAME_ADMISSION: the frame whose route was chosen first is admitted or refused. -/
def execFrameAdmission (s : State) : Host.Outcome State Fault Refusal :=
  onDev s fun d =>
    match d.routed with
    | [] => d
    | (ingress, p, f) :: r => ({ d with routed := r }).enterBasin ingress p f

/-- A frame found past its limit is counted and reported, the record carrying the count and the oldest age since the one before (R190). -/
def countAged (q age : Nat) (d : Dev) (f : QFrame) : Dev :=
  let p := q / 128
  let d := (d.count (portCtr p (36 + f.frame.cls.code)) 1).count (modCtr 1536 3) 1
  let d := d.countQueue q (16 + f.frame.cls.code) 1
  let source := eventCode BSN_EVENTS.AGE_DISCARD + 65536 * q
  let oldest := max age (SMap.get {} d.limited source).oldest
  let d := { d with limited := SMap.modify {} d.limited source fun l => { l with oldest := oldest } }
  d.raiseLimited BSN_EVENTS.AGE_DISCARD 0 q { die := 4, port := d.fpid p, object := q, detail := leBytes 8 (oldest * 64) }

/-- The head of queue q, and every head behind it, is discarded while past its limit (R189). -/
def Dev.ageHeads (d : Dev) (fuel q : Nat) : Dev :=
  match fuel with
  | 0 => d
  | n + 1 =>
    let v := d.queue q
    match v.frames with
    | [] => d
    | f :: r =>
      if d.aged false f then
        (countAged q (d.age f) ((d.setQueue q { v with frames := r }).leave q f) f).leaveRound q |>.ageHeads n q
      else d

/-- The head of queue q made ready for the Weir's selection: heads that have reached their limit are discarded, and requests a lock blocks
go to the side list (R159, R189). -/
def Dev.readyHead (d : Dev) (fuel q : Nat) : Dev :=
  match fuel with
  | 0 => d
  | n + 1 =>
    let v := d.queue q
    match v.frames with
    | [] => d
    | f :: r =>
      if d.aged true f then
        (countAged q (d.age f) ((d.setQueue q { v with frames := r }).leave q f) f).leaveRound q |>.readyHead n q
      else if d.lockBlocks (q / 128) f.frame then
        (d.toSide q f r).readyHead n q
      else d

/-- AGE_DISCARD: a frame of the queue found past its limit is discarded, and the frames after it are checked (R189). -/
def execAgeDiscard (queue : Fin 65536) (s : State) : Host.Outcome State Fault Refusal :=
  onDev s fun d => d.ageHeads (d.queue queue).frames.length queue

/-- QUEUE_HEAD_AGE_CHECK: the head of every queue is checked (R189). -/
def execQueueHeadAgeCheck (s : State) : Host.Outcome State Fault Refusal :=
  onDev s fun d => d.forEach (d.queues.map (·.1)) fun d q => d.ageHeads (d.queue q).frames.length q

/-- LINK_ECC: a multi-bit error breaks the queue after `reach` frames; those it cannot reach are lost in transit, and their
cells wait for the audit (R195). -/
def execLinkEcc (queue : Fin 65536) (reach : Nat) (s : State) : Host.Outcome State Fault Refusal :=
  onDev s fun d =>
    let q := queue.val
    let v := d.queue q
    let d := d.setQueue q { v with frames := v.frames.take reach, orphans := v.orphans ++ v.frames.drop reach }
    let d := { d with brokenQueues := d.brokenQueues.filter (· ≠ q) ++ [q] }
    ((d.squashQueue q).count (modCtr 1536 7) 1).raise BSN_EVENTS.LINK_ECC 0
      { die := 4, port := d.fpid (q / 128), object := q }

/-- CELL_AUDIT: orphaned cells return to their regions and the queues the errors broke reopen; cells missing without a
recorded error are reported (R195). -/
def execCellAudit (missing : Bool) (s : State) : Host.Outcome State Fault Refusal :=
  onDev s fun d =>
    let d := d.forEach d.brokenQueues fun d q =>
      let lost := (d.queue q).orphans
      ((d.setQueue q { d.queue q with orphans := [] }).forEach lost fun d f => d.leaveLost q f).setQueueState q 0
    let d := { d with brokenQueues := [] }
    d.when missing fun d =>
      (d.count (modCtr 1536 6) 1).raise BSN_EVENTS.CELL_AUDIT 0 { die := 4 }

end Sys2Proof.Machine
end

