-- ==== Sys2Proof/Machine/Wire.lean ====
section
/-! DEFINITION. What travels on a fabric link as bytes: frame headers and bodies (R86, R199, R303, R425, R480), the byte stream of frames
in DATA flits (R69), and flits with their header, descriptor, CRC and FEC parity (R67 to R73). -/

namespace Sys2Proof.Machine

/-! ### Frames -/

/-- The three words of a fabric frame header (R199), reserved bits zero. -/
def headerWords (f : Frame) : Nat × Nat × Nat :=
  (f.ftype % 16 * 2 ^ 60 + f.cls.code * 2 ^ 58 + bitVal f.poison * 2 ^ 57 + f.hops % 8 * 2 ^ 54 + f.len % 512 * 2 ^ 45 +
      f.dst % 2 ^ 22 * 2 ^ 23 + f.src % 2 ^ 22 * 2,
    f.gvh % 2 ^ 23 * 2 ^ 41 + f.fseq % 2 ^ 16 * 2 ^ 25,
    f.itime % 2 ^ 32 * 2 ^ 32)

/-- The 24 bytes of a fabric frame header, each word most significant byte first (R199). -/
def headerBytes (f : Frame) : List Byte :=
  beBytes 8 (headerWords f).1 ++ beBytes 8 (headerWords f).2.1 ++ beBytes 8 (headerWords f).2.2

/-- The frame whose header 24 bytes spell (R199), reserved bits ignored, around a body. -/
def frameOf (bs : List Byte) (body : Body) : Frame :=
  let a := ofBeBytes (bs.take 8)
  let b := ofBeBytes ((bs.drop 8).take 8)
  let c := ofBeBytes ((bs.drop 16).take 8)
  { ftype := bitsOf a 63 60, cls := .ofCode (bitsOf a 59 58), poison := bitOf a 57, hops := bitsOf a 56 54, len := bitsOf a 53 45,
    dst := bitsOf a 44 23, src := bitsOf a 22 1, gvh := bitsOf b 63 41, fseq := bitsOf b 40 25, itime := bitsOf c 63 32, body := body }

/-- Exactly n bytes: what is there, then zeros. -/
def padTo (n : Nat) (bs : List Byte) : List Byte := bs.take n ++ List.replicate (n - bs.length) 0

/-- KIND of a credit frame and of a time frame (R86, R425). -/
def creditCode (k : CreditKind) : Nat :=
  match k with
  | .ret => 0
  | .grant => 1
  | .resyncReq => 2
  | .resyncAck => 3

def timeCode (k : TimeKind) : Nat :=
  match k with
  | .sync => 1
  | .delayReq => 2
  | .delayRsp => 3

/-- The links of an ADJ, 12 bytes each (R480). -/
def linkBytes (fields : List Nat) : List Byte :=
  match fields with
  | port :: partner :: width :: rate :: r =>
    beBytes 2 port ++ beBytes 8 partner ++ beBytes 1 width ++ beBytes 1 rate ++ linkBytes r
  | _ => []

/-- A formation frame body of a kind: PRIO, LAST_ID, the part and the parts, SERIAL, GEN, ASEQ, ORIGIN, LINKS (R480). -/
def formationBytes (kind prio lastId part parts serial gen aseq origin : Nat) (links : List Nat) : List Byte :=
  beBytes 1 kind ++ beBytes 1 prio ++ beBytes 2 lastId ++ beBytes 2 part ++ beBytes 2 parts ++ beBytes 8 serial ++ beBytes 8 gen ++
    beBytes 8 aseq ++ beBytes 8 origin ++ linkBytes links

/-- A management frame body: of a formation kind as R480 lays it out, of any other a form the manual does not give (log entry 97). -/
def mgmtBytes (m : MgmtMsg) : List Byte :=
  match m with
  | .hello [prio, lastId, serial, gen] => formationBytes 0xF0 prio lastId 0 0 serial gen 0 0 []
  | .adj (prio :: lastId :: part :: parts :: serial :: gen :: aseq :: origin :: links) =>
    formationBytes 0xF1 prio lastId part parts serial gen aseq origin links
  | .admitMsg [serial, id, _] => formationBytes 0xF2 0 0 0 0 serial 0 (id % 8192) 0 []
  | m => Config.bodyBytes (.mgmt m)

/-- A frame's body as bytes. The header of a TLP in its Flit Mode form, a CXL.mem message and most management bodies have forms the manual
does not give (log entry 97). -/
def bodyBytes (b : Body) : List Byte :=
  match b with
  | .credit kind cseq value => beBytes 1 (creditCode kind) ++ beBytes 1 0 ++ beBytes 2 cseq ++ beBytes 4 value
  | .time m =>
    beBytes 1 (timeCode m.kind) ++ beBytes 1 m.cls ++ beBytes 1 m.prio ++ beBytes 1 m.rhops ++ beBytes 2 (m.root % 8192) ++
      beBytes 1 m.state ++ beBytes 1 0 ++ beBytes 8 m.stamp ++ beBytes 8 0
  | .console c =>
    beBytes 1 c.engine ++ beBytes 1 c.flags ++ beBytes 2 c.line ++ beBytes 2 c.x ++ beBytes 2 c.count ++ beBytes 8 0 ++ c.pixels
  | .mgmt m => mgmtBytes m
  | .tlp t => padTo (if t.header ≤ 24 then 24 else 40) (Config.bodyBytes (.tlp t)) ++ t.data
  | .raw _ => []
  | .mem m => Config.bodyBytes (.mem m)

/-- A frame as bytes: header and body, in whole granules of 16 bytes (R69, R199). -/
def frameBytes (f : Frame) : List Byte := padTo (f.len * 16) (headerBytes f ++ bodyBytes f.body)

/-- The body that received bytes spell, where the manual gives its form; else what the command supplies. The second part says whether
the supplied body was used. -/
def bodyOf (ftype : Nat) (bs : List Byte) (given : Option Body) : Body × Bool :=
  let at_ (i n : Nat) : Nat := ofBeBytes ((bs.drop i).take n)
  match ftype with
  | 3 =>
    match at_ 0 1 with
    | 0 => (.credit .ret (at_ 2 2) (at_ 4 4), false)
    | 1 => (.credit .grant (at_ 2 2) (at_ 4 4), false)
    | 2 => (.credit .resyncReq (at_ 2 2) (at_ 4 4), false)
    | 3 => (.credit .resyncAck (at_ 2 2) (at_ 4 4), false)
    | _ => (.raw bs.length, false)
  | 4 =>
    let m (k : TimeKind) : Body :=
      .time { kind := k, cls := at_ 1 1, prio := at_ 2 1, rhops := at_ 3 1, root := at_ 4 2 % 8192, state := at_ 6 1, stamp := at_ 8 8 }
    match at_ 0 1 with
    | 1 => (m .sync, false)
    | 2 => (m .delayReq, false)
    | 3 => (m .delayRsp, false)
    | _ => (.raw bs.length, false)
  | 6 => (.console ⟨at_ 0 1, at_ 1 1, at_ 2 2, at_ 4 2, at_ 6 2, bs.drop 16⟩, false)
  | _ =>
    match given with
    | some b => (b, true)
    | none => (.raw bs.length, false)

/-- The frames whole in a byte stream, each located by the LENGTH of the one before, and the bytes of the last that has not ended; a
LENGTH below 2 or above 260 ends the parsing of the stream, the frame itself still going to the header check (R69, R201). -/
def framesIn (fuel : Nat) (bs : List Byte) (bodies : List Body) : List Frame × List Byte :=
  match fuel with
  | 0 => ([], bs)
  | n + 1 =>
    if bs.length < 32 then ([], bs)
    else
      let f := frameOf bs (.raw 0)
      if f.len < 2 ∨ 260 < f.len then ([f], [])
      else if bs.length < f.len * 16 then ([], bs)
      else
        let (b, used) := bodyOf f.ftype ((bs.take (f.len * 16)).drop 24) bodies.head?
        let rest := framesIn n (bs.drop (f.len * 16)) (if used then bodies.tail else bodies)
        ({ f with body := b } :: rest.1, rest.2)

/-- Granules of a management frame: formation bodies as they are long, any other 3 (R480, log entry 97). -/
def mgmtGranules (m : MgmtMsg) : Nat :=
  match m with
  | .hello _ | .adj _ | .admitMsg _ => max 3 ((24 + (mgmtBytes m).length + 15) / 16)
  | _ => 3

/-! ### Flits -/

/-- Parity of a code word's symbols, highest-degree first: the remainder by (x + 1)(x + α)(x + α²)(x + α³) =
x⁴ + 15 x³ + 54 x² + 120 x + 64 (R73). -/
def rsParity (w : List Nat) : List Nat :=
  w.foldl (fun (p : List Nat) s =>
    let fb := s ^^^ p.getD 0 0
    [p.getD 1 0 ^^^ gfMul fb 15, p.getD 2 0 ^^^ gfMul fb 54, p.getD 3 0 ^^^ gfMul fb 120, gfMul fb 64]) [0, 0, 0, 0]

/-- The 12 parity bytes of 244 bytes of a flit, each code's at the positions 244 to 255 that i mod 3 gives it (R73). -/
def flitParity (bs : List Byte) : List Byte :=
  let symbols (c : Nat) : List Nat := ((List.range 244).filter fun i => i % 3 == c).map fun i => (bs.getD i 0).toNat
  let p (c : Nat) : List Nat := rsParity (symbols c)
  let p0 := p 0
  let p1 := p 1
  let p2 := p 2
  (List.range 12).map fun i =>
    BitVec.ofNat 8 ((if (244 + i) % 3 = 0 then p0 else if (244 + i) % 3 = 1 then p1 else p2).getD (i / 3) 0)

/-- A flit: link header, 224 bytes of granules or control fields, payload descriptor, CRC and FEC parity (R67, R72, R73). -/
def flitBytes (type seq ack : Nat) (granules : List Byte) (descriptor : Nat) : List Byte :=
  let a := beBytes 4 (type % 16 * 2 ^ 28 + seq % 16384 * 2 ^ 14 + ack % 16384) ++ padTo 224 granules ++ beBytes 8 descriptor
  let b := a ++ beBytes 8 (crc64 a)
  b ++ flitParity b

/-- The payload descriptor: FIRST, USED, REPLAYED (R68). -/
def flitDescriptor (first used : Nat) (replayed : Bool) : Nat :=
  first % 16 * 2 ^ 60 + used % 16 * 2 ^ 56 + bitVal replayed * 2 ^ 55

end Sys2Proof.Machine
end

