-- ==== Sys2Proof/Machine/Weir.lean ====
section
/-! DEFINITION. The Weir: gates, guard bands, shapers and the calendar wheel, the deficit round robin, selection and the
audits (R219 to R239), with what a fabric-link output does with a selected frame: its flits and replay buffer (R67 to R83). -/

namespace Sys2Proof.Machine

/-! ### Links as outputs -/

/-- Fabric link p beside its registers. -/
def Dev.link (d : Dev) (p : Nat) : Link := SMap.get {} d.links p

/-- Fabric link p changes. -/
def Dev.setLink (d : Dev) (p : Nat) (f : Link → Link) : Dev := { d with links := SMap.modify {} d.links p f }

/-- A port is trained: DL_Active, or for a fabric link ACTIVE or PAUSED (R232). -/
def Dev.trained (d : Dev) (p : Nat) : Bool :=
  if d.fabricPort p then d.get FLL_LINK_STATUS.STATE p == 2 || d.get FLL_LINK_STATUS.STATE p == 3
  else d.is PRT_PORT_STATUS.DL_ACTIVE p

/-- Lanes and rate code in use at a trained port, L0p included; x1 at the kind's lowest rate while it is not (R232). -/
def Dev.inUse (d : Dev) (p : Nat) : Nat × Nat :=
  if d.trained p then
    if d.fabricPort p then (widthLanes (d.get FLL_LINK_STATUS.WIDTH p), d.get FLL_LINK_STATUS.RATE p)
    else
      let w := widthLanes (d.get PRT_PORT_STATUS.WIDTH p)
      (if d.get PRT_PORT_STATUS.LINK_PM p = 1 then (w + 1) / 2 else w, d.get PRT_PORT_STATUS.RATE p)
  else (1, if d.fabricPort p then 6 else 1)

/-- tx(n) of a frame of n granules at port p in ns (R232). -/
def Dev.tx (d : Dev) (p n : Nat) : Nat := txNs n (d.inUse p).1 (d.inUse p).2

/-- The largest guard band port p can take: x1 at its kind's lowest rate (R232, R235). -/
def Dev.largestGuard (d : Dev) (p : Nat) : Nat := txNs (d.get WR_PORT_CFG.B_MAX p) 1 (if d.fabricPort p then 6 else 1)

/-- Unacknowledged flits a link may hold: its configured width × 160 (R81). -/
def Dev.replayCapacity (d : Dev) (p : Nat) : Nat := widthLanes (d.get PRT_PORT_CFG.WIDTH p) * 160

/-- OUTSTANDING shows the unacknowledged flits (R99). -/
def Dev.showOutstanding (d : Dev) (p : Nat) : Dev := d.put FLL_REPLAY.OUTSTANDING p (d.link p).unacked.length

/-- A DELAY_REQ departs on a link: the exchange keeps its departure stamp (R426). -/
def Dev.departed (d : Dev) (p : Nat) : Dev :=
  match d.time.exch with
  | some x => d.when (x.port == p) fun d => { d with time := { d.time with exch := some { x with t3 := some d.now } } }
  | none => d

/-- State of a fabric link. -/
def Dev.linkState (d : Dev) (p : Nat) : Nat := d.get FLL_LINK_STATUS.STATE p

/-- E, the number expected next (R75). -/
def Dev.expected (d : Dev) (p : Nat) : Nat := d.get FLL_SEQ.EXPECTED p

/-- A flit of this link leaves, striped over its lanes, with the current ACK: E − 1 (R67). -/
def Dev.emitFlit (d : Dev) (p type seq : Nat) (granules : List Byte) (descriptor : Nat) : Dev :=
  d.emit (.flit p (d.link p).lanes (flitBytes type seq ((d.expected p + 16383) % 16384) granules descriptor))

/-- An IDLE flit (R68). -/
def Dev.sendIdle (d : Dev) (p : Nat) : Dev := d.emitFlit p 0 (d.get FLL_SEQ.NEXT_TX p) [] 0

/-- Granules in pieces of frames. -/
def granulesOf (ps : List Piece) : Nat := (ps.map (·.count)).sum

/-- The first n granules of a byte stream of frames, and the rest (R69). -/
def takeGranules (n : Nat) (ps : List Piece) : List Piece × List Piece :=
  match ps with
  | [] => ([], [])
  | x :: r =>
    if n = 0 then ([], x :: r)
    else if x.count ≤ n then (x :: (takeGranules (n - x.count) r).1, (takeGranules (n - x.count) r).2)
    else ([{ x with count := n }], { x with from_ := x.from_ + n, count := x.count - n } :: r)

/-- The bytes of granules of frames. -/
def pieceBytes (ps : List Piece) : List Byte :=
  ps.flatMap fun x => ((frameBytes x.frame).drop (x.from_ * 16)).take (x.count * 16)

/-- FIRST: the granule in which the first frame that starts in a flit begins, 15 when none does (R68). -/
def firstStart (at_ : Nat) (ps : List Piece) : Nat :=
  match ps with
  | [] => 15
  | x :: r => if x.from_ = 0 then at_ else firstStart (at_ + x.count) r

/-- A DATA flit is sent or sent again (R67 to R70, R78). -/
def Dev.sendData (d : Dev) (p : Nat) (replayed : Bool) (f : TxFlit) : Dev :=
  d.emitFlit p 1 f.seq (pieceBytes f.pieces) (flitDescriptor (firstStart 0 f.pieces) (granulesOf f.pieces) replayed)

/-- DATA flits leave while the link is ACTIVE, its replay buffer has room (R83) and the byte stream fills them: 14 granules each, or
with `flush`, as no other frame is to start, the last with what is left (R69). -/
def Dev.pumpFlits (d : Dev) (fuel p : Nat) (flush : Bool) : Dev :=
  match fuel with
  | 0 => d
  | n + 1 =>
    let l := d.link p
    let ready := if flush then l.stream ≠ [] else 14 ≤ granulesOf l.stream
    if ready ∧ l.unacked.length < d.replayCapacity p ∧ d.linkState p = 2 then
      let seq := d.get FLL_SEQ.NEXT_TX p
      let f : TxFlit := { seq := seq, pieces := (takeGranules 14 l.stream).1 }
      let d := d.setLink p fun l => { l with unacked := l.unacked ++ [f], stream := (takeGranules 14 l.stream).2 }
      (((d.put FLL_SEQ.NEXT_TX p ((seq + 1) % 16384)).showOutstanding p).sendData p false f).pumpFlits n p flush
    else d

/-- The byte stream of a link goes out in flits as far as it can (R69, R83). -/
def Dev.pump (d : Dev) (p : Nat) (flush : Bool) : Dev := d.pumpFlits (granulesOf (d.link p).stream + 1) p flush

/-- A fabric-link output sends a frame: its granules join the link's byte stream, and the flits they fill leave (R68, R69); HOPS counts
the link it crosses, but for formation frames, which go no further than the neighbour (R200, R480). A SYNC or DELAY_REQ takes its
departure stamp (R426). -/
def Dev.linkSend (d : Dev) (p : Nat) (f : Frame) : Dev :=
  let formation := match f.body with
    | .mgmt (.hello _) | .mgmt (.adj _) | .mgmt (.admitMsg _) => true
    | _ => false
  let f := if formation then f else { f with hops := f.hops + 1 }
  let f := match f.body with
    | .time m => if m.kind = TimeKind.delayRsp then f else { f with body := .time { m with stamp := d.now } }
    | _ => f
  let d := match f.body with
    | .time m => d.when (m.kind == TimeKind.delayReq) (·.departed p)
    | _ => d
  let d := d.setLink p fun l => { l with stream := l.stream ++ [{ frame := f, from_ := 0, count := f.len }] }
  (d.emit (.frame p f)).pump p false

/-! ### Gate lists -/

/-- The entries of a bank: S_OPEN and DURATION (R229). -/
def Dev.gateEntries (d : Dev) (bank : Nat) : List (Bool × Nat) :=
  (List.range (min 256 (d.get GATE_COUNT.COUNT bank))).map fun e =>
    (d.is GATE_ENTRY.S_OPEN (bank * 256 + e), d.get GATE_ENTRY.DURATION (bank * 256 + e))

/-- The instance of the bank in force, and of the pending one, of port p. -/
def Dev.activeBank (d : Dev) (p : Nat) : Nat := p * 2 + d.get WR_GATE_STATUS.BANK p
def Dev.pendingBank (d : Dev) (p : Nat) : Nat := p * 2 + (1 - d.get WR_GATE_STATUS.BANK p)

/-- BASE of a bank. -/
def Dev.gateBase (d : Dev) (bank : Nat) : Nat := d.get64 GATE_BASE_LO.BASE GATE_BASE_HI.BASE bank

/-- A list is valid (R229). -/
def gateListOk (base cycle : Nat) (entries : List (Bool × Nat)) : Bool :=
  decide (1 ≤ entries.length) && decide (entries.length ≤ 256) && entries.all (fun e => decide (1 ≤ e.2)) &&
    (entries.foldl (fun n e => n + e.2) 0) == cycle && decide (cycle ≤ 125000000) && base % 128 == 0

/-- A bank holds a valid list, its reserved bits zero (R229). -/
def Dev.bankOk (d : Dev) (bank : Nat) : Bool :=
  gateListOk (d.gateBase bank) (d.get GATE_CYCLE.CYCLE bank) (d.gateEntries bank) &&
    decide (d.get GATE_COUNT.COUNT bank ≤ 256) && d.get GATE_COUNT.RSV bank == 0 && d.get GATE_CYCLE.RSV bank == 0 &&
    (List.range (d.get GATE_COUNT.COUNT bank)).all fun e => d.get GATE_ENTRY.RSV (bank * 256 + e) == 0

/-- The entry in force at an offset into the cycle: its index and the units left of it. -/
def entryAt (entries : List (Bool × Nat)) (off : Nat) : Nat × Nat :=
  match entries with
  | [] => (0, 0)
  | e :: r => if off < e.2 then (0, e.2 - off) else ((entryAt r (off - e.2)).1 + 1, (entryAt r (off - e.2)).2)

/-- Length of the run of entries with one S_OPEN value at the front of a list. -/
def runOf (b : Bool) (entries : List (Bool × Nat)) : Nat :=
  match entries with
  | [] => 0
  | e :: r => if e.1 = b then e.2 + runOf b r else 0

/-- Units from an offset on for which S_OPEN keeps the value b, across the end of the cycle; none when it never changes. -/
def runFrom (b : Bool) (entries : List (Bool × Nat)) (off : Nat) : Option Nat :=
  if entries.all fun e => e.1 == b then none
  else
    let (i, left) := entryAt entries off
    match entries[i]? with
    | some e => if e.1 = b then some (left + runOf b (entries.drop (i + 1) ++ entries)) else some 0
    | none => some 0

/-- The longest cyclic run of entries with one S_OPEN value, in units (R235). -/
def longestRun (b : Bool) (entries : List (Bool × Nat)) : Nat :=
  if entries.all fun e => e.1 == b then entries.foldl (fun n e => n + e.2) 0
  else (List.range entries.length).foldl (fun n i => max n (runOf b (entries.drop i ++ entries))) 0

/-- Offset into the active list's cycle now, in 8 ns units (R230, R236). -/
def Dev.gateOffset (d : Dev) (p : Nat) : Nat :=
  let cycle := d.get GATE_CYCLE.CYCLE (d.activeBank p)
  if cycle = 0 then 0 else sinceTicks (d.gateBase (d.activeBank p)) d.now / 128 % cycle

/-- Ticks from now for which the S gate keeps the state b: by the active list, then by what becomes active at T_START
(R231, R233); none without end. -/
def Dev.gateRun (d : Dev) (p : Nat) (b : Bool) : Option Nat :=
  let o := d.outPort p
  let cur : Option Nat :=
    if d.is WR_GATE_STATUS.LIST p then (runFrom b (d.gateEntries (d.activeBank p)) (d.gateOffset p)).map (· * 128)
    else none
  match o.tstart with
  | none => cur
  | some t =>
    let ahead := sinceTicks d.now t
    let later : Option Nat :=
      if o.noList then (if b then none else some 0)
      else (runFrom b (d.gateEntries (d.pendingBank p)) 0).map (· * 128)
    match cur with
    | some n => if n < ahead then some n else later.map (ahead + ·)
    | none => later.map (ahead + ·)

/-- The S gate of port p is open (R221, R230). -/
def Dev.sOpen (d : Dev) (p : Nat) : Bool := d.is WR_GATE_STATUS.S_OPEN p

/-- A class S frame of n granules fits the rest of the open window (R231). -/
def Dev.sFits (d : Dev) (p n : Nat) : Bool :=
  match d.gateRun p true with
  | none => true
  | some t => decide (nsTicks (d.tx p n) ≤ t)

/-- The B gate allows a frame to start: the S gate is closed, or no list is active, and the guard band has not begun
(R232). -/
def Dev.bOpen (d : Dev) (p : Nat) : Bool :=
  let before := match d.gateRun p false with
    | none => true
    | some t => decide (nsTicks (d.get WR_PORT_GUARD.GUARD_NS p) < t)
  if d.is WR_GATE_STATUS.LIST p then !d.sOpen p && before
  else match (d.outPort p).tstart with
    | none => true
    | some t =>
      if (d.outPort p).noList then true
      else
        let opens := runFrom false (d.gateEntries (d.pendingBank p)) 0
        match opens with
        | none => true
        | some n => decide (nsTicks (d.get WR_PORT_GUARD.GUARD_NS p) < sinceTicks d.now t + n * 128)

/-- WR_GATE_STATUS shows the entry in force and the two gates (R239). -/
def Dev.showGates (d : Dev) (p : Nat) : Dev :=
  let d :=
    if d.is WR_GATE_STATUS.LIST p then
      let es := d.gateEntries (d.activeBank p)
      let i := (entryAt es (d.gateOffset p)).1
      (d.put WR_GATE_STATUS.ENTRY p i).mark WR_GATE_STATUS.S_OPEN p ((es.getD i (true, 0)).1)
    else (d.put WR_GATE_STATUS.ENTRY p 0).mark WR_GATE_STATUS.S_OPEN p true
  d.mark WR_GATE_STATUS.B_OPEN p (d.bOpen p)

/-- The guard band follows the width, the rate and B_MAX (R232, R233). -/
def Dev.recomputeGuard (d : Dev) (p : Nat) : Dev :=
  (d.put WR_PORT_GUARD.GUARD_NS p (d.tx p (d.get WR_PORT_CFG.B_MAX p))).showGates p

/-! ### Shapers -/

/-- Shaper n beside its registers. -/
def Dev.shaper (d : Dev) (n : Nat) : Shaper := SMap.get {} d.shapers n

/-- Shaper n becomes x. -/
def Dev.setShaper (d : Dev) (n : Nat) (x : Shaper) : Dev := { d with shapers := SMap.set {} d.shapers n x }

/-- Tokens of shaper n now, in units of 1/128,000 byte: they accrue at RATE up to BURST (R226). One Mb/s is one unit in each
tick. -/
def Dev.tokens (d : Dev) (n : Nat) : Int :=
  let x := d.shaper n
  let full : Int := x.burst * 64 * 128000
  let rate := d.get WR_SHP_RATE.RATE_MBPS n
  if rate = 0 then full else min full (x.exact + rate * (d.weir - x.at_ : Nat))

/-- TOKENS in bytes (R239). -/
def Dev.tokenBytes (d : Dev) (n : Nat) : Int := if (d.shaper n).at_ = 0 ∧ (d.shaper n).exact = 0 ∧
  d.get WR_SHP_RATE.RATE_MBPS n = 0 ∧ (d.shaper n).sent = 0 then 0 else d.tokens n / 128000

/-- The queue's shaper, where one is attached and its class heeds it (R220). -/
def Dev.shaperOf (d : Dev) (q : Nat) : Option Nat :=
  if d.is WR_Q_CFG.SHAPED q && decide (32 ≤ q % 128) then some (d.get WR_Q_CFG.SHAPER q) else none

/-- The first frame of a queue. -/
def Dev.headOf (d : Dev) (q : Nat) : Option QFrame := (d.queue q).frames.head?

/-- A head that has stood in the port's lock side list goes after those that came there before it (R159). -/
def Dev.sideTurn (d : Dev) (q : Nat) : Bool :=
  match (d.headOf q).bind (·.ticket) with
  | none => true
  | some t => (d.busyQueues (q / 128)).all fun x =>
    match (d.headOf x).bind (·.ticket) with
    | some u => decide (t ≤ u) || d.get BSN_Q_STATUS.STATE x != 0
    | none => true

/-- A queue is eligible: OPEN, and its shaper holds tokens ≥ 0 (R220); what a lock has released goes in its arrival order (R159). -/
def Dev.eligible (d : Dev) (q : Nat) : Bool :=
  d.get BSN_Q_STATUS.STATE q == 0 && d.sideTurn q &&
    (match d.shaperOf q with
     | some n => d.get WR_SHP_RATE.RATE_MBPS n == 0 || (d.shaper n).wheel.isNone
     | none => true)

/-- A multiple of 128 ticks not below n (R228). -/
def up8ns (n : Nat) : Nat := (n + 127) / 128 * 128

/-- The frame bytes of a selected frame are debited; tokens below 0 put the shaper on the wheel (R226, R228). -/
def Dev.debit (d : Dev) (q bytes : Nat) : Dev :=
  match d.shaperOf q with
  | none => d
  | some n =>
    let x := d.shaper n
    let rate := d.get WR_SHP_RATE.RATE_MBPS n
    if rate = 0 then d.setShaper n { x with sent := x.sent + bytes }
    else
      let t := d.tokens n - bytes * 128000
      let wheel :=
        if t < 0 then
          let due := up8ns (d.weir + ((-t).toNat + rate - 1) / rate)
          some (if due - d.weir < 524288 then 1 else 2, due)
        else none
      d.setShaper n { x with exact := t, at_ := d.weir, wheel := wheel, sent := x.sent + bytes }

/-- A write of WR_SHP_RATE commits rate and burst: tokens become BURST or 0, and the shaper leaves the wheel (R227). -/
def Dev.commitShaper (d : Dev) (n rate : Nat) (full : Bool) : Dev :=
  let d := (d.put WR_SHP_RATE.RATE_MBPS n rate).mark WR_SHP_RATE.RESET_FULL n full
  let burst := d.get WR_SHP_BURST.BURST n
  d.setShaper n
    { exact := if full ∨ rate = 0 then burst * 64 * 128000 else 0
      at_ := d.weir
      burst := burst
      wheel := none
      sent := 0
      since := d.weir }

/-! ### Selection -/

/-- The next queue of a class in round-robin order after slot `last` that p accepts (R221). -/
def Dev.roundRobin (d : Dev) (port cls last : Nat) (p : Nat → QFrame → Bool) : Option Nat :=
  ((List.range 32).map fun i => queueNo port (cls * 32 + (last + 1 + i) % 32)).find? fun q =>
    match d.headOf q with
    | some f => d.eligible q && p q f
    | none => false

/-- usable(q, f) of R223: eligible, and for class B the gate allows f, which is no longer than B_MAX (R234). -/
def Dev.usable (d : Dev) (q : Nat) : Bool :=
  match d.headOf q with
  | none => false
  | some f =>
    d.eligible q &&
      (f.frame.cls != .b || (d.bOpen (q / 128) && decide (f.frame.len ≤ d.get WR_PORT_CFG.B_MAX (q / 128))))

/-- A queue's quantum in bytes (R225). -/
def Dev.quantum (d : Dev) (q : Nat) : Nat := d.get WR_Q_CFG.QUANTUM q * 64

/-- The deficit round robin of an output (R223): the queue chosen, and the round as it leaves it. -/
def Dev.selectDrr (d : Dev) (fuel p : Nat) : Option Nat × Dev :=
  match fuel with
  | 0 => (none, d)
  | n + 1 =>
    let list := (d.outPort p).drr
    if !list.any d.usable then (none, d)
    else
      match list, list.head?.bind d.headOf with
      | q :: r, some f =>
        let d :=
          if d.usable q && !d.is WR_Q_DRR.STARTED q then
            (d.put WR_Q_DRR.DEFICIT q (d.get WR_Q_DRR.DEFICIT q + d.quantum q)).put WR_Q_DRR.STARTED q 1
          else d
        if d.usable q ∧ f.frame.len * 16 ≤ d.get WR_Q_DRR.DEFICIT q then
          (some q, d.put WR_Q_DRR.DEFICIT q (d.get WR_Q_DRR.DEFICIT q - f.frame.len * 16))
        else ((d.put WR_Q_DRR.STARTED q 0).setOut p fun o => { o with drr := r ++ [q] }).selectDrr n p
      | _, _ => (none, d)

/-- The queue an output selects from (R221), with the round robins as it leaves them. -/
def Dev.selectQueue (d : Dev) (p : Nat) : Option Nat × Dev :=
  let s := if d.sOpen p then d.roundRobin p 0 (d.outPort p).rrS fun _ f => d.sFits p f.frame.len else none
  match s with
  | some q => (some q, d.setOut p fun o => { o with rrS := q % 32 })
  | none =>
    match d.roundRobin p 1 (d.outPort p).rrC fun _ _ => true with
    | some q => (some q, d.setOut p fun o => { o with rrC := q % 32 })
    | none => d.selectDrr (70 * ((d.outPort p).drr.length + 1)) p

/-- An S window's opening was served `late` ns after T_open (R237). -/
def Dev.lateness (d : Dev) (p late : Nat) : Dev :=
  let d := d.put WR_GATE_STAT.MAX_LATE_NS p (max (d.get WR_GATE_STAT.MAX_LATE_NS p) (min late 65535))
  d.when (decide (d.get WR_PORT_CFG.LATE_LIMIT p * 8 < late)) fun d =>
    ((d.bump WR_GATE_STAT.LATE_COUNT p 1).count (portCtr p 61) 1).raiseLimited WR_PORT_EVENTS.GATE_LATE p p
      { die := 4, port := d.fpid p, detail := leBytes 4 late }

/-- The first class S frame of a window starts (R237); when it will end is noted for S_OVERRUN. -/
def Dev.startS (d : Dev) (p n : Nat) : Dev :=
  let d := match (d.outPort p).waitS with
    | some t => d.lateness p (sinceTicks t d.now / 16)
    | none => d
  d.setOut p fun o => { o with waitS := none, busyS := d.now + nsTicks (d.tx p n) }

/-- What reading a selected frame's cells finds (R194): the frame to send, or none when it is discarded; an error lies in one of the
frame's cells, counted from its first. -/
def Dev.readCells (d : Dev) (q : Nat) (qf : QFrame) (e : CellError) : Option Frame × Dev :=
  let p := q / 128
  let f := qf.frame
  let multi (d : Dev) (cell : Nat) : Dev :=
    ((d.count (portCtr p 53) 1).count (modCtr 1536 5) 1).raise BSN_EVENTS.ECC_MULTI 0
      { die := 4, port := f.src, gvh := f.gvh, object := q, addr := qf.cellNos.getD cell 0 }
  match e with
  | .clean => (some f, d)
  | .corrected n =>
    (some f, ((d.count (portCtr p 52) n).count (modCtr 1536 4) n).mask 0x05 (d.fpid p) q n 0)
  | .multiHeader => (none, multi d 0)
  | .multiOther cell => (if f.control then none else some { f with poison := true }, multi d (cell % max 1 qf.cellNos.length))

/-- The Basin words of a frame as an armed injection at point 3 or 4 makes them (R281). -/
def Dev.readInjected (d : Dev) (q : Nat) (f : QFrame) (e : CellError) : Option Frame × Dev :=
  let run (point : Nat) (x : CellError) : Option Frame × Dev :=
    let r := { d with injecting := true }.readCells q f x
    (r.1, Dev.consume { r.2 with injecting := d.injecting } point)
  if d.armedFor 3 q then run 3 (.corrected 1)
  else if d.armedFor 4 q then
    run 4 (if d.injections.any (fun i => i.point == 4 && i.argument == 0) then .multiHeader else .multiOther 0)
  else d.readCells q f e

/-- A frame leaves its output: into the link's flits, or to the edge bridge of a PCIe, CXL or internal output
(R219); a credit, time, management or console frame reaches the function it is for. -/
def Dev.sendOut (d : Dev) (p : Nat) (f : Frame) : Dev :=
  let d := ((d.count (portCtr p (44 + f.cls.code)) (f.len * 16)).count (portCtr p (48 + f.cls.code)) 1)
  let d := d.when (!internalPort p) (·.count (portCtr p 6) (d.tx p f.len))
  if d.fabricPort p then ((d.count (portCtr p 1) (f.len * 16)).count (portCtr p 3) 1).linkSend p f
  else if f.control || f.ftype == 6 then d.emit (.delivered p f)
  else { d with egress := d.egress ++ [(p, f)] }

/-- The frame at the head of queue q is selected and sent (R219 to R226); one whose header cannot be read is lost in transit (R194). -/
def Dev.serve (d : Dev) (p q : Nat) (e : CellError) : Dev :=
  match d.headOf q with
  | none => d
  | some f =>
    let v := d.queue q
    let d := (d.setQueue q { v with frames := v.frames.tail }).debit q (f.frame.len * 16)
    let d := d.when (f.frame.cls == .s) (·.startS p f.frame.len)
    match d.readInjected q f e with
    | (some g, d) => (((d.leave q f).leaveRound q).countQueue q (20 + f.frame.cls.code) (f.frame.len * 16)).sendOut p g
    | (none, d) => (d.leaveLost q f).leaveRound q

/-- A fabric link holds all the unacknowledged flits it may (R83). -/
def Dev.replayFull (d : Dev) (p : Nat) : Bool := decide (d.replayCapacity p ≤ (d.link p).unacked.length)

/-- An output may start a frame: a fabric link while it is ACTIVE and its replay buffer has room (R83), any other port
while it is trained, an internal attachment always (R219). -/
def Dev.canStart (d : Dev) (p : Nat) : Bool :=
  if d.halted then false
  else if d.fabricPort p then
    d.linkState p == 2 && !d.replayFull p
  else internalPort p || d.trained p

/-- A link whose replay buffer is full sends IDLE flits (R83). -/
def Dev.replayStall (d : Dev) (p : Nat) : Dev :=
  d.when (d.fabricPort p && d.linkState p == 2 && d.replayFull p) fun d =>
    let d := (d.count (portCtr p 23) 1).sendIdle p
    if (d.link p).stalled then d
    else (d.setLink p fun l => { l with stalled := true }).raise FLL_EVENTS.REPLAY_STALL p { port := d.fpid p }

/-- Frames of one cell in 64 Basin cycles at a width and rate: w × 7 ÷ 32 cells a cycle at 128 GT/s, half that at 64 GT/s (R174). -/
def cellRate (w rate : Nat) : Nat := if rate = 7 then w * 14 else w * 7

/-- The times of a list within the last 64 Basin cycles, 40 ns (R174). -/
def Dev.recent (d : Dev) (ts : List Nat) : List Nat := ts.filter fun t => decide (sinceTicks t d.now < nsTicks 40)

/-- The limit of R174 lets a fabric link start the frame at the head of queue q now; only frames of 2 granules can reach it. -/
def Dev.cellsFit (d : Dev) (p q : Nat) : Bool :=
  match d.headOf q with
  | some f =>
    !d.fabricPort p || f.frame.len != 2 ||
      decide ((d.recent (d.outPort p).small).length < cellRate (d.inUse p).1 (d.inUse p).2)
  | none => true

/-- A frame of 2 granules started on a fabric link counts toward the limit of R174. -/
def Dev.noteSmall (d : Dev) (p q : Nat) : Dev :=
  match d.headOf q with
  | some f => d.when (d.fabricPort p && f.frame.len == 2) fun d => d.setOut p fun o => { o with small := d.recent o.small ++ [d.now] }
  | none => d

/-- Some class S frame is eligible at output p (R237). -/
def Dev.sWaiting (d : Dev) (p : Nat) : Bool :=
  (d.busyQueues p).any fun q => decide (q % 128 < 32) && d.eligible q && (d.headOf q).isSome

/-- The S window that was open or closed before is audited as it opens or closes (R237). -/
def Dev.auditGate (d : Dev) (p : Nat) (was : Bool) : Dev :=
  if !was && d.sOpen p && d.is WR_GATE_STATUS.LIST p then
    (d.count (portCtr p 60) 1).setOut p fun o => { o with waitS := if d.sWaiting p then some d.now else none }
  else if was && !d.sOpen p then
    let d := match (d.outPort p).waitS with
      | some t => (d.lateness p (sinceTicks t d.now / 16)).setOut p fun o => { o with waitS := none }
      | none => d
    d.when (decide (d.now < (d.outPort p).busyS)) fun d =>
      (d.count (portCtr p 62) 1).raise WR_PORT_EVENTS.S_OVERRUN p { die := 4, port := d.fpid p }
  else d

/-- An entry begins at an output (R229, R237). -/
def Dev.gateBoundary (d : Dev) (p : Nat) : Dev :=
  if d.is WR_GATE_STATUS.LIST p then (d.showGates p).auditGate p (d.sOpen p) else d

/-- At T_START the old list of an output stops and the pending list, or none, becomes active (R230). -/
def Dev.gateStart (d : Dev) (p : Nat) : Dev :=
  match (d.outPort p).tstart with
  | none => d
  | some _ =>
    let was := d.sOpen p
    let none_ := (d.outPort p).noList
    let bank := d.get WR_GATE_STATUS.BANK p
    let d := d.setOut p fun o => { o with tstart := none, noList := false }
    let d := (d.put WR_GATE_STATUS.PENDING p 0).mark WR_GATE_STATUS.LIST p (!none_)
    let d := if none_ then d else d.put WR_GATE_STATUS.BANK p (1 - bank)
    (d.recomputeGuard p).auditGate p was

/-- What the gates of an output have come to counts as made before it selects: a pending list's T_START, an entry boundary (R219). -/
def Dev.gatesNow (d : Dev) (p : Nat) : Dev :=
  let due := match (d.outPort p).tstart with
    | some t => decide (t ≤ d.now)
    | none => false
  (d.when due (·.gateStart p)).gateBoundary p

/-- The calendar wheel at the present Weir time: at the start of a level-two slot its shapers move to level one, at the start of a level-one
slot its shapers receive their tokens and leave the wheel (R228). -/
def Dev.turnWheel (d : Dev) : Dev :=
  let w := d.weir
  let d := d.forEach (d.shapers.map (·.1)) fun d n =>
    match (d.shaper n).wheel with
    | some (2, due) =>
      if bitsOf due 30 19 = bitsOf w 30 19 then d.setShaper n { d.shaper n with wheel := some (1, due) } else d
    | _ => d
  d.forEach (d.shapers.map (·.1)) fun d n =>
    match (d.shaper n).wheel with
    | some (1, due) =>
      if bitsOf due 18 7 = bitsOf w 18 7 ∧ due ≤ w then
        d.setShaper n { d.shaper n with exact := max 0 (d.tokens n), at_ := w, wheel := none }
      else d
    | _ => d

/-- SHAPER_WHEEL_SLOT (R228). -/
def execShaperWheelSlot (s : State) : Host.Outcome State Fault Refusal := onDev s fun d => d.turnWheel

/-- A port before it selects: its shapers and gates as they stand now, the heads of its queues not aged and not blocked (R157, R189,
R219). -/
def Dev.readyPort (d : Dev) (p : Nat) : Dev :=
  let d := (d.turnWheel).gatesNow p
  d.forEach (d.busyQueues p) fun d q => d.readyHead (d.queue q).frames.length q

/-- FRAME_SELECTION: an output that can start a frame selects one and sends it; heads at their age limit go first, and requests a lock
blocks step aside (R159, R189, R221). A link that finds no other frame to start sends the granules it holds in a padded flit (R69), and one
that its next frame would take past the limit of R174 sends an IDLE flit. -/
def execFrameSelection (port : Fin 512) (cells : CellError) (s : State) : Host.Outcome State Fault Refusal :=
  onDev s fun d =>
    let p := port.val
    if d.canStart p then
      let d := d.readyPort p
      match d.selectQueue p with
      | (some q, d') =>
        if d.cellsFit p q then
          let d := ((d'.rateGo p).noteSmall p q).serve p q cells
          d.when (d.fabricPort p && (d.selectQueue p).1.isNone) (·.pump p true)
        else (d.rateWait p).sendIdle p
      | (none, d) => d.when (d.fabricPort p) (·.pump p true)
    else d.replayStall p

/-- Only the Curator writes; any other master's write has no effect and is recorded (R37). -/
def Dev.curatorOnly (d : Dev) (master addr : Nat) (f : Dev → Dev) : Dev :=
  if master = 0 then f d else d.accessRecord (subsystemAt addr) 0x72 master addr

/-- A register write that a rule ignores is recorded, where the rule says so (R279). -/
def Dev.valueRefused (d : Dev) (master addr : Nat) : Dev := d.accessRecord (subsystemAt addr) 0x73 master addr

/-- A write of WR_SHP_RATE to the selected shaper (R227, R239): a rate above 2,048,000 is ignored and recorded, and RESET_FULL takes effect
all the same (R528). -/
def Dev.writeShpRate (d : Dev) (master v : Nat) : Dev :=
  let n := d.get WR_SHP_SEL.SHAPER 0
  if 2048000 < bitsOf v 20 0 then (d.commitShaper n (d.get WR_SHP_RATE.RATE_MBPS n) (bitOf v 31)).valueRefused master 0x803800014
  else d.commitShaper n (bitsOf v 20 0) (bitOf v 31)

/-- WR_SHP_RATE_WRITE: a write commits rate and burst and resets the tokens (R227). -/
def execWrShpRateWrite (master : Fin 2048) (value : Word) (s : State) : Host.Outcome State Fault Refusal :=
  onDev s fun d => d.curatorOnly master 0x803800014 fun d => d.writeShpRate master value.toNat

/-- The first start of a cycle at or after a time: BASE + n × CYCLE, n ≥ 0 (R230). -/
def cycleStart (base cycle t : Nat) : Nat :=
  if t ≤ base then base else base + (t - base + cycle * 128 - 1) / (cycle * 128) * (cycle * 128)

/-- The pending bank is armed, or "no list" is: when it will take effect (R230). -/
def Dev.armGate (d : Dev) (p : Nat) : Option Nat × Dev :=
  let o := d.outPort p
  let bank := d.pendingBank p
  let count := d.get GATE_COUNT.COUNT bank
  let t := d.now + usTicks 10
  let replaced (d : Dev) : Dev := d.when o.tstart.isSome fun d =>
    (d.count (modCtr 1536 15) 1).raise WR_PORT_EVENTS.PENDING_REPLACED p { die := 4, port := d.fpid p }
  if count = 0 then
    if d.is WR_GATE_STATUS.LIST p then
      let at_ := cycleStart (d.gateBase (d.activeBank p)) (d.get GATE_CYCLE.CYCLE (d.activeBank p)) t
      (some at_, ((replaced d).setOut p fun o => { o with tstart := some at_, noList := true }).put
        WR_GATE_STATUS.PENDING p 1)
    else if o.tstart.isSome then
      (some t, ((replaced d).setOut p fun o => { o with tstart := some t, noList := true }).put WR_GATE_STATUS.PENDING p 1)
    else (some t, d)
  else
    let at_ := cycleStart (d.gateBase bank) (d.get GATE_CYCLE.CYCLE bank) t
    (some at_, ((replaced d).setOut p fun o => { o with tstart := some at_, noList := false }).put
      WR_GATE_STATUS.PENDING p 1)

/-- Bank k of port p is the active bank (R239). -/
def Dev.bankActive (d : Dev) (p k : Nat) : Bool := d.is WR_GATE_STATUS.LIST p && decide (k = d.get WR_GATE_STATUS.BANK p)

/-- A write of the pending bank's COUNT arms the switch; a write to the active bank, or one that completes an invalid list, is not taken
(R239, R229). -/
def Dev.writeGateCount (d : Dev) (master p k v : Nat) : Dev :=
  let b := p * 2 + k
  let addr := 0x80390000C + p * 0x1000 + k * 0x800
  if d.bankActive p k then d.valueRefused master addr
  else
    let before := (d.get GATE_COUNT.COUNT b, d.get GATE_COUNT.RSV b)
    let d := (d.put GATE_COUNT.COUNT b (bitsOf v 8 0)).put GATE_COUNT.RSV b (bitsOf v 31 9)
    let d := if k = d.get WR_GATE_STATUS.BANK p then d.put WR_GATE_STATUS.BANK p (1 - k) else d
    if bitsOf v 31 0 = 0 ∨ d.bankOk b then (d.armGate p).2.recomputeGuard p
    else ((d.put GATE_COUNT.COUNT b before.1).put GATE_COUNT.RSV b before.2).valueRefused master addr

/-- GATE_BANK_COUNT_WRITE (R239). -/
def execGateBankCountWrite (master : Fin 2048) (port : Fin 512) (bank : Fin 2) (value : Word) (s : State) :
    Host.Outcome State Fault Refusal :=
  onDev s fun d =>
    d.curatorOnly master (0x80390000C + port.val * 0x1000 + bank.val * 0x800) (·.writeGateCount master port bank value.toNat)

/-- GATE_LIST_START: at T_START the old list stops and the pending list, or none, becomes active (R230). -/
def execGateListStart (port : Fin 512) (s : State) : Host.Outcome State Fault Refusal :=
  onDev s fun d => d.gateStart port

/-- GATE_ENTRY_BOUNDARY: an entry begins; an S window that opens or closes is audited (R229, R237). -/
def execGateEntryBoundary (port : Fin 512) (s : State) : Host.Outcome State Fault Refusal :=
  onDev s fun d => d.gateBoundary port

/-- GUARD_BAND_RECOMPUTE: G follows a change of width or rate, and the B gate may close at once (R233). -/
def execGuardBandRecompute (port : Fin 512) (s : State) : Host.Outcome State Fault Refusal :=
  onDev s fun d => d.recomputeGuard port

/-- B_OVERSIZE: a class B frame longer than B_MAX at the head of its queue is discarded (R234). -/
def execBOversize (queue : Fin 65536) (s : State) : Host.Outcome State Fault Refusal :=
  onDev s fun d =>
    let q := queue.val
    let p := q / 128
    match d.headOf q with
    | none => d
    | some f =>
      if f.frame.cls = .b ∧ d.get WR_PORT_CFG.B_MAX p < f.frame.len then
        let v := d.queue q
        let d := ((d.setQueue q { v with frames := v.frames.tail }).leaveLost q f).leaveRound q
        (d.count (portCtr p 63) 1).raiseLimited WR_PORT_EVENTS.B_OVERSIZE p p { die := 4, port := d.fpid p, object := q }
      else d

/-- SHAPER_AUDIT: the bytes each shaper's queues sent since the last audit are checked against BURST + 4,160 + RATE × (t +
8 ns) (R226, R238); a fault may have added bytes. -/
def execShaperAudit (faulty : List (Fin 16384)) (s : State) : Host.Outcome State Fault Refusal :=
  onDev s fun d =>
    d.forEach (d.shapers.map (·.1)) fun d n =>
      let x := d.shaper n
      let rate := d.get WR_SHP_RATE.RATE_MBPS n
      let bound := x.burst * 64 + 4160 + rate * (d.weir - x.since + 128) / 128000
      let excess := decide (rate ≠ 0) && (decide (bound < x.sent) || (faulty.map (·.val)).contains n)
      let d := d.setShaper n { x with sent := 0, since := d.weir }
      d.when excess fun d => (d.count (modCtr 1536 14) 1).raise WR_EVENTS.SHAPER_AUDIT 0 { die := 4, object := n }

end Sys2Proof.Machine
end

