-- ==== Sys2Proof/Machine/Routing.lean ====
section
/-! DEFINITION. Fabric addressing and routing: header checks, route and pin tables, cut points, link withdrawal and the
Address Translation Table (R197 to R216). -/

namespace Sys2Proof.Machine

/-- The instances of a field that do not hold their reset value. -/
def Dev.instances (d : Dev) (f : Fld) : List Nat := (d.regs.filter fun e => e.1 % 8192 == f.code).map (·.1 / 8192)

/-- A frame is put to the Route Engine, as received on a port or injected at one (R22). -/
def Dev.arrive (d : Dev) (ingress : Nat) (f : Frame) : Dev := { d with arrived := d.arrived ++ [(ingress, f)] }

/-- A management frame from a local port to an FPID: class C, handle 0x7F_FFFF (R197, R199, R200); a formation frame as long as its body
(R480), any other of 3 granules (log entry 97). -/
def Dev.mgmt (d : Dev) (p dst : Nat) (m : MgmtMsg) : Dev :=
  d.arrive p
    { ftype := 5, cls := .c, len := mgmtGranules m, dst := dst, src := d.fpid p, gvh := gvhModule, itime := d.now % 2 ^ 32,
      body := .mgmt m }

/-- A management frame from the management-die bridge to that of another module. -/
def Dev.tell (d : Dev) (modul : Nat) (m : MgmtMsg) : Dev := d.mgmt 511 (fpidOf modul 511) m

/-- A management frame to the Registrar, where one is known. -/
def Dev.tellRegistrar (d : Dev) (m : MgmtMsg) : Dev :=
  match d.registrar with
  | some r => d.tell r m
  | none => d

/-- A port has trained as an edge port (R18): the Registrar assigns it, or records that it is beyond the 65,536th; the Registrar of another
module is told. -/
def Dev.takeEdge (d : Dev) (p : Nat) : Dev :=
  let f := d.fpid p
  if d.registrar ≠ some d.moduleId then d.tellRegistrar (.report "edge port trained" [f])
  else if d.edges.contains f then d
  else if d.edges.length < 65536 then { d with edges := d.edges ++ [f], edgesOut := d.edgesOut.filter (· ≠ p) }
  else { d with edgesOut := d.edgesOut.filter (· ≠ p) ++ [p] }.recordUncoded 0x10 .other { port := f, die := dieOf p }

/-- A Vitrine may use the port: it is configured and not refused by the Registrar (R18). -/
def Dev.edgeUsable (d : Dev) (p : Nat) : Bool := d.configured p && !d.edgesOut.contains p

/-- H of a flow: CRC-32C over this module's ID, SRC, DST, GVH and CLASS (R205). -/
def pathHash (modul src dst gvh : Nat) (cls : Cls) : Nat :=
  crc32c (beBytes 2 modul ++ beBytes 3 src ++ beBytes 3 dst ++ beBytes 3 gvh ++ beBytes 1 cls.code)

/-- Slot j of group g is usable: VALID and not WITHDRAWN (R205). -/
def Dev.slotUsable (d : Dev) (g j : Nat) : Bool :=
  d.is RTE_GRP_SLOT.VALID (g * 16 + j) && !d.is RTE_GRP_SLOT.WITHDRAWN (g * 16 + j)

/-- The port of a candidate group that a hash chooses (R205). -/
def Dev.groupPort (d : Dev) (g n h : Nat) : Option Nat :=
  (((List.range n).map fun i => (h % n + i) % n).find? (d.slotUsable g)).map fun j => d.get RTE_GRP_SLOT.PORT (g * 16 + j)

/-- The Module Route Table entry of a module is usable (R204). -/
def Dev.reachable (d : Dev) (m : Nat) : Bool :=
  d.is RTE_MRT.VALID m && decide (1 ≤ d.get RTE_MRT.NCAND m) && decide (d.get RTE_MRT.NCAND m ≤ 16)

/-- The port an entry steers a frame to: an active entry to the new or the old port by ITIME, a pending one to the old port
(R206, R210). -/
def pinPort (e : Pin) (src dst itime : Nat) : Option Nat :=
  if ¬e.valid ∨ e.src ≠ src ∨ e.dst ≠ dst then none
  else if e.pending then (if e.oldValid then some e.oldPort else none)
  else if (itime + 2 ^ 32 - e.tcut % 2 ^ 32) % 2 ^ 32 < 2 ^ 31 then some e.newPort
  else if e.oldValid then some e.oldPort
  else some e.newPort

/-- The output of a frame for another module: its pin entry's, or its hash path's (R205, R206). -/
def Dev.pathPort (d : Dev) (f : Frame) : Option Nat :=
  match d.pins.findSome? fun e => pinPort e.2 f.src f.dst f.itime with
  | some p => some p
  | none =>
    let m := fpidModule f.dst
    d.groupPort (d.get RTE_MRT.GROUP m) (d.get RTE_MRT.NCAND m) (pathHash d.moduleId f.src f.dst f.gvh f.cls)

/-- A frame is discarded by the Route Engine, with its event and counter (R201, R202, R203). -/
def Dev.routeDrop (d : Dev) (ingress ctr : Nat) (f : Fld) (gvh : Nat) : Dev :=
  (d.count (portCtr ingress ctr) 1).raiseLimited f 0 ingress { die := 4, port := d.fpid ingress, gvh := gvh }

/-- A formation message (R202, R480). -/
def formationBody (b : Body) : Bool :=
  match b with
  | .mgmt (.hello _) | .mgmt (.adj _) | .mgmt (.admitMsg _) => true
  | _ => false

/-- A frame is malformed on receipt (R201). -/
def Dev.badHeader (d : Dev) (ingress : Nat) (f : Frame) : Bool :=
  reservedType f.ftype || decide (f.len < 2) || decide (260 < f.len) || decide (4 < f.hops) ||
    (f.ftype == 4 && f.dst != d.fpid ingress)

/-- A frame is checked, delivered locally or routed (R201 to R206). -/
def Dev.route (d : Dev) (ingress : Nat) (f : Frame) : Dev :=
  if d.badHeader ingress f then d.routeDrop ingress 55 RTE_EVENTS.BAD_HEADER 0xFFFFFFFF
  else if f.ftype = 4 then d.emit (.delivered ingress f)
  else if f.ftype = 5 ∧ f.hops = 0 ∧ formationBody f.body then d.emit (.delivered 511 f)
  else if fpidModule f.dst = d.moduleId then
    let p := fpidPort f.dst
    if internalPort p || d.hostFacing p || d.deviceFacing p then { d with routed := d.routed ++ [(ingress, p, f)] }
    else d.routeDrop ingress 57 RTE_EVENTS.NO_ROUTE f.gvh
  else if !d.reachable (fpidModule f.dst) then d.routeDrop ingress 57 RTE_EVENTS.NO_ROUTE f.gvh
  else if 4 < f.hops + d.get RTE_MRT.DIST (fpidModule f.dst) then d.routeDrop ingress 56 RTE_EVENTS.HOP_LIMIT f.gvh
  else
    match d.pathPort f with
    | some p => { d with routed := d.routed ++ [(ingress, p, f)] }
    | none => d.routeDrop ingress 57 RTE_EVENTS.NO_ROUTE f.gvh

/-- FRAME_ROUTE: the frame that arrived first is checked and delivered or routed (R201 to R206). -/
def execFrameRoute (s : State) : Host.Outcome State Fault Refusal :=
  onDev s fun d =>
    match d.arrived with
    | [] => d
    | (ingress, f) :: r => ({ d with arrived := r }).route ingress f

/-- Frames queued toward a port are discarded, lost in transit (R214, R88). -/
def Dev.discardToward (d : Dev) (p : Nat) : Dev :=
  d.forEach (d.busyQueues p) fun d q => d.dropFrames q (fun _ => false) fun d _ => d

/-- A pin entry loses a withdrawn port (R214). -/
def pinWithout (p : Nat) (e : Pin) : Pin :=
  { e with oldValid := e.oldValid && e.oldPort != p, valid := e.valid && e.newPort != p }

/-- A fabric link is withdrawn (R214). -/
def Dev.withdrawLink (d : Dev) (p : Nat) : Dev :=
  let slots := (d.instances RTE_GRP_SLOT.VALID).filter fun i => d.get RTE_GRP_SLOT.PORT i == p
  let d := d.forEach slots fun d i => d.put RTE_GRP_SLOT.WITHDRAWN i 1
  let d := d.forEach d.pins fun d e =>
    let e' := pinWithout p e.2
    ({ d with pins := SMap.set {} d.pins e.1 e' }.mark PIN_CTL.VALID e.1 e'.valid).mark PIN_OLD.OLD_VALID e.1 e'.oldValid
  let d := (d.discardToward p).count (modCtr 1536 12) 1
  (d.raise RTE_EVENTS.LINK_WITHDRAWN 0 { die := dieOf p, port := d.fpid p }).tellRegistrar (.linkWithdrawn p)

/-- LINK_WITHDRAWAL: a fabric link leaves service (R214). -/
def execLinkWithdrawal (port : Fin 512) (s : State) : Host.Outcome State Fault Refusal :=
  onDev s fun d => d.when (d.fabricPort port) (·.withdrawLink port)

/-- The Curator writes a slot word: WITHDRAWN clears (R204, R214). -/
def Dev.writeSlot (d : Dev) (i v : Nat) : Dev :=
  ((d.mark RTE_GRP_SLOT.VALID i (bitOf v 31)).put RTE_GRP_SLOT.PORT i (bitsOf v 8 0)).put RTE_GRP_SLOT.WITHDRAWN i 0

/-- WITHDRAWN_CLEAR: a slot is written anew with tables from the Registrar (R214). -/
def execWithdrawnClear (master : Fin 2048) (slot : Fin 65536) (value : Word) (s : State) :
    Host.Outcome State Fault Refusal :=
  onDev s fun d => d.curatorOnly master (0x803040000 + slot.val * 4) fun d => d.writeSlot slot value.toNat

/-- The pin entry in the words of the table. -/
def Dev.pinWords (d : Dev) (n : Nat) : Pin :=
  { valid := d.is PIN_CTL.VALID n, pending := d.is PIN_CTL.PENDING n, newPort := d.get PIN_CTL.NEW_PORT n,
    src := d.get PIN_SRC.FPID n, dst := d.get PIN_DST.FPID n, oldValid := d.is PIN_OLD.OLD_VALID n,
    oldPort := d.get PIN_OLD.OLD_PORT n, tcut := d.get64 PIN_TCUT_LO.TCUT PIN_TCUT_HI.TCUT n }

/-- A write of a pin entry's word 0 puts the entry into effect (R206); a pending one is acknowledged to the Registrar
(R209). -/
def Dev.writePin (d : Dev) (n v : Nat) : Dev :=
  let d := ((d.mark PIN_CTL.VALID n (bitOf v 31)).mark PIN_CTL.PENDING n (bitOf v 30)).put PIN_CTL.NEW_PORT n (bitsOf v 8 0)
  let e := d.pinWords n
  let d := { d with pins := SMap.set {} d.pins n e }
  d.when (e.valid && e.pending) (·.tellRegistrar (.pinAck n))

/-- PATH_PIN_ENTRY_WRITE (R206). -/
def execPathPinEntryWrite (master : Fin 2048) (entry : Fin 16384) (value : Word) (s : State) :
    Host.Outcome State Fault Refusal :=
  onDev s fun d => d.curatorOnly master (0x803100000 + entry.val * 32) fun d => d.writePin entry value.toNat

/-- PIN_ENTRY_ACK: a module acknowledges a pending entry of a cut point, or the pending upstream change of a Vitrine
(R209, R262). -/
def execPinEntryAck (modul : Fin 8192) (tcut : Nat) (s : State) : Host.Outcome State Fault Refusal :=
  onDev s fun d =>
    let d := { d with pinAcks := d.pinAcks.filter (fun (a : Nat × Nat) => !(a.1 == tcut && a.2 == modul.val)) ++ [(tcut, modul.val)] }
    d.forEach (d.vits.map (·.1)) fun d lv =>
      if (d.vit lv).tcut2 = some tcut then d.setVit lv fun v => { v with unacked := v.unacked.filter (· ≠ modul.val) } else d

/-- Pin entry n becomes e, in effect and in its words. -/
def Dev.setPin (d : Dev) (n : Nat) (e : Pin) : Dev :=
  let d := { d with pins := SMap.set {} d.pins n e }
  let d := ((d.mark PIN_CTL.VALID n e.valid).mark PIN_CTL.PENDING n e.pending).put PIN_CTL.NEW_PORT n e.newPort
  let d := ((d.put PIN_SRC.FPID n e.src).put PIN_DST.FPID n e.dst).mark PIN_OLD.OLD_VALID n e.oldValid
  (d.put PIN_OLD.OLD_PORT n e.oldPort).put64 PIN_TCUT_LO.TCUT PIN_TCUT_HI.TCUT n e.tcut

/-- The injecting edge of a re-pinned window holds its frames and sends a DRAIN in each class (R211). -/
def Dev.startDrain (d : Dev) (src dst tcut : Nat) : Dev :=
  d.forEach (d.wins.filter fun w => w.2.src == src && w.2.dst == dst) fun d w =>
    let d := { d with wins := SMap.modify {} d.wins w.1 fun x => { x with drain := [.s, .c, .l, .b] } }
    d.forEach [Cls.s, .c, .l, .b] fun d c =>
      d.arrive (fpidPort src)
        { ftype := 5, cls := c, len := 3, dst := dst, src := src, gvh := gvhModule,
          itime := (tcut + 2 ^ 32 - 1) % 2 ^ 32, body := .mgmt (.drain src dst c) }

/-- Every pending entry whose TCUT has come becomes active (R210), and the injecting edges of the windows concerned drain the
old path (R211). -/
def Dev.activatePins (d : Dev) : Dev :=
  let due := d.pins.filter fun e => e.2.valid && e.2.pending && decide (e.2.tcut ≤ d.now)
  d.forEach due fun d e =>
    let d := (d.setPin e.1 { e.2 with pending := false }).count (modCtr 1536 10) 1
    d.when (fpidModule e.2.src == d.moduleId) fun d =>
      let d := { d with wins := d.wins.map fun (w : Nat × Win) =>
        if w.2.src = e.2.src ∧ w.2.dst = e.2.dst then (w.1, { w.2 with out := e.2.newPort }) else w }
      d.startDrain e.2.src e.2.dst e.2.tcut

/-- PIN_CUT_POINT (R210, R211). -/
def execPinCutPoint (s : State) : Host.Outcome State Fault Refusal := onDev s fun d => d.activatePins

/-- REPIN_ABORTED: a cut point came and a module that wrote or took entries had not acknowledged: the entries are withdrawn,
the window keeps its old path, and the command that asked fails (R209). -/
def execRepinAborted (tcut : Nat) (modules : List (Fin 8192)) (command : Option CmdHdr) (s : State) :
    Host.Outcome State Fault Refusal :=
  onDev s fun d =>
    let missing := modules.any fun m => !d.pinAcks.contains (tcut, m.val)
    d.when missing fun d =>
      let d := d.forEach (d.pins.filter fun e => e.2.pending && e.2.tcut == tcut) fun d e =>
        d.setPin e.1 { e.2 with pending := false, valid := e.2.oldValid, newPort := e.2.oldPort, oldValid := false }
      let d := { d with pinAcks := d.pinAcks.filter fun a => a.1 != tcut }
      let d := (d.count (modCtr 1536 11) 1).raise RTE_EVENTS.REPIN_ABORTED 0 { die := 4 }
      match command with
      | some h =>
        match d.cmds.find? (Cmd.matches h) with
        | some c => d.finish h c.opcode Status.repinAborted
        | none => d
      | none => d

/-- DRAIN: the marker reaches the destination edge, which answers on its own return path (R211). -/
def execDrain (src dst : Fin 4194304) (cls : Cls) (s : State) : Host.Outcome State Fault Refusal :=
  onDev s fun d =>
    d.when (fpidModule dst == d.moduleId) fun d => d.mgmt (fpidPort dst) src (.drainAck src dst cls)

/-- A class of a window leaves its drain. -/
def Dev.endDrain (d : Dev) (w : Nat) (cls : Cls) : Dev :=
  { d with wins := SMap.modify {} d.wins w fun x => { x with drain := x.drain.filter (· ≠ cls) } }

/-- OLD_PATH_EXPIRY: 100 ms after TCUT OLD_VALID clears (R212). -/
def execOldPathExpiry (s : State) : Host.Outcome State Fault Refusal :=
  onDev s fun d =>
    let due := d.pins.filter fun e =>
      e.2.oldValid && !e.2.pending && decide (msTicks 100 ≤ sinceTicks e.2.tcut d.now)
    d.forEach due fun d e => d.setPin e.1 { e.2 with oldValid := false }

/-! ### Address translation -/

/-- The translation entry in the words of the table. -/
def Dev.attWords (d : Dev) (n : Nat) : Att :=
  { valid := d.is ATT_CTL.VALID n, sizeLog2 := d.get ATT_CTL.SIZE_LOG2 n, lvid := d.get ATT_CTL.LVID n,
    fpid := d.get ATT_FPID.FPID n, host := d.get64 ATT_HOST_LO.BASE ATT_HOST_HI.BASE n,
    ep := d.get64 ATT_EP_LO.BASE ATT_EP_HI.BASE n }

/-- A write of a translation entry's word 0 puts the entry into effect (R215). -/
def Dev.writeAtt (d : Dev) (n v : Nat) : Dev :=
  let d := ((d.mark ATT_CTL.VALID n (bitOf v 31)).put ATT_CTL.SIZE_LOG2 n (bitsOf v 21 16)).put ATT_CTL.LVID n (bitsOf v 9 0)
  { d with atts := SMap.set {} d.atts n (d.attWords n) }

/-- ATT_ENTRY_WRITE (R215). -/
def execAttEntryWrite (master : Fin 2048) (entry : Fin 65536) (value : Word) (s : State) :
    Host.Outcome State Fault Refusal :=
  onDev s fun d => d.curatorOnly master (0x803200000 + entry.val * 32) fun d => d.writeAtt entry value.toNat

/-- Translation entry n becomes e, in effect and in its words. -/
def Dev.setAtt (d : Dev) (n : Nat) (e : Att) : Dev :=
  let d := { d with atts := SMap.set {} d.atts n e }
  let d := ((d.mark ATT_CTL.VALID n e.valid).put ATT_CTL.SIZE_LOG2 n e.sizeLog2).put ATT_CTL.LVID n e.lvid
  ((d.put ATT_FPID.FPID n e.fpid).put64 ATT_HOST_LO.BASE ATT_HOST_HI.BASE n e.host).put64
    ATT_EP_LO.BASE ATT_EP_HI.BASE n e.ep

/-- An entry holds a Vitrine's address (R215). -/
def attHolds (e : Att) (lv addr : Nat) : Bool :=
  e.valid && e.lvid == lv && decide (e.host ≤ addr) && decide (addr < e.host + 2 ^ e.sizeLog2)

/-- A Vitrine's address translated: destination FPID, address there, and whether entries overlap (R215). -/
def Dev.translate (d : Dev) (lv addr : Nat) : Option (Nat × Nat × Bool) :=
  match d.atts.filter fun e => attHolds e.2 lv addr with
  | [] => none
  | e :: r => some (e.2.fpid, e.2.ep + (addr - e.2.host), !r.isEmpty)

end Sys2Proof.Machine
end

