-- ==== Sys2Proof/Machine/Windows.lean ====
section
/-! DEFINITION. The Range Attribute Table and the read cache of the fabric-window bridge (R161 to R170), and the loads and
stores it holds. -/

namespace Sys2Proof.Machine

/-- First byte and size of the fabric window in the Docent address map (R406). -/
def windowBase : Nat := 0x2000000000
def windowSize : Nat := 0x10000000000

/-- A master may use an entry of the table (R161). -/
def Dev.ratAllows (d : Dev) (i master : Nat) : Bool :=
  if master = 0 then d.is EBR_RAT_ATTR.CURATOR i
  else decide (0x010 ≤ master) && decide (master ≤ 0x01F) && bitOf (d.get EBR_RAT_ATTR.DOCENT_MASK i) (master - 0x010)

/-- The lowest-numbered entry that holds a window offset and that a master may use (R161). -/
def Dev.ratEntry (d : Dev) (master off : Nat) : Option Nat :=
  (List.range 64).find? fun i =>
    d.is EBR_RAT_BASE.VALID i && decide (d.get EBR_RAT_BASE.BASE_PG i ≤ off / 4096) &&
      decide (off / 4096 ≤ d.get EBR_RAT_LIMIT.LIMIT_PG i) && d.ratAllows i master

/-- The entry an access goes by; none for one the table or its alignment refuses (R161), or that reaches no function of a configuration
range, which has 256 (log entry 33). -/
def Dev.ratCheck (d : Dev) (master off bytes : Nat) (store : Bool) : Option Nat :=
  match d.ratEntry master off with
  | none => none
  | some i =>
    let page := off / 4096 - d.get EBR_RAT_BASE.BASE_PG i
    if off % bytes = 0 ∧ (!store ∨ d.is EBR_RAT_ATTR.WRITE i) ∧ ¬(d.get EBR_RAT_ATTR.KIND i = 1 ∧ 256 ≤ page) then some i else none

/-- The endpoint address of a window offset in an entry (R161). -/
def Dev.ratAddress (d : Dev) (i off : Nat) : Nat :=
  d.get64 EBR_RAT_XLATE_LO.ADDR EBR_RAT_XLATE_HI.ADDR i + (off - d.get EBR_RAT_BASE.BASE_PG i * 4096)

/-- Entry i is in configuration space (R161). -/
def Dev.ratCfg (d : Dev) (i : Nat) : Bool := d.get EBR_RAT_ATTR.KIND i == 1

/-- Entry i prefetches (R164). -/
def Dev.ratPrefetch (d : Dev) (i : Nat) : Bool := d.is EBR_RAT_ATTR.MODE i && !d.ratCfg i

/-- A line that leaves the cache without having been read is discarded: logged, counted, with its reason (R165, R169, R170). -/
def Dev.discardLine (d : Dev) (l : PfLine) (reason : Nat) : Dev :=
  if l.read then d
  else
    let n := d.get EBR_PFLOG_HEAD.NEXT 0
    let d := { d with pfLog := SMap.set {} d.pfLog n ⟨d.now, l.line * 64, l.entry, reason, d.pfSeq⟩, pfSeq := (d.pfSeq + 1) % 2 ^ 32 }
    let d := (d.put EBR_PFLOG_HEAD.NEXT 0 ((n + 1) % 256)).count (modCtr 1538 36) 1
    let total := d.get64 EBR_RAT_PFDISC_LO.BYTES EBR_RAT_PFDISC_HI.BYTES l.entry
    d.put64 EBR_RAT_PFDISC_LO.BYTES EBR_RAT_PFDISC_HI.BYTES l.entry ((total + 64) % 2 ^ 64)

/-- The lines p picks are invalidated, for a reason (R165). -/
def Dev.dropLines (d : Dev) (p : PfLine → Bool) (reason : Nat) : Dev :=
  let out := d.pfLines.filter p
  let d := { d with pfLines := d.pfLines.filter fun l => !p l }
  d.forEach out fun d l => d.discardLine l reason

/-- A change of an entry invalidates its lines (R162, R165). -/
def Dev.entryChanged (d : Dev) (i : Nat) : Dev := d.dropLines (fun l => l.entry == i) 4

/-- A line is fetched; the least recently used one makes room (R164). -/
def Dev.addLine (d : Dev) (l : PfLine) : Dev :=
  let d := d.dropLines (fun x => x.line == l.line && x.entry == l.entry) 1
  let d := match d.pfLines with
    | old :: rest => if 64 ≤ d.pfLines.length then Dev.discardLine { d with pfLines := rest } old 1 else d
    | [] => d
  (({ d with pfLines := d.pfLines ++ [l] }).count (modCtr 1538 35) 1)

/-- A line is read, and is the most recently used now (R164). -/
def Dev.touchLine (d : Dev) (l : PfLine) : Dev :=
  let rest := d.pfLines.filter fun (x : PfLine) => !(x.line == l.line && x.entry == l.entry)
  ({ d with pfLines := rest ++ [{ l with read := true }] }).count (modCtr 1538 37) 1

/-- The line that holds a load wholly, if it is valid (R164). -/
def Dev.findLine (d : Dev) (i off bytes : Nat) : Option PfLine :=
  if off % 64 + bytes ≤ 64 then d.pfLines.find? fun l => l.entry == i && l.line == off / 64 else none

/-! ### Faults and results -/

/-- A master that is Docent k has master ID 0x010 + k (R402). -/
def docentOf (master : Nat) : Option Nat := if 0x010 ≤ master ∧ master ≤ 0x01F then some (master - 0x010) else none

/-- A core changes. -/
def Dev.setCore (d : Dev) (k : Nat) (f : Core → Core) : Dev := { d with cores := SMap.modify {} d.cores k f }

/-- A core beside its registers. -/
def Dev.core (d : Dev) (k : Nat) : Core := SMap.get {} d.cores k

/-- A core raises an exception of a RISC-V cause at an address; its reservation is lost (R415). -/
def Dev.coreTrap (d : Dev) (master cause addr : Nat) : Dev :=
  match docentOf master with
  | some k => (d.setCore k fun c => { c with reserved := none, holdUntil := none }).emit (.signal "docent exception" [k, cause, addr])
  | none => d.emit (.signal "curator exception" [master, cause, addr])

/-- An access fault that R32 or R161 records. -/
def Dev.coreFault (d : Dev) (subsystem master cause addr : Nat) : Dev := (d.accessRecord subsystem 0x74 master addr).coreTrap master cause addr

/-- The loads of a master that hold a parking slot (R163). -/
def Dev.readsOf (d : Dev) (master : Nat) : List WinRead := d.winReads.filter fun (r : WinRead) => r.master == master

/-- The first load that p picks changes, or retires when f gives none. -/
def changeRead (p : WinRead → Bool) (f : WinRead → Option WinRead) (rs : List WinRead) : List WinRead :=
  match rs with
  | [] => []
  | r :: rest => if p r then (match f r with
      | some r' => r' :: rest
      | none => rest) else r :: changeRead p f rest

/-- A load retires with its data. -/
def Dev.returnRead (d : Dev) (r : WinRead) (data : List Byte) : Dev :=
  d.emit (.readData r.master (windowBase + r.addr) (ofLeBytes data))

/-- The data of a window request arrives (R164, R166): a line enters the cache; a load returns, or is parked once detached. -/
def Dev.windowData (d : Dev) (tag : Nat) (data : List Byte) : Dev :=
  match d.winReads.find? fun (r : WinRead) => r.tag == some tag with
  | some r =>
    let d := d.when r.prefetch (·.addLine ⟨r.entry, r.addr / 64, data, d.now, true⟩)
    let own := (if r.prefetch then data.drop (r.addr % 64) else data).take r.bytes
    if r.detached then
      { d with winReads := changeRead (fun x => x.tag == some tag) (fun x => some { x with parked := some own }) d.winReads }
    else Dev.returnRead { d with winReads := changeRead (fun x => x.tag == some tag) (fun _ => none) d.winReads } r own
  | none =>
    match d.winFetches.find? fun (f : WinFetch) => f.tag == tag with
    | some f =>
      Dev.addLine { d with winFetches := d.winFetches.filter fun (x : WinFetch) => x.tag != tag } ⟨f.entry, f.line, data, d.now, false⟩
    | none => d

/-- A window request ends with an error (R167, R168): an access fault for a load; a line beyond the requested one is logged as discarded; a
configuration write is recorded. -/
def Dev.windowError (d : Dev) (tag : Nat) (write : Bool) (master : Nat) : Dev :=
  if write then d.recordUncoded 0x04 .windowConfig { object := master }
  else
    match d.winReads.find? fun (r : WinRead) => r.tag == some tag with
    | some r =>
      let d := { d with winReads := changeRead (fun x => x.tag == some tag) (fun _ => none) d.winReads }
      d.coreTrap r.master 5 (windowBase + r.addr)
    | none =>
      match d.winFetches.find? fun (f : WinFetch) => f.tag == tag with
      | some f =>
        Dev.discardLine { d with winFetches := d.winFetches.filter fun (x : WinFetch) => x.tag != tag } ⟨f.entry, f.line, [], d.now, false⟩ 5
      | none => d

/-! ### Stores toward contained ports -/

/-- The target of table entry i. -/
def Dev.ratTarget (d : Dev) (i : Nat) : Nat := d.get EBR_RAT_TARGET.FPID i

/-- A port is contained at the bridge (R268, R414): its own module's state, or the notice of another's. -/
def Dev.windowContained (d : Dev) (fpid : Nat) : Bool :=
  if fpidModule fpid = d.moduleId then d.get SLC_CONT_STATE.STATE (fpidPort fpid) != 0 else d.heldRemote.contains fpid

/-- A store toward a contained port is discarded, recorded and counted against its core (R168, R414). -/
def Dev.discardStore (d : Dev) (w : WinStore) : Dev :=
  let fpid := d.ratTarget w.entry
  let p := if fpidModule fpid = d.moduleId then fpidPort fpid else 511
  let d := d.raise EBR_EVENTS.STORE_DISCARDED p { port := fpid, object := w.master, addr := windowBase + w.addr }
  match docentOf w.master with
  | some k =>
    ((d.bump DOC_WSTORE_LOST.STORES k 1).count (modCtr 1538 (18 + k)) 1).raise DOC_EVENTS.WSTORE_LOST k { object := w.master, port := fpid, addr := windowBase + w.addr }
  | none => d

/-- A FENCE or WFI retires once its core's buffer is empty and every store from it has been accepted (R413, R418). -/
def Dev.settle (d : Dev) (k : Nat) : Dev :=
  let c := d.core k
  if c.stb.isEmpty && !(d.winStores.any fun (w : WinStore) => w.master == 0x010 + k) && (c.fence || c.wfi) then
    let d := d.setCore k fun c => { c with fence := false, wfi := false }
    d.when (c.wfi && !c.timer) (·.put DOC_CORE_STATUS.STATE k 2)
  else d

/-- Stores that wait for credits toward a port whose containment takes effect are discarded, and a FENCE behind them
retires (R414). -/
def Dev.discardWaiting (d : Dev) (fpid : Nat) : Dev :=
  let gone := d.winStores.filter fun (w : WinStore) => d.ratTarget w.entry == fpid
  let d := { d with winStores := d.winStores.filter fun (w : WinStore) => d.ratTarget w.entry != fpid }
  (d.forEach gone fun d w => d.discardStore w).forEach (List.range 16) fun d k => d.settle k

end Sys2Proof.Machine
end

