-- ==== Sys2Proof/Machine/Edge.lean ====
section
/-! DEFINITION. The edge bridges' shared operations: Transaction Tracker entries, completions, held TLPs and injection against
credit windows (R25, R143 to R147, R157 to R159, R246, R247, R253, R257, R273). -/

namespace Sys2Proof.Machine

/-! ### Bodies -/

/-- A request that is owed a completion. -/
def bodyNonPosted (b : Body) : Bool :=
  match b with
  | .tlp t => t.kind.nonPosted
  | .mem m => !m.response
  | _ => false

/-- A completion. -/
def bodyCompletion (b : Body) : Bool :=
  match b with
  | .tlp t => t.kind.completion
  | .mem m => m.response
  | _ => false

/-- A posted request: what no later TLP may pass (R146). -/
def bodyPosted (b : Body) : Bool :=
  match b with
  | .tlp t => !t.kind.nonPosted && !t.kind.completion
  | _ => false

/-- The last part of a completion (R257). -/
def bodyFinal (b : Body) : Bool :=
  match b with
  | .tlp t => t.final
  | _ => true

/-- The tag a body carries. -/
def bodyTag (b : Body) : Nat :=
  match b with
  | .tlp t => t.tag
  | .mem m => m.tag
  | _ => 0

/-- The requester ID a body carries. -/
def bodyRequester (b : Body) : Nat :=
  match b with
  | .tlp t => t.requester
  | _ => 0

/-- A body under another requester ID and tag (R25, R218). -/
def bodyAs (b : Body) (requester tag : Nat) : Body :=
  match b with
  | .tlp t => .tlp { t with requester := requester, tag := tag }
  | .mem m => .mem { m with tag := tag }
  | b => b

/-- The EP bit or poison of a body (R145, R150). -/
def bodyPoison (b : Body) : Bool :=
  match b with
  | .tlp t => t.ep
  | .mem m => m.poison
  | _ => false

/-- The frame of a TLP or CXL.mem message (R143, R144, R150, R197). -/
def edgeFrame (src dst gvh : Nat) (cls : Cls) (b : Body) : Frame :=
  match b with
  | .mem m =>
    { ftype := 2, cls := cls, poison := m.poison, len := (memFrameBytes m + 15) / 16, dst := dst, src := src, gvh := gvh,
      body := b }
  | .tlp t =>
    { ftype := 1, cls := cls, poison := t.ep, len := (tlpFrameBytes t + 15) / 16, dst := dst, src := src, gvh := gvh,
      body := b }
  | _ => { ftype := 5, cls := .c, len := 3, dst := dst, src := src, gvh := gvh, body := b }

/-! ### Vitrines and ports -/

/-- The Vitrine whose upstream port is local port p (R102). -/
def Dev.vitrineOfPort (d : Dev) (p : Nat) : Option Nat :=
  (d.vits.find? fun e => e.2.live && d.get VIT_PORT.UPORT e.1 == p).map (·.1)

/-- FPID of a Vitrine's upstream port here. -/
def Dev.upFpid (d : Dev) (lv : Nat) : Nat := d.fpid (d.get VIT_PORT.UPORT lv)

/-- The Global Vitrine Handle of a local ID. -/
def Dev.gvh (d : Dev) (lv : Nat) : Nat := d.get VIT_STATE.GVH lv

/-- Binding k of a Vitrine. -/
def Vit.binding (v : Vit) (k : Nat) : Option Binding := v.bindings.find? fun b => b.k == k

/-- The completion timeout of a handle's requests in ticks (R129), as its Vitrine here or a binding of an endpoint here gives it; of
fabric-window reads 50 ms (R167). -/
def Dev.ctoOf (d : Dev) (gvh code : Nat) : Nat :=
  let code := match d.lvidOf gvh with
    | some lv => (d.vit lv).ctoCode
    | none => match (d.endpoints.filterMap fun e => e.2.bound).find? fun b => b.gvh == gvh with
      | some b => b.cto
      | none => code
  if gvh = gvhWindow then msTicks 50
  else match ctoTicks code with
    | some t => t
    | none => msTicks 50

/-- Instance of a containment object in the Sluice registers: scope 0 port, 1 Vitrine, 2 fabric link (R282). -/
def contObj (scope id : Nat) : Nat := scope * 1024 + id % 1024

/-- An object is contained or releasing (R270). -/
def Dev.contained (d : Dev) (scope id : Nat) : Bool := d.get SLC_CONT_STATE.STATE (contObj scope id) != 0

/-- Traffic was refused or discarded under R251 or R263. -/
def Dev.stray (d : Dev) (gvh : Nat) : Dev :=
  match d.lvidOf gvh with
  | none => d
  | some lv =>
    let d := d.count (vitCtr lv 9) 1
    if d.is VIT_EVENTS.STRAY_TRAFFIC lv then d
    else d.raise VIT_EVENTS.STRAY_TRAFFIC lv { port := d.upFpid lv, gvh := gvh }

/-! ### Completions the module makes -/

/-- A configuration word as a host wrote it: function 0 the virtual upstream port, 1 the VMF, 2 + k virtual downstream port k, 66 the CXL
component registers. -/
def Dev.cfgWord (d : Dev) (lv f w : Nat) : Nat := SMap.get 0 d.cfg (lv * 131072 + f * 1024 + w % 1024)

/-- The kind of a function (R241). -/
def kindOf (f : Nat) : Nat := if f < 2 then f else 2

/-- ECRC Generation Enable of a virtual function (R111). -/
def Dev.ecrcOn (d : Dev) (lv f : Nat) : Bool := bitOf (d.cfgWord lv f (16 + Config.capWord (kindOf f) .aerControl)) 6

/-- An ECRC is made for what port p sends: the virtual upstream port's enable toward a host, the virtual downstream port's toward
endpoint e (R111, R147). -/
def Dev.makesEcrc (d : Dev) (p : Nat) (e : Option Nat) : Bool :=
  match d.vitrineOfPort p with
  | some lv => d.ecrcOn lv 0
  | none =>
    match e.bind fun e => (d.endpoint p e).bound with
    | none => false
    | some b => match d.lvidOf b.gvh with
      | some lv => d.ecrcOn lv (2 + b.k)
      | none => b.ecrc

/-- A TLP goes onto the link of port p in the form the link runs, Flit Mode or non-flit, with an ECRC where one is made (R111, R147). -/
def Dev.linkTlp (d : Dev) (p : Nat) (e : Option Nat) (t : Tlp) : Dev :=
  d.emit (.tlp p { t with flit := internalPort p || d.is PRT_PORT_STATUS.FLIT p, ecrc := if d.makesEcrc p e then some true else none })

/-- The endpoint of port p that an ID and LD-ID of its own select (R217): a logical device by its LD-ID, one that uses ARI by the bus, any
other by bus and device. -/
def Dev.selectEndpoint (d : Dev) (p id ld : Nat) : Option Nat :=
  (d.endpointsOf p).find? fun e =>
    let x := d.endpoint p e
    match x.ldId with
    | some l => l == ld
    | none => if x.ari then x.busDev / 256 == id / 256 else x.busDev / 8 == id / 8

/-- A completion without data for a request: status 1 Unsupported Request, 2 Request Retry Status, 4 Completer Abort. -/
def completionFor (locked : Bool) (requester tag status : Nat) : Tlp :=
  { kind := if locked then .cplLocked else .cpl, requester := requester, tag := tag, target := requester, status := status }

/-- A completion is sent at a local port to the requester there. -/
def Dev.answer (d : Dev) (p : Nat) (t : Tlp) : Dev :=
  let d := d.linkTlp p (d.selectEndpoint p t.requester t.ldId) t
  let d := if t.status = 1 then d.count (portCtr p 67) 1 else if t.status = 4 then d.count (portCtr p 68) 1 else d
  match d.vitrineOfPort p with
  | some lv => d.count (vitCtr lv 5) 1
  | none => d

/-- A request at a local port completes with a status; one that is owed no completion is discarded. -/
def Dev.refuse (d : Dev) (p : Nat) (t : Tlp) (status : Nat) : Dev :=
  d.when t.kind.nonPosted (·.answer p (completionFor (t.kind == .memReadLocked) t.requester t.tag status))

/-- A CXL.mem request to a logical device that is contained, removed or unbound: a read completes with poisoned data, a write is
discarded (R116). -/
def Dev.refuseMem (d : Dev) (p : Nat) (m : MemMsg) : Dev :=
  if m.write then d
  else
    let d := d.emit (.mem p { m with withData := true, response := true, poison := true })
    match d.vitrineOfPort p with
    | some lv => d.count (vitCtr lv 34) 1
    | none => d

/-! ### The Transaction Tracker -/

/-- The lowest number not listed in an ascending map, from n on. -/
def firstFree {α : Type} (m : SMap α) (n : Nat) : Nat :=
  match m with
  | [] => n
  | (a, _) :: r => if n < a then n else if n = a then firstFree r (n + 1) else firstFree r n

/-- A tag toward local port p is in use by an entry or quarantined (R274). -/
def Dev.tagUsed (d : Dev) (p tag : Nat) : Bool :=
  (d.trk.any fun e => e.2.edge != .requester && e.2.dst == d.fpid p && e.2.subTag == tag) ||
    d.tagHolds.any fun h => h.port == p && h.subTag == tag

/-- The lowest free tag toward local port p. -/
def Dev.freeTag (d : Dev) (p : Nat) : Nat :=
  ((List.range (d.trk.length + d.tagHolds.length + 1)).find? fun t => !d.tagUsed p t).getD 0

/-- Entry h. -/
def Dev.entry (d : Dev) (h : Nat) : Trk := SMap.get {} d.trk h

/-- An entry is freed. -/
def Dev.freeEntry (d : Dev) (h : Nat) : Dev := { d with trk := SMap.erase d.trk h }

/-- An entry is taken: the lowest free handle. -/
def Dev.takeEntry (d : Dev) (e : Trk) : Nat × Dev :=
  let h := firstFree d.trk 0
  (h, { d with trk := SMap.insert d.trk h e })

/-- The entries that `sel` names, with their handles. -/
def Dev.entries (d : Dev) (sel : Trk → Bool) : SMap Trk := d.trk.filter fun e => sel e.2

/-- The entries that `sel` names become SQUASHED (R253, R257). -/
def Dev.squash (d : Dev) (sel : Trk → Bool) : Dev :=
  { d with trk := d.trk.map fun e => if sel e.2 then (e.1, { e.2 with squashed := true }) else e }

/-! ### IDs at an endpoint's edge -/

/-- An ID of an endpoint of port p in the host's view (R218): the secondary bus the host assigned, device 0, the function kept. -/
def Dev.hostId (d : Dev) (p id ld : Nat) : Nat :=
  match d.selectEndpoint p id ld with
  | none => id
  | some e =>
    match (d.endpoint p e).bound with
    | some b => b.bus * 256 + (if (d.endpoint p e).ari then id % 256 else id % 8)
    | none => id

/-- The endpoint of port p that a Vitrine's host sees on a bus. -/
def Dev.endpointOn (d : Dev) (p gvh bus : Nat) : Option Nat :=
  (d.endpointsOf p).find? fun e => match (d.endpoint p e).bound with
    | some b => b.gvh == gvh && b.bus == bus
    | none => false

/-- An ID of endpoint e as its own link has it (R218). -/
def Dev.endpointId (d : Dev) (p e fn : Nat) : Nat :=
  let x := d.endpoint p e
  if x.ari then x.busDev / 256 * 256 + fn % 256 else x.busDev / 8 * 8 + fn % 8

/-- A host's ID of what may be an endpoint of port p, as the port's link has it (R218). -/
def Dev.localId (d : Dev) (p gvh id : Nat) : Nat :=
  match d.endpointOn p gvh (id / 256) with
  | some e => d.endpointId p e id
  | none => id

/-- The requester of an entry, at a port here, gets a completion with a status (R130, R133, R251). -/
def Dev.answerEntry (d : Dev) (e : Trk) (status : Nat) : Dev :=
  if fpidModule e.src ≠ d.moduleId ∨ e.edge = .completer then d
  else if internalPort (fpidPort e.src) ∧ e.gvh = gvhWindow then
    d.windowError e.tag (e.kind == .cfgWrite) e.requester
  else if e.mem then
    d.refuseMem (fpidPort e.src) { withData := false, write := e.kind == .memWrite, tag := e.tag }
  else
    d.answer (fpidPort e.src)
      (completionFor (e.kind == .memReadLocked) (d.localId (fpidPort e.src) e.gvh e.requester) e.tag status)

/-- OPEN entries toward a port complete with Unsupported Request at their requester edges and are squashed (R133, R268). -/
def Dev.refuseEntries (d : Dev) (sel : Trk → Bool) : Dev :=
  let d := d.forEach (d.entries fun e => sel e && !e.squashed) fun d e => d.answerEntry e.2 1
  d.squash sel

/-- Requests of a host's Vitrine outstanding from this module (R246). -/
def Dev.quotaUsed (d : Dev) (gvh : Nat) : Nat :=
  (d.entries fun e => e.gvh == gvh && e.fromHost && e.edge != .completer).length

/-- Requests outstanding in a binding's share, in one direction (R247). -/
def Dev.shareUsed (d : Dev) (gvh k : Nat) (fromHost : Bool) : Nat :=
  (d.entries fun e => e.gvh == gvh && e.k == k && e.fromHost == fromHost && e.edge != .completer).length

/-- The share of binding k (R247): as the Vitrine here records it, or the endpoint's module. -/
def Dev.shareOf (d : Dev) (gvh k : Nat) : Nat :=
  match (d.lvidOf gvh).bind fun lv => (d.vit lv).binding k with
  | some b => b.share
  | none =>
    match (d.endpoints.filterMap fun e => e.2.bound).find? fun b => b.gvh == gvh && b.k == k with
    | some b => b.share
    | none => 256

/-- A late record holds back a request that reuses its requester ID and tag toward the same completer port (R275). -/
def Dev.lateHolds (d : Dev) (e : Trk) : Bool :=
  d.lates.any fun l => l.completer == e.dst && l.requester == e.requester && l.tag == e.tag

/-- Why a request may not take its entry yet: 1 quota (R246), 2 share, tag or late record (R247, R274, R275). -/
def Dev.entryWait (d : Dev) (e : Trk) : Option Nat :=
  if e.gvh = gvhWindow then none
  else if e.fromHost && decide (((d.lvidOf e.gvh).map fun lv => d.get TRK_VIT_QUOTA.QUOTA lv).getD 0 ≤ d.quotaUsed e.gvh) then
    some 1
  else if d.shareOf e.gvh e.k ≤ d.shareUsed e.gvh e.k e.fromHost ∨ d.lateHolds e then some 2
  else none

/-! ### Injection -/

/-- The window of a pair of ports at its injecting edge (R85). -/
def Dev.winOf (d : Dev) (src dst : Nat) : Option Nat :=
  (d.wins.find? fun w => w.2.src == src && w.2.dst == dst).map (·.1)

/-- Window w beside its registers. -/
def Dev.win (d : Dev) (w : Nat) : Win := SMap.get {} d.wins w

/-- A window changes. -/
def Dev.setWin (d : Dev) (w : Nat) (f : Win → Win) : Dev := { d with wins := SMap.modify {} d.wins w f }

/-- A window has the credits a frame costs, is not re-synchronising, and the frame's class is not draining (R85, R90, R211). -/
def Dev.canInject (d : Dev) (f : Frame) : Bool :=
  match d.winOf f.src f.dst with
  | none => false
  | some w =>
    d.is EBR_CRD_GRANT.VALID w && decide (f.cells ≤ d.get EBR_CRD_AVAIL.AVAIL w) &&
      !d.is EBR_CRD_AVAIL.RESYNC_ACTIVE w && !(d.win w).drain.contains f.cls

/-- TLPs of a handle at a port are held for a freeze (R258). -/
def Dev.frozenAt (d : Dev) (p gvh : Nat) : Bool :=
  (match d.lvidOf gvh with
   | some lv => (d.vit lv).holding
   | none => false) ||
  d.endpoints.any fun e => e.1 / 256 == p && (match e.2.bound with
    | some b => b.gvh == gvh && b.holding
    | none => false)

/-- An earlier TLP held at the same port for the same destination may not be passed (R146): a posted request by any TLP, a part of a split
completion by the parts after it. -/
def blockedBy (earlier : List HeldTlp) (h : HeldTlp) : Bool :=
  earlier.any fun e => e.port == h.port && e.frame.dst == h.frame.dst &&
    (bodyPosted e.frame.body ||
      (bodyCompletion e.frame.body && bodyCompletion h.frame.body && bodyRequester e.frame.body == bodyRequester h.frame.body &&
        bodyTag e.frame.body == bodyTag h.frame.body))

/-- A frame is injected: it costs its window's credits, takes its FSEQ and ITIME, and its entry takes its deadline
(R85, R145, R200, R208, R273). -/
def Dev.injectFrame (d : Dev) (p : Nat) (f : Frame) (handle : Option Nat) (waited : Nat) : Dev :=
  match d.winOf f.src f.dst with
  | none => d
  | some w =>
    let x := d.win w
    let seq := x.fseq.getD f.cls.code 0
    let d := d.setWin w fun x =>
      { x with
        sent := (x.sent + f.cells) % 2 ^ 32
        last := d.now
        fseq := x.fseq.set f.cls.code ((seq + 1) % 65536) }
    let d := d.put EBR_CRD_AVAIL.AVAIL w (d.get EBR_CRD_AVAIL.AVAIL w - f.cells)
    let d := ((d.count (portCtr p 72) f.cells).when (waited != 0) (·.count (portCtr p 75) (waited / 16)))
    let d := match handle with
      | none => d
      | some h =>
        let e := d.entry h
        { d with trk := SMap.insert (SMap.erase d.trk h) h
                          { e with deadline := some (d.now + d.ctoOf e.gvh 0 * 33 / 32) } }
    d.arrive p { f with fseq := seq, itime := d.now % 2 ^ 32, hops := 0 }

/-- A held TLP takes its tracker entry where it can: the TLP after it, and the module. -/
def Dev.takeNeed (d : Dev) (h : HeldTlp) : Option (HeldTlp × Dev) :=
  match h.need with
  | none => some (h, d)
  | some e =>
    match d.entryWait e with
    | some _ => none
    | none =>
      let sub := if fpidModule e.dst = d.moduleId then d.freeTag (fpidPort e.dst) else 0
      let (n, d) := d.takeEntry { e with subTag := sub }
      let d := d.count (portCtr h.port 64) 1
      some ({ h with handle := some n, need := none },
        if e.fromHost then
          (match d.lvidOf e.gvh with
           | some lv => d.count (vitCtr lv 4) 1
           | none => d)
        else d)

/-- The ports that share one limit of R174: the two internal bridges have theirs in common. -/
def cellShare (p : Nat) : Nat := if internalPort p then 511 else p

/-- Ticks that n cells take of a port's share of the Basin's write cycles: w × 7 ÷ 32 cells a cycle of 0.625 ns, of the internal bridges
16 (R174). -/
def Dev.cellTicks (d : Dev) (p n : Nat) : Nat :=
  if internalPort p then (n * 10 + 15) / 16 else n * 320 / (7 * max 1 (widthLanes (d.get PRT_PORT_STATUS.WIDTH p)))

/-- The port may write another frame's cells: over 64 cycles it keeps to its share (R174). -/
def Dev.cellsMayGo (d : Dev) (p : Nat) : Bool := decide ((d.outPort (cellShare p)).cellsUntil ≤ d.now + nsTicks 40)

/-- A frame's cells use the port's share (R174). -/
def Dev.useCells (d : Dev) (p n : Nat) : Dev :=
  d.setOut (cellShare p) fun o => { o with cellsUntil := max o.cellsUntil d.now + d.cellTicks p n }

/-- Bytes of the TLPs that wait at a port. -/
def Dev.heldBytes (d : Dev) (p : Nat) : Nat :=
  ((d.heldTlps.filter fun h => h.port == p).map fun h => h.frame.len * 16).sum

/-- Flow-control credits are withheld from the link partner of a port whose receive buffer is full, and given again after; the
nanoseconds between count (R146, R441). -/
def Dev.settleCredits (d : Dev) : Dev :=
  let full (p : Nat) : Bool := decide (Config.receiveBuffer p ≤ d.heldBytes p)
  let stopped (p : Nat) : Bool := d.withheld.any fun (w : Nat × Nat) => w.1 == p
  let new := ((d.heldTlps.map (·.port)).eraseDups.filter fun p => !internalPort p && full p && !stopped p)
  let d := d.forEach new fun d p => { d with withheld := d.withheld ++ [(p, d.now)] }.emit (.signal "withhold credits" [p])
  d.forEach (d.withheld.filter fun (w : Nat × Nat) => !full w.1) fun d w =>
    ({ d with withheld := d.withheld.erase w }.emit (.signal "give credits" [w.1])).count (portCtr w.1 88) (sinceTicks w.2 d.now / 16)

/-- The held TLPs are tried in their order; each goes when nothing it may not pass waits before it and its port keeps to its share of the
Basin (R146, R174, R211). -/
def Dev.releaseFrom (d : Dev) (earlier waiting : List HeldTlp) : Dev :=
  match waiting with
  | [] => { d with heldTlps := earlier }.settleCredits
  | h :: r =>
    if blockedBy earlier h || d.frozenAt h.port h.frame.gvh then d.releaseFrom (earlier ++ [h]) r
    else if !d.cellsMayGo h.port then (d.rateWait h.port).releaseFrom (earlier ++ [h]) r
    else
      match d.takeNeed h with
      | none => d.releaseFrom (earlier ++ [h]) r
      | some (h, d) =>
        if d.canInject h.frame then
          (((d.rateGo h.port).useCells h.port h.frame.cells).injectFrame h.port h.frame h.handle (sinceTicks h.arrived d.now)).releaseFrom earlier r
        else d.releaseFrom (earlier ++ [h]) r

/-- Held TLPs are tried again. -/
def Dev.retryHeld (d : Dev) : Dev := d.releaseFrom [] d.heldTlps

/-- Steps 5 to 8 of R145 for a frame at a local port, with the entry a non-posted request needs; what cannot go is held. -/
def Dev.inject (d : Dev) (p : Nat) (f : Frame) (need : Option Trk) : Dev :=
  let wait := need.bind d.entryWait
  let d := if wait = some 1 then
      (match d.lvidOf f.gvh with
       | some lv => d.count (vitCtr lv 10) 1
       | none => d).count (portCtr p 89) 1
    else if wait = some 2 then
      (match d.lvidOf f.gvh with
       | some lv => d.count (vitCtr lv 11) 1
       | none => d).count (portCtr p 90) 1
    else d
  d.releaseFrom [] (d.heldTlps ++ [{ port := p, frame := f, arrived := d.now, need := need }])

/-- A completion goes to the port of the request an entry records: as a frame to another module or another port here. -/
def Dev.sendBack (d : Dev) (p : Nat) (e : Trk) (b : Body) : Dev :=
  (d.count (portCtr p 65) 1).inject p (edgeFrame (d.fpid p) e.src e.gvh e.cls (bodyAs b e.requester e.tag)) none

/-! ### The lock semaphore -/

/-- The semaphore of port p becomes FREE, blocked requests go (R158, R159). -/
def Dev.freeLock (d : Dev) (p : Nat) : Dev :=
  let owner := d.get EBR_LOCK.OWNER p
  let d := (d.put EBR_LOCK.STATE p 0).put EBR_LOCK.OWNER p 0
  let d := { d with lockSrc := SMap.erase d.lockSrc p, lockSince := SMap.erase d.lockSince p }
  let d := match d.lvidOf owner with
    | some lv => d.setVit lv fun v => { v with lock := none }
    | none => d
  d.sideReturn p

/-- A lock is broken by its owner's reset, containment, unbind or link loss, with an Unlock to the endpoint, or by the port's
own containment or removal, without one; either writes a record (R158). -/
def Dev.breakLock (d : Dev) (p : Nat) (sendUnlock : Bool) : Dev :=
  if d.get EBR_LOCK.STATE p = 0 then d
  else
    let owner := d.get EBR_LOCK.OWNER p
    let d := (d.when sendUnlock (·.emit (.unlock p))).count (portCtr p 85) 1
    let d := match d.lvidOf owner with
      | some lv => d.count (vitCtr lv 35) 1
      | none => d
    (d.freeLock p).recordUncoded 0x04 .lockCleared { port := d.fpid p, gvh := owner }

/-- The locks a handle holds on ports of this module are broken (R158). -/
def Dev.breakLocksOf (d : Dev) (gvh : Nat) (sel : Nat → Bool) : Dev :=
  let ports := (List.range 512).filter fun p => d.get EBR_LOCK.STATE p != 0 && d.get EBR_LOCK.OWNER p == gvh && sel p
  d.forEach ports fun d p => d.breakLock p true

/-! ### In-flight counts -/

/-- This module's share of a Vitrine's in-flight count (R252): its entries, its frames at edges, the lock it holds here. -/
def Dev.inflightHere (d : Dev) (gvh : Nat) : Nat :=
  let queued := (d.queues.filter fun e => !d.fabricPort (e.1 / 128)).foldl
    (fun n e => n + ((e.2.frames ++ e.2.side).filter fun f => f.frame.gvh == gvh).length) 0
  let moving := (d.arrived.filter fun e => e.2.gvh == gvh).length + (d.routed.filter fun e => e.2.2.gvh == gvh).length +
    (d.egress.filter fun e => e.2.gvh == gvh).length
  let locks := (d.lockSince.filter fun e => d.get EBR_LOCK.OWNER e.1 == gvh && d.get EBR_LOCK.STATE e.1 != 0).length
  (d.entries fun e => e.gvh == gvh).length + queued + moving + locks

/-- The in-flight count of a Vitrine (R252), shown in VIT_INFLIGHT. -/
def Dev.inflight (d : Dev) (lv : Nat) : Nat :=
  min 2097151 (d.inflightHere (d.gvh lv) + (d.vit lv).remote.foldl (fun n e => n + e.2) 0)

/-! ### AER on virtual ports -/

/-- An error is reported on the AER of virtual downstream port k of a Vitrine: severity 0 correctable, 1 non-fatal, 2 fatal
(R265, R266). -/
def Dev.aer (d : Dev) (lv k severity : Nat) : Dev :=
  (d.setVport lv k fun v =>
    if severity = 0 then { v with aerCorrectable := v.aerCorrectable + 1 }
    else if severity = 1 then { v with aerNonfatal := v.aerNonfatal + 1 }
    else { v with aerFatal := v.aerFatal + 1 }).count (vitCtr lv (24 + severity)) 1

/-- The binding of this module's Vitrines that an endpoint has, as local ID and k. -/
def Dev.boundTo (d : Dev) (p ep : Nat) : Option (Nat × Nat) :=
  match (d.endpoint p ep).bound with
  | some b => (d.lvidOf b.gvh).map fun lv => (lv, b.k)
  | none => none

/-- An Unexpected Completion is reported on the AER of the virtual port where an endpoint of port p is bound (R274). -/
def Dev.aerUnexpected (d : Dev) (gvh k : Nat) : Dev :=
  match d.lvidOf gvh with
  | some lv => d.aer lv k 1
  | none => d

end Sys2Proof.Machine
end

