-- ==== Sys2Proof/Machine/Credits.lean ====
section
/-! DEFINITION. Edge injection credits: grants, returns, the audit and re-synchronisation (R85 to R91, R183 to R185, R207), and
the end of a drain (R211). -/

namespace Sys2Proof.Machine

/-! ### Windows granted and ended -/

/-- A destination port grants a window to a source (R183): status OK, WINDOW_REFUSED or NO_OBJECT. -/
def Dev.grantWindow (d : Dev) (src dst : Nat) : Nat × Dev :=
  let p := fpidPort dst
  if (d.dwin src dst).isSome then (Status.ok, d)
  else if d.fabricPort p then (Status.windowRefused, d.count (modCtr 1536 9) 1)
  else if !internalPort p && !d.configured p then (Status.noObject, d.count (modCtr 1536 9) 1)
  else if d.get BSN_PORT_WIN.WINDOWS p ≤ (d.dwins.filter fun w => w.dst == dst).length ∨ d.portGrant p = 0 then
    (Status.windowRefused, d.count (modCtr 1536 9) 1)
  else
    let g := d.portGrant p
    let w : DWin := { src := src, dst := dst, grant := g }
    let d := ({ d with dwins := d.dwins ++ [w] }).count (modCtr 1536 8) 1
    if fpidModule src = d.moduleId then (Status.ok, d)
    else
      (Status.ok, (d.setDwin src dst fun w => { w with cseq := 1 }).creditFrame dst src .grant 0 g)

/-- An output can take a window of `grant` cells beside those pinned through it (R185). -/
def Dev.outputTakes (d : Dev) (out grant : Nat) : Bool :=
  let used := (d.wins.filter fun w => w.2.out == out).foldl (fun n w => n + d.get EBR_CRD_GRANT.GRANT w.1) 0
  decide (used + grant ≤ d.get BSN_PORT_RSV.LR out * 2 ^ d.get BSN_PORT_WIN.OVERSUB out)

/-- The output of a new window's path and whether a pin entry holds it: the hash path where it fits, else another usable slot
(R185, R207); none when no path fits. -/
def Dev.choosePath (d : Dev) (src dst gvh : Nat) (cls : Cls) (grant : Nat) : Option (Nat × Bool) :=
  let m := fpidModule dst
  if m = d.moduleId then some (fpidPort dst, false)
  else if !d.reachable m then none
  else
    let g := d.get RTE_MRT.GROUP m
    let n := d.get RTE_MRT.NCAND m
    let h := pathHash d.moduleId src dst gvh cls
    let slots := ((List.range n).map fun i => (h % n + i) % n).filter (d.slotUsable g)
    ((slots.map fun j => d.get RTE_GRP_SLOT.PORT (g * 16 + j)).find? fun o => d.outputTakes o grant).map
      fun o => (o, decide (1 < n))

/-- The injecting edge opens a window (R85): a free index, a path (R185) and where it has candidates a pin entry (R207). -/
def Dev.openWindow (d : Dev) (src dst gvh : Nat) (cls : Cls) (grant : Nat) : Nat × Dev :=
  if (d.winOf src dst).isSome then (Status.ok, d)
  else
    let w := firstFree d.wins 0
    match d.choosePath src dst gvh cls grant with
    | none => (Status.windowRefused, d.count (modCtr 1536 9) 1)
    | some (out, pinned) =>
      let n := firstFree (d.pins.filter fun e => e.2.valid) 0
      if 32768 ≤ w then (Status.windowRefused, d.count (modCtr 1536 9) 1)
      else if pinned ∧ 16384 ≤ n then
        (Status.windowRefused, ((d.count (modCtr 1536 9) 1).count (modCtr 1536 13) 1).raiseLimited RTE_EVENTS.PIN_FULL 0
          (fpidPort src) { die := 4, port := src, object := w })
      else
        let d := { d with wins := SMap.insert d.wins w ({ src := src, dst := dst, out := out, last := d.now } : Win) }
        let d := (d.put EBR_CRD_GRANT.VALID w 1).put EBR_CRD_GRANT.GRANT w grant
        let d := ((d.put EBR_CRD_AVAIL.AVAIL w grant).put EBR_CRD_AVAIL.RESYNC_ACTIVE w 0).put EBR_CRD_AUDIT.SHRINK w 0
        (Status.ok, d.when pinned (·.setPin n { valid := true, newPort := out, src := src, dst := dst }))

/-- A window between two ports as the first path between them is installed (R85): each side this module holds. -/
def Dev.makeWindow (d : Dev) (src dst gvh : Nat) (cls : Cls) : Nat × Dev :=
  if fpidModule dst = d.moduleId then
    match d.grantWindow src dst with
    | (st, d) =>
      if st = Status.ok ∧ fpidModule src = d.moduleId then
        d.openWindow src dst gvh cls (((d.dwin src dst).map (·.grant)).getD 0)
      else (st, d)
  else (Status.ok, d)

/-- A window ends: its registers clear and its pin entries are freed (R212). -/
def Dev.closeWindow (d : Dev) (src dst : Nat) : Dev :=
  let d := { d with dwins := d.dwins.filter fun w => !(w.src == src && w.dst == dst) }
  match d.winOf src dst with
  | none => d
  | some w =>
    let d := { d with wins := SMap.erase d.wins w }
    let d := (d.put EBR_CRD_GRANT.VALID w 0).put EBR_CRD_GRANT.GRANT w 0
    let d := (d.put EBR_CRD_AVAIL.AVAIL w 0).put EBR_CRD_AVAIL.RESYNC_ACTIVE w 0
    d.forEach (d.pins.filter fun e => e.2.src == src && e.2.dst == dst) fun d e => d.setPin e.1 {}

/-- CREDIT_WINDOW_GRANT: the destination edge grants a window as the first path between two ports is installed (R85, R183). -/
def execCreditWindowGrant (src dst : Fin 4194304) (gvh : Fin 8388608) (cls : Cls) (s : State) :
    Host.Outcome State Fault Refusal :=
  onDev s fun d => (d.makeWindow src dst gvh cls).2

/-! ### Returns and the audit -/

/-- CREDIT_RETURN_SEND: a RETURN frame carries every cell freed since the last (R86). -/
def execCreditReturnSend (src dst : Fin 4194304) (s : State) : Host.Outcome State Fault Refusal :=
  onDev s fun d =>
    match d.dwin src dst with
    | none => d
    | some w =>
      if w.owed = 0 then d
      else
        (d.setDwin src dst fun w => { w with owed := 0, cseq := (w.cseq + 1) % 65536 }).creditFrame dst src .ret w.cseq w.owed

/-- The CSEQ of a credit frame of window w is audited (R89): whether the frame is applied, and the module. -/
def Dev.auditCseq (d : Dev) (w cseq : Nat) : Bool × Dev :=
  let gap := match (d.win w).cseq with
    | some e => (cseq + 65536 - e) % 65536
    | none => 0
  if 32768 ≤ gap then (false, d)
  else
    let d := d.setWin w fun x => { x with cseq := some ((cseq + 1) % 65536) }
    (true, d.when (gap != 0) fun d =>
      (d.bump EBR_CRD_LOST.LOST_CFRAMES w gap).count (portCtr (fpidPort (d.win w).src) 74) gap)

/-- RETURN adds credits, never beyond the grant (R88, R89). -/
def Dev.applyReturn (d : Dev) (w value : Nat) : Dev :=
  let avail := d.get EBR_CRD_AVAIL.AVAIL w + value
  let d := d.count (portCtr (fpidPort (d.win w).src) 73) value
  if d.get EBR_CRD_GRANT.GRANT w < avail then
    (d.put EBR_CRD_AVAIL.AVAIL w (d.get EBR_CRD_GRANT.GRANT w)).put EBR_CRD_AUDIT.OVERRUN w 1
  else d.put EBR_CRD_AVAIL.AVAIL w avail

/-- AVAIL becomes the grant less what the destination holds; SHRINK and LOW clear (R90). -/
def Dev.applyResync (d : Dev) (w held : Nat) : Dev :=
  if !d.is EBR_CRD_AVAIL.RESYNC_ACTIVE w then d
  else
    let d := (d.put EBR_CRD_AVAIL.AVAIL w (d.get EBR_CRD_GRANT.GRANT w - held)).put EBR_CRD_AVAIL.RESYNC_ACTIVE w 0
    ((d.put EBR_CRD_AUDIT.SHRINK w 0).put EBR_CRD_AUDIT.LOW w 0).bump EBR_CRD_LOST.RESYNCS w 1

/-- A credit frame of a window reaches its injecting edge (R89). The CSEQ of a GRANT is the first one applied (DESIGN CHOICE, log entry
105). -/
def Dev.receiveCredit (d : Dev) (src dst : Nat) (kind : CreditKind) (cseq value : Nat) : Dev :=
  match kind with
  | .grant =>
    let d := (d.openWindow src dst gvhModule .c value).2
    match d.winOf src dst with
    | some w => (d.auditCseq w cseq).2.retryHeld
    | none => d
  | .resyncReq => d
  | .ret =>
    match d.winOf src dst with
    | none => d
    | some w =>
      if d.armedFor 6 w then d.consume 6
      else match d.auditCseq w cseq with
        | (true, d) => (d.applyReturn w value).retryHeld
        | (false, d) => d
  | .resyncAck =>
    match d.winOf src dst with
    | none => d
    | some w =>
      match d.auditCseq w cseq with
      | (true, d) => (d.applyResync w value).retryHeld
      | (false, d) => d

/-- CREDIT_FRAME_RECEIVED (R89): src and dst are the window's ports. -/
def execCreditFrameReceived (src dst : Fin 4194304) (kind : CreditKind) (cseq : Fin 65536) (value : Word) (s : State) :
    Host.Outcome State Fault Refusal :=
  onDev s fun d => d.receiveCredit src dst kind cseq value.toNat

/-- Frames of a window stand in a STOPPED queue (R269). -/
def Dev.stoppedFrames (d : Dev) (src dst : Nat) : Bool :=
  d.queues.any fun e => d.get BSN_Q_STATUS.STATE e.1 == 1 &&
    e.2.frames.any fun f => f.frame.credited && f.frame.src == src && f.frame.dst == dst

/-- CREDIT_QUIET_POINT: SHRINK is recorded, and LOW below half the grant (R89); none while a containment holds frames of the
window (R269). -/
def execCreditQuietPoint (window : Fin 32768) (s : State) : Host.Outcome State Fault Refusal :=
  onDev s fun d =>
    let w := window.val
    let x := d.win w
    if !d.is EBR_CRD_GRANT.VALID w || d.stoppedFrames x.src x.dst then d
    else
      let grant := d.get EBR_CRD_GRANT.GRANT w
      let avail := d.get EBR_CRD_AVAIL.AVAIL w
      let d := d.put EBR_CRD_AUDIT.SHRINK w (grant - avail)
      d.when (decide (avail * 2 < grant)) fun d =>
        (d.put EBR_CRD_AUDIT.LOW w 1).record 0x0480 { port := x.src, object := w }

/-! ### Re-synchronisation -/

/-- A window stops injecting and asks its destination what it holds (R90). -/
def Dev.startResync (d : Dev) (w : Nat) : Dev :=
  let x := d.win w
  if d.is EBR_CRD_AVAIL.RESYNC_ACTIVE w || !d.is EBR_CRD_GRANT.VALID w then d
  else
    ((d.put EBR_CRD_AVAIL.RESYNC_ACTIVE w 1).setWin w fun x => { x with asked := d.now }).creditFrame x.src x.dst
      .resyncReq 0 x.sent

/-- The windows whose path leaves by a fabric link, or whose two ports are on this module and include the port (R90). -/
def Dev.windowsBy (d : Dev) (p : Nat) : List Nat :=
  (d.wins.filter fun w =>
    if fpidModule w.2.dst = d.moduleId then fpidPort w.2.src == p || fpidPort w.2.dst == p
    else d.fabricPort p && w.2.out == p).map (·.1)

/-- Every window of a port is re-synchronised (R90). -/
def Dev.resyncPort (d : Dev) (p : Nat) : Dev := d.forEach (d.windowsBy p) fun d w => d.startResync w

/-- RESYNC_START: the link or port completed CAPX, a width change or a speed change, or was retrained (R90). -/
def execResyncStart (port : Fin 512) (s : State) : Host.Outcome State Fault Refusal :=
  onDev s fun d => d.resyncPort port

/-- RESYNC_REQ reaches the destination, which answers once it has received what was sent, or after Q ÷ 2 (R90). -/
def execResyncReq (src dst : Fin 4194304) (sent : Word) (s : State) : Host.Outcome State Fault Refusal :=
  onDev s fun d =>
    (d.setDwin src dst fun w =>
      { w with resync := some (sent.toNat, match w.resync with
        | some r => if r.1 = sent.toNat then r.2 else d.now
        | none => d.now) }).answerResync src dst

/-- RESYNC_ACK: AVAIL becomes the grant less the cells held, and injection resumes (R90). -/
def execResyncAck (src dst : Fin 4194304) (cseq : Fin 65536) (held : Word) (s : State) :
    Host.Outcome State Fault Refusal :=
  onDev s fun d => d.receiveCredit src dst .resyncAck cseq held.toNat

/-- RESYNC_TIMEOUT: no answer within Q; the edge resumes with AVAIL unchanged (R91). -/
def execResyncTimeout (window : Fin 32768) (s : State) : Host.Outcome State Fault Refusal :=
  onDev s fun d =>
    let w := window.val
    if !d.is EBR_CRD_AVAIL.RESYNC_ACTIVE w then d
    else
      (((d.put EBR_CRD_AVAIL.RESYNC_ACTIVE w 0).put EBR_CRD_AUDIT.RESYNC_FAILED w 1).recordUncoded 0x04 .other
        { port := (d.win w).src, object := w }).retryHeld

/-! ### The end of a drain -/

/-- DRAIN_ACK: injection of the class resumes on the new path, held frames first (R211). -/
def execDrainAck (src dst : Fin 4194304) (cls : Cls) (s : State) : Host.Outcome State Fault Refusal :=
  onDev s fun d =>
    match d.winOf src dst with
    | some w => (d.endDrain w cls).retryHeld
    | none => d

/-- DRAIN_CAP_EXPIRY: min(5 × the class age limit, 100 ms) passed without an answer (R211). -/
def execDrainCapExpiry (window : Fin 32768) (cls : Cls) (s : State) : Host.Outcome State Fault Refusal :=
  onDev s fun d => (d.endDrain window cls).retryHeld

end Sys2Proof.Machine
end

