-- ==== Sys2Proof/Machine/Lanes.lean ====
section
/-! DEFINITION. The Lane Array: bring-up, equalisation, the rear-lane table, bit-slip, margin scans and load triggers (R33 to
R65). -/

namespace Sys2Proof.Machine

/-! ### The rear-lane table -/

/-- The entries of a table image (R43). -/
def eqEntries (bs : List Byte) (n : Nat) : List EqEntry :=
  (List.range n).map fun i =>
    let at_ (o : Nat) : Nat := (bs.getD (32 + i * 8 + o) 0).toNat
    ⟨at_ 0, at_ 1, at_ 2, at_ 3, at_ 4, at_ 5, at_ 6⟩

/-- An entry's fields are in range (R43, R44): DFE1 is −64 to +63 in two's complement. -/
def eqEntryOk (e : EqEntry) : Bool :=
  decide (e.lane ≤ 63) && decide (1 ≤ e.rate) && decide (e.rate ≤ 7) && tapsOk e.pre e.post && decide (e.ctle ≤ 31) &&
    (decide (e.dfe1 ≤ 63) || decide (192 ≤ e.dfe1))

/-- The table an image holds, if it is valid (R44). -/
def eqTableOf (bs : List Byte) : Option (List EqEntry) :=
  let n := ofLeBytes ((bs.drop 6).take 2)
  let es := eqEntries bs n
  let reserved := ((bs.drop 12).take 16).all (· == 0) && (List.range n).all fun i => bs.getD (32 + i * 8 + 7) 0 == 0
  if decide (32 + n * 8 ≤ bs.length) && ofLeBytes (bs.take 4) == 0x51454E59 && ofLeBytes ((bs.drop 4).take 2) == 1 &&
      decide (1 ≤ n) && decide (n ≤ 448) && reserved && es.all eqEntryOk &&
      decide ((es.map fun e => (e.lane, e.rate)).Nodup) &&
      ofLeBytes ((bs.drop 28).take 4) == crc32 (bs.take 28 ++ (bs.drop 32).take (n * 8)) then some es
  else none

/-- Bring-up state of a lane (R48). -/
def Dev.laneState (d : Dev) (n : Nat) : Nat := d.get LNA_LANE_STATE.STATE n

/-- Lane n beside its registers. -/
def Dev.lane (d : Dev) (n : Nat) : LaneX := SMap.get {} d.lanes n

/-- A rear lane's entry for a rate: of the table it took at its last DETECT, or before that of the one in force (R46, R47). -/
def Dev.eqEntry (d : Dev) (n rate : Nat) : Option EqEntry :=
  let st := d.laneState n
  let entries := if st = 0 ∨ st = 8 ∨ st = 9 then (d.eqTable.getD []).filter fun e => e.lane + 448 == n else (d.lane n).entries
  entries.find? fun e => e.rate == rate

/-! ### Lane state -/

/-- A lane is a rear lane (R37). -/
def rearLane (n : Nat) : Bool := decide (448 ≤ n)

/-- A lane changes. -/
def Dev.setLane (d : Dev) (n : Nat) (f : LaneX → LaneX) : Dev := { d with lanes := SMap.modify {} d.lanes n f }

/-- Port p beside its registers. -/
def Dev.portX (d : Dev) (p : Nat) : PortX := SMap.get {} d.ports p

/-- A port changes. -/
def Dev.setPortX (d : Dev) (p : Nat) (f : PortX → PortX) : Dev := { d with ports := SMap.modify {} d.ports p f }

/-- A record's cause on a lane. -/
def laneEv (n : Nat) : Ev := { die := dieOf n, object := n }

/-- A transmitter's taps (R38). -/
def Dev.setTaps (d : Dev) (n pre post source : Nat) : Dev :=
  (((d.put LNA_TX_EQ.PRE n pre).put LNA_TX_EQ.POST n post).put LNA_TX_EQ.MAIN n (63 - pre - post)).put LNA_TX_EQ.SOURCE n source

/-- A rear lane takes its table settings for a rate (R35, R48). -/
def Dev.loadEntry (d : Dev) (n rate : Nat) : Dev :=
  if !rearLane n then d
  else
    match d.eqEntry n rate with
    | some e => ((d.setTaps n e.pre e.post 2).put LNA_RX_EQ.CTLE n e.ctle).put LNA_RX_EQ.DFE1 n (e.dfe1 % 128)
    | none => d

/-- A command that scans lanes ends once none of them is scanning, with each lane's result (R59, R376). -/
def Dev.endScans (d : Dev) : Dev :=
  { d with cmds := d.cmds.map fun c =>
      match c.wait with
      | .scan first count refused =>
        let lanes := (List.range count).map (first + ·)
        if lanes.any fun n => (SMap.get {} d.lanes n).scanning then c
        else
          { c with
            wait := .nothing
            status := if refused then Status.scanRefused
              else if lanes.any fun n => d.get LNA_MRG_RESULT.STATUS n == 3 then Status.scanAborted else Status.ok
            resp := (List.range count).map fun i => (12 + 4 * i, 4, d.word .LNA_MRG_RESULT (first + i)) }
      | _ => c }

/-- The lanes of a port have not all ended their load scan (R60). -/
def Dev.loadScanning (d : Dev) (p : Nat) : Bool := (d.lanesOf p).any fun n => (d.lane n).loadScan

/-- The end of a port's load scan: TRAIN_REF of every lane, and what a result below floor asks for (R60, R61, R63, R64). -/
def Dev.loadScanDone (d : Dev) (p temp : Nat) : Dev :=
  let d := d.forEach (d.lanesOf p) fun d n => d.put LNA_TRAIN_REF.TEMP n temp
  let below := (d.lanesOf p).filter fun n => d.is LNA_MRG_RESULT.BELOW_FLOOR n && d.get LNA_MRG_RESULT.STATUS n == 2
  if below = [] ∨ rearLane p then d
  else if d.fabricPort p then
    let margin := below.foldl (fun m n => min m (min (min (d.get LNA_MRG_RESULT.LEFT n) (d.get LNA_MRG_RESULT.RIGHT n))
      (min (d.get LNA_MRG_RESULT.UP n) (d.get LNA_MRG_RESULT.DOWN n)))) 32
    d.setPortX p fun x => { x with reeq := some margin }
  else d.setPortX p fun x => { x with wanted := some (x.wanted.getD d.now) }

/-- Lane n is no longer scanned; the last lane of its port to end a load scan ends that, at a die temperature (R59, R60). -/
def Dev.scanEnds (d : Dev) (n : Nat) (temp : Nat → Nat) : Dev :=
  let load := (d.lane n).loadScan
  let d := d.setLane n fun l => { l with scanning := false, loadScan := false }
  let d := match d.portOfLane n with
    | some p => d.when (load && !d.loadScanning p) (·.loadScanDone p (temp p))
    | none => d
  d.endScans

/-- A running scan ends without a result (R59); the die temperature is that of the port's last evaluation (R60). -/
def Dev.abortScan (d : Dev) (n : Nat) : Dev :=
  d.when (d.lane n).scanning fun d => (d.put LNA_MRG_RESULT.STATUS n 3).scanEnds n fun p => (d.portX p).temp

/-- A lane enters a state at a rate; a scan running as it leaves ACTIVE or TEST ends (R48, R59). -/
def Dev.enterLane (d : Dev) (n st rate : Nat) : Dev :=
  let was := d.laneState n
  let d := (d.put LNA_LANE_STATE.STATE n st).put LNA_LANE_STATE.RATE n rate
  let d := d.when (was != st && (was == 6 || was == 10)) (·.abortScan n)
  d.when (decide (st ≤ 3) || st == 8 || st == 9) (·.put LNA_ALIGN.LOCKED n 0)

/-- A lane goes OFF with its transmitter at electrical idle (R49). -/
def Dev.laneOff (d : Dev) (n : Nat) : Dev :=
  if d.laneState n = 0 then d else (d.enterLane n 0 0).emit (.laneIdle n)

/-- Lanes of a rear port all have a table entry for a rate; front lanes need none (R46). -/
def Dev.rateHeld (d : Dev) (lanes : List Nat) (r : Nat) : Bool := lanes.all fun n => !rearLane n || (d.eqEntry n r).isSome

/-- The rate a lane starts at, if it may start at any: 1 on a PCIe or CXL port, on a fabric link that of the link in service, else the
highest of 7 and 6 within RATE_MAX, on rear lanes only where the table has the entries (R34, R46, R49); a lane of no port starts at
RATE_MAX (the model's choice, log entry 99). -/
def Dev.startRate (d : Dev) (n : Nat) : Option Nat :=
  let top := d.get LNA_LANE_CFG.RATE_MAX n
  match d.portOfLane n with
  | none => if d.rateHeld [n] top then some top else none
  | some p =>
    if !d.fabricPort p then (if d.rateHeld [n] 1 then some 1 else none)
    else if 2 ≤ d.linkState p ∧ d.linkState p ≤ 5 then (if d.rateHeld [n] (d.link p).rate then some (d.link p).rate else none)
    else ([7, 6].filter fun r => decide (r ≤ top)).find? fun r => d.rateHeld (d.lanesOf p) r

/-- A lane enters DETECT: a rear lane takes its entries of the table in force and loads the one for the starting rate, or without a valid
table goes to FAILED; what it was equalised at is forgotten unless `keep` says so (R45, R47 to R49, R96; log entry 100). -/
def Dev.laneDetect (d : Dev) (n : Nat) (keep : Bool := false) : Dev :=
  if rearLane n && d.eqTable.isNone then
    let d := d.enterLane n 8 0
    d.when (!d.eqReported) fun d => ({ d with eqReported := true }).record 0x0180 (laneEv n)
  else
    let mine := if rearLane n then (d.eqTable.getD []).filter fun e => e.lane + 448 == n else []
    let d := (d.enterLane n 1 0).setLane n fun l =>
      { l with entries := mine, eqRates := if keep then l.eqRates else [], eqSince := if keep then l.eqSince else [] }
    match d.startRate n with
    | some r => d.loadEntry n r
    | none => d

/-- Power-good of a front lane's cage (R51). -/
def Dev.cagePowered (d : Dev) (n : Nat) : Bool := rearLane n || d.is EF_STATUS.PG (cageOf n)

/-- The OFF rows of R49 for a lane whose ENABLE is set; a front lane leaves OFF only with its cage powered (R51), for
TEST too (DEDUCED, log entry 115). -/
def Dev.laneStart (d : Dev) (n : Nat) : Dev :=
  if d.laneState n ≠ 0 ∨ (d.lane n).held ∨ d.halted ∨ !d.cagePowered n ∨ dieOf n ∈ d.lostDies then d
  else if d.is LNA_LANE_CFG.TEST n then d.enterLane n 10 (d.get LNA_LANE_CFG.RATE_MAX n)
  else d.laneDetect n

/-- ENABLE of a lane is set (R49). -/
def Dev.enableLane (d : Dev) (n : Nat) : Dev := (d.put LNA_LANE_CFG.ENABLE n 1).laneStart n

/-- ENABLE of a lane is cleared (R49). -/
def Dev.disableLane (d : Dev) (n : Nat) : Dev :=
  ((d.put LNA_LANE_CFG.ENABLE n 0).laneOff n).setLane n fun l =>
    { l with eqRates := [], eqSince := [], search := none, held := false }

/-- A lane starts over after a failed attempt, or fails when ATTEMPTS is 7 (R49). -/
def Dev.failAttempt (d : Dev) (n : Nat) : Dev :=
  let st := d.laneState n
  if st < 2 ∨ 5 < st then d
  else
    let d := (d.put LNA_LANE_STATE.LAST_FAIL n st).setLane n fun l => { l with search := none }
    let a := d.get LNA_LANE_STATE.ATTEMPTS n
    if a = 7 then
      ((d.put LNA_LANE_STATE.ATTEMPTS n 8).enterLane n 8 0).raise LNA_EVENTS.BRINGUP_FAILED n (laneEv n)
    else (d.bump LNA_LANE_STATE.ATTEMPTS n 1).laneDetect n

/-- LANE_ENABLE_SET (R49). -/
def execLaneEnableSet (master : Fin 2048) (lane : Fin 512) (s : State) : Host.Outcome State Fault Refusal :=
  onDev s fun d => d.curatorOnly master (0x801000000 + lane.val * 0x100) (·.enableLane lane)

/-- CAGE_POWER_GOOD_LANE_RELEASE: the enabled lanes of a cage leave OFF (R51). -/
def execCagePowerGoodLaneRelease (cage : Fin 56) (s : State) : Host.Outcome State Fault Refusal :=
  onDev s fun d =>
    d.forEach ((List.range 8).map (cage.val * 8 + ·)) fun d n => d.when (d.is LNA_LANE_CFG.ENABLE n) (·.laneStart n)

/-- The Curator writes the taps of lane n: PRE and POST change in test mode within R38 (R39). -/
def Dev.writeTaps (d : Dev) (master n pre post : Nat) : Dev :=
  if d.is LNA_LANE_CFG.TEST n && tapsOk pre post then d.setTaps n pre post 3 else d.valueRefused master (0x801000008 + n * 0x100)

/-- LANE_TX_EQ_WRITE (R39). -/
def execLaneTxEqWrite (master : Fin 2048) (lane : Fin 512) (pre : Fin 16) (post : Fin 32) (s : State) :
    Host.Outcome State Fault Refusal :=
  onDev s fun d => d.curatorOnly master (0x801000008 + lane.val * 0x100) (·.writeTaps master lane pre post)

/-- A lane trains at a rate from PATTERN on: a rear lane on its entry for it, a front lane at rates 1 and 2 with preset 4 (R41, R48, R49). -/
def Dev.startPattern (d : Dev) (n r : Nat) : Dev :=
  let d := (d.enterLane n 2 r).loadEntry n r
  let d := d.when (decide (r ≤ 2) && !rearLane n) fun d => (d.setTaps n 0 0 0).put LNA_TX_EQ.PRESET n 4
  d.emit (.laneTrain n r)

/-- The lanes of a port whose cage's PERST_N its host asserts are held in DETECT (R117, R120). -/
def Dev.hostPerst (d : Dev) (n : Nat) : Bool :=
  match d.portOfLane n with
  | some p => (d.portX p).hostPerst
  | none => false

/-- RECEIVER_DETECTED: PATTERN at the starting rate; a lane that may run at no rate stays in DETECT (R34, R46, R49). -/
def execReceiverDetected (lane : Fin 512) (s : State) : Host.Outcome State Fault Refusal :=
  onDev s fun d =>
    let n := lane.val
    if d.laneState n ≠ 1 ∨ (d.lane n).held ∨ d.hostPerst n then d
    else match d.startRate n with
      | some r => d.startPattern n r
      | none => d

/-- DETECT_TIMER_EXPIRY: detect repeats (R49). -/
def execDetectTimerExpiry (lane : Fin 512) (s : State) : Host.Outcome State Fault Refusal :=
  onDev s fun d => d.when (d.laneState lane == 1) (·.emit (.signal "detect" [lane.val]))

/-- BIT_LOCK_ACQUIRED: SYMLOCK; a rear lane applies its table's SLIP (R49, R55). -/
def execBitLockAcquired (lane : Fin 512) (s : State) : Host.Outcome State Fault Refusal :=
  onDev s fun d =>
    let n := lane.val
    if d.laneState n ≠ 2 then d
    else
      let r := d.get LNA_LANE_STATE.RATE n
      let d := d.enterLane n 3 r
      match (if rearLane n then d.eqEntry n r else none) with
      | some e => (d.put LNA_BITSLIP.DELAY n e.slip).put LNA_BITSLIP.APPLIED n 1
      | none => d

/-- The rate codes a fabric port supports (R34, R66), on rear lanes those every lane has a table entry for (R46). -/
def Dev.fabricRates (d : Dev) (p : Nat) : List Nat :=
  [7, 6].filter fun r => decide (r ≤ d.get PRT_PORT_CFG.RATE_MAX p) && d.rateHeld (d.lanesOf p) r

/-- The mask of lanes of a port (R92). -/
def maskOfLanes (p : Nat) (lanes : List Nat) : Nat := lanes.foldl (fun m n => m + 2 ^ (n - p)) 0

/-- PARAMS of this end before the module's admission and after it (R92, R480). -/
def Dev.ownParams (nv : NonVolatile) (d : Dev) (p : Nat) : List Nat :=
  let admitted := d.is RTE_MODULE_ID.ASSIGNED 0
  let m := if admitted then d.moduleId else nv.moduleId.getD 0
  [1, fpidOf m p, d.get PRT_PORT_CFG.WIDTH p] ++ d.fabricRates p ++ [d.replayCapacity p, bitVal admitted]

/-- The lanes of a LINK_CTL flit in lane-copy form: while the link is paused or changes width or speed, every surviving lane carries it
whole (R92). -/
def Dev.copyLanes (d : Dev) (p : Nat) : List Nat :=
  if 3 ≤ d.linkState p ∧ d.linkState p ≤ 5 then (d.link p).lanes else []

/-- A LINK_CTL flit is sent (R92). -/
def Dev.sendCtl (d : Dev) (p subtype : Nat) (fields : List Nat) : Dev := d.emit (.linkCtl p subtype fields (d.copyLanes p))

/-- A LINK_CTL request is sent, to be repeated until it is answered (R92). -/
def Dev.request (d : Dev) (p subtype : Nat) (fields : List Nat) : Dev :=
  (d.setLink p fun l =>
    { l with requests := l.requests.filter (fun r => r.subtype != subtype) ++ [{ subtype := subtype, fields := fields }] }).sendCtl
    p subtype fields

/-- The request of a subtype that awaits its answer. -/
def Dev.asked (d : Dev) (p subtype : Nat) : Option CtlReq := (d.link p).requests.find? fun r => r.subtype == subtype

/-- A request is answered, or given up. -/
def Dev.answered (d : Dev) (p subtype : Nat) : Dev :=
  d.setLink p fun l => { l with requests := l.requests.filter fun r => r.subtype != subtype }

/-- The new width of a link is asked of the partner, and DATA stops (R95). -/
def Dev.askWidth (d : Dev) (p code : Nat) (lanes : List Nat) (narrowing : Bool) : Dev :=
  (({ d with pausedLinks := d.pausedLinks.filter (· ≠ p) }.put FLL_LINK_STATUS.STATE p 4).put FLL_LINK_STATUS.RATE p 0 |>.setLink p
    fun l => { l with newWidth := some (code, lanes), narrowing := narrowing, widening := none, ownPause := false }).request p 0x10
    [code, maskOfLanes p lanes]

/-- REAR_SYMLOCK_TIMEOUT: SLIP_NEEDED, and the Curator's search starts from the table's delay (R49, R55). -/
def execRearSymlockTimeout (lane : Fin 512) (s : State) : Host.Outcome State Fault Refusal :=
  onDev s fun d =>
    let n := lane.val
    if d.laneState n = 3 ∧ rearLane n then
      let start := d.get LNA_BITSLIP.DELAY n
      (d.setLane n fun l => { l with search := some (start, 0) }).raise LNA_EVENTS.SLIP_NEEDED n (laneEv n)
    else d

/-- LNA_BITSLIP_DELAY_WRITE: accepted in SYMLOCK or TEST (R53, R54). -/
def Dev.writeDelay (d : Dev) (master n delay : Nat) : Dev :=
  if d.laneState n = 3 ∨ d.laneState n = 10 then
    ((d.put LNA_BITSLIP.DELAY n delay).put LNA_BITSLIP.APPLIED n 0).setLane n fun l => { l with delay := some delay }
  else d.valueRefused master (0x801000010 + n * 0x100)

/-- LNA_BITSLIP_DELAY_WRITE (R53, R54). -/
def execLnaBitslipDelayWrite (master : Fin 2048) (lane : Fin 512) (delay : Byte) (s : State) :
    Host.Outcome State Fault Refusal :=
  onDev s fun d => d.curatorOnly master (0x801000010 + lane.val * 0x100) (·.writeDelay master lane delay.toNat)

/-- A written delay is in effect; MATCH restarts (R53). -/
def Dev.applyDelay (d : Dev) (n : Nat) : Dev :=
  match (d.lane n).delay with
  | none => d
  | some v =>
    (((d.put LNA_BITSLIP.DELAY n v).put LNA_BITSLIP.APPLIED n 1).put LNA_ALIGN.MATCH n 0).setLane n fun l =>
      { l with delay := none }

/-- BITSLIP_DELAY_APPLIED (R53). -/
def execBitslipDelayApplied (lane : Fin 512) (s : State) : Host.Outcome State Fault Refusal :=
  onDev s fun d => d.applyDelay lane

/-- A preset applies to a transmitter: 11 to 15 on fabric links only, 0 to 10 at 8 GT/s and above (R40, R41). -/
def presetApplies (fabric : Bool) (rate k : Nat) : Bool := fabric || (decide (k ≤ 10) && decide (3 ≤ rate))

/-- Lane n serves a fabric link. -/
def Dev.fabricLane (d : Dev) (n : Nat) : Bool :=
  match d.portOfLane n with
  | some p => d.fabricPort p
  | none => false

/-- The taps a partner asks for (R40 to R42): none when the request breaks R38 or names a preset that does not apply. At 64
and 128 GT/s on PCIe and CXL ports a preset's coefficients are the PCI Express Base Specification's, a free value here. -/
def Dev.requestedTaps (d : Dev) (n : Nat) (r : TapRequest) : Option (Nat × Nat) × Dev :=
  let fabric := d.fabricLane n
  match r with
  | .coefficients pre post => (if tapsOk pre post then some (pre, post) else none, d)
  | .preset k =>
    if !presetApplies fabric (d.get LNA_LANE_STATE.RATE n) k then (none, d)
    else if decide (6 ≤ d.get LNA_LANE_STATE.RATE n) && !fabric then
      let (a, d) := d.draw
      let (b, d) := d.draw
      (some (a % 16, min (b % 22) (21 - a % 16)), d)
    else (some (presetTaps k), d)

/-- PARTNER_COEFFICIENT_REQUEST: a front lane applies what satisfies R38 and rejects the rest; a rear lane rejects every request
(R42, R48). -/
def execPartnerCoefficientRequest (lane : Fin 512) (request : TapRequest) (s : State) :
    Host.Outcome State Fault Refusal :=
  onDev s fun d =>
    let n := lane.val
    if rearLane n then d.emit (.coefficientReject n)
    else match d.requestedTaps n request with
      | (none, d) => d.emit (.coefficientReject n)
      | (some (pre, post), d) =>
        match request with
        | .coefficients _ _ => (d.setTaps n pre post 1).emit (.coefficients n pre post)
        | .preset k => ((d.setTaps n pre post 0).put LNA_TX_EQ.PRESET n k).emit (.coefficients n pre post)

/-- The preset a search tries i-th: 11 to 15, then 0 to 10 (R52). -/
def searchPreset (i : Nat) : Nat := if i < 5 then 11 + i else i - 5

/-- Taps one step on; none for a step that breaks R38. -/
def tapStep (t : Nat × Nat) (s : TapStep) : Option (Nat × Nat) :=
  let ok (pre post : Int) : Option (Nat × Nat) :=
    if 0 ≤ pre ∧ 0 ≤ post ∧ tapsOk pre.toNat post.toNat then some (pre.toNat, post.toNat) else none
  match s with
  | .postUp => ok t.1 (t.2 + 1)
  | .postDown => ok t.1 (t.2 - 1)
  | .preUp => ok (t.1 + 1) t.2
  | .preDown => ok (t.1 - 1) t.2

/-- The first of the highest scores, with its place. -/
def bestScore (scores : List Nat) : Nat × Nat :=
  scores.zipIdx.foldl (fun b e => if b.2 < e.1 then (e.2, e.1) else b) (0, scores.getD 0 0)

/-- Coefficient steps are tried in turn, each asked of the partner and kept where it raises the score, else taken back (R52). -/
def Dev.trySteps (d : Dev) (n : Nat) (taps : Nat × Nat) (score : Nat) (steps : List (TapStep × Nat)) : (Nat × Nat) × Dev :=
  match steps with
  | [] => (taps, d)
  | (s, x) :: r =>
    match tapStep taps s with
    | none => d.trySteps n taps score r
    | some t =>
      let d := d.emit (.coefficients n t.1 t.2)
      if score < x then d.trySteps n t x r else (d.emit (.coefficients n taps.1 taps.2)).trySteps n taps score r

/-- The receiver's search of R52 on a fabric link: the partner's transmitter steps through the 16 presets, the highest score is asked for,
and up to eight single steps follow. What is asked goes out, and the taps agreed are kept (R61). -/
def Dev.searchTaps (d : Dev) (n : Nat) (x : EqSearch) : Dev :=
  let d := d.forEach (List.range 16) fun d i => d.emit (.presetRequest n (searchPreset i))
  let b := bestScore (x.scores.take 16)
  let d := d.emit (.presetRequest n (searchPreset b.1))
  let r := d.trySteps n (presetTaps (searchPreset b.1)) b.2 (x.steps.take 8)
  r.2.setLane n fun l => { l with partner := r.1 }

/-- Lane n carries a fabric link that changes its speed (R97). -/
def Dev.changesSpeed (d : Dev) (n : Nat) : Bool :=
  match d.portOfLane n with
  | some p => d.fabricPort p && d.linkState p == 5 && (d.link p).lanes.contains n
  | none => false

/-- LANE_ATTEMPT_TIMER_EXPIRY (R49); in a speed change of its fabric link the 30 ms of R97 take precedence. -/
def execLaneAttemptTimerExpiry (lane : Fin 512) (s : State) : Host.Outcome State Fault Refusal :=
  onDev s fun d => d.when (!d.changesSpeed lane) (·.failAttempt lane)

/-- LANE_BIT_LOCK_LOST: LOCK_LOST; a fabric-link lane goes OFF and stays, another retrains (R49). -/
def execLaneBitLockLost (lane : Fin 512) (s : State) : Host.Outcome State Fault Refusal :=
  onDev s fun d =>
    let n := lane.val
    d.underInjection 2 n fun d =>
      if d.laneState n ≠ 6 ∧ d.laneState n ≠ 7 then d
      else
        let p := d.portOfLane n
        let d := (d.raise LNA_EVENTS.LOCK_LOST n (laneEv n)).setLane n fun l => { l with lockLosses := l.lockLosses + 1 }
        let d := match p with
          | some p => d.count (portCtr p 31) 1
          | none => d
        if (match p with
            | some p => d.fabricPort p
            | none => false) then (d.laneOff n).setLane n fun l => { l with held := true }
        else (d.put LNA_LANE_STATE.ATTEMPTS n (min 255 (d.get LNA_LANE_STATE.ATTEMPTS n + 1))).laneDetect n

/-- The rate a PCIe or CXL port's lanes may be ordered to (R34, R46, R109): within RATE_MAX of the port and its lanes, on a CXL port at most
6, on a link without Flit Mode at most 5, and on rear lanes only where the table has the entries. -/
def Dev.rateAllowed (d : Dev) (p r : Nat) (lanes : List Nat) : Bool :=
  decide (1 ≤ r) && decide (r ≤ d.get PRT_PORT_CFG.RATE_MAX p) && (d.get PRT_PORT_CFG.KIND p != 3 || decide (r ≤ 6)) &&
    (d.is PRT_PORT_STATUS.FLIT p || decide (r ≤ 5)) && lanes.all (fun n => decide (r ≤ d.get LNA_LANE_CFG.RATE_MAX n)) &&
    d.rateHeld lanes r

/-- A PCIe or CXL link is down in an LTSSM state: 0 Detect, 7 Disabled (R107). -/
def Dev.linkFalls (d : Dev) (p ltssm : Nat) : Dev :=
  ((d.put PRT_PORT_STATUS.DL_ACTIVE p 0).put PRT_PORT_STATUS.LTSSM p ltssm).put PRT_PORT_STATUS.LINK_PM p 6

/-- A PCIe or CXL link retrains from Detect (R117). -/
def Dev.retrainLink (d : Dev) (p : Nat) : Dev :=
  (d.linkFalls p 0).forEach ((d.lanesOf p).filter fun n => decide (2 ≤ d.laneState n) && decide (d.laneState n ≤ 7)) fun d n =>
    d.laneDetect n

/-- RATE_CHANGE_ORDERED: the ACTIVE lanes of a PCIe or CXL port go to PATTERN at the new rate (R49); of a fabric link the partner is asked
first (R97). -/
def execRateChangeOrdered (port : Fin 512) (rate : Fin 8) (s : State) : Host.Outcome State Fault Refusal :=
  onDev s fun d =>
    let p := port.val
    let r := rate.val
    if !d.configured p then d
    else if d.fabricPort p then
      let lanes := (d.link p).lanes
      d.when (d.linkState p == 2 && (d.fabricRates p).contains r && r != (d.link p).rate && d.rateHeld lanes r) (·.request p 0x12 [r])
    else
      let lanes := (d.lanesOf p).filter fun n => d.laneState n == 6
      d.when (d.rateAllowed p r lanes) fun d => d.forEach lanes fun d n => d.startPattern n r

/-! ### Margin scans -/

/-- A scan starts in ACTIVE or TEST on the axes given; any other START sets STATUS 0b11 and leaves a running scan alone (R59). -/
def Dev.beginScan (d : Dev) (n axes : Nat) (load : Bool) : Dev :=
  let st := d.laneState n
  if (st == 6 || st == 10) && !(d.lane n).scanning then
    (d.put LNA_MRG_RESULT.STATUS n 1).setLane n fun l => { l with scanning := true, axes := axes, loadScan := load }
  else d.put LNA_MRG_RESULT.STATUS n 3

/-- A scan with the settings in LNA_MRG_CTL (R59, R60). -/
def Dev.startScan (d : Dev) (n : Nat) (load : Bool) : Dev := d.beginScan n (d.get LNA_MRG_CTL.AXES n) load

/-- The RW fields of LNA_MRG_CTL take a written word (R57). DWELL keeps its value where 9 to 15 is written (DESIGN CHOICE, log entry 101: the
field map gives 0 to 8 and does not say what such a write does). -/
def Dev.writeMargin (d : Dev) (n v : Nat) : Dev :=
  let d := d.when (decide (bitsOf v 29 26 ≤ 8)) (·.put LNA_MRG_CTL.DWELL n (bitsOf v 29 26))
  let d := (d.put LNA_MRG_CTL.ERR_LIMIT n (bitsOf v 25 22)).put LNA_MRG_CTL.AXES n (bitsOf v 21 20)
  (d.put LNA_MRG_CTL.VFLOOR n (bitsOf v 13 8)).put LNA_MRG_CTL.HFLOOR n (bitsOf v 5 0)

/-- MARGIN_SCAN_START: a write of LNA_MRG_CTL with START (R59). -/
def execMarginScanStart (master : Fin 2048) (lane : Fin 512) (value : Word) (s : State) :
    Host.Outcome State Fault Refusal :=
  onDev s fun d =>
    d.curatorOnly master (0x801000020 + lane.val * 0x100) fun d => (d.writeMargin lane value.toNat).startScan lane false

/-- MARGIN_SCAN_ABORT: a write of LNA_MRG_CTL with ABORT (R59). -/
def execMarginScanAbort (master : Fin 2048) (lane : Fin 512) (value : Word) (s : State) :
    Host.Outcome State Fault Refusal :=
  onDev s fun d =>
    d.curatorOnly master (0x801000020 + lane.val * 0x100) fun d => (d.writeMargin lane value.toNat).abortScan lane

/-- The smallest margin of an eye on the scanned axes (bit 0 horizontal, bit 1 vertical). -/
def eyeMargin (axes : Nat) (e : Eye) : Nat :=
  min (if bitOf axes 0 then min e.left e.right else 32) (if bitOf axes 1 then min e.up e.down else 32)

/-- The eye whose smallest margin is lowest, with its number (R58). -/
def worstEye (axes : Nat) (eyes : List Eye) : Nat × Eye :=
  (eyes.zipIdx.foldl (fun (best : Option (Nat × Eye)) e =>
    match best with
    | none => some (e.2, e.1)
    | some b => if eyeMargin axes e.1 < eyeMargin axes b.2 then some (e.2, e.1) else some b) none).getD (0, ⟨0, 0, 0, 0⟩)

/-- The result of a lane's scan: the worst eye's margins, and the sticky event below its floor (R58). -/
def Dev.scanResult (d : Dev) (n : Nat) (eyes : List Eye) : Dev :=
  let axes := (d.lane n).axes
  let (i, e) := worstEye axes eyes
  let h := bitOf axes 0 && decide (min e.left e.right < d.get LNA_MRG_CTL.HFLOOR n)
  let v := bitOf axes 1 && decide (min e.up e.down < d.get LNA_MRG_CTL.VFLOOR n)
  let d := (d.put LNA_MRG_RESULT.STATUS n 2).put LNA_MRG_RESULT.WORST_EYE n (if 6 ≤ d.get LNA_LANE_STATE.RATE n then i else 0)
  let d := ((d.put LNA_MRG_RESULT.LEFT n e.left).put LNA_MRG_RESULT.RIGHT n e.right).put LNA_MRG_RESULT.DOWN n e.down
  let d := (d.put LNA_MRG_RESULT.UP n e.up).mark LNA_MRG_RESULT.BELOW_FLOOR n (h || v)
  d.when (h || v) (·.raise LNA_EVENTS.BELOW_FLOOR n (laneEv n))

/-- MARGIN_SCAN_COMPLETE: the worst eye's margins are written; below its floor the sticky event is set (R58). -/
def execMarginScanComplete (lane : Fin 512) (eyes : List Eye) (temp : Byte) (s : State) :
    Host.Outcome State Fault Refusal :=
  onDev s fun d =>
    let n := lane.val
    if !(d.lane n).scanning then d
    else
      let d := d.scanResult n eyes
      let low := d.is LNA_MRG_RESULT.BELOW_FLOOR n
      let d := match d.portOfLane n with
        | some p => d.when low (·.count (portCtr p 93) 1)
        | none => d
      d.scanEnds n fun _ => temp.toNat

/-- A port is ACTIVE: some lane of it is. -/
def Dev.portActive (d : Dev) (p : Nat) : Bool := (d.lanesOf p).any fun n => d.laneState n == 6

/-- LOAD_TRIGGER_EVALUATION: the 1 ms evaluation of a port at a utilisation in percent and a die temperature (R60). -/
def execLoadTriggerEvaluation (port : Fin 512) (util : Fin 101) (temp : Byte) (s : State) :
    Host.Outcome State Fault Refusal :=
  onDev s fun d =>
    let p := port.val
    if !d.configured p || !d.portActive p then d
    else
      let lanes := (d.lanesOf p).filter fun n => d.laneState n == 6
      let d := d.setPortX p fun x => { x with temp := temp.toNat }
      let lowest := (d.lanesOf p).foldl (fun (m : Int) n => min m (signedOf 8 (d.get LNA_TRAIN_REF.TEMP n))) 127
      let armed := !(d.portX p).disarmed
      let byUse := armed && decide (d.get LNA_TRIG_CFG.UTIL_PCT 0 < util.val)
      let byHeat := decide (lowest + d.get LNA_TRIG_CFG.TEMP_DELTA 0 < signedOf 8 temp.toNat)
      let d := d.when (decide (util.val < d.get LNA_TRIG_CFG.REARM_PCT 0)) fun d =>
        d.setPortX p fun x => { x with disarmed := false }
      if (byUse || byHeat) && !((d.lanesOf p).any fun n => (d.lane n).scanning) then
        let d := d.when byUse fun d => d.setPortX p fun x => { x with disarmed := true }
        (d.forEach lanes fun d n => d.startScan n true).count (portCtr p 92) 1
      else d

end Sys2Proof.Machine
end

