-- ==== Sys2Proof/Machine/Mailboxes.lean ====
section
/-! DEFINITION. Mailbox channels, the binding table, aborts, and the VMF's Bus Master Enable and FLR (R383 to R401). -/

namespace Sys2Proof.Machine

/-- The master ID of a Vitrine's VMF (R383). -/
def vmfMaster (lv : Nat) : Nat := 0x400 + lv

/-- A master ID that has an owner (R383). -/
def assignedMaster (m : Nat) : Bool :=
  decide (m ≤ 1) || (decide (0x010 ≤ m) && decide (m ≤ 0x01F)) || m == 0x020 || m == 0x021 || decide (0x400 ≤ m) && decide (m ≤ 0x7FF)

/-- Notices queued on a channel, oldest first. -/
def Dev.channel (d : Dev) (c : Nat) : List Nat := SMap.get [] d.chans c

/-- The queue of a channel becomes q. -/
def Dev.setChannel (d : Dev) (c : Nat) (q : List Nat) : Dev := { d with chans := SMap.set [] d.chans c q }

/-- A master is the bound sender, or receiver, of a channel. -/
def Dev.isSender (d : Dev) (master c : Nat) : Bool := d.is MBX_BIND.VALID c && d.get MBX_BIND.SENDER c == master
def Dev.isReceiver (d : Dev) (master c : Nat) : Bool := d.is MBX_BIND.VALID c && d.get MBX_BIND.RECEIVER c == master

/-- Where a master writes a channel's word (R389): the address a record about it carries, and its subsystem. -/
def channelAccess (master c off : Nat) : Nat × Nat :=
  if 0x400 ≤ master then (0x17, 0x1000 + c * 16 + off) else (0x16, 0x808800000 + c * 16 + off)

/-- A write by a master that is not bound as needed has no effect and is recorded (R389). -/
def Dev.channelRefused (d : Dev) (master c off : Nat) : Dev :=
  d.accessRecord (channelAccess master c off).1 0x72 master (channelAccess master c off).2

/-- A notice is appended to a channel (R390), or lost to a full queue (R392). -/
def Dev.postNotice (d : Dev) (c notice : Nat) : Dev :=
  if 16 ≤ (d.channel c).length then
    let d := (d.put MBX_CH_STATUS.REFUSED c 1).bump MBX_CH_STATUS.DISCARDED c 1
    (d.count (modCtr 1541 17) 1).record 0x1680 { object := c, addr := notice }
  else (d.setChannel c (d.channel c ++ [notice])).count (modCtr 1541 16) 1

/-- The head notice is removed (R390). -/
def Dev.popNotice (d : Dev) (c : Nat) : Dev := d.setChannel c (d.channel c).tail

/-- A sender's write of PTR_HI appends {PTR_HI, PTR_LO} (R390). -/
def Dev.writePtrHi (d : Dev) (master c v : Nat) : Dev :=
  if d.isSender master c then (d.put MBX_CH_PTR_HI.PTR c v).postNotice c (v * 2 ^ 32 + d.get MBX_CH_PTR_LO.PTR c)
  else d.channelRefused master c 4

/-- The receiver removes the head notice by writing POP; an empty queue ignores it (R389, R390). -/
def Dev.writePop (d : Dev) (master c v : Nat) : Dev :=
  if d.isReceiver master c then d.when (bitOf v 0) (·.popNotice c) else d.channelRefused master c 12

/-- MAILBOX_POST (R390). -/
def execMailboxPost (master : Fin 2048) (channel : Fin 256) (value : Word) (s : State) :
    Host.Outcome State Fault Refusal :=
  onDev s fun d => d.writePtrHi master channel value.toNat

/-- MAILBOX_POP (R389, R390). -/
def execMailboxPop (master : Fin 2048) (channel : Fin 256) (value : Word) (s : State) :
    Host.Outcome State Fault Refusal :=
  onDev s fun d => d.writePop master channel value.toNat

/-- Binding entries with equal or unassigned IDs become invalid, each with a record (R394). -/
def Dev.checkBindings (d : Dev) : Dev :=
  d.forEach (List.range 256) fun d c =>
    let bad := d.get MBX_BIND.SENDER c == d.get MBX_BIND.RECEIVER c || !assignedMaster (d.get MBX_BIND.SENDER c) ||
      !assignedMaster (d.get MBX_BIND.RECEIVER c)
    d.when (d.is MBX_BIND.VALID c && bad) fun d => (d.put MBX_BIND.VALID c 0).record 0x1682 { object := c }

/-- Writing 1 to MBX_LOCK locks the binding table until module reset; a write of 0, or to the locked register, has no effect (R394, R10). -/
def Dev.writeLock (d : Dev) (master v : Nat) : Dev :=
  if d.is MBX_LOCK.LOCK 0 then d.accessRecord 0x16 0x71 master 0x808802000
  else if bitOf v 0 then d.checkBindings.put MBX_LOCK.LOCK 0 1
  else d

/-- MBX_LOCK_WRITE (R394). -/
def execMbxLockWrite (master : Fin 2048) (value : Word) (s : State) : Host.Outcome State Fault Refusal :=
  onDev s fun d => d.curatorOnly master 0x808802000 (·.writeLock master value.toNat)

/-- Channels of which a master that is reset is the receiver are aborted (R395); notices it posted and nobody popped are
discarded (R396). -/
def Dev.abortMaster (d : Dev) (master reason : Nat) : Dev :=
  let d := d.forEach ((List.range 256).filter (d.isReceiver master)) fun d c =>
    let n := (d.channel c).length
    let d := ((d.setChannel c []).put MBX_CH_STATUS.ABORTED c 1).put MBX_CH_STATUS.REASON c reason
    ((d.bump MBX_CH_STATUS.DISCARDED c n).count (modCtr 1541 18) n).record 0x1681 { object := c }
  d.forEach ((List.range 256).filter (d.isSender master)) fun d c =>
    let n := (d.channel c).length
    ((d.setChannel c []).bump MBX_CH_STATUS.DISCARDED c n).count (modCtr 1541 18) n

/-- CHANNEL_ABORTED: a master is reset (R395, R396). -/
def execChannelAborted (master : Fin 2048) (reason : Fin 16) (s : State) : Host.Outcome State Fault Refusal :=
  onDev s fun d => d.abortMaster master reason

/-! ### Bus Master Enable and FLR -/

/-- VMF_BME shows the reads outstanding (R399). -/
def Dev.showReads (d : Dev) (lv : Nat) : Dev :=
  let v := d.vmf lv
  ((d.put VMF_BME.OUTSTANDING lv v.reads.length).mark VMF_BME.BME_PENDING lv (v.reads.any fun r => r.2.2)).mark
    VMF_BME.FLR_PENDING lv v.flr

/-- A command whose descriptor was never fetched ends with BME_ABORTED, in a COMMAND_DONE record; CMD_LOST is set (R374,
R400). -/
def Dev.fetchLost (d : Dev) (lv : Nat) : Dev :=
  let d := (d.count (vitCtr lv 38) 1).record 0x1080
    { gvh := d.get VIT_STATE.GVH lv, detail := leBytes 2 0 ++ leBytes 2 Status.bmeAborted ++ leBytes 2 (vmfMaster lv) }
  d.vmfFlag lv VMF_EVENT_FLAGS.CMD_LOST

/-- The reads outstanding end with their VMF's reset: the commands whose descriptors they fetch never run (R374). -/
def Dev.loseReads (d : Dev) (lv : Nat) : Dev := d.forEach (d.vmf lv).reads fun d _ => d.fetchLost lv

/-- Bus Master Enable is cleared: the reads outstanding stay until they resolve, and their data is discarded (R400). -/
def Dev.clearBme (d : Dev) (lv : Nat) : Dev :=
  (d.setVmf lv fun v => { v with busMaster := false, reads := v.reads.map fun r => (r.1, r.2.1, true) }).showReads lv

/-- VMF_BME_CLEAR (R400). -/
def execVmfBmeClear (lvid : Fin 1024) (s : State) : Host.Outcome State Fault Refusal :=
  onDev s fun d => d.clearBme lvid

/-- BAR0 registers of a VMF that an FLR or a hot reset returns to their reset values. -/
def vmfRegs : List Reg :=
  [.VMF_INTX, .VMF_BME, .VMF_CPL_TMO, .VMF_EVENT_FLAGS, .VMF_EVENT_MASK, .VMF_CAT_ADDR_LO, .VMF_CAT_ADDR_HI, .VMF_CAT_SIZE,
   .VMF_CAT_WPTR, .VMF_SPC_ADDR_LO, .VMF_SPC_ADDR_HI, .VMF_SPC_SIZE, .VMF_SPC_WPTR]

/-- BAR0 registers of a VMF that a save image carries (R398). -/
def savedVmfRegs : List Reg := [.VMF_CPL_TMO, .VMF_EVENT_MASK]

/-- Registers of an instance return to their reset values. -/
def Dev.resetRegs (d : Dev) (rs : List Reg) (i : Nat) : Dev :=
  { d with regs := d.regs.filter fun e =>
      !(e.1 / 8192 == i && rs.any fun (r : Reg) => e.1 % 8192 / 32 == r.ctorIdx) }

/-- Configuration words of virtual function f (0 the upstream port, 1 the VMF, 2 + k virtual downstream port k, 66 the CXL component
registers) of a Vitrine
return to their reset values. -/
def Dev.resetCfg (d : Dev) (lv f : Nat) : Dev := { d with cfg := d.cfg.filter fun e => e.1 / 1024 != lv * 128 + f }

/-- A VMF's host-memory targets end (R398, R401): its Catalogue and Specimen streams go off and keep their numbers. -/
def Dev.endTargets (d : Dev) (lv : Nat) : Dev :=
  let n := lv + 1
  { d with
    cats := SMap.modify {} d.cats n fun (c : CatStream) => { dseq := c.dseq, skipped := c.skipped }
    spcs := SMap.modify {} d.spcs n fun (c : SpcStream) => { sseq := c.sseq }
    samples := d.samples.filter fun (x : Sample) => x.stream != n }

/-- An FLR whose reads are resolved completes: the VMF's configuration and BAR0 registers return to reset (R401). -/
def Dev.finishFlr (d : Dev) (lv : Nat) : Dev :=
  if (d.vmf lv).flr ∧ (d.vmf lv).reads = [] then
    let d := ((d.setVmf lv fun _ => {}).contribute lv intxOfVmf 0 false).endTargets lv
    (d.resetRegs vmfRegs lv).resetCfg lv 1
  else d

/-- An FLR of a VMF acts as a clear of Bus Master Enable and waits for the reads outstanding (R401, R395). -/
def Dev.startFlr (d : Dev) (lv : Nat) : Dev :=
  let d := (d.setVmf lv fun v => { v with flr := true }).clearBme lv
  (d.abortMaster (vmfMaster lv) 1).finishFlr lv

/-- VMF_FLR (R401). -/
def execVmfFlr (lvid : Fin 1024) (s : State) : Host.Outcome State Fault Refusal := onDev s fun d => d.startFlr lvid

/-- VMF_READ_TIMEOUT: the oldest outstanding read times out (R399); its command never runs (R374, R400). -/
def execVmfReadTimeout (lvid : Fin 1024) (s : State) : Host.Outcome State Fault Refusal :=
  onDev s fun d =>
    let lv := lvid.val
    match (d.vmf lv).reads with
    | [] => d
    | _ :: rest => (((d.setVmf lv fun v => { v with reads := rest }).fetchLost lv).showReads lv).finishFlr lv

end Sys2Proof.Machine
end

