-- ==== Sys2Proof/Machine/Hierarchy.lean ====
section
/-! DEFINITION. What the flows of a Vitrine share: virtual slots, endpoint resets, squash and drain, presentation, bindings and
resources (R117, R118, R152, R240 to R257). -/

namespace Sys2Proof.Machine

/-! ### Ports in their cages -/

/-- The configured ports of a cage or rear group. -/
def Dev.portsInCage (d : Dev) (c : Nat) : List Nat := ((List.range 8).filterMap fun i => d.portOfLane (c * 8 + i)).eraseDups

/-- The lanes of the cages or rear groups that n lanes from p on lie in (R105). -/
def cageLanes (p n : Nat) : List Nat :=
  (List.range ((p % 8 + n + 7) / 8 * 8)).map (p / 8 * 8 + ·)

/-- Configured ports in the cages or groups of p, p left out. -/
def Dev.cageMates (d : Dev) (p n : Nat) : List Nat :=
  (((cageLanes p n).filterMap d.portOfLane).filter (· ≠ p)).eraseDups

/-- A port alone occupies its cages or rear groups (R134, R117). -/
def Dev.aloneInCage (d : Dev) (p : Nat) : Bool := (d.cageMates p (widthLanes (d.get PRT_PORT_CFG.WIDTH p))).isEmpty

/-- The cages or rear groups of a port. -/
def Dev.cagesOf (d : Dev) (p : Nat) : List Nat := ((d.lanesOf p).map cageOf).eraseDups

/-- What port p of a cage is told of an allotment: the pair itself where it is alone, else its share in 0.1 W (R155). -/
def Dev.splFor (d : Dev) (c value scale : Nat) : Nat × Nat :=
  let n := (d.portsInCage c).length
  if n ≤ 1 then (value, scale) else (splShare (splMilliwatts value scale) n, 1)

/-- The slot power limit a port's endpoints and their virtual slots show: its share of the allotment in force (R155). -/
def Dev.splShown (d : Dev) (p : Nat) : Nat × Nat := d.splFor (cageOf p) (d.get EBR_SIDEBAND.SPL_VALUE p) (d.get EBR_SIDEBAND.SPL_SCALE p)

/-! ### Virtual slots -/

/-- Device number of virtual downstream port k on the internal bus (R240). -/
def vdpDevice (k : Nat) : Nat := k % 32

/-- An event bit of a virtual slot is set whose enable in Slot Control is set, with the Hot-Plug Interrupt Enable (R153). -/
def slotPending (v : VPort) : Bool :=
  v.hotplugIntEnable &&
    ((v.attention && bitOf v.slotEnables 0) || (v.powerFault && bitOf v.slotEnables 1) || (v.presenceChanged && bitOf v.slotEnables 3) ||
      (v.commandCompleted && bitOf v.slotEnables 4) || (v.dllChanged && bitOf v.slotEnables 12))

/-- INTA of a virtual downstream port follows its slot events while MSI is disabled (R153, R243). -/
def Dev.slotIntx (d : Dev) (lv k : Nat) : Dev :=
  let v := d.vport lv k
  let on := !v.msi && slotPending v
  let wire := vdpDevice k % 4
  if (d.vit lv).intx.contains (intxOfVport k, wire) == on then d else d.contribute lv (intxOfVport k) wire on

/-- A virtual slot changes: INTA follows, and with MSI enabled a message goes when an enabled event comes to be pending (R153). -/
def Dev.slotEvent (d : Dev) (lv k : Nat) (f : VPort → VPort) : Dev :=
  let was := slotPending (d.vport lv k)
  let d := d.setVport lv k f
  let v := d.vport lv k
  (d.slotIntx lv k).when (v.msi && !was && slotPending v) (·.emit (.hotPlugInterrupt (d.gvh lv) k))

/-- A binding is presented: Presence Detect State and Changed, Data Link Layer Link Active (R152, R242, R250). -/
def Dev.slotPresent (d : Dev) (lv k : Nat) : Dev :=
  d.slotEvent lv k fun v => { v with presence := true, presenceChanged := true, dllActive := true }

/-- Presence is lost (R152). -/
def Dev.slotGone (d : Dev) (lv k : Nat) : Dev :=
  d.slotEvent lv k fun v =>
    { v with presence := false, presenceChanged := true, dllChanged := true, dllActive := false }

/-- The slot of an unbind (R152). -/
def Dev.slotUnbound (d : Dev) (lv k : Nat) : Dev :=
  d.slotEvent lv k fun v => { v with presence := false, presenceChanged := true }

/-- A binding changes. -/
def Dev.setBinding (d : Dev) (lv k : Nat) (f : Binding → Binding) : Dev :=
  d.setVit lv fun v => { v with bindings := v.bindings.map fun b => if b.k = k then f b else b }

/-- The INTx contributions of an endpoint behind virtual downstream port k are cleared (R128). -/
def Dev.clearEndpointIntx (d : Dev) (lv k : Nat) : Dev :=
  d.clearContributions lv fun s => decide (k * 256 ≤ s) && decide (s < k * 256 + 256)

/-! ### Endpoints -/

/-- PERST_N of a cage or rear group is asserted or released (R119). -/
def Dev.setPerst (d : Dev) (c : Nat) (on : Bool) : Dev :=
  if d.perstReleased.contains c == !on then d
  else
    ({ d with perstReleased := if on then d.perstReleased.filter (· ≠ c) else d.perstReleased ++ [c] }).emit (.perst c on)

/-- The link of an endpoint's port is DL_Active; an internal attachment always is. -/
def Dev.linkUp (d : Dev) (p : Nat) : Bool := internalPort p || d.is PRT_PORT_STATUS.DL_ACTIVE p

/-- The port holds a single endpoint that is no logical device and no tunnel endpoint (R118, R125, R157). -/
def Dev.aloneOn (d : Dev) (p : Nat) : Bool :=
  !internalPort p && decide ((d.endpointsOf p).length ≤ 1) &&
    (d.endpointsOf p).all fun e => (d.endpoint p e).ldId.isNone

/-- Registers of a Console Engine in its BAR2 (R301). -/
def engineRegs : List Reg :=
  [.TUN_CE_MODE, .TUN_CE_GEOM, .TUN_CE_STRIDE, .TUN_CE_SCANOUT, .TUN_CE_STATUS, .TUN_CE_IRQ]

/-- The Console Engine that is endpoint e of port 447, if it is one: engines are endpoints 64 to 127 there (log entry 10). -/
def engineOf (p e : Nat) : Option Nat := if p = 447 ∧ 64 ≤ e ∧ e < 128 then some (e - 64) else none

/-- A Console Engine is disabled and its registers return to reset; its destination stays (R295, R302). -/
def Dev.resetEngine (d : Dev) (n : Nat) : Dev :=
  let d := { d.resetRegs engineRegs n with engines := SMap.erase d.engines n }
  d.put TUN_CE_STATUS.ATTACHED n (d.get TUN_CE_DEST.VALID n)

/-- An endpoint's reset is applied in the form its attachment allows (R118): hot reset of a link it has alone, the CXL
logical-device reset, or FLR, which disables a Console Engine and resets its registers (R295). -/
def Dev.applyReset (d : Dev) (p e : Nat) : Dev :=
  if (d.endpoint p e).ldId.isSome then d.emit (.linkReset p "logical device reset")
  else if d.aloneOn p then (d.emit (.linkReset p "hot reset")).setEndpoint p e fun x => { x with awaitDrs := true }
  else
    let d := d.emit (.linkReset p "FLR")
    match engineOf p e with
    | some n => d.resetEngine n
    | none => d

/-- An endpoint is reset now, or when its link next reaches DL_Active (R118). -/
def Dev.resetEndpoint (d : Dev) (p e : Nat) : Dev :=
  if d.linkUp p then d.applyReset p e else d.setEndpoint p e fun x => { x with resetPending := true }

/-- Resets held for endpoints of a port that is DL_Active again are applied (R118). -/
def Dev.applyPending (d : Dev) (p : Nat) : Dev :=
  if !d.linkUp p then d
  else
    d.forEach ((d.endpointsOf p).filter fun e => (d.endpoint p e).resetPending) fun d e =>
      (d.setEndpoint p e fun x => { x with resetPending := false }).applyReset p e

/-- The containment object an endpoint belongs to (R267, R294): its port; of a tunnel endpoint the tunnel of its front port, 512 to
527; of a Console Engine the engine, from 528 on (log entry 10). -/
def Dev.contPort (d : Dev) (p e : Nat) : Nat :=
  if p ≠ 447 then p else if e < 64 then 512 + (d.endpoint p e).front else 528 + (e - 64)

/-- The attachment of endpoint e of port p here (R114, R118, R125, R134, R157, R267). -/
def Dev.placeOf (d : Dev) (p e : Nat) : EpPlace :=
  { alone := (d.endpoint p e).ldId.isNone && d.aloneOn p
    slot := decide (p < 448) && !internalPort p && d.deviceFacing p && d.aloneInCage p
    cxl := d.is PRT_PORT_STATUS.CXL p
    object := d.contPort p e }

/-- The attachment of a binding's endpoint: as it is here, or as the module that holds it told. -/
def Dev.placeAt (d : Dev) (b : Binding) : EpPlace :=
  if fpidModule b.fpid = d.moduleId then d.placeOf (fpidPort b.fpid) b.ep else b.place

/-- The endpoint of a binding, where this module holds it, changes. -/
def Dev.setBound (d : Dev) (b : Binding) (f : EpBind → EpBind) : Dev :=
  d.when (fpidModule b.fpid == d.moduleId) fun d =>
    d.setEndpoint (fpidPort b.fpid) b.ep fun e => { e with bound := e.bound.map f }

/-- Requests from a binding's endpoint toward the Vitrine are refused, or no longer (R251, R254, R266). -/
def Dev.refuseBinding (d : Dev) (lv : Nat) (b : Binding) (on : Bool) : Dev :=
  let d := d.setBound b fun x => { x with refusing := on }
  d.when (on && fpidModule b.fpid != d.moduleId) (·.tell (fpidModule b.fpid) (.squash (d.gvh lv)))

/-- The endpoint of a binding is reset, here or by its module (R118). -/
def Dev.resetBinding (d : Dev) (b : Binding) : Dev :=
  if fpidModule b.fpid = d.moduleId then
    if d.contained 0 (d.contPort (fpidPort b.fpid) b.ep) then d else d.resetEndpoint (fpidPort b.fpid) b.ep
  else d.tell (fpidModule b.fpid) (.resetEndpoint b.fpid)

/-- The modules that hold an endpoint of a Vitrine, this one left out. -/
def Dev.otherModules (d : Dev) (lv : Nat) : List Nat :=
  (((d.vit lv).bindings.map fun b => fpidModule b.fpid).filter (· ≠ d.moduleId)).eraseDups

/-! ### Squash and drain -/

/-- Queue slots of a handle on this module: port and slot (R177). -/
def Dev.slotsOf (d : Dev) (gvh : Nat) : List (Nat × Nat) :=
  (d.slots.filter fun s => s.2.1 == gvh).map fun s => (s.1, s.2.2)

/-- The four class queues of a slot (R177). -/
def slotQueues (p slot : Nat) : List Nat := [0, 1, 2, 3].map fun c => queueNo p (c * 32 + slot)

/-- The queues of a handle at PCIe and CXL outputs of this module that `sel` names. -/
def Dev.queuesOf (d : Dev) (gvh : Nat) (sel : Nat → Bool) : List Nat :=
  (d.slotsOf gvh).flatMap fun s => if sel s.1 then slotQueues s.1 s.2 else []

/-- A queue is squashed until it is empty, which it is at once, and reopens (R253). -/
def Dev.squashOnce (d : Dev) (q : Nat) : Dev := (d.squashQueue q).put BSN_Q_STATUS.STATE q 0

/-- The frames of a handle queued at an internal attachment are squashed (R253). -/
def Dev.squashInternal (d : Dev) (p gvh : Nat) : Dev :=
  d.forEach (d.busyQueues p) fun d q => d.dropFrames q (fun f => f.frame.gvh != gvh) (countSquashed q)

/-- Frames queued toward a Vitrine's endpoints are drained where the port is DL_Active and not contained, else squashed
(R253). -/
def Dev.drainDown (d : Dev) (lv : Nat) : Dev :=
  let gvh := d.gvh lv
  let blocked (p : Nat) : Bool := p != d.get VIT_PORT.UPORT lv && !(d.linkUp p && !d.contained 0 p)
  d.forEach (d.queuesOf gvh blocked) fun d q => d.squashOnce q

/-- Frames queued toward a Vitrine's upstream port are squashed (R254). -/
def Dev.squashUp (d : Dev) (lv : Nat) : Dev :=
  d.forEach (d.queuesOf (d.gvh lv) (· == d.get VIT_PORT.UPORT lv)) fun d q => d.squashOnce q

/-- Every tracker entry whose requester or completer is the Vitrine's upstream port is squashed, here and at the modules of its
endpoints (R254). -/
def Dev.squashEntries (d : Dev) (lv : Nat) : Dev :=
  let up := d.upFpid lv
  let gvh := d.gvh lv
  let d := d.squash fun e => e.gvh == gvh && (e.src == up || e.dst == up)
  d.forEach (d.otherModules lv) fun d m => d.tell m (.squash gvh)

/-- Host TLPs held at a Vitrine's upstream port are dropped (R254, R263): non-posted ones complete with Unsupported Request
where `complete` holds. -/
def Dev.dropHeld (d : Dev) (sel : HeldTlp → Bool) (complete : Bool) : Dev :=
  let gone := d.heldTlps.filter sel
  let d := { d with heldTlps := d.heldTlps.filter fun h => !sel h }
  d.forEach gone fun d h =>
    let d := match h.handle with
      | some n => d.freeEntry n
      | none => d
    match h.frame.body with
    | .tlp t => d.when complete fun d => d.refuse h.port { t with requester := d.localId h.port h.frame.gvh t.requester } 1
    | .mem m => d.when complete (·.refuseMem h.port m)
    | _ => d

/-! ### Resets of a Vitrine -/

/-- HDM decoders of a Vitrine are disabled (R254). -/
def disableHdm (v : Vit) : Vit := { v with hdm := v.hdm.map fun h => { h with enabled := false } }

/-- Steps 2 to 4 of a hot reset (R254). -/
def Dev.squashAndDrain (d : Dev) (lv : Nat) : Dev :=
  let d := ((d.squashEntries lv).squashUp lv).drainDown lv
  d.forEach (d.vit lv).bindings fun d b => d.refuseBinding lv b true

/-- The translation entries of a binding lose VALID (R254). -/
def Dev.invalidateAtts (d : Dev) (lv : Nat) (b : Binding) : Dev :=
  (d.setBinding lv b.k fun b => { b with barx := [] }).forEach b.atts fun d n => d.setAtt n { SMap.get {} d.atts n with valid := false }

/-- The registers of the virtual functions return to reset; what the physical slot shows stays (R254). -/
def Dev.resetFunctions (d : Dev) (lv : Nat) : Dev :=
  let d := d.forEach (List.range (d.get VIT_PORT.NVDP lv)) fun d k =>
    (d.setVport lv k fun v =>
      { presence := v.presence, dllActive := v.dllActive, splValue := v.splValue, splScale := v.splScale }).resetCfg lv (2 + k)
  let d := (((((d.loseReads lv).endTargets lv).resetCfg lv 0).resetCfg lv 1).resetCfg lv 66).resetRegs vmfRegs lv
  (d.setVmf lv fun _ => {}).setVit lv fun v => { v with bus := 0, hostLtr := none, aspmL1 := false, upAer := 0 }

/-- The Vitrine is presented: DRS upstream (R141); where the host was refused before, the link goes through Detect once, and DRS follows when
it is up (R142). -/
def Dev.present (d : Dev) (lv : Nat) : Dev :=
  let p := d.get VIT_PORT.UPORT lv
  let d := (d.setVitState lv 2).count (vitCtr lv 30) 1
  if d.owesDetect.contains p then
    ({ d with owesDetect := d.owesDetect.filter (· ≠ p), owesDrs := d.owesDrs.filter (· ≠ p) ++ [p] }.retrainLink p).emit
      (.linkReset p "through Detect once")
  else d.emit (.drs p)

/-- The end of a hot reset (R254, steps 5 and 6): endpoints reset, defaults restored, wires cleared without messages. -/
def Dev.finishReset (d : Dev) (lv : Nat) : Dev :=
  let d := d.forEach (d.vit lv).bindings fun d b => ((d.resetBinding b).invalidateAtts lv b).refuseBinding lv b false
  let d := (d.resetFunctions lv).setVit lv fun v => { disableHdm v with intx := [] }
  let d := d.abortMaster (vmfMaster lv) 2
  let d := d.present lv
  if d.get SLC_CONT_STATE.STATE (contObj 1 lv) = 2 then
    let d := ((d.put SLC_CONT_STATE.STATE (contObj 1 lv) 0).put SLC_CONT_STATE.CAUSE (contObj 1 lv) 0).put
      SLC_CONT_STATE.REPEATS (contObj 1 lv) 0
    ((d.count (portCtr (d.get VIT_PORT.UPORT lv) 83) 1).record 0x0A61 { port := d.upFpid lv, gvh := d.gvh lv }).endWaiting
      (.release 1 lv) Status.ok
  else d

/-- A hot reset from step 2 or 3 on: RESETTING, and on to the end when nothing is in flight (R254). -/
def Dev.enterReset (d : Dev) (lv : Nat) (squash : Bool) : Dev :=
  let d := (d.setVitState lv 3).count (vitCtr lv 28) 1
  let d := d.setVit lv fun v => { v with since := d.now, intx := [] }
  let d := d.breakLocksOf (d.gvh lv) fun _ => true
  let d := if squash then d.squashAndDrain lv
    else
      let d := (d.squashUp lv).drainDown lv
      d.forEach (d.vit lv).bindings fun d b => d.refuseBinding lv b true
  let d := d.dropHeld (fun h => h.frame.gvh == d.gvh lv) false
  if d.inflight lv = 0 then d.finishReset lv else d

/-- A hot reset trigger reaches a Vitrine (R249, R121, R271): one that containment absorbs still clears the wires with the link (R128). -/
def Dev.hotReset (d : Dev) (lv : Nat) : Dev :=
  let st := d.get VIT_STATE.STATE lv
  if d.contained 1 lv then d.setVit lv fun v => { v with intx := [] }
  else if st = 2 then d.enterReset lv true
  else if st = 4 ∨ st = 5 ∨ st = 6 then d.put VIT_STATE.HELD_RESET lv 1
  else d

/-! ### Bindings -/

/-- The endpoint that a port and an LD-ID field name (R250, R376; log entry 10). -/
def Dev.findEndpoint (d : Dev) (p ld : Nat) : Option Nat :=
  (d.endpointsOf p).find? fun e =>
    if p = 447 then e == ld
    else if ld = 0xFF then (d.endpoint p e).ldId.isNone
    else (d.endpoint p e).ldId == some ld

/-- Tracker entries are reserved, or returned, on this module (R246, R247). -/
def Dev.reserve (d : Dev) (n : Nat) : Dev :=
  (d.put TRK_FREE.UNALLOCATED 0 (d.get TRK_FREE.UNALLOCATED 0 - n)).put TRK_CPL_RSV.RESERVED 0
    (d.get TRK_CPL_RSV.RESERVED 0 + n)
def Dev.unreserve (d : Dev) (n : Nat) : Dev :=
  (d.put TRK_FREE.UNALLOCATED 0 (d.get TRK_FREE.UNALLOCATED 0 + n)).put TRK_CPL_RSV.RESERVED 0
    (d.get TRK_CPL_RSV.RESERVED 0 - n)

/-- Entries a binding reserves on its upstream module: the share once, and once more for the host's requests where the endpoint
is on the same module (R247). -/
def Dev.shareNeed (d : Dev) (fpid share : Nat) : Nat := if fpidModule fpid = d.moduleId then 2 * share else share

/-- The lowest free queue slot of a port, 0 to 30 (R177). -/
def Dev.freeSlot (d : Dev) (p : Nat) : Option Nat :=
  (List.range 31).find? fun s => !d.slots.any fun x => x.1 == p && x.2.2 == s

/-- A handle's slot on a port, taken where it has none. -/
def Dev.takeSlot (d : Dev) (p gvh : Nat) : Option Dev :=
  if internalPort p || d.slots.any (fun s => s.1 == p && s.2.1 == gvh) then some d
  else (d.freeSlot p).map fun s => { d with slots := d.slots ++ [(p, gvh, s)] }

/-- A handle's slot on a port is freed; its queues are empty and open. -/
def Dev.dropSlot (d : Dev) (p gvh : Nat) : Dev :=
  let qs := d.queuesOf gvh (· == p)
  let d := d.forEach qs fun d q => d.squashOnce q
  { d with slots := d.slots.filter fun s => !(s.1 == p && s.2.1 == gvh) }

/-- Translation entries are written for the BARs of a binding, VALID clear (R250, R215). -/
def Dev.takeAtts (d : Dev) (lv fpid : Nat) (bars : List (Nat × Nat)) : List Nat × Dev :=
  match bars with
  | [] => ([], d)
  | (size, base) :: r =>
    let n := firstFree d.atts 0
    let d := d.setAtt n { valid := false, sizeLog2 := size, lvid := lv, fpid := fpid, host := 0, ep := base }
    let (ns, d) := d.takeAtts lv fpid r
    (n :: ns, d)

/-- Other bindings of the Vitrine use a port. -/
def Vit.usesPort (v : Vit) (k fpid : Nat) : Bool := v.bindings.any fun b => b.k != k && b.fpid == fpid

/-- What a binding holds is freed (R251, step 6). -/
def Dev.freeBinding (d : Dev) (lv : Nat) (b : Binding) : Dev :=
  let gvh := d.gvh lv
  let here := fpidModule b.fpid == d.moduleId
  let d := d.forEach b.atts fun d n => d.setAtt n {}
  let d := d.unreserve (d.shareNeed b.fpid b.share)
  let d := d.when (!(d.vit lv).usesPort b.k b.fpid) fun d =>
    ((d.when here (·.dropSlot (fpidPort b.fpid) gvh)).closeWindow (d.upFpid lv) b.fpid).closeWindow b.fpid (d.upFpid lv)
  let d := if here then d.setEndpoint (fpidPort b.fpid) b.ep fun e => { e with bound := none }
    else d.tell (fpidModule b.fpid) (.unbind gvh b.fpid)
  let d := d.setVit lv fun v => { v with bindings := v.bindings.filter fun x => x.k != b.k }
  (d.setVport lv b.k fun v => { v with dllActive := false }).endWaiting (.unbind lv b.k) Status.ok

/-- In-flight count of one binding (R251): its entries, and frames between its port and the upstream port. -/
def Dev.bindingInflight (d : Dev) (lv : Nat) (b : Binding) : Nat :=
  let gvh := d.gvh lv
  let own (f : Frame) : Bool := f.gvh == gvh && (f.src == b.fpid || f.dst == b.fpid)
  (d.entries fun e => e.gvh == gvh && e.k == b.k).length +
    d.queues.foldl (fun n e => n + ((e.2.frames ++ e.2.side).filter fun f => own f.frame).length) 0 +
    (d.arrived.filter fun e => own e.2).length + (d.routed.filter fun e => own e.2.2).length +
    (d.egress.filter fun e => own e.2).length

/-- The end of an unbind (R251, steps 3 to 6): what remains is squashed, the endpoint reset and its resources freed. -/
def Dev.finishUnbind (d : Dev) (lv : Nat) (b : Binding) : Dev :=
  let gvh := d.gvh lv
  let d := d.refuseEntries fun e => e.gvh == gvh && e.k == b.k
  let d := d.clearEndpointIntx lv b.k
  let d := if fpidModule b.fpid = d.moduleId then d.breakLocksOf gvh (· == fpidPort b.fpid) else d
  (d.resetBinding b).freeBinding lv b

/-- An unbind begins (R251, steps 1 and 2), and ends at once when nothing of the binding is in flight. -/
def Dev.startUnbind (d : Dev) (lv : Nat) (b : Binding) : Dev :=
  let d := (d.setBinding lv b.k fun b => { b with unbinding := true, presented := false }).slotUnbound lv b.k
  let d := d.refuseBinding lv b true
  let d := d.setVit lv fun v => { v with since := d.now }
  let p := fpidPort b.fpid
  let d := if fpidModule b.fpid = d.moduleId ∧ ¬(d.linkUp p ∧ ¬d.contained 0 (d.contPort p b.ep)) then
      if internalPort p then d.squashInternal p (d.gvh lv)
      else d.forEach (d.queuesOf (d.gvh lv) (· == p)) fun d q =>
        d.dropFrames q (fun f => f.frame.dst != b.fpid) (countSquashed q)
    else d
  if d.bindingInflight lv b = 0 then d.finishUnbind lv b else d

/-! ### Resources -/

/-- The Basin minimum of a Vitrine is added to, or taken from, the MIN of its four class queues and the reserved space
(R176, R178). -/
def Dev.addMinimum (d : Dev) (p gvh cells : Nat) : Dev :=
  let d := d.setReserved (d.get BSN_RESERVED.TOTAL 0 + cells / 4 * 4)
  d.forEach (d.queuesOf gvh (· == p)) fun d q => d.put BSN_Q_CFG.MIN q (d.get BSN_Q_CFG.MIN q + cells / 4)
def Dev.dropMinimum (d : Dev) (p gvh cells : Nat) : Dev :=
  let d := d.setReserved (d.get BSN_RESERVED.TOTAL 0 - cells / 4 * 4)
  d.forEach (d.queuesOf gvh (· == p)) fun d q => d.put BSN_Q_CFG.MIN q (d.get BSN_Q_CFG.MIN q - cells / 4)

/-- Shaper slots that no Vitrine holds, the lowest n. -/
def Dev.freeShapers (d : Dev) (n : Nat) : List Nat :=
  let taken := d.vits.flatMap fun e => e.2.shapers
  ((List.range (taken.length + n)).filter fun s => !taken.contains s).take n

/-- Mailbox channels bound to a local ID's VMF (R248). -/
def Dev.channelsOf (d : Dev) (lv : Nat) : Nat :=
  ((List.range 256).filter fun c => d.isSender (vmfMaster lv) c || d.isReceiver (vmfMaster lv) c).length

/-- The counter bank of a local ID is set to zero, with its record (R440). -/
def Dev.zeroBank (d : Dev) (lv gvh : Nat) : Dev :=
  ({ d with ctrs := d.ctrs.filter fun e => !(decide (vitCtr lv 0 ≤ e.1) && decide (e.1 < vitCtr lv 64)) }).record 0x0881
    { gvh := gvh, object := lv, detail := leBytes 4 (vitCtr lv 0) }

/-- The resources of a Vitrine return to their pools, and its local ID is FREE (R245, R249, R255, R263). -/
def Dev.releaseVitrine (d : Dev) (lv : Nat) : Dev :=
  let gvh := d.gvh lv
  let p := d.get VIT_PORT.UPORT lv
  let v := d.vit lv
  let d := d.forEach v.bindings fun d b => d.freeBinding lv b
  let d := (d.dropMinimum p gvh v.basinMin).dropSlot p gvh
  let d := d.put TRK_FREE.UNALLOCATED 0 (d.get TRK_FREE.UNALLOCATED 0 + d.get TRK_VIT_QUOTA.QUOTA lv)
  let d := (d.loseReads lv).abortMaster (vmfMaster lv) 3
  let d := d.forEach (List.range 67) fun d f => d.resetCfg lv f
  let d := { d with
    vports := d.vports.filter fun e => e.1 / 64 != lv
    vits := SMap.erase d.vits lv
    vmfs := SMap.erase d.vmfs lv
    cats := SMap.erase d.cats (lv + 1)
    spcs := SMap.erase d.spcs (lv + 1)
    samples := d.samples.filter fun (x : Sample) => x.stream != lv + 1
    owesDetect := d.owesDetect.filter (· ≠ p) ++ [p]
    homes := d.homes.filter fun e => e.1 != gvh }
  let d := d.resetRegs ([.VIT_STATE, .VIT_PORT, .VIT_EVENTS, .TRK_VIT_QUOTA, .VMF_ID, .VMF_VERSION, .VMF_GVH] ++ vmfRegs) lv
  d.resetRegs [.SLC_CONT_STATE] (contObj 1 lv)

end Sys2Proof.Machine
end

