-- ==== Sys2Proof/Machine/Link.lean ====
section
/-! DEFINITION. The fabric link layer: flits, replay, link control, width and speed changes, re-equalisation pauses (R56, R61 to
R63, R65 to R99), and the end of a port's capability exchange (R49, R93, R106, R109, R114). -/

namespace Sys2Proof.Machine

/-! ### Link state -/

/-- A link enters a state; RATE reads 0 unless it is ACTIVE or PAUSED (R99). -/
def Dev.setLinkState (d : Dev) (p st : Nat) : Dev :=
  (d.put FLL_LINK_STATUS.STATE p st).put FLL_LINK_STATUS.RATE p (if st = 2 ∨ st = 3 then (d.link p).rate else 0)

/-- A record's cause on a port. -/
def Dev.portEv (d : Dev) (p : Nat) : Ev := { die := dieOf p, port := d.fpid p }

/-- The widest width code up to a limit whose lanes all satisfy `ok`, with those lanes: the lowest of the port, or with lane
reversal the highest (R65). -/
def pickWidth (lanes : List Nat) (reversal : Bool) (ok : Nat → Bool) (limit : Nat) : Option (Nat × List Nat) :=
  ((List.range (limit + 1)).reverse).findSome? fun w =>
    let n := widthLanes w
    if n ≤ lanes.length ∧ (lanes.take n).all ok then some (w, lanes.take n)
    else if reversal ∧ n ≤ lanes.length ∧ (lanes.drop (lanes.length - n)).all ok then some (w, lanes.drop (lanes.length - n))
    else none

/-- The lanes of a mask of a port (R92). -/
def lanesOfMask (p mask : Nat) : List Nat := ((List.range 16).filter fun i => bitOf mask i).map (p + ·)

/-! ### Acknowledgement and replay -/

/-- A NAK of the current E, unless one was sent for it within the last FLL_RTT (R68, R76): reason 1 CRC, 2 FEC, 3 gap. -/
def Dev.sendNak (d : Dev) (p reason : Nat) : Dev :=
  let e := d.expected p
  let held := match (d.link p).nak with
    | some (e', t) => e' == e && decide (sinceTicks t d.now < nsTicks (d.get FLL_RTT.RTT p))
    | none => false
  if held then d
  else
    ((d.setLink p fun l => { l with nak := some (e, d.now) }).emitFlit p 2 (d.get FLL_SEQ.NEXT_TX p)
      (beBytes 2 e ++ beBytes 1 reason) 0).count (portCtr p 19) 1

/-- An ACK frees what it covers, and what waited for room goes (R83); one that covers a number not yet sent is ignored (R77). -/
def Dev.applyAck (d : Dev) (p a : Nat) : Dev :=
  if (a + 16384 - d.get FLL_SEQ.NEXT_TX p) % 16384 < 8192 then
    (d.count (portCtr p 26) 1).raise FLL_EVENTS.BAD_ACK p (d.portEv p)
  else
    let l := d.link p
    let rest := l.unacked.filter fun s => decide (8192 ≤ (a + 16384 - s.seq) % 16384)
    if rest.length = l.unacked.length then d
    else
      (((d.setLink p fun l => { l with unacked := rest, stalled := false }).put FLL_REPLAY.CONSEC_TIMEOUTS p 0).showOutstanding p).pump p
        false

/-- Every unacknowledged flit from a number on is sent again, with REPLAYED set and the current ACK (R78); a link that sends no DATA, as it
is not ACTIVE, replays on its RESUME (R95, R97, R98; log entry 102). -/
def Dev.replayFrom (d : Dev) (p e : Nat) : Dev :=
  let again := (d.link p).unacked.filter fun s => decide ((s.seq + 16384 - e) % 16384 < 8192)
  if again = [] ∨ d.linkState p ≠ 2 then d
  else ((d.forEach again fun d f => d.sendData p true f).count (portCtr p 21) 1).count (portCtr p 22) again.length

/-- A NAK acknowledges EXPECTED − 1 and replays from EXPECTED, unless that is the next number to be sent (R77). -/
def Dev.applyNak (d : Dev) (p e : Nat) : Dev :=
  let d := (d.count (portCtr p 20) 1).applyAck p ((e + 16383) % 16384)
  if e = d.get FLL_SEQ.NEXT_TX p then d else d.replayFrom p e

/-- NAK_RECEIVED (R77, R78). -/
def execNakReceived (port : Fin 512) (expected : Fin 16384) (s : State) : Host.Outcome State Fault Refusal :=
  onDev s fun d => d.when (d.fabricPort port) (·.applyNak port expected)

/-- The link is out of service: its replay buffer and what it was sending and receiving are discarded, and it is withdrawn (R79, R214). -/
def Dev.linkDown (d : Dev) (p st : Nat) : Dev :=
  let d := d.setLink p fun l =>
    { l with unacked := [], stream := [], rx := [], stalled := false, requests := [], newWidth := none, newRate := none,
             widening := none, ownPause := false, peerE := none, params := none, lanes := [], admitSent := false }
  (({ d with pausedLinks := d.pausedLinks.filter (· ≠ p) }.showOutstanding p).withdrawLink p).setLinkState p st

/-- The link is lost: withdrawn, and retrained from DETECT (R79) on the lanes that are not RETIRED. -/
def Dev.linkLost (d : Dev) (p : Nat) : Dev :=
  let lanes := (d.link p).lanes.filter fun n => d.laneState n != 9
  let d := d.raise FLL_EVENTS.LINK_LOST p (d.portEv p)
  let d := (d.setLink p fun l => { l with losses := l.losses ++ [d.now] }).linkDown p 6
  d.forEach lanes fun d n => d.laneDetect n

/-- REPLAY_TIMER_EXPIRY: a replay from the oldest flit; the eighth in a row loses the link (R79). Only an ACTIVE link's timer acts (DESIGN
CHOICE, log entry 102). -/
def execReplayTimerExpiry (port : Fin 512) (s : State) : Host.Outcome State Fault Refusal :=
  onDev s fun d =>
    let p := port.val
    match (d.link p).unacked with
    | [] => d
    | f :: _ =>
      if d.linkState p ≠ 2 then d
      else
        let n := d.get FLL_REPLAY.CONSEC_TIMEOUTS p + 1
        let d := (d.replayFrom p f.seq).put FLL_REPLAY.CONSEC_TIMEOUTS p (min n 15)
        if n = 8 then d.linkLost p else d

/-! ### Flits received -/

/-- An injected burst of n byte errors in a flit, from the first byte of a lane on (R67, R281). -/
def corruptBytes (bs : List Byte) (first n : Nat) : List Byte :=
  bs.zipIdx.map fun e => if first ≤ e.2 ∧ e.2 < first + n then e.1 ^^^ 0xFF else e.1

/-- Corrected symbols are counted, and masked by lane (R441, R529): byte i of a flit travels on lane i mod w (R67). -/
def Dev.fecCorrected (d : Dev) (p : Nat) (before after : List Byte) (n : Nat) : Dev :=
  let lanes := (d.link p).lanes
  let bad := ((List.range 256).filter fun i => before.getD i 0 != after.getD i 0)
  d.when (n != 0) fun d =>
    (d.count (portCtr p 16) n).forEach bad fun d i => d.mask 0x03 (d.fpid p) (lanes.getD (i % lanes.length) p) 1 0

/-- The granules of an accepted DATA flit join the byte stream of frames (R69): all of them behind an unfinished frame, else those from the
first start on; the frames they end go into the Basin. -/
def Dev.takeData (d : Dev) (p : Nat) (bs : List Byte) (bodies : List Body) : Dev :=
  let x := ofBeBytes ((bs.drop 228).take 8)
  let granules := ((bs.drop 4).take 224).take (bitsOf x 59 56 * 16)
  let rx := (d.link p).rx
  let start := bitsOf x 63 60
  let fresh := if rx ≠ [] then granules else if start = 15 then [] else granules.drop (start * 16)
  let r := framesIn 32 (rx ++ fresh) bodies
  let d := d.setLink p fun l => { l with rx := r.2 }
  d.forEach r.1 fun d f => ((d.count (portCtr p 0) (f.len * 16)).count (portCtr p 2) 1).arrive p f

/-- A DATA flit's payload by its distance d from E (R75): taken, a gap, or a duplicate. -/
def Dev.acceptData (d : Dev) (p seq : Nat) (bs : List Byte) (bodies : List Body) : Dev :=
  let e := d.expected p
  let gap := (seq + 16384 - e) % 16384
  if gap = 0 then (d.put FLL_SEQ.EXPECTED p ((e + 1) % 16384)).takeData p bs bodies
  else if gap < 8192 then (d.count (portCtr p 25) 1).sendNak p 3
  else d.count (portCtr p 24) 1

/-- A flit that passed FEC and CRC (R75): its link header is bytes 0 to 3, TYPE, SEQ and ACK (R67). A paused link still accepts DATA, and one
in CAPX or a change does not, its RESUME asking for what it missed; a reserved type counts as "any other type" for a gap
(DESIGN CHOICE, log entry 103). -/
def Dev.takeFlit (d : Dev) (p : Nat) (bs : List Byte) (bodies : List Body) : Dev :=
  let h := ofBeBytes (bs.take 4)
  let type := bitsOf h 31 28
  let seq := bitsOf h 27 14
  let serving := d.linkState p == 2 || d.linkState p == 3
  let d := d.applyAck p (bitsOf h 13 0)
  if type = 1 then (if serving then d.acceptData p seq bs bodies else d)
  else
    let gap := (seq + 16384 - d.expected p) % 16384
    let d := d.when (decide (1 ≤ gap) && decide (gap < 8192) && serving) fun d => (d.count (portCtr p 25) 1).sendNak p 3
    if type = 2 then d.applyNak p (bitsOf (ofBeBytes ((bs.drop 4).take 2)) 13 0)
    else if 4 ≤ type then d.raise FLL_EVENTS.BAD_TYPE p (d.portEv p)
    else d

/-- FLIT_RECEIVED: FEC, then CRC, then the flit's fields; a flit that fails either has no effect but a NAK (R74, R75). What a
LINK_CTL flit carries comes by its own commands. -/
def execFlitReceived (port : Fin 512) (bytes : List Byte) (bodies : List Body) (s : State) :
    Host.Outcome State Fault Refusal :=
  onDev s fun d =>
    let p := port.val
    let st := d.linkState p
    if !d.fabricPort p || st == 0 || st == 6 then d
    else if d.armedFor 1 (d.fpid p) then
      ({ (({ d with injecting := true }.count (portCtr p 17) 1).sendNak p 2) with injecting := d.injecting }).consume 1
    else
      let lane := (d.link p).lanes.zipIdx.find? fun e => d.armedFor 0 e.1
      let burst := ((d.injections.find? fun i => i.point == 0).map (·.argument)).getD 0
      let bytes := match lane with
        | some e => corruptBytes bytes e.2 burst
        | none => bytes
      let d := if lane.isSome then d.consume 0 else d
      match fecDecode bytes with
      | none => (d.count (portCtr p 17) 1).sendNak p 2
      | some (bs, n) =>
        let d := d.fecCorrected p bytes bs n
        if flitCrcOk bs then d.takeFlit p bs bodies
        else (d.count (portCtr p 18) 1).sendNak p 1

/-- ALIGNMENT_MARKER: each lane sends its marker, and the partner's markers give the skews (R71). -/
def execAlignmentMarker (port : Fin 512) (skews : List Int) (s : State) : Host.Outcome State Fault Refusal :=
  onDev s fun d =>
    let p := port.val
    d.when (d.fabricPort p) fun d =>
      d.forEach ((d.link p).lanes.zip skews) fun d e => (d.put LNA_ALIGN.SKEW e.1 (ofSigned 11 e.2)).emit (.marker p e.1)

/-- This end asks for an echo, to be repeated until it is answered (R92, R94). -/
def Dev.sendEcho (d : Dev) (p : Nat) : Dev :=
  let tag := (d.link p).echoTag
  (d.setLink p fun l => { l with echo := some (tag, d.now), echoTag := (tag + 1) % 256 }).request p 0x02 [tag]

/-- ECHO_REQ: this end sends one, or answers the partner's (R92, R94). -/
def execEchoReq (port : Fin 512) (asked : Option (Nat × Nat)) (s : State) : Host.Outcome State Fault Refusal :=
  onDev s fun d =>
    let p := port.val
    if !d.fabricPort p then d
    else
      match asked with
      | some (tag, turnaround) => d.sendCtl p 0x03 [tag, turnaround]
      | none => d.sendEcho p

/-- ECHO_RSP: FLL_RTT is the time from the last sending of the request to the answer, less the responder's turnaround (R94). -/
def execEchoRsp (port : Fin 512) (tag turnaround : Nat) (s : State) : Host.Outcome State Fault Refusal :=
  onDev s fun d =>
    let p := port.val
    match (d.link p).echo with
    | some (t, sent) =>
      if t = tag then
        ((d.answered p 0x02).setLink p fun l => { l with echo := none }).put FLL_RTT.RTT p
          (min 65535 (sinceTicks sent d.now / 16 - turnaround))
      else d
    | none => d

/-! ### Capability exchange -/

/-- An attempt of every lane of a port in bring-up fails (R93, R56). -/
def Dev.failPort (d : Dev) (p : Nat) : Dev := d.forEach (d.lanesOf p) fun d n => d.failAttempt n

/-- The PARAMS of a link in CAPX (R93, R66): the widest width both configure, the highest rate both support, sequence numbers
at 0. -/
def Dev.takeParams (d : Dev) (p : Nat) (x : Params) : Dev :=
  let ok (n : Nat) : Bool := d.laneState n == 5
  let width := pickWidth (d.lanesOf p) (d.is PRT_PORT_CFG.REVERSAL_OK p) ok (min (d.get PRT_PORT_CFG.WIDTH p) x.width)
  match width, (d.fabricRates p).find? fun r => x.rates.contains r with
  | some (w, lanes), some rate =>
    if x.version ≠ 1 then d.failPort p
    else
      let d := d.setLink p fun l =>
        { l with params := some x, partnerAdmitted := x.admitted, lanes := lanes, rate := rate, unacked := [], nak := none,
                 stream := [], rx := [], requests := [], newWidth := none, newRate := none, widening := none, ownPause := false,
                 peerE := none }
      let d := ((d.put FLL_SEQ.NEXT_TX p 0).put FLL_SEQ.EXPECTED p 0).showOutstanding p
      ((d.put FLL_PARTNER.FPID p x.fpid).put FLL_LINK_STATUS.WIDTH p w).setLinkState p 1
  | _, _ => d.failPort p

/-- PARAMS (R92, R93): this end sends its own where they are not on their way already; on a link in service, after the partner's admission,
they update its FPID (R480). -/
def execParams (port : Fin 512) (partner : Params) (s : State) : Host.Outcome State Fault Refusal :=
  onDev s fun d =>
    let p := port.val
    if !d.fabricPort p then d
    else if d.linkState p = 2 ∨ d.linkState p = 3 then
      (d.put FLL_PARTNER.FPID p partner.fpid).setLink p fun l =>
        { l with params := some partner, partnerAdmitted := partner.admitted }
    else if (d.lanesOf p).any fun n => d.laneState n == 5 then
      (d.when (d.asked p 0x01).isNone (·.sendCtl p 0x01 (d.ownParams s.nv p))).takeParams p partner
    else d

/-- HELLO on a link: PRIO, LAST_ID, SERIAL and GEN (R480, R481). -/
def Dev.sendHello (nv : NonVolatile) (d : Dev) (p : Nat) : Dev :=
  d.mgmt p (d.get FLL_PARTNER.FPID p)
    (.hello [d.get CUR_START_CFG.PRIO 0, nv.moduleId.getD 0xFFFF, nv.serial, nv.storeGen])

/-- A lane becomes ACTIVE: ATTEMPTS 0, and on a rear lane the die temperature (R49). -/
def Dev.laneActive (d : Dev) (n rate temp : Nat) : Dev :=
  let d := (d.enterLane n 6 rate).put LNA_LANE_STATE.ATTEMPTS n 0
  d.when (rearLane n) (·.put LNA_TRAIN_REF.TEMP n temp)

/-- A lane of a fabric link goes to ACTIVE at the link's rate, a rear lane on its entry for it (R48, R49); what it is equalised at is counted
anew from this CAPX (R97). -/
def Dev.fabricLaneActive (d : Dev) (n rate temp : Nat) : Dev :=
  ((d.loadEntry n rate).laneActive n rate temp).setLane n fun l => { l with eqSince := [] }

/-- A fabric link's exchange is complete: ACTIVE, its windows re-synchronised, HELLO and ECHO_REQ sent (R90, R93, R94, R481);
the Registrar hears of it (R214). -/
def Dev.linkActive (nv : NonVolatile) (d : Dev) (p temp : Nat) : Dev :=
  match (d.link p).params with
  | none => d
  | some x =>
    let l := d.link p
    if d.linkState p ≠ 1 ∨ !l.lanes.all fun n => d.laneState n == 5 then d
    else
      let d := d.forEach l.lanes fun d n => d.fabricLaneActive n l.rate temp
      let d := ((d.put FLL_REPLAY.CONSEC_TIMEOUTS p 0).setLinkState p 2).recomputeGuard p
      (((d.sendEcho p).sendHello nv p).tellRegistrar (.linkTrained p x.fpid)).resyncPort p

/-- PERST_N of a device-facing cage is released: its ports await DRS (R119, R122). -/
def Dev.releasePerst (d : Dev) (c : Nat) : Dev :=
  (d.forEach (d.portsInCage c) fun d p =>
    (d.forEach (d.endpointsOf p) fun d e => d.setEndpoint p e fun x => { x with awaitDrs := true }).setPortX p fun x =>
      { x with awaitDrs := true }).setPerst c false

/-- PERST_N of a cage may be released now: its e-fuse is on and 100 ms have passed since power-good (R119); of a rear group the row for
its release says when (R521). -/
def Dev.perstDue (d : Dev) (c : Nat) : Bool :=
  decide (c < 56) && d.is EF_STATUS.PG c && decide (msTicks 100 ≤ sinceTicks (SMap.get {} d.efuses c).pgAt d.now)

/-- The slot power limit of the cage of a device-facing port goes to its endpoint (R155). -/
def Dev.sendSpl (d : Dev) (p : Nat) : Dev :=
  let x := d.splShown p
  d.emit (.setSlotPowerLimit p x.1 x.2)

/-- LTR_L1.2_THRESHOLD of a device-facing port is programmed to 120 µs + LTR_BUDGET, in ns (R139). -/
def Dev.sendL12Threshold (d : Dev) (p : Nat) : Dev :=
  d.emit (.signal "LTR_L1.2_THRESHOLD" [p, 120000 + d.get PRT_PM_CFG.LTR_BUDGET p])

/-- The lanes a port runs on lie at its top: it runs reversed (R65). -/
def Dev.onTopLanes (d : Dev) (p : Nat) (lanes : List Nat) : Bool := lanes.head? != (d.lanesOf p).head?

/-- The rate of a PCIe or CXL link up to a limit: the highest that the rear-lane table holds for its lanes (R46). -/
def Dev.heldRate (d : Dev) (lanes : List Nat) (limit : Nat) : Nat :=
  (((List.range (limit + 1)).reverse).find? fun r => decide (1 ≤ r) && d.rateHeld lanes r).getD 1

/-- A PCIe or CXL port's exchange is complete (R46, R106, R109, R114): width, rate and modes; a device-facing port is DL_Active and
tells its slot power limit (R155). -/
def Dev.portActiveCapx (d : Dev) (p : Nat) (c : Capx) : Dev :=
  let ok (n : Nat) : Bool := d.laneState n == 5
  let cxlPort := d.get PRT_PORT_CFG.KIND p == 3
  let cap := min (d.get PRT_PORT_CFG.RATE_MAX p) (min (if cxlPort then 6 else 7) (if c.flit then 7 else 5))
  match pickWidth (d.lanesOf p) (d.is PRT_PORT_CFG.REVERSAL_OK p) ok (min (d.get PRT_PORT_CFG.WIDTH p) c.width) with
  | none => d
  | some (w, lanes) =>
    let rate := d.heldRate lanes (min c.rate cap)
    let rest := (d.lanesOf p).filter fun n => d.laneState n == 5 && !lanes.contains n
    let d := d.forEach lanes fun d n => (d.loadEntry n rate).laneActive n rate c.temp
    let d := d.forEach rest fun d n => d.laneDetect n
    let d := (d.put PRT_PORT_STATUS.WIDTH p w).put PRT_PORT_STATUS.RATE p rate
    let d := ((d.mark PRT_PORT_STATUS.FLIT p c.flit).mark PRT_PORT_STATUS.CXL p (cxlPort && c.cxl)).mark
      PRT_PORT_STATUS.REVERSED p ((c.reversed && d.is PRT_PORT_CFG.REVERSAL_OK p) || d.onTopLanes p lanes)
    let d := (d.put PRT_PORT_STATUS.LINK_PM p 0).put PRT_PORT_STATUS.LTSSM p 3
    let d := d.when (!c.flit) (·.raise PRT_EVENTS.FLIT_REFUSED p (d.portEv p))
    let d := d.when (cxlPort && !c.cxl) (·.raise PRT_EVENTS.CXL_NOT_NEGOTIATED p (d.portEv p))
    let d := d.when (d.deviceFacing p) fun d => ((d.put PRT_PORT_STATUS.DL_ACTIVE p 1).sendSpl p).sendL12Threshold p
    ((d.recomputeGuard p).resyncPort p).takeEdge p

/-- CAPX_EXCHANGE_COMPLETE: the link parameters are fixed and the port's lanes are ACTIVE (R49, R93). -/
def execCapxExchangeComplete (port : Fin 512) (found : Capx) (s : State) : Host.Outcome State Fault Refusal :=
  onDev s fun d =>
    let p := port.val
    if !d.configured p then d
    else if d.fabricPort p then d.linkActive s.nv p found.temp
    else (d.portActiveCapx p found).applyPending p

/-- A request that is repeated starts anew the time an echo takes (R92, R94). -/
def Dev.repeatRequest (d : Dev) (p : Nat) (r : CtlReq) : Dev :=
  let d := d.setLink p fun l =>
    { l with requests := l.requests.map fun x => if x.subtype == r.subtype then { x with attempts := x.attempts + 1 } else x
             echo := if r.subtype = 0x02 then l.echo.map fun e => (e.1, d.now) else l.echo }
  (d.sendCtl p r.subtype r.fields).count (portCtr p 27) 1

/-- A request is given up: an echo leaves FLL_RTT unchanged, a pause is another link's to ask for (R62, R92, R94). -/
def Dev.giveUp (d : Dev) (p : Nat) (r : CtlReq) : Dev :=
  let d := d.answered p r.subtype
  if r.subtype = 0x02 then d.setLink p fun l => { l with echo := none }
  else if r.subtype = 0x14 then { d with pausedLinks := d.pausedLinks.filter (· ≠ p) }
  else d

/-- LINK_CTL_RETRY_TIMER: the request of a subtype is repeated, and given up after its eighth attempt (R92). -/
def execLinkCtlRetryTimer (request : CtlAwaited) (s : State) : Host.Outcome State Fault Refusal :=
  onDev s fun d =>
    let p := request.port.val
    match d.asked p request.subtype with
    | none => d
    | some r => if 8 ≤ r.attempts then d.giveUp p r else d.repeatRequest p r

/-! ### Width changes -/

/-- Lanes a link may run on: enabled, not lost and not retired. -/
def Dev.laneUsable (d : Dev) (n : Nat) : Bool :=
  d.is LNA_LANE_CFG.ENABLE n && !(d.lane n).held && (d.laneState n == 6 || d.laneState n == 7)

/-- A link in service narrows to the lanes still usable (R65, R95); with none left it is withdrawn (DEDUCED, log entry 13). -/
def Dev.narrowLink (d : Dev) (p : Nat) (lost : Bool) : Dev :=
  match pickWidth (d.lanesOf p) (d.is PRT_PORT_CFG.REVERSAL_OK p) d.laneUsable (d.get FLL_LINK_STATUS.WIDTH p) with
  | some (code, lanes) => d.askWidth p code lanes lost
  | none => d.linkDown p 0

/-- A link in service: ACTIVE, PAUSED or in a width change. -/
def Dev.linkServing (d : Dev) (p : Nat) : Bool := d.linkState p == 2 || d.linkState p == 3 || d.linkState p == 4

/-- FABRIC_LANE_LOST: a lane declared lost goes OFF, and its link narrows (R95). -/
def execFabricLaneLost (lane : Fin 512) (s : State) : Host.Outcome State Fault Refusal :=
  onDev s fun d =>
    let n := lane.val
    match d.portOfLane n with
    | some p =>
      if d.fabricPort p && d.linkServing p && (d.link p).lanes.contains n then
        ((d.laneOff n).setLane n fun l => { l with held := true }).narrowLink p true
      else d
    | none => d

/-- LANE_ENABLE_CLEARED: the lane goes OFF (R49), and a fabric link in service that used it narrows (R95). -/
def Dev.clearEnable (d : Dev) (n : Nat) : Dev :=
  let d := d.disableLane n
  match d.portOfLane n with
  | some p => d.when (d.fabricPort p && d.linkServing p && (d.link p).lanes.contains n) (·.narrowLink p false)
  | none => d

/-- LANE_ENABLE_CLEARED (R49). -/
def execLaneEnableCleared (master : Fin 2048) (lane : Fin 512) (s : State) : Host.Outcome State Fault Refusal :=
  onDev s fun d => d.curatorOnly master (0x801000000 + lane.val * 0x100) (·.clearEnable lane)

/-- Both ends stripe over the new lanes, send markers, and with the lanes deskewed RESUME with their E (R95); lanes dropped go
OFF, but for a RETIRED one, which stays so (R49). -/
def Dev.stripe (d : Dev) (p code : Nat) (lanes : List Nat) : Dev :=
  let dropped := (d.link p).lanes.filter fun n => !lanes.contains n && d.laneState n != 9
  let d := d.forEach dropped fun d n => (d.laneOff n).setLane n fun l => { l with held := true }
  let d := (d.answered p 0x10).setLink p fun l => { l with newWidth := some (code, lanes), lanes := lanes }
  (d.forEach lanes fun d n => d.emit (.marker p n)).sendCtl p 0x16 [d.expected p]

/-- WIDTH_REQ: the partner's request stops DATA, is acknowledged, and takes effect (R95). -/
def execWidthReq (port : Fin 512) (width : Fin 5) (mask : Fin 65536) (s : State) : Host.Outcome State Fault Refusal :=
  onDev s fun d =>
    let p := port.val
    let lanes := lanesOfMask p mask
    if !d.fabricPort p || !d.linkServing p || lanes.length != widthLanes width || !lanes.all (d.lanesOf p).contains then d
    else
      let narrow := decide (width.val < d.get FLL_LINK_STATUS.WIDTH p)
      let d := { d with pausedLinks := d.pausedLinks.filter (· ≠ p) }
      let d := (d.setLinkState p 4).setLink p fun l => { l with narrowing := narrow, widening := none, ownPause := false }
      (d.sendCtl p 0x11 [width, mask]).stripe p width lanes

/-- WIDTH_ACK: both ends stripe over the new lanes (R95). -/
def execWidthAck (port : Fin 512) (width : Fin 5) (mask : Fin 65536) (s : State) : Host.Outcome State Fault Refusal :=
  onDev s fun d =>
    let p := port.val
    match (d.link p).newWidth with
    | some (code, lanes) =>
      if (d.asked p 0x10).isSome ∧ code = width.val ∧ maskOfLanes p lanes = mask.val then d.stripe p code lanes else d
    | none => d

/-- A lane to be added to a link trains beside it from DETECT on, keeping what it has been equalised at (R51, R96). -/
def Dev.trainBeside (d : Dev) (n : Nat) : Dev :=
  let d := d.setLane n fun l => { l with held := false }
  d.when (d.laneState n == 0) (·.laneDetect n true)

/-- LINK_WIDTH_INCREASE: lanes added train beside the running link; the width change that switches them in follows once they are there
(R96). -/
def execLinkWidthIncrease (port : Fin 512) (width : Fin 5) (s : State) : Host.Outcome State Fault Refusal :=
  onDev s fun d =>
    let p := port.val
    let l := d.link p
    let ok (n : Nat) : Bool :=
      d.is LNA_LANE_CFG.ENABLE n && d.cagePowered n && decide (d.laneState n ≤ 7)
    let limit := min width.val (d.get PRT_PORT_CFG.WIDTH p)
    match pickWidth (d.lanesOf p) (d.is PRT_PORT_CFG.REVERSAL_OK p) ok limit with
    | none => d
    | some (code, lanes) =>
      if !d.fabricPort p || d.linkState p != 2 || decide (code ≤ d.get FLL_LINK_STATUS.WIDTH p) then d
      else
        let added := lanes.filter fun n => !l.lanes.contains n
        let d := d.setLink p fun l => { l with widening := some (code, lanes) }
        d.forEach added fun d n => d.trainBeside n

/-! ### Pauses -/

/-- Another fabric link of the port die is in a re-equalisation pause, or about to be (R62). -/
def Dev.diePausing (d : Dev) (p : Nat) : Bool := d.pausedLinks.any fun q => dieOf q == dieOf p && q != p

/-- Fabric links of a die that wait for a pause, smallest margin first (R62). -/
def Dev.pauseNext (d : Dev) (die : Nat) : Option Nat :=
  ((d.ports.filter fun e => dieOf e.1 == die && d.linkState e.1 == 2).foldl (fun (best : Option (Nat × Nat)) e =>
    match e.2.reeq, best with
    | none, b => b
    | some m, none => some (m, e.1)
    | some m, some b => if m < b.1 then some (m, e.1) else some b) none).map (·.2)

/-- The next waiting link of a die asks for its pause, when none is paused there (R62, R98). -/
def Dev.startPause (d : Dev) (die : Nat) : Dev :=
  match d.pauseNext die with
  | some p =>
    if d.diePausing p || d.pausedLinks.contains p then d
    else { d with pausedLinks := d.pausedLinks ++ [p] }.request p 0x14 [1]
  | none => d

/-- The link stops sending: PAUSED (R49, R98). -/
def Dev.pauseLink (d : Dev) (p : Nat) : Dev :=
  let d := d.forEach ((d.link p).lanes.filter fun n => d.laneState n == 6) fun d n =>
    d.enterLane n 7 (d.link p).rate
  (d.setLinkState p 3).count (portCtr p 30) 1

/-- PAUSE_REQ: answered, and the link pauses; the request waits while another link of the die is paused (R62, R98). One that is repeated
is answered again (R92). -/
def execPauseReq (port : Fin 512) (reason : Byte) (s : State) : Host.Outcome State Fault Refusal :=
  onDev s fun d =>
    let p := port.val
    if !d.fabricPort p || reason != 1 then d
    else if d.linkState p = 3 then d.sendCtl p 0x15 []
    else if d.linkState p = 2 ∧ !d.diePausing p then
      ({ d with pausedLinks := d.pausedLinks.filter (· ≠ p) ++ [p] }.sendCtl p 0x15 []).pauseLink p
    else d

/-- PAUSE_ACK: the pause this end asked for begins (R98). -/
def execPauseAck (port : Fin 512) (s : State) : Host.Outcome State Fault Refusal :=
  onDev s fun d =>
    let p := port.val
    if (d.asked p 0x14).isNone then d
    else
      let d := (d.answered p 0x14).setLink p fun l => { l with ownPause := true }
      d.when (d.linkState p == 2) (·.pauseLink p)

/-- A re-equalisation ends without reaching the floors (R61, R63, R471). -/
def Dev.noFloor (d : Dev) (n : Nat) : Dev :=
  (d.setLane n fun l => { l with noFloor := true }).raise LNA_EVENTS.REEQ_NO_FLOOR n (laneEv n)

/-- The neighbours of a partner's taps are asked of it in turn; the first whose points are open is kept, else the taps it had are asked for
again (R61). -/
def Dev.tryNeighbours (d : Dev) (n : Nat) (taps : Nat × Nat) (tries : List (TapStep × Bool)) : Bool × Dev :=
  match tries with
  | [] => (false, d.emit (.coefficients n taps.1 taps.2))
  | (s, open_) :: r =>
    match tapStep taps s with
    | none => d.tryNeighbours n taps r
    | some t =>
      let d := d.emit (.coefficients n t.1 t.2)
      if open_ then (true, d.setLane n fun l => { l with partner := t }) else d.tryNeighbours n taps r

/-- One lane of a pause: POST + 1, POST − 1, PRE + 1 and PRE − 1 in turn; REEQ_NO_FLOOR where none is kept (R61). -/
def Dev.reequalise (d : Dev) (n : Nat) (open_ : List Bool) (temp : Nat) : Dev :=
  let r := (d.put LNA_TRAIN_REF.TEMP n temp).tryNeighbours n (d.lane n).partner
    ([TapStep.postUp, .postDown, .preUp, .preDown].zip (open_ ++ List.replicate 4 false))
  if r.1 then r.2 else r.2.noFloor n

/-- Lanes of a link that its load scan left below the floor (R61). -/
def Dev.belowFloor (d : Dev) (p : Nat) : List Nat :=
  (d.link p).lanes.filter fun n => d.is LNA_MRG_RESULT.BELOW_FLOOR n && d.get LNA_MRG_RESULT.STATUS n == 2

/-! ### RESUME -/

/-- A lane of a link that resumes is ACTIVE again; one that comes from CAPX reaches ACTIVE anew, a rear lane at the die temperature last
evaluated (R48, R49). -/
def Dev.laneResumes (d : Dev) (n rate temp : Nat) : Dev :=
  let d := if d.laneState n = 6 ∨ d.laneState n = 7 then d.enterLane n 6 rate else d.laneActive n rate temp
  d.setLane n fun x => { x with oldTaps := none }

/-- The partner's RESUME ends a change or a pause: what it has received is acknowledged, and replay starts from its E (R95,
R97, R98); the windows of the link re-synchronise after a change (R90), a full scan confirms a re-equalisation and starts none (R61;
DEDUCED, log entry 114). -/
def Dev.resumeLink (d : Dev) (p e : Nat) : Dev :=
  let l := d.link p
  let st := d.linkState p
  let rate := if st = 5 then l.newRate.getD l.rate else l.rate
  let d := d.forEach l.lanes fun d n => d.laneResumes n rate (d.portX p).temp
  let d := d.setLink p fun l =>
    { l with rate := rate, newWidth := none, newRate := none, narrowing := false, requests := [], ownPause := false, peerE := none }
  let d := match l.newWidth with
    | some (code, _) => d.when (st == 4) (·.put FLL_LINK_STATUS.WIDTH p code)
    | none => d
  let d := (d.setLinkState p 2).applyAck p ((e + 16383) % 16384)
  let d := if e = d.get FLL_SEQ.NEXT_TX p then d else d.replayFrom p e
  let d := ({ d with pausedLinks := d.pausedLinks.filter (· ≠ p) }).pump p false
  if st = 3 then
    let confirm := (d.portX p).confirm
    let d := d.setPortX p fun x => { x with confirm := [] }
    let d := d.forEach confirm fun d n => d.beginScan n 3 false
    d.startPause (dieOf p)
  else
    let d := d.count (portCtr p (if st = 4 then 28 else 29)) 1
    let d := d.when l.narrowing (·.raise FLL_EVENTS.WIDTH_REDUCED p (d.portEv p))
    (d.recomputeGuard p).resyncPort p

/-- This end is ready to resume: it sends its RESUME, and where the partner's has come the link resumes (R97, R98). -/
def Dev.readyToResume (d : Dev) (p : Nat) : Dev :=
  let d := d.sendCtl p 0x16 [d.expected p]
  match (d.link p).peerE with
  | some e => d.resumeLink p e
  | none => d

/-- A RESUME that comes before this end is ready is kept (R97, R98). -/
def Dev.keepResume (d : Dev) (p e : Nat) : Dev := d.setLink p fun l => { l with peerE := some e }

/-- RESUME (R95, R97, R98): a width change once both ends stripe anew, a speed change once the lanes are in CAPX, a pause once its
re-equalisation is done; an end that did not ask for the pause answers with its own. -/
def execResume (port : Fin 512) (expected : Fin 16384) (s : State) : Host.Outcome State Fault Refusal :=
  onDev s fun d =>
    let p := port.val
    let st := d.linkState p
    if !d.fabricPort p then d
    else if st = 4 then d.when (d.asked p 0x10).isNone (·.resumeLink p expected)
    else if st = 5 then
      if (d.link p).lanes.all fun n => d.laneState n == 5 then d.resumeLink p expected else d.keepResume p expected
    else if st = 3 then
      if !(d.link p).ownPause then (d.sendCtl p 0x16 [d.expected p]).resumeLink p expected
      else if (d.portX p).reeq.isNone then d.resumeLink p expected
      else d.keepResume p expected
    else d

/-- FABRIC_LINK_REEQUALISATION: a link that waits asks for its pause (R62); in the pause each lane below its floor tries the
neighbours of its partner's taps, and the link resumes, a confirming scan after it (R61, R98). -/
def execFabricLinkReequalisation (port : Fin 512) (tries : List (Fin 512 × List Bool)) (temp : Byte) (s : State) :
    Host.Outcome State Fault Refusal :=
  onDev s fun d =>
    let p := port.val
    if d.linkState p = 3 ∧ (d.link p).ownPause then
      let found (n : Nat) : List Bool := ((tries.find? fun t => t.1.val == n).map (·.2)).getD []
      let d := d.forEach (d.belowFloor p) fun d n => d.reequalise n (found n) temp.toNat
      let d := (d.setPortX p fun x => { x with reeq := none, confirm := (d.link p).lanes }).count (portCtr p 94) 1
      d.readyToResume p
    else if (d.portX p).reeq.isSome then d.startPause (dieOf p)
    else d

/-! ### Speed changes -/

/-- The lanes of a link leave ACTIVE for PATTERN at a new rate, their taps at the old one kept (R97). -/
def Dev.beginSpeed (d : Dev) (p r : Nat) : Dev :=
  let d := (d.answered p 0x12).setLink p fun l => { l with newRate := some r, peerE := none, widening := none }
  d.forEach (d.link p).lanes fun d n =>
    (d.setLane n fun l =>
      { l with oldTaps := some (d.get LNA_TX_EQ.PRE n, d.get LNA_TX_EQ.POST n, d.get LNA_TX_EQ.SOURCE n) }).startPattern n r

/-- SPEED_REQ: the partner's is answered with SPEED_ACK, one that is repeated again; the SPEED_ACK to this end's own begins its change
(R92, R97). -/
def execSpeedReq (port : Fin 512) (frame : SpeedCtl) (s : State) : Host.Outcome State Fault Refusal :=
  onDev s fun d =>
    let p := port.val
    let r := frame.rate.val
    let ok := (d.fabricRates p).contains r && d.rateHeld (d.link p).lanes r
    if !d.fabricPort p then d
    else if d.linkState p = 5 then d.when (!frame.ack && (d.link p).newRate == some r) (·.sendCtl p 0x13 [r])
    else if d.linkState p ≠ 2 then d
    else if frame.ack then
      d.when ((d.asked p 0x12).map (·.fields) == some [r]) fun d => (d.setLinkState p 5).beginSpeed p r
    else d.when ok fun d => ((d.setLinkState p 5).sendCtl p 0x13 [r]).beginSpeed p r

/-- SPEED_CHANGE_TIMEOUT: lanes short of CAPX after 30 ms: the link returns to its old rate with its last taps there, and
resumes (R97). -/
def execSpeedChangeTimeout (port : Fin 512) (s : State) : Host.Outcome State Fault Refusal :=
  onDev s fun d =>
    let p := port.val
    let l := d.link p
    if d.linkState p ≠ 5 ∨ l.lanes.all fun n => d.laneState n == 5 then d
    else
      let d := d.forEach l.lanes fun d n =>
        let d := match (d.lane n).oldTaps with
          | some (pre, post, source) => d.setTaps n pre post source
          | none => d
        ((d.enterLane n 5 l.rate).loadEntry n l.rate).put LNA_ALIGN.LOCKED n 1
      let d := d.setLink p fun x => { x with newRate := some l.rate }
      (d.raise FLL_EVENTS.SPEED_FAILED p (d.portEv p)).readyToResume p

/-! ### Lanes that reach CAPX -/

/-- A lane of a fabric link has reached CAPX: before the link is up this end sends its PARAMS (R93); in a speed change, with all its lanes
there, its RESUME (R97); beside a running link that widens, with all added lanes there, the width change begins (R96). -/
def Dev.laneInCapx (nv : NonVolatile) (d : Dev) (n : Nat) : Dev :=
  match d.portOfLane n with
  | none => d
  | some p =>
    let l := d.link p
    let st := d.linkState p
    if !d.fabricPort p then d
    else if st = 0 ∨ st = 1 ∨ st = 6 then d.when (d.asked p 0x01).isNone (·.request p 0x01 (d.ownParams nv p))
    else if st = 5 then d.when (l.lanes.all fun n => d.laneState n == 5) (·.readyToResume p)
    else match l.widening with
      | some (code, lanes) =>
        d.when (st == 2 && (lanes.filter fun n => !l.lanes.contains n).all fun n => d.laneState n == 5) (·.askWidth p code lanes false)
      | none => d

/-- A lane counts as equalised at a rate: in a speed change since its link's last CAPX (R97), else since its last DETECT (R49). -/
def Dev.equalised (d : Dev) (n r : Nat) : Bool :=
  match d.portOfLane n with
  | some p => (if d.fabricPort p && d.linkState p == 5 then (d.lane n).eqSince else (d.lane n).eqRates).contains r
  | none => (d.lane n).eqRates.contains r

/-- Symbol lock is found: with MATCH at least 8 the lane is locked (R55) and goes to EQUALISE on a front lane at rate 3 or more not yet
equalised at, else to CAPX (R49). -/
def Dev.symbolLock (nv : NonVolatile) (d : Dev) (n matches_ : Nat) : Dev :=
  let r := d.get LNA_LANE_STATE.RATE n
  let d := (d.put LNA_ALIGN.LOCKED n 1).put LNA_ALIGN.MATCH n (min matches_ 255)
  if matches_ < 8 then d
  else
    let d := d.setLane n fun l => { l with search := none }
    let toState := if !rearLane n && decide (3 ≤ r) && !d.equalised n r then 4 else 5
    let d := (d.enterLane n toState r).put LNA_ALIGN.LOCKED n 1
    d.when (toState == 5) fun d => d.laneInCapx nv n

/-- SYMBOL_LOCK_ACQUIRED (R49). -/
def execSymbolLockAcquired (lane : Fin 512) (found : Fin 256) (s : State) : Host.Outcome State Fault Refusal :=
  onDev s fun d => d.when (d.laneState lane == 3) fun d => d.symbolLock s.nv lane found

/-- BITSLIP_SEARCH_STEP: one delay is applied, over any still being applied, and its window tested: LOCKED with MATCH at least 8 ends the
search; its record's DETAIL is the delay in 4 bytes, 0xFFFF_FFFF where none was found (R55, log entry 12). -/
def execBitslipSearchStep (lane : Fin 512) (locked : Bool) (found : Fin 256) (s : State) :
    Host.Outcome State Fault Refusal :=
  onDev s fun d =>
    let n := lane.val
    match (d.lane n).search with
    | none => d
    | some (start, step) =>
      if d.laneState n ≠ 3 then d
      else
        let delay := (start + step) % 256
        let d := ((d.put LNA_BITSLIP.DELAY n delay).put LNA_BITSLIP.APPLIED n 1).setLane n fun l => { l with delay := none }
        let d := (d.mark LNA_ALIGN.LOCKED n locked).put LNA_ALIGN.MATCH n found
        if locked && decide (8 ≤ found.val) then
          (d.record 0x0181 { laneEv n with detail := leBytes 4 delay }).symbolLock s.nv n found
        else if step = 255 then
          (d.setLane n fun l => { l with search := none }).record 0x0181 { laneEv n with detail := leBytes 4 0xFFFFFFFF }
        else d.setLane n fun l => { l with search := some (start, step + 1) }

/-- TAPS_AGREED: on a fabric link the search has run; the die temperature is recorded and the lane goes to CAPX (R49, R52). -/
def execTapsAgreed (lane : Fin 512) (report : TapsReport) (s : State) : Host.Outcome State Fault Refusal :=
  onDev s fun d =>
    let n := lane.val
    if d.laneState n ≠ 4 then d
    else
      let r := d.get LNA_LANE_STATE.RATE n
      let d := d.when (d.fabricLane n) (·.searchTaps n report.search)
      let d := (d.put LNA_TRAIN_REF.TEMP n report.temp.toNat).setLane n fun l =>
        { l with eqRates := l.eqRates.filter (· ≠ r) ++ [r], eqSince := l.eqSince.filter (· ≠ r) ++ [r] }
      ((d.enterLane n 5 r).put LNA_ALIGN.LOCKED n 1).laneInCapx s.nv n

/-! ### Deskew, retirement and re-equalisation windows -/

/-- The lanes whose skew lies more than 64 UI from at least half of the others (R56; DEDUCED, log entry 14). -/
def skewed (ls : List (Nat × Int)) : List Nat :=
  (ls.filter fun e =>
    let far := (ls.filter fun o => decide (64 < (o.2 - e.2).natAbs)).length
    decide (far ≠ 0) && decide (ls.length ≤ 2 * far + 1)).map (·.1)

/-- The lanes of a fabric port that its deskew concerns: the lanes of its link, or before PARAMS all of the port, from SYMLOCK to PAUSED. -/
def Dev.deskewLanes (d : Dev) (p : Nat) : List Nat :=
  (if (d.link p).lanes = [] then d.lanesOf p else (d.link p).lanes).filter fun n => decide (3 ≤ d.laneState n) && decide (d.laneState n ≤ 7)

/-- The largest of some skews. -/
def largestSkew (xs : List Int) : Int := xs.tail.foldl max (xs.headD 0)

/-- The least of some skews. -/
def leastSkew (xs : List Int) : Int := xs.tail.foldl min (xs.headD 0)

/-- DESKEW_FAIL: every lane returns to SYMLOCK with a compensating delay; a spread beyond 319 UI fails the attempt (R56). -/
def execDeskewFail (port : Fin 512) (skews : List Int) (s : State) : Host.Outcome State Fault Refusal :=
  onDev s fun d =>
    let p := port.val
    let ls := (d.deskewLanes p).zip skews
    let largest := largestSkew (ls.map (·.2))
    let spread := largest - leastSkew (ls.map (·.2))
    if !d.fabricPort p || decide (spread ≤ 64) then d
    else
      let d := d.forEach ls fun d x => d.put LNA_ALIGN.SKEW x.1 (ofSigned 11 x.2)
      let d := d.forEach (skewed ls) fun d n => d.raise LNA_EVENTS.DESKEW_FAIL n (laneEv n)
      let d := (d.forEach ls fun d x => d.enterLane x.1 3 (d.get LNA_LANE_STATE.RATE x.1)).setLinkState p 1
      if 319 < spread then d.failPort p
      else d.forEach ls fun d x => d.writeDelay 0 x.1 (min 255 (largest - x.2 - 32).toNat)

/-- A lane is retired; its port goes on without it: a fabric link in service by a width change, a PCIe or CXL port by
retraining at the widest width free of it (R49, R65). -/
def Dev.retireLane (d : Dev) (n : Nat) : Dev :=
  let st := d.laneState n
  if st = 0 ∨ st = 9 then d
  else
    let d := (d.enterLane n 9 0).emit (.laneIdle n)
    let d := (d.count (modCtr 1542 4) 1).raise HLT_EVENTS.LANE_RETIRED 0 (laneEv n)
    match d.portOfLane n with
    | none => d
    | some p =>
      if d.fabricPort p then d.when (d.linkServing p && (d.link p).lanes.contains n) (·.narrowLink p false)
      else if d.trained p then
        let ok (m : Nat) : Bool := d.laneState m == 6
        match pickWidth (d.lanesOf p) (d.is PRT_PORT_CFG.REVERSAL_OK p) ok (d.get PRT_PORT_STATUS.WIDTH p) with
        | some (code, lanes) =>
          let rest := (d.lanesOf p).filter fun m => d.laneState m == 6 && !lanes.contains m
          let d := (d.forEach rest fun d m => d.laneDetect m).put PRT_PORT_STATUS.WIDTH p code
          let d := d.when (d.onTopLanes p lanes) (·.mark PRT_PORT_STATUS.REVERSED p true)
          ((d.emit (.linkReset p "recovery")).recomputeGuard p).resyncPort p
        | none =>
          let d := d.forEach ((d.lanesOf p).filter fun m => d.laneState m == 6) fun d m => d.laneDetect m
          ((d.linkFalls p 0).recomputeGuard p).resyncPort p
      else d

/-- LANE_RETIREMENT (R49, R65). -/
def execLaneRetirement (lane : Fin 512) (s : State) : Host.Outcome State Fault Refusal :=
  onDev s fun d => d.retireLane lane

/-- A re-equalisation of a PCIe or CXL port has run: its lanes' reference, and those that it left below their floors (R63). -/
def Dev.portReequalised (d : Dev) (p : Nat) (closed : List Nat) (temp : Nat → Nat) : Dev :=
  let lanes := (d.lanesOf p).filter fun n => d.laneState n == 6
  let d := d.forEach lanes fun d n => d.put LNA_TRAIN_REF.TEMP n (temp n)
  (d.count (portCtr p 94) 1).forEach (lanes.filter closed.contains) fun d n => d.noFloor n

/-- A PCIe or CXL port goes through Recovery with equalisation: a downstream port starts it, an upstream port asks its host, which decides
whether it takes place; each entry counts (R63, R441). -/
def Dev.reequalisePort (d : Dev) (p : Nat) (taken : Bool) (closed : List Nat) (temp : Nat → Nat) : Dev :=
  let d := (d.setPortX p fun x => { x with wanted := none }).emit
    (.linkReset p (if d.hostFacing p then "request equalisation" else "recovery with equalisation"))
  d.when (!d.hostFacing p || taken) fun d => (d.count (portCtr p 15) 1).portReequalised p closed temp

/-- PCIE_REEQ_WINDOW_OPEN: the LTR in force has reached LTR_MIN: a re-equalisation that waits runs (R63), and a lane that waits
for it is retired (R471). -/
def execPcieReeqWindowOpen (port : Fin 512) (answer : ReeqAnswer) (temp : Byte) (s : State) : Host.Outcome State Fault Refusal :=
  onDev s fun d =>
    let p := port.val
    let ltr := if d.is PRT_LTR.NONE p then 0 else d.get PRT_LTR.LTR_US p
    if d.fabricPort p || !d.trained p || decide (ltr < d.get LNA_REEQ_CFG.LTR_MIN 0) then d
    else
      let d := d.when (d.portX p).wanted.isSome (·.reequalisePort p answer.taken (answer.closed.map (·.val)) fun _ => temp.toNat)
      match (d.portX p).retireLater with
      | some n => (d.setPortX p fun x => { x with retireLater := none }).retireLane n
      | none => d

/-- REEQ_DEFERRED: DEFER_MAX hours passed without a window; the record repeats (R63). -/
def execReeqDeferred (port : Fin 512) (s : State) : Host.Outcome State Fault Refusal :=
  onDev s fun d =>
    let p := port.val
    d.when (d.portX p).wanted.isSome fun d =>
      ((d.setPortX p fun x => { x with wanted := some d.now }).count (portCtr p 95) 1).record 0x0182 (d.portEv p)

end Sys2Proof.Machine
end

