-- ==== Sys2Proof/Machine/Sluice.lean ====
section
/-! DEFINITION. The Sluice: containment, release, Accession's results, notices, the event log and fault injection (R265 to
R282, R529). -/

namespace Sys2Proof.Machine

/-! ### Containment objects -/

/-- State of a containment object: 0 NONE, 1 CONTAINED, 2 RELEASING; and its cause: 1 ERROR, 2 REMOVAL, 3 INSERTION (R282). -/
def Dev.contState (d : Dev) (o : Nat) : Nat := d.get SLC_CONT_STATE.STATE o
def Dev.contCause (d : Dev) (o : Nat) : Nat := d.get SLC_CONT_STATE.CAUSE o

/-- STATE, CAUSE and CLASS of an object are written. -/
def Dev.setCont (d : Dev) (o st cause cls : Nat) : Dev :=
  ((d.put SLC_CONT_STATE.STATE o st).put SLC_CONT_STATE.CAUSE o cause).put SLC_CONT_STATE.CLASS o cls

/-- The endpoints of a port object: all of a lane port's; those of a tunnel's front port, or a Console Engine (R267, R294). -/
def Dev.endpointsOfObject (d : Dev) (id : Nat) : List (Nat × Nat) :=
  if id < 512 then (d.endpointsOf id).map fun e => (id, e)
  else ((d.endpointsOf 447).filter fun e => d.contPort 447 e == id).map fun e => (447, e)

/-- The port of a port object. -/
def portOfObject (id : Nat) : Nat := if id < 512 then id else 447

/-- The cause of a record about an object (R277): its port and handle. -/
def Dev.objEv (d : Dev) (scope id : Nat) : Ev :=
  if scope = 1 then { port := d.upFpid id, gvh := d.gvh id }
  else { port := d.fpid (portOfObject id), die := if id < 512 then dieOf id else 5, object := if id < 512 then 0 else id }

/-- A CONTAINED record; its ESEQ is the object's latest (R272, R282). -/
def Dev.containedRecord (d : Dev) (scope id : Nat) : Dev :=
  let n := d.nextEseq
  (d.record 0x0A60 (d.objEv scope id)).put64 SLC_CONT_ESEQ_LO.ESEQ SLC_CONT_ESEQ_HI.ESEQ (contObj scope id) n

/-! ### Virtual views -/

/-- The CONTAINED flag of a Vitrine's VMF (R386). -/
def Dev.flagContained (d : Dev) (lv : Nat) : Dev :=
  (d.count (vitCtr lv 27) 1).vmfFlag lv VMF_EVENT_FLAGS.CONTAINED

/-- Virtual downstream port k loses its endpoint to containment (R128, R152, R268): a removal also takes presence; Surprise Down
and DPC unless the loss was ordered (R117). -/
def Dev.loseView (d : Dev) (lv k cause : Nat) (ordered : Bool) : Dev :=
  let d := d.setBinding lv k fun b => { b with presented := false }
  let d := if cause = 2 then d.slotGone lv k
    else d.slotEvent lv k fun v => { v with dllActive := false, dllChanged := true }
  let d := d.when (!ordered) fun d =>
    (d.setVport lv k fun v => { v with surpriseDown := true, dpcStatus := v.dpcStatus || v.dpcEnable != 0 }).aer lv k 2
  (d.clearEndpointIntx lv k).flagContained lv

/-- A binding is presented again (R252, R152). -/
def Dev.regainView (d : Dev) (lv k : Nat) : Dev :=
  (d.setBinding lv k fun b => { b with presented := true }).slotPresent lv k

/-- Bindings of this module's Vitrines to a port elsewhere, or here. -/
def Dev.bindingsTo (d : Dev) (fpid : Nat) (sel : Nat → Bool) : List (Nat × Nat) :=
  d.vits.flatMap fun v => (v.2.bindings.filter fun b => b.fpid == fpid && sel b.ep && !b.unbinding).map fun b => (v.1, b.k)

/-! ### Links of contained ports -/

/-- The lanes of a port leave service and stay OFF (R268). -/
def Dev.holdLanes (d : Dev) (p : Nat) : Dev :=
  d.forEach (d.lanesOf p) fun d n => (d.laneOff n).setLane n fun l => { l with held := true }

/-- The lanes of a port may train again, from DETECT where they are enabled (R272). -/
def Dev.freeLanes (d : Dev) (p : Nat) : Dev :=
  d.forEach (d.lanesOf p) fun d n =>
    let d := d.setLane n fun l => { l with held := false }
    d.when (d.is LNA_LANE_CFG.ENABLE n) (·.laneStart n)

/-- A link is taken to Disabled (R268). -/
def Dev.disableLink (d : Dev) (p : Nat) : Dev :=
  if internalPort p then d else ((d.linkFalls p 7).holdLanes p).emit (.linkReset p "disabled")

/-- A link leaves Disabled and trains. -/
def Dev.enableLink (d : Dev) (p : Nat) : Dev :=
  if internalPort p then d else ((d.put PRT_PORT_STATUS.LTSSM p 0).freeLanes p).emit (.linkReset p "leave disabled")

/-! ### Entry -/

/-- Modules that hold an edge of an object, this one left out (R268). -/
def Dev.edgesOf (d : Dev) (scope id : Nat) : List Nat :=
  if scope = 0 then
    ((((d.endpointsOfObject id).filterMap fun e => (d.endpoint e.1 e.2).bound).map fun b => fpidModule b.up).filter
      (· ≠ d.moduleId)).eraseDups
  else if scope = 1 then d.otherModules id
  else []

/-- The FPID or handle that names an object in a notice. -/
def Dev.objName (d : Dev) (scope id : Nat) : Nat := if scope = 1 then d.gvh id else d.fpid (portOfObject id)

/-- Notices go to the other modules that hold an edge, until each is acknowledged (R268). -/
def Dev.notify (d : Dev) (scope id cause : Nat) : Dev :=
  let ms := d.edgesOf scope id
  let o := contObj scope id
  let fresh : List Notice := ms.map fun m => { modul := m, object := o }
  let d := { d with notices := (d.notices.filter fun (n : Notice) => n.object != o) ++ fresh }
  (d.put SLC_CONT_STATE.UNACKED o ms.length).forEach ms fun d m => d.tell m (.notice scope (d.objName scope id) cause)

/-- Queues of a port object are squashed (R268): those of a lane port, or the frames of its handles at an internal one. -/
def Dev.squashPort (d : Dev) (id : Nat) : Dev :=
  if id < 512 then d.forEach ((List.range 128).map (queueNo id)) fun d q => d.squashQueue q
  else d.forEach ((d.endpointsOfObject id).filterMap fun e => (d.endpoint e.1 e.2).bound) fun d b => d.squashInternal 447 b.gvh

/-- Open requests toward a port object complete with Unsupported Request at the requester edges here (R133). -/
def Dev.refuseToward (d : Dev) (fpid : Nat) (gvhs : Option (List Nat)) : Dev :=
  d.refuseEntries fun e => e.dst == fpid && (match gvhs with
    | some gs => gs.contains e.gvh
    | none => true)

/-- Entry of a device-facing port or tunnel (R268). -/
def Dev.enterPort (d : Dev) (id cause : Nat) (ordered : Bool) : Dev :=
  let p := portOfObject id
  let d := d.when (cause == 1) (·.disableLink p)
  let d := d.when (cause == 2 && decide (id < 512)) (·.linkFalls p 0)
  let handles := ((d.endpointsOfObject id).filterMap fun e => (d.endpoint e.1 e.2).bound).map (·.gvh)
  let d := (d.squashPort id).refuseToward (d.fpid p) (if id < 512 then none else some handles)
  let d := d.when (decide (id < 512)) fun d => d.discardWaiting (d.fpid p)
  let d := d.when (decide (id < 512)) (·.breakLock p false)
  d.forEach (d.endpointsOfObject id) fun d e =>
    match d.boundTo e.1 e.2 with
    | some (lv, k) => d.loseView lv k cause ordered
    | none => d

/-- A freeze is abandoned: the Vitrine is PRESENTED again and its TLPs go (R249, R258, R271); FREEZE fails. -/
def Dev.abandonFreeze (d : Dev) (lv status : Nat) : Dev :=
  let gvh := d.gvh lv
  let d := (d.setVitState lv 2).setVit lv fun v => { v with holding := false, tcut1 := none }
  let d := d.forEach (d.vit lv).bindings fun d b => d.setBound b fun x => { x with holding := false }
  let d := d.forEach (d.queuesOf gvh fun _ => true) fun d q =>
    d.when (d.get BSN_Q_STATUS.STATE q == 2) (·.setQueueState q 0)
  (d.endWaiting (.freeze lv) status).retryHeld

/-- Entry of a Vitrine (R268): its queues on this module STOPPED, its entries squashed, its endpoints refused, its wires cleared with the
upstream link (R128), a freeze in progress failed (R271). -/
def Dev.enterVitrine (d : Dev) (lv : Nat) : Dev :=
  let d := d.when (d.get VIT_STATE.STATE lv == 4) (·.abandonFreeze lv Status.freezeTimeout)
  let d := (d.disableLink (d.get VIT_PORT.UPORT lv)).setVit lv fun v => { v with intx := [] }
  let d := d.forEach (d.queuesOf (d.gvh lv) fun _ => true) fun d q => d.setQueueState q 1
  let d := d.squashEntries lv
  let d := d.breakLocksOf (d.gvh lv) fun _ => true
  let d := d.forEach (d.vit lv).bindings fun d b => d.refuseBinding lv b true
  d.flagContained lv

/-- Entry of a fabric link (R268): lanes OFF and held, the link withdrawn. -/
def Dev.enterLink (d : Dev) (p : Nat) : Dev :=
  ((d.linkDown p 0).holdLanes p).setLink p fun l => { l with losses := [] }

/-- An object is contained with a cause: its entry, its record and its notices (R268, R270). -/
def Dev.contain (d : Dev) (scope id cause cls : Nat) (ordered : Bool) : Dev :=
  let d := d.setCont (contObj scope id) 1 cause cls
  let d := if scope = 0 then d.enterPort id cause ordered else if scope = 1 then d.enterVitrine id else d.enterLink id
  let p := if scope = 1 then d.get VIT_PORT.UPORT id else portOfObject id
  ((d.count (portCtr p 82) 1).containedRecord scope id).notify scope id cause

/-- INSERTION: a powered cage or a tunnel endpoint found: no binding is presented until Accession succeeds (R136, R268, R270). -/
def Dev.insertion (d : Dev) (id : Nat) : Dev :=
  let o := contObj 0 id
  if d.contState o = 0 then
    let d := d.forEach (d.endpointsOfObject id) fun d e => d.setEndpoint e.1 e.2 fun x => { x with accession := .none }
    ((d.setCont o 1 3 0).enterPort id 3 true).notify 0 id 3
  else if d.contState o = 1 ∧ d.contCause o = 2 then d.put SLC_CONT_STATE.CAUSE o 3
  else d

/-- Presence or link of a device-facing object is lost: REMOVAL, from any state; a release under way is abandoned (R270). -/
def Dev.remove (d : Dev) (id : Nat) (ordered : Bool) : Dev :=
  let o := contObj 0 id
  let st := d.contState o
  let d := d.forEach (d.endpointsOfObject id) fun d e => d.setEndpoint e.1 e.2 fun x => { x with accession := .none }
  if st = 0 then d.contain 0 id 2 (if ordered then 6 else 3) ordered
  else
    let d := d.when (st == 2) (·.endWaiting (.release 0 id) Status.releaseFailed)
    let d := d.when (decide (id < 512)) (·.linkFalls id 0)
    let d := (d.put SLC_CONT_STATE.STATE o 1).put SLC_CONT_STATE.CAUSE o 2
    (d.squashPort id).forEach (d.endpointsOfObject id) fun d e =>
      match d.boundTo e.1 e.2 with
      | some (lv, k) => d.when ((d.vport lv k).presence) (·.slotGone lv k)
      | none => d

/-- A further error on a contained object is counted; on a releasing one the release fails (R270). -/
def Dev.again (d : Dev) (scope id cls : Nat) : Dev :=
  let o := contObj scope id
  if d.contState o = 1 then d.bump SLC_CONT_STATE.REPEATS o 1
  else
    let d := (d.record 0x0A62 (d.objEv scope id)).endWaiting (.release scope id) Status.releaseFailed
    d.contain scope id 1 cls false

/-- A Vitrine or fabric link loses its die: contained as a removal, whatever its containment was (R28, R271). -/
def Dev.lost (d : Dev) (scope id : Nat) : Dev :=
  let o := contObj scope id
  if d.contState o = 1 then d.put SLC_CONT_STATE.CAUSE o 2
  else (d.when (d.contState o == 2) (·.endWaiting (.release scope id) Status.releaseFailed)).contain scope id 2 5 false

/-! ### Errors of class 3 and class 4 -/

/-- The record of a further class 3 or 4 error on a contained object: of one CONTAINED, in the object's summary, at most one each second; of
one RELEASING, at once, since it causes a containment (R270, R529, log entry 113). -/
def Dev.furtherError (d : Dev) (scope id code cls what : Nat) : Dev :=
  let o := contObj scope id
  let e : Ev := { d.objEv scope id with cls := cls, detail := leBytes 1 what }
  if d.contState o = 1 then d.recordLimited (code + 65536 * o) (msTicks 1000) code { e with summary := true }
  else d.record code { e with contained := true }

/-- A class 3 error on a port, by the port's use and its Vitrine's state (R270). -/
def Dev.class3 (d : Dev) (p e what : Nat) : Dev :=
  let fatal (d : Dev) (ev : Ev) (on : Bool) : Dev := d.record 0x0A80 { ev with cls := 3, contained := on, detail := leBytes 1 what }
  if p = 447 ∨ d.deviceFacing p then
    let id := d.contPort p e
    let o := contObj 0 id
    if d.contState o = 0 then (fatal d (d.objEv 0 id) true).contain 0 id 1 3 false
    else (d.furtherError 0 id 0x0A80 3 what).again 0 id 3
  else if d.hostFacing p then
    match d.vitrineOfPort p with
    | none => (fatal d (d.portEv p) false).retrainLink p
    | some lv =>
      let st := d.get VIT_STATE.STATE lv
      let ev : Ev := { d.portEv p with gvh := d.gvh lv }
      if d.contained 1 lv then (d.furtherError 1 lv 0x0A80 3 what).again 1 lv 3
      else if st = 2 ∨ st = 3 ∨ st = 4 then (fatal d ev true).contain 1 lv 1 3 false
      else if st = 5 ∨ st = 6 then (fatal d ev false).setVit lv fun v => { v with heldError := some 3 }
      else (fatal d ev false).retrainLink p
  else d

/-- CLASS3_ERROR (R270). -/
def execClass3Error (port : Fin 512) (ep : Fin 128) (error : Fin 5) (s : State) : Host.Outcome State Fault Refusal :=
  onDev s fun d =>
    let p := port.val
    let target := match d.vitrineOfPort p with
      | some lv => 2 ^ 32 + d.gvh lv
      | none => d.fpid p
    d.underInjection 8 target fun d => d.class3 p ep (error.val + 1)

/-- A class 4 condition holds (R265, R480): the partner check only where both ends are admitted, the losses within 10 minutes. -/
def Dev.linkFaulty (d : Dev) (p : Nat) (f : LinkFault) : Bool :=
  match f with
  | .partner => (d.link p).partnerAdmitted && d.is RTE_MODULE_ID.ASSIGNED 0
  | .losses => decide (3 ≤ ((d.link p).losses.filter fun t => decide (sinceTicks t d.now ≤ msTicks 600000)).length)
  | .replaySram => true

/-- DETAIL byte 0 of FABRIC_LINK_FATAL (R444). -/
def linkFaultCode (f : LinkFault) : Nat :=
  match f with
  | .partner => 1
  | .losses => 2
  | .replaySram => 3

/-- CLASS4_CONDITION (R270). -/
def execClass4Condition (port : Fin 512) (fault : LinkFault) (s : State) : Host.Outcome State Fault Refusal :=
  onDev s fun d =>
    let p := port.val
    let target := 2 ^ 33 + d.fpid p
    if !d.fabricPort p || !(d.linkFaulty p fault || d.armedFor 8 target) then d
    else
      d.underInjection 8 target fun d =>
        let st := d.contState (contObj 2 p)
        let what := linkFaultCode fault
        if st = 0 then
          (d.record 0x0A81 { d.portEv p with cls := 4, contained := true, detail := leBytes 1 what }).contain 2 p 1 4 false
        else (d.furtherError 2 p 0x0A81 4 what).again 2 p 4

/-! ### Notices -/

/-- The part of this module in a containment on another (R158, R268): its requester edges, its Vitrines' view, a Vitrine's queues. The manual names
no message that tells of a release: a notice of cause NONE does here (log entry 32). -/
def Dev.takeNotice (d : Dev) (scope id cause : Nat) : Dev :=
  if scope = 0 then
    let rest := d.heldRemote.filter (· ≠ id)
    if cause = 0 then { d with heldRemote := rest }
    else
      let d := Dev.discardWaiting (Dev.refuseToward { d with heldRemote := rest ++ [id] } id none) id
      d.forEach (d.bindingsTo id fun _ => true) fun d b => d.loseView b.1 b.2 cause false
  else if scope = 1 then
    let d := d.forEach (d.queuesOf id fun _ => true) fun d q => d.setQueueState q 1
    let d := (d.squash fun e => e.gvh == id).breakLocksOf id fun _ => true
    { d with endpoints := d.endpoints.map fun e =>
        (e.1, { e.2 with bound := e.2.bound.map fun b => if b.gvh = id then { b with refusing := true } else b }) }
  else d

/-- CONTAINMENT_NOTICE: another module's containment takes effect here and is acknowledged (R268). -/
def execContainmentNotice (source : Fin 8192) (scope : Fin 4) (id : Fin 8388608) (cause : Fin 4) (s : State) :
    Host.Outcome State Fault Refusal :=
  onDev s fun d => (d.takeNotice scope id cause).tell source (.noticeAck scope id)

/-- NOTICE_REPEAT_TIMER: an unacknowledged notice is repeated; after ten attempts one NOTICE_UNACKED record (R268). -/
def execNoticeRepeatTimer (modul : Fin 8192) (scope : Fin 4) (id : Fin 1024) (s : State) :
    Host.Outcome State Fault Refusal :=
  onDev s fun d =>
    let o := contObj scope id
    let mine (n : Notice) : Bool := n.modul == modul.val && n.object == o
    match d.notices.find? mine with
    | none => d
    | some n =>
      if n.recorded then d
      else if 9 ≤ n.attempts then
        let d := { d with notices := d.notices.map fun x => if mine x then { x with recorded := true } else x }
        d.record 0x0A66 { d.objEv scope id with object := modul.val }
      else
        let d := { d with notices := d.notices.map fun x => if mine x then { x with attempts := x.attempts + 1 } else x }
        d.tell modul (.notice scope (d.objName scope id) (d.contCause o))

/-- CONTAINMENT_NOTICE_ACK: its repeats stop, and UNACKED falls (R268, R282). -/
def execContainmentNoticeAck (modul : Fin 8192) (scope : Fin 4) (id : Fin 1024) (s : State) :
    Host.Outcome State Fault Refusal :=
  onDev s fun d =>
    let o := contObj scope id
    let d := { d with notices := d.notices.filter fun n => !(n.modul == modul.val && n.object == o) }
    d.put SLC_CONT_STATE.UNACKED o (d.notices.filter fun n => n.object == o).length

/-! ### Accession -/

/-- Accession of an endpoint may start: its contained object is in INSERTION or RELEASING, and nothing awaits DRS (R26, R122, R270). -/
def Dev.mayAccede (d : Dev) (p e front : Nat) : Bool :=
  let o := contObj 0 (if p = 447 ∧ e < 64 then 512 + front else d.contPort p e)
  (d.contState o == 1 && d.contCause o == 3 || d.contState o == 2) && !(d.portX p).awaitDrs && !(d.endpoint p e).awaitDrs

/-- ACCESSION_START: SPDM begins for an endpoint in CONTAINED (INSERTION) or RELEASING (R270, R486), once configuration requests may go to
its port (R122). -/
def execAccessionStart (port : Fin 512) (ep : Fin 128) (found : Found) (s : State) : Host.Outcome State Fault Refusal :=
  onDev s fun d =>
    let p := port.val
    let e := ep.val
    if d.mayAccede p e found.front then
      d.setEndpoint p e fun x =>
        { x with exists_ := true, accession := .running, accessionStart := d.now, ldId := found.ldId, bars := found.bars,
                 busDev := found.busDev, ari := found.ari, front := found.front, facts := found.facts }
    else d

/-- An endpoint that passes as itself is presented where it is bound (R252); its Vitrine's module elsewhere hears of it. -/
def Dev.representEndpoint (d : Dev) (p e : Nat) (same : Bool) : Dev :=
  match (d.endpoint p e).bound with
  | none => d
  | some b =>
    if !same then d
    else
      match d.boundTo p e with
      | some (lv, k) => d.regainView lv k
      | none => d.tell (fpidModule b.up) (.bind b.gvh (d.fpid p) b.share)

/-- An object leaves containment (R270). -/
def Dev.leaveCont (d : Dev) (scope id : Nat) : Dev :=
  let o := contObj scope id
  let name := d.objName scope id
  let d := d.when (scope == 0) fun d => d.forEach (d.edgesOf scope id) fun d m => d.tell m (.notice scope name 0)
  let d := (d.setCont o 0 0 0).put SLC_CONT_STATE.REPEATS o 0
  let d := { d with notices := d.notices.filter fun n => n.object != o }
  let d := (d.put SLC_CONT_STATE.UNACKED o 0).count (portCtr (if scope = 1 then d.get VIT_PORT.UPORT id else portOfObject id) 83) 1
  let d := d.when (scope == 0 && decide (id < 512)) fun d =>
    d.forEach ((List.range 128).map (queueNo id)) fun d q => d.put BSN_Q_STATUS.STATE q 0
  (d.record 0x0A61 (d.objEv scope id)).endWaiting (.release scope id) Status.ok

/-- Accession of an endpoint without an SPDM responder (R292, R295): a Console Engine passes; a tunnel endpoint where
ALLOW_UNAUTH is set. -/
def Dev.unauthAllowed (d : Dev) (p e : Nat) : Bool :=
  (engineOf p e).isSome || (p == 447 && (SMap.get {} d.fronts (d.endpoint p e).front).allowUnauth)

/-- A bound endpoint that fails re-authentication is unbound through the surprise-removal path (R26): its port is removed where it has that
alone and is not contained already, else its virtual slot loses it. -/
def Dev.removeUnaccessed (d : Dev) (p e : Nat) : Dev :=
  let id := d.contPort p e
  let bound := (d.endpoint p e).bound
  let at_ := d.boundTo p e
  let d := if d.contState (contObj 0 id) ≠ 0 then d
    else if (d.endpointsOfObject id).length = 1 then d.remove id false
    else match at_ with
      | some (lv, k) => d.loseView lv k 2 false
      | none => d
  match at_, bound with
  | some (lv, k), _ => match (d.vit lv).binding k with
    | some b => d.startUnbind lv b
    | none => d
  | none, some b => d.tell (fpidModule b.up) (.unbind b.gvh (d.fpid p))
  | none, none => d

/-- Accession fails: the endpoint stays contained (R270), and one that was bound is unbound (R26); `why` is DETAIL byte 0 of the record
(R444): 1 no SPDM responder, 2 authentication failed, 3 still answering RRS, 4 the 10 s limit. -/
def Dev.accessionFails (d : Dev) (p e why : Nat) : Dev :=
  let x := d.endpoint p e
  if x.accession = .running ∨ x.accession = .passed then
    let d := d.record 0x108D { port := d.fpid p, die := if p = 447 then 5 else dieOf p, object := e, detail := leBytes 1 why }
    (d.when x.bound.isSome (·.removeUnaccessed p e)).setEndpoint p e fun x => { x with accession := .failed }
  else d

/-- ACCESSION_SUCCEEDS: the endpoint is released, and its bindings presented where it is the same endpoint (R252, R270). Its port
leaves containment once every endpoint of it has passed (DEDUCED, log entry 16). -/
def execAccessionSucceeds (port : Fin 512) (ep : Fin 128) (identity : Option Nat) (s : State) :
    Host.Outcome State Fault Refusal :=
  onDev s fun d =>
    let p := port.val
    let e := ep.val
    let x := d.endpoint p e
    if x.accession ≠ .running then d
    else if identity = none ∧ ¬d.unauthAllowed p e then
      let d := d.when (p == 447) fun d =>
        d.raise TUN_PORT_EVENTS.UNAUTH_REFUSED x.front { die := 5, port := d.fpid 447, object := e }
      d.accessionFails p e 1
    else
      let same := x.identity == identity.getD 0
      let d := d.setEndpoint p e fun x =>
        { x with accession := .passed, identity := identity.getD 0, unauthenticated := identity.isNone }
      let id := d.contPort p e
      let all := (d.endpointsOfObject id).all fun q => (d.endpoint q.1 q.2).accession == .passed
      let d := d.when all (·.leaveCont 0 id)
      d.representEndpoint p e same

/-- ACCESSION_FAILED: at Accession, or when a bound endpoint is authenticated again (R26, R270). -/
def execAccessionFailed (port : Fin 512) (ep : Fin 128) (responder : Bool) (s : State) : Host.Outcome State Fault Refusal :=
  onDev s fun d => d.accessionFails port ep (if responder then 2 else 1)

/-- ACCESSION_LIMIT: an endpoint that has not passed within 10 s stays contained (R486). -/
def execAccessionLimit (port : Fin 512) (ep : Fin 128) (s : State) : Host.Outcome State Fault Refusal :=
  onDev s fun d => d.when ((d.endpoint port ep).accession == .running) (·.accessionFails port ep 4)

/-! ### Release -/

/-- A record is a CONTAINED record of an object. -/
def containsObject (e : Ev) (r : EvRec) : Bool :=
  r.code == 0x0A60 && r.port == e.port && r.gvh == e.gvh && r.object == e.object

/-- An ESEQ belongs to a CONTAINED record of an object (R272). -/
def Dev.containedEseq (d : Dev) (scope id eseq : Nat) : Bool :=
  ((d.ring.map (·.2)) ++ d.staging).any fun r => containsObject (d.objEv scope id) r && r.eseq == some eseq

/-- The release of an object begins, by scope (R272). -/
def Dev.startRelease (d : Dev) (scope id : Nat) : Dev :=
  let d := d.put SLC_CONT_STATE.STATE (contObj scope id) 2
  if scope = 0 then
    let d := d.when (decide (id < 512)) fun d =>
      d.forEach ((List.range 128).map (queueNo id)) fun d q => d.put BSN_Q_STATUS.STATE q 0
    let d := d.forEach (d.endpointsOfObject id) fun d e => d.setEndpoint e.1 e.2 fun x => { x with accession := .none }
    d.enableLink (portOfObject id)
  else if scope = 1 then
    let d := d.forEach (d.queuesOf (d.gvh id) fun _ => true) fun d q => d.setQueueState q 0
    (d.enterReset id false).enableLink (d.get VIT_PORT.UPORT id)
  else d.freeLanes id

/-- The object a SLUICE_RELEASE names on this module. -/
def Dev.releaseObject (d : Dev) (scope object : Nat) : Option Nat :=
  if scope = 1 then d.lvidOf (gvhField object)
  else
    let p := fpidPort object
    if scope = 0 ∧ (p = 447 ∨ d.deviceFacing p) ∨ scope = 2 ∧ d.fabricPort p then some p else none

/-- SLUICE_RELEASE on this module (R272). -/
def Dev.release (d : Dev) (h : CmdHdr) (scope id eseq : Nat) : Dev :=
  let o := contObj scope id
  let latest := d.get64 SLC_CONT_ESEQ_LO.ESEQ SLC_CONT_ESEQ_HI.ESEQ o
  if ¬(d.contState o = 1 ∧ d.contCause o = 1) then d.finish h 0x0801 Status.notContained
  else if d.notices.any fun n => n.object == o then d.finish h 0x0801 Status.noticePending
  else if eseq = latest then (d.waitFor h 0x0801 (.release scope id)).startRelease scope id
  else if d.containedEseq scope id eseq then d.finish h 0x0801 Status.staleEseq
  else d.badParam h 0x0801 8

/-- The contained object that a release names: behind the tunnel hub's port, its first one contained for an error (R272, log entry 10). -/
def Dev.releaseId (d : Dev) (p : Nat) : Nat :=
  if p = 447 then
    (((List.range 80).map (512 + ·)).find? fun i => d.contState (contObj 0 i) == 1 && d.contCause (contObj 0 i) == 1).getD 512
  else p

/-- SLUICE_RELEASE (R272, R366): an FPID or a handle names the module. Of local port 447 the tunnel or engine that is contained is
released, the lowest first (log entry 10). -/
def execSluiceRelease (h : CmdHdr) (scope : Fin 4) (object : Word) (eseq : Nat) (s : State) :
    Host.Outcome State Fault Refusal :=
  onDev s fun d =>
    let roles := [1, 2, 4]
    if scope.val = 3 then d.badParam h 0x0801 0
    else if scope.val = 1 then
      d.vitrineCommand h 0x0801 (gvhField object.toNat) roles false fun d lv => d.release h 1 lv eseq
    else
      let fpid := fpidField object.toNat
      d.command h 0x0801 roles false (fpidModule fpid) fun d =>
        match d.releaseObject scope fpid with
        | none => d.finish h 0x0801 Status.noObject
        | some p =>
          let id := d.releaseId p
          d.orWait h 0x0801 (· == .release scope id) 0xFFFFFFFF fun d => d.release h scope id eseq

/-- What completes a release (R272): every endpoint has passed; the Vitrine is PRESENTED; the link is ACTIVE. -/
def Dev.releaseDone (d : Dev) (scope id : Nat) : Bool :=
  if scope = 0 then (d.endpointsOfObject id).all fun e => (d.endpoint e.1 e.2).accession == .passed
  else if scope = 1 then d.get VIT_STATE.STATE id == 2
  else d.linkState id == 2

/-- RELEASE_COMPLETE (R270, R272): at CAPX of a fabric link its partner is the one the fabric directory holds. -/
def execReleaseComplete (scope : Fin 4) (id : Fin 1024) (s : State) : Host.Outcome State Fault Refusal :=
  onDev s fun d =>
    d.when (d.contState (contObj scope id) == 2 && d.releaseDone scope id) (·.leaveCont scope id)

/-- RELEASE_FAILED: not complete within 5 s, or 1 s of a fabric link: CONTAINED (ERROR) again (R270, R272). -/
def execReleaseFailed (scope : Fin 4) (id : Fin 1024) (s : State) : Host.Outcome State Fault Refusal :=
  onDev s fun d =>
    let o := contObj scope id
    d.when (d.contState o == 2) (·.again scope id (d.get SLC_CONT_STATE.CLASS o))

/-! ### The event log -/

/-- MASKED_SUMMARY: one summary record for each source with events in the second (R529). -/
def execMaskedSummary (s : State) : Host.Outcome State Fault Refusal :=
  onDev s fun d =>
    ({ d with masked := [] }).forEach d.masked fun d m =>
      d.record (m.subsystem * 256 + (if m.subsystem = 0x15 then 0x81 else 0x75))
        { cls := 0, summary := true, port := m.port, object := m.object, count := m.count, addr := m.addr }

/-- STAGING_COPY: with LPDDR4X trained, the staged records are numbered in their order and copied to the ring; those lost are
reported in one record (R278, R280). -/
def execStagingCopy (s : State) : Host.Outcome State Fault Refusal :=
  onDev s fun d =>
    if !d.booted || !d.is SLC_LOG_HEAD.STAGING 0 then d
    else
      let d := { d with staging := [] }.forEach d.staging fun d r =>
        match r.eseq with
        | some _ => d.ringWrite r
        | none =>
          let n := d.number r
          n.2.ringWrite n.1
      let lost := d.overrun
      let d := ({ d with overrun := 0 }).put SLC_LOG_HEAD.STAGING 0 0
      d.when (lost != 0) (·.record 0x0A67 { count := lost })

/-- The records of the ring, oldest first (R280). -/
def Dev.logRecords (d : Dev) : List EvRec :=
  let n := d.get SLC_LOG_HEAD.NEXT 0
  (d.ring.filter fun e => decide (n ≤ e.1)).map (·.2) ++ (d.ring.filter fun e => decide (e.1 < n)).map (·.2)

/-- Records taken for a reader, and the ESEQ after the last examined (R376): at most `most` copied; `keep` passes others over. -/
def takeRecords (keep : EvRec → Bool) (most : Nat) (next : Nat) (rs : List EvRec) : List EvRec × Nat :=
  match rs with
  | [] => ([], next)
  | r :: rest =>
    if most = 0 then ([], next)
    else
      let after := r.eseq.getD 0 + 1
      if keep r then
        let t := takeRecords keep (most - 1) after rest
        (r :: t.1, t.2)
      else takeRecords keep most after rest

/-- Memory of this module that a caller's address may name (R378). -/
def localRange (addr n : Nat) : Bool :=
  decide (addr + n ≤ 0x100000) || (decide (ddrBase ≤ addr) && inRegion regionDocent (addr - ddrBase) n)

/-- Bytes are written to a caller's memory (R363, R376): this module's for a master of its own, else the memory of the host or
module that sent the command; none where the address names no memory. -/
def storeFor (s : State) (h : CmdHdr) (addr : Nat) (bs : List Byte) : Option State :=
  if 0x400 ≤ h.caller ∨ h.forwarded.isSome then
    some { s with dev := s.dev.emit (.respond "store" ([h.caller, addr] ++ bs.map (·.toNat))) }
  else if localRange addr bs.length then some (s.store none addr bs)
  else none

/-- The records EVENT_LOG_READ gives a caller from an ESEQ on, a tenant its own Vitrine's only, and the ESEQ to read on from (R280, R376). -/
def Dev.logChosen (d : Dev) (h : CmdHdr) (first most : Nat) : List EvRec × Nat :=
  let own (r : EvRec) : Bool := match tenantOf h with
    | some lv => r.gvh == d.gvh lv
    | none => true
  let from_ := d.logRecords.filter fun r => decide (first ≤ r.eseq.getD 0)
  let t := takeRecords own most (max first d.nextEseq) from_
  (t.1, if most = 0 ∧ from_ ≠ [] then first else t.2)

/-- EVENT_LOG_READ on this module: the records go where the caller asks for them (R280, R376). -/
def readLog (s : State) (h : CmdHdr) (first most dest : Nat) : State :=
  let t := s.dev.logChosen h first most
  match storeFor s h dest (t.1.flatMap EvRec.bytes) with
  | none => { s with dev := s.dev.badParam h 0x0802 16 }
  | some s => { s with dev := s.dev.finish h 0x0802 Status.ok t.1.length [(24, 8, t.2)] }

/-- EVENT_LOG_READ (R376). -/
def execEventLogRead (h : CmdHdr) (first : Nat) (most : Word) (dest : Nat) (s : State) :
    Host.Outcome State Fault Refusal :=
  stateCommand s h 0x0802 [1, 2, 3, 4] fun s => readLog s h first most.toNat dest

/-! ### Fault injection -/

/-- The largest target of a point, and whether its count is 1 (R281). -/
def injectionForm (point : Nat) : Nat × Bool :=
  match point with
  | 0 => (511, false)
  | 1 => (2 ^ 22 - 1, false)
  | 2 => (511, true)
  | 3 => (65535, false)
  | 4 => (65535, false)
  | 5 => (6 * 2 ^ 32 + 2 ^ 32 - 1, true)
  | 6 => (32767, false)
  | 7 => (2 ^ 22 - 1, false)
  | 8 => (2 ^ 33 + 2 ^ 22 - 1, true)
  | 9 => (2 ^ 36 - 1, true)
  | 10 => (0, true)
  | 11 => (71, true)
  | 12 => (0, true)
  | _ => (2 ^ 18 - 1, true)

/-- The target is one the point allows: reserved bits zero (R281, R365). -/
def injectionTarget (point target : Nat) : Bool :=
  decide (target ≤ (injectionForm point).1) &&
    (if point = 8 then
      (target / 2 ^ 32 == 1 && decide (target % 2 ^ 32 < 2 ^ 23)) || (target / 2 ^ 32 != 1 && decide (target % 2 ^ 32 < 2 ^ 22))
    else if point = 9 then target % 8 == 0 else true)

/-- The argument is one the point allows (R376). -/
def injectionArgument (point argument : Nat) : Bool :=
  match point with
  | 0 => decide (1 ≤ argument) && decide (argument ≤ 6)
  | 4 => decide (argument ≤ 1)
  | 7 => decide (1 ≤ argument) && decide (argument ≤ 64000000)
  | 9 => decide (1 ≤ argument) && decide (argument ≤ 2)
  | _ => true

/-- A point is armed, with its record (R281). -/
def Dev.arm (d : Dev) (point target argument count : Nat) : Dev :=
  ({ d with injections := d.injections ++ [(⟨point, target, argument, count⟩ : Injection)] }.showArmed).record 0x0A65 { object := point }

/-- The module that carries an injection out (R281), where this module can name it. -/
def Dev.injectionModule (d : Dev) (h : CmdHdr) (point target : Nat) : Option Nat :=
  if point = 1 ∨ point = 7 ∨ (point = 8 ∧ target / 2 ^ 32 ≠ 1) then some (fpidModule (target % 2 ^ 22))
  else if point = 8 then d.vitrineModule (gvhField target)
  else some (if h.modul = 0xFFFF then d.moduleId else h.modul)

/-- FAULT_INJECT (R281). -/
def execFaultInject (h : CmdHdr) (point : Byte) (count : Word) (target argument : Nat) (s : State) :
    Host.Outcome State Fault Refusal :=
  onDev s fun d =>
    let k := point.toNat
    match d.injectionModule h k target with
    | none => d.finish h 0x0803 (if d.roleOf h ≤ 2 then Status.noObject else Status.notPermitted)
    | some m =>
      d.command h 0x0803 [1, 2] false m fun d =>
        if 13 < k then d.badParam h 0x0803 0
        else if count.toNat = 0 ∨ ((injectionForm k).2 ∧ count.toNat ≠ 1) then d.badParam h 0x0803 4
        else if !injectionTarget k target then d.badParam h 0x0803 8
        else if !injectionArgument k argument then d.badParam h 0x0803 16
        else if d.injections.any fun i => i.point == k then d.finish h 0x0803 Status.pointArmed
        else (d.arm k target argument count.toNat).finish h 0x0803 Status.ok

end Sys2Proof.Machine
end

