-- ==== Sys2Proof/Machine/PortCommands.lean ====
section
/-! DEFINITION. The ports and lanes commands (0x05xx): PORT_CONFIG, PORT_ENABLE, EQ_TABLE_LOAD, MARGIN_SCAN, BITSLIP, RETRAIN
(R47, R49, R90, R100 to R107, R117, R175, R176, R183, R376). -/

namespace Sys2Proof.Machine

/-! ### Port layout -/

/-- Configured ports other than p that share a lane with n lanes from p on. -/
def Dev.overlapping (d : Dev) (p n : Nat) : Bool :=
  (List.range n).any fun i => match d.portOfLane (p + i) with
    | some q => q != p
    | none => false

/-- The layout rules of R101, R104, R105 and R198. -/
def Dev.layoutOk (d : Dev) (p kind n : Nat) : Bool :=
  p % n == 0 && !(n == 1 && internalPort p) && (d.cageMates p n).all fun q => d.get PRT_PORT_CFG.KIND q == kind

/-- What the Basin minimum of a live Vitrine gives a queue of its upstream port (R178). -/
def Dev.minimumShare (d : Dev) (p q : Nat) : Nat :=
  match d.vitrineOfPort p with
  | some lv => if (d.queuesOf (d.gvh lv) (· == p)).contains q then (d.vit lv).basinMin / 4 else 0
  | none => 0

/-- The queues of a port at their 8-cell minimum (R175), beside the minimum of a live Vitrine (R178). -/
def Dev.resetMinimums (d : Dev) (p : Nat) : Dev :=
  d.forEach ((List.range 128).map (queueNo p)) fun d q => d.put BSN_Q_CFG.MIN q (8 + d.minimumShare p q)

/-- Cells a port's reserve and its queues' minimums take from the reserved space (R175, R176). -/
def Dev.portCells (d : Dev) (p : Nat) : Nat :=
  if d.configured p then
    d.get BSN_PORT_RSV.LR p + ((List.range 128).map fun i => d.get BSN_Q_CFG.MIN (queueNo p i) - d.minimumShare p (queueNo p i)).sum
  else 0

/-- The reserve asked for, with its default (R175). -/
def PortSetting.reserve (x : PortSetting) : Nat :=
  if x.lr = 0 then widthLanes x.width * (if x.kind = 4 then 1536 else 768) else x.lr

/-- The windows asked for, with their default. -/
def PortSetting.windowCount (x : PortSetting) : Nat := if x.windows = 0 then 8 else x.windows

/-- The PRT_PM_CFG word asked for (R107); 0xFFFF_FFFF for its reset values. -/
def PortSetting.pmWord (x : PortSetting) : Nat := if x.pm = 0xFFFFFFFF then 0xF0201388 else x.pm

/-- The first parameter out of range, by its offset (R376, R365). -/
def PortSetting.bad (x : PortSetting) : Option Nat :=
  if 4 < x.kind then some 4
  else if 4 < x.width then some 5
  else if x.kind ≠ 0 ∧ (x.rate = 0 ∨ 7 < x.rate ∨ (x.kind = 4 ∧ x.rate < 6)) then some 6
  else if 3 < x.flags then some 7
  else if 2 ^ 21 ≤ x.lr then some 8
  else if 3 < x.oversub then some 12
  else if 256 < x.windows then some 14
  else if bitsOf x.pmWord 27 24 ≠ 0 ∨ bitsOf x.pmWord 23 16 = 0 then some 16
  else none

/-- Every register of a port that PORT_CONFIG sets takes its value (R107, R175, R183, R225). -/
def Dev.applyPort (d : Dev) (p : Nat) (x : PortSetting) : Dev :=
  let d := ((d.put PRT_PORT_CFG.KIND p x.kind).put PRT_PORT_CFG.WIDTH p x.width).put PRT_PORT_CFG.RATE_MAX p x.rate
  let d := (d.mark PRT_PORT_CFG.REVERSAL_OK p (bitOf x.flags 0)).mark PRT_PORT_CFG.CXL_HOST p (x.kind == 3 && bitOf x.flags 1)
  let d := ((d.put BSN_PORT_RSV.LR p x.reserve).put BSN_PORT_WIN.OVERSUB p x.oversub).put BSN_PORT_WIN.WINDOWS p x.windowCount
  let w := x.pmWord
  let d := ((d.mark PRT_PM_CFG.L0P_EN p (bitOf w 31)).mark PRT_PM_CFG.L1_EN p (bitOf w 30)).mark PRT_PM_CFG.L11_EN p (bitOf w 29)
  let d := ((d.mark PRT_PM_CFG.L12_EN p (bitOf w 28)).put PRT_PM_CFG.L1_IDLE p (bitsOf w 23 16)).put PRT_PM_CFG.LTR_BUDGET p
    (bitsOf w 15 0)
  let d := (d.forEach (d.lanesOf p) fun d n => d.put LNA_LANE_CFG.RATE_MAX n x.rate).resetMinimums p
  let d := d.forEach (List.range 32) fun d i =>
    (d.put WR_Q_CFG.QUANTUM (queueNo p (64 + i)) 256).put WR_Q_CFG.QUANTUM (queueNo p (96 + i)) 64
  (d.refreshGrant p).recomputeGuard p

/-- A port is removed: its registers return to reset (R103, R107). -/
def Dev.removePort (d : Dev) (p : Nat) : Dev :=
  let d := d.resetRegs [.PRT_PORT_CFG, .PRT_PORT_STATUS, .PRT_LTR, .PRT_PM_CFG, .PRT_EVENTS, .FLL_LINK_STATUS, .FLL_PARTNER,
    .FLL_RTT, .FLL_REPLAY, .FLL_SEQ, .FLL_EVENTS, .BSN_PORT_RSV, .BSN_PORT_WIN, .BSN_PORT_GRANT] p
  let d := d.resetMinimums p
  { d with links := SMap.erase d.links p, ports := SMap.erase d.ports p, edgesOut := d.edgesOut.filter (· ≠ p),
           edges := d.edges.filter (· ≠ d.fpid p) }

/-- The reserved total that a setting of port p leaves (R175, R176). -/
def Dev.reservedWith (d : Dev) (p : Nat) (x : PortSetting) : Nat :=
  d.get BSN_RESERVED.TOTAL 0 - d.portCells p + (if x.kind = 0 then 0 else x.reserve + 1024)

/-- The lanes of a port as it is and as a setting makes it. -/
def Dev.coveredLanes (d : Dev) (p : Nat) (x : PortSetting) : List Nat :=
  (if d.configured p then d.lanesOf p else []) ++ (if x.kind = 0 then [] else (List.range (widthLanes x.width)).map (p + ·))

/-- The status with which a setting of port p is refused (R103, R176, R183). -/
def Dev.layoutRefused (d : Dev) (p : Nat) (x : PortSetting) : Option Nat :=
  let n := widthLanes x.width
  let changes := x.kind != d.get PRT_PORT_CFG.KIND p || x.reserve != d.get BSN_PORT_RSV.LR p ||
    x.oversub != d.get BSN_PORT_WIN.OVERSUB p || x.windowCount != d.get BSN_PORT_WIN.WINDOWS p
  if internalPort p ∨ (x.kind ≠ 0 ∧ !d.layoutOk p x.kind n) then some Status.badLayout
  else if x.kind ≠ 0 ∧ d.overlapping p n then some Status.overlap
  else if (d.coveredLanes p x).any fun l => d.laneState l != 0 then some Status.lanesActive
  else if changes ∧ d.dwins.any (fun w => w.dst == d.fpid p) then some Status.windowsExist
  else if reserveLimit < d.reservedWith p x then some Status.reserveLimit
  else none

/-- PORT_CONFIG on this module (R103): a refused layout leaves everything as it was. -/
def Dev.configPort (d : Dev) (h : CmdHdr) (p : Nat) (x : PortSetting) : Dev :=
  match d.layoutRefused p x with
  | some st => (d.when (st == Status.reserveLimit) (·.raise BSN_EVENTS.RSV_REFUSED 0 (d.portEv p))).finish h 0x0501 st
  | none =>
    let d := d.setReserved (d.reservedWith p x)
    (if x.kind = 0 then d.removePort p else d.applyPort p x).finish h 0x0501 Status.ok

/-- PORT_CONFIG (R100 to R105). -/
def execPortConfig (h : CmdHdr) (fpid : Word) (kind width rate flags : Byte) (lr : Word) (oversub : Byte)
    (windows : Fin 65536) (pm : Word) (s : State) : Host.Outcome State Fault Refusal :=
  onDev s fun d =>
    let f := fpidField fpid.toNat
    let x : PortSetting := ⟨kind.toNat, width.toNat, rate.toNat, flags.toNat, lr.toNat, oversub.toNat, windows, pm.toNat⟩
    d.command h 0x0501 [1, 2] false (fpidModule f) fun d =>
      match x.bad with
      | some o => d.badParam h 0x0501 o
      | none => d.configPort h (fpidPort f) x

/-! ### Enabling and disabling -/

/-- The lanes of a port are enabled; a device-facing port whose removal PORT_ENABLE ordered goes to INSERTION, its PERST_N released where
R119 allows it; so does a rear one that starts up, for its lanes take the place of a cage's power (R117, R136, R270, R521). -/
def Dev.enablePort (d : Dev) (p : Nat) : Dev :=
  let d := d.when ((d.portX p).ordered && d.deviceFacing p) fun d =>
    let d := (d.insertion p).setPortX p fun x => { x with ordered := false }
    d.forEach ((d.cagesOf p).filter d.perstDue) fun d c => d.releasePerst c
  let d := d.when (rearLane p && d.deviceFacing p && (d.lanesOf p).all fun n => d.laneState n == 0) (·.insertion p)
  d.forEach (d.lanesOf p) fun d n => d.enableLane n

/-- The lanes of a port go OFF (R117, R376): a fabric link is withdrawn; a trained upstream port hot-resets its Vitrine; a trained
device-facing port is contained with cause REMOVAL. -/
def Dev.disablePort (d : Dev) (p : Nat) : Dev :=
  let was := d.trained p
  let d := d.forEach (d.lanesOf p) fun d n => d.disableLane n
  if d.fabricPort p then d.when (d.linkState p != 0) (·.linkDown p 0)
  else if !was then d
  else
    let d := d.linkFalls p 0
    if d.hostFacing p then
      match d.vitrineOfPort p with
      | some lv => d.hotReset lv
      | none => d
    else
      let d := d.when (d.aloneInCage p) fun d => d.forEach (d.cagesOf p) fun d c => d.setPerst c true
      (d.remove p true).setPortX p fun x => { x with ordered := true }

/-- PORT_ENABLE (R117). -/
def execPortEnable (h : CmdHdr) (fpid : Word) (on : Byte) (s : State) : Host.Outcome State Fault Refusal :=
  onDev s fun d =>
    let f := fpidField fpid.toNat
    d.command h 0x0502 [1, 2] false (fpidModule f) fun d =>
      let p := fpidPort f
      if 1 < on.toNat then d.badParam h 0x0502 4
      else if !d.configured p then d.finish h 0x0502 Status.noObject
      else d.orWait h 0x0502 (Wait.holdsLanes (d.lanesOf p)) 0xFFFFFFFF fun d =>
        (if on = 1 then d.enablePort p else d.disablePort p).finish h 0x0502 Status.ok

/-! ### The rear-lane table -/

/-- EQ_TABLE_LOAD on this module (R47): the table replaces the one in EEPROM only if it is valid. -/
def loadEqTable (s : State) (h : CmdHdr) (addr length : Nat) (source : Fetch) : State :=
  let op := 0x0503
  let d := s.dev
  let image := SMap.get [] d.images 2
  let bytes := if addr = 0 then (if image = [] then none else some image) else fetched s.mem source addr length
  match bytes with
  | none => { s with dev := if addr = 0 then d.finish h op Status.noImage else d.badParam h op 0 }
  | some bs =>
    match eqTableOf bs with
    | none => { s with dev := d.finish h op Status.tableInvalid }
    | some t => { s with nv := { s.nv with eqTable := bs }, dev := ({ d with eqTable := some t }).finish h op Status.ok }

/-- EQ_TABLE_LOAD (R47). -/
def execEqTableLoad (h : CmdHdr) (addr : Nat) (length : Word) (source : Fetch) (s : State) :
    Host.Outcome State Fault Refusal :=
  stateCommand s h 0x0503 [2, 4] fun s => loadEqTable s h addr length.toNat source

/-! ### Scans and bit-slip -/

/-- MARGIN_SCAN on this module: the settings are written and the lanes scanned together (R57, R59, R376). -/
def Dev.scanLanes (d : Dev) (h : CmdHdr) (first count dwell errLimit axes hfloor vfloor : Nat) : Dev :=
  let lanes := (List.range count).map (first + ·)
  let can (n : Nat) : Bool := (d.laneState n == 6 || d.laneState n == 10) && !(d.lane n).scanning
  let refused := lanes.any fun n => !can n
  let d := d.waitFor h 0x0504 (.scan first count refused)
  let d := d.forEach lanes fun d n =>
    let d := ((d.put LNA_MRG_CTL.DWELL n dwell).put LNA_MRG_CTL.ERR_LIMIT n errLimit).put LNA_MRG_CTL.AXES n axes
    ((d.put LNA_MRG_CTL.HFLOOR n hfloor).put LNA_MRG_CTL.VFLOOR n vfloor).startScan n false
  d.endScans

/-- MARGIN_SCAN (R376). -/
def execMarginScan (h : CmdHdr) (first : Fin 65536) (count dwell errLimit axes hfloor vfloor : Byte) (s : State) :
    Host.Outcome State Fault Refusal :=
  onDev s fun d =>
    d.moduleCommand h 0x0504 [1, 2, 4] false fun d =>
      let bad := d.badParam h 0x0504
      if 512 ≤ first.val then bad 0
      else if count.toNat = 0 ∨ 16 < count.toNat ∨ 512 < first.val + count.toNat then bad 2
      else if 8 < dwell.toNat then bad 3
      else if 15 < errLimit.toNat then bad 4
      else if 3 < axes.toNat then bad 5
      else if 63 < hfloor.toNat then bad 6
      else if 63 < vfloor.toNat then bad 7
      else
        d.orWait h 0x0504 (Wait.holdsLanes ((List.range count.toNat).map (first.val + ·))) 0xFFFFFFFF fun d =>
          d.scanLanes h first count.toNat dwell.toNat errLimit.toNat axes.toNat hfloor.toNat vfloor.toNat

/-- BITSLIP: the delay is set, and LNA_ALIGN read one window after it applies (R53, R54, R376). -/
def execBitslip (h : CmdHdr) (lane : Fin 65536) (delay : Byte) (locked : Bool) (found : Fin 256) (s : State) :
    Host.Outcome State Fault Refusal :=
  onDev s fun d =>
    d.moduleCommand h 0x0505 [2] false fun d =>
      let n := lane.val
      if 512 ≤ n then d.badParam h 0x0505 0
      else if d.laneState n ≠ 3 ∧ d.laneState n ≠ 10 then d.finish h 0x0505 Status.laneState
      else
        let d := (d.setLane n fun l => { l with delay := some delay.toNat }).applyDelay n
        let d := (d.mark LNA_ALIGN.LOCKED n locked).put LNA_ALIGN.MATCH n found
        d.finish h 0x0505 Status.ok 0 [(4, 4, d.word .LNA_ALIGN n)]

/-! ### RETRAIN -/

/-- RETRAIN of a lane: FAILED, or RETIRED with UNRETIRE, goes to DETECT with ATTEMPTS 0 (R49); none once the module forwards nothing
(R30). -/
def Dev.retrainLane (d : Dev) (n : Nat) (unretire : Bool) : Dev :=
  let st := d.laneState n
  if d.halted then d else if st = 8 ∨ (st = 9 ∧ unretire) then (d.put LNA_LANE_STATE.ATTEMPTS n 0).laneDetect n else d

/-- A fundamental reset of a device-facing port: PERST_N pulsed, its endpoints contained until they pass Accession again (R117,
R270). -/
def Dev.fundamental (d : Dev) (p : Nat) : Dev :=
  let d := d.forEach (d.cagesOf p) fun d c => (d.setPerst c true).when (d.perstDue c) (·.releasePerst c)
  let o := contObj 0 p
  let d := d.when (d.contState o == 0) fun d => (d.setCont o 1 3 0).enterPort p 3 true
  let d := d.forEach (d.endpointsOfObject p) fun d e =>
    d.setEndpoint e.1 e.2 fun x => { x with accession := .none, awaitDrs := true }
  d.retrainLink p

/-- RETRAIN with FORCE starts re-equalisation at once (R63): whether a host takes it up, the die temperature at its end and the lanes it leaves
below their floors are free values (log entry 5). -/
def Dev.forceReequalise (d : Dev) (p : Nat) : Dev :=
  let (taken, d) := d.draw
  let (temp, d) := d.draw
  let (closed, d) := d.draw
  d.reequalisePort p (taken % 2 == 1) ((d.lanesOf p).filter fun n => bitOf closed (n - p)) fun _ => temp % 256

/-- RETRAIN of a port (R49, R63, R90, R117): flags FORCE, FULL, FUNDAMENTAL, UNRETIRE. -/
def Dev.retrainPort (d : Dev) (p flags : Nat) : Dev :=
  let lanes := d.lanesOf p
  let d := d.forEach lanes fun d n => d.retrainLane n (bitOf flags 3)
  if bitOf flags 2 then d.fundamental p
  else if d.fabricPort p then
    if d.linkState p ≠ 2 then d
    else if bitOf flags 1 then
      let was := (d.link p).lanes
      (d.linkDown p 0).forEach was fun d n => d.laneDetect n
    else d.askWidth p (d.get FLL_LINK_STATUS.WIDTH p) (d.link p).lanes false
  else if d.trained p then
    (if bitOf flags 0 then d.forceReequalise p else (d.emit (.linkReset p "recovery")).count (portCtr p 15) 1).resyncPort p
  else d

/-- RETRAIN (R49, R376). -/
def execRetrain (h : CmdHdr) (object : Word) (flags : Byte) (s : State) : Host.Outcome State Fault Refusal :=
  onDev s fun d =>
    let op := 0x0506
    let v := flags.toNat
    let roles := [1, 2, 4]
    if bitOf v 4 then
      d.moduleCommand h op roles false fun d =>
        if 512 ≤ object.toNat then d.badParam h op 0
        else if 32 ≤ v then d.badParam h op 4
        else d.orWait h op (Wait.holdsLanes [object.toNat]) 0xFFFFFFFF fun d => (d.retrainLane object.toNat (bitOf v 3)).finish h op Status.ok
    else
      let f := fpidField object.toNat
      d.command h op roles false (fpidModule f) fun d =>
        let p := fpidPort f
        if 32 ≤ v then d.badParam h op 4
        else if !d.configured p then d.finish h op Status.noObject
        else if bitOf v 2 && !d.deviceFacing p then d.badParam h op 4
        else d.orWait h op (Wait.holdsLanes (d.lanesOf p)) 0xFFFFFFFF fun d => (d.retrainPort p v).finish h op Status.ok

end Sys2Proof.Machine
end

