-- ==== Sys2Proof/Machine/Messages.lean ====
section
/-! DEFINITION. Messages of hosts and endpoints and link power states (R125 to R128, R137 to R139, R149, R266). -/

namespace Sys2Proof.Machine

/-! ### INTx -/

/-- An endpoint's contribution to its Vitrine's wires changes (R126). -/
def Dev.takeIntx (d : Dev) (lv k fn wire : Nat) (on : Bool) : Dev :=
  match (d.vit lv).binding k with
  | some _ => d.contribute lv (intxOfEndpoint k fn) ((wire + vdpDevice k) % 4) on
  | none => d

/-- INTX_MESSAGE: the message reaches the upstream edge (R127, R149). -/
def execIntxMessage (lvid : Fin 1024) (k : Fin 64) (fn : Fin 256) (wire : Fin 4) (assert : Bool) (s : State) :
    Host.Outcome State Fault Refusal :=
  onDev s fun d => d.takeIntx lvid k fn wire assert

/-! ### Errors endpoints report -/

/-- A virtual DPC begins (R266). -/
def Dev.virtualDpc (d : Dev) (lv : Nat) (b : Binding) : Dev :=
  (d.setVport lv b.k fun v => { v with dpcStatus := true }).refuseBinding lv b true

/-- ERR_COR, ERR_NONFATAL or ERR_FATAL (severity 0, 1, 2) of the endpoint at binding k: AER there, and DPC where the host's
trigger enable covers it: 1 fatal, 2 fatal and non-fatal (R266). -/
def Dev.endpointError (d : Dev) (lv k severity : Nat) : Dev :=
  match (d.vit lv).binding k with
  | none => d
  | some b =>
    let e := (d.vport lv k).dpcEnable
    let covered := (severity == 2 && (e == 1 || e == 2)) || (severity == 1 && e == 2)
    (d.aer lv k severity).when covered (·.virtualDpc lv b)

/-- ERROR_MESSAGE: consumed at the endpoint's port (R149, R266). -/
def execErrorMessage (port : Fin 512) (ep : Fin 128) (severity : Fin 3) (s : State) : Host.Outcome State Fault Refusal :=
  onDev s fun d =>
    match d.boundTo port ep, (d.endpoint port ep).bound with
    | some (lv, k), _ => d.endpointError lv k severity
    | none, some b => d.tell (fpidModule b.up) (.report "endpoint error" [b.gvh, b.k, severity.val])
    | none, none => d

/-- A host clears DPC Trigger Status: the virtual DPC ends (R266). -/
def Dev.clearDpc (d : Dev) (lv k : Nat) : Dev :=
  if !(d.vport lv k).dpcStatus then d
  else
    let d := d.setVport lv k fun v => { v with dpcStatus := false }
    match (d.vit lv).binding k with
    | some b => d.when (d.get VIT_STATE.STATE lv == 2 && !b.unbinding) (·.refuseBinding lv b false)
    | none => d

/-- DPC_TRIGGER_STATUS_CLEAR (R266). -/
def execDpcTriggerStatusClear (lvid : Fin 1024) (k : Fin 64) (s : State) : Host.Outcome State Fault Refusal :=
  onDev s fun d => d.clearDpc lvid k

/-! ### PME -/

/-- A binding's endpoint alone occupies its physical downstream port (R118, R125, R157). -/
def Dev.bindingAlone (d : Dev) (b : Binding) : Bool := (d.placeAt b).alone

/-- A link goes to L2/L3 Ready once PME_TO_Ack has passed on it (R107, R125). -/
def Dev.linkReady (d : Dev) (p : Nat) : Dev := (d.put PRT_PORT_STATUS.LINK_PM p 5).put PRT_PORT_STATUS.LTSSM p 6

/-- PME_TO_Ack goes to the host of port p, whose link is then L2/L3 Ready (R125). -/
def Dev.sendPmeToAck (d : Dev) (p : Nat) : Dev := (d.emit (.pmeToAck p)).linkReady p

/-- PME_TURN_OFF: forwarded to the endpoints alone on their ports; with none, acknowledged at once (R125). -/
def execPmeTurnOff (port : Fin 512) (s : State) : Host.Outcome State Fault Refusal :=
  onDev s fun d =>
    match d.vitrineOfPort port with
    | none => d
    | some lv =>
      let bs := (d.vit lv).bindings.filter d.bindingAlone
      if bs.isEmpty then d.sendPmeToAck port
      else
        let d := d.setVit lv fun v => { v with pmeWait := some (bs.map (·.k)) }
        d.forEach bs fun d b =>
          if fpidModule b.fpid = d.moduleId then d.emit (.pmeTurnOff (fpidPort b.fpid))
          else d.tell (fpidModule b.fpid) (.report "PME_Turn_Off" [b.fpid])

/-- PME_TO_ACK: once every endpoint has acknowledged, PME_TO_Ack goes upstream (R125). -/
def execPmeToAck (lvid : Fin 1024) (k : Fin 64) (s : State) : Host.Outcome State Fault Refusal :=
  onDev s fun d =>
    let lv := lvid.val
    match (d.vit lv).pmeWait with
    | none => d
    | some ks =>
      let rest := ks.filter (· ≠ k.val)
      let d := d.setVit lv fun v => { v with pmeWait := if rest = [] then none else some rest }
      let d := match (d.vit lv).binding k with
        | some b => d.when (fpidModule b.fpid == d.moduleId) (·.linkReady (fpidPort b.fpid))
        | none => d
      d.when rest.isEmpty (·.sendPmeToAck (d.get VIT_PORT.UPORT lv))

/-- PME_TO_ACK_TIMEOUT: PME_TO_Ack goes upstream, and PME_TO_LATE is set for each late endpoint (R125). -/
def execPmeToAckTimeout (lvid : Fin 1024) (s : State) : Host.Outcome State Fault Refusal :=
  onDev s fun d =>
    let lv := lvid.val
    match (d.vit lv).pmeWait with
    | none => d
    | some ks =>
      let late := (d.vit lv).bindings.filter fun b => ks.contains b.k
      let d := (d.setVit lv fun v => { v with pmeWait := none }).sendPmeToAck (d.get VIT_PORT.UPORT lv)
      d.forEach late fun d b =>
        let p := fpidPort b.fpid
        if fpidModule b.fpid = d.moduleId then
          d.raise PRT_EVENTS.PME_TO_LATE p { d.portEv p with gvh := d.gvh lv }
        else d.tell (fpidModule b.fpid) (.report "PME_TO_LATE" [b.fpid])

/-! ### LTR -/

/-- LTR in force shown when every value that applies is unlimited. -/
def ltrUnlimited : Nat := 0x3FFFFFF

/-- The latest LTR values of endpoints that have sent one; none is unlimited (R137). -/
def Dev.ltrOf (d : Dev) (es : List (Nat × Nat)) : List (Option Nat) :=
  (es.filter fun e => (d.endpoint e.1 e.2).ltrSeen).map fun e => (d.endpoint e.1 e.2).ltr

/-- The host-written maxima of a Vitrine, where its LTR Mechanism Enable is set. -/
def Dev.ltrOfHost (d : Dev) (lv : Nat) : List (Option Nat) :=
  match (d.vit lv).hostLtr with
  | some n => [some n]
  | none => []

/-- The latest LTR values of a Vitrine's endpoints, those of other modules as they were told (R137). -/
def Dev.ltrOfBindings (d : Dev) (lv : Nat) : List (Option Nat) :=
  (d.vit lv).bindings.filterMap fun b =>
    if fpidModule b.fpid = d.moduleId then
      let x := d.endpoint (fpidPort b.fpid) b.ep
      if x.ltrSeen then some x.ltr else none
    else b.farLtr

/-- The host-written maxima of the Vitrine an endpoint is bound to, here or on another module (R137). -/
def Dev.ltrOfBound (d : Dev) (b : EpBind) : List (Option Nat) :=
  match d.lvidOf b.gvh with
  | some lv => d.ltrOfHost lv
  | none => b.hostLtr.toList.map some

/-- The values that apply to a port (R137). -/
def Dev.ltrApplied (d : Dev) (p : Nat) : List (Option Nat) :=
  match d.vitrineOfPort p with
  | some lv => d.ltrOfHost lv ++ d.ltrOfBindings lv
  | none =>
    d.ltrOf ((d.endpointsOf p).map fun e => (p, e)) ++
      ((d.endpointsOf p).filterMap fun e => (d.endpoint p e).bound).flatMap d.ltrOfBound

/-- The smallest of the values, none when all are unlimited. -/
def leastLtr (vs : List (Option Nat)) : Option Nat := (vs.filterMap id).min?

/-- PRT_LTR shows the LTR in force; one of a Vitrine that falls below 2 ms is a wake event (R137, R495). -/
def Dev.showLtr (d : Dev) (p : Nat) : Dev :=
  let vs := d.ltrApplied p
  let us := match leastLtr vs with
    | some ns => min (ns / 1000) ltrUnlimited
    | none => if vs.isEmpty then 0 else ltrUnlimited
  let before := if d.is PRT_LTR.NONE p then ltrUnlimited else d.get PRT_LTR.LTR_US p
  let d := (d.mark PRT_LTR.NONE p vs.isEmpty).put PRT_LTR.LTR_US p us
  d.when (!vs.isEmpty && (d.vitrineOfPort p).isSome && decide (2000 ≤ before) && decide (us < 2000)) (·.noteWake 1)

/-- The LTR in force for a port in ns (R137). -/
def Dev.ltrInForce (d : Dev) (p : Nat) : Option Nat :=
  let vs := d.ltrApplied p
  if vs.isEmpty then some 0 else leastLtr vs

/-- The value reported upstream of a Vitrine in ns, at most what its host allows (R138); none is unlimited. -/
def Dev.ltrReport (d : Dev) (lv : Nat) : Option Nat :=
  (leastLtr (d.ltrOfBindings lv)).map fun ns =>
    let v := ns - d.get PRT_PM_CFG.LTR_BUDGET (d.get VIT_PORT.UPORT lv)
    ltrNs (ltrEncode (match (d.vit lv).hostLtr with
      | some m => min v m
      | none => v))

/-- A changed value is sent upstream, at most once in 100 µs (R138). -/
def Dev.sendLtr (d : Dev) (lv : Nat) : Dev :=
  let p := d.get VIT_PORT.UPORT lv
  let v := d.ltrReport lv
  let due : Bool := match (d.vit lv).ltrAt with
    | some t => decide (usTicks 100 ≤ sinceTicks t d.now)
    | none => true
  if v ≠ (d.vit lv).ltrSent ∧ due then
    ((d.setVit lv fun x => { x with ltrSent := v, ltrAt := some d.now }).emit (.ltr p v)).count (portCtr p 79) 1
  else d

/-- LTR_MESSAGE: an endpoint's latency tolerance, unlimited when its Requirement bit is clear (R137, R149); of an endpoint on another module
as that module tells it to the Vitrine's. -/
def execLtrMessage (fpid : Fin 4194304) (ep : Fin 128) (required : Bool) (ns : Nat) (s : State) :
    Host.Outcome State Fault Refusal :=
  onDev s fun d =>
    let p := fpidPort fpid
    let v : Option Nat := if required then some ns else none
    let told (d : Dev) (lv : Nat) : Dev := (d.showLtr (d.get VIT_PORT.UPORT lv)).sendLtr lv
    if fpidModule fpid = d.moduleId then
      let d := (d.setEndpoint p ep fun x => { x with ltr := v, ltrSeen := true }).showLtr p
      match d.boundTo p ep, (d.endpoint p ep).bound with
      | some (lv, _), _ => told d lv
      | none, some b => d.tell (fpidModule b.up) (.report "LTR" [b.gvh, b.k, bitVal required, ns])
      | none, none => d
    else
      d.forEach (d.bindingsTo fpid (· == ep.val)) fun d b => told (d.setBinding b.1 b.2 fun x => { x with farLtr := some v }) b.1

/-- LTR_UPSTREAM_SEND: a change held back by the 100 µs interval goes at its end (R138). -/
def execLtrUpstreamSend (port : Fin 512) (s : State) : Host.Outcome State Fault Refusal :=
  onDev s fun d =>
    match d.vitrineOfPort port with
    | some lv => d.sendLtr lv
    | none => d

/-- MESSAGE_DISCARDED: a message the handling table does not name (R149). -/
def execMessageDiscarded (port : Fin 512) (s : State) : Host.Outcome State Fault Refusal :=
  onDev s fun d => d.record 0x0481 (d.portEv port)

/-! ### Link power states -/

/-- Module exit latency in ns of L1.0, L1.1 and L1.2 (R139). -/
def l1ExitNs (substate : Nat) : Nat := if substate = 0 then 8000 else if substate = 1 then 32000 else 120000

/-- The deepest L1 substate enabled by the link partner (bit 0 L1.0, 1 L1.1, 2 L1.2), allowed by PRT_PM_CFG, and whose exit fits the LTR
in force (R139). In ACTIVE only L1.0 is (R491). -/
def Dev.l1Substate (d : Dev) (p enabled : Nat) : Option Nat :=
  let allowed (n : Nat) : Bool :=
    d.is PRT_PM_CFG.L1_EN p && (n == 0 || (d.get PWR_PS_STATUS.STATE 0 != 0 &&
      ((n == 1 && d.is PRT_PM_CFG.L11_EN p) || (n == 2 && d.is PRT_PM_CFG.L12_EN p))))
  let fits (n : Nat) : Bool := match d.ltrInForce p with
    | some ns => decide (l1ExitNs n + d.get PRT_PM_CFG.LTR_BUDGET p ≤ ns)
    | none => true
  [2, 1, 0].find? fun n => bitOf enabled n && allowed n && fits n

/-- The link enters L1 in a substate. -/
def Dev.enterL1 (d : Dev) (p n : Nat) : Dev :=
  ((d.put PRT_PORT_STATUS.LINK_PM p (2 + n)).put PRT_PORT_STATUS.LTSSM p 5).count (portCtr p 77) 1

/-- ASPM_L1_IDLE_TIMER: an idle upstream port requests L1 when its host has enabled it (R139). -/
def execAspmL1IdleTimer (port : Fin 512) (enabled : Fin 8) (s : State) : Host.Outcome State Fault Refusal :=
  onDev s fun d =>
    let p := port.val
    match d.vitrineOfPort p with
    | none => d
    | some lv =>
      if !(d.vit lv).aspmL1 || !d.is PRT_PORT_STATUS.DL_ACTIVE p then d
      else match d.l1Substate p enabled with
        | some n => d.enterL1 p n
        | none => d

/-- ENDPOINT_L1_REQUEST: accepted with a substate, or refused with PM_Active_State_Nak and L1_REFUSED (R139). -/
def execEndpointL1Request (port : Fin 512) (enabled : Fin 8) (s : State) : Host.Outcome State Fault Refusal :=
  onDev s fun d =>
    let p := port.val
    if !d.deviceFacing p then d
    else match d.l1Substate p enabled with
      | some n => d.enterL1 p n
      | none =>
        ((d.emit (.linkReset p "PM_Active_State_Nak")).count (portCtr p 78) 1).raise PRT_EVENTS.L1_REFUSED p (d.portEv p)

/-- L0P_EVALUATION: below 20 % of full width a Flit Mode link whose ends support L0p narrows to half width; above 35 % it is
restored; `util` is in tenths of a percent of full width (R139); not in ACTIVE (R491). -/
def execL0pEvaluation (port : Fin 512) (util : Fin 1001) (supported : Bool) (s : State) : Host.Outcome State Fault Refusal :=
  onDev s fun d =>
    let p := port.val
    let pm := d.get PRT_PORT_STATUS.LINK_PM p
    if d.fabricPort p || !d.is PRT_PORT_STATUS.FLIT p || !d.is PRT_PORT_STATUS.DL_ACTIVE p then d
    else if pm = 0 ∧ d.get PWR_PS_STATUS.STATE 0 ≠ 0 ∧ d.is PRT_PM_CFG.L0P_EN p ∧ supported ∧ util.val < 200 ∧ 1 ≤ d.get PRT_PORT_STATUS.WIDTH p then
      (d.put PRT_PORT_STATUS.LINK_PM p 1).count (portCtr p 76) 1
    else if pm = 1 ∧ 350 < util.val then d.put PRT_PORT_STATUS.LINK_PM p 0
    else d

end Sys2Proof.Machine
end

