-- ==== Sys2Proof/Machine/Tracker.lean ====
section
/-! DEFINITION. Completions, timeouts, late completions and locked sequences at the edges (R25, R130, R132, R157 to R160, R253,
R257, R273 to R276). -/

namespace Sys2Proof.Machine

/-! ### What a completion meets -/

/-- The completer-edge entry whose substituted tag toward port p a completion carries (R25). -/
def Dev.matchEntry (d : Dev) (p tag : Nat) : Option (Nat × Trk) :=
  d.trk.find? fun e => e.2.edge != .requester && e.2.dst == d.fpid p && e.2.subTag == tag

/-- A quarantined tag toward port p (R274). -/
def Dev.matchHold (d : Dev) (p tag : Nat) : Option TagHold := d.tagHolds.find? fun h => h.port == p && h.subTag == tag

/-- A late record a completion from a completer port matches (R275). -/
def Dev.matchLate (d : Dev) (src requester tag : Nat) : Option LateRec :=
  d.lates.find? fun l => l.completer == src && l.requester == requester && l.tag == tag

/-- The binding of a handle's Vitrine here to a port, if it has one. -/
def Dev.bindingAt (d : Dev) (gvh fpid : Nat) : Option (Nat × Nat) :=
  (d.lvidOf gvh).bind fun lv => ((d.vit lv).bindings.find? fun b => b.fpid == fpid).map fun b => (lv, b.k)

/-- An Unexpected Completion from a port is reported on the AER of the virtual port where its endpoint is bound (R274). -/
def Dev.aerFrom (d : Dev) (gvh fpid : Nat) : Dev :=
  match d.bindingAt gvh fpid with
  | some (lv, k) => d.aer lv k 1
  | none => d

/-- A completion for a squashed entry is dropped and counted, with at most one record per Vitrine in each millisecond (R253). -/
def Dev.dropSquashed (d : Dev) (gvh : Nat) : Dev :=
  (match d.lvidOf gvh with
   | some lv => d.count (vitCtr lv 8) 1
   | none => d).recordLimited (0x0882 + 65536 * gvh) (msTicks 1) 0x0882 { gvh := gvh }

/-- A late completion is dropped and recorded with its delay past the deadline (R274, R275). -/
def Dev.recordLate (d : Dev) (p gvh handle fpid deadline : Nat) (b : Body) : Dev :=
  let d := d.count (portCtr p 69) 1
  let d := match d.lvidOf gvh with
    | some lv => d.count (vitCtr lv 7) 1
    | none => d
  (d.aerFrom gvh fpid).record 0x0A63
    { d.portEv p with
      cls := 2
      gvh := gvh
      object := handle
      detail := leBytes 8 (sinceTicks deadline d.now / 16) ++ leBytes 2 (bodyRequester b) ++ leBytes 2 (bodyTag b) }

/-- A completion that matches nothing is dropped and recorded (R276). -/
def Dev.recordUnexpected (d : Dev) (p gvh src : Nat) (b : Body) : Dev :=
  ((d.count (portCtr p 70) 1).aerFrom gvh src).record 0x0A64
    { d.portEv p with
      cls := 2
      gvh := gvh
      detail := leBytes 2 (bodyRequester b) ++ leBytes 2 (bodyTag b) ++ leBytes 4 src }

/-- The handle of the endpoint bound on port p, for what names no entry. -/
def Dev.handleAt (d : Dev) (p : Nat) : Nat :=
  match ((d.endpointsOf p).filterMap fun e => (d.endpoint p e).bound).head? with
  | some b => b.gvh
  | none => match d.vitrineOfPort p with
    | some lv => d.gvh lv
    | none => 0xFFFFFFFF

/-- A completion that matches no entry (R274, R276): a quarantined tag's, or unexpected. -/
def Dev.strayCompletion (d : Dev) (p : Nat) (b : Body) : Dev :=
  match d.matchHold p (bodyTag b) with
  | some h => if h.squashed then d.dropSquashed h.gvh else d.recordLate p h.gvh h.handle (d.fpid p) h.deadline b
  | none => d.recordUnexpected p (d.handleAt p) (d.fpid p) b

/-- A completion that came over the fabric and matches no entry (R275, R276). -/
def Dev.strayFrame (d : Dev) (p src gvh : Nat) (b : Body) : Dev :=
  match d.matchLate src (bodyRequester b) (bodyTag b) with
  | some l =>
    let d := { d with lates := d.lates.filter fun x => x != l }
    (d.recordLate p l.gvh l.handle src l.deadline b).retryHeld
  | none => d.recordUnexpected p gvh src b

/-! ### Completions -/

/-- A locked completion moves the semaphore of its port: with data to HELD, without to FREE (R158). -/
def Dev.lockCompletion (d : Dev) (p : Nat) (withData : Bool) : Dev :=
  if d.get EBR_LOCK.STATE p ≠ 1 then d
  else if withData then d.put EBR_LOCK.STATE p 2
  else d.freeLock p

/-- The lock follows the completion a body is. -/
def Dev.lockFollows (d : Dev) (p : Nat) (b : Body) : Dev :=
  match b with
  | .tlp t => if t.kind = .cplDataLocked then d.lockCompletion p true
    else if t.kind = .cplLocked then d.lockCompletion p false else d
  | _ => d

/-- A body whose completer ID is the host's view of it (R218). -/
def Dev.bodyToHost (d : Dev) (p : Nat) (b : Body) : Body :=
  match b with
  | .tlp t => .tlp { t with completer := d.hostId p t.completer t.ldId }
  | b => b

/-- A completion arrives from the link partner of port p: dropped for a squashed entry, else forwarded with its tag restored; the
last part frees the entry (R25, R253, R257). -/
def Dev.takeCompletion (d : Dev) (p : Nat) (b : Body) : Dev :=
  match d.matchEntry p (bodyTag b) with
  | none => d.strayCompletion p b
  | some (h, e) =>
    if e.squashed then ((d.freeEntry h).dropSquashed e.gvh).retryHeld
    else
      let d := (d.lockFollows p b).when (bodyFinal b) (·.freeEntry h)
      d.sendBack p e (d.bodyToHost p b)

/-- The completion is taken, or held by an injected fault for its stated time (R281, point 7). -/
def Dev.receiveCompletion (d : Dev) (p : Nat) (b : Body) : Dev :=
  match d.injections.find? fun i => i.point == 7 && i.target == d.fpid p with
  | some i =>
    ({ d with heldCpls := d.heldCpls ++ [(⟨p, b, d.now + usTicks i.argument⟩ : HeldCpl)] }).consume 7
  | none => d.takeCompletion p b

/-- Completions an injected fault holds go once their time has passed; what they cause is marked INJECTED (R281). -/
def Dev.releaseDue (d : Dev) : Dev :=
  let due := d.heldCpls.filter fun (h : HeldCpl) => decide (h.due ≤ d.now)
  if due.isEmpty then d
  else
    let d := { d with heldCpls := d.heldCpls.filter fun (h : HeldCpl) => !decide (h.due ≤ d.now) }
    d.forEach due fun d h => { Dev.takeCompletion { d with injecting := true } h.port h.body with injecting := d.injecting }

/-- COMPLETION_RECEIVED (R257). -/
def execCompletionReceived (port : Fin 512) (body : Body) (s : State) : Host.Outcome State Fault Refusal :=
  onDev s fun d => d.receiveCompletion port body

/-- LATE_COMPLETION: carries the quarantined tag of an entry that timed out OPEN, or matches a late record (R274, R275). -/
def execLateCompletion (port : Fin 512) (source : Option (Fin 4194304)) (body : Body) (s : State) :
    Host.Outcome State Fault Refusal :=
  onDev s fun d =>
    let p := port.val
    match source with
    | none => d.when (d.matchHold p (bodyTag body)).isSome (·.strayCompletion p body)
    | some src =>
      d.when (d.matchLate src (bodyRequester body) (bodyTag body)).isSome (·.strayFrame p src (d.handleAt p) body)

/-- UNEXPECTED_COMPLETION: matches no entry, no quarantined tag and no late record (R276). -/
def execUnexpectedCompletion (port : Fin 512) (source : Option (Fin 4194304)) (body : Body) (s : State) :
    Host.Outcome State Fault Refusal :=
  onDev s fun d =>
    let p := port.val
    match source with
    | none =>
      d.when ((d.matchEntry p (bodyTag body)).isNone && (d.matchHold p (bodyTag body)).isNone) fun d =>
        d.recordUnexpected p (d.handleAt p) (d.fpid p) body
    | some src =>
      d.when (d.matchLate src (bodyRequester body) (bodyTag body)).isNone (·.recordUnexpected p (d.handleAt p) src body)

/-! ### Deadlines -/

/-- How long a late record is kept: min(5 × the class age limit, 100 ms) (R275). -/
def Dev.lateTicks (d : Dev) (c : Cls) : Nat := min (usTicks (5 * d.ageLimitUs c)) (msTicks 100)

/-- The substituted tag of an entry is quarantined for its value or 1 s, whichever is shorter (R274). -/
def Dev.quarantine (d : Dev) (h : Nat) (e : Trk) : Dev :=
  let p := fpidPort e.dst
  let hold : TagHold :=
    { port := p, subTag := e.subTag, handle := h, gvh := e.gvh, squashed := e.squashed, deadline := d.now,
      until_ := d.now + min (d.ctoOf e.gvh 0) (msTicks 1000) }
  ({ d with tagHolds := d.tagHolds ++ [hold] }).count (portCtr p 91) 1

/-- An OPEN entry times out at its requester edge (R130, R275): the record, the AER of its virtual port, the completion unless the Vitrine
is silent, and the late record. -/
def Dev.timeOut (d : Dev) (h : Nat) (e : Trk) : Dev :=
  let p := fpidPort e.src
  let d := d.count (portCtr p 66) 1
  let d := match d.lvidOf e.gvh with
    | some lv => (d.count (vitCtr lv 6) 1).aer lv e.k 1
    | none => d
  let d := d.record 0x0980 { d.portEv p with cls := 2, gvh := e.gvh, object := h }
  let silent : Bool := match d.lvidOf e.gvh with
    | some lv => (d.vit lv).silent
    | none => (d.endpoints.filterMap fun e => e.2.bound).any fun b => b.gvh == e.gvh && b.silent
  let late : LateRec :=
    { completer := e.dst, requester := e.requester, tag := e.tag, handle := h, gvh := e.gvh, deadline := d.now,
      until_ := d.now + d.lateTicks e.cls }
  ({ d with lates := d.lates ++ [late] }).when (!silent) (·.answerEntry e 4)

/-- An entry reaches its deadline and is freed, by its edge and state (R130, R253, R273, R274). -/
def Dev.deadline (d : Dev) (h : Nat) : Dev :=
  match SMap.find d.trk h with
  | none => d
  | some e =>
    let d := d.freeEntry h
    let d := d.when (e.edge != .requester) (·.quarantine h e)
    (d.when (e.edge != .completer && !e.squashed) (·.timeOut h e)).retryHeld

/-- TRACKER_DEADLINE (R273). -/
def execTrackerDeadline (handle : Fin 262144) (s : State) : Host.Outcome State Fault Refusal :=
  onDev s fun d => d.underInjection 13 handle fun d => d.deadline handle

/-- TAG_QUARANTINE_EXPIRY: the tag returns to use (R274). -/
def execTagQuarantineExpiry (port : Fin 512) (tag : Nat) (s : State) : Host.Outcome State Fault Refusal :=
  onDev s fun d =>
    Dev.retryHeld { d with tagHolds := d.tagHolds.filter fun h => !(h.port == port.val && h.subTag == tag) }

/-- LATE_RECORD_EXPIRY: the record ends, and requests that reuse its tag go (R275). -/
def execLateRecordExpiry (completer : Fin 4194304) (requester : Fin 65536) (tag : Nat) (s : State) :
    Host.Outcome State Fault Refusal :=
  onDev s fun d =>
    Dev.retryHeld { d with lates := d.lates.filter fun l =>
      !(l.completer == completer.val && l.requester == requester.val && l.tag == tag) }

/-! ### Locked sequences -/

/-- A locked read may be accepted at port p (R157): a PCIe downstream port with a single endpoint. -/
def Dev.lockable (d : Dev) (p : Nat) : Bool := d.get PRT_PORT_CFG.KIND p == 2 && d.aloneOn p

/-- An MRdLk reaches the destination edge of port p (R158): a FREE port takes the semaphore; one R157 lets not proceed completes with
Unsupported Request toward its requester, and LOCK_REFUSED is set; another source's is blocked until the lock is free (R159). -/
def Dev.takeMrdlk (d : Dev) (p src gvh : Nat) (cls : Cls) (t : Tlp) : Dev :=
  let e := (d.endpointsOf p).head?
  if !d.lockable p then
    let d := match d.trk.find? fun e => e.2.edge != .requester && e.2.src == src && e.2.dst == d.fpid p && e.2.subTag == t.tag with
      | some e => (d.freeEntry e.1).inject p
          (edgeFrame (d.fpid p) src gvh cls (.tlp (completionFor true e.2.requester e.2.tag 1))) none
      | none => d.inject p (edgeFrame (d.fpid p) src gvh cls (.tlp (completionFor true t.requester t.tag 1))) none
    ((d.count (portCtr p 67) 1).count (portCtr p 86) 1).raise EBR_EVENTS.LOCK_REFUSED p { d.portEv p with gvh := gvh }
  else if d.get EBR_LOCK.STATE p = 0 then
    let d := (d.put EBR_LOCK.STATE p 1).put EBR_LOCK.OWNER p gvh
    let d := { d with lockSrc := SMap.set 0 d.lockSrc p src, lockSince := SMap.insert (SMap.erase d.lockSince p) p d.now }
    (d.count (portCtr p 84) 1).linkTlp p e t
  else if SMap.get 0 d.lockSrc p = src then d.linkTlp p e t
  else { d with egress := d.egress ++ [(p, edgeFrame src (d.fpid p) gvh cls (.tlp t))] }

/-- MRDLK: an MRdLk from a Vitrine's upstream port reaches the destination edge (R158). -/
def execMrdlk (port : Fin 512) (src : Fin 4194304) (gvh : Fin 8388608) (t : Tlp) (s : State) :
    Host.Outcome State Fault Refusal :=
  onDev s fun d => d.takeMrdlk port src gvh .l { t with kind := .memReadLocked }

/-- CPLDLK: a locked completion, with data or without, comes back to a locked port and is forwarded (R158). -/
def execCpldlk (port : Fin 512) (t : Tlp) (withData : Bool) (s : State) : Host.Outcome State Fault Refusal :=
  onDev s fun d => d.takeCompletion port (.tlp { t with kind := if withData then .cplDataLocked else .cplLocked })

/-- An Unlock reaches the destination edge (R158, R160). -/
def Dev.takeUnlock (d : Dev) (p gvh : Nat) : Dev :=
  if d.get EBR_LOCK.STATE p ≠ 0 ∧ d.get EBR_LOCK.OWNER p = gvh then (d.emit (.unlock p)).freeLock p else d

/-- UNLOCK (R158). -/
def execUnlock (port : Fin 512) (gvh : Fin 8388608) (s : State) : Host.Outcome State Fault Refusal :=
  onDev s fun d => d.takeUnlock port gvh

/-- LOCK_TIMER_EXPIRY: the lock is broken after 10 ms (R158). -/
def execLockTimerExpiry (port : Fin 512) (s : State) : Host.Outcome State Fault Refusal :=
  onDev s fun d =>
    let p := port.val
    if d.get EBR_LOCK.STATE p = 0 then d
    else
      let owner := d.get EBR_LOCK.OWNER p
      let d := (d.emit (.unlock p)).count (portCtr p 85) 1
      let d := match d.lvidOf owner with
        | some lv => d.count (vitCtr lv 35) 1
        | none => d
      (d.raise EBR_EVENTS.LOCK_BROKEN p { d.portEv p with gvh := owner }).freeLock p

/-- LOCK_SIDE_LIST_MOVE: blocked requests at the head of a queue go to the side list (R159). -/
def execLockSideListMove (queue : Fin 65536) (s : State) : Host.Outcome State Fault Refusal :=
  onDev s fun d => d.sideMove (d.queue queue).frames.length queue

end Sys2Proof.Machine
end

