-- ==== Sys2Proof/Machine/PortEvents.lean ====
section
/-! DEFINITION. Resets, removal and insertion, sideband signals and BARs (R117 to R122, R134 to R142, R151, R152, R216). -/

namespace Sys2Proof.Machine

/-! ### Endpoint resets -/

/-- DRS_RECEIVED: configuration requests to the reset endpoint, or to what a reset link brings, begin (R122). -/
def execDrsReceived (port : Fin 512) (ep : Fin 128) (s : State) : Host.Outcome State Fault Refusal :=
  onDev s fun d =>
    (d.setPortX port fun x => { x with awaitDrs := false }).setEndpoint port ep fun x => { x with awaitDrs := false }

/-- DRS_WAIT_EXPIRY: they begin anyway (R122). -/
def execDrsWaitExpiry (port : Fin 512) (s : State) : Host.Outcome State Fault Refusal :=
  onDev s fun d =>
    let d := d.setPortX port fun x => { x with awaitDrs := false }
    d.forEach (d.endpointsOf port) fun d e => d.setEndpoint port e fun x => { x with awaitDrs := false }

/-- RRS_RETRY_LIMIT: an endpoint that still answers RRS fails Accession (R122). -/
def execRrsRetryLimit (port : Fin 512) (ep : Fin 128) (s : State) : Host.Outcome State Fault Refusal :=
  onDev s fun d => d.accessionFails port ep 3

/-- PENDING_ENDPOINT_RESET (R118). -/
def execPendingEndpointReset (port : Fin 512) (s : State) : Host.Outcome State Fault Refusal :=
  onDev s fun d => d.applyPending port

/-- DEVICE_PERST_RELEASE: 100 ms after power-good, or after a rear group's lanes are enabled, PERST_N of a device-facing cage is
released (R119, R521), but not of one whose ports PORT_ENABLE holds off (R117). -/
def execDevicePerstRelease (cage : Fin 64) (s : State) : Host.Outcome State Fault Refusal :=
  onDev s fun d =>
    let c := cage.val
    let ports := d.portsInCage c
    let powered : Bool := if c < 56 then d.is EF_STATUS.PG c
      else (List.range 8).any fun i => d.is LNA_LANE_CFG.ENABLE (c * 8 + i)
    if powered && ports.any d.deviceFacing && !ports.all fun p => (d.portX p).ordered then d.releasePerst c else d

/-! ### Resets from the host's side -/

/-- The upstream port whose PERST_N a cage carries: a host-facing one alone in it (R120). -/
def Dev.perstPort (d : Dev) (c : Nat) : Option Nat :=
  match d.portsInCage c with
  | [p] => if d.hostFacing p && d.aloneInCage p then some p else none
  | _ => none

/-- The Vitrine of an upstream port is hot-reset (R117). -/
def Dev.hotResetPort (d : Dev) (p : Nat) : Dev :=
  match d.vitrineOfPort p with
  | some lv => d.hotReset lv
  | none => d

/-- HOST_PERST_ASSERTED: the port is held in Detect, its Vitrine hot-reset (R120). -/
def execHostPerstAsserted (cage : Fin 64) (s : State) : Host.Outcome State Fault Refusal :=
  onDev s fun d =>
    match d.perstPort cage with
    | none => d
    | some p =>
      let d := (d.retrainLink p).setPortX p fun x => { x with hostPerst := true }
      (d.emit (.linkReset p "held in Detect")).hotResetPort p

/-- HOST_PERST_RELEASE: the port may leave Detect (R120). -/
def execHostPerstRelease (cage : Fin 64) (s : State) : Host.Outcome State Fault Refusal :=
  onDev s fun d =>
    match d.perstPort cage with
    | none => d
    | some p =>
      let d := d.setPortX p fun x => { x with hostPerst := false }
      d.forEach ((d.lanesOf p).filter fun n => d.laneState n == 1) fun d n => d.emit (.signal "detect" [n])

/-- HOT_RESET_RECEIVED: Hot Reset state, then the port retrains; its Vitrine is hot-reset (R117). -/
def execHotResetReceived (port : Fin 512) (s : State) : Host.Outcome State Fault Refusal :=
  onDev s fun d =>
    let p := port.val
    d.when (d.hostFacing p) fun d => ((d.emit (.linkReset p "Hot Reset")).retrainLink p).hotResetPort p

/-- UPSTREAM_DL_ACTIVE_LOST: an unrequested loss: the port retrains and its Vitrine is hot-reset (R117). -/
def execUpstreamDlActiveLost (port : Fin 512) (s : State) : Host.Outcome State Fault Refusal :=
  onDev s fun d =>
    let p := port.val
    d.when (d.hostFacing p) fun d => (d.retrainLink p).hotResetPort p

/-- UPSTREAM_DL_ACTIVE: a CREATED Vitrine is presented (R249); a DRS that waited for the link goes (R142). -/
def execUpstreamDlActive (port : Fin 512) (s : State) : Host.Outcome State Fault Refusal :=
  onDev s fun d =>
    let p := port.val
    if !d.hostFacing p then d
    else
      let d := d.put PRT_PORT_STATUS.DL_ACTIVE p 1
      let d := d.when (d.owesDrs.contains p) fun d => ({ d with owesDrs := d.owesDrs.filter (· ≠ p) }).emit (.drs p)
      match d.vitrineOfPort p with
      | some lv => d.when (d.get VIT_STATE.STATE lv == 1 && d.edgeUsable p) (·.present lv)
      | none => d

/-- RRS_EXPIRED: no Vitrine within 60 s: Unsupported Request from now on (R142). -/
def execRrsExpired (port : Fin 512) (s : State) : Host.Outcome State Fault Refusal :=
  onDev s fun d =>
    let p := port.val
    let none_ : Bool := match d.vitrineOfPort p with
      | some lv => !d.presented lv
      | none => true
    if d.hostFacing p && none_ then
      ({ d with owesDetect := d.owesDetect.filter (· ≠ p) ++ [p] }).raise PRT_EVENTS.RRS_EXPIRED p (d.portEv p)
    else d

/-! ### Sideband -/

/-- A sideband event goes from the edge of port p to the upstream edge of every Vitrine elsewhere that is bound to one of the endpoints it
concerns (R151). -/
def Dev.sendSideband (d : Dev) (p : Nat) (es : List Nat) (kind state value : Nat) : Dev :=
  let ups := ((es.filterMap fun e => (d.endpoint p e).bound).map (·.up)).filter fun u => fpidModule u != d.moduleId
  if ups.isEmpty then d
  else
    let n := SMap.get 0 d.sbSeq p
    let d := { d with sbSeq := SMap.set 0 d.sbSeq p ((n + 1) % 2 ^ 32) }
    d.forEach ups.eraseDups fun d u => d.mgmt p u (.sideband kind state value (d.fpid p) n)

/-- A binding is to an endpoint of a port; of port 447, to one behind the PCIe tunnel of a Type-C port (R152). -/
def Dev.concernedBy (d : Dev) (fpid front : Nat) (b : Binding) : Bool :=
  b.fpid == fpid && !b.unbinding && (fpidPort fpid != 447 || (d.placeAt b).object == 512 + front)

/-- What an event does to the virtual slots of the Vitrines here bound to a port, or through a tunnel (R152). -/
def Dev.sidebandEffect (d : Dev) (fpid front kind state value : Nat) : Dev :=
  let bs : List (Nat × Nat) := d.vits.flatMap fun v => (v.2.bindings.filter (d.concernedBy fpid front)).map fun b => (v.1, b.k)
  d.forEach bs fun d b =>
    if (kind = 1 ∧ state = 0) ∨ kind = 6 then d.slotGone b.1 b.2
    else if kind = 2 then d.when (state == 1) (·.slotEvent b.1 b.2 fun v => { v with attention := true })
    else if kind = 3 then d.when (state == 1) (·.slotEvent b.1 b.2 fun v => { v with powerFault := true })
    else if kind = 4 then d.setVport b.1 b.2 fun v => { v with splValue := value, splScale := state % 4 }
    else if kind = 5 then d.regainView b.1 b.2
    else d

/-- A sideband signal of a port here: to the Vitrines here and elsewhere. -/
def Dev.sideband (d : Dev) (p kind state value : Nat) : Dev :=
  (d.sidebandEffect (d.fpid p) 0 kind state value).sendSideband p (d.endpointsOf p) kind state value

/-- A sideband signal of the tunnel or the VBUS switch of Type-C port t, with the endpoints behind it (R152). -/
def Dev.sidebandOf (d : Dev) (t : Nat) (es : List Nat) (kind state value : Nat) : Dev :=
  (d.sidebandEffect (d.fpid 447) t kind state value).sendSideband 447 es kind state value

/-- SIDEBAND_FRAME: applied unless older than one already applied from its source (R151, R152). -/
def execSidebandFrame (source : Fin 4194304) (kind : Fin 256) (state value : Byte) (tag : SidebandTag) (s : State) :
    Host.Outcome State Fault Refusal :=
  onDev s fun d =>
    let src := source.val
    let n := tag.eseq.toNat
    let old : Bool := match d.sbSeen.find? fun e => e.1 == src with
      | some e => n != e.2 && decide ((e.2 + 2 ^ 32 - n) % 2 ^ 32 < 2 ^ 31)
      | none => false
    d.when (!old) fun d =>
      let seen : List (Nat × Nat) := d.sbSeen.filter (fun e => e.1 != src) ++ [(src, n)]
      ({ d with sbSeen := seen }).sidebandEffect src tag.front kind state.toNat value.toNat

/-! ### Removal and insertion -/

/-- A device-facing port is surprise-removed (R135). -/
def Dev.surprise (d : Dev) (p : Nat) (presence : Bool) : Dev :=
  let o := contObj 0 p
  let d := (d.count (portCtr p 80) 1).raise PRT_EVENTS.SURPRISE_DOWN p
    { d.portEv p with cls := 3, contained := d.contState o == 0 }
  let d := d.remove p false
  d.when presence fun d => d.sendSideband p (d.endpointsOf p) 1 0 0

/-- SURPRISE_REMOVAL: the link of a device-facing port leaves DL_Active, or presence of its cage is lost, which takes every port in
the cage (R135). -/
def execSurpriseRemoval (port : Fin 512) (presence : Bool) (s : State) : Host.Outcome State Fault Refusal :=
  onDev s fun d =>
    let p := port.val
    let all := if presence then ((d.cagesOf p).flatMap d.portsInCage).eraseDups else [p]
    let d := d.when presence fun d => (d.forEach all fun d q => d.put EBR_SIDEBAND.PRSNT q 0).noteWake 3
    d.forEach (all.filter d.deviceFacing) fun d q => d.surprise q presence

/-- PRESENCE_DEBOUNCED: HOT_INSERT is set on the ports of the cage; a removed port goes to INSERTION; the Curator's hot-plug
policy acts (R136, R270). -/
def execPresenceDebounced (cage : Fin 64) (s : State) : Host.Outcome State Fault Refusal :=
  onDev s fun d =>
    let c := cage.val
    let d := d.forEach (d.portsInCage c) fun d p =>
      let d := d.put EBR_SIDEBAND.PRSNT p 1
      if d.deviceFacing p then
        let d := (d.count (portCtr p 81) 1).raise PRT_EVENTS.HOT_INSERT p (d.portEv p)
        d.when (d.contState (contObj 0 p) == 1 && d.contCause (contObj 0 p) == 2 && !(d.portX p).ordered) (·.insertion p)
      else d
    (d.noteWake 3).emit (.signal "hot-plug policy" [c])

/-- ATTENTION_BUTTON: EBR_SIDEBAND.ATTN follows the button; held for 20 ms, Attention Button Pressed where the port alone occupies the cage,
else only a record (R152, R171). -/
def execAttentionButton (button : ButtonEvent) (s : State) : Host.Outcome State Fault Refusal :=
  onDev s fun d =>
    let ports := d.portsInCage button.cage
    let d := d.forEach ports fun d p => d.mark EBR_SIDEBAND.ATTN p !button.released
    if button.released then d
    else match ports with
      | [p] => if d.aloneInCage p then d.sideband p 2 1 0 else d.recordUncoded 0x04 .other (d.portEv p)
      | _ => d.forEach ports fun d p => d.recordUncoded 0x04 .other (d.portEv p)

/-! ### Resets by a virtual downstream port -/

/-- Link Disable of the endpoint at a binding begins: a link it has alone goes to Disabled, else the endpoint is reset (R118). -/
def Dev.linkDisable (d : Dev) (b : Binding) : Dev :=
  let p := fpidPort b.fpid
  if !d.bindingAlone b then d.resetBinding b
  else if fpidModule b.fpid = d.moduleId then (d.disableLink p).setEndpoint p b.ep fun x => { x with linkDisabled := true }
  else d.tell (fpidModule b.fpid) (.report "Link Disable" [b.fpid, 1])

/-- The host clears Link Disable: the link leaves Disabled (R118). -/
def Dev.linkEnable (d : Dev) (b : Binding) : Dev :=
  let p := fpidPort b.fpid
  if fpidModule b.fpid ≠ d.moduleId then
    d.when (d.bindingAlone b) (·.tell (fpidModule b.fpid) (.report "Link Disable" [b.fpid, 0]))
  else if (d.endpoint p b.ep).linkDisabled then
    (d.setEndpoint p b.ep fun x => { x with linkDisabled := false }).when (!d.contained 0 p) (·.enableLink p)
  else d

/-- SECONDARY_BUS_RESET: `disable` is the new value of Link Disable, none for a Secondary Bus Reset (R118). -/
def execSecondaryBusReset (lvid : Fin 1024) (k : Fin 64) (disable : Option Bool) (s : State) :
    Host.Outcome State Fault Refusal :=
  onDev s fun d =>
    let lv := lvid.val
    let b := (d.vit lv).binding k
    match disable with
    | none => match b with
      | some b => d.resetBinding b
      | none => d
    | some on =>
      let d := d.setVport lv k fun v => { v with linkDisable := on }
      match b with
      | some b => if on then d.linkDisable b else d.linkEnable b
      | none => d

/-! ### BARs -/

/-- The halves of a BAR after a host's write (R216). -/
def BarX.write (x : BarX) (upper : Bool) (v : Nat) : BarX :=
  if v = 2 ^ 32 - 1 then
    { x with lo := none, hi := none, loSize := x.loSize || !upper, hiSize := x.hiSize || upper }
  else if upper then { x with hi := some v, hiSize := false }
  else { x with lo := some v, loSize := false }

/-- Every register of the BAR has been written (R216). -/
def BarX.complete (x : BarX) (wide : Bool) : Bool := x.lo.isSome && (!wide || x.hi.isSome)

/-- HOST_BASE after a write of one half, aligned to the BAR's size (R216). -/
def barBase (old size : Nat) (upper : Bool) (v : Nat) : Nat :=
  let n := if upper then old % 2 ^ 32 + v * 2 ^ 32 else old / 2 ^ 32 * 2 ^ 32 + v
  n / 2 ^ size * 2 ^ size

/-- A host writes a register of BAR n of the function bound at k (R216). -/
def Dev.writeBar (d : Dev) (lv k n : Nat) (upper wide : Bool) (v : Nat) : Dev :=
  match (d.vit lv).binding k with
  | none => d
  | some b =>
    match b.atts[n]? with
    | none => d
    | some a =>
      let x := (SMap.get {} b.barx n).write upper v
      let d := d.setBinding lv k fun b => { b with barx := SMap.set {} b.barx n x }
      let e : Att := SMap.get {} d.atts a
      if v = 2 ^ 32 - 1 then d.setAtt a { e with valid := false }
      else d.setAtt a { e with host := barBase e.host e.sizeLog2 upper v, valid := e.valid || x.complete wide }

/-- BAR_WRITE (R216). -/
def execBarWrite (lvid : Fin 1024) (k : Fin 64) (bar : Fin 6) (upper wide : Bool) (value : Word) (s : State) :
    Host.Outcome State Fault Refusal :=
  onDev s fun d => d.writeBar lvid k bar upper wide value.toNat

end Sys2Proof.Machine
end

