-- ==== Sys2Proof/Machine/Intake.lean ====
section
/-! DEFINITION. Intake of commands, their outcome, and commands between modules (R361 to R375, R379, R393, R400). -/

namespace Sys2Proof.Machine

/-- Parameter bytes of an opcode, and the offsets of those no field has (R376); none for an opcode the tables do not hold. -/
def opcodeTable (op : Nat) : Option (Nat × List Nat) :=
  match op with
  | 0x0101 => some (0, [])
  | 0x0102 => some (4, [2, 3])
  | 0x0103 => some (4, [])
  | 0x0104 => some (8, [5, 6, 7])
  | 0x0105 => some (4, [])
  | 0x0201 => some (24, [22, 23])
  | 0x0202 => some (4, [])
  | 0x0203 => some (16, [11, 14, 15])
  | 0x0204 => some (8, [5, 6, 7])
  | 0x0205 => some (8, [6, 7])
  | 0x0301 => some (16, [4, 5, 6, 7])
  | 0x0302 => some (4, [])
  | 0x0303 => some (12, [])
  | 0x0304 => some (16, [6, 7])
  | 0x0401 => some (48, [])
  | 0x0402 => some (8, [2, 3])
  | 0x0403 => some (32, [20, 21, 22, 23])
  | 0x0404 => some (8, [1, 2, 3])
  | 0x0501 => some (20, [13])
  | 0x0502 => some (8, [5, 6, 7])
  | 0x0503 => some (12, [])
  | 0x0504 => some (12, [8, 9, 10, 11])
  | 0x0505 => some (4, [3])
  | 0x0506 => some (8, [5, 6, 7])
  | 0x0601 => some (8, [])
  | 0x0602 => some (4, [])
  | 0x0603 => some (4, [1, 2, 3])
  | 0x0604 => some (8, [2, 3])
  | 0x0605 => some (4, [2, 3])
  | 0x0701 => some (32, [24, 25, 26, 27, 28, 29, 30, 31])
  | 0x0702 => some (32, [24, 25, 26, 27, 28, 29, 30, 31])
  | 0x0703 => some (8, [6, 7])
  | 0x0801 => some (16, [1, 2, 3])
  | 0x0802 => some (24, [12, 13, 14, 15])
  | 0x0803 => some (24, [1, 2, 3])
  | 0x0901 => some (0, [])
  | 0x0902 => some (4, [2, 3])
  | 0x0903 => some (24, [16, 17, 18, 19, 20, 21, 22, 23])
  | 0x0904 => some (4, [2, 3])
  | 0x0A01 => some (8, [1, 2, 3])
  | 0x0A02 => some (8, [1, 6, 7])
  | 0x0A03 => some (4, [1, 2, 3])
  | 0x0A04 => some (4, [2, 3])
  | 0x0B01 => some (24, [1, 2, 3, 20, 21, 22, 23])
  | 0x0B02 => some (4, [1, 2, 3])
  | 0x0B03 => some (4, [2, 3])
  | 0x0B04 => some (4, [2, 3])
  | 0x0B05 => some (32, [2, 3, 20, 21, 22, 23])
  | 0x0B06 => some (4, [])
  | _ => none

/-- FPID and Global Vitrine Handle fields of an opcode: the offset, the first value with a reserved bit set, and whether 0xFFFF_FFFF is
allowed (R365, R376). -/
def identifierFields (op : Nat) : List (Nat × Nat × Bool) :=
  let fpid (o : Nat) : Nat × Nat × Bool := (o, 2 ^ 22, false)
  let gvh (o : Nat) : Nat × Nat × Bool := (o, 2 ^ 23, false)
  match op with
  | 0x0104 | 0x0201 | 0x0403 | 0x0501 | 0x0502 | 0x0506 => [fpid 0]
  | 0x0105 | 0x0202 | 0x0204 | 0x0205 | 0x0301 | 0x0302 | 0x0304 => [gvh 0]
  | 0x0203 | 0x0303 => [gvh 0, fpid 4]
  | 0x0401 => [(4, 2 ^ 23, true)]
  | 0x0702 => [(4, 2 ^ 22, true), (8, 2 ^ 23, true)]
  | 0x0801 => [gvh 4]
  | 0x0B05 => [fpid 16]
  | _ => []

/-- Little-endian field of n bytes at an offset of a descriptor (R7, R361). -/
def fieldAt (bs : List Byte) (off n : Nat) : Nat := ofLeBytes ((bs.drop off).take n)

/-- The descriptor in 128 bytes (R361). -/
def descriptorOf (bs : List Byte) : Descriptor :=
  let op := fieldAt bs 0 2
  let reserved := match opcodeTable op with
    | some (_, rs) => rs.filter fun o => fieldAt bs (24 + o) 1 != 0
    | none => []
  let wide := (identifierFields op).filterMap fun (o : Nat × Nat × Bool) =>
    let v := fieldAt bs (24 + o.1) 4
    if o.2.1 ≤ v ∧ !(o.2.2 && v == 0xFFFFFFFF) then some o.1 else none
  { opcode := op, flags := fieldAt bs 2 2, tag := fieldAt bs 4 2, length := fieldAt bs 6 2, modul := fieldAt bs 12 2,
    role := fieldAt bs 14 1, byte15 := fieldAt bs 15 1, word20 := fieldAt bs 20 4,
    stray := (reserved ++ wide).min? }

/-- The header of a command from its descriptor (R361, R362). -/
def headerOf (addr caller : Nat) (x : Descriptor) : CmdHdr :=
  { addr := addr, caller := caller, agentRole := x.role, tag := x.tag, notify := bitOf x.flags 0, detach := bitOf x.flags 1,
    modul := x.modul }

/-- Status and DETAIL of a header that fails its checks (R365). -/
def headerFault (x : Descriptor) : Option (Nat × Nat) :=
  match opcodeTable x.opcode with
  | none => some (Status.badOpcode, 0)
  | some (n, _) =>
    if 4 ≤ x.flags then some (Status.badParam, 0xFFFFFFEA)
    else if x.length ≠ n then some (Status.badLength, 0)
    else if x.modul ≠ 0xFFFF ∧ 8192 ≤ x.modul then some (Status.badParam, 0xFFFFFFF4)
    else if x.byte15 ≠ 0 then some (Status.badParam, 0xFFFFFFF7)
    else if x.word20 ≠ 0 then some (Status.badParam, 0xFFFFFFFC)
    else none

/-- Commands of the module that run, and those that wait at intake (R369). -/
def Dev.running (d : Dev) : Nat :=
  (d.cmds.filter fun c => c.status == Status.pending && (c.wait != .nothing && c.wait != .objects)).length
def Dev.queued (d : Dev) : Nat :=
  (d.cmds.filter fun c => c.status == Status.pending && (c.wait == .nothing || c.wait == .objects)).length

/-- A command is one too many, or its tag is outstanding (R369). -/
def Dev.tooMany (d : Dev) (h : CmdHdr) (channel : Option Nat) : Bool :=
  let own := d.cmds.filter fun c => c.caller == h.caller && c.status == Status.pending
  decide (16 ≤ (own.filter fun c => c.channel == channel).length) || own.any (fun c => c.tag == h.tag) ||
    (decide (64 ≤ d.running) && decide (1024 ≤ d.queued))

/-- A descriptor is taken: PENDING, or with the status of the check it fails (R362, R365, R368, R369). -/
def Dev.intake (d : Dev) (h : CmdHdr) (channel : Option Nat) (x : Descriptor) : Dev :=
  let c : Cmd := { d.newCmd h x.opcode with channel := channel, stray := x.stray }
  let d' := (d.setCmd h c).when (decide (0x400 ≤ h.caller)) (·.count (vitCtr (h.caller - 0x400) 36) 1)
  if d.tooMany h channel then d'.finish h x.opcode Status.busy
  else if d.roleOf h = 5 then d'.finish h x.opcode Status.notPermitted
  else match headerFault x with
    | some (st, detail) => d'.finish h x.opcode st detail
    | none => d'

/-! ### The descriptor in the caller's memory -/

/-- Descriptors of a VMF's host lie in host memory; all others in the module's own (R393). -/
def hostCaller (caller : Nat) : Bool := decide (0x400 ≤ caller) && decide (caller ≤ 0x7FF)

/-- A field of a descriptor is written: in memory, or by the VMF. -/
def putField (s : State) (c : Cmd) (off n v : Nat) : State :=
  if hostCaller c.caller then { s with dev := s.dev.emit (.respond "descriptor" [c.caller, c.addr + off, n, v]) }
  else s.store none (c.addr + off) (leBytes n v)

/-- The entry of a header. -/
def Dev.findCmd (d : Dev) (h : CmdHdr) : Option Cmd := d.cmds.find? (Cmd.matches h)

/-- CALLER and ROLE are overwritten and PENDING is written (R362, R363). -/
def writeIntake (s : State) (h : CmdHdr) : State :=
  match s.dev.findCmd h with
  | none => s
  | some c => putField (putField (putField s c 8 2 c.caller) c 14 1 c.role) c 10 2 Status.pending

/-- A command can be taken from an address of its caller's space (R393). -/
def descriptorAllowed (caller addr : Nat) : Bool :=
  addr % 128 == 0 &&
    (hostCaller caller ||
      if caller = 0x020 ∨ caller = 0x021 then decide (ddrBase ≤ addr) && inRegion (0, 0x80000000) (addr - ddrBase) 128
      else decide (addr + 128 ≤ 0x100000) || (decide (ddrBase ≤ addr) && inRegion regionDocent (addr - ddrBase) 128))

/-- A descriptor read of a VMF is resolved. -/
def Dev.dropRead (d : Dev) (lv channel : Nat) : Dev :=
  (((d.setVmf lv fun v =>
    match v.reads.findIdx? fun r => r.1 == channel with
    | some i => { v with reads := v.reads.eraseIdx i }
    | none => v).showReads lv).finishFlr lv)

/-- The descriptor at an address, read, is taken. -/
def takeDescriptor (s : State) (channel caller addr : Nat) (bs : List Byte) : State :=
  let x := descriptorOf bs
  let h := headerOf addr caller x
  writeIntake { s with dev := s.dev.intake h (some channel) x } h

/-- A notice from a VMF (R393, R399, R400): its read is issued, or completes. -/
def intakeVmf (s : State) (channel caller : Nat) (source : Fetch) : State :=
  let d := s.dev
  let lv := caller - 0x400
  let outstanding := (d.vmf lv).reads.find? fun r => r.1 == channel
  match source, outstanding with
  | .remote (some bs), some (_, addr, old) =>
    if old then { s with dev := (d.fetchLost lv).dropRead lv channel }
    else takeDescriptor { s with dev := d.dropRead lv channel } channel caller addr bs
  | source, _ =>
    match d.channel channel with
    | [] => s
    | n :: _ =>
      let d := d.popNotice channel
      if !descriptorAllowed caller n then { s with dev := d.record 0x1082 { object := channel, addr := n } }
      else if !(d.vmf lv).busMaster then { s with dev := d.fetchLost lv }
      else match source with
        | .remote (some bs) => takeDescriptor { s with dev := d } channel caller n bs
        | _ => { s with dev := (d.setVmf lv fun v => { v with reads := v.reads ++ [(channel, n, false)] }).showReads lv }

/-- COMMAND_NOTICE_INTAKE (R362, R363, R393). -/
def execCommandNoticeIntake (channel : Fin 256) (source : Fetch) (s : State) : Host.Outcome State Fault Refusal :=
  onState s fun s =>
    let d := s.dev
    let c := channel.val
    let caller := d.get MBX_BIND.SENDER c
    if ¬d.isReceiver 0 c ∨ d.curatorDown ∨ !d.is CUR_START_STATUS.READY 0 then s
    else if hostCaller caller then (intakeVmf s c caller source)
    else match d.channel c with
      | [] => s
      | n :: _ =>
        let d := d.popNotice c
        if descriptorAllowed caller n then (takeDescriptor { s with dev := d } c caller n (readBytes s.mem n 128))
        else { s with dev := d.record 0x1082 { object := c, addr := n } }

/-! ### The outcome -/

/-- OBJECT, DETAIL and GVH of COMMAND_DONE and COMMAND_REFUSED records (R364, R375). -/
def Cmd.ev (c : Cmd) : Ev :=
  { object := c.tag, gvh := c.gvh, detail := leBytes 2 c.opcode ++ leBytes 2 c.status ++ leBytes 2 c.caller }

/-- A status that is an error. -/
def errorStatus (st : Nat) : Bool := decide (0x0010 ≤ st) || st == Status.cancelled

/-- Commands completed and refused, by family (R443). -/
def Dev.countCmd (d : Dev) (c : Cmd) : Dev :=
  d.count (modCtr 1537 ((if errorStatus c.status then 16 else 0) + (c.opcode / 256 - 1) % 16)) 1

/-- The descriptor can still be written (R374). -/
def Dev.canWrite (d : Dev) (c : Cmd) (writable : Bool) : Bool :=
  !hostCaller c.caller || (writable && (d.vmf (c.caller - 0x400)).busMaster && !(d.vmf (c.caller - 0x400)).flr)

/-- The notice of a completion goes to the caller's channel (R364). -/
def Dev.notifyDone (d : Dev) (c : Cmd) : Dev :=
  match (List.range 256).find? fun n => d.isSender 0 n && d.isReceiver c.caller n with
  | some n => d.when c.notify (·.postNotice n c.addr)
  | none => d

/-- Response, DETAIL and then STATUS are written (R363). -/
def writeResult (s : State) (c : Cmd) : State :=
  let s := c.resp.foldl (fun s (r : Nat × Nat × Nat) => putField s c (24 + r.1) r.2.1 r.2.2) s
  putField (putField s c 16 4 c.detail) c 10 2 c.status

/-- IMAGE_OPEN, LOG_OPEN and OUTSTANDING show what the device keeps. -/
def Dev.showMud (d : Dev) : Dev :=
  let d := (d.mark USH_MUD_STATUS.IMAGE_OPEN 0 d.mud.session.isSome).mark USH_MUD_STATUS.LOG_OPEN 0 d.mud.log.isSome
  d.put USH_MUD_STATUS.OUTSTANDING 0 ((d.cmds.filter fun c => c.caller == 0x020 && c.origin.isNone).length + d.mudDone.length)

/-- A final status leaves the command table (R363, R364, R366, R374, R375). -/
def endCmd (s : State) (h : CmdHdr) (c : Cmd) (writable : Bool) : State :=
  let d := { s.dev with cmds := s.dev.cmds.filter fun e => !Cmd.matches h e }
  let d := (d.countCmd c).when (errorStatus c.status) (·.record 0x1081 c.ev)
  let d := d.when (errorStatus c.status && decide (0x400 ≤ c.caller)) (·.count (vitCtr (c.caller - 0x400) 37) 1)
  let d := d.when (c.caller == 0x020) (·.showMud)
  match c.origin with
  | some m => { s with dev := d.tell m (.result c.tag c.status) }
  | none =>
    if c.accepted then { s with dev := d.record 0x1080 c.ev }
    else if !d.canWrite c writable then { s with dev := d.record 0x1080 c.ev }
    else
      let s := writeResult { s with dev := d } c
      let d := s.dev.notifyDone c
      { s with dev := d.when (c.caller == 0x020) fun d =>
        (Dev.wakePending { d with mudDone := d.mudDone ++ [(c.tag, c.addr, d.now)] }).showMud }

/-- The entry with the result another module sent (R366). -/
def Cmd.withResult (c : Cmd) (far : Option RemoteResult) : Cmd :=
  match c.wait, far with
  | .remote _, some r => { c with wait := .nothing, status := r.status, detail := r.detail, resp := r.resp }
  | _, _ => c

/-- A command that a new active pair has finished carries bit 30 in DETAIL (R373). -/
def Cmd.afterFailover (c : Cmd) : Cmd := if c.failover then { c with detail := c.detail % 2 ^ 30 + 2 ^ 30 } else c

/-- Recovery lasts until the last command a failover left is finished (R438, R458). -/
def Dev.recovered (d : Dev) : Dev := if d.cmds.any (·.failover) then d else d.setTel TEL_MODE.RECOVERY false

/-- The result came from another module. -/
def Wait.isRemote : Wait → Bool
  | .remote _ => true
  | _ => false

/-- The Registrar is asked, once, to record the change (R372). -/
def Dev.askRecord (d : Dev) (h : CmdHdr) (c : Cmd) : Dev :=
  if c.asked.isSome then d.setCmd h c
  else (d.setCmd h { c with asked := some d.now }).tellRegistrar (.report "composition" [c.opcode, c.gvh])

/-- 5 s have passed since the Registrar was asked (R372). -/
def Dev.unrecorded (d : Dev) (c : Cmd) : Bool :=
  match c.asked with
  | some t => decide (msTicks 5000 ≤ d.now - t)
  | none => false

/-- DETAIL bit 31, NOT_DURABLE, of a change that is not recorded (R372). -/
def Cmd.durable (c : Cmd) (recorded : Bool) : Cmd := if recorded then c else { c with detail := c.detail % 2 ^ 31 + 2 ^ 31 }

/-- COMMAND_DONE: the result is final once the Registrar has recorded a change of composition, or 5 s after it was asked (R364, R366, R372). -/
def execCommandDone (h : CmdHdr) (far : Option RemoteResult) (commit : CmdCommit) (s : State) : Host.Outcome State Fault Refusal :=
  onState s fun s =>
    match s.dev.findCmd h with
    | none => s
    | some c =>
      let here := !(Wait.isRemote c.wait && far.isSome)
      let c := c.withResult far
      let tell := c.accepted && !c.told && c.origin.isNone
      let s := if tell && s.dev.canWrite c commit.writable then putField s c 10 2 Status.accepted else s
      let c := { c with told := c.told || tell }
      let composes := here && c.composes
      if c.status = Status.pending then { s with dev := s.dev.setCmd h c }
      else if composes && !commit.recorded && !s.dev.unrecorded c then { s with dev := s.dev.askRecord h c }
      else
        let d := s.dev.when (composes && c.asked.isNone) (·.askRecord h c)
        let c := c.afterFailover.durable (!composes || commit.recorded)
        let s := endCmd { s with dev := d } h c commit.writable
        if c.failover then { s with dev := (s.dev.count (modCtr 1537 34) 1).recovered } else s

/-! ### Commands between modules -/

/-- COMMAND_FORWARD: a command forwarded here enters the table; one of a caller without a role never is (R366, R368). -/
def execCommandForward (h : CmdHdr) (source : Fin 8192) (x : Descriptor) (s : State) : Host.Outcome State Fault Refusal :=
  onDev s fun d =>
    let c : Cmd := { d.newCmd h x.opcode with origin := some source.val, stray := x.stray }
    (d.setCmd h c).when (decide (64 ≤ d.running) && decide (1024 ≤ d.queued)) fun d => d.finish h x.opcode Status.busy

/-- REMOTE_PROGRESS (R366). -/
def execRemoteProgress (h : CmdHdr) (source : Option (Fin 8192)) (s : State) : Host.Outcome State Fault Refusal :=
  onDev s fun d =>
    match d.findCmd h, source with
    | some c, some m => if c.wait = .remote m.val then d.setCmd h { c with heard := d.now } else d
    | some c, none => match c.origin with
      | some m => if c.status = Status.pending then d.tell m (.progress c.tag) else d
      | none => d
    | none, _ => d

/-- REMOTE_TIMEOUT (R366). -/
def execRemoteTimeout (h : CmdHdr) (s : State) : Host.Outcome State Fault Refusal :=
  onDev s fun d =>
    match d.findCmd h with
    | some c => match c.wait with
      | .remote _ => d.finish h c.opcode Status.remoteTimeout 0 [] c.gvh
      | _ => d
    | none => d

/-- OBJECT_WAIT_TIMEOUT (R371). -/
def execObjectWaitTimeout (h : CmdHdr) (s : State) : Host.Outcome State Fault Refusal :=
  onDev s fun d =>
    match d.findCmd h with
    | some c => if c.wait = .objects then d.finish h c.opcode Status.busy 0 [] c.gvh else d
    | none => d

/-- A scheduled command begins: like one just taken at intake (R379, R431). -/
def runScheduled (s : State) (id : Nat) : State :=
  match s.dev.scheduled.find? fun e => e.id == id with
  | none => s
  | some e =>
    let d := s.dev
    let d := { d with scheduled := d.scheduled.filter fun (x : Sched) => x.id != id,
                      cmds := d.cmds ++ [{ e.cmd with since := d.now, heard := d.now }] }
    putField { s with dev := d.count (modCtr 1541 5) 1 } e.cmd 10 2 Status.pending

/-- SCHEDULED_COMMAND_DUE: the command enters the table and runs (R379, R431). -/
def execScheduledCommandDue (id : Fin 65536) (s : State) : Host.Outcome State Fault Refusal := onState s fun s => runScheduled s id

end Sys2Proof.Machine
end

