-- ==== Sys2Proof/Machine/Tunnel.lean ====
section
/-! DEFINITION. The tunnel hub and the Console Engines (R283 to R306). -/

namespace Sys2Proof.Machine

/-- Front port t beside its registers. -/
def Dev.front (d : Dev) (t : Nat) : Front := SMap.get {} d.fronts t

/-- A front port changes. -/
def Dev.setFront (d : Dev) (t : Nat) (f : Front → Front) : Dev := { d with fronts := SMap.modify {} d.fronts t f }

/-- Engine e beside its registers. -/
def Dev.engine (d : Dev) (e : Nat) : Engine := SMap.get {} d.engines e

/-- An engine changes. -/
def Dev.setEngine (d : Dev) (e : Nat) (f : Engine → Engine) : Dev := { d with engines := SMap.modify {} d.engines e f }

/-- What a record about a front port carries (R306): the port in ADDR's place is its OBJECT where no engine is concerned. -/
def Dev.frontEv (d : Dev) (t : Nat) (engine : Option Nat) : Ev :=
  { die := 5, port := d.fpid 447, object := engine.getD t, detail := leBytes 1 t }

/-- Word index of counter i of front port t (R443). -/
def frontCtr (t i : Nat) : Nat := modCtr 1539 (8 * t + i)

/-! ### Streams -/

/-- Bytes per pixel in the framebuffer, and bits per pixel sent, of a format (R297). -/
def formatBytes (f : Nat) : Nat := if f = 2 then 2 else 4
def formatBits (f : Nat) : Nat := if f = 1 then 30 else 24

/-- DisplayPort bandwidth a mode needs in units of 0.5 Gb/s (R296). -/
def Mode.need (m : Mode) : Nat :=
  ((m.w + 80) * (m.h + 62) * m.refresh * formatBits m.format * 132 + 128 * 500000000 - 1) / (128 * 500000000)

/-- Pixels per second a stream counts for (R298). -/
def Mode.pixels (m : Mode) : Nat := m.w * m.h * m.refresh

/-- A mode is valid with a scanout base (R297). -/
def modeOk (m : Mode) (base : Nat) : Bool :=
  decide (640 ≤ m.w) && decide (m.w ≤ 3840) && m.w % 8 == 0 && decide (480 ≤ m.h) && decide (m.h ≤ 2160) &&
    decide (24 ≤ m.refresh) && decide (m.refresh ≤ 120) && decide (m.pixels ≤ 497664000) &&
    decide (m.format < 3) && decide (m.w * formatBytes m.format ≤ m.stride) && m.stride % 64 == 0 &&
    decide (base + m.stride * m.h ≤ 0x4000000)

/-- An engine's interrupt, where enabled (R295, R301). -/
def Dev.engineIrq (d : Dev) (e : Nat) (f : Fld) : Dev := d.when (d.is f e) (·.emit (.signal "console engine interrupt" [e]))

/-- A state bit of an engine changes; STATE_EN reports it (R301). -/
def Dev.setEngineState (d : Dev) (e : Nat) (f : Fld) (on : Bool) : Dev :=
  if d.is f e == on then d else (d.mark f e on).engineIrq e TUN_CE_IRQ.STATE_EN

/-- BW_REFUSED or BW_LOST is set (R301). -/
def Dev.engineFlag (d : Dev) (e : Nat) (f : Fld) : Dev := (d.put f e 1).engineIrq e TUN_CE_IRQ.STATE_EN

/-- The grant field of a tunnel, and its status bit. -/
def grantField (tunnel : Nat) : Fld := if tunnel = 0 then TUN_PORT_ALLOT.DP0_GRANT else TUN_PORT_ALLOT.DP1_GRANT
def upField (tunnel : Nat) : Fld := if tunnel = 0 then TUN_PORT_STATUS.DP0_UP else TUN_PORT_STATUS.DP1_UP

/-- The engine a tunnel of a front port is a destination of: its module and number. -/
def Dev.destOf (d : Dev) (t tunnel : Nat) : Option (Nat × Nat) :=
  ((d.front t).dests.find? fun x => x.1 == tunnel).map (·.2)

/-- The engine of this module that a tunnel serves. -/
def Dev.engineAt (d : Dev) (t tunnel : Nat) : Option Nat :=
  match d.destOf t tunnel with
  | some (m, e) => if m = d.moduleId then some e else none
  | none => none

/-- The streams that count (R298): how many, and their pixels per second. -/
def Dev.streamLoad (d : Dev) : Nat × Nat :=
  let on := d.engines.filterMap fun x => if x.2.counted then x.2.running else none
  (on.length, on.foldl (fun n m => n + m.pixels) 0)

/-- A sink lists a mode (R299). -/
def listsMode (ts : List Timing) (m : Mode) : Bool := ts.any fun t => t.w == m.w && t.h == m.h && t.refresh == m.refresh

/-- An engine's stream stops. -/
def Dev.stopStream (d : Dev) (e : Nat) : Dev :=
  let d := d.setEngineState e TUN_CE_STATUS.STREAMING false
  if d.is TUN_CE_DEST.VALID e && !d.is TUN_CE_DEST.REMOTE e then
    d.put (upField (d.get TUN_CE_DEST.TUNNEL e)) (d.get TUN_CE_DEST.PORT e) 0
  else d

/-- An engine asks its destination for bandwidth, in units of 0.5 Gb/s (R288). -/
def Dev.requestBandwidth (d : Dev) (e units : Nat) : Dev :=
  let t := d.get TUN_CE_DEST.PORT e
  let tunnel := d.get TUN_CE_DEST.TUNNEL e
  if d.is TUN_CE_DEST.REMOTE e then d.tell (d.get TUN_CE_DEST.MODULE e) (.report "DP bandwidth request" [e, t, tunnel, units])
  else d.emit (.signal "DP bandwidth request" [t, tunnel, units])

/-- The timings of the sink at an engine's destination, where there is one (R299). -/
def Dev.sinkOf (d : Dev) (e : Nat) : Option (List Timing) :=
  if d.is TUN_CE_DEST.REMOTE e then (d.engine e).farSink
  else SMap.find (d.front (d.get TUN_CE_DEST.PORT e)).sinks (d.get TUN_CE_DEST.TUNNEL e)

/-- An enabled and attached engine starts its stream where the budget and its sink allow (R298, R299). -/
def Dev.tryStream (d : Dev) (e : Nat) : Dev :=
  match (d.engine e).running with
  | none => d
  | some m =>
    if !d.is TUN_CE_DEST.VALID e then d
    else
      let fits := (d.engine e).counted || (decide (d.streamLoad.1 < 32) && decide (d.streamLoad.2 + m.pixels ≤ 7962624000))
      if !fits then d.setEngineState e TUN_CE_STATUS.BUDGET true
      else
        let d := (d.setEngineState e TUN_CE_STATUS.BUDGET false).setEngine e fun x => { x with counted := true }
        match d.sinkOf e with
        | none => d
        | some ts =>
          if listsMode ts m then (d.setEngineState e TUN_CE_STATUS.SINK_MODE false).requestBandwidth e m.need
          else (d.stopStream e).setEngineState e TUN_CE_STATUS.SINK_MODE true

/-- Engines that wait for capacity start in ascending order (R298). -/
def Dev.budgetFreed (d : Dev) : Dev :=
  d.forEach ((List.range 64).filter fun e => d.is TUN_CE_STATUS.BUDGET e) fun d e => d.tryStream e

/-- An engine no longer counts; what it frees goes to those that wait. -/
def Dev.leaveBudget (d : Dev) (e : Nat) : Dev :=
  let was := (d.engine e).counted
  let d := (d.setEngine e fun x => { x with counted := false }).setEngineState e TUN_CE_STATUS.BUDGET false
  d.when was (·.budgetFreed)

/-- An engine that is disabled leaves the budget and gives its grant back (R288, R298). -/
def Dev.endStream (d : Dev) (e : Nat) : Dev :=
  let was := d.is TUN_CE_DEST.VALID e && (d.engine e).counted
  ((d.stopStream e).leaveBudget e).when was (·.requestBandwidth e 0)

/-- A stream starts, or goes on in its new mode, with its grant; a remote stream's frames are numbered from 0 (R300, R303). -/
def Dev.startStream (d : Dev) (e : Nat) : Dev :=
  let d := d.setEngine e fun x => { x with running := x.next.or x.running, next := none, fseq := 0 }
  d.setEngineState e TUN_CE_STATUS.STREAMING true

/-! ### USB4 links -/

/-- The usable pools of a link state in 0.5 Gb/s units: toward the partner, and from it (R285). -/
def poolOf (link : Nat) : Nat × Nat :=
  match link with
  | 2 => (36, 36)
  | 3 => (72, 72)
  | 4 => (144, 144)
  | 5 => (216, 72)
  | 6 => (72, 216)
  | _ => (0, 0)

/-- The highest link a marker allows, as a LINK code (R285): USB 2.0 only without a marker for USB4. -/
def markerLink (cable : Nat) : Nat :=
  match cable with
  | 0 => 1
  | 1 => 1
  | 2 => 2
  | 3 => 3
  | 4 => 4
  | 7 => 2
  | _ => 1

/-- The pools of a front port are set. -/
def Dev.setPool (d : Dev) (t : Nat) (p : Nat × Nat) : Dev :=
  (d.put TUN_PORT_STATUS.POOL t p.1).put TUN_PORT_ALLOT.POOL_RX t p.2

/-- USB4_ATTACH: the router takes its role from the partner, and the link its rate from the cable (R283, R285, R286). -/
def execUsb4Attach (port : Fin 16) (partner : Usb4Partner) (trained : Fin 5) (asym : Bool) (s : State) :
    Host.Outcome State Fault Refusal :=
  onDev s fun d =>
    if d.hubLost then d else
    let t := port.val
    let most := markerLink (d.get TUN_PORT_STATUS.CABLE t)
    let usb4 := decide (2 ≤ most) && decide (2 ≤ trained.val) && partner != .other
    let link := if usb4 then min most trained.val else if trained.val = 0 then 0 else 1
    let owner := d.is USH_OWNER.VALID 0 && d.get USH_OWNER.PORT 0 == t
    let role := if !usb4 then 0 else match partner with
      | .deviceRouter => 1
      | .host => if owner then 2 else 3
      | .other => 0
    let d := (d.put TUN_PORT_STATUS.ROLE t role).put TUN_PORT_STATUS.LINK t link
    let d := d.setFront t fun x => { x with asymOk := asym, allowUnauth := d.is TUN_PORT_CFG.ALLOW_UNAUTH t, symAt := none }
    let d := if role = 1 then d.setPool t (poolOf link) else d.setPool t (0, 0)
    let d := d.when (role == 3) (·.mark TUN_PORT_STATUS.H2H_UP t (d.is TUN_PORT_CFG.H2H_EN t))
    d.when (usb4 && decide (link < most)) fun d =>
      (d.count (frontCtr t 3) 1).raise TUN_PORT_EVENTS.LINK_DOWNGRADED t (d.frontEv t none)

/-- Endpoints behind the PCIe tunnel of a front port. -/
def Dev.tunnelEndpoints (d : Dev) (t : Nat) : List Nat :=
  (d.endpointsOf 447).filter fun e => decide (e < 64) && (d.endpoint 447 e).front == t

/-- The PCIe tunnel of a front port is torn down (R294): its endpoints are surprise-removed, with no debounce. -/
def Dev.tearTunnel (d : Dev) (t : Nat) : Dev :=
  if !d.is TUN_PORT_STATUS.PCIE_UP t then d
  else
    let d := ((d.put TUN_PORT_STATUS.PCIE_UP t 0).put TUN_PORT_STATUS.ENDPOINTS t 0).count (frontCtr t 7) 1
    let es := d.tunnelEndpoints t
    if es.isEmpty then d
    else
      let d := (d.remove (512 + t) false).sendSideband 447 es 6 1 0
      d.forEach (es.filter fun e => (d.endpoint 447 e).bound.isNone) fun d e => d.setEndpoint 447 e fun x => { x with exists_ := false }

/-- The destination's answer reaches the Console Engine (R288, R289, R300, R302): the stream starts, in its new mode where one waits; a
refused one keeps its grant and its old mode; a grant withdrawn is BW_LOST; a sink lost stops the stream. -/
def Dev.streamAnswered (d : Dev) (e : Nat) (f : FarGrant) (kept : Bool) : Dev :=
  let waits := (d.engine e).next.isSome
  match f with
  | .granted => d.when (d.engine e).running.isSome (·.startStream e)
  | .refused =>
    let d := (d.engineFlag e TUN_CE_STATUS.BW_REFUSED).setEngine e fun x => { x with next := none }
    d.when (waits && kept && (d.engine e).running.isSome) (·.startStream e)
  | .withdrawn => (d.stopStream e).engineFlag e TUN_CE_STATUS.BW_LOST
  | .sinkLost => (d.stopStream e).setEngine e fun x => { x with farSink := none }

/-- The hub tells the engine whose destination a tunnel is: here, or on its module. -/
def Dev.answerEngine (d : Dev) (t tunnel : Nat) (f : FarGrant) (kept : Bool) : Dev :=
  match d.destOf t tunnel with
  | none => d
  | some (m, e) =>
    if m = d.moduleId then d.streamAnswered e f kept
    else d.tell m (.report (match f with
      | .granted => "DP grant"
      | .refused => "DP refused"
      | .withdrawn => "DP grant lost"
      | .sinkLost => "DP sink lost") [e, t, tunnel])

/-- The streams of a front port's tunnels stop; their destinations stay (R302). -/
def Dev.stopTunnels (d : Dev) (t : Nat) : Dev :=
  let d := d.setFront t fun x => { x with sinks := [] }
  let d := ((d.put TUN_PORT_ALLOT.DP0_GRANT t 0).put TUN_PORT_ALLOT.DP1_GRANT t 0)
  let d := (d.put TUN_PORT_STATUS.DP0_UP t 0).put TUN_PORT_STATUS.DP1_UP t 0
  d.forEach [0, 1] fun d u => d.answerEngine t u .sinkLost false

/-- A USB4 link is lost: its role and tunnels end (R283, R294). -/
def Dev.usb4Lost (d : Dev) (t : Nat) : Dev :=
  let d := (d.tearTunnel t).stopTunnels t
  let d := ((d.put TUN_PORT_STATUS.ROLE t 0).put TUN_PORT_STATUS.LINK t 0).put TUN_PORT_STATUS.USB3_UP t 0
  ((d.put TUN_PORT_STATUS.H2H_UP t 0).setPool t (0, 0)).setFront t fun x => { x with asymOk := false, symAt := none }

/-- USB4_LINK_LOSS (R294). -/
def execUsb4LinkLoss (port : Fin 16) (s : State) : Host.Outcome State Fault Refusal := onDev s fun d => d.usb4Lost port

/-! ### DisplayPort bandwidth -/

/-- What the DisplayPort grants of a port may total (R287). -/
def Dev.grantable (d : Dev) (t : Nat) : Nat := d.get TUN_PORT_STATUS.POOL t - d.get TUN_PORT_CFG.PCIE_FLOOR t

/-- A request for a tunnel is granted or refused (R287, R288); a decrease takes effect at once. -/
def Dev.dpRequest (d : Dev) (t tunnel units : Nat) : Dev :=
  if d.get TUN_PORT_STATUS.ROLE t ≠ 1 then d
  else
    let mine := d.get (grantField tunnel) t
    if units ≤ mine ∨ d.get (grantField (1 - tunnel)) t + units ≤ d.grantable t then
      let d := ((d.put (grantField tunnel) t units).mark (upField tunnel) t (units != 0)).count (frontCtr t 0) 1
      d.when (units != 0) (·.answerEngine t tunnel .granted true)
    else
      let d := (d.count (frontCtr t 1) 1).raise TUN_PORT_EVENTS.DP_REFUSED t (d.frontEv t (d.engineAt t tunnel))
      d.answerEngine t tunnel .refused (mine != 0)

/-- The answer of another module's hub about the tunnel an engine here is attached to. -/
def Dev.farAnswer (d : Dev) (t tunnel : Nat) (e : Nat) (f : FarGrant) : Dev :=
  d.when (d.is TUN_CE_DEST.VALID e && d.is TUN_CE_DEST.REMOTE e && d.get TUN_CE_DEST.PORT e == t && d.get TUN_CE_DEST.TUNNEL e == tunnel)
    fun d => d.streamAnswered e f true

/-- DP_BANDWIDTH_REQUEST, in units of 0.5 Gb/s (R287, R288). -/
def execDpBandwidthRequest (port : Fin 16) (tunnel : Fin 2) (ask : DpAsk) (s : State) : Host.Outcome State Fault Refusal :=
  onDev s fun d =>
    match ask.far with
    | none => d.dpRequest port tunnel ask.units
    | some (e, f) => d.farAnswer port tunnel e f

/-- A tunnel's grant is withdrawn (R289). -/
def Dev.withdrawGrant (d : Dev) (t tunnel : Nat) : Dev :=
  if d.get (grantField tunnel) t = 0 then d
  else
    let d := ((d.put (grantField tunnel) t 0).put (upField tunnel) t 0).count (frontCtr t 2) 1
    (d.raise TUN_PORT_EVENTS.DP_LOST t (d.frontEv t (d.engineAt t tunnel))).answerEngine t tunnel .withdrawn false

/-- Grants that no longer fit are withdrawn, DP1's first (R289; after a rise of PCIE_FLOOR too: DEDUCED, log entry 118). -/
def Dev.fitGrants (d : Dev) (t : Nat) : Dev :=
  let excess (d : Dev) : Bool := decide (d.grantable t < d.get TUN_PORT_ALLOT.DP0_GRANT t + d.get TUN_PORT_ALLOT.DP1_GRANT t)
  let d := d.when (excess d) (·.withdrawGrant t 1)
  d.when (excess d) (·.withdrawGrant t 0)

/-- Streams that lost their grant ask again when the pool grows (R289). -/
def Dev.askAgain (d : Dev) (t : Nat) : Dev :=
  d.forEach [0, 1] fun d u =>
    if d.get (grantField u) t ≠ 0 then d
    else match d.engineAt t u with
      | some e => d.tryStream e
      | none => d

/-- USB4_POOL_SHRINK: the link retrains at another rate (R289). -/
def execUsb4PoolShrink (port : Fin 16) (link : Fin 5) (s : State) : Host.Outcome State Fault Refusal :=
  onDev s fun d =>
    let t := port.val
    if d.get TUN_PORT_STATUS.ROLE t ≠ 1 ∨ link.val < 2 then d
    else
      let grows := decide (d.get TUN_PORT_STATUS.POOL t < (poolOf link).1)
      (((d.put TUN_PORT_STATUS.LINK t link).setPool t (poolOf link)).fitGrants t).when grows (·.askAgain t)

/-- The link state symmetry moves to, by demand in tenths of Gb/s over 100 ms and over 1 s, toward the partner and from it (R290). -/
def Dev.symmetry (d : Dev) (t to_ from_ to1 from1 : Nat) : Option Nat :=
  let grants := d.get TUN_PORT_ALLOT.DP0_GRANT t + d.get TUN_PORT_ALLOT.DP1_GRANT t + d.get TUN_PORT_CFG.PCIE_FLOOR t
  let off := !d.is TUN_PORT_CFG.ASYM_EN t
  match d.get TUN_PORT_STATUS.LINK t with
  | 4 =>
    if !(d.front t).asymOk || off then none
    else if 648 < to_ ∧ from_ < 288 then some 5
    else if 648 < from_ ∧ to_ < 288 ∧ grants ≤ 72 then some 6
    else none
  | 5 => if off ∨ to1 < 576 ∨ 324 < from1 then some 4 else none
  | 6 => if off ∨ from1 < 576 ∨ 324 < to1 then some 4 else none
  | _ => none

/-- SYMMETRY_EVALUATION: at most one change in a second (R290). -/
def execSymmetryEvaluation (port : Fin 16) (to100 from100 to1s from1s : Nat) (s : State) :
    Host.Outcome State Fault Refusal :=
  onDev s fun d =>
    let t := port.val
    let due : Bool := match (d.front t).symAt with
      | some at_ => decide (msTicks 1000 ≤ sinceTicks at_ d.now)
      | none => true
    match d.symmetry t to100 from100 to1s from1s with
    | none => d
    | some link =>
      if due = false ∨ d.get TUN_PORT_STATUS.ROLE t ≠ 1 then d
      else
        let d := ((d.put TUN_PORT_STATUS.LINK t link).setPool t (poolOf link)).setFront t fun x => { x with symAt := some d.now }
        let d := (d.count (frontCtr t 4) 1).raise TUN_PORT_EVENTS.ASYM_CHANGE t (d.frontEv t none)
        ((d.emit (.signal "PCIe tunnel pause" [t])).fitGrants t).askAgain t

/-! ### The PCIe tunnel -/

/-- A device found behind a front port is a tunnel endpoint again where one is held at its place, else takes the lowest free number; whether
it was enumerated (R252, R291). -/
def Dev.addTunnelEndpoint (d : Dev) (t : Nat) (x : Found) : Bool × Dev :=
  let old := (d.tunnelEndpoints t).find? fun e => (d.endpoint 447 e).busDev == x.busDev
  match old.or ((List.range 64).find? fun e => !(d.endpoint 447 e).exists_) with
  | none => (false, d)
  | some e => (true, d.setEndpoint 447 e fun y =>
      { y with exists_ := true, accession := .none, ldId := none, bars := x.bars, busDev := x.busDev, ari := x.ari, front := t })

/-- The endpoints found through a tunnel, each held where a place is left: how many are, beside those held before (R293). -/
def Dev.enumerateTunnel (d : Dev) (t n : Nat) : List Found → Nat × Dev
  | [] => (n, d)
  | x :: r =>
    let y := d.addTunnelEndpoint t x
    y.2.enumerateTunnel t (if y.1 then n + 1 else n) r

/-- PCIE_TUNNEL_ESTABLISH: the endpoints within the limits become tunnel endpoints in INSERTION (R291). -/
def execPcieTunnelEstablish (port : Fin 16) (found : List Found) (deep : Bool) (s : State) :
    Host.Outcome State Fault Refusal :=
  onDev s fun d =>
    let t := port.val
    if d.get TUN_PORT_STATUS.ROLE t ≠ 1 ∨ !d.is TUN_PORT_CFG.PCIE_EN t ∨ d.is TUN_PORT_STATUS.PCIE_UP t then d
    else
      let enumerated := (d.put TUN_PORT_STATUS.PCIE_UP t 1).enumerateTunnel t 0 (found.take 8)
      let n := enumerated.1
      let d := enumerated.2.put TUN_PORT_STATUS.ENDPOINTS t n
      let d := d.when (deep || decide (n < found.length)) (·.raise TUN_PORT_EVENTS.DOCK_LIMIT t (d.frontEv t none))
      d.when (n != 0) (·.insertion (512 + t))

/-! ### Console Engine registers -/

/-- The mode that the registers of an engine hold. -/
def Dev.modeOf (d : Dev) (e : Nat) : Mode :=
  { w := d.get TUN_CE_GEOM.WIDTH e, h := d.get TUN_CE_GEOM.HEIGHT e, refresh := d.get TUN_CE_MODE.REFRESH e,
    format := d.get TUN_CE_MODE.FORMAT e, stride := d.get TUN_CE_STRIDE.STRIDE e }

/-- A Console Engine stops: what it sends ends, and its budget is free (R29, R297, R300). -/
def Dev.stopEngine (d : Dev) (e : Nat) : Dev :=
  ((d.put TUN_CE_MODE.ENABLE e 0).setEngine e fun x => { x with running := none, next := none, armed := none }).endStream e

/-- A write of TUN_CE_MODE (R297, R300). -/
def Dev.writeCeMode (d : Dev) (e v : Nat) : Dev :=
  if d.hubLost then d
  else if !bitOf v 31 then
    let d := ((d.put TUN_CE_MODE.ENABLE e 0).put TUN_CE_MODE.FORMAT e (bitsOf v 25 24)).put TUN_CE_MODE.REFRESH e (bitsOf v 6 0)
    (d.setEngine e fun x => { x with running := none, next := none }).endStream e
  else
    let m : Mode := { d.modeOf e with refresh := bitsOf v 6 0, format := bitsOf v 25 24 }
    let base := max (d.get TUN_CE_SCANOUT.BASE e) ((d.engine e).base)
    if !modeOk m base then (d.put TUN_CE_STATUS.MODE_ERR e 1)
    else
      let d := ((d.put TUN_CE_MODE.ENABLE e 1).put TUN_CE_MODE.FORMAT e m.format).put TUN_CE_MODE.REFRESH e m.refresh
      match (d.engine e).running with
      | none => ((d.put TUN_CE_STATUS.VBLANK e 0).setEngine e fun x => { x with running := some m, next := none }).tryStream e
      | some old => if old = m then d.setEngine e fun x => { x with next := none }
        else d.setEngine e fun x => { x with next := some m }

/-- TUN_CE_MODE_WRITE by the bound host (R297). -/
def execTunCeModeWrite (engine : Fin 64) (value : Word) (s : State) : Host.Outcome State Fault Refusal :=
  onDev s fun d => d.writeCeMode engine value.toNat

/-- A write of TUN_CE_SCANOUT arms a flip (R300). -/
def Dev.writeCeScanout (d : Dev) (e v : Nat) : Dev :=
  let base := bitsOf v 25 6 * 64
  ((d.put TUN_CE_SCANOUT.BASE e base).put TUN_CE_SCANOUT.PENDING e 1).setEngine e fun x => { x with armed := some base }

/-- TUN_CE_SCANOUT_WRITE (R300). -/
def execTunCeScanoutWrite (engine : Fin 64) (value : Word) (s : State) : Host.Outcome State Fault Refusal :=
  onDev s fun d => d.writeCeScanout engine value.toNat

/-- An armed flip takes effect (R300). -/
def Dev.flip (d : Dev) (e : Nat) : Dev :=
  match (d.engine e).armed with
  | none => d
  | some b =>
    let d := (d.setEngine e fun x => { x with base := b, armed := none }).put TUN_CE_SCANOUT.PENDING e 0
    (d.put TUN_CE_STATUS.FLIP_DONE e 1).engineIrq e TUN_CE_IRQ.FLIP_EN

/-- A mode change at vertical blanking (R298 to R300): the stream blanks and asks for its new bandwidth where the budget and the sink have
the mode; else the engine runs the new mode and sends no stream. -/
def Dev.changeMode (d : Dev) (e : Nat) : Dev :=
  let x := d.engine e
  match x.next with
  | none => d
  | some m =>
    let others := d.streamLoad.2 - (x.running.map Mode.pixels).getD 0
    let lists : Bool := match d.sinkOf e with
      | some ts => listsMode ts m
      | none => false
    if d.is TUN_CE_DEST.VALID e && x.counted && decide (others + m.pixels ≤ 7962624000) && lists then
      ((d.stopStream e).setEngineState e TUN_CE_STATUS.SINK_MODE false).requestBandwidth e m.need
    else
      let d := d.when (decide (7962624000 < others + m.pixels)) (·.setEngine e fun x => { x with counted := false })
      ((d.stopStream e).setEngine e fun x => { x with running := some m, next := none }).tryStream e

/-- VERTICAL_BLANKING of an engine that runs (R300). -/
def execVerticalBlanking (engine : Fin 64) (s : State) : Host.Outcome State Fault Refusal :=
  onDev s fun d =>
    let e := engine.val
    if (d.engine e).running.isNone then d
    else
      let d := d.put TUN_CE_STATUS.VBLANK e (d.get TUN_CE_STATUS.VBLANK e + 1)
      ((d.flip e).changeMode e).engineIrq e TUN_CE_IRQ.VBLANK_EN

/-- CONSOLE_ENGINE_FLR: the engine is disabled and its registers return to reset (R295). -/
def execConsoleEngineFlr (engine : Fin 64) (s : State) : Host.Outcome State Fault Refusal :=
  onDev s fun d =>
    let e := engine.val
    ((d.setEngine e fun x => { x with running := none }).endStream e).resetEngine e

/-- STREAM_BUDGET_FREED (R298). -/
def execStreamBudgetFreed (s : State) : Host.Outcome State Fault Refusal := onDev s fun d => d.budgetFreed

/-- DP_SINK_REAPPEARS: a sink and the timings its EDID lists appear on a tunnel; the stream resumes (R299, R302). -/
def execDpSinkReappears (port : Fin 16) (tunnel : Fin 2) (sink : DpSink) (s : State) : Host.Outcome State Fault Refusal :=
  onDev s fun d =>
    let t := port.val
    match sink.far with
    | some e =>
      d.when (d.is TUN_CE_DEST.VALID e && d.is TUN_CE_DEST.REMOTE e && d.get TUN_CE_DEST.PORT e == t &&
          d.get TUN_CE_DEST.TUNNEL e == tunnel.val) fun d =>
        (d.setEngine e fun x => { x with farSink := some sink.edid }).tryStream e
    | none =>
      let d := d.setFront t fun x => { x with sinks := SMap.insert (SMap.erase x.sinks tunnel) tunnel sink.edid }
      match d.destOf t tunnel with
      | some (m, e) => if m = d.moduleId then d.tryStream e else d.tell m (.report "DP sink" [e, t, tunnel.val])
      | none => d

/-! ### Destinations -/

/-- A destination is cleared, and its stream with it (R302). -/
def Dev.detach (d : Dev) (e : Nat) : Dev :=
  if !d.is TUN_CE_DEST.VALID e then d
  else
    let t := d.get TUN_CE_DEST.PORT e
    let u := d.get TUN_CE_DEST.TUNNEL e
    let remote := d.is TUN_CE_DEST.REMOTE e
    let d := d.stopStream e
    let d := if remote then d.tell (d.get TUN_CE_DEST.MODULE e) (.report "console detach" [e, t, u])
      else (d.put (grantField u) t 0).setFront t fun x => { x with dests := x.dests.filter fun y => y.1 != u }
    let d := (d.resetRegs [.TUN_CE_DEST] e).setEngineState e TUN_CE_STATUS.SINK_MODE false
    ((d.setEngine e fun x => { x with farSink := none }).put TUN_CE_STATUS.ATTACHED e 0).leaveBudget e

/-- A destination is set, and the stream starts where it can (R302). -/
def Dev.attach (d : Dev) (e m t u : Nat) : Dev :=
  let d := d.detach e
  let d := ((d.put TUN_CE_DEST.VALID e 1).mark TUN_CE_DEST.REMOTE e (m != d.moduleId)).put TUN_CE_DEST.MODULE e m
  let d := ((d.put TUN_CE_DEST.PORT e t).put TUN_CE_DEST.TUNNEL e u).put TUN_CE_STATUS.ATTACHED e 1
  let d := if m = d.moduleId then d.setFront t fun x => { x with dests := x.dests ++ [(u, m, e)] }
    else d.tell m (.report "console attach" [e, t, u])
  d.tryStream e

/-- A command about an engine of another module, which that module forwarded to its destination's hub here with its own module ID in MODULE
(log entry 112). -/
def Dev.destinationPart (d : Dev) (h : CmdHdr) : Bool :=
  h.forwarded.isSome && decide (h.modul < 8192) && h.modul != d.moduleId

/-- A tunnel can become a destination (R302): the status that answers. -/
def Dev.tunnelFree (d : Dev) (t u : Nat) : Nat :=
  if (d.destOf t u).isSome then Status.tunnelInUse
  else if d.get TUN_PORT_STATUS.ROLE t ≠ 1 then Status.notHostRouter else Status.ok

/-- The hub's part of CONSOLE_ATTACH for an engine of module m (R302). -/
def Dev.attachHere (d : Dev) (h : CmdHdr) (m e t u : Nat) : Dev :=
  let st := if e < 64 ∧ t < 16 ∧ u < 2 then d.tunnelFree t u else Status.badParam
  (d.when (st == Status.ok) fun d => d.setFront t fun x => { x with dests := x.dests ++ [(u, m, e)] }).finish h 0x0A02 st

/-- The hub's part of CONSOLE_DETACH for an engine of module m (R302). -/
def Dev.detachHere (d : Dev) (h : CmdHdr) (m e : Nat) : Dev :=
  let mine (y : Nat × Nat × Nat) : Bool := y.2.1 == m && y.2.2 == e
  let d := d.forEach (List.range 16) fun d t => d.forEach ((d.front t).dests.filter mine) fun d y =>
    ((d.put (grantField y.1) t 0).put (upField y.1) t 0).setFront t fun x => { x with dests := x.dests.filter fun z => !mine z }
  Dev.finish { d with inStreams := d.inStreams.filter fun x => !(x.modul == m && x.engine == e) } h 0x0A03 Status.ok

/-- CONSOLE_ATTACH (R302); `far` is the status another module answers for its tunnel. -/
def execConsoleAttach (h : CmdHdr) (engine : Byte) (dest : Fin 65536) (port tunnel : Byte) (far : Nat) (s : State) :
    Host.Outcome State Fault Refusal :=
  onDev s fun d =>
    let op := 0x0A02
    if d.destinationPart h && dest.val == d.moduleId then d.attachHere h h.modul engine.toNat port.toNat tunnel.toNat
    else d.command h op [1, 4] false (if h.modul = 0xFFFF then d.moduleId else h.modul) (away := true) fun d =>
      let e := engine.toNat
      let m := dest.val
      let t := port.toNat
      let u := tunnel.toNat
      if 64 ≤ e then d.badParam h op 0
      else if 8192 ≤ m then d.badParam h op 2
      else if 16 ≤ t then d.badParam h op 4
      else if 2 ≤ u then d.badParam h op 5
      else
        let st := if m = d.moduleId then d.tunnelFree t u else far
        if st ≠ Status.ok then d.finish h op st else (d.attach e m t u).finish h op Status.ok

/-- CONSOLE_DETACH (R302). -/
def execConsoleDetach (h : CmdHdr) (engine : Byte) (s : State) : Host.Outcome State Fault Refusal :=
  onDev s fun d =>
    if d.destinationPart h then d.detachHere h h.modul engine.toNat
    else d.command h 0x0A03 [1, 4] false (if h.modul = 0xFFFF then d.moduleId else h.modul) (away := true) fun d =>
      if 64 ≤ engine.toNat then d.badParam h 0x0A03 0
      else (d.detach engine.toNat).finish h 0x0A03 Status.ok

/-- TUN_PORT_CFG takes a word (R306). -/
def Dev.writeTunCfg (d : Dev) (t v : Nat) : Dev :=
  let d := (d.mark TUN_PORT_CFG.PCIE_EN t (bitOf v 31)).mark TUN_PORT_CFG.H2H_EN t (bitOf v 30)
  let d := (d.mark TUN_PORT_CFG.ASYM_EN t (bitOf v 29)).mark TUN_PORT_CFG.ALLOW_UNAUTH t (bitOf v 28)
  (d.put TUN_PORT_CFG.PCIE_FLOOR t (bitsOf v 7 0)).fitGrants t

/-- TUNNEL_CONFIG (R376). -/
def execTunnelConfig (h : CmdHdr) (port : Byte) (value : Word) (s : State) : Host.Outcome State Fault Refusal :=
  onDev s fun d =>
    d.moduleCommand h 0x0A01 [2] false fun d =>
      let v := value.toNat
      if 16 ≤ port.toNat then d.badParam h 0x0A01 0
      else if bitsOf v 27 8 ≠ 0 ∨ bitsOf v 7 0 < 2 ∨ 40 < bitsOf v 7 0 then d.badParam h 0x0A01 4
      else (d.writeTunCfg port.toNat v).finish h 0x0A01 Status.ok

/-! ### Remote streams -/

/-- The stream of an engine elsewhere. -/
def Dev.inStream (d : Dev) (m e : Nat) : Option InStream := d.inStreams.find? fun x => x.modul == m && x.engine == e

/-- A stream's record becomes x. -/
def Dev.setInStream (d : Dev) (x : InStream) : Dev :=
  { d with inStreams := (d.inStreams.filter fun (y : InStream) => !(y.modul == x.modul && y.engine == x.engine)) ++ [x] }

/-- A segment whose line has been sent (R304). -/
def InStream.past (x : InStream) (frame line : Nat) : Bool :=
  decide (frame < x.frameOut) || (frame == x.frameOut && (match x.dueLine with
    | some l => decide (line ≤ l)
    | none => false))

/-- A segment takes its place, or is late and discarded (R303, R304). -/
def Dev.placeSegment (d : Dev) (x : InStream) (c : ConsoleFrame) : Dev :=
  let x := { x with expect := (c.fseq.val + 1) % 65536, frameIn := if bitOf c.flags 0 then x.frameIn + 1 else x.frameIn }
  if x.past x.frameIn c.line then
    (d.setInStream { x with discarded := x.discarded + 1 }).count (frontCtr x.port 6) 1
  else d.setInStream { x with held := x.held ++ [(x.frameIn, c.line.val, c.x.val)] }

/-- The front port that shows a stream of an engine elsewhere. -/
def Dev.portOfStream (d : Dev) (m e : Nat) : Nat :=
  ((d.fronts.find? fun f => f.2.dests.any fun y => y.2.1 == m && y.2.2 == e).map (·.1)).getD 0

/-- CONSOLE_FRAME: placed for its line, or discarded as behind or late (R303, R304). -/
def execConsoleFrame (source : Fin 8192) (frame : ConsoleFrame) (s : State) : Host.Outcome State Fault Refusal :=
  onDev s fun d =>
    let m := source.val
    let e := frame.engine.val
    let t := d.portOfStream m e
    if bitOf frame.flags 2 then d.placeSegment { modul := m, engine := e, port := t, expect := frame.fseq } frame
    else
      match d.inStream m e with
      | none => d.count (frontCtr t 6) 1
      | some x =>
        let ahead := (frame.fseq.val + 65536 - x.expect) % 65536
        if 32768 ≤ ahead then
          (d.count (portCtr 447 59) 1).raiseLimited RTE_EVENTS.ORDER_DISCARD 0 447 { die := 5, port := d.fpid 447, object := e }
        else d.placeSegment x frame

/-- The bytes of a pixel of a Console Engine's framebuffer as a console frame carries them (R297, R303, log entry 110). -/
def wirePixel (format : Nat) (stored : List Byte) : List Byte :=
  if format = 1 then stored else if format = 2 then leBytes 3 (Config.rgb24 (ofLeBytes stored)) else stored.take 3

/-- One segment of a line goes toward the hub of the destination module (R303): the first frame of a stream carries FLAGS bit 2. -/
def Dev.sendSegment (d : Dev) (e gvh : Nat) (m : Mode) (line x count : Nat) (pixels : List Byte) : Dev :=
  let n := (d.engine e).fseq
  let flags := bitVal (line == 0 && x == 0) + 2 * bitVal (m.format == 1) + 4 * bitVal (n == 0)
  let d := d.setEngine e fun y => { y with fseq := n + 1 }
  d.arrive 447
    { ftype := 6, cls := .l, len := (40 + pixels.length + 15) / 16, dst := fpidOf (d.get TUN_CE_DEST.MODULE e) 447, src := d.fpid 447,
      gvh := gvh, fseq := n % 65536, itime := d.now % 2 ^ 32,
      body := .console { engine := e, flags := flags, line := line, x := x, count := count, pixels := pixels } }

/-- A line of a Console Engine whose stream is remote is fetched from its framebuffer and sent (R301, R303). -/
def sendLine (s : State) (e line : Nat) : State :=
  let d := s.dev
  match (d.engine e).running, (d.endpoint 447 (64 + e)).bound with
  | some m, some b =>
    if !d.is TUN_CE_DEST.REMOTE e ∨ !d.is TUN_CE_STATUS.STREAMING e ∨ m.h ≤ line then s
    else
      let most := if m.format = 1 then 1024 else 1360
      let bytes := if m.format = 2 then 2 else 4
      let first := ddrBase + regionConsole.1 + e * 0x4000000 + (d.engine e).base + line * m.stride
      let pixels (x count : Nat) : List Byte :=
        (List.range count).flatMap fun i => wirePixel m.format (readBytes s.mem (first + (x + i) * bytes) bytes)
      let send (d : Dev) (x : Nat) : Dev := d.sendSegment e b.gvh m line x (min most (m.w - x)) (pixels x (min most (m.w - x)))
      { s with dev := d.forEach ((List.range ((m.w + most - 1) / most)).map (· * most)) send }
  | _, _ => s

/-- What of a line of a stream from elsewhere has not arrived is sent as black (R304). -/
def Dev.lineDue (d : Dev) (m e line : Nat) (segments : List Nat) : Dev :=
  match d.inStream m e with
  | none => d
  | some x =>
    let frame := if x.dueLine.isNone ∨ line = 0 then x.frameOut + 1 else x.frameOut
    let missing := (segments.filter fun p => !x.held.contains (frame, line, p)).length
    let x := { x with
      frameOut := frame
      dueLine := some line
      held := x.held.filter fun h => !(h.1 == frame && h.2.1 == line)
      black := x.black + missing }
    (d.setInStream x).count (frontCtr x.port 5) missing

/-- CONSOLE_LINE_DUE: the line is due at its destination, or fetched and sent at the engine's module (R301, R303, R304). -/
def execConsoleLineDue (source : Fin 8192) (engine : Fin 64) (line : Fin 65536) (segments : List (Fin 65536)) (s : State) :
    Host.Outcome State Fault Refusal :=
  onState s fun s =>
    if source.val = s.dev.moduleId then sendLine s engine line
    else { s with dev := s.dev.lineDue source engine line (segments.map (·.val)) }

/-- CONSOLE_SEGMENTS: one record per stream with anything to report in the second (R304). -/
def execConsoleSegments (s : State) : Host.Outcome State Fault Refusal :=
  onDev s fun d =>
    let due := d.inStreams.filter fun x => x.black + x.discarded != 0
    let d := d.forEach due fun d x =>
      d.record 0x0B80 { die := 5, port := fpidOf x.modul 447, object := x.engine, count := x.black + x.discarded }
    { d with inStreams := d.inStreams.map fun x => { x with black := 0, discarded := 0 } }

end Sys2Proof.Machine
end

