-- ==== Sys2Proof/Machine/Service.lean ====
section
/-! DEFINITION. Service ownership, the Service Hub and the Management USB Device (R307 to R322). -/

namespace Sys2Proof.Machine

/-- What a USH_EVENTS record carries: the front port in PORT (R322, log entry 21). -/
def serviceEv (t : Nat) : Ev := { die := 5, port := t }

/-- A front port that holds, or waits to hold, service ownership. -/
def Dev.owner (d : Dev) : Option Nat := if d.is USH_OWNER.VALID 0 then some (d.get USH_OWNER.PORT 0) else none

/-- The front port a USH_EVENTS record names. -/
def Dev.servicePort (d : Dev) : Nat := d.get USH_OWNER.PORT 0

/-- A port with a host can be a service candidate: attached, UFP and so not wet (R307). -/
def Dev.canServe (d : Dev) (t : Nat) : Bool :=
  (d.get PD_PORT_STATUS.STATE t == 2 || d.get PD_PORT_STATUS.STATE t == 3) && !d.is PD_PORT_STATUS.DFP t

/-- Port t is a candidate. -/
def Dev.candidate (d : Dev) (t : Nat) : Bool := d.candidates.any fun c => c.port == t

/-- The candidate that attached first, of those the lowest-numbered (R307). -/
def earliest (cs : List Candidate) : Option Nat :=
  let sooner (a b : Candidate) : Candidate :=
    if a.since < b.since ∨ (a.since = b.since ∧ a.port ≤ b.port) then a else b
  match cs with
  | [] => none
  | c :: rest => some (rest.foldl sooner c).port

/-- A port that gains or loses ownership while a USB4 host is attached initialises its link again (R283). -/
def Dev.reinit (d : Dev) (t : Nat) : Dev :=
  let r := d.get TUN_PORT_STATUS.ROLE t
  d.when (r == 2 || r == 3) fun d => (d.usb4Lost t).emit (.signal "USB4 link initialised again" [t])

/-- Ownership goes to a port, or to none; the hub follows with OWNER_CHANGED (R307, R308, R309). -/
def Dev.setOwner (d : Dev) (target : Option Nat) : Dev :=
  if d.owner = target then d.put USH_OWNER.WAITING 0 0
  else
    let old := d.owner
    let d := (d.put USH_OWNER.WAITING 0 0).mark USH_OWNER.VALID 0 target.isSome
    let d := match target with
      | some t => (d.put USH_OWNER.PORT 0 t).reinit t
      | none => d
    match old with
    | some t => d.reinit t
    | none => d

/-- Ownership as R307 assigns it: to PIN_PORT alone where pinned; otherwise the owner keeps it, and with none the earliest
candidate takes it. -/
def Dev.assignOwner (d : Dev) : Dev :=
  if d.is USH_OWNER_CFG.PIN 0 then
    let t := d.get USH_OWNER_CFG.PIN_PORT 0
    if d.candidate t then d.setOwner (some t)
    else if d.owner = some t then d
    else d.setOwner none
  else match d.owner with
    | some _ => d
    | none => d.setOwner (earliest d.candidates)

/-! ### The Management USB Device's side of a disconnect -/

/-- An open session is discarded without COMMIT (R316). -/
def Dev.discardSession (d : Dev) : Dev :=
  match d.mud.session with
  | none => d
  | some _ =>
    Dev.raise { d with mud := { d.mud with session := none } } USH_EVENTS.IMAGE_ABORTED 0 (serviceEv d.servicePort)

/-- A state-changing request is abandoned (R318). -/
def Dev.abandonRequest (d : Dev) : Dev := d.raise USH_EVENTS.CTRL_ABANDONED 0 (serviceEv d.servicePort)

/-- The device is unconfigured, and its pipes are aborted (R313, R318); its channels too (R395). -/
def Dev.mudReset (d : Dev) : Dev :=
  let d := d.discardSession
  let d := { d with mud := {} }
  let d := ((d.put USH_MUD_STATUS.SPEED 0 0).put USH_MUD_STATUS.LINK 0 0).put USH_MUD_STATUS.CONFIGURED 0 0
  ((d.put USH_MUD_STATUS.WAKE_PENDING 0 0).abortMaster 0x020 5).showMud

/-- The host configures the device at a speed; 0 leaves it unconfigured. -/
def Dev.mudConfigure (d : Dev) (speed : Nat) : Dev :=
  if d.is USH_MUD_CTL.CONNECT 0 ∧ d.hubPort.isSome ∧ speed ≠ 0 then
    (d.put USH_MUD_STATUS.SPEED 0 speed).put USH_MUD_STATUS.CONFIGURED 0 1
  else d

/-- The hub leaves its port on both buses (R309); without an owner the USB-A ports are unpowered (R311). -/
def Dev.hubLeave (d : Dev) : Dev :=
  match d.hubPort with
  | none => d
  | some t =>
    let d := Dev.mudReset { d with hubPort := none, usbaOpen := [] }
    (d.put USH_OWNER.PATH 0 0).put TUN_PORT_STATUS.USB3_UP t 0

/-! ### Ownership -/

/-- SERVICE_OWNER: ownership moves to a candidate, pinned or not; 0xFF names no port, and only unpins (R307, R308, log entry 22). -/
def execServiceOwner (h : CmdHdr) (port pin : Byte) (s : State) : Host.Outcome State Fault Refusal :=
  onDev s fun d =>
    let op := 0x0A04
    d.moduleCommand h op [2, 4] false fun d =>
      let t := port.toNat
      if 16 ≤ t ∧ t ≠ 0xFF then d.badParam h op 0
      else if 1 < pin.toNat ∨ (t = 0xFF ∧ pin = 1) then d.badParam h op 1
      else if t = 0xFF then
        ((d.put USH_OWNER_CFG.PIN 0 0).assignOwner).finish h op Status.ok
      else if !d.candidate t then d.finish h op Status.notCandidate
      else
        let d := (d.mark USH_OWNER_CFG.PIN 0 (pin == 1)).when (pin == 1) (·.put USH_OWNER_CFG.PIN_PORT 0 t)
        (d.setOwner (some t)).finish h op Status.ok

/-- Port t is a candidate from now on (R307); one that is the owner in waiting takes ownership back (R308). -/
def Dev.addCandidate (d : Dev) (t : Nat) (usb4 : Bool) : Dev :=
  if d.hubLost then d else
  let d := { d with candidates := (d.candidates.filter fun (c : Candidate) => c.port != t) ++ [(⟨t, usb4, d.now⟩ : Candidate)] }
  if d.owner = some t then d.put USH_OWNER.WAITING 0 0 else d.assignOwner

/-- SERVICE_CANDIDATE_ATTACH (R307, R308). -/
def execServiceCandidateAttach (port : Fin 16) (usb4 : Bool) (s : State) : Host.Outcome State Fault Refusal :=
  onDev s fun d => if d.canServe port then d.addCandidate port usb4 else d

/-- A port is no candidate any longer. -/
def Dev.dropCandidate (d : Dev) (t : Nat) : Dev :=
  { d with candidates := d.candidates.filter fun (c : Candidate) => c.port != t }

/-- The owner's partner is gone: the hub loses its host, and the 1 s wait starts (R308). -/
def Dev.ownerDetach (d : Dev) : Dev :=
  match d.owner with
  | some t => ((d.dropCandidate t).hubLeave).put USH_OWNER.WAITING 0 1
  | none => d

/-- OWNER_DETACH (R308). -/
def execOwnerDetach (s : State) : Host.Outcome State Fault Refusal := onDev s fun d => d.ownerDetach

/-- A port's data role is DFP now: it is no candidate, and its ownership ends (R308, R334). -/
def Dev.serviceEnds (d : Dev) (t : Nat) : Dev :=
  let d := d.dropCandidate t
  if d.owner = some t then ((d.hubLeave).setOwner none).assignOwner else d

/-- OWNER_WAIT_EXPIRY (R307, R308). -/
def execOwnerWaitExpiry (s : State) : Host.Outcome State Fault Refusal :=
  onDev s fun d => if d.is USH_OWNER.WAITING 0 then (d.setOwner none).assignOwner else d

/-- OWNER_CHANGED: the hub leaves the old port and connects on the owner's (R309). -/
def execOwnerChanged (speed : Fin 4) (s : State) : Host.Outcome State Fault Refusal :=
  onDev s fun d =>
    if d.hubPort = d.owner then d
    else
      let d := d.hubLeave
      let d := match d.owner with
        | none => d
        | some t => match d.candidates.find? fun (c : Candidate) => c.port == t with
          | none => d
          | some c =>
            let d := { d with hubPort := some t }
            let d := (d.put USH_OWNER.PATH 0 (if c.usb4 then 2 else 1)).mark TUN_PORT_STATUS.USB3_UP t c.usb4
            d.mudConfigure speed
      d.raise USH_EVENTS.OWNER_CHANGED 0 (serviceEv d.servicePort)

/-- USBA_OVERCURRENT: the switch opens, until the host powers the port again (R311). -/
def execUsbaOvercurrent (port : Fin 4) (s : State) : Host.Outcome State Fault Refusal :=
  onDev s fun d =>
    if d.hubPort.isNone ∨ d.usbaOpen.contains port.val then d
    else
      let d := Dev.emit { d with usbaOpen := d.usbaOpen ++ [port.val] } (.respond "over-current" [port.val + 1])
      d.raise USH_EVENTS.USBA_OVERCURRENT 0 { serviceEv d.servicePort with object := port.val }

/-! ### The Management USB Device -/

/-- A word is written to USH_MUD_CTL: clearing CONNECT disconnects the device; setting it connects the device at a link speed (R313). -/
def Dev.writeMudCtl (d : Dev) (v speed : Nat) : Dev :=
  let on := bitOf v 0
  if on == d.is USH_MUD_CTL.CONNECT 0 then d
  else if on then (d.put USH_MUD_CTL.CONNECT 0 1).mudConfigure speed
  else (d.put USH_MUD_CTL.CONNECT 0 0).mudReset

/-- USH_MUD_CONNECT_WRITE (R313). -/
def execUshMudConnectWrite (master : Fin 2048) (value : Word) (speed : Fin 4) (s : State) :
    Host.Outcome State Fault Refusal :=
  onDev s fun d => d.curatorOnly master 0x806000008 (·.writeMudCtl value.toNat speed)

/-- A STALL (R315). -/
def Dev.stall (d : Dev) (what : String) : Dev := d.emit (.respond ("STALL " ++ what) [])

/-- A request the device takes: it is configured, and a transfer brings its link to L0 or U0. -/
def onMud (s : State) (f : State → State) : Host.Outcome State Fault Refusal :=
  onState s fun s =>
    if s.dev.is USH_MUD_CTL.CONNECT 0 ∧ s.dev.is USH_MUD_STATUS.CONFIGURED 0 ∧ s.dev.get USH_MUD_STATUS.LINK 0 ≠ 4 then
      f { s with dev := s.dev.put USH_MUD_STATUS.LINK 0 0 }
    else s

/-- A request that changes state: stalled, or abandoned before its status stage, or carried out (R315, R318). -/
def changing (s : State) (what : String) (bad completes : Bool) (f : State → State) : State :=
  if bad then { s with dev := s.dev.stall what }
  else if completes then f s
  else { s with dev := s.dev.abandonRequest }

/-- GET_INFO (R314). -/
def execGetInfo (len : Fin 65536) (s : State) : Host.Outcome State Fault Refusal :=
  onMud s fun s =>
    let d := s.dev
    let v := (if s.nv.booted = 0 then s.nv.fwA else s.nv.fwB).version
    if len.val ≠ 64 then { s with dev := d.stall "GET_INFO" }
    else
      { s with dev := d.emit (.respond "GET_INFO" [d.moduleId, s.nv.serial, v, d.servicePort,
          d.get USH_MUD_STATUS.IMAGE_OPEN 0, d.get USH_MUD_STATUS.LOG_OPEN 0, d.get USH_MUD_STATUS.OUTSTANDING 0]) }

/-- A tag of the device's is outstanding: submitted and not yet read (R315). -/
def Dev.mudTag (d : Dev) (tag : Nat) : Bool :=
  (d.cmds.any fun c => c.caller == 0x020 && c.origin.isNone && c.tag == tag) || d.mudDone.any fun r => r.1 == tag

/-- SUBMIT_COMMAND (R314, R315, R318): the descriptor goes into the device's buffer and is taken at intake. -/
def execSubmitCommand (len : Fin 65536) (addr : Nat) (data : List Byte) (completes : Bool) (s : State) :
    Host.Outcome State Fault Refusal :=
  onMud s fun s =>
    let x := descriptorOf data
    let bad := len.val != 128 || data.length != 128 || decide (16 ≤ s.dev.get USH_MUD_STATUS.OUTSTANDING 0) || s.dev.mudTag x.tag
    changing s "SUBMIT_COMMAND" bad completes fun s =>
      let h := headerOf addr 0x020 x
      let s := ({ s with dev := s.dev.intake h none x } : State).store none addr data
      let s := writeIntake s h
      { s with dev := s.dev.showMud }

/-- GET_RESPONSE (R314, R315): a response read after completion is forgotten. -/
def execGetResponse (len tag : Fin 65536) (s : State) : Host.Outcome State Fault Refusal :=
  onMud s fun s =>
    let d := s.dev
    let answer (addr : Nat) : Out := .respond "GET_RESPONSE" ((readBytes s.mem addr 128).map (·.toNat))
    if len.val ≠ 128 then { s with dev := d.stall "GET_RESPONSE" }
    else match d.mudDone.find? fun r => r.1 == tag.val with
      | some r =>
        let d := d.emit (answer r.2.1)
        { s with dev := Dev.showMud { d with mudDone := d.mudDone.filter fun (x : Nat × Nat × Nat) => x.1 != tag.val } }
      | none => match d.cmds.find? fun c => c.caller == 0x020 && c.origin.isNone && c.tag == tag.val with
        | some c => { s with dev := d.emit (answer c.addr) }
        | none => { s with dev := d.stall "GET_RESPONSE" }

/-- IMAGE_BEGIN: one session, of a target the service role may write, at most 64 MiB (R315, R316, R368). -/
def execImageBegin (len : Fin 65536) (target length crc : Word) (completes : Bool) (s : State) :
    Host.Outcome State Fault Refusal :=
  onMud s fun s =>
    let bad := len.val != 16 || s.dev.mud.session.isSome || !(target == 1 || target == 2) || decide (0x4000000 < length.toNat)
    changing s "IMAGE_BEGIN" bad completes fun s =>
      let d := s.dev
      { s with dev := Dev.showMud { d with mud := { d.mud with session := some (target.toNat, length.toNat, crc.toNat, []) } } }

/-- IMAGE_DATA: a transfer beyond the stated length is stalled, and the session discarded (R316). -/
def execImageData (data : List Byte) (s : State) : Host.Outcome State Fault Refusal :=
  onMud s fun s =>
    let d := s.dev
    match d.mud.session with
    | none => { s with dev := d.stall "IMAGE_DATA" }
    | some (target, length, crc, got) =>
      if length < got.length + data.length then { s with dev := ((d.stall "IMAGE_DATA").discardSession).showMud }
      else { s with dev := { d with mud := { d.mud with session := some (target, length, crc, got ++ data) } } }

/-- IMAGE_COMMIT: the image is staged where length and CRC-32 match, else discarded (R315, R316). -/
def execImageCommit (len : Fin 65536) (completes : Bool) (s : State) : Host.Outcome State Fault Refusal :=
  onMud s fun s =>
    changing s "IMAGE_COMMIT" (len.val != 0 || s.dev.mud.session.isNone) completes fun s =>
      let d := s.dev
      match d.mud.session with
      | none => s
      | some (target, length, crc, got) =>
        if got.length = length ∧ crc32 got = crc then
          { s with dev := Dev.showMud { d with images := SMap.set [] d.images target got, mud := { d.mud with session := none } } }
        else { s with dev := ((d.stall "IMAGE_COMMIT").discardSession).showMud }

/-- IMAGE_ABORT (R316). -/
def execImageAbort (len : Fin 65536) (completes : Bool) (s : State) : Host.Outcome State Fault Refusal :=
  onMud s fun s =>
    changing s "IMAGE_ABORT" (len.val != 0) completes fun s => { s with dev := s.dev.discardSession.showMud }

/-- LOG_OPEN (R317). -/
def execLogOpen (len : Fin 65536) (source : Word) (start : Nat) (completes : Bool) (s : State) :
    Host.Outcome State Fault Refusal :=
  onMud s fun s =>
    let src := source.toNat
    changing s "LOG_OPEN" (len.val != 16 || src == 0 || decide (3 < src)) completes fun s =>
      { s with dev := Dev.showMud { s.dev with mud := { s.dev.mud with log := some (src, start) } } }

/-- LOG_CLOSE (R317). -/
def execLogClose (len : Fin 65536) (completes : Bool) (s : State) : Host.Outcome State Fault Refusal :=
  onMud s fun s =>
    changing s "LOG_CLOSE" (len.val != 0) completes fun s =>
      { s with dev := Dev.showMud { s.dev with mud := { s.dev.mud with log := none, armed := false } } }

/-- ESEQs of the records kept at or after one, in ESEQ order (R280). -/
def Dev.kept (d : Dev) (first : Nat) : List EvRec :=
  (((d.ring.map (·.2)) ++ d.staging).filter fun r => decide (first ≤ r.eseq.getD 0) && r.eseq.isSome).mergeSort
    fun a b => decide (a.eseq.getD 0 ≤ b.eseq.getD 0)

/-- Records of 64 bytes a Catalogue or Specimen ring holds: its region (R31). -/
def logRegion (source : Nat) : Nat × Nat := if source = 2 then regionCatalogue else regionSpecimen

/-- LOG_PIPE_SEND: the next records of the source; overwritten ones are skipped (R317). -/
def execLogPipeSend (count : Nat) (s : State) : Host.Outcome State Fault Refusal :=
  onMud s fun s =>
    let d := s.dev
    match d.mud.log with
    | none => s
    | some (1, pos) =>
      let rs := (d.kept pos).take count
      let next := match rs.getLast? with
        | some r => r.eseq.getD 0 + 1
        | none => pos
      let d := rs.foldl (fun (d : Dev) r => d.emit (.respond "log record" (r.bytes.map (·.toNat)))) d
      { s with dev := { d with mud := { d.mud with log := some (1, next), armed := decide (rs.length < count) } } }
    | some (src, pos) =>
      let total := SMap.get 0 d.ringRecords src
      let slots := (if src = 3 then (SMap.get {} d.spcs 0).ring else (logRegion src).2) / 64
      let first := max pos (total - slots)
      let n := min count (total - first)
      let at_ (i : Nat) : Nat := ddrBase + (logRegion src).1 + (first + i) % slots * 64
      let d := (List.range n).foldl (fun (d : Dev) i =>
        d.emit (.respond "log record" ((readBytes s.mem (at_ i) 64).map (·.toNat)))) d
      { s with dev := { d with mud := { d.mud with log := some (src, first + n), armed := decide (n < count) } } }

/-- USB_BUS_RESET: a bus reset or a disconnect (R313, R318). -/
def execUsbBusReset (gone abandons : Bool) (speed : Fin 4) (s : State) : Host.Outcome State Fault Refusal :=
  onDev s fun d =>
    if d.hubPort.isNone ∨ !d.is USH_MUD_CTL.CONNECT 0 then d
    else
      let d := (d.when abandons (·.abandonRequest)).mudReset
      if gone then d else d.mudConfigure speed

/-- RESPONSE_EXPIRY: 60 s after completion (R315). -/
def execResponseExpiry (tag : Fin 65536) (s : State) : Host.Outcome State Fault Refusal :=
  onDev s fun d => Dev.showMud { d with mudDone := d.mudDone.filter fun (r : Nat × Nat × Nat) => r.1 != tag.val }

/-! ### Link power management and wake -/

/-- A transfer is pending (R319): a response ready and not read, an armed bulk IN transfer with data waiting, an image session. -/
def Dev.transferPending (d : Dev) : Bool :=
  !d.mudDone.isEmpty || d.mud.session.isSome ||
    (d.mud.armed && match d.mud.log with
      | some (1, pos) => !(d.kept pos).isEmpty
      | some (src, pos) => decide (pos < SMap.get 0 d.ringRecords src)
      | none => false)

/-- USB_LPM_REQUEST (R319): L1 from a BESL of 2, at USB 2.0; U1 and U2 at SuperSpeed Plus. -/
def execUsbLpmRequest (state : Fin 4) (besl : Fin 16) (s : State) : Host.Outcome State Fault Refusal :=
  onMud s fun s =>
    let d := s.dev
    let st := state.val
    let fits := if st = 1 then d.get USH_MUD_STATUS.SPEED 0 != 3 && decide (2 ≤ besl.val)
      else st != 0 && d.get USH_MUD_STATUS.SPEED 0 == 3
    if st = 0 then s
    else if fits && !d.transferPending then
      { s with dev := (d.put USH_MUD_STATUS.LINK 0 st).emit (.respond "LPM accepted" [st]) }
    else { s with dev := d.emit (.respond "LPM refused" [st]) }

/-- USB_IDLE_LINK_ENTRY: the device initiates U1, or U2, where enabled (R319). -/
def execUsbIdleLinkEntry (u2 enabled : Bool) (s : State) : Host.Outcome State Fault Refusal :=
  onMud s fun s =>
    let d := s.dev
    if enabled ∧ d.get USH_MUD_STATUS.SPEED 0 = 3 ∧ !d.transferPending then
      { s with dev := d.put USH_MUD_STATUS.LINK 0 (if u2 then 3 else 2) }
    else s

/-- USB_SUSPEND (R319, R320). -/
def execUsbSuspend (remoteWakeup : Bool) (s : State) : Host.Outcome State Fault Refusal :=
  onMud s fun s =>
    let d := s.dev
    { s with dev := { d.put USH_MUD_STATUS.LINK 0 4 with mud := { d.mud with remoteWakeup := remoteWakeup } } }

/-- REMOTE_WAKE: a pending wake is signalled (R320). -/
def execRemoteWake (s : State) : Host.Outcome State Fault Refusal :=
  onDev s fun d =>
    if d.get USH_MUD_STATUS.LINK 0 = 4 ∧ d.is USH_MUD_STATUS.WAKE_PENDING 0 then
      let d := (d.bump USH_MUD_WAKE.SIGNALLED 0 1).emit (.signal "USB wake" [d.get USH_MUD_STATUS.SPEED 0])
      (d.put USH_MUD_STATUS.WAKE_PENDING 0 0).put USH_MUD_STATUS.LINK 0 0
    else d

/-- HOST_RESUME: with a wake pending the host's resume delivers it (R321). -/
def execHostResume (s : State) : Host.Outcome State Fault Refusal :=
  onDev s fun d =>
    if d.get USH_MUD_STATUS.LINK 0 ≠ 4 then d
    else
      let met := d.is USH_MUD_STATUS.WAKE_PENDING 0
      let d := d.put USH_MUD_STATUS.LINK 0 0
      if met then
        ((d.put USH_MUD_STATUS.WAKE_PENDING 0 0).bump USH_MUD_WAKE.COLLIDED 0 1).raise USH_EVENTS.WAKE_COLLIDED 0
          (serviceEv d.servicePort)
      else d

end Sys2Proof.Machine
end

