-- ==== Sys2Proof/Machine/Efuse.lean ====
section
/-! DEFINITION. The electronic fuses: their states, the cage pool and slot power limits (R27, R119, R154, R155, R349 to R359). -/

namespace Sys2Proof.Machine

/-- E-fuse n beside its registers. -/
def Dev.efuse (d : Dev) (n : Nat) : Efuse := SMap.get {} d.efuses n

/-- An e-fuse changes. -/
def Dev.setEfuse (d : Dev) (n : Nat) (f : Efuse → Efuse) : Dev := { d with efuses := SMap.modify {} d.efuses n f }

/-- STATE of e-fuse n: 0 OFF, 1 RAMP, 2 ON, 3 RETRY_WAIT, 4 LATCHED, 5 DAMAGED (R360). -/
def Dev.efState (d : Dev) (n : Nat) : Nat := d.get EF_STATUS.STATE n

/-- What an EF_EVENTS record carries: the cage or front port in PORT, the e-fuse in OBJECT, and in DIE the port die of the cage, or 5, the
tunnel-hub die, for a VBUS switch (R277, R360; DEDUCED, log entry 21). -/
def efEv (n : Nat) : Ev :=
  { die := if n < 56 then dieOf (n * 8) else 5, port := if n < 56 then n else n - 56, object := n }

/-- An event bit of an e-fuse is set. -/
def Dev.efRaise (d : Dev) (n : Nat) (f : Fld) : Dev := d.raise f n (efEv n)

/-- A cage whose PERST_N the module drives: it holds no upstream port (R119, R120). -/
def Dev.drivenCage (d : Dev) (c : Nat) : Bool := !((d.portsInCage c).any d.hostFacing)

/-! ### The cage pool -/

/-- The charge of a cage changes; PWR_CAGE_USED shows the sum (R349). -/
def Dev.chargeCage (d : Dev) (n mw : Nat) : Dev :=
  let used := d.get PWR_CAGE_USED.USED_MW 0 - (d.efuse n).charge + mw
  (d.put PWR_CAGE_USED.USED_MW 0 used).setEfuse n fun e => { e with charge := mw }

/-- Room for a charge of cage n in place of its present one, in mW (R27). -/
def Dev.cageRoom (d : Dev) (n : Nat) : Nat :=
  d.get PWR_POOLS.CAGE_W 0 * 1000 - (d.get PWR_CAGE_USED.USED_MW 0 - (d.efuse n).charge)

/-! ### Ramps -/

/-- Cage e-fuses in RAMP (R350). -/
def Dev.ramping (d : Dev) : Nat := ((List.range 56).filter fun n => d.efState n == 1).length

/-- An e-fuse enters RAMP. -/
def Dev.ramp (d : Dev) (n : Nat) : Dev := ((d.put EF_STATUS.STATE n 1).put EF_STATUS.VGS n 0).put EF_STATUS.QUEUED n 0

/-- Enables that wait start as ramps end (R350). -/
def Dev.rampNext (d : Dev) : Dev :=
  match d.efQueue with
  | [] => d
  | n :: rest => if d.ramping < 8 then Dev.ramp { d with efQueue := rest } n else d

/-- A ramp starts, or waits behind eight others (R350); a VBUS switch stays off once its die is lost (R29). -/
def Dev.startRamp (d : Dev) (n : Nat) : Dev :=
  if n < 56 ∧ (8 ≤ d.ramping ∨ d.efQueue ≠ []) then
    if d.efQueue.contains n then d
    else { d.put EF_STATUS.QUEUED n 1 with efQueue := d.efQueue ++ [n] }
  else if 56 ≤ n ∧ d.hubLost then d
  else d.ramp n

/-! ### Power-good -/

/-- Power Fault Detected for what an e-fuse feeds: the ports of a cage; the tunnel endpoints of a front port (R152). -/
def Dev.powerFault (d : Dev) (n : Nat) : Dev :=
  if n < 56 then
    d.forEach (d.portsInCage n) fun d p => (d.put EBR_SIDEBAND.PFAULT p 1).sideband p 3 1 0
  else
    d.sidebandOf (n - 56) (d.tunnelEndpoints (n - 56)) 3 1 0

/-- Power-good is withdrawn without a command: PERST_N and Power Fault Detected (R119, R152, R354). -/
def Dev.withdrawPg (d : Dev) (n : Nat) : Dev :=
  if d.is EF_STATUS.PG n then
    let d := d.put EF_STATUS.PG n 0
    (d.when (decide (n < 56) && d.drivenCage n) (·.setPerst n true)).powerFault n
  else d

/-- The gate goes off: neither power-good nor a running timer, and a ramp ends. -/
def Dev.gateOff (d : Dev) (n st : Nat) : Dev :=
  let d := ((d.put EF_STATUS.STATE n st).put EF_STATUS.TIMER n 0).put EF_STATUS.VGS n 0
  let d := { d.put EF_STATUS.QUEUED n 0 with efQueue := d.efQueue.filter (· ≠ n) }
  d.rampNext

/-- An e-fuse goes to OFF: RETRIES cleared, charge released (R352); a commanded disable asserts PERST_N first (R119). -/
def Dev.efOff (d : Dev) (n : Nat) : Dev :=
  let d := d.when (decide (n < 56) && d.drivenCage n) (·.setPerst n true)
  let d := (d.put EF_STATUS.PG n 0).put EF_STATUS.RETRIES n 0
  let d := (d.gateOff n 0).when (decide (n < 56)) (·.chargeCage n 0)
  d.when (decide (n < 56)) fun d => d.forEach (d.portsInCage n) fun d p => d.put EBR_SIDEBAND.PFAULT p 0

/-- An e-fuse is DAMAGED with a cause: 1 gate, 2 backfeed, 3 shorted (R356, R357). -/
def Dev.efDamaged (d : Dev) (n cause : Nat) : Dev :=
  let d := (d.withdrawPg n).put EF_STATUS.DAMAGE n cause
  (d.gateOff n 5).when (decide (n < 56)) (·.chargeCage n 0)

/-- A trip: RETRY_WAIT, or LATCHED after eight retries (R352, R355). -/
def Dev.trip (d : Dev) (n : Nat) (fast : Bool) : Dev :=
  let latch := d.get EF_STATUS.RETRIES n == 8
  let had := d.is EF_STATUS.PG n
  let d := (d.count (modCtr 1540 n) 1).efRaise n (if fast then EF_EVENTS.FAST_TRIP else EF_EVENTS.TRIP)
  let d := ((d.withdrawPg n).when (!had) (·.powerFault n)).gateOff n (if latch then 4 else 3)
  d.when latch (·.efRaise n EF_EVENTS.LATCHED)

/-- A presence change in RETRY_WAIT or LATCHED (R352). -/
def Dev.efPresence (d : Dev) (n : Nat) : Dev :=
  if d.efState n = 3 ∨ d.efState n = 4 then (d.efOff n).efRaise n EF_EVENTS.PRESENCE_CHANGED_DURING_RETRY else d

/-! ### Slot power limits -/

/-- The allotment in force shows in the ports of the cage, their endpoints and virtual slots (R151, R155, R171). -/
def Dev.tellSpl (d : Dev) (c : Nat) : Dev :=
  let e := d.efuse c
  let x := d.splFor c e.value e.scale
  d.forEach (d.portsInCage c) fun d p =>
    let d := ((d.put EBR_SIDEBAND.SPL_VALUE p e.value).put EBR_SIDEBAND.SPL_SCALE p e.scale).put EBR_SIDEBAND.LIMIT_MA p
      (d.get EF_CTL.LIMIT_MA c)
    let d := d.sideband p 4 x.2 x.1
    d.when (d.deviceFacing p && d.is PRT_PORT_STATUS.DL_ACTIVE p) (·.emit (.setSlotPowerLimit p x.1 x.2))

/-- The fault timer starts; power-good is withdrawn (R352, R354). -/
def Dev.limitReached (d : Dev) (n : Nat) : Dev :=
  let had := d.is EF_STATUS.PG n
  let d := (d.put EF_STATUS.TIMER n 1).withdrawPg n
  d.when had (·.efRaise n EF_EVENTS.PG_WITHDRAWN)

/-- An e-fuse takes a current limit; one below the present current engages it, and the fault timer starts (R352, R358). -/
def Dev.setLimit (d : Dev) (n ma : Nat) : Dev :=
  let d := d.put EF_CTL.LIMIT_MA n ma
  d.when ((d.efState n == 1 || d.efState n == 2) && !d.is EF_STATUS.TIMER n && decide (ma < d.get EF_MEAS.MA n)) (·.limitReached n)

/-- An enable of a cage on this module (R27, R154, R350, R358): a status, DETAIL, and the module after it. -/
def Dev.tryCage (d : Dev) (c value scale priority : Nat) : Nat × Nat × Dev :=
  let mw := splMilliwatts value scale
  let refused : Dev := d.forEach (d.portsInCage c) fun d p => d.raise EBR_EVENTS.SPL_REFUSED p (d.portEv p)
  if (List.range 7).any fun r => decide (100 < signedOf 8 (d.get HLT_RAIL_AGE.TEMP_C r)) then (Status.badState, 0, d)
  else if d.efState c = 5 then (Status.damaged, 0, d)
  else if d.efState c = 4 then (Status.latched, 0, d)
  else if 24000 < mw then (Status.limitExceeded, 0, refused)
  else if d.cageRoom c < mw then (Status.budgetExceeded, d.cageRoom c / 1000, refused)
  else
    let off := d.efState c == 0
    let d := (d.chargeCage c mw).setEfuse c fun e => { e with value := value, scale := scale }
    let d := (d.setLimit c (splMilliamps mw)).put EF_CTL.PRIORITY c priority
    (Status.ok, 0, (d.tellSpl c).when off (·.startRamp c))

/-- EFUSE_ENABLE of a cage on this module. -/
def Dev.enableCage (d : Dev) (h : CmdHdr) (c value scale priority : Nat) : Dev :=
  match d.tryCage c value scale priority with
  | (st, detail, d) => d.finish h 0x0602 st detail

end Sys2Proof.Machine
end

