-- ==== Sys2Proof/Machine/TypeC.lean ====
section
/-! DEFINITION. Type-C ports and power negotiation (R323 to R339). -/

namespace Sys2Proof.Machine

/-- Front port t's PD controller beside its registers. -/
def Dev.pd (d : Dev) (t : Nat) : PdPort := SMap.get {} d.pds t

/-- A PD controller changes. -/
def Dev.setPd (d : Dev) (t : Nat) (f : PdPort → PdPort) : Dev := { d with pds := SMap.modify {} d.pds t f }

/-- STATE: 0 UNATTACHED, 1 WET, 2 ATTACHED_SRC, 3 ATTACHED_SNK, 4 SWAPPING, 5 TRANSITION, 6 HARD_RESET, 7 DISCHARGE (R339). -/
def Dev.pdState (d : Dev) (t : Nat) : Nat := d.get PD_PORT_STATUS.STATE t

/-- The state of a front port changes (R323). -/
def Dev.setPdState (d : Dev) (t st : Nat) : Dev := d.put PD_PORT_STATUS.STATE t st

/-- An event bit of a front port is set; its record names the port (R339, log entry 21). -/
def Dev.pdRaise (d : Dev) (t : Nat) (f : Fld) (object : Nat := 0) (detail : List Byte := []) : Dev :=
  d.raise f t { die := 5, port := t, object := object, detail := detail }

/-- The VBUS switch of a front port. -/
def vbusFuse (t : Nat) : Nat := 56 + t

/-! ### The PD pool -/

/-- The charge of a port changes; PD_POOL_USED shows the sum (R330, R339). -/
def Dev.chargePort (d : Dev) (t mw : Nat) : Dev :=
  let used := d.get PD_POOL_USED.USED_MW 0 - (d.pd t).charge + mw
  (d.put PD_POOL_USED.USED_MW 0 used).setPd t fun x => { x with charge := mw }

/-- Headroom of the pool with the port's present charge, in mW. -/
def Dev.pdRoom (d : Dev) (t : Nat) : Nat :=
  d.get PD_POOL_LIMIT.LIMIT_W 0 * 1000 - (d.get PD_POOL_USED.USED_MW 0 - (d.pd t).charge)

/-- Highest power of a port by its cable and PMAX, in mW (R329). -/
def Dev.pdLimit (d : Dev) (t : Nat) : Nat :=
  let cable := if d.is PD_CABLE.EPR_OK t then 140 else if d.is PD_CABLE.AMP5 t then 100 else 60
  min cable (d.get PD_PORT_POLICY.PMAX t) * 1000

/-- P_allow in mW (R331). -/
def Dev.pAllow (d : Dev) (t : Nat) : Nat := min (d.pdLimit t) (d.pdRoom t)

/-- The VBUS switch's limit for a contract current in mA (R351). -/
def vbusLimit (ma : Nat) : Nat := max 1000 (min 6500 ((ma * 5 + 199) / 200 * 50))

/-- Current in mA a power in mW gives at a voltage in mV, at most the cable's. -/
def currentAt (cable mw mv : Nat) : Nat := min cable (mw * 1000 / mv)

/-- What an object's fields stand for in mV and mA (R156). -/
def Pdo.lowMv (o : Pdo) : Nat := if o.kind = 0 then pdFixedMv o.low else pdApdoMv o.low
def Pdo.highMv (o : Pdo) : Nat := if o.kind = 0 then pdFixedMv o.high else pdApdoMv o.high
def Pdo.ma (o : Pdo) : Nat := if o.kind = 0 then pdFixedMa o.current else pdApdoMa o.current

/-- The objects offered for a power, a cable current and EPR mode, in PD units (R331, R156): currents rounded down to 10 mA, an APDO's to
50 mA, none below 1 A. -/
def offerOf (mw cable : Nat) (epr : Bool) : List Pdo :=
  let fixed (mv ma : Nat) : Pdo := ⟨0, mvToFixed mv, mvToFixed mv, maToFixed ma⟩
  let apdo (k low high : Nat) : Pdo := ⟨k, low / 100, high / 100, currentAt cable mw high / 50⟩
  let upTo (mv : Nat) : Pdo := fixed mv (currentAt cable mw mv)
  fixed 5000 3000 ::
    ([upTo 9000, upTo 15000, upTo 20000, apdo 1 3300 21000] ++
      (if epr then [upTo 28000, apdo 2 15000 28000] else [])).filter fun o => decide (1000 ≤ o.ma)

/-- Capabilities are offered up to a power; POOL_LIMITED where the pool is what limits it (R331, R332, R339). -/
def Dev.offerUpTo (d : Dev) (t mw : Nat) : Dev :=
  let os := offerOf mw (if d.is PD_CABLE.AMP5 t then 5000 else 3000) (d.is PD_PORT_STATUS.EPR t)
  let d := (d.setPd t fun x => { x with offer := os }).mark PD_PORT_STATUS.POOL_LIMITED t (decide (mw < d.pdLimit t))
  d.emit (.signal "source capabilities" (t :: os.flatMap fun o => [o.kind, o.low, o.high, o.current]))

/-- Capabilities are offered up to P_allow (R331). -/
def Dev.sendOffer (d : Dev) (t : Nat) : Dev := d.offerUpTo t (d.pAllow t)

/-- vSafe5V is sourced if 15 W is free, and refused otherwise (R27, R330, R350). -/
def Dev.sourceVbus (d : Dev) (t : Nat) : Dev :=
  let n := vbusFuse t
  if d.pdRoom t < 15000 then
    ((d.chargePort t 0).setPd t fun x => { x with refused := true }).pdRaise t PD_EVENTS.POOL_REFUSED
  else if d.efState n ≠ 0 then d
  else
    let d := (d.chargePort t 15000).setPd t fun x => { x with refused := false, explicit := false, watch := false }
    ((d.put EF_CTL.LIMIT_MA n 3750).put PD_PORT_STATUS.VBUS_MV t 5000).startRamp n

/-- The contract ends (R359). -/
def Dev.endContract (d : Dev) (t : Nat) : Dev :=
  let d := ((d.put PD_CONTRACT.MV t 0).put PD_CONTRACT.MA t 0).put PD_PORT_STATUS.EPR t 0
  d.setPd t fun x => { x with explicit := false, offer := [], target := none }

/-- The VBUS switch opens: charge released (R337). -/
def Dev.openVbus (d : Dev) (t : Nat) : Dev :=
  let n := vbusFuse t
  let d := if d.efState n = 5 then d else d.efOff n
  d.chargePort t 0

/-! ### Moisture -/

/-- PD_MOIST's units (R339). -/
def moistUnits (ohms : Nat) : Nat := min 255 (ohms / 4000)

/-- The reading shows in PD_MOIST. -/
def Dev.showMoist (d : Dev) (t : Nat) (m : Moisture) : Dev :=
  ((((d.put PD_MOIST.CC1_KOHM t (moistUnits m.cc1)).put PD_MOIST.CC2_KOHM t (moistUnits m.cc2)).put
    PD_MOIST.SBU1_KOHM t (moistUnits m.sbu1))).put PD_MOIST.SBU2_KOHM t (moistUnits m.sbu2)

/-- A reading of Rd or Ra (R326). -/
def termination (ohms : Nat) : Bool :=
  (decide (4000 ≤ ohms) && decide (ohms ≤ 6500)) || (decide (800 ≤ ohms) && decide (ohms ≤ 1200))

/-- A reading declares the port wet (R326): below 500 kΩ on any pin, but for a termination on one CC pin only. -/
def wetReading (m : Moisture) : Bool :=
  let low (x : Nat) : Bool := decide (x < 500000)
  if termination m.cc1 && !termination m.cc2 then low m.cc2 || low m.sbu1 || low m.sbu2
  else if termination m.cc2 && !termination m.cc1 then low m.cc1 || low m.sbu1 || low m.sbu2
  else low m.cc1 || low m.cc2 || low m.sbu1 || low m.sbu2

/-- MOISTURE_CHECK (R326). -/
def execMoistureCheck (port : Fin 16) (reading : Moisture) (s : State) : Host.Outcome State Fault Refusal :=
  onDev s fun d =>
    let t := port.val
    if d.pdState t ≠ 0 then d
    else
      let d := d.showMoist t reading
      if wetReading reading then
        ((d.setPdState t 1).setPd t fun x => { x with wetSince := d.now }).pdRaise t PD_EVENTS.WET
      else d

/-- MOISTURE_RECHECK (R327). -/
def execMoistureRecheck (port : Fin 16) (reading : Moisture) (s : State) : Host.Outcome State Fault Refusal :=
  onDev s fun d =>
    let t := port.val
    let dry (x : Nat) : Bool := decide (750000 ≤ x)
    if d.pdState t ≠ 1 then d
    else
      let d := d.showMoist t reading
      if dry reading.cc1 && dry reading.cc2 && dry reading.sbu1 && dry reading.sbu2 then d.setPdState t 0 else d

/-- CORROSION (R327). -/
def execCorrosion (port : Fin 16) (s : State) : Host.Outcome State Fault Refusal :=
  onDev s fun d => if d.pdState port = 1 then d.pdRaise port PD_EVENTS.CORROSION else d

/-! ### Attach -/

/-- TYPEC_ATTACH: as source and DFP, or as sink and UFP (R323, R330, R352). -/
def execTypecAttach (port : Fin 16) (source cc2 : Bool) (s : State) : Host.Outcome State Fault Refusal :=
  onDev s fun d =>
    let t := port.val
    if d.pdState t ≠ 0 ∨ !d.is PD_PORT_POLICY.ENABLE t ∨ d.hubLost then d
    else
      let d := (d.efPresence (vbusFuse t)).mark PD_PORT_STATUS.CC2 t cc2
      let d := (d.mark PD_PORT_STATUS.DFP t source).mark PD_PORT_STATUS.VCONN t source
      let d := d.setPd t fun _ =>
        { source := source, attachSource := source, attachDfp := source, attachVconn := source, discovering := true }
      if source then (d.setPdState t 2).sourceVbus t else d.setPdState t 3

/-- The marker's answer, or its absence, is recorded (R285, R328, R329). -/
def Dev.setCable (d : Dev) (t : Nat) (m : Option Marker) : Dev :=
  let d := (d.mark PD_CABLE.ANSWERED t m.isSome).setPd t fun x => { x with discovering := false }
  match m with
  | some m =>
    let d := ((d.mark PD_CABLE.EPR_OK t m.epr).mark PD_CABLE.AMP5 t m.amp5).mark PD_CABLE.ACTIVE t m.active
    let d := (d.mark PD_CABLE.SOP2 t (m.active && m.sop2)).put PD_CABLE.SPEED t m.speed
    (d.put TUN_PORT_STATUS.CABLE t m.speed).mark TUN_PORT_STATUS.ACTIVE_CABLE t m.active
  | none =>
    let d := ((d.put PD_CABLE.EPR_OK t 0).put PD_CABLE.AMP5 t 0).put PD_CABLE.ACTIVE t 0
    let d := (d.put PD_CABLE.SOP2 t 0).put PD_CABLE.SPEED t 0
    (d.put TUN_PORT_STATUS.CABLE t 7).put TUN_PORT_STATUS.ACTIVE_CABLE t 0

/-- CABLE_MARKER_READ: by the VCONN source, once in an attach (R286, R328). -/
def execCableMarkerRead (port : Fin 16) (marker : Marker) (s : State) : Host.Outcome State Fault Refusal :=
  onDev s fun d =>
    if (d.pd port).discovering ∧ d.is PD_PORT_STATUS.VCONN port then d.setCable port (some marker) else d

/-- CABLE_MARKER_TIMEOUT (R285, R329). -/
def execCableMarkerTimeout (port : Fin 16) (s : State) : Host.Outcome State Fault Refusal :=
  onDev s fun d => if (d.pd port).discovering then d.setCable port none else d

/-! ### Contracts -/

/-- The contract of a port attached as sink: 5 V at 100 mA, which no rail of the module uses (R325; log entry 117). -/
def Dev.sinkContract (d : Dev) (t : Nat) : Dev :=
  let d := (d.put PD_CONTRACT.MV t 5000).put PD_CONTRACT.MA t 100
  (d.setPd t fun x => { x with explicit := true }).emit (.signal "Request" [t, 5000, 100])

/-- SOURCE_CAPABILITIES_OFFER: a source's offer up to P_allow (R331); on a port attached as sink the offer is its partner's, and the port's
explicit contract is for 5 V at 100 mA (R325). -/
def execSourceCapabilitiesOffer (port : Fin 16) (s : State) : Host.Outcome State Fault Refusal :=
  onDev s fun d =>
    let t := port.val
    if d.pdState t = 3 then d.sinkContract t
    else if d.pdState t = 2 ∧ (d.pd t).source ∧ !(d.pd t).refused then d.sendOffer t else d

/-- Voltage and current a request's fields ask for, in mV and mA (R156). -/
def requestLevel (r : PdRequest) : Nat × Nat :=
  match r with
  | .fixed voltage current => (pdFixedMv voltage, pdFixedMa current)
  | .pps voltage current => (pdPpsRdoMv voltage, pdApdoMa current)
  | .avs voltage current => (pdAvsRdoMv voltage, pdApdoMa current)

/-- The kind of object a request takes. -/
def requestKind (r : PdRequest) : Nat :=
  match r with
  | .fixed _ _ => 0
  | .pps _ _ => 1
  | .avs _ _ => 2

/-- The charge of a request the offer allows, in mW; none for one it does not (R330, R331). -/
def PdPort.chargeFor (x : PdPort) (r : PdRequest) : Option Nat :=
  let (mv, ma) := requestLevel r
  match x.offer.find? fun o => o.kind == requestKind r && decide (o.lowMv ≤ mv) && decide (mv ≤ o.highMv) && decide (ma ≤ o.ma) with
  | some o => some (o.highMv * ma / 1000)
  | none => none

/-- A request is accepted: contract, charge and switch limit; a new level is a transition (R323, R331, R351). -/
def Dev.acceptRequest (d : Dev) (t mv ma mw : Nat) : Dev :=
  let n := vbusFuse t
  let d := ((d.chargePort t mw).put PD_CONTRACT.MV t mv).put PD_CONTRACT.MA t ma
  let d := (d.setPd t fun x => { x with explicit := true }).emit (.signal "Accept" [t, mv, ma])
  if d.get PD_PORT_STATUS.VBUS_MV t = mv then d.put EF_CTL.LIMIT_MA n (vbusLimit ma)
  else
    let d := d.put EF_CTL.LIMIT_MA n (max (d.get EF_CTL.LIMIT_MA n) (vbusLimit ma))
    (d.setPdState t 5).setPd t fun x => { x with target := some mv }

/-- PD_REQUEST: accepted within the offer and the pool, else rejected (R27, R331). -/
def execPdRequest (port : Fin 16) (request : PdRequest) (s : State) : Host.Outcome State Fault Refusal :=
  onDev s fun d =>
    let t := port.val
    let reject := d.emit (.signal "Reject" [t])
    if d.pdState t ≠ 2 then d
    else match (d.pd t).chargeFor request with
      | some mw => if mw ≤ d.pAllow t then d.acceptRequest t (requestLevel request).1 (requestLevel request).2 mw else reject
      | none => reject

/-- VBUS_WITHIN_RANGE: PS_RDY, and the switch takes the new limit (R323, R351). -/
def execVbusWithinRange (port : Fin 16) (s : State) : Host.Outcome State Fault Refusal :=
  onDev s fun d =>
    let t := port.val
    if d.pdState t ≠ 5 then d
    else match (d.pd t).target with
      | none => d.setPdState t 2
      | some mv =>
        let d := (d.put PD_PORT_STATUS.VBUS_MV t mv).put EF_CTL.LIMIT_MA (vbusFuse t) (vbusLimit (d.get PD_CONTRACT.MA t))
        ((d.setPdState t 2).setPd t fun x => { x with target := none }).emit (.signal "PS_RDY" [t])

/-- Front ports in ascending PRIORITY and number (R332). -/
def Dev.pdOrder (d : Dev) : List Nat :=
  [0, 1, 2, 3].flatMap fun p => (List.range 16).filter fun t => d.get PD_PORT_POLICY.PRIORITY t == p

/-- PD_HEADROOM_GROWTH: refused and limited ports are served (R330, R332). -/
def execPdHeadroomGrowth (s : State) : Host.Outcome State Fault Refusal :=
  onDev s fun d =>
    d.forEach d.pdOrder fun d t =>
      if d.pdState t ≠ 2 ∨ !(d.pd t).source then d
      else if (d.pd t).refused then
        if 15000 ≤ d.pdRoom t then (d.sourceVbus t).sendOffer t else d
      else if d.is PD_PORT_STATUS.POOL_LIMITED t then d.sendOffer t
      else d

/-- EPR_MODE_ENTRY: with an EPR-capable cable and more than 100 W allowed; the offer grows (R328, R331). -/
def execEprModeEntry (port : Fin 16) (s : State) : Host.Outcome State Fault Refusal :=
  onDev s fun d =>
    let t := port.val
    if d.pdState t ≠ 2 then d
    else if d.is PD_CABLE.EPR_OK t ∧ 100000 < d.pAllow t then (d.put PD_PORT_STATUS.EPR t 1).sendOffer t
    else d.emit (.signal "EPR entry refused" [t])

/-! ### Hard reset -/

/-- Every waiting or running swap of a port ends (R335, R336): each counts as failed; the command that asked ends (log entry 23). -/
def Dev.failSwaps (d : Dev) (t : Nat) : Dev :=
  let x := d.pd t
  let now : List (PdSwap × Bool) := x.swap.toList ++ x.waiting.map fun w => (w.1, w.2.1)
  let d := d.forEach now fun d w => d.pdRaise t PD_EVENTS.SWAP_FAILED (swapCode w.1)
  let d := d.setPd t fun x =>
    { x with swap := none, waiting := [], failed := (x.failed ++ now.map (·.1)).eraseDups }
  d.endWaiting (.swap t) Status.swapHold

/-- The port's roles are those it took at attach (R335). -/
def Dev.attachRoles (d : Dev) (t : Nat) : Dev :=
  let x := d.pd t
  let was := d.is PD_PORT_STATUS.DFP t
  let d := (d.setPd t fun x => { x with source := x.attachSource }).mark PD_PORT_STATUS.VCONN t x.attachVconn
  let d := d.mark PD_PORT_STATUS.DFP t x.attachDfp
  if was == x.attachDfp then d
  else if x.attachDfp then d.serviceEnds t
  else d.addCandidate t (d.get TUN_PORT_STATUS.ROLE t == 2 || d.get TUN_PORT_STATUS.ROLE t == 3)

/-- A hard reset sent or received: VBUS to vSafe0V, contract ended, attach-time roles (R323, R335). -/
def Dev.hardReset (d : Dev) (t : Nat) : Dev :=
  let st := d.pdState t
  if st < 2 ∨ 5 < st then d
  else
    let swapping := (d.pd t).swap.isSome || !(d.pd t).waiting.isEmpty
    let d := (d.count (modCtr 1540 (72 + t)) 1).pdRaise t PD_EVENTS.HARD_RESET
    let d := d.when swapping (·.failSwaps t)
    let d := ((d.openVbus t).endContract t).setPdState t 6
    (d.attachRoles t).put PD_PORT_STATUS.VBUS_MV t 0

/-- PD_HARD_RESET (R323, R335). -/
def execPdHardReset (port : Fin 16) (s : State) : Host.Outcome State Fault Refusal := onDev s fun d => d.hardReset port

/-- HARD_RESET_RECOVERY: an attach-time source sources vSafe5V and sends its capabilities again; a sink's partner restored VBUS (R323).
Failed swaps may not be asked for again for 500 ms (R335). -/
def execHardResetRecovery (port : Fin 16) (s : State) : Host.Outcome State Fault Refusal :=
  onDev s fun d =>
    let t := port.val
    if d.pdState t ≠ 6 then d
    else
      let d := d.setPd t fun x => { x with hold := (x.hold ++ x.failed).eraseDups, failed := [] }
      if (d.pd t).attachSource then
        let d := (d.setPdState t 2).sourceVbus t
        if (d.pd t).refused then d else d.sendOffer t
      else d.setPdState t 3

/-- EPR_KEEPALIVE_LAPSE (R333). -/
def execEprKeepaliveLapse (port : Fin 16) (s : State) : Host.Outcome State Fault Refusal :=
  onDev s fun d =>
    if d.is PD_PORT_STATUS.EPR port then (d.pdRaise port PD_EVENTS.EPR_EXIT).hardReset port else d

/-! ### Shedding -/

/-- A port above 15 W is offered 15 W only, its charge cut to it (R332; DEDUCED, log entry 119). -/
def Dev.cutPort (d : Dev) (t : Nat) : Dev :=
  if 15000 < (d.pd t).charge then
    let d := (d.chargePort t 15000).offerUpTo t 15000
    (d.count (modCtr 1540 (88 + t)) 1).pdRaise t PD_EVENTS.CONTRACT_REDUCED
  else d

/-- Charges exceed the PD pool. -/
def Dev.pdOver (d : Dev) : Bool := decide (d.get PD_POOL_LIMIT.LIMIT_W 0 * 1000 < d.get PD_POOL_USED.USED_MW 0)

/-- The PD pool is shed in descending PRIORITY and port number: 15 W each, then VBUS off by hard reset (R332). -/
def Dev.pdShed (d : Dev) : Dev :=
  let order := d.pdOrder.reverse
  let d := d.forEach order fun d t => if d.pdOver then d.cutPort t else d
  d.forEach order fun d t =>
    if d.pdOver ∧ 0 < (d.pd t).charge then
      (((d.count (modCtr 1540 (88 + t)) 1).pdRaise t PD_EVENTS.CONTRACT_REDUCED).hardReset t).setPd t fun x => { x with refused := true }
    else d

/-- PD_POOL_SHED (R332). -/
def execPdPoolShed (s : State) : Host.Outcome State Fault Refusal := onDev s fun d => d.pdShed

/-! ### Swaps -/

/-- A partner's swap is accepted (R334). -/
def Dev.acceptsSwap (d : Dev) (t : Nat) (k : PdSwap) : Bool :=
  match k with
  | .pr => d.is PD_PORT_POLICY.PR_ACCEPT t || ((d.pd t).source && (d.pd t).refused)
  | .dr => d.is PD_PORT_POLICY.DR_ACCEPT t
  | .vconn => !d.is PD_PORT_STATUS.VCONN t || !(d.pd t).discovering
  | .fr => false

/-- The module may ask for a swap (R328, R330, R334). -/
def Dev.asksSwap (d : Dev) (t : Nat) (k : PdSwap) : Bool :=
  match k with
  | .pr => !(d.pd t).source && d.is PD_PORT_POLICY.PREFER_SRC t && decide (15000 ≤ d.pdRoom t)
  | .dr => !d.is PD_PORT_STATUS.DFP t && d.get TUN_PORT_STATUS.ROLE t == 1
  | .vconn => !d.is PD_PORT_STATUS.VCONN t && (d.pd t).discovering
  | .fr => false

/-- An EPR contract is left for a 20 V one within P_allow before a PR_Swap (R333). -/
def Dev.leaveEpr (d : Dev) (t : Nat) : Dev :=
  if d.is PD_PORT_STATUS.EPR t then
    let d := d.put PD_PORT_STATUS.EPR t 0
    let ma := maToFixed (currentAt 5000 (min 100000 (d.pAllow t)) 20000) * 10
    let d := ((d.chargePort t (20 * ma)).put PD_CONTRACT.MV t 20000).put PD_CONTRACT.MA t ma
    d.put PD_PORT_STATUS.VBUS_MV t 20000
  else d

/-- A swap begins, is refused, or waits for the one in progress (R334, R336). -/
def Dev.startSwap (d : Dev) (t : Nat) (k : PdSwap) (byPartner able : Bool) : Dev :=
  let st := d.pdState t
  if k = .fr then d.emit (.signal "Not_Supported" [t])
  else if st = 4 ∨ st = 5 then
    let own : Bool := match (d.pd t).swap with
      | some (_, mine) => mine
      | none => false
    let d := d.setPd t fun x => { x with waiting := x.waiting ++ [(k, byPartner, able)] }
    d.when (byPartner && own) (·.emit (.signal "Wait" [t]))
  else if st ≠ 2 ∧ st ≠ 3 then d.endWaiting (.swap t) Status.swapHold
  else if byPartner then
    if d.acceptsSwap t k then
      let d := d.when (k == .pr) (·.leaveEpr t)
      ((d.setPdState t 4).setPd t fun x => { x with swap := some (k, false) }).emit (.signal "Accept" [t, swapCode k])
    else d.emit (.signal "Reject" [t, swapCode k])
  else if !d.asksSwap t k ∨ (d.pd t).hold.contains k then d.endWaiting (.swap t) Status.swapHold
  else if able then
    let d := d.when (k == .pr) (·.leaveEpr t)
    ((d.setPdState t 4).setPd t fun x => { x with swap := some (k, true) }).emit (.signal "swap" [t, swapCode k])
  else
    let d := d.setPd t fun x => { x with hold := (x.hold ++ [k]).eraseDups }
    let d := d.when (k == .vconn) (·.setCable t none)
    d.endWaiting (.swap t) Status.swapHold

/-- SWAP_REQUEST (R334, R336). -/
def execSwapRequest (port : Fin 16) (swap : PdSwap) (byPartner able : Bool) (s : State) :
    Host.Outcome State Fault Refusal :=
  onDev s fun d => d.startSwap port swap byPartner able

/-- The roles of a completed swap (R323, R334). -/
def Dev.swapRoles (d : Dev) (t : Nat) (k : PdSwap) : Dev :=
  match k with
  | .pr =>
    let d := d.setPd t fun x => { x with source := !x.source }
    let d := d.endContract t
    if (d.pd t).source then (d.setPdState t 2).sourceVbus t else (d.setPdState t 3).openVbus t
  | .dr =>
    let dfp := !d.is PD_PORT_STATUS.DFP t
    let d := (d.mark PD_PORT_STATUS.DFP t dfp).setPdState t (if (d.pd t).source then 2 else 3)
    if dfp then d.serviceEnds t
    else d.addCandidate t (d.get TUN_PORT_STATUS.ROLE t == 2 || d.get TUN_PORT_STATUS.ROLE t == 3)
  | _ =>
    (d.mark PD_PORT_STATUS.VCONN t (!d.is PD_PORT_STATUS.VCONN t)).setPdState t (if (d.pd t).source then 2 else 3)

/-- SWAP_COMPLETE: the new roles, then the next request that waits (R323, R336). -/
def execSwapComplete (port : Fin 16) (s : State) : Host.Outcome State Fault Refusal :=
  onDev s fun d =>
    let t := port.val
    match (d.pd t).swap with
    | none => d
    | some (k, mine) =>
      let d := (d.setPd t fun x => { x with swap := none }).swapRoles t k
      let d := d.when mine (·.endWaiting (.swap t) Status.ok)
      match (d.pd t).waiting with
      | [] => d
      | (k, byPartner, able) :: rest => (d.setPd t fun x => { x with waiting := rest }).startSwap t k byPartner able

/-- SWAP_RETRY_HOLD_EXPIRY (R334, R335). -/
def execSwapRetryHoldExpiry (port : Fin 16) (s : State) : Host.Outcome State Fault Refusal :=
  onDev s fun d => d.setPd port fun x => { x with hold := [] }

/-! ### Losing the partner -/

/-- The port leaves its attach: switch open, VCONN off, contract and charge gone (R323, R337). -/
def Dev.discharge (d : Dev) (t : Nat) : Dev :=
  let d := (d.openVbus t).endContract t
  let d := ((d.put PD_PORT_STATUS.VCONN t 0).put PD_PORT_STATUS.POOL_LIMITED t 0).setPdState t 7
  let d := d.setPd t fun x => { x with refused := false, discovering := false, hold := [], failed := [] }
  if d.owner = some t then d.ownerDetach else d.dropCandidate t

/-- CC_OPEN (R337, R352). -/
def execCcOpen (port : Fin 16) (s : State) : Host.Outcome State Fault Refusal :=
  onDev s fun d =>
    let t := port.val
    let st := d.pdState t
    if st < 2 ∨ 6 < st then d
    else
      let x := d.pd t
      let d := d.when (st == 4 || st == 5) fun d =>
        d.pdRaise t PD_EVENTS.TRANSITION_ABORTED 0 (leBytes 4 (x.target.getD 0))
      let d := (d.setPd t fun x => { x with swap := none, waiting := [] }).endWaiting (.swap t) Status.swapHold
      (d.efPresence (vbusFuse t)).discharge t

/-- PD_PORT_DISABLED (R323). -/
def execPdPortDisabled (port : Fin 16) (s : State) : Host.Outcome State Fault Refusal :=
  onDev s fun d =>
    let t := port.val
    if d.is PD_PORT_POLICY.ENABLE t then d
    else ((d.setPd t fun x => { x with swap := none, waiting := [] }).endWaiting (.swap t) Status.swapHold).discharge t

/-- A port returns to UNATTACHED: it toggles again, and its moisture check runs at once (R323, R337). -/
def Dev.dischargeDone (d : Dev) (t : Nat) : Dev :=
  let d := (d.setPdState t 0).put PD_PORT_STATUS.VBUS_MV t 0
  let d := (d.put PD_PORT_STATUS.DFP t 0).setPd t fun _ => { watch := true }
  d.emit (.signal "moisture check" [t])

/-- DISCHARGE_COMPLETE: the moisture check runs at once (R323, R337); a damaged switch keeps the port (R357). -/
def execDischargeComplete (port : Fin 16) (s : State) : Host.Outcome State Fault Refusal :=
  onDev s fun d =>
    let t := port.val
    if d.pdState t ≠ 7 ∨ d.efState (vbusFuse t) = 5 then d
    else d.dischargeDone t

/-- DISCHARGE_TIMEOUT: the port stays in DISCHARGE, and its switch watches the output (R338, R357). -/
def execDischargeTimeout (port : Fin 16) (mv : Fin 65536) (s : State) : Host.Outcome State Fault Refusal :=
  onDev s fun d =>
    if d.pdState port = 7 then
      (d.put PD_PORT_STATUS.VBUS_MV port mv).setPd port fun x => { x with watch := true }
    else d

/-! ### The policy -/

/-- PD_PORT_POLICY takes a word; a PMAX out of range is ignored and recorded (R339). -/
def Dev.setPolicy (d : Dev) (t w : Nat) : Dev :=
  let d := (d.mark PD_PORT_POLICY.ENABLE t (bitOf w 31)).mark PD_PORT_POLICY.PREFER_SRC t (bitOf w 30)
  let d := (d.mark PD_PORT_POLICY.PR_ACCEPT t (bitOf w 29)).mark PD_PORT_POLICY.DR_ACCEPT t (bitOf w 28)
  let d := (d.put PD_PORT_POLICY.TRY t (bitsOf w 27 26)).put PD_PORT_POLICY.PRIORITY t (bitsOf w 25 24)
  d.put PD_PORT_POLICY.PMAX t (bitsOf w 7 0)

/-- The swap a code of PD_POLICY_SET names. -/
def swapOf (n : Nat) : Option PdSwap :=
  match n with
  | 1 => some .pr
  | 2 => some .dr
  | 3 => some .vconn
  | _ => none

/-- A policy word's first field out of range (R339, R376): reserved bits, TRY 0b11, PMAX outside 15 to 140 W. -/
def policyBad (w : Nat) : Bool :=
  bitsOf w 23 8 != 0 || bitsOf w 27 26 == 3 || decide (bitsOf w 7 0 < 15) || decide (140 < bitsOf w 7 0)

/-- PD_POLICY_SET: the policy applies from the next negotiation; a swap asked for completes when it ends (R334, R335, R339, R376). -/
def execPdPolicySet (h : CmdHdr) (port swap : Byte) (policy : Word) (able : Bool) (s : State) :
    Host.Outcome State Fault Refusal :=
  onDev s fun d =>
    let op := 0x0604
    let t := port.toNat
    d.moduleCommand h op [1, 2] false fun d =>
      if 16 ≤ t then d.badParam h op 0
      else if 3 < swap.toNat then d.badParam h op 1
      else if policyBad policy.toNat then d.badParam h op 4
      else d.orWait h op (· == .swap t) 0xFFFFFFFF fun d =>
        match swapOf swap.toNat with
        | none => (d.setPolicy t policy.toNat).finish h op Status.ok
        | some k =>
          if (d.pd t).hold.contains k then d.finish h op Status.swapHold
          else ((d.setPolicy t policy.toNat).waitFor h op (.swap t)).startSwap t k false able

end Sys2Proof.Machine
end

