-- ==== Sys2Proof/Machine/Power.lean ====
section
/-! DEFINITION. Power entry, budgets and the commands and events of the electronic fuses (R340 to R360, R518 to R520). -/

namespace Sys2Proof.Machine

/-! ### Feeds and the budget -/

/-- Feeds A and B: their PRESENT and HIGH_LINE bits. -/
def feedPresent (f : Nat) : Fld := if f = 0 then PWR_FEED_A.PRESENT else PWR_FEED_B.PRESENT
def feedHigh (f : Nat) : Fld := if f = 0 then PWR_FEED_A.HIGH_LINE else PWR_FEED_B.HIGH_LINE

/-- A feed's measured voltage and frequency. -/
def Dev.measureFeed (d : Dev) (f vrms freq : Nat) : Dev :=
  if f = 0 then (d.put PWR_FEED_A.VRMS 0 vrms).put PWR_FEED_A.FREQ_HZ 0 freq
  else (d.put PWR_FEED_B.VRMS 0 vrms).put PWR_FEED_B.FREQ_HZ 0 freq

/-- The feeds that are present. -/
def Dev.feeds (d : Dev) : List Nat := [0, 1].filter fun f => d.is (feedPresent f) 0

/-- Conversion stages that deliver (R348). -/
def Dev.stages (d : Dev) : Nat := ((List.range 3).filter fun k => bitOf (d.get PWR_STAGES.STAGE_OK 0) k).length

/-- The high-line budget is in force (R343, R348). -/
def Dev.highBudget (d : Dev) : Bool := d.feeds.all (fun f => d.is (feedHigh f) 0) && decide (2 ≤ d.stages)

/-- The pools take a split (R345). -/
def Dev.setPools (d : Dev) (cage pd : Nat) : Dev :=
  ((d.put PWR_POOLS.CAGE_W 0 cage).put PWR_POOLS.PD_W 0 pd).put PD_POOL_LIMIT.LIMIT_W 0 pd

/-- The split of the category in force. -/
def Dev.applySplit (d : Dev) : Dev :=
  if d.is PWR_BUDGET.HIGH 0 then d.setPools d.splits.highCage d.splits.highPd else d.setPools d.splits.lowCage d.splits.lowPd

/-- The budget follows the feeds and stages; a change sets LINE_CHANGE, and the pools follow (R343, R346, R348). -/
def Dev.rebudget (d : Dev) : Dev :=
  if d.feeds = [] then d
  else
    let high := d.highBudget
    let w := if high then 2400 else 1150
    if d.get PWR_BUDGET.BUDGET_W 0 = w then d
    else
      let d := ((d.mark PWR_BUDGET.HIGH 0 high).put PWR_BUDGET.BUDGET_W 0 w).applySplit
      (d.count (modCtr 1540 107) 1).raise PWR_EVENTS.LINE_CHANGE 0 {}

/-- SINGLE_FEED follows the feeds present; it is recorded as the module comes to run on one (R343). -/
def Dev.singleFeed (d : Dev) : Dev :=
  let one := d.feeds.length == 1
  let was := d.is PWR_BUDGET.SINGLE_FEED 0
  (d.mark PWR_BUDGET.SINGLE_FEED 0 one).when (one && !was) (·.raise PWR_EVENTS.SINGLE_FEED 0 {})

/-- FEED_LOST (R341). -/
def execFeedLost (feed : Fin 2) (vrms : Fin 512) (freq : Fin 256) (s : State) : Host.Outcome State Fault Refusal :=
  onSupply s fun d =>
    let f := feed.val
    let d := d.measureFeed f vrms freq
    if !d.is (feedPresent f) 0 then d
    else
      let d := ((d.put (feedPresent f) 0 0).put (feedHigh f) 0 0).count (modCtr 1540 104) 1
      ((d.raise PWR_EVENTS.FEED_LOST 0 { object := f }).singleFeed).rebudget

/-- LINE_CATEGORY_CHANGE (R342). -/
def execLineCategoryChange (feed : Fin 2) (high : Bool) (s : State) : Host.Outcome State Fault Refusal :=
  onDev s fun d => if d.is (feedPresent feed) 0 then (d.mark (feedHigh feed) 0 high).rebudget else d

/-- FRONT_END_DISCONNECT, whatever the feed's state (R341). -/
def execFrontEndDisconnect (feed : Fin 2) (s : State) : Host.Outcome State Fault Refusal :=
  onDev s fun d =>
    Dev.emit { d with feedOff := d.feedOff.filter (· ≠ feed.val) ++ [feed.val] } (.signal "front end disconnects" [feed.val])

/-! ### Shedding -/

/-- Cages in shedding order: descending PRIORITY, then descending number (R346). -/
def Dev.shedOrder (d : Dev) : List Nat :=
  [3, 2, 1, 0].flatMap fun p => ((List.range 56).reverse).filter fun c => d.get EF_CTL.PRIORITY c == p

/-- Cage charges exceed their pool. -/
def Dev.cageOver (d : Dev) : Bool := decide (d.get PWR_POOLS.CAGE_W 0 * 1000 < d.get PWR_CAGE_USED.USED_MW 0)

/-- LOAD_SHEDDING: the PD pool under R332, and cages until their charges fit (R346). -/
def execLoadShedding (s : State) : Host.Outcome State Fault Refusal :=
  onDev s fun d =>
    if d.pdOver || d.cageOver then
      let d := (d.count (modCtr 1540 106) 1).raise PWR_EVENTS.SHED 0 {}
      let d := d.pdShed
      d.forEach d.shedOrder fun d c =>
        if d.cageOver ∧ 0 < (d.efuse c).charge then (d.efOff c).efRaise c EF_EVENTS.SHED else d
    else d

/-- STAGE_LOST (R348). -/
def execStageLost (stage : Fin 3) (s : State) : Host.Outcome State Fault Refusal :=
  onDev s fun d =>
    let ok := d.get PWR_STAGES.STAGE_OK 0
    if bitOf ok stage then
      let d := (d.put PWR_STAGES.STAGE_OK 0 (ok - 2 ^ stage.val)).count (modCtr 1540 105) 1
      (d.raise PWR_EVENTS.STAGE_LOST 0 { object := stage.val }).rebudget
    else d

/-- BUDGET_SET: both splits, or none (R345). -/
def execBudgetSet (h : CmdHdr) (highCage highPd lowCage lowPd : Fin 65536) (s : State) : Host.Outcome State Fault Refusal :=
  onDev s fun d =>
    let op := 0x0601
    d.moduleCommand h op [1, 2] false fun d =>
      let now := if d.is PWR_BUDGET.HIGH 0 then highCage.val else lowCage.val
      if 1535 < highCage.val + highPd.val ∨ 285 < lowCage.val + lowPd.val ∨ 1344 < highCage.val ∨
          (d.get PWR_BUDGET.BUDGET_W 0 ≠ 0 ∧ now * 1000 < d.get PWR_CAGE_USED.USED_MW 0) then
        d.finish h op Status.splitInvalid
      else
        let d := { d with splits := ⟨highCage, highPd, lowCage, lowPd⟩ }
        (d.when (d.get PWR_BUDGET.BUDGET_W 0 != 0) (·.applySplit)).finish h op Status.ok

/-! ### E-fuse commands -/

/-- EFUSE_ENABLE (R154, R350, R358, R376). -/
def execEfuseEnable (h : CmdHdr) (cage value scale priority : Byte) (s : State) : Host.Outcome State Fault Refusal :=
  onDev s fun d =>
    d.moduleCommand h 0x0602 [1, 2, 4] false fun d =>
      if 56 ≤ cage.toNat then d.badParam h 0x0602 0
      else if 3 < scale.toNat then d.badParam h 0x0602 2
      else if 3 < priority.toNat then d.badParam h 0x0602 3
      else d.enableCage h cage.toNat value.toNat scale.toNat priority.toNat

/-- EFUSE_DISABLE (R352). -/
def execEfuseDisable (h : CmdHdr) (cage : Byte) (s : State) : Host.Outcome State Fault Refusal :=
  onDev s fun d =>
    d.moduleCommand h 0x0603 [1, 2, 4] false fun d =>
      let c := cage.toNat
      if 56 ≤ c then d.badParam h 0x0603 0
      else (if d.efState c = 5 then d else d.efOff c).finish h 0x0603 Status.ok

/-- The limit of an EF_CTL word is in range for its e-fuse (R351, R360). -/
def limitOk (n ma : Nat) : Bool :=
  if n < 56 then decide (250 ≤ ma) && decide (ma ≤ 2000) else decide (1000 ≤ ma) && decide (ma ≤ 6500)

/-- EF_CTL's PRIORITY and LIMIT_MA take a word's; a limit out of range is ignored and recorded (R360). -/
def Dev.setEfCtl (d : Dev) (master n w : Nat) : Dev :=
  let d := d.when (decide (n < 56)) (·.put EF_CTL.PRIORITY n (bitsOf w 29 28))
  let ma := bitsOf w 12 0
  if limitOk n ma then d.setLimit n ma else d.accessRecord 0x0F 0x73 master (0x807080000 + n * 16)

/-- A cage's last allotment, or the default of 18 W where it had none (R155). -/
def Dev.allotment (d : Dev) (c : Nat) : Nat × Nat := if (d.efuse c).value = 0 then (180, 1) else ((d.efuse c).value, (d.efuse c).scale)

/-- A cage comes on at its allotment if the pool has room for it; else its ports set SPL_REFUSED (R27, R154, R349, R350). -/
def Dev.cageOn (d : Dev) (c : Nat) : Dev :=
  let a := d.allotment c
  let mw := splMilliwatts a.1 a.2
  if d.efState c ≠ 0 then d
  else if mw ≤ d.cageRoom c then
    (((d.chargeCage c mw).setEfuse c fun e => { e with value := a.1, scale := a.2 }).tellSpl c).startRamp c
  else d.forEach (d.portsInCage c) fun d p => d.raise EBR_EVENTS.SPL_REFUSED p (d.portEv p)

/-- A word with ENABLE is written to EF_CTL: a cage comes on within its pool, a VBUS switch where its PD controller sources (R27, R350). -/
def Dev.efEnable (d : Dev) (master n w : Nat) : Dev :=
  let d := d.setEfCtl master n w
  if !bitOf w 31 then d
  else if n < 56 then d.cageOn n
  else if d.pdState (n - 56) = 2 ∧ (d.pd (n - 56)).source then d.sourceVbus (n - 56)
  else d

/-- A cage of a power-controlled slot goes off or on (R134). -/
def Dev.slotCage (d : Dev) (c : Nat) (off : Bool) : Dev :=
  if off then (if d.efState c = 5 then d else d.efOff c) else d.cageOn c

/-- A word with DISABLE is written to EF_CTL (R352). -/
def Dev.efDisable (d : Dev) (master n w : Nat) : Dev :=
  let d := d.setEfCtl master n w
  if bitOf w 30 ∧ d.efState n ≠ 5 then (if n < 56 then d.efOff n else d.openVbus (n - 56)) else d

/-- EF_CTL_ENABLE (R350, R352). -/
def execEfCtlEnable (master : Fin 2048) (fuse : Fin 72) (value : Word) (s : State) : Host.Outcome State Fault Refusal :=
  onDev s fun d => d.curatorOnly master (0x807080000 + fuse.val * 16) (·.efEnable master fuse value.toNat)

/-- EF_CTL_DISABLE (R352). -/
def execEfCtlDisable (master : Fin 2048) (fuse : Fin 72) (value : Word) (s : State) : Host.Outcome State Fault Refusal :=
  onDev s fun d => d.curatorOnly master (0x807080000 + fuse.val * 16) (·.efDisable master fuse value.toNat)

/-! ### E-fuse events -/

/-- EFUSE_GATE_CHECK, 10 ms after the enable (R356). -/
def execEfuseGateCheck (fuse : Fin 72) (vgs : Fin 256) (s : State) : Host.Outcome State Fault Refusal :=
  onDev s fun d =>
    let n := fuse.val
    if d.efState n ≠ 1 then d
    else if vgs.val < 50 then (d.efDamaged n 1).efRaise n EF_EVENTS.GATE_NO_RISE
    else d.put EF_STATUS.VGS n vgs

/-- EFUSE_GATE_FULL (R352). -/
def execEfuseGateFull (fuse : Fin 72) (s : State) : Host.Outcome State Fault Refusal :=
  onDev s fun d =>
    let n := fuse.val
    if d.efState n = 1 then ((d.put EF_STATUS.STATE n 2).put EF_STATUS.VGS n 140).rampNext else d

/-- Power-good of a cage: its device-facing ports are contained until their endpoints pass Accession (R136). -/
def Dev.cagePoweredUp (d : Dev) (c : Nat) : Dev :=
  let d := d.setEfuse c fun e => { e with pgAt := d.now }
  d.forEach (d.portsInCage c) fun d p =>
    (d.put EBR_SIDEBAND.PFAULT p 0).when (d.deviceFacing p && d.contState (contObj 0 p) == 0) (·.insertion p)

/-- EFUSE_POWER_GOOD (R136, R352). -/
def execEfusePowerGood (fuse : Fin 72) (s : State) : Host.Outcome State Fault Refusal :=
  onDev s fun d =>
    let n := fuse.val
    if d.efState n ≠ 2 ∨ d.is EF_STATUS.TIMER n then d
    else
      let d := d.put EF_STATUS.PG n 1
      if n < 56 then d.cagePoweredUp n
      else
        let t := n - 56
        if d.get EF_STATUS.RETRIES n ≠ 0 ∧ d.pdState t = 2 then (d.put PD_PORT_STATUS.VBUS_MV t 5000).sendOffer t else d

/-- The current an e-fuse carries. -/
def Dev.measure (d : Dev) (n ma : Nat) : Dev := d.put EF_MEAS.MA n ma

/-- EFUSE_CURRENT_LIMIT; an armed injection starts the timer too (R281, R354, R360). -/
def execEfuseCurrentLimit (fuse : Fin 72) (ma : Fin 65536) (s : State) : Host.Outcome State Fault Refusal :=
  onDev s fun d =>
    let n := fuse.val
    let d := d.measure n ma
    if (d.efState n = 1 ∨ d.efState n = 2) ∧ !d.is EF_STATUS.TIMER n then
      d.underInjection 11 n fun d => d.limitReached n
    else d

/-- EFUSE_CURRENT_NORMAL (R352). -/
def execEfuseCurrentNormal (fuse : Fin 72) (ma : Fin 65536) (s : State) : Host.Outcome State Fault Refusal :=
  onDev s fun d => (d.measure fuse ma).put EF_STATUS.TIMER fuse 0

/-- A VBUS switch that trips ends its port's contract (R359). -/
def Dev.vbusTrip (d : Dev) (n : Nat) : Dev :=
  if n < 56 then d
  else
    let t := n - 56
    let d := (d.endContract t).chargePort t (min 15000 (d.pd t).charge)
    let d := (d.when (d.pdState t == 5) (·.setPdState t 2)).put PD_PORT_STATUS.VBUS_MV t 0
    d.put EF_CTL.LIMIT_MA n 3750

/-- EFUSE_FAULT_TIMER_EXPIRY (R352). -/
def execEfuseFaultTimerExpiry (fuse : Fin 72) (s : State) : Host.Outcome State Fault Refusal :=
  onDev s fun d =>
    let n := fuse.val
    if (d.efState n = 1 ∨ d.efState n = 2) ∧ d.is EF_STATUS.TIMER n then (d.trip n false).vbusTrip n else d

/-- EFUSE_FAST_TRIP (R352). -/
def execEfuseFastTrip (fuse : Fin 72) (ma : Fin 65536) (s : State) : Host.Outcome State Fault Refusal :=
  onDev s fun d =>
    let n := fuse.val
    let d := d.measure n ma
    if (d.efState n = 1 ∨ d.efState n = 2) ∧ 2 * d.get EF_CTL.LIMIT_MA n ≤ ma.val then (d.trip n true).vbusTrip n else d

/-- EFUSE_RETRY (R352, R355). -/
def execEfuseRetry (fuse : Fin 72) (s : State) : Host.Outcome State Fault Refusal :=
  onDev s fun d =>
    let n := fuse.val
    if d.efState n = 3 ∧ d.get EF_STATUS.RETRIES n < 8 then
      (d.put EF_STATUS.RETRIES n (d.get EF_STATUS.RETRIES n + 1)).startRamp n
    else d

/-- EFUSE_PRESENCE_CHANGE (R352). -/
def execEfusePresenceChange (fuse : Fin 72) (s : State) : Host.Outcome State Fault Refusal :=
  onDev s fun d =>
    let n := fuse.val
    let retries := d.efState n == 3 || d.efState n == 4
    (d.efPresence n).when (decide (56 ≤ n) && retries) (·.chargePort (n - 56) 0)

/-- EFUSE_RETRIES_CLEAR (R352). -/
def execEfuseRetriesClear (fuse : Fin 72) (s : State) : Host.Outcome State Fault Refusal :=
  onDev s fun d =>
    let n := fuse.val
    if d.efState n = 2 ∧ d.is EF_STATUS.PG n then d.put EF_STATUS.RETRIES n 0 else d

/-- BACKFEED: an output present on a switch that is off (R357). -/
def execBackfeed (port : Fin 16) (mv : Fin 65536) (s : State) : Host.Outcome State Fault Refusal :=
  onDev s fun d =>
    let t := port.val
    let n := vbusFuse t
    let d := d.put EF_MEAS.MV n mv
    if d.efState n = 0 ∧ (d.pd t).watch ∧ d.pdState t ≠ 3 ∧ 800 < mv.val then
      (((d.efRaise n EF_EVENTS.BACKFEED).efDamaged n 2).setPdState t 7).emit (.signal "converter off" [t])
    else d

/-- VBUS_SWITCH_TEST (R357). -/
def execVbusSwitchTest (port : Fin 16) (rises : Bool) (s : State) : Host.Outcome State Fault Refusal :=
  onDev s fun d =>
    let t := port.val
    let n := vbusFuse t
    if d.efState n = 5 ∧ d.get EF_STATUS.DAMAGE n = 2 then
      if rises then d.put EF_STATUS.DAMAGE n 3
      else ((d.put EF_STATUS.STATE n 0).put EF_STATUS.DAMAGE n 0).dischargeDone t
    else d

/-! ### Cages -/

/-- CAGE_PRESENCE_LOST_POWERED (R518). -/
def execCagePresenceLostPowered (cage : Fin 56) (s : State) : Host.Outcome State Fault Refusal :=
  onDev s fun d =>
    let c := cage.val
    if d.efState c = 1 ∨ d.efState c = 2 then d.efOff c else d

/-- The identification block answers and its checksum holds (R519). -/
def blockOk (bs : List Byte) : Bool :=
  bs.length == 64 && ((bs.take 63).foldl (fun n b => n + b.toNat) 0) % 256 == (bs.getD 63 0).toNat

/-- CAGE_ID (R519). -/
def execCageId (cage : Fin 56) (block : Option (List Byte)) (s : State) : Host.Outcome State Fault Refusal :=
  onDev s fun d =>
    let c := cage.val
    if !d.is EF_STATUS.PG c then d
    else
      let bs := block.getD []
      if blockOk bs then
        let power := bs.getD 2 0
        let d := d.record 0x0F80 { efEv c with detail := [bs.getD 1 0, power] }
        d.when (decide (splMilliwatts (d.efuse c).value (d.efuse c).scale < power.toNat * 100)) (·.record 0x0F81 (efEv c))
      else d.record 0x0F80 { efEv c with detail := [0xFF, bs.getD 2 0] }

/-- CAGE_ALERT, while the bus is not isolated (R517, R520). -/
def execCageAlert (cage : Fin 56) (status : Byte) (s : State) : Host.Outcome State Fault Refusal :=
  onDev s fun d => if d.is EF_STATUS.PG cage then d.record 0x0F82 { efEv cage with detail := [status] } else d

/-! ### Virtual slots -/

/-- The endpoint of a binding is in a power-controlled slot: its port alone in cages that e-fuses feed (R134, R521). -/
def Dev.powerSlot (d : Dev) (b : Binding) : Bool := (d.placeAt b).slot

/-- Power Controller Control takes a new value (R134): the cage's power where it was granted, else the virtual link. -/
def Dev.slotPower (d : Dev) (lv : Nat) (b : Binding) (off : Bool) : Dev :=
  if (d.vit lv).slotPower then
    if fpidModule b.fpid = d.moduleId then d.forEach (d.cagesOf (fpidPort b.fpid)) fun d c => d.slotCage c off
    else d.tell (fpidModule b.fpid) (.report "slot power" [b.fpid, bitVal off])
  else if off then
    (d.setBinding lv b.k fun b => { b with presented := false }).slotEvent lv b.k fun v =>
      { v with dllActive := false, dllChanged := true }
  else
    (d.setBinding lv b.k fun b => { b with presented := true }).slotEvent lv b.k fun v =>
      { v with dllActive := true, dllChanged := true }

/-- An indicator's control is driven on the cage of a port alone in it, else only stored (R152). -/
def Dev.slotIndicators (d : Dev) (b : Binding) (attention power : Nat) : Dev :=
  let p := fpidPort b.fpid
  if fpidModule b.fpid ≠ d.moduleId then d.tell (fpidModule b.fpid) (.report "indicators" [b.fpid, attention, power])
  else if internalPort p ∨ !d.aloneInCage p then d
  else
    let d := (d.put EBR_SIDEBAND.IND_ATTN p attention).put EBR_SIDEBAND.IND_PWR p power
    d.forEach (d.cagesOf p) fun d c => (d.emit (.indicator c 0 attention)).emit (.indicator c 1 power)

/-- A host writes Slot Control: the indicators, power, the interrupt enables, and Command Completed (R134, R152, R153). -/
def Dev.slotControl (d : Dev) (lv k : Nat) (off : Bool) (attention power : Nat) (interrupt : Bool) (enables : Nat) : Dev :=
  let was := (d.vport lv k).powerOff
  let d := match (d.vit lv).binding k with
    | none => d
    | some b =>
      let d := d.slotIndicators b attention power
      d.when (was != off && d.powerSlot b) (·.slotPower lv b off)
  d.slotEvent lv k fun v =>
    { v with powerOff := off, attnInd := attention, pwrInd := power, hotplugIntEnable := interrupt,
             slotEnables := enables &&& 0x101B, commandCompleted := true }

/-- SLOT_CONTROL_WRITE (R153). -/
def execSlotControlWrite (lvid : Fin 1024) (k : Fin 64) (off : Bool) (attention power : Fin 4) (irq : SlotEnables) (s : State) :
    Host.Outcome State Fault Refusal :=
  onDev s fun d => d.slotControl lvid k off attention power irq.interrupt irq.enables

end Sys2Proof.Machine
end

