-- ==== Sys2Proof/Machine/ConfigSpace.lean ====
section
/-! DEFINITION. The configuration space of a Vitrine's virtual functions as its host reads and writes it (R107, R112, R118, R137, R139, R153,
R216, R240 to R244, R266, R384, R386, R400, R401). Registers of the standard header stand where the PCI Local Bus header has them, and the
fields of capability registers where the PCI Express and CXL specifications have them (PRESUMED, log entry 38). -/

namespace Sys2Proof.Machine

/-! ### Words -/

/-- The bits of a word that its byte enables name. -/
def beMask (be : Nat) : Nat := ([0, 1, 2, 3].map fun i => if bitOf be i then 255 * 256 ^ i else 0).sum

/-- A word after a write with byte enables. -/
def mergeBe (old v be : Nat) : Nat := (old &&& (2 ^ 32 - 1 - beMask be)) + (v &&& beMask be)

/-- A word whose bits in a mask are known and whose others are free. -/
def withFree (free mask known : Nat) : Nat := (free % 2 ^ 32 &&& (2 ^ 32 - 1 - mask)) + (known &&& mask)

/-- A configuration word takes what a host writes. -/
def Dev.setCfg (d : Dev) (lv f w v : Nat) : Dev := { d with cfg := SMap.set 0 d.cfg (lv * 131072 + f * 1024 + w % 1024) (v % 2 ^ 32) }

/-- A word is the one that holds a capability register of a kind of function. -/
def capAt (kind w : Nat) (r : CapReg) : Bool := decide (16 ≤ w) && w == 16 + Config.capWord kind r

/-! ### What a host reaches -/

/-- What a configuration request names (R240, R243). -/
inductive CfgTarget where
  | function (f : Nat)
  | endpoint (b : Binding)
  | nobody
  deriving DecidableEq, Repr

/-- The virtual downstream port whose secondary bus number is `bus` (R218). -/
def Dev.vportOnBus (d : Dev) (lv bus : Nat) : Option Nat :=
  if bus = 0 then none else (List.range (d.get VIT_PORT.NVDP lv)).find? fun k => (d.vport lv k).secondaryBus == bus

/-- An ID of an endpoint in the host's view reaches a function: device 0, any with ARI (R218). -/
def Dev.endpointAnswers (d : Dev) (b : Binding) (id : Nat) : Bool :=
  id / 8 % 32 == 0 || fpidModule b.fpid != d.moduleId || (d.endpoint (fpidPort b.fpid) b.ep).ari

/-- The function a host's target ID names (R240, R243). -/
def Dev.cfgTarget (d : Dev) (lv id : Nat) : CfgTarget :=
  let bus := id / 256 % 256
  let dev := id / 8 % 32
  let fn := id % 8
  if bus ≠ 0 ∧ bus = (d.vit lv).bus then
    if dev = 0 ∧ fn = 2 then .function 1
    else if dev + 32 * fn < d.get VIT_PORT.NVDP lv then .function (2 + dev + 32 * fn)
    else .nobody
  else
    match d.vportOnBus lv bus with
    | some k =>
      match (d.vit lv).binding k with
      | some b => if d.endpointAnswers b id then .endpoint b else .nobody
      | none => .nobody
    | none => if dev = 0 ∧ fn = 0 then .function 0 else .nobody

/-! ### Reading -/

/-- Multi-Function of a function's header (R240). -/
def Dev.multiFunction (d : Dev) (lv f : Nat) : Bool :=
  let k := f - 2
  f != 0 && (f == 1 || k % 32 == 0 || decide (32 ≤ k) || decide (k + 32 < d.get VIT_PORT.NVDP lv))

/-- Speed and width the virtual link of a function reports (R242, R294): none for a port of another module. -/
def Dev.linkShown (d : Dev) (lv f : Nat) : Option (Nat × Nat) :=
  let ofPort (p : Nat) : Nat × Nat := (d.get PRT_PORT_STATUS.RATE p, widthLanes (d.get PRT_PORT_STATUS.WIDTH p))
  if f = 0 then some (ofPort (d.get VIT_PORT.UPORT lv))
  else match (d.vit lv).binding (f - 2) with
    | none => some (0, 0)
    | some b => if fpidPort b.fpid = 447 then some (4, 4)
      else if fpidModule b.fpid = d.moduleId then some (ofPort (fpidPort b.fpid)) else none

/-- Slot Control and Slot Status of a virtual downstream port (R152, R153), with the bits the manual does not name. -/
def slotWord (v : VPort) (free : Nat) : Nat :=
  withFree free 0x019B17FB
    ((v.slotEnables &&& 0x101B) + bitVal v.hotplugIntEnable * 2 ^ 5 + v.attnInd % 4 * 2 ^ 6 + v.pwrInd % 4 * 2 ^ 8 + bitVal v.powerOff * 2 ^ 10 +
      bitVal v.attention * 2 ^ 16 + bitVal v.powerFault * 2 ^ 17 + bitVal v.presenceChanged * 2 ^ 19 + bitVal v.commandCompleted * 2 ^ 20 +
      bitVal v.dllChanged * 2 ^ 24)

/-- Presence Detect State stands beside Slot Status's event bits. -/
def slotWordFull (v : VPort) (free : Nat) : Nat := withFree (slotWord v free) (2 ^ 22) (bitVal v.presence * 2 ^ 22)

/-- Slot Capabilities of a virtual downstream port: its slot power limit (R155), a power controller on a power-controlled slot (R134), no MRL
sensor and no interlock (R153). -/
def Dev.slotCapWord (d : Dev) (lv k free : Nat) : Nat :=
  let v := d.vport lv k
  let controller := match (d.vit lv).binding k with
    | some b => d.powerSlot b
    | none => false
  withFree free 0x0003FF86 (bitVal controller * 2 + v.splValue % 256 * 2 ^ 7 + v.splScale % 4 * 2 ^ 15)

/-- Link Capabilities of a function: speed and width of the physical link (R242), ASPM L1 alone, its exit latency (R108, R139). -/
def Dev.linkCapWord (d : Dev) (lv f free : Nat) : Nat :=
  let free := match d.linkShown lv f with
    | some (speed, width) => withFree free 0x000003FF (speed % 16 + width % 64 * 16)
    | none => free
  withFree free 0x00038C00 (2 * 2 ^ 10 + 3 * 2 ^ 15)

/-- Link Control and Link Status of a function. -/
def Dev.linkWord (d : Dev) (lv f free : Nat) : Nat :=
  let v := d.vport lv (f - 2)
  let free := match d.linkShown lv f with
    | some (speed, width) => withFree free 0x03FF0000 (speed % 16 * 2 ^ 16 + width % 64 * 2 ^ 20)
    | none => free
  if f = 0 then withFree free 2 (bitVal (d.vit lv).aspmL1 * 2)
  else withFree free 0x20000010 (bitVal v.linkDisable * 2 ^ 4 + bitVal v.dllActive * 2 ^ 29)

/-- A word of the standard header of a function (R240, R241, R384), its bits that the manual does not state free. -/
def Dev.headerWord (d : Dev) (lv f w free : Nat) : Nat :=
  let held := d.cfgWord lv f w
  match w with
  | 0 => Config.vendorId % 65536 + (0x5120 + kindOf f) * 65536
  | 1 => withFree free 0x0018FFFF
      (held % 65536 + bitVal (f == 1 && d.is VMF_INTX.ASSERTED lv) * 2 ^ 19 + 2 ^ 20)
  | 2 => free % 256 + (if f = 1 then 0x088000 else 0x060400) * 256
  | 3 => held % 65536 + (bitVal (d.multiFunction lv f) * 128 + (if f = 1 then 0 else 1)) * 65536
  | 4 => if f = 1 then (held &&& 0xFFFF0000) + 4 else if f = 0 then withFree free 0xFFFF0000 held else 0
  | 5 => if f < 2 then held else 0
  | 13 => free % 256
  | 15 =>
    if f = 1 then held % 256 + 256
    else if f = 0 then withFree free 0xFFFE00FF (held &&& 0xFFE200FF)
    else withFree free 0xFFFEFFFF (held % 256 + 256 + (held &&& 0xFFE20000))
  | _ => if f = 1 then 0 else held

/-- Device Capabilities 2: ARI Forwarding of a virtual downstream port, AtomicOp routing, LTR, 10-bit tags (R108). -/
def deviceCap2Word (k free : Nat) : Nat := withFree free 0x00030860 (bitVal (k == 2) * 2 ^ 5 + 2 ^ 6 + 2 ^ 11 + 2 ^ 16 + 2 ^ 17)

/-- ACS of a virtual downstream port: every control of R108 but Egress's vector, and the controls as the host wrote them. -/
def acsWord (v : VPort) (held free : Nat) : Nat :=
  withFree free 0x007F007F (0x7F + bitVal v.p2pRedirect * 2 ^ 18 + (held &&& 0x007B0000))

/-- A capability word of a function: what the manual gives, else free. -/
def Dev.capabilityWord (d : Dev) (lv f w free : Nat) : Nat :=
  let k := kindOf f
  let v := d.vport lv (f - 2)
  let held := d.cfgWord lv f w
  if k ≠ 1 ∧ capAt k w .link then d.linkWord lv f free
  else if k ≠ 1 ∧ capAt k w .linkCap then d.linkCapWord lv f free
  else if k ≠ 1 ∧ capAt k w .deviceCap then withFree free 7 5
  else if k ≠ 1 ∧ capAt k w .deviceCap2 then deviceCap2Word k free
  else if k ≠ 1 ∧ capAt k w .l1Cap then withFree free 0x00FB001F (0x1F + 2 ^ 16 + 10 * 2 ^ 19)
  else if capAt k w .deviceControl then withFree free 0x7FFF held
  else if capAt k w .deviceControl2 then withFree free 0xFFFF held
  else if capAt k w .aerControl then withFree free 0x01E0 (2 ^ 5 + 2 ^ 7 + (held &&& 0x0140))
  else if k = 2 ∧ capAt k w .slotCap then d.slotCapWord lv (f - 2) free
  else if k = 2 ∧ capAt k w .aer then withFree free (2 ^ 5) (bitVal v.surpriseDown * 2 ^ 5)
  else if k = 2 ∧ capAt k w .slot then slotWordFull v free
  else if k = 2 ∧ capAt k w .dpcControl then withFree free 0x00030000 (v.dpcEnable % 4 * 65536)
  else if k = 2 ∧ capAt k w .dpcStatus then withFree free 1 (bitVal v.dpcStatus)
  else if k = 2 ∧ capAt k w .acs then acsWord v held free
  else if k = 2 ∧ capAt k w .msi then withFree free 0x00010000 (bitVal v.msi * 65536)
  else if k = 0 ∧ capAt k w .ltr then held
  else free % 2 ^ 32

/-- A host reads configuration word w of a virtual function. -/
def Dev.readFunction (d : Dev) (lv f w : Nat) : Nat × Dev :=
  let (free, d) := d.draw
  (if w < 16 then d.headerWord lv f w free else d.capabilityWord lv f w free, d)

/-! ### Writing -/

/-- The host's bus number of a virtual downstream port reaches the endpoint's edge (R218). -/
def Dev.setSecondary (d : Dev) (lv k bus : Nat) : Dev :=
  let d := d.setVport lv k fun v => { v with secondaryBus := bus }
  match (d.vit lv).binding k with
  | none => d
  | some b =>
    if fpidModule b.fpid = d.moduleId then d.setBound b fun x => { x with bus := bus }
    else d.tell (fpidModule b.fpid) (.report "secondary bus" [b.fpid, k, bus])

/-- The I/O window of a virtual downstream port follows its words (R112). -/
def Dev.setIoWindow (d : Dev) (lv k : Nat) : Dev :=
  let low := d.cfgWord lv (2 + k) 7
  let high := d.cfgWord lv (2 + k) 12
  d.setVport lv k fun v =>
    { v with ioBase := bitsOf low 7 4 * 4096 + bitsOf high 15 0 * 65536, ioLimit := bitsOf low 15 12 * 4096 + 4095 + bitsOf high 31 16 * 65536 }

/-- MSI Enable decides whether a virtual downstream port's events go by INTA (R153, R243). -/
def Dev.setMsi (d : Dev) (lv k : Nat) (on : Bool) : Dev := (d.setVport lv k fun v => { v with msi := on }).slotIntx lv k

/-- Slot Control and the write-1-to-clear bits of Slot Status. -/
def Dev.writeSlotWord (d : Dev) (lv k v be : Nat) : Dev :=
  let w := v &&& beMask be
  let d := d.setVport lv k fun x =>
    { x with
      attention := x.attention && !bitOf w 16
      powerFault := x.powerFault && !bitOf w 17
      presenceChanged := x.presenceChanged && !bitOf w 19
      commandCompleted := x.commandCompleted && !bitOf w 20
      dllChanged := x.dllChanged && !bitOf w 24 }
  if be % 4 = 0 then d.slotIntx lv k
  else
    let n := mergeBe (slotWord (d.vport lv k) 0) v be
    d.slotControl lv k (bitOf n 10) (bitsOf n 7 6) (bitsOf n 9 8) (bitOf n 5) (n % 2 ^ 13)

/-- Link Disable of a virtual downstream port (R118). -/
def Dev.writeLink (d : Dev) (lv k v be : Nat) : Dev :=
  let on := bitOf v 4
  if !bitOf be 0 || (d.vport lv k).linkDisable == on then d
  else
    let d := d.setVport lv k fun v => { v with linkDisable := on }
    match (d.vit lv).binding k with
    | some b => if on then d.linkDisable b else d.linkEnable b
    | none => d

/-- A host writes a capability register of virtual downstream port k. -/
def Dev.writePortCap (d : Dev) (lv k w v be : Nat) : Dev :=
  if capAt 2 w .slot then d.writeSlotWord lv k v be
  else if capAt 2 w .link then d.writeLink lv k v be
  else if capAt 2 w .dpcControl then d.when (bitOf be 2) (·.setVport lv k fun x => { x with dpcEnable := bitsOf v 17 16 })
  else if capAt 2 w .dpcStatus then d.when (bitOf be 0 && bitOf v 0) (·.clearDpc lv k)
  else if capAt 2 w .acs then
    (d.setCfg lv (2 + k) w (mergeBe (d.cfgWord lv (2 + k) w) v be)).when (bitOf be 2)
      (·.setVport lv k fun x => { x with p2pRedirect := bitOf v 18 })
  else if capAt 2 w .msi then d.when (bitOf be 2) (·.setMsi lv k (bitOf v 16))
  else if capAt 2 w .aer then d.setVport lv k fun x => { x with surpriseDown := x.surpriseDown && !bitOf (v &&& beMask be) 5 }
  else d.setCfg lv (2 + k) w (mergeBe (d.cfgWord lv (2 + k) w) v be)

/-- A host writes word w of virtual downstream port k. -/
def Dev.writePort (d : Dev) (lv k w v be : Nat) : Dev :=
  let old := d.cfgWord lv (2 + k) w
  if 16 ≤ w then d.writePortCap lv k w v be
  else
    let new := mergeBe old v be
    let d := d.setCfg lv (2 + k) w new
    if w = 6 then d.setSecondary lv k (bitsOf new 15 8)
    else if w = 7 ∨ w = 12 then d.setIoWindow lv k
    else if w = 15 ∧ bitOf new 22 ∧ !bitOf old 22 then
      (match (d.vit lv).binding k with
       | some b => d.resetBinding b
       | none => d)
    else d

/-- Nanoseconds of a latency in the LTR encoding (R137). -/
def latencyNs (v : Nat) : Nat := v % 1024 * 32 ^ (v / 1024 % 8)

/-- The host-written LTR maxima apply while LTR Mechanism Enable is set (R137). -/
def Dev.setHostLtr (d : Dev) (lv : Nat) : Dev :=
  let on := bitOf (d.cfgWord lv 0 (16 + Config.capWord 0 .deviceControl2)) 10
  let v := d.cfgWord lv 0 (16 + Config.capWord 0 .ltr)
  (d.setVit lv fun x =>
    { x with hostLtr := if on then some (min (latencyNs (v % 65536)) (latencyNs (v / 65536))) else none }).showLtr
    (d.get VIT_PORT.UPORT lv)

/-- A host writes word w of the virtual upstream port. -/
def Dev.writeUpstream (d : Dev) (lv w v be : Nat) : Dev :=
  let new := mergeBe (d.cfgWord lv 0 w) v be
  let d := d.setCfg lv 0 w new
  if w = 6 then d.setVit lv fun x => { x with bus := bitsOf new 15 8 }
  else if capAt 0 w .link then d.when (bitOf be 0) (·.setVit lv fun x => { x with aspmL1 := bitOf v 1 })
  else if capAt 0 w .deviceControl2 || capAt 0 w .ltr then d.setHostLtr lv
  else d

/-- A host writes word w of the VMF: Memory Space Enable, Bus Master Enable, Interrupt Disable, BAR0, Initiate FLR (R384, R386, R400, R401). -/
def Dev.writeVmf (d : Dev) (lv w v be : Nat) : Dev :=
  let new := mergeBe (d.cfgWord lv 1 w) v be
  if capAt 1 w .deviceControl ∧ bitOf be 1 ∧ bitOf v 15 then d.startFlr lv
  else
    let d := d.setCfg lv 1 w new
    if w = 1 then
      let was := (d.vmf lv).busMaster
      let d := d.when (was && !bitOf new 2) (·.clearBme lv)
      (d.setVmf lv fun x => { x with busMaster := bitOf new 2, memEnable := bitOf new 1, intDisable := bitOf new 10 }).vmfInta lv
    else d

/-- A host writes word w of a virtual function. -/
def Dev.writeFunction (d : Dev) (lv f w v be : Nat) : Dev :=
  if f = 0 then d.writeUpstream lv w v be
  else if f = 1 then d.writeVmf lv w v be
  else d.writePort lv (f - 2) w v be

/-! ### BARs of bound functions -/

/-- The BAR register of function 0 that word w is: its BAR, whether it is the upper half, and whether the BAR has two registers. BARs stand from
word 4 on in their order; up to three have two registers each (log entry 39). -/
def barAt (bars w : Nat) : Option (Nat × Bool × Bool) :=
  if w < 4 ∨ 10 ≤ w then none
  else if bars ≤ 3 then (if (w - 4) / 2 < bars then some ((w - 4) / 2, (w - 4) % 2 == 1, true) else none)
  else if w - 4 < bars then some (w - 4, false, false) else none

/-- What a host reads of a BAR of a bound function (R216): its size mask after a sizing write, else its own value. -/
def Dev.barWord (d : Dev) (b : Binding) (n : Nat) (upper wide : Bool) (free : Nat) : Nat :=
  let e : Att := SMap.get {} d.atts (b.atts.getD n 0)
  let x := SMap.get {} b.barx n
  let mask := 2 ^ 64 - 2 ^ e.sizeLog2
  if upper then (if x.hiSize then mask / 2 ^ 32 else e.host / 2 ^ 32 % 2 ^ 32)
  else withFree free 0xFFFFFFF4 ((if x.loSize then mask % 2 ^ 32 else e.host % 2 ^ 32) / 16 * 16 + bitVal wide * 4)

/-! ### HDM decoders -/

/-- Decoder n from its words of the component registers (R244): committed with 1, 2, 4 or 8 ways and a granularity of 256 bytes to 16 KiB
alone (R113). -/
def Dev.hdmFrom (d : Dev) (lv n : Nat) : Hdm :=
  let r (i : Nat) : Nat := d.cfgWord lv 66 (4 + n * 8 + i)
  let ways := 2 ^ (r 4 / 16 % 4)
  { enabled := bitOf (r 4) 9 && decide (r 4 % 16 ≤ 6) && decide (r 4 / 16 % 16 ≤ 3)
    base := r 0 / 2 ^ 28 * 2 ^ 28 + r 1 * 2 ^ 32
    size := r 2 / 2 ^ 28 * 2 ^ 28 + r 3 * 2 ^ 32
    ways := ways
    gran := 256 * 2 ^ (r 4 % 8)
    targets := (List.range ways).map fun i => (r 5 + r 6 * 2 ^ 32) / 256 ^ i % 256 }

/-- A host writes a word of the CXL component registers: the control word of an HDM decoder commits the decoder (R244). -/
def Dev.writeComponent (d : Dev) (lv w v : Nat) : Dev :=
  if w < Config.hdmWord ∨ Config.hdmWord + 132 ≤ w then d
  else
    let i := w - Config.hdmWord
    let d := d.setCfg lv 66 i v
    if 4 ≤ i ∧ (i - 4) % 8 = 4 then d.setVit lv fun x => { x with hdm := x.hdm.set ((i - 4) / 8) (d.hdmFrom lv ((i - 4) / 8)) } else d

/-- A host reads a word of the CXL component registers: the HDM decoder capability gives 16 decoders of up to 8 targets, interleaved at 256 bytes
to 16 KiB (R113); a decoder shows Committed, or Error Not Committed where its commit was refused. -/
def Dev.readComponent (d : Dev) (lv w : Nat) : Nat × Dev :=
  let (free, d) := d.draw
  if w < Config.hdmWord ∨ Config.hdmWord + 132 ≤ w then (free % 2 ^ 32, d)
  else
    let i := w - Config.hdmWord
    let word := d.cfgWord lv 66 i
    if i = 0 then (withFree free 0x1BFF 0x388, d)
    else if 4 ≤ i ∧ (i - 4) % 8 = 4 then
      let on := ((d.vit lv).hdm.getD ((i - 4) / 8) {}).enabled
      (withFree word (2 ^ 10 + 2 ^ 11) (bitVal on * 2 ^ 10 + bitVal (bitOf word 9 && !on) * 2 ^ 11), d)
    else (word, d)

end Sys2Proof.Machine
end

