-- ==== Sys2Proof/Machine/Commands.lean ====
section
/-! DEFINITION. The inventory commands, SCHEDULE, and the firmware and security commands (R376, R379, R380). -/

namespace Sys2Proof.Machine

/-! ### Module reset -/

/-- A module reset (R13): every register at its reset value, from the EEPROM and the stored configuration where they give it (R44, R382);
FAILOVERS counts since power-on (DEDUCED, log entry 44). -/
def moduleReset (s : State) : State :=
  let d : Dev := { drawn := s.dev.drawn, out := s.dev.out, eqTable := eqTableOf s.nv.eqTable }
  let d := match s.nv.docRoles with
    | some r => (d.put CUR_DOC_ROLE_LO.ROLE 0 r.1).put CUR_DOC_ROLE_HI.ROLE 0 r.2
    | none => d
  let d := d.forEach s.nv.rails.zipIdx fun d r =>
    ((d.put HLT_RAIL_PLAN.FUSED_MV r.2 r.1.1).put HLT_RAIL_PLAN.PLAN_MV r.2 r.1.2).put HLT_RAIL_NOW.SETPOINT_MV r.2 (r.1.2 + 30)
  let d := d.put CUR_START_CFG.PRIO 0 (s.nv.prio.getD 128)
  { s with dev := d.put CUR_PAIR_STATUS.FAILOVERS 0 (s.dev.get CUR_PAIR_STATUS.FAILOVERS 0) }

/-! ### Inventory -/

/-- The image that booted (R380). -/
def NonVolatile.image (n : NonVolatile) : FwImage := if n.booted = 0 then n.fwA else n.fwB

/-- CHANNEL_ID of the stored rear-lane table (R43): reported in inventory, checked by nothing. -/
def NonVolatile.channelId (n : NonVolatile) : Nat := ofLeBytes ((n.eqTable.drop 8).take 4)

/-- MODULE_INFO (R376). CHANNEL_ID goes beside the response, which has no field for it (R43, log entry 111). -/
def execModuleInfo (h : CmdHdr) (s : State) : Host.Outcome State Fault Refusal :=
  let nv := s.nv
  onDev s fun d =>
    d.moduleCommand h 0x0101 [1, 2, 4] true fun d =>
      let flags := bitVal (d.registrar == some d.moduleId) + 2 * d.get PWR_BUDGET.HIGH 0 + 4 * d.get PWR_BUDGET.SINGLE_FEED 0 +
        16 * d.get PWR_PS_STATUS.STATE 0
      let used := (d.vits.filter fun v => v.2.live).length
      (d.emit (.respond "CHANNEL_ID" [h.tag, nv.channelId])).finish h 0x0101 Status.ok 0
        [(0, 2, d.moduleId), (2, 2, nv.image.version), (4, 4, flags), (8, 8, nv.serial), (16, 4, used),
         (20, 4, d.get TRK_FREE.UNALLOCATED 0)]

/-- A port's word in PORT_LIST (R376). -/
def Dev.portWord (d : Dev) (p : Nat) : Nat :=
  let link := d.fabricPort p
  let width := if link then d.get FLL_LINK_STATUS.WIDTH p else d.get PRT_PORT_STATUS.WIDTH p
  let rate := if link then d.get FLL_LINK_STATUS.RATE p else d.get PRT_PORT_STATUS.RATE p
  p + 2 ^ 9 * d.get PRT_PORT_CFG.KIND p + 2 ^ 12 * width + 2 ^ 15 * rate +
    2 ^ 19 * d.get SLC_CONT_STATE.STATE (contObj (if link then 2 else 0) p)

/-- PORT_LIST: up to 24 configured ports from one on (R376). -/
def execPortList (h : CmdHdr) (first : Fin 65536) (s : State) : Host.Outcome State Fault Refusal :=
  onDev s fun d =>
    d.moduleCommand h 0x0102 [1, 2, 4] false fun d =>
      if 512 ≤ first.val then d.badParam h 0x0102 0
      else
        let all := (List.range 512).filter fun p => decide (first.val ≤ p) && d.configured p
        let some24 := all.take 24
        let next := (all.drop 24).head?.getD 0xFFFF
        d.finish h 0x0102 Status.ok some24.length
          ((2, 2, next) :: (some24.zipIdx.map fun e => (8 + 4 * e.2, 4, d.portWord e.1)))

/-- The binding of an endpoint, as its module holds it. -/
def Dev.boundPort (d : Dev) (p e : Nat) : Nat :=
  match (d.endpoint p e).bound with
  | some b => b.k
  | none => 0xFF

/-- State of an endpoint in ENDPOINT_LIST (R376). -/
def Dev.endpointState (d : Dev) (p e : Nat) : Nat :=
  let x := d.endpoint p e
  if x.accession = .running ∨ x.accession = .none then 0
  else if x.accession = .failed then 2
  else if d.contained 0 (d.contPort p e) then 4
  else if x.bound.isSome then 3
  else 1

/-- The e-fuse that feeds an endpoint is DAMAGED (R356). -/
def Dev.endpointDamaged (d : Dev) (p e : Nat) : Bool :=
  if p = 447 then decide (e < 64) && d.efState (56 + (d.endpoint p e).front) == 5
  else p < 448 && (d.cagesOf p).any fun c => d.efState c == 5

/-- The 8 bytes of an endpoint in ENDPOINT_LIST (R376). -/
def Dev.endpointEntry (d : Dev) (p e : Nat) : Nat :=
  let x := d.endpoint p e
  let flags := bitVal x.unauthenticated + 2 * bitVal (p == 447 && decide (e < 64)) + 4 * bitVal (engineOf p e).isSome +
    8 * bitVal (d.endpointDamaged p e)
  d.fpid p + 2 ^ 32 * x.ldId.getD 0xFF + 2 ^ 40 * d.endpointState p e + 2 ^ 48 * flags + 2 ^ 56 * d.boundPort p e

/-- ENDPOINT_LIST: up to 12 endpoints from an index on (R376). -/
def execEndpointList (h : CmdHdr) (first : Word) (s : State) : Host.Outcome State Fault Refusal :=
  onDev s fun d =>
    d.moduleCommand h 0x0103 [1, 2, 4] false fun d =>
      let all := d.endpoints.filter fun e => e.2.exists_
      let from_ := all.drop first.toNat
      let part := from_.take 12
      let next := if 12 < from_.length then first.toNat + 12 else 0xFFFFFFFF
      d.finish h 0x0103 Status.ok part.length
        ((4, 4, next) :: (part.zipIdx.map fun e => (8 + 8 * e.2, 8, d.endpointEntry (e.1.1 / 256) (e.1.1 % 256))))

/-- ENDPOINT_INFO; a tenant's own (R368, R376). -/
def execEndpointInfo (h : CmdHdr) (fpid : Word) (ld : Byte) (s : State) : Host.Outcome State Fault Refusal :=
  onDev s fun d =>
    let f := fpidField fpid.toNat
    d.command h 0x0104 [1, 2, 4] true (fpidModule f) fun d =>
      let p := fpidPort f
      match d.findEndpoint p ld.toNat with
      | none => d.finish h 0x0104 Status.noObject
      | some e =>
        let x := d.endpoint p e
        let gvh := match x.bound with
          | some b => b.gvh
          | none => 0xFFFFFFFF
        if d.roleOf h = 3 ∧ !d.ownVitrine h gvh then d.finish h 0x0104 Status.notPermitted
        else
          d.finish h 0x0104 Status.ok 0
            [(8, 2, x.facts.vendor), (10, 2, x.facts.device), (12, 4, x.facts.classCode), (16, 4, gvh), (20, 1, x.facts.functions),
             (21, 1, x.bars.length), (24, 8, (x.bars.map fun b => 2 ^ b.1).sum), (32, 48, x.identity)]

/-- VITRINE_INFO; a tenant's own (R368, R376). -/
def execVitrineInfo (h : CmdHdr) (gvh : Word) (s : State) : Host.Outcome State Fault Refusal :=
  onDev s fun d =>
    let g := gvhField gvh.toNat
    d.vitrineCommand h 0x0105 g [1, 2, 4] true (fun d lv =>
      if d.roleOf h = 3 ∧ !d.ownVitrine h g then d.finish h 0x0105 Status.notPermitted 0 [] g
      else
        let v := d.vit lv
        d.finish h 0x0105 Status.ok 0
          [(4, 1, d.get VIT_STATE.STATE lv), (5, 1, d.get VIT_PORT.NVDP lv), (6, 1, v.ctoCode), (7, 1, v.bindings.length),
           (8, 4, d.upFpid lv), (12, 4, v.basinMin), (16, 4, d.get TRK_VIT_QUOTA.QUOTA lv), (20, 4, d.inflight lv),
           (24, 8, (v.bindings.map fun b => 2 ^ b.k).sum), (32, 2, lv)] g) Wait.holdsNone

/-- TIME_GET (R376). -/
def execTimeGet (h : CmdHdr) (s : State) : Host.Outcome State Fault Refusal :=
  onDev s fun d =>
    d.moduleCommand h 0x0901 [1, 2, 4] true fun d =>
      d.finish h 0x0901 Status.ok 0
        [(0, 8, d.now), (8, 1, d.get TIM_STATE.STATE 0), (9, 1, d.get TIM_STATE.SOURCE 0), (12, 4, d.get TIM_ERR_EST.ERR_PS 0)]

/-! ### Scheduled commands -/

/-- Families SCHEDULE may run (R379). -/
def schedulable (opcode : Nat) : Bool := [4, 5, 6, 7, 10].contains (opcode / 256)

/-- The lowest free schedule ID. -/
def Dev.freeSchedule (d : Dev) : Option Nat := (List.range 256).find? fun i => !(d.scheduled.any fun e => e.id == i)

/-- SCHEDULE on this module: the second descriptor is read and checked now (R379). -/
def placeSchedule (s : State) (h : CmdHdr) (time addr : Nat) (source : Fetch) : State :=
  let op := 0x0903
  let d := s.dev
  match fetched s.mem source addr 128 with
  | none => { s with dev := d.badParam h op 8 }
  | some bs =>
    if time < d.now + msTicks 1 ∨ d.now + msTicks 86400000 < time then { s with dev := d.finish h op Status.timeOutOfRange }
    else match d.freeSchedule with
      | none => { s with dev := d.finish h op Status.scheduleFull }
      | some id =>
        let x := descriptorOf bs
        let h2 : CmdHdr := { headerOf addr h.caller x with agentRole := h.agentRole, forwarded := h.forwarded }
        let c : Cmd := { d.newCmd h2 x.opcode with stray := x.stray }
        match headerFault x with
        | some (st, detail) => writeResult { s with dev := d.badParam h op 8 } { c with status := st, detail := detail }
        | none =>
          if !schedulable x.opcode then writeResult { s with dev := d.badParam h op 8 } { c with status := Status.badOpcode }
          else
            let d := { d with scheduled := d.scheduled ++ [(⟨id, time, c⟩ : Sched)] }
            let s := { s with dev := d.finish h op Status.ok 0 [(24, 2, id)] }
            putField (putField (putField s c 8 2 c.caller) c 14 1 c.role) c 10 2 Status.pending

/-- SCHEDULE (R379). -/
def execSchedule (h : CmdHdr) (time addr : Nat) (source : Fetch) (s : State) : Host.Outcome State Fault Refusal :=
  stateCommand s h 0x0903 [1, 2] fun s => placeSchedule s h time addr source

/-- SCHEDULE_CANCEL: the entry's descriptor ends with CANCELLED (R379, R381). -/
def execScheduleCancel (h : CmdHdr) (id : Fin 65536) (s : State) : Host.Outcome State Fault Refusal :=
  onDev s fun d =>
    d.moduleCommand h 0x0904 [1, 2] false fun d =>
      match d.scheduled.find? fun e => e.id == id.val with
      | none => d.finish h 0x0904 Status.noObject
      | some e =>
        Dev.finish { d with scheduled := d.scheduled.filter fun (x : Sched) => x.id != id.val,
                            cmds := d.cmds ++ [{ e.cmd with status := Status.cancelled }] } h 0x0904 Status.ok

/-! ### Firmware and security -/

/-- IMAGE_STAGE on this module (R316, R380): the image replaces the one staged for its target. -/
def stageImage (s : State) (h : CmdHdr) (target length addr crc : Nat) (source : Fetch) : State :=
  let op := 0x0B01
  let d := s.dev
  if target = 0 ∨ 4 < target then { s with dev := d.badParam h op 0 }
  else if d.roleOf h = 4 ∧ 2 < target then { s with dev := d.finish h op Status.notPermitted }
  else match fetched s.mem source addr length with
    | none => { s with dev := d.badParam h op 8 }
    | some bs =>
      if crc32 bs = crc then { s with dev := ({ d with images := SMap.set [] d.images target bs }).finish h op Status.ok }
      else { s with dev := d.badParam h op 16 }

/-- IMAGE_STAGE (R380). -/
def execImageStage (h : CmdHdr) (target : Byte) (length : Word) (addr : Nat) (crc : Word) (source : Fetch) (s : State) :
    Host.Outcome State Fault Refusal :=
  stateCommand s h 0x0B01 [2, 4] fun s => stageImage s h target.toNat length.toNat addr crc.toNat source

/-- FW_WRITE on this module (R380). -/
def writeImage (s : State) (h : CmdHdr) (target : Nat) (signed checks : Bool) (version : Nat) : State :=
  let op := 0x0B02
  let d := s.dev
  let done (s : State) : State := { s with dev := s.dev.finish h op Status.ok }
  let fail (st : Nat) : State := { s with dev := d.finish h op st }
  let image := SMap.get [] d.images target
  if target = 0 ∨ 4 < target then { s with dev := d.badParam h op 0 }
  else if d.roleOf h = 4 ∧ 2 < target then fail Status.notPermitted
  else if image = [] then fail Status.noImage
  else if target = 1 then
    if !signed then fail Status.signatureBad
    else if !checks then fail Status.flashFailed
    else
      let x : FwImage := { bytes := image, version := version, checked := true }
      done { s with nv := if s.nv.booted = 0 then { s.nv with fwB := x } else { s.nv with fwA := x } }
  else if target = 2 then
    match eqTableOf image with
    | none => fail Status.tableInvalid
    | some t => if checks then done { s with nv := { s.nv with eqTable := image }, dev := { d with eqTable := some t } }
      else fail Status.flashFailed
  else if target = 3 then
    if checks then done { s with nv := { s.nv with anchors := image } } else fail Status.flashFailed
  else done (s.store none (ddrBase + regionDocent.1) image)

/-- FW_WRITE (R47, R380). -/
def execFwWrite (h : CmdHdr) (target : Byte) (signed checks : Bool) (version : Fin 65536) (s : State) :
    Host.Outcome State Fault Refusal :=
  stateCommand s h 0x0B02 [2, 4] fun s => writeImage s h target.toNat signed checks version

/-- The command's outcome is written back, and the module is reset (R376, R380). -/
def resetAfter (s : State) (h : CmdHdr) : State :=
  match s.dev.findCmd h with
  | some c => moduleReset (endCmd s h c true)
  | none => moduleReset s

/-- FW_ACTIVATE (R380). -/
def execFwActivate (h : CmdHdr) (image reset : Byte) (s : State) : Host.Outcome State Fault Refusal :=
  stateCommand s h 0x0B03 [2, 4] fun s =>
    let op := 0x0B03
    let d := s.dev
    if 1 < image.toNat then { s with dev := d.badParam h op 0 }
    else if 1 < reset.toNat then { s with dev := d.badParam h op 1 }
    else if !(if image = 0 then s.nv.fwA else s.nv.fwB).checked then { s with dev := d.finish h op Status.imageNotChecked }
    else
      let s := { s with nv := { s.nv with nextImage := image.toNat }, dev := d.finish h op Status.ok }
      if reset = 1 then resetAfter s h else s

/-- A nibble of a word. -/
def setNibble (w i v : Nat) : Nat := w - w / 16 ^ i % 16 * 16 ^ i + v % 16 * 16 ^ i

/-- ROLE_SET: the register and the stored configuration (R380, R382). -/
def execRoleSet (h : CmdHdr) (docent role : Byte) (s : State) : Host.Outcome State Fault Refusal :=
  stateCommand s h 0x0B04 [1] fun s =>
    let op := 0x0B04
    let d := s.dev
    let n := docent.toNat
    if 16 ≤ n then { s with dev := d.badParam h op 0 }
    else if ¬(role = 0 ∨ role = 1 ∨ role = 2 ∨ role = 4) then { s with dev := d.badParam h op 1 }
    else
      let d := if n < 8 then d.put CUR_DOC_ROLE_LO.ROLE 0 (setNibble (d.get CUR_DOC_ROLE_LO.ROLE 0) n role.toNat)
        else d.put CUR_DOC_ROLE_HI.ROLE 0 (setNibble (d.get CUR_DOC_ROLE_HI.ROLE 0) (n - 8) role.toNat)
      { s with nv := { s.nv with docRoles := some (d.get CUR_DOC_ROLE_LO.ROLE 0, d.get CUR_DOC_ROLE_HI.ROLE 0) },
               dev := d.finish h op Status.ok }

/-- The first field of RANGE_SET out of range, by its offset (R162, R365). -/
def badRange (entry flags base limit attr addr : Nat) : Option Nat :=
  if 64 ≤ entry then some 0
  else if 1 < flags then some 1
  else if 2 ^ 28 ≤ base then some 4
  else if 2 ^ 28 ≤ limit then some 8
  else if bitsOf attr 7 1 ≠ 0 ∨ bitOf attr 11 ∨ 1 < bitsOf attr 13 12 then some 12
  else if addr % 4096 ≠ 0 then some 24
  else none

/-- RANGE_SET (R162, R376). -/
def execRangeSet (h : CmdHdr) (entry flags : Byte) (base limit attr fpid : Word) (addr : Nat) (s : State) :
    Host.Outcome State Fault Refusal :=
  onDev s fun d =>
    let op := 0x0B05
    d.moduleCommand h op [1, 2] false fun d =>
      match badRange entry.toNat flags.toNat base.toNat limit.toNat attr.toNat addr with
      | some o => d.badParam h op o
      | none =>
        let i := entry.toNat
        let a := attr.toNat
        let d := ((d.put EBR_RAT_BASE.VALID i flags.toNat).put EBR_RAT_BASE.BASE_PG i base.toNat).put EBR_RAT_LIMIT.LIMIT_PG i
          limit.toNat
        let d := (d.put EBR_RAT_ATTR.DOCENT_MASK i (bitsOf a 31 16)).mark EBR_RAT_ATTR.CURATOR i (bitOf a 15)
        let d := ((d.mark EBR_RAT_ATTR.WRITE i (bitOf a 14)).put EBR_RAT_ATTR.KIND i (bitsOf a 13 12)).put EBR_RAT_ATTR.PF_LINES i
          (bitsOf a 10 8)
        let d := (d.mark EBR_RAT_ATTR.MODE i (bitOf a 0)).put EBR_RAT_TARGET.FPID i (fpidField fpid.toNat)
        ((d.put64 EBR_RAT_XLATE_LO.ADDR EBR_RAT_XLATE_HI.ADDR i addr).entryChanged i).finish h op Status.ok

/-- MODULE_RESET, when confirmed (R376). -/
def execModuleReset (h : CmdHdr) (confirm : Word) (s : State) : Host.Outcome State Fault Refusal :=
  stateCommand s h 0x0B06 [1, 2, 4] fun s =>
    if confirm = 0x5120 then resetAfter { s with dev := s.dev.finish h 0x0B06 Status.ok } h
    else { s with dev := s.dev.badParam h 0x0B06 0 }

end Sys2Proof.Machine
end

