-- ==== Sys2Proof/Machine/Margins.lean ====
section
/-! DEFINITION. The two forecasts of the margin plan as arithmetic on integers: a fit on logarithms, a straight line (R472). -/

namespace Sys2Proof.Machine

/-- Fraction bits of a logarithm, from a mantissa m / 2^60 in [1, 2): each is whether the square reaches 2. -/
def logBits (fuel m : Nat) : Nat :=
  match fuel with
  | 0 => 0
  | n + 1 =>
    let q := m * m / 2 ^ 60
    if 2 ^ 61 ≤ q then 2 ^ n + logBits n (q / 2) else logBits n q

/-- Base-2 logarithm of a number from 1 on, in units of 2^-32. -/
def log2Fix (x : Nat) : Int := (Nat.log2 x * 2 ^ 32 + logBits 32 (x * 2 ^ 60 / 2 ^ Nat.log2 x) : Nat)

/-- Sums over points: how many, x, y, x·y, x². -/
structure Sums where
  n : Int
  x : Int
  y : Int
  xy : Int
  xx : Int
  deriving DecidableEq, Repr

/-- The sums of least squares. -/
def sumsOf (ps : List (Int × Int)) : Sums :=
  ps.foldl (fun s p => ⟨s.n + 1, s.x + p.1, s.y + p.2, s.xy + p.1 * p.2, s.xx + p.1 * p.1⟩) ⟨0, 0, 0, 0, 0⟩

/-- Slope of the least-squares line as a numerator and a denominator, 0 where the points leave it open. -/
def Sums.slope (s : Sums) : Int × Int := (s.n * s.xy - s.x * s.y, s.n * s.xx - s.x * s.x)

/-- The line with slope num / den through the mean of the points is at most `bound` at x. -/
def Sums.below (s : Sums) (num den x bound : Int) : Bool :=
  decide (s.y * den + num * (s.n * x - s.x) ≤ bound * (s.n * den))

/-- The largest number of days below 2^bits at which p holds, for a p that holds up to some day; 0 where it holds at none. -/
def lastDay (bits base : Nat) (p : Nat → Bool) : Nat :=
  match bits with
  | 0 => base
  | n + 1 => if p (base + 2 ^ n) then lastDay n (base + 2 ^ n) p else lastDay n base p

/-- A slope clipped to 0.1 to 0.3 (R472). -/
def clipSlope (s : Int × Int) : Int × Int :=
  if s.1 * 10 < s.2 then (1, 10) else if 3 * s.2 < s.1 * 10 then (3, 10) else s

/-- Days until the fitted slowdown of readings (hours, ppm) would exceed a limit in ppm; none where the readings give no fit. -/
def voltDays (readings : List (Nat × Nat)) (hours limit : Nat) : Option Nat :=
  let s := sumsOf ((readings.filter fun r => r.1 ≠ 0 && r.2 ≠ 0).map fun r => (log2Fix r.1, log2Fix r.2))
  let slope := s.slope
  if slope.2 ≤ 0 then none
  else
    let c := clipSlope slope
    some (lastDay 16 0 fun d => limit ≠ 0 && s.below c.1 c.2 (log2Fix (hours + 24 * d)) (log2Fix limit))

/-- Days until a straight line through (hours, margin) falls below a floor; none where the points give no line. -/
def laneDays (points : List (Nat × Nat)) (hours floor : Nat) : Option Nat :=
  let s := sumsOf (points.map fun p => ((p.1 : Int), -(p.2 : Int)))
  let slope := s.slope
  if slope.2 ≤ 0 then none
  else if slope.1 ≤ 0 then some 65535
  else some (lastDay 16 0 fun d => s.below slope.1 slope.2 (hours + 24 * d : Nat) (-(floor : Int)))

end Sys2Proof.Machine
end

