-- ==== Sys2Proof/Machine/Telemetry.lean ====
section
/-! DEFINITION. Counter words, Catalogue streams and their dumps, Specimens, and the telemetry commands (R435 to R455). -/

namespace Sys2Proof.Machine

/-! ### Counter words -/

/-- First word index and counters of a bank (R435). -/
def bankWords (b : Nat) : Nat × Nat :=
  if b < 512 then (b * 128, 128) else if b < 1536 then (65536 + (b - 512) * 64, 64) else (131072 + (b - 1536) * 128, 128)

/-- Counters of a module bank that R443 names. -/
def moduleCounter (b e : Nat) : Bool :=
  match b with
  | 1536 => decide (e < 16)
  | 1537 => decide (e < 11) || (decide (16 ≤ e) && decide (e < 27)) || (decide (32 ≤ e) && decide (e < 35))
  | 1538 => decide (e < 38)
  | 1539 => true
  | 1540 => decide (e < 108)
  | 1541 => decide (e < 6) || (decide (16 ≤ e) && decide (e < 19))
  | 1542 => decide (e < 6)
  | 1543 => decide (e < 7)
  | _ => false

/-- Word w is a counter the tables name, of a bank in use (R435, R441 to R443). -/
def Dev.countsAt (d : Dev) (w : Nat) : Bool :=
  if w < 65536 then d.configured (w / 128) && decide (w % 128 < 96)
  else if w < 131072 then decide (w % 64 < 42)
  else moduleCounter (1536 + (w - 131072) / 128) (w % 128)

/-- Counter word w; others read zero (R435, R436). -/
def Dev.ctrWord (d : Dev) (w : Nat) : Nat :=
  if d.countsAt w then
    let c := SMap.get {} d.ctrs w
    counterWord c.value c.wrap c.sat (d.saturating w)
  else 0

/-- COUNTER_CLEAR_STICKY on this module (R439). -/
def Dev.clearSticky (d : Dev) (bank first n : Nat) : Dev :=
  let w := (bankWords bank).1 + first
  let d := d.forEach (List.range n) fun d i =>
    { d with ctrs := SMap.modify {} d.ctrs (w + i) fun c => { c with wrap := false, sat := false } }
  (d.count (modCtr 1543 5) 1).record 0x1480
    { object := bank, detail := [BitVec.ofNat 8 first, BitVec.ofNat 8 n] ++ List.replicate 10 0 }

/-- The counter bank of the tenant that calls, none for another caller. -/
def tenantBank (h : CmdHdr) : Option Nat := (tenantOf h).map (512 + ·)

/-- COUNTER_CLEAR_STICKY (R439, R376). -/
def execCounterClearSticky (h : CmdHdr) (bank : Word) (first count : Byte) (s : State) : Host.Outcome State Fault Refusal :=
  onDev s fun d =>
    let op := 0x0703
    d.moduleCommand h op [1, 2] true fun d =>
      let b := bank.toNat
      let size := (bankWords b).2
      if 1544 ≤ b then d.badParam h op 0
      else if d.roleOf h = 3 ∧ tenantBank h ≠ some b then d.finish h op Status.notPermitted
      else if count = 0 then (d.clearSticky b 0 size).finish h op Status.ok
      else if size ≤ first.toNat then d.badParam h op 4
      else if size < first.toNat + count.toNat then d.badParam h op 5
      else (d.clearSticky b first.toNat count.toNat).finish h op Status.ok

/-- TEL_MODE_CHANGED: a condition of R438 changes; test follows the armed injections. -/
def execTelModeChanged (which : Fin 3) (on : Bool) (s : State) : Host.Outcome State Fault Refusal :=
  onDev s fun d =>
    if which = 0 then d.setTel TEL_MODE.STARTUP on
    else if which = 1 then d.setTel TEL_MODE.RECOVERY on
    else d.setTel TEL_MODE.TEST (!d.injections.isEmpty)

/-! ### Catalogue -/

/-- A Catalogue stream: 0 the module's, local ID + 1 a tenant's. -/
def Dev.cat (d : Dev) (n : Nat) : CatStream := SMap.get {} d.cats n

/-- A Catalogue stream changes; TEL_CAT_WPTR and VMF_CAT_WPTR show where its next dump begins (R448). -/
def Dev.setCat (d : Dev) (n : Nat) (c : CatStream) : Dev :=
  let d := { d with cats := SMap.set {} d.cats n c }
  if n = 0 then d.put TEL_CAT_WPTR.OFFSET 0 c.wptr else d.put VMF_CAT_WPTR.VALUE (n - 1) c.wptr

/-- Words of a dump over some banks. -/
def dumpWords (first banks : Nat) : Nat := ((List.range banks).map fun i => (bankWords (first + i)).2).sum

/-- Bytes of a dump (R447). -/
def dumpBytes (first banks : Nat) : Nat := 64 + 8 * dumpWords first banks

/-- Where a dump goes that would start at an offset of the ring (R448). -/
def CatStream.place (c : CatStream) (at_ : Nat) : Nat := if c.ring < at_ + dumpBytes c.first c.banks then 0 else at_

/-- The stream is configured anew: from its ring's start (R445, R446). -/
def Dev.startCat (d : Dev) (n : Nat) (c : CatStream) : Dev :=
  let old := d.cat n
  let d := d.setCat n { c with dseq := old.dseq, writing := old.writing, since := d.now }
  if n = 0 then { d with ringRecords := SMap.set 0 d.ringRecords 2 0 }
  else ((d.put64 VMF_CAT_ADDR_LO.VALUE VMF_CAT_ADDR_HI.VALUE (n - 1) c.addr).put VMF_CAT_SIZE.VALUE (n - 1) c.ring)

/-- The default stream: a full dump every 10 ms, from module ready on (R445). -/
def defaultCat : CatStream := { scope := 0, first := 0, banks := 1544, period := 10000 }

/-- The first parameter of CATALOGUE_CONFIG out of range, by its offset, or BAD_DEST (R445, R448, R376). -/
def badCatalogue (tenant : Option Nat) (scope dest count first period ring : Nat) : Option (Nat × Nat) :=
  let banks := if scope = 0 then 1544 else count
  let from_ := if scope = 0 then 0 else first
  let bad (o : Nat) : Option (Nat × Nat) := some (Status.badParam, o)
  if 2 < scope then bad 0
  else if 1 < dest then bad 1
  else if scope = 2 then none
  else if tenant.isSome ∧ (scope = 0 ∨ some first ≠ tenant ∨ count ≠ 1) then some (Status.notPermitted, 0)
  else if (dest = 1) ≠ tenant.isSome then some (Status.badDest, 0)
  else if scope = 1 ∧ (count = 0 ∨ 1544 < count) then bad 2
  else if scope = 1 ∧ 1544 < first + count then bad 4
  else if period < (if scope = 0 then 1000 else 100) ∨ 60000000 < period then bad 8
  else if 0x40000000 < ring then some (Status.ringTooLarge, 0)
  else if (tenant.isSome ∨ ring ≠ 0) ∧ (ring % 64 ≠ 0 ∨ ring < dumpBytes from_ banks) then bad 12
  else none

/-- CATALOGUE_CONFIG (R445, R446, R448). -/
def execCatalogueConfig (h : CmdHdr) (scope dest : Byte) (count : Fin 65536) (first : Word) (period ring : Word) (addr : Nat)
    (s : State) : Host.Outcome State Fault Refusal :=
  onDev s fun d =>
    let op := 0x0701
    d.moduleCommand h op [1, 2] true fun d =>
      match badCatalogue (tenantBank h) scope.toNat dest.toNat count.val first.toNat period.toNat ring.toNat with
      | some (st, detail) => d.finish h op st detail
      | none =>
        let n := match tenantOf h with
          | some lv => lv + 1
          | none => 0
        let c : CatStream :=
          if scope = 2 then {}
          else if scope = 0 then { defaultCat with period := period.toNat }
          else { scope := 1, first := first.toNat, banks := count.val, period := period.toNat }
        let size := if ring = 0 then 0x40000000 else ring.toNat
        let c : CatStream := if scope = 2 then { c with ring := 0 } else { c with ring := size }
        (d.startCat n { c with addr := if n = 0 ∨ scope = 2 then 0 else addr }).finish h op Status.ok

/-- The Vitrine of a stream, for its counters and records. -/
def Dev.streamGvh (d : Dev) (n : Nat) : Nat := if n = 0 then 0xFFFFFFFF else d.gvh (n - 1)

/-- A stream skips an instant (R449). -/
def Dev.skipCat (d : Dev) (n : Nat) : Dev :=
  let c := d.cat n
  let d := (d.setCat n { c with skipped := c.skipped + 1 }).count (modCtr 1543 2) 1
  (d.when (n != 0) (·.count (vitCtr (n - 1) 39) 1)).raise TEL_EVENTS.CAT_SKIPPED 0 { gvh := d.streamGvh n }

/-- The counters of a stream's banks are latched at an instant, or the instant is skipped (R446, R449). -/
def Dev.snapshot (d : Dev) (n ftime : Nat) (atStep : Bool) : Dev :=
  let c := d.cat n
  if c.writing.isSome || (n != 0 && !(d.vmf (n - 1)).busMaster) then d.skipCat n
  else
    let w := (bankWords c.first).1
    let x : CatDump := { first := c.first, banks := c.banks, ftime := ftime, atStep := atStep, tstate := d.get TIM_STATE.STATE 0,
                         full := c.scope == 0, skipped := c.skipped,
                         words := (List.range (dumpWords c.first c.banks)).map fun i => d.ctrWord (w + i), since := c.since
                         start := c.place c.wptr, addr := c.addr }
    (d.setCat n { c with skipped := 0, writing := some x }).count (modCtr 1543 0) 1

/-- The instant of a stream at or before a time. -/
def CatStream.instantAt (c : CatStream) (t : Nat) : Nat := t / usTicks c.period * usTicks c.period

/-- The stream has an instant at or before a time that it has not taken (R446). -/
def CatStream.due (c : CatStream) (t : Nat) : Bool :=
  c.scope != 2 && decide (c.since < c.instantAt t) && (c.last.all fun (l : Nat) => decide (l < c.instantAt t))

/-- A stream's instant is taken (R446). -/
def Dev.takeInstant (d : Dev) (n : Nat) : Dev :=
  let c := d.cat n
  if c.due d.now then (d.setCat n { c with last := some (c.instantAt d.now) }).snapshot n (c.instantAt d.now) false else d

/-- The stream a row names. -/
def streamNo (tenant : Option (Fin 1024)) : Nat :=
  match tenant with
  | some lv => lv.val + 1
  | none => 0

/-- CATALOGUE_SNAPSHOT (R446, R449). -/
def execCatalogueSnapshot (tenant : Option (Fin 1024)) (s : State) : Host.Outcome State Fault Refusal :=
  onDev s fun d => d.takeInstant (streamNo tenant)

/-- A dump: header and words, MAGIC and CRC included (R447). -/
def Dev.dumpImage (d : Dev) (dseq : Nat) (x : CatDump) : List Byte :=
  let head := leBytes 4 0x43544E59 ++ leBytes 2 1 ++ leBytes 2 d.moduleId ++ leBytes 8 x.ftime ++ leBytes 8 dseq ++ leBytes 4 x.first ++
    leBytes 4 x.banks ++ leBytes 4 x.words.length ++ leBytes 4 x.skipped ++
    [BitVec.ofNat 8 x.tstate, BitVec.ofNat 8 (bitVal x.full + 2 * bitVal x.atStep), 0, 0] ++ leBytes 4 (d.nextEseq / 2 ^ 40) ++
    List.replicate 12 0
  let words := x.words.flatMap (leBytes 8)
  head ++ leBytes 4 (crc32 (head ++ words)) ++ words

/-- The VMF of a local ID writes host memory (R387). -/
def Dev.vmfWrite (d : Dev) (lv addr : Nat) (bs : List Byte) : Dev :=
  d.emit (.respond "host memory" (vmfMaster lv :: addr :: bs.map (·.toNat)))

/-- CATALOGUE_DUMP_COMPLETE: the dump is written into its ring, of the configuration it was taken under (R446 to R448). -/
def execCatalogueDumpComplete (tenant : Option (Fin 1024)) (s : State) : Host.Outcome State Fault Refusal :=
  onState s fun s =>
    let n := streamNo tenant
    let d := s.dev
    let c := d.cat n
    match c.writing with
    | none => s
    | some x =>
      if n != 0 && !(d.vmf (n - 1)).busMaster then { s with dev := (d.setCat n { c with writing := none }).skipCat n }
      else
        let image := d.dumpImage c.dseq x
        let same := c.since == x.since
        let next := if same then c.place (x.start + image.length) else c.wptr
        let d := (d.setCat n { c with writing := none, dseq := c.dseq + 1, wptr := next }).count (modCtr 1543 1) 1
        if n = 0 then
          let from_ := SMap.get 0 d.ringRecords 2
          let upto := from_ + (x.start + regionCatalogue.2 - c.wptr) % regionCatalogue.2 / 64 + image.length / 64
          let d := d.when same fun d => { d with ringRecords := SMap.set 0 d.ringRecords 2 upto }
          ({ s with dev := d } : State).store none (ddrBase + regionCatalogue.1 + x.start) image
        else { s with dev := (d.vmfWrite (n - 1) (x.addr + x.start) image).vmfFlag (n - 1) VMF_EVENT_FLAGS.CATALOGUE }

/-! ### Specimens -/

/-- A Specimen stream: 0 the module's, local ID + 1 a tenant's. -/
def Dev.spc (d : Dev) (n : Nat) : SpcStream := SMap.get {} d.spcs n

/-- A Specimen stream changes; TEL_SPC_WPTR and VMF_SPC_WPTR show where its next record goes. -/
def Dev.setSpc (d : Dev) (n : Nat) (c : SpcStream) : Dev :=
  let d := { d with spcs := SMap.set {} d.spcs n c }
  if n = 0 then d.put TEL_SPC_WPTR.OFFSET 0 c.wptr else d.put VMF_SPC_WPTR.VALUE (n - 1) c.wptr

/-- A filter that names nothing or lies in a field's width. -/
def filterOk (width v : Nat) : Bool := v == 0xFFFFFFFF || decide (v < 2 ^ width)

/-- The first parameter of SPECIMEN_CONFIG out of range, by its offset, or BAD_DEST (R451, R452, R454, R376). -/
def badSpecimen (tenant : Bool) (own : Nat) (on k mask port gvh ring addr : Nat) : Option (Nat × Nat) :=
  let bad (o : Nat) : Option (Nat × Nat) := some (Status.badParam, o)
  if 1 < on then bad 0
  else if on = 0 then none
  else if k ≠ 0 ∧ (k < 4 ∨ 24 < k) then bad 1
  else if 2 ^ 11 ≤ mask then bad 2
  else if !filterOk 22 port then bad 4
  else if !filterOk 23 gvh then bad 8
  else if ring ≠ 0 ∧ (ring % 64 ≠ 0 ∨ ring < 4096) then bad 12
  else if tenant then (if gvh ≠ own ∨ addr = 0 then some (Status.badDest, 0) else none)
  else if addr ≠ 0 then some (Status.badDest, 0)
  else none

/-- SPECIMEN_CONFIG (R451, R454). -/
def execSpecimenConfig (h : CmdHdr) (on k : Byte) (mask : Fin 65536) (port gvh ring : Word) (addr : Nat) (s : State) :
    Host.Outcome State Fault Refusal :=
  onDev s fun d =>
    let op := 0x0702
    d.moduleCommand h op [1, 2] true fun d =>
      let own := match tenantOf h with
        | some lv => d.gvh lv
        | none => 0
      match badSpecimen (tenantOf h).isSome own on.toNat k.toNat mask.val port.toNat gvh.toNat ring.toNat addr with
      | some (st, detail) => d.finish h op st detail
      | none =>
        let n := match tenantOf h with
          | some lv => lv + 1
          | none => 0
        let c : SpcStream :=
          if on = 0 then { sseq := (d.spc n).sseq }
          else { on := true, k := k.toNat, mask := mask.val, port := port.toNat, gvh := gvh.toNat,
                 ring := if ring = 0 then 2 ^ 32 else ring.toNat, addr := addr, sseq := (d.spc n).sseq }
        let d := d.setSpc n c
        let d := if n = 0 then { d with ringRecords := SMap.set 0 d.ringRecords 3 0 }
          else (d.put64 VMF_SPC_ADDR_LO.VALUE VMF_SPC_ADDR_HI.VALUE (n - 1) c.addr).put VMF_SPC_SIZE.VALUE (n - 1)
            (if on = 0 then 0 else ring.toNat)
        d.finish h op Status.ok

/-- A TLP matches a stream (R451). -/
def SpcStream.takes (c : SpcStream) (t : Sampled) : Bool :=
  c.on && bitOf c.mask t.kind && (c.port == 0xFFFFFFFF || c.port == t.src) && (c.gvh == 0xFFFFFFFF || c.gvh == t.gvh)

/-- A TLP at an edge is counted by a stream, and sampled at each multiple of 2^k (R452). -/
def Dev.sampleFor (d : Dev) (n : Nat) (t : Sampled) : Dev :=
  let c := d.spc n
  if c.takes t then
    let count := SMap.get 0 c.seen t.die + 1
    let d := { d with spcs := SMap.set {} d.spcs n { c with seen := SMap.set 0 c.seen t.die count } }
    if c.k = 0 ∨ count % 2 ^ c.k = 0 then { d with samples := d.samples ++ [⟨n, d.now, c.k == 0, t⟩] } else d
  else d

/-- SPECIMEN_SAMPLE (R451, R452). -/
def execSpecimenSample (tlp : Sampled) (s : State) : Host.Outcome State Fault Refusal :=
  onDev s fun d => d.forEach (d.spcs.map (·.1)) fun d n => d.sampleFor n tlp

/-- The 64 bytes of a Specimen record (R453). -/
def specimenBytes (now sseq : Nat) (x : Sample) (e : SampleEnd) : List Byte :=
  let t := x.tlp
  let flags := bitVal e.timedOut * 2 ^ 24 + bitVal (!e.timedOut && e.status != 0) * 2 ^ 25 + bitVal (t.poison || e.poison) * 2 ^ 26 +
    bitVal x.all * 2 ^ 27
  leBytes 8 x.arrived ++ leBytes 4 (min (sinceTicks x.arrived now / 16) 0xFFFFFFFF) ++ leBytes 4 sseq ++
    (t.hdr ++ List.replicate 16 0).take 16 ++ leBytes 8 t.addr ++ leBytes 8 t.xaddr ++ leBytes 4 (t.src % 2 ^ 22) ++
    leBytes 4 (t.dst % 2 ^ 22) ++ leBytes 4 (t.gvh % 2 ^ 23 + flags) ++ leBytes 2 (e.status % 8 + 16 * t.cls.code) ++ leBytes 2 0

/-- A record has been written to a stream's ring; a tenant's flag is set at each half ring (R454). -/
def Dev.wroteSpecimen (d : Dev) (n : Nat) : Dev :=
  let c := d.spc n
  let half := c.half + 64
  let full := decide (c.ring ≤ half * 2)
  let d := d.setSpc n { c with wptr := (c.wptr + 64) % c.ring, sseq := (c.sseq + 1) % 2 ^ 32, half := if full then 0 else half }
  let d := d.count (modCtr 1543 3) 1
  if n = 0 then { d with ringRecords := SMap.modify 0 d.ringRecords 3 (· + 1) }
  else (d.count (vitCtr (n - 1) 41) 1).when full (·.vmfFlag (n - 1) VMF_EVENT_FLAGS.SPECIMEN)

/-- SPECIMEN_RECORD_WRITE: the record is written, skipped or dropped (R387, R453, R454). -/
def execSpecimenRecordWrite (sample : Nat) (result : SampleEnd) (room : Bool) (s : State) : Host.Outcome State Fault Refusal :=
  onState s fun s =>
    let d := s.dev
    match d.samples[sample]? with
    | none => s
    | some x =>
      let n := x.stream
      let c := d.spc n
      let d := { d with samples := d.samples.eraseIdx sample }
      if !c.on then { s with dev := d }
      else if n ≠ 0 ∧ !(d.vmf (n - 1)).busMaster then { s with dev := d.count (vitCtr (n - 1) 40) 1 }
      else if !room then
        let d := (d.setSpc n { c with sseq := (c.sseq + 1) % 2 ^ 32 }).count (modCtr 1543 4) 1
        { s with dev := d.raise TEL_EVENTS.SPC_DROPPED 0 { gvh := d.streamGvh n } }
      else
        let bs := specimenBytes d.now c.sseq x result
        if n = 0 then
          (({ s with dev := d.wroteSpecimen n } : State).store none (ddrBase + regionSpecimen.1 + c.wptr) bs)
        else { s with dev := (d.vmfWrite (n - 1) (c.addr + c.wptr) bs).wroteSpecimen n }

end Sys2Proof.Machine
end

