-- ==== Sys2Proof/Machine/Vitrines.lean ====
section
/-! DEFINITION. Vitrines: creation, binding, destruction, resets and migration (R129, R197, R240 to R263, R376, R377). -/

namespace Sys2Proof.Machine

/-! ### Creation -/

/-- Resources asked for a Vitrine. -/
structure VitrineSetting where
  lvid : Nat
  nvdp : Nat
  cto : Nat
  silent : Bool
  slotPower : Bool
  minimum : Nat
  quota : Nat
  shapers : Nat
  channels : Nat
  deriving DecidableEq, Repr

/-- A local ID this module may use (R197). -/
def Dev.idAllowed (d : Dev) (lv : Nat) : Bool := !(d.moduleId == 8191 && (lv == 1022 || lv == 1023))

/-- A local ID is FREE. -/
def Dev.idFree (d : Dev) (lv : Nat) : Bool := !(d.vit lv).live

/-- The local ID a Vitrine takes, or the status and DETAIL that refuse it (R248, R197). -/
def Dev.chooseId (d : Dev) (lvid channels : Nat) : Nat ⊕ (Nat × Nat) :=
  if lvid = 0xFFFF then
    match (List.range 1024).find? fun l => d.idFree l && d.idAllowed l && decide (channels ≤ d.channelsOf l) with
    | some l => .inl l
    | none => .inr (if (List.range 1024).any fun l => d.idFree l && d.idAllowed l then (Status.channelsShort, 0)
        else (Status.poolExhausted, 1))
  else if !d.idAllowed lvid then .inr (Status.idReserved, 0)
  else if !d.idFree lvid then .inr (Status.badState, 0)
  else if d.channelsOf lvid < channels then .inr (Status.channelsShort, 0)
  else .inl lvid

/-- What no pool can supply, if one cannot: a status and DETAIL (R245). -/
def Dev.poolShort (d : Dev) (p : Nat) (x : VitrineSetting) (slotHeld : Bool) : Option (Nat × Nat) :=
  if reserveLimit < d.get BSN_RESERVED.TOTAL 0 + x.minimum / 4 * 4 then some (Status.reserveLimit, 0)
  else if !slotHeld && (d.freeSlot p).isNone then some (Status.poolExhausted, 3)
  else if d.get TRK_FREE.UNALLOCATED 0 < x.quota then some (Status.poolExhausted, 4)
  else if 16384 < (d.vits.flatMap fun e => e.2.shapers).length + x.shapers then some (Status.poolExhausted, 6)
  else none

/-- The resources of a Vitrine are divided and its records made (R245). -/
def Dev.divide (d : Dev) (lv gvh p st : Nat) (x : VitrineSetting) : Dev :=
  let v : Vit :=
    { live := true, ctoCode := x.cto, silent := x.silent, slotPower := x.slotPower, basinMin := x.minimum,
      channels := x.channels, shapers := d.freeShapers x.shapers, hdm := List.replicate 16 {} }
  let d := (d.setVit lv fun _ => v).put VIT_STATE.GVH lv gvh
  let d := ((d.put VIT_PORT.NVDP lv x.nvdp).put VIT_PORT.UPORT lv p).put TRK_VIT_QUOTA.QUOTA lv x.quota
  let d := d.put TRK_FREE.UNALLOCATED 0 (d.get TRK_FREE.UNALLOCATED 0 - x.quota)
  let d := ((d.takeSlot p gvh).getD d).addMinimum p gvh x.minimum
  let d := ((d.put VMF_ID.MODULE lv d.moduleId).put VMF_ID.LVID lv lv).put VMF_GVH.VALUE lv gvh
  d.setVitState lv st

/-- The first parameter of VITRINE_CREATE out of range, by its offset (R376, R245, R129). -/
def badVitrine (lvid nvdp cto flags minimum quota shapers : Nat) : Option Nat :=
  if 1024 ≤ lvid ∧ lvid ≠ 0xFFFF then some 4
  else if nvdp = 0 ∨ 64 < nvdp then some 6
  else if ctoTicks cto = none then some 7
  else if 3 < flags then some 8
  else if minimum ≠ 0xFFFFFFFF ∧ (65536 < minimum ∨ minimum % 4 ≠ 0) then some 12
  else if quota ≠ 0 ∧ (quota < 64 ∨ 65472 < quota ∨ quota % 64 ≠ 0) then some 16
  else if 64 < shapers then some 20
  else none

/-- The local ID that VITRINE_CREATE on a port takes, or the status and DETAIL with which it is refused (R245, R248, R249). -/
def Dev.createCheck (d : Dev) (p : Nat) (x : VitrineSetting) : Nat ⊕ (Nat × Nat) :=
  if !d.edgeUsable p then .inr (Status.noObject, 0)
  else if !d.hostFacing p then .inr (Status.badParam, 0)
  else if (d.vitrineOfPort p).isSome then .inr (Status.badState, 0)
  else
    match d.chooseId x.lvid x.channels with
    | .inr r => .inr r
    | .inl lv => match d.poolShort p x false with
      | some r => .inr r
      | none => .inl lv

/-- VITRINE_CREATE on this module (R245, R248, R249). -/
def Dev.createVitrine (d : Dev) (h : CmdHdr) (p : Nat) (x : VitrineSetting) : Dev :=
  let op := 0x0201
  match d.createCheck p x with
  | .inr (st, detail) =>
    (d.when (st == Status.reserveLimit) (·.raise BSN_EVENTS.RSV_REFUSED 0 (d.portEv p))).finish h op st detail
  | .inl lv =>
    let gvh := gvhOf d.moduleId lv
    let d := (d.divide lv gvh p 1 x).zeroBank lv gvh
    let d := { d with homes := d.homes.filter (fun (e : Nat × Nat) => e.1 != gvh) ++ [(gvh, d.moduleId)] }
    let d := d.when (d.is PRT_PORT_STATUS.DL_ACTIVE p) (·.present lv)
    d.finish h op Status.ok 0 [(24, 4, gvh)] gvh

/-- VITRINE_CREATE (R245). -/
def execVitrineCreate (h : CmdHdr) (fpid : Word) (lvid : Fin 65536) (nvdp cto : Byte) (flags minimum quota : Word)
    (shapers channels : Byte) (s : State) : Host.Outcome State Fault Refusal :=
  onDev s fun d =>
    let f := fpidField fpid.toNat
    d.command h 0x0201 [1] false (fpidModule f) fun d =>
      match badVitrine lvid nvdp.toNat cto.toNat flags.toNat minimum.toNat quota.toNat shapers.toNat with
      | some o => d.badParam h 0x0201 o
      | none =>
        d.createVitrine h (fpidPort f)
          { lvid := lvid, nvdp := nvdp.toNat, cto := cto.toNat, silent := bitOf flags.toNat 0, slotPower := bitOf flags.toNat 1,
            minimum := if minimum.toNat = 0xFFFFFFFF then 512 else minimum.toNat,
            quota := if quota.toNat = 0 then 2048 else quota.toNat, shapers := shapers.toNat, channels := channels.toNat }

/-- VITRINE_SET: for requests issued from now on (R129, R249). -/
def execVitrineSet (h : CmdHdr) (gvh : Word) (cto flags : Byte) (s : State) : Host.Outcome State Fault Refusal :=
  onDev s fun d =>
    let g := gvhField gvh.toNat
    d.vitrineCommand h 0x0205 g [1] false fun d lv =>
      let st := d.get VIT_STATE.STATE lv
      if ctoTicks cto.toNat = none then d.badParam h 0x0205 4
      else if 1 < flags.toNat then d.badParam h 0x0205 5
      else if st = 0 ∨ 3 < st then d.finish h 0x0205 Status.badState 0 [] g
      else
        (d.setVit lv fun v => { v with ctoCode := cto.toNat, silent := bitOf flags.toNat 0 }).finish h 0x0205 Status.ok 0 [] g

/-! ### Binding -/

/-- A status of a window pair between an upstream port and an endpoint's port, and the module with both (R183, R250). -/
def Dev.windowPair (d : Dev) (up ep gvh : Nat) (cls : Cls) : Nat × Dev :=
  match d.makeWindow up ep gvh cls with
  | (st, d1) => if st = Status.ok then d1.makeWindow ep up gvh cls else (st, d1)

/-- What BIND_ENDPOINT finds about the endpoint before its steps (R26, R250): a status that refuses it, or OK. -/
def Dev.bindCheck (d : Dev) (p ep : Nat) : Nat :=
  let x := d.endpoint p ep
  if x.bound.isSome then Status.endpointBound
  else if x.accession ≠ .passed then Status.notAccessed
  else if x.resetPending ∨ x.awaitDrs then Status.badState
  else Status.ok

/-- The steps of a bind (R250): a status and DETAIL with nothing done, or the module after them. -/
def Dev.bindSteps (d : Dev) (lv : Nat) (b : Binding) (spl : Nat × Nat) (bars : List (Nat × Nat)) : (Nat × Nat) ⊕ Dev :=
  let gvh := d.gvh lv
  let up := d.upFpid lv
  let here := fpidModule b.fpid == d.moduleId
  let p := fpidPort b.fpid
  match if here then d.takeSlot p gvh else some d with
  | none => .inl (Status.poolExhausted, 3)
  | some d =>
    let need := d.shareNeed b.fpid b.share
    if d.get TRK_FREE.UNALLOCATED 0 < need then .inl (Status.poolExhausted, 5)
    else
      match (d.reserve need).windowPair up b.fpid gvh b.cls with
      | (st, d) =>
        if st ≠ Status.ok then .inl (st, 0)
        else if 65536 < d.atts.length + bars.length ∨ 1024 < ((d.vit lv).bindings.map fun b => b.atts.length).sum + bars.length then
          .inl (Status.poolExhausted, 7)
        else
          match d.takeAtts lv b.fpid bars with
          | (ns, d) =>
            let b := { b with atts := ns }
            let d := d.setVit lv fun v => { v with bindings := v.bindings ++ [b] }
            let v := d.vport lv b.k
            let d := if here then
                d.setEndpoint p b.ep fun e =>
                  { e with bound := some { gvh := gvh, k := b.k, up := up, share := b.share, cls := b.cls,
                                           cto := (d.vit lv).ctoCode, silent := (d.vit lv).silent,
                                           hostLtr := (d.vit lv).hostLtr, ecrc := d.ecrcOn lv (2 + b.k), bus := v.secondaryBus } }
              else d.tell (fpidModule b.fpid) (.bind gvh b.fpid b.share)
            let spl := if here then d.splShown p else spl
            let d := d.setVport lv b.k fun v => { v with splValue := spl.1, splScale := spl.2 }
            .inr (d.when b.presented (·.slotPresent lv b.k))

/-- The first parameter of BIND_ENDPOINT out of range, by its offset (R250, R365). -/
def badBind (p ld cls share : Nat) : Option Nat :=
  if p ≠ 447 ∧ 15 < ld ∧ ld ≠ 0xFF then some 8
  else if 3 < cls then some 10
  else if share ≠ 0 ∧ (share < 32 ∨ 16384 < share) then some 12
  else none

/-- The binding that BIND_ENDPOINT makes, or the status with which it is refused (R250). -/
def Dev.bindingFor (d : Dev) (lv fpid ld k cls share : Nat) (far : RemoteEp) : Binding ⊕ Nat :=
  let p := fpidPort fpid
  let here := fpidModule fpid == d.moduleId
  let st := d.get VIT_STATE.STATE lv
  if st ≠ 1 ∧ st ≠ 2 then .inr Status.badState
  else if d.get VIT_PORT.NVDP lv ≤ k ∨ ((d.vit lv).binding k).isSome then .inr Status.portOccupied
  else
    match if here then if d.edgesOut.contains p then none else d.findEndpoint p ld else some (if ld = 0xFF then 0 else ld) with
    | none => .inr Status.noObject
    | some e =>
      let check := if here then d.bindCheck p e else far.status
      if check ≠ Status.ok then .inr check
      else
        .inl
          { k := k, fpid := fpid, ep := e, ldId := if here then (d.endpoint p e).ldId else if ld = 0xFF then none else some ld,
            share := if share = 0 then 256 else share, identity := if here then (d.endpoint p e).identity else far.identity,
            cls := .ofCode cls, place := far.place, presented := !(here && d.contained 0 (d.contPort p e)) }

/-- The BARs of the endpoint that a binding takes. -/
def Dev.barsOf (d : Dev) (b : Binding) (far : RemoteEp) : List (Nat × Nat) :=
  if fpidModule b.fpid == d.moduleId then (d.endpoint (fpidPort b.fpid) b.ep).bars else far.bars

/-- BIND_ENDPOINT on the upstream module (R250); `far` is what an endpoint's other module answers. -/
def Dev.bindEndpoint (d : Dev) (h : CmdHdr) (lv fpid ld k cls share : Nat) (far : RemoteEp) : Dev :=
  let op := 0x0203
  match badBind (fpidPort fpid) ld cls share with
  | some o => d.badParam h op o
  | none =>
    match d.bindingFor lv fpid ld k cls share far with
    | .inr st => d.finish h op st 0 [] (d.gvh lv)
    | .inl b =>
      match d.bindSteps lv b far.spl (d.barsOf b far) with
      | .inl (st, detail) => d.finish h op st detail [] (d.gvh lv)
      | .inr x => x.finish h op Status.ok 0 [] (d.gvh lv)

/-- BIND_ENDPOINT (R250). -/
def execBindEndpoint (h : CmdHdr) (gvh fpid : Word) (ld k cls : Byte) (share : Fin 65536) (far : RemoteEp) (s : State) :
    Host.Outcome State Fault Refusal :=
  onDev s fun d =>
    d.vitrineCommand h 0x0203 (gvhField gvh.toNat) [1] false fun d lv =>
      d.bindEndpoint h lv (fpidField fpid.toNat) ld.toNat k.toNat cls.toNat share far

/-- UNBIND_ENDPOINT (R251). -/
def execUnbindEndpoint (h : CmdHdr) (gvh : Word) (k : Byte) (s : State) : Host.Outcome State Fault Refusal :=
  onDev s fun d =>
    let g := gvhField gvh.toNat
    d.vitrineCommand h 0x0204 g [1] false fun d lv =>
      let st := d.get VIT_STATE.STATE lv
      if st ≠ 1 ∧ st ≠ 2 then d.finish h 0x0204 Status.badState 0 [] g
      else match (d.vit lv).binding k.toNat with
        | none => d.finish h 0x0204 Status.noObject 0 [] g
        | some b => (d.waitFor h 0x0204 (.unbind lv b.k) g).startUnbind lv b

/-! ### Resets and destruction -/

/-- VITRINE_HOT_RESET: a hot reset trigger (R249, R254). -/
def execVitrineHotReset (lvid : Fin 1024) (s : State) : Host.Outcome State Fault Refusal :=
  onDev s fun d => d.hotReset lvid

/-- The end of a destroy (R255): every binding ends, and the resources return. -/
def Dev.finishDestroy (d : Dev) (lv : Nat) : Dev :=
  let d := d.forEach (d.vit lv).bindings fun d b => d.finishUnbind lv b
  (d.releaseVitrine lv).endWaiting (.destroy lv) Status.ok

/-- A destroy begins (R255): steps 2 to 4 of R254, every unbind, and the end at once when nothing is in flight. -/
def Dev.startDestroy (d : Dev) (lv : Nat) : Dev :=
  let d := (d.setVitState lv 8).setVit lv fun v => { v with since := d.now, tcut1 := none, tcut2 := none, holding := false }
  let d := (d.endWaiting (.freeze lv) Status.cancelled).endWaiting (.thaw lv) Status.cancelled
  let d := d.squashAndDrain lv
  let d := d.dropHeld (fun h => h.frame.gvh == d.gvh lv) true
  let d := d.forEach (d.vit lv).bindings fun d b => d.startUnbind lv b
  if d.inflight lv = 0 then d.finishDestroy lv else d

/-- VITRINE_DESTROY (R249, R255, R371). -/
def execVitrineDestroy (h : CmdHdr) (gvh : Word) (s : State) : Host.Outcome State Fault Refusal :=
  onDev s fun d =>
    let g := gvhField gvh.toNat
    d.vitrineCommand h 0x0202 g [1] false (fun d lv =>
      let st := d.get VIT_STATE.STATE lv
      if st = 8 then d.finish h 0x0202 Status.badState 0 [] g
      else if st = 7 then ((d.endWaiting (.thaw lv) Status.cancelled).releaseVitrine lv).finish h 0x0202 Status.ok 0 [] g
      else (d.waitFor h 0x0202 (.destroy lv) g).startDestroy lv) Wait.holdsDestroy

/-- A freeze that has nothing left in flight: queues FROZEN once empty, FREEZE completes (R249, R258). -/
def Dev.finishFreeze (d : Dev) (lv : Nat) : Dev :=
  let empty := (d.queuesOf (d.gvh lv) fun _ => true).filter fun q => (d.queue q).frames.isEmpty
  let d := d.forEach empty fun d q => d.setQueueState q 2
  (d.setVitState lv 5).endWaiting (.freeze lv) Status.ok

/-- A Vitrine's flow ends, by its state (R249). -/
def Dev.endFlow (d : Dev) (lv : Nat) : Dev :=
  let st := d.get VIT_STATE.STATE lv
  if st = 3 then d.finishReset lv
  else if st = 8 then d.finishDestroy lv
  else d

/-- INFLIGHT_COUNT_ZERO of a Vitrine, or of one of its bindings being unbound (R249, R251). -/
def execInflightCountZero (lvid : Fin 1024) (k : Option (Fin 64)) (s : State) : Host.Outcome State Fault Refusal :=
  onDev s fun d =>
    let lv := lvid.val
    match k with
    | none =>
      if d.inflight lv ≠ 0 then d
      else if d.get VIT_STATE.STATE lv = 4 then d.finishFreeze lv
      else d.endFlow lv
    | some k => match (d.vit lv).binding k with
      | some b => if b.unbinding ∧ d.bindingInflight lv b = 0 then d.finishUnbind lv b else d
      | none => d

/-- INFLIGHT_REPORT: another module's share of the count (R252). -/
def execInflightReport (modul : Fin 8192) (gvh : Fin 8388608) (count : Nat) (s : State) : Host.Outcome State Fault Refusal :=
  onDev s fun d =>
    match d.lvidOf gvh with
    | some lv => d.setVit lv fun v => { v with remote := SMap.set 0 v.remote modul count }
    | none => d

/-- SQUASH_TIMEOUT: the flow ends with what remains squashed (R251, R254, R255, R256). -/
def execSquashTimeout (lvid : Fin 1024) (k : Option (Fin 64)) (s : State) : Host.Outcome State Fault Refusal :=
  onDev s fun d =>
    let lv := lvid.val
    let timeout (d : Dev) : Dev := d.raise VIT_EVENTS.SQUASH_TIMEOUT lv { port := d.upFpid lv, gvh := d.gvh lv }
    match k with
    | none => if d.get VIT_STATE.STATE lv = 3 ∨ d.get VIT_STATE.STATE lv = 8 then (timeout d).endFlow lv else d
    | some k => match (d.vit lv).binding k with
      | some b => if b.unbinding then (timeout d).finishUnbind lv b else d
      | none => d

/-! ### Freeze -/

/-- FREEZE: TCUT1 at least 10 ms ahead (R258, R377). -/
def execFreeze (h : CmdHdr) (gvh : Word) (tcut : Nat) (s : State) : Host.Outcome State Fault Refusal :=
  onDev s fun d =>
    let g := gvhField gvh.toNat
    d.vitrineCommand h 0x0301 g [1] false fun d lv =>
      if d.get VIT_STATE.STATE lv ≠ 2 then d.finish h 0x0301 Status.badState 0 [] g
      else if tcut < d.now + msTicks 10 then d.finish h 0x0301 Status.cutTooSoon 0 [] g
      else
        let d := d.setVit lv fun v => { v with tcut1 := some tcut }
        (d.forEach (d.otherModules lv) fun d m => d.tell m (.freeze g tcut)).waitFor h 0x0301 (.freeze lv) g

/-- TCUT1 has come (R258). -/
def Dev.freezeCut (d : Dev) (lv : Nat) : Dev :=
  if (d.vit lv).tcut1.isNone then d
  else if d.get VIT_STATE.STATE lv ≠ 2 then
    (d.setVit lv fun v => { v with tcut1 := none }).endWaiting (.freeze lv) Status.badState
  else
    let d := (d.setVitState lv 4).setVit lv fun v => { v with holding := true, since := d.now }
    let d := d.forEach (d.vit lv).bindings fun d b => d.setBound b fun x => { x with holding := true }
    if d.inflight lv = 0 then d.finishFreeze lv else d

/-- FREEZE_CUT_POINT: traffic is held from TCUT1 (R258). -/
def execFreezeCutPoint (lvid : Fin 1024) (s : State) : Host.Outcome State Fault Refusal :=
  onDev s fun d => d.freezeCut lvid

/-- A held reset, and a held containment, are applied at a thaw here (R28, R121, R271). -/
def Dev.applyHeld (d : Dev) (lv : Nat) : Dev :=
  let held := d.is VIT_STATE.HELD_RESET lv
  let d := (d.put VIT_STATE.HELD_RESET lv 0).when held (·.hotReset lv)
  match (d.vit lv).heldError with
  | some cls => (d.setVit lv fun v => { v with heldError := none }).contain 1 lv (if cls = 5 then 2 else 1) cls false
  | none => d

/-- FREEZE_TIMEOUT: the freeze is abandoned (R249, R258). -/
def execFreezeTimeout (lvid : Fin 1024) (s : State) : Host.Outcome State Fault Refusal :=
  onDev s fun d =>
    let lv := lvid.val
    if d.get VIT_STATE.STATE lv ≠ 4 then d
    else
      let d := d.raise VIT_EVENTS.FREEZE_TIMEOUT lv { port := d.upFpid lv, gvh := d.gvh lv }
      let d := d.forEach (d.otherModules lv) fun d m => d.tell m (.report "freeze abandoned" [d.gvh lv])
      (d.abandonFreeze lv Status.freezeTimeout).applyHeld lv

/-! ### Save and restore -/

/-- Registers of an instance that do not hold their reset value, by place in the register file. -/
def Dev.saveRegs (d : Dev) (rs : List Reg) (i : Nat) : List (Nat × Nat) :=
  (d.regs.filter fun e => e.1 / 8192 == i && rs.any fun (r : Reg) => e.1 % 8192 / 32 == r.ctorIdx).map fun e => (e.1 % 8192, e.2)

/-- The save image of a Vitrine (R260). -/
def Dev.imageOf (d : Dev) (lv : Nat) : Image :=
  let v := d.vit lv
  let m := d.vmf lv
  let qs := (d.queuesOf (d.gvh lv) (· == d.get VIT_PORT.UPORT lv))
  { valid := true
    gvh := d.gvh lv
    srcModule := d.moduleId
    srcLvid := lv
    tcut1 := v.tcut1.getD 0
    savedAt := d.now
    nvdp := d.get VIT_PORT.NVDP lv
    cto := v.ctoCode
    silent := v.silent
    slotPower := v.slotPower
    minimum := v.basinMin
    quota := d.get TRK_VIT_QUOTA.QUOTA lv
    channels := v.channels
    bindings := v.bindings.map fun (b : Binding) =>
      ({ k := b.k, fpid := b.fpid, ep := b.ep, ldId := b.ldId, share := b.share, identity := b.identity, cls := b.cls,
         place := d.placeAt b, atts := b.atts.map (SMap.get {} d.atts) } : SavedBinding)
    intx := v.intx
    bus := v.bus
    hostLtr := v.hostLtr
    aspmL1 := v.aspmL1
    hdm := v.hdm
    vports := (List.range (d.get VIT_PORT.NVDP lv)).map fun k => (k, d.vport lv k)
    cfg := (d.cfg.filter fun e => e.1 / 131072 == lv).map fun e => (e.1 % 131072, e.2)
    vmf := d.saveRegs savedVmfRegs lv
    vmfEnables := (m.busMaster, m.memEnable, m.intDisable)
    shapers := v.shapers.map fun n => (d.get WR_SHP_RATE.RATE_MBPS n, d.get WR_SHP_BURST.BURST n, d.is WR_SHP_RATE.RESET_FULL n)
    queues := qs.map fun q =>
      (if d.is WR_Q_CFG.SHAPED q then v.shapers.findIdx? (· == d.get WR_Q_CFG.SHAPER q) else none, d.get WR_Q_CFG.QUANTUM q)
    counters := (d.ctrs.filter fun e => decide (vitCtr lv 0 ≤ e.1) && decide (e.1 < vitCtr lv 64)).map fun e =>
      (e.1 - vitCtr lv 0, e.2.value, e.2.wrap, e.2.sat) }

/-- SAVE: the image goes to the Vitrine's slot and to the composition store (R260). -/
def execSave (h : CmdHdr) (gvh : Word) (s : State) : Host.Outcome State Fault Refusal :=
  onDev s fun d =>
    let g := gvhField gvh.toNat
    d.vitrineCommand h 0x0302 g [1] false fun d lv =>
      if d.get VIT_STATE.STATE lv ≠ 5 then d.finish h 0x0302 Status.badState 0 [] g
      else
        let d := { d with saves := SMap.set {} d.saves lv (d.imageOf lv) }
        let d := (d.setVit lv fun v => { v with savedAt := d.now }).tellRegistrar (.image g)
        (d.setVitState lv 6).finish h 0x0302 Status.ok 0 [(4, 4, 0x4E200)] g

/-- The binding of a save image is rebuilt on the new upstream port (R261): a status and DETAIL, or the module. -/
def Dev.restoreBinding (d : Dev) (lv : Nat) (b : SavedBinding) : (Nat × Nat) ⊕ Dev :=
  let need := d.shareNeed b.fpid b.share
  if d.get TRK_FREE.UNALLOCATED 0 < need then .inl (Status.poolExhausted, 5)
  else
    match (d.reserve need).windowPair (d.upFpid lv) b.fpid (d.gvh lv) b.cls with
    | (st, d) =>
      if st ≠ Status.ok then .inl (st, 0)
      else if 65536 < d.atts.length + b.atts.length then .inl (Status.poolExhausted, 7)
      else
        match d.takeAtts lv b.fpid (b.atts.map fun a => (a.sizeLog2, a.ep)) with
        | (ns, d) =>
          let d := d.forEach (ns.zip b.atts) fun d a => d.setAtt a.1 { a.2 with lvid := lv }
          let fresh : Binding :=
            { k := b.k, fpid := b.fpid, ep := b.ep, ldId := b.ldId, share := b.share, identity := b.identity, cls := b.cls,
              place := b.place, atts := ns, barx := (List.range ns.length).map fun i => (i, { lo := some 0, hi := some 0 }) }
          .inr (d.setVit lv fun v => { v with bindings := v.bindings ++ [fresh] })

/-- The bindings of a save image are rebuilt in turn. -/
def Dev.restoreBindings (d : Dev) (lv : Nat) (bs : List SavedBinding) : (Nat × Nat) ⊕ Dev :=
  match bs with
  | [] => .inr d
  | b :: r => match d.restoreBinding lv b with
    | .inl e => .inl e
    | .inr d => d.restoreBindings lv r

/-- A saved field of a VMF's registers is loaded; what names no register that R398 carries is ignored (R261, R398). -/
def Dev.loadReg (d : Dev) (lv : Nat) (r : Nat × Nat) : Dev :=
  if r.1 < 8192 ∧ savedVmfRegs.any (fun (q : Reg) => r.1 / 32 == q.ctorIdx) = true then
    { d with regs := SMap.insert (SMap.erase d.regs (r.1 + 8192 * lv)) (r.1 + 8192 * lv) r.2 }
  else d

/-- Configuration state, shapers and counters of a save image are loaded (R261, R440). -/
def Dev.loadImage (d : Dev) (lv : Nat) (x : Image) : Dev :=
  let d := d.setVit lv fun v =>
    { v with intx := x.intx, bus := x.bus, hostLtr := x.hostLtr, aspmL1 := x.aspmL1, hdm := x.hdm, source := x.srcModule,
             savedAt := x.savedAt }
  let d := d.forEach (x.vports.filter fun p => decide (p.1 < 64)) fun d p => d.setVport lv p.1 fun _ => p.2
  let d := d.forEach (x.cfg.filter fun c => decide (c.1 < 131072)) fun d c => { d with cfg := SMap.set 0 d.cfg (lv * 131072 + c.1) c.2 }
  let d := d.forEach x.vmf fun d r => d.loadReg lv r
  let d := d.setVmf lv fun m => { m with busMaster := x.vmfEnables.1, memEnable := x.vmfEnables.2.1, intDisable := x.vmfEnables.2.2 }
  let shapers := (d.vit lv).shapers
  let d := d.forEach (shapers.zip x.shapers) fun d s => (d.put WR_SHP_BURST.BURST s.1 s.2.2.1).commitShaper s.1 s.2.1 s.2.2.2
  let d := d.forEach ((d.queuesOf (d.gvh lv) (· == d.get VIT_PORT.UPORT lv)).zip x.queues) fun d q =>
    let d := d.put WR_Q_CFG.QUANTUM q.1 q.2.2
    match q.2.1.bind fun i => shapers[i]? with
    | some n => (d.put WR_Q_CFG.SHAPED q.1 1).put WR_Q_CFG.SHAPER q.1 n
    | none => d
  let d := d.forEach (x.counters.filter fun c => decide (c.1 < 64)) fun d c =>
    { d with ctrs := SMap.set {} d.ctrs (vitCtr lv c.1) { value := c.2.1, wrap := c.2.2.1, sat := c.2.2.2 } }
  d.record 0x0880 { gvh := x.gvh, object := lv, detail := leBytes 4 (vitCtr lv 0) }

/-- RESTORE on the target module (R261). -/
def Dev.restoreVitrine (d : Dev) (h : CmdHdr) (g p lvid : Nat) (image : Option Image) : Dev :=
  let op := 0x0303
  let refuse (d : Dev) (st detail : Nat) : Dev := d.finish h op st detail [] g
  if 1024 ≤ lvid ∧ lvid ≠ 0xFFFF then d.badParam h op 8
  else if !d.edgeUsable p then refuse d Status.noObject 0
  else if !d.hostFacing p then d.badParam h op 4
  else if (d.vitrineOfPort p).isSome then refuse d Status.badState 0
  else
    match image with
    | none => refuse d Status.noObject 0
    | some x =>
      match d.chooseId lvid x.channels with
      | .inr (st, detail) => refuse d st detail
      | .inl lv =>
        if !x.valid || x.gvh != g then
          refuse (d.raise VIT_EVENTS.IMAGE_BAD lv { port := d.fpid p, gvh := g }) Status.imageBad 0
        else
          let y : VitrineSetting :=
            { lvid := lv, nvdp := x.nvdp, cto := x.cto, silent := x.silent, slotPower := x.slotPower, minimum := x.minimum,
              quota := x.quota, shapers := x.shapers.length, channels := x.channels }
          match d.poolShort p y (d.slots.any fun s => s.1 == p && s.2.1 == g) with
          | some (st, detail) =>
            refuse (d.when (st == Status.reserveLimit) (·.raise BSN_EVENTS.RSV_REFUSED 0 (d.portEv p))) st detail
          | none =>
            match (d.divide lv g p 7 y).restoreBindings lv x.bindings with
            | .inl (st, detail) => refuse d st detail
            | .inr d => (d.loadImage lv x).finish h op Status.ok 0 [(12, 2, lv)] g

/-- RESTORE (R261): `image` is what the source module, or else the composition store, gives; a Vitrine saved on this module is read from
its slot. -/
def execRestore (h : CmdHdr) (gvh fpid : Word) (lvid source : Fin 65536) (image : Option Image) (s : State) :
    Host.Outcome State Fault Refusal :=
  onDev s fun d =>
    let g := gvhField gvh.toNat
    let f := fpidField fpid.toNat
    d.command h 0x0303 [1] false (fpidModule f) fun d =>
      let own := ((d.saves.filter fun e => e.2.gvh == g && d.gvh e.1 == g).map (·.2)).head?
      d.restoreVitrine h g (fpidPort f) lvid (if source.val = d.moduleId ∧ own.isSome then own else image)

/-! ### Thaw -/

/-- The copy of a handle on this module that a THAW names: a RESTORED one, else one FROZEN or SAVED (log entry 19). -/
def Dev.thawCopy (d : Dev) (gvh : Nat) : Option Nat :=
  let mine := d.vits.filter fun e => e.2.live && d.get VIT_STATE.GVH e.1 == gvh
  match mine.find? fun e => d.get VIT_STATE.STATE e.1 == 7 with
  | some e => some e.1
  | none => mine.head?.map (·.1)

/-- THAW: TCUT2 at least 10 ms ahead; on the target each edge receives its pending change (R262, R377). -/
def execThaw (h : CmdHdr) (gvh : Word) (modul : Fin 65536) (tcut : Nat) (s : State) : Host.Outcome State Fault Refusal :=
  onDev s fun d =>
    let g := gvhField gvh.toNat
    if 8192 ≤ modul.val then d.badParam h 0x0304 4
    else
      d.command h 0x0304 [1] false modul fun d =>
        match d.thawCopy g with
        | none => d.finish h 0x0304 Status.noObject 0 [] g
        | some lv => d.orWait h 0x0304 (Wait.holdsVitrine lv) g fun d =>
          let st := d.get VIT_STATE.STATE lv
          if st ≠ 5 ∧ st ≠ 6 ∧ st ≠ 7 then d.finish h 0x0304 Status.badState 0 [] g
          else if tcut < d.now + msTicks 10 then d.finish h 0x0304 Status.cutTooSoon 0 [] g
          else
            let others := if st = 7 then d.otherModules lv else []
            let d := d.setVit lv fun v => { v with tcut2 := some tcut, unacked := others }
            let d := d.when (st == 7) fun d =>
              let d := d.forEach (d.vit lv).bindings fun d b => d.setBound b fun x => { x with next := some (d.upFpid lv, tcut) }
              d.forEach others fun d m => d.tell m (.upstream g (d.upFpid lv) tcut)
            d.waitFor h 0x0304 (.thaw lv) g

/-- A Vitrine that thaws here again is PRESENTED; its held TLPs go (R249). -/
def Dev.thawHere (d : Dev) (lv : Nat) : Dev :=
  let d := (d.setVitState lv 2).setVit lv fun v => { v with holding := false, tcut1 := none, tcut2 := none }
  let d := d.forEach (d.vit lv).bindings fun d b => d.setBound b fun x => { x with holding := false, next := none }
  let d := d.forEach (d.otherModules lv) fun d m => d.tell m (.report "thaw" [d.gvh lv])
  let d := d.forEach (d.queuesOf (d.gvh lv) fun _ => true) fun d q => d.when (d.get BSN_Q_STATUS.STATE q == 2) (·.setQueueState q 0)
  ((d.endWaiting (.thaw lv) Status.ok).retryHeld).applyHeld lv

/-- A held frame from an endpoint goes to the new upstream port (R262). -/
def redirect (gvh old new : Nat) (h : HeldTlp) : HeldTlp :=
  if h.frame.gvh = gvh ∧ h.frame.dst = old then
    { h with frame := { h.frame with dst := new }, need := h.need.map fun e => { e with dst := new } }
  else h

/-- At TCUT2 the edges here switch, and the Vitrine is presented on its new port (R262). -/
def Dev.switchUpstream (d : Dev) (lv : Nat) (sourceHeld : Bool) : Dev :=
  let g := d.gvh lv
  let new := d.upFpid lv
  let old := (d.vits.filter fun e => e.1 != lv && e.2.live && d.gvh e.1 == g).map (·.1)
  let olds := ((d.endpoints.filterMap fun e => e.2.bound).filter fun b => b.gvh == g).map (·.up)
  let d := d.forEach (d.vit lv).bindings fun d b => d.setBound b fun x => { x with up := new, holding := false, next := none }
  let d := { d with heldTlps := d.heldTlps.map fun h => olds.foldl (fun h o => redirect g o new h) h }
  let d := d.setVit lv fun v => { v with tcut2 := none }
  let held := (sourceHeld && (d.vit lv).source != d.moduleId) || old.any fun l => d.is VIT_STATE.HELD_RESET l
  let d := { d with homes := d.homes.filter (fun (e : Nat × Nat) => e.1 != g) ++ [(g, d.moduleId)] }
  let d := d.forEach (d.queuesOf g fun p => p != fpidPort new) fun d q => d.when (d.get BSN_Q_STATUS.STATE q == 2) (·.setQueueState q 0)
  let d := d.present lv
  let d := d.when ((d.vit lv).source != d.moduleId) fun d => d.tell (d.vit lv).source (.release g)
  ((d.endWaiting (.thaw lv) Status.ok).retryHeld).when held (·.hotReset lv)

/-- The pending change is withdrawn everywhere (R262). -/
def Dev.withdrawThaw (d : Dev) (lv : Nat) : Dev :=
  let d := d.forEach (d.vit lv).bindings fun d b => d.setBound b fun x => { x with next := none }
  let d := d.forEach (d.otherModules lv) fun d m => d.tell m (.report "thaw withdrawn" [d.gvh lv])
  let d := d.setVit lv fun v => { v with tcut2 := none, unacked := [] }
  (d.raise VIT_EVENTS.THAW_ABORTED lv { port := d.upFpid lv, gvh := d.gvh lv }).endWaiting (.thaw lv) Status.thawAborted

/-- TCUT2 has come (R262). -/
def Dev.thawCut (d : Dev) (lv : Nat) (sourceHeld : Bool) : Dev :=
  let st := d.get VIT_STATE.STATE lv
  if (d.vit lv).tcut2.isNone then d
  else if st = 5 ∨ st = 6 then d.thawHere lv
  else if st ≠ 7 then d
  else if (d.vit lv).unacked = [] then d.switchUpstream lv sourceHeld
  else d.withdrawThaw lv

/-- THAW_CUT_POINT (R249, R262). -/
def execThawCutPoint (cut : ThawCut) (s : State) : Host.Outcome State Fault Refusal :=
  onDev s fun d => d.thawCut cut.lvid cut.sourceHeld

/-- THAW_COMPLETE_RELEASE: the source releases the Vitrine's resources and the held host TLPs; its endpoints stay bound (R263). -/
def execThawCompleteRelease (lvid : Fin 1024) (target : Fin 8192) (s : State) : Host.Outcome State Fault Refusal :=
  onDev s fun d =>
    let lv := lvid.val
    if d.get VIT_STATE.STATE lv ≠ 6 then d
    else
      let g := d.gvh lv
      let up := d.upFpid lv
      let owed := d.owesDetect
      let stray := d.heldTlps.any fun h => h.frame.src == up && h.frame.gvh == g
      let d := (d.dropHeld (fun h => h.frame.src == up && h.frame.gvh == g) true).when stray (·.stray g)
      let d := d.forEach (d.vit lv).bindings fun d b =>
        let d := (d.forEach b.atts fun d n => d.setAtt n {}).unreserve (d.shareNeed b.fpid b.share)
        (d.closeWindow up b.fpid).closeWindow b.fpid up
      let d := d.setVit lv fun v => { v with bindings := [] }
      let d := d.releaseVitrine lv
      { d with owesDetect := owed, homes := d.homes.filter (fun (e : Nat × Nat) => e.1 != g) ++ [(g, target.val)] }

end Sys2Proof.Machine
end

