-- ==== Sys2Proof/Machine/Time.lean ====
section
/-! DEFINITION. Fabric time: the time root, exchanges, slews and forward steps, external sources, hardware-timed actions (R421 to R434,
R525), and what an idle tick does. -/

namespace Sys2Proof.Machine

/-! ### Time state -/

/-- An event bit of the time base, with a step or offset in ticks in DETAIL (R434). -/
def Dev.timeEvent (d : Dev) (f : Fld) (ticks : Int) : Dev := d.raise f 0 { detail := leBytes 8 (ofSigned 64 ticks) }

/-- The time state becomes 0 free-running, 1 locked or 2 holdover (R428). -/
def Dev.setTimeState (d : Dev) (st : Nat) (ticks : Int := 0) : Dev :=
  if d.get TIM_STATE.STATE 0 = st then d
  else
    let d := d.put TIM_STATE.STATE 0 st
    if st = 1 then d.timeEvent TIM_EVENTS.LOCKED ticks
    else if st = 2 then (d.count (modCtr 1541 3) 1).timeEvent TIM_EVENTS.HOLDOVER ticks
    else d

/-! ### The time root -/

/-- A rank as one number: class, priority, module ID (R424). -/
def rankOf (cls prio modul : Nat) : Nat := cls * 2 ^ 21 + prio * 2 ^ 13 + modul

/-- The module's own class and priority (R424). -/
def Dev.ownClass (d : Dev) : Nat × Nat :=
  if d.get TIM_SRC_CFG.SOURCE 0 = 0 then (if d.registrar = some d.moduleId then 2 else 3, 255)
  else (if d.time.srcLocked then 0 else if d.time.srcHeld then 1 else 3, d.get TIM_SRC_CFG.PRIO 0)

/-- The place of an announcement in the choice of a parent: rank, hops, port (R424). -/
def Announce.order (p : Nat) (a : Announce) : Nat := (rankOf a.cls a.prio a.modul * 8 + a.hops) * 512 + p

/-- The best announcement among links in service, with its port. -/
def bestOf (as : List (Nat × Announce)) : Option (Nat × Announce) :=
  match as with
  | [] => none
  | x :: r =>
    match bestOf r with
    | none => some x
    | some y => if y.2.order y.1 < x.2.order x.1 then some y else some x

/-- TIM_ROOT shows a root; another module than before is a change of root (R424). -/
def Dev.showRoot (d : Dev) (cls prio modul : Nat) : Dev :=
  let old := d.get TIM_ROOT.MODULE 0
  let d := ((d.put TIM_ROOT.CLASS 0 cls).put TIM_ROOT.PRIO 0 prio).put TIM_ROOT.MODULE 0 modul
  if old = modul then d else (d.count (modCtr 1541 4) 1).timeEvent TIM_EVENTS.ROOT_CHANGE 0

/-- The module is the time root; without a source its error against the root is none (R424, R428, log entry 25). -/
def Dev.beRoot (d : Dev) : Dev :=
  let own := d.ownClass
  let d := (((d.put TIM_STATE.ROOT 0 1).put TIM_STATE.HOPS 0 0).put TIM_STATE.PARENT 0 0).put TIM_STATE.SOURCE 0
    (d.get TIM_SRC_CFG.SOURCE 0)
  let d := { d with time := { d.time with exch := none, delays := [], slew := if d.get TIM_SRC_CFG.SOURCE 0 = 0 then 0 else d.time.slew } }
  (d.showRoot own.1 own.2 d.moduleId).when (d.get TIM_SRC_CFG.SOURCE 0 == 0) fun d =>
    (d.put TIM_ERR_EST.ERR_PS 0 0).setTimeState 1

/-- The module follows the partner of a link (R424). -/
def Dev.follow (d : Dev) (p : Nat) (a : Announce) : Dev :=
  let same := !d.is TIM_STATE.ROOT 0 && d.get TIM_STATE.PARENT 0 == p
  let d := (((d.put TIM_STATE.ROOT 0 0).put TIM_STATE.HOPS 0 (a.hops + 1)).put TIM_STATE.PARENT 0 p).put TIM_STATE.SOURCE 0 0
  let d := if same then d else { d with time := { d.time with exch := none, delays := [] } }
  d.showRoot a.cls a.prio a.modul

/-- The root, and the parent toward it, as the announcements give them (R424). -/
def Dev.chooseRoot (d : Dev) : Dev :=
  let own := d.ownClass
  match bestOf (d.time.heard.filter fun e => decide (e.2.hops < 4) && d.linkServing e.1) with
  | some (p, a) => if rankOf a.cls a.prio a.modul < rankOf own.1 own.2 d.moduleId then d.follow p a else d.beRoot
  | none => d.beRoot

/-! ### Steps and slews -/

/-- A machine timer interrupt is pending while time has reached its core's compare value (R405); it ends a wait for interrupt (DEDUCED, log
entry 34). -/
def Dev.timers (d : Dev) : Dev :=
  d.forEach (List.range 16) fun d k =>
    let due := decide (d.get64 DOC_MTIMECMP_LO.CMP DOC_MTIMECMP_HI.CMP k ≤ d.now / 16)
    let d := d.when (due && d.get DOC_CORE_STATUS.STATE k == 2) (·.put DOC_CORE_STATUS.STATE k 1)
    { d with cores := SMap.modify {} d.cores k fun c => { c with timer := due } }

/-- An action that falls due: its instant, its place among those of one instant, and what it is; none is a scheduled command. -/
abbrev Due := Nat × Nat × Option TimedAction

/-- A due action is put in its place, by instant and then by schedule ID (R430, R431). -/
def insertDue (x : Due) (l : List Due) : List Due :=
  match l with
  | [] => [x]
  | y :: r => if x.1 < y.1 ∨ (x.1 = y.1 ∧ x.2.1 < y.2.1) then x :: y :: r else y :: insertDue x r

/-- A hardware-timed action takes effect (R431). -/
def Dev.act (d : Dev) (a : TimedAction) : Dev :=
  match a with
  | .gateEntry p => d.gateBoundary p
  | .gateStart p => d.gateStart p
  | .pins => d.activatePins
  | .freezeCut lv => d.freezeCut lv
  | .thawCut lv held => d.thawCut lv held
  | .catalogue t => d.takeInstant (streamNo t)

/-- The instant of an action, where the module holds one. -/
def Dev.instant (d : Dev) (a : TimedAction) : Option Nat :=
  match a with
  | .gateEntry _ => some d.now
  | .gateStart p => (d.outPort p).tstart
  | .pins => some d.now
  | .freezeCut lv => (d.vit lv).tcut1
  | .thawCut lv _ => (d.vit lv).tcut2
  | .catalogue _ => some d.now

/-- HARDWARE_TIMED_ACTION: an action takes effect once its instant has come (R431). -/
def execHardwareTimedAction (action : TimedAction) (s : State) : Host.Outcome State Fault Refusal :=
  onDev s fun d =>
    match d.instant action with
    | some t => d.when (decide (t ≤ d.now)) (·.act action)
    | none => d

/-- What falls due up to now: scheduled commands, cut points, starts of gate lists (R430). A thaw of a Vitrine that comes from another module
waits for THAW_CUT_POINT, which says whether that module holds a reset (R262, log entry 69). -/
def Dev.dueNow (d : Dev) : List Due :=
  let sched : List Due := (d.scheduled.filter fun e => decide (e.time ≤ d.now)).map fun e => (e.time, e.id, none)
  let lvs := d.vits.map (·.1)
  let cut (f : Nat → Option Nat) (a : Fin 1024 → TimedAction) : List Due := lvs.filterMap fun lv =>
    match f lv with
    | some t => if t ≤ d.now then some (t, 256, some (a (Fin.ofNat 1024 lv))) else none
    | none => none
  let starts : List Due := d.outs.filterMap fun e =>
    match e.2.tstart with
    | some t => if t ≤ d.now then some (t, 256, some (.gateStart (Fin.ofNat 512 e.1))) else none
    | none => none
  (sched ++ cut (fun lv => (d.vit lv).tcut1) .freezeCut ++
    cut (fun lv => if d.get VIT_STATE.STATE lv = 7 ∧ (d.vit lv).source ≠ d.moduleId then none else (d.vit lv).tcut2) (.thawCut · false) ++ starts).foldr insertDue []

/-- One due action runs. -/
def runDue (s : State) (x : Due) : State :=
  match x.2.2 with
  | none => runScheduled s x.2.1
  | some a => { s with dev := s.dev.act a }

/-- Arrival stamps and tracker deadlines go forward with a step (R430). -/
def Dev.advance (d : Dev) (ticks : Nat) : Dev :=
  let later := (d.now + ticks) % 2 ^ 64
  let shift (f : QFrame) : QFrame := { f with stamp := (f.stamp + (later / 1024 + 2 ^ 54 - d.now / 1024)) % 2 ^ 32 }
  { d with
    now := later
    queues := d.queues.map fun e => (e.1, { e.2 with frames := e.2.frames.map shift, side := e.2.side.map shift })
    trk := d.trk.map fun e => (e.1, { e.2 with deadline := e.2.deadline.map fun (t : Nat) => (t + ticks) % 2 ^ 64 }) }

/-- One snapshot of each stream whose period spans a step from an earlier time (R430). -/
def Dev.stepSnapshots (d : Dev) (before : Nat) : Dev :=
  d.forEach (d.cats.map (·.1)) fun d n =>
    let c := d.cat n
    if c.due d.now && decide (before < c.instantAt d.now) then
      (d.setCat n { c with last := some (c.instantAt d.now) }).snapshot n d.now true
    else d

/-- Fabric time steps forward (R429, R430). -/
def stepTime (s : State) (ticks : Nat) : State :=
  let before := s.dev.now
  let d := ((s.dev.advance ticks).count (modCtr 1541 2) 1).timeEvent TIM_EVENTS.STEP ticks
  let d := { d with time := { d.time with slew := 0, phase := 0 } }
  let s := d.dueNow.foldl runDue { s with dev := d }
  let d := s.dev.activatePins.stepSnapshots before
  let d := d.forEach ((List.range 512).filter fun p => d.is WR_GATE_STATUS.LIST p) fun d p =>
    (d.showGates p).raise WR_PORT_EVENTS.GATE_TIME_STEP p { die := 4, port := d.fpid p }
  { s with dev := d.timers }

/-- Largest estimated error of a locked module, in ps (R427). -/
def lockedPs : Nat := 12000

/-- TIM_ERR_EST takes the estimated error, a value the manual does not state (log entry 5), and the module is locked while it is
within R427 (R428); out of it after a lock it is in holdover (log entry 25). -/
def Dev.estimate (d : Dev) (ticks : Int) (mayLock : Bool) : Dev :=
  let (v, d) := d.draw
  let d := d.put TIM_ERR_EST.ERR_PS 0 v
  if mayLock ∧ d.get TIM_ERR_EST.ERR_PS 0 ≤ lockedPs then d.setTimeState 1 ticks
  else if d.get TIM_STATE.STATE 0 = 1 then d.setTimeState 2 ticks
  else d

/-- An offset, in half ticks ahead, is corrected: a lag over 1 µs by a step, anything else by slewing (R429). -/
def correctTime (s : State) (halves : Int) : State :=
  let ticks := halves.tdiv 2
  if halves < -32000 then
    let s := stepTime s (-ticks).toNat
    { s with dev := s.dev.estimate ticks true }
  else
    let d := { s.dev with time := { s.dev.time with slew := -halves, phase := 0 } }
    if 32000 < halves then { s with dev := (d.timeEvent TIM_EVENTS.AHEAD ticks).estimate ticks false }
    else { s with dev := d.estimate ticks true }

/-! ### Exchanges -/

/-- A time frame to the partner of a link (R425). -/
def Dev.timeFrame (d : Dev) (p : Nat) (kind : TimeKind) (stamp : Nat) : Dev :=
  let dst := match (d.link p).params with
    | some x => x.fpid
    | none => 0
  let m : TimeMsg := { kind := kind, cls := d.get TIM_ROOT.CLASS 0, prio := d.get TIM_ROOT.PRIO 0, rhops := d.get TIM_STATE.HOPS 0,
                       root := d.get TIM_ROOT.MODULE 0, state := d.get TIM_STATE.STATE 0, stamp := stamp }
  { d with routed := d.routed ++ [(511, p,
      { ftype := 4, cls := .c, len := 3, dst := dst, src := d.fpid p, gvh := gvhModule, itime := d.now % 2 ^ 32, body := .time m })] }

/-- The exchange under way is discarded (R426). -/
def Dev.dropExchange (d : Dev) : Dev :=
  if d.time.exch.isSome then { d with time := { d.time with exch := none } }.count (modCtr 1541 1) 1 else d

/-- A SYNC arrives: an announcement, and from the parent the start of an exchange (R426). -/
def Dev.takeSync (d : Dev) (p : Nat) (m : TimeMsg) (arrival : Nat) (replayed : Bool) : Dev :=
  let heard := (d.time.heard.filter fun e => e.1 != p) ++ [(p, ({ cls := m.cls, prio := m.prio, modul := m.root, hops := m.rhops } : Announce))]
  let d := { d with time := { d.time with heard := heard } }.chooseRoot
  if d.is TIM_STATE.ROOT 0 || d.get TIM_STATE.PARENT 0 != p then d
  else
    let d := d.dropExchange
    if replayed then d.count (modCtr 1541 1) 1
    else { d with time := { d.time with exch := some { port := p, t1 := m.stamp, t2 := arrival } } }.timeFrame p .delayReq 0

/-- SYNC: every 250 µs one goes out on each link but the one to the parent; one that arrives is taken (R426, log entry 25). -/
def execSync (port : Fin 512) (received : Option (TimeMsg × Nat × Bool)) (s : State) : Host.Outcome State Fault Refusal :=
  onDev s fun d =>
    let p := port.val
    if !d.linkServing p then d
    else match received with
      | some (m, arrival, replayed) => d.takeSync p m arrival replayed
      | none =>
        let d := d.chooseRoot
        if !d.is TIM_STATE.ROOT 0 && d.get TIM_STATE.PARENT 0 == p then d else d.timeFrame p .sync 0

/-- DELAY_REQ: answered with its arrival stamp (R426); one that was replayed spoils its exchange, and gets no answer. -/
def execDelayReq (port : Fin 512) (arrival : Nat) (replayed : Bool) (s : State) : Host.Outcome State Fault Refusal :=
  onDev s fun d =>
    if d.linkServing port && !replayed then d.timeFrame port .delayRsp arrival else d

/-- Ticks from one stamp to another, modulo 2^64, as a signed number. -/
def stampDiff (from_ till : Nat) : Int := signedOf 64 (sinceTicks from_ till)

/-- A path delay agrees with the mean of those accepted before, within 5 ns; both doubled, in ticks (R426). -/
def delayOk (delays : List Nat) (delay : Int) : Bool :=
  delays.isEmpty || decide ((delay * delays.length - delays.sum).natAbs ≤ 160 * delays.length)

/-- TIM_OFFSET: half ticks in ps, two's complement, saturating (R434). -/
def offsetPs (halves : Int) : Nat := ofSigned 32 (max (-2147483648) (min 2147483647 ((halves * 125).tdiv 4)))

/-- The four stamps of an exchange are complete (R426). -/
def completeExchange (s : State) (x : Exchange) (t3 t4 : Nat) : State :=
  let d := { s.dev with time := { s.dev.time with exch := none } }
  let there := stampDiff x.t1 x.t2
  let back := stampDiff t3 t4
  let delay := there + back
  if delay < 0 || !delayOk d.time.delays delay then { s with dev := d.count (modCtr 1541 1) 1 }
  else
    let kept := d.time.delays ++ [delay.toNat]
    let d := { d with time := { d.time with delays := kept.drop (kept.length - 16) } }.count (modCtr 1541 0) 1
    correctTime { s with dev := d.put TIM_OFFSET.OFFSET_PS 0 (offsetPs (there - back)) } (there - back)

/-- DELAY_RSP: the exchange is accepted, and the module's time corrected, or discarded (R426 to R430). -/
def execDelayRsp (port : Fin 512) (stamp : Nat) (replayed : Bool) (s : State) : Host.Outcome State Fault Refusal :=
  onState s fun s =>
    let d := s.dev
    match d.time.exch with
    | none => s
    | some x =>
      if x.port ≠ port then s
      else match x.t3 with
        | none => { s with dev := d.dropExchange }
        | some t3 => if replayed then { s with dev := d.dropExchange } else (completeExchange s x t3 stamp)

/-- PARENT_LINK_LOST: a module that was locked is in holdover, and a parent is chosen among the other links (R424, R428). -/
def execParentLinkLost (s : State) : Host.Outcome State Fault Refusal :=
  onDev s fun d =>
    if d.is TIM_STATE.ROOT 0 then d
    else
      let p := d.get TIM_STATE.PARENT 0
      let d := { d with time := { d.time with heard := d.time.heard.filter (fun e => e.1 != p), exch := none, delays := [], slew := 0 } }
      (d.when (d.get TIM_STATE.STATE 0 == 1) (·.setTimeState 2)).chooseRoot

/-! ### External sources -/

/-- TIM_SRC_CFG is written: the external source and its priority (R423, R424, R434). -/
def Dev.setSource (d : Dev) (source prio : Nat) : Dev :=
  let same := d.get TIM_SRC_CFG.SOURCE 0 == source
  let d := (d.put TIM_SRC_CFG.SOURCE 0 source).put TIM_SRC_CFG.PRIO 0 prio
  (if same then d else { d with time := { d.time with srcLocked := false, srcHeld := false, rejected := [] } }).chooseRoot

/-- TIME_SOURCE_SET (R423). -/
def execTimeSourceSet (h : CmdHdr) (source prio : Byte) (signal : Bool) (s : State) : Host.Outcome State Fault Refusal :=
  onDev s fun d =>
    let op := 0x0902
    d.moduleCommand h op [1] false fun d =>
      if 2 < source.toNat then d.badParam h op 0
      else if source ≠ 0 ∧ !signal then d.finish h op Status.sourceAbsent
      else
        (d.setSource source.toNat prio.toNat).finish h op Status.ok

/-- The external source has given the module a time that it takes; only the root corrects its own by it (R423, R424). -/
def sourceOffset (s : State) (ahead : Int) : State :=
  let d := { s.dev with time := { s.dev.time with srcLocked := true, srcHeld := false, rejected := [] } }.chooseRoot
  if d.is TIM_STATE.ROOT 0 then correctTime { s with dev := d } (2 * ahead) else { s with dev := d }

/-- Ticks in a second. -/
def secondTicks : Nat := 16000000000

/-- Offset of the time now from the second an edge marks: the one IEEE 1588 gives, else the nearest (R423). -/
def edgeOffset (now : Nat) (seconds : Option Nat) : Int :=
  match seconds with
  | some n => (now : Int) - (n * secondTicks : Nat)
  | none => (now : Int) - ((now + secondTicks / 2) / secondTicks * secondTicks : Nat)

/-- Discarded edges that agree within 100 ns three times in a row give a new phase (R525). -/
def newPhase (offsets : List Int) : Bool :=
  match offsets.reverse with
  | a :: b :: c :: _ => decide (max a (max b c) - min a (min b c) ≤ 1600)
  | _ => false

/-- PPS_EDGE (R423, R525). -/
def execPpsEdge (seconds : Option Nat) (s : State) : Host.Outcome State Fault Refusal :=
  onState s fun s =>
    let d := s.dev
    if d.get TIM_SRC_CFG.SOURCE 0 ≠ 2 then s
    else
      let off := edgeOffset d.now seconds
      if off.natAbs ≤ 16000 then (sourceOffset s off)
      else
        let rejected := d.time.rejected ++ [off]
        let d := { d with time := { d.time with rejected := rejected } }.record 0x1380 { detail := leBytes 8 (ofSigned 64 (off.tdiv 16)) }
        let s := { s with dev := d }
        if newPhase rejected then (sourceOffset s off) else s

/-- TIME_SOURCE_LOST (R525, R428). -/
def execTimeSourceLost (s : State) : Host.Outcome State Fault Refusal :=
  onDev s fun d =>
    if d.get TIM_SRC_CFG.SOURCE 0 = 0 then d
    else
      let d := { d with time := { d.time with srcLocked := false, srcHeld := d.time.srcLocked || d.time.srcHeld, rejected := [] } }
      let d := d.timeEvent TIM_EVENTS.SOURCE_LOST 0
      (d.when (d.is TIM_STATE.ROOT 0 && d.get TIM_STATE.STATE 0 == 1) fun d =>
        { d with time := { d.time with slew := 0 } }.setTimeState 2).chooseRoot

/-- IEEE_1588_MESSAGE: a receiver's offset disciplines a root whose source is 1; the module serves no one (R423). -/
def execIeee1588Message (message : PtpMsg) (s : State) : Host.Outcome State Fault Refusal :=
  onState s fun s =>
    match message with
    | .offset ahead => if s.dev.get TIM_SRC_CFG.SOURCE 0 = 1 then (sourceOffset s ahead) else s
    | .other => s

/-! ### An idle tick -/

/-- Ticks between two corrections of one tick at the slew limit of 50 ppm (R429, log entry 26). -/
def slewPeriod : Nat := 20000

/-- Destinations that have waited Q ÷ 2 for what a RESYNC_REQ counts answer it (R90). -/
def Dev.resyncsDue (d : Dev) : Dev :=
  d.forEach (d.dwins.filter fun (w : DWin) => w.resync.isSome) fun d w => d.answerResync w.src w.dst

/-- One tick of 62.5 ps: fabric time goes on, held or hurried by the slew, and Weir time with the module's clock (R90, R228, R421,
R429, log entry 26). -/
def Dev.tick (d : Dev) : Dev :=
  let d := { d with weir := d.weir + 1 }
  let t := d.time
  let (go, t) : Nat × TimeX :=
    if t.slew = 0 then (1, t)
    else if t.phase + 1 < slewPeriod then (1, { t with phase := t.phase + 1 })
    else if 2 ≤ t.slew then (2, { t with phase := 0, slew := t.slew - 2 })
    else if t.slew ≤ -2 then (0, { t with phase := 0, slew := t.slew + 2 })
    else (1, { t with phase := 0, slew := 0 })
  let d := { d with now := (d.now + go) % 2 ^ 64, time := t }.timers.resyncsDue
  d.when (decide (d.now / msTicks 2000 ≠ (d.now + 2 ^ 64 - go) % 2 ^ 64 / msTicks 2000)) fun d => d.emit (.strip d.strip)

end Sys2Proof.Machine
end

