-- ==== Sys2Proof/Machine/Reliability.lean ====
section
/-! DEFINITION. Single faults, the Curator's failover, clocks, memory, temperature, ageing, core voltage and the margin plan (R28 to R30,
R456 to R474, R510). -/

namespace Sys2Proof.Machine

/-! ### Lockstep and failover -/

/-- State of a Curator pair: 0 active, 1 standby, 2 self-test, 3 FAILED. -/
def Dev.pairState (d : Dev) (pair : Nat) : Nat :=
  if pair = 0 then d.get CUR_PAIR_STATUS.A_STATE 0 else d.get CUR_PAIR_STATUS.B_STATE 0

/-- A Curator pair's state changes. -/
def Dev.setPair (d : Dev) (pair st : Nat) : Dev :=
  if pair = 0 then d.put CUR_PAIR_STATUS.A_STATE 0 st else d.put CUR_PAIR_STATUS.B_STATE 0 st

/-- No standby pair mirrors any longer (R459). -/
def Dev.standbyLost (d : Dev) (pair : Nat) : Dev :=
  ((d.setPair pair 3).put CUR_PAIR_STATUS.STANDBY_OK 0 0).record 0x1084 { cls := 5, die := 6, object := pair }

/-- LOCKSTEP_DIVERGENCE: the pair is cut off; a diverged standby pair is lost (R457, R459). -/
def execLockstepDivergence (pair : Fin 2) (s : State) : Host.Outcome State Fault Refusal :=
  onDev s fun d =>
    d.underInjection 10 0 fun d =>
      let p := pair.val
      let active := d.get CUR_PAIR_STATUS.ACTIVE 0
      if p = active then
        if d.curatorDown then d else (d.count (modCtr 1537 33) 1).setPair p 2
      else if d.is CUR_PAIR_STATUS.STANDBY_OK 0 then (d.count (modCtr 1537 33) 1).standbyLost p
      else d

/-- The new active pair takes over the command table (R373): what has journaled no step ends ABORTED. -/
def Dev.takeOverCommands (d : Dev) : Dev :=
  { d with cmds := d.cmds.map fun c =>
      if c.status ≠ Status.pending then c
      else if c.journaled && c.wait != .nothing && c.wait != .objects then { c with failover := true }
      else { c with status := Status.aborted, wait := .nothing } }

/-- FAILOVER: the standby pair takes over from a diverged active pair (R458). -/
def execFailover (s : State) : Host.Outcome State Fault Refusal :=
  onDev s fun d =>
    if !d.curatorDown || !d.is CUR_PAIR_STATUS.STANDBY_OK 0 then d
    else
      let new := 1 - d.get CUR_PAIR_STATUS.ACTIVE 0
      let d := ((d.put CUR_PAIR_STATUS.ACTIVE 0 new).put CUR_PAIR_STATUS.STANDBY_OK 0 0).setPair new 0
      let d := (d.bump CUR_PAIR_STATUS.FAILOVERS 0 1).count (modCtr 1537 32) 1
      let d := (d.put USH_MUD_CTL.CONNECT 0 0).mudReset
      let d := (d.takeOverCommands.setTel TEL_MODE.RECOVERY true).recovered
      d.record 0x1083 { cls := 5, die := 6, object := new }

/-- PAIR_SELFTEST_DONE: the pair that diverged is the standby now, or FAILED (R459). -/
def execPairSelftestDone (passed : Bool) (s : State) : Host.Outcome State Fault Refusal :=
  onDev s fun d =>
    let other := 1 - d.get CUR_PAIR_STATUS.ACTIVE 0
    if d.curatorDown || d.pairState other ≠ 2 then d
    else if passed then (d.setPair other 1).put CUR_PAIR_STATUS.STANDBY_OK 0 1
    else d.standbyLost other

/-! ### Table copies and clocks -/

/-- One copy of a table word has failed parity and is repaired: a class 0 event of its table (R460, R529). -/
def Dev.copyRepaired (d : Dev) (table : Nat) : Dev := d.mask 0x15 0xFFFFFFFF table 1 0

/-- Both copies of an entry fail: it is treated as invalid (R460). -/
def Dev.entryInvalid (d : Dev) (table n : Nat) : Dev :=
  match table with
  | 0 => d.put RTE_MRT.VALID n 0
  | 1 => d.put RTE_GRP_SLOT.VALID n 0
  | 2 => (d.setPin n {}).put PIN_CTL.VALID n 0
  | 3 => d.setAtt n {}
  | 4 => d.setShaper n {}
  | 5 => d.resetRegs [.WR_Q_CFG] n
  | _ => (d.put GATE_COUNT.COUNT n 0).when (d.is WR_GATE_STATUS.LIST (n / 2) && decide (d.get WR_GATE_STATUS.BANK (n / 2) = n % 2)) fun d =>
      (d.put WR_GATE_STATUS.LIST (n / 2) 0).recomputeGuard (n / 2)

/-- TABLE_PARITY (R460). -/
def execTableParity (table : Fin 7) (entry : Word) (both : Bool) (s : State) : Host.Outcome State Fault Refusal :=
  onDev s fun d =>
    d.underInjection 5 (table.val * 2 ^ 32 + entry.toNat) fun d =>
      if both then (d.entryInvalid table entry.toNat).record 0x1581 { cls := 5, object := table, addr := entry.toNat }
      else d.copyRepaired table

/-- TABLE_SCRUB (R460). -/
def execTableScrub (found : List (Fin 7 × Word)) (s : State) : Host.Outcome State Fault Refusal :=
  onDev s fun d => d.forEach found fun d e => d.copyRepaired e.1

/-- REFCLK_SWITCH: a die goes over to the other reference oscillator (R461). -/
def execRefclkSwitch (die : Fin 7) (s : State) : Host.Outcome State Fault Refusal :=
  onDev s fun d =>
    d.underInjection 12 0 fun d =>
      let onB := d.refB.contains die.val
      let refB : List Nat := if onB then d.refB.filter (· ≠ die.val) else d.refB ++ [die.val]
      Dev.record { d with refB := refB } 0x1582 { die := die }

/-! ### Memory -/

/-- The word at an LPDDR4X offset is lost: its 8 bytes hold values the manual does not state (log entry 5). -/
def loseWord (s : State) (offset : Nat) : State :=
  (List.range 8).foldl (fun (s : State) i =>
    let (v, d) := s.dev.draw
    { s with mem := writeByte s.mem (ddrBase + offset / 8 * 8 + i) (BitVec.ofNat 8 v), dev := d }) s

/-- A double-bit error is handled by its region (R462). -/
def memoryFault (s : State) (offset : Nat) (reader : Option (Fin 16 × Bool)) : State :=
  let d := (s.dev.count (modCtr 1538 1) 1).record 0x1583 { cls := 5, addr := offset }
  let s := { s with dev := d }
  if inRegion regionEventLog offset 1 then
    let n := (offset - regionEventLog.1) / 64
    match SMap.find d.ring n with
    | some r =>
      loseWord { s with mem := writeBytes s.mem (ddrBase + regionEventLog.1 + n * 64) r.bytes, dev := { d with ring := SMap.erase d.ring n } } offset
    | none => loseWord s offset
  else if inRegion regionCatalogue offset 1 ∨ inRegion regionSpecimen offset 1 then loseWord s offset
  else if inRegion regionConsole offset 1 then { s with dev := d.emit (.signal "console bytes black" [offset / 64 * 64, 64]) }
  else if inRegion regionSave offset 1 then
    let lv := (offset - regionSave.1) / 0x800000
    { s with dev := { d with saves := match SMap.find d.saves lv with
        | some x => SMap.insert (SMap.erase d.saves lv) lv { x with valid := false }
        | none => d.saves } }
  else match reader with
    | some (core, fetch) =>
      if inRegion regionDocent offset 1 then
        { s with dev := (d.count (modCtr 1538 34) 1).coreTrap (0x010 + core) (if fetch then 1 else 5) (ddrBase + offset) }
      else s
    | none => s

/-- MEM_UNCORRECTABLE (R462); an armed single-bit error is corrected and counted (R281, R529). -/
def execMemUncorrectable (offset : Nat) (reader : Option (Fin 16 × Bool)) (s : State) : Host.Outcome State Fault Refusal :=
  onState s fun s =>
    let d := s.dev
    let target := offset / 8 * 8
    if d.armedFor 9 target then
      let single := d.injections.any fun i => i.point == 9 && i.argument == 1
      let s' := { s with dev := { d with injecting := true } }
      let s' := if single then { s' with dev := (s'.dev.count (modCtr 1538 0) 1).mask 0x12 0xFFFFFFFF 0 1 offset } else memoryFault s' offset reader
      { s' with dev := { s'.dev with injecting := d.injecting }.consume 9 }
    else memoryFault s offset reader

/-! ### Coolant and temperature -/

/-- COOLANT_FLOW_LOW (R463). -/
def execCoolantFlowLow (s : State) : Host.Outcome State Fault Refusal := onDev s fun d => d.record 0x0E80 { cls := 5 }

/-- COOLANT_HOT (R463). -/
def execCoolantHot (s : State) : Host.Outcome State Fault Refusal := onDev s fun d => d.record 0x0E81 {}

/-- AMBIENT_HOT: the intake temperature in DETAIL (R510). -/
def execAmbientHot (temp : Byte) (s : State) : Host.Outcome State Fault Refusal :=
  onDev s fun d => d.record 0x1586 { detail := [temp] }

/-- THERMAL_WARN: a die's temperature passes 100 °C (R463). -/
def execThermalWarn (die : Fin 7) (temp : Byte) (s : State) : Host.Outcome State Fault Refusal :=
  onDev s fun d =>
    (d.put HLT_RAIL_AGE.TEMP_C die temp.toNat).when (decide (100 < signedOf 8 temp.toNat)) fun d =>
      d.raise HLT_EVENTS.THERMAL_WARN 0 { die := die, object := die }

/-- Every port and fabric link goes to electrical idle until a module reset (R30). -/
def Dev.idleAll (d : Dev) : Dev :=
  let ports := (List.range 512).filter fun p => d.configured p
  let d := d.forEach ports fun d p => if d.fabricPort p then d.linkDown p 0 else d.linkFalls p 0
  let d := d.forEach (List.range 512) fun d n => if d.laneState n = 9 then d else d.laneOff n
  { d with halted := true }

/-- THERMAL_TRIP (R463). -/
def execThermalTrip (die : Fin 7) (s : State) : Host.Outcome State Fault Refusal :=
  onDev s fun d => (Dev.record { d with tripped := true } 0x1584 { die := die, object := die }).idleAll

/-- MODULE_WATCHDOG_EXPIRY (R30); its record has no code of its own (log entry 4). -/
def execModuleWatchdogExpiry (s : State) : Host.Outcome State Fault Refusal :=
  onDev s fun d => (d.recordUncoded 0x15 .other { cls := 5 }).idleAll

/-! ### Loss of a die -/

/-- The frames queued toward a lost port are squashed, and the entries that wait on it (R28). -/
def Dev.squashLost (d : Dev) (p : Nat) : Dev :=
  (d.forEach ((List.range 128).map (queueNo p)) fun d q => d.dropFrames q (fun _ => false) (countSquashed q)).squash fun e =>
    e.dst == d.fpid p

/-- A port of a lost die is contained as a surprise removal (R28); a Vitrine in FROZEN or SAVED keeps it for its thaw (R271). -/
def Dev.losePort (d : Dev) (p : Nat) : Dev :=
  let d :=
    if d.fabricPort p then (d.lost 2 p).squashLost p
    else if d.deviceFacing p then d.surprise p false
    else
      let d := match d.vitrineOfPort p with
        | some lv =>
          if d.get VIT_STATE.STATE lv = 5 ∨ d.get VIT_STATE.STATE lv = 6 then d.setVit lv fun v => { v with heldError := some 5 }
          else d.lost 1 lv
        | none => d
      (d.squashLost p).linkFalls p 0
  d.holdLanes p

/-- PORT_DIE_LOSS (R28). -/
def execPortDieLoss (die : Fin 4) (s : State) : Host.Outcome State Fault Refusal :=
  onDev s fun d =>
    let d := { d with lostDies := d.lostDies.filter (· ≠ die.val) ++ [die.val] }.recordUncoded 0x15 .other
      { cls := 5, die := die, contained := true }
    let d := d.forEach ((List.range 512).filter fun p => d.configured p && dieOf p == die.val) fun d p => d.losePort p
    d.forEach ((List.range 512).filter fun n => dieOf n == die.val && d.laneState n != 9) fun d n =>
      (d.laneOff n).setLane n fun l => { l with held := true }

/-- TUNNEL_HUB_DIE_LOSS: tunnels, Console Engines and the Service Hub stop, and every VBUS switch opens (R29). -/
def execTunnelHubDieLoss (s : State) : Host.Outcome State Fault Refusal :=
  onDev s fun d =>
    let d := { d with lostDies := d.lostDies.filter (· ≠ 5) ++ [5] }.recordUncoded 0x15 .other { cls := 5, die := 5, contained := true }
    let d := d.forEach (List.range 16) fun d t => ((d.usb4Lost t).openVbus t).endContract t
    let d := d.forEach ((d.endpointsOf 447).filter fun e => decide (64 ≤ e)) fun d e => (d.stopEngine (e - 64)).remove (528 + (e - 64)) false
    let d := { d with inStreams := [], candidates := [] }
    d.hubLeave.setOwner none

/-! ### Ageing -/

/-- Slowdown of a pair in ppm: 1 − stressed ÷ reference (R464). -/
def slowdownPpm (pair : Nat × Nat) : Nat := if pair.2 = 0 then 0 else (pair.2 - pair.1) * 1000000 / pair.2

/-- A slowdown differs from the mean of n others, which sum to a total, by more than a factor of two (R464). -/
def farFrom (v total n : Nat) : Bool := n != 0 && (decide (2 * total < v * n) || decide (2 * v * n < total))

/-- AGEING_MEASUREMENT: a die's hourly reading (R464). -/
def execAgeingMeasurement (die : Fin 7) (pairs : List (Nat × Nat)) (temp : Byte) (s : State) : Host.Outcome State Fault Refusal :=
  onDev s fun d =>
    let vs := pairs.map slowdownPpm
    let out (v : Nat) : Bool := farFrom v (vs.sum - v) (vs.length - 1)
    let d := d.put HLT_RAIL_AGE.TEMP_C die temp.toNat
    let d := d.forEach (vs.zipIdx.filter fun e => out e.1) fun d e =>
      (d.count (modCtr 1542 5) 1).record 0x1585 { die := die, object := e.2 }
    let kept := vs.filter fun v => !out v
    if kept = [] then d else d.put HLT_RAIL_AGE.SLOWDOWN_PPM die (kept.sum / kept.length)

/-! ### Core voltage -/

/-- A rail beside its registers. -/
def Dev.rail (d : Dev) (r : Nat) : Rail := SMap.get {} d.rails r

/-- A rail changes; AVS shows a step that awaits its acknowledgement, else a hold (R474). -/
def Dev.setRail (d : Dev) (r : Nat) (x : Rail) : Dev :=
  { d with rails := SMap.set {} d.rails r x }.put HLT_RAIL_NOW.AVS r (if x.step.isSome then 1 else if x.held then 2 else 0)

/-- The acknowledged set point of a rail. -/
def Dev.setPoint (d : Dev) (r : Nat) : Nat := d.get HLT_RAIL_NOW.SETPOINT_MV r

/-- The next step a rail may make: raises for droop first; a lowering step 10 ms after the one before, none while held (R467,
R468). -/
def Dev.nextStep (d : Dev) (r : Nat) : Option Bool :=
  let x := d.rail r
  if x.raises ≠ 0 then some true
  else match x.goal with
    | none => none
    | some g =>
      if d.setPoint r < g then some true
      else if g < d.setPoint r ∧ !x.held ∧ (x.loweredAt.all fun t => decide (msTicks 10 ≤ sinceTicks t d.now)) then some false
      else none

/-- The next step to a rail is issued as an AVSBus write, unless one awaits its acknowledgement (R467). -/
def Dev.issueStep (d : Dev) (r : Nat) : Dev :=
  let x := d.rail r
  if x.step.isSome then d
  else match d.nextStep r with
    | none => d
    | some up =>
      let d := d.setRail r { x with step := some (up, 1), loweredAt := if up then x.loweredAt else some d.now }
      d.emit (.signal "AVS write" [r, if up then d.setPoint r + 5 else d.setPoint r - 5])

/-- A step counts as made (R467). -/
def Dev.stepMade (d : Dev) (r : Nat) (up : Bool) : Dev :=
  let x := d.rail r
  let mv := if up then d.setPoint r + 5 else d.setPoint r - 5
  let goal := if x.goal = some mv then none else x.goal
  let d := d.setRail r { x with step := none, goal := goal, raises := if up then x.raises - 1 else x.raises }
  ((d.put HLT_RAIL_NOW.SETPOINT_MV r mv).count (modCtr 1542 (if up then 1 else 2)) 1).issueStep r

/-- DROOP_RAISE: COUNT droop events fell within 1 ms: one raise of 5 mV, within MAX_MV and 900 mV (R465, R466, R468). -/
def execDroopRaise (rail : Fin 7) (s : State) : Host.Outcome State Fault Refusal :=
  onDev s fun d =>
    let r := rail.val
    let x := d.rail r
    let add := d.get HLT_RAIL_NOW.DROOP_ADD_MV r
    if (x.raisedAt.any fun t => decide (sinceTicks t d.now < msTicks 1)) || decide (d.get HLT_DROOP_CFG.MAX_MV 0 < add + 5) ||
        decide (900 < d.setPoint r + 5 * (x.raises + 1)) then d
    else
      let lowering := match x.goal with
        | some g => decide (g < d.setPoint r)
        | none => false
      let d := d.setRail r { x with raises := x.raises + 1, raisedAt := some d.now, goal := if lowering then none else x.goal }
      let d := (d.put HLT_RAIL_NOW.DROOP_ADD_MV r (add + 5)).count (modCtr 1542 3) 1
      (d.raise HLT_EVENTS.DROOP_RAISE 0 { die := r, object := r }).issueStep r

/-- AVS_ACKNOWLEDGED (R467, R468). -/
def execAvsAcknowledged (rail : Fin 7) (s : State) : Host.Outcome State Fault Refusal :=
  onDev s fun d =>
    let d := d.issueStep rail
    match (d.rail rail).step with
    | some (up, _) => d.stepMade rail up
    | none => d

/-- AVS_ACK_TIMEOUT: repeated twice; then VOUT decides whether the step counts, or the rail is held (R467). -/
def execAvsAckTimeout (rail : Fin 7) (vout : Fin 65536) (s : State) : Host.Outcome State Fault Refusal :=
  onDev s fun d =>
    let r := rail.val
    let x := d.rail r
    match x.step with
    | none => d
    | some (up, n) =>
      let mv := if up then d.setPoint r + 5 else d.setPoint r - 5
      if n < 3 then (d.setRail r { x with step := some (up, n + 1) }).emit (.signal "AVS write" [r, mv])
      else if mv ≤ vout.val + 5 ∧ vout.val ≤ mv + 5 then d.stepMade r up
      else
        let lowering := match x.goal with
          | some g => decide (g < d.setPoint r)
          | none => false
        let d := d.setRail r { x with step := none, held := true, raises := if up then x.raises - 1 else x.raises,
                                      goal := if lowering || up then none else x.goal }
        (d.raise HLT_EVENTS.AVS_NO_ACK 0 { die := r, object := r }).issueStep r

/-! ### The margin plan -/

/-- A word is written to HLT_PLAN_CTL: WEEKLY is taken, and RUN starts a run unless one is in progress (R469, R474). -/
def Dev.writePlanCtl (d : Dev) (v : Nat) : Dev :=
  let d := d.mark HLT_PLAN_CTL.WEEKLY 0 (bitOf v 30)
  d.when (bitOf v 31) (·.put HLT_PLAN_STATUS.STATE 0 1)

/-- HLT_PLAN_RUN_WRITE (R469). -/
def execHltPlanRunWrite (master : Fin 2048) (value : Word) (s : State) : Host.Outcome State Fault Refusal :=
  onDev s fun d => d.curatorOnly master 0x80A800000 (·.writePlanCtl value.toNat)

/-- V_plan of a die with a fused voltage and a slowdown, within the set-point limits (R465, R470). -/
def vPlan (fused ppm : Nat) : Nat := max 670 (min 870 (fused + 5 * ((ppm + 2499) / 2500)))

/-- A rail's V_plan follows its slowdown, and its set point moves toward it, with no droop addition (R470). -/
def Dev.planRail (d : Dev) (r hours : Nat) : Dev :=
  let ppm := d.get HLT_RAIL_AGE.SLOWDOWN_PPM r
  let v := vPlan (d.get HLT_RAIL_PLAN.FUSED_MV r) ppm
  let x := d.rail r
  let h := x.history ++ [(hours, ppm)]
  let d := (d.put HLT_RAIL_PLAN.PLAN_MV r v).put HLT_RAIL_NOW.DROOP_ADD_MV r 0
  (d.setRail r { x with goal := if d.setPoint r = v + 30 then none else some (v + 30), raises := 0, history := h.drop (h.length - 26) }).issueStep r

/-- The worst margin a lane's latest scan found, on the axes scanned, and the floor of that axis (R58, R472). -/
def Dev.worstMargin (d : Dev) (n : Nat) : Nat × Nat :=
  let axes := (d.lane n).axes
  let h := (min (d.get LNA_MRG_RESULT.LEFT n) (d.get LNA_MRG_RESULT.RIGHT n), d.get LNA_MRG_CTL.HFLOOR n)
  let v := (min (d.get LNA_MRG_RESULT.UP n) (d.get LNA_MRG_RESULT.DOWN n), d.get LNA_MRG_CTL.VFLOOR n)
  if !bitOf axes 1 then h else if !bitOf axes 0 then v else if h.1 ≤ v.1 then h else v

/-- The results of a plan's scan of a lane (R58, R470); a refused scan leaves the latest result in force. -/
def Dev.planScan (d : Dev) (n : Nat) (eyes : List Eye) : Dev :=
  if d.laneState n = 6 ∧ !(d.lane n).scanning then
    let d := (d.startScan n false).scanResult n eyes
    d.setLane n fun l => { l with scanning := false }
  else d

/-- Re-equalisation as step 4 of a run orders it for a port (R470). -/
def Dev.planReequalise (d : Dev) (p : Nat) : Dev :=
  let lanes := (d.lanesOf p).filter fun n => d.laneState n == 6
  if rearLane p then d
  else if d.fabricPort p then
    let fallen := lanes.filter fun n => match (d.lane n).margins.getLast? with
      | some m => decide ((d.worstMargin n).1 + 2 < m.2)
      | none => false
    match (fallen.map fun n => (d.worstMargin n).1).min? with
    | some m => d.setPortX p fun x => { x with reeq := some (min m (x.reeq.getD m)) }
    | none => d
  else if lanes.any fun n => d.is LNA_MRG_RESULT.BELOW_FLOOR n then d.setPortX p fun x => { x with wanted := some (x.wanted.getD d.now) }
  else d

/-- A lane's count of runs ended below its floor as R471 counts them, and whether it is to be retired. -/
def Dev.judgeLane (d : Dev) (n : Nat) : Bool × Dev :=
  let l := d.lane n
  let bad := d.is LNA_MRG_RESULT.BELOW_FLOOR n && (rearLane n || l.noFloor)
  let runs := if bad then l.belowRuns + 1 else 0
  let d := d.setLane n fun l => { l with belowRuns := runs, lockLosses := 0, noFloor := false }
  (decide (2 ≤ runs) || decide (4 < l.lockLosses), d)

/-- Some width of the port is left without lane n (R65). -/
def Dev.spares (d : Dev) (p n : Nat) : Bool :=
  (pickWidth (d.lanesOf p) (d.is PRT_PORT_CFG.REVERSAL_OK p) (fun m => d.laneState m == 6 && m != n) (d.get PRT_PORT_CFG.WIDTH p)).isSome

/-- Step 5 of a run for one port: at most one lane, and never its last usable one (R471). -/
def Dev.planRetire (d : Dev) (p : Nat) : Dev :=
  let lanes := (d.lanesOf p).filter fun n => d.laneState n == 6
  let (bad, d) := lanes.foldl (fun (acc : List Nat × Dev) n =>
    let r := acc.2.judgeLane n
    (if r.1 then acc.1 ++ [n] else acc.1, r.2)) ([], d)
  match bad with
  | [] => d
  | n :: _ =>
    if !d.spares p n then d.raise HLT_EVENTS.LANE_AT_RISK 0 (laneEv n)
    else if d.fabricPort p then d.retireLane n
    else d.setPortX p fun x => { x with retireLater := some n }

/-- The least of some forecasts, in days; one that the readings leave open is a value the manual does not state (log entry 5). -/
def Dev.leastDays (d : Dev) (fs : List (Option Nat)) : Nat × Dev :=
  fs.foldl (fun (acc : Nat × Dev) f =>
    match f with
    | some n => (min acc.1 n, acc.2)
    | none =>
      let (v, d) := acc.2.draw
      (min acc.1 (v % 65536), d)) (65535, d)

/-- Step 6 of a run: the forecasts (R472). -/
def Dev.forecast (d : Dev) (active : List Nat) (hours : Nat) : Dev :=
  let volts := (List.range 7).map fun r =>
    voltDays (d.rail r).history hours (2500 * ((850 - d.get HLT_RAIL_PLAN.FUSED_MV r) / 5))
  let (v, d) := d.leastDays volts
  let (l, d) := d.leastDays (active.map fun n => laneDays (d.lane n).margins hours (d.worstMargin n).2)
  let d := (d.put HLT_FORECAST.VOLT_DAYS 0 v).put HLT_FORECAST.LANE_DAYS 0 l
  d.when (decide (v < 180) || decide (l < 180)) (·.raise HLT_EVENTS.FORECAST_SHORT 0 {})

/-- A lane's worst margin at a run is kept (R472). -/
def Dev.keepMargin (d : Dev) (hours n : Nat) : Dev :=
  let m := (d.worstMargin n).1
  d.setLane n fun l =>
    let ms := l.margins ++ [(hours, m)]
    { l with margins := ms.drop (ms.length - 8) }

/-- PLAN_DONE's DETAIL: one byte for each rail, its V_plan above 670 mV (log entry 27). -/
def Dev.planDetail (d : Dev) : List Byte :=
  (List.range 7).map fun r => BitVec.ofNat 8 (d.get HLT_RAIL_PLAN.PLAN_MV r - 670)

/-- One run of the margin plan (R470). -/
def Dev.runPlan (d : Dev) (x : PlanRun) : Dev :=
  let d := d.forEach x.scans fun d e => d.planScan e.1 e.2
  let d := d.forEach (List.range 7) fun d r => d.planRail r x.hours
  let ports := (List.range 512).filter fun p => d.configured p && d.portActive p
  let active := (List.range 512).filter fun n => d.laneState n == 6
  let d := d.forEach ports fun d p => d.planReequalise p
  let d := d.forEach active fun d n => d.keepMargin x.hours n
  let d := d.forEach ports fun d p => d.planRetire p
  let d := d.forecast (active.filter fun n => d.laneState n == 6) x.hours
  let d := ((d.put HLT_PLAN_STATUS.STATE 0 2).bump HLT_PLAN_STATUS.RUNS 0 1).count (modCtr 1542 0) 1
  d.record 0x1580 { detail := d.planDetail }

/-- MARGIN_PLAN_RUN: a weekly run while WEEKLY is set, or one that was asked for; V_plan goes to the EEPROM (R469, R470). -/
def execMarginPlanRun (run : PlanRun) (s : State) : Host.Outcome State Fault Refusal :=
  onState s fun s =>
    let d := s.dev
    if (run.weekly && d.is HLT_PLAN_CTL.WEEKLY 0) || d.get HLT_PLAN_STATUS.STATE 0 == 1 then
      let d := d.runPlan run
      let rails := (List.range 7).map fun r => (d.get HLT_RAIL_PLAN.FUSED_MV r, d.get HLT_RAIL_PLAN.PLAN_MV r)
      { s with nv := { s.nv with rails := rails }, dev := d }
    else s

end Sys2Proof.Machine
end

