-- ==== Sys2Proof/Machine/WeirCommands.lean ====
section
/-! DEFINITION. The scheduling commands (0x04xx): SHAPER_SET, QUANTUM_SET, GATE_LIST_LOAD, AGE_LIMIT_SET (R187, R222, R225, R229,
R230, R235, R378). -/

namespace Sys2Proof.Machine

/-! ### Shapers -/

/-- Queues attached to a shaper. -/
def Dev.attached (d : Dev) (n : Nat) : List Nat :=
  (d.instances WR_Q_CFG.SHAPED).filter fun q => d.is WR_Q_CFG.SHAPED q && d.get WR_Q_CFG.SHAPER q == n

/-- What SHAPER_SET sets. -/
structure ShaperSetting where
  shaper : Nat
  flags : Nat
  queues : List Nat
  rate : Nat
  burst : Nat
  deriving DecidableEq, Repr

/-- The first parameter out of range, by its offset (R226, R376, R365). -/
def ShaperSetting.bad (x : ShaperSetting) (owned : Bool) : Option Nat :=
  if 16384 ≤ x.shaper ∧ ¬(x.shaper = 0xFFFF ∧ owned) then some 0
  else if 3 < x.flags then some 2
  else if 16 < x.queues.length then some 3
  else if 2048000 < x.rate then some 8
  else if x.burst % 64 ≠ 0 ∨ x.burst = 0 ∨ 1048576 < x.burst then some 12
  else none

/-- The shaper takes its settings: the burst, its queues, and then the rate, which commits the change (R227, R378). -/
def Dev.setShaperCfg (d : Dev) (n : Nat) (x : ShaperSetting) : Dev :=
  let d := d.put WR_SHP_BURST.BURST n (x.burst / 64)
  let d := d.when (bitOf x.flags 1) fun d => d.forEach (d.attached n) fun d q => d.put WR_Q_CFG.SHAPED q 0
  let d := d.forEach x.queues fun d q => (d.put WR_Q_CFG.SHAPED q 1).put WR_Q_CFG.SHAPER q n
  d.commitShaper n x.rate (bitOf x.flags 0)

/-- A queue of a Vitrine's slot (R177). -/
def Dev.vitrineQueue (d : Dev) (q : Nat) : Bool := d.slots.any fun s => (d.queuesOf s.2.1 fun _ => true).contains q

/-- The command is marked as one on a Vitrine's queues, where it is (R372). -/
def Dev.onVitrine (d : Dev) (h : CmdHdr) (is : Dev → Bool) : Dev :=
  d.when (is d) fun d => { d with cmds := d.cmds.map fun c => if Cmd.matches h c then { c with onVitrine := true } else c }

/-- SHAPER_SET on this module, for an owner or none (R222, R378). -/
def Dev.shaperSet (d : Dev) (h : CmdHdr) (owner : Option Nat) (x : ShaperSetting) : Dev :=
  let op := 0x0401
  match x.bad owner.isSome with
  | some o => d.badParam h op o
  | none =>
    let gvh := (owner.map d.gvh).getD 0xFFFFFFFF
    let mine : List Nat := match owner with
      | some lv => (d.vit lv).shapers
      | none => []
    let ownQueues : List Nat := match owner with
      | some lv => d.queuesOf (d.gvh lv) fun _ => true
      | none => x.queues
    let n := if x.shaper = 0xFFFF then mine.find? fun n => (d.attached n).isEmpty && d.get WR_SHP_RATE.RATE_MBPS n == 0
      else some x.shaper
    match n with
    | none => d.finish h op Status.poolExhausted 6 [] gvh
    | some n =>
      if x.queues.any fun q => q % 32 == 31 then d.finish h op Status.notOwned 0 [] gvh
      else if owner.isSome && !mine.contains n then d.finish h op Status.notOwned 0 [] gvh
      else if x.queues.any fun q => !ownQueues.contains q then d.finish h op Status.notOwned 0 [] gvh
      else (((d.setShaperCfg n x).finish h op Status.ok 0 [(48, 2, n)] gvh).onVitrine h fun d => owner.isSome || x.queues.any d.vitrineQueue)

/-- SHAPER_SET (R378). -/
def execShaperSet (h : CmdHdr) (shaper : Fin 65536) (flags : Byte) (queues : List (Fin 65536)) (owner rate burst : Word)
    (s : State) : Host.Outcome State Fault Refusal :=
  onDev s fun d =>
    let x : ShaperSetting := ⟨shaper, flags.toNat, queues.map (·.val), rate.toNat, burst.toNat⟩
    if owner.toNat = 0xFFFFFFFF then d.moduleCommand h 0x0401 [1] false fun d => d.shaperSet h none x
    else d.vitrineCommand h 0x0401 (gvhField owner.toNat) [1] false fun d lv => d.shaperSet h (some lv) x

/-! ### Quanta -/

/-- QUANTUM_SET: from the queue's next turn (R225). -/
def execQuantumSet (h : CmdHdr) (queue : Fin 65536) (quantum : Word) (s : State) : Host.Outcome State Fault Refusal :=
  onDev s fun d =>
    d.moduleCommand h 0x0402 [1] false fun d =>
      let q := queue.val
      let n := quantum.toNat
      if q % 128 < 64 then d.badParam h 0x0402 0
      else if n % 64 ≠ 0 ∨ n = 0 ∨ 1048576 < n then d.badParam h 0x0402 4
      else ((d.put WR_Q_CFG.QUANTUM q (n / 64)).finish h 0x0402 Status.ok).onVitrine h (·.vitrineQueue q)

/-! ### Gate lists and age limits -/

/-- A list, with the class S and B age limits in µs and the largest guard band in ns, leaves a frame to age away (R235). -/
def gateConflict (entries : List (Bool × Nat)) (ageS ageB guard_ : Nat) : Bool :=
  decide (ageS * 1000 ≤ longestRun false entries * 8) || decide (ageB * 1000 ≤ longestRun true entries * 8 + guard_)

/-- The list active on port p. -/
def Dev.activeList (d : Dev) (p : Nat) : List (List (Bool × Nat)) :=
  if d.is WR_GATE_STATUS.LIST p then [d.gateEntries (d.activeBank p)] else []

/-- The lists active or pending on port p. -/
def Dev.gateLists (d : Dev) (p : Nat) : List (List (Bool × Nat)) :=
  d.activeList p ++
    (if (d.outPort p).tstart.isSome && !(d.outPort p).noList then [d.gateEntries (d.pendingBank p)] else [])

/-- S_OPEN, DURATION and the reserved bits of an entry word (R229). -/
def gateEntryOf (w : Nat) : Bool × Nat := (bitOf w 31, bitsOf w 26 0)

/-- A list is written to a bank, COUNT last (R239, R378). -/
def Dev.writeBank (d : Dev) (bank base cycle : Nat) (words : List Nat) : Dev :=
  let d := (d.put64 GATE_BASE_LO.BASE GATE_BASE_HI.BASE bank base).put GATE_CYCLE.CYCLE bank cycle
  let d := d.put GATE_CYCLE.RSV bank 0
  let d := d.forEach (words.zip (List.range words.length)) fun d w =>
    ((d.mark GATE_ENTRY.S_OPEN (bank * 256 + w.2) (bitOf w.1 31)).put GATE_ENTRY.DURATION (bank * 256 + w.2) (bitsOf w.1 26 0)).put
      GATE_ENTRY.RSV (bank * 256 + w.2) 0
  (d.put GATE_COUNT.COUNT bank words.length).put GATE_COUNT.RSV bank 0

/-- Words of a byte string, little-endian (R7). -/
def wordsOf (bs : List Byte) (n : Nat) : List Nat := (List.range n).map fun i => ofLeBytes ((bs.drop (4 * i)).take 4)

/-- The status and DETAIL with which a gate list for a port is refused (R229, R235, R378). -/
def Dev.gatesRefused (d : Dev) (p count bmax base cycle : Nat) (bytes : Option (List Byte)) : Option (Nat × Nat) :=
  let words := (bytes.map fun bs => wordsOf bs count).getD []
  let entries := words.map gateEntryOf
  let guard_ := (d.put WR_PORT_CFG.B_MAX p (if bmax = 0 then d.get WR_PORT_CFG.B_MAX p else bmax)).largestGuard p
  let clash (es : List (Bool × Nat)) : Bool := gateConflict es (d.get BSN_AGE_S.LIMIT_US 0) (d.get BSN_AGE_B.LIMIT_US 0) guard_
  if bmax ≠ 0 ∧ (bmax < 2 ∨ 260 < bmax) then some (Status.badParam, 6)
  else if internalPort p then some (Status.internalPort, 0)
  else if !d.configured p then some (Status.noObject, 0)
  else if 256 < count then some (Status.listInvalid, 0)
  else if count ≠ 0 ∧ bytes = none then some (Status.badParam, 24)
  else if count ≠ 0 ∧ (!gateListOk base cycle entries || words.any (fun w => bitsOf w 30 27 != 0) || decide (2 ^ 27 ≤ cycle)) then
    some (Status.listInvalid, 0)
  else if (count ≠ 0 ∧ clash entries) ∨ (d.activeList p).any clash then some (Status.ageConflict, 0)
  else none

/-- GATE_LIST_LOAD on this module: B_MAX and the pending bank are written and the switch armed (R229, R230, R378). -/
def Dev.loadGates (d : Dev) (h : CmdHdr) (p count bmax base cycle : Nat) (bytes : Option (List Byte)) : Dev :=
  let op := 0x0403
  match d.gatesRefused p count bmax base cycle bytes with
  | some (st, detail) => d.finish h op st detail
  | none =>
    let d := d.when (bmax != 0) (·.put WR_PORT_CFG.B_MAX p bmax)
    let d := if count = 0 then d.writeBank (d.pendingBank p) 0 0 []
      else d.writeBank (d.pendingBank p) base cycle ((bytes.map fun bs => wordsOf bs count).getD [])
    match d.armGate p with
    | (t, d) => (d.recomputeGuard p).finish h op Status.ok 0 [(32, 8, t.getD 0)]

/-- GATE_LIST_LOAD (R229). -/
def execGateListLoad (h : CmdHdr) (fpid : Word) (count bmax : Fin 65536) (base : Nat) (cycle : Word) (addr : Nat)
    (source : Fetch) (s : State) : Host.Outcome State Fault Refusal :=
  onDev s fun d =>
    let f := fpidField fpid.toNat
    d.command h 0x0403 [1] false (fpidModule f) fun d =>
      d.loadGates h (fpidPort f) count bmax (base % 2 ^ 64) cycle.toNat (fetched s.mem source addr (4 * count.val))

/-- An age limit of n µs for a class would conflict with a gate list (R235). -/
def Dev.ageClash (d : Dev) (cls n : Nat) : Bool :=
  let ageS := if cls = 0 then n else d.get BSN_AGE_S.LIMIT_US 0
  let ageB := if cls = 3 then n else d.get BSN_AGE_B.LIMIT_US 0
  (List.range 512).any fun p => (d.gateLists p).any (gateConflict · ageS ageB (d.largestGuard p))

/-- AGE_LIMIT_SET, refused where a gate list on any port conflicts (R187, R235). -/
def execAgeLimitSet (h : CmdHdr) (cls : Byte) (limit : Word) (s : State) : Host.Outcome State Fault Refusal :=
  onDev s fun d =>
    d.moduleCommand h 0x0404 [1] false fun d =>
      let n := limit.toNat
      if 3 < cls.toNat then d.badParam h 0x0404 0
      else if n = 0 ∨ 1000000 < n then d.badParam h 0x0404 4
      else if d.ageClash cls.toNat n then d.finish h 0x0404 Status.ageConflict
      else
        (match Cls.ofCode cls.toNat with
         | .s => d.put BSN_AGE_S.LIMIT_US 0 n
         | .c => d.put BSN_AGE_C.LIMIT_US 0 n
         | .l => d.put BSN_AGE_L.LIMIT_US 0 n
         | .b => d.put BSN_AGE_B.LIMIT_US 0 n).finish h 0x0404 Status.ok

end Sys2Proof.Machine
end

