-- ==== Sys2Proof/Machine/Formation.lean ====
section
/-! DEFINITION. Start-up of a module and forming the fabric (R175, R184, R278, R295, R394, R475 to R490). -/

namespace Sys2Proof.Machine

/-! ### One module from AC -/

/-- The budget of each start-up step in ms (R475). -/
def stepBudget (n : Nat) : Nat := [300, 1000, 3000, 2000, 50, 350, 500].getD (n - 1) 4800

/-- A start-up step that exceeds its budget is recorded, and start-up goes on (R475). -/
def Dev.stepTook (d : Dev) (n ms : Nat) : Dev :=
  d.when (decide (stepBudget n < ms)) (·.record 0x1088 { object := n, detail := leBytes 4 ms })

/-- The step in progress, with its line on UART_TX (R475, R523). -/
def Dev.setStep (d : Dev) (n : Nat) : Dev :=
  (d.put CUR_START_STATUS.STEP 0 n).emit (.uart none d.now (.step n))

/-- Start-up stops at a step for good: every lane OFF, every e-fuse OFF, the module never ready, HALT on the strip (R476, R477, R513). -/
def Dev.halt (d : Dev) (step : Nat) (cause : HaltCause) : Dev :=
  let d := { d with halted := true, haltedBy := some (step, cause) }.put CUR_START_STATUS.STEP 0 15
  d.emit (.strip d.strip)

/-- The boot count is new: staged records take ESEQ values from 0 in their order (R278). -/
def Dev.numberStaged (d : Dev) (boot : Nat) : Dev :=
  let base := boot % 2 ^ 24 * 2 ^ 40
  let staged := d.staging.zipIdx.map fun (r : EvRec × Nat) => { r.1 with eseq := some (base + r.2) }
  ({ d with staging := staged, booted := true }).put64 SLC_ESEQ_LO.ESEQ SLC_ESEQ_HI.ESEQ 0 (base + staged.length)

/-- The default binding table: channel, sender, receiver (R394). -/
def defaultBindings : List (Nat × Nat × Nat) :=
  let pair (c m : Nat) : List (Nat × Nat × Nat) := [(c, m, 0), (c + 1, 0, m)]
  ((List.range 16).flatMap fun k => pair (2 * k) (0x010 + k)) ++ pair 32 0x020 ++ pair 34 0x021 ++
    (List.range 110).flatMap fun n => pair (36 + 2 * n) (0x400 + n)

/-- The binding table is written and locked (R394). -/
def Dev.bindChannels (d : Dev) (list : List (Nat × Nat × Nat)) : Dev :=
  let d := d.forEach (list.filter fun (b : Nat × Nat × Nat) => decide (b.1 < 256)) fun d b =>
    ((d.put MBX_BIND.VALID b.1 1).put MBX_BIND.SENDER b.1 b.2.1).put MBX_BIND.RECEIVER b.1 b.2.2
  d.checkBindings.put MBX_LOCK.LOCK 0 1

/-- Both Curator pairs have booted: A runs, B mirrors it unless it failed its self-test (R457, R459). -/
def Dev.startPairs (d : Dev) (standby : Bool) : Dev :=
  let d := (d.put CUR_PAIR_STATUS.ACTIVE 0 0).setPair 0 0
  if standby then (d.setPair 1 1).put CUR_PAIR_STATUS.STANDBY_OK 0 1 else d.standbyLost 1

/-- Secure boot: the image FW_ACTIVATE named, or else the other (R476); none when neither signature checks. -/
def bootImage (nv : NonVolatile) (x : StartRun) : Option Nat :=
  let good (n : Nat) : Bool := if n = 0 then x.signedA else x.signedB
  if good nv.nextImage then some nv.nextImage else if good (1 - nv.nextImage) then some (1 - nv.nextImage) else none

/-- A die that fails self-test: a port die or the tunnel hub is as lost, any other stops start-up at step 4 (R28, R29, R477). -/
def Dev.failDie (d : Dev) (die : Nat) : Dev :=
  let d := d.record 0x1087 { cls := 5, die := die, object := die }
  if die < 4 ∨ die = 5 then { d with lostDies := d.lostDies.filter (· ≠ die) ++ [die] } else d.halt 4 (.die die)

/-- The Basin regions (R175), with the internal attachments (R184). -/
def Dev.setUpBasin (d : Dev) : Dev :=
  let attach (d : Dev) (p lr windows : Nat) : Dev :=
    ((((d.put BSN_PORT_RSV.LR p lr).put BSN_PORT_WIN.OVERSUB p 0).put BSN_PORT_WIN.WINDOWS p windows).refreshGrant p).forEach
      ((List.range 128).map (queueNo p)) fun d q => d.put BSN_Q_CFG.MIN q 8
  ((attach d 447 32768 256) |> fun d => attach d 511 16384 128).setReserved (16384 + 32768 + 16384 + 2 * 128 * 8)

/-- Where the hub's address space holds BAR0 and BAR2 of Console Engine e (R293). -/
def engineBar0 (e : Nat) : Nat := 0x10000000000 + e * 0x4000000
def engineBar2 (e : Nat) : Nat := 0x11000000000 + e * 0x4000

/-- Console Engine e is an endpoint of port 447 that has passed Accession (R295). -/
def Dev.startEngine (d : Dev) (e : Nat) : Dev :=
  d.setEndpoint 447 (64 + e) fun x =>
    { x with exists_ := true, accession := .passed, unauthenticated := true, bars := [(26, engineBar0 e), (14, engineBar2 e)],
             facts := { vendor := Config.vendorId, device := 0x5123, classCode := 0x038000, functions := 1 } }

/-- The stored port layout takes effect (R475): each port's registers and reserve, and the rear lanes of enabled ports. -/
def Dev.layPorts (d : Dev) (ports : List (Nat × PortSetting × Bool)) : Dev :=
  d.forEach ports fun d x =>
    let total := d.get BSN_RESERVED.TOTAL 0 + x.2.1.reserve + 1024
    let d := (d.setReserved total).applyPort x.1 x.2.1
    d.when x.2.2 fun d => d.forEach ((d.lanesOf x.1).filter rearLane) fun d n => d.enableLane n

/-- Steps 3 to 5 of start-up with an image chosen (R475). -/
def startWith (s : State) (x : StartRun) (image : Nat) : State :=
  let took (n : Nat) : Nat := x.took.getD (n - 1) 0
  let nv := { s.nv with boot := s.nv.boot + 1, booted := image }
  let d := s.dev.numberStaged nv.boot
  let d := d.when (image != s.nv.nextImage) (·.record 0x1086 { cls := 5, die := 6, object := image })
  let d := ((d.startPairs x.standby).bindChannels (nv.bindings.getD defaultBindings)).stepTook 3 (took 3)
  let d := (d.setStep 4).setUpBasin
  let d := (d.forEach (x.failed.map (·.val)) fun d die => d.failDie die).stepTook 4 (took 4)
  if d.halted then { s with nv := nv, dev := d }
  else
    let d := d.when (!x.failed.contains 5) fun d => d.forEach (List.range 64) fun d e => d.startEngine e
    let d := ((d.setStep 5).layPorts nv.ports).stepTook 5 (took 5)
    { s with nv := nv, dev := d.setStep 6 }

/-- MODULE_START: from a present feed through step 5 (R475 to R477). -/
def execModuleStart (run : StartRun) (s : State) : Host.Outcome State Fault Refusal :=
  onState s fun s =>
    let d := s.dev
    if d.feeds = [] ∨ d.get CUR_START_STATUS.STEP 0 ≠ 0 then s
    else
      let d := ((((d.setStep 1).stepTook 1 (run.took.getD 0 0)).setStep 2).stepTook 2 (run.took.getD 1 0)).setStep 3
      match bootImage s.nv run with
      | some image => (startWith { s with dev := d } run image)
      | none => { s with dev := Dev.halt { d with bootFailed := true } 3 (.image (1 - s.nv.nextImage)) }

/-- CAGE_GROUP_ENABLE: the stored enables of a group (R478); with group 6 step 7 begins, and every enabled port trains (R475). -/
def execCageGroupEnable (group : Fin 7) (s : State) : Host.Outcome State Fault Refusal :=
  onDev s fun d =>
    if d.get CUR_START_STATUS.STEP 0 ≠ 6 then d
    else
      let mine := (List.range 8).filterMap fun i => s.nv.cages.find? fun (c : StoredCage) => c.cage == group.val * 8 + i
      let d := d.forEach mine fun d c =>
        match d.tryCage c.cage c.value c.scale c.priority with
        | (st, _, d) => d.when (st != Status.ok) fun d =>
          d.record 0x0E82 { die := dieOf (c.cage * 8), port := c.cage, object := c.cage, detail := leBytes 2 st }
      if group = 6 then
        (d.setStep 7).forEach (s.nv.ports.filter fun (x : Nat × PortSetting × Bool) => x.2.2) fun d x =>
          d.forEach (d.lanesOf x.1) fun d n => d.enableLane n
      else d

/-- Every enabled port of the stored configuration has trained (R479). -/
def Dev.allTrained (d : Dev) (nv : NonVolatile) : Bool :=
  nv.ports.all fun (x : Nat × PortSetting × Bool) => !x.2.2 ||
    (if d.fabricPort x.1 then d.linkState x.1 == 2 else d.is PRT_PORT_STATUS.DL_ACTIVE x.1)

/-- DETAIL of MODULE_READY: the ms of each of the eight steps, 12 bits each (the model's choice, log entry 30). -/
def stepDetail (steps : List Nat) : List Byte :=
  leBytes 12 (((List.range 8).map fun i => steps.getD i 0 % 4096 * 4096 ^ i).sum)

/-- The power state changes, with its record: the old state, the new one, and the wake bit, 255 for none (R503). -/
def Dev.setPower (d : Dev) (st bit : Nat) : Dev :=
  let old := d.get PWR_PS_STATUS.STATE 0
  (d.put PWR_PS_STATUS.STATE 0 st).when (old != st) (·.record 0x0E83 { detail := leBytes 1 old ++ leBytes 1 st ++ leBytes 1 bit })

/-- The base power state held in the stored configuration is taken; where it holds neither, TRIM with AUTO (R491). -/
def Dev.takeBase (d : Dev) (base : Option (Nat × Bool)) : Dev :=
  let b := base.getD (1, true)
  ((d.put PWR_MODE.BASE 0 b.1).mark PWR_MODE.AUTO 0 b.2).setPower b.1 255

/-- MODULE_READY (R479). -/
def execModuleReady (ms : Word) (late : Bool) (steps : List (Fin 4096)) (s : State) : Host.Outcome State Fault Refusal :=
  onDev s fun d =>
    if d.get CUR_START_STATUS.STEP 0 ≠ 7 ∨ !(late || d.allTrained s.nv) then d
    else
      let took := steps.map (·.val)
      let d := d.forEach [6, 7, 8] fun d n => d.stepTook n (took.getD (n - 1) 0)
      let d := ((d.setStep 8).put CUR_START_STATUS.READY 0 1).put CUR_START_STATUS.READY_MS 0 (min ms.toNat 65535)
      let d := ((d.setTel TEL_MODE.STARTUP false).startCat 0 defaultCat).takeBase s.nv.base
      d.record 0x1085 { detail := stepDetail took }

/-! ### The topology -/

/-- PHASE goes on to n (R490). -/
def Dev.phase (d : Dev) (n : Nat) : Dev := d.put CUR_START_STATUS.PHASE 0 n

/-- What this module announces of itself (R480). -/
def Dev.ownInfo (d : Dev) (nv : NonVolatile) : HelloMsg :=
  { prio := d.get CUR_START_CFG.PRIO 0, lastId := nv.moduleId, serial := nv.serial, gen := nv.storeGen }

/-- Fabric links in ACTIVE, by port. -/
def Dev.activeLinks (d : Dev) : List Nat := (List.range 512).filter fun p => d.fabricPort p && d.linkState p == 2

/-- This module's ACTIVE fabric links whose partner is known. -/
def Dev.ownLinks (d : Dev) : List AdjLink :=
  d.activeLinks.filterMap fun p => (SMap.find d.partners p).map fun (n : Nat) =>
    { port := p, partner := n, width := d.get FLL_LINK_STATUS.WIDTH p, rate := d.get FLL_LINK_STATUS.RATE p }

/-- The fields of an ADJ frame (R480). -/
def adjFields (m : AdjMsg) : List Nat :=
  [m.origin.prio, m.origin.lastId.getD 0xFFFF, m.part, m.parts, m.origin.serial, m.origin.gen, m.aseq, m.origin.serial] ++
    m.links.flatMap fun (l : AdjLink) => [l.port, l.partner, l.width, l.rate]

/-- An ADJ goes out on fabric links (R481). -/
def Dev.sendAdj (d : Dev) (ports : List Nat) (m : AdjMsg) : Dev :=
  d.forEach ports fun d p => d.mgmt p (d.get FLL_PARTNER.FPID p) (.adj (adjFields m))

/-- A change of this module's links is described anew, in one or two parts, with ASEQ one higher (R481). -/
def Dev.describe (d : Dev) (nv : NonVolatile) : Dev :=
  let links := d.ownLinks
  if links = d.described then d
  else
    let d := { d with described := links, ownAseq := d.ownAseq + 1 }
    let parts := if 338 < links.length then 2 else 1
    d.forEach (List.range parts) fun d i =>
      d.sendAdj d.activeLinks
        { origin := d.ownInfo nv, part := i, parts := parts, aseq := d.ownAseq, links := (links.drop (338 * i)).take 338 }

/-- The store's entry of a module. -/
def Dev.node (d : Dev) (serial : Nat) : Option Node := d.topo.find? fun (n : Node) => n.info.serial == serial

/-- An entry of the store is replaced. -/
def Dev.setNode (d : Dev) (n : Node) : Dev :=
  { d with topo := d.topo.filter (fun (m : Node) => m.info.serial != n.info.serial) ++ [n] }

/-- HELLO: sent every 100 ms; one received announces the partner (R480, R481). -/
def execHello (port : Fin 512) (msg : Option HelloMsg) (s : State) : Host.Outcome State Fault Refusal :=
  onDev s fun d =>
    let p := port.val
    if !d.fabricPort p ∨ d.linkState p ≠ 2 then d
    else
      match msg with
      | none => (d.sendHello s.nv p).describe s.nv
      | some m =>
        let d := { d with partners := SMap.insert (SMap.erase d.partners p) p m.serial }
        let d := d.when (d.get CUR_START_STATUS.PHASE 0 == 0) (·.phase 1)
        let old := (d.node m.serial).getD { info := m }
        (d.setNode { old with info := m }).describe s.nv

/-- ADJ: a new one is stored and sent on; any other is discarded (R481). -/
def execAdj (port : Fin 512) (msg : AdjMsg) (s : State) : Host.Outcome State Fault Refusal :=
  onDev s fun d =>
    let old := d.node msg.origin.serial
    let fresh := match old with
      | none => true
      | some n => decide (n.aseq < msg.aseq) || (n.aseq == msg.aseq && !n.parts.any fun (x : Nat × List AdjLink) => x.1 == msg.part)
    if msg.origin.serial = s.nv.serial ∨ !fresh then d
    else
      let kept := match old with
        | some n => if n.aseq = msg.aseq then n.parts else []
        | none => []
      let d := d.setNode { info := msg.origin, aseq := msg.aseq, parts := kept ++ [(msg.part, msg.links)] }
      d.sendAdj (d.activeLinks.filter (· ≠ port.val)) msg

/-! ### Election and admission -/

/-- (PRIO, SERIAL) of a is below that of b (R482). -/
def precedes (a b : HelloMsg) : Bool := decide (a.prio < b.prio) || (a.prio == b.prio && decide (a.serial < b.serial))

/-- Every module of the store with this one, in ascending SERIAL. -/
def Dev.modules (d : Dev) (nv : NonVolatile) : List HelloMsg :=
  let insertBy (x : HelloMsg) (l : List HelloMsg) : List HelloMsg :=
    l.takeWhile (fun (y : HelloMsg) => decide (y.serial < x.serial)) ++ [x] ++
      l.dropWhile (fun (y : HelloMsg) => decide (y.serial < x.serial))
  (d.ownInfo nv :: d.topo.map (·.info)).foldl (fun l x => insertBy x l) []

/-- The module that the election chooses (R482). -/
def Dev.chooseRegistrar (d : Dev) (nv : NonVolatile) : Option HelloMsg :=
  ((d.modules nv).filter fun (m : HelloMsg) => m.prio != 255).foldl
    (fun best m => match best with
      | none => some m
      | some b => some (if precedes m b then m else b)) none

/-- SERIALs one link away from a module in the store. -/
def Dev.neighbours (d : Dev) (nv : NonVolatile) (serial : Nat) : List Nat :=
  if serial = nv.serial then d.ownLinks.map (·.partner)
  else match d.node serial with
    | some n => (n.parts.flatMap (·.2)).map (·.partner)
    | none => []

/-- First links of shortest paths in the store: each module reached with the link a path to it leaves by (R482). -/
def Dev.reach (d : Dev) (nv : NonVolatile) : Nat → List (Nat × Nat) → List Nat → List (Nat × Nat)
  | 0, found, _ => found
  | fuel + 1, found, front =>
    let fresh := front.flatMap fun m =>
      let via := ((found.find? fun (e : Nat × Nat) => e.1 == m).map (·.2)).getD 0
      ((d.neighbours nv m).filter fun n => n != nv.serial && !found.any fun (e : Nat × Nat) => e.1 == n).map fun n => (n, via)
    let step := fresh.foldl (fun (l : List (Nat × Nat)) e => if l.any fun (x : Nat × Nat) => x.1 == e.1 then l else l ++ [e]) []
    if step = [] then found else d.reach nv fuel (found ++ step) (step.map (·.1))

/-- The link by which the shortest path in the store to a module leaves. -/
def Dev.pathTo (d : Dev) (nv : NonVolatile) (serial : Nat) : Option Nat :=
  let start := d.ownLinks.foldl
    (fun (l : List (Nat × Nat)) (x : AdjLink) => if l.any fun (e : Nat × Nat) => e.1 == x.partner then l else l ++ [(x.partner, x.port)]) []
  ((d.reach nv d.topo.length start (start.map (·.1))).find? fun (e : Nat × Nat) => e.1 == serial).map (·.2)

/-- An ADMIT goes on toward the module it is for (R482). -/
def Dev.sendAdmit (d : Dev) (nv : NonVolatile) (serial id registrar : Nat) : Dev :=
  match d.pathTo nv serial with
  | some p => d.mgmt p (d.get FLL_PARTNER.FPID p) (.admitMsg [serial, id, registrar])
  | none => d

/-- A module that is admitted: its ID in SPI NOR and in RTE_MODULE_ID, and PARAMS again on every ACTIVE link (R480, R483). -/
def takeAdmit (s : State) (id registrar : Nat) : State :=
  let nv := { s.nv with moduleId := some id }
  let d := ({ s.dev with registrar := some registrar, orphaned := false }).put RTE_MODULE_ID.ID 0 id
  let d := (d.put RTE_MODULE_ID.ASSIGNED 0 1).record 0x108A { object := id }
  let d := d.when (decide (d.get CUR_START_STATUS.PHASE 0 < 2)) (·.phase 2)
  { s with nv := nv, dev := d.forEach d.activeLinks fun d p => d.sendCtl p 0x01 (d.ownParams nv p) }

/-- Another module of the store with a lower SERIAL holds a module's recorded ID (R483). -/
def idTaken (all : List HelloMsg) (m : HelloMsg) : Bool :=
  m.lastId.isSome && all.any fun (x : HelloMsg) => x.lastId == m.lastId && decide (x.serial < m.serial)

/-- IDs for the modules of the store that have none yet, in ascending SERIAL: the recorded one, or the lowest that is free (R483). -/
def assignIds (directory held : List (Nat × Nat)) : List HelloMsg → List (Nat × Nat)
  | [] => held
  | m :: r =>
    let used (i : Nat) : Bool := held.any (fun (e : Nat × Nat) => e.2 == i) || directory.any fun (e : Nat × Nat) => e.2 == i
    if held.any fun (e : Nat × Nat) => e.1 == m.serial then assignIds directory held r
    else
      match (directory.find? fun (e : Nat × Nat) => e.1 == m.serial).map (·.2) with
      | some i => assignIds directory (held ++ [(m.serial, i)]) r
      | none => match (List.range 8192).find? fun i => !used i with
        | some i => assignIds directory (held ++ [(m.serial, i)]) r
        | none => assignIds directory held r

/-- The Registrar admits every module of its store that it has not admitted (R18, R482, R483). -/
def admitAll (s : State) (directory : List (Nat × Nat)) : State :=
  let d := s.dev
  let all := d.modules s.nv
  let sound := all.filter fun m => !idTaken all m
  let ids := assignIds directory d.assigned sound
  let fresh := ids.filter fun e => !d.assigned.any fun (x : Nat × Nat) => x.1 == e.1
  let full := sound.filter fun (m : HelloMsg) => !ids.any fun (e : Nat × Nat) => e.1 == m.serial
  let d := Dev.forEach { d with assigned := ids } full fun d m => d.recordUncoded 0x10 .other { detail := leBytes 8 m.serial }
  let own := ((ids.find? fun (e : Nat × Nat) => e.1 == s.nv.serial).map (·.2)).getD d.moduleId
  let s := { s with dev := d }
  let s := if d.is RTE_MODULE_ID.ASSIGNED 0 then s else takeAdmit s own own
  let d := { s.dev with registrar := some own, orphaned := false }
  { s with dev := d.forEach (fresh.filter fun e => e.1 != s.nv.serial) fun d e => d.sendAdmit s.nv e.1 e.2 own }

/-- A module whose ID a module with a lower SERIAL holds is not admitted, and forwards nothing (R18, R483). -/
def Dev.yieldId (d : Dev) (nv : NonVolatile) : Dev :=
  if idTaken (d.modules nv) (d.ownInfo nv) && !d.conflict then
    let d := { d with conflict := true, registrar := none }
    let d := d.forEach (d.instances RTE_MRT.VALID) fun d m => d.put RTE_MRT.VALID m 0
    ((d.put RTE_MODULE_ID.ASSIGNED 0 0).phase 1).record 0x108B { object := nv.moduleId.getD 0 }
  else d

/-- The election (R482): the module that finds itself elected records it and admits the others. -/
def elect (s : State) (directory : List (Nat × Nat)) : State :=
  let d := s.dev
  match d.chooseRegistrar s.nv with
  | none => s
  | some m =>
    let d := { d with elected := some m.serial }
    if m.serial = s.nv.serial then
      let d := (d.when (!d.is CUR_START_STATUS.REGISTRAR 0) (·.record 0x1089 { detail := leBytes 8 m.serial })).put
        CUR_START_STATUS.REGISTRAR 0 1
      admitAll { s with dev := d } directory
    else { s with dev := d.put CUR_START_STATUS.REGISTRAR 0 0 }

/-- The Registrar this module knows is still in its store (R489). -/
def Dev.sitting (d : Dev) (nv : NonVolatile) : Bool :=
  match d.elected with
  | some e => e == nv.serial || (d.node e).isSome
  | none => false

/-- TOPOLOGY_SETTLED: the election, or under a sitting Registrar the admission of modules new in its store (R482, R483, R489). -/
def execTopologySettled (directory : List (Nat × Fin 8192)) (s : State) : Host.Outcome State Fault Refusal :=
  onState s fun s =>
    let s := { s with dev := s.dev.yieldId s.nv }
    let dir := directory.map fun e => (e.1, e.2.val)
    if s.dev.conflict then s
    else if s.dev.sitting s.nv then (if s.dev.elected = some s.nv.serial then admitAll s dir else s)
    else elect s dir

/-- ADMIT: sent on, or taken (R482, R483). -/
def execAdmitModule (port : Fin 512) (target : Nat) (id registrar : Fin 8192) (s : State) : Host.Outcome State Fault Refusal :=
  onState s fun s =>
    let d := s.dev
    if d.linkState port ≠ 2 then s
    else if target ≠ s.nv.serial then { s with dev := d.sendAdmit s.nv target id registrar }
    else if d.conflict then s
    else (takeAdmit s id registrar)

/-- REGISTRAR_LOST: the remaining modules elect a new one; meanwhile commands that change composition wait (R489). -/
def execRegistrarLost (s : State) : Host.Outcome State Fault Refusal :=
  onState s fun s =>
    let d := s.dev
    match d.elected with
    | none => s
    | some e =>
      if e = s.nv.serial then s
      else
        let topo := d.topo.filter fun (n : Node) => n.info.serial != e
        (elect { s with dev := { d with topo := topo, elected := none, registrar := none, orphaned := true } } s.nv.directory)

/-! ### Composition, routes and Vitrines -/

/-- COMPOSITION_LOADED: the Registrar takes the copy with the highest GEN and keeps replicas on itself and on two more modules (R484). -/
def execCompositionLoaded (gen : Nat) (homes : List (Nat × Fin 8192)) (s : State) : Host.Outcome State Fault Refusal :=
  onState s fun s =>
    let d := s.dev
    if !d.is CUR_START_STATUS.REGISTRAR 0 then s
    else if gen = 0 then { s with dev := { d with homes := [] } }
    else
      let homes := homes.map fun e => (e.1, e.2.val)
      let others := (d.modules s.nv).filter fun (m : HelloMsg) => m.serial != s.nv.serial && d.assigned.any fun (e : Nat × Nat) => e.1 == m.serial
      let insertBy (x : HelloMsg) (l : List HelloMsg) : List HelloMsg :=
        l.takeWhile (fun y => precedes y x) ++ [x] ++ l.dropWhile (fun y => precedes y x)
      let two := (others.foldl (fun l x => insertBy x l) []).take 2
      let nv := { s.nv with storeGen := gen, directory := d.assigned, storeHomes := homes }
      let d := Dev.forEach { d with homes := homes } two fun d m =>
        match (d.assigned.find? fun (e : Nat × Nat) => e.1 == m.serial).map (·.2) with
        | some i => d.tell i (.report "composition store replica" [gen])
        | none => d
      { s with nv := nv, dev := d.record 0x108C { detail := leBytes 8 gen } }

/-- One entry of the Module Route Table and its candidate group; a distance above four hops is no route (R19, R203, R204). -/
def Dev.installRoute (d : Dev) (e : RouteEntry) : Dev :=
  if e.dist.val = 0 ∨ 4 < e.dist.val ∨ e.ports = [] ∨ 16 < e.ports.length then d.put RTE_MRT.VALID e.dest 0
  else
    let d := d.forEach e.ports.zipIdx fun d (x : Fin 512 × Nat) => d.writeSlot (e.group.val * 16 + x.2) (2 ^ 31 + x.1.val)
    (((d.put RTE_MRT.DIST e.dest e.dist.val).put RTE_MRT.NCAND e.dest e.ports.length).put RTE_MRT.GROUP e.dest e.group.val).put
      RTE_MRT.VALID e.dest 1

/-- ROUTE_DISTRIBUTION (R24, R485). -/
def execRouteDistribution (entries : List RouteEntry) (sent : List (Fin 8192 × List Nat)) (s : State) :
    Host.Outcome State Fault Refusal :=
  onDev s fun d =>
    if !d.is RTE_MODULE_ID.ASSIGNED 0 then d
    else
      let d := d.when (d.is CUR_START_STATUS.REGISTRAR 0) fun d =>
        d.forEach sent fun d x => d.when (decide (x.1.val ≠ d.moduleId)) (·.tell x.1.val (.routes x.2))
      let d := d.forEach entries fun d e => d.installRoute e
      d.when (decide (d.get CUR_START_STATUS.PHASE 0 < 3)) (·.phase 3)

/-- The binding of a stored Vitrine (R487): an endpoint that has not passed Accession is bound and not presented. -/
def Dev.bindStored (d : Dev) (lv : Nat) (x : SavedBinding × RemoteEp) : Dev :=
  let b := x.1
  let here := fpidModule b.fpid == d.moduleId
  let p := fpidPort b.fpid
  let e := d.endpoint p b.ep
  let passed := if here then decide (e.accession = .passed) && e.identity == b.identity else x.2.status == Status.ok
  let y : Binding :=
    { k := b.k, fpid := b.fpid, ep := b.ep, ldId := b.ldId, share := b.share, identity := b.identity, cls := b.cls, place := x.2.place,
      presented := passed && !(here && d.contained 0 (d.contPort p b.ep)) }
  if here && e.bound.isSome then d
  else
    match d.bindSteps lv y x.2.spl (if here then e.bars else x.2.bars) with
    | .inl _ => d
    | .inr d => d

/-- Shapers, quanta and the gate list of a stored Vitrine (R487). -/
def Dev.applyStored (d : Dev) (lv : Nat) (x : StoredVitrine) : Dev :=
  let shapers := (d.vit lv).shapers
  let d := d.forEach (shapers.zip x.shapers) fun d s => (d.put WR_SHP_BURST.BURST s.1 s.2.2.1).commitShaper s.1 s.2.1 s.2.2.2
  let d := d.forEach ((d.queuesOf (d.gvh lv) (· == d.get VIT_PORT.UPORT lv)).zip x.queues) fun d q =>
    let d := d.put WR_Q_CFG.QUANTUM q.1 q.2.2
    match q.2.1.bind fun i => shapers[i]? with
    | some n => (d.put WR_Q_CFG.SHAPED q.1 1).put WR_Q_CFG.SHAPER q.1 n
    | none => d
  match x.gates with
  | none => d
  | some (base, cycle, words) => ((d.writeBank (d.pendingBank x.port) base cycle words).armGate x.port).2.recomputeGuard x.port

/-- VITRINE_RESTORE_AT_START (R487): nothing is created where the local ID or the port is in use, the handle is
reserved (R197), or a pool is short. -/
def execVitrineRestoreAtStart (lvid : Fin 1024) (vitrine : StoredVitrine) (s : State) : Host.Outcome State Fault Refusal :=
  onDev s fun d =>
    let p := vitrine.port
    let x : VitrineSetting :=
      { lvid := lvid, nvdp := vitrine.nvdp, cto := vitrine.cto, silent := vitrine.silent, slotPower := vitrine.slotPower,
        minimum := vitrine.minimum, quota := vitrine.quota, shapers := vitrine.shapers.length, channels := vitrine.channels }
    if !d.is RTE_MODULE_ID.ASSIGNED 0 ∨ !d.edgeUsable p ∨ !d.hostFacing p ∨ (d.vitrineOfPort p).isSome ∨ !d.idFree lvid ∨ !d.idAllowed lvid ∨
        (d.poolShort p x false).isSome then d
    else
      let d := (d.divide lvid vitrine.gvh p 1 x).zeroBank lvid vitrine.gvh
      let d := { d with homes := d.homes.filter (fun (e : Nat × Nat) => e.1 != vitrine.gvh) ++ [(vitrine.gvh, d.moduleId)] }
      let d := (d.forEach vitrine.bindings fun d b => d.bindStored lvid b).applyStored lvid vitrine
      (d.when (d.is PRT_PORT_STATUS.DL_ACTIVE p) (·.present lvid)).phase 4

end Sys2Proof.Machine
end

