-- ==== Sys2Proof/Machine/Registers.lean ====
section
/-! DEFINITION. Device register space, a VMF's BAR0 and a Console Engine's BAR2 as masters read and write them: places, live values, 64-bit
pairs, access codes, the Curator-only rule, locks, and what a write of each register sets off (R8 to R12, R37, R528). -/

namespace Sys2Proof.Machine

/-! ### Places -/

/-- Every register, in the order of `Reg`. -/
def allRegs : List Reg := (List.range 211).map Reg.ofNat

/-- The instance of a selected register that its select register names (R171, R196, R239, R264, R282). -/
def Dev.selected (d : Dev) (r : Reg) : Nat :=
  match r with
  | .EBR_CRD_GRANT | .EBR_CRD_AVAIL | .EBR_CRD_AUDIT | .EBR_CRD_LOST => d.get EBR_CRD_SEL.WINDOW 0
  | .BSN_Q_CFG | .BSN_Q_STATUS | .BSN_Q_SHARED => d.get BSN_Q_SEL.QUEUE 0
  | .WR_Q_CFG | .WR_Q_DRR => d.get WR_Q_SEL.QUEUE 0
  | .WR_SHP_RATE | .WR_SHP_BURST | .WR_SHP_TOKENS => d.get WR_SHP_SEL.SHAPER 0
  | .SLC_CONT_STATE | .SLC_CONT_ESEQ_LO | .SLC_CONT_ESEQ_HI => contObj (d.get SLC_CONT_SEL.SCOPE 0) (d.get SLC_CONT_SEL.ID 0)
  | _ => d.get VIT_SEL.LVID 0

/-- The instance a device-register address names of a register. -/
def Dev.instanceAt (d : Dev) (r : Reg) (addr : Nat) : Option Nat :=
  match r.place with
  | .block base stride count =>
    if addr < base then none
    else if stride = 0 then (if addr = base then some 0 else none)
    else if (addr - base) % stride = 0 ∧ (addr - base) / stride < count then some ((addr - base) / stride)
    else none
  | .selected at_ _ => if addr = at_ then some (d.selected r) else none
  | .gateEntry =>
    let off := addr - 0x803900000
    if 0x803900000 ≤ addr ∧ off / 0x800 < 1024 ∧ 0x10 ≤ off % 0x800 ∧ off % 0x800 < 0x410 ∧ off % 4 = 0 then
      some (off / 0x800 * 256 + (off % 0x800 - 0x10) / 4)
    else none
  | _ => none

/-- The register and instance a device-register address names. -/
def Dev.regAt (d : Dev) (addr : Nat) : Option (Reg × Nat) :=
  allRegs.findSome? fun r => (d.instanceAt r addr).map fun i => (r, i)

/-- The VMF register at an offset of BAR0 (R385). -/
def bar0Reg (off : Nat) : Option Reg := allRegs.find? fun r => r.place == .bar0 off

/-- The Console Engine register at an offset of BAR2 (R301). -/
def bar2Reg (off : Nat) : Option Reg := allRegs.find? fun r => r.place == .bar2 off

/-- A mailbox channel's word at an offset of BAR0 (R389). -/
def channelReg (off : Nat) : Option (Reg × Nat) :=
  if 0x1000 ≤ off ∧ off < 0x2000 then
    let c := (off - 0x1000) / 16
    match off % 16 with
    | 0 => some (.MBX_CH_PTR_LO, c)
    | 4 => some (.MBX_CH_PTR_HI, c)
    | 8 => some (.MBX_CH_STATUS, c)
    | 12 => some (.MBX_CH_CTL, c)
    | _ => none
  else none

/-- The register and instance a master's access names, if any. -/
def Dev.target (d : Dev) (master : Nat) (place : RegAt) : Option (Reg × Nat) :=
  match place with
  | .device addr => d.regAt addr
  | .bar0 off =>
    if master < 0x400 then none
    else match channelReg off with
      | some x => some x
      | none => (bar0Reg off).map fun r => (r, master - 0x400)
  | .bar2 e off => (bar2Reg off).map fun r => (r, e.val)

/-- The address a record about an access carries, and the subsystem (R279). -/
def accessAt (place : RegAt) : Nat × Nat :=
  match place with
  | .device addr => (subsystemAt addr, addr)
  | .bar0 off => (0x17, off)
  | .bar2 _ off => (0x0B, off)

/-- A record about an access (R279). -/
def Dev.accessAtRecord (d : Dev) (what master : Nat) (place : RegAt) : Dev :=
  d.accessRecord (accessAt place).1 what master (accessAt place).2

/-! ### Reading -/

/-- The registers whose high words R8 latches, low word first. -/
def pairs : List (Reg × Reg) :=
  [(.SLC_ESEQ_LO, .SLC_ESEQ_HI), (.SLC_CONT_ESEQ_LO, .SLC_CONT_ESEQ_HI), (.EBR_RAT_XLATE_LO, .EBR_RAT_XLATE_HI),
   (.EBR_RAT_PFDISC_LO, .EBR_RAT_PFDISC_HI), (.DOC_MTIMECMP_LO, .DOC_MTIMECMP_HI), (.TIM_NOW_LO, .TIM_NOW_HI),
   (.TEL_CNT_LO, .TEL_CNT_HI), (.VMF_CAT_ADDR_LO, .VMF_CAT_ADDR_HI), (.VMF_SPC_ADDR_LO, .VMF_SPC_ADDR_HI),
   (.PIN_TCUT_LO, .PIN_TCUT_HI), (.ATT_HOST_LO, .ATT_HOST_HI), (.ATT_EP_LO, .ATT_EP_HI), (.GATE_BASE_LO, .GATE_BASE_HI),
   (.MBX_CH_PTR_LO, .MBX_CH_PTR_HI)]

/-- The port of an instance whose block reads zero now (R99, R107). -/
def Dev.blockHidden (d : Dev) (r : Reg) (i : Nat) : Bool :=
  match r with
  | .PRT_PORT_CFG | .PRT_PORT_STATUS | .PRT_LTR | .PRT_PM_CFG | .PRT_EVENTS => !d.configured i
  | .FLL_LINK_STATUS | .FLL_PARTNER | .FLL_RTT | .FLL_REPLAY | .FLL_SEQ | .FLL_EVENTS => !d.fabricPort i
  | _ => false

/-- Parking slots of a Docent in use (R163). -/
def Dev.slotsUsed (d : Dev) (k : Nat) : Nat := (d.winReads.filter fun (w : WinRead) => w.master == 0x010 + k).length

/-- The queue a shaper or status register shows. -/
def Dev.drrActive (d : Dev) (q : Nat) : Bool := (d.outPort (q / 128)).drr.contains q

/-- The value a field shows (R9): the one held, or what the module makes of its state. -/
def fieldNow (s : State) (f : Fld) (i : Nat) : Nat :=
  let d := s.dev
  match f.reg, f.lo with
  | .BSN_SHARED_FREE, _ => d.sharedFree
  | .BSN_Q_STATUS, 0 => queueLen (d.queue i)
  | .BSN_Q_SHARED, _ => regionCells (d.queue i) .sharedPool
  | .BSN_PORT_USE, _ => d.rsvUsed i
  | .WR_Q_CFG, 0 => if i % 128 / 32 < 2 then 0 else d.get f i
  | .WR_Q_DRR, 31 => bitVal (d.drrActive i)
  | .WR_SHP_TOKENS, 31 => bitVal (d.shaper i).wheel.isSome
  | .WR_SHP_TOKENS, _ => ofSigned 22 (d.tokenBytes i)
  | .VIT_INFLIGHT, _ => if (d.vit i).live then d.inflight i else 0
  | .TRK_VIT_USE, 16 => if (d.vit i).live then (d.entries fun e => e.gvh == d.gvh i && e.squashed).length else 0
  | .TRK_VIT_USE, _ => if (d.vit i).live then (d.entries fun e => e.gvh == d.gvh i && !e.squashed).length else 0
  | .CUR_CMD_LOAD, 16 => d.running
  | .CUR_CMD_LOAD, _ => d.queued
  | .MBX_CH_STATUS, 16 => (d.channel i).length
  | .MBX_CH_STATUS, 0 => bitVal !(d.channel i).isEmpty
  | .DOC_CORE_STATUS, 16 => (SMap.get {} d.cores i).stb.length
  | .DOC_CORE_STATUS, 0 => d.slotsUsed i
  | .TIM_NOW_LO, _ => d.now % 2 ^ 32
  | .TIM_NOW_HI, _ => d.now / 2 ^ 32 % 2 ^ 32
  | .TEL_CNT_LO, _ => d.ctrWord (d.get TEL_CNT_SEL.WORD 0) % 2 ^ 32
  | .TEL_CNT_HI, _ => d.ctrWord (d.get TEL_CNT_SEL.WORD 0) / 2 ^ 32
  | .VMF_VERSION, _ => s.nv.image.version
  | _, _ => d.get f i

/-- A field row of a register as a field. The bits of the gate-list words that R229 requires to be zero have no access code: they are held
as written and read back (DESIGN CHOICE, log entry 104). -/
def fldOf (r : Reg) (x : FieldRow) : Fld := ⟨r, x.lo, x.width⟩

/-- The word a register shows; a WO field reads zero (R9). -/
def regWord (s : State) (r : Reg) (i : Nat) : Nat :=
  if s.dev.blockHidden r i then 0
  else (r.fields.map fun x => if x.acc = .wo then 0 else fieldNow s (fldOf r x) i % 2 ^ x.width * 2 ^ x.lo).sum

/-- A channel's PTR word as a master reads it (R389, R390): the receiver, and a Curator that is not the sender, the head notice; the sender
what it wrote last. -/
def ptrWord (d : Dev) (master : Nat) (r : Reg) (c : Nat) : Nat :=
  if d.isSender master c then (if r = .MBX_CH_PTR_LO then d.get MBX_CH_PTR_LO.PTR c else d.get MBX_CH_PTR_HI.PTR c)
  else
    let head := (d.channel c).headD 0
    if r = .MBX_CH_PTR_LO then head % 2 ^ 32 else head / 2 ^ 32 % 2 ^ 32

/-- A mailbox register of a channel. -/
def channelWord (r : Reg) : Bool := r == .MBX_CH_PTR_LO || r == .MBX_CH_PTR_HI || r == .MBX_CH_STATUS || r == .MBX_CH_CTL

/-- The word a master reads, without what the read sets off: a channel reads zero for a master that is neither its sender nor its receiver
nor the Curator (R389). -/
def wordFor (s : State) (master : Nat) (r : Reg) (i : Nat) : Nat :=
  let d := s.dev
  if channelWord r && !(d.isSender master i || d.isReceiver master i || master == 0) then 0
  else if r = .MBX_CH_PTR_LO ∨ r = .MBX_CH_PTR_HI then ptrWord d master r i
  else regWord s r i

/-- The key of a register pair's shadow: a master has one for each pair, whichever object a select register makes the pair show (R8). -/
def pairKey (lo : Reg) (i : Nat) : Nat :=
  match lo.place with
  | .selected _ _ => lo.ctorIdx
  | _ => lo.ctorIdx + 256 * i

/-- A read of a low word latches the high word into the master's shadow of the pair (R8). -/
def latch (s : State) (master key high : Nat) : State :=
  let d := s.dev
  let rest := d.shadows.filter fun (x : Nat × Nat × Nat) => !(x.1 == master && x.2.1 == key)
  { s with dev := { d with shadows := rest ++ [(master, key, high)] } }

/-- A read of a high word: the shadow, which empties, or the live word (R8). -/
def takeShadow (s : State) (master key live : Nat) : Nat × State :=
  let d := s.dev
  let mine (x : Nat × Nat × Nat) : Bool := x.1 == master && x.2.1 == key
  match d.shadows.find? mine with
  | some x => (x.2.2, { s with dev := { d with shadows := d.shadows.filter fun x => !mine x } })
  | none => (live, s)

/-- RC fields clear as they are read (R9). -/
def Dev.clearRead (d : Dev) (r : Reg) (i : Nat) : Dev :=
  d.forEach (r.fields.filter fun x => x.acc == .rc) fun d x => d.put (fldOf r x) i 0

/-- The bytes of a prefetch log entry (R169). -/
def PfLog.bytes (l : PfLog) : List Byte :=
  leBytes 8 l.ftime ++ leBytes 8 (l.addr % 2 ^ 40) ++ leBytes 2 (if l = {} then 0 else 64) ++ leBytes 1 l.entry ++ leBytes 1 l.reason ++
    leBytes 4 l.lseq ++ leBytes 8 0

/-- A word of the prefetch log ring (R169). -/
def Dev.pfLogWord (d : Dev) (off : Nat) : Nat :=
  ofLeBytes (((SMap.get {} d.pfLog (off / 32)).bytes.drop (off % 32 / 4 * 4)).take 4)

/-- A read of the prefetch log ring (R169): FTIME and ADDR are 64-bit quantities, their high words latched (R8). -/
def pfLogRead (s : State) (master off : Nat) : Nat × State :=
  let key := 255 + 256 * (off / 8)
  let word := s.dev.pfLogWord off
  if off % 32 = 0 ∨ off % 32 = 8 then (word, latch s master key (s.dev.pfLogWord (off + 4)))
  else if off % 32 = 4 ∨ off % 32 = 12 then takeShadow s master key word
  else (word, s)

/-- A 32-bit read by a master: its word, and the module after it (R8, R9). An address without a register reads zero (the model's choice, log
entry 31). -/
def busRead (s : State) (master : Nat) (place : RegAt) : Nat × State :=
  match s.dev.target master place with
  | none => match place with
    | .device addr => if 0x8020D1000 ≤ addr ∧ addr < 0x8020D3000 then pfLogRead s master (addr - 0x8020D1000) else (0, s)
    | _ => (0, s)
  | some (r, i) =>
    match pairs.find? fun p => p.1 == r || p.2 == r with
    | some (lo, hi) =>
      if r = lo then (wordFor s master r i, latch s master (pairKey lo i) (wordFor s master hi i))
      else takeShadow s master (pairKey lo i) (wordFor s master hi i)
    | none => (wordFor s master r i, { s with dev := s.dev.clearRead r i })

/-! ### Writing -/

/-- A master may write a register's fields (R37, R389, R420); of a VMF's and an engine's registers its host may. -/
def mayWrite (master : Nat) (r : Reg) (i : Nat) (place : RegAt) : Bool :=
  match place with
  | .device _ => master == 0 || ((r == .DOC_MTIMECMP_LO || r == .DOC_MTIMECMP_HI) && master == 0x010 + i)
  | _ => decide (0x400 ≤ master)

/-- A value that a field's map refuses: the field keeps its value, and the write is recorded (R528). -/
def refusedValue (r : Reg) (lo v : Nat) : Bool :=
  match r, lo with
  | .BSN_AGE_S, _ | .BSN_AGE_C, _ | .BSN_AGE_L, _ | .BSN_AGE_B, _ => v == 0 || decide (1000000 < v)
  | .BSN_PORT_WIN, 0 => v == 0 || decide (256 < v)
  | .WR_SHP_BURST, _ => v == 0 || decide (16384 < v)
  | .WR_PORT_CFG, 0 => decide (v < 2) || decide (260 < v)
  | .VIT_SQUASH_TMO, _ => decide (v < 100) || decide (100000 < v)
  | .VIT_FREEZE_TMO, _ => v == 0 || decide (60000 < v)
  | .TUN_PORT_CFG, 0 => decide (v < 2) || decide (40 < v)
  | .PD_PORT_POLICY, 0 => decide (v < 15) || decide (140 < v)
  | .VMF_CPL_TMO, _ => v == 0 || decide (50 < v)
  | .HLT_DROOP_CFG, 0 => decide (30 < v) || v % 5 != 0
  | _, _ => false

/-- A word's field. -/
def wordField (x : FieldRow) (v : Nat) : Nat := v / 2 ^ x.lo % 2 ^ x.width

/-- The fields of a register take a written word by their access codes (R9, R10, R528). -/
def Dev.writeFields (d : Dev) (master : Nat) (r : Reg) (i v : Nat) (place : RegAt) : Dev :=
  d.forEach r.fields fun d x =>
    let f := fldOf r x
    match x.acc with
    | .rw => if refusedValue r x.lo (wordField x v) then d.accessAtRecord 0x73 master place else d.put f i (wordField x v)
    | .rwl => d.put f i (wordField x v)
    | .rw1c => d.put f i (d.get f i &&& (2 ^ x.width - 1 - wordField x v))
    | _ => d

/-- A port's LR and window settings change only while it has no window, never on an internal attachment, and within R176 (R183, R184). -/
def Dev.writePortCells (d : Dev) (master : Nat) (r : Reg) (p v : Nat) (place : RegAt) : Dev :=
  if internalPort p ∨ d.dwins.any (fun (w : DWin) => w.dst == d.fpid p) then d.accessAtRecord 0x73 master place
  else
    let total := d.get BSN_RESERVED.TOTAL 0 - d.get BSN_PORT_RSV.LR p + bitsOf v 20 0
    if r = .BSN_PORT_RSV ∧ d.configured p then
      if reserveLimit < total then d.raise BSN_EVENTS.RSV_REFUSED 0 (d.portEv p)
      else ((d.setReserved total).put BSN_PORT_RSV.LR p (bitsOf v 20 0)).refreshGrant p
    else (d.writeFields master r p v place).refreshGrant p

/-- BSN_Q_CFG: a minimum that would break R176 is ignored and sets RSV_REFUSED; K is taken all the same (R196, R528). -/
def Dev.writeQueueCfg (d : Dev) (q v : Nat) : Dev :=
  let d := d.put BSN_Q_CFG.K q (bitsOf v 26 24)
  let total := d.get BSN_RESERVED.TOTAL 0 - d.get BSN_Q_CFG.MIN q + bitsOf v 20 0
  if d.configured (q / 128) ∨ internalPort (q / 128) then
    if reserveLimit < total then d.raise BSN_EVENTS.RSV_REFUSED 0 (d.portEv (q / 128))
    else (d.setReserved total).put BSN_Q_CFG.MIN q (bitsOf v 20 0)
  else d.put BSN_Q_CFG.MIN q (bitsOf v 20 0)

/-- WR_Q_CFG: no attachment of a slot 31 queue; a quantum out of range is ignored, of class S and C without a record (R222, R239). -/
def Dev.writeWeirQueue (d : Dev) (master q v : Nat) (place : RegAt) : Dev :=
  if bitOf v 31 ∧ q % 32 = 31 then d.accessAtRecord 0x73 master place
  else
    let d := (d.put WR_Q_CFG.SHAPED q (bitsOf v 31 31)).put WR_Q_CFG.SHAPER q (bitsOf v 29 16)
    let n := bitsOf v 14 0
    if q % 128 / 32 < 2 then d
    else if n = 0 ∨ 16384 < n then d.accessAtRecord 0x73 master place
    else d.put WR_Q_CFG.QUANTUM q n

/-- LNA_LANE_CFG: RATE_MAX and TEST, then what setting or clearing ENABLE sets off (R49). RATE_MAX keeps its value where 0 or 8 to 15 is
written (DESIGN CHOICE, log entry 101: no rate code, and the field map does not say what such a write does). -/
def Dev.writeLaneCfg (d : Dev) (n v : Nat) : Dev :=
  let d := d.when (decide (1 ≤ bitsOf v 11 8) && decide (bitsOf v 11 8 ≤ 7)) (·.put LNA_LANE_CFG.RATE_MAX n (bitsOf v 11 8))
  let d := d.put LNA_LANE_CFG.TEST n (bitsOf v 7 7)
  if bitOf v 0 == d.is LNA_LANE_CFG.ENABLE n then d else if bitOf v 0 then d.enableLane n else d.clearEnable n

/-- LNA_MRG_CTL (R57, R59). -/
def Dev.writeMarginCtl (d : Dev) (n v : Nat) : Dev :=
  let d := d.writeMargin n v
  let d := d.when (bitOf v 31) (·.startScan n false)
  d.when (bitOf v 30) (·.abortScan n)

/-- EF_CTL: fields, then ENABLE and DISABLE (R352, R360). -/
def Dev.writeEfCtl (d : Dev) (master n v : Nat) : Dev :=
  if bitOf v 30 then d.efDisable master n v else d.efEnable master n v

/-- PWR_PAD_HOLD: RELEASE lets go the pads of held domains (R499). -/
def Dev.writePadHold (d : Dev) (v : Nat) : Dev :=
  d.put PWR_PAD_HOLD.HELD 0 (d.get PWR_PAD_HOLD.HELD 0 &&& (31 - bitsOf v 20 16))

/-- A mailbox register of a channel is written, by the master bound for it (R389 to R392). -/
def Dev.writeChannel (d : Dev) (master : Nat) (r : Reg) (c v : Nat) : Dev :=
  match r with
  | .MBX_CH_PTR_LO => if d.isSender master c then d.put MBX_CH_PTR_LO.PTR c v else d.channelRefused master c 0
  | .MBX_CH_PTR_HI => d.writePtrHi master c v
  | .MBX_CH_STATUS =>
    if d.isSender master c then
      (d.when (bitOf v 31) (·.put MBX_CH_STATUS.ABORTED c 0)).when (bitOf v 23) (·.put MBX_CH_STATUS.REFUSED c 0)
    else d.channelRefused master c 8
  | _ => d.writePop master c v

/-- What a word written to a register by a master that may does. DOC_CORE_CTL is the Docents' (`coreCtl`); the link speed of a USB
device connected here is no part of the word written: a free value (log entry 5). -/
def Dev.writeReg (d : Dev) (master : Nat) (r : Reg) (i v : Nat) (place : RegAt) : Dev :=
  match r with
  | .LNA_LANE_CFG => d.writeLaneCfg i v
  | .LNA_TX_EQ => d.writeTaps master i (bitsOf v 3 0) (bitsOf v 12 8)
  | .LNA_BITSLIP => d.writeDelay master i (bitsOf v 7 0)
  | .LNA_MRG_CTL => d.writeMarginCtl i v
  | .BSN_PORT_RSV | .BSN_PORT_WIN => d.writePortCells master r i v place
  | .BSN_Q_CFG => d.writeQueueCfg i v
  | .RTE_GRP_SLOT => d.writeSlot i v
  | .PIN_CTL => d.writePin i v
  | .ATT_CTL => d.writeAtt i v
  | .WR_Q_CFG => d.writeWeirQueue master i v place
  | .WR_SHP_RATE => d.writeShpRate master v
  | .WR_PORT_CFG => (d.writeFields master r i v place).recomputeGuard i
  | .GATE_COUNT => d.writeGateCount master (i / 2) (i % 2) v
  | .GATE_BASE_LO | .GATE_BASE_HI | .GATE_CYCLE =>
    if d.bankActive (i / 2) (i % 2) then d.accessAtRecord 0x73 master place else d.writeFields master r i v place
  | .GATE_ENTRY =>
    if d.bankActive (i / 512) (i / 256 % 2) then d.accessAtRecord 0x73 master place else d.writeFields master r i v place
  | .EBR_RAT_BASE | .EBR_RAT_LIMIT | .EBR_RAT_ATTR | .EBR_RAT_TARGET | .EBR_RAT_XLATE_LO | .EBR_RAT_XLATE_HI =>
    (d.writeFields master r i v place).entryChanged i
  | .PRT_PM_CFG =>
    (d.writeFields master r i v place).when (d.deviceFacing i && d.is PRT_PORT_STATUS.DL_ACTIVE i) (·.sendL12Threshold i)
  | .TUN_PORT_CFG => (d.writeFields master r i v place).fitGrants i
  | .USH_OWNER_CFG => (d.writeFields master r i v place).assignOwner
  | .USH_MUD_CTL => d.draw.2.writeMudCtl v (d.draw.1 % 4)
  | .PWR_PAD_HOLD => d.writePadHold v
  | .EF_CTL => d.writeEfCtl master i v
  | .MBX_BIND => if d.is MBX_LOCK.LOCK 0 then d.accessAtRecord 0x71 master place else d.writeFields master r i v place
  | .MBX_LOCK => d.writeLock master v
  | .DOC_CORE_CTL => d
  | .TIM_SRC_CFG => d.setSource (bitsOf v 25 24) (bitsOf v 7 0)
  | .HLT_PLAN_CTL => d.writePlanCtl v
  | .VMF_EVENT_FLAGS | .VMF_EVENT_MASK => (d.writeFields master r i v place).vmfInta i
  | .TUN_CE_MODE => d.writeCeMode i v
  | .TUN_CE_SCANOUT => d.writeCeScanout i v
  | .DOC_MTIMECMP_LO | .DOC_MTIMECMP_HI => (d.writeFields master r i v place).timers
  | _ => d.writeFields master r i v place

/-- A 32-bit write by a master (R9, R37): an address without a register ignores it (log entry 31). -/
def Dev.busWrite (d : Dev) (master : Nat) (place : RegAt) (v : Nat) : Dev :=
  match d.target master place with
  | none => d
  | some (r, i) =>
    if channelWord r then d.writeChannel master r i v
    else if mayWrite master r i place then d.writeReg master r i v place
    else d.accessAtRecord 0x72 master place

/-! ### The rows -/

/-- MODULE_RESET_EVENT (R13). -/
def execModuleResetEvent (s : State) : Host.Outcome State Fault Refusal := onState s fun s => moduleReset s

/-- REG_ACCESS_BAD: no effect, and a read returns 0xFFFF_FFFF (R8). -/
def execRegAccessBad (master : Fin 2048) (place : RegAt) (load : Bool) (s : State) : Host.Outcome State Fault Refusal :=
  onDev s fun d =>
    (d.when load (·.emit (.readData master (accessAt place).2 0xFFFFFFFF))).accessAtRecord 0x70 master place

/-- A read's word is returned to the master. -/
def answerRead (master : Nat) (place : RegAt) (r : Nat × State) : State :=
  { r.2 with dev := r.2.dev.emit (.readData master (accessAt place).2 r.1) }

/-- REG_PAIR_LOW_READ (R8). -/
def execRegPairLowRead (master : Fin 2048) (place : RegAt) (s : State) : Host.Outcome State Fault Refusal :=
  onState s fun s => answerRead master place (busRead s master place)

/-- REG_PAIR_HIGH_READ (R8). -/
def execRegPairHighRead (master : Fin 2048) (place : RegAt) (s : State) : Host.Outcome State Fault Refusal :=
  onState s fun s => answerRead master place (busRead s master place)

/-- READ_CLEAR_FIELD_READ (R9). -/
def execReadClearFieldRead (master : Fin 2048) (place : RegAt) (s : State) : Host.Outcome State Fault Refusal :=
  onState s fun s => answerRead master place (busRead s master place)

end Sys2Proof.Machine
end

