-- ==== Sys2Proof/Machine/Bridge.lean ====
section
/-! DEFINITION. The edge bridges from TLP to frame and back (R111, R112, R124, R140, R143 to R149, R157, R208, R215 to R218, R243, R244, R258,
R293, R384). -/

namespace Sys2Proof.Machine

/-! ### Completions the module gives -/

/-- Bytes of a TLP with its header (R441). -/
def tlpBytes (t : Tlp) : Nat := t.header + (if t.hasData then t.bytes else 0)

/-- A completion with data for a request. -/
def completionData (t : Tlp) (data : List Byte) : Tlp :=
  { kind := .cplData, requester := t.requester, tag := t.tag, target := t.requester, completer := t.target, bytes := data.length, data := data }

/-- A read completes with a word. -/
def Dev.answerWord (d : Dev) (p : Nat) (t : Tlp) (v : Nat) : Dev := d.answer p (completionData t (leBytes 4 v))

/-- A write that is owed a completion has one. -/
def Dev.answerDone (d : Dev) (p : Nat) (t : Tlp) : Dev := d.answer p (completionFor false t.requester t.tag 0)

/-- A word of a configuration write. -/
def tlpWord (t : Tlp) : Nat := ofLeBytes (t.data.take 4)

/-- A configuration request. -/
def configKind (k : TlpKind) : Bool := k == .cfgRead || k == .cfgWrite

/-! ### Into a Vitrine -/

/-- The tracker entry a request from local port p needs (R25). -/
def Dev.need (d : Dev) (p dst gvh k : Nat) (cls : Cls) (fromHost : Bool) (b : Body) : Option Trk :=
  if bodyNonPosted b then
    some { gvh := gvh
           edge := if fpidModule dst = d.moduleId then .both else .requester
           requester := bodyRequester b
           tag := bodyTag b
           src := d.fpid p
           dst := dst
           cls := cls
           arrived := d.now
           fromHost := fromHost
           k := k
           kind := match b with
             | .tlp t => t.kind
             | .mem m => if m.write then .memWrite else .memRead
             | _ => .memRead
           mem := match b with
             | .mem _ => true
             | _ => false }
  else none

/-- A body goes from local port p to a port: steps 5 to 8 of R145. -/
def Dev.sendIn (d : Dev) (p dst gvh k : Nat) (cls : Cls) (fromHost : Bool) (b : Body) : Dev :=
  d.inject p (edgeFrame (d.fpid p) dst gvh cls b) (d.need p dst gvh k cls fromHost b)

/-- A host's requests reach the endpoint of a binding (R133, R134, R242, R251, R266). -/
def Dev.hostReaches (d : Dev) (lv : Nat) (b : Binding) : Bool :=
  let v := d.vport lv b.k
  b.presented && !b.unbinding && !v.dpcStatus && !v.linkDisable

/-- A host's TLP goes to the endpoint of a binding, or is refused. -/
def Dev.toBinding (d : Dev) (lv p : Nat) (b : Binding) (t : Tlp) : Dev :=
  if d.hostReaches lv b then d.sendIn p b.fpid (d.gvh lv) b.k b.cls true (.tlp t)
  else (d.refuse p t 1).when b.unbinding (·.stray (d.gvh lv))

/-- The binding a translation entry belongs to, else one to its port. -/
def Vit.bindingOf (v : Vit) (n fpid : Nat) : Option Binding :=
  match v.bindings.find? fun (b : Binding) => b.atts.contains n with
  | some b => some b
  | none => v.bindings.find? fun (b : Binding) => b.fpid == fpid

/-- The translation entries that hold an address of a Vitrine, lowest first (R215). -/
def Dev.attsFor (d : Dev) (lv addr : Nat) : SMap Att := d.atts.filter fun e => attHolds e.2 lv addr

/-- A locked read is refused (R157). -/
def Dev.lockRefused (d : Dev) (lv p : Nat) (t : Tlp) : Dev :=
  ((d.refuse p t 1).count (portCtr p 86) 1).raise EBR_EVENTS.LOCK_REFUSED p { d.portEv p with gvh := d.gvh lv }

/-- A locked read of a Vitrine may go to the endpoint of a binding (R157). -/
def Dev.mayLock (d : Dev) (lv p : Nat) (b : Binding) : Bool :=
  d.get PRT_PORT_CFG.KIND p == 1 && d.bindingAlone b && (fpidModule b.fpid != d.moduleId || d.lockable (fpidPort b.fpid)) &&
    (match (d.vit lv).lock with
     | some f => f == b.fpid
     | none => true)

/-- A memory request of a host that an entry translates (R157, R215). -/
def Dev.toEntry (d : Dev) (lv p n : Nat) (e : Att) (t : Tlp) : Dev :=
  let t := { t with addr := e.ep + (t.addr - e.host) }
  match (d.vit lv).bindingOf n e.fpid with
  | none => if t.kind = .memReadLocked then d.lockRefused lv p t else d.sendIn p e.fpid (d.gvh lv) 0 .l true (.tlp t)
  | some b =>
    if t.kind ≠ .memReadLocked then d.toBinding lv p b t
    else if d.mayLock lv p b then
      (d.when (d.hostReaches lv b) (·.setVit lv fun v => { v with lock := some b.fpid })).toBinding lv p b t
    else d.lockRefused lv p t

/-- A memory request of a host (R215). -/
def Dev.hostMemory (d : Dev) (lv p : Nat) (t : Tlp) : Dev :=
  match d.attsFor lv t.addr with
  | [] => (d.count (vitCtr lv 31) 1).refuse p t 1
  | e :: r =>
    (d.when (!r.isEmpty) (·.record 0x0680 { d.portEv p with gvh := d.gvh lv, addr := t.addr })).toEntry lv p e.1 e.2 t

/-- An I/O request of a host goes to the endpoint in whose window it falls (R112). -/
def Dev.hostIo (d : Dev) (lv p : Nat) (t : Tlp) : Dev :=
  let ks := (List.range (d.get VIT_PORT.NVDP lv)).filter fun k =>
    let v := d.vport lv k
    bitOf (d.cfgWord lv (2 + k) 1) 0 && decide (v.ioBase ≤ t.addr) && decide (t.addr ≤ v.ioLimit)
  match ks.head?.bind fun k => (d.vit lv).binding k with
  | some b => d.toBinding lv p b t
  | none => d.refuse p t 1

/-- A host's access to a BAR register of a bound function, which is not forwarded (R216). -/
def Dev.hostBar (d : Dev) (lv p : Nat) (b : Binding) (n : Nat) (upper wide : Bool) (t : Tlp) : Dev :=
  if t.kind = .cfgWrite then
    let (free, d) := d.draw
    let old := d.barWord b n upper wide free
    (d.writeBar lv b.k n upper wide (mergeBe old (tlpWord t) t.be)).answerDone p t
  else
    let (free, d) := d.draw
    d.answerWord p t (d.barWord b n upper wide free)

/-- A host's configuration request to the endpoint of a binding (R124, R216). -/
def Dev.hostToEndpoint (d : Dev) (lv p : Nat) (b : Binding) (t : Tlp) : Dev :=
  if !d.hostReaches lv b then (d.refuse p t 1).when b.unbinding (·.stray (d.gvh lv))
  else
    match if t.target % 256 = 0 then barAt b.atts.length (t.addr / 4) else none with
    | some (n, upper, wide) => d.hostBar lv p b n upper wide t
    | none => d.toBinding lv p b t

/-- A host's configuration request (R240 to R243). -/
def Dev.hostConfig (d : Dev) (lv p : Nat) (t : Tlp) : Dev :=
  match d.cfgTarget lv t.target with
  | .nobody => d.refuse p t 1
  | .endpoint b => d.hostToEndpoint lv p b t
  | .function f =>
    if t.kind = .cfgWrite then (d.writeFunction lv f (t.addr / 4 % 1024) (tlpWord t) t.be).answerDone p t
    else
      let (v, d) := d.readFunction lv f (t.addr / 4 % 1024)
      d.answerWord p t v

/-- A host's message that is carried (R149): ID-routed to an endpoint, or a copy to every one, which names its virtual downstream port. -/
def Dev.hostMessage (d : Dev) (lv p : Nat) (t : Tlp) : Dev :=
  let reached := (d.vit lv).bindings.filter fun (b : Binding) =>
    d.hostReaches lv b && (t.broadcast || d.vportOnBus lv (t.target / 256) == some b.k)
  d.forEach reached fun d b => d.toBinding lv p b (if t.broadcast then { t with target := b.k } else t)

/-- Unlock from a host goes to the port its Vitrine's lock is on (R149, R157, R158). -/
def Dev.hostUnlock (d : Dev) (lv p : Nat) (t : Tlp) : Dev :=
  match (d.vit lv).lock with
  | none => d
  | some f =>
    let cls := match (d.vit lv).bindings.find? fun (b : Binding) => b.fpid == f with
      | some b => b.cls
      | none => .l
    (d.setVit lv fun v => { v with lock := none }).sendIn p f (d.gvh lv) 0 cls true (.tlp t)

/-- A message the handling table does not name (R149). -/
def Dev.discardMessage (d : Dev) (p : Nat) : Dev := d.record 0x0481 (d.portEv p)

/-- A TLP from the host of a presented Vitrine, other than an access to registers in memory space (R145). -/
def Dev.hostTlp (d : Dev) (lv p : Nat) (t : Tlp) : Dev :=
  match t.kind with
  | .cfgRead | .cfgWrite => d.hostConfig lv p t
  | .ioRead | .ioWrite => d.hostIo lv p t
  | .memRead | .memWrite | .atomic | .memReadLocked => d.hostMemory lv p t
  | .cpl | .cplData | .cplLocked | .cplDataLocked => d.receiveCompletion p (.tlp t)
  | .vendorMsg | .atsMsg => d.hostMessage lv p t
  | .unlockMsg => d.hostUnlock lv p t
  | .slotPowerMsg => d
  | .pmPme | .intxMsg | .frsMsg => d.discardMessage p

/-! ### Registers in a host's memory space -/

/-- Registers a Vitrine's host reaches by memory requests: the VMF's BAR0, and the CXL component registers. -/
inductive HostRegs where
  | vmf (off : Nat)
  | component (off : Nat)
  deriving DecidableEq, Repr

/-- Base of the 64-bit memory BAR of function f. -/
def Dev.functionBar (d : Dev) (lv f : Nat) : Nat := d.cfgWord lv f 4 / 65536 * 65536 + d.cfgWord lv f 5 * 2 ^ 32

/-- The registers a host's memory address names (R241, R384): BAR0 of the VMF while Memory Space Enable is set or no translation entry holds the
address; the component registers of a Vitrine on a CXL port. -/
def Dev.hostRegs (d : Dev) (lv p addr : Nat) : Option HostRegs :=
  let vmf := d.functionBar lv 1
  let up := d.functionBar lv 0
  if vmf ≤ addr ∧ addr < vmf + 65536 ∧ ((d.vmf lv).memEnable ∨ d.attsFor lv addr = []) then some (.vmf (addr - vmf))
  else if d.is PRT_PORT_STATUS.CXL p ∧ bitOf (d.cfgWord lv 0 1) 1 ∧ up ≤ addr ∧ addr < up + 65536 then some (.component (addr - up))
  else none

/-- A host's access of one or two words to registers (R8): aligned, with every byte enabled. -/
def wordAccess (t : Tlp) : Bool :=
  (t.kind == .memRead || t.kind == .memWrite) && (t.bytes == 4 || t.bytes == 8) && t.addr % 4 == 0 && t.be % 16 == 15

/-- A host's write to BAR0 of its VMF. -/
def vmfWrite (s : State) (lv off : Nat) (t : Tlp) : State :=
  let d := s.dev.busWrite (0x400 + lv) (.bar0 off) (tlpWord t)
  { s with dev := d.when (t.bytes == 8) (·.busWrite (0x400 + lv) (.bar0 (off + 4)) (ofLeBytes ((t.data.drop 4).take 4))) }

/-- A host's read of BAR0 of its VMF: its bytes, and the module. -/
def vmfRead (s : State) (lv off bytes : Nat) : List Byte × State :=
  let (v, s) := busRead s (0x400 + lv) (.bar0 off)
  if bytes = 8 then
    let (w, s) := busRead s (0x400 + lv) (.bar0 (off + 4))
    (leBytes 4 v ++ leBytes 4 w, s)
  else (leBytes 4 v, s)

/-- A host's memory request to BAR0 of its VMF (R8, R384). -/
def vmfAccess (s : State) (lv p off : Nat) (t : Tlp) : State :=
  let d := s.dev
  let v := d.vmf lv
  if !v.memEnable || v.flr || !(t.kind == .memRead || t.kind == .memWrite) then { s with dev := d.refuse p t 1 }
  else if !wordAccess t then
    let d := d.accessAtRecord 0x70 (0x400 + lv) (.bar0 off)
    { s with dev := d.when (t.kind == .memRead) (·.answer p (completionData t (List.replicate t.bytes 255))) }
  else if t.kind = .memWrite then vmfWrite s lv off t
  else
    let (data, s) := vmfRead s lv off t.bytes
    { s with dev := s.dev.answer p (completionData t data) }

/-- A host's memory request to its CXL component registers. -/
def Dev.componentAccess (d : Dev) (lv p off : Nat) (t : Tlp) : Dev :=
  if !wordAccess t then d.refuse p t 1
  else if t.kind = .memWrite then
    (d.writeComponent lv (off / 4) (tlpWord t)).when (t.bytes == 8) (·.writeComponent lv (off / 4 + 1) (ofLeBytes ((t.data.drop 4).take 4)))
  else
    let (v, d) := d.readComponent lv (off / 4)
    if t.bytes = 8 then
      let (w, d) := d.readComponent lv (off / 4 + 1)
      d.answer p (completionData t (leBytes 4 v ++ leBytes 4 w))
    else d.answer p (completionData t (leBytes 4 v))

/-! ### Ingress -/

/-- A memory request of a kind that reaches registers. -/
def memoryKind (k : TlpKind) : Bool := k == .memRead || k == .memWrite || k == .atomic || k == .memReadLocked

/-- A TLP on an upstream port where no Vitrine is presented (R140, R142), or whose Vitrine is in RESETTING (R254). -/
def Dev.unpresented (d : Dev) (p : Nat) (t : Tlp) : Dev :=
  d.refuse p t (if configKind t.kind && !d.owesDetect.contains p then 2 else 1)

/-- A host's TLP by the state of its Vitrine (R140, R249, R254, R258). During a freeze what the module would answer by itself is not taken
until the thaw (log entry 20). -/
def hostIngress (s : State) (lv p : Nat) (t : Tlp) : State :=
  let d := s.dev
  let st := d.get VIT_STATE.STATE lv
  let onDevice (f : Dev → Dev) : State := { s with dev := f d }
  if t.kind.completion then onDevice (·.receiveCompletion p (.tlp t))
  else if d.contained 1 lv ∨ st = 1 ∨ st = 3 ∨ st = 7 then onDevice (·.unpresented p t)
  else if st = 8 then onDevice (·.refuse p t 1)
  else
    match if memoryKind t.kind then d.hostRegs lv p t.addr else none with
    | some (.vmf off) => if (d.vit lv).holding then s else vmfAccess s lv p off t
    | some (.component off) => if (d.vit lv).holding then s else onDevice (·.componentAccess lv p off t)
    | none => if (d.vit lv).holding ∧ !memoryKind t.kind then s else onDevice (·.hostTlp lv p t)

/-- Another endpoint of the Vitrine that an endpoint's request reaches directly (R217). -/
def Dev.peer (d : Dev) (b : EpBind) (addr : Nat) : Option Att :=
  match d.lvidOf b.gvh with
  | none => none
  | some lv =>
    if (d.vport lv b.k).p2pRedirect then none
    else
      match d.attsFor lv addr with
      | [] => none
      | e :: _ => match (d.vit lv).bindingOf e.1 e.2.fpid with
        | some x => if x.k = b.k ∨ !d.hostReaches lv x then none else some e.2
        | none => none

/-- The port an ID-routed message of an endpoint goes to: a peer's, else the host's (R149). Of a Vitrine on another module the peers
here are known; its upstream edge sends on what names another. -/
def Dev.messagePort (d : Dev) (b : EpBind) (t : Tlp) : Nat :=
  match d.lvidOf b.gvh with
  | none =>
    match d.endpoints.find? fun e => match e.2.bound with
      | some x => x.gvh == b.gvh && x.k != b.k && x.bus != 0 && x.bus == t.target / 256
      | none => false with
    | some e => d.fpid (e.1 / 256)
    | none => b.up
  | some lv => match (d.vportOnBus lv (t.target / 256)).bind (d.vit lv).binding with
    | some x => if x.k ≠ b.k ∧ d.hostReaches lv x then x.fpid else b.up
    | none => b.up

/-- A TLP of a bound endpoint (R145, R149, R217, R218). -/
def Dev.endpointTlp (d : Dev) (p : Nat) (b : EpBind) (t : Tlp) : Dev :=
  let t := { t with requester := d.hostId p t.requester t.ldId }
  match t.kind with
  | .memRead | .memWrite | .atomic =>
    match d.peer b t.addr with
    | some e => d.sendIn p e.fpid b.gvh b.k b.cls false (.tlp { t with addr := e.ep + (t.addr - e.host) })
    | none => d.sendIn p b.up b.gvh b.k b.cls false (.tlp t)
  | .vendorMsg | .atsMsg => d.sendIn p (d.messagePort b t) b.gvh b.k b.cls false (.tlp t)
  | .intxMsg | .pmPme => d.sendIn p b.up b.gvh b.k b.cls false (.tlp t)
  | _ => d

/-- A TLP of an endpoint that has no way into a Vitrine: Unsupported Request, or discarded. -/
def endpointMay (k : TlpKind) : Bool :=
  match k with
  | .memRead | .memWrite | .atomic | .vendorMsg | .atsMsg | .intxMsg | .pmPme => true
  | _ => false

/-- A TLP on a device-facing port or from a tunnel endpoint (R145, R217, R251). -/
def Dev.deviceIngress (d : Dev) (p : Nat) (t : Tlp) : Dev :=
  if t.kind.completion then d.receiveCompletion p (.tlp t)
  else
    match (d.selectEndpoint p t.requester t.ldId).bind fun e => (d.endpoint p e).bound with
    | none => (d.refuse p t 1).recordLimited (0x0483 + 65536 * p) (msTicks 1) 0x0483 { d.portEv p with cls := 2 }
    | some b =>
      if b.refusing then (d.refuse p t 1).stray b.gvh
      else if t.kind = .frsMsg then d
      else if t.kind = .unlockMsg ∨ t.kind = .slotPowerMsg then d.discardMessage p
      else if t.kind = .memReadLocked then
        ((d.refuse p t 1).count (portCtr p 86) 1).raise EBR_EVENTS.LOCK_REFUSED p { d.portEv p with gvh := b.gvh }
      else if endpointMay t.kind then d.endpointTlp p b t
      else d.refuse p t 1

/-- A bad ECRC is reported on the AER of the virtual port the TLP came by (R111). -/
def Dev.reportEcrc (d : Dev) (p : Nat) (t : Tlp) : Dev :=
  let d := d.count (portCtr p 71) 1
  if d.hostFacing p then
    match d.vitrineOfPort p with
    | some lv => (d.setVit lv fun v => { v with upAer := v.upAer + 1 }).count (vitCtr lv 25) 1
    | none => d
  else
    match (d.selectEndpoint p t.requester t.ldId).bind fun e => (d.endpoint p e).bound with
    | none => d
    | some b => match d.lvidOf b.gvh with
      | some lv => d.aer lv b.k 1
      | none => d.tell (fpidModule b.up) (.report "endpoint error" [b.gvh, b.k, 1])

/-- TLPs received at a port are counted (R441, R442). -/
def Dev.countIn (d : Dev) (p : Nat) (t : Tlp) : Dev :=
  let d := (d.count (portCtr p 0) (tlpBytes t)).count (portCtr p 2) 1
  match d.vitrineOfPort p with
  | some lv => (d.count (vitCtr lv 0) (tlpBytes t)).count (vitCtr lv 2) 1
  | none => d

/-- A TLP arrives at a port (R145): its ECRC checked and stripped, its header in Flit Mode form, its TLP Prefixes as OHC. -/
def ingress (s : State) (p : Nat) (t : Tlp) : State :=
  let d := s.dev
  if !(d.hostFacing p || d.deviceFacing p || p == 447) then s
  else if t.ecrc = some false then { s with dev := (d.countIn p t).reportEcrc p t }
  else
    let t := { t with ecrc := none, flit := true }
    let s := { s with dev := d.countIn p t }
    if d.hostFacing p then
      match d.vitrineOfPort p with
      | some lv => hostIngress s lv p t
      | none => { s with dev := s.dev.unpresented p t }
    else { s with dev := s.dev.deviceIngress p t }

/-- TLP_INGRESS (R145). -/
def execTlpIngress (port : Fin 512) (t : Tlp) (s : State) : Host.Outcome State Fault Refusal := onState s fun s => ingress s port t

/-- ENDPOINT_FLR: an FLR a host writes to a function of a bound endpoint is forwarded as a configuration write (R124). -/
def execEndpointFlr (port : Fin 512) (t : Tlp) (s : State) : Host.Outcome State Fault Refusal :=
  onDev s fun d =>
    let p := port.val
    match d.vitrineOfPort p with
    | none => d
    | some lv =>
      if d.get VIT_STATE.STATE lv ≠ 2 then d
      else match d.cfgTarget lv t.target with
        | .endpoint b => d.toBinding lv p b { t with kind := .cfgWrite }
        | _ => d

/-! ### CXL.mem -/

/-- The decoder that claims an address, the virtual port its interleave selects, and the address passed on (R244). -/
def hdmSelect (hs : List Hdm) (addr : Nat) : Option (Nat × Nat) :=
  match hs.find? fun (h : Hdm) => h.enabled && decide (h.base ≤ addr) && decide (addr < h.base + h.size) with
  | none => none
  | some h =>
    let off := addr - h.base
    (h.targets[off / h.gran % h.ways]?).map fun k => (k, off / (h.gran * h.ways) * h.gran + off % h.gran)

/-- The endpoint of a binding takes CXL.mem (R114, R116, R244): one on a port that runs it. -/
def Dev.takesMem (d : Dev) (b : Binding) : Bool := (d.placeAt b).cxl

/-- A CXL.mem request of a host (R116, R244). -/
def Dev.hostMem (d : Dev) (lv p : Nat) (m : MemMsg) : Dev :=
  let d := d.count (vitCtr lv (if m.write then 33 else 32)) 1
  let st := d.get VIT_STATE.STATE lv
  if d.contained 1 lv ∨ st < 2 ∨ st = 3 ∨ 7 ≤ st then d.refuseMem p m
  else
    match (hdmSelect (d.vit lv).hdm m.addr).bind fun x => ((d.vit lv).binding x.1).map fun b => (b, x.2) with
    | none => d.refuseMem p m
    | some (b, addr) =>
      if d.hostReaches lv b ∧ d.takesMem b then
        d.sendIn p b.fpid (d.gvh lv) b.k b.cls true (.mem { m with addr := addr, ldId := b.ldId.getD 0 })
      else (d.refuseMem p m).when b.unbinding (·.stray (d.gvh lv))

/-- CXL_MEM_REQUEST (R244); a message from a device-facing port is a completion (R150). -/
def execCxlMemRequest (port : Fin 512) (m : MemMsg) (s : State) : Host.Outcome State Fault Refusal :=
  onDev s fun d =>
    let p := port.val
    if d.hostFacing p then
      if m.response then d
      else match d.vitrineOfPort p with
        | some lv => d.hostMem lv p m
        | none => d.refuseMem p m
    else if m.response then d.receiveCompletion p (.mem m) else d

/-! ### Egress: sequence and poison -/

/-- The destination edge checks a frame's FSEQ: whether it is delivered, and the module (R208). -/
def Dev.flowCheck (d : Dev) (p : Nat) (f : Frame) : Bool × Dev :=
  match d.dwin f.src f.dst with
  | none => (true, d)
  | some w =>
    let c := f.cls.code
    let took (d : Dev) : Dev := d.setDwin f.src f.dst fun w => { w with expect := w.expect.set c (some ((f.fseq + 1) % 65536)) }
    match w.expect.getD c none with
    | none => (true, took d)
    | some e =>
      let gap := (f.fseq + 65536 - e % 65536) % 65536
      if 32768 ≤ gap then
        (false, (d.count (portCtr p 59) 1).raiseLimited RTE_EVENTS.ORDER_DISCARD 0 p { d.portEv p with gvh := f.gvh, object := f.src })
      else if gap = 0 then (true, took d)
      else
        (true, ((took d).count (portCtr p 58) gap).raiseLimited RTE_EVENTS.FLOW_GAP 0 p
          { d.portEv p with gvh := f.gvh, object := f.src, count := gap })

/-- A body carries data that can be marked poisoned. -/
def bodyData (b : Body) : Bool :=
  match b with
  | .tlp t => t.hasData
  | .mem m => m.withData
  | _ => true

/-- The entry of a request whose both edges are this module, as its frame names it (R25). -/
def Dev.ownEntry (d : Dev) (f : Frame) : Option (Nat × Trk) :=
  d.trk.find? fun e => e.2.edge == .both && e.2.src == f.src && e.2.dst == f.dst && e.2.gvh == f.gvh &&
    e.2.requester == bodyRequester f.body && e.2.tag == bodyTag f.body

/-- A completion without success for the request a frame carries, as a body toward its requester. -/
def refusalFor (b : Body) (status : Nat) : Body :=
  match b with
  | .tlp t => .tlp (completionFor (t.kind == .memReadLocked) t.requester t.tag status)
  | .mem m => .mem { m with response := true, withData := !m.write, poison := true }
  | b => b

/-- A poisoned frame without data: discarded and recorded; a request completes with Completer Abort at its requester edge (R148). -/
def Dev.poisonNoData (d : Dev) (p : Nat) (f : Frame) : Dev :=
  let d := d.record 0x0482 { d.portEv p with gvh := f.gvh, object := f.src }
  if !bodyNonPosted f.body then d
  else match d.ownEntry f with
    | some (h, e) => ((d.freeEntry h).when (!e.squashed) (·.answerEntry e 4)).retryHeld
    | none => d.inject p (edgeFrame (d.fpid p) f.src f.gvh f.cls (refusalFor f.body 4)) none

/-! ### Egress: requests -/

/-- A frame's age at its injection (R199, R273). -/
def Dev.sinceInjection (d : Dev) (f : Frame) : Nat := (d.now + 2 ^ 32 - f.itime % 2 ^ 32) % 2 ^ 32

/-- A non-posted request takes its substituted tag toward port p: its own module's entry has it, one from another module takes an entry here
(R25, R147, R273). -/
def Dev.takeTag (d : Dev) (p : Nat) (f : Frame) (cto : Nat) : Nat × Dev :=
  match d.ownEntry f with
  | some (_, e) => (e.subTag, d)
  | none =>
    let tag := d.freeTag p
    let e : Trk :=
      { gvh := f.gvh
        edge := .completer
        requester := bodyRequester f.body
        tag := bodyTag f.body
        subTag := tag
        src := f.src
        dst := f.dst
        deadline := some (d.now - d.sinceInjection f + d.ctoOf f.gvh cto)
        cls := f.cls
        arrived := d.now
        fromHost := !d.hostFacing p
        kind := match f.body with
          | .tlp t => t.kind
          | _ => .memRead
        mem := match f.body with
          | .mem _ => true
          | _ => false }
    (tag, (d.takeEntry e).2)

/-- TLPs sent at a port are counted (R441, R442). -/
def Dev.countOut (d : Dev) (p : Nat) (t : Tlp) : Dev :=
  let d := (d.count (portCtr p 1) (tlpBytes t)).count (portCtr p 3) 1
  match d.vitrineOfPort p with
  | some lv => (d.count (vitCtr lv 1) (tlpBytes t)).count (vitCtr lv 3) 1
  | none => d

/-- A TLP is sent on the link of port p, toward endpoint e of it if it has one (R147). -/
def Dev.sendTlp (d : Dev) (p : Nat) (e : Option Nat) (t : Tlp) : Dev := (d.countOut p t).linkTlp p e t

/-- The endpoint of port p that a frame's body is for: by its bus, by its BARs, else the first its Vitrine, or a window access, finds
(R115, R218, R293). -/
def Dev.endpointFor (d : Dev) (p gvh : Nat) (b : Body) : Option Nat :=
  let own := (d.endpointsOf p).filter fun e => gvh == gvhWindow || (match (d.endpoint p e).bound with
    | some x => x.gvh == gvh
    | none => false)
  match b with
  | .tlp t =>
    if t.kind = .cfgRead ∨ t.kind = .cfgWrite ∨ t.kind.completion ∨ ((t.kind = .vendorMsg ∨ t.kind = .atsMsg) ∧ !t.broadcast) then
      if gvh = gvhWindow then own.head?
      else own.find? fun e => match (d.endpoint p e).bound with
        | some x => x.bus == (if t.kind.completion then t.requester else t.target) / 256 % 256
        | none => false
    else if t.broadcast then
      own.find? fun e => match (d.endpoint p e).bound with
        | some x => x.k == t.target
        | none => false
    else
      match own.find? fun e => (d.endpoint p e).bars.any fun r => decide (r.2 ≤ t.addr) && decide (t.addr < r.2 + 2 ^ r.1) with
      | some e => some e
      | none => own.head?
  | .mem m => own.find? fun e => match (d.endpoint p e).ldId with
    | some l => l == m.ldId
    | none => true
  | _ => none

/-- The completion timeout code an endpoint's binding gives its module (R129). -/
def Dev.ctoAt (d : Dev) (p e : Nat) : Nat :=
  match (d.endpoint p e).bound with
  | some b => b.cto
  | none => 0

/-- A TLP as the endpoint's link carries it: its target ID and LD-ID (R147, R218). -/
def Dev.forEndpoint (d : Dev) (p e : Nat) (t : Tlp) : Tlp :=
  { t with target := if t.broadcast then 0 else d.endpointId p e t.target, ldId := ((d.endpoint p e).ldId).getD 0 }

/-! ### Egress: Console Engines -/

/-- Completion of a request to a Console Engine: the data, or a status without data. -/
def engineAnswer (t : Tlp) (r : Nat ⊕ List Byte) : Tlp :=
  match r with
  | .inl status => completionFor false t.requester t.tag status
  | .inr data => completionData t data

/-- A configuration word of a Console Engine (R295). -/
def engineHeader (w free : Nat) : Nat :=
  if w = 0 then Config.vendorId % 65536 + 0x5123 * 65536
  else if w = 2 then free % 256 + 0x038000 * 256
  else if w = 3 then withFree free 0x00FF0000 0
  else free % 2 ^ 32

/-- A memory request at an address of the hub's space that a Console Engine holds (R293, R295, R301): its completion, if one is owed, and the
module. -/
def engineMemory (s : State) (n : Nat) (t : Tlp) : Option (Nat ⊕ List Byte) × State :=
  let fb := ddrBase + regionConsole.1 + n * 0x4000000
  let master := 0x400
  if engineBar0 n ≤ t.addr ∧ t.addr + t.bytes ≤ engineBar0 n + 0x4000000 then
    let a := fb + (t.addr - engineBar0 n)
    if t.kind = .memWrite then (none, s.store none a (t.data.take t.bytes))
    else if t.kind = .memRead then (some (.inr (readBytes s.mem a t.bytes)), s)
    else (some (.inl 1), s)
  else if engineBar2 n ≤ t.addr ∧ t.addr + t.bytes ≤ engineBar2 n + 0x4000 ∧ wordAccess t then
    let off := t.addr - engineBar2 n
    let place (i : Nat) : RegAt := .bar2 (Fin.ofNat 64 n) (off + 4 * i)
    let words := t.bytes / 4
    if t.kind = .memWrite then
      (none, { s with dev := s.dev.forEach (List.range words) fun d i => d.busWrite master (place i) (ofLeBytes ((t.data.drop (4 * i)).take 4)) })
    else
      (List.range words).foldl (fun x i =>
        match busRead x.2 master (place i) with
        | (v, s) => (match x.1 with
            | some (.inr bs) => some (.inr (bs ++ leBytes 4 v))
            | r => r, s)) (some (.inr []), s)
  else if engineBar2 n ≤ t.addr ∧ t.addr < engineBar2 n + 0x4000 ∧ (t.kind = .memRead ∨ t.kind = .memWrite) then
    (if t.kind = .memRead then some (.inr (List.replicate t.bytes 255)) else none,
      { s with dev := s.dev.accessAtRecord 0x70 master (.bar2 (Fin.ofNat 64 n) (t.addr - engineBar2 n)) })
  else (if t.kind.nonPosted then some (.inl 1) else none, s)

/-- A request to Console Engine n, under its substituted tag (R295). -/
def engineRequest (s : State) (n : Nat) (t : Tlp) : State :=
  let done (s : State) (r : Nat ⊕ List Byte) : State := { s with dev := s.dev.takeCompletion 447 (.tlp (engineAnswer t r)) }
  match t.kind with
  | .cfgRead =>
    let (free, d) := s.dev.draw
    done { s with dev := d } (.inr (leBytes 4 (engineHeader (t.addr / 4) free)))
  | .cfgWrite =>
    let flr := capAt 3 (t.addr / 4) .deviceControl && bitOf t.be 1 && bitOf (tlpWord t) 15
    done { s with dev := s.dev.when flr (·.resetEngine n) } (.inl 0)
  | .ioRead | .ioWrite | .memReadLocked => done s (.inl 1)
  | _ =>
    match engineMemory s n t with
    | (some r, s) => done s r
    | (none, s) => s

/-! ### Egress -/

/-- A TLP request or message goes to an endpoint of a device-facing port or of port 447 (R118, R122, R147, R158). -/
def endpointEgress (s : State) (p : Nat) (f : Frame) (t : Tlp) : State :=
  let s := { s with dev := s.dev.applyPending p }
  let d := s.dev
  match d.endpointFor p f.gvh f.body with
  | none =>
    if t.kind.nonPosted then
      let (tag, d) := d.takeTag p f 0
      { s with dev := d.takeCompletion p (.tlp (completionFor (t.kind == .memReadLocked) t.requester tag 1)) }
    else s
  | some e =>
    let (tag, d) := if t.kind.nonPosted then d.takeTag p f (d.ctoAt p e) else (t.tag, d)
    let x := d.forEndpoint p e { t with tag := tag, ep := f.poison }
    match engineOf p e with
    | some n => engineRequest { s with dev := d } n { t with tag := tag }
    | none =>
      { s with dev :=
          if configKind t.kind && (d.endpoint p e).awaitDrs then
            d.takeCompletion p (.tlp (completionFor false t.requester tag 2))
          else if t.kind = .memReadLocked then (d.countOut p x).takeMrdlk p f.src f.gvh f.cls x
          else d.sendTlp p (some e) x }

/-- The binding of another endpoint that an ID-routed message from an endpoint names, at its Vitrine's upstream edge (R149). -/
def Dev.peerOf (d : Dev) (p : Nat) (f : Frame) (t : Tlp) : Option Binding :=
  if !(t.kind == .vendorMsg || t.kind == .atsMsg) || t.broadcast then none
  else
    (d.vitrineOfPort p).bind fun lv => ((d.vportOnBus lv (t.target / 256)).bind (d.vit lv).binding).bind fun b =>
      if d.hostReaches lv b && b.fpid != f.src then some b else none

/-- A request or message of an endpoint leaves toward a host (R127, R147, R149). -/
def Dev.hostEgress (d : Dev) (p : Nat) (f : Frame) (t : Tlp) : Dev :=
  if t.kind = .intxMsg then
    match d.lvidOf f.gvh with
    | some lv => match d.vportOnBus lv (t.requester / 256) with
      | some k => d.takeIntx lv k (t.requester % 256) (t.addr % 4) (decide (4 ≤ t.addr))
      | none => d
    | none => d
  else if !t.kind.nonPosted && (d.peerOf p f t).isSome then
    match d.peerOf p f t with
    | some b => d.sendIn p b.fpid f.gvh b.k f.cls false (.tlp t)
    | none => d
  else
    let (tag, d) := if t.kind.nonPosted then d.takeTag p f 0 else (t.tag, d)
    d.sendTlp p none { t with tag := tag, ep := f.poison }

/-- The entry of a request from port p that a completion from another module ends (R25, R257). -/
def Dev.requesterEntry (d : Dev) (p : Nat) (f : Frame) : Option (Nat × Trk) :=
  d.trk.find? fun e => e.2.edge == .requester && e.2.src == d.fpid p && e.2.dst == f.src && e.2.gvh == f.gvh &&
    e.2.requester == bodyRequester f.body && e.2.tag == bodyTag f.body

/-- A completion of a window request ends its access (R164, R167, R168); poisoned data acts as an error completion (log entry 41). -/
def Dev.windowEnds (d : Dev) (poison : Bool) (t : Tlp) : Dev :=
  let read := d.winReads.any (fun (r : WinRead) => r.tag == some t.tag) || d.winFetches.any fun (x : WinFetch) => x.tag == t.tag
  if t.status ≠ 0 ∨ (poison ∧ read) then d.windowError t.tag (!read) t.requester
  else if t.kind = .cplData then d.windowData t.tag t.data
  else d

/-- A completion reaches its requester edge's link, or the window bridge (R25, R147, R218). -/
def Dev.deliverCompletion (d : Dev) (p : Nat) (f : Frame) : Dev :=
  match f.body with
  | .mem m => d.emit (.mem p { m with poison := f.poison })
  | .tlp t =>
    if p = 511 then d.windowEnds f.poison t
    else
      let d := d.when (t.kind == .cplLocked) fun d => match d.vitrineOfPort p with
        | some lv => d.setVit lv fun v => { v with lock := none }
        | none => d
      let d := match d.vitrineOfPort p with
        | some lv => d.count (vitCtr lv 5) 1
        | none => d
      let id := d.localId p f.gvh t.requester
      d.sendTlp p (d.selectEndpoint p id t.ldId) { t with requester := id, ep := f.poison }
  | _ => d

/-- A completion leaves at its requester edge: of this module's own requests the entry went with the completion's arrival; another module's
completion must meet one (R25, R253, R275, R276). -/
def Dev.completionEgress (d : Dev) (p : Nat) (f : Frame) : Dev :=
  if fpidModule f.src = d.moduleId then d.deliverCompletion p f
  else
    match d.requesterEntry p f with
    | none => d.strayFrame p f.src f.gvh f.body
    | some (h, e) =>
      if e.squashed then ((d.freeEntry h).dropSquashed f.gvh).retryHeld
      else ((d.when (bodyFinal f.body) (·.freeEntry h)).deliverCompletion p f).retryHeld

/-- A CXL.mem request leaves toward its logical device (R147, R150); one unbound or removed meanwhile is answered as R116 says. -/
def Dev.memEgress (d : Dev) (p : Nat) (f : Frame) (m : MemMsg) : Dev :=
  match d.endpointFor p f.gvh f.body with
  | none =>
    match d.ownEntry f with
    | some (h, e) => ((d.freeEntry h).when (!e.squashed) (·.answerEntry e 1)).retryHeld
    | none => d.when (!m.write) (·.inject p (edgeFrame (d.fpid p) f.src f.gvh f.cls (refusalFor f.body 1)) none)
  | some e =>
    let (tag, d) := d.takeTag p f (d.ctoAt p e)
    d.emit (.mem p { m with tag := tag, ldId := ((d.endpoint p e).ldId).getD 0, poison := f.poison })

/-- A frame is rebuilt at its destination edge (R147). -/
def deliverFrame (s : State) (p : Nat) (f : Frame) : State :=
  let d := s.dev
  if bodyCompletion f.body then { s with dev := d.completionEgress p f }
  else
    match f.body with
    | .mem m => { s with dev := d.memEgress p f m }
    | .tlp t =>
      if d.hostFacing p then { s with dev := d.hostEgress p f t }
      else if t.kind = .unlockMsg then { s with dev := d.takeUnlock p f.gvh }
      else endpointEgress s p f t
    | _ => s

/-- The first frame that leaves at port p, but for requests its lock blocks (R159), is taken: checked in its flow, and rebuilt unless it is poisoned without data (R147, R148, R208). -/
def egress (s : State) (p : Nat) : State :=
  if s.dev.halted then s else
  match s.dev.egress.find? fun x => x.1 == p && !s.dev.lockBlocks p x.2 with
  | none => s
  | some x =>
    match Dev.flowCheck { s.dev with egress := s.dev.egress.erase x } p x.2 with
    | (false, d) => { s with dev := d }
    | (true, d) =>
      if x.2.poison && !bodyData x.2.body then { s with dev := d.poisonNoData p x.2 } else deliverFrame { s with dev := d } p x.2

/-- TLP_EGRESS: the oldest frame that leaves at the port (R147). -/
def execTlpEgress (port : Fin 512) (s : State) : Host.Outcome State Fault Refusal := onState s fun s => egress s port

end Sys2Proof.Machine
end

