-- ==== Sys2Proof/Machine/Docents.lean ====
section
/-! DEFINITION. The Docent cores as the module sees them: their address map, store buffers, fences, reservations and resets, and the loads and
stores of the fabric window (R32, R161 to R170, R402 to R420), and register writes, which start and reset them. -/

namespace Sys2Proof.Machine

/-! ### The address map -/

/-- An address of cached memory (R406). -/
def cachedAt (addr : Nat) : Bool := decide (addr < 0x100000) || (decide (ddrBase ≤ addr) && decide (addr < ddrBase + 0xE00000000))

/-- An access of n bytes, 0 fetch, 1 load, 2 store, that the map or R32 does not allow, with whether it is recorded (R32, R404, R406). A fetch
from a region that only loads may read is refused by R406 and makes no record (DEDUCED, log entry 123). -/
def docentRefuses (addr n kind : Nat) : Option Bool :=
  if addr + n ≤ 0x100000 then (if kind = 2 ∧ addr < 0x1000 then some false else none)
  else if 0x800000000 ≤ addr ∧ addr + n ≤ ddrBase ∨ windowBase ≤ addr ∧ addr + n ≤ windowBase + windowSize then
    if kind = 0 then some false else none
  else if ddrBase ≤ addr ∧ addr + n ≤ ddrBase + 0xE00000000 then
    let off := addr - ddrBase
    let readable := inRegion regionEventLog off n || inRegion regionCatalogue off n || inRegion regionSpecimen off n
    if inRegion regionDocent off n then none
    else if readable ∧ kind = 1 then none
    else some !(readable && kind == 0)
  else some false

/-- The RISC-V cause of an access fault by kind of access. -/
def faultCause (kind : Nat) : Nat := if kind = 0 then 1 else if kind = 1 then 5 else 7

/-- A Docent's access is refused (R32, R406). -/
def Dev.refuseAccess (d : Dev) (k addr kind : Nat) (recorded : Bool) : Dev :=
  if recorded then d.coreFault 0x11 (0x010 + k) (faultCause kind) addr else d.coreTrap (0x010 + k) (faultCause kind) addr

/-- A core executes instructions: it runs, and no FENCE or WFI waits (R413). -/
def Dev.coreRuns (d : Dev) (k : Nat) : Bool := d.get DOC_CORE_STATUS.STATE k == 1 && !(d.core k).fence && !(d.core k).wfi

/-- Another core defers probes of a line now (R416). -/
def Dev.lineHeld (d : Dev) (k line : Nat) : Bool :=
  (List.range 16).any fun j =>
    j != k && (d.core j).reserved == some line && (match (d.core j).holdUntil with
      | some t => decide (d.now < t)
      | none => false)

/-! ### The store buffer -/

/-- Bytes written into an entry from an offset on (R410). -/
def mergeBytes (m : SMap Byte) (off : Nat) (bs : List Byte) : SMap Byte :=
  match bs with
  | [] => m
  | b :: r => mergeBytes (SMap.insert (SMap.erase m off) off b) (off + 1) r

/-- A store merges into its line's entry or takes a new one (R409). -/
def Core.put (c : Core) (addr : Nat) (data : List Byte) (entry : Nat) : Core :=
  let line := addr / 64
  if c.stb.any fun e => e.line == line then
    { c with stb := c.stb.map fun e =>
        if e.line = line then { e with bytes := mergeBytes e.bytes (addr % 64) data, entry := entry } else e }
  else { c with stb := c.stb ++ [{ line := line, bytes := mergeBytes [] (addr % 64) data, entry := entry }] }

/-- A store enters the buffer, or waits while its 16 entries are in use (R409). -/
def Dev.bufferStore (d : Dev) (k addr : Nat) (data : List Byte) (entry : Nat) : Dev :=
  let c := d.core k
  if 16 ≤ c.stb.length ∧ !(c.stb.any fun e => e.line == addr / 64) then d
  else d.setCore k fun c => c.put addr data entry

/-- The words of an entry in ascending order: offset, value, bytes written (R410). -/
def StbEntry.words (e : StbEntry) : List (Nat × Nat × Nat) :=
  (List.range 16).filterMap fun w =>
    let at_ (b : Nat) : Option Byte := SMap.find e.bytes (w * 4 + b)
    let be := ((List.range 4).map fun b => if (at_ b).isSome then 2 ^ b else 0).sum
    if be = 0 then none else some (w * 4, ofLeBytes ((List.range 4).map fun b => (at_ b).getD 0), be)

/-- An entry leaves by its path: into memory, to the registers, or to the bridge (R409, R410). -/
def deliverEntry (k : Nat) (s : State) (e : StbEntry) : State :=
  let addr := e.line * 64
  let s : State := { s with dev := s.dev.setCore k fun c => { c with stb := c.stb.filter fun x => x.line != e.line } }
  if cachedAt addr then e.bytes.foldl (fun s b => s.store (some k) (addr + b.1) [b.2]) s
  else if addr < windowBase then
    { s with dev := s.dev.forEach e.words fun d w => d.busWrite (0x010 + k) (.device (addr + w.1)) w.2.1 }
  else
    let ws : List WinStore := e.words.map fun w =>
      { master := 0x010 + k, entry := e.entry, addr := addr - windowBase + w.1, value := w.2.1, be := w.2.2 }
    { s with dev := { s.dev with winStores := s.dev.winStores ++ ws } }

/-! ### The bridge's requests -/

/-- The lowest tag that no window request uses. -/
def Dev.windowTag (d : Dev) : Nat :=
  let used (t : Nat) : Bool :=
    (d.winReads.any fun (r : WinRead) => r.tag == some t) || (d.winFetches.any fun (f : WinFetch) => f.tag == t) ||
      (d.trk.any fun e => e.2.gvh == gvhWindow && e.2.edge != .completer && e.2.tag == t) ||
      d.heldTlps.any fun (h : HeldTlp) => match h.need with
        | some e => e.gvh == gvhWindow && e.tag == t
        | none => false
  ((List.range (d.winReads.length + d.winFetches.length + d.trk.length + d.heldTlps.length + 1)).find? fun t => !used t).getD 0

/-- The TLP of a window access (R161): a memory access at the translated address, or a configuration access of a function. Its requester ID is
the master ID (log entry 35). -/
def Dev.windowTlp (d : Dev) (master entry off bytes tag : Nat) (store : Option (Nat × Nat)) : Tlp :=
  let cfg := d.ratCfg entry
  { kind := match cfg, store with
      | true, none => .cfgRead
      | true, some _ => .cfgWrite
      | false, none => .memRead
      | false, some _ => .memWrite
    addr := if cfg then off % 4096 else d.ratAddress entry off
    target := if cfg then off / 4096 - d.get EBR_RAT_BASE.BASE_PG entry else 0
    requester := master
    tag := tag
    bytes := bytes
    be := (store.map (·.2)).getD 15
    data := match store with
      | some (v, _) => leBytes 4 v
      | none => [] }

/-- The frame of a window access: class L (log entry 35), handle 0x7F_FFFE (R162). -/
def Dev.windowFrame (d : Dev) (entry : Nat) (t : Tlp) : Frame := edgeFrame (d.fpid 511) (d.ratTarget entry) gvhWindow .l (.tlp t)

/-- The tracker entry of a window request (R25). -/
def Dev.windowEntry (d : Dev) (f : Frame) (t : Tlp) : Trk :=
  { gvh := gvhWindow
    edge := if fpidModule f.dst = d.moduleId then .both else .requester
    requester := t.requester
    tag := t.tag
    src := f.src
    dst := f.dst
    cls := .l
    arrived := d.now
    fromHost := false
    kind := t.kind }

/-- A read of the window is sent. -/
def Dev.sendRead (d : Dev) (master entry off bytes tag : Nat) : Dev :=
  let t := d.windowTlp master entry off bytes tag none
  let f := d.windowFrame entry t
  d.inject 511 f (some (d.windowEntry f t))

/-- A store at the bridge is accepted with its credits, or discarded toward a contained port; none when it waits (R168, R414). A line it writes
leaves the cache (R165). -/
def Dev.acceptStore (d : Dev) (w : WinStore) : Option Dev :=
  if d.windowContained (d.ratTarget w.entry) then some (d.discardStore w)
  else
    let t := d.windowTlp w.master w.entry w.addr 4 d.windowTag (some (w.value, w.be))
    let f := d.windowFrame w.entry t
    if !d.canInject f then none
    else
      let held : HeldTlp := { port := 511, frame := f, arrived := d.now, need := if t.kind.nonPosted then some (d.windowEntry f t) else none }
      (d.takeNeed held).map fun x => (x.2.injectFrame 511 f x.1.handle 0).dropLines (fun l => l.line == w.addr / 64) 3

/-- A master's stores are accepted in their order until one waits; those that wait, and the module. -/
def Dev.acceptFrom (d : Dev) (ws : List WinStore) : List WinStore × Dev :=
  match ws with
  | [] => ([], d)
  | w :: r => match d.acceptStore w with
    | some d => d.acceptFrom r
    | none => (w :: r, d)

/-! ### Start and reset -/

/-- A core is reset (R418): its buffer drains where that takes no wait, the rest is discarded; its reservation, its parking slots and its
channels go. What 1 µs may still drain is what drains at once (log entry 36). -/
def resetCore (s : State) (k : Nat) : State :=
  let master := 0x010 + k
  let s := (s.dev.core k).stb.foldl (deliverEntry k) s
  let mine (w : WinStore) : Bool := w.master == master
  let (left, d) := s.dev.acceptFrom (s.dev.winStores.filter mine)
  let d := { d with winStores := d.winStores.filter fun w => !mine w
                    winReads := d.winReads.filter fun (r : WinRead) => r.master != master }
  let n := ((left.map fun (w : WinStore) => w.addr / 64).eraseDups).length
  let d := d.when (n != 0) fun d =>
    ((d.bump DOC_STB_DISCARD.ENTRIES k n).count (modCtr 1538 (2 + k)) n).raise DOC_EVENTS.STB_DISCARD k { object := master, count := n }
  let d := d.setCore k fun c => { timer := c.timer }
  { s with dev := d.abortMaster master 4 }

/-- DOC_CORE_CTL of core k takes a word (R404, R418, R420). A core without power restarts at wake (R419). -/
def coreCtl (s : State) (k v : Nat) : State :=
  let old := s.dev.is DOC_CORE_CTL.RUN k
  let run := bitOf v 31
  let again := bitOf v 30
  let s := if old && (!run || again) || again then resetCore s k else s
  let d := s.dev.mark DOC_CORE_CTL.RUN k run
  let d :=
    if !run then d.put DOC_CORE_STATUS.STATE k 0
    else if (!old || again) && d.get DOC_CORE_STATUS.STATE k != 4 then
      (d.put DOC_CORE_STATUS.STATE k 1).emit (.signal "docent starts at" [k, 0])
    else d
  { s with dev := d }

/-- A word written to a register by a master, with what it does to a core (R37, R420). -/
def storeReg (s : State) (master : Nat) (place : RegAt) (v : Nat) : State :=
  match s.dev.target master place with
  | some (.DOC_CORE_CTL, k) =>
    if master = 0 then coreCtl s k v else { s with dev := s.dev.busWrite master place v }
  | _ => { s with dev := s.dev.busWrite master place v }

/-- Where DOC_CORE_CTL of core k stands (R420). -/
def coreCtlAt (k : Nat) : RegAt := .device (0x809000000 + k * 0x20)

/-- DOC_CORE_RUN_SET (R404). -/
def execDocCoreRunSet (master : Fin 2048) (core : Fin 16) (value : Word) (s : State) : Host.Outcome State Fault Refusal :=
  onState s fun s => storeReg s master (coreCtlAt core) value.toNat

/-- DOCENT_RESET (R418). -/
def execDocentReset (master : Fin 2048) (core : Fin 16) (value : Word) (s : State) : Host.Outcome State Fault Refusal :=
  onState s fun s => storeReg s master (coreCtlAt core) value.toNat

/-! ### Stores and fences -/

/-- DOCENT_FENCE (R413). -/
def execDocentFence (core : Fin 16) (s : State) : Host.Outcome State Fault Refusal :=
  onDev s fun d => if d.coreRuns core then (d.setCore core fun c => { c with fence := true }).settle core else d

/-- DOCENT_WFI (R418). -/
def execDocentWfi (core : Fin 16) (s : State) : Host.Outcome State Fault Refusal :=
  onDev s fun d => if d.coreRuns core then (d.setCore core fun c => { c with wfi := true }).settle core else d

/-- A store issues (R407 to R409): it faults, or enters the buffer, or is the access R8 does not allow. -/
def Dev.issueStore (d : Dev) (k addr : Nat) (data : List Byte) : Dev :=
  let n := data.length
  match docentRefuses addr n 2 with
  | some recorded => d.refuseAccess k addr 2 recorded
  | none =>
    if cachedAt addr then (if 64 < addr % 64 + n then d.coreTrap (0x010 + k) 6 addr else d.bufferStore k addr data 0)
    else if windowBase ≤ addr then
      match d.ratCheck (0x010 + k) (addr - windowBase) n true with
      | some i => d.bufferStore k addr data i
      | none => d.coreFault 0x04 (0x010 + k) 7 addr
    else if (n = 4 ∨ n = 8) ∧ addr % n = 0 then d.bufferStore k addr data 0
    else d.accessRecord (subsystemAt addr) 0x70 (0x010 + k) addr

/-- DOCENT_STORE (R409). -/
def execDocentStore (core : Fin 16) (addr : Nat) (data : List Byte) (s : State) : Host.Outcome State Fault Refusal :=
  onDev s fun d => if d.coreRuns core then d.issueStore core addr data else d

/-- STORE_BUFFER_ENTRY_DELIVERY: the oldest entry of one of the two paths (R409, R410); a line another core defers probes of waits (R416). -/
def execStoreBufferEntryDelivery (core : Fin 16) (cached : Bool) (s : State) : Host.Outcome State Fault Refusal :=
  onState s fun s =>
    match (s.dev.core core).stb.find? fun e => cachedAt (e.line * 64) == cached with
    | none => s
    | some e =>
      if cached && s.dev.lineHeld core e.line then s
      else
        let s := deliverEntry core s e
        { s with dev := s.dev.settle core }

/-- A store of the Curator's waits for its credits as a Docent's does, where the Range Attribute Table lets it (R161, R168). -/
def Dev.curatorStore (d : Dev) (w : WinWord) : Dev :=
  match d.ratCheck 0 w.off 4 true with
  | some i => { d with winStores := d.winStores ++ [{ master := 0, entry := i, addr := w.off, value := w.value.toNat, be := w.be }] }
  | none => d.coreFault 0x04 0 7 (windowBase + w.off)

/-- WINDOW_STORE_ACCEPTED: the oldest store of a master that waits is accepted once it has its credits, or is discarded (R168, R414). -/
def execWindowStoreAccepted (tried : WindowTry) (s : State) : Host.Outcome State Fault Refusal :=
  onDev s fun d =>
    let d := match tried.curator with
      | some w => d.when (tried.master.val == 0) (·.curatorStore w)
      | none => d
    match d.winStores.filter fun (w : WinStore) => w.master == tried.master.val with
    | [] => d
    | w :: _ =>
      match d.acceptStore w with
      | none => d
      | some d' =>
        let d' := { d' with winStores := d.winStores.erase w }
        match docentOf tried.master with
        | some k => d'.settle k
        | none => d'

/-! ### Window loads -/

/-- A load of the window issues (R161, R163, R164, R167). -/
def Dev.issueLoad (d : Dev) (master off bytes : Nat) : Dev :=
  match d.ratCheck master off bytes false with
  | none => d.coreFault 0x04 master 5 (windowBase + off)
  | some i =>
    if d.windowContained (d.ratTarget i) then d.coreTrap master 5 (windowBase + off)
    else
      let hit := if d.ratPrefetch i then d.findLine i off bytes else none
      let r : WinRead := { master := master, addr := off, bytes := bytes, entry := i, prefetch := d.ratPrefetch i }
      match hit with
      | some l => (d.touchLine l).returnRead r ((l.data.drop (off % 64)).take bytes)
      | none =>
        if d.ratPrefetch i then { d with winReads := d.winReads ++ [r] }
        else
          let tag := d.windowTag
          Dev.sendRead { d with winReads := d.winReads ++ [{ r with tag := some tag }] } master i off bytes tag

/-- A master's load may reach its segment: no load holds it, a parking slot is free, and a Docent runs (R163). -/
def Dev.loadReady (d : Dev) (master : Nat) : Bool :=
  decide ((d.readsOf master).length < 4) && (d.readsOf master).all (·.detached) &&
    (match docentOf master with
     | some k => d.coreRuns k
     | none => true)

/-- DOCENT_WINDOW_LOAD (R163). -/
def execDocentWindowLoad (master : Fin 2048) (off : Nat) (bytes : Fin 9) (s : State) : Host.Outcome State Fault Refusal :=
  onDev s fun d => if d.loadReady master then d.issueLoad master off bytes else d

/-- Lines fetched beyond a missed one (R164): PF_LINES, at most 4, up to the end of the 4 KiB page. -/
def Dev.furtherLines (d : Dev) (r : WinRead) : List Nat :=
  let line := r.addr / 64
  ((List.range (min 4 (d.get EBR_RAT_ATTR.PF_LINES r.entry))).map fun i => line + 1 + i).filter fun l => l / 64 == line / 64

/-- PREFETCH_MISS_FETCH (R164). -/
def execPrefetchMissFetch (master : Fin 2048) (s : State) : Host.Outcome State Fault Refusal :=
  onDev s fun d =>
    let waits (r : WinRead) : Bool := r.master == master.val && r.prefetch && r.tag.isNone
    match d.winReads.find? waits with
    | none => d
    | some r =>
      let tag := d.windowTag
      let d := { d with winReads := changeRead waits (fun x => some { x with tag := some tag }) d.winReads }
      let d := d.sendRead master r.entry (r.addr / 64 * 64) 64 tag
      d.forEach (d.furtherLines r) fun d l =>
        let tag := d.windowTag
        Dev.sendRead { d with winFetches := d.winFetches ++ [(⟨tag, r.entry, l⟩ : WinFetch)] } master r.entry (l * 64) 64 tag

/-- HELD_READ_DETACH (R166). -/
def execHeldReadDetach (master : Fin 2048) (s : State) : Host.Outcome State Fault Refusal :=
  onDev s fun d =>
    { d with winReads := changeRead (fun r => r.master == master.val && !r.detached) (fun r => some { r with detached := true }) d.winReads }

/-- PARKED_COMPLETION_REPLAY: the load retires when no other holds the segment (R166). -/
def execParkedCompletionReplay (master : Fin 2048) (s : State) : Host.Outcome State Fault Refusal :=
  onDev s fun d =>
    let mine (r : WinRead) : Bool := r.master == master.val && r.parked.isSome
    match (d.readsOf master).all (·.detached), d.winReads.find? mine with
    | true, some r => Dev.returnRead { d with winReads := changeRead mine (fun _ => none) d.winReads } r (r.parked.getD [])
    | _, _ => d

/-- WINDOW_READ_ERROR: a window request ends with a status other than success (R167). -/
def execWindowReadError (handle : Fin 262144) (status : Fin 8) (s : State) : Host.Outcome State Fault Refusal :=
  onDev s fun d =>
    match SMap.find d.trk handle with
    | some e =>
      if e.gvh = gvhWindow ∧ e.edge ≠ .completer ∧ status.val ≠ 0 then
        ((d.freeEntry handle).when (!e.squashed) fun d => d.windowError e.tag (e.kind == .cfgWrite) e.requester).retryHeld
      else d
    | none => d

/-- PREFETCH_LINE_EXPIRY: lines that have reached PF_TTL leave, a TTL of 0 acting as 1 (R165). -/
def execPrefetchLineExpiry (s : State) : Host.Outcome State Fault Refusal :=
  onDev s fun d =>
    let ttl := nsTicks (100 * max 1 (d.get EBR_PF_CFG.PF_TTL 0))
    d.dropLines (fun l => decide (ttl ≤ sinceTicks l.at_ d.now)) 2

/-! ### Reservations -/

/-- A byte as a core loads it: its own buffered store's, else memory's (R411). -/
def coreByte (s : State) (k addr : Nat) : Byte :=
  match ((s.dev.core k).stb.find? fun e => e.line == addr / 64).bind fun e => SMap.find e.bytes (addr % 64) with
  | some b => b
  | none => s.byteAt addr

/-- DOCENT_LR (R415, R416). -/
def execDocentLr (core : Fin 16) (addr : Nat) (bytes : Fin 9) (constrained : Bool) (s : State) : Host.Outcome State Fault Refusal :=
  onDev s fun d =>
    let k := core.val
    if !d.coreRuns k then d
    else
      match docentRefuses addr bytes 1 with
      | some recorded => d.refuseAccess k addr 1 recorded
      | none =>
        if !cachedAt addr then d.coreTrap (0x010 + k) 5 addr
        else if addr % bytes.val ≠ 0 then d.coreTrap (0x010 + k) 4 addr
        else if d.lineHeld k (addr / 64) then d
        else
          let value := ofLeBytes ((List.range bytes).map fun i => coreByte s k (addr + i))
          (d.setCore k fun c =>
            { c with reserved := some (addr / 64), holdUntil := if constrained then some (d.now + nsTicks 32) else none }).emit
            (.readData (0x010 + k) addr value)

/-- An SC answers 0 for success and 1 for failure, and its reservation is gone (R415). -/
def Dev.answerSc (d : Dev) (k addr result : Nat) : Dev :=
  (d.setCore k fun c => { c with reserved := none, holdUntil := none }).emit (.readData (0x010 + k) addr result)

/-- DOCENT_SC (R415): a store that succeeds is performed at once, after what the core has buffered of its line (DEDUCED, log entry 37). -/
def execDocentSc (core : Fin 16) (addr : Nat) (data : List Byte) (spurious : Bool) (s : State) : Host.Outcome State Fault Refusal :=
  onState s fun s =>
    let d := s.dev
    let k := core.val
    if !d.coreRuns k then s
    else
      match docentRefuses addr data.length 2 with
      | some recorded => { s with dev := d.refuseAccess k addr 2 recorded }
      | none =>
        if !cachedAt addr then { s with dev := d.answerSc k addr 1 }
        else if addr % data.length ≠ 0 then { s with dev := d.coreTrap (0x010 + k) 6 addr }
        else if spurious || (d.core k).reserved != some (addr / 64) || d.lineHeld k (addr / 64) then { s with dev := d.answerSc k addr 1 }
        else
          let s := ((d.core k).stb.filter fun e => e.line == addr / 64).foldl (deliverEntry k) s
          let s := s.store (some k) addr data
          { s with dev := s.dev.answerSc k addr 0 }

/-- DOCENT_DEVICE_ATOMIC: outside memory LR and AMO fault, and SC fails (R417). -/
def execDocentDeviceAtomic (core : Fin 16) (addr : Nat) (kind : Fin 3) (s : State) : Host.Outcome State Fault Refusal :=
  onDev s fun d =>
    let k := core.val
    if !d.coreRuns k || cachedAt addr then d
    else
      match docentRefuses addr 4 1 with
      | some recorded => d.refuseAccess k addr (if kind.val = 0 then 1 else 2) recorded
      | none =>
        if kind.val = 0 then d.coreTrap (0x010 + k) 5 addr
        else if kind.val = 1 then d.answerSc k addr 1
        else d.coreTrap (0x010 + k) 7 addr

/-! ### Interrupts and access faults -/

/-- DOCENT_TIMER_INTERRUPT: the timer is pending; taken, the reservation is lost and a FENCE or WFI that waits has not retired (R405, R413,
R415). -/
def execDocentTimerInterrupt (core : Fin 16) (taken : Bool) (s : State) : Host.Outcome State Fault Refusal :=
  onDev s fun d =>
    let k := core.val
    let d := d.timers
    if (d.core k).timer && taken && d.get DOC_CORE_STATUS.STATE k == 1 then
      (d.setCore k fun c => { c with reserved := none, holdUntil := none, fence := false, wfi := false }).emit
        (.signal "docent timer interrupt" [k])
    else d

/-- DOCENT_ACCESS_FAULT: a fetch, a load or a store that the map or R32 does not allow (R32, R406). -/
def execDocentAccessFault (core : Fin 16) (addr : Nat) (bytes : Fin 9) (kind : Fin 3) (s : State) : Host.Outcome State Fault Refusal :=
  onDev s fun d =>
    if !d.coreRuns core then d
    else match docentRefuses addr bytes kind with
      | some recorded => d.refuseAccess core addr kind recorded
      | none => d

/-- REGISTER_WRITE (R9, R37). -/
def execRegisterWrite (master : Fin 2048) (place : RegAt) (value : Word) (s : State) : Host.Outcome State Fault Refusal :=
  onState s fun s => storeReg s master place value.toNat

end Sys2Proof.Machine
end

