-- ==== Sys2Proof/Machine/PowerStates.lean ====
section
/-! DEFINITION. The module's feeds and its power states: refusers, entry, wake, pads, DORMANT, and the cold start (R347, R475, R491 to R504,
R522). -/

namespace Sys2Proof.Machine

/-! ### Cold start -/

/-- The rails come up: every register at its reset value, volatile memory lost, the feeds as they are measured (R347, R502). -/
def coldStart (s : State) : State :=
  let d := s.dev
  let feeds : List Fld := [PWR_FEED_A.PRESENT, PWR_FEED_A.HIGH_LINE, PWR_FEED_A.FREQ_HZ, PWR_FEED_A.VRMS, PWR_FEED_B.PRESENT, PWR_FEED_B.HIGH_LINE,
    PWR_FEED_B.FREQ_HZ, PWR_FEED_B.VRMS]
  let s := moduleReset { s with mem := [] }
  let dev := s.dev.forEach feeds fun x f => x.put f 0 (d.get f 0)
  { s with dev := { dev.put CUR_PAIR_STATUS.FAILOVERS 0 0 with feedOff := d.feedOff } }

/-- A feed is measured; one within its limits is present, at low line at first (R341, R342). -/
def Dev.feedComes (d : Dev) (f vrms freq : Nat) : Dev :=
  let d := d.measureFeed f vrms freq
  if d.is (feedPresent f) 0 ∨ vrms < 85 ∨ 265 < vrms ∨ freq < 47 ∨ 63 < freq then d
  else
    let d := { d with feedOff := d.feedOff.filter (· ≠ f) }
    let d := ((d.put (feedPresent f) 0 1).put (feedHigh f) 0 0).raise PWR_EVENTS.FEED_RESTORED 0 { object := f }
    (d.singleFeed).rebudget

/-- FEED_PRESENT: after the loss of both feeds the module starts cold (R341, R342, R347). -/
def execFeedPresent (feed : Fin 2) (vrms : Fin 512) (freq : Fin 256) (s : State) : Host.Outcome State Fault Refusal :=
  let s := if s.dev.supply = .off then coldStart s else s
  onSupply s fun d => d.feedComes feed vrms freq

/-- BOTH_FEEDS_LOST: the rails fall, what is volatile is lost, and the module starts cold when a feed returns (R347). -/
def execBothFeedsLost (s : State) : Host.Outcome State Fault Refusal :=
  .next { s with mem := [], dev := { drawn := s.dev.drawn, out := s.dev.out, supply := .off } }

/-! ### Refusers -/

/-- Local IDs of the Vitrines that are not FREE. -/
def Dev.liveVits (d : Dev) : List Nat := (d.vits.filter fun v => v.2.live).map (·.1)

/-- The LTR in force of a Vitrine is below 2 ms (R494). -/
def Dev.impatient (d : Dev) (lv : Nat) : Bool :=
  match d.ltrInForce (d.get VIT_PORT.UPORT lv) with
  | some ns => decide (ns < 2000000)
  | none => false

/-- A frame of type TLP, CXL.mem or console from a port was admitted within 100 ms (R503). -/
def Dev.busyPorts (d : Dev) : List Nat := (d.trafficAt.filter fun e => decide (sinceTicks e.2 d.now < msTicks 100)).map (·.1)

/-- Trained upstream ports (R497). -/
def Dev.trainedUp (d : Dev) : List Nat := (List.range 512).filter fun p => d.hostFacing p && d.is PRT_PORT_STATUS.DL_ACTIVE p

/-- The host of a port has enabled ASPM L1. -/
def Dev.hostL1 (d : Dev) (p : Nat) : Bool :=
  match d.vitrineOfPort p with
  | some lv => (d.vit lv).aspmL1
  | none => false

/-- Docents whose STATE is RUNNING or RESETTING. -/
def Dev.busyDocents (d : Dev) : List Nat :=
  (List.range 16).filter fun k => d.get DOC_CORE_STATUS.STATE k == 1 || d.get DOC_CORE_STATUS.STATE k == 3

/-- The refusers that apply to QUIET, kind and index, lowest first (R503). -/
def Dev.quietRefusers (d : Dev) : List (Nat × Nat) :=
  (d.liveVits.filter d.impatient).map (fun n => (1, n)) ++
    (d.liveVits.filter fun n => decide (3 ≤ d.get VIT_STATE.STATE n)).map (fun n => (2, n)) ++ d.busyPorts.map (fun p => (4, p)) ++
    (d.trainedUp.filter fun p => !d.hostL1 p).map (fun p => (5, p)) ++ d.busyDocents.map fun k => (7, k)

/-- A command that reads only: the inventory family (R376). -/
def readsOnly (opcode : Nat) : Bool := opcode / 256 == 1

/-- The refusers that apply to DORMANT (R503), for a copy of the composition store of generation `gen` and the command that asks. -/
def Dev.dormantRefusers (d : Dev) (gen : Nat) (h : CmdHdr) : List (Nat × Nat) :=
  d.liveVits.map (fun n => (3, n)) ++ d.busyDocents.map (fun k => (7, k)) ++
    (if d.registrar = some d.moduleId then [(8, 0)] else []) ++ (if gen ≠ 0 then [(9, 0)] else []) ++
    (if d.cmds.any fun c => !Cmd.matches h c && c.status == Status.pending && !readsOnly c.opcode then [(10, 0)] else []) ++
    (if d.get HLT_PLAN_STATUS.STATE 0 = 1 then [(11, 0)] else [])

/-- The decimal digits of a number below 10 to the fuel, in ASCII. -/
def digits (fuel n : Nat) : List Nat :=
  match fuel with
  | 0 => []
  | f + 1 => if n < 10 then [48 + n] else digits f (n / 10) ++ [48 + n % 10]

/-- A text in ASCII. -/
def ascii (t : String) : List Nat := t.toList.map Char.toNat

/-- The name of a refuser (R503). -/
def refuserName (r : Nat × Nat) : List Nat :=
  let n := digits 5 r.2
  match r.1 with
  | 1 => ascii "Vitrine " ++ n ++ ascii " LTR"
  | 2 => ascii "Vitrine " ++ n ++ ascii " state"
  | 3 => ascii "Vitrine " ++ n ++ ascii " present"
  | 4 => ascii "port " ++ n ++ ascii " traffic"
  | 5 => ascii "port " ++ n ++ ascii " L1 not enabled"
  | 6 => ascii "port " ++ n ++ ascii " partner refused L1"
  | 7 => ascii "Docent " ++ n ++ ascii " busy"
  | 8 => ascii "Registrar"
  | 9 => ascii "composition replica"
  | 10 => ascii "commands"
  | _ => ascii "margin plan"

/-- The response field that names a refuser: 32 bytes from offset 4 (R376). -/
def refuserField (r : Nat × Nat) : List (Nat × Nat × Nat) := [(4, 32, ofLeBytes ((refuserName r).map (BitVec.ofNat 8)))]

/-- An entry is refused or aborted: each refuser that applies is counted, the lowest is named (R503). -/
def Dev.refuseEntry (d : Dev) (aborted : Bool) (rs : List (Nat × Nat)) : Dev :=
  match rs with
  | [] => d
  | r :: _ =>
    let d := d.forEach rs fun d r => d.bump PWR_PS_CNT.COUNT r.1 1
    let d := ((d.put PWR_PS_LAST.KIND 0 r.1).mark PWR_PS_LAST.ABORTED 0 aborted).put PWR_PS_LAST.INDEX 0 r.2
    d.record (if aborted then 0x0E85 else 0x0E84) { object := r.1 * 2 ^ 24 + r.2 }

/-! ### Choosing QUIET, and POWER_STATE -/

/-- PWR_MODE is written with TARGET and ARM (R496). -/
def Dev.arm_ (d : Dev) (target : Nat) (byCommand : Bool) : Dev :=
  Dev.mark (Dev.put { d with byCommand := byCommand } PWR_MODE.TARGET 0 target) PWR_MODE.ARM 0 true

/-- An entry is armed or in progress. -/
def Dev.entering (d : Dev) : Bool := d.is PWR_MODE.ARM 0 || d.is PWR_PS_STATUS.ENTERING 0

/-- The QUIET conditions hold (R494). -/
def Dev.quietConditions (d : Dev) : Bool :=
  (d.liveVits.all fun lv => !d.impatient lv) && decide (msTicks 100 ≤ sinceTicks d.lastTraffic d.now)

/-- An automatic attempt is due: AUTO set, in ACTIVE or TRIM, no entry under way, none refused or aborted within 1 s (R494). -/
def Dev.attemptDue (d : Dev) : Bool :=
  d.is PWR_MODE.AUTO 0 && decide (d.get PWR_PS_STATUS.STATE 0 < 2) && !d.entering && d.is CUR_START_STATUS.READY 0 &&
    (match d.tried with
     | some t => decide (msTicks 1000 ≤ sinceTicks t d.now)
     | none => true)

/-- QUIET_EVALUATION (R494). -/
def execQuietEvaluation (s : State) : Host.Outcome State Fault Refusal :=
  onDev s fun d =>
    if d.attemptDue && d.quietConditions then
      match d.quietRefusers with
      | [] => d.arm_ 2 false
      | rs => Dev.refuseEntry { d with tried := some d.now } false rs
    else d

/-- The module leaves QUIET (R495): dies powered, the Docents restart (R419), the traffic timer restarts. -/
def Dev.leaveQuiet (d : Dev) (bit : Nat) : Dev :=
  let d := d.put PWR_PS_STATUS.GATED 0 0
  let d := d.forEach ((List.range 16).filter fun k => d.get DOC_CORE_STATUS.STATE k == 4) fun d k =>
    if d.is DOC_CORE_CTL.RUN k then (d.put DOC_CORE_STATUS.STATE k 1).emit (.signal "docent starts at" [k, 0])
    else d.put DOC_CORE_STATUS.STATE k 0
  let d := d.setPower (if d.byCommand then 1 else d.get PWR_MODE.BASE 0) bit
  { d with lastTraffic := d.now, byCommand := false }

/-- A wake event acts: in QUIET the module leaves it, unless an entry is under way, which latches it (R495, R498). -/
def Dev.wake (d : Dev) (bit : Nat) : Dev :=
  let d := d.noteWake bit
  d.when (d.get PWR_PS_STATUS.STATE 0 == 2 && !d.entering) (·.leaveQuiet bit)

/-- POWER_STATE on this module (R491, R495, R501, R503). -/
def Dev.commandPower (d : Dev) (gen : Nat) (h : CmdHdr) (target auto : Nat) : Dev :=
  let op := 0x0605
  if 3 < target then d.badParam h op 0
  else if d.entering then d.setCmd h { d.cmdOf h op with status := Status.pending, wait := .objects }
  else
    let d := d.when (d.get PWR_PS_STATUS.STATE 0 == 2) (·.wake 9)
    if target < 2 then
      let d := ((d.put PWR_MODE.BASE 0 target).put PWR_MODE.AUTO 0 (auto % 2)).setPower target 255
      d.finish h op Status.ok
    else
      match if target = 2 then d.quietRefusers else d.dormantRefusers gen h with
      | [] => if target = 2 then (d.waitFor h op .power).arm_ 2 true else (d.finish h op Status.ok).arm_ 3 true
      | r :: rs => (d.refuseEntry false (r :: rs)).finish h op Status.refusedState 0 (refuserField r)

/-- POWER_STATE (R376). -/
def execPowerState (h : CmdHdr) (target auto : Byte) (s : State) : Host.Outcome State Fault Refusal :=
  onDev s fun d => d.moduleCommand h 0x0605 [1, 2] false fun d => d.commandPower s.nv.storeGen h target.toNat auto.toNat

/-! ### Entry and wake -/

/-- PWR_MODE_ARM (R496). -/
def execPwrModeArm (master : Fin 2048) (value : Word) (s : State) : Host.Outcome State Fault Refusal :=
  onDev s fun d => d.busWrite master (.device 0x807000020) value.toNat

/-- POWER_ENTRY_COMMIT (R496). A TARGET that names no state to enter starts none. -/
def execPowerEntryCommit (s : State) : Host.Outcome State Fault Refusal :=
  onDev s fun d =>
    if d.is PWR_MODE.ARM 0 then
      (d.mark PWR_MODE.ARM 0 false).mark PWR_PS_STATUS.ENTERING 0 (decide (2 ≤ d.get PWR_MODE.TARGET 0))
    else d

/-- Lanes of a port die (R20). -/
def dieLanes (die : Nat) : List Nat := (List.range 512).filter fun n => dieOf n == die

/-- The dies QUIET gates, as bits of GATED (R491, R492): port dies with every lane OFF, the tunnel-hub die with nothing to do, the Docents. -/
def Dev.gatedDies (d : Dev) : List Nat :=
  let hub := (List.range 16).all (fun t => d.pdState t == 0) && (List.range 64).all (fun e => !d.is TUN_CE_MODE.ENABLE e) &&
    !d.is USH_OWNER.VALID 0
  ((List.range 4).filter fun i => (dieLanes i).all fun n => d.laneState n == 0) ++ (if hub then [4] else []) ++ [5]

/-- The Docents in WFI are powered down, and their state is lost (R419). -/
def Dev.powerDownDocents (d : Dev) : Dev :=
  d.forEach ((List.range 16).filter fun k => d.get DOC_CORE_STATUS.STATE k == 2) fun d k =>
    (d.put DOC_CORE_STATUS.STATE k 4).setCore k fun c => { timer := c.timer }

/-- A die's pads are latched, PERST_N asserted (R499). -/
def Dev.latchPads (d : Dev) (die : Nat) : Dev :=
  let held := d.get PWR_PAD_HOLD.HELD 0
  let d := if bitOf held die then d else d.put PWR_PAD_HOLD.HELD 0 (held + 2 ^ die)
  d.forEach (((dieLanes die).map cageOf).eraseDups) fun d c => d.setPerst c true

/-- QUIET_ENTRY: aborted by a host's refusal of L1, or carried out (R497). A port that the entry takes to L1 takes L1.0. -/
def execQuietEntry (nak : Option (Fin 512)) (s : State) : Host.Outcome State Fault Refusal :=
  onDev s fun d =>
    if !d.is PWR_PS_STATUS.ENTERING 0 || d.get PWR_MODE.TARGET 0 != 2 then d
    else
      let asked := d.trainedUp.filter fun p => d.get PRT_PORT_STATUS.LTSSM p != 5
      let d := d.mark PWR_PS_STATUS.ENTERING 0 false
      match nak.bind fun p => if asked.contains p.val then some p.val else none with
      | some p =>
        let d := d.when (!d.byCommand) fun d => { d with tried := some d.now }
        let d := (d.refuseEntry true [(6, p)]).endWaiting .power Status.refusedState 0 (refuserField (6, p))
        Dev.mark { d with latched := 0, byCommand := false } PWR_WAKE.REPLAY_PENDING 0 false
      | none =>
        let d := (d.forEach asked fun d p => d.enterL1 p 0).powerDownDocents
        let gated := d.gatedDies
        let d := d.forEach (gated.filter fun i => decide (i < 5)) fun d i => d.latchPads i
        let d := (d.put PWR_PS_STATUS.GATED 0 ((gated.map fun i => 2 ^ i).sum)).setPower 2 255
        d.endWaiting .power Status.ok

/-- WAKE_EVENT (R495). -/
def execWakeEvent (event : Fin 10) (s : State) : Host.Outcome State Fault Refusal := onDev s fun d => d.wake event

/-- The lowest bit set of a mask of wake events. -/
def lowestBit (m : Nat) : Nat := ((List.range 10).find? fun i => bitOf m i).getD 0

/-- WAKE_REPLAYED: the events latched since ARM are replayed once the entry is complete (R498). -/
def execWakeReplayed (s : State) : Host.Outcome State Fault Refusal :=
  onDev s fun d =>
    if d.is PWR_WAKE.REPLAY_PENDING 0 && !d.entering && d.get PWR_PS_STATUS.STATE 0 == 2 then
      let m := d.latched
      let d := (Dev.mark { d with latched := 0 } PWR_WAKE.REPLAY_PENDING 0 false).record 0x0E86 { detail := leBytes 2 m }
      d.leaveQuiet (lowestBit m)
    else d

/-- PAD_RELEASE_WRITE (R499). -/
def execPadReleaseWrite (master : Fin 2048) (value : Word) (s : State) : Host.Outcome State Fault Refusal :=
  onDev s fun d => d.busWrite master (.device 0x80700002C) value.toNat

/-! ### DORMANT -/

/-- What DORMANT_ENTRY does before power goes (R501). -/
def Dev.quiesce (d : Dev) : Dev :=
  let d := d.forEach d.perstReleased fun d c => d.setPerst c true
  let d := d.forEach ((List.range 72).filter fun n => d.get EF_STATUS.STATE n != 0) fun d n => d.emit (.signal "e-fuse off" [n])
  d.forEach ((List.range 512).filter fun n => d.laneState n != 0) fun d n => d.emit (.laneIdle n)

/-- DORMANT_ENTRY: what is powered by the main rails is lost; a WAKE_N latched meanwhile brings the module straight back (R501, R522). -/
def execDormantEntry (s : State) : Host.Outcome State Fault Refusal :=
  onState s fun s =>
    let d := s.dev
    if !d.is PWR_PS_STATUS.ENTERING 0 ∨ d.get PWR_MODE.TARGET 0 ≠ 3 then s
    else
      let woken := bitOf d.latched 5
      let s := coldStart { s with dev := d.quiesce }
      let d := s.dev.put PWR_PAD_HOLD.HELD 0 31
      { s with dev := if woken then { d with supply := .on } else { d with supply := .dormant }.emit (.strip none) }

/-- WAKE_N: a cold start from DORMANT, a wake from QUIET, else its bit (R502, R522). -/
def execWakeN (s : State) : Host.Outcome State Fault Refusal :=
  onSupply s fun d =>
    match d.supply with
    | .on => d.wake 5
    | .dormant => { d with supply := .on }
    | .off => d

end Sys2Proof.Machine
end

