-- ==== Sys2Proof/Machine/Dispatch.lean ====
section
/-! DEFINITION. One arm for each command: a direct call of its meaning. -/

namespace Sys2Proof.Machine

def exec (i : Instr) (s : State) : Host.Outcome State Fault Refusal :=
  match i with
  | .moduleResetEvent => Sys2Proof.Machine.execModuleResetEvent s
  | .registerWrite master place value => Sys2Proof.Machine.execRegisterWrite master place value s
  | .regAccessBad master place load => Sys2Proof.Machine.execRegAccessBad master place load s
  | .regPairLowRead master place => Sys2Proof.Machine.execRegPairLowRead master place s
  | .regPairHighRead master place => Sys2Proof.Machine.execRegPairHighRead master place s
  | .readClearFieldRead master place => Sys2Proof.Machine.execReadClearFieldRead master place s
  | .laneEnableSet master lane => Sys2Proof.Machine.execLaneEnableSet master lane s
  | .laneEnableCleared master lane => Sys2Proof.Machine.execLaneEnableCleared master lane s
  | .laneTxEqWrite master lane pre post => Sys2Proof.Machine.execLaneTxEqWrite master lane pre post s
  | .cagePowerGoodLaneRelease cage => Sys2Proof.Machine.execCagePowerGoodLaneRelease cage s
  | .receiverDetected lane => Sys2Proof.Machine.execReceiverDetected lane s
  | .detectTimerExpiry lane => Sys2Proof.Machine.execDetectTimerExpiry lane s
  | .bitLockAcquired lane => Sys2Proof.Machine.execBitLockAcquired lane s
  | .symbolLockAcquired lane found => Sys2Proof.Machine.execSymbolLockAcquired lane found s
  | .rearSymlockTimeout lane => Sys2Proof.Machine.execRearSymlockTimeout lane s
  | .bitslipSearchStep lane locked found => Sys2Proof.Machine.execBitslipSearchStep lane locked found s
  | .lnaBitslipDelayWrite master lane delay => Sys2Proof.Machine.execLnaBitslipDelayWrite master lane delay s
  | .bitslipDelayApplied lane => Sys2Proof.Machine.execBitslipDelayApplied lane s
  | .partnerCoefficientRequest lane request => Sys2Proof.Machine.execPartnerCoefficientRequest lane request s
  | .tapsAgreed lane report => Sys2Proof.Machine.execTapsAgreed lane report s
  | .capxExchangeComplete port found => Sys2Proof.Machine.execCapxExchangeComplete port found s
  | .laneAttemptTimerExpiry lane => Sys2Proof.Machine.execLaneAttemptTimerExpiry lane s
  | .laneBitLockLost lane => Sys2Proof.Machine.execLaneBitLockLost lane s
  | .deskewFail port skews => Sys2Proof.Machine.execDeskewFail port skews s
  | .laneRetirement lane => Sys2Proof.Machine.execLaneRetirement lane s
  | .marginScanStart master lane value => Sys2Proof.Machine.execMarginScanStart master lane value s
  | .marginScanAbort master lane value => Sys2Proof.Machine.execMarginScanAbort master lane value s
  | .marginScanComplete lane eyes temp => Sys2Proof.Machine.execMarginScanComplete lane eyes temp s
  | .loadTriggerEvaluation port util temp => Sys2Proof.Machine.execLoadTriggerEvaluation port util temp s
  | .fabricLinkReequalisation port tries temp => Sys2Proof.Machine.execFabricLinkReequalisation port tries temp s
  | .pcieReeqWindowOpen port answer temp => Sys2Proof.Machine.execPcieReeqWindowOpen port answer temp s
  | .reeqDeferred port => Sys2Proof.Machine.execReeqDeferred port s
  | .flitReceived port bytes bodies => Sys2Proof.Machine.execFlitReceived port bytes bodies s
  | .nakReceived port expected => Sys2Proof.Machine.execNakReceived port expected s
  | .replayTimerExpiry port => Sys2Proof.Machine.execReplayTimerExpiry port s
  | .alignmentMarker port skews => Sys2Proof.Machine.execAlignmentMarker port skews s
  | .echoReq port asked => Sys2Proof.Machine.execEchoReq port asked s
  | .echoRsp port tag turnaround => Sys2Proof.Machine.execEchoRsp port tag turnaround s
  | .params port partner => Sys2Proof.Machine.execParams port partner s
  | .linkCtlRetryTimer request => Sys2Proof.Machine.execLinkCtlRetryTimer request s
  | .fabricLaneLost lane => Sys2Proof.Machine.execFabricLaneLost lane s
  | .widthReq port width mask => Sys2Proof.Machine.execWidthReq port width mask s
  | .widthAck port width mask => Sys2Proof.Machine.execWidthAck port width mask s
  | .resume port expected => Sys2Proof.Machine.execResume port expected s
  | .linkWidthIncrease port width => Sys2Proof.Machine.execLinkWidthIncrease port width s
  | .speedReq port frame => Sys2Proof.Machine.execSpeedReq port frame s
  | .speedChangeTimeout port => Sys2Proof.Machine.execSpeedChangeTimeout port s
  | .pauseReq port reason => Sys2Proof.Machine.execPauseReq port reason s
  | .pauseAck port => Sys2Proof.Machine.execPauseAck port s
  | .creditFrameReceived src dst kind cseq value => Sys2Proof.Machine.execCreditFrameReceived src dst kind cseq value s
  | .creditReturnSend src dst => Sys2Proof.Machine.execCreditReturnSend src dst s
  | .creditWindowGrant src dst gvh cls => Sys2Proof.Machine.execCreditWindowGrant src dst gvh cls s
  | .creditQuietPoint window => Sys2Proof.Machine.execCreditQuietPoint window s
  | .resyncStart port => Sys2Proof.Machine.execResyncStart port s
  | .resyncReq src dst sent => Sys2Proof.Machine.execResyncReq src dst sent s
  | .resyncAck src dst cseq held => Sys2Proof.Machine.execResyncAck src dst cseq held s
  | .resyncTimeout window => Sys2Proof.Machine.execResyncTimeout window s
  | .portConfig h fpid kind width rate flags lr oversub windows pm => Sys2Proof.Machine.execPortConfig h fpid kind width rate flags lr oversub windows pm s
  | .portEnable h fpid on => Sys2Proof.Machine.execPortEnable h fpid on s
  | .eqTableLoad h addr length source => Sys2Proof.Machine.execEqTableLoad h addr length source s
  | .marginScan h first count dwell errLimit axes hfloor vfloor => Sys2Proof.Machine.execMarginScan h first count dwell errLimit axes hfloor vfloor s
  | .bitslip h lane delay locked found => Sys2Proof.Machine.execBitslip h lane delay locked found s
  | .retrain h object flags => Sys2Proof.Machine.execRetrain h object flags s
  | .tlpIngress port t => Sys2Proof.Machine.execTlpIngress port t s
  | .tlpEgress port => Sys2Proof.Machine.execTlpEgress port s
  | .cxlMemRequest port m => Sys2Proof.Machine.execCxlMemRequest port m s
  | .intxMessage lvid k fn wire assert => Sys2Proof.Machine.execIntxMessage lvid k fn wire assert s
  | .errorMessage port ep severity => Sys2Proof.Machine.execErrorMessage port ep severity s
  | .pmeTurnOff port => Sys2Proof.Machine.execPmeTurnOff port s
  | .pmeToAck lvid k => Sys2Proof.Machine.execPmeToAck lvid k s
  | .pmeToAckTimeout lvid => Sys2Proof.Machine.execPmeToAckTimeout lvid s
  | .ltrMessage fpid ep required ns => Sys2Proof.Machine.execLtrMessage fpid ep required ns s
  | .ltrUpstreamSend port => Sys2Proof.Machine.execLtrUpstreamSend port s
  | .messageDiscarded port => Sys2Proof.Machine.execMessageDiscarded port s
  | .mrdlk port src gvh t => Sys2Proof.Machine.execMrdlk port src gvh t s
  | .cpldlk port t withData => Sys2Proof.Machine.execCpldlk port t withData s
  | .unlock port gvh => Sys2Proof.Machine.execUnlock port gvh s
  | .lockTimerExpiry port => Sys2Proof.Machine.execLockTimerExpiry port s
  | .lockSideListMove queue => Sys2Proof.Machine.execLockSideListMove queue s
  | .completionReceived port body => Sys2Proof.Machine.execCompletionReceived port body s
  | .trackerDeadline handle => Sys2Proof.Machine.execTrackerDeadline handle s
  | .lateCompletion port source body => Sys2Proof.Machine.execLateCompletion port source body s
  | .unexpectedCompletion port source body => Sys2Proof.Machine.execUnexpectedCompletion port source body s
  | .tagQuarantineExpiry port tag => Sys2Proof.Machine.execTagQuarantineExpiry port tag s
  | .lateRecordExpiry completer requester tag => Sys2Proof.Machine.execLateRecordExpiry completer requester tag s
  | .drsReceived port ep => Sys2Proof.Machine.execDrsReceived port ep s
  | .drsWaitExpiry port => Sys2Proof.Machine.execDrsWaitExpiry port s
  | .rrsRetryLimit port ep => Sys2Proof.Machine.execRrsRetryLimit port ep s
  | .pendingEndpointReset port => Sys2Proof.Machine.execPendingEndpointReset port s
  | .hostPerstAsserted cage => Sys2Proof.Machine.execHostPerstAsserted cage s
  | .hotResetReceived port => Sys2Proof.Machine.execHotResetReceived port s
  | .upstreamDlActiveLost port => Sys2Proof.Machine.execUpstreamDlActiveLost port s
  | .upstreamDlActive port => Sys2Proof.Machine.execUpstreamDlActive port s
  | .rrsExpired port => Sys2Proof.Machine.execRrsExpired port s
  | .surpriseRemoval port presence => Sys2Proof.Machine.execSurpriseRemoval port presence s
  | .presenceDebounced cage => Sys2Proof.Machine.execPresenceDebounced cage s
  | .attentionButton button => Sys2Proof.Machine.execAttentionButton button s
  | .sidebandFrame source kind state value tag => Sys2Proof.Machine.execSidebandFrame source kind state value tag s
  | .slotControlWrite lvid k off attention power irq => Sys2Proof.Machine.execSlotControlWrite lvid k off attention power irq s
  | .barWrite lvid k bar upper wide value => Sys2Proof.Machine.execBarWrite lvid k bar upper wide value s
  | .secondaryBusReset lvid k disable => Sys2Proof.Machine.execSecondaryBusReset lvid k disable s
  | .endpointFlr port t => Sys2Proof.Machine.execEndpointFlr port t s
  | .dpcTriggerStatusClear lvid k => Sys2Proof.Machine.execDpcTriggerStatusClear lvid k s
  | .aspmL1IdleTimer port enabled => Sys2Proof.Machine.execAspmL1IdleTimer port enabled s
  | .endpointL1Request port enabled => Sys2Proof.Machine.execEndpointL1Request port enabled s
  | .l0pEvaluation port util supported => Sys2Proof.Machine.execL0pEvaluation port util supported s
  | .frameAdmission => Sys2Proof.Machine.execFrameAdmission s
  | .frameSelection port cells => Sys2Proof.Machine.execFrameSelection port cells s
  | .ageDiscard queue => Sys2Proof.Machine.execAgeDiscard queue s
  | .queueHeadAgeCheck => Sys2Proof.Machine.execQueueHeadAgeCheck s
  | .linkEcc queue reach => Sys2Proof.Machine.execLinkEcc queue reach s
  | .cellAudit missing => Sys2Proof.Machine.execCellAudit missing s
  | .frameRoute => Sys2Proof.Machine.execFrameRoute s
  | .linkWithdrawal port => Sys2Proof.Machine.execLinkWithdrawal port s
  | .withdrawnClear master slot value => Sys2Proof.Machine.execWithdrawnClear master slot value s
  | .pathPinEntryWrite master entry value => Sys2Proof.Machine.execPathPinEntryWrite master entry value s
  | .pinCutPoint => Sys2Proof.Machine.execPinCutPoint s
  | .repinAborted tcut modules command => Sys2Proof.Machine.execRepinAborted tcut modules command s
  | .drain src dst cls => Sys2Proof.Machine.execDrain src dst cls s
  | .drainAck src dst cls => Sys2Proof.Machine.execDrainAck src dst cls s
  | .drainCapExpiry window cls => Sys2Proof.Machine.execDrainCapExpiry window cls s
  | .oldPathExpiry => Sys2Proof.Machine.execOldPathExpiry s
  | .attEntryWrite master entry value => Sys2Proof.Machine.execAttEntryWrite master entry value s
  | .shaperWheelSlot => Sys2Proof.Machine.execShaperWheelSlot s
  | .wrShpRateWrite master value => Sys2Proof.Machine.execWrShpRateWrite master value s
  | .gateBankCountWrite master port bank value => Sys2Proof.Machine.execGateBankCountWrite master port bank value s
  | .gateListStart port => Sys2Proof.Machine.execGateListStart port s
  | .gateEntryBoundary port => Sys2Proof.Machine.execGateEntryBoundary port s
  | .guardBandRecompute port => Sys2Proof.Machine.execGuardBandRecompute port s
  | .bOversize queue => Sys2Proof.Machine.execBOversize queue s
  | .shaperAudit faulty => Sys2Proof.Machine.execShaperAudit faulty s
  | .shaperSet h shaper flags queues owner rate burst => Sys2Proof.Machine.execShaperSet h shaper flags queues owner rate burst s
  | .quantumSet h queue quantum => Sys2Proof.Machine.execQuantumSet h queue quantum s
  | .gateListLoad h fpid count bmax base cycle addr source => Sys2Proof.Machine.execGateListLoad h fpid count bmax base cycle addr source s
  | .ageLimitSet h cls limit => Sys2Proof.Machine.execAgeLimitSet h cls limit s
  | .vitrineCreate h fpid lvid nvdp cto flags minimum quota shapers channels => Sys2Proof.Machine.execVitrineCreate h fpid lvid nvdp cto flags minimum quota shapers channels s
  | .vitrineDestroy h gvh => Sys2Proof.Machine.execVitrineDestroy h gvh s
  | .bindEndpoint h gvh fpid ld k cls share far => Sys2Proof.Machine.execBindEndpoint h gvh fpid ld k cls share far s
  | .unbindEndpoint h gvh k => Sys2Proof.Machine.execUnbindEndpoint h gvh k s
  | .vitrineSet h gvh cto flags => Sys2Proof.Machine.execVitrineSet h gvh cto flags s
  | .vitrineHotReset lvid => Sys2Proof.Machine.execVitrineHotReset lvid s
  | .inflightCountZero lvid k => Sys2Proof.Machine.execInflightCountZero lvid k s
  | .inflightReport modul gvh count => Sys2Proof.Machine.execInflightReport modul gvh count s
  | .squashTimeout lvid k => Sys2Proof.Machine.execSquashTimeout lvid k s
  | .freeze h gvh tcut => Sys2Proof.Machine.execFreeze h gvh tcut s
  | .freezeCutPoint lvid => Sys2Proof.Machine.execFreezeCutPoint lvid s
  | .freezeTimeout lvid => Sys2Proof.Machine.execFreezeTimeout lvid s
  | .save h gvh => Sys2Proof.Machine.execSave h gvh s
  | .restore h gvh fpid lvid source image => Sys2Proof.Machine.execRestore h gvh fpid lvid source image s
  | .thaw h gvh modul tcut => Sys2Proof.Machine.execThaw h gvh modul tcut s
  | .thawCutPoint cut => Sys2Proof.Machine.execThawCutPoint cut s
  | .thawCompleteRelease lvid target => Sys2Proof.Machine.execThawCompleteRelease lvid target s
  | .class3Error port ep error => Sys2Proof.Machine.execClass3Error port ep error s
  | .class4Condition port fault => Sys2Proof.Machine.execClass4Condition port fault s
  | .containmentNotice source scope id cause => Sys2Proof.Machine.execContainmentNotice source scope id cause s
  | .noticeRepeatTimer modul scope id => Sys2Proof.Machine.execNoticeRepeatTimer modul scope id s
  | .accessionStart port ep found => Sys2Proof.Machine.execAccessionStart port ep found s
  | .accessionSucceeds port ep identity => Sys2Proof.Machine.execAccessionSucceeds port ep identity s
  | .accessionFailed port ep responder => Sys2Proof.Machine.execAccessionFailed port ep responder s
  | .accessionLimit port ep => Sys2Proof.Machine.execAccessionLimit port ep s
  | .sluiceRelease h scope object eseq => Sys2Proof.Machine.execSluiceRelease h scope object eseq s
  | .releaseComplete scope id => Sys2Proof.Machine.execReleaseComplete scope id s
  | .releaseFailed scope id => Sys2Proof.Machine.execReleaseFailed scope id s
  | .maskedSummary => Sys2Proof.Machine.execMaskedSummary s
  | .stagingCopy => Sys2Proof.Machine.execStagingCopy s
  | .faultInject h point count target argument => Sys2Proof.Machine.execFaultInject h point count target argument s
  | .eventLogRead h first most dest => Sys2Proof.Machine.execEventLogRead h first most dest s
  | .usb4Attach port partner trained asym => Sys2Proof.Machine.execUsb4Attach port partner trained asym s
  | .usb4LinkLoss port => Sys2Proof.Machine.execUsb4LinkLoss port s
  | .dpBandwidthRequest port tunnel ask => Sys2Proof.Machine.execDpBandwidthRequest port tunnel ask s
  | .usb4PoolShrink port link => Sys2Proof.Machine.execUsb4PoolShrink port link s
  | .symmetryEvaluation port to100 from100 to1s from1s => Sys2Proof.Machine.execSymmetryEvaluation port to100 from100 to1s from1s s
  | .pcieTunnelEstablish port found deep => Sys2Proof.Machine.execPcieTunnelEstablish port found deep s
  | .tunCeModeWrite engine value => Sys2Proof.Machine.execTunCeModeWrite engine value s
  | .tunCeScanoutWrite engine value => Sys2Proof.Machine.execTunCeScanoutWrite engine value s
  | .verticalBlanking engine => Sys2Proof.Machine.execVerticalBlanking engine s
  | .consoleEngineFlr engine => Sys2Proof.Machine.execConsoleEngineFlr engine s
  | .streamBudgetFreed => Sys2Proof.Machine.execStreamBudgetFreed s
  | .dpSinkReappears port tunnel sink => Sys2Proof.Machine.execDpSinkReappears port tunnel sink s
  | .consoleFrame source frame => Sys2Proof.Machine.execConsoleFrame source frame s
  | .consoleLineDue source engine line segments => Sys2Proof.Machine.execConsoleLineDue source engine line segments s
  | .consoleSegments => Sys2Proof.Machine.execConsoleSegments s
  | .consoleAttach h engine dest port tunnel far => Sys2Proof.Machine.execConsoleAttach h engine dest port tunnel far s
  | .consoleDetach h engine => Sys2Proof.Machine.execConsoleDetach h engine s
  | .tunnelConfig h port value => Sys2Proof.Machine.execTunnelConfig h port value s
  | .serviceOwner h port pin => Sys2Proof.Machine.execServiceOwner h port pin s
  | .serviceCandidateAttach port usb4 => Sys2Proof.Machine.execServiceCandidateAttach port usb4 s
  | .ownerDetach => Sys2Proof.Machine.execOwnerDetach s
  | .ownerWaitExpiry => Sys2Proof.Machine.execOwnerWaitExpiry s
  | .ownerChanged speed => Sys2Proof.Machine.execOwnerChanged speed s
  | .usbaOvercurrent port => Sys2Proof.Machine.execUsbaOvercurrent port s
  | .ushMudConnectWrite master value speed => Sys2Proof.Machine.execUshMudConnectWrite master value speed s
  | .getInfo len => Sys2Proof.Machine.execGetInfo len s
  | .submitCommand len addr data completes => Sys2Proof.Machine.execSubmitCommand len addr data completes s
  | .getResponse len tag => Sys2Proof.Machine.execGetResponse len tag s
  | .imageBegin len target length crc completes => Sys2Proof.Machine.execImageBegin len target length crc completes s
  | .imageData data => Sys2Proof.Machine.execImageData data s
  | .imageCommit len completes => Sys2Proof.Machine.execImageCommit len completes s
  | .imageAbort len completes => Sys2Proof.Machine.execImageAbort len completes s
  | .logOpen len source start completes => Sys2Proof.Machine.execLogOpen len source start completes s
  | .logClose len completes => Sys2Proof.Machine.execLogClose len completes s
  | .logPipeSend count => Sys2Proof.Machine.execLogPipeSend count s
  | .usbBusReset gone abandons speed => Sys2Proof.Machine.execUsbBusReset gone abandons speed s
  | .responseExpiry tag => Sys2Proof.Machine.execResponseExpiry tag s
  | .usbLpmRequest state besl => Sys2Proof.Machine.execUsbLpmRequest state besl s
  | .usbIdleLinkEntry u2 enabled => Sys2Proof.Machine.execUsbIdleLinkEntry u2 enabled s
  | .remoteWake => Sys2Proof.Machine.execRemoteWake s
  | .hostResume => Sys2Proof.Machine.execHostResume s
  | .pdPortDisabled port => Sys2Proof.Machine.execPdPortDisabled port s
  | .moistureCheck port reading => Sys2Proof.Machine.execMoistureCheck port reading s
  | .moistureRecheck port reading => Sys2Proof.Machine.execMoistureRecheck port reading s
  | .corrosion port => Sys2Proof.Machine.execCorrosion port s
  | .typecAttach port source cc2 => Sys2Proof.Machine.execTypecAttach port source cc2 s
  | .cableMarkerRead port marker => Sys2Proof.Machine.execCableMarkerRead port marker s
  | .cableMarkerTimeout port => Sys2Proof.Machine.execCableMarkerTimeout port s
  | .sourceCapabilitiesOffer port => Sys2Proof.Machine.execSourceCapabilitiesOffer port s
  | .pdRequest port request => Sys2Proof.Machine.execPdRequest port request s
  | .vbusWithinRange port => Sys2Proof.Machine.execVbusWithinRange port s
  | .pdHeadroomGrowth => Sys2Proof.Machine.execPdHeadroomGrowth s
  | .pdPoolShed => Sys2Proof.Machine.execPdPoolShed s
  | .eprKeepaliveLapse port => Sys2Proof.Machine.execEprKeepaliveLapse port s
  | .swapRequest port swap byPartner able => Sys2Proof.Machine.execSwapRequest port swap byPartner able s
  | .swapComplete port => Sys2Proof.Machine.execSwapComplete port s
  | .swapRetryHoldExpiry port => Sys2Proof.Machine.execSwapRetryHoldExpiry port s
  | .pdHardReset port => Sys2Proof.Machine.execPdHardReset port s
  | .hardResetRecovery port => Sys2Proof.Machine.execHardResetRecovery port s
  | .ccOpen port => Sys2Proof.Machine.execCcOpen port s
  | .dischargeComplete port => Sys2Proof.Machine.execDischargeComplete port s
  | .dischargeTimeout port mv => Sys2Proof.Machine.execDischargeTimeout port mv s
  | .pdPolicySet h port swap policy able => Sys2Proof.Machine.execPdPolicySet h port swap policy able s
  | .feedPresent feed vrms freq => Sys2Proof.Machine.execFeedPresent feed vrms freq s
  | .feedLost feed vrms freq => Sys2Proof.Machine.execFeedLost feed vrms freq s
  | .lineCategoryChange feed high => Sys2Proof.Machine.execLineCategoryChange feed high s
  | .loadShedding => Sys2Proof.Machine.execLoadShedding s
  | .stageLost stage => Sys2Proof.Machine.execStageLost stage s
  | .bothFeedsLost => Sys2Proof.Machine.execBothFeedsLost s
  | .budgetSet h highCage highPd lowCage lowPd => Sys2Proof.Machine.execBudgetSet h highCage highPd lowCage lowPd s
  | .efuseEnable h cage value scale priority => Sys2Proof.Machine.execEfuseEnable h cage value scale priority s
  | .efuseDisable h cage => Sys2Proof.Machine.execEfuseDisable h cage s
  | .efCtlEnable master fuse value => Sys2Proof.Machine.execEfCtlEnable master fuse value s
  | .efCtlDisable master fuse value => Sys2Proof.Machine.execEfCtlDisable master fuse value s
  | .efuseGateCheck fuse vgs => Sys2Proof.Machine.execEfuseGateCheck fuse vgs s
  | .efuseGateFull fuse => Sys2Proof.Machine.execEfuseGateFull fuse s
  | .efusePowerGood fuse => Sys2Proof.Machine.execEfusePowerGood fuse s
  | .efuseCurrentLimit fuse ma => Sys2Proof.Machine.execEfuseCurrentLimit fuse ma s
  | .efuseCurrentNormal fuse ma => Sys2Proof.Machine.execEfuseCurrentNormal fuse ma s
  | .efuseFaultTimerExpiry fuse => Sys2Proof.Machine.execEfuseFaultTimerExpiry fuse s
  | .efuseFastTrip fuse ma => Sys2Proof.Machine.execEfuseFastTrip fuse ma s
  | .efuseRetry fuse => Sys2Proof.Machine.execEfuseRetry fuse s
  | .efusePresenceChange fuse => Sys2Proof.Machine.execEfusePresenceChange fuse s
  | .efuseRetriesClear fuse => Sys2Proof.Machine.execEfuseRetriesClear fuse s
  | .backfeed port mv => Sys2Proof.Machine.execBackfeed port mv s
  | .vbusSwitchTest port rises => Sys2Proof.Machine.execVbusSwitchTest port rises s
  | .cagePresenceLostPowered cage => Sys2Proof.Machine.execCagePresenceLostPowered cage s
  | .cageId cage block => Sys2Proof.Machine.execCageId cage block s
  | .cageAlert cage status => Sys2Proof.Machine.execCageAlert cage status s
  | .commandNoticeIntake channel source => Sys2Proof.Machine.execCommandNoticeIntake channel source s
  | .commandDone h far commit => Sys2Proof.Machine.execCommandDone h far commit s
  | .commandForward h source x => Sys2Proof.Machine.execCommandForward h source x s
  | .remoteProgress h source => Sys2Proof.Machine.execRemoteProgress h source s
  | .remoteTimeout h => Sys2Proof.Machine.execRemoteTimeout h s
  | .objectWaitTimeout h => Sys2Proof.Machine.execObjectWaitTimeout h s
  | .moduleInfo h => Sys2Proof.Machine.execModuleInfo h s
  | .portList h first => Sys2Proof.Machine.execPortList h first s
  | .endpointList h first => Sys2Proof.Machine.execEndpointList h first s
  | .endpointInfo h fpid ld => Sys2Proof.Machine.execEndpointInfo h fpid ld s
  | .vitrineInfo h gvh => Sys2Proof.Machine.execVitrineInfo h gvh s
  | .powerState h target auto => Sys2Proof.Machine.execPowerState h target auto s
  | .catalogueConfig h scope dest count first period ring addr => Sys2Proof.Machine.execCatalogueConfig h scope dest count first period ring addr s
  | .specimenConfig h on k mask port gvh ring addr => Sys2Proof.Machine.execSpecimenConfig h on k mask port gvh ring addr s
  | .counterClearSticky h bank first count => Sys2Proof.Machine.execCounterClearSticky h bank first count s
  | .timeGet h => Sys2Proof.Machine.execTimeGet h s
  | .timeSourceSet h source prio signal => Sys2Proof.Machine.execTimeSourceSet h source prio signal s
  | .schedule h time addr source => Sys2Proof.Machine.execSchedule h time addr source s
  | .scheduleCancel h id => Sys2Proof.Machine.execScheduleCancel h id s
  | .scheduledCommandDue id => Sys2Proof.Machine.execScheduledCommandDue id s
  | .imageStage h target length addr crc source => Sys2Proof.Machine.execImageStage h target length addr crc source s
  | .fwWrite h target signed checks version => Sys2Proof.Machine.execFwWrite h target signed checks version s
  | .fwActivate h image reset => Sys2Proof.Machine.execFwActivate h image reset s
  | .roleSet h docent role => Sys2Proof.Machine.execRoleSet h docent role s
  | .rangeSet h entry flags base limit attr fpid addr => Sys2Proof.Machine.execRangeSet h entry flags base limit attr fpid addr s
  | .moduleReset h confirm => Sys2Proof.Machine.execModuleReset h confirm s
  | .mailboxPost master channel value => Sys2Proof.Machine.execMailboxPost master channel value s
  | .mailboxPop master channel value => Sys2Proof.Machine.execMailboxPop master channel value s
  | .mbxLockWrite master value => Sys2Proof.Machine.execMbxLockWrite master value s
  | .channelAborted master reason => Sys2Proof.Machine.execChannelAborted master reason s
  | .vmfBmeClear lvid => Sys2Proof.Machine.execVmfBmeClear lvid s
  | .vmfFlr lvid => Sys2Proof.Machine.execVmfFlr lvid s
  | .vmfReadTimeout lvid => Sys2Proof.Machine.execVmfReadTimeout lvid s
  | .docCoreRunSet master core value => Sys2Proof.Machine.execDocCoreRunSet master core value s
  | .docentReset master core value => Sys2Proof.Machine.execDocentReset master core value s
  | .docentFence core => Sys2Proof.Machine.execDocentFence core s
  | .docentStore core addr data => Sys2Proof.Machine.execDocentStore core addr data s
  | .storeBufferEntryDelivery core cached => Sys2Proof.Machine.execStoreBufferEntryDelivery core cached s
  | .windowStoreAccepted tried => Sys2Proof.Machine.execWindowStoreAccepted tried s
  | .docentWindowLoad master off bytes => Sys2Proof.Machine.execDocentWindowLoad master off bytes s
  | .prefetchMissFetch master => Sys2Proof.Machine.execPrefetchMissFetch master s
  | .heldReadDetach master => Sys2Proof.Machine.execHeldReadDetach master s
  | .parkedCompletionReplay master => Sys2Proof.Machine.execParkedCompletionReplay master s
  | .windowReadError handle status => Sys2Proof.Machine.execWindowReadError handle status s
  | .prefetchLineExpiry => Sys2Proof.Machine.execPrefetchLineExpiry s
  | .docentLr core addr bytes constrained => Sys2Proof.Machine.execDocentLr core addr bytes constrained s
  | .docentSc core addr data spurious => Sys2Proof.Machine.execDocentSc core addr data spurious s
  | .docentDeviceAtomic core addr kind => Sys2Proof.Machine.execDocentDeviceAtomic core addr kind s
  | .docentWfi core => Sys2Proof.Machine.execDocentWfi core s
  | .docentTimerInterrupt core taken => Sys2Proof.Machine.execDocentTimerInterrupt core taken s
  | .docentAccessFault core addr bytes kind => Sys2Proof.Machine.execDocentAccessFault core addr bytes kind s
  | .sync port received => Sys2Proof.Machine.execSync port received s
  | .delayReq port arrival replayed => Sys2Proof.Machine.execDelayReq port arrival replayed s
  | .delayRsp port stamp replayed => Sys2Proof.Machine.execDelayRsp port stamp replayed s
  | .parentLinkLost => Sys2Proof.Machine.execParentLinkLost s
  | .ppsEdge seconds => Sys2Proof.Machine.execPpsEdge seconds s
  | .timeSourceLost => Sys2Proof.Machine.execTimeSourceLost s
  | .hardwareTimedAction action => Sys2Proof.Machine.execHardwareTimedAction action s
  | .catalogueSnapshot tenant => Sys2Proof.Machine.execCatalogueSnapshot tenant s
  | .catalogueDumpComplete tenant => Sys2Proof.Machine.execCatalogueDumpComplete tenant s
  | .specimenSample tlp => Sys2Proof.Machine.execSpecimenSample tlp s
  | .specimenRecordWrite sample result room => Sys2Proof.Machine.execSpecimenRecordWrite sample result room s
  | .telModeChanged which on => Sys2Proof.Machine.execTelModeChanged which on s
  | .lockstepDivergence pair => Sys2Proof.Machine.execLockstepDivergence pair s
  | .failover => Sys2Proof.Machine.execFailover s
  | .pairSelftestDone passed => Sys2Proof.Machine.execPairSelftestDone passed s
  | .tableParity table entry both => Sys2Proof.Machine.execTableParity table entry both s
  | .tableScrub found => Sys2Proof.Machine.execTableScrub found s
  | .refclkSwitch die => Sys2Proof.Machine.execRefclkSwitch die s
  | .memUncorrectable offset reader => Sys2Proof.Machine.execMemUncorrectable offset reader s
  | .coolantFlowLow => Sys2Proof.Machine.execCoolantFlowLow s
  | .coolantHot => Sys2Proof.Machine.execCoolantHot s
  | .thermalWarn die temp => Sys2Proof.Machine.execThermalWarn die temp s
  | .thermalTrip die => Sys2Proof.Machine.execThermalTrip die s
  | .ambientHot temp => Sys2Proof.Machine.execAmbientHot temp s
  | .ageingMeasurement die pairs temp => Sys2Proof.Machine.execAgeingMeasurement die pairs temp s
  | .droopRaise rail => Sys2Proof.Machine.execDroopRaise rail s
  | .avsAcknowledged rail => Sys2Proof.Machine.execAvsAcknowledged rail s
  | .avsAckTimeout rail vout => Sys2Proof.Machine.execAvsAckTimeout rail vout s
  | .marginPlanRun run => Sys2Proof.Machine.execMarginPlanRun run s
  | .hltPlanRunWrite master value => Sys2Proof.Machine.execHltPlanRunWrite master value s
  | .moduleWatchdogExpiry => Sys2Proof.Machine.execModuleWatchdogExpiry s
  | .portDieLoss die => Sys2Proof.Machine.execPortDieLoss die s
  | .tunnelHubDieLoss => Sys2Proof.Machine.execTunnelHubDieLoss s
  | .moduleStart run => Sys2Proof.Machine.execModuleStart run s
  | .cageGroupEnable group => Sys2Proof.Machine.execCageGroupEnable group s
  | .moduleReady ms late steps => Sys2Proof.Machine.execModuleReady ms late steps s
  | .hello port msg => Sys2Proof.Machine.execHello port msg s
  | .adj port msg => Sys2Proof.Machine.execAdj port msg s
  | .topologySettled directory => Sys2Proof.Machine.execTopologySettled directory s
  | .admitModule port target id registrar => Sys2Proof.Machine.execAdmitModule port target id registrar s
  | .compositionLoaded gen homes => Sys2Proof.Machine.execCompositionLoaded gen homes s
  | .routeDistribution entries sent => Sys2Proof.Machine.execRouteDistribution entries sent s
  | .vitrineRestoreAtStart lvid vitrine => Sys2Proof.Machine.execVitrineRestoreAtStart lvid vitrine s
  | .registrarLost => Sys2Proof.Machine.execRegistrarLost s
  | .quietEvaluation => Sys2Proof.Machine.execQuietEvaluation s
  | .pwrModeArm master value => Sys2Proof.Machine.execPwrModeArm master value s
  | .powerEntryCommit => Sys2Proof.Machine.execPowerEntryCommit s
  | .quietEntry nak => Sys2Proof.Machine.execQuietEntry nak s
  | .wakeEvent event => Sys2Proof.Machine.execWakeEvent event s
  | .wakeReplayed => Sys2Proof.Machine.execWakeReplayed s
  | .padReleaseWrite master value => Sys2Proof.Machine.execPadReleaseWrite master value s
  | .dormantEntry => Sys2Proof.Machine.execDormantEntry s
  | .wakeN => Sys2Proof.Machine.execWakeN s
  | .rateChangeOrdered port rate => Sys2Proof.Machine.execRateChangeOrdered port rate s
  | .hostPerstRelease cage => Sys2Proof.Machine.execHostPerstRelease cage s
  | .devicePerstRelease cage => Sys2Proof.Machine.execDevicePerstRelease cage s
  | .eprModeEntry port => Sys2Proof.Machine.execEprModeEntry port s
  | .usbSuspend remoteWakeup => Sys2Proof.Machine.execUsbSuspend remoteWakeup s
  | .ieee1588Message message => Sys2Proof.Machine.execIeee1588Message message s
  | .containmentNoticeAck modul scope id => Sys2Proof.Machine.execContainmentNoticeAck modul scope id s
  | .pinEntryAck modul tcut => Sys2Proof.Machine.execPinEntryAck modul tcut s
  | .frontEndDisconnect feed => Sys2Proof.Machine.execFrontEndDisconnect feed s

end Sys2Proof.Machine
end

