-- ==== Sys2Proof/Machine/Step.lean ====
section
/-! DEFINITION. A step of the module: the oldest waiting command is carried out; with none waiting, a tick of fabric time passes. -/

namespace Sys2Proof.Machine

/-- With no command waiting one tick of 62.5 ps passes, and what only its passing sets off happens: timers, slewing, completions that an
injected fault holds, TLPs that wait for their port's share of the Basin (R174; DESIGN CHOICE, log entry 26). -/
def State.idle (s : State) : State := powered s { s with dev := s.dev.tick.releaseDue.retryHeld }

/-- A step: the command at the front of the queue runs with the queue's rest; on an empty queue the module idles. -/
def step (s : State) : Host.Outcome State Fault Refusal :=
  match s.pending with
  | [] => .next s.idle
  | c :: rest => exec c { s with pending := rest }

/-- The state with the command that a word spells put at the front of its queue; unchanged where the word spells none. -/
def State.withFetchWord (s : State) (nbits w : Nat) : State :=
  match decodeTableWord nbits w with
  | some c => { s with pending := c :: s.pending }
  | none => s

end Sys2Proof.Machine
end

