-- ==== Sys2Proof/Safety.lean ====
section
/-! DEFINITION. What statements say about whole states and runs: the canonical form of memory, what a step that ends well answers, and
what a command leaves as it was. -/

namespace Sys2Proof.Machine

/-- The memory is in canonical form: addresses strictly rising, no entry of the byte an unlisted address reads as. -/
def State.MemoryOk (s : State) : Prop := Memory.wf s.mem = true

/-- An outcome is a next state of which P holds. -/
def NextIs (o : Host.Outcome State Fault Refusal) (P : State → Prop) : Prop := ∃ t, o = .next t ∧ P t

/-- Memory, non-volatile storage and the queue of waiting commands stay as they were. -/
def OnlyDev (s t : State) : Prop := t.mem = s.mem ∧ t.nv = s.nv ∧ t.pending = s.pending

/-- The module's structures beside its registers: one name for each field of `Dev` but `regs`. -/
inductive Part where
  | now | weir | shadows | drawn | out | ring | staging | overrun | booted | limited | masked | ctrs | injections | injecting
  | arrived | routed | egress | queues | cellsFree | cellsUsed | outs | wins | dwins | trk | tagHolds | lates | endpoints | vits
  | vports | vmfs | cfg | heldTlps | notices | lockSrc | lockSince | slots | lastTraffic | brokenQueues | links | shapers | pins
  | atts | pinAcks | registrar | perstReleased | owesDrs | sbSeq | sbSeen | heldCpls | saves | lanes | ports | pausedLinks
  | eqTable | eqReported | owesDetect | fronts | engines | inStreams | candidates | usbaOpen | hubPort | mud | mudDone
  | ringRecords | pds | efuses | efQueue | splits | feedOff | cmds | homes | edges | edgesOut | images | scheduled | chans
  | pfLines | pfLog | pfSeq | winReads | winFetches | winStores | heldRemote | cores | time | cats | spcs | samples | rails
  | refB | halted | haltedBy | conditions | alertUntil | tripped | lostDies | withheld | topo | partners | ownAseq | described
  | elected | assigned | bootFailed | orphaned | conflict | supply | byCommand | tried | latched | trafficAt
  deriving DecidableEq, Repr

/-- A structure is the same in two modules. -/
def Part.Same (p : Part) (d e : Dev) : Prop :=
  match p with
  | .now => e.now = d.now
  | .weir => e.weir = d.weir
  | .shadows => e.shadows = d.shadows
  | .drawn => e.drawn = d.drawn
  | .out => e.out = d.out
  | .ring => e.ring = d.ring
  | .staging => e.staging = d.staging
  | .overrun => e.overrun = d.overrun
  | .booted => e.booted = d.booted
  | .limited => e.limited = d.limited
  | .masked => e.masked = d.masked
  | .ctrs => e.ctrs = d.ctrs
  | .injections => e.injections = d.injections
  | .injecting => e.injecting = d.injecting
  | .arrived => e.arrived = d.arrived
  | .routed => e.routed = d.routed
  | .egress => e.egress = d.egress
  | .queues => e.queues = d.queues
  | .cellsFree => e.cellsFree = d.cellsFree
  | .cellsUsed => e.cellsUsed = d.cellsUsed
  | .outs => e.outs = d.outs
  | .wins => e.wins = d.wins
  | .dwins => e.dwins = d.dwins
  | .trk => e.trk = d.trk
  | .tagHolds => e.tagHolds = d.tagHolds
  | .lates => e.lates = d.lates
  | .endpoints => e.endpoints = d.endpoints
  | .vits => e.vits = d.vits
  | .vports => e.vports = d.vports
  | .vmfs => e.vmfs = d.vmfs
  | .cfg => e.cfg = d.cfg
  | .heldTlps => e.heldTlps = d.heldTlps
  | .notices => e.notices = d.notices
  | .lockSrc => e.lockSrc = d.lockSrc
  | .lockSince => e.lockSince = d.lockSince
  | .slots => e.slots = d.slots
  | .lastTraffic => e.lastTraffic = d.lastTraffic
  | .brokenQueues => e.brokenQueues = d.brokenQueues
  | .links => e.links = d.links
  | .shapers => e.shapers = d.shapers
  | .pins => e.pins = d.pins
  | .atts => e.atts = d.atts
  | .pinAcks => e.pinAcks = d.pinAcks
  | .registrar => e.registrar = d.registrar
  | .perstReleased => e.perstReleased = d.perstReleased
  | .owesDrs => e.owesDrs = d.owesDrs
  | .sbSeq => e.sbSeq = d.sbSeq
  | .sbSeen => e.sbSeen = d.sbSeen
  | .heldCpls => e.heldCpls = d.heldCpls
  | .saves => e.saves = d.saves
  | .lanes => e.lanes = d.lanes
  | .ports => e.ports = d.ports
  | .pausedLinks => e.pausedLinks = d.pausedLinks
  | .eqTable => e.eqTable = d.eqTable
  | .eqReported => e.eqReported = d.eqReported
  | .owesDetect => e.owesDetect = d.owesDetect
  | .fronts => e.fronts = d.fronts
  | .engines => e.engines = d.engines
  | .inStreams => e.inStreams = d.inStreams
  | .candidates => e.candidates = d.candidates
  | .usbaOpen => e.usbaOpen = d.usbaOpen
  | .hubPort => e.hubPort = d.hubPort
  | .mud => e.mud = d.mud
  | .mudDone => e.mudDone = d.mudDone
  | .ringRecords => e.ringRecords = d.ringRecords
  | .pds => e.pds = d.pds
  | .efuses => e.efuses = d.efuses
  | .efQueue => e.efQueue = d.efQueue
  | .splits => e.splits = d.splits
  | .feedOff => e.feedOff = d.feedOff
  | .cmds => e.cmds = d.cmds
  | .homes => e.homes = d.homes
  | .edges => e.edges = d.edges
  | .edgesOut => e.edgesOut = d.edgesOut
  | .images => e.images = d.images
  | .scheduled => e.scheduled = d.scheduled
  | .chans => e.chans = d.chans
  | .pfLines => e.pfLines = d.pfLines
  | .pfLog => e.pfLog = d.pfLog
  | .pfSeq => e.pfSeq = d.pfSeq
  | .winReads => e.winReads = d.winReads
  | .winFetches => e.winFetches = d.winFetches
  | .winStores => e.winStores = d.winStores
  | .heldRemote => e.heldRemote = d.heldRemote
  | .cores => e.cores = d.cores
  | .time => e.time = d.time
  | .cats => e.cats = d.cats
  | .spcs => e.spcs = d.spcs
  | .samples => e.samples = d.samples
  | .rails => e.rails = d.rails
  | .refB => e.refB = d.refB
  | .halted => e.halted = d.halted
  | .haltedBy => e.haltedBy = d.haltedBy
  | .conditions => e.conditions = d.conditions
  | .alertUntil => e.alertUntil = d.alertUntil
  | .tripped => e.tripped = d.tripped
  | .lostDies => e.lostDies = d.lostDies
  | .withheld => e.withheld = d.withheld
  | .topo => e.topo = d.topo
  | .partners => e.partners = d.partners
  | .ownAseq => e.ownAseq = d.ownAseq
  | .described => e.described = d.described
  | .elected => e.elected = d.elected
  | .assigned => e.assigned = d.assigned
  | .bootFailed => e.bootFailed = d.bootFailed
  | .orphaned => e.orphaned = d.orphaned
  | .conflict => e.conflict = d.conflict
  | .supply => e.supply = d.supply
  | .byCommand => e.byCommand = d.byCommand
  | .tried => e.tried = d.tried
  | .latched => e.latched = d.latched
  | .trafficAt => e.trafficAt = d.trafficAt

/-- Every field of every register outside R, in every instance, and every structure outside P is in e what it is in d. -/
def Dev.Keeps (R : List Reg) (P : List Part) (d e : Dev) : Prop :=
  (∀ (f : Fld) (i : Nat), f.reg ∉ R → f.lo < 32 → e.get f i = d.get f i) ∧ ∀ p, p ∉ P → p.Same d e

/-- From s to t nothing changes but registers in R and structures in P: memory, non-volatile storage and the queue stay. -/
def State.Keeps (R : List Reg) (P : List Part) (s t : State) : Prop := OnlyDev s t ∧ s.dev.Keeps R P t.dev

/-- The registers that the writing of an event record may change (R278, R280, R320, R386, R495). -/
def recordRegs : List Reg :=
  [.SLC_ESEQ_LO, .SLC_ESEQ_HI, .SLC_LOG_HEAD, .SLC_LOG_WRAPS, .VMF_EVENT_FLAGS, .VMF_INTX, .PWR_WAKE, .USH_MUD_STATUS]

/-- The structures that the writing of an event record may change: the ring and its staging buffer, and through a VMF's interrupt the
INTx wires, the INTx counter and the message to the host (R127, R280, R386, R498). -/
def recordParts : List Part := [.alertUntil, .conditions, .ring, .staging, .overrun, .latched, .vits, .ctrs, .out]

/-! ### Commands of the Curator protocol -/

/-- This module carries out a command here and now: it takes commands, the MODULE field and the object are this module's, the role is
permitted and no reserved parameter byte is set (R365 to R369, R476). -/
def Dev.CarriesOut (d : Dev) (h : CmdHdr) (opcode : Nat) (roles : List Nat) (target : Nat) : Prop :=
  d.takes h opcode = true ∧ (h.modul = 0xFFFF ∨ h.modul = target) ∧ (d.roleOf h = 0 ∨ d.roleOf h ∈ roles) ∧ target = d.moduleId ∧
    (d.cmdOf h opcode).stray = none

/-- The command of a header has ended with a status (R363). -/
def Dev.Ends (d : Dev) (h : CmdHdr) (opcode status : Nat) : Prop :=
  (d.cmdOf h opcode).status = status ∧ (d.cmdOf h opcode).wait = .nothing

/-- The command of a header stays PENDING until what it waits for (R364). -/
def Dev.Awaits (d : Dev) (h : CmdHdr) (opcode : Nat) (w : Wait) : Prop :=
  (d.cmdOf h opcode).status = Status.pending ∧ (d.cmdOf h opcode).wait = w

/-! ### What each command may change -/

/-- What a command may change at most: registers, structures, the module's memory, non-volatile storage. -/
structure Footprint where
  regs : List Reg
  parts : List Part
  mem : Bool := false
  nv : Bool := false
  deriving DecidableEq, Repr

/-- From s to t nothing changes but what a footprint names; the queue stays. -/
def Footprint.Holds (f : Footprint) (s t : State) : Prop :=
  (f.mem = false → t.mem = s.mem) ∧ (f.nv = false → t.nv = s.nv) ∧ t.pending = s.pending ∧ s.dev.Keeps f.regs f.parts t.dev

/-- Every structure of the module. -/
def allParts : List Part :=
  [.now, .weir, .shadows, .drawn, .out, .ring, .staging, .overrun, .booted, .limited, .masked, .ctrs, .injections, .injecting,
   .arrived, .routed, .egress, .queues, .cellsFree, .cellsUsed, .outs, .wins, .dwins, .trk, .tagHolds, .lates, .endpoints, .vits,
   .vports, .vmfs, .cfg, .heldTlps, .notices, .lockSrc, .lockSince, .slots, .lastTraffic, .brokenQueues, .links, .shapers, .pins,
   .atts, .pinAcks, .registrar, .perstReleased, .owesDrs, .sbSeq, .sbSeen, .heldCpls, .saves, .lanes, .ports, .pausedLinks,
   .eqTable, .eqReported, .owesDetect, .fronts, .engines, .inStreams, .candidates, .usbaOpen, .hubPort, .mud, .mudDone,
   .ringRecords, .pds, .efuses, .efQueue, .splits, .feedOff, .cmds, .homes, .edges, .edgesOut, .images, .scheduled, .chans,
   .pfLines, .pfLog, .pfSeq, .winReads, .winFetches, .winStores, .heldRemote, .cores, .time, .cats, .spcs, .samples, .rails,
   .refB, .halted, .haltedBy, .conditions, .alertUntil, .tripped, .lostDies, .withheld, .topo, .partners, .ownAseq, .described,
   .elected, .assigned, .bootFailed, .orphaned, .conflict, .supply, .byCommand, .tried, .latched, .trafficAt]

/-- The registers of a VMF's BAR0 and of a Console Engine's BAR2 (R301, R385). -/
def barRegs : List Reg := allRegs.filter fun r =>
  match r.place with
  | .bar0 _ | .bar2 _ => true
  | _ => false

/-- The footprint of every command. -/
def footprint (i : Instr) : Footprint :=
  match i with
  | .moduleResetEvent .. => ⟨allRegs, allParts, false, false⟩
  | .registerWrite .. => ⟨allRegs, (.arrived :: .atts :: .cellsFree :: .chans :: .cmds :: .cores :: .drawn :: .drawn :: .dwins :: .efQueue
      :: .efuses :: .endpoints :: .engines :: .eqReported :: .fronts :: .heldTlps :: .lanes :: .links :: .lockSince :: .lockSrc :: .mud ::
      .notices :: .outs :: .pausedLinks :: .pds :: .perstReleased :: .pfLines :: .pfLog :: .pfSeq :: .pins :: .ports :: .queues :: .sbSeq
      :: .shapers :: .time :: .trk :: .vports :: .winFetches :: .winReads :: .winStores :: .wins :: .withheld :: recordParts), true,
      false⟩
  | .regAccessBad .. => ⟨recordRegs, recordParts, false, false⟩
  | .regPairLowRead .. => ⟨[.WR_GATE_STAT], [.out, .shadows], false, false⟩
  | .regPairHighRead .. => ⟨[.WR_GATE_STAT], [.out, .shadows], false, false⟩
  | .readClearFieldRead .. => ⟨[.WR_GATE_STAT], [.out, .shadows], false, false⟩
  | .laneEnableSet .. => ⟨(.LNA_ALIGN :: .LNA_LANE_CFG :: .LNA_LANE_STATE :: .LNA_MRG_RESULT :: .LNA_RX_EQ :: .LNA_TRAIN_REF :: .LNA_TX_EQ
      :: recordRegs), (.cmds :: .eqReported :: .lanes :: .ports :: recordParts), false, false⟩
  | .laneEnableCleared .. => ⟨(.FLL_LINK_STATUS :: .FLL_REPLAY :: .LNA_ALIGN :: .LNA_LANE_CFG :: .LNA_LANE_STATE :: .LNA_MRG_RESULT ::
      .LNA_TRAIN_REF :: .PIN_CTL :: .PIN_OLD :: .RTE_EVENTS :: .RTE_GRP_SLOT :: .WR_Q_DRR :: recordRegs), (.arrived :: .cellsFree :: .cmds
      :: .dwins :: .lanes :: .links :: .outs :: .pausedLinks :: .pins :: .ports :: .queues :: recordParts), false, false⟩
  | .laneTxEqWrite .. => ⟨(.LNA_TX_EQ :: recordRegs), recordParts, false, false⟩
  | .cagePowerGoodLaneRelease .. => ⟨(.LNA_ALIGN :: .LNA_LANE_STATE :: .LNA_MRG_RESULT :: .LNA_RX_EQ :: .LNA_TRAIN_REF :: .LNA_TX_EQ ::
      recordRegs), (.cmds :: .eqReported :: .lanes :: .ports :: recordParts), false, false⟩
  | .receiverDetected .. => ⟨[.LNA_ALIGN, .LNA_LANE_STATE, .LNA_MRG_RESULT, .LNA_RX_EQ, .LNA_TRAIN_REF, .LNA_TX_EQ], [.cmds, .lanes, .out,
      .ports], false, false⟩
  | .detectTimerExpiry .. => ⟨[], [.out], false, false⟩
  | .bitLockAcquired .. => ⟨[.LNA_ALIGN, .LNA_BITSLIP, .LNA_LANE_STATE, .LNA_MRG_RESULT, .LNA_TRAIN_REF], [.cmds, .lanes, .ports], false,
      false⟩
  | .symbolLockAcquired .. => ⟨(.EBR_CRD_AVAIL :: .FLL_EVENTS :: .FLL_LINK_STATUS :: .FLL_REPLAY :: .FLL_SEQ :: .LNA_ALIGN ::
      .LNA_LANE_STATE :: .LNA_MRG_RESULT :: .LNA_TRAIN_REF :: .WR_GATE_STATUS :: .WR_PORT_GUARD :: recordRegs), (.arrived :: .cmds ::
      .lanes :: .links :: .pausedLinks :: .ports :: .wins :: recordParts), false, false⟩
  | .rearSymlockTimeout .. => ⟨(.LNA_EVENTS :: recordRegs), (.lanes :: recordParts), false, false⟩
  | .bitslipSearchStep .. => ⟨(.EBR_CRD_AVAIL :: .FLL_EVENTS :: .FLL_LINK_STATUS :: .FLL_REPLAY :: .FLL_SEQ :: .LNA_ALIGN :: .LNA_BITSLIP
      :: .LNA_LANE_STATE :: .LNA_MRG_RESULT :: .LNA_TRAIN_REF :: .WR_GATE_STATUS :: .WR_PORT_GUARD :: recordRegs), (.arrived :: .cmds ::
      .lanes :: .links :: .pausedLinks :: .ports :: .wins :: recordParts), false, false⟩
  | .lnaBitslipDelayWrite .. => ⟨(.LNA_BITSLIP :: recordRegs), (.lanes :: recordParts), false, false⟩
  | .bitslipDelayApplied .. => ⟨[.LNA_ALIGN, .LNA_BITSLIP], [.lanes], false, false⟩
  | .partnerCoefficientRequest .. => ⟨[.LNA_TX_EQ], [.drawn, .out], false, false⟩
  | .tapsAgreed .. => ⟨(.EBR_CRD_AVAIL :: .FLL_EVENTS :: .FLL_LINK_STATUS :: .FLL_REPLAY :: .FLL_SEQ :: .LNA_ALIGN :: .LNA_LANE_STATE ::
      .LNA_MRG_RESULT :: .LNA_TRAIN_REF :: .WR_GATE_STATUS :: .WR_PORT_GUARD :: recordRegs), (.arrived :: .cmds :: .lanes :: .links ::
      .pausedLinks :: .ports :: .wins :: recordParts), false, false⟩
  | .capxExchangeComplete .. => ⟨(.EBR_CRD_AVAIL :: .FLL_LINK_STATUS :: .FLL_REPLAY :: .LNA_ALIGN :: .LNA_LANE_STATE :: .LNA_MRG_RESULT ::
      .LNA_RX_EQ :: .LNA_TRAIN_REF :: .LNA_TX_EQ :: .PRT_EVENTS :: .PRT_PORT_STATUS :: .TUN_CE_GEOM :: .TUN_CE_IRQ :: .TUN_CE_MODE ::
      .TUN_CE_SCANOUT :: .TUN_CE_STATUS :: .TUN_CE_STRIDE :: .WR_GATE_STATUS :: .WR_PORT_GUARD :: recordRegs), (.arrived :: .cmds ::
      .edges :: .edgesOut :: .endpoints :: .engines :: .eqReported :: .lanes :: .links :: .ports :: .wins :: recordParts), false, false⟩
  | .laneAttemptTimerExpiry .. => ⟨(.LNA_ALIGN :: .LNA_EVENTS :: .LNA_LANE_STATE :: .LNA_MRG_RESULT :: .LNA_RX_EQ :: .LNA_TRAIN_REF ::
      .LNA_TX_EQ :: recordRegs), (.cmds :: .eqReported :: .lanes :: .ports :: recordParts), false, false⟩
  | .laneBitLockLost .. => ⟨(.LNA_ALIGN :: .LNA_EVENTS :: .LNA_LANE_STATE :: .LNA_MRG_RESULT :: .LNA_RX_EQ :: .LNA_TRAIN_REF :: .LNA_TX_EQ
      :: .SLC_INJ_ARMED :: .TEL_MODE :: recordRegs), (.cmds :: .eqReported :: .injecting :: .injections :: .lanes :: .ports ::
      recordParts), false, false⟩
  | .deskewFail .. => ⟨(.FLL_LINK_STATUS :: .LNA_ALIGN :: .LNA_BITSLIP :: .LNA_EVENTS :: .LNA_LANE_STATE :: .LNA_MRG_RESULT :: .LNA_RX_EQ
      :: .LNA_TRAIN_REF :: .LNA_TX_EQ :: recordRegs), (.cmds :: .eqReported :: .lanes :: .ports :: recordParts), false, false⟩
  | .laneRetirement .. => ⟨(.EBR_CRD_AVAIL :: .FLL_LINK_STATUS :: .FLL_REPLAY :: .HLT_EVENTS :: .LNA_ALIGN :: .LNA_LANE_STATE ::
      .LNA_MRG_RESULT :: .LNA_RX_EQ :: .LNA_TRAIN_REF :: .LNA_TX_EQ :: .PIN_CTL :: .PIN_OLD :: .PRT_PORT_STATUS :: .RTE_EVENTS ::
      .RTE_GRP_SLOT :: .WR_GATE_STATUS :: .WR_PORT_GUARD :: .WR_Q_DRR :: recordRegs), (.arrived :: .cellsFree :: .cmds :: .dwins ::
      .eqReported :: .lanes :: .links :: .outs :: .pausedLinks :: .pins :: .ports :: .queues :: .wins :: recordParts), false, false⟩
  | .marginScanStart .. => ⟨(.LNA_MRG_CTL :: .LNA_MRG_RESULT :: recordRegs), (.lanes :: recordParts), false, false⟩
  | .marginScanAbort .. => ⟨(.LNA_MRG_CTL :: .LNA_MRG_RESULT :: .LNA_TRAIN_REF :: recordRegs), (.cmds :: .lanes :: .ports :: recordParts),
      false, false⟩
  | .marginScanComplete .. => ⟨(.LNA_EVENTS :: .LNA_MRG_RESULT :: .LNA_TRAIN_REF :: recordRegs), (.cmds :: .lanes :: .ports ::
      recordParts), false, false⟩
  | .loadTriggerEvaluation .. => ⟨[.LNA_MRG_RESULT], [.ctrs, .lanes, .ports], false, false⟩
  | .fabricLinkReequalisation .. => ⟨(.EBR_CRD_AVAIL :: .FLL_EVENTS :: .FLL_LINK_STATUS :: .FLL_REPLAY :: .FLL_SEQ :: .LNA_ALIGN ::
      .LNA_EVENTS :: .LNA_LANE_STATE :: .LNA_MRG_RESULT :: .LNA_TRAIN_REF :: .WR_GATE_STATUS :: .WR_PORT_GUARD :: recordRegs), (.arrived
      :: .cmds :: .lanes :: .links :: .pausedLinks :: .ports :: .wins :: recordParts), false, false⟩
  | .pcieReeqWindowOpen .. => ⟨(.EBR_CRD_AVAIL :: .FLL_LINK_STATUS :: .FLL_REPLAY :: .HLT_EVENTS :: .LNA_ALIGN :: .LNA_EVENTS ::
      .LNA_LANE_STATE :: .LNA_MRG_RESULT :: .LNA_RX_EQ :: .LNA_TRAIN_REF :: .LNA_TX_EQ :: .PIN_CTL :: .PIN_OLD :: .PRT_PORT_STATUS ::
      .RTE_EVENTS :: .RTE_GRP_SLOT :: .WR_GATE_STATUS :: .WR_PORT_GUARD :: .WR_Q_DRR :: recordRegs), (.arrived :: .cellsFree :: .cmds ::
      .dwins :: .eqReported :: .lanes :: .links :: .outs :: .pausedLinks :: .pins :: .ports :: .queues :: .wins :: recordParts), false,
      false⟩
  | .reeqDeferred .. => ⟨recordRegs, (.ports :: recordParts), false, false⟩
  | .flitReceived .. => ⟨(.FLL_EVENTS :: .FLL_REPLAY :: .FLL_SEQ :: .SLC_INJ_ARMED :: .TEL_MODE :: recordRegs), (.arrived :: .injecting ::
      .injections :: .links :: .masked :: recordParts), false, false⟩
  | .nakReceived .. => ⟨(.FLL_EVENTS :: .FLL_REPLAY :: .FLL_SEQ :: recordRegs), (.links :: recordParts), false, false⟩
  | .replayTimerExpiry .. => ⟨(.FLL_EVENTS :: .FLL_LINK_STATUS :: .FLL_REPLAY :: .LNA_ALIGN :: .LNA_LANE_STATE :: .LNA_MRG_RESULT ::
      .LNA_RX_EQ :: .LNA_TRAIN_REF :: .LNA_TX_EQ :: .PIN_CTL :: .PIN_OLD :: .RTE_EVENTS :: .RTE_GRP_SLOT :: .WR_Q_DRR :: recordRegs),
      (.arrived :: .cellsFree :: .cmds :: .dwins :: .eqReported :: .lanes :: .links :: .outs :: .pausedLinks :: .pins :: .ports :: .queues
      :: recordParts), false, false⟩
  | .alignmentMarker .. => ⟨[.LNA_ALIGN], [.out], false, false⟩
  | .echoReq .. => ⟨[], [.links, .out], false, false⟩
  | .echoRsp .. => ⟨[.FLL_RTT], [.links], false, false⟩
  | .params .. => ⟨(.FLL_LINK_STATUS :: .FLL_PARTNER :: .FLL_REPLAY :: .FLL_SEQ :: .LNA_ALIGN :: .LNA_EVENTS :: .LNA_LANE_STATE ::
      .LNA_MRG_RESULT :: .LNA_RX_EQ :: .LNA_TRAIN_REF :: .LNA_TX_EQ :: recordRegs), (.cmds :: .eqReported :: .lanes :: .links :: .ports ::
      recordParts), false, false⟩
  | .linkCtlRetryTimer .. => ⟨[], [.ctrs, .links, .out, .pausedLinks], false, false⟩
  | .fabricLaneLost .. => ⟨(.FLL_LINK_STATUS :: .FLL_REPLAY :: .LNA_ALIGN :: .LNA_LANE_STATE :: .LNA_MRG_RESULT :: .LNA_TRAIN_REF ::
      .PIN_CTL :: .PIN_OLD :: .RTE_EVENTS :: .RTE_GRP_SLOT :: .WR_Q_DRR :: recordRegs), (.arrived :: .cellsFree :: .cmds :: .dwins ::
      .lanes :: .links :: .outs :: .pausedLinks :: .pins :: .ports :: .queues :: recordParts), false, false⟩
  | .widthReq .. => ⟨[.FLL_LINK_STATUS, .LNA_ALIGN, .LNA_LANE_STATE, .LNA_MRG_RESULT, .LNA_TRAIN_REF], [.cmds, .lanes, .links, .out,
      .pausedLinks, .ports], false, false⟩
  | .widthAck .. => ⟨[.LNA_ALIGN, .LNA_LANE_STATE, .LNA_MRG_RESULT, .LNA_TRAIN_REF], [.cmds, .lanes, .links, .out, .ports], false, false⟩
  | .resume .. => ⟨(.EBR_CRD_AVAIL :: .FLL_EVENTS :: .FLL_LINK_STATUS :: .FLL_REPLAY :: .FLL_SEQ :: .LNA_ALIGN :: .LNA_LANE_STATE ::
      .LNA_MRG_RESULT :: .LNA_TRAIN_REF :: .WR_GATE_STATUS :: .WR_PORT_GUARD :: recordRegs), (.arrived :: .cmds :: .lanes :: .links ::
      .pausedLinks :: .ports :: .wins :: recordParts), false, false⟩
  | .linkWidthIncrease .. => ⟨(.LNA_ALIGN :: .LNA_LANE_STATE :: .LNA_MRG_RESULT :: .LNA_RX_EQ :: .LNA_TRAIN_REF :: .LNA_TX_EQ ::
      recordRegs), (.cmds :: .eqReported :: .lanes :: .links :: .ports :: recordParts), false, false⟩
  | .speedReq .. => ⟨[.FLL_LINK_STATUS, .LNA_ALIGN, .LNA_LANE_STATE, .LNA_MRG_RESULT, .LNA_RX_EQ, .LNA_TRAIN_REF, .LNA_TX_EQ], [.cmds,
      .lanes, .links, .out, .ports], false, false⟩
  | .speedChangeTimeout .. => ⟨(.EBR_CRD_AVAIL :: .FLL_EVENTS :: .FLL_LINK_STATUS :: .FLL_REPLAY :: .FLL_SEQ :: .LNA_ALIGN ::
      .LNA_LANE_STATE :: .LNA_MRG_RESULT :: .LNA_RX_EQ :: .LNA_TRAIN_REF :: .LNA_TX_EQ :: .WR_GATE_STATUS :: .WR_PORT_GUARD ::
      recordRegs), (.arrived :: .cmds :: .lanes :: .links :: .pausedLinks :: .ports :: .wins :: recordParts), false, false⟩
  | .pauseReq .. => ⟨[.FLL_LINK_STATUS, .LNA_ALIGN, .LNA_LANE_STATE, .LNA_MRG_RESULT, .LNA_TRAIN_REF], [.cmds, .ctrs, .lanes, .out,
      .pausedLinks, .ports], false, false⟩
  | .pauseAck .. => ⟨[.FLL_LINK_STATUS, .LNA_ALIGN, .LNA_LANE_STATE, .LNA_MRG_RESULT, .LNA_TRAIN_REF], [.cmds, .ctrs, .lanes, .links,
      .ports], false, false⟩
  | .creditFrameReceived .. => ⟨(.EBR_CRD_AUDIT :: .EBR_CRD_AVAIL :: .EBR_CRD_GRANT :: .EBR_CRD_LOST :: .PIN_CTL :: .PIN_DST :: .PIN_OLD
      :: .PIN_SRC :: .PIN_TCUT_HI :: .PIN_TCUT_LO :: .RTE_EVENTS :: .SLC_INJ_ARMED :: .TEL_MODE :: recordRegs), (.arrived :: .heldTlps ::
      .injections :: .limited :: .outs :: .pins :: .trk :: .wins :: .withheld :: recordParts), false, false⟩
  | .creditReturnSend .. => ⟨[], [.arrived, .dwins], false, false⟩
  | .creditWindowGrant .. => ⟨(.EBR_CRD_AUDIT :: .EBR_CRD_AVAIL :: .EBR_CRD_GRANT :: .PIN_CTL :: .PIN_DST :: .PIN_OLD :: .PIN_SRC ::
      .PIN_TCUT_HI :: .PIN_TCUT_LO :: .RTE_EVENTS :: recordRegs), (.arrived :: .dwins :: .limited :: .pins :: .wins :: recordParts),
      false, false⟩
  | .creditQuietPoint .. => ⟨(.EBR_CRD_AUDIT :: recordRegs), recordParts, false, false⟩
  | .resyncStart .. => ⟨[.EBR_CRD_AVAIL], [.arrived, .wins], false, false⟩
  | .resyncReq .. => ⟨[], [.arrived, .dwins], false, false⟩
  | .resyncAck .. => ⟨(.EBR_CRD_AUDIT :: .EBR_CRD_AVAIL :: .EBR_CRD_GRANT :: .EBR_CRD_LOST :: .PIN_CTL :: .PIN_DST :: .PIN_OLD :: .PIN_SRC
      :: .PIN_TCUT_HI :: .PIN_TCUT_LO :: .RTE_EVENTS :: .SLC_INJ_ARMED :: .TEL_MODE :: recordRegs), (.arrived :: .heldTlps :: .injections
      :: .limited :: .outs :: .pins :: .trk :: .wins :: .withheld :: recordParts), false, false⟩
  | .resyncTimeout .. => ⟨(.EBR_CRD_AUDIT :: .EBR_CRD_AVAIL :: recordRegs), (.arrived :: .heldTlps :: .outs :: .trk :: .wins :: .withheld
      :: recordParts), false, false⟩
  | .portConfig .. => ⟨(.BSN_EVENTS :: .BSN_PORT_GRANT :: .BSN_PORT_RSV :: .BSN_PORT_WIN :: .BSN_Q_CFG :: .BSN_RESERVED ::
      .BSN_SHARED_SIZE :: .FLL_EVENTS :: .FLL_LINK_STATUS :: .FLL_PARTNER :: .FLL_REPLAY :: .FLL_RTT :: .FLL_SEQ :: .LNA_LANE_CFG ::
      .PRT_EVENTS :: .PRT_LTR :: .PRT_PM_CFG :: .PRT_PORT_CFG :: .PRT_PORT_STATUS :: .WR_GATE_STATUS :: .WR_PORT_GUARD :: .WR_Q_CFG ::
      recordRegs), (.cmds :: .edges :: .edgesOut :: .links :: .ports :: recordParts), false, false⟩
  | .portEnable .. => ⟨(.ATT_CTL :: .ATT_EP_HI :: .ATT_EP_LO :: .ATT_FPID :: .ATT_HOST_HI :: .ATT_HOST_LO :: .BSN_Q_STATUS ::
      .DOC_CORE_STATUS :: .DOC_EVENTS :: .DOC_WSTORE_LOST :: .EBR_CRD_AVAIL :: .EBR_EVENTS :: .EBR_LOCK :: .EBR_PFLOG_HEAD ::
      .EBR_RAT_PFDISC_HI :: .EBR_RAT_PFDISC_LO :: .FLL_LINK_STATUS :: .FLL_REPLAY :: .LNA_ALIGN :: .LNA_LANE_CFG :: .LNA_LANE_STATE ::
      .LNA_MRG_RESULT :: .LNA_RX_EQ :: .LNA_TRAIN_REF :: .LNA_TX_EQ :: .MBX_CH_STATUS :: .PIN_CTL :: .PIN_OLD :: .PRT_PORT_STATUS ::
      .RTE_EVENTS :: .RTE_GRP_SLOT :: .SLC_CONT_ESEQ_HI :: .SLC_CONT_ESEQ_LO :: .SLC_CONT_STATE :: .TUN_CE_GEOM :: .TUN_CE_IRQ ::
      .TUN_CE_MODE :: .TUN_CE_SCANOUT :: .TUN_CE_STATUS :: .TUN_CE_STRIDE :: .VIT_STATE :: .VMF_BME :: .VMF_CAT_ADDR_HI ::
      .VMF_CAT_ADDR_LO :: .VMF_CAT_SIZE :: .VMF_CAT_WPTR :: .VMF_CPL_TMO :: .VMF_EVENT_MASK :: .VMF_SPC_ADDR_HI :: .VMF_SPC_ADDR_LO ::
      .VMF_SPC_SIZE :: .VMF_SPC_WPTR :: .WR_Q_DRR :: recordRegs), (.arrived :: .atts :: .cats :: .cellsFree :: .cfg :: .chans :: .cmds ::
      .cores :: .dwins :: .endpoints :: .engines :: .eqReported :: .heldTlps :: .lanes :: .links :: .lockSince :: .lockSrc :: .notices ::
      .outs :: .owesDetect :: .owesDrs :: .pausedLinks :: .perstReleased :: .pfLog :: .pfSeq :: .pins :: .ports :: .queues :: .samples ::
      .spcs :: .trk :: .vmfs :: .vports :: .winFetches :: .winReads :: .winStores :: .wins :: .withheld :: recordParts), false, false⟩
  | .eqTableLoad .. => ⟨[], [.cmds, .eqTable, .out], false, true⟩
  | .marginScan .. => ⟨[.LNA_MRG_CTL, .LNA_MRG_RESULT], [.cmds, .lanes, .out], false, false⟩
  | .bitslip .. => ⟨[.LNA_ALIGN, .LNA_BITSLIP], [.cmds, .lanes, .out], false, false⟩
  | .retrain .. => ⟨(.BSN_Q_STATUS :: .DOC_CORE_STATUS :: .DOC_EVENTS :: .DOC_WSTORE_LOST :: .EBR_CRD_AVAIL :: .EBR_EVENTS :: .EBR_LOCK ::
      .EBR_PFLOG_HEAD :: .EBR_RAT_PFDISC_HI :: .EBR_RAT_PFDISC_LO :: .FLL_LINK_STATUS :: .FLL_REPLAY :: .LNA_ALIGN :: .LNA_EVENTS ::
      .LNA_LANE_STATE :: .LNA_MRG_RESULT :: .LNA_RX_EQ :: .LNA_TRAIN_REF :: .LNA_TX_EQ :: .PIN_CTL :: .PIN_OLD :: .PRT_PORT_STATUS ::
      .RTE_EVENTS :: .RTE_GRP_SLOT :: .SLC_CONT_STATE :: .WR_Q_DRR :: recordRegs), (.arrived :: .cellsFree :: .cmds :: .cores :: .drawn ::
      .dwins :: .endpoints :: .eqReported :: .lanes :: .links :: .lockSince :: .lockSrc :: .outs :: .pausedLinks :: .perstReleased ::
      .pfLog :: .pfSeq :: .pins :: .ports :: .queues :: .trk :: .vports :: .winFetches :: .winReads :: .winStores :: .wins ::
      recordParts), false, false⟩
  | .tlpIngress .. => ⟨(barRegs ++ (.ATT_CTL :: .ATT_EP_HI :: .ATT_EP_LO :: .ATT_FPID :: .ATT_HOST_HI :: .ATT_HOST_LO :: .BSN_EVENTS ::
      .BSN_PORT_GRANT :: .BSN_PORT_RSV :: .BSN_Q_CFG :: .BSN_Q_STATUS :: .BSN_RESERVED :: .BSN_SHARED_SIZE :: .DOC_CORE_STATUS ::
      .DOC_EVENTS :: .DOC_WSTORE_LOST :: .EBR_CRD_AVAIL :: .EBR_EVENTS :: .EBR_LOCK :: .EBR_PFLOG_HEAD :: .EBR_RAT_PFDISC_HI ::
      .EBR_RAT_PFDISC_LO :: .EBR_SIDEBAND :: .EF_CTL :: .EF_EVENTS :: .EF_STATUS :: .FLL_LINK_STATUS :: .FLL_REPLAY :: .GATE_COUNT ::
      .HLT_PLAN_CTL :: .HLT_PLAN_STATUS :: .LNA_ALIGN :: .LNA_BITSLIP :: .LNA_LANE_CFG :: .LNA_LANE_STATE :: .LNA_MRG_CTL ::
      .LNA_MRG_RESULT :: .LNA_RX_EQ :: .LNA_TRAIN_REF :: .LNA_TX_EQ :: .MBX_BIND :: .MBX_CH_PTR_HI :: .MBX_CH_PTR_LO :: .MBX_CH_STATUS ::
      .MBX_LOCK :: .PD_EVENTS :: .PD_POOL_USED :: .PD_PORT_STATUS :: .PIN_CTL :: .PIN_OLD :: .PRT_LTR :: .PRT_PORT_STATUS ::
      .PWR_CAGE_USED :: .PWR_PAD_HOLD :: .RTE_EVENTS :: .RTE_GRP_SLOT :: .SLC_CONT_ESEQ_HI :: .SLC_CONT_ESEQ_LO :: .SLC_CONT_STATE ::
      .SLC_INJ_ARMED :: .TEL_MODE :: .TIM_ERR_EST :: .TIM_EVENTS :: .TIM_ROOT :: .TIM_SRC_CFG :: .TIM_STATE :: .TUN_CE_DEST ::
      .TUN_CE_GEOM :: .TUN_CE_IRQ :: .TUN_CE_MODE :: .TUN_CE_SCANOUT :: .TUN_CE_STATUS :: .TUN_CE_STRIDE :: .TUN_PORT_ALLOT ::
      .TUN_PORT_EVENTS :: .TUN_PORT_STATUS :: .USH_EVENTS :: .USH_MUD_CTL :: .USH_OWNER :: .VIT_EVENTS :: .VIT_STATE :: .VMF_BME ::
      .VMF_CAT_ADDR_HI :: .VMF_CAT_ADDR_LO :: .VMF_CAT_SIZE :: .VMF_CAT_WPTR :: .VMF_CPL_TMO :: .VMF_EVENT_MASK :: .VMF_SPC_ADDR_HI ::
      .VMF_SPC_ADDR_LO :: .VMF_SPC_SIZE :: .VMF_SPC_WPTR :: .WR_GATE_STATUS :: .WR_PORT_EVENTS :: .WR_PORT_GUARD :: .WR_Q_CFG :: .WR_Q_DRR
      :: .WR_SHP_RATE :: recordRegs)), (.arrived :: .atts :: .cats :: .cellsFree :: .cfg :: .chans :: .cmds :: .cores :: .drawn :: .dwins
      :: .efQueue :: .efuses :: .endpoints :: .engines :: .eqReported :: .fronts :: .heldCpls :: .heldTlps :: .injections :: .lanes ::
      .limited :: .links :: .lockSince :: .lockSrc :: .mud :: .notices :: .outs :: .pausedLinks :: .pds :: .perstReleased :: .pfLines ::
      .pfLog :: .pfSeq :: .pins :: .ports :: .queues :: .samples :: .sbSeq :: .shadows :: .shapers :: .spcs :: .time :: .trk :: .vmfs ::
      .vports :: .winFetches :: .winReads :: .winStores :: .wins :: .withheld :: recordParts), false, false⟩
  | .tlpEgress .. => ⟨(barRegs ++ (.ATT_CTL :: .BSN_EVENTS :: .BSN_PORT_GRANT :: .BSN_PORT_RSV :: .BSN_Q_CFG :: .BSN_Q_STATUS ::
      .BSN_RESERVED :: .BSN_SHARED_SIZE :: .DOC_CORE_STATUS :: .DOC_EVENTS :: .DOC_WSTORE_LOST :: .EBR_CRD_AVAIL :: .EBR_EVENTS ::
      .EBR_LOCK :: .EBR_PFLOG_HEAD :: .EBR_RAT_PFDISC_HI :: .EBR_RAT_PFDISC_LO :: .EBR_SIDEBAND :: .EF_CTL :: .EF_EVENTS :: .EF_STATUS ::
      .FLL_LINK_STATUS :: .FLL_REPLAY :: .GATE_COUNT :: .HLT_PLAN_CTL :: .HLT_PLAN_STATUS :: .LNA_ALIGN :: .LNA_BITSLIP :: .LNA_LANE_CFG
      :: .LNA_LANE_STATE :: .LNA_MRG_CTL :: .LNA_MRG_RESULT :: .LNA_RX_EQ :: .LNA_TRAIN_REF :: .LNA_TX_EQ :: .MBX_BIND :: .MBX_CH_PTR_HI
      :: .MBX_CH_PTR_LO :: .MBX_CH_STATUS :: .MBX_LOCK :: .PD_EVENTS :: .PD_POOL_USED :: .PD_PORT_STATUS :: .PIN_CTL :: .PIN_OLD ::
      .PRT_PORT_STATUS :: .PWR_CAGE_USED :: .PWR_PAD_HOLD :: .RTE_EVENTS :: .RTE_GRP_SLOT :: .SLC_CONT_ESEQ_HI :: .SLC_CONT_ESEQ_LO ::
      .SLC_CONT_STATE :: .TIM_ERR_EST :: .TIM_EVENTS :: .TIM_ROOT :: .TIM_SRC_CFG :: .TIM_STATE :: .TUN_CE_DEST :: .TUN_CE_GEOM ::
      .TUN_CE_IRQ :: .TUN_CE_MODE :: .TUN_CE_SCANOUT :: .TUN_CE_STATUS :: .TUN_CE_STRIDE :: .TUN_PORT_ALLOT :: .TUN_PORT_EVENTS ::
      .TUN_PORT_STATUS :: .USH_EVENTS :: .USH_MUD_CTL :: .USH_OWNER :: .VIT_STATE :: .WR_GATE_STATUS :: .WR_PORT_EVENTS :: .WR_PORT_GUARD
      :: .WR_Q_CFG :: .WR_Q_DRR :: .WR_SHP_RATE :: recordRegs)), (.arrived :: .atts :: .cellsFree :: .chans :: .cmds :: .cores :: .drawn
      :: .dwins :: .efQueue :: .efuses :: .egress :: .endpoints :: .engines :: .eqReported :: .fronts :: .heldTlps :: .lanes :: .lates ::
      .limited :: .links :: .lockSince :: .lockSrc :: .mud :: .notices :: .outs :: .pausedLinks :: .pds :: .perstReleased :: .pfLines ::
      .pfLog :: .pfSeq :: .pins :: .ports :: .queues :: .sbSeq :: .shadows :: .shapers :: .time :: .trk :: .vports :: .winFetches ::
      .winReads :: .winStores :: .wins :: .withheld :: recordParts), true, false⟩
  | .cxlMemRequest .. => ⟨(.EBR_CRD_AVAIL :: .EBR_LOCK :: .SLC_INJ_ARMED :: .TEL_MODE :: .VIT_EVENTS :: recordRegs), (.arrived ::
      .heldCpls :: .heldTlps :: .injections :: .limited :: .lockSince :: .lockSrc :: .outs :: .queues :: .trk :: .vports :: .wins ::
      .withheld :: recordParts), false, false⟩
  | .intxMessage .. => ⟨[], [.ctrs, .out, .vits], false, false⟩
  | .errorMessage .. => ⟨[], [.arrived, .ctrs, .endpoints, .vports], false, false⟩
  | .pmeTurnOff .. => ⟨[.PRT_PORT_STATUS], [.arrived, .out, .vits], false, false⟩
  | .pmeToAck .. => ⟨[.PRT_PORT_STATUS], [.out, .vits], false, false⟩
  | .pmeToAckTimeout .. => ⟨(.PRT_EVENTS :: .PRT_PORT_STATUS :: recordRegs), (.arrived :: recordParts), false, false⟩
  | .ltrMessage .. => ⟨[.PRT_LTR, .PWR_WAKE], [.arrived, .ctrs, .endpoints, .latched, .out, .vits], false, false⟩
  | .ltrUpstreamSend .. => ⟨[], [.ctrs, .out, .vits], false, false⟩
  | .messageDiscarded .. => ⟨recordRegs, recordParts, false, false⟩
  | .mrdlk .. => ⟨(.EBR_CRD_AVAIL :: .EBR_EVENTS :: .EBR_LOCK :: recordRegs), (.arrived :: .egress :: .heldTlps :: .lockSince :: .lockSrc
      :: .outs :: .trk :: .wins :: .withheld :: recordParts), false, false⟩
  | .cpldlk .. => ⟨(.EBR_CRD_AVAIL :: .EBR_LOCK :: recordRegs), (.arrived :: .heldTlps :: .limited :: .lockSince :: .lockSrc :: .outs ::
      .queues :: .trk :: .vports :: .wins :: .withheld :: recordParts), false, false⟩
  | .unlock .. => ⟨[.EBR_LOCK], [.lockSince, .lockSrc, .out, .outs, .queues, .vits], false, false⟩
  | .lockTimerExpiry .. => ⟨(.EBR_EVENTS :: .EBR_LOCK :: recordRegs), (.lockSince :: .lockSrc :: .outs :: .queues :: recordParts), false,
      false⟩
  | .lockSideListMove .. => ⟨[.WR_Q_DRR], [.ctrs, .outs, .queues], false, false⟩
  | .completionReceived .. => ⟨(.EBR_CRD_AVAIL :: .EBR_LOCK :: .SLC_INJ_ARMED :: .TEL_MODE :: recordRegs), (.arrived :: .heldCpls ::
      .heldTlps :: .injections :: .limited :: .lockSince :: .lockSrc :: .outs :: .queues :: .trk :: .vports :: .wins :: .withheld ::
      recordParts), false, false⟩
  | .trackerDeadline .. => ⟨(.EBR_CRD_AVAIL :: .EBR_PFLOG_HEAD :: .EBR_RAT_PFDISC_HI :: .EBR_RAT_PFDISC_LO :: .SLC_INJ_ARMED :: .TEL_MODE
      :: recordRegs), (.arrived :: .cores :: .heldTlps :: .injecting :: .injections :: .lates :: .outs :: .pfLog :: .pfSeq :: .tagHolds ::
      .trk :: .vports :: .winFetches :: .winReads :: .wins :: .withheld :: recordParts), false, false⟩
  | .lateCompletion .. => ⟨(.EBR_CRD_AVAIL :: recordRegs), (.arrived :: .heldTlps :: .lates :: .limited :: .outs :: .trk :: .vports ::
      .wins :: .withheld :: recordParts), false, false⟩
  | .unexpectedCompletion .. => ⟨recordRegs, (.vports :: recordParts), false, false⟩
  | .tagQuarantineExpiry .. => ⟨[.EBR_CRD_AVAIL], [.arrived, .ctrs, .heldTlps, .out, .outs, .tagHolds, .trk, .wins, .withheld], false,
      false⟩
  | .lateRecordExpiry .. => ⟨[.EBR_CRD_AVAIL], [.arrived, .ctrs, .heldTlps, .lates, .out, .outs, .trk, .wins, .withheld], false, false⟩
  | .drsReceived .. => ⟨[], [.endpoints, .ports], false, false⟩
  | .drsWaitExpiry .. => ⟨[], [.endpoints, .ports], false, false⟩
  | .rrsRetryLimit .. => ⟨(.ATT_CTL :: .ATT_EP_HI :: .ATT_EP_LO :: .ATT_FPID :: .ATT_HOST_HI :: .ATT_HOST_LO :: .BSN_Q_STATUS ::
      .DOC_CORE_STATUS :: .DOC_EVENTS :: .DOC_WSTORE_LOST :: .EBR_CRD_AVAIL :: .EBR_CRD_GRANT :: .EBR_EVENTS :: .EBR_LOCK ::
      .EBR_PFLOG_HEAD :: .EBR_RAT_PFDISC_HI :: .EBR_RAT_PFDISC_LO :: .FLL_LINK_STATUS :: .FLL_REPLAY :: .LNA_ALIGN :: .LNA_LANE_STATE ::
      .LNA_MRG_RESULT :: .LNA_TRAIN_REF :: .PIN_CTL :: .PIN_DST :: .PIN_OLD :: .PIN_SRC :: .PIN_TCUT_HI :: .PIN_TCUT_LO ::
      .PRT_PORT_STATUS :: .RTE_EVENTS :: .RTE_GRP_SLOT :: .SLC_CONT_ESEQ_HI :: .SLC_CONT_ESEQ_LO :: .SLC_CONT_STATE :: .TRK_CPL_RSV ::
      .TRK_FREE :: .TUN_CE_GEOM :: .TUN_CE_IRQ :: .TUN_CE_MODE :: .TUN_CE_SCANOUT :: .TUN_CE_STATUS :: .TUN_CE_STRIDE :: .VIT_STATE ::
      .WR_Q_DRR :: recordRegs), (.arrived :: .atts :: .cellsFree :: .cmds :: .cores :: .dwins :: .endpoints :: .engines :: .heldTlps ::
      .lanes :: .links :: .lockSince :: .lockSrc :: .notices :: .outs :: .pausedLinks :: .pfLog :: .pfSeq :: .pins :: .ports :: .queues ::
      .slots :: .trk :: .vports :: .winFetches :: .winReads :: .winStores :: .wins :: .withheld :: recordParts), false, false⟩
  | .pendingEndpointReset .. => ⟨[.TUN_CE_GEOM, .TUN_CE_IRQ, .TUN_CE_MODE, .TUN_CE_SCANOUT, .TUN_CE_STATUS, .TUN_CE_STRIDE], [.endpoints,
      .engines, .out], false, false⟩
  | .hostPerstAsserted .. => ⟨(.ATT_CTL :: .ATT_EP_HI :: .ATT_EP_LO :: .ATT_FPID :: .ATT_HOST_HI :: .ATT_HOST_LO :: .BSN_Q_STATUS ::
      .EBR_LOCK :: .LNA_ALIGN :: .LNA_LANE_STATE :: .LNA_MRG_RESULT :: .LNA_RX_EQ :: .LNA_TRAIN_REF :: .LNA_TX_EQ :: .MBX_CH_STATUS ::
      .PRT_PORT_STATUS :: .SLC_CONT_STATE :: .TUN_CE_GEOM :: .TUN_CE_IRQ :: .TUN_CE_MODE :: .TUN_CE_SCANOUT :: .TUN_CE_STATUS ::
      .TUN_CE_STRIDE :: .VIT_STATE :: .VMF_BME :: .VMF_CAT_ADDR_HI :: .VMF_CAT_ADDR_LO :: .VMF_CAT_SIZE :: .VMF_CAT_WPTR :: .VMF_CPL_TMO
      :: .VMF_EVENT_MASK :: .VMF_SPC_ADDR_HI :: .VMF_SPC_ADDR_LO :: .VMF_SPC_SIZE :: .VMF_SPC_WPTR :: .WR_Q_DRR :: recordRegs), (.arrived
      :: .atts :: .cats :: .cellsFree :: .cfg :: .chans :: .cmds :: .dwins :: .endpoints :: .engines :: .eqReported :: .heldTlps :: .lanes
      :: .lockSince :: .lockSrc :: .outs :: .owesDetect :: .owesDrs :: .ports :: .queues :: .samples :: .spcs :: .trk :: .vmfs :: .vports
      :: recordParts), false, false⟩
  | .hotResetReceived .. => ⟨(.ATT_CTL :: .ATT_EP_HI :: .ATT_EP_LO :: .ATT_FPID :: .ATT_HOST_HI :: .ATT_HOST_LO :: .BSN_Q_STATUS ::
      .EBR_LOCK :: .LNA_ALIGN :: .LNA_LANE_STATE :: .LNA_MRG_RESULT :: .LNA_RX_EQ :: .LNA_TRAIN_REF :: .LNA_TX_EQ :: .MBX_CH_STATUS ::
      .PRT_PORT_STATUS :: .SLC_CONT_STATE :: .TUN_CE_GEOM :: .TUN_CE_IRQ :: .TUN_CE_MODE :: .TUN_CE_SCANOUT :: .TUN_CE_STATUS ::
      .TUN_CE_STRIDE :: .VIT_STATE :: .VMF_BME :: .VMF_CAT_ADDR_HI :: .VMF_CAT_ADDR_LO :: .VMF_CAT_SIZE :: .VMF_CAT_WPTR :: .VMF_CPL_TMO
      :: .VMF_EVENT_MASK :: .VMF_SPC_ADDR_HI :: .VMF_SPC_ADDR_LO :: .VMF_SPC_SIZE :: .VMF_SPC_WPTR :: .WR_Q_DRR :: recordRegs), (.arrived
      :: .atts :: .cats :: .cellsFree :: .cfg :: .chans :: .cmds :: .dwins :: .endpoints :: .engines :: .eqReported :: .heldTlps :: .lanes
      :: .lockSince :: .lockSrc :: .outs :: .owesDetect :: .owesDrs :: .ports :: .queues :: .samples :: .spcs :: .trk :: .vmfs :: .vports
      :: recordParts), false, false⟩
  | .upstreamDlActiveLost .. => ⟨(.ATT_CTL :: .ATT_EP_HI :: .ATT_EP_LO :: .ATT_FPID :: .ATT_HOST_HI :: .ATT_HOST_LO :: .BSN_Q_STATUS ::
      .EBR_LOCK :: .LNA_ALIGN :: .LNA_LANE_STATE :: .LNA_MRG_RESULT :: .LNA_RX_EQ :: .LNA_TRAIN_REF :: .LNA_TX_EQ :: .MBX_CH_STATUS ::
      .PRT_PORT_STATUS :: .SLC_CONT_STATE :: .TUN_CE_GEOM :: .TUN_CE_IRQ :: .TUN_CE_MODE :: .TUN_CE_SCANOUT :: .TUN_CE_STATUS ::
      .TUN_CE_STRIDE :: .VIT_STATE :: .VMF_BME :: .VMF_CAT_ADDR_HI :: .VMF_CAT_ADDR_LO :: .VMF_CAT_SIZE :: .VMF_CAT_WPTR :: .VMF_CPL_TMO
      :: .VMF_EVENT_MASK :: .VMF_SPC_ADDR_HI :: .VMF_SPC_ADDR_LO :: .VMF_SPC_SIZE :: .VMF_SPC_WPTR :: .WR_Q_DRR :: recordRegs), (.arrived
      :: .atts :: .cats :: .cellsFree :: .cfg :: .chans :: .cmds :: .dwins :: .endpoints :: .engines :: .eqReported :: .heldTlps :: .lanes
      :: .lockSince :: .lockSrc :: .outs :: .owesDetect :: .owesDrs :: .ports :: .queues :: .samples :: .spcs :: .trk :: .vmfs :: .vports
      :: recordParts), false, false⟩
  | .upstreamDlActive .. => ⟨(.LNA_ALIGN :: .LNA_LANE_STATE :: .LNA_MRG_RESULT :: .LNA_RX_EQ :: .LNA_TRAIN_REF :: .LNA_TX_EQ ::
      .PRT_PORT_STATUS :: .VIT_STATE :: recordRegs), (.cmds :: .eqReported :: .lanes :: .owesDetect :: .owesDrs :: .ports :: recordParts),
      false, false⟩
  | .rrsExpired .. => ⟨(.PRT_EVENTS :: recordRegs), (.owesDetect :: recordParts), false, false⟩
  | .surpriseRemoval .. => ⟨(.BSN_Q_STATUS :: .DOC_CORE_STATUS :: .DOC_EVENTS :: .DOC_WSTORE_LOST :: .EBR_CRD_AVAIL :: .EBR_EVENTS ::
      .EBR_LOCK :: .EBR_PFLOG_HEAD :: .EBR_RAT_PFDISC_HI :: .EBR_RAT_PFDISC_LO :: .EBR_SIDEBAND :: .FLL_LINK_STATUS :: .FLL_REPLAY ::
      .LNA_ALIGN :: .LNA_LANE_STATE :: .LNA_MRG_RESULT :: .LNA_TRAIN_REF :: .PIN_CTL :: .PIN_OLD :: .PRT_EVENTS :: .PRT_PORT_STATUS ::
      .RTE_EVENTS :: .RTE_GRP_SLOT :: .SLC_CONT_ESEQ_HI :: .SLC_CONT_ESEQ_LO :: .SLC_CONT_STATE :: .VIT_STATE :: .WR_Q_DRR :: recordRegs),
      (.arrived :: .cellsFree :: .cmds :: .cores :: .dwins :: .endpoints :: .heldTlps :: .lanes :: .links :: .lockSince :: .lockSrc ::
      .notices :: .outs :: .pausedLinks :: .pfLog :: .pfSeq :: .pins :: .ports :: .queues :: .sbSeq :: .trk :: .vports :: .winFetches ::
      .winReads :: .winStores :: .wins :: .withheld :: recordParts), false, false⟩
  | .presenceDebounced .. => ⟨(.BSN_Q_STATUS :: .DOC_CORE_STATUS :: .DOC_EVENTS :: .DOC_WSTORE_LOST :: .EBR_EVENTS :: .EBR_LOCK ::
      .EBR_PFLOG_HEAD :: .EBR_RAT_PFDISC_HI :: .EBR_RAT_PFDISC_LO :: .EBR_SIDEBAND :: .LNA_ALIGN :: .LNA_LANE_STATE :: .LNA_MRG_RESULT ::
      .LNA_TRAIN_REF :: .PRT_EVENTS :: .PRT_PORT_STATUS :: .SLC_CONT_STATE :: .WR_Q_DRR :: recordRegs), (.arrived :: .cellsFree :: .cmds
      :: .cores :: .dwins :: .endpoints :: .lanes :: .lockSince :: .lockSrc :: .notices :: .outs :: .pfLog :: .pfSeq :: .ports :: .queues
      :: .trk :: .vports :: .winFetches :: .winReads :: .winStores :: recordParts), false, false⟩
  | .attentionButton .. => ⟨(.EBR_SIDEBAND :: recordRegs), (.arrived :: .sbSeq :: .vports :: recordParts), false, false⟩
  | .sidebandFrame .. => ⟨[], [.ctrs, .out, .sbSeen, .vits, .vports], false, false⟩
  | .slotControlWrite .. => ⟨(.EBR_EVENTS :: .EBR_SIDEBAND :: .EF_STATUS :: .PWR_CAGE_USED :: recordRegs), (.arrived :: .efQueue ::
      .efuses :: .perstReleased :: .sbSeq :: .vports :: recordParts), false, false⟩
  | .barWrite .. => ⟨[.ATT_CTL, .ATT_EP_HI, .ATT_EP_LO, .ATT_FPID, .ATT_HOST_HI, .ATT_HOST_LO], [.atts, .vits], false, false⟩
  | .secondaryBusReset .. => ⟨(.LNA_ALIGN :: .LNA_LANE_STATE :: .LNA_MRG_RESULT :: .LNA_RX_EQ :: .LNA_TRAIN_REF :: .LNA_TX_EQ ::
      .PRT_PORT_STATUS :: .TUN_CE_GEOM :: .TUN_CE_IRQ :: .TUN_CE_MODE :: .TUN_CE_SCANOUT :: .TUN_CE_STATUS :: .TUN_CE_STRIDE ::
      recordRegs), (.arrived :: .cmds :: .endpoints :: .engines :: .eqReported :: .lanes :: .ports :: .vports :: recordParts), false,
      false⟩
  | .endpointFlr .. => ⟨(.EBR_CRD_AVAIL :: .VIT_EVENTS :: recordRegs), (.arrived :: .heldTlps :: .outs :: .trk :: .wins :: .withheld ::
      recordParts), false, false⟩
  | .dpcTriggerStatusClear .. => ⟨[], [.arrived, .endpoints, .vports], false, false⟩
  | .aspmL1IdleTimer .. => ⟨[.PRT_PORT_STATUS], [.ctrs], false, false⟩
  | .endpointL1Request .. => ⟨(.PRT_EVENTS :: .PRT_PORT_STATUS :: recordRegs), recordParts, false, false⟩
  | .l0pEvaluation .. => ⟨[.PRT_PORT_STATUS], [.ctrs], false, false⟩
  | .frameAdmission .. => ⟨(.BSN_EVENTS :: .RTE_EVENTS :: recordRegs), (.arrived :: .cellsFree :: .cellsUsed :: .dwins :: .lastTraffic ::
      .limited :: .outs :: .queues :: .routed :: .trafficAt :: recordParts), false, false⟩
  | .frameSelection .. => ⟨(.BSN_EVENTS :: .FLL_EVENTS :: .FLL_REPLAY :: .FLL_SEQ :: .SLC_INJ_ARMED :: .TEL_MODE :: .WR_GATE_STAT ::
      .WR_GATE_STATUS :: .WR_PORT_EVENTS :: .WR_PORT_GUARD :: .WR_Q_DRR :: recordRegs), (.cellsFree :: .dwins :: .egress :: .injecting ::
      .injections :: .limited :: .links :: .masked :: .outs :: .queues :: .shapers :: .time :: recordParts), false, false⟩
  | .ageDiscard .. => ⟨(.BSN_EVENTS :: .WR_Q_DRR :: recordRegs), (.cellsFree :: .dwins :: .limited :: .outs :: .queues :: recordParts),
      false, false⟩
  | .queueHeadAgeCheck .. => ⟨(.BSN_EVENTS :: .WR_Q_DRR :: recordRegs), (.cellsFree :: .dwins :: .limited :: .outs :: .queues ::
      recordParts), false, false⟩
  | .linkEcc .. => ⟨(.BSN_EVENTS :: .BSN_Q_STATUS :: .WR_Q_DRR :: recordRegs), (.brokenQueues :: .cellsFree :: .dwins :: .outs :: .queues
      :: recordParts), false, false⟩
  | .cellAudit .. => ⟨(.BSN_EVENTS :: .BSN_Q_STATUS :: recordRegs), (.brokenQueues :: .cellsFree :: .dwins :: .queues :: recordParts),
      false, false⟩
  | .frameRoute .. => ⟨(.RTE_EVENTS :: recordRegs), (.arrived :: .limited :: .routed :: recordParts), false, false⟩
  | .linkWithdrawal .. => ⟨(.PIN_CTL :: .PIN_OLD :: .RTE_EVENTS :: .RTE_GRP_SLOT :: .WR_Q_DRR :: recordRegs), (.arrived :: .cellsFree ::
      .dwins :: .outs :: .pins :: .queues :: recordParts), false, false⟩
  | .withdrawnClear .. => ⟨(.RTE_GRP_SLOT :: recordRegs), recordParts, false, false⟩
  | .pathPinEntryWrite .. => ⟨(.PIN_CTL :: recordRegs), (.arrived :: .pins :: recordParts), false, false⟩
  | .pinCutPoint .. => ⟨[.PIN_CTL, .PIN_DST, .PIN_OLD, .PIN_SRC, .PIN_TCUT_HI, .PIN_TCUT_LO], [.arrived, .ctrs, .pins, .wins], false,
      false⟩
  | .repinAborted .. => ⟨(.PIN_CTL :: .PIN_DST :: .PIN_OLD :: .PIN_SRC :: .PIN_TCUT_HI :: .PIN_TCUT_LO :: .RTE_EVENTS :: recordRegs),
      (.cmds :: .pinAcks :: .pins :: recordParts), false, false⟩
  | .drain .. => ⟨[], [.arrived], false, false⟩
  | .drainAck .. => ⟨[.EBR_CRD_AVAIL], [.arrived, .ctrs, .heldTlps, .out, .outs, .trk, .wins, .withheld], false, false⟩
  | .drainCapExpiry .. => ⟨[.EBR_CRD_AVAIL], [.arrived, .ctrs, .heldTlps, .out, .outs, .trk, .wins, .withheld], false, false⟩
  | .oldPathExpiry .. => ⟨[.PIN_CTL, .PIN_DST, .PIN_OLD, .PIN_SRC, .PIN_TCUT_HI, .PIN_TCUT_LO], [.pins], false, false⟩
  | .attEntryWrite .. => ⟨(.ATT_CTL :: recordRegs), (.atts :: recordParts), false, false⟩
  | .shaperWheelSlot .. => ⟨[], [.shapers], false, false⟩
  | .wrShpRateWrite .. => ⟨(.WR_SHP_RATE :: recordRegs), (.shapers :: recordParts), false, false⟩
  | .gateBankCountWrite .. => ⟨(.GATE_COUNT :: .WR_GATE_STATUS :: .WR_PORT_EVENTS :: .WR_PORT_GUARD :: recordRegs), (.outs ::
      recordParts), false, false⟩
  | .gateListStart .. => ⟨(.WR_GATE_STAT :: .WR_GATE_STATUS :: .WR_PORT_EVENTS :: .WR_PORT_GUARD :: recordRegs), (.limited :: .outs ::
      recordParts), false, false⟩
  | .gateEntryBoundary .. => ⟨(.WR_GATE_STAT :: .WR_GATE_STATUS :: .WR_PORT_EVENTS :: recordRegs), (.limited :: .outs :: recordParts),
      false, false⟩
  | .guardBandRecompute .. => ⟨[.WR_GATE_STATUS, .WR_PORT_GUARD], [], false, false⟩
  | .bOversize .. => ⟨(.WR_PORT_EVENTS :: .WR_Q_DRR :: recordRegs), (.cellsFree :: .dwins :: .limited :: .outs :: .queues :: recordParts),
      false, false⟩
  | .shaperAudit .. => ⟨(.WR_EVENTS :: recordRegs), (.shapers :: recordParts), false, false⟩
  | .shaperSet .. => ⟨[.WR_Q_CFG, .WR_SHP_BURST, .WR_SHP_RATE], [.cmds, .out, .shapers], false, false⟩
  | .quantumSet .. => ⟨[.WR_Q_CFG], [.cmds, .out], false, false⟩
  | .gateListLoad .. => ⟨(.GATE_BASE_HI :: .GATE_BASE_LO :: .GATE_COUNT :: .GATE_CYCLE :: .GATE_ENTRY :: .WR_GATE_STATUS :: .WR_PORT_CFG
      :: .WR_PORT_EVENTS :: .WR_PORT_GUARD :: recordRegs), (.cmds :: .outs :: recordParts), false, false⟩
  | .ageLimitSet .. => ⟨[.BSN_AGE_B, .BSN_AGE_C, .BSN_AGE_L, .BSN_AGE_S], [.cmds, .out], false, false⟩
  | .vitrineCreate .. => ⟨(.BSN_EVENTS :: .BSN_Q_CFG :: .BSN_RESERVED :: .BSN_SHARED_SIZE :: .LNA_ALIGN :: .LNA_LANE_STATE ::
      .LNA_MRG_RESULT :: .LNA_RX_EQ :: .LNA_TRAIN_REF :: .LNA_TX_EQ :: .PRT_PORT_STATUS :: .TRK_FREE :: .TRK_VIT_QUOTA :: .VIT_PORT ::
      .VIT_STATE :: .VMF_GVH :: .VMF_ID :: recordRegs), (.cmds :: .eqReported :: .homes :: .lanes :: .owesDetect :: .owesDrs :: .ports ::
      .slots :: recordParts), false, false⟩
  | .vitrineDestroy .. => ⟨(.ATT_CTL :: .ATT_EP_HI :: .ATT_EP_LO :: .ATT_FPID :: .ATT_HOST_HI :: .ATT_HOST_LO :: .BSN_Q_CFG ::
      .BSN_Q_STATUS :: .BSN_RESERVED :: .BSN_SHARED_SIZE :: .EBR_CRD_AVAIL :: .EBR_CRD_GRANT :: .EBR_LOCK :: .EBR_PFLOG_HEAD ::
      .EBR_RAT_PFDISC_HI :: .EBR_RAT_PFDISC_LO :: .MBX_CH_STATUS :: .PIN_CTL :: .PIN_DST :: .PIN_OLD :: .PIN_SRC :: .PIN_TCUT_HI ::
      .PIN_TCUT_LO :: .SLC_CONT_STATE :: .TRK_CPL_RSV :: .TRK_FREE :: .TRK_VIT_QUOTA :: .TUN_CE_GEOM :: .TUN_CE_IRQ :: .TUN_CE_MODE ::
      .TUN_CE_SCANOUT :: .TUN_CE_STATUS :: .TUN_CE_STRIDE :: .VIT_EVENTS :: .VIT_PORT :: .VIT_STATE :: .VMF_BME :: .VMF_CAT_ADDR_HI ::
      .VMF_CAT_ADDR_LO :: .VMF_CAT_SIZE :: .VMF_CAT_WPTR :: .VMF_CPL_TMO :: .VMF_EVENT_MASK :: .VMF_GVH :: .VMF_ID :: .VMF_SPC_ADDR_HI ::
      .VMF_SPC_ADDR_LO :: .VMF_SPC_SIZE :: .VMF_SPC_WPTR :: .VMF_VERSION :: .WR_Q_DRR :: recordRegs), (.arrived :: .atts :: .cats ::
      .cellsFree :: .cfg :: .chans :: .cmds :: .cores :: .dwins :: .endpoints :: .engines :: .heldTlps :: .homes :: .lockSince :: .lockSrc
      :: .outs :: .owesDetect :: .pfLog :: .pfSeq :: .pins :: .queues :: .samples :: .slots :: .spcs :: .trk :: .vmfs :: .vports ::
      .winFetches :: .winReads :: .wins :: recordParts), false, false⟩
  | .bindEndpoint .. => ⟨(.ATT_CTL :: .ATT_EP_HI :: .ATT_EP_LO :: .ATT_FPID :: .ATT_HOST_HI :: .ATT_HOST_LO :: .EBR_CRD_AUDIT ::
      .EBR_CRD_AVAIL :: .EBR_CRD_GRANT :: .PIN_CTL :: .PIN_DST :: .PIN_OLD :: .PIN_SRC :: .PIN_TCUT_HI :: .PIN_TCUT_LO :: .RTE_EVENTS ::
      .TRK_CPL_RSV :: .TRK_FREE :: recordRegs), (.arrived :: .atts :: .cmds :: .dwins :: .endpoints :: .limited :: .pins :: .slots ::
      .vports :: .wins :: recordParts), false, false⟩
  | .unbindEndpoint .. => ⟨(.ATT_CTL :: .ATT_EP_HI :: .ATT_EP_LO :: .ATT_FPID :: .ATT_HOST_HI :: .ATT_HOST_LO :: .BSN_Q_STATUS ::
      .EBR_CRD_AVAIL :: .EBR_CRD_GRANT :: .EBR_LOCK :: .EBR_PFLOG_HEAD :: .EBR_RAT_PFDISC_HI :: .EBR_RAT_PFDISC_LO :: .PIN_CTL :: .PIN_DST
      :: .PIN_OLD :: .PIN_SRC :: .PIN_TCUT_HI :: .PIN_TCUT_LO :: .TRK_CPL_RSV :: .TRK_FREE :: .TUN_CE_GEOM :: .TUN_CE_IRQ :: .TUN_CE_MODE
      :: .TUN_CE_SCANOUT :: .TUN_CE_STATUS :: .TUN_CE_STRIDE :: .WR_Q_DRR :: recordRegs), (.arrived :: .atts :: .cellsFree :: .cmds ::
      .cores :: .dwins :: .endpoints :: .engines :: .lockSince :: .lockSrc :: .outs :: .pfLog :: .pfSeq :: .pins :: .queues :: .slots ::
      .trk :: .vports :: .winFetches :: .winReads :: .wins :: recordParts), false, false⟩
  | .vitrineSet .. => ⟨[], [.cmds, .out, .vits], false, false⟩
  | .vitrineHotReset .. => ⟨(.ATT_CTL :: .ATT_EP_HI :: .ATT_EP_LO :: .ATT_FPID :: .ATT_HOST_HI :: .ATT_HOST_LO :: .BSN_Q_STATUS ::
      .EBR_LOCK :: .LNA_ALIGN :: .LNA_LANE_STATE :: .LNA_MRG_RESULT :: .LNA_RX_EQ :: .LNA_TRAIN_REF :: .LNA_TX_EQ :: .MBX_CH_STATUS ::
      .PRT_PORT_STATUS :: .SLC_CONT_STATE :: .TUN_CE_GEOM :: .TUN_CE_IRQ :: .TUN_CE_MODE :: .TUN_CE_SCANOUT :: .TUN_CE_STATUS ::
      .TUN_CE_STRIDE :: .VIT_STATE :: .VMF_BME :: .VMF_CAT_ADDR_HI :: .VMF_CAT_ADDR_LO :: .VMF_CAT_SIZE :: .VMF_CAT_WPTR :: .VMF_CPL_TMO
      :: .VMF_EVENT_MASK :: .VMF_SPC_ADDR_HI :: .VMF_SPC_ADDR_LO :: .VMF_SPC_SIZE :: .VMF_SPC_WPTR :: .WR_Q_DRR :: recordRegs), (.arrived
      :: .atts :: .cats :: .cellsFree :: .cfg :: .chans :: .cmds :: .dwins :: .endpoints :: .engines :: .eqReported :: .heldTlps :: .lanes
      :: .lockSince :: .lockSrc :: .outs :: .owesDetect :: .owesDrs :: .ports :: .queues :: .samples :: .spcs :: .trk :: .vmfs :: .vports
      :: recordParts), false, false⟩
  | .inflightCountZero .. => ⟨(.ATT_CTL :: .ATT_EP_HI :: .ATT_EP_LO :: .ATT_FPID :: .ATT_HOST_HI :: .ATT_HOST_LO :: .BSN_Q_CFG ::
      .BSN_Q_STATUS :: .BSN_RESERVED :: .BSN_SHARED_SIZE :: .EBR_CRD_AVAIL :: .EBR_CRD_GRANT :: .EBR_LOCK :: .EBR_PFLOG_HEAD ::
      .EBR_RAT_PFDISC_HI :: .EBR_RAT_PFDISC_LO :: .LNA_ALIGN :: .LNA_LANE_STATE :: .LNA_MRG_RESULT :: .LNA_RX_EQ :: .LNA_TRAIN_REF ::
      .LNA_TX_EQ :: .MBX_CH_STATUS :: .PIN_CTL :: .PIN_DST :: .PIN_OLD :: .PIN_SRC :: .PIN_TCUT_HI :: .PIN_TCUT_LO :: .PRT_PORT_STATUS ::
      .SLC_CONT_STATE :: .TRK_CPL_RSV :: .TRK_FREE :: .TRK_VIT_QUOTA :: .TUN_CE_GEOM :: .TUN_CE_IRQ :: .TUN_CE_MODE :: .TUN_CE_SCANOUT ::
      .TUN_CE_STATUS :: .TUN_CE_STRIDE :: .VIT_EVENTS :: .VIT_PORT :: .VIT_STATE :: .VMF_BME :: .VMF_CAT_ADDR_HI :: .VMF_CAT_ADDR_LO ::
      .VMF_CAT_SIZE :: .VMF_CAT_WPTR :: .VMF_CPL_TMO :: .VMF_EVENT_MASK :: .VMF_GVH :: .VMF_ID :: .VMF_SPC_ADDR_HI :: .VMF_SPC_ADDR_LO ::
      .VMF_SPC_SIZE :: .VMF_SPC_WPTR :: .VMF_VERSION :: .WR_Q_DRR :: recordRegs), (.arrived :: .atts :: .cats :: .cellsFree :: .cfg ::
      .chans :: .cmds :: .cores :: .dwins :: .endpoints :: .engines :: .eqReported :: .homes :: .lanes :: .lockSince :: .lockSrc :: .outs
      :: .owesDetect :: .owesDrs :: .pfLog :: .pfSeq :: .pins :: .ports :: .queues :: .samples :: .slots :: .spcs :: .trk :: .vmfs ::
      .vports :: .winFetches :: .winReads :: .wins :: recordParts), false, false⟩
  | .inflightReport .. => ⟨[], [.vits], false, false⟩
  | .squashTimeout .. => ⟨(.ATT_CTL :: .ATT_EP_HI :: .ATT_EP_LO :: .ATT_FPID :: .ATT_HOST_HI :: .ATT_HOST_LO :: .BSN_Q_CFG ::
      .BSN_Q_STATUS :: .BSN_RESERVED :: .BSN_SHARED_SIZE :: .EBR_CRD_AVAIL :: .EBR_CRD_GRANT :: .EBR_LOCK :: .EBR_PFLOG_HEAD ::
      .EBR_RAT_PFDISC_HI :: .EBR_RAT_PFDISC_LO :: .LNA_ALIGN :: .LNA_LANE_STATE :: .LNA_MRG_RESULT :: .LNA_RX_EQ :: .LNA_TRAIN_REF ::
      .LNA_TX_EQ :: .MBX_CH_STATUS :: .PIN_CTL :: .PIN_DST :: .PIN_OLD :: .PIN_SRC :: .PIN_TCUT_HI :: .PIN_TCUT_LO :: .PRT_PORT_STATUS ::
      .SLC_CONT_STATE :: .TRK_CPL_RSV :: .TRK_FREE :: .TRK_VIT_QUOTA :: .TUN_CE_GEOM :: .TUN_CE_IRQ :: .TUN_CE_MODE :: .TUN_CE_SCANOUT ::
      .TUN_CE_STATUS :: .TUN_CE_STRIDE :: .VIT_EVENTS :: .VIT_PORT :: .VIT_STATE :: .VMF_BME :: .VMF_CAT_ADDR_HI :: .VMF_CAT_ADDR_LO ::
      .VMF_CAT_SIZE :: .VMF_CAT_WPTR :: .VMF_CPL_TMO :: .VMF_EVENT_MASK :: .VMF_GVH :: .VMF_ID :: .VMF_SPC_ADDR_HI :: .VMF_SPC_ADDR_LO ::
      .VMF_SPC_SIZE :: .VMF_SPC_WPTR :: .VMF_VERSION :: .WR_Q_DRR :: recordRegs), (.arrived :: .atts :: .cats :: .cellsFree :: .cfg ::
      .chans :: .cmds :: .cores :: .dwins :: .endpoints :: .engines :: .eqReported :: .homes :: .lanes :: .lockSince :: .lockSrc :: .outs
      :: .owesDetect :: .owesDrs :: .pfLog :: .pfSeq :: .pins :: .ports :: .queues :: .samples :: .slots :: .spcs :: .trk :: .vmfs ::
      .vports :: .winFetches :: .winReads :: .wins :: recordParts), false, false⟩
  | .freeze .. => ⟨[], [.arrived, .cmds, .out, .vits], false, false⟩
  | .freezeCutPoint .. => ⟨[.BSN_Q_STATUS, .PWR_WAKE, .VIT_STATE], [.cmds, .endpoints, .latched, .queues, .vits], false, false⟩
  | .freezeTimeout .. => ⟨(.ATT_CTL :: .ATT_EP_HI :: .ATT_EP_LO :: .ATT_FPID :: .ATT_HOST_HI :: .ATT_HOST_LO :: .BSN_Q_STATUS ::
      .DOC_CORE_STATUS :: .DOC_EVENTS :: .DOC_WSTORE_LOST :: .EBR_CRD_AVAIL :: .EBR_EVENTS :: .EBR_LOCK :: .EBR_PFLOG_HEAD ::
      .EBR_RAT_PFDISC_HI :: .EBR_RAT_PFDISC_LO :: .FLL_LINK_STATUS :: .FLL_REPLAY :: .LNA_ALIGN :: .LNA_LANE_STATE :: .LNA_MRG_RESULT ::
      .LNA_RX_EQ :: .LNA_TRAIN_REF :: .LNA_TX_EQ :: .MBX_CH_STATUS :: .PIN_CTL :: .PIN_OLD :: .PRT_PORT_STATUS :: .RTE_EVENTS ::
      .RTE_GRP_SLOT :: .SLC_CONT_ESEQ_HI :: .SLC_CONT_ESEQ_LO :: .SLC_CONT_STATE :: .TUN_CE_GEOM :: .TUN_CE_IRQ :: .TUN_CE_MODE ::
      .TUN_CE_SCANOUT :: .TUN_CE_STATUS :: .TUN_CE_STRIDE :: .VIT_EVENTS :: .VIT_STATE :: .VMF_BME :: .VMF_CAT_ADDR_HI :: .VMF_CAT_ADDR_LO
      :: .VMF_CAT_SIZE :: .VMF_CAT_WPTR :: .VMF_CPL_TMO :: .VMF_EVENT_MASK :: .VMF_SPC_ADDR_HI :: .VMF_SPC_ADDR_LO :: .VMF_SPC_SIZE ::
      .VMF_SPC_WPTR :: .WR_Q_DRR :: recordRegs), (.arrived :: .atts :: .cats :: .cellsFree :: .cfg :: .chans :: .cmds :: .cores :: .dwins
      :: .endpoints :: .engines :: .eqReported :: .heldTlps :: .lanes :: .links :: .lockSince :: .lockSrc :: .notices :: .outs ::
      .owesDetect :: .owesDrs :: .pausedLinks :: .pfLog :: .pfSeq :: .pins :: .ports :: .queues :: .samples :: .spcs :: .trk :: .vmfs ::
      .vports :: .winFetches :: .winReads :: .winStores :: .wins :: .withheld :: recordParts), false, false⟩
  | .save .. => ⟨[.PWR_WAKE, .VIT_STATE], [.arrived, .cmds, .latched, .out, .saves, .vits], false, false⟩
  | .restore .. => ⟨(.ATT_CTL :: .ATT_EP_HI :: .ATT_EP_LO :: .ATT_FPID :: .ATT_HOST_HI :: .ATT_HOST_LO :: .BSN_EVENTS :: .BSN_Q_CFG ::
      .BSN_RESERVED :: .BSN_SHARED_SIZE :: .EBR_CRD_AUDIT :: .EBR_CRD_AVAIL :: .EBR_CRD_GRANT :: .PIN_CTL :: .PIN_DST :: .PIN_OLD ::
      .PIN_SRC :: .PIN_TCUT_HI :: .PIN_TCUT_LO :: .RTE_EVENTS :: .TRK_CPL_RSV :: .TRK_FREE :: .TRK_VIT_QUOTA :: .VIT_EVENTS :: .VIT_PORT
      :: .VIT_STATE :: .VMF_CPL_TMO :: .VMF_EVENT_MASK :: .VMF_GVH :: .VMF_ID :: .WR_Q_CFG :: .WR_SHP_BURST :: .WR_SHP_RATE ::
      recordRegs), (.arrived :: .atts :: .cfg :: .cmds :: .dwins :: .limited :: .pins :: .shapers :: .slots :: .vmfs :: .vports :: .wins
      :: recordParts), false, false⟩
  | .thaw .. => ⟨[], [.arrived, .cmds, .endpoints, .out, .vits], false, false⟩
  | .thawCutPoint .. => ⟨(.ATT_CTL :: .ATT_EP_HI :: .ATT_EP_LO :: .ATT_FPID :: .ATT_HOST_HI :: .ATT_HOST_LO :: .BSN_Q_STATUS ::
      .DOC_CORE_STATUS :: .DOC_EVENTS :: .DOC_WSTORE_LOST :: .EBR_CRD_AVAIL :: .EBR_EVENTS :: .EBR_LOCK :: .EBR_PFLOG_HEAD ::
      .EBR_RAT_PFDISC_HI :: .EBR_RAT_PFDISC_LO :: .FLL_LINK_STATUS :: .FLL_REPLAY :: .LNA_ALIGN :: .LNA_LANE_STATE :: .LNA_MRG_RESULT ::
      .LNA_RX_EQ :: .LNA_TRAIN_REF :: .LNA_TX_EQ :: .MBX_CH_STATUS :: .PIN_CTL :: .PIN_OLD :: .PRT_PORT_STATUS :: .RTE_EVENTS ::
      .RTE_GRP_SLOT :: .SLC_CONT_ESEQ_HI :: .SLC_CONT_ESEQ_LO :: .SLC_CONT_STATE :: .TUN_CE_GEOM :: .TUN_CE_IRQ :: .TUN_CE_MODE ::
      .TUN_CE_SCANOUT :: .TUN_CE_STATUS :: .TUN_CE_STRIDE :: .VIT_EVENTS :: .VIT_STATE :: .VMF_BME :: .VMF_CAT_ADDR_HI :: .VMF_CAT_ADDR_LO
      :: .VMF_CAT_SIZE :: .VMF_CAT_WPTR :: .VMF_CPL_TMO :: .VMF_EVENT_MASK :: .VMF_SPC_ADDR_HI :: .VMF_SPC_ADDR_LO :: .VMF_SPC_SIZE ::
      .VMF_SPC_WPTR :: .WR_Q_DRR :: recordRegs), (.arrived :: .atts :: .cats :: .cellsFree :: .cfg :: .chans :: .cmds :: .cores :: .dwins
      :: .endpoints :: .engines :: .eqReported :: .heldTlps :: .homes :: .lanes :: .links :: .lockSince :: .lockSrc :: .notices :: .outs
      :: .owesDetect :: .owesDrs :: .pausedLinks :: .pfLog :: .pfSeq :: .pins :: .ports :: .queues :: .samples :: .spcs :: .trk :: .vmfs
      :: .vports :: .winFetches :: .winReads :: .winStores :: .wins :: .withheld :: recordParts), false, false⟩
  | .thawCompleteRelease .. => ⟨(.ATT_CTL :: .ATT_EP_HI :: .ATT_EP_LO :: .ATT_FPID :: .ATT_HOST_HI :: .ATT_HOST_LO :: .BSN_Q_CFG ::
      .BSN_Q_STATUS :: .BSN_RESERVED :: .BSN_SHARED_SIZE :: .EBR_CRD_AVAIL :: .EBR_CRD_GRANT :: .MBX_CH_STATUS :: .PIN_CTL :: .PIN_DST ::
      .PIN_OLD :: .PIN_SRC :: .PIN_TCUT_HI :: .PIN_TCUT_LO :: .SLC_CONT_STATE :: .TRK_CPL_RSV :: .TRK_FREE :: .TRK_VIT_QUOTA ::
      .VIT_EVENTS :: .VIT_PORT :: .VIT_STATE :: .VMF_BME :: .VMF_CAT_ADDR_HI :: .VMF_CAT_ADDR_LO :: .VMF_CAT_SIZE :: .VMF_CAT_WPTR ::
      .VMF_CPL_TMO :: .VMF_EVENT_MASK :: .VMF_GVH :: .VMF_ID :: .VMF_SPC_ADDR_HI :: .VMF_SPC_ADDR_LO :: .VMF_SPC_SIZE :: .VMF_SPC_WPTR ::
      .VMF_VERSION :: .WR_Q_DRR :: recordRegs), (.arrived :: .atts :: .cats :: .cellsFree :: .cfg :: .chans :: .cmds :: .dwins ::
      .endpoints :: .heldTlps :: .homes :: .outs :: .owesDetect :: .pins :: .queues :: .samples :: .slots :: .spcs :: .trk :: .vmfs ::
      .vports :: .wins :: recordParts), false, false⟩
  | .class3Error .. => ⟨(.BSN_Q_STATUS :: .DOC_CORE_STATUS :: .DOC_EVENTS :: .DOC_WSTORE_LOST :: .EBR_CRD_AVAIL :: .EBR_EVENTS ::
      .EBR_LOCK :: .EBR_PFLOG_HEAD :: .EBR_RAT_PFDISC_HI :: .EBR_RAT_PFDISC_LO :: .FLL_LINK_STATUS :: .FLL_REPLAY :: .LNA_ALIGN ::
      .LNA_LANE_STATE :: .LNA_MRG_RESULT :: .LNA_RX_EQ :: .LNA_TRAIN_REF :: .LNA_TX_EQ :: .PIN_CTL :: .PIN_OLD :: .PRT_PORT_STATUS ::
      .RTE_EVENTS :: .RTE_GRP_SLOT :: .SLC_CONT_ESEQ_HI :: .SLC_CONT_ESEQ_LO :: .SLC_CONT_STATE :: .SLC_INJ_ARMED :: .TEL_MODE ::
      .VIT_STATE :: .WR_Q_DRR :: recordRegs), (.arrived :: .cellsFree :: .cmds :: .cores :: .dwins :: .endpoints :: .eqReported ::
      .heldTlps :: .injecting :: .injections :: .lanes :: .limited :: .links :: .lockSince :: .lockSrc :: .notices :: .outs ::
      .pausedLinks :: .pfLog :: .pfSeq :: .pins :: .ports :: .queues :: .trk :: .vports :: .winFetches :: .winReads :: .winStores :: .wins
      :: .withheld :: recordParts), false, false⟩
  | .class4Condition .. => ⟨(.BSN_Q_STATUS :: .DOC_CORE_STATUS :: .DOC_EVENTS :: .DOC_WSTORE_LOST :: .EBR_CRD_AVAIL :: .EBR_EVENTS ::
      .EBR_LOCK :: .EBR_PFLOG_HEAD :: .EBR_RAT_PFDISC_HI :: .EBR_RAT_PFDISC_LO :: .FLL_LINK_STATUS :: .FLL_REPLAY :: .LNA_ALIGN ::
      .LNA_LANE_STATE :: .LNA_MRG_RESULT :: .LNA_TRAIN_REF :: .PIN_CTL :: .PIN_OLD :: .PRT_PORT_STATUS :: .RTE_EVENTS :: .RTE_GRP_SLOT ::
      .SLC_CONT_ESEQ_HI :: .SLC_CONT_ESEQ_LO :: .SLC_CONT_STATE :: .SLC_INJ_ARMED :: .TEL_MODE :: .VIT_STATE :: .WR_Q_DRR :: recordRegs),
      (.arrived :: .cellsFree :: .cmds :: .cores :: .dwins :: .endpoints :: .heldTlps :: .injecting :: .injections :: .lanes :: .limited
      :: .links :: .lockSince :: .lockSrc :: .notices :: .outs :: .pausedLinks :: .pfLog :: .pfSeq :: .pins :: .ports :: .queues :: .trk
      :: .vports :: .winFetches :: .winReads :: .winStores :: .wins :: .withheld :: recordParts), false, false⟩
  | .containmentNotice .. => ⟨(.BSN_Q_STATUS :: .DOC_CORE_STATUS :: .DOC_EVENTS :: .DOC_WSTORE_LOST :: .EBR_EVENTS :: .EBR_LOCK ::
      .EBR_PFLOG_HEAD :: .EBR_RAT_PFDISC_HI :: .EBR_RAT_PFDISC_LO :: recordRegs), (.arrived :: .cores :: .endpoints :: .heldRemote ::
      .lockSince :: .lockSrc :: .outs :: .pfLog :: .pfSeq :: .queues :: .trk :: .vports :: .winFetches :: .winReads :: .winStores ::
      recordParts), false, false⟩
  | .noticeRepeatTimer .. => ⟨recordRegs, (.arrived :: .notices :: recordParts), false, false⟩
  | .accessionStart .. => ⟨[], [.endpoints], false, false⟩
  | .accessionSucceeds .. => ⟨(.ATT_CTL :: .ATT_EP_HI :: .ATT_EP_LO :: .ATT_FPID :: .ATT_HOST_HI :: .ATT_HOST_LO :: .BSN_Q_STATUS ::
      .DOC_CORE_STATUS :: .DOC_EVENTS :: .DOC_WSTORE_LOST :: .EBR_CRD_AVAIL :: .EBR_CRD_GRANT :: .EBR_EVENTS :: .EBR_LOCK ::
      .EBR_PFLOG_HEAD :: .EBR_RAT_PFDISC_HI :: .EBR_RAT_PFDISC_LO :: .FLL_LINK_STATUS :: .FLL_REPLAY :: .LNA_ALIGN :: .LNA_LANE_STATE ::
      .LNA_MRG_RESULT :: .LNA_TRAIN_REF :: .PIN_CTL :: .PIN_DST :: .PIN_OLD :: .PIN_SRC :: .PIN_TCUT_HI :: .PIN_TCUT_LO ::
      .PRT_PORT_STATUS :: .RTE_EVENTS :: .RTE_GRP_SLOT :: .SLC_CONT_ESEQ_HI :: .SLC_CONT_ESEQ_LO :: .SLC_CONT_STATE :: .TRK_CPL_RSV ::
      .TRK_FREE :: .TUN_CE_GEOM :: .TUN_CE_IRQ :: .TUN_CE_MODE :: .TUN_CE_SCANOUT :: .TUN_CE_STATUS :: .TUN_CE_STRIDE :: .TUN_PORT_EVENTS
      :: .VIT_STATE :: .WR_Q_DRR :: recordRegs), (.arrived :: .atts :: .cellsFree :: .cmds :: .cores :: .dwins :: .endpoints :: .engines
      :: .heldTlps :: .lanes :: .links :: .lockSince :: .lockSrc :: .notices :: .outs :: .pausedLinks :: .pfLog :: .pfSeq :: .pins ::
      .ports :: .queues :: .slots :: .trk :: .vports :: .winFetches :: .winReads :: .winStores :: .wins :: .withheld :: recordParts),
      false, false⟩
  | .accessionFailed .. => ⟨(.ATT_CTL :: .ATT_EP_HI :: .ATT_EP_LO :: .ATT_FPID :: .ATT_HOST_HI :: .ATT_HOST_LO :: .BSN_Q_STATUS ::
      .DOC_CORE_STATUS :: .DOC_EVENTS :: .DOC_WSTORE_LOST :: .EBR_CRD_AVAIL :: .EBR_CRD_GRANT :: .EBR_EVENTS :: .EBR_LOCK ::
      .EBR_PFLOG_HEAD :: .EBR_RAT_PFDISC_HI :: .EBR_RAT_PFDISC_LO :: .FLL_LINK_STATUS :: .FLL_REPLAY :: .LNA_ALIGN :: .LNA_LANE_STATE ::
      .LNA_MRG_RESULT :: .LNA_TRAIN_REF :: .PIN_CTL :: .PIN_DST :: .PIN_OLD :: .PIN_SRC :: .PIN_TCUT_HI :: .PIN_TCUT_LO ::
      .PRT_PORT_STATUS :: .RTE_EVENTS :: .RTE_GRP_SLOT :: .SLC_CONT_ESEQ_HI :: .SLC_CONT_ESEQ_LO :: .SLC_CONT_STATE :: .TRK_CPL_RSV ::
      .TRK_FREE :: .TUN_CE_GEOM :: .TUN_CE_IRQ :: .TUN_CE_MODE :: .TUN_CE_SCANOUT :: .TUN_CE_STATUS :: .TUN_CE_STRIDE :: .VIT_STATE ::
      .WR_Q_DRR :: recordRegs), (.arrived :: .atts :: .cellsFree :: .cmds :: .cores :: .dwins :: .endpoints :: .engines :: .heldTlps ::
      .lanes :: .links :: .lockSince :: .lockSrc :: .notices :: .outs :: .pausedLinks :: .pfLog :: .pfSeq :: .pins :: .ports :: .queues ::
      .slots :: .trk :: .vports :: .winFetches :: .winReads :: .winStores :: .wins :: .withheld :: recordParts), false, false⟩
  | .accessionLimit .. => ⟨(.ATT_CTL :: .ATT_EP_HI :: .ATT_EP_LO :: .ATT_FPID :: .ATT_HOST_HI :: .ATT_HOST_LO :: .BSN_Q_STATUS ::
      .DOC_CORE_STATUS :: .DOC_EVENTS :: .DOC_WSTORE_LOST :: .EBR_CRD_AVAIL :: .EBR_CRD_GRANT :: .EBR_EVENTS :: .EBR_LOCK ::
      .EBR_PFLOG_HEAD :: .EBR_RAT_PFDISC_HI :: .EBR_RAT_PFDISC_LO :: .FLL_LINK_STATUS :: .FLL_REPLAY :: .LNA_ALIGN :: .LNA_LANE_STATE ::
      .LNA_MRG_RESULT :: .LNA_TRAIN_REF :: .PIN_CTL :: .PIN_DST :: .PIN_OLD :: .PIN_SRC :: .PIN_TCUT_HI :: .PIN_TCUT_LO ::
      .PRT_PORT_STATUS :: .RTE_EVENTS :: .RTE_GRP_SLOT :: .SLC_CONT_ESEQ_HI :: .SLC_CONT_ESEQ_LO :: .SLC_CONT_STATE :: .TRK_CPL_RSV ::
      .TRK_FREE :: .TUN_CE_GEOM :: .TUN_CE_IRQ :: .TUN_CE_MODE :: .TUN_CE_SCANOUT :: .TUN_CE_STATUS :: .TUN_CE_STRIDE :: .VIT_STATE ::
      .WR_Q_DRR :: recordRegs), (.arrived :: .atts :: .cellsFree :: .cmds :: .cores :: .dwins :: .endpoints :: .engines :: .heldTlps ::
      .lanes :: .links :: .lockSince :: .lockSrc :: .notices :: .outs :: .pausedLinks :: .pfLog :: .pfSeq :: .pins :: .ports :: .queues ::
      .slots :: .trk :: .vports :: .winFetches :: .winReads :: .winStores :: .wins :: .withheld :: recordParts), false, false⟩
  | .sluiceRelease .. => ⟨(.ATT_CTL :: .ATT_EP_HI :: .ATT_EP_LO :: .ATT_FPID :: .ATT_HOST_HI :: .ATT_HOST_LO :: .BSN_Q_STATUS :: .EBR_LOCK
      :: .LNA_ALIGN :: .LNA_LANE_STATE :: .LNA_MRG_RESULT :: .LNA_RX_EQ :: .LNA_TRAIN_REF :: .LNA_TX_EQ :: .MBX_CH_STATUS ::
      .PRT_PORT_STATUS :: .SLC_CONT_STATE :: .TUN_CE_GEOM :: .TUN_CE_IRQ :: .TUN_CE_MODE :: .TUN_CE_SCANOUT :: .TUN_CE_STATUS ::
      .TUN_CE_STRIDE :: .VIT_STATE :: .VMF_BME :: .VMF_CAT_ADDR_HI :: .VMF_CAT_ADDR_LO :: .VMF_CAT_SIZE :: .VMF_CAT_WPTR :: .VMF_CPL_TMO
      :: .VMF_EVENT_MASK :: .VMF_SPC_ADDR_HI :: .VMF_SPC_ADDR_LO :: .VMF_SPC_SIZE :: .VMF_SPC_WPTR :: .WR_Q_DRR :: recordRegs), (.arrived
      :: .atts :: .cats :: .cellsFree :: .cfg :: .chans :: .cmds :: .dwins :: .endpoints :: .engines :: .eqReported :: .heldTlps :: .lanes
      :: .lockSince :: .lockSrc :: .outs :: .owesDetect :: .owesDrs :: .ports :: .queues :: .samples :: .spcs :: .trk :: .vmfs :: .vports
      :: recordParts), false, false⟩
  | .releaseComplete .. => ⟨(.BSN_Q_STATUS :: .SLC_CONT_STATE :: recordRegs), (.arrived :: .cmds :: .notices :: recordParts), false,
      false⟩
  | .releaseFailed .. => ⟨(.BSN_Q_STATUS :: .DOC_CORE_STATUS :: .DOC_EVENTS :: .DOC_WSTORE_LOST :: .EBR_CRD_AVAIL :: .EBR_EVENTS ::
      .EBR_LOCK :: .EBR_PFLOG_HEAD :: .EBR_RAT_PFDISC_HI :: .EBR_RAT_PFDISC_LO :: .FLL_LINK_STATUS :: .FLL_REPLAY :: .LNA_ALIGN ::
      .LNA_LANE_STATE :: .LNA_MRG_RESULT :: .LNA_TRAIN_REF :: .PIN_CTL :: .PIN_OLD :: .PRT_PORT_STATUS :: .RTE_EVENTS :: .RTE_GRP_SLOT ::
      .SLC_CONT_ESEQ_HI :: .SLC_CONT_ESEQ_LO :: .SLC_CONT_STATE :: .VIT_STATE :: .WR_Q_DRR :: recordRegs), (.arrived :: .cellsFree ::
      .cmds :: .cores :: .dwins :: .endpoints :: .heldTlps :: .lanes :: .links :: .lockSince :: .lockSrc :: .notices :: .outs ::
      .pausedLinks :: .pfLog :: .pfSeq :: .pins :: .ports :: .queues :: .trk :: .vports :: .winFetches :: .winReads :: .winStores :: .wins
      :: .withheld :: recordParts), false, false⟩
  | .maskedSummary .. => ⟨recordRegs, (.masked :: recordParts), false, false⟩
  | .stagingCopy .. => ⟨recordRegs, recordParts, false, false⟩
  | .faultInject .. => ⟨(.SLC_INJ_ARMED :: .TEL_MODE :: recordRegs), (.cmds :: .injections :: recordParts), false, false⟩
  | .eventLogRead .. => ⟨[], [.cmds, .cores, .out], true, false⟩
  | .usb4Attach .. => ⟨(.TUN_PORT_ALLOT :: .TUN_PORT_EVENTS :: .TUN_PORT_STATUS :: recordRegs), (.fronts :: recordParts), false, false⟩
  | .usb4LinkLoss .. => ⟨(.BSN_Q_STATUS :: .DOC_CORE_STATUS :: .DOC_EVENTS :: .DOC_WSTORE_LOST :: .EBR_CRD_AVAIL :: .EBR_EVENTS ::
      .EBR_LOCK :: .EBR_PFLOG_HEAD :: .EBR_RAT_PFDISC_HI :: .EBR_RAT_PFDISC_LO :: .FLL_LINK_STATUS :: .FLL_REPLAY :: .LNA_ALIGN ::
      .LNA_LANE_STATE :: .LNA_MRG_RESULT :: .LNA_TRAIN_REF :: .PIN_CTL :: .PIN_OLD :: .PRT_PORT_STATUS :: .RTE_EVENTS :: .RTE_GRP_SLOT ::
      .SLC_CONT_ESEQ_HI :: .SLC_CONT_ESEQ_LO :: .SLC_CONT_STATE :: .TUN_CE_DEST :: .TUN_CE_IRQ :: .TUN_CE_STATUS :: .TUN_PORT_ALLOT ::
      .TUN_PORT_STATUS :: .VIT_STATE :: .WR_Q_DRR :: recordRegs), (.arrived :: .cellsFree :: .cmds :: .cores :: .dwins :: .endpoints ::
      .engines :: .fronts :: .heldTlps :: .lanes :: .links :: .lockSince :: .lockSrc :: .notices :: .outs :: .pausedLinks :: .pfLog ::
      .pfSeq :: .pins :: .ports :: .queues :: .sbSeq :: .trk :: .vports :: .winFetches :: .winReads :: .winStores :: .wins :: .withheld ::
      recordParts), false, false⟩
  | .dpBandwidthRequest .. => ⟨(.TUN_CE_DEST :: .TUN_CE_IRQ :: .TUN_CE_STATUS :: .TUN_PORT_ALLOT :: .TUN_PORT_EVENTS :: .TUN_PORT_STATUS
      :: recordRegs), (.arrived :: .engines :: recordParts), false, false⟩
  | .usb4PoolShrink .. => ⟨(.TUN_CE_DEST :: .TUN_CE_IRQ :: .TUN_CE_STATUS :: .TUN_PORT_ALLOT :: .TUN_PORT_EVENTS :: .TUN_PORT_STATUS ::
      recordRegs), (.arrived :: .engines :: recordParts), false, false⟩
  | .symmetryEvaluation .. => ⟨(.TUN_CE_DEST :: .TUN_CE_IRQ :: .TUN_CE_STATUS :: .TUN_PORT_ALLOT :: .TUN_PORT_EVENTS :: .TUN_PORT_STATUS
      :: recordRegs), (.arrived :: .engines :: .fronts :: recordParts), false, false⟩
  | .pcieTunnelEstablish .. => ⟨(.BSN_Q_STATUS :: .DOC_CORE_STATUS :: .DOC_EVENTS :: .DOC_WSTORE_LOST :: .EBR_EVENTS :: .EBR_LOCK ::
      .EBR_PFLOG_HEAD :: .EBR_RAT_PFDISC_HI :: .EBR_RAT_PFDISC_LO :: .LNA_ALIGN :: .LNA_LANE_STATE :: .LNA_MRG_RESULT :: .LNA_TRAIN_REF ::
      .PRT_PORT_STATUS :: .SLC_CONT_STATE :: .TUN_PORT_EVENTS :: .TUN_PORT_STATUS :: .WR_Q_DRR :: recordRegs), (.arrived :: .cellsFree ::
      .cmds :: .cores :: .dwins :: .endpoints :: .lanes :: .lockSince :: .lockSrc :: .notices :: .outs :: .pfLog :: .pfSeq :: .ports ::
      .queues :: .trk :: .vports :: .winFetches :: .winReads :: .winStores :: recordParts), false, false⟩
  | .tunCeModeWrite .. => ⟨[.TUN_CE_DEST, .TUN_CE_IRQ, .TUN_CE_MODE, .TUN_CE_STATUS, .TUN_PORT_STATUS], [.arrived, .engines, .out], false,
      false⟩
  | .tunCeScanoutWrite .. => ⟨[.TUN_CE_SCANOUT], [.engines], false, false⟩
  | .verticalBlanking .. => ⟨[.TUN_CE_DEST, .TUN_CE_IRQ, .TUN_CE_SCANOUT, .TUN_CE_STATUS, .TUN_PORT_STATUS], [.arrived, .engines, .out],
      false, false⟩
  | .consoleEngineFlr .. => ⟨[.TUN_CE_DEST, .TUN_CE_GEOM, .TUN_CE_IRQ, .TUN_CE_MODE, .TUN_CE_SCANOUT, .TUN_CE_STATUS, .TUN_CE_STRIDE,
      .TUN_PORT_STATUS], [.arrived, .engines, .out], false, false⟩
  | .streamBudgetFreed .. => ⟨[.TUN_CE_DEST, .TUN_CE_IRQ, .TUN_CE_STATUS, .TUN_PORT_STATUS], [.arrived, .engines, .out], false, false⟩
  | .dpSinkReappears .. => ⟨[.TUN_CE_DEST, .TUN_CE_IRQ, .TUN_CE_STATUS, .TUN_PORT_STATUS], [.arrived, .engines, .fronts, .out], false,
      false⟩
  | .consoleFrame .. => ⟨(.RTE_EVENTS :: recordRegs), (.inStreams :: .limited :: recordParts), false, false⟩
  | .consoleLineDue .. => ⟨[], [.arrived, .ctrs, .engines, .inStreams], false, false⟩
  | .consoleSegments .. => ⟨recordRegs, (.inStreams :: recordParts), false, false⟩
  | .consoleAttach .. => ⟨[.TUN_CE_DEST, .TUN_CE_IRQ, .TUN_CE_STATUS, .TUN_PORT_ALLOT, .TUN_PORT_STATUS], [.arrived, .cmds, .engines,
      .fronts, .out], false, false⟩
  | .consoleDetach .. => ⟨[.TUN_CE_DEST, .TUN_CE_IRQ, .TUN_CE_STATUS, .TUN_PORT_ALLOT, .TUN_PORT_STATUS], [.arrived, .cmds, .engines,
      .fronts, .inStreams, .out], false, false⟩
  | .tunnelConfig .. => ⟨(.TUN_CE_DEST :: .TUN_CE_IRQ :: .TUN_CE_STATUS :: .TUN_PORT_ALLOT :: .TUN_PORT_CFG :: .TUN_PORT_EVENTS ::
      .TUN_PORT_STATUS :: recordRegs), (.arrived :: .cmds :: .engines :: recordParts), false, false⟩
  | .serviceOwner .. => ⟨(.BSN_Q_STATUS :: .DOC_CORE_STATUS :: .DOC_EVENTS :: .DOC_WSTORE_LOST :: .EBR_CRD_AVAIL :: .EBR_EVENTS ::
      .EBR_LOCK :: .EBR_PFLOG_HEAD :: .EBR_RAT_PFDISC_HI :: .EBR_RAT_PFDISC_LO :: .FLL_LINK_STATUS :: .FLL_REPLAY :: .LNA_ALIGN ::
      .LNA_LANE_STATE :: .LNA_MRG_RESULT :: .LNA_TRAIN_REF :: .PIN_CTL :: .PIN_OLD :: .PRT_PORT_STATUS :: .RTE_EVENTS :: .RTE_GRP_SLOT ::
      .SLC_CONT_ESEQ_HI :: .SLC_CONT_ESEQ_LO :: .SLC_CONT_STATE :: .TUN_CE_DEST :: .TUN_CE_IRQ :: .TUN_CE_STATUS :: .TUN_PORT_ALLOT ::
      .TUN_PORT_STATUS :: .USH_OWNER :: .USH_OWNER_CFG :: .VIT_STATE :: .WR_Q_DRR :: recordRegs), (.arrived :: .cellsFree :: .cmds ::
      .cores :: .dwins :: .endpoints :: .engines :: .fronts :: .heldTlps :: .lanes :: .links :: .lockSince :: .lockSrc :: .notices ::
      .outs :: .pausedLinks :: .pfLog :: .pfSeq :: .pins :: .ports :: .queues :: .sbSeq :: .trk :: .vports :: .winFetches :: .winReads ::
      .winStores :: .wins :: .withheld :: recordParts), false, false⟩
  | .serviceCandidateAttach .. => ⟨(.BSN_Q_STATUS :: .DOC_CORE_STATUS :: .DOC_EVENTS :: .DOC_WSTORE_LOST :: .EBR_CRD_AVAIL :: .EBR_EVENTS
      :: .EBR_LOCK :: .EBR_PFLOG_HEAD :: .EBR_RAT_PFDISC_HI :: .EBR_RAT_PFDISC_LO :: .FLL_LINK_STATUS :: .FLL_REPLAY :: .LNA_ALIGN ::
      .LNA_LANE_STATE :: .LNA_MRG_RESULT :: .LNA_TRAIN_REF :: .PIN_CTL :: .PIN_OLD :: .PRT_PORT_STATUS :: .RTE_EVENTS :: .RTE_GRP_SLOT ::
      .SLC_CONT_ESEQ_HI :: .SLC_CONT_ESEQ_LO :: .SLC_CONT_STATE :: .TUN_CE_DEST :: .TUN_CE_IRQ :: .TUN_CE_STATUS :: .TUN_PORT_ALLOT ::
      .TUN_PORT_STATUS :: .USH_OWNER :: .VIT_STATE :: .WR_Q_DRR :: recordRegs), (.arrived :: .candidates :: .cellsFree :: .cmds :: .cores
      :: .dwins :: .endpoints :: .engines :: .fronts :: .heldTlps :: .lanes :: .links :: .lockSince :: .lockSrc :: .notices :: .outs ::
      .pausedLinks :: .pfLog :: .pfSeq :: .pins :: .ports :: .queues :: .sbSeq :: .trk :: .vports :: .winFetches :: .winReads ::
      .winStores :: .wins :: .withheld :: recordParts), false, false⟩
  | .ownerDetach .. => ⟨(.MBX_CH_STATUS :: .TUN_PORT_STATUS :: .USH_EVENTS :: .USH_OWNER :: recordRegs), (.candidates :: .chans ::
      .hubPort :: .mud :: .usbaOpen :: recordParts), false, false⟩
  | .ownerWaitExpiry .. => ⟨(.BSN_Q_STATUS :: .DOC_CORE_STATUS :: .DOC_EVENTS :: .DOC_WSTORE_LOST :: .EBR_CRD_AVAIL :: .EBR_EVENTS ::
      .EBR_LOCK :: .EBR_PFLOG_HEAD :: .EBR_RAT_PFDISC_HI :: .EBR_RAT_PFDISC_LO :: .FLL_LINK_STATUS :: .FLL_REPLAY :: .LNA_ALIGN ::
      .LNA_LANE_STATE :: .LNA_MRG_RESULT :: .LNA_TRAIN_REF :: .PIN_CTL :: .PIN_OLD :: .PRT_PORT_STATUS :: .RTE_EVENTS :: .RTE_GRP_SLOT ::
      .SLC_CONT_ESEQ_HI :: .SLC_CONT_ESEQ_LO :: .SLC_CONT_STATE :: .TUN_CE_DEST :: .TUN_CE_IRQ :: .TUN_CE_STATUS :: .TUN_PORT_ALLOT ::
      .TUN_PORT_STATUS :: .USH_OWNER :: .VIT_STATE :: .WR_Q_DRR :: recordRegs), (.arrived :: .cellsFree :: .cmds :: .cores :: .dwins ::
      .endpoints :: .engines :: .fronts :: .heldTlps :: .lanes :: .links :: .lockSince :: .lockSrc :: .notices :: .outs :: .pausedLinks ::
      .pfLog :: .pfSeq :: .pins :: .ports :: .queues :: .sbSeq :: .trk :: .vports :: .winFetches :: .winReads :: .winStores :: .wins ::
      .withheld :: recordParts), false, false⟩
  | .ownerChanged .. => ⟨(.MBX_CH_STATUS :: .TUN_PORT_STATUS :: .USH_EVENTS :: .USH_OWNER :: recordRegs), (.chans :: .hubPort :: .mud ::
      .usbaOpen :: recordParts), false, false⟩
  | .usbaOvercurrent .. => ⟨(.USH_EVENTS :: recordRegs), (.usbaOpen :: recordParts), false, false⟩
  | .ushMudConnectWrite .. => ⟨(.MBX_CH_STATUS :: .USH_EVENTS :: .USH_MUD_CTL :: recordRegs), (.chans :: .mud :: recordParts), false,
      false⟩
  | .getInfo .. => ⟨[.USH_MUD_STATUS], [.out], false, false⟩
  | .submitCommand .. => ⟨(.USH_EVENTS :: recordRegs), (.cmds :: .cores :: recordParts), true, false⟩
  | .getResponse .. => ⟨[.USH_MUD_STATUS], [.mudDone, .out], false, false⟩
  | .imageBegin .. => ⟨(.USH_EVENTS :: recordRegs), (.mud :: recordParts), false, false⟩
  | .imageData .. => ⟨(.USH_EVENTS :: recordRegs), (.mud :: recordParts), false, false⟩
  | .imageCommit .. => ⟨(.USH_EVENTS :: recordRegs), (.images :: .mud :: recordParts), false, false⟩
  | .imageAbort .. => ⟨(.USH_EVENTS :: recordRegs), (.mud :: recordParts), false, false⟩
  | .logOpen .. => ⟨(.USH_EVENTS :: recordRegs), (.mud :: recordParts), false, false⟩
  | .logClose .. => ⟨(.USH_EVENTS :: recordRegs), (.mud :: recordParts), false, false⟩
  | .logPipeSend .. => ⟨[.USH_MUD_STATUS], [.mud, .out], false, false⟩
  | .usbBusReset .. => ⟨(.MBX_CH_STATUS :: .USH_EVENTS :: recordRegs), (.chans :: .mud :: recordParts), false, false⟩
  | .responseExpiry .. => ⟨[.USH_MUD_STATUS], [.mudDone], false, false⟩
  | .usbLpmRequest .. => ⟨[.USH_MUD_STATUS], [.out], false, false⟩
  | .usbIdleLinkEntry .. => ⟨[.USH_MUD_STATUS], [], false, false⟩
  | .remoteWake .. => ⟨[.USH_MUD_STATUS, .USH_MUD_WAKE], [.out], false, false⟩
  | .hostResume .. => ⟨(.USH_EVENTS :: .USH_MUD_WAKE :: recordRegs), recordParts, false, false⟩
  | .pdPortDisabled .. => ⟨(.EBR_SIDEBAND :: .EF_STATUS :: .MBX_CH_STATUS :: .PD_CONTRACT :: .PD_POOL_USED :: .PD_PORT_STATUS ::
      .PWR_CAGE_USED :: .TUN_PORT_STATUS :: .USH_EVENTS :: .USH_OWNER :: recordRegs), (.candidates :: .chans :: .cmds :: .efQueue ::
      .efuses :: .hubPort :: .mud :: .pds :: .perstReleased :: .usbaOpen :: recordParts), false, false⟩
  | .moistureCheck .. => ⟨(.PD_EVENTS :: .PD_MOIST :: .PD_PORT_STATUS :: recordRegs), (.pds :: recordParts), false, false⟩
  | .moistureRecheck .. => ⟨[.PD_MOIST, .PD_PORT_STATUS], [], false, false⟩
  | .corrosion .. => ⟨(.PD_EVENTS :: recordRegs), recordParts, false, false⟩
  | .typecAttach .. => ⟨(.EBR_SIDEBAND :: .EF_CTL :: .EF_EVENTS :: .EF_STATUS :: .PD_EVENTS :: .PD_POOL_USED :: .PD_PORT_STATUS ::
      .PWR_CAGE_USED :: recordRegs), (.efQueue :: .efuses :: .pds :: .perstReleased :: recordParts), false, false⟩
  | .cableMarkerRead .. => ⟨[.PD_CABLE, .TUN_PORT_STATUS], [.pds], false, false⟩
  | .cableMarkerTimeout .. => ⟨[.PD_CABLE, .TUN_PORT_STATUS], [.pds], false, false⟩
  | .sourceCapabilitiesOffer .. => ⟨[.PD_CONTRACT, .PD_PORT_STATUS], [.out, .pds], false, false⟩
  | .pdRequest .. => ⟨[.EF_CTL, .PD_CONTRACT, .PD_POOL_USED, .PD_PORT_STATUS], [.out, .pds], false, false⟩
  | .vbusWithinRange .. => ⟨[.EF_CTL, .PD_PORT_STATUS], [.out, .pds], false, false⟩
  | .pdHeadroomGrowth .. => ⟨(.EF_CTL :: .EF_STATUS :: .PD_EVENTS :: .PD_POOL_USED :: .PD_PORT_STATUS :: recordRegs), (.efQueue :: .pds ::
      recordParts), false, false⟩
  | .pdPoolShed .. => ⟨(.BSN_Q_STATUS :: .DOC_CORE_STATUS :: .DOC_EVENTS :: .DOC_WSTORE_LOST :: .EBR_CRD_AVAIL :: .EBR_EVENTS :: .EBR_LOCK
      :: .EBR_PFLOG_HEAD :: .EBR_RAT_PFDISC_HI :: .EBR_RAT_PFDISC_LO :: .EBR_SIDEBAND :: .EF_STATUS :: .FLL_LINK_STATUS :: .FLL_REPLAY ::
      .LNA_ALIGN :: .LNA_LANE_STATE :: .LNA_MRG_RESULT :: .LNA_TRAIN_REF :: .MBX_CH_STATUS :: .PD_CONTRACT :: .PD_EVENTS :: .PD_POOL_USED
      :: .PD_PORT_STATUS :: .PIN_CTL :: .PIN_OLD :: .PRT_PORT_STATUS :: .PWR_CAGE_USED :: .RTE_EVENTS :: .RTE_GRP_SLOT ::
      .SLC_CONT_ESEQ_HI :: .SLC_CONT_ESEQ_LO :: .SLC_CONT_STATE :: .TUN_CE_DEST :: .TUN_CE_IRQ :: .TUN_CE_STATUS :: .TUN_PORT_ALLOT ::
      .TUN_PORT_STATUS :: .USH_EVENTS :: .USH_OWNER :: .VIT_STATE :: .WR_Q_DRR :: recordRegs), (.arrived :: .candidates :: .cellsFree ::
      .chans :: .cmds :: .cores :: .dwins :: .efQueue :: .efuses :: .endpoints :: .engines :: .fronts :: .heldTlps :: .hubPort :: .lanes
      :: .links :: .lockSince :: .lockSrc :: .mud :: .notices :: .outs :: .pausedLinks :: .pds :: .perstReleased :: .pfLog :: .pfSeq ::
      .pins :: .ports :: .queues :: .sbSeq :: .trk :: .usbaOpen :: .vports :: .winFetches :: .winReads :: .winStores :: .wins :: .withheld
      :: recordParts), false, false⟩
  | .eprKeepaliveLapse .. => ⟨(.BSN_Q_STATUS :: .DOC_CORE_STATUS :: .DOC_EVENTS :: .DOC_WSTORE_LOST :: .EBR_CRD_AVAIL :: .EBR_EVENTS ::
      .EBR_LOCK :: .EBR_PFLOG_HEAD :: .EBR_RAT_PFDISC_HI :: .EBR_RAT_PFDISC_LO :: .EBR_SIDEBAND :: .EF_STATUS :: .FLL_LINK_STATUS ::
      .FLL_REPLAY :: .LNA_ALIGN :: .LNA_LANE_STATE :: .LNA_MRG_RESULT :: .LNA_TRAIN_REF :: .MBX_CH_STATUS :: .PD_CONTRACT :: .PD_EVENTS ::
      .PD_POOL_USED :: .PD_PORT_STATUS :: .PIN_CTL :: .PIN_OLD :: .PRT_PORT_STATUS :: .PWR_CAGE_USED :: .RTE_EVENTS :: .RTE_GRP_SLOT ::
      .SLC_CONT_ESEQ_HI :: .SLC_CONT_ESEQ_LO :: .SLC_CONT_STATE :: .TUN_CE_DEST :: .TUN_CE_IRQ :: .TUN_CE_STATUS :: .TUN_PORT_ALLOT ::
      .TUN_PORT_STATUS :: .USH_EVENTS :: .USH_OWNER :: .VIT_STATE :: .WR_Q_DRR :: recordRegs), (.arrived :: .candidates :: .cellsFree ::
      .chans :: .cmds :: .cores :: .dwins :: .efQueue :: .efuses :: .endpoints :: .engines :: .fronts :: .heldTlps :: .hubPort :: .lanes
      :: .links :: .lockSince :: .lockSrc :: .mud :: .notices :: .outs :: .pausedLinks :: .pds :: .perstReleased :: .pfLog :: .pfSeq ::
      .pins :: .ports :: .queues :: .sbSeq :: .trk :: .usbaOpen :: .vports :: .winFetches :: .winReads :: .winStores :: .wins :: .withheld
      :: recordParts), false, false⟩
  | .swapRequest .. => ⟨[.PD_CABLE, .PD_CONTRACT, .PD_POOL_USED, .PD_PORT_STATUS, .TUN_PORT_STATUS], [.cmds, .out, .pds], false, false⟩
  | .swapComplete .. => ⟨(.BSN_Q_STATUS :: .DOC_CORE_STATUS :: .DOC_EVENTS :: .DOC_WSTORE_LOST :: .EBR_CRD_AVAIL :: .EBR_EVENTS ::
      .EBR_LOCK :: .EBR_PFLOG_HEAD :: .EBR_RAT_PFDISC_HI :: .EBR_RAT_PFDISC_LO :: .EBR_SIDEBAND :: .EF_CTL :: .EF_STATUS ::
      .FLL_LINK_STATUS :: .FLL_REPLAY :: .LNA_ALIGN :: .LNA_LANE_STATE :: .LNA_MRG_RESULT :: .LNA_TRAIN_REF :: .MBX_CH_STATUS :: .PD_CABLE
      :: .PD_CONTRACT :: .PD_EVENTS :: .PD_POOL_USED :: .PD_PORT_STATUS :: .PIN_CTL :: .PIN_OLD :: .PRT_PORT_STATUS :: .PWR_CAGE_USED ::
      .RTE_EVENTS :: .RTE_GRP_SLOT :: .SLC_CONT_ESEQ_HI :: .SLC_CONT_ESEQ_LO :: .SLC_CONT_STATE :: .TUN_CE_DEST :: .TUN_CE_IRQ ::
      .TUN_CE_STATUS :: .TUN_PORT_ALLOT :: .TUN_PORT_STATUS :: .USH_EVENTS :: .USH_OWNER :: .VIT_STATE :: .WR_Q_DRR :: recordRegs),
      (.arrived :: .candidates :: .cellsFree :: .chans :: .cmds :: .cores :: .dwins :: .efQueue :: .efuses :: .endpoints :: .engines ::
      .fronts :: .heldTlps :: .hubPort :: .lanes :: .links :: .lockSince :: .lockSrc :: .mud :: .notices :: .outs :: .pausedLinks :: .pds
      :: .perstReleased :: .pfLog :: .pfSeq :: .pins :: .ports :: .queues :: .sbSeq :: .trk :: .usbaOpen :: .vports :: .winFetches ::
      .winReads :: .winStores :: .wins :: .withheld :: recordParts), false, false⟩
  | .swapRetryHoldExpiry .. => ⟨[], [.pds], false, false⟩
  | .pdHardReset .. => ⟨(.BSN_Q_STATUS :: .DOC_CORE_STATUS :: .DOC_EVENTS :: .DOC_WSTORE_LOST :: .EBR_CRD_AVAIL :: .EBR_EVENTS ::
      .EBR_LOCK :: .EBR_PFLOG_HEAD :: .EBR_RAT_PFDISC_HI :: .EBR_RAT_PFDISC_LO :: .EBR_SIDEBAND :: .EF_STATUS :: .FLL_LINK_STATUS ::
      .FLL_REPLAY :: .LNA_ALIGN :: .LNA_LANE_STATE :: .LNA_MRG_RESULT :: .LNA_TRAIN_REF :: .MBX_CH_STATUS :: .PD_CONTRACT :: .PD_EVENTS ::
      .PD_POOL_USED :: .PD_PORT_STATUS :: .PIN_CTL :: .PIN_OLD :: .PRT_PORT_STATUS :: .PWR_CAGE_USED :: .RTE_EVENTS :: .RTE_GRP_SLOT ::
      .SLC_CONT_ESEQ_HI :: .SLC_CONT_ESEQ_LO :: .SLC_CONT_STATE :: .TUN_CE_DEST :: .TUN_CE_IRQ :: .TUN_CE_STATUS :: .TUN_PORT_ALLOT ::
      .TUN_PORT_STATUS :: .USH_EVENTS :: .USH_OWNER :: .VIT_STATE :: .WR_Q_DRR :: recordRegs), (.arrived :: .candidates :: .cellsFree ::
      .chans :: .cmds :: .cores :: .dwins :: .efQueue :: .efuses :: .endpoints :: .engines :: .fronts :: .heldTlps :: .hubPort :: .lanes
      :: .links :: .lockSince :: .lockSrc :: .mud :: .notices :: .outs :: .pausedLinks :: .pds :: .perstReleased :: .pfLog :: .pfSeq ::
      .pins :: .ports :: .queues :: .sbSeq :: .trk :: .usbaOpen :: .vports :: .winFetches :: .winReads :: .winStores :: .wins :: .withheld
      :: recordParts), false, false⟩
  | .hardResetRecovery .. => ⟨(.EF_CTL :: .EF_STATUS :: .PD_EVENTS :: .PD_POOL_USED :: .PD_PORT_STATUS :: recordRegs), (.efQueue :: .pds
      :: recordParts), false, false⟩
  | .ccOpen .. => ⟨(.EBR_SIDEBAND :: .EF_EVENTS :: .EF_STATUS :: .MBX_CH_STATUS :: .PD_CONTRACT :: .PD_EVENTS :: .PD_POOL_USED ::
      .PD_PORT_STATUS :: .PWR_CAGE_USED :: .TUN_PORT_STATUS :: .USH_EVENTS :: .USH_OWNER :: recordRegs), (.candidates :: .chans :: .cmds
      :: .efQueue :: .efuses :: .hubPort :: .mud :: .pds :: .perstReleased :: .usbaOpen :: recordParts), false, false⟩
  | .dischargeComplete .. => ⟨[.PD_PORT_STATUS], [.out, .pds], false, false⟩
  | .dischargeTimeout .. => ⟨[.PD_PORT_STATUS], [.pds], false, false⟩
  | .pdPolicySet .. => ⟨[.PD_CABLE, .PD_CONTRACT, .PD_POOL_USED, .PD_PORT_POLICY, .PD_PORT_STATUS, .TUN_PORT_STATUS], [.cmds, .out, .pds],
      false, false⟩
  | .feedPresent .. => ⟨allRegs, allParts, true, false⟩
  | .feedLost .. => ⟨(.PD_POOL_LIMIT :: .PWR_BUDGET :: .PWR_EVENTS :: .PWR_FEED_A :: .PWR_FEED_B :: .PWR_POOLS :: recordRegs),
      recordParts, false, false⟩
  | .lineCategoryChange .. => ⟨(.PD_POOL_LIMIT :: .PWR_BUDGET :: .PWR_EVENTS :: .PWR_FEED_A :: .PWR_FEED_B :: .PWR_POOLS :: recordRegs),
      recordParts, false, false⟩
  | .loadShedding .. => ⟨(.BSN_Q_STATUS :: .DOC_CORE_STATUS :: .DOC_EVENTS :: .DOC_WSTORE_LOST :: .EBR_CRD_AVAIL :: .EBR_EVENTS ::
      .EBR_LOCK :: .EBR_PFLOG_HEAD :: .EBR_RAT_PFDISC_HI :: .EBR_RAT_PFDISC_LO :: .EBR_SIDEBAND :: .EF_EVENTS :: .EF_STATUS ::
      .FLL_LINK_STATUS :: .FLL_REPLAY :: .LNA_ALIGN :: .LNA_LANE_STATE :: .LNA_MRG_RESULT :: .LNA_TRAIN_REF :: .MBX_CH_STATUS ::
      .PD_CONTRACT :: .PD_EVENTS :: .PD_POOL_USED :: .PD_PORT_STATUS :: .PIN_CTL :: .PIN_OLD :: .PRT_PORT_STATUS :: .PWR_CAGE_USED ::
      .PWR_EVENTS :: .RTE_EVENTS :: .RTE_GRP_SLOT :: .SLC_CONT_ESEQ_HI :: .SLC_CONT_ESEQ_LO :: .SLC_CONT_STATE :: .TUN_CE_DEST ::
      .TUN_CE_IRQ :: .TUN_CE_STATUS :: .TUN_PORT_ALLOT :: .TUN_PORT_STATUS :: .USH_EVENTS :: .USH_OWNER :: .VIT_STATE :: .WR_Q_DRR ::
      recordRegs), (.arrived :: .candidates :: .cellsFree :: .chans :: .cmds :: .cores :: .dwins :: .efQueue :: .efuses :: .endpoints ::
      .engines :: .fronts :: .heldTlps :: .hubPort :: .lanes :: .links :: .lockSince :: .lockSrc :: .mud :: .notices :: .outs ::
      .pausedLinks :: .pds :: .perstReleased :: .pfLog :: .pfSeq :: .pins :: .ports :: .queues :: .sbSeq :: .trk :: .usbaOpen :: .vports
      :: .winFetches :: .winReads :: .winStores :: .wins :: .withheld :: recordParts), false, false⟩
  | .stageLost .. => ⟨(.PD_POOL_LIMIT :: .PWR_BUDGET :: .PWR_EVENTS :: .PWR_POOLS :: .PWR_STAGES :: recordRegs), recordParts, false,
      false⟩
  | .bothFeedsLost .. => ⟨allRegs, allParts, true, false⟩
  | .budgetSet .. => ⟨[.PD_POOL_LIMIT, .PWR_POOLS], [.cmds, .out, .splits], false, false⟩
  | .efuseEnable .. => ⟨(.EBR_EVENTS :: .EBR_SIDEBAND :: .EF_CTL :: .EF_EVENTS :: .EF_STATUS :: .PWR_CAGE_USED :: recordRegs), (.arrived
      :: .cmds :: .efQueue :: .efuses :: .perstReleased :: .sbSeq :: .vports :: recordParts), false, false⟩
  | .efuseDisable .. => ⟨[.EBR_SIDEBAND, .EF_STATUS, .PWR_CAGE_USED], [.cmds, .efQueue, .efuses, .out, .perstReleased], false, false⟩
  | .efCtlEnable .. => ⟨(.EBR_EVENTS :: .EBR_SIDEBAND :: .EF_CTL :: .EF_EVENTS :: .EF_STATUS :: .PD_EVENTS :: .PD_POOL_USED ::
      .PD_PORT_STATUS :: .PWR_CAGE_USED :: recordRegs), (.arrived :: .efQueue :: .efuses :: .pds :: .perstReleased :: .sbSeq :: .vports ::
      recordParts), false, false⟩
  | .efCtlDisable .. => ⟨(.EBR_SIDEBAND :: .EF_CTL :: .EF_EVENTS :: .EF_STATUS :: .PD_POOL_USED :: .PWR_CAGE_USED :: recordRegs),
      (.arrived :: .efQueue :: .efuses :: .pds :: .perstReleased :: .sbSeq :: .vports :: recordParts), false, false⟩
  | .efuseGateCheck .. => ⟨(.EBR_SIDEBAND :: .EF_EVENTS :: .EF_STATUS :: .PWR_CAGE_USED :: recordRegs), (.arrived :: .efQueue :: .efuses
      :: .perstReleased :: .sbSeq :: .vports :: recordParts), false, false⟩
  | .efuseGateFull .. => ⟨[.EF_STATUS], [.efQueue], false, false⟩
  | .efusePowerGood .. => ⟨(.BSN_Q_STATUS :: .DOC_CORE_STATUS :: .DOC_EVENTS :: .DOC_WSTORE_LOST :: .EBR_EVENTS :: .EBR_LOCK ::
      .EBR_PFLOG_HEAD :: .EBR_RAT_PFDISC_HI :: .EBR_RAT_PFDISC_LO :: .EBR_SIDEBAND :: .EF_STATUS :: .LNA_ALIGN :: .LNA_LANE_STATE ::
      .LNA_MRG_RESULT :: .LNA_TRAIN_REF :: .PD_PORT_STATUS :: .PRT_PORT_STATUS :: .SLC_CONT_STATE :: .WR_Q_DRR :: recordRegs), (.arrived
      :: .cellsFree :: .cmds :: .cores :: .dwins :: .efuses :: .endpoints :: .lanes :: .lockSince :: .lockSrc :: .notices :: .outs :: .pds
      :: .pfLog :: .pfSeq :: .ports :: .queues :: .trk :: .vports :: .winFetches :: .winReads :: .winStores :: recordParts), false, false⟩
  | .efuseCurrentLimit .. => ⟨(.EBR_SIDEBAND :: .EF_EVENTS :: .EF_MEAS :: .EF_STATUS :: .SLC_INJ_ARMED :: .TEL_MODE :: recordRegs),
      (.arrived :: .injecting :: .injections :: .perstReleased :: .sbSeq :: .vports :: recordParts), false, false⟩
  | .efuseCurrentNormal .. => ⟨[.EF_MEAS, .EF_STATUS], [], false, false⟩
  | .efuseFaultTimerExpiry .. => ⟨(.EBR_SIDEBAND :: .EF_CTL :: .EF_EVENTS :: .EF_STATUS :: .PD_CONTRACT :: .PD_POOL_USED ::
      .PD_PORT_STATUS :: recordRegs), (.arrived :: .efQueue :: .pds :: .perstReleased :: .sbSeq :: .vports :: recordParts), false, false⟩
  | .efuseFastTrip .. => ⟨(.EBR_SIDEBAND :: .EF_CTL :: .EF_EVENTS :: .EF_MEAS :: .EF_STATUS :: .PD_CONTRACT :: .PD_POOL_USED ::
      .PD_PORT_STATUS :: recordRegs), (.arrived :: .efQueue :: .pds :: .perstReleased :: .sbSeq :: .vports :: recordParts), false, false⟩
  | .efuseRetry .. => ⟨[.EF_STATUS], [.efQueue], false, false⟩
  | .efusePresenceChange .. => ⟨(.EBR_SIDEBAND :: .EF_EVENTS :: .EF_STATUS :: .PD_POOL_USED :: .PWR_CAGE_USED :: recordRegs), (.efQueue ::
      .efuses :: .pds :: .perstReleased :: recordParts), false, false⟩
  | .efuseRetriesClear .. => ⟨[.EF_STATUS], [], false, false⟩
  | .backfeed .. => ⟨(.EBR_SIDEBAND :: .EF_EVENTS :: .EF_MEAS :: .EF_STATUS :: .PD_PORT_STATUS :: .PWR_CAGE_USED :: recordRegs), (.arrived
      :: .efQueue :: .efuses :: .perstReleased :: .sbSeq :: .vports :: recordParts), false, false⟩
  | .vbusSwitchTest .. => ⟨[.EF_STATUS, .PD_PORT_STATUS], [.out, .pds], false, false⟩
  | .cagePresenceLostPowered .. => ⟨[.EBR_SIDEBAND, .EF_STATUS, .PWR_CAGE_USED], [.efQueue, .efuses, .out, .perstReleased], false, false⟩
  | .cageId .. => ⟨recordRegs, recordParts, false, false⟩
  | .cageAlert .. => ⟨recordRegs, recordParts, false, false⟩
  | .commandNoticeIntake .. => ⟨(.VMF_BME :: .VMF_CAT_ADDR_HI :: .VMF_CAT_ADDR_LO :: .VMF_CAT_SIZE :: .VMF_CAT_WPTR :: .VMF_CPL_TMO ::
      .VMF_EVENT_MASK :: .VMF_SPC_ADDR_HI :: .VMF_SPC_ADDR_LO :: .VMF_SPC_SIZE :: .VMF_SPC_WPTR :: recordRegs), (.cats :: .cfg :: .chans
      :: .cmds :: .cores :: .samples :: .spcs :: .vmfs :: recordParts), true, false⟩
  | .commandDone .. => ⟨(.MBX_CH_STATUS :: .TEL_MODE :: recordRegs), (.arrived :: .chans :: .cmds :: .cores :: .mudDone :: recordParts),
      true, false⟩
  | .commandForward .. => ⟨[], [.cmds], false, false⟩
  | .remoteProgress .. => ⟨[], [.arrived, .cmds], false, false⟩
  | .remoteTimeout .. => ⟨[], [.cmds], false, false⟩
  | .objectWaitTimeout .. => ⟨[], [.cmds], false, false⟩
  | .moduleInfo .. => ⟨[], [.cmds, .out], false, false⟩
  | .portList .. => ⟨[], [.cmds, .out], false, false⟩
  | .endpointList .. => ⟨[], [.cmds, .out], false, false⟩
  | .endpointInfo .. => ⟨[], [.cmds, .out], false, false⟩
  | .vitrineInfo .. => ⟨[], [.cmds, .out], false, false⟩
  | .powerState .. => ⟨(.DOC_CORE_STATUS :: .PWR_MODE :: .PWR_PS_CNT :: .PWR_PS_LAST :: .PWR_PS_STATUS :: recordRegs), (.byCommand ::
      .cmds :: .lastTraffic :: recordParts), false, false⟩
  | .catalogueConfig .. => ⟨[.TEL_CAT_WPTR, .VMF_CAT_ADDR_HI, .VMF_CAT_ADDR_LO, .VMF_CAT_SIZE, .VMF_CAT_WPTR], [.cats, .cmds, .out,
      .ringRecords], false, false⟩
  | .specimenConfig .. => ⟨[.TEL_SPC_WPTR, .VMF_SPC_ADDR_HI, .VMF_SPC_ADDR_LO, .VMF_SPC_SIZE, .VMF_SPC_WPTR], [.cmds, .out, .ringRecords,
      .spcs], false, false⟩
  | .counterClearSticky .. => ⟨recordRegs, (.cmds :: recordParts), false, false⟩
  | .timeGet .. => ⟨[], [.cmds, .out], false, false⟩
  | .timeSourceSet .. => ⟨(.TIM_ERR_EST :: .TIM_EVENTS :: .TIM_ROOT :: .TIM_SRC_CFG :: .TIM_STATE :: recordRegs), (.cmds :: .time ::
      recordParts), false, false⟩
  | .schedule .. => ⟨[], [.cmds, .cores, .out, .scheduled], true, false⟩
  | .scheduleCancel .. => ⟨[], [.cmds, .out, .scheduled], false, false⟩
  | .scheduledCommandDue .. => ⟨[], [.cmds, .cores, .ctrs, .out, .scheduled], true, false⟩
  | .imageStage .. => ⟨[], [.cmds, .images, .out], false, false⟩
  | .fwWrite .. => ⟨[], [.cmds, .cores, .eqTable, .out], true, true⟩
  | .fwActivate .. => ⟨allRegs, allParts, true, true⟩
  | .roleSet .. => ⟨[.CUR_DOC_ROLE_HI, .CUR_DOC_ROLE_LO], [.cmds, .out], false, true⟩
  | .rangeSet .. => ⟨[.EBR_PFLOG_HEAD, .EBR_RAT_ATTR, .EBR_RAT_BASE, .EBR_RAT_LIMIT, .EBR_RAT_PFDISC_HI, .EBR_RAT_PFDISC_LO,
      .EBR_RAT_TARGET, .EBR_RAT_XLATE_HI, .EBR_RAT_XLATE_LO], [.cmds, .ctrs, .out, .pfLines, .pfLog, .pfSeq], false, false⟩
  | .moduleReset .. => ⟨allRegs, allParts, true, false⟩
  | .mailboxPost .. => ⟨(.MBX_CH_PTR_HI :: .MBX_CH_STATUS :: recordRegs), (.chans :: recordParts), false, false⟩
  | .mailboxPop .. => ⟨recordRegs, (.chans :: recordParts), false, false⟩
  | .mbxLockWrite .. => ⟨(.MBX_BIND :: .MBX_LOCK :: recordRegs), recordParts, false, false⟩
  | .channelAborted .. => ⟨(.MBX_CH_STATUS :: recordRegs), (.chans :: recordParts), false, false⟩
  | .vmfBmeClear .. => ⟨[.VMF_BME], [.vmfs], false, false⟩
  | .vmfFlr .. => ⟨(.MBX_CH_STATUS :: .VMF_BME :: .VMF_CAT_ADDR_HI :: .VMF_CAT_ADDR_LO :: .VMF_CAT_SIZE :: .VMF_CAT_WPTR :: .VMF_CPL_TMO
      :: .VMF_EVENT_MASK :: .VMF_SPC_ADDR_HI :: .VMF_SPC_ADDR_LO :: .VMF_SPC_SIZE :: .VMF_SPC_WPTR :: recordRegs), (.cats :: .cfg ::
      .chans :: .samples :: .spcs :: .vmfs :: recordParts), false, false⟩
  | .vmfReadTimeout .. => ⟨(.VMF_BME :: .VMF_CAT_ADDR_HI :: .VMF_CAT_ADDR_LO :: .VMF_CAT_SIZE :: .VMF_CAT_WPTR :: .VMF_CPL_TMO ::
      .VMF_EVENT_MASK :: .VMF_SPC_ADDR_HI :: .VMF_SPC_ADDR_LO :: .VMF_SPC_SIZE :: .VMF_SPC_WPTR :: recordRegs), (.cats :: .cfg :: .samples
      :: .spcs :: .vmfs :: recordParts), false, false⟩
  | .docCoreRunSet .. => ⟨(.DOC_MTIMECMP_LO :: .DOC_MTIMECMP_HI :: .ATT_CTL :: .BSN_EVENTS :: .BSN_PORT_GRANT :: .BSN_PORT_RSV ::
      .BSN_Q_CFG :: .BSN_Q_STATUS :: .BSN_RESERVED :: .BSN_SHARED_SIZE :: .DOC_CORE_CTL :: .DOC_CORE_STATUS :: .DOC_EVENTS ::
      .DOC_STB_DISCARD :: .DOC_WSTORE_LOST :: .EBR_CRD_AVAIL :: .EBR_EVENTS :: .EBR_LOCK :: .EBR_PFLOG_HEAD :: .EBR_RAT_PFDISC_HI ::
      .EBR_RAT_PFDISC_LO :: .EBR_SIDEBAND :: .EF_CTL :: .EF_EVENTS :: .EF_STATUS :: .FLL_LINK_STATUS :: .FLL_REPLAY :: .GATE_COUNT ::
      .HLT_PLAN_CTL :: .HLT_PLAN_STATUS :: .LNA_ALIGN :: .LNA_BITSLIP :: .LNA_LANE_CFG :: .LNA_LANE_STATE :: .LNA_MRG_CTL ::
      .LNA_MRG_RESULT :: .LNA_RX_EQ :: .LNA_TRAIN_REF :: .LNA_TX_EQ :: .MBX_BIND :: .MBX_CH_PTR_HI :: .MBX_CH_PTR_LO :: .MBX_CH_STATUS ::
      .MBX_LOCK :: .PD_EVENTS :: .PD_POOL_USED :: .PD_PORT_STATUS :: .PIN_CTL :: .PIN_OLD :: .PRT_PORT_STATUS :: .PWR_CAGE_USED ::
      .PWR_PAD_HOLD :: .RTE_EVENTS :: .RTE_GRP_SLOT :: .SLC_CONT_ESEQ_HI :: .SLC_CONT_ESEQ_LO :: .SLC_CONT_STATE :: .TIM_ERR_EST ::
      .TIM_EVENTS :: .TIM_ROOT :: .TIM_SRC_CFG :: .TIM_STATE :: .TUN_CE_DEST :: .TUN_CE_IRQ :: .TUN_CE_MODE :: .TUN_CE_SCANOUT ::
      .TUN_CE_STATUS :: .TUN_PORT_ALLOT :: .TUN_PORT_EVENTS :: .TUN_PORT_STATUS :: .USH_EVENTS :: .USH_MUD_CTL :: .USH_OWNER :: .VIT_STATE
      :: .WR_GATE_STATUS :: .WR_PORT_EVENTS :: .WR_PORT_GUARD :: .WR_Q_CFG :: .WR_Q_DRR :: .WR_SHP_RATE :: recordRegs), (.arrived :: .atts
      :: .cellsFree :: .chans :: .cmds :: .cores :: .drawn :: .dwins :: .efQueue :: .efuses :: .endpoints :: .engines :: .eqReported ::
      .fronts :: .heldTlps :: .lanes :: .links :: .lockSince :: .lockSrc :: .mud :: .notices :: .outs :: .pausedLinks :: .pds ::
      .perstReleased :: .pfLines :: .pfLog :: .pfSeq :: .pins :: .ports :: .queues :: .sbSeq :: .shapers :: .time :: .trk :: .vports ::
      .winFetches :: .winReads :: .winStores :: .wins :: .withheld :: recordParts), true, false⟩
  | .docentReset .. => ⟨(.DOC_MTIMECMP_LO :: .DOC_MTIMECMP_HI :: .ATT_CTL :: .BSN_EVENTS :: .BSN_PORT_GRANT :: .BSN_PORT_RSV :: .BSN_Q_CFG
      :: .BSN_Q_STATUS :: .BSN_RESERVED :: .BSN_SHARED_SIZE :: .DOC_CORE_CTL :: .DOC_CORE_STATUS :: .DOC_EVENTS :: .DOC_STB_DISCARD ::
      .DOC_WSTORE_LOST :: .EBR_CRD_AVAIL :: .EBR_EVENTS :: .EBR_LOCK :: .EBR_PFLOG_HEAD :: .EBR_RAT_PFDISC_HI :: .EBR_RAT_PFDISC_LO ::
      .EBR_SIDEBAND :: .EF_CTL :: .EF_EVENTS :: .EF_STATUS :: .FLL_LINK_STATUS :: .FLL_REPLAY :: .GATE_COUNT :: .HLT_PLAN_CTL ::
      .HLT_PLAN_STATUS :: .LNA_ALIGN :: .LNA_BITSLIP :: .LNA_LANE_CFG :: .LNA_LANE_STATE :: .LNA_MRG_CTL :: .LNA_MRG_RESULT :: .LNA_RX_EQ
      :: .LNA_TRAIN_REF :: .LNA_TX_EQ :: .MBX_BIND :: .MBX_CH_PTR_HI :: .MBX_CH_PTR_LO :: .MBX_CH_STATUS :: .MBX_LOCK :: .PD_EVENTS ::
      .PD_POOL_USED :: .PD_PORT_STATUS :: .PIN_CTL :: .PIN_OLD :: .PRT_PORT_STATUS :: .PWR_CAGE_USED :: .PWR_PAD_HOLD :: .RTE_EVENTS ::
      .RTE_GRP_SLOT :: .SLC_CONT_ESEQ_HI :: .SLC_CONT_ESEQ_LO :: .SLC_CONT_STATE :: .TIM_ERR_EST :: .TIM_EVENTS :: .TIM_ROOT ::
      .TIM_SRC_CFG :: .TIM_STATE :: .TUN_CE_DEST :: .TUN_CE_IRQ :: .TUN_CE_MODE :: .TUN_CE_SCANOUT :: .TUN_CE_STATUS :: .TUN_PORT_ALLOT ::
      .TUN_PORT_EVENTS :: .TUN_PORT_STATUS :: .USH_EVENTS :: .USH_MUD_CTL :: .USH_OWNER :: .VIT_STATE :: .WR_GATE_STATUS ::
      .WR_PORT_EVENTS :: .WR_PORT_GUARD :: .WR_Q_CFG :: .WR_Q_DRR :: .WR_SHP_RATE :: recordRegs), (.arrived :: .atts :: .cellsFree ::
      .chans :: .cmds :: .cores :: .drawn :: .dwins :: .efQueue :: .efuses :: .endpoints :: .engines :: .eqReported :: .fronts ::
      .heldTlps :: .lanes :: .links :: .lockSince :: .lockSrc :: .mud :: .notices :: .outs :: .pausedLinks :: .pds :: .perstReleased ::
      .pfLines :: .pfLog :: .pfSeq :: .pins :: .ports :: .queues :: .sbSeq :: .shapers :: .time :: .trk :: .vports :: .winFetches ::
      .winReads :: .winStores :: .wins :: .withheld :: recordParts), true, false⟩
  | .docentFence .. => ⟨[.DOC_CORE_STATUS], [.cores], false, false⟩
  | .docentStore .. => ⟨recordRegs, (.cores :: recordParts), false, false⟩
  | .storeBufferEntryDelivery .. => ⟨(.DOC_MTIMECMP_LO :: .DOC_MTIMECMP_HI :: .ATT_CTL :: .BSN_EVENTS :: .BSN_PORT_GRANT :: .BSN_PORT_RSV
      :: .BSN_Q_CFG :: .BSN_Q_STATUS :: .BSN_RESERVED :: .BSN_SHARED_SIZE :: .DOC_CORE_STATUS :: .DOC_EVENTS :: .DOC_WSTORE_LOST ::
      .EBR_CRD_AVAIL :: .EBR_EVENTS :: .EBR_LOCK :: .EBR_PFLOG_HEAD :: .EBR_RAT_PFDISC_HI :: .EBR_RAT_PFDISC_LO :: .EBR_SIDEBAND ::
      .EF_CTL :: .EF_EVENTS :: .EF_STATUS :: .FLL_LINK_STATUS :: .FLL_REPLAY :: .GATE_COUNT :: .HLT_PLAN_CTL :: .HLT_PLAN_STATUS ::
      .LNA_ALIGN :: .LNA_BITSLIP :: .LNA_LANE_CFG :: .LNA_LANE_STATE :: .LNA_MRG_CTL :: .LNA_MRG_RESULT :: .LNA_RX_EQ :: .LNA_TRAIN_REF ::
      .LNA_TX_EQ :: .MBX_BIND :: .MBX_CH_PTR_HI :: .MBX_CH_PTR_LO :: .MBX_CH_STATUS :: .MBX_LOCK :: .PD_EVENTS :: .PD_POOL_USED ::
      .PD_PORT_STATUS :: .PIN_CTL :: .PIN_OLD :: .PRT_PORT_STATUS :: .PWR_CAGE_USED :: .PWR_PAD_HOLD :: .RTE_EVENTS :: .RTE_GRP_SLOT ::
      .SLC_CONT_ESEQ_HI :: .SLC_CONT_ESEQ_LO :: .SLC_CONT_STATE :: .TIM_ERR_EST :: .TIM_EVENTS :: .TIM_ROOT :: .TIM_SRC_CFG :: .TIM_STATE
      :: .TUN_CE_DEST :: .TUN_CE_IRQ :: .TUN_CE_MODE :: .TUN_CE_SCANOUT :: .TUN_CE_STATUS :: .TUN_PORT_ALLOT :: .TUN_PORT_EVENTS ::
      .TUN_PORT_STATUS :: .USH_EVENTS :: .USH_MUD_CTL :: .USH_OWNER :: .VIT_STATE :: .WR_GATE_STATUS :: .WR_PORT_EVENTS :: .WR_PORT_GUARD
      :: .WR_Q_CFG :: .WR_Q_DRR :: .WR_SHP_RATE :: recordRegs), (.arrived :: .atts :: .cellsFree :: .chans :: .cmds :: .cores :: .drawn ::
      .dwins :: .efQueue :: .efuses :: .endpoints :: .engines :: .eqReported :: .fronts :: .heldTlps :: .lanes :: .links :: .lockSince ::
      .lockSrc :: .mud :: .notices :: .outs :: .pausedLinks :: .pds :: .perstReleased :: .pfLines :: .pfLog :: .pfSeq :: .pins :: .ports
      :: .queues :: .sbSeq :: .shapers :: .time :: .trk :: .vports :: .winFetches :: .winReads :: .winStores :: .wins :: .withheld ::
      recordParts), true, false⟩
  | .windowStoreAccepted .. => ⟨(.DOC_CORE_STATUS :: .DOC_EVENTS :: .DOC_WSTORE_LOST :: .EBR_CRD_AVAIL :: .EBR_EVENTS :: .EBR_PFLOG_HEAD
      :: .EBR_RAT_PFDISC_HI :: .EBR_RAT_PFDISC_LO :: recordRegs), (.arrived :: .cores :: .pfLines :: .pfLog :: .pfSeq :: .trk ::
      .winStores :: .wins :: recordParts), false, false⟩
  | .docentWindowLoad .. => ⟨(.EBR_CRD_AVAIL :: recordRegs), (.arrived :: .cores :: .heldTlps :: .outs :: .pfLines :: .trk :: .winReads ::
      .wins :: .withheld :: recordParts), false, false⟩
  | .prefetchMissFetch .. => ⟨[.EBR_CRD_AVAIL], [.arrived, .ctrs, .heldTlps, .out, .outs, .trk, .winFetches, .winReads, .wins, .withheld],
      false, false⟩
  | .heldReadDetach .. => ⟨[], [.winReads], false, false⟩
  | .parkedCompletionReplay .. => ⟨[], [.out, .winReads], false, false⟩
  | .windowReadError .. => ⟨(.EBR_CRD_AVAIL :: .EBR_PFLOG_HEAD :: .EBR_RAT_PFDISC_HI :: .EBR_RAT_PFDISC_LO :: recordRegs), (.arrived ::
      .cores :: .heldTlps :: .outs :: .pfLog :: .pfSeq :: .trk :: .winFetches :: .winReads :: .wins :: .withheld :: recordParts), false,
      false⟩
  | .prefetchLineExpiry .. => ⟨[.EBR_PFLOG_HEAD, .EBR_RAT_PFDISC_HI, .EBR_RAT_PFDISC_LO], [.ctrs, .pfLines, .pfLog, .pfSeq], false, false⟩
  | .docentLr .. => ⟨recordRegs, (.cores :: recordParts), false, false⟩
  | .docentSc .. => ⟨(.DOC_MTIMECMP_LO :: .DOC_MTIMECMP_HI :: .ATT_CTL :: .BSN_EVENTS :: .BSN_PORT_GRANT :: .BSN_PORT_RSV :: .BSN_Q_CFG ::
      .BSN_Q_STATUS :: .BSN_RESERVED :: .BSN_SHARED_SIZE :: .DOC_CORE_STATUS :: .DOC_EVENTS :: .DOC_WSTORE_LOST :: .EBR_CRD_AVAIL ::
      .EBR_EVENTS :: .EBR_LOCK :: .EBR_PFLOG_HEAD :: .EBR_RAT_PFDISC_HI :: .EBR_RAT_PFDISC_LO :: .EBR_SIDEBAND :: .EF_CTL :: .EF_EVENTS ::
      .EF_STATUS :: .FLL_LINK_STATUS :: .FLL_REPLAY :: .GATE_COUNT :: .HLT_PLAN_CTL :: .HLT_PLAN_STATUS :: .LNA_ALIGN :: .LNA_BITSLIP ::
      .LNA_LANE_CFG :: .LNA_LANE_STATE :: .LNA_MRG_CTL :: .LNA_MRG_RESULT :: .LNA_RX_EQ :: .LNA_TRAIN_REF :: .LNA_TX_EQ :: .MBX_BIND ::
      .MBX_CH_PTR_HI :: .MBX_CH_PTR_LO :: .MBX_CH_STATUS :: .MBX_LOCK :: .PD_EVENTS :: .PD_POOL_USED :: .PD_PORT_STATUS :: .PIN_CTL ::
      .PIN_OLD :: .PRT_PORT_STATUS :: .PWR_CAGE_USED :: .PWR_PAD_HOLD :: .RTE_EVENTS :: .RTE_GRP_SLOT :: .SLC_CONT_ESEQ_HI ::
      .SLC_CONT_ESEQ_LO :: .SLC_CONT_STATE :: .TIM_ERR_EST :: .TIM_EVENTS :: .TIM_ROOT :: .TIM_SRC_CFG :: .TIM_STATE :: .TUN_CE_DEST ::
      .TUN_CE_IRQ :: .TUN_CE_MODE :: .TUN_CE_SCANOUT :: .TUN_CE_STATUS :: .TUN_PORT_ALLOT :: .TUN_PORT_EVENTS :: .TUN_PORT_STATUS ::
      .USH_EVENTS :: .USH_MUD_CTL :: .USH_OWNER :: .VIT_STATE :: .WR_GATE_STATUS :: .WR_PORT_EVENTS :: .WR_PORT_GUARD :: .WR_Q_CFG ::
      .WR_Q_DRR :: .WR_SHP_RATE :: recordRegs), (.arrived :: .atts :: .cellsFree :: .chans :: .cmds :: .cores :: .drawn :: .dwins ::
      .efQueue :: .efuses :: .endpoints :: .engines :: .eqReported :: .fronts :: .heldTlps :: .lanes :: .links :: .lockSince :: .lockSrc
      :: .mud :: .notices :: .outs :: .pausedLinks :: .pds :: .perstReleased :: .pfLines :: .pfLog :: .pfSeq :: .pins :: .ports :: .queues
      :: .sbSeq :: .shapers :: .time :: .trk :: .vports :: .winFetches :: .winReads :: .winStores :: .wins :: .withheld :: recordParts),
      true, false⟩
  | .docentDeviceAtomic .. => ⟨recordRegs, (.cores :: recordParts), false, false⟩
  | .docentWfi .. => ⟨[.DOC_CORE_STATUS], [.cores], false, false⟩
  | .docentTimerInterrupt .. => ⟨[.DOC_CORE_STATUS], [.cores, .out], false, false⟩
  | .docentAccessFault .. => ⟨recordRegs, (.cores :: recordParts), false, false⟩
  | .sync .. => ⟨(.TIM_ERR_EST :: .TIM_EVENTS :: .TIM_ROOT :: .TIM_STATE :: recordRegs), (.routed :: .time :: recordParts), false, false⟩
  | .delayReq .. => ⟨[], [.routed], false, false⟩
  | .delayRsp .. => ⟨(.ATT_CTL :: .ATT_EP_HI :: .ATT_EP_LO :: .ATT_FPID :: .ATT_HOST_HI :: .ATT_HOST_LO :: .BSN_Q_STATUS ::
      .DOC_CORE_STATUS :: .DOC_EVENTS :: .DOC_WSTORE_LOST :: .EBR_CRD_AVAIL :: .EBR_EVENTS :: .EBR_LOCK :: .EBR_PFLOG_HEAD ::
      .EBR_RAT_PFDISC_HI :: .EBR_RAT_PFDISC_LO :: .FLL_LINK_STATUS :: .FLL_REPLAY :: .LNA_ALIGN :: .LNA_LANE_STATE :: .LNA_MRG_RESULT ::
      .LNA_RX_EQ :: .LNA_TRAIN_REF :: .LNA_TX_EQ :: .MBX_CH_STATUS :: .PIN_CTL :: .PIN_DST :: .PIN_OLD :: .PIN_SRC :: .PIN_TCUT_HI ::
      .PIN_TCUT_LO :: .PRT_PORT_STATUS :: .RTE_EVENTS :: .RTE_GRP_SLOT :: .SLC_CONT_ESEQ_HI :: .SLC_CONT_ESEQ_LO :: .SLC_CONT_STATE ::
      .TEL_CAT_WPTR :: .TEL_EVENTS :: .TIM_ERR_EST :: .TIM_EVENTS :: .TIM_OFFSET :: .TIM_STATE :: .TUN_CE_GEOM :: .TUN_CE_IRQ ::
      .TUN_CE_MODE :: .TUN_CE_SCANOUT :: .TUN_CE_STATUS :: .TUN_CE_STRIDE :: .VIT_EVENTS :: .VIT_STATE :: .VMF_BME :: .VMF_CAT_ADDR_HI ::
      .VMF_CAT_ADDR_LO :: .VMF_CAT_SIZE :: .VMF_CAT_WPTR :: .VMF_CPL_TMO :: .VMF_EVENT_MASK :: .VMF_SPC_ADDR_HI :: .VMF_SPC_ADDR_LO ::
      .VMF_SPC_SIZE :: .VMF_SPC_WPTR :: .WR_GATE_STAT :: .WR_GATE_STATUS :: .WR_PORT_EVENTS :: .WR_PORT_GUARD :: .WR_Q_DRR :: recordRegs),
      (.arrived :: .atts :: .cats :: .cellsFree :: .cfg :: .chans :: .cmds :: .cores :: .drawn :: .dwins :: .endpoints :: .engines ::
      .eqReported :: .heldTlps :: .homes :: .lanes :: .limited :: .links :: .lockSince :: .lockSrc :: .notices :: .now :: .outs ::
      .owesDetect :: .owesDrs :: .pausedLinks :: .pfLog :: .pfSeq :: .pins :: .ports :: .queues :: .samples :: .scheduled :: .spcs ::
      .time :: .trk :: .vmfs :: .vports :: .winFetches :: .winReads :: .winStores :: .wins :: .withheld :: recordParts), true, false⟩
  | .parentLinkLost .. => ⟨(.TIM_ERR_EST :: .TIM_EVENTS :: .TIM_ROOT :: .TIM_STATE :: recordRegs), (.time :: recordParts), false, false⟩
  | .ppsEdge .. => ⟨(.ATT_CTL :: .ATT_EP_HI :: .ATT_EP_LO :: .ATT_FPID :: .ATT_HOST_HI :: .ATT_HOST_LO :: .BSN_Q_STATUS ::
      .DOC_CORE_STATUS :: .DOC_EVENTS :: .DOC_WSTORE_LOST :: .EBR_CRD_AVAIL :: .EBR_EVENTS :: .EBR_LOCK :: .EBR_PFLOG_HEAD ::
      .EBR_RAT_PFDISC_HI :: .EBR_RAT_PFDISC_LO :: .FLL_LINK_STATUS :: .FLL_REPLAY :: .LNA_ALIGN :: .LNA_LANE_STATE :: .LNA_MRG_RESULT ::
      .LNA_RX_EQ :: .LNA_TRAIN_REF :: .LNA_TX_EQ :: .MBX_CH_STATUS :: .PIN_CTL :: .PIN_DST :: .PIN_OLD :: .PIN_SRC :: .PIN_TCUT_HI ::
      .PIN_TCUT_LO :: .PRT_PORT_STATUS :: .RTE_EVENTS :: .RTE_GRP_SLOT :: .SLC_CONT_ESEQ_HI :: .SLC_CONT_ESEQ_LO :: .SLC_CONT_STATE ::
      .TEL_CAT_WPTR :: .TEL_EVENTS :: .TIM_ERR_EST :: .TIM_EVENTS :: .TIM_ROOT :: .TIM_STATE :: .TUN_CE_GEOM :: .TUN_CE_IRQ ::
      .TUN_CE_MODE :: .TUN_CE_SCANOUT :: .TUN_CE_STATUS :: .TUN_CE_STRIDE :: .VIT_EVENTS :: .VIT_STATE :: .VMF_BME :: .VMF_CAT_ADDR_HI ::
      .VMF_CAT_ADDR_LO :: .VMF_CAT_SIZE :: .VMF_CAT_WPTR :: .VMF_CPL_TMO :: .VMF_EVENT_MASK :: .VMF_SPC_ADDR_HI :: .VMF_SPC_ADDR_LO ::
      .VMF_SPC_SIZE :: .VMF_SPC_WPTR :: .WR_GATE_STAT :: .WR_GATE_STATUS :: .WR_PORT_EVENTS :: .WR_PORT_GUARD :: .WR_Q_DRR :: recordRegs),
      (.arrived :: .atts :: .cats :: .cellsFree :: .cfg :: .chans :: .cmds :: .cores :: .drawn :: .dwins :: .endpoints :: .engines ::
      .eqReported :: .heldTlps :: .homes :: .lanes :: .limited :: .links :: .lockSince :: .lockSrc :: .notices :: .now :: .outs ::
      .owesDetect :: .owesDrs :: .pausedLinks :: .pfLog :: .pfSeq :: .pins :: .ports :: .queues :: .samples :: .scheduled :: .spcs ::
      .time :: .trk :: .vmfs :: .vports :: .winFetches :: .winReads :: .winStores :: .wins :: .withheld :: recordParts), true, false⟩
  | .timeSourceLost .. => ⟨(.TIM_ERR_EST :: .TIM_EVENTS :: .TIM_ROOT :: .TIM_STATE :: recordRegs), (.time :: recordParts), false, false⟩
  | .hardwareTimedAction .. => ⟨(.ATT_CTL :: .ATT_EP_HI :: .ATT_EP_LO :: .ATT_FPID :: .ATT_HOST_HI :: .ATT_HOST_LO :: .BSN_Q_STATUS ::
      .DOC_CORE_STATUS :: .DOC_EVENTS :: .DOC_WSTORE_LOST :: .EBR_CRD_AVAIL :: .EBR_EVENTS :: .EBR_LOCK :: .EBR_PFLOG_HEAD ::
      .EBR_RAT_PFDISC_HI :: .EBR_RAT_PFDISC_LO :: .FLL_LINK_STATUS :: .FLL_REPLAY :: .LNA_ALIGN :: .LNA_LANE_STATE :: .LNA_MRG_RESULT ::
      .LNA_RX_EQ :: .LNA_TRAIN_REF :: .LNA_TX_EQ :: .MBX_CH_STATUS :: .PIN_CTL :: .PIN_DST :: .PIN_OLD :: .PIN_SRC :: .PIN_TCUT_HI ::
      .PIN_TCUT_LO :: .PRT_PORT_STATUS :: .RTE_EVENTS :: .RTE_GRP_SLOT :: .SLC_CONT_ESEQ_HI :: .SLC_CONT_ESEQ_LO :: .SLC_CONT_STATE ::
      .TEL_CAT_WPTR :: .TEL_EVENTS :: .TUN_CE_GEOM :: .TUN_CE_IRQ :: .TUN_CE_MODE :: .TUN_CE_SCANOUT :: .TUN_CE_STATUS :: .TUN_CE_STRIDE
      :: .VIT_EVENTS :: .VIT_STATE :: .VMF_BME :: .VMF_CAT_ADDR_HI :: .VMF_CAT_ADDR_LO :: .VMF_CAT_SIZE :: .VMF_CAT_WPTR :: .VMF_CPL_TMO
      :: .VMF_EVENT_MASK :: .VMF_SPC_ADDR_HI :: .VMF_SPC_ADDR_LO :: .VMF_SPC_SIZE :: .VMF_SPC_WPTR :: .WR_GATE_STAT :: .WR_GATE_STATUS ::
      .WR_PORT_EVENTS :: .WR_PORT_GUARD :: .WR_Q_DRR :: recordRegs), (.arrived :: .atts :: .cats :: .cellsFree :: .cfg :: .chans :: .cmds
      :: .cores :: .dwins :: .endpoints :: .engines :: .eqReported :: .heldTlps :: .homes :: .lanes :: .limited :: .links :: .lockSince ::
      .lockSrc :: .notices :: .outs :: .owesDetect :: .owesDrs :: .pausedLinks :: .pfLog :: .pfSeq :: .pins :: .ports :: .queues ::
      .samples :: .spcs :: .trk :: .vmfs :: .vports :: .winFetches :: .winReads :: .winStores :: .wins :: .withheld :: recordParts),
      false, false⟩
  | .catalogueSnapshot .. => ⟨(.TEL_CAT_WPTR :: .TEL_EVENTS :: .VMF_CAT_WPTR :: recordRegs), (.cats :: recordParts), false, false⟩
  | .catalogueDumpComplete .. => ⟨(.TEL_CAT_WPTR :: .TEL_EVENTS :: .VMF_CAT_WPTR :: recordRegs), (.cats :: .cores :: .ringRecords ::
      recordParts), true, false⟩
  | .specimenSample .. => ⟨[], [.samples, .spcs], false, false⟩
  | .specimenRecordWrite .. => ⟨(.TEL_EVENTS :: .TEL_SPC_WPTR :: .VMF_SPC_WPTR :: recordRegs), (.cores :: .ringRecords :: .samples ::
      .spcs :: recordParts), true, false⟩
  | .telModeChanged .. => ⟨(.TEL_MODE :: recordRegs), recordParts, false, false⟩
  | .lockstepDivergence .. => ⟨(.CUR_PAIR_STATUS :: .SLC_INJ_ARMED :: .TEL_MODE :: recordRegs), (.injecting :: .injections ::
      recordParts), false, false⟩
  | .failover .. => ⟨(.CUR_PAIR_STATUS :: .MBX_CH_STATUS :: .TEL_MODE :: .USH_EVENTS :: .USH_MUD_CTL :: recordRegs), (.chans :: .cmds ::
      .mud :: recordParts), false, false⟩
  | .pairSelftestDone .. => ⟨(.CUR_PAIR_STATUS :: recordRegs), recordParts, false, false⟩
  | .tableParity .. => ⟨(.ATT_CTL :: .ATT_EP_HI :: .ATT_EP_LO :: .ATT_FPID :: .ATT_HOST_HI :: .ATT_HOST_LO :: .GATE_COUNT :: .PIN_CTL ::
      .PIN_DST :: .PIN_OLD :: .PIN_SRC :: .PIN_TCUT_HI :: .PIN_TCUT_LO :: .RTE_GRP_SLOT :: .RTE_MRT :: .SLC_INJ_ARMED :: .TEL_MODE ::
      .WR_GATE_STATUS :: .WR_PORT_GUARD :: .WR_Q_CFG :: recordRegs), (.atts :: .injecting :: .injections :: .masked :: .pins :: .shapers
      :: recordParts), false, false⟩
  | .tableScrub .. => ⟨[], [.masked], false, false⟩
  | .refclkSwitch .. => ⟨(.SLC_INJ_ARMED :: .TEL_MODE :: recordRegs), (.injecting :: .injections :: .refB :: recordParts), false, false⟩
  | .memUncorrectable .. => ⟨(.SLC_INJ_ARMED :: .TEL_MODE :: recordRegs), (.cores :: .drawn :: .injecting :: .injections :: .masked ::
      .saves :: recordParts), true, false⟩
  | .coolantFlowLow .. => ⟨recordRegs, recordParts, false, false⟩
  | .coolantHot .. => ⟨recordRegs, recordParts, false, false⟩
  | .thermalWarn .. => ⟨(.HLT_EVENTS :: .HLT_RAIL_AGE :: recordRegs), recordParts, false, false⟩
  | .thermalTrip .. => ⟨(.FLL_LINK_STATUS :: .FLL_REPLAY :: .LNA_ALIGN :: .LNA_LANE_STATE :: .LNA_MRG_RESULT :: .LNA_TRAIN_REF :: .PIN_CTL
      :: .PIN_OLD :: .PRT_PORT_STATUS :: .RTE_EVENTS :: .RTE_GRP_SLOT :: .WR_Q_DRR :: recordRegs), (.arrived :: .cellsFree :: .cmds ::
      .dwins :: .halted :: .lanes :: .links :: .outs :: .pausedLinks :: .pins :: .ports :: .queues :: .tripped :: recordParts), false,
      false⟩
  | .ambientHot .. => ⟨recordRegs, recordParts, false, false⟩
  | .ageingMeasurement .. => ⟨(.HLT_RAIL_AGE :: recordRegs), recordParts, false, false⟩
  | .droopRaise .. => ⟨(.HLT_EVENTS :: .HLT_RAIL_NOW :: recordRegs), (.rails :: recordParts), false, false⟩
  | .avsAcknowledged .. => ⟨[.HLT_RAIL_NOW], [.ctrs, .out, .rails], false, false⟩
  | .avsAckTimeout .. => ⟨(.HLT_EVENTS :: .HLT_RAIL_NOW :: recordRegs), (.rails :: recordParts), false, false⟩
  | .marginPlanRun .. => ⟨(.EBR_CRD_AVAIL :: .FLL_LINK_STATUS :: .FLL_REPLAY :: .HLT_EVENTS :: .HLT_FORECAST :: .HLT_PLAN_STATUS ::
      .HLT_RAIL_NOW :: .HLT_RAIL_PLAN :: .LNA_ALIGN :: .LNA_EVENTS :: .LNA_LANE_STATE :: .LNA_MRG_RESULT :: .LNA_RX_EQ :: .LNA_TRAIN_REF
      :: .LNA_TX_EQ :: .PIN_CTL :: .PIN_OLD :: .PRT_PORT_STATUS :: .RTE_EVENTS :: .RTE_GRP_SLOT :: .WR_GATE_STATUS :: .WR_PORT_GUARD ::
      .WR_Q_DRR :: recordRegs), (.arrived :: .cellsFree :: .cmds :: .drawn :: .dwins :: .eqReported :: .lanes :: .links :: .outs ::
      .pausedLinks :: .pins :: .ports :: .queues :: .rails :: .wins :: recordParts), false, true⟩
  | .hltPlanRunWrite .. => ⟨(.HLT_PLAN_CTL :: .HLT_PLAN_STATUS :: recordRegs), recordParts, false, false⟩
  | .moduleWatchdogExpiry .. => ⟨(.FLL_LINK_STATUS :: .FLL_REPLAY :: .LNA_ALIGN :: .LNA_LANE_STATE :: .LNA_MRG_RESULT :: .LNA_TRAIN_REF ::
      .PIN_CTL :: .PIN_OLD :: .PRT_PORT_STATUS :: .RTE_EVENTS :: .RTE_GRP_SLOT :: .WR_Q_DRR :: recordRegs), (.arrived :: .cellsFree ::
      .cmds :: .dwins :: .halted :: .lanes :: .links :: .outs :: .pausedLinks :: .pins :: .ports :: .queues :: recordParts), false, false⟩
  | .portDieLoss .. => ⟨(.BSN_Q_STATUS :: .DOC_CORE_STATUS :: .DOC_EVENTS :: .DOC_WSTORE_LOST :: .EBR_CRD_AVAIL :: .EBR_EVENTS ::
      .EBR_LOCK :: .EBR_PFLOG_HEAD :: .EBR_RAT_PFDISC_HI :: .EBR_RAT_PFDISC_LO :: .FLL_LINK_STATUS :: .FLL_REPLAY :: .LNA_ALIGN ::
      .LNA_LANE_STATE :: .LNA_MRG_RESULT :: .LNA_TRAIN_REF :: .PIN_CTL :: .PIN_OLD :: .PRT_EVENTS :: .PRT_PORT_STATUS :: .RTE_EVENTS ::
      .RTE_GRP_SLOT :: .SLC_CONT_ESEQ_HI :: .SLC_CONT_ESEQ_LO :: .SLC_CONT_STATE :: .VIT_STATE :: .WR_Q_DRR :: recordRegs), (.arrived ::
      .cellsFree :: .cmds :: .cores :: .dwins :: .endpoints :: .heldTlps :: .lanes :: .links :: .lockSince :: .lockSrc :: .lostDies ::
      .notices :: .outs :: .pausedLinks :: .pfLog :: .pfSeq :: .pins :: .ports :: .queues :: .sbSeq :: .trk :: .vports :: .winFetches ::
      .winReads :: .winStores :: .wins :: .withheld :: recordParts), false, false⟩
  | .tunnelHubDieLoss .. => ⟨(.BSN_Q_STATUS :: .DOC_CORE_STATUS :: .DOC_EVENTS :: .DOC_WSTORE_LOST :: .EBR_CRD_AVAIL :: .EBR_EVENTS ::
      .EBR_LOCK :: .EBR_PFLOG_HEAD :: .EBR_RAT_PFDISC_HI :: .EBR_RAT_PFDISC_LO :: .EBR_SIDEBAND :: .EF_STATUS :: .FLL_LINK_STATUS ::
      .FLL_REPLAY :: .LNA_ALIGN :: .LNA_LANE_STATE :: .LNA_MRG_RESULT :: .LNA_TRAIN_REF :: .MBX_CH_STATUS :: .PD_CONTRACT :: .PD_POOL_USED
      :: .PD_PORT_STATUS :: .PIN_CTL :: .PIN_OLD :: .PRT_PORT_STATUS :: .PWR_CAGE_USED :: .RTE_EVENTS :: .RTE_GRP_SLOT ::
      .SLC_CONT_ESEQ_HI :: .SLC_CONT_ESEQ_LO :: .SLC_CONT_STATE :: .TUN_CE_DEST :: .TUN_CE_IRQ :: .TUN_CE_MODE :: .TUN_CE_STATUS ::
      .TUN_PORT_ALLOT :: .TUN_PORT_STATUS :: .USH_EVENTS :: .USH_OWNER :: .VIT_STATE :: .WR_Q_DRR :: recordRegs), (.arrived :: .candidates
      :: .cellsFree :: .chans :: .cmds :: .cores :: .dwins :: .efQueue :: .efuses :: .endpoints :: .engines :: .fronts :: .heldTlps ::
      .hubPort :: .inStreams :: .lanes :: .links :: .lockSince :: .lockSrc :: .lostDies :: .mud :: .notices :: .outs :: .pausedLinks ::
      .pds :: .perstReleased :: .pfLog :: .pfSeq :: .pins :: .ports :: .queues :: .sbSeq :: .trk :: .usbaOpen :: .vports :: .winFetches ::
      .winReads :: .winStores :: .wins :: .withheld :: recordParts), false, false⟩
  | .moduleStart .. => ⟨(.BSN_PORT_GRANT :: .BSN_PORT_RSV :: .BSN_PORT_WIN :: .BSN_Q_CFG :: .BSN_RESERVED :: .BSN_SHARED_SIZE ::
      .CUR_PAIR_STATUS :: .CUR_START_STATUS :: .LNA_ALIGN :: .LNA_LANE_CFG :: .LNA_LANE_STATE :: .LNA_MRG_RESULT :: .LNA_RX_EQ ::
      .LNA_TRAIN_REF :: .LNA_TX_EQ :: .MBX_BIND :: .MBX_LOCK :: .PRT_PM_CFG :: .PRT_PORT_CFG :: .WR_GATE_STATUS :: .WR_PORT_GUARD ::
      .WR_Q_CFG :: recordRegs), (.bootFailed :: .booted :: .cmds :: .endpoints :: .eqReported :: .halted :: .haltedBy :: .lanes ::
      .lostDies :: .ports :: recordParts), false, true⟩
  | .cageGroupEnable .. => ⟨(.CUR_START_STATUS :: .EBR_EVENTS :: .EBR_SIDEBAND :: .EF_CTL :: .EF_EVENTS :: .EF_STATUS :: .LNA_ALIGN ::
      .LNA_LANE_CFG :: .LNA_LANE_STATE :: .LNA_MRG_RESULT :: .LNA_RX_EQ :: .LNA_TRAIN_REF :: .LNA_TX_EQ :: .PWR_CAGE_USED :: recordRegs),
      (.arrived :: .cmds :: .efQueue :: .efuses :: .eqReported :: .lanes :: .perstReleased :: .ports :: .sbSeq :: .vports :: recordParts),
      false, false⟩
  | .moduleReady .. => ⟨(.CUR_START_STATUS :: .PWR_MODE :: .PWR_PS_STATUS :: .TEL_CAT_WPTR :: .TEL_MODE :: .VMF_CAT_ADDR_HI ::
      .VMF_CAT_ADDR_LO :: .VMF_CAT_SIZE :: .VMF_CAT_WPTR :: recordRegs), (.cats :: .ringRecords :: recordParts), false, false⟩
  | .hello .. => ⟨[.CUR_START_STATUS], [.arrived, .described, .ownAseq, .partners, .topo], false, false⟩
  | .adj .. => ⟨[], [.arrived, .topo], false, false⟩
  | .topologySettled .. => ⟨(.CUR_START_STATUS :: .RTE_MODULE_ID :: .RTE_MRT :: recordRegs), (.arrived :: .assigned :: .conflict ::
      .elected :: .orphaned :: .registrar :: recordParts), false, true⟩
  | .admitModule .. => ⟨(.CUR_START_STATUS :: .RTE_MODULE_ID :: recordRegs), (.arrived :: .orphaned :: .registrar :: recordParts), false,
      true⟩
  | .compositionLoaded .. => ⟨recordRegs, (.arrived :: .homes :: recordParts), false, true⟩
  | .routeDistribution .. => ⟨[.CUR_START_STATUS, .RTE_GRP_SLOT, .RTE_MRT], [.arrived], false, false⟩
  | .vitrineRestoreAtStart .. => ⟨(.ATT_CTL :: .ATT_EP_HI :: .ATT_EP_LO :: .ATT_FPID :: .ATT_HOST_HI :: .ATT_HOST_LO :: .BSN_Q_CFG ::
      .BSN_RESERVED :: .BSN_SHARED_SIZE :: .CUR_START_STATUS :: .EBR_CRD_AUDIT :: .EBR_CRD_AVAIL :: .EBR_CRD_GRANT :: .GATE_BASE_HI ::
      .GATE_BASE_LO :: .GATE_COUNT :: .GATE_CYCLE :: .GATE_ENTRY :: .LNA_ALIGN :: .LNA_LANE_STATE :: .LNA_MRG_RESULT :: .LNA_RX_EQ ::
      .LNA_TRAIN_REF :: .LNA_TX_EQ :: .PIN_CTL :: .PIN_DST :: .PIN_OLD :: .PIN_SRC :: .PIN_TCUT_HI :: .PIN_TCUT_LO :: .PRT_PORT_STATUS ::
      .RTE_EVENTS :: .TRK_CPL_RSV :: .TRK_FREE :: .TRK_VIT_QUOTA :: .VIT_PORT :: .VIT_STATE :: .VMF_GVH :: .VMF_ID :: .WR_GATE_STATUS ::
      .WR_PORT_EVENTS :: .WR_PORT_GUARD :: .WR_Q_CFG :: .WR_SHP_BURST :: .WR_SHP_RATE :: recordRegs), (.arrived :: .atts :: .cmds ::
      .dwins :: .endpoints :: .eqReported :: .homes :: .lanes :: .limited :: .outs :: .owesDetect :: .owesDrs :: .pins :: .ports ::
      .shapers :: .slots :: .vports :: .wins :: recordParts), false, false⟩
  | .registrarLost .. => ⟨(.CUR_START_STATUS :: .RTE_MODULE_ID :: recordRegs), (.arrived :: .assigned :: .elected :: .orphaned ::
      .registrar :: .topo :: recordParts), false, true⟩
  | .quietEvaluation .. => ⟨(.PWR_MODE :: .PWR_PS_CNT :: .PWR_PS_LAST :: recordRegs), (.byCommand :: .tried :: recordParts), false, false⟩
  | .pwrModeArm .. => ⟨.PWR_MODE :: recordRegs, recordParts, false, false⟩
  | .powerEntryCommit .. => ⟨[.PWR_MODE, .PWR_PS_STATUS], [], false, false⟩
  | .quietEntry .. => ⟨(.DOC_CORE_STATUS :: .PRT_PORT_STATUS :: .PWR_PAD_HOLD :: .PWR_PS_CNT :: .PWR_PS_LAST :: .PWR_PS_STATUS ::
      recordRegs), (.byCommand :: .cmds :: .cores :: .perstReleased :: .tried :: recordParts), false, false⟩
  | .wakeEvent .. => ⟨(.DOC_CORE_STATUS :: .PWR_PS_STATUS :: recordRegs), (.byCommand :: .lastTraffic :: recordParts), false, false⟩
  | .wakeReplayed .. => ⟨(.DOC_CORE_STATUS :: .PWR_PS_STATUS :: recordRegs), (.byCommand :: .lastTraffic :: recordParts), false, false⟩
  | .padReleaseWrite .. => ⟨.PWR_PAD_HOLD :: recordRegs, recordParts, false, false⟩
  | .dormantEntry .. => ⟨allRegs, allParts, true, false⟩
  | .wakeN .. => ⟨(.DOC_CORE_STATUS :: .PWR_PS_STATUS :: recordRegs), (.byCommand :: .lastTraffic :: .supply :: recordParts), false,
      false⟩
  | .rateChangeOrdered .. => ⟨[.LNA_ALIGN, .LNA_LANE_STATE, .LNA_MRG_RESULT, .LNA_RX_EQ, .LNA_TRAIN_REF, .LNA_TX_EQ], [.cmds, .lanes,
      .links, .out, .ports], false, false⟩
  | .hostPerstRelease .. => ⟨[], [.out, .ports], false, false⟩
  | .devicePerstRelease .. => ⟨[], [.endpoints, .out, .perstReleased, .ports], false, false⟩
  | .eprModeEntry .. => ⟨[.PD_PORT_STATUS], [.out, .pds], false, false⟩
  | .usbSuspend .. => ⟨[.USH_MUD_STATUS], [.mud], false, false⟩
  | .ieee1588Message .. => ⟨(.ATT_CTL :: .ATT_EP_HI :: .ATT_EP_LO :: .ATT_FPID :: .ATT_HOST_HI :: .ATT_HOST_LO :: .BSN_Q_STATUS ::
      .DOC_CORE_STATUS :: .DOC_EVENTS :: .DOC_WSTORE_LOST :: .EBR_CRD_AVAIL :: .EBR_EVENTS :: .EBR_LOCK :: .EBR_PFLOG_HEAD ::
      .EBR_RAT_PFDISC_HI :: .EBR_RAT_PFDISC_LO :: .FLL_LINK_STATUS :: .FLL_REPLAY :: .LNA_ALIGN :: .LNA_LANE_STATE :: .LNA_MRG_RESULT ::
      .LNA_RX_EQ :: .LNA_TRAIN_REF :: .LNA_TX_EQ :: .MBX_CH_STATUS :: .PIN_CTL :: .PIN_DST :: .PIN_OLD :: .PIN_SRC :: .PIN_TCUT_HI ::
      .PIN_TCUT_LO :: .PRT_PORT_STATUS :: .RTE_EVENTS :: .RTE_GRP_SLOT :: .SLC_CONT_ESEQ_HI :: .SLC_CONT_ESEQ_LO :: .SLC_CONT_STATE ::
      .TEL_CAT_WPTR :: .TEL_EVENTS :: .TIM_ERR_EST :: .TIM_EVENTS :: .TIM_ROOT :: .TIM_STATE :: .TUN_CE_GEOM :: .TUN_CE_IRQ ::
      .TUN_CE_MODE :: .TUN_CE_SCANOUT :: .TUN_CE_STATUS :: .TUN_CE_STRIDE :: .VIT_EVENTS :: .VIT_STATE :: .VMF_BME :: .VMF_CAT_ADDR_HI ::
      .VMF_CAT_ADDR_LO :: .VMF_CAT_SIZE :: .VMF_CAT_WPTR :: .VMF_CPL_TMO :: .VMF_EVENT_MASK :: .VMF_SPC_ADDR_HI :: .VMF_SPC_ADDR_LO ::
      .VMF_SPC_SIZE :: .VMF_SPC_WPTR :: .WR_GATE_STAT :: .WR_GATE_STATUS :: .WR_PORT_EVENTS :: .WR_PORT_GUARD :: .WR_Q_DRR :: recordRegs),
      (.arrived :: .atts :: .cats :: .cellsFree :: .cfg :: .chans :: .cmds :: .cores :: .drawn :: .dwins :: .endpoints :: .engines ::
      .eqReported :: .heldTlps :: .homes :: .lanes :: .limited :: .links :: .lockSince :: .lockSrc :: .notices :: .now :: .outs ::
      .owesDetect :: .owesDrs :: .pausedLinks :: .pfLog :: .pfSeq :: .pins :: .ports :: .queues :: .samples :: .scheduled :: .spcs ::
      .time :: .trk :: .vmfs :: .vports :: .winFetches :: .winReads :: .winStores :: .wins :: .withheld :: recordParts), true, false⟩
  | .containmentNoticeAck .. => ⟨[.SLC_CONT_STATE], [.notices], false, false⟩
  | .pinEntryAck .. => ⟨[], [.pinAcks, .vits], false, false⟩
  | .frontEndDisconnect .. => ⟨[], [.feedOff, .out], false, false⟩

/-- Groups of commands, by what they act on. -/
inductive Family where
  /-- Lanes, fabric links and ports. -/
  | links
  /-- The edge bridge, the Basin, the routing tables and the Weir. -/
  | fabric
  /-- Vitrines and the Sluice. -/
  | vitrines
  /-- The Tunnel Hub, the Service Hub, USB-C, Power Delivery, power entry and electronic fuses. -/
  | hubs
  /-- Curator commands, mailboxes, Docents, time, telemetry, reliability, formation and power states. -/
  | service
  /-- Commands that may act on memory or non-volatile storage, on any register by its address, or on the whole module. -/
  | stored
  deriving DecidableEq, Repr

/-- The group of each command. -/
def familyOf (i : Instr) : Family :=
  match i with
  | .laneEnableSet .. | .laneEnableCleared .. | .laneTxEqWrite .. | .cagePowerGoodLaneRelease .. | .receiverDetected .. |
    .detectTimerExpiry .. | .bitLockAcquired .. | .symbolLockAcquired .. | .rearSymlockTimeout .. | .bitslipSearchStep .. |
    .lnaBitslipDelayWrite .. | .bitslipDelayApplied .. | .tapsAgreed .. | .capxExchangeComplete .. | .laneAttemptTimerExpiry .. |
    .laneBitLockLost .. | .deskewFail .. | .laneRetirement .. | .marginScanStart .. | .marginScanAbort .. | .marginScanComplete .. |
    .loadTriggerEvaluation .. | .fabricLinkReequalisation .. | .pcieReeqWindowOpen .. | .reeqDeferred .. | .flitReceived .. | .nakReceived
    .. | .replayTimerExpiry .. | .alignmentMarker .. | .echoReq .. | .echoRsp .. | .params .. | .linkCtlRetryTimer .. | .fabricLaneLost ..
    | .widthReq .. | .widthAck .. | .resume .. | .linkWidthIncrease .. | .speedReq .. | .speedChangeTimeout .. | .pauseReq .. | .pauseAck
    .. | .creditFrameReceived .. | .creditReturnSend .. | .creditWindowGrant .. | .creditQuietPoint .. | .resyncStart .. | .resyncReq .. |
    .resyncAck .. | .resyncTimeout .. | .portConfig .. | .portEnable .. | .retrain .. | .intxMessage .. | .pmeTurnOff .. | .pmeToAck .. |
    .pmeToAckTimeout .. | .ltrMessage .. | .ltrUpstreamSend .. | .drsReceived .. | .drsWaitExpiry .. | .rrsRetryLimit .. |
    .pendingEndpointReset .. | .hostPerstAsserted .. | .hotResetReceived .. | .upstreamDlActiveLost .. | .rrsExpired .. | .surpriseRemoval
    .. | .presenceDebounced .. | .secondaryBusReset .. | .aspmL1IdleTimer .. | .endpointL1Request .. | .l0pEvaluation .. | .vitrineSet ..
    | .rateChangeOrdered .. | .hostPerstRelease .. | .devicePerstRelease .. => .links
  | .messageDiscarded .. | .unlock .. | .lockTimerExpiry .. | .lockSideListMove .. | .attentionButton .. | .sidebandFrame .. |
    .slotControlWrite .. | .barWrite .. | .frameAdmission .. | .frameSelection .. | .ageDiscard .. | .queueHeadAgeCheck .. | .linkEcc .. |
    .cellAudit .. | .frameRoute .. | .linkWithdrawal .. | .withdrawnClear .. | .pathPinEntryWrite .. | .pinCutPoint .. | .repinAborted ..
    | .drain .. | .drainAck .. | .drainCapExpiry .. | .oldPathExpiry .. | .attEntryWrite .. | .shaperWheelSlot .. | .wrShpRateWrite .. |
    .gateBankCountWrite .. | .gateListStart .. | .gateEntryBoundary .. | .guardBandRecompute .. | .bOversize .. | .shaperAudit .. |
    .quantumSet .. | .gateListLoad .. | .ageLimitSet .. | .efuseEnable .. | .rangeSet .. | .docentWindowLoad .. | .prefetchMissFetch .. |
    .heldReadDetach .. | .parkedCompletionReplay .. | .windowReadError .. | .prefetchLineExpiry .. | .pinEntryAck .. => .fabric
  | .cxlMemRequest .. | .errorMessage .. | .completionReceived .. | .trackerDeadline .. | .lateCompletion .. | .unexpectedCompletion .. |
    .tagQuarantineExpiry .. | .lateRecordExpiry .. | .upstreamDlActive .. | .dpcTriggerStatusClear .. | .vitrineCreate .. |
    .vitrineDestroy .. | .bindEndpoint .. | .unbindEndpoint .. | .vitrineHotReset .. | .inflightCountZero .. | .inflightReport .. |
    .squashTimeout .. | .freeze .. | .freezeCutPoint .. | .freezeTimeout .. | .save .. | .restore .. | .thaw .. | .thawCutPoint .. |
    .thawCompleteRelease .. | .class3Error .. | .class4Condition .. | .containmentNotice .. | .noticeRepeatTimer .. | .accessionSucceeds
    .. | .accessionFailed .. | .sluiceRelease .. | .releaseComplete .. | .releaseFailed .. | .maskedSummary .. | .stagingCopy .. |
    .faultInject .. | .containmentNoticeAck .. => .vitrines
  | .usb4Attach .. | .usb4LinkLoss .. | .dpBandwidthRequest .. | .usb4PoolShrink .. | .symmetryEvaluation .. | .pcieTunnelEstablish .. |
    .tunCeModeWrite .. | .tunCeScanoutWrite .. | .verticalBlanking .. | .consoleEngineFlr .. | .streamBudgetFreed .. | .dpSinkReappears ..
    | .consoleFrame .. | .consoleSegments .. | .consoleAttach .. | .consoleDetach .. | .serviceOwner .. | .serviceCandidateAttach .. |
    .ownerDetach .. | .ownerWaitExpiry .. | .ownerChanged .. | .usbaOvercurrent .. | .ushMudConnectWrite .. | .usbBusReset .. |
    .responseExpiry .. | .remoteWake .. | .hostResume .. | .pdPortDisabled .. | .moistureCheck .. | .moistureRecheck .. | .corrosion .. |
    .typecAttach .. | .cableMarkerRead .. | .cableMarkerTimeout .. | .sourceCapabilitiesOffer .. | .pdRequest .. | .vbusWithinRange .. |
    .pdHeadroomGrowth .. | .pdPoolShed .. | .eprKeepaliveLapse .. | .swapRequest .. | .swapComplete .. | .swapRetryHoldExpiry .. |
    .pdHardReset .. | .hardResetRecovery .. | .ccOpen .. | .dischargeComplete .. | .dischargeTimeout .. | .pdPolicySet .. |
    .lineCategoryChange .. | .loadShedding .. | .stageLost .. | .budgetSet .. | .efuseDisable .. | .efCtlEnable .. | .efCtlDisable .. |
    .efuseGateCheck .. | .efuseGateFull .. | .efusePowerGood .. | .efuseCurrentLimit .. | .efuseCurrentNormal .. | .efuseFaultTimerExpiry
    .. | .efuseFastTrip .. | .efuseRetry .. | .efusePresenceChange .. | .efuseRetriesClear .. | .backfeed .. | .vbusSwitchTest .. |
    .eprModeEntry .. | .frontEndDisconnect .. => .hubs
  | .regAccessBad .. | .marginScan .. | .bitslip .. | .shaperSet .. | .accessionStart .. | .accessionLimit .. | .tunnelConfig .. |
    .cagePresenceLostPowered .. | .cageId .. | .cageAlert .. | .commandForward .. | .remoteProgress .. | .remoteTimeout .. |
    .objectWaitTimeout .. | .portList .. | .endpointList .. | .endpointInfo .. | .vitrineInfo .. | .powerState .. | .catalogueConfig .. |
    .specimenConfig .. | .counterClearSticky .. | .timeGet .. | .timeSourceSet .. | .scheduleCancel .. | .mailboxPost .. | .mailboxPop ..
    | .mbxLockWrite .. | .channelAborted .. | .vmfBmeClear .. | .vmfFlr .. | .vmfReadTimeout .. | .docentFence .. | .docentStore .. |
    .docentLr .. | .docentDeviceAtomic .. | .docentWfi .. | .docentTimerInterrupt .. | .docentAccessFault .. | .sync .. | .delayReq .. |
    .parentLinkLost .. | .timeSourceLost .. | .hardwareTimedAction .. | .catalogueSnapshot .. | .specimenSample .. | .telModeChanged .. |
    .lockstepDivergence .. | .failover .. | .pairSelftestDone .. | .tableParity .. | .tableScrub .. | .refclkSwitch .. | .coolantFlowLow
    .. | .coolantHot .. | .thermalWarn .. | .thermalTrip .. | .ambientHot .. | .ageingMeasurement .. | .droopRaise .. | .avsAcknowledged
    .. | .avsAckTimeout .. | .hltPlanRunWrite .. | .moduleWatchdogExpiry .. | .portDieLoss .. | .tunnelHubDieLoss .. | .cageGroupEnable ..
    | .moduleReady .. | .hello .. | .adj .. | .routeDistribution .. | .vitrineRestoreAtStart .. | .quietEvaluation .. | .powerEntryCommit
    .. | .quietEntry .. | .wakeEvent .. | .wakeReplayed .. => .service
  | .moduleResetEvent .. | .registerWrite .. | .regPairLowRead .. | .regPairHighRead .. | .readClearFieldRead .. |
    .partnerCoefficientRequest .. | .eqTableLoad .. | .tlpIngress .. | .tlpEgress .. | .mrdlk .. | .cpldlk .. | .endpointFlr .. |
    .eventLogRead .. | .consoleLineDue .. | .getInfo .. | .submitCommand .. | .getResponse .. | .imageBegin .. | .imageData .. |
    .imageCommit .. | .imageAbort .. | .logOpen .. | .logClose .. | .logPipeSend .. | .usbLpmRequest .. | .usbIdleLinkEntry .. |
    .feedPresent .. | .feedLost .. | .bothFeedsLost .. | .commandNoticeIntake .. | .commandDone .. | .moduleInfo .. | .schedule .. |
    .scheduledCommandDue .. | .imageStage .. | .fwWrite .. | .fwActivate .. | .roleSet .. | .moduleReset .. | .docCoreRunSet .. |
    .docentReset .. | .storeBufferEntryDelivery .. | .windowStoreAccepted .. | .docentSc .. | .delayRsp .. | .ppsEdge .. |
    .catalogueDumpComplete .. | .specimenRecordWrite .. | .memUncorrectable .. | .marginPlanRun .. | .moduleStart .. | .topologySettled ..
    | .admitModule .. | .compositionLoaded .. | .registrarLost .. | .pwrModeArm .. | .padReleaseWrite .. | .dormantEntry .. | .wakeN .. |
    .usbSuspend .. | .ieee1588Message .. => .stored

end Sys2Proof.Machine
end

