-- ==== Sys2Proof/Certificates/Slice0/Obligations.lean ====
section
/-! DEFINITION. The statements about the model. In each, `NextIs (exec c s) fun t => P` says that exec answers a next state t and that P holds
of it. -/

open Sys2Proof Sys2Proof.Machine

/-- For every command c and state s, a step of s with c at the front of its queue is exec c on s with the rest of the queue. -/
def Obligations.StepRunsFrontCommand : Prop :=
  ∀ (c : Instr) (s : State), step { s with pending := c :: s.pending } = exec c s

/-- With an empty queue a step answers next: Weir time goes on by one, memory, non-volatile storage and the queue stay, and while no slew
is under way fabric time goes on by one; a module whose rails are down stays as it is. That the tick takes the place of idling is the
model's choice, log entry 26. -/
def Obligations.EmptyQueueIdles : Prop :=
  ∀ s : State, s.pending = [] →
    NextIs (step s) fun t => t.mem = s.mem ∧ t.nv = s.nv ∧ t.pending = [] ∧ (s.dev.supply ≠ .on → t = s) ∧
      (s.dev.supply = .on → t.dev.weir = s.dev.weir + 1 ∧ (s.dev.time.slew = 0 → t.dev.now = (s.dev.now + 1) % 2 ^ 64))

/-- For every command and every state, exec answers a next state, and the queue of waiting commands is the same in it. -/
def Obligations.EveryCommandAnswers : Prop :=
  ∀ (c : Instr) (s : State), NextIs (exec c s) fun t => t.pending = s.pending

/-- For every state whose memory has strictly rising addresses and no entry of the byte an unlisted address reads as, every next state of
a step has such a memory: two modules with the same bytes have the same memory. -/
def Obligations.MemoryStaysCanonical : Prop :=
  ∀ s t : State, s.MemoryOk → step s = .next t → t.MemoryOk

/-- If every lane's LNA_LANE_STATE.STATE is 0 (OFF) to 10 (TEST) before a step, it is after it, whatever the command, a register write by
any master and a module reset among them. -/
def Obligations.LaneStatesStayLegal : Prop :=
  ∀ s t : State, (∀ n : Nat, s.dev.laneState n ≤ 10) → step s = .next t → ∀ n : Nat, t.dev.laneState n ≤ 10

/-- State.reset has no waiting command and a canonical memory; every register field reads the value of the Reset column; every lane is
OFF, every Vitrine FREE, every Docent OFF, and no queue, credit window or tracker entry holds anything. -/
def Obligations.ResetState : Prop :=
  State.reset.pending = [] ∧ State.reset.MemoryOk ∧ State.reset.mem = [] ∧ State.reset.dev.supply = .on ∧
  (∀ (f : Fld) (i : Nat), State.reset.dev.get f i = f.reset i) ∧
  (∀ n : Nat, State.reset.dev.laneState n = 0 ∧ State.reset.dev.get VIT_STATE.STATE n = 0 ∧ State.reset.dev.get DOC_CORE_STATUS.STATE n = 0) ∧
  State.reset.dev.queues = [] ∧ State.reset.dev.wins = [] ∧ State.reset.dev.trk = [] ∧ State.reset.dev.cmds = [] ∧ State.reset.dev.ring = []

/-- In DORMANT, and after the loss of both feeds, a command other than FEED_PRESENT, FEED_LOST, BOTH_FEEDS_LOST and WAKE_N leaves the
whole state as it was, and so does an idle step. -/
def Obligations.UnpoweredModuleIsInert : Prop :=
  (∀ (c : Instr) (s : State), s.dev.supply ≠ .on → (∀ f v q, c ≠ .feedPresent f v q) → (∀ f v q, c ≠ .feedLost f v q) →
    c ≠ .bothFeedsLost → c ≠ .wakeN → exec c s = .next s) ∧
  (∀ s : State, s.dev.supply ≠ .on → s.pending = [] → step s = .next s)

/-- For every command of lanes, fabric links and ports, what exec answers next differs from the state before at most in the registers and
structures of the command's footprint: memory and non-volatile storage stay unless it names them, and so does the queue of waiting
commands. The footprint lists them command by command. -/
def Obligations.FramesOfLanesLinksAndPorts : Prop :=
  ∀ (c : Instr) (s t : State), familyOf c = .links → exec c s = .next t → (footprint c).Holds s t

/-- For every command of the edge bridge, the Basin, the routing tables and the Weir, what exec answers next differs from the state before
at most in the registers and structures of the command's footprint: memory and non-volatile storage stay unless it names them, and so does
the queue of waiting commands. The footprint lists them command by command. -/
def Obligations.FramesOfTheFabric : Prop :=
  ∀ (c : Instr) (s t : State), familyOf c = .fabric → exec c s = .next t → (footprint c).Holds s t

/-- For every command of Vitrines, the tracker and the Sluice, what exec answers next differs from the state before at most in the
registers and structures of the command's footprint: memory and non-volatile storage stay unless it names them, and so does the queue of
waiting commands. The footprint lists them command by command. -/
def Obligations.FramesOfVitrinesAndSluice : Prop :=
  ∀ (c : Instr) (s t : State), familyOf c = .vitrines → exec c s = .next t → (footprint c).Holds s t

/-- For every command of the Tunnel Hub, the Service Hub, USB-C, Power Delivery and power entry, what exec answers next differs from the
state before at most in the registers and structures of the command's footprint: memory and non-volatile storage stay unless it names
them, and so does the queue of waiting commands. The footprint lists them command by command. -/
def Obligations.FramesOfHubsAndPower : Prop :=
  ∀ (c : Instr) (s t : State), familyOf c = .hubs → exec c s = .next t → (footprint c).Holds s t

/-- For every command of Curator commands, mailboxes, Docents, time, telemetry, reliability, formation and power states, what exec answers
next differs from the state before at most in the registers and structures of the command's footprint: memory and non-volatile storage
stay unless it names them, and so does the queue of waiting commands. The footprint lists them command by command. -/
def Obligations.FramesOfServices : Prop :=
  ∀ (c : Instr) (s t : State), familyOf c = .service → exec c s = .next t → (footprint c).Holds s t

/-- For every command of the commands that may act on memory, on non-volatile storage, on any register by its address or on the whole
module, what exec answers next differs from the state before at most in the registers and structures of the command's footprint: memory
and non-volatile storage stay unless it names them, and so does the queue of waiting commands. The footprint lists them command by
command. -/
def Obligations.FramesOfStoringCommands : Prop :=
  ∀ (c : Instr) (s t : State), familyOf c = .stored → exec c s = .next t → (footprint c).Holds s t

/-- For each command that stores bytes to the module's memory, every byte of State.mem outside those it stores keeps its value, whatever
the command does: a Docent's store-conditional, a delivered store-buffer entry and a Docent stopped or reset store bytes of the store
buffer and of the store; EVENT_LOG_READ its records; a Catalogue dump and a Specimen theirs; a descriptor is written at intake and at its
outcome, its status when its time comes; a memory error loses the word, or the 64 bytes of the Event log record that it hit; FW_WRITE
stores a Docent program; a TLP to a Console Engine stays in the Console region; a register write stores nothing but the store buffer of a
Docent it stops. Event records and save images, which the Event log and save regions show, stand in structures of their own. -/
def Obligations.StoredBytes : Prop :=
  (∀ (s t : State) (core : Fin 16) (addr : Nat) (data : List Byte) (spurious : Bool) (a : Nat),
    exec (.docentSc core addr data spurious) s = .next t →
    ((a < addr ∨ addr + data.length ≤ a) ∧ ∀ e ∈ (s.dev.core core).stb, e.line = addr / 64 → ∀ b ∈ e.bytes, a ≠ e.line * 64 + b.1) →
    readByte t.mem a = readByte s.mem a) ∧
  (∀ (s t : State) (core : Fin 16) (cached : Bool) (e : StbEntry) (a : Nat), exec (.storeBufferEntryDelivery core cached) s = .next t →
    (s.dev.core core).stb.find? (fun e => cachedAt (e.line * 64) == cached) = some e → (∀ b ∈ e.bytes, a ≠ e.line * 64 + b.1) →
    readByte t.mem a = readByte s.mem a) ∧
  (∀ (s t : State) (master : Fin 2048) (core : Fin 16) (value : Word) (a : Nat), exec (.docentReset master core value) s = .next t →
    (∀ e ∈ (s.dev.core core).stb, ∀ b ∈ e.bytes, a ≠ e.line * 64 + b.1) → readByte t.mem a = readByte s.mem a) ∧
  (∀ (s t : State) (master : Fin 2048) (core : Fin 16) (value : Word) (a : Nat), exec (.docCoreRunSet master core value) s = .next t →
    (∀ e ∈ (s.dev.core core).stb, ∀ b ∈ e.bytes, a ≠ e.line * 64 + b.1) → readByte t.mem a = readByte s.mem a) ∧
  (∀ (s t : State) (h : CmdHdr) (first : Nat) (most : Word) (dest : Nat) (a : Nat), exec (.eventLogRead h first most dest) s = .next t →
    (a < dest ∨ dest + ((s.dev.logChosen h first most.toNat).1.flatMap EvRec.bytes).length ≤ a) → readByte t.mem a = readByte s.mem a) ∧
  (∀ (s t : State) (tenant : Option (Fin 1024)) (x : CatDump) (a : Nat), exec (.catalogueDumpComplete tenant) s = .next t →
    (s.dev.cat (streamNo tenant)).writing = some x →
    (a < ddrBase + regionCatalogue.1 + x.start ∨ ddrBase + regionCatalogue.1 + x.start + (s.dev.dumpImage (s.dev.cat (streamNo tenant)).dseq
      x).length ≤ a) →
    readByte t.mem a = readByte s.mem a) ∧
  (∀ (s t : State) (sample : Nat) (result : SampleEnd) (room : Bool) (x : Sample) (a : Nat),
    exec (.specimenRecordWrite sample result room) s = .next t → s.dev.samples[sample]? = some x →
    (a < ddrBase + regionSpecimen.1 + (s.dev.spc x.stream).wptr ∨ ddrBase + regionSpecimen.1 + (s.dev.spc x.stream).wptr + (specimenBytes
      s.dev.now (s.dev.spc x.stream).sseq x result).length ≤ a) →
    readByte t.mem a = readByte s.mem a) ∧
  (∀ (s t : State) (channel : Fin 256) (source : Fetch) (n : Nat) (a : Nat), exec (.commandNoticeIntake channel source) s = .next t →
    (s.dev.channel channel).head? = some n → (a < n + 8 ∨ n + 8 + 8 ≤ a) → readByte t.mem a = readByte s.mem a) ∧
  (∀ (s t : State) (len : Fin 65536) (addr : Nat) (data : List Byte) (completes : Bool) (a : Nat),
    exec (.submitCommand len addr data completes) s = .next t → (a < addr ∨ addr + 128 ≤ a) → readByte t.mem a = readByte s.mem a) ∧
  (∀ (s t : State) (h : CmdHdr) (far : Option RemoteResult) (recorded writable : Bool) (c : Cmd) (a : Nat),
    exec (.commandDone h far ⟨recorded, writable⟩) s = .next t → s.dev.findCmd h = some c →
    ((a < c.addr + 10 ∨ c.addr + 24 ≤ a) ∧ ∀ r ∈ (c.withResult far).resp, a < c.addr + (24 + r.1) ∨ c.addr + (24 + r.1) + r.2.1 ≤ a) →
    readByte t.mem a = readByte s.mem a) ∧
  (∀ (s t : State) (id : Fin 65536) (e : Sched) (a : Nat), exec (.scheduledCommandDue id) s = .next t →
    s.dev.scheduled.find? (fun e => e.id == id.val) = some e → (a < e.cmd.addr + 10 ∨ e.cmd.addr + 10 + 2 ≤ a) →
    readByte t.mem a = readByte s.mem a) ∧
  (∀ (s t : State) (port : Fin 512) (stamp : Nat) (replayed : Bool) (a : Nat), exec (.delayRsp port stamp replayed) s = .next t →
    (∀ e ∈ s.dev.scheduled, a < e.cmd.addr + 10 ∨ e.cmd.addr + 12 ≤ a) → readByte t.mem a = readByte s.mem a) ∧
  (∀ (s t : State) (seconds : Option Nat) (a : Nat), exec (.ppsEdge seconds) s = .next t →
    (∀ e ∈ s.dev.scheduled, a < e.cmd.addr + 10 ∨ e.cmd.addr + 12 ≤ a) → readByte t.mem a = readByte s.mem a) ∧
  (∀ (s t : State) (message : PtpMsg) (a : Nat), exec (.ieee1588Message message) s = .next t →
    (∀ e ∈ s.dev.scheduled, a < e.cmd.addr + 10 ∨ e.cmd.addr + 12 ≤ a) → readByte t.mem a = readByte s.mem a) ∧
  (∀ (s t : State) (h : CmdHdr) (time addr : Nat) (source : Fetch) (a : Nat), exec (.schedule h time addr source) s = .next t →
    (a < addr + 8 ∨ addr + 8 + 12 ≤ a) → readByte t.mem a = readByte s.mem a) ∧
  (∀ (s t : State) (offset : Nat) (reader : Option (Fin 16 × Bool)) (a : Nat), exec (.memUncorrectable offset reader) s = .next t →
    (if inRegion regionEventLog offset 1 then a < ddrBase + offset / 64 * 64 ∨ ddrBase + offset / 64 * 64 + 64 ≤ a else a < ddrBase + offset
      / 8 * 8 ∨ ddrBase + offset / 8 * 8 + 8 ≤ a) →
    readByte t.mem a = readByte s.mem a) ∧
  (∀ (s t : State) (h : CmdHdr) (target : Byte) (signed checks : Bool) (version : Fin 65536) (a : Nat),
    exec (.fwWrite h target signed checks version) s = .next t →
    (target ≠ 4 ∨ a < ddrBase + regionDocent.1 ∨ ddrBase + regionDocent.1 + (SMap.get [] s.dev.images 4).length ≤ a) →
    readByte t.mem a = readByte s.mem a) ∧
  (∀ (s t : State) (h : CmdHdr) (image reset : Byte) (a : Nat), exec (.fwActivate h image reset) s = .next t →
    (a < h.addr + 10 ∨ h.addr + 10 + 14 ≤ a) → readByte t.mem a = readByte s.mem a) ∧
  (∀ (s t : State) (h : CmdHdr) (confirm : Word) (a : Nat), exec (.moduleReset h confirm) s = .next t →
    (a < h.addr + 10 ∨ h.addr + 10 + 14 ≤ a) → readByte t.mem a = readByte s.mem a) ∧
  (∀ (s t : State) (port : Fin 512) (x : Nat × Frame) (a : Nat), exec (.tlpEgress port) s = .next t →
    s.dev.egress.find? (fun x => x.1 == port.val && !s.dev.lockBlocks port x.2) = some x →
    (a < ddrBase + regionConsole.1 ∨ ddrBase + regionConsole.1 + 64 * 0x4000000 ≤ a) → readByte t.mem a = readByte s.mem a) ∧
  (∀ (s t : State) (master : Fin 2048) (place : RegAt) (value : Word) (a : Nat), exec (.registerWrite master place value) s = .next t →
    (∀ core : Fin 16, s.dev.target master place = some (.DOC_CORE_CTL, core.val) → ∀ e ∈ (s.dev.core core).stb, ∀ b ∈ e.bytes, a ≠ e.line *
      64 + b.1) →
    readByte t.mem a = readByte s.mem a)

/-- The Curator's write of a plain register sets its RW fields but for refused values, clears RW1C bits written 1 and changes no other
field; another master's write of a Curator-only register has no effect but its record; a bad access has none and reads all ones; a low
word's read latches the high word for that master, whose next read of the high word returns it and empties the shadow; a read of an RC
field clears it. -/
def Obligations.RegisterReadsAndWrites : Prop :=
  (∀ (s : State) (place : RegAt) (value : Word) (r : Reg) (i : Nat), s.dev.supply = .on →
    r ∈ [Reg.EBR_CRD_SEL, .BSN_Q_SEL, .WR_Q_SEL, .WR_SHP_SEL, .VIT_SEL, .SLC_CONT_SEL, .TEL_CNT_SEL, .HLT_DROOP_CFG, .LNA_EVENTS,
      .BSN_EVENTS, .RTE_EVENTS, .TIM_EVENTS, .EBR_EVENTS, .HLT_EVENTS, .VIT_EVENTS] →
    (∃ addr : Nat, place = .device addr) → s.dev.target 0 place = some (r, i) →
    NextIs (exec (.registerWrite 0 place value) s) fun t => t.mem = s.mem ∧ t.nv = s.nv ∧
      ∀ x ∈ r.fields, t.dev.get (fldOf r x) i = match x.acc with
        | .rw => if refusedValue r x.lo (wordField x value.toNat) then s.dev.get (fldOf r x) i else wordField x value.toNat
        | .rw1c => s.dev.get (fldOf r x) i &&& (2 ^ x.width - 1 - wordField x value.toNat)
        | _ => s.dev.get (fldOf r x) i) ∧
  (∀ (s : State) (master : Fin 2048) (place : RegAt) (value : Word) (r : Reg) (i : Nat), s.dev.supply = .on → master ≠ 0 →
    (∃ addr : Nat, place = .device addr) → s.dev.target master place = some (r, i) → channelWord r = false →
    r ≠ .DOC_MTIMECMP_LO → r ≠ .DOC_MTIMECMP_HI →
    exec (.registerWrite master place value) s = .next { s with dev := s.dev.accessAtRecord 0x72 master place }) ∧
  (∀ (s : State) (master : Fin 2048) (place : RegAt) (load : Bool), s.dev.supply = .on →
    NextIs (exec (.regAccessBad master place load) s) fun t => OnlyDev s t ∧ t.dev =
      (if load then s.dev.emit (.readData master (accessAt place).2 0xFFFFFFFF) else s.dev).accessAtRecord 0x70 master place) ∧
  (∀ (s : State) (master : Fin 2048) (place : RegAt) (lo hi : Reg) (i : Nat), s.dev.supply = .on → (lo, hi) ∈ pairs →
    s.dev.target master place = some (lo, i) →
    NextIs (exec (.regPairLowRead master place) s) fun t => OnlyDev s t ∧ t.dev.regs = s.dev.regs ∧
      t.dev.out = s.dev.out ++ [.readData master (accessAt place).2 (wordFor s master lo i)] ∧
      t.dev.shadows.filter (fun x => x.1 == master.val && x.2.1 == pairKey lo i) = [(master.val, pairKey lo i, wordFor s master hi i)]) ∧
  (∀ (s : State) (master : Fin 2048) (place : RegAt) (lo hi : Reg) (i : Nat) (x : Nat × Nat × Nat), s.dev.supply = .on → (lo, hi) ∈ pairs →
    s.dev.target master place = some (hi, i) → s.dev.shadows.find? (fun x => x.1 == master.val && x.2.1 == pairKey lo i) = some x →
    NextIs (exec (.regPairHighRead master place) s) fun t => OnlyDev s t ∧ t.dev.regs = s.dev.regs ∧
      t.dev.out = s.dev.out ++ [.readData master (accessAt place).2 x.2.2] ∧
      t.dev.shadows = s.dev.shadows.filter fun x => !(x.1 == master.val && x.2.1 == pairKey lo i)) ∧
  (∀ (s : State) (master : Fin 2048) (place : RegAt) (lo hi : Reg) (i : Nat), s.dev.supply = .on → (lo, hi) ∈ pairs →
    s.dev.target master place = some (hi, i) → s.dev.shadows.find? (fun x => x.1 == master.val && x.2.1 == pairKey lo i) = none →
    NextIs (exec (.regPairHighRead master place) s) fun t => OnlyDev s t ∧ t.dev.regs = s.dev.regs ∧
      t.dev.out = s.dev.out ++ [.readData master (accessAt place).2 (wordFor s master hi i)] ∧ t.dev.shadows = s.dev.shadows) ∧
  (∀ (s : State) (master : Fin 2048) (place : RegAt) (i : Nat), s.dev.supply = .on → s.dev.target master place = some (.WR_GATE_STAT, i) →
    NextIs (exec (.readClearFieldRead master place) s) fun t => OnlyDev s t ∧
      t.dev.out = s.dev.out ++ [.readData master (accessAt place).2 (wordFor s master .WR_GATE_STAT i)] ∧
      t.dev.get WR_GATE_STAT.LATE_COUNT i = 0 ∧ t.dev.get WR_GATE_STAT.MAX_LATE_NS i = 0)

/-- After a module reset every field of every register reads its reset value, but for those that the stored configuration gives (R382,
R466) and FAILOVERS, which counts since power-on; Vitrines, queues, commands, lanes, windows, tracker entries and the event log are empty;
non-volatile storage and the bytes of memory stay. That memory keeps its bytes is the model's choice, log entry 43, and that FAILOVERS
stays a deduction, log entry 44. -/
def Obligations.ModuleResetReturnsRegisters : Prop :=
  ∀ s : State, s.dev.supply = .on →
    NextIs (exec .moduleResetEvent s) fun t => t.nv = s.nv ∧ t.mem = s.mem ∧
      (∀ (f : Fld) (i : Nat), f.lo < 32 →
        f.reg ∉ [Reg.CUR_DOC_ROLE_LO, .CUR_DOC_ROLE_HI, .HLT_RAIL_PLAN, .HLT_RAIL_NOW, .CUR_START_CFG, .CUR_PAIR_STATUS] →
        t.dev.get f i = f.reset i) ∧
      t.dev.get CUR_START_CFG.PRIO 0 = s.nv.prio.getD 128 % 2 ^ 8 ∧
      t.dev.get CUR_PAIR_STATUS.FAILOVERS 0 = s.dev.get CUR_PAIR_STATUS.FAILOVERS 0 % 2 ^ 16 ∧
      t.dev.vits = [] ∧ t.dev.queues = [] ∧ t.dev.cmds = [] ∧ t.dev.lanes = [] ∧ t.dev.wins = [] ∧ t.dev.trk = [] ∧ t.dev.ring = []

/-- In wrapping mode VALUE becomes (VALUE + n) mod 2^48 and WRAP is set if the sum reaches 2^48; in saturating mode VALUE becomes
min(VALUE + n, 2^48 - 1) and SAT is set if the sum exceeds that; the mode is the one in force at the increment; a counter left at 2^48 - 1
by saturation wraps at the next increment in wrapping mode. No other counter and no register changes. -/
def Obligations.CounterIncrements : Prop :=
  ∀ (d : Dev) (w n : Nat), 1 ≤ n →
    let c := SMap.get {} d.ctrs w
    let e := SMap.get {} (d.count w n).ctrs w
    (d.saturating w = false → e.value = (c.value + n) % 2 ^ 48 ∧ e.wrap = (c.wrap || decide (2 ^ 48 ≤ c.value + n)) ∧ e.sat = c.sat) ∧
    (d.saturating w = true → e.value = min (c.value + n) (2 ^ 48 - 1) ∧ e.sat = (c.sat || decide (2 ^ 48 - 1 < c.value + n)) ∧
      e.wrap = c.wrap) ∧
    (d.saturating w = false → c.value = 2 ^ 48 - 1 → e.wrap = true ∧ e.value = (n - 1) % 2 ^ 48) ∧
    (∀ v, v ≠ w → SMap.get {} (d.count w n).ctrs v = SMap.get {} d.ctrs v) ∧ (d.count w n).regs = d.regs

/-- P in mW is Value x 1,000 x 10^-Scale and the limit in mA is P / 12 rounded up to a multiple of 25, at least 250; an enable within
24,000 mW and the pool sets that limit; one above either is refused, and the e-fuse keeps its limit. -/
def Obligations.CageAllotment : Prop :=
  (∀ value scale : Nat, scale ≤ 3 → splMilliwatts value scale * 10 ^ scale = value * 1000) ∧
  (∀ mw : Nat, 250 ≤ splMilliamps mw ∧ 25 ∣ splMilliamps mw ∧ mw ≤ 12 * splMilliamps mw ∧
    (splMilliamps mw = 250 ∨ 12 * (splMilliamps mw - 25) < mw)) ∧
  (∀ (s : State) (h : CmdHdr) (cage value scale priority : Byte), s.dev.supply = .on →
    s.dev.CarriesOut h 0x0602 [1, 2, 4] s.dev.moduleId → cage.toNat < 56 → scale.toNat ≤ 3 → priority.toNat ≤ 3 →
    (∀ r ∈ List.range 7, signedOf 8 (s.dev.get HLT_RAIL_AGE.TEMP_C r) ≤ 100) → s.dev.efState cage.toNat ≠ 4 → s.dev.efState cage.toNat ≠ 5 →
    let mw := splMilliwatts value.toNat scale.toNat
    NextIs (exec (.efuseEnable h cage value scale priority) s) fun t =>
      if 24000 < mw then t.dev.Ends h 0x0602 Status.limitExceeded ∧ t.dev.get EF_CTL.LIMIT_MA cage.toNat = s.dev.get EF_CTL.LIMIT_MA cage.toNat
      else if s.dev.cageRoom cage.toNat < mw then
        t.dev.Ends h 0x0602 Status.budgetExceeded ∧ t.dev.get EF_CTL.LIMIT_MA cage.toNat = s.dev.get EF_CTL.LIMIT_MA cage.toNat
      else t.dev.Ends h 0x0602 Status.ok ∧ t.dev.get EF_CTL.LIMIT_MA cage.toNat = splMilliamps mw)

/-- At an address of device space or of the fabric window, an LR raises a load access fault, an AMO a store access fault, and an SC
answers 1 and raises no exception; memory stays. -/
def Obligations.DocentAtomicsOutsideMemory : Prop :=
  (∀ (s : State) (core : Fin 16) (addr : Nat) (kind : Fin 3), s.dev.supply = .on → s.dev.coreRuns core = true →
    (0x800000000 ≤ addr ∧ addr + 4 ≤ ddrBase ∨ windowBase ≤ addr ∧ addr + 4 ≤ windowBase + windowSize) →
    NextIs (exec (.docentDeviceAtomic core addr kind) s) fun t => OnlyDev s t ∧ t.dev =
      if kind = 0 then s.dev.coreTrap (0x010 + core) 5 addr
      else if kind = 1 then s.dev.answerSc core addr 1
      else s.dev.coreTrap (0x010 + core) 7 addr) ∧
  (∀ (s : State) (core : Fin 16) (addr : Nat) (bytes : Fin 9) (constrained : Bool), s.dev.supply = .on → s.dev.coreRuns core = true →
    (0x800000000 ≤ addr ∧ addr + bytes.val ≤ ddrBase ∨ windowBase ≤ addr ∧ addr + bytes.val ≤ windowBase + windowSize) → 4 ≤ bytes.val →
    NextIs (exec (.docentLr core addr bytes constrained) s) fun t => OnlyDev s t ∧ t.dev = s.dev.coreTrap (0x010 + core) 5 addr) ∧
  (∀ (s : State) (core : Fin 16) (addr : Nat) (data : List Byte) (spurious : Bool), s.dev.supply = .on → s.dev.coreRuns core = true →
    (0x800000000 ≤ addr ∧ addr + data.length ≤ ddrBase ∨ windowBase ≤ addr ∧ addr + data.length ≤ windowBase + windowSize) →
    4 ≤ data.length →
    NextIs (exec (.docentSc core addr data spurious) s) fun t => OnlyDev s t ∧ t.dev = s.dev.answerSc core addr 1)

/-- LANE_ENABLE_SET by the Curator sets ENABLE and starts an OFF lane that is free to start (TEST, DETECT, or FAILED on a rear lane with
no table); by any other master it changes neither. RECEIVER_DETECTED takes a DETECT lane to PATTERN at its starting rate,
BIT_LOCK_ACQUIRED a PATTERN lane to SYMLOCK, SYMBOL_LOCK_ACQUIRED with MATCH of at least 8 a SYMLOCK lane to EQUALISE or CAPX, TAPS_AGREED
an EQUALISE lane to CAPX; DETECT_TIMER_EXPIRY repeats detection in DETECT; CAGE_POWER_GOOD_LANE_RELEASE starts the enabled lanes of its
cage. -/
def Obligations.LaneBringUpAdvances : Prop :=
  (∀ (s : State) (master : Fin 2048) (lane : Fin 512), s.dev.supply = .on → NextIs (exec (.laneEnableSet master lane) s) fun t =>
      (master = 0 → t.dev.get LNA_LANE_CFG.ENABLE lane = 1) ∧
      (master = 0 → s.dev.laneState lane = 0 → (s.dev.lane lane).held = false → s.dev.halted = false → s.dev.cagePowered lane = true →
        dieOf lane ∉ s.dev.lostDies → t.dev.laneState lane = if s.dev.is LNA_LANE_CFG.TEST lane then 10 else if rearLane lane &&
        s.dev.eqTable.isNone then 8 else 1) ∧
      (s.dev.laneState lane ≠ 0 → t.dev.laneState lane = s.dev.laneState lane) ∧
      (master ≠ 0 → t.dev.get LNA_LANE_CFG.ENABLE lane = s.dev.get LNA_LANE_CFG.ENABLE lane ∧ t.dev.laneState lane = s.dev.laneState lane)) ∧
  (∀ (s : State) (lane : Fin 512) (rate : Nat), s.dev.supply = .on → s.dev.laneState lane = 1 → (s.dev.lane lane).held = false →
    s.dev.hostPerst lane = false → s.dev.startRate lane = some rate → NextIs (exec (.receiverDetected lane) s) fun t =>
      t.dev.laneState lane = 2 ∧ t.dev.get LNA_LANE_STATE.RATE lane = rate % 16 ∧ t.dev.out = s.dev.out ++ [.laneTrain lane rate] ∧
      (rearLane lane = false → rate ≤ 2 → t.dev.get LNA_TX_EQ.PRESET lane = 4 ∧ t.dev.get LNA_TX_EQ.PRE lane = 0 ∧ t.dev.get
        LNA_TX_EQ.POST lane = 0 ∧ t.dev.get LNA_TX_EQ.MAIN lane = 63)) ∧
  (∀ (s : State) (lane : Fin 512), s.dev.supply = .on → s.dev.laneState lane = 1 → NextIs (exec (.detectTimerExpiry lane) s) fun t =>
      t.dev.out = s.dev.out ++ [.signal "detect" [lane.val]] ∧ t.dev.laneState lane = 1) ∧
  (∀ (s : State) (lane : Fin 512), s.dev.supply = .on → s.dev.laneState lane = 2 → NextIs (exec (.bitLockAcquired lane) s) fun t =>
      t.dev.laneState lane = 3 ∧ t.dev.get LNA_LANE_STATE.RATE lane = s.dev.get LNA_LANE_STATE.RATE lane ∧
      (rearLane lane = true → ((s.dev.lane lane).entries.find? fun e => e.rate == s.dev.get LNA_LANE_STATE.RATE lane).all (fun e =>
        t.dev.get LNA_BITSLIP.DELAY lane == e.slip % 256 && t.dev.get LNA_BITSLIP.APPLIED lane == 1) = true) ∧
      (rearLane lane = false → t.dev.get LNA_BITSLIP.DELAY lane = s.dev.get LNA_BITSLIP.DELAY lane)) ∧
  (∀ (s : State) (lane : Fin 512) (found : Fin 256), s.dev.supply = .on → s.dev.laneState lane = 3 → 8 ≤ found.val →
    s.dev.changesSpeed lane = false → NextIs (exec (.symbolLockAcquired lane found) s) fun t =>
      t.dev.get LNA_ALIGN.LOCKED lane = 1 ∧ t.dev.get LNA_ALIGN.MATCH lane = found.val ∧
      (t.dev.laneState lane = (if rearLane lane = false ∧ 3 ≤ s.dev.get LNA_LANE_STATE.RATE lane ∧ s.dev.equalised lane (s.dev.get
        LNA_LANE_STATE.RATE lane) = false then 4 else 5))) ∧
  (∀ (s : State) (lane : Fin 512) (temp : Byte) (search : EqSearch), s.dev.supply = .on → s.dev.laneState lane = 4 →
    s.dev.changesSpeed lane = false → NextIs (exec (.tapsAgreed lane ⟨temp, search⟩) s) fun t =>
      t.dev.laneState lane = 5 ∧ t.dev.get LNA_TRAIN_REF.TEMP lane = temp.toNat ∧
      (t.dev.lane lane).eqRates.contains (s.dev.get LNA_LANE_STATE.RATE lane) = true) ∧
  (∀ (s : State) (cage : Fin 56) (lane : Fin 512), s.dev.supply = .on → lane.val / 8 = cage.val →
    s.dev.is LNA_LANE_CFG.ENABLE lane = true → s.dev.laneState lane = 0 → (s.dev.lane lane).held = false → s.dev.halted = false →
    s.dev.is EF_STATUS.PG cage = true → dieOf lane ∉ s.dev.lostDies → NextIs (exec (.cagePowerGoodLaneRelease cage) s) fun t =>
      (t.dev.laneState lane = if s.dev.is LNA_LANE_CFG.TEST lane then 10 else 1))

/-- By the Curator, LANE_ENABLE_CLEARED takes a lane OFF, LANE_TX_EQ_WRITE sets the taps in TEST within the tap limits and
LNA_BITSLIP_DELAY_WRITE sets DELAY with APPLIED clear in SYMLOCK or TEST, and both leave the fields alone otherwise; any other master
changes nothing. BITSLIP_DELAY_APPLIED makes a pending delay the one in force and clears MATCH. REAR_SYMLOCK_TIMEOUT sets SLIP_NEEDED and
starts a search, whose steps end it at a lock with MATCH of at least 8 or after 256 steps. LANE_ATTEMPT_TIMER_EXPIRY fails an attempt:
DETECT and ATTEMPTS + 1, or FAILED when ATTEMPTS is 7. LANE_BIT_LOCK_LOST sets LOCK_LOST and takes the lane out of ACTIVE. -/
def Obligations.LaneBitSlipAndFailures : Prop :=
  (∀ (s : State) (master : Fin 2048) (lane : Fin 512), s.dev.supply = .on → NextIs (exec (.laneEnableCleared master lane) s) fun t =>
      (master = 0 → t.dev.get LNA_LANE_CFG.ENABLE lane = 0 ∧ t.dev.laneState lane = 0) ∧
      (master ≠ 0 → t.dev.get LNA_LANE_CFG.ENABLE lane = s.dev.get LNA_LANE_CFG.ENABLE lane ∧ t.dev.laneState lane = s.dev.laneState lane)) ∧
  (∀ (s : State) (master : Fin 2048) (lane : Fin 512) (pre : Fin 16) (post : Fin 32), s.dev.supply = .on →
    NextIs (exec (.laneTxEqWrite master lane pre post) s) fun t =>
      (master = 0 → s.dev.is LNA_LANE_CFG.TEST lane = true → tapsOk pre post = true → t.dev.get LNA_TX_EQ.PRE lane = pre.val ∧ t.dev.get
        LNA_TX_EQ.POST lane = post.val ∧ t.dev.get LNA_TX_EQ.MAIN lane = 63 - pre.val - post.val ∧ t.dev.get LNA_TX_EQ.SOURCE lane = 3) ∧
      (master ≠ 0 ∨ s.dev.is LNA_LANE_CFG.TEST lane = false ∨ tapsOk pre post = false → t.dev.get LNA_TX_EQ.PRE lane = s.dev.get
        LNA_TX_EQ.PRE lane ∧ t.dev.get LNA_TX_EQ.POST lane = s.dev.get LNA_TX_EQ.POST lane)) ∧
  (∀ (s : State) (lane : Fin 512), s.dev.supply = .on → s.dev.laneState lane = 3 → rearLane lane = true →
    NextIs (exec (.rearSymlockTimeout lane) s) fun t =>
      t.dev.get LNA_EVENTS.SLIP_NEEDED lane = 1 ∧ (t.dev.lane lane).search = some (s.dev.get LNA_BITSLIP.DELAY lane, 0) ∧
      t.dev.laneState lane = 3) ∧
  (∀ (s : State) (lane : Fin 512) (locked : Bool) (found : Fin 256) (start step : Nat), s.dev.supply = .on →
    (s.dev.lane lane).search = some (start, step) → s.dev.laneState lane = 3 →
    NextIs (exec (.bitslipSearchStep lane locked found) s) fun t =>
      t.dev.get LNA_BITSLIP.DELAY lane = (start + step) % 256 ∧ t.dev.get LNA_BITSLIP.APPLIED lane = 1 ∧
      (locked = true → 8 ≤ found.val → t.dev.get LNA_ALIGN.LOCKED lane = 1 ∧ t.dev.get LNA_ALIGN.MATCH lane = found.val ∧ (t.dev.lane
        lane).search = none ∧ 4 ≤ t.dev.laneState lane) ∧
      (locked = false ∨ found.val < 8 → t.dev.laneState lane = 3 ∧ (t.dev.lane lane).search = if step = 255 then none else some (start,
        step + 1))) ∧
  (∀ (s : State) (master : Fin 2048) (lane : Fin 512) (delay : Byte), s.dev.supply = .on →
    NextIs (exec (.lnaBitslipDelayWrite master lane delay) s) fun t =>
      (master = 0 → s.dev.laneState lane = 3 ∨ s.dev.laneState lane = 10 → t.dev.get LNA_BITSLIP.DELAY lane = delay.toNat ∧ t.dev.get
        LNA_BITSLIP.APPLIED lane = 0 ∧ (t.dev.lane lane).delay = some delay.toNat) ∧
      (master ≠ 0 ∨ s.dev.laneState lane ≠ 3 ∧ s.dev.laneState lane ≠ 10 → t.dev.get LNA_BITSLIP.DELAY lane = s.dev.get LNA_BITSLIP.DELAY
        lane ∧ (t.dev.lane lane).delay = (s.dev.lane lane).delay)) ∧
  (∀ (s : State) (lane : Fin 512) (v : Nat), s.dev.supply = .on → (s.dev.lane lane).delay = some v →
    NextIs (exec (.bitslipDelayApplied lane) s) fun t =>
      t.dev.get LNA_BITSLIP.DELAY lane = v % 256 ∧ t.dev.get LNA_BITSLIP.APPLIED lane = 1 ∧ t.dev.get LNA_ALIGN.MATCH lane = 0 ∧
      (t.dev.lane lane).delay = none) ∧
  (∀ (s : State) (lane : Fin 512), s.dev.supply = .on → 2 ≤ s.dev.laneState lane → s.dev.laneState lane ≤ 5 →
    s.dev.changesSpeed lane = false → NextIs (exec (.laneAttemptTimerExpiry lane) s) fun t =>
      t.dev.get LNA_LANE_STATE.LAST_FAIL lane = s.dev.laneState lane ∧
      (s.dev.get LNA_LANE_STATE.ATTEMPTS lane = 7 → t.dev.laneState lane = 8 ∧ t.dev.get LNA_LANE_STATE.ATTEMPTS lane = 8 ∧ t.dev.get
        LNA_EVENTS.BRINGUP_FAILED lane = 1) ∧
      (s.dev.get LNA_LANE_STATE.ATTEMPTS lane ≠ 7 → t.dev.laneState lane = (if rearLane lane && s.dev.eqTable.isNone then 8 else 1) ∧
        t.dev.get LNA_LANE_STATE.ATTEMPTS lane = min 255 (s.dev.get LNA_LANE_STATE.ATTEMPTS lane + 1))) ∧
  (∀ (s : State) (lane : Fin 512), s.dev.supply = .on → (s.dev.laneState lane = 6 ∨ s.dev.laneState lane = 7) →
    s.dev.armedFor 2 lane = false → NextIs (exec (.laneBitLockLost lane) s) fun t =>
      t.dev.get LNA_EVENTS.LOCK_LOST lane = 1 ∧ (t.dev.lane lane).lockLosses = (s.dev.lane lane).lockLosses + 1 ∧
      (t.dev.laneState lane = (if s.dev.fabricLane lane then 0 else if rearLane lane && s.dev.eqTable.isNone then 8 else 1)))

/-- A START by the Curator writes the fields of LNA_MRG_CTL and starts a scan in ACTIVE or TEST where none runs, else sets STATUS 0b11; an
ABORT ends a running scan with STATUS 0b11; MARGIN_SCAN_COMPLETE writes the worst eye and ends the scan. LOAD_TRIGGER_EVALUATION scans the
ACTIVE lanes of a port whose use or heat calls for it. A front lane applies coefficients within the tap limits and rejects others, a rear
lane rejects every request. REEQ_DEFERRED restarts the wait of a port that wants re-equalisation; PCIE_REEQ_WINDOW_OPEN ends it.
DESKEW_FAIL with a spread of more than 64 UI records each lane's SKEW; up to 319 UI every lane returns to SYMLOCK with its compensating
delay, beyond that its attempt fails. LANE_RETIREMENT takes a lane to RETIRED. -/
def Obligations.MarginScansAndTriggers : Prop :=
  (∀ (s : State) (master : Fin 2048) (lane : Fin 512) (value : Word), s.dev.supply = .on →
    NextIs (exec (.marginScanStart master lane value) s) fun t =>
      (master = 0 → t.dev.get LNA_MRG_CTL.AXES lane = bitsOf value.toNat 21 20 ∧ t.dev.get LNA_MRG_CTL.ERR_LIMIT lane = bitsOf value.toNat
        25 22 ∧ t.dev.get LNA_MRG_CTL.VFLOOR lane = bitsOf value.toNat 13 8 ∧ t.dev.get LNA_MRG_CTL.HFLOOR lane = bitsOf value.toNat 5 0)
        ∧
      (master = 0 → (s.dev.laneState lane = 6 ∨ s.dev.laneState lane = 10) ∧ (s.dev.lane lane).scanning = false → t.dev.get
        LNA_MRG_RESULT.STATUS lane = 1 ∧ (t.dev.lane lane).scanning = true ∧ (t.dev.lane lane).axes = bitsOf value.toNat 21 20) ∧
      (master = 0 → ¬((s.dev.laneState lane = 6 ∨ s.dev.laneState lane = 10) ∧ (s.dev.lane lane).scanning = false) → t.dev.get
        LNA_MRG_RESULT.STATUS lane = 3 ∧ (t.dev.lane lane).scanning = (s.dev.lane lane).scanning) ∧
      (master ≠ 0 → t.dev.word .LNA_MRG_CTL lane = s.dev.word .LNA_MRG_CTL lane ∧ (t.dev.lane lane).scanning = (s.dev.lane lane).scanning)) ∧
  (∀ (s : State) (master : Fin 2048) (lane : Fin 512) (value : Word), s.dev.supply = .on → (s.dev.lane lane).scanning = true →
    NextIs (exec (.marginScanAbort master lane value) s) fun t =>
      (master = 0 → t.dev.get LNA_MRG_RESULT.STATUS lane = 3 ∧ (t.dev.lane lane).scanning = false) ∧
      (master ≠ 0 → t.dev.get LNA_MRG_RESULT.STATUS lane = s.dev.get LNA_MRG_RESULT.STATUS lane ∧ (t.dev.lane lane).scanning = true)) ∧
  (∀ (s : State) (lane : Fin 512) (eyes : List Eye) (temp : Byte), s.dev.supply = .on → (s.dev.lane lane).scanning = true →
    NextIs (exec (.marginScanComplete lane eyes temp) s) fun t =>
      t.dev.get LNA_MRG_RESULT.STATUS lane = 2 ∧ (t.dev.lane lane).scanning = false ∧
      t.dev.get LNA_MRG_RESULT.LEFT lane = (worstEye (s.dev.lane lane).axes eyes).2.left % 64 ∧
      t.dev.get LNA_MRG_RESULT.RIGHT lane = (worstEye (s.dev.lane lane).axes eyes).2.right % 64) ∧
  (∀ (s : State) (port : Fin 512) (lane : Fin 512) (util : Fin 101) (temp : Byte), s.dev.supply = .on → s.dev.configured port = true →
    lane.val ∈ s.dev.lanesOf port → s.dev.laneState lane = 6 → (s.dev.portX port).disarmed = false →
    s.dev.get LNA_TRIG_CFG.UTIL_PCT 0 < util.val → s.dev.get LNA_TRIG_CFG.REARM_PCT 0 ≤ util.val →
    (((s.dev.lanesOf port).all fun n => !(s.dev.lane n).scanning) = true) →
    NextIs (exec (.loadTriggerEvaluation port util temp) s) fun t =>
      (t.dev.portX port).disarmed = true ∧ t.dev.get LNA_MRG_RESULT.STATUS lane = 1 ∧ (t.dev.lane lane).scanning = true) ∧
  (∀ (s : State) (port : Fin 512), s.dev.supply = .on → (s.dev.portX port).wanted.isSome = true →
    NextIs (exec (.reeqDeferred port) s) fun t =>
      (t.dev.portX port).wanted = some s.dev.now) ∧
  (∀ (s : State) (lane : Fin 512) (pre post : Nat), s.dev.supply = .on →
    NextIs (exec (.partnerCoefficientRequest lane (.coefficients pre post)) s) fun t =>
      (rearLane lane = true → t.dev.out = s.dev.out ++ [.coefficientReject lane] ∧ t.dev.word .LNA_TX_EQ lane = s.dev.word .LNA_TX_EQ
        lane) ∧
      (rearLane lane = false → tapsOk pre post = true → t.dev.get LNA_TX_EQ.PRE lane = pre % 16 ∧ t.dev.get LNA_TX_EQ.POST lane = post %
        32 ∧ t.dev.get LNA_TX_EQ.SOURCE lane = 1 ∧ t.dev.out = s.dev.out ++ [.coefficients lane pre post]) ∧
      (rearLane lane = false → tapsOk pre post = false → t.dev = s.dev.emit (.coefficientReject lane))) ∧
  (∀ (s : State) (lane : Fin 512) (k : Fin 16), s.dev.supply = .on →
    NextIs (exec (.partnerCoefficientRequest lane (.preset k)) s) fun t =>
      (rearLane lane = true → t.dev.out = s.dev.out ++ [.coefficientReject lane] ∧ t.dev.word .LNA_TX_EQ lane = s.dev.word .LNA_TX_EQ
        lane) ∧
      (rearLane lane = false → presetApplies (s.dev.fabricLane lane) (s.dev.get LNA_LANE_STATE.RATE lane) k = false → t.dev = s.dev.emit
        (.coefficientReject lane)) ∧
      (rearLane lane = false → presetApplies (s.dev.fabricLane lane) (s.dev.get LNA_LANE_STATE.RATE lane) k = true → t.dev.get
        LNA_TX_EQ.PRESET lane = k ∧ t.dev.get LNA_TX_EQ.SOURCE lane = 0) ∧
      (rearLane lane = false → presetApplies (s.dev.fabricLane lane) (s.dev.get LNA_LANE_STATE.RATE lane) k = true → s.dev.fabricLane lane
        = true ∨ s.dev.get LNA_LANE_STATE.RATE lane < 6 → t.dev.get LNA_TX_EQ.PRE lane = (presetTaps k).1 % 16 ∧ t.dev.get LNA_TX_EQ.POST
        lane = (presetTaps k).2 % 32)) ∧
  (∀ (s : State) (port : Fin 512) (taken : Bool) (closed : List (Fin 512)) (temp : Byte), s.dev.supply = .on →
    s.dev.fabricPort port = false → s.dev.trained port = true → s.dev.is PRT_LTR.NONE port = false →
    s.dev.get LNA_REEQ_CFG.LTR_MIN 0 ≤ s.dev.get PRT_LTR.LTR_US port → (s.dev.portX port).wanted.isSome = true →
    (s.dev.portX port).retireLater = none → NextIs (exec (.pcieReeqWindowOpen port ⟨taken, closed⟩ temp) s) fun t =>
      (t.dev.portX port).wanted = none) ∧
  (∀ (s : State) (lane : Fin 512), s.dev.supply = .on → s.dev.laneState lane ≠ 0 → s.dev.laneState lane ≠ 9 →
    NextIs (exec (.laneRetirement lane) s) fun t =>
      t.dev.get HLT_EVENTS.LANE_RETIRED 0 = 1 ∧ t.dev.laneState lane = 9) ∧
  (∀ (s : State) (port : Fin 512) (skews : List Int) (e : Nat × Int) (ls : List (Nat × Int)) (spread : Int), s.dev.supply = .on →
    s.dev.fabricPort port = true → ls = (s.dev.deskewLanes port).zip skews → (s.dev.deskewLanes port).Nodup →
    ((s.dev.deskewLanes port).all (s.dev.lanesOf port).contains) = true → e ∈ ls →
    spread = largestSkew (ls.map (·.2)) - leastSkew (ls.map (·.2)) → 64 < spread → NextIs (exec (.deskewFail port skews) s) fun t =>
      t.dev.get LNA_ALIGN.SKEW e.1 = ofSigned 11 e.2 ∧ t.dev.linkState port = 1 ∧
      (spread ≤ 319 → t.dev.laneState e.1 = 3 ∧ t.dev.get LNA_BITSLIP.DELAY e.1 = min 255 (largestSkew (ls.map (·.2)) - e.2 - 32).toNat ∧
        t.dev.get LNA_BITSLIP.APPLIED e.1 = 0) ∧
      (319 < spread → t.dev.get LNA_LANE_STATE.LAST_FAIL e.1 = 3 ∧ t.dev.laneState e.1 = if s.dev.get LNA_LANE_STATE.ATTEMPTS e.1 = 7 ∨
        rearLane e.1 = true ∧ s.dev.eqTable.isNone = true then 8 else 1))

/-- A DATA flit that passes FEC and CRC advances E by one where its SEQ is E, and leaves E where it is not. A NAK frees what its EXPECTED
acknowledges, or sets BAD_ACK where that was never sent. REPLAY_TIMER_EXPIRY counts a timeout, and the eighth in a row loses the link.
ALIGNMENT_MARKER writes the skews and sends the markers. ECHO_REQ asks or answers, ECHO_RSP sets FLL_RTT. PARAMS fixes a link's width,
rate and sequence numbers in bring-up and its partner's FPID in service. LINK_CTL_RETRY_TIMER repeats a request up to eight attempts.
CAPX_EXCHANGE_COMPLETE makes the port and its lanes active. -/
def Obligations.FlitsAndReplay : Prop :=
  (∀ (s : State) (port : Fin 512) (bytes bs : List Byte) (bodies : List Body) (n : Nat), s.dev.supply = .on →
    s.dev.fabricPort port = true → (s.dev.linkState port = 2 ∨ s.dev.linkState port = 3) → s.dev.injections = [] →
    fecDecode bytes = some (bs, n) → flitCrcOk bs = true → bitsOf (ofBeBytes (bs.take 4)) 31 28 = 1 →
    NextIs (exec (.flitReceived port bytes bodies) s) fun t =>
      (bitsOf (ofBeBytes (bs.take 4)) 27 14 = s.dev.expected port → t.dev.expected port = (s.dev.expected port + 1) % 16384) ∧
      (bitsOf (ofBeBytes (bs.take 4)) 27 14 ≠ s.dev.expected port → t.dev.expected port = s.dev.expected port)) ∧
  (∀ (s : State) (port : Fin 512) (expected : Fin 16384), s.dev.supply = .on → s.dev.fabricPort port = true →
    NextIs (exec (.nakReceived port expected) s) fun t =>
      (8192 ≤ ((expected.val + 16383) % 16384 + 16384 - s.dev.get FLL_SEQ.NEXT_TX port) % 16384 → ((s.dev.link port).unacked.filter fun f
        => decide (8192 ≤ ((expected.val + 16383) % 16384 + 16384 - f.seq) % 16384)) <+: (t.dev.link port).unacked) ∧
      (((expected.val + 16383) % 16384 + 16384 - s.dev.get FLL_SEQ.NEXT_TX port) % 16384 < 8192 → t.dev.get FLL_EVENTS.BAD_ACK port = 1 ∧
        (t.dev.link port).unacked = (s.dev.link port).unacked)) ∧
  (∀ (s : State) (port : Fin 512), s.dev.supply = .on → (s.dev.link port).unacked ≠ [] → s.dev.linkState port = 2 →
    NextIs (exec (.replayTimerExpiry port) s) fun t =>
      (s.dev.get FLL_REPLAY.CONSEC_TIMEOUTS port ≠ 7 → t.dev.get FLL_REPLAY.CONSEC_TIMEOUTS port = min 15 (s.dev.get
        FLL_REPLAY.CONSEC_TIMEOUTS port + 1) ∧ t.dev.linkState port = 2 ∧ (t.dev.link port).unacked = (s.dev.link port).unacked) ∧
      (s.dev.get FLL_REPLAY.CONSEC_TIMEOUTS port = 7 → t.dev.get FLL_EVENTS.LINK_LOST port = 1 ∧ t.dev.linkState port = 6 ∧ (t.dev.link
        port).unacked = [])) ∧
  (∀ (s : State) (port : Fin 512) (skews : List Int) (e : Nat × Int), s.dev.supply = .on → s.dev.fabricPort port = true →
    (s.dev.link port).lanes.Nodup → e ∈ (s.dev.link port).lanes.zip skews → NextIs (exec (.alignmentMarker port skews) s) fun t =>
      t.dev.get LNA_ALIGN.SKEW e.1 = ofSigned 11 e.2 ∧
      (t.dev.out = s.dev.out ++ (((s.dev.link port).lanes.zip skews).map fun (x : Nat × Int) => Out.marker port x.1))) ∧
  (∀ (s : State) (port : Fin 512) (asked : Option (Nat × Nat)), s.dev.supply = .on → s.dev.fabricPort port = true →
    NextIs (exec (.echoReq port asked) s) fun t =>
      (match asked with | some x => t.dev = s.dev.sendCtl port 3 [x.1, x.2] | none => (t.dev.link port).echo = some ((s.dev.link
        port).echoTag, s.dev.now) ∧ (t.dev.asked port 2).map (·.fields) = some [(s.dev.link port).echoTag] ∧ t.dev.out = (s.dev.sendCtl
        port 2 [(s.dev.link port).echoTag]).out)) ∧
  (∀ (s : State) (port : Fin 512) (tag turnaround sent : Nat), s.dev.supply = .on → (s.dev.link port).echo = some (tag, sent) →
    NextIs (exec (.echoRsp port tag turnaround) s) fun t =>
      t.dev.get FLL_RTT.RTT port = min 65535 (sinceTicks sent s.dev.now / 16 - turnaround) ∧ (t.dev.link port).echo = none ∧
      t.dev.asked port 2 = none) ∧
  (∀ (s : State) (port : Fin 512) (partner : Params), s.dev.supply = .on → s.dev.fabricPort port = true →
    (s.dev.linkState port = 2 ∨ s.dev.linkState port = 3) → NextIs (exec (.params port partner) s) fun t =>
      t.dev.get FLL_PARTNER.FPID port = partner.fpid % 4194304 ∧ (t.dev.link port).params = some partner ∧
      t.dev.linkState port = s.dev.linkState port) ∧
  (∀ (s : State) (port : Fin 512) (partner : Params) (w rate : Nat) (lanes : List Nat), s.dev.supply = .on →
    s.dev.fabricPort port = true → s.dev.linkState port ≠ 2 → s.dev.linkState port ≠ 3 →
    (((s.dev.lanesOf port).any fun n => s.dev.laneState n == 5) = true) → partner.version = 1 →
    pickWidth (s.dev.lanesOf port) (s.dev.is PRT_PORT_CFG.REVERSAL_OK port) (fun n => s.dev.laneState n == 5) (min (s.dev.get
      PRT_PORT_CFG.WIDTH port) partner.width) = some (w, lanes) →
    (s.dev.fabricRates port).find? (fun r => partner.rates.contains r) = some rate → NextIs (exec (.params port partner) s) fun t =>
      t.dev.linkState port = 1 ∧ (t.dev.link port).params = some partner ∧ (t.dev.link port).lanes = lanes ∧
      (t.dev.link port).rate = rate ∧ t.dev.get FLL_LINK_STATUS.WIDTH port = w % 8 ∧ t.dev.get FLL_SEQ.NEXT_TX port = 0 ∧
      t.dev.expected port = 0 ∧ t.dev.get FLL_PARTNER.FPID port = partner.fpid % 4194304) ∧
  (∀ (s : State) (port : Fin 512) (subtype : Fin 256) (r : CtlReq), s.dev.supply = .on → s.dev.asked port subtype = some r →
    NextIs (exec (.linkCtlRetryTimer ⟨port, subtype⟩) s) fun t =>
      (r.attempts < 8 → t.dev.asked port subtype = some { r with attempts := r.attempts + 1 } ∧ t.dev.out = (s.dev.sendCtl port r.subtype
        r.fields).out) ∧
      (8 ≤ r.attempts → t.dev.asked port subtype = none ∧ t.dev.out = s.dev.out)) ∧
  (∀ (s : State) (port : Fin 512) (found : Capx) (n w : Nat) (lanes : List Nat), s.dev.supply = .on → s.dev.configured port = true →
    s.dev.fabricPort port = false →
    pickWidth (s.dev.lanesOf port) (s.dev.is PRT_PORT_CFG.REVERSAL_OK port) (fun n => s.dev.laneState n == 5) (min (s.dev.get
      PRT_PORT_CFG.WIDTH port) found.width) = some (w, lanes) →
    n ∈ lanes → (((s.dev.endpointsOf port).all fun e => !(s.dev.endpoint port e).resetPending) = true) →
    NextIs (exec (.capxExchangeComplete port found) s) fun t =>
      t.dev.get PRT_PORT_STATUS.LTSSM port = 3 ∧ t.dev.get PRT_PORT_STATUS.WIDTH port = w % 8 ∧ t.dev.laneState n = 6 ∧
      t.dev.get LNA_LANE_STATE.ATTEMPTS n = 0 ∧ (s.dev.deviceFacing port = true → t.dev.get PRT_PORT_STATUS.DL_ACTIVE port = 1) ∧
      t.dev.is PRT_PORT_STATUS.FLIT port = found.flit) ∧
  (∀ (s : State) (port : Fin 512) (found : Capx) (n : Nat), s.dev.supply = .on → s.dev.configured port = true →
    s.dev.fabricPort port = true → s.dev.linkState port = 1 → (s.dev.link port).params.isSome = true →
    (((s.dev.link port).lanes.all fun m => s.dev.laneState m == 5) = true) → n ∈ (s.dev.link port).lanes →
    NextIs (exec (.capxExchangeComplete port found) s) fun t =>
      t.dev.linkState port = 2 ∧ t.dev.laneState n = 6 ∧ t.dev.get LNA_LANE_STATE.RATE n = (s.dev.link port).rate % 16 ∧
      t.dev.get FLL_REPLAY.CONSEC_TIMEOUTS port = 0 ∧ (t.dev.link port).echo = some ((s.dev.link port).echoTag, s.dev.now))

/-- FABRIC_LANE_LOST takes the lane OFF, held. A WIDTH_REQ for lanes of the port is acknowledged and striped; the WIDTH_ACK to this end's
own request stripes its lanes; LINK_WIDTH_INCREASE brings the lanes to be added to DETECT beside the running link. A SPEED_REQ for a rate
the link can take moves the lanes to PATTERN at it; SPEED_CHANGE_TIMEOUT returns them to the old rate. PAUSE_REQ and the PAUSE_ACK to this
end's own pause the link; FABRIC_LINK_REEQUALISATION ends the re-equalisation of a pause. RESUME makes a link whose end is ready ACTIVE
again, and an end that is not keeps it. -/
def Obligations.WidthSpeedPause : Prop :=
  (∀ (s : State) (port : Fin 512) (tries : List (Fin 512 × List Bool)) (temp : Byte), s.dev.supply = .on → s.dev.linkState port = 3 →
    (s.dev.link port).ownPause = true → NextIs (exec (.fabricLinkReequalisation port tries temp) s) fun t =>
      (t.dev.portX port).reeq = none ∧
      ((s.dev.link port).peerE = none → t.dev.linkState port = 3 ∧ (t.dev.portX port).confirm = (s.dev.link port).lanes) ∧
      ((s.dev.link port).peerE ≠ none → t.dev.linkState port = 2)) ∧
  (∀ (s : State) (lane : Fin 512) (port : Nat), s.dev.supply = .on → s.dev.portOfLane lane = some port → s.dev.fabricPort port = true →
    s.dev.linkServing port = true → (s.dev.link port).lanes.contains lane.val = true → NextIs (exec (.fabricLaneLost lane) s) fun t =>
      (t.dev.lane lane).held = true ∧ t.dev.laneState lane = 0) ∧
  (∀ (s : State) (port : Fin 512) (width : Fin 5) (mask : Fin 65536), s.dev.supply = .on → s.dev.fabricPort port = true →
    s.dev.linkServing port = true → (lanesOfMask port mask).length = widthLanes width →
    (lanesOfMask port mask).all (s.dev.lanesOf port).contains = true → NextIs (exec (.widthReq port width mask) s) fun t =>
      t.dev.linkState port = 4 ∧ (t.dev.link port).lanes = lanesOfMask port mask ∧
      (t.dev.link port).newWidth = some (width.val, lanesOfMask port mask) ∧
      ((t.dev.link port).narrowing = decide (width.val < s.dev.get FLL_LINK_STATUS.WIDTH port))) ∧
  (∀ (s : State) (port : Fin 512) (width : Fin 5) (mask : Fin 65536) (lanes : List Nat), s.dev.supply = .on →
    (s.dev.asked port 16).isSome = true → (s.dev.link port).newWidth = some (width.val, lanes) → maskOfLanes port lanes = mask.val →
    NextIs (exec (.widthAck port width mask) s) fun t =>
      (t.dev.link port).lanes = lanes ∧ t.dev.asked port 16 = none) ∧
  (∀ (s : State) (port : Fin 512) (expected : Fin 16384) (n : Nat), s.dev.supply = .on → s.dev.fabricPort port = true →
    3 ≤ s.dev.linkState port → s.dev.linkState port ≤ 5 → (s.dev.linkState port = 4 → s.dev.asked port 16 = none) →
    n ∈ (s.dev.link port).lanes → NextIs (exec (.resume port expected) s) fun t =>
      ((s.dev.linkState port = 5 → ((s.dev.link port).lanes.all fun m => s.dev.laneState m == 5) = true) ∧ (s.dev.linkState port = 3 →
        (s.dev.link port).ownPause = true → (s.dev.portX port).reeq = none) → t.dev.linkState port = 2 ∧ t.dev.laneState n = 6 ∧
        (t.dev.link port).requests = [] ∧ port.val ∉ t.dev.pausedLinks) ∧
      (¬((s.dev.linkState port = 5 → ((s.dev.link port).lanes.all fun m => s.dev.laneState m == 5) = true) ∧ (s.dev.linkState port = 3 →
        (s.dev.link port).ownPause = true → (s.dev.portX port).reeq = none)) → t.dev.linkState port = s.dev.linkState port ∧ (t.dev.link
        port).peerE = some expected.val)) ∧
  (∀ (s : State) (port : Fin 512) (width : Fin 5) (code n : Nat) (lanes : List Nat), s.dev.supply = .on → s.dev.fabricPort port = true →
    s.dev.linkState port = 2 →
    pickWidth (s.dev.lanesOf port) (s.dev.is PRT_PORT_CFG.REVERSAL_OK port) (fun n => s.dev.is LNA_LANE_CFG.ENABLE n && s.dev.cagePowered
      n && decide (s.dev.laneState n ≤ 7)) (min width.val (s.dev.get PRT_PORT_CFG.WIDTH port)) = some (code, lanes) →
    s.dev.get FLL_LINK_STATUS.WIDTH port < code → n ∈ lanes → n ∉ (s.dev.link port).lanes →
    NextIs (exec (.linkWidthIncrease port width) s) fun t =>
      t.dev.linkState port = 2 ∧ (t.dev.link port).widening = some (code, lanes) ∧ (t.dev.link port).lanes = (s.dev.link port).lanes ∧
      (t.dev.lane n).held = false ∧ (s.dev.laneState n = 0 → t.dev.laneState n = if rearLane n && s.dev.eqTable.isNone then 8 else 1)) ∧
  (∀ (s : State) (port : Fin 512) (rate : Fin 8) (ack : Bool) (n : Nat), s.dev.supply = .on → s.dev.fabricPort port = true →
    s.dev.linkState port = 2 →
    (ack = false → (s.dev.fabricRates port).contains rate.val = true ∧ s.dev.rateHeld (s.dev.link port).lanes rate = true) →
    (ack = true → (s.dev.asked port 18).map (·.fields) = some [rate.val]) → n ∈ (s.dev.link port).lanes →
    NextIs (exec (.speedReq port ⟨rate, ack⟩) s) fun t =>
      t.dev.linkState port = 5 ∧ (t.dev.link port).newRate = some rate.val ∧ t.dev.laneState n = 2 ∧
      t.dev.get LNA_LANE_STATE.RATE n = rate.val ∧ t.dev.asked port 18 = none) ∧
  (∀ (s : State) (port : Fin 512) (n : Nat), s.dev.supply = .on → s.dev.linkState port = 5 →
    (((s.dev.link port).lanes.all fun m => s.dev.laneState m == 5) = false) → n ∈ (s.dev.link port).lanes →
    NextIs (exec (.speedChangeTimeout port) s) fun t =>
      t.dev.get FLL_EVENTS.SPEED_FAILED port = 1 ∧
      ((s.dev.link port).peerE = none → t.dev.linkState port = 5 ∧ t.dev.laneState n = 5 ∧ t.dev.get LNA_LANE_STATE.RATE n = (s.dev.link
        port).rate % 16 ∧ (t.dev.link port).newRate = some (s.dev.link port).rate) ∧
      ((s.dev.link port).peerE ≠ none → t.dev.linkState port = 2 ∧ t.dev.laneState n = 6 ∧ (t.dev.link port).rate = (s.dev.link
        port).rate)) ∧
  (∀ (s : State) (port : Fin 512) (reason : Byte) (n : Nat), s.dev.supply = .on → s.dev.fabricPort port = true → reason = 1 →
    s.dev.linkState port = 2 → s.dev.diePausing port = false → n ∈ (s.dev.link port).lanes → s.dev.laneState n = 6 →
    NextIs (exec (.pauseReq port reason) s) fun t =>
      t.dev.linkState port = 3 ∧ t.dev.laneState n = 7 ∧ t.dev.out = (s.dev.sendCtl port 21 []).out ∧ port.val ∈ t.dev.pausedLinks) ∧
  (∀ (s : State) (port : Fin 512) (n : Nat), s.dev.supply = .on → (s.dev.asked port 20).isSome = true → s.dev.linkState port = 2 →
    n ∈ (s.dev.link port).lanes → s.dev.laneState n = 6 → NextIs (exec (.pauseAck port) s) fun t =>
      t.dev.linkState port = 3 ∧ t.dev.laneState n = 7 ∧ t.dev.asked port 20 = none ∧ (t.dev.link port).ownPause = true)

/-- CREDIT_WINDOW_GRANT opens a window with the destination port's grant. CREDIT_RETURN_SEND takes all cells owed and the next CSEQ. A
GRANT frame opens its window at the injecting edge; a credit frame with the CSEQ expected advances it, and a RETURN adds to AVAIL up to
the grant. CREDIT_QUIET_POINT records the cells missing and LOW. RESYNC_START stops a window's injection; RESYNC_REQ is answered once all
was received and kept before that; RESYNC_ACK sets AVAIL to the grant less the cells held; RESYNC_TIMEOUT ends the re-synchronisation. -/
def Obligations.CreditWindows : Prop :=
  (∀ (s : State) (src dst : Fin 4194304) (gvh : Fin 8388608) (cls : Cls), s.dev.supply = .on → fpidModule dst = s.dev.moduleId →
    s.dev.dwin src dst = none → s.dev.fabricPort (fpidPort dst) = false →
    (internalPort (fpidPort dst) = true ∨ s.dev.configured (fpidPort dst) = true) →
    ((s.dev.dwins.filter fun w => w.dst == dst.val).length < s.dev.get BSN_PORT_WIN.WINDOWS (fpidPort dst)) →
    s.dev.portGrant (fpidPort dst) ≠ 0 → NextIs (exec (.creditWindowGrant src dst gvh cls) s) fun t =>
      (t.dev.dwin src dst).map (·.grant) = some (s.dev.portGrant (fpidPort dst))) ∧
  (∀ (s : State) (src dst : Fin 4194304) (w : DWin), s.dev.supply = .on → s.dev.dwin src dst = some w → w.owed ≠ 0 →
    NextIs (exec (.creditReturnSend src dst) s) fun t =>
      (t.dev.dwin src dst).map (·.owed) = some 0 ∧ (t.dev.dwin src dst).map (·.cseq) = some ((w.cseq + 1) % 65536)) ∧
  (∀ (s : State) (src dst : Fin 4194304) (kind : CreditKind) (cseq : Fin 65536) (value : Word) (w : Nat), s.dev.supply = .on →
    s.dev.winOf src dst = some w → s.dev.armedFor 6 w = false → (s.dev.win w).cseq = some cseq.val →
    NextIs (exec (.creditFrameReceived src dst kind cseq value) s) fun t =>
      (kind = .resyncReq → t.dev = s.dev) ∧ (kind ≠ .resyncReq → (t.dev.win w).cseq = some ((cseq.val + 1) % 65536)) ∧
      (kind = .ret → s.dev.heldTlps = [] → t.dev.get EBR_CRD_AVAIL.AVAIL w = min (s.dev.get EBR_CRD_AVAIL.AVAIL w + value.toNat)
        (s.dev.get EBR_CRD_GRANT.GRANT w)) ∧
      (kind = .ret → s.dev.get EBR_CRD_GRANT.GRANT w < s.dev.get EBR_CRD_AVAIL.AVAIL w + value.toNat → t.dev.get EBR_CRD_AUDIT.OVERRUN w =
        1)) ∧
  (∀ (s : State) (src dst : Fin 4194304) (cseq : Fin 65536) (value : Word) (w : Nat), s.dev.supply = .on → s.dev.winOf src dst = none →
    firstFree s.dev.wins 0 = w → (s.dev.openWindow src dst gvhModule .c value.toNat).1 = Status.ok →
    NextIs (exec (.creditFrameReceived src dst .grant cseq value) s) fun t =>
      t.dev.winOf src dst = some w ∧ t.dev.get EBR_CRD_GRANT.VALID w = 1 ∧ t.dev.get EBR_CRD_GRANT.GRANT w = value.toNat % 2 ^ 24 ∧
      (t.dev.win w).cseq = some ((cseq.val + 1) % 65536)) ∧
  (∀ (s : State) (window : Fin 32768), s.dev.supply = .on → s.dev.is EBR_CRD_GRANT.VALID window = true →
    s.dev.stoppedFrames (s.dev.win window).src (s.dev.win window).dst = false → NextIs (exec (.creditQuietPoint window) s) fun t =>
      t.dev.get EBR_CRD_AUDIT.SHRINK window = (s.dev.get EBR_CRD_GRANT.GRANT window - s.dev.get EBR_CRD_AVAIL.AVAIL window) % 2 ^ 24 ∧
      (t.dev.get EBR_CRD_AUDIT.LOW window = if s.dev.get EBR_CRD_AVAIL.AVAIL window * 2 < s.dev.get EBR_CRD_GRANT.GRANT window then 1 else
        s.dev.get EBR_CRD_AUDIT.LOW window)) ∧
  (∀ (s : State) (port : Fin 512) (w : Nat), s.dev.supply = .on → w ∈ s.dev.windowsBy port → s.dev.is EBR_CRD_GRANT.VALID w = true →
    NextIs (exec (.resyncStart port) s) fun t =>
      t.dev.get EBR_CRD_AVAIL.RESYNC_ACTIVE w = 1) ∧
  (∀ (s : State) (src dst : Fin 4194304) (sent : Word) (w : DWin), s.dev.supply = .on → s.dev.dwin src dst = some w →
    NextIs (exec (.resyncReq src dst sent) s) fun t =>
      (w.received = sent.toNat → (t.dev.dwin src dst).map (·.resync) = some none ∧ (t.dev.dwin src dst).map (·.cseq) = some ((w.cseq + 1)
        % 65536)) ∧
      (w.received ≠ sent.toNat → w.resync = none → 0 < s.dev.quietTicks / 2 → (t.dev.dwin src dst).map (·.resync) = some (some
        (sent.toNat, s.dev.now)))) ∧
  (∀ (s : State) (src dst : Fin 4194304) (cseq : Fin 65536) (held : Word) (w : Nat), s.dev.supply = .on → s.dev.winOf src dst = some w →
    (s.dev.win w).cseq = some cseq.val → s.dev.is EBR_CRD_AVAIL.RESYNC_ACTIVE w = true →
    NextIs (exec (.resyncAck src dst cseq held) s) fun t =>
      t.dev.get EBR_CRD_AVAIL.RESYNC_ACTIVE w = 0 ∧ t.dev.get EBR_CRD_AUDIT.SHRINK w = 0 ∧ t.dev.get EBR_CRD_AUDIT.LOW w = 0 ∧
      (t.dev.win w).cseq = some ((cseq.val + 1) % 65536) ∧
      (s.dev.heldTlps = [] → t.dev.get EBR_CRD_AVAIL.AVAIL w = (s.dev.get EBR_CRD_GRANT.GRANT w - held.toNat) % 2 ^ 24)) ∧
  (∀ (s : State) (window : Fin 32768), s.dev.supply = .on → s.dev.is EBR_CRD_AVAIL.RESYNC_ACTIVE window = true →
    NextIs (exec (.resyncTimeout window) s) fun t =>
      t.dev.get EBR_CRD_AVAIL.RESYNC_ACTIVE window = 0 ∧ t.dev.get EBR_CRD_AUDIT.RESYNC_FAILED window = 1 ∧
      (s.dev.heldTlps = [] → t.dev.get EBR_CRD_AVAIL.AVAIL window = s.dev.get EBR_CRD_AVAIL.AVAIL window))

/-- Carried out on this module: PORT_CONFIG of an allowed setting writes the port's registers and the reserved total and ends OK, of a
refused one ends with its status and leaves PRT_PORT_CFG and the total; PORT_ENABLE sets or clears ENABLE of each lane of the port;
EQ_TABLE_LOAD of a valid EEPROM image stores it and makes it the table; MARGIN_SCAN writes the settings and scans each lane that can be
scanned; BITSLIP applies a delay in SYMLOCK or TEST; RETRAIN takes a FAILED lane, or with UNRETIRE a RETIRED one, to DETECT, a fabric link
in service to a width change or down, and a trained PCIe or CXL port to recovery. -/
def Obligations.PortCommands : Prop :=
  (∀ (s : State) (h : CmdHdr) (fpid : Word) (kind width rate flags : Byte) (lr : Word) (oversub : Byte) (windows : Fin 65536) (pm : Word)
      (p : Nat) (x : PortSetting),
    s.dev.supply = .on → s.dev.CarriesOut h 0x0501 [1, 2] (fpidModule (fpidField fpid.toNat)) → fpidPort (fpidField fpid.toNat) = p →
    (⟨kind.toNat, width.toNat, rate.toNat, flags.toNat, lr.toNat, oversub.toNat, windows, pm.toNat⟩ : PortSetting) = x → x.bad = none →
    NextIs (exec (.portConfig h fpid kind width rate flags lr oversub windows pm) s) fun t =>
      t.dev.Ends h 0x0501 ((s.dev.layoutRefused p x).getD Status.ok) ∧
      (s.dev.layoutRefused p x ≠ none → t.dev.word .PRT_PORT_CFG p = s.dev.word .PRT_PORT_CFG p ∧ t.dev.get BSN_RESERVED.TOTAL 0 =
        s.dev.get BSN_RESERVED.TOTAL 0) ∧
      (s.dev.layoutRefused p x = none → t.dev.get BSN_RESERVED.TOTAL 0 = s.dev.reservedWith p x % 2 ^ 21 ∧ t.dev.get PRT_PORT_CFG.KIND p =
        x.kind) ∧
      (s.dev.layoutRefused p x = none → x.kind ≠ 0 → t.dev.get PRT_PORT_CFG.WIDTH p = x.width ∧ t.dev.get PRT_PORT_CFG.RATE_MAX p = x.rate
        ∧ t.dev.get BSN_PORT_RSV.LR p = x.reserve ∧ t.dev.get BSN_PORT_WIN.WINDOWS p = x.windowCount)) ∧
  (∀ (s : State) (h : CmdHdr) (fpid : Word) (on : Byte) (n : Nat), s.dev.supply = .on →
    s.dev.CarriesOut h 0x0502 [1, 2] (fpidModule (fpidField fpid.toNat)) →
    s.dev.objectHeld h (Wait.holdsLanes (s.dev.lanesOf (fpidPort (fpidField fpid.toNat)))) = false → on.toNat ≤ 1 →
    s.dev.configured (fpidPort (fpidField fpid.toNat)) = true → n ∈ s.dev.lanesOf (fpidPort (fpidField fpid.toNat)) →
    NextIs (exec (.portEnable h fpid on) s) fun t =>
      t.dev.Ends h 0x0502 Status.ok ∧ t.dev.get LNA_LANE_CFG.ENABLE n = on.toNat ∧ (on = 0 → t.dev.laneState n = 0)) ∧
  (∀ (s : State) (h : CmdHdr) (addr : Nat) (length : Word) (source : Fetch) (bs : List Byte) (table : List EqEntry), s.dev.supply = .on →
    s.dev.CarriesOut h 0x0503 [2, 4] s.dev.moduleId →
    (if addr = 0 then (if SMap.get [] s.dev.images 2 = [] then none else some (SMap.get [] s.dev.images 2)) else fetched s.mem source addr
      length.toNat) = some bs →
    eqTableOf bs = some table → NextIs (exec (.eqTableLoad h addr length source) s) fun t =>
      t.dev.Ends h 0x0503 Status.ok ∧ t.nv.eqTable = bs ∧ t.dev.eqTable = some table) ∧
  (∀ (s : State) (h : CmdHdr) (first : Fin 65536) (count dwell errLimit axes hfloor vfloor : Byte) (n : Nat), s.dev.supply = .on →
    s.dev.CarriesOut h 0x0504 [1, 2, 4] s.dev.moduleId →
    s.dev.objectHeld h (Wait.holdsLanes ((List.range count.toNat).map (first.val + ·))) = false → first.val + count.toNat ≤ 512 →
    1 ≤ count.toNat → count.toNat ≤ 16 → dwell.toNat ≤ 8 → errLimit.toNat ≤ 15 → axes.toNat ≤ 3 → hfloor.toNat ≤ 63 → vfloor.toNat ≤ 63 →
    first.val ≤ n → n < first.val + count.toNat → NextIs (exec (.marginScan h first count dwell errLimit axes hfloor vfloor) s) fun t =>
      t.dev.get LNA_MRG_CTL.DWELL n = dwell.toNat ∧ t.dev.get LNA_MRG_CTL.ERR_LIMIT n = errLimit.toNat ∧
      t.dev.get LNA_MRG_CTL.AXES n = axes.toNat ∧ t.dev.get LNA_MRG_CTL.HFLOOR n = hfloor.toNat ∧
      t.dev.get LNA_MRG_CTL.VFLOOR n = vfloor.toNat ∧ ((s.dev.laneState n = 6 ∨ s.dev.laneState n = 10) → (t.dev.lane n).scanning = true)) ∧
  (∀ (s : State) (h : CmdHdr) (lane : Fin 65536) (delay : Byte) (locked : Bool) (found : Fin 256), s.dev.supply = .on →
    s.dev.CarriesOut h 0x0505 [2] s.dev.moduleId → lane.val < 512 → (s.dev.laneState lane = 3 ∨ s.dev.laneState lane = 10) →
    NextIs (exec (.bitslip h lane delay locked found) s) fun t =>
      t.dev.Ends h 0x0505 Status.ok ∧ t.dev.is LNA_ALIGN.LOCKED lane = locked ∧ t.dev.get LNA_ALIGN.MATCH lane = found.val ∧
      t.dev.get LNA_BITSLIP.DELAY lane = delay.toNat ∧ t.dev.get LNA_BITSLIP.APPLIED lane = 1) ∧
  (∀ (s : State) (h : CmdHdr) (object : Word) (flags : Byte), s.dev.supply = .on → s.dev.CarriesOut h 0x0506 [1, 2, 4] s.dev.moduleId →
    s.dev.objectHeld h (Wait.holdsLanes [object.toNat]) = false → object.toNat < 512 → bitOf flags.toNat 4 = true → flags.toNat < 32 →
    NextIs (exec (.retrain h object flags) s) fun t =>
      t.dev.Ends h 0x0506 Status.ok ∧
      (s.dev.halted = false → s.dev.laneState object.toNat = 8 ∨ s.dev.laneState object.toNat = 9 ∧ bitOf flags.toNat 3 = true → t.dev.get
        LNA_LANE_STATE.ATTEMPTS object.toNat = 0 ∧ t.dev.laneState object.toNat = if rearLane object.toNat && s.dev.eqTable.isNone then 8
        else 1) ∧
      (s.dev.laneState object.toNat ≠ 8 → s.dev.laneState object.toNat = 9 ∧ bitOf flags.toNat 3 = true ∨ t.dev.laneState object.toNat =
        s.dev.laneState object.toNat)) ∧
  (∀ (s : State) (h : CmdHdr) (object : Word) (flags : Byte) (p : Nat), s.dev.supply = .on →
    s.dev.CarriesOut h 0x0506 [1, 2, 4] (fpidModule (fpidField object.toNat)) →
    s.dev.objectHeld h (Wait.holdsLanes (s.dev.lanesOf (fpidPort (fpidField object.toNat)))) = false →
    fpidPort (fpidField object.toNat) = p → bitOf flags.toNat 4 = false → flags.toNat < 32 → s.dev.configured p = true →
    (bitOf flags.toNat 2 = true → s.dev.deviceFacing p = true) → NextIs (exec (.retrain h object flags) s) fun t =>
      t.dev.Ends h 0x0506 Status.ok ∧
      (bitOf flags.toNat 2 = false → s.dev.fabricPort p = true → s.dev.linkState p = 2 → if bitOf flags.toNat 1 then t.dev.linkState p = 0
        else t.dev.linkState p = 4 ∧ (t.dev.link p).newWidth = some (s.dev.get FLL_LINK_STATUS.WIDTH p, (s.dev.link p).lanes)) ∧
      (bitOf flags.toNat 2 = false → s.dev.fabricPort p = false → s.dev.trained p = true → bitOf flags.toNat 0 = false → Out.linkReset p
        "recovery" ∈ t.dev.out))

/-- A memory or atomic request of a bound endpoint, and a CXL.mem request of a host that decodes to a bound endpoint, becomes a frame to
the other edge: where its window has the cells it goes at once, takes them from AVAIL, its FSEQ and ITIME, and a tracker entry if it is
owed a completion; where it lacks them it is held. A CXL.mem read without a Vitrine is answered with poison, a write is dropped. A frame
that leaves toward a host without a completion owed is sent as its TLP, EP set as the frame is poisoned. INTX_MESSAGE sets or clears an
endpoint's contribution to its swizzled wire. ERROR_MESSAGE counts the error on the virtual port and triggers its downstream port
containment where that covers it. PME_TURN_OFF waits for the endpoints alone on their ports, or is acknowledged at once, the link in L2;
PME_TO_ACK ends the wait with the last of them, its timeout ends it with PME_TO_LATE for each that is late. LTR_MESSAGE keeps an
endpoint's latency; LTR_UPSTREAM_SEND sends the report that has changed. MESSAGE_DISCARDED records it. -/
def Obligations.TlpsAndMessages : Prop :=
  (∀ (s : State) (port : Fin 512) (t : Tlp) (e : Nat) (b : EpBind) (f : Frame) (w : Nat), s.dev.supply = .on →
    s.dev.hostFacing port = false → s.dev.deviceFacing port = true → (t.kind = .memWrite ∨ t.kind = .memRead ∨ t.kind = .atomic) →
    t.ecrc ≠ some false → s.dev.selectEndpoint port t.requester t.ldId = some e → (s.dev.endpoint port e).bound = some b →
    b.refusing = false → s.dev.peer b t.addr = none →
    edgeFrame (s.dev.fpid port) b.up b.gvh b.cls (.tlp
      { t with ecrc := none, flit := true, requester := s.dev.hostId port t.requester t.ldId }) = f →
    s.dev.heldTlps = [] → s.dev.cellsMayGo port = true → s.dev.frozenAt port b.gvh = false → s.dev.winOf f.src f.dst = some w →
    (((s.dev.need port b.up b.gvh b.k b.cls false f.body).all fun e => (s.dev.entryWait e).isNone) = true) →
    NextIs (exec (.tlpIngress port t) s) fun t_ =>
      (s.dev.canInject f = true → t_.dev.arrived = s.dev.arrived ++ [(port.val,
        { f with fseq := (s.dev.win w).fseq.getD f.cls.code 0, itime := s.dev.now % 2 ^ 32, hops := 0 })] ∧ t_.dev.get EBR_CRD_AVAIL.AVAIL
        w = s.dev.get EBR_CRD_AVAIL.AVAIL w - f.cells ∧ t_.dev.heldTlps = []) ∧
      (s.dev.canInject f = true → t.kind ≠ .memWrite → t_.dev.trk.length = s.dev.trk.length + 1) ∧
      (s.dev.canInject f = false → t_.dev.arrived = s.dev.arrived ∧ t_.dev.heldTlps.map (·.frame) = [f])) ∧
  (∀ (s : State) (port : Fin 512) (x : Nat × Frame) (t : Tlp) (d : Dev), s.dev.supply = .on → s.dev.halted = false →
    ((s.dev.egress.find? fun y => y.1 == port.val && !s.dev.lockBlocks port y.2) = some x) →
    Dev.flowCheck { s.dev with egress := s.dev.egress.erase x } port x.2 = (true, d) → x.2.body = .tlp t → t.kind.completion = false →
    t.kind.nonPosted = false → t.kind ≠ .intxMsg → s.dev.hostFacing port = true → d.peerOf port x.2 t = none →
    (x.2.poison = false ∨ bodyData x.2.body = true) → NextIs (exec (.tlpEgress port) s) fun t_ =>
      t_.dev.egress = s.dev.egress.erase x ∧ t_.dev.out = (d.linkTlp port none { t with ep := x.2.poison }).out) ∧
  (∀ (s : State) (port : Fin 512) (m : MemMsg), s.dev.supply = .on → s.dev.hostFacing port = true → m.response = false →
    s.dev.vitrineOfPort port = none → NextIs (exec (.cxlMemRequest port m) s) fun t =>
      (t.dev.out = s.dev.out ++ if m.write then [] else [.mem port { m with withData := true, response := true, poison := true }])) ∧
  (∀ (s : State) (port : Fin 512) (m : MemMsg) (lv : Nat) (x : Nat × Nat) (b : Binding) (f : Frame) (w : Nat), s.dev.supply = .on →
    s.dev.hostFacing port = true → m.response = false → s.dev.vitrineOfPort port = some lv → s.dev.contained 1 lv = false →
    s.dev.get VIT_STATE.STATE lv = 2 → hdmSelect (s.dev.vit lv).hdm m.addr = some x → (s.dev.vit lv).binding x.1 = some b →
    s.dev.hostReaches lv b = true → s.dev.takesMem b = true →
    edgeFrame (s.dev.fpid port) b.fpid (s.dev.gvh lv) b.cls (.mem { m with addr := x.2, ldId := b.ldId.getD 0 }) = f →
    s.dev.heldTlps = [] → s.dev.cellsMayGo port = true → s.dev.winOf f.src f.dst = some w → s.dev.canInject f = true →
    s.dev.frozenAt port f.gvh = false →
    (((s.dev.need port b.fpid (s.dev.gvh lv) b.k b.cls true f.body).all fun e => (s.dev.entryWait e).isNone) = true) →
    NextIs (exec (.cxlMemRequest port m) s) fun t =>
      t.dev.arrived = s.dev.arrived ++ [(port.val,
        { f with fseq := (s.dev.win w).fseq.getD f.cls.code 0, itime := s.dev.now % 2 ^ 32, hops := 0 })] ∧
      t.dev.get EBR_CRD_AVAIL.AVAIL w = s.dev.get EBR_CRD_AVAIL.AVAIL w - f.cells) ∧
  (∀ (s : State) (lvid : Fin 1024) (k : Fin 64) (fn : Fin 256) (wire : Fin 4) (assert : Bool) (b : Binding), s.dev.supply = .on →
    (s.dev.vit lvid).binding k = some b → NextIs (exec (.intxMessage lvid k fn wire assert) s) fun t =>
      ((t.dev.vit lvid).intx = ((s.dev.vit lvid).intx.filter fun c => !(c.1 == intxOfEndpoint k fn && c.2 == (wire.val + vdpDevice k) %
        4)) ++ (if assert then [(intxOfEndpoint k fn, (wire.val + vdpDevice k) % 4)] else []))) ∧
  (∀ (s : State) (port : Fin 512) (ep : Fin 128) (severity : Fin 3) (lv k : Nat) (b : Binding), s.dev.supply = .on →
    s.dev.boundTo port ep = some (lv, k) → (s.dev.vit lv).binding k = some b → b.k = k →
    NextIs (exec (.errorMessage port ep severity) s) fun t =>
      ((t.dev.vport lv k).aerCorrectable, (t.dev.vport lv k).aerNonfatal, (t.dev.vport lv k).aerFatal) = (((s.dev.aer lv k severity).vport
        lv k).aerCorrectable, ((s.dev.aer lv k severity).vport lv k).aerNonfatal, ((s.dev.aer lv k severity).vport lv k).aerFatal) ∧
      ((t.dev.vport lv k).dpcStatus = ((s.dev.vport lv k).dpcStatus || decide (severity = 2 ∧ (s.dev.vport lv k).dpcEnable = 1 ∨ 1 ≤
        severity.val ∧ (s.dev.vport lv k).dpcEnable = 2)))) ∧
  (∀ (s : State) (port : Fin 512) (ep : Fin 128) (severity : Fin 3) (b : EpBind), s.dev.supply = .on → s.dev.boundTo port ep = none →
    (s.dev.endpoint port ep).bound = some b → NextIs (exec (.errorMessage port ep severity) s) fun t =>
      t.dev = s.dev.tell (fpidModule b.up) (.report "endpoint error" [b.gvh, b.k, severity.val])) ∧
  (∀ (s : State) (port : Fin 512) (lv : Nat), s.dev.supply = .on → s.dev.vitrineOfPort port = some lv →
    NextIs (exec (.pmeTurnOff port) s) fun t =>
      ((s.dev.vit lv).bindings.filter s.dev.bindingAlone = [] → t.dev.out = s.dev.out ++ [.pmeToAck port] ∧ t.dev.get
        PRT_PORT_STATUS.LTSSM port = 6 ∧ t.dev.get PRT_PORT_STATUS.LINK_PM port = 5) ∧
      ((s.dev.vit lv).bindings.filter s.dev.bindingAlone ≠ [] → (t.dev.vit lv).pmeWait = some (((s.dev.vit lv).bindings.filter
        s.dev.bindingAlone).map (·.k))) ∧
      ((((s.dev.vit lv).bindings.filter fun b => s.dev.bindingAlone b && fpidModule b.fpid == s.dev.moduleId).all fun b =>
        t.dev.out.contains (.pmeTurnOff (fpidPort b.fpid))) = true)) ∧
  (∀ (s : State) (lvid : Fin 1024) (k : Fin 64) (ks : List Nat), s.dev.supply = .on → (s.dev.vit lvid).pmeWait = some ks →
    NextIs (exec (.pmeToAck lvid k) s) fun t =>
      (t.dev.vit lvid).pmeWait = (if ks.filter (· ≠ k.val) = [] then none else some (ks.filter (· ≠ k.val))) ∧
      t.dev.out = s.dev.out ++ (if ks.filter (· ≠ k.val) = [] then [.pmeToAck (s.dev.get VIT_PORT.UPORT lvid)] else [])) ∧
  (∀ (s : State) (lvid : Fin 1024) (ks : List Nat), s.dev.supply = .on → (s.dev.vit lvid).pmeWait = some ks →
    NextIs (exec (.pmeToAckTimeout lvid) s) fun t =>
      (t.dev.vit lvid).pmeWait = none ∧ Out.pmeToAck (s.dev.get VIT_PORT.UPORT lvid) ∈ t.dev.out ∧
      ((((s.dev.vit lvid).bindings.filter fun b => ks.contains b.k && fpidModule b.fpid == s.dev.moduleId).all fun b => t.dev.is
        PRT_EVENTS.PME_TO_LATE (fpidPort b.fpid)) = true)) ∧
  (∀ (s : State) (fpid : Fin 4194304) (ep : Fin 128) (required : Bool) (ns : Nat), s.dev.supply = .on →
    NextIs (exec (.ltrMessage fpid ep required ns) s) fun t =>
      (fpidModule fpid = s.dev.moduleId → (t.dev.endpoint (fpidPort fpid) ep).ltr = (if required then some ns else none) ∧ (t.dev.endpoint
        (fpidPort fpid) ep).ltrSeen = true) ∧
      (fpidModule fpid ≠ s.dev.moduleId → ((s.dev.bindingsTo fpid (· == ep.val)).all fun b => ((t.dev.vit b.1).binding b.2).map (·.farLtr)
        == some (some (if required then some ns else none))) = true)) ∧
  (∀ (s : State) (port : Fin 512) (lv : Nat), s.dev.supply = .on → s.dev.vitrineOfPort port = some lv →
    NextIs (exec (.ltrUpstreamSend port) s) fun t =>
      (s.dev.ltrReport lv ≠ (s.dev.vit lv).ltrSent → ((s.dev.vit lv).ltrAt.all fun x => decide (usTicks 100 ≤ sinceTicks x s.dev.now)) =
        true → (t.dev.vit lv).ltrSent = s.dev.ltrReport lv ∧ (t.dev.vit lv).ltrAt = some s.dev.now ∧ t.dev.out = s.dev.out ++ [.ltr
        (s.dev.get VIT_PORT.UPORT lv) (s.dev.ltrReport lv)]) ∧
      (s.dev.ltrReport lv = (s.dev.vit lv).ltrSent → t.dev = s.dev)) ∧
  (∀ (s : State) (port : Fin 512), s.dev.supply = .on → NextIs (exec (.messageDiscarded port) s) fun t =>
      t.dev = s.dev.record 0x0481 (s.dev.portEv port))

/-- A completion that matches an entry frees it where it is the last one or the entry is squashed. A deadline frees its entry, quarantines
its tag at the completer edge and leaves a late record at the requester edge; TAG_QUARANTINE_EXPIRY and LATE_RECORD_EXPIRY end these, and
a late completion takes its record. A completion that matches nothing is recorded. MRDLK takes a free semaphore for its Vitrine, CPLDLK
moves it on, UNLOCK and the lock timer free it, and LOCK_SIDE_LIST_MOVE moves the blocked heads of a queue aside. -/
def Obligations.CompletionsAndLocks : Prop :=
  (∀ (s : State) (port : Fin 512) (src : Fin 4194304) (gvh : Fin 8388608) (t : Tlp), s.dev.supply = .on →
    NextIs (exec (.mrdlk port src gvh t) s) fun t_ =>
      (s.dev.lockable port = true → s.dev.get EBR_LOCK.STATE port = 0 → t_.dev.get EBR_LOCK.STATE port = 1 ∧ t_.dev.get EBR_LOCK.OWNER
        port = gvh.val ∧ t_.dev.out = (s.dev.linkTlp port (s.dev.endpointsOf port).head? { t with kind := .memReadLocked }).out) ∧
      (s.dev.lockable port = true → s.dev.get EBR_LOCK.STATE port ≠ 0 → t_.dev.get EBR_LOCK.OWNER port = s.dev.get EBR_LOCK.OWNER port ∧
        if SMap.get 0 s.dev.lockSrc port = src.val then t_.dev.out = (s.dev.linkTlp port (s.dev.endpointsOf port).head?
        { t with kind := .memReadLocked }).out else t_.dev.out = s.dev.out ∧ t_.dev.egress.length = s.dev.egress.length + 1) ∧
      (s.dev.lockable port = false → t_.dev.get EBR_EVENTS.LOCK_REFUSED port = 1 ∧ t_.dev.get EBR_LOCK.STATE port = s.dev.get
        EBR_LOCK.STATE port)) ∧
  (∀ (s : State) (port : Fin 512) (t : Tlp) (withData : Bool) (h : Nat) (e : Trk), s.dev.supply = .on →
    s.dev.matchEntry port t.tag = some (h, e) → e.squashed = false → NextIs (exec (.cpldlk port t withData) s) fun t_ =>
      (s.dev.get EBR_LOCK.STATE port = 1 → t_.dev.get EBR_LOCK.STATE port = if withData then 2 else 0) ∧
      (s.dev.get EBR_LOCK.STATE port ≠ 1 → t_.dev.get EBR_LOCK.STATE port = s.dev.get EBR_LOCK.STATE port)) ∧
  (∀ (s : State) (port : Fin 512) (gvh : Fin 8388608), s.dev.supply = .on → NextIs (exec (.unlock port gvh) s) fun t =>
      (s.dev.get EBR_LOCK.STATE port ≠ 0 → s.dev.get EBR_LOCK.OWNER port = gvh.val → t.dev.get EBR_LOCK.STATE port = 0 ∧ t.dev.out =
        s.dev.out ++ [.unlock port]) ∧
      (s.dev.get EBR_LOCK.STATE port = 0 ∨ s.dev.get EBR_LOCK.OWNER port ≠ gvh.val → t.dev = s.dev)) ∧
  (∀ (s : State) (port : Fin 512), s.dev.supply = .on → s.dev.get EBR_LOCK.STATE port ≠ 0 →
    NextIs (exec (.lockTimerExpiry port) s) fun t =>
      t.dev.get EBR_LOCK.STATE port = 0 ∧ t.dev.get EBR_EVENTS.LOCK_BROKEN port = 1 ∧ Out.unlock port ∈ t.dev.out) ∧
  (∀ (s : State) (queue : Fin 65536), s.dev.supply = .on → NextIs (exec (.lockSideListMove queue) s) fun t =>
      ((t.dev.queue queue).frames = (s.dev.queue queue).frames.dropWhile fun f => s.dev.lockBlocks (queue.val / 128) f.frame) ∧
      ((t.dev.queue queue).side.map (·.frame) = ((s.dev.queue queue).side ++ (s.dev.queue queue).frames.takeWhile fun f =>
        s.dev.lockBlocks (queue.val / 128) f.frame).map (·.frame))) ∧
  (∀ (s : State) (port : Fin 512) (body : Body) (h : Nat) (e : Trk), s.dev.supply = .on → s.dev.armedFor 7 (s.dev.fpid port) = false →
    s.dev.matchEntry port (bodyTag body) = some (h, e) → s.dev.heldTlps = [] → NextIs (exec (.completionReceived port body) s) fun t =>
      (t.dev.trk = if bodyFinal body ∨ e.squashed then SMap.erase s.dev.trk h else s.dev.trk)) ∧
  (∀ (s : State) (handle : Fin 262144) (e : Trk), s.dev.supply = .on → SMap.find s.dev.trk handle = some e → s.dev.heldTlps = [] →
    NextIs (exec (.trackerDeadline handle) s) fun t =>
      t.dev.trk = SMap.erase s.dev.trk handle ∧
      t.dev.tagHolds.map (·.subTag) = s.dev.tagHolds.map (·.subTag) ++ (if e.edge = .requester then [] else [e.subTag]) ∧
      (t.dev.lates.map (·.tag) = s.dev.lates.map (·.tag) ++ (if e.edge = .completer ∨ e.squashed then [] else [e.tag]))) ∧
  (∀ (s : State) (port : Fin 512) (src : Fin 4194304) (body : Body) (l : LateRec), s.dev.supply = .on →
    s.dev.matchLate src (bodyRequester body) (bodyTag body) = some l → NextIs (exec (.lateCompletion port (some src) body) s) fun t =>
      (t.dev.lates = s.dev.lates.filter fun x => x != l)) ∧
  (∀ (s : State) (port : Fin 512) (body : Body) (h : TagHold), s.dev.supply = .on → s.dev.matchHold port (bodyTag body) = some h →
    NextIs (exec (.lateCompletion port none body) s) fun t =>
      (t.dev = if h.squashed then s.dev.dropSquashed h.gvh else s.dev.recordLate port h.gvh h.handle (s.dev.fpid port) h.deadline body)) ∧
  (∀ (s : State) (port : Fin 512) (source : Option (Fin 4194304)) (body : Body), s.dev.supply = .on →
    (source = none → s.dev.matchEntry port (bodyTag body) = none ∧ s.dev.matchHold port (bodyTag body) = none) →
    (((source.map fun x => s.dev.matchLate x (bodyRequester body) (bodyTag body)).all (·.isNone)) = true) →
    NextIs (exec (.unexpectedCompletion port source body) s) fun t =>
      t.dev = s.dev.recordUnexpected port (s.dev.handleAt port) ((source.map (·.val)).getD (s.dev.fpid port)) body) ∧
  (∀ (s : State) (port : Fin 512) (tag : Nat), s.dev.supply = .on → NextIs (exec (.tagQuarantineExpiry port tag) s) fun t =>
      (t.dev.tagHolds = s.dev.tagHolds.filter fun h => !(h.port == port.val && h.subTag == tag))) ∧
  (∀ (s : State) (completer : Fin 4194304) (requester : Fin 65536) (tag : Nat), s.dev.supply = .on →
    NextIs (exec (.lateRecordExpiry completer requester tag) s) fun t =>
      (t.dev.lates = s.dev.lates.filter fun l => !(l.completer == completer.val && l.requester == requester.val && l.tag == tag)))

/-- DRS or the end of its wait lets configuration requests begin, too many RRS fail an endpoint's Accession. PENDING_ENDPOINT_RESET
applies the resets pending on a port whose link is up. A host's PERST_N holds its port, and it, a hot reset or the loss of DL_Active
resets a PRESENTED Vitrine and is held for one that is frozen. DL_Active presents a CREATED Vitrine whose edge is usable. RRS_EXPIRED is
raised while nothing is presented. A removal is signalled, and presence raises HOT_INSERT on the device-facing ports of its cage. -/
def Obligations.ResetsAndPresence : Prop :=
  (∀ (s : State) (port : Fin 512) (ep : Fin 128), s.dev.supply = .on → NextIs (exec (.drsReceived port ep) s) fun t =>
      (t.dev.endpoint port ep).awaitDrs = false ∧ (t.dev.portX port).awaitDrs = false) ∧
  (∀ (s : State) (port : Fin 512) (e : Nat), s.dev.supply = .on → e ∈ s.dev.endpointsOf port →
    NextIs (exec (.drsWaitExpiry port) s) fun t =>
      (t.dev.endpoint port e).awaitDrs = false ∧ (t.dev.portX port).awaitDrs = false) ∧
  (∀ (s : State) (port : Fin 512) (ep : Fin 128), s.dev.supply = .on →
    ((s.dev.endpoint port ep).accession = .running ∨ (s.dev.endpoint port ep).accession = .passed) →
    NextIs (exec (.rrsRetryLimit port ep) s) fun t =>
      (t.dev.endpoint port ep).accession = .failed) ∧
  (∀ (s : State) (port : Fin 512) (e : Nat), s.dev.supply = .on → s.dev.linkUp port = true → e ∈ s.dev.endpointsOf port →
    NextIs (exec (.pendingEndpointReset port) s) fun t =>
      (t.dev.endpoint port e).resetPending = false ∧
      ((s.dev.endpoint port e).resetPending = true → (s.dev.endpoint port e).ldId = none → s.dev.aloneOn port = true → (t.dev.endpoint
        port e).awaitDrs = true)) ∧
  (∀ (s : State) (cage : Fin 64) (p : Nat), s.dev.supply = .on → s.dev.perstPort cage = some p →
    NextIs (exec (.hostPerstAsserted cage) s) fun t =>
      (t.dev.portX p).hostPerst = true ∧ Out.linkReset p "held in Detect" ∈ t.dev.out) ∧
  (∀ (s : State) (cage : Fin 64) (p lv : Nat), s.dev.supply = .on → s.dev.perstPort cage = some p → s.dev.vitrineOfPort p = some lv →
    NextIs (exec (.hostPerstAsserted cage) s) fun t =>
      (s.dev.contained 1 lv = false → s.dev.get VIT_STATE.STATE lv = 4 ∨ s.dev.get VIT_STATE.STATE lv = 5 ∨ s.dev.get VIT_STATE.STATE lv =
        6 → t.dev.get VIT_STATE.HELD_RESET lv = 1 ∧ t.dev.get VIT_STATE.STATE lv = s.dev.get VIT_STATE.STATE lv) ∧
      (s.dev.contained 1 lv = false → s.dev.get VIT_STATE.STATE lv = 2 → (t.dev.get VIT_STATE.STATE lv = 3 ∨ t.dev.get VIT_STATE.STATE lv
        = 2) ∧ (t.dev.vit lv).intx = [])) ∧
  (∀ (s : State) (port : Fin 512) (lv : Nat), s.dev.supply = .on → s.dev.hostFacing port = true → s.dev.vitrineOfPort port = some lv →
    NextIs (exec (.hotResetReceived port) s) fun t =>
      (s.dev.contained 1 lv = false → s.dev.get VIT_STATE.STATE lv = 4 ∨ s.dev.get VIT_STATE.STATE lv = 5 ∨ s.dev.get VIT_STATE.STATE lv =
        6 → t.dev.get VIT_STATE.HELD_RESET lv = 1 ∧ t.dev.get VIT_STATE.STATE lv = s.dev.get VIT_STATE.STATE lv) ∧
      (s.dev.contained 1 lv = false → s.dev.get VIT_STATE.STATE lv = 2 → (t.dev.get VIT_STATE.STATE lv = 3 ∨ t.dev.get VIT_STATE.STATE lv
        = 2) ∧ (t.dev.vit lv).intx = []) ∧
      Out.linkReset port "Hot Reset" ∈ t.dev.out) ∧
  (∀ (s : State) (port : Fin 512), s.dev.supply = .on → s.dev.hostFacing port = true → s.dev.vitrineOfPort port = none →
    NextIs (exec (.hotResetReceived port) s) fun t =>
      t.dev = (s.dev.emit (.linkReset port "Hot Reset")).retrainLink port) ∧
  (∀ (s : State) (port : Fin 512) (lv : Nat), s.dev.supply = .on → s.dev.hostFacing port = true → s.dev.vitrineOfPort port = some lv →
    NextIs (exec (.upstreamDlActiveLost port) s) fun t =>
      (s.dev.contained 1 lv = false → s.dev.get VIT_STATE.STATE lv = 4 ∨ s.dev.get VIT_STATE.STATE lv = 5 ∨ s.dev.get VIT_STATE.STATE lv =
        6 → t.dev.get VIT_STATE.HELD_RESET lv = 1 ∧ t.dev.get VIT_STATE.STATE lv = s.dev.get VIT_STATE.STATE lv) ∧
      (s.dev.contained 1 lv = false → s.dev.get VIT_STATE.STATE lv = 2 → (t.dev.get VIT_STATE.STATE lv = 3 ∨ t.dev.get VIT_STATE.STATE lv
        = 2) ∧ (t.dev.vit lv).intx = []) ∧
      t.dev.get PRT_PORT_STATUS.DL_ACTIVE port = 0) ∧
  (∀ (s : State) (port : Fin 512) (lv : Nat), s.dev.supply = .on → s.dev.hostFacing port = true → s.dev.vitrineOfPort port = some lv →
    NextIs (exec (.upstreamDlActive port) s) fun t =>
      (s.dev.owesDetect.contains port.val = false → t.dev.get PRT_PORT_STATUS.DL_ACTIVE port = 1) ∧
      (t.dev.get VIT_STATE.STATE lv = if s.dev.get VIT_STATE.STATE lv = 1 ∧ s.dev.edgeUsable port = true then 2 else s.dev.get
        VIT_STATE.STATE lv) ∧
      (port.val ∉ t.dev.owesDrs ∨ s.dev.owesDetect.contains port.val = true)) ∧
  (∀ (s : State) (port : Fin 512), s.dev.supply = .on → s.dev.hostFacing port = true →
    (((s.dev.vitrineOfPort port).all fun lv => !s.dev.presented lv) = true) → NextIs (exec (.rrsExpired port) s) fun t =>
      t.dev.get PRT_EVENTS.RRS_EXPIRED port = 1 ∧ port.val ∈ t.dev.owesDetect) ∧
  (∀ (s : State) (port : Fin 512) (presence : Bool) (q : Nat), s.dev.supply = .on →
    q ∈ (if presence then ((s.dev.cagesOf port).flatMap s.dev.portsInCage).eraseDups else [port.val]) → s.dev.deviceFacing q = true →
    NextIs (exec (.surpriseRemoval port presence) s) fun t =>
      t.dev.get PRT_EVENTS.SURPRISE_DOWN q = 1 ∧ t.dev.get SLC_CONT_STATE.STATE (contObj 0 q) ≠ 0 ∧
      t.dev.get SLC_CONT_STATE.CAUSE (contObj 0 q) = 2 ∧ (presence = true → t.dev.get EBR_SIDEBAND.PRSNT q = 0)) ∧
  (∀ (s : State) (cage : Fin 64) (p : Nat), s.dev.supply = .on → p ∈ s.dev.portsInCage cage →
    NextIs (exec (.presenceDebounced cage) s) fun t =>
      t.dev.get EBR_SIDEBAND.PRSNT p = 1 ∧ (s.dev.deviceFacing p = true → t.dev.get PRT_EVENTS.HOT_INSERT p = 1))

/-- ATTENTION_BUTTON shows the button on the ports of its cage. A SIDEBAND_FRAME that is not old updates the virtual slots it concerns:
the power limit, attention, a power fault, presence lost. SLOT_CONTROL_WRITE keeps what it wrote and completes its command. BAR_WRITE sets
the host base of its entry. SECONDARY_BUS_RESET resets the binding's endpoint or keeps Link Disable; ENDPOINT_FLR reaches its endpoint;
DPC_TRIGGER_STATUS_CLEAR clears the status. An idle or requested L1 takes the substate allowed or is refused; L0P_EVALUATION narrows a
lightly used link and restores a busy one. -/
def Obligations.SlotsBarsAndLinkPower : Prop :=
  (∀ (s : State) (cage : Fin 56) (released : Bool) (p : Nat), s.dev.supply = .on → p ∈ s.dev.portsInCage cage →
    NextIs (exec (.attentionButton ⟨cage, released⟩) s) fun t =>
      t.dev.is EBR_SIDEBAND.ATTN p = !released) ∧
  (∀ (s : State) (source : Fin 4194304) (kind : Fin 256) (state value : Byte) (eseq : Word) (front : Fin 16) (lv : Nat) (v : Vit) (b :
      Binding),
    s.dev.supply = .on →
    (((s.dev.sbSeen.find? fun e => e.1 == source.val).all fun e => eseq.toNat == e.2 || !decide ((e.2 + 2 ^ 32 - eseq.toNat) % 2 ^ 32 < 2
      ^ 31)) = true) →
    (lv, v) ∈ s.dev.vits → b ∈ v.bindings → s.dev.concernedBy source front b = true →
    NextIs (exec (.sidebandFrame source kind state value ⟨eseq, front⟩) s) fun t =>
      (source.val, eseq.toNat) ∈ t.dev.sbSeen ∧ (kind = 1 → state = 0 → (t.dev.vport lv b.k).presence = false) ∧
      (kind = 2 → state = 1 → (t.dev.vport lv b.k).attention = true) ∧ (kind = 3 → state = 1 → (t.dev.vport lv b.k).powerFault = true) ∧
      (kind = 4 → (t.dev.vport lv b.k).splValue = value.toNat ∧ (t.dev.vport lv b.k).splScale = state.toNat % 4)) ∧
  (∀ (s : State) (lvid : Fin 1024) (k : Fin 64) (off : Bool) (attention power : Fin 4) (interrupt : Bool) (enables : Fin 8192),
    s.dev.supply = .on → NextIs (exec (.slotControlWrite lvid k off attention power ⟨interrupt, enables⟩) s) fun t =>
      (t.dev.vport lvid k).powerOff = off ∧ (t.dev.vport lvid k).attnInd = attention.val ∧ (t.dev.vport lvid k).pwrInd = power.val ∧
      (t.dev.vport lvid k).hotplugIntEnable = interrupt ∧ (t.dev.vport lvid k).slotEnables = enables.val &&& 0x101B ∧
      (t.dev.vport lvid k).commandCompleted = true) ∧
  (∀ (s : State) (lvid : Fin 1024) (k : Fin 64) (bar : Fin 6) (upper wide : Bool) (value : Word) (b : Binding) (a : Nat),
    s.dev.supply = .on → (s.dev.vit lvid).binding k = some b → b.atts[bar.val]? = some a →
    NextIs (exec (.barWrite lvid k bar upper wide value) s) fun t =>
      (value.toNat ≠ 2 ^ 32 - 1 → (SMap.get {} t.dev.atts a).host = barBase (SMap.get {} s.dev.atts a).host (SMap.get {} s.dev.atts
        a).sizeLog2 upper value.toNat) ∧
      (value.toNat = 2 ^ 32 - 1 → (SMap.get {} t.dev.atts a).valid = false)) ∧
  (∀ (s : State) (lvid : Fin 1024) (k : Fin 64) (disable : Option Bool), s.dev.supply = .on →
    NextIs (exec (.secondaryBusReset lvid k disable) s) fun t =>
      (disable = none → t.dev = (((s.dev.vit lvid).binding k).map s.dev.resetBinding).getD s.dev) ∧
      ((disable.all fun on => (t.dev.vport lvid k).linkDisable == on) = true)) ∧
  (∀ (s : State) (port : Fin 512) (t : Tlp) (lv : Nat) (b : Binding) (f : Frame) (w : Nat), s.dev.supply = .on →
    s.dev.vitrineOfPort port = some lv → s.dev.get VIT_STATE.STATE lv = 2 → s.dev.cfgTarget lv t.target = .endpoint b →
    s.dev.hostReaches lv b = true → edgeFrame (s.dev.fpid port) b.fpid (s.dev.gvh lv) b.cls (.tlp { t with kind := .cfgWrite }) = f →
    s.dev.heldTlps = [] → s.dev.cellsMayGo port = true → s.dev.frozenAt port (s.dev.gvh lv) = false → s.dev.winOf f.src f.dst = some w →
    s.dev.canInject f = true →
    (((s.dev.need port b.fpid (s.dev.gvh lv) b.k b.cls true f.body).all fun e => (s.dev.entryWait e).isNone) = true) →
    NextIs (exec (.endpointFlr port t) s) fun t_ =>
      t_.dev.arrived = s.dev.arrived ++ [(port.val,
        { f with fseq := (s.dev.win w).fseq.getD f.cls.code 0, itime := s.dev.now % 2 ^ 32, hops := 0 })] ∧
      t_.dev.trk.length = s.dev.trk.length + 1) ∧
  (∀ (s : State) (lvid : Fin 1024) (k : Fin 64), s.dev.supply = .on → NextIs (exec (.dpcTriggerStatusClear lvid k) s) fun t =>
      (t.dev.vport lvid k).dpcStatus = false) ∧
  (∀ (s : State) (port : Fin 512) (enabled : Fin 8) (lv : Nat), s.dev.supply = .on → s.dev.vitrineOfPort port = some lv →
    (s.dev.vit lv).aspmL1 = true → s.dev.is PRT_PORT_STATUS.DL_ACTIVE port = true →
    NextIs (exec (.aspmL1IdleTimer port enabled) s) fun t =>
      (((s.dev.l1Substate port enabled).all fun n => t.dev.get PRT_PORT_STATUS.LINK_PM port == (2 + n) % 16 && t.dev.get
        PRT_PORT_STATUS.LTSSM port == 5) = true) ∧
      (s.dev.l1Substate port enabled = none → t.dev = s.dev)) ∧
  (∀ (s : State) (port : Fin 512) (enabled : Fin 8), s.dev.supply = .on → s.dev.deviceFacing port = true →
    NextIs (exec (.endpointL1Request port enabled) s) fun t =>
      (((s.dev.l1Substate port enabled).all fun n => t.dev.get PRT_PORT_STATUS.LINK_PM port == (2 + n) % 16 && t.dev.get
        PRT_PORT_STATUS.LTSSM port == 5) = true) ∧
      (s.dev.l1Substate port enabled = none → t.dev.get PRT_EVENTS.L1_REFUSED port = 1)) ∧
  (∀ (s : State) (port : Fin 512) (util : Fin 1001) (supported : Bool), s.dev.supply = .on → s.dev.fabricPort port = false →
    s.dev.is PRT_PORT_STATUS.FLIT port = true → s.dev.is PRT_PORT_STATUS.DL_ACTIVE port = true →
    NextIs (exec (.l0pEvaluation port util supported) s) fun t =>
      (t.dev.get PRT_PORT_STATUS.LINK_PM port = if s.dev.get PRT_PORT_STATUS.LINK_PM port = 0 ∧ s.dev.get PWR_PS_STATUS.STATE 0 ≠ 0 ∧
        s.dev.is PRT_PM_CFG.L0P_EN port = true ∧ supported = true ∧ util.val < 200 ∧ 1 ≤ s.dev.get PRT_PORT_STATUS.WIDTH port then 1 else
        if s.dev.get PRT_PORT_STATUS.LINK_PM port = 1 ∧ 350 < util.val then 0 else s.dev.get PRT_PORT_STATUS.LINK_PM port))

/-- FRAME_ROUTE takes the first arrived frame and routes it to its port of this module, or to the port of its path to another.
FRAME_ADMISSION takes the first routed frame and puts it at the end of its queue where a region admits it. FRAME_SELECTION takes the head
of the selected queue; at an edge a frame without cell errors goes on to egress. AGE_DISCARD and QUEUE_HEAD_AGE_CHECK discard the aged
heads of a queue. LINK_ECC squashes a queue, and CELL_AUDIT opens the broken queues again. -/
def Obligations.BasinAndSelection : Prop :=
  (∀ (s : State) (ingress : Nat) (f : Frame) (rest : List (Nat × Frame)), s.dev.supply = .on → s.dev.arrived = (ingress, f) :: rest →
    NextIs (exec .frameRoute s) fun t =>
      t.dev.arrived = rest ∧
      (s.dev.badHeader ingress f = false → f.ftype ≠ 4 → f.ftype ≠ 5 ∨ f.hops ≠ 0 ∨ formationBody f.body = false → fpidModule f.dst =
        s.dev.moduleId → (internalPort (fpidPort f.dst) || s.dev.hostFacing (fpidPort f.dst) || s.dev.deviceFacing (fpidPort f.dst)) =
        true → t.dev.routed = s.dev.routed ++ [(ingress, fpidPort f.dst, f)]) ∧
      (s.dev.badHeader ingress f = false → f.ftype ≠ 4 → f.ftype ≠ 5 ∨ f.hops ≠ 0 ∨ formationBody f.body = false → fpidModule f.dst ≠
        s.dev.moduleId → s.dev.reachable (fpidModule f.dst) = true → f.hops + s.dev.get RTE_MRT.DIST (fpidModule f.dst) ≤ 4 → t.dev.routed
        = s.dev.routed ++ ((s.dev.pathPort f).toList.map fun (p : Nat) => (ingress, p, f))) ∧
      (s.dev.badHeader ingress f = true → t.dev.get RTE_EVENTS.BAD_HEADER 0 = 1 ∧ t.dev.routed = s.dev.routed)) ∧
  (∀ (s : State) (ingress p slot : Nat) (f : Frame) (rest : List (Nat × Nat × Frame)), s.dev.supply = .on →
    s.dev.routed = (ingress, p, f) :: rest → s.dev.slotOf p f = some slot → NextIs (exec .frameAdmission s) fun t =>
      t.dev.routed = rest ∧
      (s.dev.get BSN_Q_STATUS.STATE (queueNo p (f.cls.code * 32 + slot)) ≠ 3 → (s.dev.admitRegion p (queueNo p (f.cls.code * 32 + slot))
        f).isSome = true → (t.dev.queue (queueNo p (f.cls.code * 32 + slot))).frames.map (·.frame) = (s.dev.queue (queueNo p (f.cls.code *
        32 + slot))).frames.map (·.frame) ++ [f]) ∧
      (s.dev.get BSN_Q_STATUS.STATE (queueNo p (f.cls.code * 32 + slot)) = 3 ∨ s.dev.admitRegion p (queueNo p (f.cls.code * 32 + slot)) f
        = none → (t.dev.queue (queueNo p (f.cls.code * 32 + slot))).frames = (s.dev.queue (queueNo p (f.cls.code * 32 + slot))).frames)) ∧
  (∀ (s : State) (port : Fin 512) (cells : CellError) (q : Nat) (d d2 : Dev) (f : QFrame), s.dev.supply = .on →
    s.dev.canStart port = true → s.dev.readyPort port = d → d.selectQueue port = (some q, d2) → d.cellsFit port q = true →
    d.headOf q = some f → NextIs (exec (.frameSelection port cells) s) fun t =>
      (t.dev.queue q).frames = (d.queue q).frames.tail ∧
      (s.dev.fabricPort port = false → internalPort port = false → cells = .clean → s.dev.armedFor 8 (queueNo port 0) = false →
        s.dev.injections = [] → t.dev.egress = d.egress ++ [(port.val, f.frame)])) ∧
  (∀ (s : State) (queue : Fin 65536), s.dev.supply = .on → NextIs (exec (.ageDiscard queue) s) fun t =>
      (t.dev.queue queue).frames = (s.dev.queue queue).frames.dropWhile (s.dev.aged false)) ∧
  (∀ (s : State) (q : Nat), s.dev.supply = .on → q ∈ s.dev.queues.map (·.1) → NextIs (exec .queueHeadAgeCheck s) fun t =>
      (t.dev.queue q).frames = (s.dev.queue q).frames.dropWhile (s.dev.aged false)) ∧
  (∀ (s : State) (queue : Fin 65536) (reach : Nat), s.dev.supply = .on → NextIs (exec (.linkEcc queue reach) s) fun t =>
      t.dev.get BSN_Q_STATUS.STATE queue = 3 ∧ (t.dev.queue queue).frames = [] ∧ t.dev.get BSN_EVENTS.LINK_ECC 0 = 1 ∧
      queue.val ∈ t.dev.brokenQueues ∧ (t.dev.queue queue).orphans = (s.dev.queue queue).orphans ++ (s.dev.queue queue).frames.drop reach) ∧
  (∀ (s : State) (missing : Bool), s.dev.supply = .on → NextIs (exec (.cellAudit missing) s) fun t =>
      t.dev.brokenQueues = [] ∧
      ((s.dev.brokenQueues.all fun q => t.dev.get BSN_Q_STATUS.STATE q == 0 && (t.dev.queue q).orphans == []) = true) ∧
      (missing = true → t.dev.get BSN_EVENTS.CELL_AUDIT 0 = 1))

/-- LINK_WITHDRAWAL marks the slots of a fabric link's port. By the Curator, a write of a slot sets it anew with WITHDRAWN clear, a write
of word 0 of a pin or translation entry puts the entry in force; any other master changes neither register nor entry. PIN_CUT_POINT makes
the pending entries whose TCUT has come the path; REPIN_ABORTED puts back the old path of those that not every module acknowledged;
OLD_PATH_EXPIRY ends an old path 100 ms later. A DRAIN for a port of this module is acknowledged, and DRAIN_ACK and DRAIN_CAP_EXPIRY end
the drain of their class. -/
def Obligations.RoutesAndPins : Prop :=
  (∀ (s : State) (port : Fin 512) (i : Nat), s.dev.supply = .on → s.dev.fabricPort port = true → i ∈ s.dev.instances RTE_GRP_SLOT.VALID →
    s.dev.get RTE_GRP_SLOT.PORT i = port.val → NextIs (exec (.linkWithdrawal port) s) fun t =>
      t.dev.get RTE_GRP_SLOT.WITHDRAWN i = 1 ∧ t.dev.get RTE_EVENTS.LINK_WITHDRAWN 0 = 1) ∧
  (∀ (s : State) (master : Fin 2048) (slot : Fin 65536) (value : Word), s.dev.supply = .on →
    NextIs (exec (.withdrawnClear master slot value) s) fun t =>
      (master = 0 → t.dev.get RTE_GRP_SLOT.WITHDRAWN slot = 0 ∧ t.dev.is RTE_GRP_SLOT.VALID slot = bitOf value.toNat 31 ∧ t.dev.get
        RTE_GRP_SLOT.PORT slot = bitsOf value.toNat 8 0) ∧
      (master ≠ 0 → t.dev.word .RTE_GRP_SLOT slot = s.dev.word .RTE_GRP_SLOT slot)) ∧
  (∀ (s : State) (master : Fin 2048) (entry : Fin 16384) (value : Word), s.dev.supply = .on →
    NextIs (exec (.pathPinEntryWrite master entry value) s) fun t =>
      (master = 0 → (SMap.get {} t.dev.pins entry).valid = bitOf value.toNat 31 ∧ (SMap.get {} t.dev.pins entry).pending = bitOf
        value.toNat 30 ∧ (SMap.get {} t.dev.pins entry).newPort = bitsOf value.toNat 8 0 ∧ (SMap.get {} t.dev.pins entry).src = s.dev.get
        PIN_SRC.FPID entry ∧ (SMap.get {} t.dev.pins entry).dst = s.dev.get PIN_DST.FPID entry) ∧
      (master ≠ 0 → t.dev.pins = s.dev.pins)) ∧
  (∀ (s : State) (n : Nat) (e : Pin), s.dev.supply = .on → (s.dev.pins.map (·.1)).Nodup → (n, e) ∈ s.dev.pins → e.valid = true →
    e.pending = true → NextIs (exec .pinCutPoint s) fun t =>
      (e.tcut ≤ s.dev.now → SMap.get {} t.dev.pins n = { e with pending := false } ∧ t.dev.get PIN_CTL.PENDING n = 0) ∧
      (s.dev.now < e.tcut → SMap.get {} t.dev.pins n = SMap.get {} s.dev.pins n)) ∧
  (∀ (s : State) (tcut : Nat) (modules : List (Fin 8192)) (command : Option CmdHdr) (n : Nat) (e : Pin), s.dev.supply = .on →
    (s.dev.pins.map (·.1)).Nodup → ((modules.any fun m => !s.dev.pinAcks.contains (tcut, m.val)) = true) → (n, e) ∈ s.dev.pins →
    e.pending = true → e.tcut = tcut → NextIs (exec (.repinAborted tcut modules command) s) fun t =>
      SMap.get {} t.dev.pins n = { e with pending := false, valid := e.oldValid, newPort := e.oldPort, oldValid := false } ∧
      t.dev.get RTE_EVENTS.REPIN_ABORTED 0 = 1) ∧
  (∀ (s : State) (src dst : Fin 4194304) (cls : Cls), s.dev.supply = .on → NextIs (exec (.drain src dst cls) s) fun t =>
      (t.dev = if fpidModule dst = s.dev.moduleId then s.dev.mgmt (fpidPort dst) src (.drainAck src dst cls) else s.dev)) ∧
  (∀ (s : State) (src dst : Fin 4194304) (cls : Cls) (w : Nat), s.dev.supply = .on → s.dev.winOf src dst = some w →
    NextIs (exec (.drainAck src dst cls) s) fun t =>
      (t.dev.win w).drain = (s.dev.win w).drain.filter (· ≠ cls)) ∧
  (∀ (s : State) (window : Fin 32768) (cls : Cls), s.dev.supply = .on → NextIs (exec (.drainCapExpiry window cls) s) fun t =>
      (t.dev.win window).drain = (s.dev.win window).drain.filter (· ≠ cls)) ∧
  (∀ (s : State) (n : Nat) (e : Pin), s.dev.supply = .on → (s.dev.pins.map (·.1)).Nodup → (n, e) ∈ s.dev.pins → e.oldValid = true →
    e.pending = false → msTicks 100 ≤ sinceTicks e.tcut s.dev.now → NextIs (exec .oldPathExpiry s) fun t =>
      SMap.get {} t.dev.pins n = { e with oldValid := false } ∧ t.dev.get PIN_OLD.OLD_VALID n = 0) ∧
  (∀ (s : State) (master : Fin 2048) (entry : Fin 65536) (value : Word), s.dev.supply = .on →
    NextIs (exec (.attEntryWrite master entry value) s) fun t =>
      (master = 0 → (SMap.get {} t.dev.atts entry).valid = bitOf value.toNat 31 ∧ (SMap.get {} t.dev.atts entry).sizeLog2 = bitsOf
        value.toNat 21 16 ∧ (SMap.get {} t.dev.atts entry).fpid = s.dev.get ATT_FPID.FPID entry) ∧
      (master ≠ 0 → t.dev.atts = s.dev.atts))

/-- SHAPER_WHEEL_SLOT gives a due shaper its tokens. By the Curator, WR_SHP_RATE commits rate and burst, an out-of-range rate excepted,
and the pending bank's COUNT is taken where the bank is valid and not active; other masters change neither. At T_START the pending list,
or none, becomes active; a boundary shows the gates of the moment. GUARD_BAND_RECOMPUTE sets the guard band, B_OVERSIZE discards a class B
head above B_MAX, and SHAPER_AUDIT reports a shaper above its bound and starts its count anew. -/
def Obligations.SchedulingAndGates : Prop :=
  (∀ (s : State) (n due : Nat) (x : Shaper), s.dev.supply = .on → (s.dev.shapers.map (·.1)).Nodup → (n, x) ∈ s.dev.shapers →
    x.wheel = some (1, due) → bitsOf due 18 7 = bitsOf s.dev.weir 18 7 → due ≤ s.dev.weir → NextIs (exec .shaperWheelSlot s) fun t =>
      (t.dev.shaper n).wheel = none ∧ (t.dev.shaper n).exact = max 0 (s.dev.tokens n) ∧ (t.dev.shaper n).at_ = s.dev.weir) ∧
  (∀ (s : State) (master : Fin 2048) (value : Word) (n : Nat), s.dev.supply = .on → s.dev.get WR_SHP_SEL.SHAPER 0 = n →
    NextIs (exec (.wrShpRateWrite master value) s) fun t =>
      (master = 0 → t.dev.get WR_SHP_RATE.RATE_MBPS n = (if bitsOf value.toNat 20 0 ≤ 2048000 then bitsOf value.toNat 20 0 else s.dev.get
        WR_SHP_RATE.RATE_MBPS n) ∧ (t.dev.shaper n).burst = s.dev.get WR_SHP_BURST.BURST n ∧ (t.dev.shaper n).wheel = none) ∧
      (master ≠ 0 → t.dev.get WR_SHP_RATE.RATE_MBPS n = s.dev.get WR_SHP_RATE.RATE_MBPS n ∧ t.dev.shapers = s.dev.shapers)) ∧
  (∀ (s : State) (master : Fin 2048) (port : Fin 512) (bank : Fin 2) (value : Word), s.dev.supply = .on →
    NextIs (exec (.gateBankCountWrite master port bank value) s) fun t =>
      (master ≠ 0 ∨ s.dev.bankActive port bank = true → t.dev.word .GATE_COUNT (port.val * 2 + bank.val) = s.dev.word .GATE_COUNT
        (port.val * 2 + bank.val)) ∧
      (master = 0 → s.dev.bankActive port bank = false → value.toNat = 0 → t.dev.get GATE_COUNT.COUNT (port.val * 2 + bank.val) = 0 ∧
        (s.dev.is WR_GATE_STATUS.LIST port = true → t.dev.get WR_GATE_STATUS.PENDING port = 1 ∧ (t.dev.outPort port).noList = true)) ∧
      (master = 0 → s.dev.bankActive port bank = false → bitsOf value.toNat 8 0 ≠ 0 → ((s.dev.put GATE_COUNT.COUNT (port.val * 2 +
        bank.val) (bitsOf value.toNat 8 0)).put GATE_COUNT.RSV (port.val * 2 + bank.val) (bitsOf value.toNat 31 9)).bankOk (port.val * 2 +
        bank.val) = true → t.dev.get GATE_COUNT.COUNT (port.val * 2 + bank.val) = bitsOf value.toNat 8 0 ∧ t.dev.get
        WR_GATE_STATUS.PENDING port = 1 ∧ (t.dev.outPort port).noList = false ∧ (t.dev.outPort port).tstart.isSome = true)) ∧
  (∀ (s : State) (port : Fin 512) (start : Nat), s.dev.supply = .on → (s.dev.outPort port).tstart = some start →
    NextIs (exec (.gateListStart port) s) fun t =>
      t.dev.get WR_GATE_STATUS.PENDING port = 0 ∧ t.dev.is WR_GATE_STATUS.LIST port = !(s.dev.outPort port).noList ∧
      (t.dev.get WR_GATE_STATUS.BANK port = if (s.dev.outPort port).noList then s.dev.get WR_GATE_STATUS.BANK port else (1 - s.dev.get
        WR_GATE_STATUS.BANK port) % 2) ∧
      (t.dev.outPort port).tstart = none) ∧
  (∀ (s : State) (port : Fin 512), s.dev.supply = .on → NextIs (exec (.gateEntryBoundary port) s) fun t =>
      (s.dev.is WR_GATE_STATUS.LIST port = false → t.dev = s.dev) ∧
      (s.dev.is WR_GATE_STATUS.LIST port = true → t.dev.word .WR_GATE_STATUS port = (s.dev.showGates port).word .WR_GATE_STATUS port) ∧
      (s.dev.is WR_GATE_STATUS.LIST port = true → s.dev.sOpen port = false → (s.dev.showGates port).sOpen port = true → (s.dev.showGates
        port).sWaiting port = true → (t.dev.outPort port).waitS = some s.dev.now)) ∧
  (∀ (s : State) (port : Fin 512), s.dev.supply = .on → NextIs (exec (.guardBandRecompute port) s) fun t =>
      t.dev.get WR_PORT_GUARD.GUARD_NS port = s.dev.tx port (s.dev.get WR_PORT_CFG.B_MAX port) % 2 ^ 16) ∧
  (∀ (s : State) (queue : Fin 65536) (f : QFrame), s.dev.supply = .on → s.dev.headOf queue = some f → f.frame.cls = .b →
    s.dev.get WR_PORT_CFG.B_MAX (queue.val / 128) < f.frame.len → NextIs (exec (.bOversize queue) s) fun t =>
      (t.dev.queue queue).frames = (s.dev.queue queue).frames.tail ∧ t.dev.get WR_PORT_EVENTS.B_OVERSIZE (queue.val / 128) = 1) ∧
  (∀ (s : State) (faulty : List (Fin 16384)) (n : Nat) (x : Shaper), s.dev.supply = .on → (s.dev.shapers.map (·.1)).Nodup →
    (n, x) ∈ s.dev.shapers → NextIs (exec (.shaperAudit faulty) s) fun t =>
      (t.dev.shaper n).sent = 0 ∧ (t.dev.shaper n).since = s.dev.weir ∧
      (s.dev.get WR_SHP_RATE.RATE_MBPS n ≠ 0 → x.burst * 64 + 4160 + s.dev.get WR_SHP_RATE.RATE_MBPS n * (s.dev.weir - x.since + 128) /
        128000 < x.sent ∨ (faulty.map (·.val)).contains n = true → t.dev.get WR_EVENTS.SHAPER_AUDIT 0 = 1))

/-- Carried out on this module: SHAPER_SET within its ranges, of the module or of a Vitrine that owns shaper and queues, writes rate,
burst and the queues' shaper and ends OK; QUANTUM_SET writes the quantum; GATE_LIST_LOAD ends with the status of its check and, where that
is none, leaves B_MAX as asked; AGE_LIMIT_SET without a conflict writes the limit of its class. -/
def Obligations.SchedulingCommands : Prop :=
  (∀ (s : State) (h : CmdHdr) (shaper : Fin 65536) (flags : Byte) (queues : List (Fin 65536)) (owner rate burst : Word) (x :
      ShaperSetting),
    s.dev.supply = .on → s.dev.CarriesOut h 0x0401 [1] s.dev.moduleId → owner.toNat = 0xFFFFFFFF →
    (⟨shaper, flags.toNat, queues.map (·.val), rate.toNat, burst.toNat⟩ : ShaperSetting) = x → x.bad false = none →
    ((x.queues.any fun q => q % 32 == 31) = false) → NextIs (exec (.shaperSet h shaper flags queues owner rate burst) s) fun t =>
      t.dev.Ends h 0x0401 Status.ok ∧ t.dev.get WR_SHP_RATE.RATE_MBPS shaper = rate.toNat ∧
      t.dev.get WR_SHP_BURST.BURST shaper = burst.toNat / 64 % 2 ^ 15 ∧ (t.dev.shaper shaper).wheel = none ∧
      ((x.queues.all fun q => t.dev.is WR_Q_CFG.SHAPED q && t.dev.get WR_Q_CFG.SHAPER q == shaper.val) = true)) ∧
  (∀ (s : State) (h : CmdHdr) (shaper : Fin 65536) (flags : Byte) (queues : List (Fin 65536)) (owner rate burst : Word) (x :
      ShaperSetting) (lv : Nat),
    s.dev.supply = .on → s.dev.CarriesOut h 0x0401 [1] s.dev.moduleId → s.dev.lvidOf (gvhField owner.toNat) = some lv →
    s.dev.objectHeld h (Wait.holdsVitrine lv) = false → s.dev.recording h 0x0401 (gvhField owner.toNat) = false →
    owner.toNat ≠ 0xFFFFFFFF → (⟨shaper, flags.toNat, queues.map (·.val), rate.toNat, burst.toNat⟩ : ShaperSetting) = x →
    x.bad true = none → (s.dev.vit lv).shapers.contains shaper.val = true →
    ((x.queues.any fun q => q % 32 == 31 || !(s.dev.queuesOf (s.dev.gvh lv) fun _ => true).contains q) = false) →
    NextIs (exec (.shaperSet h shaper flags queues owner rate burst) s) fun t =>
      (shaper.val ≠ 0xFFFF → t.dev.get WR_SHP_RATE.RATE_MBPS shaper = rate.toNat ∧ t.dev.get WR_SHP_BURST.BURST shaper = burst.toNat / 64
        % 2 ^ 15)) ∧
  (∀ (s : State) (h : CmdHdr) (queue : Fin 65536) (quantum : Word), s.dev.supply = .on → s.dev.CarriesOut h 0x0402 [1] s.dev.moduleId →
    64 ≤ queue.val % 128 → quantum.toNat % 64 = 0 → quantum.toNat ≠ 0 → quantum.toNat ≤ 1048576 →
    NextIs (exec (.quantumSet h queue quantum) s) fun t =>
      t.dev.Ends h 0x0402 Status.ok ∧ t.dev.get WR_Q_CFG.QUANTUM queue = quantum.toNat / 64) ∧
  (∀ (s : State) (h : CmdHdr) (fpid : Word) (count bmax : Fin 65536) (base : Nat) (cycle : Word) (addr : Nat) (source : Fetch) (p : Nat)
      (r : Option (Nat × Nat)),
    s.dev.supply = .on → s.dev.CarriesOut h 0x0403 [1] (fpidModule (fpidField fpid.toNat)) → fpidPort (fpidField fpid.toNat) = p →
    s.dev.gatesRefused p count bmax (base % 2 ^ 64) cycle.toNat (fetched s.mem source addr (4 * count.val)) = r →
    NextIs (exec (.gateListLoad h fpid count bmax base cycle addr source) s) fun t =>
      t.dev.Ends h 0x0403 ((r.map (·.1)).getD Status.ok) ∧
      (t.dev.get WR_PORT_CFG.B_MAX p = if r = none ∧ bmax.val ≠ 0 then bmax.val else s.dev.get WR_PORT_CFG.B_MAX p) ∧
      (r = none → count.val ≠ 0 → t.dev.get WR_GATE_STATUS.PENDING p = 1)) ∧
  (∀ (s : State) (h : CmdHdr) (cls : Byte) (limit : Word), s.dev.supply = .on → s.dev.CarriesOut h 0x0404 [1] s.dev.moduleId →
    cls.toNat ≤ 3 → 1 ≤ limit.toNat → limit.toNat ≤ 1000000 → s.dev.ageClash cls.toNat limit.toNat = false →
    NextIs (exec (.ageLimitSet h cls limit) s) fun t =>
      t.dev.Ends h 0x0404 Status.ok ∧
      [t.dev.get BSN_AGE_S.LIMIT_US 0, t.dev.get BSN_AGE_C.LIMIT_US 0, t.dev.get BSN_AGE_L.LIMIT_US 0, t.dev.get BSN_AGE_B.LIMIT_US
        0].getD cls.toNat 0 = limit.toNat)

/-- VITRINE_CREATE leaves a Vitrine with its handle, port and size, CREATED, or PRESENTED on a port that is DL_Active. BIND_ENDPOINT adds
the binding and gives the endpoint to it; UNBIND_ENDPOINT and VITRINE_DESTROY begin, or end at once. VITRINE_SET changes the timeout code
and the silent flag. A hot reset takes a PRESENTED Vitrine to RESETTING, or back to PRESENTED with nothing in flight, and is held for one
that is freezing, frozen or saved. An in-flight count of zero, or its timeout, ends the freeze, reset or unbinding that waits for it. -/
def Obligations.VitrineLifecycle : Prop :=
  (∀ (s : State) (h : CmdHdr) (fpid : Word) (lvid : Fin 65536) (nvdp cto : Byte) (flags minimum quota : Word) (shapers channels : Byte)
      (p lv : Nat) (x : VitrineSetting),
    s.dev.supply = .on → s.dev.CarriesOut h 0x0201 [1] (fpidModule (fpidField fpid.toNat)) → fpidPort (fpidField fpid.toNat) = p →
    badVitrine lvid nvdp.toNat cto.toNat flags.toNat minimum.toNat quota.toNat shapers.toNat = none →
(({ lvid := lvid, nvdp := nvdp.toNat, cto := cto.toNat, silent := bitOf flags.toNat 0, slotPower := bitOf flags.toNat 1, minimum := if minimum.toNat = 0xFFFFFFFF then 512 else minimum.toNat, quota := if quota.toNat = 0 then 2048 else quota.toNat, shapers := shapers.toNat, channels := channels.toNat }
      : VitrineSetting) = x) →
    s.dev.createCheck p x = .inl lv → NextIs (exec (.vitrineCreate h fpid lvid nvdp cto flags minimum quota shapers channels) s) fun t =>
      t.dev.Ends h 0x0201 Status.ok ∧ (t.dev.get VIT_STATE.STATE lv = if s.dev.is PRT_PORT_STATUS.DL_ACTIVE p then 2 else 1) ∧
      t.dev.get VIT_STATE.GVH lv = gvhOf s.dev.moduleId lv % 2 ^ 23 ∧ t.dev.get VIT_PORT.UPORT lv = p % 2 ^ 9 ∧
      t.dev.get VIT_PORT.NVDP lv = nvdp.toNat % 2 ^ 7 ∧ (t.dev.vit lv).live = true ∧ (t.dev.vit lv).silent = bitOf flags.toNat 0 ∧
      t.dev.get TRK_VIT_QUOTA.QUOTA lv = x.quota) ∧
  (∀ (s : State) (h : CmdHdr) (gvh : Word) (lv : Nat), s.dev.supply = .on → s.dev.CarriesOut h 0x0202 [1] s.dev.moduleId →
    s.dev.lvidOf (gvhField gvh.toNat) = some lv → s.dev.objectHeld h (Wait.holdsDestroy lv) = false →
    s.dev.recording h 0x0202 (gvhField gvh.toNat) = false → NextIs (exec (.vitrineDestroy h gvh) s) fun t =>
      (s.dev.get VIT_STATE.STATE lv = 7 → t.dev.Ends h 0x0202 Status.ok ∧ (t.dev.vit lv).live = false) ∧
      (s.dev.get VIT_STATE.STATE lv = 8 → t.dev.Ends h 0x0202 Status.badState ∧ t.dev.get VIT_STATE.STATE lv = 8) ∧
      (s.dev.get VIT_STATE.STATE lv ≠ 7 → s.dev.get VIT_STATE.STATE lv ≠ 8 → t.dev.get VIT_STATE.STATE lv = 8 ∨ (t.dev.vit lv).live =
        false)) ∧
  (∀ (s : State) (h : CmdHdr) (gvh fpid : Word) (ld k cls : Byte) (share : Fin 65536) (far : RemoteEp) (b : Binding) (d : Dev) (lv :
      Nat),
    s.dev.supply = .on → s.dev.CarriesOut h 0x0203 [1] s.dev.moduleId → s.dev.lvidOf (gvhField gvh.toNat) = some lv →
    s.dev.objectHeld h (Wait.holdsVitrine lv) = false → s.dev.recording h 0x0203 (gvhField gvh.toNat) = false →
    badBind (fpidPort (fpidField fpid.toNat)) ld.toNat cls.toNat share = none →
    s.dev.bindingFor lv (fpidField fpid.toNat) ld.toNat k.toNat cls.toNat share far = .inl b →
    s.dev.bindSteps lv b far.spl (s.dev.barsOf b far) = .inr d → NextIs (exec (.bindEndpoint h gvh fpid ld k cls share far) s) fun t =>
      t.dev.Ends h 0x0203 Status.ok ∧
      (t.dev.vit lv).bindings.map (fun b => (b.k, b.fpid, b.ep)) = (s.dev.vit lv).bindings.map (fun b => (b.k, b.fpid, b.ep)) ++
        [(k.toNat, fpidField fpid.toNat, b.ep)] ∧
      (fpidModule b.fpid = s.dev.moduleId → (t.dev.endpoint (fpidPort b.fpid) b.ep).bound.map (fun x => (x.k, x.gvh)) = some (k.toNat,
        s.dev.gvh lv))) ∧
  (∀ (s : State) (h : CmdHdr) (gvh : Word) (k : Byte) (b : Binding) (lv : Nat), s.dev.supply = .on →
    s.dev.CarriesOut h 0x0204 [1] s.dev.moduleId → s.dev.lvidOf (gvhField gvh.toNat) = some lv →
    s.dev.objectHeld h (Wait.holdsVitrine lv) = false → s.dev.recording h 0x0204 (gvhField gvh.toNat) = false →
    (s.dev.get VIT_STATE.STATE lv = 1 ∨ s.dev.get VIT_STATE.STATE lv = 2) → (s.dev.vit lv).binding k.toNat = some b →
    NextIs (exec (.unbindEndpoint h gvh k) s) fun t =>
      ((t.dev.vit lv).binding k.toNat).all (·.unbinding) = true) ∧
  (∀ (s : State) (h : CmdHdr) (gvh : Word) (cto flags : Byte) (lv : Nat), s.dev.supply = .on →
    s.dev.CarriesOut h 0x0205 [1] s.dev.moduleId → s.dev.lvidOf (gvhField gvh.toNat) = some lv →
    s.dev.objectHeld h (Wait.holdsVitrine lv) = false → s.dev.recording h 0x0205 (gvhField gvh.toNat) = false →
    ctoTicks cto.toNat ≠ none → flags.toNat ≤ 1 → 1 ≤ s.dev.get VIT_STATE.STATE lv → s.dev.get VIT_STATE.STATE lv ≤ 3 →
    NextIs (exec (.vitrineSet h gvh cto flags) s) fun t =>
      t.dev.Ends h 0x0205 Status.ok ∧ (t.dev.vit lv).ctoCode = cto.toNat ∧ (t.dev.vit lv).silent = bitOf flags.toNat 0) ∧
  (∀ (s : State) (lvid : Fin 1024), s.dev.supply = .on → NextIs (exec (.vitrineHotReset lvid) s) fun t =>
      (s.dev.contained 1 lvid = true → t.dev.get VIT_STATE.STATE lvid = s.dev.get VIT_STATE.STATE lvid ∧ (t.dev.vit lvid).intx = []) ∧
      (s.dev.contained 1 lvid = false → s.dev.get VIT_STATE.STATE lvid = 4 ∨ s.dev.get VIT_STATE.STATE lvid = 5 ∨ s.dev.get
        VIT_STATE.STATE lvid = 6 → t.dev = s.dev.put VIT_STATE.HELD_RESET lvid 1) ∧
      (s.dev.contained 1 lvid = false → s.dev.get VIT_STATE.STATE lvid = 2 → (t.dev.get VIT_STATE.STATE lvid = 3 ∨ t.dev.get
        VIT_STATE.STATE lvid = 2) ∧ (t.dev.vit lvid).intx = [])) ∧
  (∀ (s : State) (lvid : Fin 1024) (k : Option (Fin 64)), s.dev.supply = .on → (k = none → s.dev.inflight lvid = 0) →
    NextIs (exec (.inflightCountZero lvid k) s) fun t =>
      (k = none → t.dev.get VIT_STATE.STATE lvid = if s.dev.get VIT_STATE.STATE lvid = 4 then 5 else if s.dev.get VIT_STATE.STATE lvid = 3
        then 2 else if s.dev.get VIT_STATE.STATE lvid = 8 then 0 else s.dev.get VIT_STATE.STATE lvid) ∧
      (((k.bind fun k => (s.dev.vit lvid).binding k).all fun b => !b.unbinding || s.dev.bindingInflight lvid b != 0 || ((t.dev.vit
        lvid).binding b.k).isNone) = true)) ∧
  (∀ (s : State) (modul : Fin 8192) (gvh : Fin 8388608) (count lv : Nat), s.dev.supply = .on → s.dev.lvidOf gvh = some lv →
    NextIs (exec (.inflightReport modul gvh count) s) fun t =>
      SMap.get 0 (t.dev.vit lv).remote modul = count) ∧
  (∀ (s : State) (lvid : Fin 1024) (k : Option (Fin 64)), s.dev.supply = .on →
    (k = none → s.dev.get VIT_STATE.STATE lvid = 3 ∨ s.dev.get VIT_STATE.STATE lvid = 8) →
    (((k.map fun k => ((s.dev.vit lvid).binding k).any (·.unbinding)).all id) = true) → NextIs (exec (.squashTimeout lvid k) s) fun t =>
      (k = none → s.dev.get VIT_STATE.STATE lvid = 3 → t.dev.get VIT_EVENTS.SQUASH_TIMEOUT lvid = 1 ∧ t.dev.get VIT_STATE.STATE lvid = 2)
        ∧
      (k = none → s.dev.get VIT_STATE.STATE lvid = 8 → (t.dev.vit lvid).live = false) ∧
      ((k.all fun k => t.dev.is VIT_EVENTS.SQUASH_TIMEOUT lvid && ((t.dev.vit lvid).binding k).isNone) = true))

/-- FREEZE of a PRESENTED Vitrine keeps its TCUT1 and waits; at TCUT1 traffic is held and the Vitrine is FREEZING, or FROZEN with nothing
in flight. FREEZE_TIMEOUT ends the hold. SAVE of a FROZEN Vitrine leaves SAVED and its image; RESTORE of a valid image that finds room
leaves RESTORED with the handle saved; THAW keeps its TCUT2 and waits; at TCUT2 a frozen or saved Vitrine without a held reset or error is
PRESENTED again, as is a restored one whose modules all acknowledged. THAW_COMPLETE_RELEASE releases the source's Vitrine. -/
def Obligations.VitrineMigration : Prop :=
  (∀ (s : State) (h : CmdHdr) (gvh : Word) (tcut : Nat) (lv : Nat), s.dev.supply = .on → s.dev.CarriesOut h 0x0301 [1] s.dev.moduleId →
    s.dev.lvidOf (gvhField gvh.toNat) = some lv → s.dev.objectHeld h (Wait.holdsVitrine lv) = false →
    s.dev.recording h 0x0301 (gvhField gvh.toNat) = false → s.dev.get VIT_STATE.STATE lv = 2 → s.dev.now + msTicks 10 ≤ tcut →
    NextIs (exec (.freeze h gvh tcut) s) fun t =>
      t.dev.Awaits h 0x0301 (.freeze lv) ∧ (t.dev.vit lv).tcut1 = some tcut) ∧
  (∀ (s : State) (lvid : Fin 1024), s.dev.supply = .on → (s.dev.vit lvid).tcut1.isSome = true →
    NextIs (exec (.freezeCutPoint lvid) s) fun t =>
      (s.dev.get VIT_STATE.STATE lvid = 2 → (t.dev.vit lvid).holding = true ∧ t.dev.get VIT_STATE.STATE lvid = if s.dev.inflight lvid = 0
        then 5 else 4) ∧
      (s.dev.get VIT_STATE.STATE lvid ≠ 2 → (t.dev.vit lvid).tcut1 = none ∧ t.dev.get VIT_STATE.STATE lvid = s.dev.get VIT_STATE.STATE
        lvid)) ∧
  (∀ (s : State) (lvid : Fin 1024), s.dev.supply = .on → s.dev.get VIT_STATE.STATE lvid = 4 →
    NextIs (exec (.freezeTimeout lvid) s) fun t =>
      t.dev.get VIT_EVENTS.FREEZE_TIMEOUT lvid = 1 ∧ (t.dev.vit lvid).holding = false ∧
      ((s.dev.vit lvid).heldError = none → s.dev.is VIT_STATE.HELD_RESET lvid = false → t.dev.get VIT_STATE.STATE lvid = 2)) ∧
  (∀ (s : State) (h : CmdHdr) (gvh : Word) (lv : Nat), s.dev.supply = .on → s.dev.CarriesOut h 0x0302 [1] s.dev.moduleId →
    s.dev.lvidOf (gvhField gvh.toNat) = some lv → s.dev.objectHeld h (Wait.holdsVitrine lv) = false →
    s.dev.recording h 0x0302 (gvhField gvh.toNat) = false → s.dev.get VIT_STATE.STATE lv = 5 → NextIs (exec (.save h gvh) s) fun t =>
      t.dev.Ends h 0x0302 Status.ok ∧ t.dev.get VIT_STATE.STATE lv = 6 ∧ (t.dev.vit lv).savedAt = s.dev.now ∧
      SMap.get {} t.dev.saves lv = s.dev.imageOf lv) ∧
  (∀ (s : State) (h : CmdHdr) (gvh fpid : Word) (lvid source : Fin 65536) (image : Option Image) (x : Image) (p lv : Nat) (y :
      VitrineSetting) (d : Dev),
    s.dev.supply = .on → s.dev.CarriesOut h 0x0303 [1] (fpidModule (fpidField fpid.toNat)) → fpidPort (fpidField fpid.toNat) = p →
    (lvid.val < 1024 ∨ lvid.val = 0xFFFF) → s.dev.edgeUsable p = true → s.dev.hostFacing p = true → s.dev.vitrineOfPort p = none →
    ((if source.val = s.dev.moduleId ∧ (((s.dev.saves.filter fun e => e.2.gvh == gvhField gvh.toNat && s.dev.gvh e.1 == gvhField
      gvh.toNat).map (·.2)).head?).isSome then ((s.dev.saves.filter fun e => e.2.gvh == gvhField gvh.toNat && s.dev.gvh e.1 == gvhField
      gvh.toNat).map (·.2)).head? else image) = some x) →
    s.dev.chooseId lvid x.channels = .inl lv → x.valid = true → x.gvh = gvhField gvh.toNat →
({ lvid := lv, nvdp := x.nvdp, cto := x.cto, silent := x.silent, slotPower := x.slotPower, minimum := x.minimum, quota := x.quota, shapers := x.shapers.length, channels := x.channels }
      : VitrineSetting) = y →
    (s.dev.poolShort p y (s.dev.slots.any fun s => s.1 == p && s.2.1 == gvhField gvh.toNat) = none) →
    (s.dev.divide lv (gvhField gvh.toNat) p 7 y).restoreBindings lv x.bindings = .inr d →
    NextIs (exec (.restore h gvh fpid lvid source image) s) fun t =>
      t.dev.Ends h 0x0303 Status.ok ∧ t.dev.get VIT_STATE.STATE lv = 7 ∧ t.dev.get VIT_STATE.GVH lv = gvhField gvh.toNat ∧
      t.dev.get VIT_PORT.UPORT lv = p) ∧
  (∀ (s : State) (h : CmdHdr) (gvh : Word) (modul : Fin 65536) (tcut lv : Nat), s.dev.supply = .on →
    s.dev.CarriesOut h 0x0304 [1] modul → modul.val < 8192 → s.dev.thawCopy (gvhField gvh.toNat) = some lv →
    s.dev.objectHeld h (Wait.holdsVitrine lv) = false → s.dev.recording h 0x0304 (gvhField gvh.toNat) = false →
    5 ≤ s.dev.get VIT_STATE.STATE lv → s.dev.get VIT_STATE.STATE lv ≤ 7 → s.dev.now + msTicks 10 ≤ tcut →
    NextIs (exec (.thaw h gvh modul tcut) s) fun t =>
      t.dev.Awaits h 0x0304 (.thaw lv) ∧ (t.dev.vit lv).tcut2 = some tcut ∧ t.dev.get VIT_STATE.STATE lv = s.dev.get VIT_STATE.STATE lv) ∧
  (∀ (s : State) (lvid : Fin 1024) (sourceHeld : Bool), s.dev.supply = .on → (s.dev.vit lvid).tcut2.isSome = true →
    NextIs (exec (.thawCutPoint ⟨lvid, sourceHeld⟩) s) fun t =>
      (s.dev.get VIT_STATE.STATE lvid = 5 ∨ s.dev.get VIT_STATE.STATE lvid = 6 → (s.dev.vit lvid).heldError = none → s.dev.is
        VIT_STATE.HELD_RESET lvid = false → t.dev.get VIT_STATE.STATE lvid = 2 ∧ (t.dev.vit lvid).holding = false) ∧
      (s.dev.get VIT_STATE.STATE lvid = 7 → (s.dev.vit lvid).unacked = [] → sourceHeld = false → (s.dev.vits.any fun e => e.1 != lvid.val
        && e.2.live && s.dev.gvh e.1 == s.dev.gvh lvid) = false → t.dev.get VIT_STATE.STATE lvid = 2)) ∧
  (∀ (s : State) (lvid : Fin 1024) (target : Fin 8192), s.dev.supply = .on → s.dev.get VIT_STATE.STATE lvid = 6 →
    NextIs (exec (.thawCompleteRelease lvid target) s) fun t =>
      (t.dev.vit lvid).live = false ∧ (s.dev.gvh lvid, target.val) ∈ t.dev.homes)

/-- A port-fatal error contains a device-facing port, or the Vitrine of a host-facing one, with cause ERROR and class 3; a further one
counts. A fabric-link condition contains its link with class 4. A containment notice is kept where it concerns a port of another module,
and is acknowledged. NOTICE_REPEAT_TIMER counts a notice's further attempt. -/
def Obligations.FatalErrors : Prop :=
  (∀ (s : State) (port : Fin 512) (ep : Fin 128) (error : Fin 5), s.dev.supply = .on → port.val ≠ 447 → s.dev.deviceFacing port = true →
    s.dev.contState (contObj 0 port) ≤ 1 → NextIs (exec (.class3Error port ep error) s) fun t =>
      t.dev.get SLC_CONT_STATE.STATE (contObj 0 port) = 1 ∧
      (s.dev.contState (contObj 0 port) = 0 → t.dev.get SLC_CONT_STATE.CAUSE (contObj 0 port) = 1 ∧ t.dev.get SLC_CONT_STATE.CLASS
        (contObj 0 port) = 3) ∧
      (s.dev.contState (contObj 0 port) = 1 → t.dev.get SLC_CONT_STATE.REPEATS (contObj 0 port) = min 255 (s.dev.get
        SLC_CONT_STATE.REPEATS (contObj 0 port) + 1))) ∧
  (∀ (s : State) (port : Fin 512) (ep : Fin 128) (error : Fin 5) (lv : Nat), s.dev.supply = .on → port.val ≠ 447 →
    s.dev.deviceFacing port = false → s.dev.hostFacing port = true → s.dev.vitrineOfPort port = some lv →
    NextIs (exec (.class3Error port ep error) s) fun t =>
      (s.dev.contained 1 lv = false → s.dev.get VIT_STATE.STATE lv = 2 ∨ s.dev.get VIT_STATE.STATE lv = 3 ∨ s.dev.get VIT_STATE.STATE lv =
        4 → t.dev.get SLC_CONT_STATE.STATE (contObj 1 lv) = 1 ∧ t.dev.get SLC_CONT_STATE.CAUSE (contObj 1 lv) = 1) ∧
      (s.dev.contained 1 lv = false → s.dev.get VIT_STATE.STATE lv = 5 ∨ s.dev.get VIT_STATE.STATE lv = 6 → (t.dev.vit lv).heldError =
        some 3 ∧ t.dev.get SLC_CONT_STATE.STATE (contObj 1 lv) = 0)) ∧
  (∀ (s : State) (port : Fin 512) (fault : LinkFault), s.dev.supply = .on → s.dev.fabricPort port = true →
    s.dev.linkFaulty port fault = true → s.dev.contState (contObj 2 port) ≤ 1 → NextIs (exec (.class4Condition port fault) s) fun t =>
      t.dev.get SLC_CONT_STATE.STATE (contObj 2 port) = 1 ∧
      (s.dev.contState (contObj 2 port) = 0 → t.dev.get SLC_CONT_STATE.CLASS (contObj 2 port) = 4 ∧ t.dev.get SLC_CONT_STATE.CAUSE
        (contObj 2 port) = 1)) ∧
  (∀ (s : State) (source : Fin 8192) (scope : Fin 4) (id : Fin 8388608) (cause : Fin 4), s.dev.supply = .on →
    NextIs (exec (.containmentNotice source scope id cause) s) fun t =>
      (scope = 0 → cause = 0 → id.val ∉ t.dev.heldRemote) ∧ (scope = 0 → cause ≠ 0 → id.val ∈ t.dev.heldRemote) ∧
      (scope = 1 → (t.dev.endpoints.all fun e => (e.2.bound.map fun b => b.gvh != id.val || b.refusing).getD true) = true)) ∧
  (∀ (s : State) (modul : Fin 8192) (scope : Fin 4) (id : Fin 1024) (n : Notice), s.dev.supply = .on →
    ((s.dev.notices.find? fun n => n.modul == modul.val && n.object == contObj scope id) = some n) → n.recorded = false →
    NextIs (exec (.noticeRepeatTimer modul scope id) s) fun t =>
      (n.attempts < 9 → t.dev.notices = s.dev.notices.map fun x => if x.modul == modul.val && x.object == contObj scope id then
        { x with attempts := x.attempts + 1 } else x) ∧
      (9 ≤ n.attempts → t.dev.notices = s.dev.notices.map fun x => if x.modul == modul.val && x.object == contObj scope id then
        { x with recorded := true } else x))

/-- Accession starts where it may, passes with the identity found or fails. SLUICE_RELEASE of an object contained for an error, with its
latest record, leaves it RELEASING and waits; its end leaves NONE, its failure CONTAINED. MASKED_SUMMARY numbers a record for each summary
held, STAGING_COPY empties the staging, FAULT_INJECT arms its point, and EVENT_LOG_READ that can store its records ends OK. -/
def Obligations.AccessionReleaseAndLog : Prop :=
  (∀ (s : State) (port : Fin 512) (ep : Fin 128) (found : Found), s.dev.supply = .on → s.dev.mayAccede port ep found.front = true →
    NextIs (exec (.accessionStart port ep found) s) fun t =>
      (t.dev.endpoint port ep).accession = .running ∧ (t.dev.endpoint port ep).accessionStart = s.dev.now ∧
      (t.dev.endpoint port ep).bars = found.bars ∧ (t.dev.endpoint port ep).exists_ = true) ∧
  (∀ (s : State) (port : Fin 512) (ep : Fin 128) (identity : Option Nat), s.dev.supply = .on →
    (s.dev.endpoint port ep).accession = .running → (identity = none → s.dev.unauthAllowed port ep = true) →
    NextIs (exec (.accessionSucceeds port ep identity) s) fun t =>
      (t.dev.endpoint port ep).accession = .passed ∧ (t.dev.endpoint port ep).identity = identity.getD 0 ∧
      (t.dev.endpoint port ep).unauthenticated = identity.isNone) ∧
  (∀ (s : State) (port : Fin 512) (ep : Fin 128) (responder : Bool), s.dev.supply = .on →
    ((s.dev.endpoint port ep).accession = .running ∨ (s.dev.endpoint port ep).accession = .passed) →
    NextIs (exec (.accessionFailed port ep responder) s) fun t =>
      (t.dev.endpoint port ep).accession = .failed) ∧
  (∀ (s : State) (port : Fin 512) (ep : Fin 128), s.dev.supply = .on → (s.dev.endpoint port ep).accession = .running →
    NextIs (exec (.accessionLimit port ep) s) fun t =>
      (t.dev.endpoint port ep).accession = .failed) ∧
  (∀ (s : State) (h : CmdHdr) (scope : Fin 4) (object : Word) (eseq p id : Nat), s.dev.supply = .on →
    s.dev.CarriesOut h 0x0801 [1, 2, 4] (fpidModule (fpidField object.toNat)) → s.dev.objectHeld h (· == .release scope id) = false →
    (scope = 0 ∨ scope = 2) → s.dev.releaseObject scope (fpidField object.toNat) = some p → s.dev.releaseId p = id →
    s.dev.contState (contObj scope id) = 1 → s.dev.contCause (contObj scope id) = 1 →
    ((s.dev.notices.any fun n => n.object == contObj scope id) = false) →
    eseq = s.dev.get64 SLC_CONT_ESEQ_LO.ESEQ SLC_CONT_ESEQ_HI.ESEQ (contObj scope id) →
    NextIs (exec (.sluiceRelease h scope object eseq) s) fun t =>
      t.dev.Awaits h 0x0801 (.release scope id) ∧ t.dev.get SLC_CONT_STATE.STATE (contObj scope id) = 2) ∧
  (∀ (s : State) (h : CmdHdr) (object : Word) (eseq : Nat) (lv : Nat), s.dev.supply = .on →
    s.dev.CarriesOut h 0x0801 [1, 2, 4] s.dev.moduleId → s.dev.lvidOf (gvhField object.toNat) = some lv →
    s.dev.objectHeld h (Wait.holdsVitrine lv) = false → s.dev.recording h 0x0801 (gvhField object.toNat) = false →
    s.dev.contState (contObj 1 lv) = 1 → s.dev.contCause (contObj 1 lv) = 1 →
    ((s.dev.notices.any fun n => n.object == contObj 1 lv) = false) →
    eseq = s.dev.get64 SLC_CONT_ESEQ_LO.ESEQ SLC_CONT_ESEQ_HI.ESEQ (contObj 1 lv) →
    NextIs (exec (.sluiceRelease h 1 object eseq) s) fun t =>
      (t.dev.get SLC_CONT_STATE.STATE (contObj 1 lv) = 2 ∧ t.dev.Awaits h 0x0801 (.release 1 lv) ∨ t.dev.get SLC_CONT_STATE.STATE (contObj
        1 lv) = 0 ∧ t.dev.Ends h 0x0801 Status.ok)) ∧
  (∀ (s : State) (scope : Fin 4) (id : Fin 1024), s.dev.supply = .on → s.dev.contState (contObj scope id) = 2 →
    s.dev.releaseDone scope id = true → NextIs (exec (.releaseComplete scope id) s) fun t =>
      t.dev.get SLC_CONT_STATE.STATE (contObj scope id) = 0) ∧
  (∀ (s : State) (scope : Fin 4) (id : Fin 1024), s.dev.supply = .on → s.dev.contState (contObj scope id) = 2 →
    NextIs (exec (.releaseFailed scope id) s) fun t =>
      t.dev.get SLC_CONT_STATE.STATE (contObj scope id) = 1) ∧
  (∀ (s : State), s.dev.supply = .on → NextIs (exec .maskedSummary s) fun t =>
      t.dev.masked = [] ∧
      (s.dev.booted = true → s.dev.is SLC_LOG_HEAD.STAGING 0 = false → t.dev.nextEseq = (s.dev.nextEseq + s.dev.masked.length) % 2 ^ 64)) ∧
  (∀ (s : State), s.dev.supply = .on → s.dev.booted = true → s.dev.is SLC_LOG_HEAD.STAGING 0 = true →
    NextIs (exec .stagingCopy s) fun t =>
      t.dev.staging = [] ∧ t.dev.overrun = 0 ∧ t.dev.get SLC_LOG_HEAD.STAGING 0 = 0) ∧
  (∀ (s : State) (h : CmdHdr) (point : Byte) (count : Word) (target argument m : Nat), s.dev.supply = .on →
    s.dev.CarriesOut h 0x0803 [1, 2] m → s.dev.injectionModule h point.toNat target = some m → point.toNat ≤ 13 → 1 ≤ count.toNat →
    ((injectionForm point.toNat).2 = true → count.toNat = 1) → injectionTarget point.toNat target = true →
    injectionArgument point.toNat argument = true → ((s.dev.injections.any fun i => i.point == point.toNat) = false) →
    NextIs (exec (.faultInject h point count target argument) s) fun t =>
      t.dev.Ends h 0x0803 Status.ok ∧ t.dev.injections = s.dev.injections ++ [⟨point.toNat, target, argument, count.toNat⟩]) ∧
  (∀ (s : State) (h : CmdHdr) (first : Nat) (most : Word) (dest : Nat), s.dev.supply = .on →
    s.dev.CarriesOut h 0x0802 [1, 2, 3, 4] s.dev.moduleId →
    (storeFor s h dest ((s.dev.logChosen h first most.toNat).1.flatMap EvRec.bytes)).isSome = true →
    NextIs (exec (.eventLogRead h first most dest) s) fun t =>
      t.dev.Ends h 0x0802 Status.ok ∧ (t.dev.cmdOf h 0x0802).detail = (s.dev.logChosen h first most.toNat).1.length)

/-- A USB4 attach leaves the role and the link its partner and cable give, or no USB4 link; a loss returns them. A DisplayPort request
that fits is granted and one that does not is refused; an answer from another module starts, refuses or ends the stream here. A retraining
shows the link and pool of its rate; a symmetry evaluation moves the link where the demand asks; the PCIe tunnel takes its endpoints;
TUNNEL_CONFIG sets its bits. -/
def Obligations.Usb4Tunnels : Prop :=
  (∀ (s : State) (port : Fin 16) (partner : Usb4Partner) (trained : Fin 5) (asym : Bool), s.dev.supply = .on → s.dev.hubLost = false →
    NextIs (exec (.usb4Attach port partner trained asym) s) fun t =>
      (2 ≤ markerLink (s.dev.get TUN_PORT_STATUS.CABLE port) → 2 ≤ trained.val → partner ≠ .other → t.dev.get TUN_PORT_STATUS.LINK port =
        min (markerLink (s.dev.get TUN_PORT_STATUS.CABLE port)) trained ∧ t.dev.get TUN_PORT_STATUS.ROLE port = (if partner =
        .deviceRouter then 1 else if s.dev.owner = some port.val then 2 else 3) ∧ t.dev.get TUN_PORT_STATUS.POOL port = if partner =
        .deviceRouter then (poolOf (min (markerLink (s.dev.get TUN_PORT_STATUS.CABLE port)) trained)).1 else 0) ∧
      (markerLink (s.dev.get TUN_PORT_STATUS.CABLE port) < 2 ∨ trained.val < 2 ∨ partner = .other → t.dev.get TUN_PORT_STATUS.ROLE port =
        0 ∧ t.dev.get TUN_PORT_STATUS.LINK port = (if trained.val = 0 then 0 else 1) ∧ t.dev.get TUN_PORT_STATUS.POOL port = 0)) ∧
  (∀ (s : State) (port : Fin 16), s.dev.supply = .on → NextIs (exec (.usb4LinkLoss port) s) fun t =>
      t.dev.get TUN_PORT_STATUS.ROLE port = 0 ∧ t.dev.get TUN_PORT_STATUS.LINK port = 0 ∧ t.dev.get TUN_PORT_STATUS.POOL port = 0 ∧
      t.dev.get TUN_PORT_STATUS.H2H_UP port = 0 ∧ t.dev.get TUN_PORT_STATUS.PCIE_UP port = 0) ∧
  (∀ (s : State) (port : Fin 16) (tunnel : Fin 2) (units : Fin 256), s.dev.supply = .on → s.dev.get TUN_PORT_STATUS.ROLE port = 1 →
    NextIs (exec (.dpBandwidthRequest port tunnel ⟨units, none⟩) s) fun t =>
      ((units.val ≤ s.dev.get (grantField tunnel) port ∨ s.dev.get (grantField (1 - tunnel)) port + units ≤ s.dev.grantable port) →
        t.dev.get (grantField tunnel) port = units ∧ t.dev.get (upField tunnel) port = if units.val = 0 then 0 else 1) ∧
      (¬ (units.val ≤ s.dev.get (grantField tunnel) port ∨ s.dev.get (grantField (1 - tunnel)) port + units ≤ s.dev.grantable port) →
        t.dev.get (grantField tunnel) port = s.dev.get (grantField tunnel) port ∧ t.dev.get TUN_PORT_EVENTS.DP_REFUSED port = 1)) ∧
  (∀ (s : State) (port : Fin 16) (tunnel : Fin 2) (units : Fin 256) (engine : Fin 64) (f : FarGrant), s.dev.supply = .on →
    s.dev.is TUN_CE_DEST.VALID engine = true → s.dev.is TUN_CE_DEST.REMOTE engine = true → s.dev.get TUN_CE_DEST.PORT engine = port →
    s.dev.get TUN_CE_DEST.TUNNEL engine = tunnel → NextIs (exec (.dpBandwidthRequest port tunnel ⟨units, some (engine, f)⟩) s) fun t =>
      (f = .granted → (s.dev.engine engine).running.isSome = true → t.dev.get TUN_CE_STATUS.STREAMING engine = 1) ∧
      (f = .refused → t.dev.get TUN_CE_STATUS.BW_REFUSED engine = 1 ∧ (t.dev.engine engine).next = none) ∧
      (f = .withdrawn → t.dev.get TUN_CE_STATUS.BW_LOST engine = 1 ∧ t.dev.get TUN_CE_STATUS.STREAMING engine = 0) ∧
      (f = .sinkLost → t.dev.get TUN_CE_STATUS.STREAMING engine = 0 ∧ (t.dev.engine engine).farSink = none)) ∧
  (∀ (s : State) (port : Fin 16) (link : Fin 5), s.dev.supply = .on → s.dev.get TUN_PORT_STATUS.ROLE port = 1 → 2 ≤ link.val →
    NextIs (exec (.usb4PoolShrink port link) s) fun t =>
      t.dev.get TUN_PORT_STATUS.LINK port = link ∧ t.dev.get TUN_PORT_STATUS.POOL port = (poolOf link).1) ∧
  (∀ (s : State) (port : Fin 16) (to100 from100 to1s from1s link : Nat), s.dev.supply = .on → s.dev.get TUN_PORT_STATUS.ROLE port = 1 →
    s.dev.symmetry port to100 from100 to1s from1s = some link →
    (((s.dev.front port).symAt.all fun at_ => decide (msTicks 1000 ≤ sinceTicks at_ s.dev.now)) = true) →
    NextIs (exec (.symmetryEvaluation port to100 from100 to1s from1s) s) fun t =>
      t.dev.get TUN_PORT_STATUS.LINK port = link ∧ t.dev.get TUN_PORT_STATUS.POOL port = (poolOf link).1 ∧
      t.dev.get TUN_PORT_EVENTS.ASYM_CHANGE port = 1 ∧ (t.dev.front port).symAt = some s.dev.now) ∧
  (∀ (s : State) (port : Fin 16) (found : List Found) (deep : Bool), s.dev.supply = .on → s.dev.get TUN_PORT_STATUS.ROLE port = 1 →
    s.dev.is TUN_PORT_CFG.PCIE_EN port = true → s.dev.is TUN_PORT_STATUS.PCIE_UP port = false →
    NextIs (exec (.pcieTunnelEstablish port found deep) s) fun t =>
      t.dev.get TUN_PORT_STATUS.PCIE_UP port = 1 ∧
      t.dev.get TUN_PORT_STATUS.ENDPOINTS port = ((s.dev.put TUN_PORT_STATUS.PCIE_UP port 1).enumerateTunnel port 0 (found.take 8)).1 ∧
      (deep = true ∨ 8 < found.length → t.dev.get TUN_PORT_EVENTS.DOCK_LIMIT port = 1)) ∧
  (∀ (s : State) (h : CmdHdr) (port : Byte) (value : Word), s.dev.supply = .on → s.dev.CarriesOut h 0x0A01 [2] s.dev.moduleId →
    port.toNat < 16 → bitsOf value.toNat 27 8 = 0 → 2 ≤ bitsOf value.toNat 7 0 → bitsOf value.toNat 7 0 ≤ 40 →
    NextIs (exec (.tunnelConfig h port value) s) fun t =>
      t.dev.Ends h 0x0A01 Status.ok ∧ t.dev.get TUN_PORT_CFG.PCIE_FLOOR port.toNat = bitsOf value.toNat 7 0 ∧
      t.dev.is TUN_PORT_CFG.PCIE_EN port.toNat = bitOf value.toNat 31 ∧ t.dev.is TUN_PORT_CFG.H2H_EN port.toNat = bitOf value.toNat 30 ∧
      t.dev.is TUN_PORT_CFG.ASYM_EN port.toNat = bitOf value.toNat 29 ∧
      t.dev.is TUN_PORT_CFG.ALLOW_UNAUTH port.toNat = bitOf value.toNat 28)

/-- A TUN_CE_MODE write stops the engine, runs or arms a valid mode, or sets MODE_ERR. A TUN_CE_SCANOUT write arms a flip and vertical
blanking performs it. An FLR disables the engine. The lowest engine that waits for capacity counts when it fits. A sink that appears is
held with its timings. CONSOLE_ATTACH sets a destination or ends with the status that refuses it; CONSOLE_DETACH clears it; the hub of the
destination does its part. A stream frame is placed, late or behind; at a due line what is missing is black; a line of a remote stream is
sent in segments; each second the counts start again. -/
def Obligations.ConsoleEngines : Prop :=
  (∀ (s : State) (engine : Fin 64) (value : Word), s.dev.supply = .on → s.dev.hubLost = false →
    NextIs (exec (.tunCeModeWrite engine value) s) fun t =>
      (bitOf value.toNat 31 = false → t.dev.get TUN_CE_MODE.ENABLE engine = 0 ∧ (t.dev.engine engine).running = none ∧ t.dev.get
        TUN_CE_MODE.REFRESH engine = bitsOf value.toNat 6 0 ∧ t.dev.get TUN_CE_MODE.FORMAT engine = bitsOf value.toNat 25 24) ∧
      (bitOf value.toNat 31 = true → modeOk
        { s.dev.modeOf engine with refresh := bitsOf value.toNat 6 0, format := bitsOf value.toNat 25 24 } (max (s.dev.get
        TUN_CE_SCANOUT.BASE engine) (s.dev.engine engine).base) = false → t.dev = s.dev.put TUN_CE_STATUS.MODE_ERR engine 1) ∧
      (bitOf value.toNat 31 = true → modeOk
        { s.dev.modeOf engine with refresh := bitsOf value.toNat 6 0, format := bitsOf value.toNat 25 24 } (max (s.dev.get
        TUN_CE_SCANOUT.BASE engine) (s.dev.engine engine).base) = true → t.dev.get TUN_CE_MODE.ENABLE engine = 1 ∧ t.dev.get
        TUN_CE_MODE.REFRESH engine = bitsOf value.toNat 6 0 ∧ ((s.dev.engine engine).running = none → (t.dev.engine engine).running = some
        { s.dev.modeOf engine with refresh := bitsOf value.toNat 6 0, format := bitsOf value.toNat 25 24 }) ∧ ((s.dev.engine
        engine).running.any (fun (m : Mode) => m !=
        { s.dev.modeOf engine with refresh := bitsOf value.toNat 6 0, format := bitsOf value.toNat 25 24 }) = true → (t.dev.engine
        engine).next = some { s.dev.modeOf engine with refresh := bitsOf value.toNat 6 0, format := bitsOf value.toNat 25 24 }))) ∧
  (∀ (s : State) (engine : Fin 64) (value : Word), s.dev.supply = .on → NextIs (exec (.tunCeScanoutWrite engine value) s) fun t =>
      t.dev.get TUN_CE_SCANOUT.PENDING engine = 1 ∧ t.dev.get TUN_CE_SCANOUT.BASE engine = bitsOf value.toNat 25 6 * 64 ∧
      (t.dev.engine engine).armed = some (bitsOf value.toNat 25 6 * 64)) ∧
  (∀ (s : State) (engine : Fin 64), s.dev.supply = .on → (s.dev.engine engine).running.isSome = true →
    NextIs (exec (.verticalBlanking engine) s) fun t =>
      t.dev.get TUN_CE_STATUS.VBLANK engine = (s.dev.get TUN_CE_STATUS.VBLANK engine + 1) % 256 ∧
      ((s.dev.engine engine).armed.isSome = true → t.dev.get TUN_CE_SCANOUT.PENDING engine = 0 ∧ (t.dev.engine engine).base =
        (s.dev.engine engine).armed.getD 0 ∧ (t.dev.engine engine).armed = none ∧ t.dev.get TUN_CE_STATUS.FLIP_DONE engine = 1) ∧
      ((s.dev.engine engine).next = none → (t.dev.engine engine).running = (s.dev.engine engine).running)) ∧
  (∀ (s : State) (engine : Fin 64), s.dev.supply = .on → NextIs (exec (.consoleEngineFlr engine) s) fun t =>
      t.dev.get TUN_CE_MODE.ENABLE engine = 0 ∧ t.dev.get TUN_CE_SCANOUT.PENDING engine = 0 ∧ (t.dev.engine engine).running = none) ∧
  (∀ (s : State) (engine : Fin 64) (m : Mode), s.dev.supply = .on →
    (((List.range 64).find? fun e => s.dev.is TUN_CE_STATUS.BUDGET e) = some engine.val) → (s.dev.engine engine).running = some m →
    s.dev.is TUN_CE_DEST.VALID engine = true → s.dev.streamLoad.1 < 32 → s.dev.streamLoad.2 + m.pixels ≤ 7962624000 →
    NextIs (exec .streamBudgetFreed s) fun t =>
      t.dev.is TUN_CE_STATUS.BUDGET engine = false ∧ (t.dev.engine engine).counted = true) ∧
  (∀ (s : State) (port : Fin 16) (tunnel : Fin 2) (edid : List Timing), s.dev.supply = .on →
    NextIs (exec (.dpSinkReappears port tunnel ⟨edid, none⟩) s) fun t =>
      SMap.find (t.dev.front port).sinks tunnel = some edid) ∧
  (∀ (s : State) (port : Fin 16) (tunnel : Fin 2) (edid : List Timing) (engine : Fin 64), s.dev.supply = .on →
    s.dev.is TUN_CE_DEST.VALID engine = true → s.dev.is TUN_CE_DEST.REMOTE engine = true → s.dev.get TUN_CE_DEST.PORT engine = port →
    s.dev.get TUN_CE_DEST.TUNNEL engine = tunnel → NextIs (exec (.dpSinkReappears port tunnel ⟨edid, some engine⟩) s) fun t =>
      (t.dev.engine engine).farSink = some edid) ∧
  (∀ (s : State) (source : Fin 8192) (frame : ConsoleFrame) (x : InStream), s.dev.supply = .on → bitOf frame.flags 2 = false →
    s.dev.inStream source frame.engine = some x → NextIs (exec (.consoleFrame source frame) s) fun t =>
      (32768 ≤ (frame.fseq.val + 65536 - x.expect) % 65536 → t.dev.inStreams = s.dev.inStreams) ∧
      ((frame.fseq.val + 65536 - x.expect) % 65536 < 32768 → t.dev.inStream source frame.engine = some (if x.past (if bitOf frame.flags 0
        then x.frameIn + 1 else x.frameIn) frame.line then
        { x with expect := (frame.fseq.val + 1) % 65536, frameIn := (if bitOf frame.flags 0 then x.frameIn + 1 else x.frameIn), discarded := x.discarded + 1 }
        else
        { x with expect := (frame.fseq.val + 1) % 65536, frameIn := (if bitOf frame.flags 0 then x.frameIn + 1 else x.frameIn), held := x.held ++ [((if bitOf frame.flags 0 then x.frameIn + 1 else x.frameIn), frame.line.val, frame.x.val)] }))) ∧
  (∀ (s : State) (source : Fin 8192) (frame : ConsoleFrame), s.dev.supply = .on → bitOf frame.flags 2 = true →
    NextIs (exec (.consoleFrame source frame) s) fun t =>
      (t.dev.inStream source frame.engine).map (·.expect) = some ((frame.fseq.val + 1) % 65536)) ∧
  (∀ (s : State) (source : Fin 8192) (engine : Fin 64) (line : Fin 65536) (segments : List (Fin 65536)) (x : InStream),
    s.dev.supply = .on → source.val ≠ s.dev.moduleId → s.dev.inStream source engine = some x →
    NextIs (exec (.consoleLineDue source engine line segments) s) fun t =>
      ((t.dev.inStream source engine).map (fun (y : InStream) => (y.frameOut, y.dueLine)) = some ((if x.dueLine.isNone ∨ line.val = 0 then
        x.frameOut + 1 else x.frameOut), some line.val)) ∧
      ((t.dev.inStream source engine).map (fun (y : InStream) => y.black) = some (x.black + ((segments.map (·.val)).filter fun p =>
        !x.held.contains ((if x.dueLine.isNone ∨ line.val = 0 then x.frameOut + 1 else x.frameOut), line.val, p)).length))) ∧
  (∀ (s : State) (source : Fin 8192) (engine : Fin 64) (line : Fin 65536) (segments : List (Fin 65536)) (m : Mode), s.dev.supply = .on →
    source.val = s.dev.moduleId → (s.dev.engine engine).running = some m → (s.dev.endpoint 447 (64 + engine.val)).bound.isSome = true →
    s.dev.is TUN_CE_DEST.REMOTE engine = true → s.dev.is TUN_CE_STATUS.STREAMING engine = true → line.val < m.h →
    NextIs (exec (.consoleLineDue source engine line segments) s) fun t =>
      (t.dev.engine engine).fseq = (s.dev.engine engine).fseq + (m.w + (if m.format = 1 then 1024 else 1360) - 1) / (if m.format = 1 then
        1024 else 1360)) ∧
  (∀ (s : State), s.dev.supply = .on → NextIs (exec .consoleSegments s) fun t =>
      (t.dev.inStreams = s.dev.inStreams.map fun x => { x with black := 0, discarded := 0 })) ∧
  (∀ (s : State) (h : CmdHdr) (engine : Byte) (dest : Fin 65536) (port tunnel : Byte) (far : Nat), s.dev.supply = .on →
    s.dev.CarriesOut h 0x0A02 [1, 4] ((if h.modul = 0xFFFF then s.dev.moduleId else h.modul)) →
    (s.dev.destinationPart h && dest.val == s.dev.moduleId) = false → engine.toNat < 64 → dest.val < 8192 → port.toNat < 16 →
    tunnel.toNat < 2 → NextIs (exec (.consoleAttach h engine dest port tunnel far) s) fun t =>
      ((if dest.val = s.dev.moduleId then s.dev.tunnelFree port.toNat tunnel.toNat else far) = Status.ok → t.dev.Ends h 0x0A02 Status.ok ∧
        t.dev.get TUN_CE_DEST.VALID engine.toNat = 1 ∧ t.dev.get TUN_CE_DEST.MODULE engine.toNat = dest ∧ t.dev.get TUN_CE_DEST.PORT
        engine.toNat = port.toNat ∧ t.dev.get TUN_CE_DEST.TUNNEL engine.toNat = tunnel.toNat ∧ t.dev.get TUN_CE_STATUS.ATTACHED
        engine.toNat = 1) ∧
      ((if dest.val = s.dev.moduleId then s.dev.tunnelFree port.toNat tunnel.toNat else far) ≠ Status.ok → t.dev.Ends h 0x0A02 (if
        dest.val = s.dev.moduleId then s.dev.tunnelFree port.toNat tunnel.toNat else far) ∧ t.dev.engines = s.dev.engines)) ∧
  (∀ (s : State) (h : CmdHdr) (engine : Byte) (dest : Fin 65536) (port tunnel : Byte) (far : Nat), s.dev.supply = .on →
    s.dev.destinationPart h = true → dest.val = s.dev.moduleId → NextIs (exec (.consoleAttach h engine dest port tunnel far) s) fun t =>
      (t.dev.Ends h 0x0A02 (if engine.toNat < 64 ∧ port.toNat < 16 ∧ tunnel.toNat < 2 then s.dev.tunnelFree port.toNat tunnel.toNat else
        Status.badParam)) ∧
      (engine.toNat < 64 → port.toNat < 16 → tunnel.toNat < 2 → s.dev.tunnelFree port.toNat tunnel.toNat = Status.ok → t.dev.destOf
        port.toNat tunnel.toNat = some (h.modul, engine.toNat))) ∧
  (∀ (s : State) (h : CmdHdr) (engine : Byte), s.dev.supply = .on →
    s.dev.CarriesOut h 0x0A03 [1, 4] ((if h.modul = 0xFFFF then s.dev.moduleId else h.modul)) → s.dev.destinationPart h = false →
    engine.toNat < 64 → NextIs (exec (.consoleDetach h engine) s) fun t =>
      t.dev.Ends h 0x0A03 Status.ok ∧ t.dev.get TUN_CE_DEST.VALID engine.toNat = 0) ∧
  (∀ (s : State) (h : CmdHdr) (engine : Byte), s.dev.supply = .on → s.dev.destinationPart h = true →
    NextIs (exec (.consoleDetach h engine) s) fun t =>
      t.dev.Ends h 0x0A03 Status.ok ∧ ((t.dev.inStreams.any fun x => x.modul == h.modul && x.engine == engine.toNat) = false))

/-- SERVICE_OWNER gives a candidate the ownership, pinned or not, or unpins; a candidate that attaches is listed and owns where it may;
the owner's detach starts the wait, whose end gives the ownership to the earliest candidate; the hub follows its owner. Over-current opens
a port's switch. A CONNECT write connects the device or resets it, and a bus reset resets it. The link sleeps where it may and wakes for
the device or the host. -/
def Obligations.ServiceOwnership : Prop :=
  (∀ (s : State) (h : CmdHdr) (port pin : Byte), s.dev.supply = .on → s.dev.CarriesOut h 0x0A04 [2, 4] s.dev.moduleId → port.toNat < 16 →
    pin.toNat ≤ 1 → s.dev.candidate port.toNat = true → NextIs (exec (.serviceOwner h port pin) s) fun t =>
      t.dev.Ends h 0x0A04 Status.ok ∧ t.dev.get USH_OWNER_CFG.PIN 0 = pin.toNat ∧
      (pin = 1 → t.dev.get USH_OWNER_CFG.PIN_PORT 0 = port.toNat) ∧ t.dev.owner = some port.toNat) ∧
  (∀ (s : State) (h : CmdHdr) (port pin : Byte), s.dev.supply = .on → s.dev.CarriesOut h 0x0A04 [2, 4] s.dev.moduleId →
    port.toNat = 0xFF → pin.toNat = 0 → NextIs (exec (.serviceOwner h port pin) s) fun t =>
      t.dev.Ends h 0x0A04 Status.ok ∧ t.dev.get USH_OWNER_CFG.PIN 0 = 0 ∧ (s.dev.owner.isSome = true → t.dev.owner = s.dev.owner) ∧
      (s.dev.owner = none → t.dev.owner = (earliest s.dev.candidates).map (· % 16))) ∧
  (∀ (s : State) (port : Fin 16) (usb4 : Bool), s.dev.supply = .on → s.dev.hubLost = false → s.dev.canServe port = true →
    NextIs (exec (.serviceCandidateAttach port usb4) s) fun t =>
      (t.dev.candidates = (s.dev.candidates.filter fun c => c.port != port.val) ++ [⟨port.val, usb4, s.dev.now⟩]) ∧
      (s.dev.owner = some port.val → t.dev.get USH_OWNER.WAITING 0 = 0 ∧ t.dev.owner = some port.val) ∧
      (s.dev.owner = none → s.dev.is USH_OWNER_CFG.PIN 0 = false → t.dev.owner = (earliest t.dev.candidates).map (· % 16)) ∧
      (s.dev.is USH_OWNER_CFG.PIN 0 = true → s.dev.get USH_OWNER_CFG.PIN_PORT 0 = port → t.dev.owner = some port.val)) ∧
  (∀ (s : State) (p : Nat), s.dev.supply = .on → s.dev.owner = some p → NextIs (exec .ownerDetach s) fun t =>
      t.dev.get USH_OWNER.WAITING 0 = 1 ∧ t.dev.candidate p = false ∧ t.dev.hubPort = none) ∧
  (∀ (s : State), s.dev.supply = .on → s.dev.is USH_OWNER.WAITING 0 = true → NextIs (exec .ownerWaitExpiry s) fun t =>
      t.dev.get USH_OWNER.WAITING 0 = 0 ∧ (s.dev.is USH_OWNER_CFG.PIN 0 = false → t.dev.owner = (earliest s.dev.candidates).map (· % 16))) ∧
  (∀ (s : State) (speed : Fin 4), s.dev.supply = .on → s.dev.hubPort ≠ s.dev.owner → NextIs (exec (.ownerChanged speed) s) fun t =>
      t.dev.get USH_EVENTS.OWNER_CHANGED 0 = 1 ∧ (s.dev.owner = none → t.dev.hubPort = none) ∧
      (((s.dev.owner.bind fun p => s.dev.candidates.find? fun c => c.port == p).all fun c => t.dev.hubPort == some c.port && t.dev.get
        USH_OWNER.PATH 0 == if c.usb4 then 2 else 1) = true)) ∧
  (∀ (s : State) (port : Fin 4), s.dev.supply = .on → s.dev.hubPort.isSome = true → port.val ∉ s.dev.usbaOpen →
    NextIs (exec (.usbaOvercurrent port) s) fun t =>
      t.dev.usbaOpen = s.dev.usbaOpen ++ [port.val] ∧ t.dev.get USH_EVENTS.USBA_OVERCURRENT 0 = 1) ∧
  (∀ (s : State) (master : Fin 2048) (value : Word) (speed : Fin 4), s.dev.supply = .on →
    NextIs (exec (.ushMudConnectWrite master value speed) s) fun t =>
      (master.val ≠ 0 → t.dev.get USH_MUD_CTL.CONNECT 0 = s.dev.get USH_MUD_CTL.CONNECT 0) ∧
      (master.val = 0 → t.dev.is USH_MUD_CTL.CONNECT 0 = bitOf value.toNat 0) ∧
      (master.val = 0 → bitOf value.toNat 0 = true → s.dev.is USH_MUD_CTL.CONNECT 0 = false → s.dev.hubPort.isSome = true → speed ≠ 0 →
        t.dev.get USH_MUD_STATUS.CONFIGURED 0 = 1 ∧ t.dev.get USH_MUD_STATUS.SPEED 0 = speed) ∧
      (master.val = 0 → bitOf value.toNat 0 = false → s.dev.is USH_MUD_CTL.CONNECT 0 = true → t.dev.get USH_MUD_STATUS.CONFIGURED 0 = 0 ∧
        t.dev.mud.session = none)) ∧
  (∀ (s : State) (gone abandons : Bool) (speed : Fin 4), s.dev.supply = .on → s.dev.hubPort.isSome = true →
    s.dev.is USH_MUD_CTL.CONNECT 0 = true → NextIs (exec (.usbBusReset gone abandons speed) s) fun t =>
      t.dev.mud.session = none ∧ t.dev.mud.log = none ∧ (gone = true ∨ speed = 0 → t.dev.get USH_MUD_STATUS.CONFIGURED 0 = 0) ∧
      (gone = false → speed ≠ 0 → t.dev.get USH_MUD_STATUS.CONFIGURED 0 = 1 ∧ t.dev.get USH_MUD_STATUS.SPEED 0 = speed) ∧
      (abandons = true → t.dev.get USH_EVENTS.CTRL_ABANDONED 0 = 1)) ∧
  (∀ (s : State) (tag : Fin 65536), s.dev.supply = .on → NextIs (exec (.responseExpiry tag) s) fun t =>
      (t.dev.mudDone = s.dev.mudDone.filter fun r => r.1 != tag.val)) ∧
  (∀ (s : State) (state : Fin 4) (besl : Fin 16), s.dev.supply = .on → s.dev.is USH_MUD_CTL.CONNECT 0 = true →
    s.dev.is USH_MUD_STATUS.CONFIGURED 0 = true → s.dev.get USH_MUD_STATUS.LINK 0 ≠ 4 →
    NextIs (exec (.usbLpmRequest state besl) s) fun t =>
      ((s.dev.transferPending = false ∧ (state.val = 1 ∧ s.dev.get USH_MUD_STATUS.SPEED 0 ≠ 3 ∧ 2 ≤ besl.val ∨ 2 ≤ state.val ∧ s.dev.get
        USH_MUD_STATUS.SPEED 0 = 3)) → t.dev.get USH_MUD_STATUS.LINK 0 = state) ∧
      (¬ (s.dev.transferPending = false ∧ (state.val = 1 ∧ s.dev.get USH_MUD_STATUS.SPEED 0 ≠ 3 ∧ 2 ≤ besl.val ∨ 2 ≤ state.val ∧ s.dev.get
        USH_MUD_STATUS.SPEED 0 = 3)) → t.dev.get USH_MUD_STATUS.LINK 0 = 0)) ∧
  (∀ (s : State) (u2 enabled : Bool), s.dev.supply = .on → s.dev.is USH_MUD_CTL.CONNECT 0 = true →
    s.dev.is USH_MUD_STATUS.CONFIGURED 0 = true → s.dev.get USH_MUD_STATUS.LINK 0 ≠ 4 →
    NextIs (exec (.usbIdleLinkEntry u2 enabled) s) fun t =>
      (t.dev.get USH_MUD_STATUS.LINK 0 = if enabled = true ∧ s.dev.get USH_MUD_STATUS.SPEED 0 = 3 ∧ s.dev.transferPending = false then (if
        u2 then 3 else 2) else 0)) ∧
  (∀ (s : State), s.dev.supply = .on → s.dev.get USH_MUD_STATUS.LINK 0 = 4 → s.dev.is USH_MUD_STATUS.WAKE_PENDING 0 = true →
    NextIs (exec .remoteWake s) fun t =>
      t.dev.get USH_MUD_STATUS.LINK 0 = 0 ∧ t.dev.get USH_MUD_STATUS.WAKE_PENDING 0 = 0 ∧
      t.dev.get USH_MUD_WAKE.SIGNALLED 0 = min (s.dev.get USH_MUD_WAKE.SIGNALLED 0 + 1) 65535) ∧
  (∀ (s : State), s.dev.supply = .on → s.dev.get USH_MUD_STATUS.LINK 0 = 4 → NextIs (exec .hostResume s) fun t =>
      t.dev.get USH_MUD_STATUS.LINK 0 = 0 ∧
      (s.dev.is USH_MUD_STATUS.WAKE_PENDING 0 = true → t.dev.get USH_MUD_STATUS.WAKE_PENDING 0 = 0 ∧ t.dev.get USH_EVENTS.WAKE_COLLIDED 0
        = 1))

/-- In the configured device a request of the wrong length or out of place is stalled, and one that changes state and is not completed is
abandoned. GET_INFO and GET_RESPONSE answer. SUBMIT_COMMAND makes its tag outstanding. An image session opens, grows with its data, ends
with COMMIT where length and CRC-32 match, or is discarded. The log pipe opens, sends the records that follow its place, and closes. -/
def Obligations.ManagementUsbDevice : Prop :=
  (∀ (s : State) (len : Fin 65536), s.dev.supply = .on → s.dev.is USH_MUD_CTL.CONNECT 0 = true →
    s.dev.is USH_MUD_STATUS.CONFIGURED 0 = true → s.dev.get USH_MUD_STATUS.LINK 0 ≠ 4 → NextIs (exec (.getInfo len) s) fun t =>
      t.dev.out = s.dev.out ++ [if len.val = 64 then .respond "GET_INFO" [s.dev.moduleId, s.nv.serial, (if s.nv.booted = 0 then s.nv.fwA
        else s.nv.fwB).version, s.dev.servicePort, s.dev.get USH_MUD_STATUS.IMAGE_OPEN 0, s.dev.get USH_MUD_STATUS.LOG_OPEN 0, s.dev.get
        USH_MUD_STATUS.OUTSTANDING 0] else .respond "STALL GET_INFO" []]) ∧
  (∀ (s : State) (len : Fin 65536) (addr : Nat) (data : List Byte) (completes : Bool), s.dev.supply = .on →
    s.dev.is USH_MUD_CTL.CONNECT 0 = true → s.dev.is USH_MUD_STATUS.CONFIGURED 0 = true → s.dev.get USH_MUD_STATUS.LINK 0 ≠ 4 →
    NextIs (exec (.submitCommand len addr data completes) s) fun t =>
      (len.val ≠ 128 ∨ data.length ≠ 128 ∨ 16 ≤ s.dev.get USH_MUD_STATUS.OUTSTANDING 0 ∨ s.dev.mudTag (descriptorOf data).tag = true →
        t.dev.out = s.dev.out ++ [.respond "STALL SUBMIT_COMMAND" []] ∧ t.dev.mud = s.dev.mud) ∧
      (¬ (len.val ≠ 128 ∨ data.length ≠ 128 ∨ 16 ≤ s.dev.get USH_MUD_STATUS.OUTSTANDING 0 ∨ s.dev.mudTag (descriptorOf data).tag = true) →
        completes = false → t.dev.get USH_EVENTS.CTRL_ABANDONED 0 = 1 ∧ t.dev.mud = s.dev.mud) ∧
      (¬ (len.val ≠ 128 ∨ data.length ≠ 128 ∨ 16 ≤ s.dev.get USH_MUD_STATUS.OUTSTANDING 0 ∨ s.dev.mudTag (descriptorOf data).tag = true) →
        completes = true → t.dev.mudTag (descriptorOf data).tag = true)) ∧
  (∀ (s : State) (len tag : Fin 65536) (addr at_ : Nat), s.dev.supply = .on → s.dev.is USH_MUD_CTL.CONNECT 0 = true →
    s.dev.is USH_MUD_STATUS.CONFIGURED 0 = true → s.dev.get USH_MUD_STATUS.LINK 0 ≠ 4 →
    s.dev.mudDone.find? (fun r => r.1 == tag.val) = some (tag.val, addr, at_) → NextIs (exec (.getResponse len tag) s) fun t =>
      (len.val = 128 → t.dev.mudDone = s.dev.mudDone.filter fun r => r.1 != tag.val) ∧
      (len.val ≠ 128 → t.dev.mudDone = s.dev.mudDone ∧ t.dev.out = s.dev.out ++ [.respond "STALL GET_RESPONSE" []])) ∧
  (∀ (s : State) (len : Fin 65536) (target length crc : Word) (completes : Bool), s.dev.supply = .on →
    s.dev.is USH_MUD_CTL.CONNECT 0 = true → s.dev.is USH_MUD_STATUS.CONFIGURED 0 = true → s.dev.get USH_MUD_STATUS.LINK 0 ≠ 4 →
    NextIs (exec (.imageBegin len target length crc completes) s) fun t =>
      (len.val ≠ 16 ∨ s.dev.mud.session.isSome = true ∨ ¬ (target = 1 ∨ target = 2) ∨ 0x4000000 < length.toNat → t.dev.out = s.dev.out ++
        [.respond "STALL IMAGE_BEGIN" []] ∧ t.dev.mud = s.dev.mud) ∧
      (¬ (len.val ≠ 16 ∨ s.dev.mud.session.isSome = true ∨ ¬ (target = 1 ∨ target = 2) ∨ 0x4000000 < length.toNat) → completes = false →
        t.dev.get USH_EVENTS.CTRL_ABANDONED 0 = 1 ∧ t.dev.mud = s.dev.mud) ∧
      (¬ (len.val ≠ 16 ∨ s.dev.mud.session.isSome = true ∨ ¬ (target = 1 ∨ target = 2) ∨ 0x4000000 < length.toNat) → completes = true →
        t.dev.mud.session = some (target.toNat, length.toNat, crc.toNat, [])) ∧
      (¬ (len.val ≠ 16 ∨ s.dev.mud.session.isSome = true ∨ ¬ (target = 1 ∨ target = 2) ∨ 0x4000000 < length.toNat) → completes = true →
        t.dev.get USH_MUD_STATUS.IMAGE_OPEN 0 = 1)) ∧
  (∀ (s : State) (data got : List Byte) (target length crc : Nat), s.dev.supply = .on → s.dev.is USH_MUD_CTL.CONNECT 0 = true →
    s.dev.is USH_MUD_STATUS.CONFIGURED 0 = true → s.dev.get USH_MUD_STATUS.LINK 0 ≠ 4 →
    s.dev.mud.session = some (target, length, crc, got) → NextIs (exec (.imageData data) s) fun t =>
      (got.length + data.length ≤ length → t.dev.mud.session = some (target, length, crc, got ++ data)) ∧
      (length < got.length + data.length → t.dev.mud.session = none ∧ t.dev.get USH_EVENTS.IMAGE_ABORTED 0 = 1)) ∧
  (∀ (s : State) (len : Fin 65536) (completes : Bool) (got : List Byte) (target length crc : Nat), s.dev.supply = .on →
    s.dev.is USH_MUD_CTL.CONNECT 0 = true → s.dev.is USH_MUD_STATUS.CONFIGURED 0 = true → s.dev.get USH_MUD_STATUS.LINK 0 ≠ 4 →
    s.dev.mud.session = some (target, length, crc, got) → NextIs (exec (.imageCommit len completes) s) fun t =>
      (len.val ≠ 0 → t.dev.out = s.dev.out ++ [.respond "STALL IMAGE_COMMIT" []] ∧ t.dev.mud = s.dev.mud) ∧
      (¬ (len.val ≠ 0) → completes = false → t.dev.get USH_EVENTS.CTRL_ABANDONED 0 = 1 ∧ t.dev.mud = s.dev.mud) ∧
      (¬ (len.val ≠ 0) → completes = true → t.dev.mud.session = none) ∧
      (¬ (len.val ≠ 0) → completes = true → t.dev.get USH_MUD_STATUS.IMAGE_OPEN 0 = 0) ∧
      (¬ (len.val ≠ 0) → completes = true → got.length = length → crc32 got = crc → SMap.get [] t.dev.images target = got)) ∧
  (∀ (s : State) (len : Fin 65536) (completes : Bool), s.dev.supply = .on → s.dev.is USH_MUD_CTL.CONNECT 0 = true →
    s.dev.is USH_MUD_STATUS.CONFIGURED 0 = true → s.dev.get USH_MUD_STATUS.LINK 0 ≠ 4 →
    NextIs (exec (.imageAbort len completes) s) fun t =>
      (len.val ≠ 0 → t.dev.out = s.dev.out ++ [.respond "STALL IMAGE_ABORT" []] ∧ t.dev.mud = s.dev.mud) ∧
      (¬ (len.val ≠ 0) → completes = false → t.dev.get USH_EVENTS.CTRL_ABANDONED 0 = 1 ∧ t.dev.mud = s.dev.mud) ∧
      (¬ (len.val ≠ 0) → completes = true → t.dev.mud.session = none) ∧
      (¬ (len.val ≠ 0) → completes = true → t.dev.get USH_MUD_STATUS.IMAGE_OPEN 0 = 0)) ∧
  (∀ (s : State) (len : Fin 65536) (source : Word) (start : Nat) (completes : Bool), s.dev.supply = .on →
    s.dev.is USH_MUD_CTL.CONNECT 0 = true → s.dev.is USH_MUD_STATUS.CONFIGURED 0 = true → s.dev.get USH_MUD_STATUS.LINK 0 ≠ 4 →
    NextIs (exec (.logOpen len source start completes) s) fun t =>
      (len.val ≠ 16 ∨ source.toNat = 0 ∨ 3 < source.toNat → t.dev.out = s.dev.out ++ [.respond "STALL LOG_OPEN" []] ∧ t.dev.mud =
        s.dev.mud) ∧
      (¬ (len.val ≠ 16 ∨ source.toNat = 0 ∨ 3 < source.toNat) → completes = false → t.dev.get USH_EVENTS.CTRL_ABANDONED 0 = 1 ∧ t.dev.mud
        = s.dev.mud) ∧
      (¬ (len.val ≠ 16 ∨ source.toNat = 0 ∨ 3 < source.toNat) → completes = true → t.dev.mud.log = some (source.toNat, start)) ∧
      (¬ (len.val ≠ 16 ∨ source.toNat = 0 ∨ 3 < source.toNat) → completes = true → t.dev.get USH_MUD_STATUS.LOG_OPEN 0 = 1)) ∧
  (∀ (s : State) (len : Fin 65536) (completes : Bool), s.dev.supply = .on → s.dev.is USH_MUD_CTL.CONNECT 0 = true →
    s.dev.is USH_MUD_STATUS.CONFIGURED 0 = true → s.dev.get USH_MUD_STATUS.LINK 0 ≠ 4 → NextIs (exec (.logClose len completes) s) fun t =>
      (len.val ≠ 0 → t.dev.out = s.dev.out ++ [.respond "STALL LOG_CLOSE" []] ∧ t.dev.mud = s.dev.mud) ∧
      (¬ (len.val ≠ 0) → completes = false → t.dev.get USH_EVENTS.CTRL_ABANDONED 0 = 1 ∧ t.dev.mud = s.dev.mud) ∧
      (¬ (len.val ≠ 0) → completes = true → t.dev.mud.log = none) ∧
      (¬ (len.val ≠ 0) → completes = true → t.dev.get USH_MUD_STATUS.LOG_OPEN 0 = 0)) ∧
  (∀ (s : State) (count src pos : Nat), s.dev.supply = .on → s.dev.is USH_MUD_CTL.CONNECT 0 = true →
    s.dev.is USH_MUD_STATUS.CONFIGURED 0 = true → s.dev.get USH_MUD_STATUS.LINK 0 ≠ 4 → s.dev.mud.log = some (src, pos) →
    NextIs (exec (.logPipeSend count) s) fun t =>
      (src = 1 → t.dev.mud.log = some (1, (((s.dev.kept pos).take count).getLast?.map fun r => r.eseq.getD 0 + 1).getD pos) ∧
        t.dev.mud.armed = decide ((s.dev.kept pos).length < count)) ∧
      (src ≠ 1 → (t.dev.mud.log.map (·.1) = some src ∧ (t.dev.mud.log.map (·.2)).all (fun n => decide (pos ≤ n)) = true)))

/-- A disabled port discharges. A wet reading leaves WET with its event bit; a recheck leaves it only where every pin is dry. An attach
leaves the port a source or a sink with its roles; the cable is known by its marker, or by none. A hard reset, a lapse of EPR keep-alive
and an open CC leave their states; recovery and discharge end in theirs. -/
def Obligations.TypeCPorts : Prop :=
  (∀ (s : State) (port : Fin 16), s.dev.supply = .on → s.dev.is PD_PORT_POLICY.ENABLE port = false →
    NextIs (exec (.pdPortDisabled port) s) fun t =>
      t.dev.get PD_PORT_STATUS.STATE port = 7 ∧ t.dev.get PD_PORT_STATUS.VCONN port = 0 ∧ (t.dev.pd port).swap = none) ∧
  (∀ (s : State) (port : Fin 16) (reading : Moisture), s.dev.supply = .on → s.dev.pdState port = 0 →
    NextIs (exec (.moistureCheck port reading) s) fun t =>
      (wetReading reading = true → t.dev.get PD_PORT_STATUS.STATE port = 1 ∧ t.dev.get PD_EVENTS.WET port = 1) ∧
      (wetReading reading = false → t.dev.get PD_PORT_STATUS.STATE port = 0) ∧
      t.dev.get PD_MOIST.CC1_KOHM port = min 255 (reading.cc1 / 4000)) ∧
  (∀ (s : State) (port : Fin 16) (reading : Moisture), s.dev.supply = .on → s.dev.pdState port = 1 →
    NextIs (exec (.moistureRecheck port reading) s) fun t =>
      (t.dev.get PD_PORT_STATUS.STATE port = if (750000 ≤ reading.cc1 ∧ 750000 ≤ reading.cc2 ∧ 750000 ≤ reading.sbu1 ∧ 750000 ≤
        reading.sbu2) then 0 else 1)) ∧
  (∀ (s : State) (port : Fin 16), s.dev.supply = .on → s.dev.pdState port = 1 → NextIs (exec (.corrosion port) s) fun t =>
      t.dev.get PD_EVENTS.CORROSION port = 1 ∧ t.dev.get PD_PORT_STATUS.STATE port = 1) ∧
  (∀ (s : State) (port : Fin 16) (source cc2 : Bool), s.dev.supply = .on → s.dev.pdState port = 0 →
    s.dev.is PD_PORT_POLICY.ENABLE port = true → s.dev.hubLost = false → NextIs (exec (.typecAttach port source cc2) s) fun t =>
      (t.dev.get PD_PORT_STATUS.STATE port = if source then 2 else 3) ∧ t.dev.is PD_PORT_STATUS.DFP port = source ∧
      t.dev.is PD_PORT_STATUS.VCONN port = source ∧ t.dev.is PD_PORT_STATUS.CC2 port = cc2 ∧ (t.dev.pd port).source = source ∧
      (t.dev.pd port).discovering = true) ∧
  (∀ (s : State) (port : Fin 16) (marker : Marker), s.dev.supply = .on → (s.dev.pd port).discovering = true →
    s.dev.is PD_PORT_STATUS.VCONN port = true → NextIs (exec (.cableMarkerRead port marker) s) fun t =>
      t.dev.get PD_CABLE.ANSWERED port = 1 ∧ t.dev.get PD_CABLE.SPEED port = marker.speed ∧ t.dev.is PD_CABLE.EPR_OK port = marker.epr ∧
      t.dev.is PD_CABLE.AMP5 port = marker.amp5 ∧ t.dev.get TUN_PORT_STATUS.CABLE port = marker.speed ∧
      (t.dev.pd port).discovering = false) ∧
  (∀ (s : State) (port : Fin 16), s.dev.supply = .on → (s.dev.pd port).discovering = true →
    NextIs (exec (.cableMarkerTimeout port) s) fun t =>
      t.dev.get PD_CABLE.ANSWERED port = 0 ∧ t.dev.get PD_CABLE.EPR_OK port = 0 ∧ t.dev.get TUN_PORT_STATUS.CABLE port = 7 ∧
      (t.dev.pd port).discovering = false) ∧
  (∀ (s : State) (port : Fin 16), s.dev.supply = .on → s.dev.is PD_PORT_STATUS.EPR port = true → 2 ≤ s.dev.pdState port →
    s.dev.pdState port ≤ 5 → NextIs (exec (.eprKeepaliveLapse port) s) fun t =>
      t.dev.get PD_EVENTS.EPR_EXIT port = 1 ∧ t.dev.get PD_PORT_STATUS.STATE port = 6 ∧ t.dev.get PD_PORT_STATUS.EPR port = 0) ∧
  (∀ (s : State) (port : Fin 16), s.dev.supply = .on → 2 ≤ s.dev.pdState port → s.dev.pdState port ≤ 5 →
    NextIs (exec (.pdHardReset port) s) fun t =>
      t.dev.get PD_EVENTS.HARD_RESET port = 1 ∧ t.dev.get PD_PORT_STATUS.STATE port = 6 ∧ t.dev.get PD_PORT_STATUS.VBUS_MV port = 0 ∧
      t.dev.is PD_PORT_STATUS.DFP port = (s.dev.pd port).attachDfp ∧ (t.dev.pd port).source = (s.dev.pd port).attachSource ∧
      (t.dev.pd port).charge = 0) ∧
  (∀ (s : State) (port : Fin 16), s.dev.supply = .on → s.dev.pdState port = 6 → NextIs (exec (.hardResetRecovery port) s) fun t =>
      (t.dev.get PD_PORT_STATUS.STATE port = if (s.dev.pd port).attachSource then 2 else 3) ∧
      (((s.dev.pd port).failed.all fun k => (t.dev.pd port).hold.contains k) = true) ∧ (t.dev.pd port).failed = []) ∧
  (∀ (s : State) (port : Fin 16), s.dev.supply = .on → 2 ≤ s.dev.pdState port → s.dev.pdState port ≤ 6 →
    NextIs (exec (.ccOpen port) s) fun t =>
      t.dev.get PD_PORT_STATUS.STATE port = 7 ∧ (t.dev.pd port).swap = none ∧ (t.dev.pd port).waiting = [] ∧ (t.dev.pd port).charge = 0 ∧
      (s.dev.pdState port = 4 ∨ s.dev.pdState port = 5 → t.dev.get PD_EVENTS.TRANSITION_ABORTED port = 1)) ∧
  (∀ (s : State) (port : Fin 16), s.dev.supply = .on → s.dev.pdState port = 7 → s.dev.efState (vbusFuse port) ≠ 5 →
    NextIs (exec (.dischargeComplete port) s) fun t =>
      t.dev.get PD_PORT_STATUS.STATE port = 0 ∧ t.dev.get PD_PORT_STATUS.VBUS_MV port = 0 ∧ t.dev.pd port = { watch := true }) ∧
  (∀ (s : State) (port : Fin 16) (mv : Fin 65536), s.dev.supply = .on → s.dev.pdState port = 7 →
    NextIs (exec (.dischargeTimeout port mv) s) fun t =>
      t.dev.get PD_PORT_STATUS.STATE port = 7 ∧ t.dev.get PD_PORT_STATUS.VBUS_MV port = mv ∧ (t.dev.pd port).watch = true)

/-- A source offers up to its allowed power, a sink contracts for 5 V and 100 mA. A request the offer and the pool allow is charged, and a
new level is a transition that VBUS_WITHIN_RANGE ends. Headroom serves the first port that waits; a shrunken pool sheds. EPR mode is
entered where cable and power allow. A swap is not supported, waits, starts or is rejected, and completes with its roles. PD_POLICY_SET
writes the policy. -/
def Obligations.PdContractsAndSwaps : Prop :=
  (∀ (s : State) (port : Fin 16), s.dev.supply = .on → NextIs (exec (.sourceCapabilitiesOffer port) s) fun t =>
      (s.dev.pdState port = 2 → (s.dev.pd port).source = true → (s.dev.pd port).refused = false → t.dev = s.dev.offerUpTo port
        (s.dev.pAllow port)) ∧
      (s.dev.pdState port = 3 → t.dev.get PD_CONTRACT.MV port = 5000 ∧ t.dev.get PD_CONTRACT.MA port = 100)) ∧
  (∀ (s : State) (port : Fin 16) (request : PdRequest) (mw : Nat), s.dev.supply = .on → s.dev.pdState port = 2 →
    (s.dev.pd port).chargeFor request = some mw → NextIs (exec (.pdRequest port request) s) fun t =>
      (mw ≤ s.dev.pAllow port → (t.dev.pd port).charge = mw ∧ (t.dev.pd port).explicit = true) ∧
      (mw ≤ s.dev.pAllow port → s.dev.get PD_PORT_STATUS.VBUS_MV port ≠ (requestLevel request).1 → (t.dev.pd port).target = some
        (requestLevel request).1 ∧ t.dev.get PD_PORT_STATUS.STATE port = 5) ∧
      (s.dev.pAllow port < mw → t.dev = s.dev.emit (.signal "Reject" [port]))) ∧
  (∀ (s : State) (port : Fin 16) (mv : Nat), s.dev.supply = .on → s.dev.pdState port = 5 → (s.dev.pd port).target = some mv →
    NextIs (exec (.vbusWithinRange port) s) fun t =>
      t.dev.get PD_PORT_STATUS.VBUS_MV port = mv % 2 ^ 16 ∧ t.dev.get PD_PORT_STATUS.STATE port = 2 ∧ (t.dev.pd port).target = none) ∧
  (∀ (s : State) (p : Nat), s.dev.supply = .on →
    ((s.dev.pdOrder.find? fun p => s.dev.pdState p == 2 && (s.dev.pd p).source && ((s.dev.pd p).refused || s.dev.is
      PD_PORT_STATUS.POOL_LIMITED p)) = some p) →
    NextIs (exec .pdHeadroomGrowth s) fun t =>
      ((s.dev.pd p).refused = false → (t.dev.pd p).offer = offerOf (s.dev.pAllow p) (if s.dev.is PD_CABLE.AMP5 p then 5000 else 3000)
        (s.dev.is PD_PORT_STATUS.EPR p)) ∧
      ((s.dev.pd p).refused = true → 15000 ≤ s.dev.pdRoom p → s.dev.efState (vbusFuse p) = 0 → (t.dev.pd p).refused = false ∧ (t.dev.pd
        p).charge = 15000)) ∧
  (∀ (s : State), s.dev.supply = .on → NextIs (exec .pdPoolShed s) fun t =>
      (s.dev.pdOver = false → t.dev = s.dev) ∧ (∀ p ∈ s.dev.pdOrder, (t.dev.pd p).charge ≤ (s.dev.pd p).charge)) ∧
  (∀ (s : State) (port : Fin 16), s.dev.supply = .on → s.dev.pdState port = 2 → NextIs (exec (.eprModeEntry port) s) fun t =>
      (s.dev.is PD_CABLE.EPR_OK port = true → 100000 < s.dev.pAllow port → t.dev.get PD_PORT_STATUS.EPR port = 1 ∧ (t.dev.pd port).offer =
        offerOf (s.dev.pAllow port) (if s.dev.is PD_CABLE.AMP5 port then 5000 else 3000) true) ∧
      (s.dev.is PD_CABLE.EPR_OK port = false ∨ s.dev.pAllow port ≤ 100000 → t.dev = s.dev.emit (.signal "EPR entry refused" [port]))) ∧
  (∀ (s : State) (port : Fin 16) (k : PdSwap) (byPartner able : Bool), s.dev.supply = .on →
    NextIs (exec (.swapRequest port k byPartner able) s) fun t =>
      (k = .fr → t.dev = s.dev.emit (.signal "Not_Supported" [port])) ∧
      (k ≠ .fr → s.dev.pdState port = 4 ∨ s.dev.pdState port = 5 → (t.dev.pd port).waiting = (s.dev.pd port).waiting ++ [(k, byPartner,
        able)]) ∧
      (k ≠ .fr → s.dev.pdState port = 2 ∨ s.dev.pdState port = 3 → byPartner = true → s.dev.acceptsSwap port k = true → t.dev.get
        PD_PORT_STATUS.STATE port = 4 ∧ (t.dev.pd port).swap = some (k, false)) ∧
      (k ≠ .fr → s.dev.pdState port = 2 ∨ s.dev.pdState port = 3 → byPartner = true → s.dev.acceptsSwap port k = false → t.dev =
        s.dev.emit (.signal "Reject" [port, swapCode k])) ∧
      (s.dev.pdState port = 2 ∨ s.dev.pdState port = 3 → byPartner = false → s.dev.asksSwap port k = true → (s.dev.pd port).hold.contains
        k = false → able = true → t.dev.get PD_PORT_STATUS.STATE port = 4 ∧ (t.dev.pd port).swap = some (k, true))) ∧
  (∀ (s : State) (port : Fin 16) (k : PdSwap) (mine : Bool), s.dev.supply = .on → (s.dev.pd port).swap = some (k, mine) →
    (s.dev.pd port).waiting = [] → NextIs (exec (.swapComplete port) s) fun t =>
      (t.dev.pd port).swap = none ∧ (t.dev.get PD_PORT_STATUS.STATE port = if (t.dev.pd port).source then 2 else 3) ∧
      t.dev.is PD_PORT_STATUS.DFP port = (s.dev.is PD_PORT_STATUS.DFP port ^^ decide (k = .dr)) ∧
      (t.dev.pd port).source = ((s.dev.pd port).source ^^ decide (k = .pr)) ∧
      (k = .vconn → t.dev.is PD_PORT_STATUS.VCONN port = !s.dev.is PD_PORT_STATUS.VCONN port)) ∧
  (∀ (s : State) (port : Fin 16), s.dev.supply = .on → NextIs (exec (.swapRetryHoldExpiry port) s) fun t =>
      (t.dev.pd port).hold = []) ∧
  (∀ (s : State) (h : CmdHdr) (port swap : Byte) (policy : Word) (able : Bool), s.dev.supply = .on →
    s.dev.CarriesOut h 0x0604 [1, 2] s.dev.moduleId → s.dev.objectHeld h (· == .swap port.toNat) = false → port.toNat < 16 →
    swap.toNat ≤ 3 → policyBad policy.toNat = false → NextIs (exec (.pdPolicySet h port swap policy able) s) fun t =>
      (swap = 0 → t.dev.Ends h 0x0604 Status.ok) ∧
      (((swapOf swap.toNat).any fun k => (s.dev.pd port.toNat).hold.contains k) = true → t.dev.Ends h 0x0604 Status.swapHold) ∧
      (((swapOf swap.toNat).any fun k => (s.dev.pd port.toNat).hold.contains k) = false → t.dev.get PD_PORT_POLICY.PMAX port.toNat =
        bitsOf policy.toNat 7 0 ∧ t.dev.is PD_PORT_POLICY.ENABLE port.toNat = bitOf policy.toNat 31 ∧ t.dev.get PD_PORT_POLICY.PRIORITY
        port.toNat = bitsOf policy.toNat 25 24 ∧ t.dev.is PD_PORT_POLICY.DR_ACCEPT port.toNat = bitOf policy.toNat 28))

/-- A feed measured within its limits becomes present, cold after the loss of both, and a lost one absent; a front end that disconnects is
held off. The loss of both ends all but the stored configuration. The budget follows the feeds and stages. Shedding ends with the cages
within their pool or uncharged. BUDGET_SET that fits sets both splits. -/
def Obligations.SupplyAndBudget : Prop :=
  (∀ (s : State) (feed : Fin 2) (vrms : Fin 512) (freq : Fin 256), s.dev.supply = .on → s.dev.is (feedPresent feed) 0 = false →
    NextIs (exec (.feedPresent feed vrms freq) s) fun t =>
      ((85 ≤ vrms.val ∧ vrms.val ≤ 265 ∧ 47 ≤ freq.val ∧ freq.val ≤ 63) → t.dev.is (feedPresent feed) 0 = true ∧ t.dev.is (feedHigh feed)
        0 = false ∧ t.dev.get PWR_EVENTS.FEED_RESTORED 0 = 1) ∧
      (¬ (85 ≤ vrms.val ∧ vrms.val ≤ 265 ∧ 47 ≤ freq.val ∧ freq.val ≤ 63) → t.dev.is (feedPresent feed) 0 = false) ∧
      t.dev.get (if feed = 0 then PWR_FEED_A.VRMS else PWR_FEED_B.VRMS) 0 = vrms) ∧
  (∀ (s : State) (feed : Fin 2) (vrms : Fin 512) (freq : Fin 256), s.dev.supply = .off →
    (85 ≤ vrms.val ∧ vrms.val ≤ 265 ∧ 47 ≤ freq.val ∧ freq.val ≤ 63) → NextIs (exec (.feedPresent feed vrms freq) s) fun t =>
      t.dev.supply = .on ∧ t.mem = [] ∧ t.nv = s.nv ∧ t.dev.is (feedPresent feed) 0 = true) ∧
  (∀ (s : State) (feed : Fin 2) (vrms : Fin 512) (freq : Fin 256), s.dev.supply = .on → s.dev.is (feedPresent feed) 0 = true →
    NextIs (exec (.feedLost feed vrms freq) s) fun t =>
      t.dev.is (feedPresent feed) 0 = false ∧ t.dev.is (feedHigh feed) 0 = false ∧ t.dev.get PWR_EVENTS.FEED_LOST 0 = 1 ∧
      (t.dev.highBudget = true → t.dev.feeds ≠ [] → t.dev.get PWR_BUDGET.BUDGET_W 0 = 2400) ∧
      (t.dev.highBudget = false → t.dev.feeds ≠ [] → t.dev.get PWR_BUDGET.BUDGET_W 0 = 1150)) ∧
  (∀ (s : State), NextIs (exec .bothFeedsLost s) fun t =>
      t.dev.supply = .off ∧ t.mem = [] ∧ t.nv = s.nv ∧ t.dev.vits = [] ∧ t.dev.queues = [] ∧ t.dev.regs = []) ∧
  (∀ (s : State) (feed : Fin 2) (high : Bool), s.dev.supply = .on → s.dev.is (feedPresent feed) 0 = true →
    NextIs (exec (.lineCategoryChange feed high) s) fun t =>
      t.dev.is (feedHigh feed) 0 = high ∧
      (t.dev.get PWR_BUDGET.BUDGET_W 0 ≠ s.dev.get PWR_BUDGET.BUDGET_W 0 → t.dev.get PWR_EVENTS.LINE_CHANGE 0 = 1) ∧
      (t.dev.highBudget = true → t.dev.feeds ≠ [] → t.dev.get PWR_BUDGET.BUDGET_W 0 = 2400) ∧
      (t.dev.highBudget = false → t.dev.feeds ≠ [] → t.dev.get PWR_BUDGET.BUDGET_W 0 = 1150)) ∧
  (∀ (s : State) (feed : Fin 2), s.dev.supply = .on → NextIs (exec (.frontEndDisconnect feed) s) fun t =>
      t.dev.feedOff = s.dev.feedOff.filter (· ≠ feed.val) ++ [feed.val]) ∧
  (∀ (s : State), s.dev.supply = .on → NextIs (exec .loadShedding s) fun t =>
      (s.dev.pdOver = true ∨ s.dev.cageOver = true → t.dev.get PWR_EVENTS.SHED 0 = 1 ∧ (t.dev.cageOver = false ∨ ∀ c ∈ List.range 56,
        (t.dev.efuse c).charge = 0)) ∧
      (s.dev.pdOver = false → s.dev.cageOver = false → t.dev = s.dev)) ∧
  (∀ (s : State) (stage : Fin 3), s.dev.supply = .on → bitOf (s.dev.get PWR_STAGES.STAGE_OK 0) stage = true →
    NextIs (exec (.stageLost stage) s) fun t =>
      t.dev.get PWR_STAGES.STAGE_OK 0 = s.dev.get PWR_STAGES.STAGE_OK 0 - 2 ^ stage.val ∧ t.dev.get PWR_EVENTS.STAGE_LOST 0 = 1 ∧
      (t.dev.highBudget = true → t.dev.feeds ≠ [] → t.dev.get PWR_BUDGET.BUDGET_W 0 = 2400) ∧
      (t.dev.highBudget = false → t.dev.feeds ≠ [] → t.dev.get PWR_BUDGET.BUDGET_W 0 = 1150)) ∧
  (∀ (s : State) (h : CmdHdr) (highCage highPd lowCage lowPd : Fin 65536), s.dev.supply = .on →
    s.dev.CarriesOut h 0x0601 [1, 2] s.dev.moduleId → highCage.val + highPd.val ≤ 1535 → lowCage.val + lowPd.val ≤ 285 →
    highCage.val ≤ 1344 →
    (s.dev.get PWR_BUDGET.BUDGET_W 0 = 0 ∨ s.dev.get PWR_CAGE_USED.USED_MW 0 ≤ (if s.dev.is PWR_BUDGET.HIGH 0 then highCage.val else
      lowCage.val) * 1000) →
    NextIs (exec (.budgetSet h highCage highPd lowCage lowPd) s) fun t =>
      t.dev.Ends h 0x0601 Status.ok ∧ t.dev.splits = ⟨highCage, highPd, lowCage, lowPd⟩ ∧
      (s.dev.get PWR_BUDGET.BUDGET_W 0 ≠ 0 → t.dev.get PWR_POOLS.CAGE_W 0 = (if s.dev.is PWR_BUDGET.HIGH 0 then highCage.val else
        lowCage.val) ∧ t.dev.get PWR_POOLS.PD_W 0 = (if s.dev.is PWR_BUDGET.HIGH 0 then highPd.val else lowPd.val) ∧ t.dev.get
        PD_POOL_LIMIT.LIMIT_W 0 = t.dev.get PWR_POOLS.PD_W 0))

/-- EFUSE_ENABLE ends with the status of its test, charged and limited where it is OK; EFUSE_DISABLE and an EF_CTL disable leave an
undamaged fuse OFF; an EF_CTL enable by the Curator ramps or queues a cage its pool has room for. A ramp fails its gate check or ends ON,
and then power-good. At the limit the timer runs; a trip leaves RETRY_WAIT or LATCHED; retries, presence, backfeed and the switch test
leave their states. Identification and alerts make their records. -/
def Obligations.ElectronicFuses : Prop :=
  (∀ (s : State) (h : CmdHdr) (cage value scale priority : Byte), s.dev.supply = .on →
    s.dev.CarriesOut h 0x0602 [1, 2, 4] s.dev.moduleId → cage.toNat < 56 → scale.toNat ≤ 3 → priority.toNat ≤ 3 →
    NextIs (exec (.efuseEnable h cage value scale priority) s) fun t =>
      t.dev.Ends h 0x0602 (s.dev.tryCage cage.toNat value.toNat scale.toNat priority.toNat).1 ∧
      ((s.dev.tryCage cage.toNat value.toNat scale.toNat priority.toNat).1 = Status.ok → (t.dev.efuse cage.toNat).charge = splMilliwatts
        value.toNat scale.toNat ∧ t.dev.get EF_CTL.PRIORITY cage.toNat = priority.toNat ∧ t.dev.get EF_CTL.LIMIT_MA cage.toNat =
        splMilliamps (splMilliwatts value.toNat scale.toNat) % 2 ^ 13) ∧
      ((s.dev.tryCage cage.toNat value.toNat scale.toNat priority.toNat).1 ≠ Status.ok → (t.dev.efuse cage.toNat).charge = (s.dev.efuse
        cage.toNat).charge)) ∧
  (∀ (s : State) (h : CmdHdr) (cage : Byte), s.dev.supply = .on → s.dev.CarriesOut h 0x0603 [1, 2, 4] s.dev.moduleId → cage.toNat < 56 →
    NextIs (exec (.efuseDisable h cage) s) fun t =>
      t.dev.Ends h 0x0603 Status.ok ∧
      (s.dev.efState cage.toNat ≠ 5 → t.dev.get EF_STATUS.STATE cage.toNat = 0 ∧ t.dev.get EF_STATUS.PG cage.toNat = 0 ∧ (t.dev.efuse
        cage.toNat).charge = 0) ∧
      (s.dev.efState cage.toNat = 5 → t.dev.get EF_STATUS.STATE cage.toNat = 5)) ∧
  (∀ (s : State) (master : Fin 2048) (fuse : Fin 72) (value : Word), s.dev.supply = .on →
    NextIs (exec (.efCtlEnable master fuse value) s) fun t =>
      (master.val ≠ 0 → t.dev.efState fuse = s.dev.efState fuse) ∧
      (master.val = 0 → bitOf value.toNat 31 = true → fuse.val < 56 → s.dev.efState fuse = 0 → splMilliwatts (s.dev.allotment fuse).1
        (s.dev.allotment fuse).2 ≤ s.dev.cageRoom fuse → (t.dev.efuse fuse).charge = splMilliwatts (s.dev.allotment fuse).1
        (s.dev.allotment fuse).2 ∧ (t.dev.efState fuse = 1 ∨ fuse.val ∈ t.dev.efQueue)) ∧
      (master.val = 0 → bitOf value.toNat 31 = true → 56 ≤ fuse.val → s.dev.efState fuse = 0 → s.dev.hubLost = false → s.dev.pdState (fuse
        - 56) = 2 → (s.dev.pd (fuse - 56)).source = true → 15000 ≤ s.dev.pdRoom (fuse - 56) → t.dev.efState fuse = 1)) ∧
  (∀ (s : State) (master : Fin 2048) (fuse : Fin 72) (value : Word), s.dev.supply = .on →
    NextIs (exec (.efCtlDisable master fuse value) s) fun t =>
      (master.val ≠ 0 → t.dev.efState fuse = s.dev.efState fuse) ∧
      (master.val = 0 → bitOf value.toNat 30 = true → s.dev.efState fuse ≠ 5 → t.dev.efState fuse = 0 ∧ t.dev.get EF_STATUS.PG fuse = 0)) ∧
  (∀ (s : State) (fuse : Fin 72) (vgs : Fin 256), s.dev.supply = .on → s.dev.efState fuse = 1 →
    NextIs (exec (.efuseGateCheck fuse vgs) s) fun t =>
      (vgs.val < 50 → t.dev.efState fuse = 5 ∧ t.dev.get EF_STATUS.DAMAGE fuse = 1 ∧ t.dev.get EF_EVENTS.GATE_NO_RISE fuse = 1) ∧
      (50 ≤ vgs.val → t.dev = s.dev.put EF_STATUS.VGS fuse vgs)) ∧
  (∀ (s : State) (fuse : Fin 72), s.dev.supply = .on → s.dev.efState fuse = 1 → fuse.val ∉ s.dev.efQueue →
    NextIs (exec (.efuseGateFull fuse) s) fun t =>
      t.dev.get EF_STATUS.STATE fuse = 2 ∧ t.dev.get EF_STATUS.VGS fuse = 140) ∧
  (∀ (s : State) (fuse : Fin 72), s.dev.supply = .on → s.dev.efState fuse = 2 → s.dev.is EF_STATUS.TIMER fuse = false →
    NextIs (exec (.efusePowerGood fuse) s) fun t =>
      t.dev.get EF_STATUS.PG fuse = 1 ∧ (fuse.val < 56 → (t.dev.efuse fuse).pgAt = s.dev.now)) ∧
  (∀ (s : State) (fuse : Fin 72) (ma : Fin 65536), s.dev.supply = .on → (s.dev.efState fuse = 1 ∨ s.dev.efState fuse = 2) →
    s.dev.is EF_STATUS.TIMER fuse = false → NextIs (exec (.efuseCurrentLimit fuse ma) s) fun t =>
      t.dev.get EF_STATUS.TIMER fuse = 1 ∧ t.dev.get EF_STATUS.PG fuse = 0 ∧ t.dev.get EF_MEAS.MA fuse = ma) ∧
  (∀ (s : State) (fuse : Fin 72) (ma : Fin 65536), s.dev.supply = .on → NextIs (exec (.efuseCurrentNormal fuse ma) s) fun t =>
      t.dev.get EF_STATUS.TIMER fuse = 0 ∧ t.dev.get EF_MEAS.MA fuse = ma) ∧
  (∀ (s : State) (fuse : Fin 72), s.dev.supply = .on → (s.dev.efState fuse = 1 ∨ s.dev.efState fuse = 2) →
    s.dev.is EF_STATUS.TIMER fuse = true → NextIs (exec (.efuseFaultTimerExpiry fuse) s) fun t =>
      t.dev.efState fuse = (if s.dev.get EF_STATUS.RETRIES fuse = 8 then 4 else 3) ∧ t.dev.get EF_STATUS.PG fuse = 0 ∧
      t.dev.get EF_STATUS.TIMER fuse = 0 ∧ t.dev.get EF_EVENTS.TRIP fuse = 1) ∧
  (∀ (s : State) (fuse : Fin 72) (ma : Fin 65536), s.dev.supply = .on → (s.dev.efState fuse = 1 ∨ s.dev.efState fuse = 2) →
    2 * s.dev.get EF_CTL.LIMIT_MA fuse ≤ ma.val → NextIs (exec (.efuseFastTrip fuse ma) s) fun t =>
      t.dev.efState fuse = (if s.dev.get EF_STATUS.RETRIES fuse = 8 then 4 else 3) ∧ t.dev.get EF_EVENTS.FAST_TRIP fuse = 1 ∧
      t.dev.get EF_MEAS.MA fuse = ma) ∧
  (∀ (s : State) (fuse : Fin 72), s.dev.supply = .on → s.dev.efState fuse = 3 → s.dev.get EF_STATUS.RETRIES fuse < 8 →
    NextIs (exec (.efuseRetry fuse) s) fun t =>
      t.dev.get EF_STATUS.RETRIES fuse = s.dev.get EF_STATUS.RETRIES fuse + 1 ∧
      (t.dev.efState fuse = 1 ∨ fuse.val ∈ t.dev.efQueue ∨ (56 ≤ fuse.val ∧ s.dev.hubLost = true))) ∧
  (∀ (s : State) (fuse : Fin 72), s.dev.supply = .on → (s.dev.efState fuse = 3 ∨ s.dev.efState fuse = 4) →
    NextIs (exec (.efusePresenceChange fuse) s) fun t =>
      t.dev.efState fuse = 0 ∧ t.dev.get EF_EVENTS.PRESENCE_CHANGED_DURING_RETRY fuse = 1) ∧
  (∀ (s : State) (fuse : Fin 72), s.dev.supply = .on → s.dev.efState fuse = 2 → s.dev.is EF_STATUS.PG fuse = true →
    NextIs (exec (.efuseRetriesClear fuse) s) fun t =>
      t.dev = s.dev.put EF_STATUS.RETRIES fuse 0) ∧
  (∀ (s : State) (port : Fin 16) (mv : Fin 65536), s.dev.supply = .on → s.dev.efState (vbusFuse port) = 0 →
    (s.dev.pd port).watch = true → s.dev.pdState port ≠ 3 → NextIs (exec (.backfeed port mv) s) fun t =>
      (800 < mv.val → t.dev.efState (vbusFuse port) = 5 ∧ t.dev.get EF_STATUS.DAMAGE (vbusFuse port) = 2 ∧ t.dev.get EF_EVENTS.BACKFEED
        (vbusFuse port) = 1 ∧ t.dev.pdState port = 7) ∧
      (mv.val ≤ 800 → t.dev = s.dev.put EF_MEAS.MV (vbusFuse port) mv)) ∧
  (∀ (s : State) (port : Fin 16) (rises : Bool), s.dev.supply = .on → s.dev.efState (vbusFuse port) = 5 →
    s.dev.get EF_STATUS.DAMAGE (vbusFuse port) = 2 → NextIs (exec (.vbusSwitchTest port rises) s) fun t =>
      t.dev.efState (vbusFuse port) = (if rises then 5 else 0) ∧ t.dev.get EF_STATUS.DAMAGE (vbusFuse port) = (if rises then 3 else 0) ∧
      (rises = false → t.dev.pdState port = 0)) ∧
  (∀ (s : State) (cage : Fin 56), s.dev.supply = .on → (s.dev.efState cage = 1 ∨ s.dev.efState cage = 2) →
    NextIs (exec (.cagePresenceLostPowered cage) s) fun t =>
      t.dev.efState cage = 0 ∧ (t.dev.efuse cage).charge = 0) ∧
  (∀ (s : State) (cage : Fin 56) (block : Option (List Byte)), s.dev.supply = .on → s.dev.is EF_STATUS.PG cage = true →
    NextIs (exec (.cageId cage block) s) fun t =>
      (blockOk (block.getD []) = false → t.dev = s.dev.record 0x0F80 { efEv cage with detail := [0xFF, (block.getD []).getD 2 0] }) ∧
      (blockOk (block.getD []) = true → ((block.getD []).getD 2 0).toNat * 100 ≤ splMilliwatts (s.dev.efuse cage).value (s.dev.efuse
        cage).scale → t.dev = s.dev.record 0x0F80 { efEv cage with detail := [(block.getD []).getD 1 0, (block.getD []).getD 2 0] }) ∧
      (blockOk (block.getD []) = true → splMilliwatts (s.dev.efuse cage).value (s.dev.efuse cage).scale < ((block.getD []).getD 2 0).toNat
        * 100 → t.dev = (s.dev.record 0x0F80 { efEv cage with detail := [(block.getD []).getD 1 0, (block.getD []).getD 2 0] }).record
        0x0F81 (efEv cage))) ∧
  (∀ (s : State) (cage : Fin 56) (status : Byte), s.dev.supply = .on → s.dev.is EF_STATUS.PG cage = true →
    NextIs (exec (.cageAlert cage status) s) fun t =>
      t.dev = s.dev.record 0x0F82 { efEv cage with detail := [status] })

/-- A notice to the Curator is popped; its descriptor enters the command table where its caller may place one there, and a VMF's is read
first. A command with its final status leaves the table, unless the Registrar has still to record it. A forwarded command enters it with
its origin, or ends BUSY; progress is noted, or sent back; a silent remote module and a wait for objects that is too long end their
command. -/
def Obligations.CommandLifecycle : Prop :=
  (∀ (s : State) (channel : Fin 256) (source : Fetch) (n : Nat) (rest : List Nat), s.dev.supply = .on →
    s.dev.isReceiver 0 channel = true → s.dev.curatorDown = false → s.dev.is CUR_START_STATUS.READY 0 = true →
    hostCaller (s.dev.get MBX_BIND.SENDER channel) = false → s.dev.channel channel = n :: rest →
    NextIs (exec (.commandNoticeIntake channel source) s) fun t =>
      t.dev.channel channel = rest ∧
      (descriptorAllowed (s.dev.get MBX_BIND.SENDER channel) n = true → (t.dev.cmds.any fun c => c.addr == n && c.caller == (s.dev.get
        MBX_BIND.SENDER channel)) = true) ∧
      (descriptorAllowed (s.dev.get MBX_BIND.SENDER channel) n = false → t.dev.cmds = s.dev.cmds)) ∧
  (∀ (s : State) (channel : Fin 256) (n : Nat) (rest : List Nat), s.dev.supply = .on → s.dev.isReceiver 0 channel = true →
    s.dev.curatorDown = false → s.dev.is CUR_START_STATUS.READY 0 = true → hostCaller (s.dev.get MBX_BIND.SENDER channel) = true →
    s.dev.channel channel = n :: rest → descriptorAllowed (s.dev.get MBX_BIND.SENDER channel) n = true →
    (s.dev.vmf ((s.dev.get MBX_BIND.SENDER channel) - 0x400)).busMaster = true →
    NextIs (exec (.commandNoticeIntake channel .local_) s) fun t =>
      t.dev.channel channel = rest ∧
      (t.dev.vmf ((s.dev.get MBX_BIND.SENDER channel) - 0x400)).reads = (s.dev.vmf ((s.dev.get MBX_BIND.SENDER channel) - 0x400)).reads ++
        [(channel.val, n, false)]) ∧
  (∀ (s : State) (h : CmdHdr) (far : Option RemoteResult) (recorded writable : Bool) (c : Cmd), s.dev.supply = .on →
    s.dev.findCmd h = some c → NextIs (exec (.commandDone h far ⟨recorded, writable⟩) s) fun t =>
      ((c.withResult far).status ≠ Status.pending → (c.withResult far).composes = false ∨ recorded = true → t.dev.findCmd h = none) ∧
      ((c.withResult far).status = Status.pending → (t.dev.findCmd h).map (·.status) = some Status.pending) ∧
      ((c.withResult far).status ≠ Status.pending → (c.withResult far).composes = true → Wait.isRemote c.wait = false → recorded = false →
        s.dev.unrecorded c = false → ((t.dev.findCmd h).any fun x => x.asked.isSome && x.status == c.status) = true)) ∧
  (∀ (s : State) (h : CmdHdr) (source : Fin 8192) (x : Descriptor), s.dev.supply = .on →
    NextIs (exec (.commandForward h source x) s) fun t =>
      (s.dev.running < 64 ∨ s.dev.queued < 1024 → t.dev.findCmd h = some
        { s.dev.newCmd h x.opcode with origin := some source.val, stray := x.stray }) ∧
      (64 ≤ s.dev.running → 1024 ≤ s.dev.queued → t.dev.Ends h x.opcode Status.busy)) ∧
  (∀ (s : State) (h : CmdHdr) (m : Fin 8192) (c : Cmd), s.dev.supply = .on → s.dev.findCmd h = some c → c.wait = .remote m.val →
    NextIs (exec (.remoteProgress h (some m)) s) fun t =>
      (t.dev.findCmd h).map (·.heard) = some s.dev.now ∧ (t.dev.findCmd h).map (·.status) = some c.status) ∧
  (∀ (s : State) (h : CmdHdr) (c : Cmd) (m : Nat), s.dev.supply = .on → s.dev.findCmd h = some c → c.origin = some m →
    c.status = Status.pending → NextIs (exec (.remoteProgress h none) s) fun t =>
      t.dev = s.dev.tell m (.progress c.tag)) ∧
  (∀ (s : State) (h : CmdHdr) (m : Nat) (c : Cmd), s.dev.supply = .on → s.dev.findCmd h = some c → c.wait = .remote m →
    NextIs (exec (.remoteTimeout h) s) fun t =>
      t.dev.Ends h c.opcode Status.remoteTimeout) ∧
  (∀ (s : State) (h : CmdHdr) (c : Cmd), s.dev.supply = .on → s.dev.findCmd h = some c → c.wait = .objects →
    NextIs (exec (.objectWaitTimeout h) s) fun t =>
      t.dev.Ends h c.opcode Status.busy)

/-- Each information command carried out on its module ends OK with its response fields read from the state it finds: of ENDPOINT_INFO and
VITRINE_INFO, for a caller that may ask. -/
def Obligations.InformationCommands : Prop :=
  (∀ (s : State) (h : CmdHdr), s.dev.supply = .on → s.dev.CarriesOut h 0x0101 [1, 2, 4] s.dev.moduleId →
    NextIs (exec (.moduleInfo h) s) fun t =>
      t.dev.Ends h 0x0101 Status.ok ∧
      ((t.dev.cmdOf h 0x0101).resp = [(0, 2, s.dev.moduleId), (2, 2, s.nv.image.version), (4, 4, bitVal (s.dev.registrar == some
        s.dev.moduleId) + 2 * s.dev.get PWR_BUDGET.HIGH 0 + 4 * s.dev.get PWR_BUDGET.SINGLE_FEED 0 + 16 * s.dev.get PWR_PS_STATUS.STATE
        0), (8, 8, s.nv.serial), (16, 4, (s.dev.vits.filter fun v => v.2.live).length), (20, 4, s.dev.get TRK_FREE.UNALLOCATED 0)])) ∧
  (∀ (s : State) (h : CmdHdr) (first : Fin 65536), s.dev.supply = .on → s.dev.CarriesOut h 0x0102 [1, 2, 4] s.dev.moduleId →
    first.val < 512 → NextIs (exec (.portList h first) s) fun t =>
      t.dev.Ends h 0x0102 Status.ok ∧
      ((t.dev.cmdOf h 0x0102).resp = (2, 2, (((List.range 512).filter fun p => decide (first.val ≤ p) && s.dev.configured p).drop
        24).head?.getD 0xFFFF) :: ((((List.range 512).filter fun p => decide (first.val ≤ p) && s.dev.configured p).take 24).zipIdx.map
        fun x => (8 + 4 * x.2, 4, s.dev.portWord x.1))) ∧
      ((t.dev.cmdOf h 0x0102).detail = min 24 ((List.range 512).filter fun p => decide (first.val ≤ p) && s.dev.configured p).length)) ∧
  (∀ (s : State) (h : CmdHdr) (first : Word), s.dev.supply = .on → s.dev.CarriesOut h 0x0103 [1, 2, 4] s.dev.moduleId →
    NextIs (exec (.endpointList h first) s) fun t =>
      t.dev.Ends h 0x0103 Status.ok ∧
      ((t.dev.cmdOf h 0x0103).resp = (4, 4, if 12 < ((s.dev.endpoints.filter fun e => e.2.exists_).drop first.toNat).length then
        first.toNat + 12 else 0xFFFFFFFF) :: ((((s.dev.endpoints.filter fun e => e.2.exists_).drop first.toNat).take 12).zipIdx.map fun x
        => (8 + 8 * x.2, 8, s.dev.endpointEntry (x.1.1 / 256) (x.1.1 % 256)))) ∧
      ((t.dev.cmdOf h 0x0103).detail = min 12 ((s.dev.endpoints.filter fun e => e.2.exists_).drop first.toNat).length)) ∧
  (∀ (s : State) (h : CmdHdr) (fpid : Word) (ld : Byte) (p e : Nat), s.dev.supply = .on →
    s.dev.CarriesOut h 0x0104 [1, 2, 4] (fpidModule (fpidField fpid.toNat)) → fpidPort (fpidField fpid.toNat) = p →
    s.dev.findEndpoint p ld.toNat = some e →
    (s.dev.roleOf h ≠ 3 ∨ s.dev.ownVitrine h (((s.dev.endpoint p e).bound.map fun b => b.gvh).getD 0xFFFFFFFF) = true) →
    NextIs (exec (.endpointInfo h fpid ld) s) fun t =>
      t.dev.Ends h 0x0104 Status.ok ∧
      ((t.dev.cmdOf h 0x0104).resp = [(8, 2, (s.dev.endpoint p e).facts.vendor), (10, 2, (s.dev.endpoint p e).facts.device), (12, 4,
        (s.dev.endpoint p e).facts.classCode), (16, 4, (((s.dev.endpoint p e).bound.map fun b => b.gvh).getD 0xFFFFFFFF)), (20, 1,
        (s.dev.endpoint p e).facts.functions), (21, 1, (s.dev.endpoint p e).bars.length), (24, 8, ((s.dev.endpoint p e).bars.map fun b =>
        2 ^ b.1).sum), (32, 48, (s.dev.endpoint p e).identity)])) ∧
  (∀ (s : State) (h : CmdHdr) (gvh : Word) (lv : Nat), s.dev.supply = .on → s.dev.CarriesOut h 0x0105 [1, 2, 4] s.dev.moduleId →
    s.dev.lvidOf (gvhField gvh.toNat) = some lv → s.dev.objectHeld h (Wait.holdsNone lv) = false →
    s.dev.recording h 0x0105 (gvhField gvh.toNat) = false → (s.dev.roleOf h ≠ 3 ∨ s.dev.ownVitrine h (gvhField gvh.toNat) = true) →
    NextIs (exec (.vitrineInfo h gvh) s) fun t =>
      t.dev.Ends h 0x0105 Status.ok ∧
      ((t.dev.cmdOf h 0x0105).resp = [(4, 1, s.dev.get VIT_STATE.STATE lv), (5, 1, s.dev.get VIT_PORT.NVDP lv), (6, 1, (s.dev.vit
        lv).ctoCode), (7, 1, (s.dev.vit lv).bindings.length), (8, 4, s.dev.upFpid lv), (12, 4, (s.dev.vit lv).basinMin), (16, 4, s.dev.get
        TRK_VIT_QUOTA.QUOTA lv), (20, 4, s.dev.inflight lv), (24, 8, ((s.dev.vit lv).bindings.map fun b => 2 ^ b.k).sum), (32, 2, lv)])) ∧
  (∀ (s : State) (h : CmdHdr), s.dev.supply = .on → s.dev.CarriesOut h 0x0901 [1, 2, 4] s.dev.moduleId →
    NextIs (exec (.timeGet h) s) fun t =>
      t.dev.Ends h 0x0901 Status.ok ∧
      (t.dev.cmdOf h 0x0901).resp = [(0, 8, s.dev.now), (8, 1, s.dev.get TIM_STATE.STATE 0), (9, 1, s.dev.get TIM_STATE.SOURCE 0), (12, 4,
        s.dev.get TIM_ERR_EST.ERR_PS 0)])

/-- POWER_STATE for ACTIVE or TRIM sets the base state and the state. CATALOGUE_CONFIG and SPECIMEN_CONFIG with fields in range set the
stream of the module or of the tenant. COUNTER_CLEAR_STICKY clears the sticky bits of the counters named. TIME_SOURCE_SET sets source and
priority. SCHEDULE places a command, SCHEDULE_CANCEL takes it out, and a due one enters the command table. -/
def Obligations.ModuleCommands : Prop :=
  (∀ (s : State) (h : CmdHdr) (target auto : Byte), s.dev.supply = .on → s.dev.CarriesOut h 0x0605 [1, 2] s.dev.moduleId →
    target.toNat < 2 → s.dev.entering = false → NextIs (exec (.powerState h target auto) s) fun t =>
      t.dev.Ends h 0x0605 Status.ok ∧ t.dev.get PWR_MODE.BASE 0 = target.toNat ∧ t.dev.get PWR_MODE.AUTO 0 = auto.toNat % 2 ∧
      t.dev.get PWR_PS_STATUS.STATE 0 = target.toNat) ∧
  (∀ (s : State) (h : CmdHdr) (scope dest : Byte) (count : Fin 65536) (first period ring : Word) (addr n : Nat), s.dev.supply = .on →
    s.dev.CarriesOut h 0x0701 [1, 2] s.dev.moduleId →
    badCatalogue (tenantBank h) scope.toNat dest.toNat count.val first.toNat period.toNat ring.toNat = none →
    ((tenantOf h).map (· + 1)).getD 0 = n → NextIs (exec (.catalogueConfig h scope dest count first period ring addr) s) fun t =>
      t.dev.Ends h 0x0701 Status.ok ∧
      (scope = 1 → (t.dev.cat n).scope = 1 ∧ (t.dev.cat n).first = first.toNat ∧ (t.dev.cat n).banks = count.val) ∧
      (scope ≠ 2 → (t.dev.cat n).period = period.toNat ∧ (t.dev.cat n).ring = if ring = 0 then 0x40000000 else ring.toNat) ∧
      (scope = 2 → (t.dev.cat n).ring = 0)) ∧
  (∀ (s : State) (h : CmdHdr) (on k : Byte) (mask : Fin 65536) (port gvh ring : Word) (addr n : Nat), s.dev.supply = .on →
    s.dev.CarriesOut h 0x0702 [1, 2] s.dev.moduleId →
    (badSpecimen (tenantOf h).isSome (((tenantOf h).map fun lv => s.dev.gvh lv).getD 0) on.toNat k.toNat mask.val port.toNat gvh.toNat
      ring.toNat addr = none) →
    ((tenantOf h).map (· + 1)).getD 0 = n → NextIs (exec (.specimenConfig h on k mask port gvh ring addr) s) fun t =>
      t.dev.Ends h 0x0702 Status.ok ∧ (t.dev.spc n).on = decide (on ≠ 0) ∧
      (on ≠ 0 → (t.dev.spc n).k = k.toNat ∧ (t.dev.spc n).mask = mask.val ∧ (t.dev.spc n).port = port.toNat ∧ (t.dev.spc n).gvh =
        gvh.toNat ∧ (t.dev.spc n).ring = if ring = 0 then 2 ^ 32 else ring.toNat)) ∧
  (∀ (s : State) (h : CmdHdr) (bank : Word) (first count : Byte), s.dev.supply = .on → s.dev.CarriesOut h 0x0703 [1, 2] s.dev.moduleId →
    bank.toNat < 1544 → (s.dev.roleOf h ≠ 3 ∨ tenantBank h = some bank.toNat) →
    (count = 0 ∨ first.toNat + count.toNat ≤ (bankWords bank.toNat).2) → (count = 0 ∨ first.toNat < (bankWords bank.toNat).2) →
    NextIs (exec (.counterClearSticky h bank first count) s) fun t =>
      t.dev.Ends h 0x0703 Status.ok ∧
      (∀ i ∈ List.range (if count = 0 then (bankWords bank.toNat).2 else count.toNat), (SMap.get {} t.dev.ctrs ((bankWords bank.toNat).1 +
        (if count = 0 then 0 else first.toNat) + i)).sat = false ∧ (SMap.get {} t.dev.ctrs ((bankWords bank.toNat).1 + (if count = 0 then
        0 else first.toNat) + i)).wrap = false)) ∧
  (∀ (s : State) (h : CmdHdr) (source prio : Byte) (signal : Bool), s.dev.supply = .on → s.dev.CarriesOut h 0x0902 [1] s.dev.moduleId →
    source.toNat ≤ 2 → (source = 0 ∨ signal = true) → NextIs (exec (.timeSourceSet h source prio signal) s) fun t =>
      t.dev.Ends h 0x0902 Status.ok ∧ t.dev.get TIM_SRC_CFG.SOURCE 0 = source.toNat ∧ t.dev.get TIM_SRC_CFG.PRIO 0 = prio.toNat) ∧
  (∀ (s : State) (h : CmdHdr) (time addr : Nat) (source : Fetch) (bs : List Byte) (id : Nat), s.dev.supply = .on →
    s.dev.CarriesOut h 0x0903 [1, 2] s.dev.moduleId → fetched s.mem source addr 128 = some bs → s.dev.now + msTicks 1 ≤ time →
    time ≤ s.dev.now + msTicks 86400000 → s.dev.freeSchedule = some id → headerFault (descriptorOf bs) = none →
    schedulable (descriptorOf bs).opcode = true → NextIs (exec (.schedule h time addr source) s) fun t =>
      t.dev.Ends h 0x0903 Status.ok ∧
      t.dev.scheduled.map (fun e => (e.id, e.time, e.cmd.opcode)) = s.dev.scheduled.map (fun e => (e.id, e.time, e.cmd.opcode)) ++ [(id,
        time, (descriptorOf bs).opcode)] ∧
      (t.dev.cmdOf h 0x0903).resp = [(24, 2, id)]) ∧
  (∀ (s : State) (h : CmdHdr) (id : Fin 65536), s.dev.supply = .on → s.dev.CarriesOut h 0x0904 [1, 2] s.dev.moduleId →
    ((s.dev.scheduled.find? fun e => e.id == id.val).isSome = true) → NextIs (exec (.scheduleCancel h id) s) fun t =>
      t.dev.Ends h 0x0904 Status.ok ∧ (t.dev.scheduled = s.dev.scheduled.filter fun e => e.id != id.val)) ∧
  (∀ (s : State) (id : Fin 65536) (e : Sched), s.dev.supply = .on → ((s.dev.scheduled.find? fun e => e.id == id.val) = some e) →
    NextIs (exec (.scheduledCommandDue id) s) fun t =>
      (t.dev.scheduled = s.dev.scheduled.filter fun e => e.id != id.val) ∧
      t.dev.cmds = s.dev.cmds ++ [{ e.cmd with since := s.dev.now, heard := s.dev.now }])

/-- IMAGE_STAGE stages a fetched image whose CRC-32 matches. FW_WRITE stores a staged one as its target: firmware, rear-lane table, trust
anchors or Docent image. FW_ACTIVATE names the next boot's image and may reset. ROLE_SET sets a Docent's role in the register and the
stored configuration. RANGE_SET writes its table entry. MODULE_RESET resets when confirmed. -/
def Obligations.FirmwareRolesAndRanges : Prop :=
  (∀ (s : State) (h : CmdHdr) (target : Byte) (length : Word) (addr : Nat) (crc : Word) (source : Fetch) (bs : List Byte),
    s.dev.supply = .on → s.dev.CarriesOut h 0x0B01 [2, 4] s.dev.moduleId → 1 ≤ target.toNat → target.toNat ≤ 4 →
    (s.dev.roleOf h ≠ 4 ∨ target.toNat ≤ 2) → fetched s.mem source addr length.toNat = some bs → crc32 bs = crc.toNat →
    NextIs (exec (.imageStage h target length addr crc source) s) fun t =>
      t.dev.Ends h 0x0B01 Status.ok ∧ SMap.get [] t.dev.images target.toNat = bs) ∧
  (∀ (s : State) (h : CmdHdr) (target : Byte) (signed checks : Bool) (version : Fin 65536), s.dev.supply = .on →
    s.dev.CarriesOut h 0x0B02 [2, 4] s.dev.moduleId → 1 ≤ target.toNat → target.toNat ≤ 4 → (s.dev.roleOf h ≠ 4 ∨ target.toNat ≤ 2) →
    (SMap.get [] s.dev.images target.toNat) ≠ [] → checks = true → (target = 1 → signed = true) →
    (target = 2 → (eqTableOf (SMap.get [] s.dev.images target.toNat)).isSome = true) →
    NextIs (exec (.fwWrite h target signed checks version) s) fun t =>
      t.dev.Ends h 0x0B02 Status.ok ∧
      (target = 1 → t.nv = if s.nv.booted = 0 then { s.nv with fwB :=
        { bytes := (SMap.get [] s.dev.images target.toNat), version := version, checked := true } } else { s.nv with fwA :=
        { bytes := (SMap.get [] s.dev.images target.toNat), version := version, checked := true } }) ∧
      (target = 2 → t.nv = { s.nv with eqTable := (SMap.get [] s.dev.images target.toNat) } ∧ t.dev.eqTable = eqTableOf (SMap.get []
        s.dev.images target.toNat)) ∧
      (target = 3 → t.nv = { s.nv with anchors := (SMap.get [] s.dev.images target.toNat) }) ∧
      (target = 4 → (SMap.get [] s.dev.images target.toNat).length ≤ regionDocent.2 → readBytes t.mem (ddrBase + regionDocent.1) (SMap.get
        [] s.dev.images target.toNat).length = (SMap.get [] s.dev.images target.toNat))) ∧
  (∀ (s : State) (h : CmdHdr) (image reset : Byte), s.dev.supply = .on → s.dev.CarriesOut h 0x0B03 [2, 4] s.dev.moduleId →
    image.toNat ≤ 1 → reset.toNat ≤ 1 → (if image = 0 then s.nv.fwA else s.nv.fwB).checked = true →
    NextIs (exec (.fwActivate h image reset) s) fun t =>
      t.nv = { s.nv with nextImage := image.toNat } ∧ (reset = 0 → t.dev.Ends h 0x0B03 Status.ok) ∧
      (reset = 1 → t.dev.cmds = [] ∧ t.dev.vits = [] ∧ t.dev.booted = false)) ∧
  (∀ (s : State) (h : CmdHdr) (docent role : Byte), s.dev.supply = .on → s.dev.CarriesOut h 0x0B04 [1] s.dev.moduleId →
    docent.toNat < 16 → (role = 0 ∨ role = 1 ∨ role = 2 ∨ role = 4) → NextIs (exec (.roleSet h docent role) s) fun t =>
      t.dev.Ends h 0x0B04 Status.ok ∧
      (docent.toNat < 8 → t.dev.get CUR_DOC_ROLE_LO.ROLE 0 = setNibble (s.dev.get CUR_DOC_ROLE_LO.ROLE 0) docent.toNat role.toNat % 2 ^
        32) ∧
      (8 ≤ docent.toNat → t.dev.get CUR_DOC_ROLE_HI.ROLE 0 = setNibble (s.dev.get CUR_DOC_ROLE_HI.ROLE 0) (docent.toNat - 8) role.toNat %
        2 ^ 32) ∧
      t.nv.docRoles = some (t.dev.get CUR_DOC_ROLE_LO.ROLE 0, t.dev.get CUR_DOC_ROLE_HI.ROLE 0)) ∧
  (∀ (s : State) (h : CmdHdr) (entry flags : Byte) (base limit attr fpid : Word) (addr : Nat), s.dev.supply = .on →
    s.dev.CarriesOut h 0x0B05 [1, 2] s.dev.moduleId → badRange entry.toNat flags.toNat base.toNat limit.toNat attr.toNat addr = none →
    NextIs (exec (.rangeSet h entry flags base limit attr fpid addr) s) fun t =>
      t.dev.Ends h 0x0B05 Status.ok ∧ t.dev.get EBR_RAT_BASE.VALID entry.toNat = flags.toNat ∧
      t.dev.get EBR_RAT_BASE.BASE_PG entry.toNat = base.toNat ∧ t.dev.get EBR_RAT_LIMIT.LIMIT_PG entry.toNat = limit.toNat ∧
      t.dev.get EBR_RAT_ATTR.DOCENT_MASK entry.toNat = bitsOf attr.toNat 31 16 ∧
      t.dev.get EBR_RAT_ATTR.KIND entry.toNat = bitsOf attr.toNat 13 12 ∧ t.dev.is EBR_RAT_ATTR.WRITE entry.toNat = bitOf attr.toNat 14 ∧
      t.dev.get EBR_RAT_TARGET.FPID entry.toNat = fpidField fpid.toNat % 2 ^ 22) ∧
  (∀ (s : State) (h : CmdHdr) (confirm : Word), s.dev.supply = .on → s.dev.CarriesOut h 0x0B06 [1, 2, 4] s.dev.moduleId →
    NextIs (exec (.moduleReset h confirm) s) fun t =>
      (confirm = 0x5120 → t.dev.vits = [] ∧ t.dev.queues = [] ∧ t.dev.cmds = [] ∧ t.dev.booted = false) ∧
      (confirm ≠ 0x5120 → t.dev.Ends h 0x0B06 Status.badParam))

/-- A post by the sender appends its notice, or is refused by a full queue; a pop by the receiver removes the head; other masters change
neither. The Curator's lock closes the table. An abort empties a master's channels and marks those it receives from. A cleared Bus Master
Enable, an FLR and a read timeout end the VMF's requests. -/
def Obligations.MailboxesAndVmf : Prop :=
  (∀ (s : State) (master : Fin 2048) (channel : Fin 256) (value : Word), s.dev.supply = .on →
    NextIs (exec (.mailboxPost master channel value) s) fun t =>
      (s.dev.isSender master channel = true → (s.dev.channel channel).length < 16 → t.dev.channel channel = s.dev.channel channel ++
        [value.toNat * 2 ^ 32 + s.dev.get MBX_CH_PTR_LO.PTR channel]) ∧
      (s.dev.isSender master channel = true → t.dev.get MBX_CH_PTR_HI.PTR channel = value.toNat) ∧
      (s.dev.isSender master channel = true → 16 ≤ (s.dev.channel channel).length → t.dev.channel channel = s.dev.channel channel ∧
        t.dev.get MBX_CH_STATUS.REFUSED channel = 1) ∧
      (s.dev.isSender master channel = false → t.dev.channel channel = s.dev.channel channel)) ∧
  (∀ (s : State) (master : Fin 2048) (channel : Fin 256) (value : Word), s.dev.supply = .on →
    NextIs (exec (.mailboxPop master channel value) s) fun t =>
      (t.dev.channel channel = if s.dev.isReceiver master channel = true ∧ bitOf value.toNat 0 = true then (s.dev.channel channel).tail
        else s.dev.channel channel)) ∧
  (∀ (s : State) (master : Fin 2048) (value : Word), s.dev.supply = .on → NextIs (exec (.mbxLockWrite master value) s) fun t =>
      t.dev.is MBX_LOCK.LOCK 0 = (s.dev.is MBX_LOCK.LOCK 0 || decide (master = 0) && bitOf value.toNat 0)) ∧
  (∀ (s : State) (master : Fin 2048) (reason : Fin 16) (channel : Fin 256), s.dev.supply = .on →
    NextIs (exec (.channelAborted master reason) s) fun t =>
      (s.dev.isReceiver master channel = true → t.dev.channel channel = [] ∧ t.dev.get MBX_CH_STATUS.ABORTED channel = 1 ∧ t.dev.get
        MBX_CH_STATUS.REASON channel = reason) ∧
      (s.dev.isSender master channel = true → t.dev.channel channel = []) ∧
      (s.dev.isSender master channel = false → s.dev.isReceiver master channel = false → t.dev.channel channel = s.dev.channel channel)) ∧
  (∀ (s : State) (lvid : Fin 1024), s.dev.supply = .on → NextIs (exec (.vmfBmeClear lvid) s) fun t =>
      (t.dev.vmf lvid).busMaster = false ∧ ((t.dev.vmf lvid).reads = (s.dev.vmf lvid).reads.map fun r => (r.1, r.2.1, true))) ∧
  (∀ (s : State) (lvid : Fin 1024), s.dev.supply = .on → NextIs (exec (.vmfFlr lvid) s) fun t =>
      ((s.dev.vmf lvid).reads = [] → t.dev.vmf lvid = {}) ∧
      ((s.dev.vmf lvid).reads ≠ [] → (t.dev.vmf lvid).flr = true ∧ (t.dev.vmf lvid).busMaster = false ∧ (t.dev.vmf lvid).reads =
        (s.dev.vmf lvid).reads.map fun r => (r.1, r.2.1, true))) ∧
  (∀ (s : State) (lvid : Fin 1024) (r : Nat × Nat × Bool) (rest : List (Nat × Nat × Bool)), s.dev.supply = .on →
    (s.dev.vmf lvid).reads = r :: rest → NextIs (exec (.vmfReadTimeout lvid) s) fun t =>
      (t.dev.vmf lvid).reads = rest ∧ ((s.dev.vmf lvid).flr = true → rest = [] → t.dev.vmf lvid = {}))

/-- RUN set by the Curator starts a core and cleared stops it; a reset empties its buffer and reservation. A store that the map allows
enters the buffer, waits for a full one, or traps; the oldest entry of a path is delivered. FENCE and WFI wait for the buffer and the
stores at the bridge. LR reserves its line; SC stores only while it holds. Atomics outside memory trap or fail, and refused accesses trap.
The timer is pending when due, and taken it ends a reservation and a wait. -/
def Obligations.DocentCores : Prop :=
  (∀ (s : State) (master : Fin 2048) (core : Fin 16) (value : Word), s.dev.supply = .on →
    NextIs (exec (.docCoreRunSet master core value) s) fun t =>
      (master.val ≠ 0 → t.dev.get DOC_CORE_CTL.RUN core = s.dev.get DOC_CORE_CTL.RUN core) ∧
      (master.val = 0 → t.dev.is DOC_CORE_CTL.RUN core = bitOf value.toNat 31) ∧
      (master.val = 0 → bitOf value.toNat 31 = true → s.dev.is DOC_CORE_CTL.RUN core = false → bitOf value.toNat 30 = false → s.dev.get
        DOC_CORE_STATUS.STATE core ≠ 4 → t.dev.get DOC_CORE_STATUS.STATE core = 1)) ∧
  (∀ (s : State) (master : Fin 2048) (core : Fin 16) (value : Word), s.dev.supply = .on →
    NextIs (exec (.docentReset master core value) s) fun t =>
      (master.val ≠ 0 → t.dev.get DOC_CORE_STATUS.STATE core = s.dev.get DOC_CORE_STATUS.STATE core) ∧
      (master.val = 0 → bitOf value.toNat 31 = false → t.dev.get DOC_CORE_CTL.RUN core = 0 ∧ t.dev.get DOC_CORE_STATUS.STATE core = 0) ∧
      (master.val = 0 → bitOf value.toNat 30 = true ∨ (s.dev.is DOC_CORE_CTL.RUN core = true ∧ bitOf value.toNat 31 = false) → (t.dev.core
        core).stb = [] ∧ (t.dev.core core).reserved = none ∧ (t.dev.readsOf (0x010 + core)) = [])) ∧
  (∀ (s : State) (core : Fin 16), s.dev.supply = .on → s.dev.coreRuns core = true → NextIs (exec (.docentFence core) s) fun t =>
      ((s.dev.core core).stb ≠ [] ∨ (s.dev.winStores.any fun w => w.master == 0x010 + core.val) = true → (t.dev.core core).fence = true) ∧
      ((s.dev.core core).stb = [] → (s.dev.winStores.any fun w => w.master == 0x010 + core.val) = false → (t.dev.core core).fence = false
        ∧ t.dev.get DOC_CORE_STATUS.STATE core = 1)) ∧
  (∀ (s : State) (core : Fin 16), s.dev.supply = .on → s.dev.coreRuns core = true → NextIs (exec (.docentWfi core) s) fun t =>
      ((s.dev.core core).stb ≠ [] ∨ (s.dev.winStores.any fun w => w.master == 0x010 + core.val) = true → (t.dev.core core).wfi = true) ∧
      ((s.dev.core core).stb = [] → (s.dev.winStores.any fun w => w.master == 0x010 + core.val) = false → (t.dev.core core).wfi = false ∧
        t.dev.get DOC_CORE_STATUS.STATE core = if (s.dev.core core).timer then 1 else 2)) ∧
  (∀ (s : State) (core : Fin 16) (addr : Nat) (data : List Byte), s.dev.supply = .on → s.dev.coreRuns core = true →
    docentRefuses addr data.length 2 = none → NextIs (exec (.docentStore core addr data) s) fun t =>
      (cachedAt addr = true → addr % 64 + data.length ≤ 64 → t.dev.core core = if 16 ≤ (s.dev.core core).stb.length ∧ ((s.dev.core
        core).stb.any fun e => e.line == addr / 64) = false then s.dev.core core else (s.dev.core core).put addr data 0) ∧
      (cachedAt addr = true → 64 < addr % 64 + data.length → t.dev = s.dev.coreTrap (0x010 + core) 6 addr) ∧
      (cachedAt addr = false → addr < windowBase → (data.length = 4 ∨ data.length = 8) → addr % data.length = 0 → t.dev.core core = if 16
        ≤ (s.dev.core core).stb.length ∧ ((s.dev.core core).stb.any fun e => e.line == addr / 64) = false then s.dev.core core else
        (s.dev.core core).put addr data 0) ∧
      (windowBase ≤ addr → cachedAt addr = false → s.dev.ratCheck (0x010 + core) (addr - windowBase) data.length true = none → t.dev =
        s.dev.coreFault 0x04 (0x010 + core) 7 addr)) ∧
  (∀ (s : State) (core : Fin 16) (cached : Bool) (e : StbEntry), s.dev.supply = .on →
    (((s.dev.core core).stb.find? fun e => cachedAt (e.line * 64) == cached) = some e) →
    NextIs (exec (.storeBufferEntryDelivery core cached) s) fun t =>
      (cached = true → s.dev.lineHeld core e.line = false → (t.dev.core core).stb = ((s.dev.core core).stb.filter fun x => x.line !=
        e.line) ∧ t.mem = e.bytes.foldl (fun m b => writeByte m (e.line * 64 + b.1) b.2) s.mem) ∧
      (cached = true → s.dev.lineHeld core e.line = true → t.dev = s.dev ∧ t.mem = s.mem) ∧
      (cached = false → windowBase ≤ e.line * 64 → (t.dev.core core).stb = ((s.dev.core core).stb.filter fun x => x.line != e.line) ∧
        t.dev.winStores = s.dev.winStores ++ e.words.map fun w =>
        { master := 0x010 + core, entry := e.entry, addr := e.line * 64 - windowBase + w.1, value := w.2.1, be := w.2.2 })) ∧
  (∀ (s : State) (core : Fin 16) (addr : Nat) (bytes : Fin 9) (constrained : Bool), s.dev.supply = .on → s.dev.coreRuns core = true →
    docentRefuses addr bytes 1 = none → cachedAt addr = true → NextIs (exec (.docentLr core addr bytes constrained) s) fun t =>
      (addr % bytes = 0 → s.dev.lineHeld core (addr / 64) = false → (t.dev.core core).reserved = some (addr / 64) ∧ (t.dev.core
        core).holdUntil = if constrained then some (s.dev.now + nsTicks 32) else none) ∧
      (addr % bytes = 0 → s.dev.lineHeld core (addr / 64) = true → t.dev = s.dev) ∧
      (addr % bytes ≠ 0 → t.dev = s.dev.coreTrap (0x010 + core) 4 addr)) ∧
  (∀ (s : State) (core : Fin 16) (addr : Nat) (data : List Byte) (spurious : Bool), s.dev.supply = .on → s.dev.coreRuns core = true →
    docentRefuses addr data.length 2 = none → cachedAt addr = true → addr % data.length = 0 →
    NextIs (exec (.docentSc core addr data spurious) s) fun t =>
      ((spurious = true ∨ (s.dev.core core).reserved ≠ some (addr / 64) ∨ s.dev.lineHeld core (addr / 64) = true) → t.mem = s.mem ∧ t.dev
        = s.dev.answerSc core addr 1) ∧
      (¬ (spurious = true ∨ (s.dev.core core).reserved ≠ some (addr / 64) ∨ s.dev.lineHeld core (addr / 64) = true) → readBytes t.mem addr
        data.length = data ∧ (t.dev.core core).reserved = none)) ∧
  (∀ (s : State) (core : Fin 16) (addr : Nat) (kind : Fin 3), s.dev.supply = .on → s.dev.coreRuns core = true → cachedAt addr = false →
    docentRefuses addr 4 1 = none → NextIs (exec (.docentDeviceAtomic core addr kind) s) fun t =>
      (t.dev = if kind.val = 0 then s.dev.coreTrap (0x010 + core) 5 addr else if kind.val = 1 then s.dev.answerSc core addr 1 else
        s.dev.coreTrap (0x010 + core) 7 addr)) ∧
  (∀ (s : State) (core : Fin 16) (taken : Bool), s.dev.supply = .on → NextIs (exec (.docentTimerInterrupt core taken) s) fun t =>
      (t.dev.core core).timer = decide (s.dev.get64 DOC_MTIMECMP_LO.CMP DOC_MTIMECMP_HI.CMP core ≤ s.dev.now / 16) ∧
      ((s.dev.get64 DOC_MTIMECMP_LO.CMP DOC_MTIMECMP_HI.CMP core ≤ s.dev.now / 16) → s.dev.get DOC_CORE_STATUS.STATE core = 2 → t.dev.get
        DOC_CORE_STATUS.STATE core = 1) ∧
      ((s.dev.get64 DOC_MTIMECMP_LO.CMP DOC_MTIMECMP_HI.CMP core ≤ s.dev.now / 16) → taken = true → s.dev.get DOC_CORE_STATUS.STATE core =
        1 ∨ s.dev.get DOC_CORE_STATUS.STATE core = 2 → (t.dev.core core).reserved = none ∧ (t.dev.core core).fence = false ∧ (t.dev.core
        core).wfi = false)) ∧
  (∀ (s : State) (core : Fin 16) (addr : Nat) (bytes : Fin 9) (kind : Fin 3), s.dev.supply = .on → s.dev.coreRuns core = true →
    NextIs (exec (.docentAccessFault core addr bytes kind) s) fun t =>
      (docentRefuses addr bytes kind = some false → t.dev = s.dev.coreTrap (0x010 + core) (faultCause kind) addr) ∧
      (docentRefuses addr bytes kind = some true → t.dev = s.dev.coreFault 0x11 (0x010 + core) (faultCause kind) addr) ∧
      (docentRefuses addr bytes kind = none → t.dev = s.dev))

/-- A master's oldest store leaves once it is accepted or discarded toward a contained port, and a store of the Curator's waits or goes
the same way. A ready load faults, traps, hits the cache, waits for its line, or is sent. A missed line gets its request. A held read
detaches; a parked completion is replayed; a read error retires its load; a line past its time leaves. -/
def Obligations.FabricWindow : Prop :=
  (∀ (s : State) (master : Fin 2048) (w : WinStore) (rest : List WinStore), s.dev.supply = .on →
    ((s.dev.winStores.filter fun w => w.master == master.val) = w :: rest) →
    NextIs (exec (.windowStoreAccepted ⟨master, none⟩) s) fun t =>
      ((s.dev.acceptStore w).isSome = true → t.dev.winStores = s.dev.winStores.erase w) ∧
      ((s.dev.acceptStore w).isSome = false → t.dev = s.dev) ∧
      (s.dev.windowContained (s.dev.ratTarget w.entry) = true → t.dev.get EBR_EVENTS.STORE_DISCARDED (if fpidModule (s.dev.ratTarget
        w.entry) = s.dev.moduleId then fpidPort (s.dev.ratTarget w.entry) else 511) = 1)) ∧
  (∀ (s : State) (master : Fin 2048) (x : WinWord), s.dev.supply = .on → master.val = 0 →
    ((s.dev.winStores.filter fun w => w.master == master.val) = []) → NextIs (exec (.windowStoreAccepted ⟨master, some x⟩) s) fun t =>
      (s.dev.ratCheck 0 x.off 4 true = none → t.dev = s.dev.coreFault 0x04 0 7 (windowBase + x.off)) ∧
      (((s.dev.ratCheck 0 x.off 4 true).all fun i => decide (t.dev.winStores = if (({ s.dev with winStores := s.dev.winStores ++
        [{ master := 0, entry := i, addr := x.off, value := x.value.toNat, be := x.be }] } : Dev).acceptStore
        { master := 0, entry := i, addr := x.off, value := x.value.toNat, be := x.be }).isSome then s.dev.winStores else s.dev.winStores
        ++ [{ master := 0, entry := i, addr := x.off, value := x.value.toNat, be := x.be }])) = true)) ∧
  (∀ (s : State) (master : Fin 2048) (off : Nat) (bytes : Fin 9), s.dev.supply = .on → s.dev.loadReady master = true →
    NextIs (exec (.docentWindowLoad master off bytes) s) fun t =>
      (s.dev.ratCheck master off bytes false = none → t.dev = s.dev.coreFault 0x04 master 5 (windowBase + off)) ∧
      (((s.dev.ratCheck master off bytes false).any fun i => s.dev.windowContained (s.dev.ratTarget i)) = true → t.dev = s.dev.coreTrap
        master 5 (windowBase + off)) ∧
      (((s.dev.ratCheck master off bytes false).all fun i => s.dev.windowContained (s.dev.ratTarget i) || (s.dev.ratPrefetch i &&
        (s.dev.findLine i off bytes).isSome) || decide (t.dev.winReads = s.dev.winReads ++
        [{ master := master, addr := off, bytes := bytes, entry := i, prefetch := s.dev.ratPrefetch i, tag := if s.dev.ratPrefetch i then none else some s.dev.windowTag }]))
        = true) ∧
      (((s.dev.ratCheck master off bytes false).all fun i => s.dev.windowContained (s.dev.ratTarget i) || !s.dev.ratPrefetch i ||
        ((s.dev.findLine i off bytes).all fun l => decide (t.dev.out = s.dev.out ++ [.readData master (windowBase + off) (ofLeBytes
        ((l.data.drop (off % 64)).take bytes))]))) = true)) ∧
  (∀ (s : State) (master : Fin 2048), s.dev.supply = .on →
    ((s.dev.winReads.any fun r => r.master == master.val && r.prefetch && r.tag.isNone) = true) →
    NextIs (exec (.prefetchMissFetch master) s) fun t =>
      t.dev.winReads = changeRead (fun r => r.master == master.val && r.prefetch && r.tag.isNone) (fun r => some
        { r with tag := some s.dev.windowTag }) s.dev.winReads) ∧
  (∀ (s : State) (master : Fin 2048), s.dev.supply = .on → ((s.dev.winReads.any fun r => r.master == master.val && !r.detached) = true) →
    NextIs (exec (.heldReadDetach master) s) fun t =>
      t.dev.winReads.length = s.dev.winReads.length ∧
      (((t.dev.readsOf master).filter fun r => !r.detached).length + 1 = ((s.dev.readsOf master).filter fun r => !r.detached).length)) ∧
  (∀ (s : State) (master : Fin 2048) (r : WinRead) (data : List Byte), s.dev.supply = .on →
    (s.dev.readsOf master).all (·.detached) = true →
    ((s.dev.winReads.find? fun r => r.master == master.val && r.parked.isSome) = some r) → r.parked = some data →
    NextIs (exec (.parkedCompletionReplay master) s) fun t =>
      (t.dev.winReads = s.dev.winReads.eraseP fun r => r.master == master.val && r.parked.isSome) ∧
      t.dev.out = s.dev.out ++ [.readData r.master (windowBase + r.addr) (ofLeBytes data)]) ∧
  (∀ (s : State) (handle : Fin 262144) (status : Fin 8) (e : Trk), s.dev.supply = .on → SMap.find s.dev.trk handle = some e →
    e.gvh = gvhWindow → e.edge ≠ .completer → status ≠ 0 → NextIs (exec (.windowReadError handle status) s) fun t =>
      (e.squashed = false → e.kind ≠ .cfgWrite → t.dev.winReads = s.dev.winReads.eraseP fun r => r.tag == some e.tag) ∧
      (s.dev.heldTlps = [] → SMap.find t.dev.trk handle = none)) ∧
  (∀ (s : State), s.dev.supply = .on → NextIs (exec .prefetchLineExpiry s) fun t =>
      (t.dev.pfLines = s.dev.pfLines.filter fun l => decide (sinceTicks l.at_ s.dev.now < nsTicks (100 * max 1 (s.dev.get
        EBR_PF_CFG.PF_TTL 0)))))

/-- On a serving link but the parent's a SYNC goes out, and a partner's is noted. A DELAY_REQ is answered unless replayed; a DELAY_RSP
ends its exchange; a lost parent is forgotten. An edge near its second or a message of the source in force locks it, and edges away from
it are kept until three agree; its loss is told. An action takes effect once its instant has come. -/
def Obligations.FabricTime : Prop :=
  (∀ (s : State) (port : Fin 512), s.dev.supply = .on → s.dev.linkServing port = true → NextIs (exec (.sync port none) s) fun t =>
      ((s.dev.chooseRoot.is TIM_STATE.ROOT 0 = true ∨ s.dev.chooseRoot.get TIM_STATE.PARENT 0 ≠ port) → t.dev.routed.map (fun x => (x.2.1,
        x.2.2.ftype)) = s.dev.routed.map (fun x => (x.2.1, x.2.2.ftype)) ++ [(port.val, 4)]) ∧
      (¬ (s.dev.chooseRoot.is TIM_STATE.ROOT 0 = true ∨ s.dev.chooseRoot.get TIM_STATE.PARENT 0 ≠ port) → t.dev = s.dev.chooseRoot)) ∧
  (∀ (s : State) (port : Fin 512) (m : TimeMsg) (arrival : Nat) (replayed : Bool), s.dev.supply = .on → s.dev.linkServing port = true →
    NextIs (exec (.sync port (some (m, arrival, replayed))) s) fun t =>
      (t.dev.time.heard = (s.dev.time.heard.filter fun e => e.1 != port.val) ++ [(port.val,
        { cls := m.cls, prio := m.prio, modul := m.root, hops := m.rhops })])) ∧
  (∀ (s : State) (port : Fin 512) (arrival : Nat) (replayed : Bool), s.dev.supply = .on → s.dev.linkServing port = true →
    NextIs (exec (.delayReq port arrival replayed) s) fun t =>
      (t.dev = if replayed then s.dev else s.dev.timeFrame port .delayRsp arrival)) ∧
  (∀ (s : State) (port : Fin 512) (stamp : Nat) (replayed : Bool) (x : Exchange), s.dev.supply = .on → s.dev.time.exch = some x →
    x.port = port → NextIs (exec (.delayRsp port stamp replayed) s) fun t =>
      t.dev.time.exch = none ∧ (x.t3 = none ∨ replayed = true → t.dev = s.dev.dropExchange)) ∧
  (∀ (s : State), s.dev.supply = .on → s.dev.is TIM_STATE.ROOT 0 = false → NextIs (exec .parentLinkLost s) fun t =>
      t.dev.time.heard = s.dev.time.heard.filter (fun e => e.1 != s.dev.get TIM_STATE.PARENT 0) ∧ t.dev.time.exch = none) ∧
  (∀ (s : State) (seconds : Option Nat), s.dev.supply = .on → s.dev.get TIM_SRC_CFG.SOURCE 0 = 2 →
    NextIs (exec (.ppsEdge seconds) s) fun t =>
      ((edgeOffset s.dev.now seconds).natAbs ≤ 16000 → t.dev.time.srcLocked = true ∧ t.dev.time.rejected = []) ∧
      (16000 < (edgeOffset s.dev.now seconds).natAbs → newPhase (s.dev.time.rejected ++ [edgeOffset s.dev.now seconds]) = false →
        t.dev.time.rejected = s.dev.time.rejected ++ [edgeOffset s.dev.now seconds] ∧ t.dev.time.srcLocked = s.dev.time.srcLocked) ∧
      (16000 < (edgeOffset s.dev.now seconds).natAbs → newPhase (s.dev.time.rejected ++ [edgeOffset s.dev.now seconds]) = true →
        t.dev.time.srcLocked = true ∧ t.dev.time.rejected = [])) ∧
  (∀ (s : State), s.dev.supply = .on → s.dev.get TIM_SRC_CFG.SOURCE 0 ≠ 0 → NextIs (exec .timeSourceLost s) fun t =>
      t.dev.time.srcLocked = false ∧ t.dev.time.srcHeld = (s.dev.time.srcLocked || s.dev.time.srcHeld) ∧
      t.dev.get TIM_EVENTS.SOURCE_LOST 0 = 1) ∧
  (∀ (s : State) (action : TimedAction) (i : Nat), s.dev.supply = .on → s.dev.instant action = some i →
    NextIs (exec (.hardwareTimedAction action) s) fun t =>
      (t.dev = if i ≤ s.dev.now then s.dev.act action else s.dev)) ∧
  (∀ (s : State) (ahead : Int), s.dev.supply = .on → s.dev.get TIM_SRC_CFG.SOURCE 0 = 1 →
    NextIs (exec (.ieee1588Message (.offset ahead)) s) fun t =>
      t.dev.time.srcLocked = true ∧ t.dev.time.srcHeld = false ∧ t.dev.time.rejected = [])

/-- A snapshot due is noted with its instant, and latches the counters or is skipped; a dump that can be written ends with the next dump
number. A matching TLP at a multiple is sampled; a sample taken out ends as a record, a drop or nothing, as its stream is. A changed
condition shows in TEL_MODE. -/
def Obligations.Telemetry : Prop :=
  (∀ (s : State) (tenant : Option (Fin 1024)), s.dev.supply = .on → (s.dev.cat (streamNo tenant)).due s.dev.now = true →
    NextIs (exec (.catalogueSnapshot tenant) s) fun t =>
      (t.dev.cat (streamNo tenant)).last = some ((s.dev.cat (streamNo tenant)).instantAt s.dev.now) ∧
      ((s.dev.cat (streamNo tenant)).writing = none → ((streamNo tenant) = 0 ∨ (s.dev.vmf ((streamNo tenant) - 1)).busMaster = true) →
        (t.dev.cat (streamNo tenant)).writing.isSome = true ∧ (t.dev.cat (streamNo tenant)).skipped = 0) ∧
      ((s.dev.cat (streamNo tenant)).writing ≠ none ∨ ¬ ((streamNo tenant) = 0 ∨ (s.dev.vmf ((streamNo tenant) - 1)).busMaster = true) →
        (t.dev.cat (streamNo tenant)).skipped = (s.dev.cat (streamNo tenant)).skipped + 1 ∧ (t.dev.cat (streamNo tenant)).writing =
        (s.dev.cat (streamNo tenant)).writing)) ∧
  (∀ (s : State) (tenant : Option (Fin 1024)) (x : CatDump), s.dev.supply = .on → (s.dev.cat (streamNo tenant)).writing = some x →
    NextIs (exec (.catalogueDumpComplete tenant) s) fun t =>
      (t.dev.cat (streamNo tenant)).writing = none ∧
      (((streamNo tenant) = 0 ∨ (s.dev.vmf ((streamNo tenant) - 1)).busMaster = true) → (t.dev.cat (streamNo tenant)).dseq = (s.dev.cat
        (streamNo tenant)).dseq + 1) ∧
      (¬ ((streamNo tenant) = 0 ∨ (s.dev.vmf ((streamNo tenant) - 1)).busMaster = true) → (t.dev.cat (streamNo tenant)).dseq = (s.dev.cat
        (streamNo tenant)).dseq ∧ (t.dev.cat (streamNo tenant)).skipped = (s.dev.cat (streamNo tenant)).skipped + 1)) ∧
  (∀ (s : State) (tlp : Sampled) (n : Nat), s.dev.supply = .on → n ∈ s.dev.spcs.map (·.1) → (s.dev.spc n).takes tlp = true →
    ((s.dev.spc n).k = 0 ∨ (SMap.get 0 (s.dev.spc n).seen tlp.die + 1) % 2 ^ (s.dev.spc n).k = 0) →
    NextIs (exec (.specimenSample tlp) s) fun t =>
      ⟨n, s.dev.now, decide ((s.dev.spc n).k = 0), tlp⟩ ∈ t.dev.samples) ∧
  (∀ (s : State) (sample : Nat) (result : SampleEnd) (room : Bool) (x : Sample), s.dev.supply = .on → s.dev.samples[sample]? = some x →
    NextIs (exec (.specimenRecordWrite sample result room) s) fun t =>
      t.dev.samples = s.dev.samples.eraseIdx sample ∧ ((s.dev.spc x.stream).on = false → t.dev.spcs = s.dev.spcs) ∧
      ((s.dev.spc x.stream).on = true → x.stream = 0 ∨ (s.dev.vmf (x.stream - 1)).busMaster = true → (t.dev.spc x.stream).sseq =
        ((s.dev.spc x.stream).sseq + 1) % 2 ^ 32 ∧ (t.dev.spc x.stream).wptr = if room then ((s.dev.spc x.stream).wptr + 64) % (s.dev.spc
        x.stream).ring else (s.dev.spc x.stream).wptr)) ∧
  (∀ (s : State) (which : Fin 3) (on : Bool), s.dev.supply = .on → NextIs (exec (.telModeChanged which on) s) fun t =>
      (which = 0 → t.dev.is TEL_MODE.STARTUP 0 = on) ∧ (which = 1 → t.dev.is TEL_MODE.RECOVERY 0 = on) ∧
      (which = 2 → t.dev.is TEL_MODE.TEST 0 = !s.dev.injections.isEmpty))

/-- The active pair that diverges is cut off, and a synchronised standby that diverges is lost; a standby takes over; a self-test makes
the other pair the standby or FAILED. Both copies of a table entry bad invalidate it, one is repaired. A lost clock switches its die. A
double-bit error loses an event record or marks a save image invalid and leaves save, Console and Docent bytes as they were. The watchdog
idles every lane, and the lanes of a lost die are held. -/
def Obligations.Reliability : Prop :=
  (∀ (s : State) (pair : Fin 2), s.dev.supply = .on → NextIs (exec (.lockstepDivergence pair) s) fun t =>
      (pair.val = s.dev.get CUR_PAIR_STATUS.ACTIVE 0 → s.dev.curatorDown = false → t.dev.pairState pair = 2 ∧ t.dev.curatorDown = true) ∧
      (pair.val ≠ s.dev.get CUR_PAIR_STATUS.ACTIVE 0 → s.dev.is CUR_PAIR_STATUS.STANDBY_OK 0 = true → t.dev.pairState pair = 3 ∧ t.dev.get
        CUR_PAIR_STATUS.STANDBY_OK 0 = 0)) ∧
  (∀ (s : State), s.dev.supply = .on → s.dev.curatorDown = true → s.dev.is CUR_PAIR_STATUS.STANDBY_OK 0 = true →
    NextIs (exec .failover s) fun t =>
      t.dev.get CUR_PAIR_STATUS.ACTIVE 0 = 1 - s.dev.get CUR_PAIR_STATUS.ACTIVE 0 ∧ t.dev.curatorDown = false ∧
      t.dev.get CUR_PAIR_STATUS.STANDBY_OK 0 = 0 ∧
      t.dev.get CUR_PAIR_STATUS.FAILOVERS 0 = min (s.dev.get CUR_PAIR_STATUS.FAILOVERS 0 + 1) 65535 ∧ t.dev.get USH_MUD_CTL.CONNECT 0 = 0) ∧
  (∀ (s : State) (passed : Bool), s.dev.supply = .on → s.dev.curatorDown = false →
    s.dev.pairState (1 - s.dev.get CUR_PAIR_STATUS.ACTIVE 0) = 2 → NextIs (exec (.pairSelftestDone passed) s) fun t =>
      (passed = true → t.dev.pairState (1 - s.dev.get CUR_PAIR_STATUS.ACTIVE 0) = 1 ∧ t.dev.get CUR_PAIR_STATUS.STANDBY_OK 0 = 1) ∧
      (passed = false → t.dev.pairState (1 - s.dev.get CUR_PAIR_STATUS.ACTIVE 0) = 3 ∧ t.dev.get CUR_PAIR_STATUS.STANDBY_OK 0 = 0)) ∧
  (∀ (s : State) (table : Fin 7) (entry : Word) (both : Bool), s.dev.supply = .on →
    NextIs (exec (.tableParity table entry both) s) fun t =>
      (both = true → table = 0 → t.dev.get RTE_MRT.VALID entry.toNat = 0) ∧
      (both = true → table = 1 → t.dev.get RTE_GRP_SLOT.VALID entry.toNat = 0) ∧
      (both = true → table = 2 → t.dev.get PIN_CTL.VALID entry.toNat = 0) ∧ (both = true → table = 4 → t.dev.shaper entry.toNat = {}) ∧
      (both = false → s.dev.armedFor 5 (table.val * 2 ^ 32 + entry.toNat) = false → t.dev = s.dev.copyRepaired table)) ∧
  (∀ (s : State) (found : List (Fin 7 × Word)), s.dev.supply = .on → NextIs (exec (.tableScrub found) s) fun t =>
      t.dev = found.foldl (fun d e => d.copyRepaired e.1) s.dev) ∧
  (∀ (s : State) (die : Fin 7), s.dev.supply = .on → NextIs (exec (.refclkSwitch die) s) fun t =>
      t.dev.refB.contains die.val = !s.dev.refB.contains die.val) ∧
  (∀ (s : State) (offset : Nat) (reader : Option (Fin 16 × Bool)), s.dev.supply = .on → s.dev.armedFor 9 (offset / 8 * 8) = false →
    NextIs (exec (.memUncorrectable offset reader) s) fun t =>
      (inRegion regionEventLog offset 1 = true → SMap.find t.dev.ring ((offset - regionEventLog.1) / 64) = none) ∧
      (inRegion regionSave offset 1 = true → ((SMap.find t.dev.saves ((offset - regionSave.1) / 0x800000)).all fun x => !x.valid) = true)
        ∧
      (inRegion regionSave offset 1 = true ∨ inRegion regionConsole offset 1 = true ∨ inRegion regionDocent offset 1 = true → t.mem =
        s.mem)) ∧
  (∀ (s : State), s.dev.supply = .on → NextIs (exec .moduleWatchdogExpiry s) fun t =>
      t.dev.halted = true ∧ (∀ n ∈ List.range 512, t.dev.laneState n = 0 ∨ t.dev.laneState n = 9)) ∧
  (∀ (s : State) (die : Fin 4) (lane : Fin 512), s.dev.supply = .on → dieOf lane = die.val → s.dev.laneState lane ≠ 9 →
    NextIs (exec (.portDieLoss die) s) fun t =>
      (t.dev.lane lane).held = true ∧ die.val ∈ t.dev.lostDies) ∧
  (∀ (s : State), s.dev.supply = .on → NextIs (exec .tunnelHubDieLoss s) fun t =>
      t.dev.hubPort = none ∧ t.dev.candidates = [] ∧ t.dev.inStreams = [] ∧ t.dev.owner = none ∧ 5 ∈ t.dev.lostDies)

/-- Coolant and intake events are recorded. A die's temperature is kept, warned of above 100 °C, and a trip idles every lane. Ageing keeps
the mean of the readings that agree. Droop raises the rail within its limits; an acknowledged step moves the set point, a silent one
repeats and is judged or held after three. A plan runs when asked for or weekly and ends DONE. -/
def Obligations.CoolingAgeingAndRails : Prop :=
  (∀ (s : State), s.dev.supply = .on → NextIs (exec .coolantFlowLow s) fun t =>
      t.dev = s.dev.record 0x0E80 { cls := 5 }) ∧
  (∀ (s : State), s.dev.supply = .on → NextIs (exec .coolantHot s) fun t =>
      t.dev = s.dev.record 0x0E81 {}) ∧
  (∀ (s : State) (die : Fin 7) (temp : Byte), s.dev.supply = .on → NextIs (exec (.thermalWarn die temp) s) fun t =>
      t.dev.get HLT_RAIL_AGE.TEMP_C die = temp.toNat ∧ (100 < signedOf 8 temp.toNat → t.dev.get HLT_EVENTS.THERMAL_WARN 0 = 1) ∧
      (signedOf 8 temp.toNat ≤ 100 → t.dev = s.dev.put HLT_RAIL_AGE.TEMP_C die temp.toNat)) ∧
  (∀ (s : State) (die : Fin 7), s.dev.supply = .on → NextIs (exec (.thermalTrip die) s) fun t =>
      t.dev.halted = true ∧ (∀ n ∈ List.range 512, t.dev.laneState n = 0 ∨ t.dev.laneState n = 9) ∧ t.dev.tripped = true) ∧
  (∀ (s : State) (temp : Byte), s.dev.supply = .on → NextIs (exec (.ambientHot temp) s) fun t =>
      t.dev = s.dev.record 0x1586 { detail := [temp] }) ∧
  (∀ (s : State) (die : Fin 7) (pairs : List (Nat × Nat)) (temp : Byte), s.dev.supply = .on →
    NextIs (exec (.ageingMeasurement die pairs temp) s) fun t =>
      (((pairs.map slowdownPpm).filter fun v => !farFrom v ((pairs.map slowdownPpm).sum - v) ((pairs.map slowdownPpm).length - 1)) ≠ [] →
        t.dev.get HLT_RAIL_AGE.SLOWDOWN_PPM die = ((pairs.map slowdownPpm).filter fun v => !farFrom v ((pairs.map slowdownPpm).sum - v)
        ((pairs.map slowdownPpm).length - 1)).sum / ((pairs.map slowdownPpm).filter fun v => !farFrom v ((pairs.map slowdownPpm).sum - v)
        ((pairs.map slowdownPpm).length - 1)).length % 2 ^ 24) ∧
      (((pairs.map slowdownPpm).filter fun v => !farFrom v ((pairs.map slowdownPpm).sum - v) ((pairs.map slowdownPpm).length - 1)) = [] →
        t.dev.get HLT_RAIL_AGE.SLOWDOWN_PPM die = s.dev.get HLT_RAIL_AGE.SLOWDOWN_PPM die) ∧
      t.dev.get HLT_RAIL_AGE.TEMP_C die = temp.toNat) ∧
  (∀ (s : State) (rail : Fin 7), s.dev.supply = .on →
    (((s.dev.rail rail).raisedAt.any fun x => decide (sinceTicks x s.dev.now < msTicks 1)) = false) →
    s.dev.get HLT_RAIL_NOW.DROOP_ADD_MV rail + 5 ≤ s.dev.get HLT_DROOP_CFG.MAX_MV 0 →
    s.dev.setPoint rail + 5 * ((s.dev.rail rail).raises + 1) ≤ 900 → NextIs (exec (.droopRaise rail) s) fun t =>
      t.dev.get HLT_RAIL_NOW.DROOP_ADD_MV rail = s.dev.get HLT_RAIL_NOW.DROOP_ADD_MV rail + 5 ∧ t.dev.get HLT_EVENTS.DROOP_RAISE 0 = 1 ∧
      (t.dev.rail rail).raisedAt = some s.dev.now ∧ (t.dev.rail rail).step.isSome = true) ∧
  (∀ (s : State) (rail : Fin 7) (up : Bool) (n : Nat), s.dev.supply = .on → (s.dev.rail rail).step = some (up, n) →
    NextIs (exec (.avsAcknowledged rail) s) fun t =>
      t.dev.get HLT_RAIL_NOW.SETPOINT_MV rail = (if up then s.dev.setPoint rail + 5 else s.dev.setPoint rail - 5) % 2 ^ 16) ∧
  (∀ (s : State) (rail : Fin 7) (vout : Fin 65536) (up : Bool) (n : Nat), s.dev.supply = .on → (s.dev.rail rail).step = some (up, n) →
    NextIs (exec (.avsAckTimeout rail vout) s) fun t =>
      (n < 3 → (t.dev.rail rail).step = some (up, n + 1)) ∧
      (3 ≤ n → (if up then s.dev.setPoint rail + 5 else s.dev.setPoint rail - 5) ≤ vout.val + 5 → vout.val ≤ (if up then s.dev.setPoint
        rail + 5 else s.dev.setPoint rail - 5) + 5 → t.dev.get HLT_RAIL_NOW.SETPOINT_MV rail = (if up then s.dev.setPoint rail + 5 else
        s.dev.setPoint rail - 5) % 2 ^ 16) ∧
      (3 ≤ n → (if up then s.dev.setPoint rail + 5 else s.dev.setPoint rail - 5) + 5 < vout.val ∨ vout.val + 5 < (if up then
        s.dev.setPoint rail + 5 else s.dev.setPoint rail - 5) → (t.dev.rail rail).held = true ∧ t.dev.get HLT_EVENTS.AVS_NO_ACK 0 = 1 ∧
        t.dev.setPoint rail = s.dev.setPoint rail)) ∧
  (∀ (s : State) (run : PlanRun), s.dev.supply = .on →
    ((run.weekly && s.dev.is HLT_PLAN_CTL.WEEKLY 0) = true ∨ s.dev.get HLT_PLAN_STATUS.STATE 0 = 1) →
    NextIs (exec (.marginPlanRun run) s) fun t =>
      t.dev.get HLT_PLAN_STATUS.STATE 0 = 2 ∧
      (t.nv.rails = (List.range 7).map fun r => (t.dev.get HLT_RAIL_PLAN.FUSED_MV r, t.dev.get HLT_RAIL_PLAN.PLAN_MV r)) ∧
      (∀ r ∈ List.range 7, t.dev.get HLT_RAIL_PLAN.PLAN_MV r = vPlan (s.dev.get HLT_RAIL_PLAN.FUSED_MV r) (s.dev.get
        HLT_RAIL_AGE.SLOWDOWN_PPM r))) ∧
  (∀ (s : State) (master : Fin 2048) (value : Word), s.dev.supply = .on → NextIs (exec (.hltPlanRunWrite master value) s) fun t =>
      (master.val = 0 → t.dev.is HLT_PLAN_CTL.WEEKLY 0 = bitOf value.toNat 30 ∧ (bitOf value.toNat 31 = true → t.dev.get
        HLT_PLAN_STATUS.STATE 0 = 1)) ∧
      (master.val ≠ 0 → t.dev.get HLT_PLAN_STATUS.STATE 0 = s.dev.get HLT_PLAN_STATUS.STATE 0 ∧ t.dev.is HLT_PLAN_CTL.WEEKLY 0 = s.dev.is
        HLT_PLAN_CTL.WEEKLY 0))

/-- A start without a good image halts at step 3, one with an image reaches step 6, or halts where a die but a port die or the tunnel hub
fails. The last cage group begins step 7; MODULE_READY ends step 8. HELLO and a fresh ADJ enter the topology, a settled one elects or
yields; ADMIT, the composition store, the routes and a stored Vitrine are taken; a lost Registrar leaves the store. -/
def Obligations.StartUpAndFormation : Prop :=
  (∀ (s : State) (run : StartRun), s.dev.supply = .on → s.dev.feeds ≠ [] → s.dev.get CUR_START_STATUS.STEP 0 = 0 →
    bootImage s.nv run = none → NextIs (exec (.moduleStart run) s) fun t =>
      t.dev.halted = true ∧ t.dev.get CUR_START_STATUS.STEP 0 = 15 ∧ t.dev.bootFailed = true ∧
      t.dev.haltedBy = some (3, .image (1 - s.nv.nextImage))) ∧
  (∀ (s : State) (run : StartRun) (image : Nat), s.dev.supply = .on → s.dev.feeds ≠ [] → s.dev.get CUR_START_STATUS.STEP 0 = 0 →
    s.dev.halted = false → bootImage s.nv run = some image → NextIs (exec (.moduleStart run) s) fun t =>
      t.nv.boot = s.nv.boot + 1 ∧ t.nv.booted = image ∧ t.dev.booted = true ∧
      ((run.failed.all fun x => decide (x.val < 4 ∨ x.val = 5)) = true → t.dev.get CUR_START_STATUS.STEP 0 = 6) ∧
      ((run.failed.all fun x => decide (x.val < 4 ∨ x.val = 5)) = false → t.dev.get CUR_START_STATUS.STEP 0 = 15 ∧ t.dev.halted = true)) ∧
  (∀ (s : State) (group : Fin 7), s.dev.supply = .on → s.dev.get CUR_START_STATUS.STEP 0 = 6 →
    NextIs (exec (.cageGroupEnable group) s) fun t =>
      (t.dev.get CUR_START_STATUS.STEP 0 = if group = 6 then 7 else 6)) ∧
  (∀ (s : State) (ms : Word) (late : Bool) (steps : List (Fin 4096)), s.dev.supply = .on → s.dev.get CUR_START_STATUS.STEP 0 = 7 →
    (late || s.dev.allTrained s.nv) = true → NextIs (exec (.moduleReady ms late steps) s) fun t =>
      t.dev.get CUR_START_STATUS.STEP 0 = 8 ∧ t.dev.get CUR_START_STATUS.READY 0 = 1 ∧
      t.dev.get CUR_START_STATUS.READY_MS 0 = min ms.toNat 65535 ∧ t.dev.is TEL_MODE.STARTUP 0 = false) ∧
  (∀ (s : State) (port : Fin 512), s.dev.supply = .on → s.dev.fabricPort port = true → s.dev.linkState port = 2 →
    NextIs (exec (.hello port none) s) fun t =>
      t.dev = (s.dev.sendHello s.nv port).describe s.nv) ∧
  (∀ (s : State) (port : Fin 512) (m : HelloMsg), s.dev.supply = .on → s.dev.fabricPort port = true → s.dev.linkState port = 2 →
    NextIs (exec (.hello port (some m)) s) fun t =>
      SMap.find t.dev.partners port = some m.serial ∧ (t.dev.node m.serial).map (·.info) = some m) ∧
  (∀ (s : State) (port : Fin 512) (msg : AdjMsg), s.dev.supply = .on → msg.origin.serial ≠ s.nv.serial →
    NextIs (exec (.adj port msg) s) fun t =>
      (((s.dev.node msg.origin.serial).all fun (n : Node) => decide (n.aseq < msg.aseq) || (n.aseq == msg.aseq && !n.parts.any fun x =>
        x.1 == msg.part)) = true → ((t.dev.node msg.origin.serial).any fun (n : Node) => decide (n.info = msg.origin ∧ n.aseq = msg.aseq ∧
        n.parts.getLast? = some (msg.part, msg.links))) = true) ∧
      (¬ ((s.dev.node msg.origin.serial).all fun (n : Node) => decide (n.aseq < msg.aseq) || (n.aseq == msg.aseq && !n.parts.any fun x =>
        x.1 == msg.part)) = true → t.dev = s.dev)) ∧
  (∀ (s : State) (directory : List (Nat × Fin 8192)), s.dev.supply = .on → s.dev.conflict = false →
    NextIs (exec (.topologySettled directory) s) fun t =>
      (idTaken (s.dev.modules s.nv) (s.dev.ownInfo s.nv) = true → t.dev.conflict = true ∧ t.dev.registrar = none ∧ t.dev.get
        RTE_MODULE_ID.ASSIGNED 0 = 0) ∧
      (idTaken (s.dev.modules s.nv) (s.dev.ownInfo s.nv) = false → s.dev.sitting s.nv = true → t.dev.elected = s.dev.elected) ∧
      (idTaken (s.dev.modules s.nv) (s.dev.ownInfo s.nv) = false → s.dev.sitting s.nv = false → (s.dev.chooseRegistrar s.nv).isSome = true
        → t.dev.elected = (s.dev.chooseRegistrar s.nv).map (·.serial) ∧ t.dev.is CUR_START_STATUS.REGISTRAR 0 = decide (t.dev.elected =
        some s.nv.serial))) ∧
  (∀ (s : State) (port : Fin 512) (target : Nat) (id registrar : Fin 8192), s.dev.supply = .on → s.dev.linkState port = 2 →
    NextIs (exec (.admitModule port target id registrar) s) fun t =>
      (target = s.nv.serial → s.dev.conflict = false → t.nv.moduleId = some id.val ∧ t.dev.get RTE_MODULE_ID.ID 0 = id ∧ t.dev.get
        RTE_MODULE_ID.ASSIGNED 0 = 1 ∧ t.dev.registrar = some registrar.val) ∧
      (target = s.nv.serial → s.dev.conflict = true → t.dev = s.dev ∧ t.nv = s.nv) ∧
      (target ≠ s.nv.serial → t.dev = s.dev.sendAdmit s.nv target id registrar ∧ t.nv = s.nv)) ∧
  (∀ (s : State) (gen : Nat) (homes : List (Nat × Fin 8192)), s.dev.supply = .on → s.dev.is CUR_START_STATUS.REGISTRAR 0 = true →
    NextIs (exec (.compositionLoaded gen homes) s) fun t =>
      (gen = 0 → t.dev = { s.dev with homes := [] } ∧ t.nv = s.nv) ∧
      (gen ≠ 0 → t.nv.storeGen = gen ∧ t.nv.directory = s.dev.assigned ∧ t.dev.homes = homes.map fun e => (e.1, e.2.val))) ∧
  (∀ (s : State) (before : List RouteEntry) (e : RouteEntry) (sent : List (Fin 8192 × List Nat)), s.dev.supply = .on →
    s.dev.is RTE_MODULE_ID.ASSIGNED 0 = true → NextIs (exec (.routeDistribution (before ++ [e]) sent) s) fun t =>
      3 ≤ t.dev.get CUR_START_STATUS.PHASE 0 ∧
      ((1 ≤ e.dist.val ∧ e.dist.val ≤ 4 ∧ e.ports ≠ [] ∧ e.ports.length ≤ 16) → t.dev.get RTE_MRT.VALID e.dest = 1 ∧ t.dev.get
        RTE_MRT.DIST e.dest = e.dist ∧ t.dev.get RTE_MRT.NCAND e.dest = e.ports.length ∧ t.dev.get RTE_MRT.GROUP e.dest = e.group ∧ ∀ x ∈
        e.ports.zipIdx, t.dev.get RTE_GRP_SLOT.PORT (e.group.val * 16 + x.2) = x.1) ∧
      (¬ (1 ≤ e.dist.val ∧ e.dist.val ≤ 4 ∧ e.ports ≠ [] ∧ e.ports.length ≤ 16) → t.dev.get RTE_MRT.VALID e.dest = 0)) ∧
  (∀ (s : State) (lvid : Fin 1024) (vitrine : StoredVitrine), s.dev.supply = .on → s.dev.is RTE_MODULE_ID.ASSIGNED 0 = true →
    s.dev.edgeUsable vitrine.port = true → s.dev.hostFacing vitrine.port = true → s.dev.vitrineOfPort vitrine.port = none →
    s.dev.idFree lvid = true → s.dev.idAllowed lvid = true →
    s.dev.poolShort vitrine.port
      { lvid := lvid, nvdp := vitrine.nvdp, cto := vitrine.cto, silent := vitrine.silent, slotPower := vitrine.slotPower, minimum := vitrine.minimum, quota := vitrine.quota, shapers := vitrine.shapers.length, channels := vitrine.channels }
      false = none →
    NextIs (exec (.vitrineRestoreAtStart lvid vitrine) s) fun t =>
      (t.dev.get VIT_STATE.STATE lvid = if s.dev.is PRT_PORT_STATUS.DL_ACTIVE vitrine.port then 2 else 1) ∧
      t.dev.get VIT_STATE.GVH lvid = vitrine.gvh % 2 ^ 23 ∧ t.dev.get VIT_PORT.UPORT lvid = vitrine.port % 2 ^ 9 ∧
      t.dev.get CUR_START_STATUS.PHASE 0 = 4) ∧
  (∀ (s : State) (e : Nat), s.dev.supply = .on → s.dev.elected = some e → e ≠ s.nv.serial → NextIs (exec .registrarLost s) fun t =>
      (∀ n ∈ t.dev.topo, n.info.serial ≠ e))

/-- A due evaluation arms QUIET or notes its refusal; the Curator's PWR_MODE write and the commit arm and begin an entry. QUIET entry ends
in state 2, or is aborted by a host asked for L1 that refuses; DORMANT entry removes power. A wake event, a replayed wake and WAKE_N leave
them; the Curator's RELEASE frees held pads. -/
def Obligations.PowerStates : Prop :=
  (∀ (s : State), s.dev.supply = .on → s.dev.attemptDue = true → s.dev.quietConditions = true → NextIs (exec .quietEvaluation s) fun t =>
      (s.dev.quietRefusers = [] → t.dev.get PWR_MODE.ARM 0 = 1 ∧ t.dev.get PWR_MODE.TARGET 0 = 2 ∧ t.dev.byCommand = false) ∧
      (s.dev.quietRefusers ≠ [] → t.dev.tried = some s.dev.now ∧ t.dev.get PWR_MODE.ARM 0 = s.dev.get PWR_MODE.ARM 0 ∧ t.dev.get
        PWR_PS_LAST.ABORTED 0 = 0)) ∧
  (∀ (s : State) (master : Fin 2048) (value : Word), s.dev.supply = .on → NextIs (exec (.pwrModeArm master value) s) fun t =>
      (master.val = 0 → t.dev.is PWR_MODE.ARM 0 = bitOf value.toNat 31 ∧ t.dev.get PWR_MODE.TARGET 0 = bitsOf value.toNat 1 0) ∧
      (master.val ≠ 0 → t.dev.get PWR_MODE.ARM 0 = s.dev.get PWR_MODE.ARM 0 ∧ t.dev.get PWR_MODE.TARGET 0 = s.dev.get PWR_MODE.TARGET 0)) ∧
  (∀ (s : State), s.dev.supply = .on → s.dev.is PWR_MODE.ARM 0 = true → NextIs (exec .powerEntryCommit s) fun t =>
      t.dev.get PWR_MODE.ARM 0 = 0 ∧ t.dev.is PWR_PS_STATUS.ENTERING 0 = decide (2 ≤ s.dev.get PWR_MODE.TARGET 0)) ∧
  (∀ (s : State) (nak : Option (Fin 512)), s.dev.supply = .on → s.dev.is PWR_PS_STATUS.ENTERING 0 = true →
    s.dev.get PWR_MODE.TARGET 0 = 2 → NextIs (exec (.quietEntry nak) s) fun t =>
      t.dev.get PWR_PS_STATUS.ENTERING 0 = 0 ∧
      ((nak.any fun p => s.dev.trainedUp.contains (p : Nat) && s.dev.get PRT_PORT_STATUS.LTSSM (p : Nat) != 5) = false → t.dev.get
        PWR_PS_STATUS.STATE 0 = 2) ∧
      ((nak.any fun p => s.dev.trainedUp.contains (p : Nat) && s.dev.get PRT_PORT_STATUS.LTSSM (p : Nat) != 5) = true → t.dev.get
        PWR_PS_STATUS.STATE 0 = s.dev.get PWR_PS_STATUS.STATE 0 ∧ t.dev.get PWR_PS_LAST.KIND 0 = 6 ∧ t.dev.get PWR_PS_LAST.ABORTED 0 = 1)) ∧
  (∀ (s : State) (event : Fin 10), s.dev.supply = .on → s.dev.get PWR_PS_STATUS.STATE 0 = 2 → s.dev.entering = false →
    NextIs (exec (.wakeEvent event) s) fun t =>
      t.dev.get PWR_PS_STATUS.STATE 0 = (if s.dev.byCommand then 1 else s.dev.get PWR_MODE.BASE 0) ∧ t.dev.get PWR_PS_STATUS.GATED 0 = 0 ∧
      t.dev.lastTraffic = s.dev.now) ∧
  (∀ (s : State), s.dev.supply = .on → s.dev.is PWR_WAKE.REPLAY_PENDING 0 = true → s.dev.entering = false →
    s.dev.get PWR_PS_STATUS.STATE 0 = 2 → NextIs (exec .wakeReplayed s) fun t =>
      t.dev.get PWR_WAKE.REPLAY_PENDING 0 = 0 ∧ t.dev.latched = 0 ∧
      t.dev.get PWR_PS_STATUS.STATE 0 = (if s.dev.byCommand then 1 else s.dev.get PWR_MODE.BASE 0)) ∧
  (∀ (s : State) (master : Fin 2048) (value : Word), s.dev.supply = .on → NextIs (exec (.padReleaseWrite master value) s) fun t =>
      (master.val = 0 → t.dev.get PWR_PAD_HOLD.HELD 0 = s.dev.get PWR_PAD_HOLD.HELD 0 &&& (31 - bitsOf value.toNat 20 16)) ∧
      (master.val ≠ 0 → t.dev.get PWR_PAD_HOLD.HELD 0 = s.dev.get PWR_PAD_HOLD.HELD 0)) ∧
  (∀ (s : State), s.dev.supply = .on → s.dev.is PWR_PS_STATUS.ENTERING 0 = true → s.dev.get PWR_MODE.TARGET 0 = 3 →
    NextIs (exec .dormantEntry s) fun t =>
      (t.dev.supply = if bitOf s.dev.latched 5 then .on else .dormant) ∧ t.dev.get PWR_PAD_HOLD.HELD 0 = 31 ∧ t.dev.vits = [] ∧ t.mem = []) ∧
  (∀ (s : State), NextIs (exec .wakeN s) fun t =>
      (s.dev.supply = .on → t.dev = s.dev.wake 5) ∧ (s.dev.supply = .dormant → t.dev = { s.dev with supply := .on }) ∧
      (s.dev.supply = .off → t.dev = s.dev))

/-- An allowed rate order takes a PCIe or CXL port's ACTIVE lanes to PATTERN at the rate, or asks a fabric link's partner; one that such a
port may not take leaves the module as it was. A host's release and a powered device cage's release end PERST; suspend shows in LINK;
acknowledgements of notices and pins are noted. -/
def Obligations.OrdersReleasesAndAcknowledgements : Prop :=
  (∀ (s : State) (port : Fin 512) (rate : Fin 8), s.dev.supply = .on → s.dev.configured port = true →
    NextIs (exec (.rateChangeOrdered port rate) s) fun t =>
      (s.dev.fabricPort port = false → s.dev.rateAllowed port rate ((s.dev.lanesOf port).filter fun n => s.dev.laneState n == 6) = true →
        ∀ n ∈ ((s.dev.lanesOf port).filter fun n => s.dev.laneState n == 6), t.dev.laneState n = 2 ∧ t.dev.get LNA_LANE_STATE.RATE n =
        rate) ∧
      (s.dev.fabricPort port = false → s.dev.rateAllowed port rate ((s.dev.lanesOf port).filter fun n => s.dev.laneState n == 6) = false →
        t.dev = s.dev) ∧
      (s.dev.fabricPort port = true → s.dev.linkState port = 2 → (s.dev.fabricRates port).contains rate.val = true → rate.val ≠
        (s.dev.link port).rate → s.dev.rateHeld (s.dev.link port).lanes rate = true → t.dev = s.dev.request port 0x12 [rate.val])) ∧
  (∀ (s : State) (cage : Fin 64) (p : Nat), s.dev.supply = .on → s.dev.perstPort cage = some p →
    NextIs (exec (.hostPerstRelease cage) s) fun t =>
      (t.dev.portX p).hostPerst = false) ∧
  (∀ (s : State) (cage : Fin 64), s.dev.supply = .on →
    ((if cage.val < 56 then s.dev.is EF_STATUS.PG cage else (List.range 8).any fun i => s.dev.is LNA_LANE_CFG.ENABLE (cage.val * 8 + i)) =
      true) →
    (s.dev.portsInCage cage).any s.dev.deviceFacing = true → (((s.dev.portsInCage cage).all fun p => (s.dev.portX p).ordered) = false) →
    NextIs (exec (.devicePerstRelease cage) s) fun t =>
      cage.val ∈ t.dev.perstReleased) ∧
  (∀ (s : State) (remoteWakeup : Bool), s.dev.supply = .on → s.dev.is USH_MUD_CTL.CONNECT 0 = true →
    s.dev.is USH_MUD_STATUS.CONFIGURED 0 = true → s.dev.get USH_MUD_STATUS.LINK 0 ≠ 4 →
    NextIs (exec (.usbSuspend remoteWakeup) s) fun t =>
      t.dev.get USH_MUD_STATUS.LINK 0 = 4 ∧ t.dev.mud.remoteWakeup = remoteWakeup) ∧
  (∀ (s : State) (modul : Fin 8192) (scope : Fin 4) (id : Fin 1024), s.dev.supply = .on →
    NextIs (exec (.containmentNoticeAck modul scope id) s) fun t =>
      (∀ n ∈ t.dev.notices, n.modul ≠ modul.val ∨ n.object ≠ contObj scope id) ∧
      (t.dev.get SLC_CONT_STATE.UNACKED (contObj scope id) = (t.dev.notices.filter fun n => n.object == contObj scope id).length % 2 ^ 8)) ∧
  (∀ (s : State) (modul : Fin 8192) (tcut : Nat), s.dev.supply = .on → NextIs (exec (.pinEntryAck modul tcut) s) fun t =>
      (tcut, modul.val) ∈ t.dev.pinAcks ∧ (∀ x ∈ t.dev.vits, x.2.tcut2 = some tcut → modul.val ∉ x.2.unacked))
end

