-- ==== Sys2Proof/Laws/Commands.lean ====
section
/-! SUPPORT. What the shared frame of the Curator's commands answers: a command that the module carries out runs its body, and a command
that has ended shows its status. -/

namespace Sys2Proof.Machine

theorem Dev.command_runs {d : Dev} {h : CmdHdr} {op : Nat} {roles : List Nat} {target : Nat} (own : Bool) (body : Dev → Dev)
    (away : Bool) (hc : d.CarriesOut h op roles target) : d.command h op roles own target body away = body d := by
  obtain ⟨ht, hm, hr, he, hs⟩ := hc
  unfold Dev.command
  rw [if_neg (by simp [ht]), if_neg fun hx => hm.elim hx.1 hx.2]
  dsimp only
  rw [if_neg fun hx => hx (hr.elim Or.inl fun h => Or.inr (Or.inl h)), if_pos he]
  simp [Dev.checkStray, hs]

theorem Dev.moduleCommand_runs {d : Dev} {h : CmdHdr} {op : Nat} {roles : List Nat} (own : Bool) (body : Dev → Dev)
    (hc : d.CarriesOut h op roles d.moduleId) : d.moduleCommand h op roles own body = body d := by
  unfold Dev.moduleCommand
  have ht : (if h.modul = 0xFFFF then d.moduleId else h.modul) = d.moduleId := by
    rcases hc.2.1 with hm | hm <;> simp [hm]
  rw [ht]
  exact d.command_runs own body false hc

theorem Dev.orWait_runs {d : Dev} {h : CmdHdr} {p : Wait → Bool} (op gvh : Nat) (body : Dev → Dev) (ho : d.objectHeld h p = false)
    (hr : d.recording h op gvh = false) : d.orWait h op p gvh body = body d := by
  simp [Dev.orWait, ho, hr]

theorem Dev.vitrineCommand_runs {d : Dev} {h : CmdHdr} {op gvh lv : Nat} {roles : List Nat} (own : Bool) (body : Dev → Nat → Dev)
    (holds : Nat → Wait → Bool) (hc : d.CarriesOut h op roles d.moduleId) (hl : d.lvidOf gvh = some lv)
    (ho : d.objectHeld h (holds lv) = false) (hr : d.recording h op gvh = false) : d.vitrineCommand h op gvh roles own body holds = body d lv := by
  have hm : d.vitrineModule gvh = some d.moduleId := by simp [Dev.vitrineModule, hl]
  simp [Dev.vitrineCommand, hm, d.command_runs own _ false hc, hl, d.orWait_runs op gvh _ ho hr]

theorem stateCommand_runs {s : State} {h : CmdHdr} {op : Nat} {roles : List Nat} (body : State → State) (hs : s.dev.supply = .on)
    (hc : s.dev.CarriesOut h op roles s.dev.moduleId) : stateCommand s h op roles body = .next (body s) := by
  obtain ⟨ht, hm, hr, -, hst⟩ := hc
  simp [stateCommand, onState, powered, hs, ht, hm, hr, hst]

theorem Dev.retryHeld_none {d : Dev} (h : d.heldTlps = []) (hw : d.withheld = []) : d.retryHeld = d := by
  have he : ({ d with heldTlps := [] } : Dev) = d := by
    cases d
    cases h
    rfl
  unfold Dev.retryHeld
  rw [h]
  unfold Dev.releaseFrom
  rw [he]
  simp [Dev.settleCredits, Dev.forEach, h, hw]

theorem Dev.cmdOf_matches (d : Dev) (h : CmdHdr) (op : Nat) : Cmd.matches h (d.cmdOf h op) = true := by
  unfold Dev.cmdOf
  split
  · rename_i c hc
    have hm : Cmd.matches h c = true := List.find?_some hc
    exact hm
  · simp [Dev.newCmd, Cmd.matches]

theorem Dev.cmdOf_setCmd (d : Dev) (h : CmdHdr) (op : Nat) (c : Cmd) (hc : Cmd.matches h c = true) :
    (d.setCmd h c).cmdOf h op = { c with opcode := op } := by
  have hf : ((d.cmds.filter fun e => !Cmd.matches h e) ++ [c]).find? (Cmd.matches h) = some c := by
    rw [List.find?_append]
    have hn : (d.cmds.filter fun e => !Cmd.matches h e).find? (Cmd.matches h) = none := by
      rw [List.find?_eq_none]
      intro x hx
      have := (List.mem_filter.1 hx).2
      simpa using this
    simp [hn, hc]
  simp [Dev.cmdOf, Dev.setCmd, hf]

theorem Dev.finish_ends (d : Dev) (h : CmdHdr) (op status detail : Nat) (resp : List (Nat × Nat × Nat)) (gvh : Nat) :
    (d.finish h op status detail resp gvh).Ends h op status := by
  unfold Dev.Ends Dev.finish
  rw [Dev.cmdOf_setCmd]
  · exact ⟨rfl, rfl⟩
  · exact d.cmdOf_matches h op

theorem Dev.waitFor_awaits (d : Dev) (h : CmdHdr) (op : Nat) (w : Wait) (gvh : Nat) : (d.waitFor h op w gvh).Awaits h op w := by
  unfold Dev.Awaits Dev.waitFor
  rw [Dev.cmdOf_setCmd]
  · exact ⟨rfl, rfl⟩
  · exact d.cmdOf_matches h op

end Sys2Proof.Machine
end

