-- ==== Sys2Proof/Laws/SMap.lean ====
section
/-! SUPPORT. Sparse maps: what a read answers after each operation, and that a write keeps the canonical form. -/

namespace Sys2Proof.SMap

variable {α : Type}

@[simp] theorem find_nil (k : Nat) : find ([] : SMap α) k = none := rfl

theorem find_erase_self (m : SMap α) (k : Nat) : find (erase m k) k = none := by
  induction m with
  | nil => rfl
  | cons e r ih =>
    by_cases h : e.1 = k
    · simpa [erase, h] using ih
    · simpa [erase, h, find] using ih

theorem find_erase_ne (m : SMap α) {j k : Nat} (h : j ≠ k) : find (erase m k) j = find m j := by
  induction m with
  | nil => rfl
  | cons e r ih =>
    by_cases hk : e.1 = k
    · simpa [erase, find, hk, Ne.symm h] using ih
    · by_cases hj : e.1 = j <;> simp_all [erase, find]

theorem find_insert_ne (m : SMap α) {j k : Nat} (v : α) (h : j ≠ k) : find (insert m k v) j = find m j := by
  induction m with
  | nil => simp [insert, find, Ne.symm h]
  | cons e r ih =>
    unfold insert
    split
    · simp [find, Ne.symm h]
    · simp [find, ih]

theorem find_insert_self (m : SMap α) (k : Nat) (v : α) (h : find m k = none) : find (insert m k v) k = some v := by
  induction m with
  | nil => simp [insert, find]
  | cons e r ih =>
    have he : e.1 ≠ k := fun hk => by simp [find, hk] at h
    have hr : find r k = none := by simpa [find, he] using h
    unfold insert
    split
    · simp [find]
    · simpa [find, he] using ih hr

/-- A number that has been written reads as what was written. -/
@[simp] theorem get_set_self [DecidableEq α] (d : α) (m : SMap α) (k : Nat) (v : α) : get d (set d m k v) k = v := by
  unfold set get
  split
  · simp_all [find_erase_self]
  · simp [find_insert_self _ _ _ (find_erase_self m k)]

/-- A write leaves every other number alone, whatever default it is read with. -/
theorem get_set_ne [DecidableEq α] (d d' : α) (m : SMap α) {j k : Nat} (v : α) (h : j ≠ k) :
    get d' (set d m k v) j = get d' m j := by
  unfold set get
  split
  · rw [find_erase_ne m h]
  · rw [find_insert_ne _ _ h, find_erase_ne m h]

@[simp] theorem get_modify_self [DecidableEq α] (d : α) (m : SMap α) (k : Nat) (f : α → α) :
    get d (modify d m k f) k = f (get d m k) := get_set_self d m k _

theorem get_modify_ne [DecidableEq α] (d d' : α) (m : SMap α) {j k : Nat} (f : α → α) (h : j ≠ k) :
    get d' (modify d m k f) j = get d' m j := get_set_ne d d' m _ h

@[simp] theorem get_nil (d : α) (k : Nat) : get d ([] : SMap α) k = d := rfl

/-! ### The canonical form -/

/-- The numbers of a rising map, as the usual order on lists. -/
theorem rising_iff (m : SMap α) : rising m = true ↔ m.Pairwise fun a b => a.1 < b.1 := by
  induction m with
  | nil => simp [rising]
  | cons e r ih =>
    cases r with
    | nil => simp [rising]
    | cons e' r' =>
      simp only [rising, Bool.and_eq_true, decide_eq_true_eq, ih, List.pairwise_cons]
      constructor
      · rintro ⟨h, h1, h2⟩
        refine ⟨fun x hx => ?_, h1, h2⟩
        rcases List.mem_cons.1 hx with rfl | hx
        · exact h
        · exact Nat.lt_trans h (h1 x hx)
      · rintro ⟨h, h1, h2⟩
        exact ⟨h _ List.mem_cons_self, h1, h2⟩

theorem mem_insert (m : SMap α) (k : Nat) (v : α) (x : Nat × α) : x ∈ insert m k v ↔ x = (k, v) ∨ x ∈ m := by
  induction m with
  | nil => simp [insert]
  | cons e r ih =>
    unfold insert
    split
    · simp
    · simp only [List.mem_cons, ih]
      exact or_left_comm

theorem pairwise_insert (m : SMap α) (k : Nat) (v : α) (h : m.Pairwise fun a b => a.1 < b.1) (hk : ∀ x ∈ m, x.1 ≠ k) :
    (insert m k v).Pairwise fun a b => a.1 < b.1 := by
  induction m with
  | nil => simp [insert]
  | cons e r ih =>
    obtain ⟨h1, h2⟩ := List.pairwise_cons.1 h
    unfold insert
    split
    · rename_i hlt
      refine List.pairwise_cons.2 ⟨fun x hx => ?_, h⟩
      rcases List.mem_cons.1 hx with rfl | hx
      · exact hlt
      · exact Nat.lt_trans hlt (h1 x hx)
    · rename_i hlt
      have he := hk e List.mem_cons_self
      refine List.pairwise_cons.2 ⟨fun x hx => ?_, ih h2 fun x hx => hk x (List.mem_cons_of_mem _ hx)⟩
      rcases (mem_insert r k v x).1 hx with rfl | hx
      · exact Nat.lt_of_le_of_ne (Nat.le_of_not_lt hlt) he
      · exact h1 x hx

/-- A write keeps the canonical form. -/
theorem wf_set [DecidableEq α] (d : α) (m : SMap α) (k : Nat) (v : α) (h : wf d m = true) : wf d (set d m k v) = true := by
  simp only [wf, Bool.and_eq_true, rising_iff, List.all_eq_true, decide_eq_true_eq] at h ⊢
  have he : (erase m k).Pairwise fun a b => a.1 < b.1 := h.1.sublist List.filter_sublist
  have hk : ∀ x ∈ erase m k, x.1 ≠ k := fun x hx => by simpa using (List.mem_filter.1 hx).2
  have hd : ∀ x ∈ erase m k, x.2 ≠ d := fun x hx => h.2 x (List.mem_filter.1 hx).1
  unfold set
  split
  · exact ⟨he, hd⟩
  · rename_i hv
    refine ⟨pairwise_insert _ _ _ he hk, fun x hx => ?_⟩
    rcases (mem_insert _ _ _ x).1 hx with rfl | hx
    · exact hv
    · exact hd x hx

end Sys2Proof.SMap
end

