-- ==== Sys2Proof/Laws/Ops.lean ====
section
/-! SUPPORT. Register fields: what a read answers after a write; and the shared operations: what each may change, and what it does. -/

namespace Sys2Proof.Machine

/-! ### Keys -/

theorem Fld.code_lt (f : Fld) : f.code < 8192 := Nat.mod_lt _ (by decide)

/-- Two places of the register store are one only for one code and one instance. -/
theorem Fld.key_eq_iff (f g : Fld) (i j : Nat) : f.key i = g.key j ↔ f.code = g.code ∧ i = j := by
  have hf := f.code_lt
  have hg := g.code_lt
  unfold Fld.key
  omega

theorem Reg.ctorIdx_lt (r : Reg) : r.ctorIdx < 256 := by
  cases r <;> decide

theorem Reg.ctorIdx_inj {r q : Reg} (h : r.ctorIdx = q.ctorIdx) : r = q := by
  have hr := Reg.ofNat_ctorIdx r
  rw [h, Reg.ofNat_ctorIdx] at hr
  exact hr.symm

/-- Fields of one code lie in one register. -/
theorem Fld.reg_eq_of_code {f g : Fld} (hf : f.lo < 32) (hg : g.lo < 32) (h : f.code = g.code) : f.reg = g.reg := by
  have h1 := f.reg.ctorIdx_lt
  have h2 := g.reg.ctorIdx_lt
  unfold Fld.code at h
  exact Reg.ctorIdx_inj (by omega)

/-! ### Reading after writing -/

/-- A field reads what was written into it, cut to its width. -/
@[simp] theorem Dev.get_put_self (d : Dev) (f : Fld) (i v : Nat) : (d.put f i v).get f i = v % 2 ^ f.width := by
  simp [Dev.get, Dev.put]

/-- A write leaves every other place of the register store alone. -/
theorem Dev.get_put_ne (d : Dev) (f g : Fld) (i j v : Nat) (h : f.key i ≠ g.key j) : (d.put g j v).get f i = d.get f i :=
  SMap.get_set_ne _ _ _ _ h

/-- A write leaves the other fields alone. -/
theorem Dev.get_put_code (d : Dev) (f g : Fld) (i j v : Nat) (h : f.code ≠ g.code) : (d.put g j v).get f i = d.get f i :=
  d.get_put_ne f g i j v fun hk => h ((Fld.key_eq_iff f g i j).1 hk).1

/-- A write leaves the other instances alone. -/
theorem Dev.get_put_instance (d : Dev) (f g : Fld) (i j v : Nat) (h : i ≠ j) : (d.put g j v).get f i = d.get f i :=
  d.get_put_ne f g i j v fun hk => h ((Fld.key_eq_iff f g i j).1 hk).2

@[simp] theorem Dev.get_mark_self (d : Dev) (f : Fld) (i : Nat) (b : Bool) : (d.mark f i b).get f i = bitVal b % 2 ^ f.width :=
  d.get_put_self f i _

end Sys2Proof.Machine
end

