-- ==== Sys2Proof/Laws/Keeps.lean ====
section
/-! SUPPORT. What the shared operations keep (`Dev.Keeps`): how the fact composes, and one lemma for each way a structure is updated. -/

set_option Elab.async false

namespace Sys2Proof.Machine

/-! ### Composition -/

theorem Dev.Keeps.refl (R : List Reg) (P : List Part) (d : Dev) : Dev.Keeps R P d d :=
  ⟨fun _ _ _ _ => rfl, fun p _ => by cases p <;> rfl⟩

theorem Part.Same.trans {p : Part} {a b c : Dev} (h : p.Same a b) (h' : p.Same b c) : p.Same a c := by
  cases p <;> exact Eq.trans h' h

theorem Dev.Keeps.trans {R : List Reg} {P : List Part} {a b c : Dev} (h : Dev.Keeps R P a b) (h' : Dev.Keeps R P b c) :
    Dev.Keeps R P a c :=
  ⟨fun f i hR hlo => (h'.1 f i hR hlo).trans (h.1 f i hR hlo), fun p hp => (h.2 p hp).trans (h'.2 p hp)⟩

theorem Dev.Keeps.mono {R R' : List Reg} {P P' : List Part} {a b : Dev} (h : Dev.Keeps R' P' a b) (hR : R' ⊆ R) (hP : P' ⊆ P) :
    Dev.Keeps R P a b :=
  ⟨fun f i hf hlo => h.1 f i (fun x => hf (hR x)) hlo, fun p hp => h.2 p fun x => hp (hP x)⟩

/-- A list of things as a number, one bit for each. -/
def bitSet {α : Type} (code : α → Nat) (l : List α) : Nat := l.foldr (fun r n => n ||| 1 <<< code r) 0

/-- The registers R' are among R: by one bit for each register, which evaluates fast. -/
def Reg.among (R' R : List Reg) : Bool := bitSet Reg.ctorIdx R' &&& bitSet Reg.ctorIdx R == bitSet Reg.ctorIdx R'

/-- The structures P' are among P. -/
def Part.among (P' P : List Part) : Bool := bitSet Part.ctorIdx P' &&& bitSet Part.ctorIdx P == bitSet Part.ctorIdx P'

theorem bitSet_testBit {α : Type} (f : α → Nat) (l : List α) (n : Nat) : (bitSet f l).testBit n = true ↔ ∃ r ∈ l, f r = n := by
  induction l with
  | nil => simp [bitSet]
  | cons x r ih =>
    have h : (bitSet f (x :: r)).testBit n = ((bitSet f r).testBit n || decide (f x = n)) := by
      simp [bitSet, Nat.testBit_or, Nat.testBit_shiftLeft]
      by_cases hx : f x = n <;> simp [hx, Nat.testBit_one_eq_true_iff_self_eq_zero] <;> omega
    rw [h, Bool.or_eq_true, ih]
    simp [or_comm]

theorem Reg.subset_of_among {R' R : List Reg} (h : Reg.among R' R = true) : R' ⊆ R := by
  intro r hr
  have h1 := (bitSet_testBit Reg.ctorIdx R' r.ctorIdx).2 ⟨r, hr, rfl⟩
  rw [← eq_of_beq h, Nat.testBit_and, Bool.and_eq_true] at h1
  obtain ⟨q, hq, he⟩ := (bitSet_testBit Reg.ctorIdx R r.ctorIdx).1 h1.2
  rwa [← Reg.ctorIdx_inj he]

theorem Part.subset_of_among {P' P : List Part} (h : Part.among P' P = true) : P' ⊆ P := by
  intro r hr
  have h1 := (bitSet_testBit Part.ctorIdx P' r.ctorIdx).2 ⟨r, hr, rfl⟩
  rw [← eq_of_beq h, Nat.testBit_and, Bool.and_eq_true] at h1
  obtain ⟨q, hq, he⟩ := (bitSet_testBit Part.ctorIdx P r.ctorIdx).1 h1.2
  have hi := Part.ofNat_ctorIdx q
  rw [he, Part.ofNat_ctorIdx] at hi
  rwa [hi]

/-- An operation that keeps less comes after what keeps R and P. -/
theorem Dev.Keeps.step {R R' : List Reg} {P P' : List Part} {a b c : Dev} (h : Dev.Keeps R' P' b c) (hR : Reg.among R' R = true)
    (hP : Part.among P' P = true) (h' : Dev.Keeps R P a b) : Dev.Keeps R P a c :=
  h'.trans (h.mono (Reg.subset_of_among hR) (Part.subset_of_among hP))

theorem Dev.Keeps.step' {R : List Reg} {P : List Part} {a b c : Dev} (h : Dev.Keeps R P b c) (h' : Dev.Keeps R P a b) :
    Dev.Keeps R P a c := h'.trans h

/-- What an operation that answers a pair keeps, once the pair is taken apart. -/
theorem Dev.Keeps.pair {α : Type} {R R' : List Reg} {P P' : List Part} {a b c : Dev} {x : α × Dev} {y : α} (h : Dev.Keeps R' P' b x.2)
    (he : x = (y, c)) (hR : Reg.among R' R = true) (hP : Part.among P' P = true) (h' : Dev.Keeps R P a b) : Dev.Keeps R P a c := by
  subst he
  exact h.step hR hP h'

/-- What an operation keeps, from a larger set of what it may change. -/
theorem Dev.Keeps.widen {R R' : List Reg} {P P' : List Part} {a b : Dev} (h : Dev.Keeps R' P' a b)
    (hR : Reg.among R' R = true := by decide +kernel) (hP : Part.among P' P = true := by decide +kernel) : Dev.Keeps R P a b :=
  h.mono (Reg.subset_of_among hR) (Part.subset_of_among hP)

theorem Dev.Keeps.ite {R : List Reg} {P : List Part} {a b c : Dev} {p : Prop} [Decidable p] (hb : Dev.Keeps R P a b)
    (hc : Dev.Keeps R P a c) : Dev.Keeps R P a (if p then b else c) := by
  split <;> assumption

/-- A fact about a place that is kept holds after the operation. -/
theorem Dev.Keeps.get {R : List Reg} {P : List Part} {d e : Dev} (h : Dev.Keeps R P d e) (f : Fld) (i : Nat)
    (hR : f.reg ∉ R := by decide) (hlo : f.lo < 32 := by decide) : e.get f i = d.get f i := h.1 f i hR hlo

theorem Dev.Keeps.same {R : List Reg} {P : List Part} {d e : Dev} (h : Dev.Keeps R P d e) (p : Part) (hP : p ∉ P := by decide) :
    p.Same d e := h.2 p hP

/-! ### Registers -/

theorem Dev.Keeps.put {R : List Reg} {P : List Part} {a d : Dev} (f : Fld) (i v : Nat) (hlo : f.lo < 32) (hf : f.reg ∈ R)
    (h : Dev.Keeps R P a d) : Dev.Keeps R P a (d.put f i v) :=
  h.trans ⟨fun g j hg hl => d.get_put_code g f j i v fun hc => hg (by rwa [Fld.reg_eq_of_code hl hlo hc]),
    fun p _ => by cases p <;> rfl⟩

theorem Dev.Keeps.mark {R : List Reg} {P : List Part} {a d : Dev} (f : Fld) (i : Nat) (b : Bool) (hlo : f.lo < 32) (hf : f.reg ∈ R)
    (h : Dev.Keeps R P a d) : Dev.Keeps R P a (d.mark f i b) := h.put f i _ hlo hf

theorem Dev.Keeps.bump {R : List Reg} {P : List Part} {a d : Dev} (f : Fld) (i n : Nat) (hlo : f.lo < 32) (hf : f.reg ∈ R)
    (h : Dev.Keeps R P a d) : Dev.Keeps R P a (d.bump f i n) := h.put f i _ hlo hf

theorem Dev.Keeps.put64 {R : List Reg} {P : List Part} {a d : Dev} (f g : Fld) (i v : Nat) (hlo : f.lo < 32) (hlo' : g.lo < 32)
    (hf : f.reg ∈ R) (hg : g.reg ∈ R) (h : Dev.Keeps R P a d) : Dev.Keeps R P a (d.put64 f g i v) :=
  (h.put f i _ hlo hf).put g i _ hlo' hg

/-! ### Choosing -/

theorem Dev.Keeps.when {R : List Reg} {P : List Part} {a d : Dev} {b : Bool} {f : Dev → Dev} (h : Dev.Keeps R P a d)
    (hf : ∀ e, Dev.Keeps R P a e → Dev.Keeps R P a (f e)) : Dev.Keeps R P a (d.when b f) := by
  unfold Dev.when
  split
  · exact hf d h
  · exact h

theorem Dev.Keeps.foldl {α : Type} {R : List Reg} {P : List Part} {a d : Dev} {xs : List α} {f : Dev → α → Dev}
    (h : Dev.Keeps R P a d) (hf : ∀ e x, Dev.Keeps R P a e → Dev.Keeps R P a (f e x)) : Dev.Keeps R P a (xs.foldl f d) := by
  induction xs generalizing d with
  | nil => exact h
  | cons x r ih => exact ih (hf d x h)

theorem Dev.Keeps.forEach {α : Type} {R : List Reg} {P : List Part} {a d : Dev} {xs : List α} {f : Dev → α → Dev}
    (h : Dev.Keeps R P a d) (hf : ∀ e x, Dev.Keeps R P a e → Dev.Keeps R P a (f e x)) : Dev.Keeps R P a (d.forEach xs f) :=
  h.foldl hf

/-! ### Structures -/

theorem Dev.Keeps.set_now {R : List Reg} {P : List Part} {a d : Dev} {x : Nat} (hp : Part.now ∈ P)
    (h : Dev.Keeps R P a d) : Dev.Keeps R P a { d with now := x } :=
  h.trans ⟨fun _ _ _ _ => rfl, fun p hq => by
    cases p
    case now => exact absurd hp hq
    all_goals exact rfl⟩

theorem Dev.Keeps.set_weir {R : List Reg} {P : List Part} {a d : Dev} {x : Nat} (hp : Part.weir ∈ P)
    (h : Dev.Keeps R P a d) : Dev.Keeps R P a { d with weir := x } :=
  h.trans ⟨fun _ _ _ _ => rfl, fun p hq => by
    cases p
    case weir => exact absurd hp hq
    all_goals exact rfl⟩

theorem Dev.Keeps.set_shadows {R : List Reg} {P : List Part} {a d : Dev} {x : List (Nat × Nat × Nat)} (hp : Part.shadows ∈ P)
    (h : Dev.Keeps R P a d) : Dev.Keeps R P a { d with shadows := x } :=
  h.trans ⟨fun _ _ _ _ => rfl, fun p hq => by
    cases p
    case shadows => exact absurd hp hq
    all_goals exact rfl⟩

theorem Dev.Keeps.set_drawn {R : List Reg} {P : List Part} {a d : Dev} {x : Nat} (hp : Part.drawn ∈ P)
    (h : Dev.Keeps R P a d) : Dev.Keeps R P a { d with drawn := x } :=
  h.trans ⟨fun _ _ _ _ => rfl, fun p hq => by
    cases p
    case drawn => exact absurd hp hq
    all_goals exact rfl⟩

theorem Dev.Keeps.set_out {R : List Reg} {P : List Part} {a d : Dev} {x : List Out} (hp : Part.out ∈ P)
    (h : Dev.Keeps R P a d) : Dev.Keeps R P a { d with out := x } :=
  h.trans ⟨fun _ _ _ _ => rfl, fun p hq => by
    cases p
    case out => exact absurd hp hq
    all_goals exact rfl⟩

theorem Dev.Keeps.set_ring {R : List Reg} {P : List Part} {a d : Dev} {x : SMap EvRec} (hp : Part.ring ∈ P)
    (h : Dev.Keeps R P a d) : Dev.Keeps R P a { d with ring := x } :=
  h.trans ⟨fun _ _ _ _ => rfl, fun p hq => by
    cases p
    case ring => exact absurd hp hq
    all_goals exact rfl⟩

theorem Dev.Keeps.set_staging {R : List Reg} {P : List Part} {a d : Dev} {x : List EvRec} (hp : Part.staging ∈ P)
    (h : Dev.Keeps R P a d) : Dev.Keeps R P a { d with staging := x } :=
  h.trans ⟨fun _ _ _ _ => rfl, fun p hq => by
    cases p
    case staging => exact absurd hp hq
    all_goals exact rfl⟩

theorem Dev.Keeps.set_overrun {R : List Reg} {P : List Part} {a d : Dev} {x : Nat} (hp : Part.overrun ∈ P)
    (h : Dev.Keeps R P a d) : Dev.Keeps R P a { d with overrun := x } :=
  h.trans ⟨fun _ _ _ _ => rfl, fun p hq => by
    cases p
    case overrun => exact absurd hp hq
    all_goals exact rfl⟩

theorem Dev.Keeps.set_booted {R : List Reg} {P : List Part} {a d : Dev} {x : Bool} (hp : Part.booted ∈ P)
    (h : Dev.Keeps R P a d) : Dev.Keeps R P a { d with booted := x } :=
  h.trans ⟨fun _ _ _ _ => rfl, fun p hq => by
    cases p
    case booted => exact absurd hp hq
    all_goals exact rfl⟩

theorem Dev.Keeps.set_limited {R : List Reg} {P : List Part} {a d : Dev} {x : SMap Limited} (hp : Part.limited ∈ P)
    (h : Dev.Keeps R P a d) : Dev.Keeps R P a { d with limited := x } :=
  h.trans ⟨fun _ _ _ _ => rfl, fun p hq => by
    cases p
    case limited => exact absurd hp hq
    all_goals exact rfl⟩

theorem Dev.Keeps.set_masked {R : List Reg} {P : List Part} {a d : Dev} {x : List Masked} (hp : Part.masked ∈ P)
    (h : Dev.Keeps R P a d) : Dev.Keeps R P a { d with masked := x } :=
  h.trans ⟨fun _ _ _ _ => rfl, fun p hq => by
    cases p
    case masked => exact absurd hp hq
    all_goals exact rfl⟩

theorem Dev.Keeps.set_ctrs {R : List Reg} {P : List Part} {a d : Dev} {x : SMap Ctr} (hp : Part.ctrs ∈ P)
    (h : Dev.Keeps R P a d) : Dev.Keeps R P a { d with ctrs := x } :=
  h.trans ⟨fun _ _ _ _ => rfl, fun p hq => by
    cases p
    case ctrs => exact absurd hp hq
    all_goals exact rfl⟩

theorem Dev.Keeps.set_injections {R : List Reg} {P : List Part} {a d : Dev} {x : List Injection} (hp : Part.injections ∈ P)
    (h : Dev.Keeps R P a d) : Dev.Keeps R P a { d with injections := x } :=
  h.trans ⟨fun _ _ _ _ => rfl, fun p hq => by
    cases p
    case injections => exact absurd hp hq
    all_goals exact rfl⟩

theorem Dev.Keeps.set_injecting {R : List Reg} {P : List Part} {a d : Dev} {x : Bool} (hp : Part.injecting ∈ P)
    (h : Dev.Keeps R P a d) : Dev.Keeps R P a { d with injecting := x } :=
  h.trans ⟨fun _ _ _ _ => rfl, fun p hq => by
    cases p
    case injecting => exact absurd hp hq
    all_goals exact rfl⟩

theorem Dev.Keeps.set_arrived {R : List Reg} {P : List Part} {a d : Dev} {x : List (Nat × Frame)} (hp : Part.arrived ∈ P)
    (h : Dev.Keeps R P a d) : Dev.Keeps R P a { d with arrived := x } :=
  h.trans ⟨fun _ _ _ _ => rfl, fun p hq => by
    cases p
    case arrived => exact absurd hp hq
    all_goals exact rfl⟩

theorem Dev.Keeps.set_routed {R : List Reg} {P : List Part} {a d : Dev} {x : List (Nat × Nat × Frame)} (hp : Part.routed ∈ P)
    (h : Dev.Keeps R P a d) : Dev.Keeps R P a { d with routed := x } :=
  h.trans ⟨fun _ _ _ _ => rfl, fun p hq => by
    cases p
    case routed => exact absurd hp hq
    all_goals exact rfl⟩

theorem Dev.Keeps.set_egress {R : List Reg} {P : List Part} {a d : Dev} {x : List (Nat × Frame)} (hp : Part.egress ∈ P)
    (h : Dev.Keeps R P a d) : Dev.Keeps R P a { d with egress := x } :=
  h.trans ⟨fun _ _ _ _ => rfl, fun p hq => by
    cases p
    case egress => exact absurd hp hq
    all_goals exact rfl⟩

theorem Dev.Keeps.set_queues {R : List Reg} {P : List Part} {a d : Dev} {x : SMap Queue} (hp : Part.queues ∈ P)
    (h : Dev.Keeps R P a d) : Dev.Keeps R P a { d with queues := x } :=
  h.trans ⟨fun _ _ _ _ => rfl, fun p hq => by
    cases p
    case queues => exact absurd hp hq
    all_goals exact rfl⟩

theorem Dev.Keeps.set_cellsFree {R : List Reg} {P : List Part} {a d : Dev} {x : List Nat} (hp : Part.cellsFree ∈ P)
    (h : Dev.Keeps R P a d) : Dev.Keeps R P a { d with cellsFree := x } :=
  h.trans ⟨fun _ _ _ _ => rfl, fun p hq => by
    cases p
    case cellsFree => exact absurd hp hq
    all_goals exact rfl⟩

theorem Dev.Keeps.set_cellsUsed {R : List Reg} {P : List Part} {a d : Dev} {x : Nat} (hp : Part.cellsUsed ∈ P)
    (h : Dev.Keeps R P a d) : Dev.Keeps R P a { d with cellsUsed := x } :=
  h.trans ⟨fun _ _ _ _ => rfl, fun p hq => by
    cases p
    case cellsUsed => exact absurd hp hq
    all_goals exact rfl⟩

theorem Dev.Keeps.set_outs {R : List Reg} {P : List Part} {a d : Dev} {x : SMap OutPort} (hp : Part.outs ∈ P)
    (h : Dev.Keeps R P a d) : Dev.Keeps R P a { d with outs := x } :=
  h.trans ⟨fun _ _ _ _ => rfl, fun p hq => by
    cases p
    case outs => exact absurd hp hq
    all_goals exact rfl⟩

theorem Dev.Keeps.set_wins {R : List Reg} {P : List Part} {a d : Dev} {x : SMap Win} (hp : Part.wins ∈ P)
    (h : Dev.Keeps R P a d) : Dev.Keeps R P a { d with wins := x } :=
  h.trans ⟨fun _ _ _ _ => rfl, fun p hq => by
    cases p
    case wins => exact absurd hp hq
    all_goals exact rfl⟩

theorem Dev.Keeps.set_dwins {R : List Reg} {P : List Part} {a d : Dev} {x : List DWin} (hp : Part.dwins ∈ P)
    (h : Dev.Keeps R P a d) : Dev.Keeps R P a { d with dwins := x } :=
  h.trans ⟨fun _ _ _ _ => rfl, fun p hq => by
    cases p
    case dwins => exact absurd hp hq
    all_goals exact rfl⟩

theorem Dev.Keeps.set_trk {R : List Reg} {P : List Part} {a d : Dev} {x : SMap Trk} (hp : Part.trk ∈ P)
    (h : Dev.Keeps R P a d) : Dev.Keeps R P a { d with trk := x } :=
  h.trans ⟨fun _ _ _ _ => rfl, fun p hq => by
    cases p
    case trk => exact absurd hp hq
    all_goals exact rfl⟩

theorem Dev.Keeps.set_tagHolds {R : List Reg} {P : List Part} {a d : Dev} {x : List TagHold} (hp : Part.tagHolds ∈ P)
    (h : Dev.Keeps R P a d) : Dev.Keeps R P a { d with tagHolds := x } :=
  h.trans ⟨fun _ _ _ _ => rfl, fun p hq => by
    cases p
    case tagHolds => exact absurd hp hq
    all_goals exact rfl⟩

theorem Dev.Keeps.set_lates {R : List Reg} {P : List Part} {a d : Dev} {x : List LateRec} (hp : Part.lates ∈ P)
    (h : Dev.Keeps R P a d) : Dev.Keeps R P a { d with lates := x } :=
  h.trans ⟨fun _ _ _ _ => rfl, fun p hq => by
    cases p
    case lates => exact absurd hp hq
    all_goals exact rfl⟩

theorem Dev.Keeps.set_endpoints {R : List Reg} {P : List Part} {a d : Dev} {x : SMap Endpoint} (hp : Part.endpoints ∈ P)
    (h : Dev.Keeps R P a d) : Dev.Keeps R P a { d with endpoints := x } :=
  h.trans ⟨fun _ _ _ _ => rfl, fun p hq => by
    cases p
    case endpoints => exact absurd hp hq
    all_goals exact rfl⟩

theorem Dev.Keeps.set_vits {R : List Reg} {P : List Part} {a d : Dev} {x : SMap Vit} (hp : Part.vits ∈ P)
    (h : Dev.Keeps R P a d) : Dev.Keeps R P a { d with vits := x } :=
  h.trans ⟨fun _ _ _ _ => rfl, fun p hq => by
    cases p
    case vits => exact absurd hp hq
    all_goals exact rfl⟩

theorem Dev.Keeps.set_vports {R : List Reg} {P : List Part} {a d : Dev} {x : SMap VPort} (hp : Part.vports ∈ P)
    (h : Dev.Keeps R P a d) : Dev.Keeps R P a { d with vports := x } :=
  h.trans ⟨fun _ _ _ _ => rfl, fun p hq => by
    cases p
    case vports => exact absurd hp hq
    all_goals exact rfl⟩

theorem Dev.Keeps.set_vmfs {R : List Reg} {P : List Part} {a d : Dev} {x : SMap Vmf} (hp : Part.vmfs ∈ P)
    (h : Dev.Keeps R P a d) : Dev.Keeps R P a { d with vmfs := x } :=
  h.trans ⟨fun _ _ _ _ => rfl, fun p hq => by
    cases p
    case vmfs => exact absurd hp hq
    all_goals exact rfl⟩

theorem Dev.Keeps.set_cfg {R : List Reg} {P : List Part} {a d : Dev} {x : SMap Nat} (hp : Part.cfg ∈ P)
    (h : Dev.Keeps R P a d) : Dev.Keeps R P a { d with cfg := x } :=
  h.trans ⟨fun _ _ _ _ => rfl, fun p hq => by
    cases p
    case cfg => exact absurd hp hq
    all_goals exact rfl⟩

theorem Dev.Keeps.set_heldTlps {R : List Reg} {P : List Part} {a d : Dev} {x : List HeldTlp} (hp : Part.heldTlps ∈ P)
    (h : Dev.Keeps R P a d) : Dev.Keeps R P a { d with heldTlps := x } :=
  h.trans ⟨fun _ _ _ _ => rfl, fun p hq => by
    cases p
    case heldTlps => exact absurd hp hq
    all_goals exact rfl⟩

theorem Dev.Keeps.set_notices {R : List Reg} {P : List Part} {a d : Dev} {x : List Notice} (hp : Part.notices ∈ P)
    (h : Dev.Keeps R P a d) : Dev.Keeps R P a { d with notices := x } :=
  h.trans ⟨fun _ _ _ _ => rfl, fun p hq => by
    cases p
    case notices => exact absurd hp hq
    all_goals exact rfl⟩

theorem Dev.Keeps.set_lockSrc {R : List Reg} {P : List Part} {a d : Dev} {x : SMap Nat} (hp : Part.lockSrc ∈ P)
    (h : Dev.Keeps R P a d) : Dev.Keeps R P a { d with lockSrc := x } :=
  h.trans ⟨fun _ _ _ _ => rfl, fun p hq => by
    cases p
    case lockSrc => exact absurd hp hq
    all_goals exact rfl⟩

theorem Dev.Keeps.set_lockSince {R : List Reg} {P : List Part} {a d : Dev} {x : SMap Nat} (hp : Part.lockSince ∈ P)
    (h : Dev.Keeps R P a d) : Dev.Keeps R P a { d with lockSince := x } :=
  h.trans ⟨fun _ _ _ _ => rfl, fun p hq => by
    cases p
    case lockSince => exact absurd hp hq
    all_goals exact rfl⟩

theorem Dev.Keeps.set_slots {R : List Reg} {P : List Part} {a d : Dev} {x : List (Nat × Nat × Nat)} (hp : Part.slots ∈ P)
    (h : Dev.Keeps R P a d) : Dev.Keeps R P a { d with slots := x } :=
  h.trans ⟨fun _ _ _ _ => rfl, fun p hq => by
    cases p
    case slots => exact absurd hp hq
    all_goals exact rfl⟩

theorem Dev.Keeps.set_lastTraffic {R : List Reg} {P : List Part} {a d : Dev} {x : Nat} (hp : Part.lastTraffic ∈ P)
    (h : Dev.Keeps R P a d) : Dev.Keeps R P a { d with lastTraffic := x } :=
  h.trans ⟨fun _ _ _ _ => rfl, fun p hq => by
    cases p
    case lastTraffic => exact absurd hp hq
    all_goals exact rfl⟩

theorem Dev.Keeps.set_brokenQueues {R : List Reg} {P : List Part} {a d : Dev} {x : List Nat} (hp : Part.brokenQueues ∈ P)
    (h : Dev.Keeps R P a d) : Dev.Keeps R P a { d with brokenQueues := x } :=
  h.trans ⟨fun _ _ _ _ => rfl, fun p hq => by
    cases p
    case brokenQueues => exact absurd hp hq
    all_goals exact rfl⟩

theorem Dev.Keeps.set_links {R : List Reg} {P : List Part} {a d : Dev} {x : SMap Link} (hp : Part.links ∈ P)
    (h : Dev.Keeps R P a d) : Dev.Keeps R P a { d with links := x } :=
  h.trans ⟨fun _ _ _ _ => rfl, fun p hq => by
    cases p
    case links => exact absurd hp hq
    all_goals exact rfl⟩

theorem Dev.Keeps.set_shapers {R : List Reg} {P : List Part} {a d : Dev} {x : SMap Shaper} (hp : Part.shapers ∈ P)
    (h : Dev.Keeps R P a d) : Dev.Keeps R P a { d with shapers := x } :=
  h.trans ⟨fun _ _ _ _ => rfl, fun p hq => by
    cases p
    case shapers => exact absurd hp hq
    all_goals exact rfl⟩

theorem Dev.Keeps.set_pins {R : List Reg} {P : List Part} {a d : Dev} {x : SMap Pin} (hp : Part.pins ∈ P)
    (h : Dev.Keeps R P a d) : Dev.Keeps R P a { d with pins := x } :=
  h.trans ⟨fun _ _ _ _ => rfl, fun p hq => by
    cases p
    case pins => exact absurd hp hq
    all_goals exact rfl⟩

theorem Dev.Keeps.set_atts {R : List Reg} {P : List Part} {a d : Dev} {x : SMap Att} (hp : Part.atts ∈ P)
    (h : Dev.Keeps R P a d) : Dev.Keeps R P a { d with atts := x } :=
  h.trans ⟨fun _ _ _ _ => rfl, fun p hq => by
    cases p
    case atts => exact absurd hp hq
    all_goals exact rfl⟩

theorem Dev.Keeps.set_pinAcks {R : List Reg} {P : List Part} {a d : Dev} {x : List (Nat × Nat)} (hp : Part.pinAcks ∈ P)
    (h : Dev.Keeps R P a d) : Dev.Keeps R P a { d with pinAcks := x } :=
  h.trans ⟨fun _ _ _ _ => rfl, fun p hq => by
    cases p
    case pinAcks => exact absurd hp hq
    all_goals exact rfl⟩

theorem Dev.Keeps.set_registrar {R : List Reg} {P : List Part} {a d : Dev} {x : Option Nat} (hp : Part.registrar ∈ P)
    (h : Dev.Keeps R P a d) : Dev.Keeps R P a { d with registrar := x } :=
  h.trans ⟨fun _ _ _ _ => rfl, fun p hq => by
    cases p
    case registrar => exact absurd hp hq
    all_goals exact rfl⟩

theorem Dev.Keeps.set_perstReleased {R : List Reg} {P : List Part} {a d : Dev} {x : List Nat} (hp : Part.perstReleased ∈ P)
    (h : Dev.Keeps R P a d) : Dev.Keeps R P a { d with perstReleased := x } :=
  h.trans ⟨fun _ _ _ _ => rfl, fun p hq => by
    cases p
    case perstReleased => exact absurd hp hq
    all_goals exact rfl⟩

theorem Dev.Keeps.set_owesDrs {R : List Reg} {P : List Part} {a d : Dev} {x : List Nat} (hp : Part.owesDrs ∈ P)
    (h : Dev.Keeps R P a d) : Dev.Keeps R P a { d with owesDrs := x } :=
  h.trans ⟨fun _ _ _ _ => rfl, fun p hq => by
    cases p
    case owesDrs => exact absurd hp hq
    all_goals exact rfl⟩

theorem Dev.Keeps.set_sbSeq {R : List Reg} {P : List Part} {a d : Dev} {x : SMap Nat} (hp : Part.sbSeq ∈ P)
    (h : Dev.Keeps R P a d) : Dev.Keeps R P a { d with sbSeq := x } :=
  h.trans ⟨fun _ _ _ _ => rfl, fun p hq => by
    cases p
    case sbSeq => exact absurd hp hq
    all_goals exact rfl⟩

theorem Dev.Keeps.set_sbSeen {R : List Reg} {P : List Part} {a d : Dev} {x : List (Nat × Nat)} (hp : Part.sbSeen ∈ P)
    (h : Dev.Keeps R P a d) : Dev.Keeps R P a { d with sbSeen := x } :=
  h.trans ⟨fun _ _ _ _ => rfl, fun p hq => by
    cases p
    case sbSeen => exact absurd hp hq
    all_goals exact rfl⟩

theorem Dev.Keeps.set_heldCpls {R : List Reg} {P : List Part} {a d : Dev} {x : List HeldCpl} (hp : Part.heldCpls ∈ P)
    (h : Dev.Keeps R P a d) : Dev.Keeps R P a { d with heldCpls := x } :=
  h.trans ⟨fun _ _ _ _ => rfl, fun p hq => by
    cases p
    case heldCpls => exact absurd hp hq
    all_goals exact rfl⟩

theorem Dev.Keeps.set_saves {R : List Reg} {P : List Part} {a d : Dev} {x : SMap Image} (hp : Part.saves ∈ P)
    (h : Dev.Keeps R P a d) : Dev.Keeps R P a { d with saves := x } :=
  h.trans ⟨fun _ _ _ _ => rfl, fun p hq => by
    cases p
    case saves => exact absurd hp hq
    all_goals exact rfl⟩

theorem Dev.Keeps.set_lanes {R : List Reg} {P : List Part} {a d : Dev} {x : SMap LaneX} (hp : Part.lanes ∈ P)
    (h : Dev.Keeps R P a d) : Dev.Keeps R P a { d with lanes := x } :=
  h.trans ⟨fun _ _ _ _ => rfl, fun p hq => by
    cases p
    case lanes => exact absurd hp hq
    all_goals exact rfl⟩

theorem Dev.Keeps.set_ports {R : List Reg} {P : List Part} {a d : Dev} {x : SMap PortX} (hp : Part.ports ∈ P)
    (h : Dev.Keeps R P a d) : Dev.Keeps R P a { d with ports := x } :=
  h.trans ⟨fun _ _ _ _ => rfl, fun p hq => by
    cases p
    case ports => exact absurd hp hq
    all_goals exact rfl⟩

theorem Dev.Keeps.set_pausedLinks {R : List Reg} {P : List Part} {a d : Dev} {x : List Nat} (hp : Part.pausedLinks ∈ P)
    (h : Dev.Keeps R P a d) : Dev.Keeps R P a { d with pausedLinks := x } :=
  h.trans ⟨fun _ _ _ _ => rfl, fun p hq => by
    cases p
    case pausedLinks => exact absurd hp hq
    all_goals exact rfl⟩

theorem Dev.Keeps.set_eqTable {R : List Reg} {P : List Part} {a d : Dev} {x : Option (List EqEntry)} (hp : Part.eqTable ∈ P)
    (h : Dev.Keeps R P a d) : Dev.Keeps R P a { d with eqTable := x } :=
  h.trans ⟨fun _ _ _ _ => rfl, fun p hq => by
    cases p
    case eqTable => exact absurd hp hq
    all_goals exact rfl⟩

theorem Dev.Keeps.set_eqReported {R : List Reg} {P : List Part} {a d : Dev} {x : Bool} (hp : Part.eqReported ∈ P)
    (h : Dev.Keeps R P a d) : Dev.Keeps R P a { d with eqReported := x } :=
  h.trans ⟨fun _ _ _ _ => rfl, fun p hq => by
    cases p
    case eqReported => exact absurd hp hq
    all_goals exact rfl⟩

theorem Dev.Keeps.set_owesDetect {R : List Reg} {P : List Part} {a d : Dev} {x : List Nat} (hp : Part.owesDetect ∈ P)
    (h : Dev.Keeps R P a d) : Dev.Keeps R P a { d with owesDetect := x } :=
  h.trans ⟨fun _ _ _ _ => rfl, fun p hq => by
    cases p
    case owesDetect => exact absurd hp hq
    all_goals exact rfl⟩

theorem Dev.Keeps.set_fronts {R : List Reg} {P : List Part} {a d : Dev} {x : SMap Front} (hp : Part.fronts ∈ P)
    (h : Dev.Keeps R P a d) : Dev.Keeps R P a { d with fronts := x } :=
  h.trans ⟨fun _ _ _ _ => rfl, fun p hq => by
    cases p
    case fronts => exact absurd hp hq
    all_goals exact rfl⟩

theorem Dev.Keeps.set_engines {R : List Reg} {P : List Part} {a d : Dev} {x : SMap Engine} (hp : Part.engines ∈ P)
    (h : Dev.Keeps R P a d) : Dev.Keeps R P a { d with engines := x } :=
  h.trans ⟨fun _ _ _ _ => rfl, fun p hq => by
    cases p
    case engines => exact absurd hp hq
    all_goals exact rfl⟩

theorem Dev.Keeps.set_inStreams {R : List Reg} {P : List Part} {a d : Dev} {x : List InStream} (hp : Part.inStreams ∈ P)
    (h : Dev.Keeps R P a d) : Dev.Keeps R P a { d with inStreams := x } :=
  h.trans ⟨fun _ _ _ _ => rfl, fun p hq => by
    cases p
    case inStreams => exact absurd hp hq
    all_goals exact rfl⟩

theorem Dev.Keeps.set_candidates {R : List Reg} {P : List Part} {a d : Dev} {x : List Candidate} (hp : Part.candidates ∈ P)
    (h : Dev.Keeps R P a d) : Dev.Keeps R P a { d with candidates := x } :=
  h.trans ⟨fun _ _ _ _ => rfl, fun p hq => by
    cases p
    case candidates => exact absurd hp hq
    all_goals exact rfl⟩

theorem Dev.Keeps.set_usbaOpen {R : List Reg} {P : List Part} {a d : Dev} {x : List Nat} (hp : Part.usbaOpen ∈ P)
    (h : Dev.Keeps R P a d) : Dev.Keeps R P a { d with usbaOpen := x } :=
  h.trans ⟨fun _ _ _ _ => rfl, fun p hq => by
    cases p
    case usbaOpen => exact absurd hp hq
    all_goals exact rfl⟩

theorem Dev.Keeps.set_hubPort {R : List Reg} {P : List Part} {a d : Dev} {x : Option Nat} (hp : Part.hubPort ∈ P)
    (h : Dev.Keeps R P a d) : Dev.Keeps R P a { d with hubPort := x } :=
  h.trans ⟨fun _ _ _ _ => rfl, fun p hq => by
    cases p
    case hubPort => exact absurd hp hq
    all_goals exact rfl⟩

theorem Dev.Keeps.set_mud {R : List Reg} {P : List Part} {a d : Dev} {x : Mud} (hp : Part.mud ∈ P)
    (h : Dev.Keeps R P a d) : Dev.Keeps R P a { d with mud := x } :=
  h.trans ⟨fun _ _ _ _ => rfl, fun p hq => by
    cases p
    case mud => exact absurd hp hq
    all_goals exact rfl⟩

theorem Dev.Keeps.set_mudDone {R : List Reg} {P : List Part} {a d : Dev} {x : List (Nat × Nat × Nat)} (hp : Part.mudDone ∈ P)
    (h : Dev.Keeps R P a d) : Dev.Keeps R P a { d with mudDone := x } :=
  h.trans ⟨fun _ _ _ _ => rfl, fun p hq => by
    cases p
    case mudDone => exact absurd hp hq
    all_goals exact rfl⟩

theorem Dev.Keeps.set_ringRecords {R : List Reg} {P : List Part} {a d : Dev} {x : SMap Nat} (hp : Part.ringRecords ∈ P)
    (h : Dev.Keeps R P a d) : Dev.Keeps R P a { d with ringRecords := x } :=
  h.trans ⟨fun _ _ _ _ => rfl, fun p hq => by
    cases p
    case ringRecords => exact absurd hp hq
    all_goals exact rfl⟩

theorem Dev.Keeps.set_pds {R : List Reg} {P : List Part} {a d : Dev} {x : SMap PdPort} (hp : Part.pds ∈ P)
    (h : Dev.Keeps R P a d) : Dev.Keeps R P a { d with pds := x } :=
  h.trans ⟨fun _ _ _ _ => rfl, fun p hq => by
    cases p
    case pds => exact absurd hp hq
    all_goals exact rfl⟩

theorem Dev.Keeps.set_efuses {R : List Reg} {P : List Part} {a d : Dev} {x : SMap Efuse} (hp : Part.efuses ∈ P)
    (h : Dev.Keeps R P a d) : Dev.Keeps R P a { d with efuses := x } :=
  h.trans ⟨fun _ _ _ _ => rfl, fun p hq => by
    cases p
    case efuses => exact absurd hp hq
    all_goals exact rfl⟩

theorem Dev.Keeps.set_efQueue {R : List Reg} {P : List Part} {a d : Dev} {x : List Nat} (hp : Part.efQueue ∈ P)
    (h : Dev.Keeps R P a d) : Dev.Keeps R P a { d with efQueue := x } :=
  h.trans ⟨fun _ _ _ _ => rfl, fun p hq => by
    cases p
    case efQueue => exact absurd hp hq
    all_goals exact rfl⟩

theorem Dev.Keeps.set_splits {R : List Reg} {P : List Part} {a d : Dev} {x : Splits} (hp : Part.splits ∈ P)
    (h : Dev.Keeps R P a d) : Dev.Keeps R P a { d with splits := x } :=
  h.trans ⟨fun _ _ _ _ => rfl, fun p hq => by
    cases p
    case splits => exact absurd hp hq
    all_goals exact rfl⟩

theorem Dev.Keeps.set_feedOff {R : List Reg} {P : List Part} {a d : Dev} {x : List Nat} (hp : Part.feedOff ∈ P)
    (h : Dev.Keeps R P a d) : Dev.Keeps R P a { d with feedOff := x } :=
  h.trans ⟨fun _ _ _ _ => rfl, fun p hq => by
    cases p
    case feedOff => exact absurd hp hq
    all_goals exact rfl⟩

theorem Dev.Keeps.set_cmds {R : List Reg} {P : List Part} {a d : Dev} {x : List Cmd} (hp : Part.cmds ∈ P)
    (h : Dev.Keeps R P a d) : Dev.Keeps R P a { d with cmds := x } :=
  h.trans ⟨fun _ _ _ _ => rfl, fun p hq => by
    cases p
    case cmds => exact absurd hp hq
    all_goals exact rfl⟩

theorem Dev.Keeps.set_homes {R : List Reg} {P : List Part} {a d : Dev} {x : List (Nat × Nat)} (hp : Part.homes ∈ P)
    (h : Dev.Keeps R P a d) : Dev.Keeps R P a { d with homes := x } :=
  h.trans ⟨fun _ _ _ _ => rfl, fun p hq => by
    cases p
    case homes => exact absurd hp hq
    all_goals exact rfl⟩

theorem Dev.Keeps.set_edges {R : List Reg} {P : List Part} {a d : Dev} {x : List Nat} (hp : Part.edges ∈ P)
    (h : Dev.Keeps R P a d) : Dev.Keeps R P a { d with edges := x } :=
  h.trans ⟨fun _ _ _ _ => rfl, fun p hq => by
    cases p
    case edges => exact absurd hp hq
    all_goals exact rfl⟩

theorem Dev.Keeps.set_edgesOut {R : List Reg} {P : List Part} {a d : Dev} {x : List Nat} (hp : Part.edgesOut ∈ P)
    (h : Dev.Keeps R P a d) : Dev.Keeps R P a { d with edgesOut := x } :=
  h.trans ⟨fun _ _ _ _ => rfl, fun p hq => by
    cases p
    case edgesOut => exact absurd hp hq
    all_goals exact rfl⟩

theorem Dev.Keeps.set_images {R : List Reg} {P : List Part} {a d : Dev} {x : SMap (List Byte)} (hp : Part.images ∈ P)
    (h : Dev.Keeps R P a d) : Dev.Keeps R P a { d with images := x } :=
  h.trans ⟨fun _ _ _ _ => rfl, fun p hq => by
    cases p
    case images => exact absurd hp hq
    all_goals exact rfl⟩

theorem Dev.Keeps.set_scheduled {R : List Reg} {P : List Part} {a d : Dev} {x : List Sched} (hp : Part.scheduled ∈ P)
    (h : Dev.Keeps R P a d) : Dev.Keeps R P a { d with scheduled := x } :=
  h.trans ⟨fun _ _ _ _ => rfl, fun p hq => by
    cases p
    case scheduled => exact absurd hp hq
    all_goals exact rfl⟩

theorem Dev.Keeps.set_chans {R : List Reg} {P : List Part} {a d : Dev} {x : SMap (List Nat)} (hp : Part.chans ∈ P)
    (h : Dev.Keeps R P a d) : Dev.Keeps R P a { d with chans := x } :=
  h.trans ⟨fun _ _ _ _ => rfl, fun p hq => by
    cases p
    case chans => exact absurd hp hq
    all_goals exact rfl⟩

theorem Dev.Keeps.set_pfLines {R : List Reg} {P : List Part} {a d : Dev} {x : List PfLine} (hp : Part.pfLines ∈ P)
    (h : Dev.Keeps R P a d) : Dev.Keeps R P a { d with pfLines := x } :=
  h.trans ⟨fun _ _ _ _ => rfl, fun p hq => by
    cases p
    case pfLines => exact absurd hp hq
    all_goals exact rfl⟩

theorem Dev.Keeps.set_pfLog {R : List Reg} {P : List Part} {a d : Dev} {x : SMap PfLog} (hp : Part.pfLog ∈ P)
    (h : Dev.Keeps R P a d) : Dev.Keeps R P a { d with pfLog := x } :=
  h.trans ⟨fun _ _ _ _ => rfl, fun p hq => by
    cases p
    case pfLog => exact absurd hp hq
    all_goals exact rfl⟩

theorem Dev.Keeps.set_pfSeq {R : List Reg} {P : List Part} {a d : Dev} {x : Nat} (hp : Part.pfSeq ∈ P)
    (h : Dev.Keeps R P a d) : Dev.Keeps R P a { d with pfSeq := x } :=
  h.trans ⟨fun _ _ _ _ => rfl, fun p hq => by
    cases p
    case pfSeq => exact absurd hp hq
    all_goals exact rfl⟩

theorem Dev.Keeps.set_winReads {R : List Reg} {P : List Part} {a d : Dev} {x : List WinRead} (hp : Part.winReads ∈ P)
    (h : Dev.Keeps R P a d) : Dev.Keeps R P a { d with winReads := x } :=
  h.trans ⟨fun _ _ _ _ => rfl, fun p hq => by
    cases p
    case winReads => exact absurd hp hq
    all_goals exact rfl⟩

theorem Dev.Keeps.set_winFetches {R : List Reg} {P : List Part} {a d : Dev} {x : List WinFetch} (hp : Part.winFetches ∈ P)
    (h : Dev.Keeps R P a d) : Dev.Keeps R P a { d with winFetches := x } :=
  h.trans ⟨fun _ _ _ _ => rfl, fun p hq => by
    cases p
    case winFetches => exact absurd hp hq
    all_goals exact rfl⟩

theorem Dev.Keeps.set_winStores {R : List Reg} {P : List Part} {a d : Dev} {x : List WinStore} (hp : Part.winStores ∈ P)
    (h : Dev.Keeps R P a d) : Dev.Keeps R P a { d with winStores := x } :=
  h.trans ⟨fun _ _ _ _ => rfl, fun p hq => by
    cases p
    case winStores => exact absurd hp hq
    all_goals exact rfl⟩

theorem Dev.Keeps.set_heldRemote {R : List Reg} {P : List Part} {a d : Dev} {x : List Nat} (hp : Part.heldRemote ∈ P)
    (h : Dev.Keeps R P a d) : Dev.Keeps R P a { d with heldRemote := x } :=
  h.trans ⟨fun _ _ _ _ => rfl, fun p hq => by
    cases p
    case heldRemote => exact absurd hp hq
    all_goals exact rfl⟩

theorem Dev.Keeps.set_cores {R : List Reg} {P : List Part} {a d : Dev} {x : SMap Core} (hp : Part.cores ∈ P)
    (h : Dev.Keeps R P a d) : Dev.Keeps R P a { d with cores := x } :=
  h.trans ⟨fun _ _ _ _ => rfl, fun p hq => by
    cases p
    case cores => exact absurd hp hq
    all_goals exact rfl⟩

theorem Dev.Keeps.set_time {R : List Reg} {P : List Part} {a d : Dev} {x : TimeX} (hp : Part.time ∈ P)
    (h : Dev.Keeps R P a d) : Dev.Keeps R P a { d with time := x } :=
  h.trans ⟨fun _ _ _ _ => rfl, fun p hq => by
    cases p
    case time => exact absurd hp hq
    all_goals exact rfl⟩

theorem Dev.Keeps.set_cats {R : List Reg} {P : List Part} {a d : Dev} {x : SMap CatStream} (hp : Part.cats ∈ P)
    (h : Dev.Keeps R P a d) : Dev.Keeps R P a { d with cats := x } :=
  h.trans ⟨fun _ _ _ _ => rfl, fun p hq => by
    cases p
    case cats => exact absurd hp hq
    all_goals exact rfl⟩

theorem Dev.Keeps.set_spcs {R : List Reg} {P : List Part} {a d : Dev} {x : SMap SpcStream} (hp : Part.spcs ∈ P)
    (h : Dev.Keeps R P a d) : Dev.Keeps R P a { d with spcs := x } :=
  h.trans ⟨fun _ _ _ _ => rfl, fun p hq => by
    cases p
    case spcs => exact absurd hp hq
    all_goals exact rfl⟩

theorem Dev.Keeps.set_samples {R : List Reg} {P : List Part} {a d : Dev} {x : List Sample} (hp : Part.samples ∈ P)
    (h : Dev.Keeps R P a d) : Dev.Keeps R P a { d with samples := x } :=
  h.trans ⟨fun _ _ _ _ => rfl, fun p hq => by
    cases p
    case samples => exact absurd hp hq
    all_goals exact rfl⟩

theorem Dev.Keeps.set_rails {R : List Reg} {P : List Part} {a d : Dev} {x : SMap Rail} (hp : Part.rails ∈ P)
    (h : Dev.Keeps R P a d) : Dev.Keeps R P a { d with rails := x } :=
  h.trans ⟨fun _ _ _ _ => rfl, fun p hq => by
    cases p
    case rails => exact absurd hp hq
    all_goals exact rfl⟩

theorem Dev.Keeps.set_refB {R : List Reg} {P : List Part} {a d : Dev} {x : List Nat} (hp : Part.refB ∈ P)
    (h : Dev.Keeps R P a d) : Dev.Keeps R P a { d with refB := x } :=
  h.trans ⟨fun _ _ _ _ => rfl, fun p hq => by
    cases p
    case refB => exact absurd hp hq
    all_goals exact rfl⟩

theorem Dev.Keeps.set_halted {R : List Reg} {P : List Part} {a d : Dev} {x : Bool} (hp : Part.halted ∈ P)
    (h : Dev.Keeps R P a d) : Dev.Keeps R P a { d with halted := x } :=
  h.trans ⟨fun _ _ _ _ => rfl, fun p hq => by
    cases p
    case halted => exact absurd hp hq
    all_goals exact rfl⟩

theorem Dev.Keeps.set_haltedBy {R : List Reg} {P : List Part} {a d : Dev} {x : Option (Nat × HaltCause)} (hp : Part.haltedBy ∈ P)
    (h : Dev.Keeps R P a d) : Dev.Keeps R P a { d with haltedBy := x } :=
  h.trans ⟨fun _ _ _ _ => rfl, fun p hq => by
    cases p
    case haltedBy => exact absurd hp hq
    all_goals exact rfl⟩

theorem Dev.Keeps.set_conditions {R : List Reg} {P : List Part} {a d : Dev} {x : List (Nat × Nat)} (hp : Part.conditions ∈ P)
    (h : Dev.Keeps R P a d) : Dev.Keeps R P a { d with conditions := x } :=
  h.trans ⟨fun _ _ _ _ => rfl, fun p hq => by
    cases p
    case conditions => exact absurd hp hq
    all_goals exact rfl⟩

theorem Dev.Keeps.set_alertUntil {R : List Reg} {P : List Part} {a d : Dev} {x : Nat} (hp : Part.alertUntil ∈ P)
    (h : Dev.Keeps R P a d) : Dev.Keeps R P a { d with alertUntil := x } :=
  h.trans ⟨fun _ _ _ _ => rfl, fun p hq => by
    cases p
    case alertUntil => exact absurd hp hq
    all_goals exact rfl⟩

theorem Dev.Keeps.set_tripped {R : List Reg} {P : List Part} {a d : Dev} {x : Bool} (hp : Part.tripped ∈ P)
    (h : Dev.Keeps R P a d) : Dev.Keeps R P a { d with tripped := x } :=
  h.trans ⟨fun _ _ _ _ => rfl, fun p hq => by
    cases p
    case tripped => exact absurd hp hq
    all_goals exact rfl⟩

theorem Dev.Keeps.set_lostDies {R : List Reg} {P : List Part} {a d : Dev} {x : List Nat} (hp : Part.lostDies ∈ P)
    (h : Dev.Keeps R P a d) : Dev.Keeps R P a { d with lostDies := x } :=
  h.trans ⟨fun _ _ _ _ => rfl, fun p hq => by
    cases p
    case lostDies => exact absurd hp hq
    all_goals exact rfl⟩

theorem Dev.Keeps.set_withheld {R : List Reg} {P : List Part} {a d : Dev} {x : List (Nat × Nat)} (hp : Part.withheld ∈ P)
    (h : Dev.Keeps R P a d) : Dev.Keeps R P a { d with withheld := x } :=
  h.trans ⟨fun _ _ _ _ => rfl, fun p hq => by
    cases p
    case withheld => exact absurd hp hq
    all_goals exact rfl⟩

theorem Dev.Keeps.set_topo {R : List Reg} {P : List Part} {a d : Dev} {x : List Node} (hp : Part.topo ∈ P)
    (h : Dev.Keeps R P a d) : Dev.Keeps R P a { d with topo := x } :=
  h.trans ⟨fun _ _ _ _ => rfl, fun p hq => by
    cases p
    case topo => exact absurd hp hq
    all_goals exact rfl⟩

theorem Dev.Keeps.set_partners {R : List Reg} {P : List Part} {a d : Dev} {x : SMap Nat} (hp : Part.partners ∈ P)
    (h : Dev.Keeps R P a d) : Dev.Keeps R P a { d with partners := x } :=
  h.trans ⟨fun _ _ _ _ => rfl, fun p hq => by
    cases p
    case partners => exact absurd hp hq
    all_goals exact rfl⟩

theorem Dev.Keeps.set_ownAseq {R : List Reg} {P : List Part} {a d : Dev} {x : Nat} (hp : Part.ownAseq ∈ P)
    (h : Dev.Keeps R P a d) : Dev.Keeps R P a { d with ownAseq := x } :=
  h.trans ⟨fun _ _ _ _ => rfl, fun p hq => by
    cases p
    case ownAseq => exact absurd hp hq
    all_goals exact rfl⟩

theorem Dev.Keeps.set_described {R : List Reg} {P : List Part} {a d : Dev} {x : List AdjLink} (hp : Part.described ∈ P)
    (h : Dev.Keeps R P a d) : Dev.Keeps R P a { d with described := x } :=
  h.trans ⟨fun _ _ _ _ => rfl, fun p hq => by
    cases p
    case described => exact absurd hp hq
    all_goals exact rfl⟩

theorem Dev.Keeps.set_elected {R : List Reg} {P : List Part} {a d : Dev} {x : Option Nat} (hp : Part.elected ∈ P)
    (h : Dev.Keeps R P a d) : Dev.Keeps R P a { d with elected := x } :=
  h.trans ⟨fun _ _ _ _ => rfl, fun p hq => by
    cases p
    case elected => exact absurd hp hq
    all_goals exact rfl⟩

theorem Dev.Keeps.set_assigned {R : List Reg} {P : List Part} {a d : Dev} {x : List (Nat × Nat)} (hp : Part.assigned ∈ P)
    (h : Dev.Keeps R P a d) : Dev.Keeps R P a { d with assigned := x } :=
  h.trans ⟨fun _ _ _ _ => rfl, fun p hq => by
    cases p
    case assigned => exact absurd hp hq
    all_goals exact rfl⟩

theorem Dev.Keeps.set_bootFailed {R : List Reg} {P : List Part} {a d : Dev} {x : Bool} (hp : Part.bootFailed ∈ P)
    (h : Dev.Keeps R P a d) : Dev.Keeps R P a { d with bootFailed := x } :=
  h.trans ⟨fun _ _ _ _ => rfl, fun p hq => by
    cases p
    case bootFailed => exact absurd hp hq
    all_goals exact rfl⟩

theorem Dev.Keeps.set_orphaned {R : List Reg} {P : List Part} {a d : Dev} {x : Bool} (hp : Part.orphaned ∈ P)
    (h : Dev.Keeps R P a d) : Dev.Keeps R P a { d with orphaned := x } :=
  h.trans ⟨fun _ _ _ _ => rfl, fun p hq => by
    cases p
    case orphaned => exact absurd hp hq
    all_goals exact rfl⟩

theorem Dev.Keeps.set_conflict {R : List Reg} {P : List Part} {a d : Dev} {x : Bool} (hp : Part.conflict ∈ P)
    (h : Dev.Keeps R P a d) : Dev.Keeps R P a { d with conflict := x } :=
  h.trans ⟨fun _ _ _ _ => rfl, fun p hq => by
    cases p
    case conflict => exact absurd hp hq
    all_goals exact rfl⟩

theorem Dev.Keeps.set_supply {R : List Reg} {P : List Part} {a d : Dev} {x : Supply} (hp : Part.supply ∈ P)
    (h : Dev.Keeps R P a d) : Dev.Keeps R P a { d with supply := x } :=
  h.trans ⟨fun _ _ _ _ => rfl, fun p hq => by
    cases p
    case supply => exact absurd hp hq
    all_goals exact rfl⟩

theorem Dev.Keeps.set_byCommand {R : List Reg} {P : List Part} {a d : Dev} {x : Bool} (hp : Part.byCommand ∈ P)
    (h : Dev.Keeps R P a d) : Dev.Keeps R P a { d with byCommand := x } :=
  h.trans ⟨fun _ _ _ _ => rfl, fun p hq => by
    cases p
    case byCommand => exact absurd hp hq
    all_goals exact rfl⟩

theorem Dev.Keeps.set_tried {R : List Reg} {P : List Part} {a d : Dev} {x : Option Nat} (hp : Part.tried ∈ P)
    (h : Dev.Keeps R P a d) : Dev.Keeps R P a { d with tried := x } :=
  h.trans ⟨fun _ _ _ _ => rfl, fun p hq => by
    cases p
    case tried => exact absurd hp hq
    all_goals exact rfl⟩

theorem Dev.Keeps.set_latched {R : List Reg} {P : List Part} {a d : Dev} {x : Nat} (hp : Part.latched ∈ P)
    (h : Dev.Keeps R P a d) : Dev.Keeps R P a { d with latched := x } :=
  h.trans ⟨fun _ _ _ _ => rfl, fun p hq => by
    cases p
    case latched => exact absurd hp hq
    all_goals exact rfl⟩

theorem Dev.Keeps.set_trafficAt {R : List Reg} {P : List Part} {a d : Dev} {x : SMap Nat} (hp : Part.trafficAt ∈ P)
    (h : Dev.Keeps R P a d) : Dev.Keeps R P a { d with trafficAt := x } :=
  h.trans ⟨fun _ _ _ _ => rfl, fun p hq => by
    cases p
    case trafficAt => exact absurd hp hq
    all_goals exact rfl⟩

theorem Dev.Keeps.set_registrar_orphaned {R : List Reg} {P : List Part} {a d : Dev} {x0 : Option Nat} {x1 : Bool}
    (h0 : Part.registrar ∈ P) (h1 : Part.orphaned ∈ P) (h : Dev.Keeps R P a d) :
    Dev.Keeps R P a { d with registrar := x0, orphaned := x1 } :=
  Dev.Keeps.set_orphaned (d := { d with registrar := x0 }) (x := x1) h1 (Dev.Keeps.set_registrar (d := d) (x := x0) h0 h)

theorem Dev.Keeps.set_lockSrc_lockSince {R : List Reg} {P : List Part} {a d : Dev} {x0 : SMap Nat} {x1 : SMap Nat}
    (h0 : Part.lockSrc ∈ P) (h1 : Part.lockSince ∈ P) (h : Dev.Keeps R P a d) :
    Dev.Keeps R P a { d with lockSrc := x0, lockSince := x1 } :=
  Dev.Keeps.set_lockSince (d := { d with lockSrc := x0 }) (x := x1) h1 (Dev.Keeps.set_lockSrc (d := d) (x := x0) h0 h)

theorem Dev.Keeps.set_cmds_scheduled {R : List Reg} {P : List Part} {a d : Dev} {x0 : List Cmd} {x1 : List Sched}
    (h0 : Part.cmds ∈ P) (h1 : Part.scheduled ∈ P) (h : Dev.Keeps R P a d) :
    Dev.Keeps R P a { d with cmds := x0, scheduled := x1 } :=
  Dev.Keeps.set_scheduled (d := { d with cmds := x0 }) (x := x1) h1 (Dev.Keeps.set_cmds (d := d) (x := x0) h0 h)

theorem Dev.Keeps.set_winReads_winStores {R : List Reg} {P : List Part} {a d : Dev} {x0 : List WinRead} {x1 : List WinStore}
    (h0 : Part.winReads ∈ P) (h1 : Part.winStores ∈ P) (h : Dev.Keeps R P a d) :
    Dev.Keeps R P a { d with winReads := x0, winStores := x1 } :=
  Dev.Keeps.set_winStores (d := { d with winReads := x0 }) (x := x1) h1 (Dev.Keeps.set_winReads (d := d) (x := x0) h0 h)

theorem Dev.Keeps.set_vits_vports_vmfs_owesDetect_homes_cats_spcs_samples {R : List Reg} {P : List Part} {a d : Dev} {x0 : SMap Vit} {x1 : SMap VPort} {x2 : SMap Vmf} {x3 : List Nat} {x4 : List (Nat × Nat)} {x5 : SMap CatStream} {x6 : SMap SpcStream} {x7 : List Sample}
    (h0 : Part.vits ∈ P) (h1 : Part.vports ∈ P) (h2 : Part.vmfs ∈ P) (h3 : Part.owesDetect ∈ P) (h4 : Part.homes ∈ P) (h5 : Part.cats ∈ P) (h6 : Part.spcs ∈ P) (h7 : Part.samples ∈ P) (h : Dev.Keeps R P a d) :
    Dev.Keeps R P a { d with vits := x0, vports := x1, vmfs := x2, owesDetect := x3, homes := x4, cats := x5, spcs := x6, samples := x7 } :=
  Dev.Keeps.set_samples (d := { d with vits := x0, vports := x1, vmfs := x2, owesDetect := x3, homes := x4, cats := x5, spcs := x6 }) (x := x7) h7 (Dev.Keeps.set_spcs (d := { d with vits := x0, vports := x1, vmfs := x2, owesDetect := x3, homes := x4, cats := x5 }) (x := x6) h6 (Dev.Keeps.set_cats (d := { d with vits := x0, vports := x1, vmfs := x2, owesDetect := x3, homes := x4 }) (x := x5) h5 (Dev.Keeps.set_homes (d := { d with vits := x0, vports := x1, vmfs := x2, owesDetect := x3 }) (x := x4) h4 (Dev.Keeps.set_owesDetect (d := { d with vits := x0, vports := x1, vmfs := x2 }) (x := x3) h3 (Dev.Keeps.set_vmfs (d := { d with vits := x0, vports := x1 }) (x := x2) h2 (Dev.Keeps.set_vports (d := { d with vits := x0 }) (x := x1) h1 (Dev.Keeps.set_vits (d := d) (x := x0) h0 h)))))))

theorem Dev.Keeps.set_usbaOpen_hubPort {R : List Reg} {P : List Part} {a d : Dev} {x0 : List Nat} {x1 : Option Nat}
    (h0 : Part.usbaOpen ∈ P) (h1 : Part.hubPort ∈ P) (h : Dev.Keeps R P a d) :
    Dev.Keeps R P a { d with usbaOpen := x0, hubPort := x1 } :=
  Dev.Keeps.set_hubPort (d := { d with usbaOpen := x0 }) (x := x1) h1 (Dev.Keeps.set_usbaOpen (d := d) (x := x0) h0 h)

theorem Dev.Keeps.set_staging_booted {R : List Reg} {P : List Part} {a d : Dev} {x0 : List EvRec} {x1 : Bool}
    (h0 : Part.staging ∈ P) (h1 : Part.booted ∈ P) (h : Dev.Keeps R P a d) :
    Dev.Keeps R P a { d with staging := x0, booted := x1 } :=
  Dev.Keeps.set_booted (d := { d with staging := x0 }) (x := x1) h1 (Dev.Keeps.set_staging (d := d) (x := x0) h0 h)

theorem Dev.Keeps.set_registrar_topo_elected_orphaned {R : List Reg} {P : List Part} {a d : Dev} {x0 : Option Nat} {x1 : List Node} {x2 : Option Nat} {x3 : Bool}
    (h0 : Part.registrar ∈ P) (h1 : Part.topo ∈ P) (h2 : Part.elected ∈ P) (h3 : Part.orphaned ∈ P) (h : Dev.Keeps R P a d) :
    Dev.Keeps R P a { d with registrar := x0, topo := x1, elected := x2, orphaned := x3 } :=
  Dev.Keeps.set_orphaned (d := { d with registrar := x0, topo := x1, elected := x2 }) (x := x3) h3 (Dev.Keeps.set_elected (d := { d with registrar := x0, topo := x1 }) (x := x2) h2 (Dev.Keeps.set_topo (d := { d with registrar := x0 }) (x := x1) h1 (Dev.Keeps.set_registrar (d := d) (x := x0) h0 h)))

theorem Dev.Keeps.set_registrar_conflict {R : List Reg} {P : List Part} {a d : Dev} {x0 : Option Nat} {x1 : Bool}
    (h0 : Part.registrar ∈ P) (h1 : Part.conflict ∈ P) (h : Dev.Keeps R P a d) :
    Dev.Keeps R P a { d with registrar := x0, conflict := x1 } :=
  Dev.Keeps.set_conflict (d := { d with registrar := x0 }) (x := x1) h1 (Dev.Keeps.set_registrar (d := d) (x := x0) h0 h)

theorem Dev.Keeps.set_pfLog_pfSeq {R : List Reg} {P : List Part} {a d : Dev} {x0 : SMap PfLog} {x1 : Nat}
    (h0 : Part.pfLog ∈ P) (h1 : Part.pfSeq ∈ P) (h : Dev.Keeps R P a d) :
    Dev.Keeps R P a { d with pfLog := x0, pfSeq := x1 } :=
  Dev.Keeps.set_pfSeq (d := { d with pfLog := x0 }) (x := x1) h1 (Dev.Keeps.set_pfLog (d := d) (x := x0) h0 h)

theorem Dev.Keeps.set_ownAseq_described {R : List Reg} {P : List Part} {a d : Dev} {x0 : Nat} {x1 : List AdjLink}
    (h0 : Part.ownAseq ∈ P) (h1 : Part.described ∈ P) (h : Dev.Keeps R P a d) :
    Dev.Keeps R P a { d with ownAseq := x0, described := x1 } :=
  Dev.Keeps.set_described (d := { d with ownAseq := x0 }) (x := x1) h1 (Dev.Keeps.set_ownAseq (d := d) (x := x0) h0 h)

theorem Dev.Keeps.set_owesDrs_owesDetect {R : List Reg} {P : List Part} {a d : Dev} {x0 : List Nat} {x1 : List Nat}
    (h0 : Part.owesDrs ∈ P) (h1 : Part.owesDetect ∈ P) (h : Dev.Keeps R P a d) :
    Dev.Keeps R P a { d with owesDrs := x0, owesDetect := x1 } :=
  Dev.Keeps.set_owesDetect (d := { d with owesDrs := x0 }) (x := x1) h1 (Dev.Keeps.set_owesDrs (d := d) (x := x0) h0 h)

theorem Dev.Keeps.set_owesDetect_homes {R : List Reg} {P : List Part} {a d : Dev} {x0 : List Nat} {x1 : List (Nat × Nat)}
    (h0 : Part.owesDetect ∈ P) (h1 : Part.homes ∈ P) (h : Dev.Keeps R P a d) :
    Dev.Keeps R P a { d with owesDetect := x0, homes := x1 } :=
  Dev.Keeps.set_homes (d := { d with owesDetect := x0 }) (x := x1) h1 (Dev.Keeps.set_owesDetect (d := d) (x := x0) h0 h)

theorem Dev.Keeps.set_now_time {R : List Reg} {P : List Part} {a d : Dev} {x0 : Nat} {x1 : TimeX}
    (h0 : Part.now ∈ P) (h1 : Part.time ∈ P) (h : Dev.Keeps R P a d) :
    Dev.Keeps R P a { d with now := x0, time := x1 } :=
  Dev.Keeps.set_time (d := { d with now := x0 }) (x := x1) h1 (Dev.Keeps.set_now (d := d) (x := x0) h0 h)

theorem Dev.Keeps.set_now_queues_trk {R : List Reg} {P : List Part} {a d : Dev} {x0 : Nat} {x1 : SMap Queue} {x2 : SMap Trk}
    (h0 : Part.now ∈ P) (h1 : Part.queues ∈ P) (h2 : Part.trk ∈ P) (h : Dev.Keeps R P a d) :
    Dev.Keeps R P a { d with now := x0, queues := x1, trk := x2 } :=
  Dev.Keeps.set_trk (d := { d with now := x0, queues := x1 }) (x := x2) h2 (Dev.Keeps.set_queues (d := { d with now := x0 }) (x := x1) h1 (Dev.Keeps.set_now (d := d) (x := x0) h0 h))

theorem Dev.Keeps.set_mud_images {R : List Reg} {P : List Part} {a d : Dev} {x0 : Mud} {x1 : SMap (List Byte)}
    (h0 : Part.mud ∈ P) (h1 : Part.images ∈ P) (h : Dev.Keeps R P a d) :
    Dev.Keeps R P a { d with mud := x0, images := x1 } :=
  Dev.Keeps.set_images (d := { d with mud := x0 }) (x := x1) h1 (Dev.Keeps.set_mud (d := d) (x := x0) h0 h)

theorem Dev.Keeps.set_links_ports_edges_edgesOut {R : List Reg} {P : List Part} {a d : Dev} {x0 : SMap Link} {x1 : SMap PortX} {x2 : List Nat} {x3 : List Nat}
    (h0 : Part.links ∈ P) (h1 : Part.ports ∈ P) (h2 : Part.edges ∈ P) (h3 : Part.edgesOut ∈ P) (h : Dev.Keeps R P a d) :
    Dev.Keeps R P a { d with links := x0, ports := x1, edges := x2, edgesOut := x3 } :=
  Dev.Keeps.set_edgesOut (d := { d with links := x0, ports := x1, edges := x2 }) (x := x3) h3 (Dev.Keeps.set_edges (d := { d with links := x0, ports := x1 }) (x := x2) h2 (Dev.Keeps.set_ports (d := { d with links := x0 }) (x := x1) h1 (Dev.Keeps.set_links (d := d) (x := x0) h0 h)))

theorem Dev.Keeps.set_lastTraffic_trafficAt {R : List Reg} {P : List Part} {a d : Dev} {x0 : Nat} {x1 : SMap Nat}
    (h0 : Part.lastTraffic ∈ P) (h1 : Part.trafficAt ∈ P) (h : Dev.Keeps R P a d) :
    Dev.Keeps R P a { d with lastTraffic := x0, trafficAt := x1 } :=
  Dev.Keeps.set_trafficAt (d := { d with lastTraffic := x0 }) (x := x1) h1 (Dev.Keeps.set_lastTraffic (d := d) (x := x0) h0 h)

theorem Dev.Keeps.set_lastTraffic_byCommand {R : List Reg} {P : List Part} {a d : Dev} {x0 : Nat} {x1 : Bool}
    (h0 : Part.lastTraffic ∈ P) (h1 : Part.byCommand ∈ P) (h : Dev.Keeps R P a d) :
    Dev.Keeps R P a { d with lastTraffic := x0, byCommand := x1 } :=
  Dev.Keeps.set_byCommand (d := { d with lastTraffic := x0 }) (x := x1) h1 (Dev.Keeps.set_lastTraffic (d := d) (x := x0) h0 h)

theorem Dev.Keeps.set_inStreams_candidates {R : List Reg} {P : List Part} {a d : Dev} {x0 : List InStream} {x1 : List Candidate}
    (h0 : Part.inStreams ∈ P) (h1 : Part.candidates ∈ P) (h : Dev.Keeps R P a d) :
    Dev.Keeps R P a { d with inStreams := x0, candidates := x1 } :=
  Dev.Keeps.set_candidates (d := { d with inStreams := x0 }) (x := x1) h1 (Dev.Keeps.set_inStreams (d := d) (x := x0) h0 h)

theorem Dev.Keeps.set_halted_haltedBy {R : List Reg} {P : List Part} {a d : Dev} {x0 : Bool} {x1 : Option (Nat × HaltCause)}
    (h0 : Part.halted ∈ P) (h1 : Part.haltedBy ∈ P) (h : Dev.Keeps R P a d) :
    Dev.Keeps R P a { d with halted := x0, haltedBy := x1 } :=
  Dev.Keeps.set_haltedBy (d := { d with halted := x0 }) (x := x1) h1 (Dev.Keeps.set_halted (d := d) (x := x0) h0 h)

theorem Dev.Keeps.set_edges_edgesOut {R : List Reg} {P : List Part} {a d : Dev} {x0 : List Nat} {x1 : List Nat}
    (h0 : Part.edges ∈ P) (h1 : Part.edgesOut ∈ P) (h : Dev.Keeps R P a d) :
    Dev.Keeps R P a { d with edges := x0, edgesOut := x1 } :=
  Dev.Keeps.set_edgesOut (d := { d with edges := x0 }) (x := x1) h1 (Dev.Keeps.set_edges (d := d) (x := x0) h0 h)

theorem Dev.Keeps.set_cellsFree_cellsUsed {R : List Reg} {P : List Part} {a d : Dev} {x0 : List Nat} {x1 : Nat}
    (h0 : Part.cellsFree ∈ P) (h1 : Part.cellsUsed ∈ P) (h : Dev.Keeps R P a d) :
    Dev.Keeps R P a { d with cellsFree := x0, cellsUsed := x1 } :=
  Dev.Keeps.set_cellsUsed (d := { d with cellsFree := x0 }) (x := x1) h1 (Dev.Keeps.set_cellsFree (d := d) (x := x0) h0 h)

theorem Dev.Keeps.set_cats_spcs_samples {R : List Reg} {P : List Part} {a d : Dev} {x0 : SMap CatStream} {x1 : SMap SpcStream} {x2 : List Sample}
    (h0 : Part.cats ∈ P) (h1 : Part.spcs ∈ P) (h2 : Part.samples ∈ P) (h : Dev.Keeps R P a d) :
    Dev.Keeps R P a { d with cats := x0, spcs := x1, samples := x2 } :=
  Dev.Keeps.set_samples (d := { d with cats := x0, spcs := x1 }) (x := x2) h2 (Dev.Keeps.set_spcs (d := { d with cats := x0 }) (x := x1) h1 (Dev.Keeps.set_cats (d := d) (x := x0) h0 h))

theorem Dev.Keeps.set_byCommand_latched {R : List Reg} {P : List Part} {a d : Dev} {x0 : Bool} {x1 : Nat}
    (h0 : Part.byCommand ∈ P) (h1 : Part.latched ∈ P) (h : Dev.Keeps R P a d) :
    Dev.Keeps R P a { d with byCommand := x0, latched := x1 } :=
  Dev.Keeps.set_latched (d := { d with byCommand := x0 }) (x := x1) h1 (Dev.Keeps.set_byCommand (d := d) (x := x0) h0 h)

/-! ### One structure -/

theorem Dev.Keeps.same_now {R : List Reg} {P : List Part} {d e : Dev} (h : Dev.Keeps R P d e) (hp : Part.now ∉ P := by decide) :
    e.now = d.now := h.2 _ hp

theorem Dev.Keeps.same_weir {R : List Reg} {P : List Part} {d e : Dev} (h : Dev.Keeps R P d e) (hp : Part.weir ∉ P := by decide) :
    e.weir = d.weir := h.2 _ hp

theorem Dev.Keeps.same_shadows {R : List Reg} {P : List Part} {d e : Dev} (h : Dev.Keeps R P d e) (hp : Part.shadows ∉ P := by decide) :
    e.shadows = d.shadows := h.2 _ hp

theorem Dev.Keeps.same_drawn {R : List Reg} {P : List Part} {d e : Dev} (h : Dev.Keeps R P d e) (hp : Part.drawn ∉ P := by decide) :
    e.drawn = d.drawn := h.2 _ hp

theorem Dev.Keeps.same_out {R : List Reg} {P : List Part} {d e : Dev} (h : Dev.Keeps R P d e) (hp : Part.out ∉ P := by decide) :
    e.out = d.out := h.2 _ hp

theorem Dev.Keeps.same_ring {R : List Reg} {P : List Part} {d e : Dev} (h : Dev.Keeps R P d e) (hp : Part.ring ∉ P := by decide) :
    e.ring = d.ring := h.2 _ hp

theorem Dev.Keeps.same_staging {R : List Reg} {P : List Part} {d e : Dev} (h : Dev.Keeps R P d e) (hp : Part.staging ∉ P := by decide) :
    e.staging = d.staging := h.2 _ hp

theorem Dev.Keeps.same_overrun {R : List Reg} {P : List Part} {d e : Dev} (h : Dev.Keeps R P d e) (hp : Part.overrun ∉ P := by decide) :
    e.overrun = d.overrun := h.2 _ hp

theorem Dev.Keeps.same_booted {R : List Reg} {P : List Part} {d e : Dev} (h : Dev.Keeps R P d e) (hp : Part.booted ∉ P := by decide) :
    e.booted = d.booted := h.2 _ hp

theorem Dev.Keeps.same_limited {R : List Reg} {P : List Part} {d e : Dev} (h : Dev.Keeps R P d e) (hp : Part.limited ∉ P := by decide) :
    e.limited = d.limited := h.2 _ hp

theorem Dev.Keeps.same_masked {R : List Reg} {P : List Part} {d e : Dev} (h : Dev.Keeps R P d e) (hp : Part.masked ∉ P := by decide) :
    e.masked = d.masked := h.2 _ hp

theorem Dev.Keeps.same_ctrs {R : List Reg} {P : List Part} {d e : Dev} (h : Dev.Keeps R P d e) (hp : Part.ctrs ∉ P := by decide) :
    e.ctrs = d.ctrs := h.2 _ hp

theorem Dev.Keeps.same_injections {R : List Reg} {P : List Part} {d e : Dev} (h : Dev.Keeps R P d e) (hp : Part.injections ∉ P := by decide) :
    e.injections = d.injections := h.2 _ hp

theorem Dev.Keeps.same_injecting {R : List Reg} {P : List Part} {d e : Dev} (h : Dev.Keeps R P d e) (hp : Part.injecting ∉ P := by decide) :
    e.injecting = d.injecting := h.2 _ hp

theorem Dev.Keeps.same_arrived {R : List Reg} {P : List Part} {d e : Dev} (h : Dev.Keeps R P d e) (hp : Part.arrived ∉ P := by decide) :
    e.arrived = d.arrived := h.2 _ hp

theorem Dev.Keeps.same_routed {R : List Reg} {P : List Part} {d e : Dev} (h : Dev.Keeps R P d e) (hp : Part.routed ∉ P := by decide) :
    e.routed = d.routed := h.2 _ hp

theorem Dev.Keeps.same_egress {R : List Reg} {P : List Part} {d e : Dev} (h : Dev.Keeps R P d e) (hp : Part.egress ∉ P := by decide) :
    e.egress = d.egress := h.2 _ hp

theorem Dev.Keeps.same_queues {R : List Reg} {P : List Part} {d e : Dev} (h : Dev.Keeps R P d e) (hp : Part.queues ∉ P := by decide) :
    e.queues = d.queues := h.2 _ hp

theorem Dev.Keeps.same_cellsFree {R : List Reg} {P : List Part} {d e : Dev} (h : Dev.Keeps R P d e) (hp : Part.cellsFree ∉ P := by decide) :
    e.cellsFree = d.cellsFree := h.2 _ hp

theorem Dev.Keeps.same_cellsUsed {R : List Reg} {P : List Part} {d e : Dev} (h : Dev.Keeps R P d e) (hp : Part.cellsUsed ∉ P := by decide) :
    e.cellsUsed = d.cellsUsed := h.2 _ hp

theorem Dev.Keeps.same_outs {R : List Reg} {P : List Part} {d e : Dev} (h : Dev.Keeps R P d e) (hp : Part.outs ∉ P := by decide) :
    e.outs = d.outs := h.2 _ hp

theorem Dev.Keeps.same_wins {R : List Reg} {P : List Part} {d e : Dev} (h : Dev.Keeps R P d e) (hp : Part.wins ∉ P := by decide) :
    e.wins = d.wins := h.2 _ hp

theorem Dev.Keeps.same_dwins {R : List Reg} {P : List Part} {d e : Dev} (h : Dev.Keeps R P d e) (hp : Part.dwins ∉ P := by decide) :
    e.dwins = d.dwins := h.2 _ hp

theorem Dev.Keeps.same_trk {R : List Reg} {P : List Part} {d e : Dev} (h : Dev.Keeps R P d e) (hp : Part.trk ∉ P := by decide) :
    e.trk = d.trk := h.2 _ hp

theorem Dev.Keeps.same_tagHolds {R : List Reg} {P : List Part} {d e : Dev} (h : Dev.Keeps R P d e) (hp : Part.tagHolds ∉ P := by decide) :
    e.tagHolds = d.tagHolds := h.2 _ hp

theorem Dev.Keeps.same_lates {R : List Reg} {P : List Part} {d e : Dev} (h : Dev.Keeps R P d e) (hp : Part.lates ∉ P := by decide) :
    e.lates = d.lates := h.2 _ hp

theorem Dev.Keeps.same_endpoints {R : List Reg} {P : List Part} {d e : Dev} (h : Dev.Keeps R P d e) (hp : Part.endpoints ∉ P := by decide) :
    e.endpoints = d.endpoints := h.2 _ hp

theorem Dev.Keeps.same_vits {R : List Reg} {P : List Part} {d e : Dev} (h : Dev.Keeps R P d e) (hp : Part.vits ∉ P := by decide) :
    e.vits = d.vits := h.2 _ hp

theorem Dev.Keeps.same_vports {R : List Reg} {P : List Part} {d e : Dev} (h : Dev.Keeps R P d e) (hp : Part.vports ∉ P := by decide) :
    e.vports = d.vports := h.2 _ hp

theorem Dev.Keeps.same_vmfs {R : List Reg} {P : List Part} {d e : Dev} (h : Dev.Keeps R P d e) (hp : Part.vmfs ∉ P := by decide) :
    e.vmfs = d.vmfs := h.2 _ hp

theorem Dev.Keeps.same_cfg {R : List Reg} {P : List Part} {d e : Dev} (h : Dev.Keeps R P d e) (hp : Part.cfg ∉ P := by decide) :
    e.cfg = d.cfg := h.2 _ hp

theorem Dev.Keeps.same_heldTlps {R : List Reg} {P : List Part} {d e : Dev} (h : Dev.Keeps R P d e) (hp : Part.heldTlps ∉ P := by decide) :
    e.heldTlps = d.heldTlps := h.2 _ hp

theorem Dev.Keeps.same_notices {R : List Reg} {P : List Part} {d e : Dev} (h : Dev.Keeps R P d e) (hp : Part.notices ∉ P := by decide) :
    e.notices = d.notices := h.2 _ hp

theorem Dev.Keeps.same_lockSrc {R : List Reg} {P : List Part} {d e : Dev} (h : Dev.Keeps R P d e) (hp : Part.lockSrc ∉ P := by decide) :
    e.lockSrc = d.lockSrc := h.2 _ hp

theorem Dev.Keeps.same_lockSince {R : List Reg} {P : List Part} {d e : Dev} (h : Dev.Keeps R P d e) (hp : Part.lockSince ∉ P := by decide) :
    e.lockSince = d.lockSince := h.2 _ hp

theorem Dev.Keeps.same_slots {R : List Reg} {P : List Part} {d e : Dev} (h : Dev.Keeps R P d e) (hp : Part.slots ∉ P := by decide) :
    e.slots = d.slots := h.2 _ hp

theorem Dev.Keeps.same_lastTraffic {R : List Reg} {P : List Part} {d e : Dev} (h : Dev.Keeps R P d e) (hp : Part.lastTraffic ∉ P := by decide) :
    e.lastTraffic = d.lastTraffic := h.2 _ hp

theorem Dev.Keeps.same_brokenQueues {R : List Reg} {P : List Part} {d e : Dev} (h : Dev.Keeps R P d e) (hp : Part.brokenQueues ∉ P := by decide) :
    e.brokenQueues = d.brokenQueues := h.2 _ hp

theorem Dev.Keeps.same_links {R : List Reg} {P : List Part} {d e : Dev} (h : Dev.Keeps R P d e) (hp : Part.links ∉ P := by decide) :
    e.links = d.links := h.2 _ hp

theorem Dev.Keeps.same_shapers {R : List Reg} {P : List Part} {d e : Dev} (h : Dev.Keeps R P d e) (hp : Part.shapers ∉ P := by decide) :
    e.shapers = d.shapers := h.2 _ hp

theorem Dev.Keeps.same_pins {R : List Reg} {P : List Part} {d e : Dev} (h : Dev.Keeps R P d e) (hp : Part.pins ∉ P := by decide) :
    e.pins = d.pins := h.2 _ hp

theorem Dev.Keeps.same_atts {R : List Reg} {P : List Part} {d e : Dev} (h : Dev.Keeps R P d e) (hp : Part.atts ∉ P := by decide) :
    e.atts = d.atts := h.2 _ hp

theorem Dev.Keeps.same_pinAcks {R : List Reg} {P : List Part} {d e : Dev} (h : Dev.Keeps R P d e) (hp : Part.pinAcks ∉ P := by decide) :
    e.pinAcks = d.pinAcks := h.2 _ hp

theorem Dev.Keeps.same_registrar {R : List Reg} {P : List Part} {d e : Dev} (h : Dev.Keeps R P d e) (hp : Part.registrar ∉ P := by decide) :
    e.registrar = d.registrar := h.2 _ hp

theorem Dev.Keeps.same_perstReleased {R : List Reg} {P : List Part} {d e : Dev} (h : Dev.Keeps R P d e) (hp : Part.perstReleased ∉ P := by decide) :
    e.perstReleased = d.perstReleased := h.2 _ hp

theorem Dev.Keeps.same_owesDrs {R : List Reg} {P : List Part} {d e : Dev} (h : Dev.Keeps R P d e) (hp : Part.owesDrs ∉ P := by decide) :
    e.owesDrs = d.owesDrs := h.2 _ hp

theorem Dev.Keeps.same_sbSeq {R : List Reg} {P : List Part} {d e : Dev} (h : Dev.Keeps R P d e) (hp : Part.sbSeq ∉ P := by decide) :
    e.sbSeq = d.sbSeq := h.2 _ hp

theorem Dev.Keeps.same_sbSeen {R : List Reg} {P : List Part} {d e : Dev} (h : Dev.Keeps R P d e) (hp : Part.sbSeen ∉ P := by decide) :
    e.sbSeen = d.sbSeen := h.2 _ hp

theorem Dev.Keeps.same_heldCpls {R : List Reg} {P : List Part} {d e : Dev} (h : Dev.Keeps R P d e) (hp : Part.heldCpls ∉ P := by decide) :
    e.heldCpls = d.heldCpls := h.2 _ hp

theorem Dev.Keeps.same_saves {R : List Reg} {P : List Part} {d e : Dev} (h : Dev.Keeps R P d e) (hp : Part.saves ∉ P := by decide) :
    e.saves = d.saves := h.2 _ hp

theorem Dev.Keeps.same_lanes {R : List Reg} {P : List Part} {d e : Dev} (h : Dev.Keeps R P d e) (hp : Part.lanes ∉ P := by decide) :
    e.lanes = d.lanes := h.2 _ hp

theorem Dev.Keeps.same_ports {R : List Reg} {P : List Part} {d e : Dev} (h : Dev.Keeps R P d e) (hp : Part.ports ∉ P := by decide) :
    e.ports = d.ports := h.2 _ hp

theorem Dev.Keeps.same_pausedLinks {R : List Reg} {P : List Part} {d e : Dev} (h : Dev.Keeps R P d e) (hp : Part.pausedLinks ∉ P := by decide) :
    e.pausedLinks = d.pausedLinks := h.2 _ hp

theorem Dev.Keeps.same_eqTable {R : List Reg} {P : List Part} {d e : Dev} (h : Dev.Keeps R P d e) (hp : Part.eqTable ∉ P := by decide) :
    e.eqTable = d.eqTable := h.2 _ hp

theorem Dev.Keeps.same_eqReported {R : List Reg} {P : List Part} {d e : Dev} (h : Dev.Keeps R P d e) (hp : Part.eqReported ∉ P := by decide) :
    e.eqReported = d.eqReported := h.2 _ hp

theorem Dev.Keeps.same_owesDetect {R : List Reg} {P : List Part} {d e : Dev} (h : Dev.Keeps R P d e) (hp : Part.owesDetect ∉ P := by decide) :
    e.owesDetect = d.owesDetect := h.2 _ hp

theorem Dev.Keeps.same_fronts {R : List Reg} {P : List Part} {d e : Dev} (h : Dev.Keeps R P d e) (hp : Part.fronts ∉ P := by decide) :
    e.fronts = d.fronts := h.2 _ hp

theorem Dev.Keeps.same_engines {R : List Reg} {P : List Part} {d e : Dev} (h : Dev.Keeps R P d e) (hp : Part.engines ∉ P := by decide) :
    e.engines = d.engines := h.2 _ hp

theorem Dev.Keeps.same_inStreams {R : List Reg} {P : List Part} {d e : Dev} (h : Dev.Keeps R P d e) (hp : Part.inStreams ∉ P := by decide) :
    e.inStreams = d.inStreams := h.2 _ hp

theorem Dev.Keeps.same_candidates {R : List Reg} {P : List Part} {d e : Dev} (h : Dev.Keeps R P d e) (hp : Part.candidates ∉ P := by decide) :
    e.candidates = d.candidates := h.2 _ hp

theorem Dev.Keeps.same_usbaOpen {R : List Reg} {P : List Part} {d e : Dev} (h : Dev.Keeps R P d e) (hp : Part.usbaOpen ∉ P := by decide) :
    e.usbaOpen = d.usbaOpen := h.2 _ hp

theorem Dev.Keeps.same_hubPort {R : List Reg} {P : List Part} {d e : Dev} (h : Dev.Keeps R P d e) (hp : Part.hubPort ∉ P := by decide) :
    e.hubPort = d.hubPort := h.2 _ hp

theorem Dev.Keeps.same_mud {R : List Reg} {P : List Part} {d e : Dev} (h : Dev.Keeps R P d e) (hp : Part.mud ∉ P := by decide) :
    e.mud = d.mud := h.2 _ hp

theorem Dev.Keeps.same_mudDone {R : List Reg} {P : List Part} {d e : Dev} (h : Dev.Keeps R P d e) (hp : Part.mudDone ∉ P := by decide) :
    e.mudDone = d.mudDone := h.2 _ hp

theorem Dev.Keeps.same_ringRecords {R : List Reg} {P : List Part} {d e : Dev} (h : Dev.Keeps R P d e) (hp : Part.ringRecords ∉ P := by decide) :
    e.ringRecords = d.ringRecords := h.2 _ hp

theorem Dev.Keeps.same_pds {R : List Reg} {P : List Part} {d e : Dev} (h : Dev.Keeps R P d e) (hp : Part.pds ∉ P := by decide) :
    e.pds = d.pds := h.2 _ hp

theorem Dev.Keeps.same_efuses {R : List Reg} {P : List Part} {d e : Dev} (h : Dev.Keeps R P d e) (hp : Part.efuses ∉ P := by decide) :
    e.efuses = d.efuses := h.2 _ hp

theorem Dev.Keeps.same_efQueue {R : List Reg} {P : List Part} {d e : Dev} (h : Dev.Keeps R P d e) (hp : Part.efQueue ∉ P := by decide) :
    e.efQueue = d.efQueue := h.2 _ hp

theorem Dev.Keeps.same_splits {R : List Reg} {P : List Part} {d e : Dev} (h : Dev.Keeps R P d e) (hp : Part.splits ∉ P := by decide) :
    e.splits = d.splits := h.2 _ hp

theorem Dev.Keeps.same_feedOff {R : List Reg} {P : List Part} {d e : Dev} (h : Dev.Keeps R P d e) (hp : Part.feedOff ∉ P := by decide) :
    e.feedOff = d.feedOff := h.2 _ hp

theorem Dev.Keeps.same_cmds {R : List Reg} {P : List Part} {d e : Dev} (h : Dev.Keeps R P d e) (hp : Part.cmds ∉ P := by decide) :
    e.cmds = d.cmds := h.2 _ hp

theorem Dev.Keeps.same_homes {R : List Reg} {P : List Part} {d e : Dev} (h : Dev.Keeps R P d e) (hp : Part.homes ∉ P := by decide) :
    e.homes = d.homes := h.2 _ hp

theorem Dev.Keeps.same_edges {R : List Reg} {P : List Part} {d e : Dev} (h : Dev.Keeps R P d e) (hp : Part.edges ∉ P := by decide) :
    e.edges = d.edges := h.2 _ hp

theorem Dev.Keeps.same_edgesOut {R : List Reg} {P : List Part} {d e : Dev} (h : Dev.Keeps R P d e) (hp : Part.edgesOut ∉ P := by decide) :
    e.edgesOut = d.edgesOut := h.2 _ hp

theorem Dev.Keeps.same_images {R : List Reg} {P : List Part} {d e : Dev} (h : Dev.Keeps R P d e) (hp : Part.images ∉ P := by decide) :
    e.images = d.images := h.2 _ hp

theorem Dev.Keeps.same_scheduled {R : List Reg} {P : List Part} {d e : Dev} (h : Dev.Keeps R P d e) (hp : Part.scheduled ∉ P := by decide) :
    e.scheduled = d.scheduled := h.2 _ hp

theorem Dev.Keeps.same_chans {R : List Reg} {P : List Part} {d e : Dev} (h : Dev.Keeps R P d e) (hp : Part.chans ∉ P := by decide) :
    e.chans = d.chans := h.2 _ hp

theorem Dev.Keeps.same_pfLines {R : List Reg} {P : List Part} {d e : Dev} (h : Dev.Keeps R P d e) (hp : Part.pfLines ∉ P := by decide) :
    e.pfLines = d.pfLines := h.2 _ hp

theorem Dev.Keeps.same_pfLog {R : List Reg} {P : List Part} {d e : Dev} (h : Dev.Keeps R P d e) (hp : Part.pfLog ∉ P := by decide) :
    e.pfLog = d.pfLog := h.2 _ hp

theorem Dev.Keeps.same_pfSeq {R : List Reg} {P : List Part} {d e : Dev} (h : Dev.Keeps R P d e) (hp : Part.pfSeq ∉ P := by decide) :
    e.pfSeq = d.pfSeq := h.2 _ hp

theorem Dev.Keeps.same_winReads {R : List Reg} {P : List Part} {d e : Dev} (h : Dev.Keeps R P d e) (hp : Part.winReads ∉ P := by decide) :
    e.winReads = d.winReads := h.2 _ hp

theorem Dev.Keeps.same_winFetches {R : List Reg} {P : List Part} {d e : Dev} (h : Dev.Keeps R P d e) (hp : Part.winFetches ∉ P := by decide) :
    e.winFetches = d.winFetches := h.2 _ hp

theorem Dev.Keeps.same_winStores {R : List Reg} {P : List Part} {d e : Dev} (h : Dev.Keeps R P d e) (hp : Part.winStores ∉ P := by decide) :
    e.winStores = d.winStores := h.2 _ hp

theorem Dev.Keeps.same_heldRemote {R : List Reg} {P : List Part} {d e : Dev} (h : Dev.Keeps R P d e) (hp : Part.heldRemote ∉ P := by decide) :
    e.heldRemote = d.heldRemote := h.2 _ hp

theorem Dev.Keeps.same_cores {R : List Reg} {P : List Part} {d e : Dev} (h : Dev.Keeps R P d e) (hp : Part.cores ∉ P := by decide) :
    e.cores = d.cores := h.2 _ hp

theorem Dev.Keeps.same_time {R : List Reg} {P : List Part} {d e : Dev} (h : Dev.Keeps R P d e) (hp : Part.time ∉ P := by decide) :
    e.time = d.time := h.2 _ hp

theorem Dev.Keeps.same_cats {R : List Reg} {P : List Part} {d e : Dev} (h : Dev.Keeps R P d e) (hp : Part.cats ∉ P := by decide) :
    e.cats = d.cats := h.2 _ hp

theorem Dev.Keeps.same_spcs {R : List Reg} {P : List Part} {d e : Dev} (h : Dev.Keeps R P d e) (hp : Part.spcs ∉ P := by decide) :
    e.spcs = d.spcs := h.2 _ hp

theorem Dev.Keeps.same_samples {R : List Reg} {P : List Part} {d e : Dev} (h : Dev.Keeps R P d e) (hp : Part.samples ∉ P := by decide) :
    e.samples = d.samples := h.2 _ hp

theorem Dev.Keeps.same_rails {R : List Reg} {P : List Part} {d e : Dev} (h : Dev.Keeps R P d e) (hp : Part.rails ∉ P := by decide) :
    e.rails = d.rails := h.2 _ hp

theorem Dev.Keeps.same_refB {R : List Reg} {P : List Part} {d e : Dev} (h : Dev.Keeps R P d e) (hp : Part.refB ∉ P := by decide) :
    e.refB = d.refB := h.2 _ hp

theorem Dev.Keeps.same_halted {R : List Reg} {P : List Part} {d e : Dev} (h : Dev.Keeps R P d e) (hp : Part.halted ∉ P := by decide) :
    e.halted = d.halted := h.2 _ hp

theorem Dev.Keeps.same_haltedBy {R : List Reg} {P : List Part} {d e : Dev} (h : Dev.Keeps R P d e) (hp : Part.haltedBy ∉ P := by decide) :
    e.haltedBy = d.haltedBy := h.2 _ hp

theorem Dev.Keeps.same_conditions {R : List Reg} {P : List Part} {d e : Dev} (h : Dev.Keeps R P d e) (hp : Part.conditions ∉ P := by decide) :
    e.conditions = d.conditions := h.2 _ hp

theorem Dev.Keeps.same_alertUntil {R : List Reg} {P : List Part} {d e : Dev} (h : Dev.Keeps R P d e) (hp : Part.alertUntil ∉ P := by decide) :
    e.alertUntil = d.alertUntil := h.2 _ hp

theorem Dev.Keeps.same_tripped {R : List Reg} {P : List Part} {d e : Dev} (h : Dev.Keeps R P d e) (hp : Part.tripped ∉ P := by decide) :
    e.tripped = d.tripped := h.2 _ hp

theorem Dev.Keeps.same_lostDies {R : List Reg} {P : List Part} {d e : Dev} (h : Dev.Keeps R P d e) (hp : Part.lostDies ∉ P := by decide) :
    e.lostDies = d.lostDies := h.2 _ hp

theorem Dev.Keeps.same_withheld {R : List Reg} {P : List Part} {d e : Dev} (h : Dev.Keeps R P d e) (hp : Part.withheld ∉ P := by decide) :
    e.withheld = d.withheld := h.2 _ hp

theorem Dev.Keeps.same_topo {R : List Reg} {P : List Part} {d e : Dev} (h : Dev.Keeps R P d e) (hp : Part.topo ∉ P := by decide) :
    e.topo = d.topo := h.2 _ hp

theorem Dev.Keeps.same_partners {R : List Reg} {P : List Part} {d e : Dev} (h : Dev.Keeps R P d e) (hp : Part.partners ∉ P := by decide) :
    e.partners = d.partners := h.2 _ hp

theorem Dev.Keeps.same_ownAseq {R : List Reg} {P : List Part} {d e : Dev} (h : Dev.Keeps R P d e) (hp : Part.ownAseq ∉ P := by decide) :
    e.ownAseq = d.ownAseq := h.2 _ hp

theorem Dev.Keeps.same_described {R : List Reg} {P : List Part} {d e : Dev} (h : Dev.Keeps R P d e) (hp : Part.described ∉ P := by decide) :
    e.described = d.described := h.2 _ hp

theorem Dev.Keeps.same_elected {R : List Reg} {P : List Part} {d e : Dev} (h : Dev.Keeps R P d e) (hp : Part.elected ∉ P := by decide) :
    e.elected = d.elected := h.2 _ hp

theorem Dev.Keeps.same_assigned {R : List Reg} {P : List Part} {d e : Dev} (h : Dev.Keeps R P d e) (hp : Part.assigned ∉ P := by decide) :
    e.assigned = d.assigned := h.2 _ hp

theorem Dev.Keeps.same_bootFailed {R : List Reg} {P : List Part} {d e : Dev} (h : Dev.Keeps R P d e) (hp : Part.bootFailed ∉ P := by decide) :
    e.bootFailed = d.bootFailed := h.2 _ hp

theorem Dev.Keeps.same_orphaned {R : List Reg} {P : List Part} {d e : Dev} (h : Dev.Keeps R P d e) (hp : Part.orphaned ∉ P := by decide) :
    e.orphaned = d.orphaned := h.2 _ hp

theorem Dev.Keeps.same_conflict {R : List Reg} {P : List Part} {d e : Dev} (h : Dev.Keeps R P d e) (hp : Part.conflict ∉ P := by decide) :
    e.conflict = d.conflict := h.2 _ hp

theorem Dev.Keeps.same_supply {R : List Reg} {P : List Part} {d e : Dev} (h : Dev.Keeps R P d e) (hp : Part.supply ∉ P := by decide) :
    e.supply = d.supply := h.2 _ hp

theorem Dev.Keeps.same_byCommand {R : List Reg} {P : List Part} {d e : Dev} (h : Dev.Keeps R P d e) (hp : Part.byCommand ∉ P := by decide) :
    e.byCommand = d.byCommand := h.2 _ hp

theorem Dev.Keeps.same_tried {R : List Reg} {P : List Part} {d e : Dev} (h : Dev.Keeps R P d e) (hp : Part.tried ∉ P := by decide) :
    e.tried = d.tried := h.2 _ hp

theorem Dev.Keeps.same_latched {R : List Reg} {P : List Part} {d e : Dev} (h : Dev.Keeps R P d e) (hp : Part.latched ∉ P := by decide) :
    e.latched = d.latched := h.2 _ hp

theorem Dev.Keeps.same_trafficAt {R : List Reg} {P : List Part} {d e : Dev} (h : Dev.Keeps R P d e) (hp : Part.trafficAt ∉ P := by decide) :
    e.trafficAt = d.trafficAt := h.2 _ hp

end Sys2Proof.Machine
end

