-- ==== Sys2Proof/Laws/KeepsOps.lean ====
section
/-! SUPPORT. What each operation of Machine/Ops.lean may change: every register and structure outside the lists named stays as it was. -/

set_option Elab.async false
set_option linter.all false

namespace Sys2Proof.Machine

theorem Dev.count_keeps {d : Dev} {w n : Nat} : Dev.Keeps [] [.ctrs] d (Dev.count d w n) := by
  unfold Dev.count
  with_reducible repeat'
    first
      | intro x | assumption | apply Dev.Keeps.refl | apply Dev.Keeps.ite | apply Dev.Keeps.foldl
      | (show (_ : Bool) = _; decide +kernel) | (show _ ∈ _; decide +kernel) | (show _ < _; decide +kernel) | split
      | apply Dev.Keeps.set_ctrs | dsimp only

theorem Dev.emit_keeps {d : Dev} {o : Out} : Dev.Keeps [] [.out] d (Dev.emit d o) := by
  unfold Dev.emit
  with_reducible repeat'
    first
      | intro x | assumption | apply Dev.Keeps.refl | apply Dev.Keeps.ite | apply Dev.Keeps.foldl
      | (show (_ : Bool) = _; decide +kernel) | (show _ ∈ _; decide +kernel) | (show _ < _; decide +kernel) | split
      | apply Dev.Keeps.set_out | dsimp only

theorem Dev.ringWrite_keeps {d : Dev} {r : EvRec} : Dev.Keeps [.SLC_LOG_HEAD, .SLC_LOG_WRAPS] [.ring] d (Dev.ringWrite d r) := by
  unfold Dev.ringWrite
  with_reducible repeat'
    first
      | intro x | assumption | apply Dev.Keeps.refl | apply Dev.Keeps.put | apply Dev.Keeps.ite | apply Dev.Keeps.foldl
      | (show (_ : Bool) = _; decide +kernel) | (show _ ∈ _; decide +kernel) | (show _ < _; decide +kernel) | split
      | apply Dev.Keeps.set_ring | dsimp only

theorem Dev.showCondition_keeps {d : Dev} {code object : Nat} : Dev.Keeps [] [.alertUntil, .conditions, .out] d (Dev.showCondition d
    code object) := by
  unfold Dev.showCondition
  with_reducible repeat'
    first
      | intro x | assumption | apply Dev.Keeps.refl | apply Dev.Keeps.step Dev.emit_keeps | apply Dev.Keeps.ite
      | apply Dev.Keeps.foldl | (show (_ : Bool) = _; decide +kernel) | (show _ ∈ _; decide +kernel) | (show _ < _; decide +kernel)
      | split | apply Dev.Keeps.set_alertUntil | apply Dev.Keeps.set_conditions | dsimp only

theorem Dev.uartRecord_keeps {d : Dev} {code cls : Nat} : Dev.Keeps [] [.out] d (Dev.uartRecord d code cls) := by
  unfold Dev.uartRecord
  with_reducible repeat'
    first
      | intro x | assumption | apply Dev.Keeps.refl | apply Dev.Keeps.when | apply Dev.Keeps.step Dev.emit_keeps | apply Dev.Keeps.ite
      | apply Dev.Keeps.foldl | (show (_ : Bool) = _; decide +kernel) | (show _ ∈ _; decide +kernel) | (show _ < _; decide +kernel)
      | split | dsimp only

theorem Dev.number_keeps {d : Dev} {r : EvRec} : Dev.Keeps [.SLC_ESEQ_HI, .SLC_ESEQ_LO] [] d (Dev.number d r).2 := by
  unfold Dev.number
  with_reducible repeat'
    first
      | intro x | assumption | apply Dev.Keeps.refl | apply Dev.Keeps.put64 | apply Dev.Keeps.ite | apply Dev.Keeps.foldl
      | (show (_ : Bool) = _; decide +kernel) | (show _ ∈ _; decide +kernel) | (show _ < _; decide +kernel) | split | dsimp only

theorem Dev.keep_keeps {d : Dev} {r : EvRec} : Dev.Keeps [.SLC_ESEQ_HI, .SLC_ESEQ_LO, .SLC_LOG_HEAD, .SLC_LOG_WRAPS] [.overrun, .ring,
    .staging] d (Dev.keep d r) := by
  unfold Dev.keep
  with_reducible repeat'
    first
      | intro x | assumption | apply Dev.Keeps.refl | apply Dev.Keeps.step Dev.number_keeps | apply Dev.Keeps.step Dev.ringWrite_keeps
      | apply Dev.Keeps.ite | apply Dev.Keeps.foldl | (show (_ : Bool) = _; decide +kernel) | (show _ ∈ _; decide +kernel)
      | (show _ < _; decide +kernel) | split | apply Dev.Keeps.set_staging | apply Dev.Keeps.set_overrun
      | refine Dev.Keeps.pair Dev.number_keeps (by assumption) ?_ ?_ ?_ | dsimp only

theorem Dev.setVit_keeps {d : Dev} {lv : Nat} {f : Vit → Vit} : Dev.Keeps [] [.vits] d (Dev.setVit d lv f) := by
  unfold Dev.setVit
  with_reducible repeat'
    first
      | intro x | assumption | apply Dev.Keeps.refl | apply Dev.Keeps.ite | apply Dev.Keeps.foldl
      | (show (_ : Bool) = _; decide +kernel) | (show _ ∈ _; decide +kernel) | (show _ < _; decide +kernel) | split
      | apply Dev.Keeps.set_vits | dsimp only

theorem Dev.setIntx_keeps {d : Dev} {lv : Nat} {cs : List (Nat × Nat)} : Dev.Keeps [] [.ctrs, .out, .vits] d (Dev.setIntx d lv cs) := by
  unfold Dev.setIntx
  with_reducible repeat'
    first
      | intro x | assumption | apply Dev.Keeps.refl | apply Dev.Keeps.forEach | apply Dev.Keeps.when
      | apply Dev.Keeps.step Dev.count_keeps | apply Dev.Keeps.step Dev.emit_keeps | apply Dev.Keeps.step Dev.setVit_keeps
      | apply Dev.Keeps.ite | apply Dev.Keeps.foldl | (show (_ : Bool) = _; decide +kernel) | (show _ ∈ _; decide +kernel)
      | (show _ < _; decide +kernel) | split | dsimp only

theorem Dev.contribute_keeps {d : Dev} {lv source wire : Nat} {on : Bool} : Dev.Keeps [] [.ctrs, .out, .vits] d (Dev.contribute d lv
    source wire on) := by
  unfold Dev.contribute
  with_reducible repeat'
    first
      | intro x | assumption | apply Dev.Keeps.refl | apply Dev.Keeps.step Dev.setIntx_keeps | apply Dev.Keeps.ite
      | apply Dev.Keeps.foldl | (show (_ : Bool) = _; decide +kernel) | (show _ ∈ _; decide +kernel) | (show _ < _; decide +kernel)
      | split | dsimp only

theorem Dev.vmfInta_keeps {d : Dev} {lv : Nat} : Dev.Keeps [.VMF_INTX] [.ctrs, .out, .vits] d (Dev.vmfInta d lv) := by
  unfold Dev.vmfInta
  with_reducible repeat'
    first
      | intro x | assumption | apply Dev.Keeps.refl | apply Dev.Keeps.put | apply Dev.Keeps.mark | apply Dev.Keeps.when
      | apply Dev.Keeps.step Dev.contribute_keeps | apply Dev.Keeps.ite | apply Dev.Keeps.foldl
      | (show (_ : Bool) = _; decide +kernel) | (show _ ∈ _; decide +kernel) | (show _ < _; decide +kernel) | split | dsimp only

theorem Dev.vmfFlag_keeps {d : Dev} {lv : Nat} {f : Fld} (hlo : f.lo < 32) :
    Dev.Keeps [f.reg, .VMF_INTX] [.ctrs, .out, .vits] d (d.vmfFlag lv f) :=
  (Dev.Keeps.put f lv 1 hlo List.mem_cons_self (.refl _ _ _)).trans (Dev.vmfInta_keeps.mono (List.subset_cons_self _ _) fun _ h => h)

theorem Dev.wakePending_keeps {d : Dev} : Dev.Keeps [.USH_MUD_STATUS] [] d (Dev.wakePending d) := by
  unfold Dev.wakePending
  with_reducible repeat'
    first
      | intro x | assumption | apply Dev.Keeps.refl | apply Dev.Keeps.put | apply Dev.Keeps.when | apply Dev.Keeps.ite
      | apply Dev.Keeps.foldl | (show (_ : Bool) = _; decide +kernel) | (show _ ∈ _; decide +kernel) | (show _ < _; decide +kernel)
      | split | dsimp only

theorem Dev.noteWake_keeps {d : Dev} {bit : Nat} : Dev.Keeps [.PWR_WAKE] [.latched] d (Dev.noteWake d bit) := by
  unfold Dev.noteWake
  with_reducible repeat'
    first
      | intro x | assumption | apply Dev.Keeps.refl | apply Dev.Keeps.mark | apply Dev.Keeps.put | apply Dev.Keeps.ite
      | apply Dev.Keeps.foldl | (show (_ : Bool) = _; decide +kernel) | (show _ ∈ _; decide +kernel) | (show _ < _; decide +kernel)
      | split | apply Dev.Keeps.set_latched | dsimp only

theorem Dev.record_keeps {d : Dev} {code : Nat} {e : Ev} : Dev.Keeps recordRegs recordParts d (Dev.record d code e) := by
  unfold Dev.record
  with_reducible repeat'
    first
      | intro x | assumption | apply Dev.Keeps.refl | apply Dev.Keeps.when | apply Dev.Keeps.step Dev.keep_keeps
      | apply Dev.Keeps.step Dev.noteWake_keeps | apply Dev.Keeps.step Dev.showCondition_keeps
      | apply Dev.Keeps.step Dev.uartRecord_keeps | apply Dev.Keeps.step (Dev.vmfFlag_keeps ?_)
      | apply Dev.Keeps.step Dev.wakePending_keeps | apply Dev.Keeps.ite | apply Dev.Keeps.foldl
      | (show (_ : Bool) = _; decide +kernel) | (show _ ∈ _; decide +kernel) | (show _ < _; decide +kernel) | split | dsimp only

theorem Dev.setVitState_keeps {d : Dev} {lv st : Nat} : Dev.Keeps [.PWR_WAKE, .VIT_STATE] [.latched] d (Dev.setVitState d lv st) := by
  unfold Dev.setVitState
  with_reducible repeat'
    first
      | intro x | assumption | apply Dev.Keeps.refl | apply Dev.Keeps.put | apply Dev.Keeps.when
      | apply Dev.Keeps.step Dev.noteWake_keeps | apply Dev.Keeps.ite | apply Dev.Keeps.foldl | (show (_ : Bool) = _; decide +kernel)
      | (show _ ∈ _; decide +kernel) | (show _ < _; decide +kernel) | split | dsimp only

theorem Dev.setEndpoint_keeps {d : Dev} {p e : Nat} {f : Endpoint → Endpoint} : Dev.Keeps [] [.endpoints] d (Dev.setEndpoint d p e f) :=
    by
  unfold Dev.setEndpoint
  with_reducible repeat'
    first
      | intro x | assumption | apply Dev.Keeps.refl | apply Dev.Keeps.ite | apply Dev.Keeps.foldl
      | (show (_ : Bool) = _; decide +kernel) | (show _ ∈ _; decide +kernel) | (show _ < _; decide +kernel) | split
      | apply Dev.Keeps.set_endpoints | dsimp only

theorem Dev.setVport_keeps {d : Dev} {lv k : Nat} {f : VPort → VPort} : Dev.Keeps [] [.vports] d (Dev.setVport d lv k f) := by
  unfold Dev.setVport
  with_reducible repeat'
    first
      | intro x | assumption | apply Dev.Keeps.refl | apply Dev.Keeps.ite | apply Dev.Keeps.foldl
      | (show (_ : Bool) = _; decide +kernel) | (show _ ∈ _; decide +kernel) | (show _ < _; decide +kernel) | split
      | apply Dev.Keeps.set_vports | dsimp only

theorem Dev.clearContributions_keeps {d : Dev} {lv : Nat} {p : Nat → Bool} : Dev.Keeps [] [.ctrs, .out, .vits] d (Dev.clearContributions
    d lv p) := by
  unfold Dev.clearContributions
  with_reducible repeat'
    first
      | intro x | assumption | apply Dev.Keeps.refl | apply Dev.Keeps.step Dev.setIntx_keeps | apply Dev.Keeps.ite
      | apply Dev.Keeps.foldl | (show (_ : Bool) = _; decide +kernel) | (show _ ∈ _; decide +kernel) | (show _ < _; decide +kernel)
      | split | dsimp only

theorem Dev.recordLimited_keeps {d : Dev} {source gap code : Nat} {e : Ev} : Dev.Keeps recordRegs (.limited :: recordParts) d
    (Dev.recordLimited d source gap code e) := by
  unfold Dev.recordLimited
  with_reducible repeat'
    first
      | intro x | assumption | apply Dev.Keeps.refl | apply Dev.Keeps.step Dev.record_keeps | apply Dev.Keeps.ite
      | apply Dev.Keeps.foldl | (show (_ : Bool) = _; decide +kernel) | (show _ ∈ _; decide +kernel) | (show _ < _; decide +kernel)
      | split | apply Dev.Keeps.set_limited | dsimp only

theorem Dev.mask_keeps {d : Dev} {subsystem port object n addr : Nat} : Dev.Keeps [] [.masked] d (Dev.mask d subsystem port object n
    addr) := by
  unfold Dev.mask
  with_reducible repeat'
    first
      | intro x | assumption | apply Dev.Keeps.refl | apply Dev.Keeps.ite | apply Dev.Keeps.foldl
      | (show (_ : Bool) = _; decide +kernel) | (show _ ∈ _; decide +kernel) | (show _ < _; decide +kernel) | split
      | apply Dev.Keeps.set_masked | dsimp only

theorem Dev.draw_keeps {d : Dev} : Dev.Keeps [] [.drawn] d (Dev.draw d).2 := by
  unfold Dev.draw
  with_reducible repeat'
    first
      | intro x | assumption | apply Dev.Keeps.refl | apply Dev.Keeps.ite | apply Dev.Keeps.foldl
      | (show (_ : Bool) = _; decide +kernel) | (show _ ∈ _; decide +kernel) | (show _ < _; decide +kernel) | split
      | apply Dev.Keeps.set_drawn | dsimp only

theorem Dev.setVmf_keeps {d : Dev} {lv : Nat} {f : Vmf → Vmf} : Dev.Keeps [] [.vmfs] d (Dev.setVmf d lv f) := by
  unfold Dev.setVmf
  with_reducible repeat'
    first
      | intro x | assumption | apply Dev.Keeps.refl | apply Dev.Keeps.ite | apply Dev.Keeps.foldl
      | (show (_ : Bool) = _; decide +kernel) | (show _ ∈ _; decide +kernel) | (show _ < _; decide +kernel) | split
      | apply Dev.Keeps.set_vmfs | dsimp only

end Sys2Proof.Machine
end

