-- ==== Sys2Proof/Laws/KeepsFlags.lean ====
section
/-! SUPPORT. What each operation of Machine/Flags.lean may change: every register and structure outside the lists named stays as it was. -/

set_option Elab.async false
set_option linter.all false

namespace Sys2Proof.Machine

theorem Dev.raise_keeps {d : Dev} {f : Fld} {i : Nat} {e : Ev} (hlo : f.lo < 32) :
    Dev.Keeps (f.reg :: recordRegs) recordParts d (d.raise f i e) :=
  (Dev.Keeps.put f i 1 hlo List.mem_cons_self (.refl _ _ _)).trans (Dev.record_keeps.mono (List.subset_cons_self _ _) fun _ h => h)

theorem Dev.recordUncoded_keeps {d : Dev} {subsystem : Nat} {u : UncodedRecord} {e : Ev} : Dev.Keeps recordRegs recordParts d
    (Dev.recordUncoded d subsystem u e) := by
  unfold Dev.recordUncoded
  with_reducible repeat'
    first
      | intro x | assumption | apply Dev.Keeps.refl | apply Dev.Keeps.step Dev.record_keeps | apply Dev.Keeps.ite
      | apply Dev.Keeps.foldl | (show (_ : Bool) = _; decide +kernel) | (show _ ∈ _; decide +kernel) | (show _ < _; decide +kernel)
      | split | dsimp only

theorem Dev.accessRecord_keeps {d : Dev} {subsystem what master addr : Nat} : Dev.Keeps recordRegs recordParts d (Dev.accessRecord d
    subsystem what master addr) := by
  unfold Dev.accessRecord
  with_reducible repeat'
    first
      | intro x | assumption | apply Dev.Keeps.refl | apply Dev.Keeps.step Dev.record_keeps | apply Dev.Keeps.ite
      | apply Dev.Keeps.foldl | (show (_ : Bool) = _; decide +kernel) | (show _ ∈ _; decide +kernel) | (show _ < _; decide +kernel)
      | split | dsimp only

theorem Dev.raiseLimited_keeps {d : Dev} {f : Fld} {i object : Nat} {e : Ev} (hlo : f.lo < 32) :
    Dev.Keeps (f.reg :: recordRegs) (.limited :: recordParts) d (d.raiseLimited f i object e) :=
  (Dev.Keeps.put f i 1 hlo List.mem_cons_self (.refl _ _ _)).trans (Dev.recordLimited_keeps.mono (List.subset_cons_self _ _) fun _ h =>
      h)

theorem Dev.setTel_keeps {d : Dev} {f : Fld} {on : Bool} (hlo : f.lo < 32) :
    Dev.Keeps (f.reg :: recordRegs) recordParts d (d.setTel f on) := by
  unfold Dev.setTel
  exact .ite (.refl _ _ _) ((Dev.record_keeps.mono (List.subset_cons_self _ _) fun _ h => h).step' <|
    (Dev.count_keeps.mono (List.nil_subset _) (Part.subset_of_among (by decide +kernel))).step' <|
    .mark f 0 on hlo List.mem_cons_self (.refl _ _ _))

theorem Dev.showArmed_keeps {d : Dev} : Dev.Keeps (.SLC_INJ_ARMED :: .TEL_MODE :: recordRegs) recordParts d (Dev.showArmed d) := by
  unfold Dev.showArmed
  with_reducible repeat'
    first
      | intro x | assumption | apply Dev.Keeps.refl | apply Dev.Keeps.put | apply Dev.Keeps.step (Dev.setTel_keeps ?_)
      | apply Dev.Keeps.ite | apply Dev.Keeps.foldl | (show (_ : Bool) = _; decide +kernel) | (show _ ∈ _; decide +kernel)
      | (show _ < _; decide +kernel) | split | dsimp only

theorem Dev.consume_keeps {d : Dev} {point : Nat} : Dev.Keeps (.SLC_INJ_ARMED :: .TEL_MODE :: recordRegs) (.injections :: recordParts) d
    (Dev.consume d point) := by
  unfold Dev.consume
  with_reducible repeat'
    first
      | intro x | assumption | apply Dev.Keeps.refl | apply Dev.Keeps.step Dev.showArmed_keeps | apply Dev.Keeps.ite
      | apply Dev.Keeps.foldl | (show (_ : Bool) = _; decide +kernel) | (show _ ∈ _; decide +kernel) | (show _ < _; decide +kernel)
      | split | apply Dev.Keeps.set_injections | dsimp only

theorem Dev.underInjection_keeps {R : List Reg} {P : List Part} {a d : Dev} {point target : Nat} {f : Dev → Dev}
    (hR : Reg.among ((.SLC_INJ_ARMED :: .TEL_MODE :: recordRegs)) R = true) (hP : Part.among (.injecting :: (.injections ::
        recordParts)) P = true) (h : Dev.Keeps R P a d)
    (hf : ∀ e, Dev.Keeps R P a e → Dev.Keeps R P a (f e)) : Dev.Keeps R P a (d.underInjection point target f) := by
  have hP' := Part.subset_of_among hP
  have hi : Part.injecting ∈ P := hP' List.mem_cons_self
  unfold Dev.underInjection
  split
  · exact (Dev.consume_keeps.mono (Reg.subset_of_among hR) fun _ h => hP' (List.mem_cons_of_mem _ h)).step'
      (.set_injecting hi (hf _ (.set_injecting hi h)))
  · exact hf _ h

end Sys2Proof.Machine
end

