-- ==== Sys2Proof/Laws/KeepsMemory.lean ====
section
/-! SUPPORT. What each operation of Machine/Memory.lean may change: every register and structure outside the lists named stays as it was. -/

set_option Elab.async false
set_option linter.all false

namespace Sys2Proof.Machine

theorem Dev.loseReservations_keeps {d : Dev} {own : Option Nat} {a n : Nat} : Dev.Keeps [] [.cores] d (Dev.loseReservations d own a n)
    := by
  unfold Dev.loseReservations
  with_reducible repeat'
    first
      | intro x | assumption | apply Dev.Keeps.refl | apply Dev.Keeps.forEach | apply Dev.Keeps.ite | apply Dev.Keeps.foldl
      | (show (_ : Bool) = _; decide +kernel) | (show _ ∈ _; decide +kernel) | (show _ < _; decide +kernel) | split
      | apply Dev.Keeps.set_cores | dsimp only

end Sys2Proof.Machine
end

