-- ==== Sys2Proof/Laws/KeepsDescriptors.lean ====
section
/-! SUPPORT. What each operation of Machine/Descriptors.lean may change: every register and structure outside the lists named stays as it was. -/

set_option Elab.async false
set_option linter.all false

namespace Sys2Proof.Machine

theorem Dev.endWaiting_keeps {d : Dev} {w : Wait} {status detail : Nat} {resp : List (Nat × Nat × Nat)} : Dev.Keeps [] [.cmds] d
    (Dev.endWaiting d w status detail resp) := by
  unfold Dev.endWaiting
  with_reducible repeat'
    first
      | intro x | assumption | apply Dev.Keeps.refl | apply Dev.Keeps.ite | apply Dev.Keeps.foldl
      | (show (_ : Bool) = _; decide +kernel) | (show _ ∈ _; decide +kernel) | (show _ < _; decide +kernel) | split
      | apply Dev.Keeps.set_cmds | dsimp only

theorem Dev.setCmd_keeps {d : Dev} {h : CmdHdr} {c : Cmd} : Dev.Keeps [] [.cmds] d (Dev.setCmd d h c) := by
  unfold Dev.setCmd
  with_reducible repeat'
    first
      | intro x | assumption | apply Dev.Keeps.refl | apply Dev.Keeps.ite | apply Dev.Keeps.foldl
      | (show (_ : Bool) = _; decide +kernel) | (show _ ∈ _; decide +kernel) | (show _ < _; decide +kernel) | split
      | apply Dev.Keeps.set_cmds | dsimp only

theorem Dev.finish_keeps {d : Dev} {h : CmdHdr} {opcode status detail : Nat} {resp : List (Nat × Nat × Nat)} {gvh : Nat} : Dev.Keeps []
    [.cmds] d (Dev.finish d h opcode status detail resp gvh) := by
  unfold Dev.finish
  with_reducible repeat'
    first
      | intro x | assumption | apply Dev.Keeps.refl | apply Dev.Keeps.step Dev.setCmd_keeps | apply Dev.Keeps.ite
      | apply Dev.Keeps.foldl | (show (_ : Bool) = _; decide +kernel) | (show _ ∈ _; decide +kernel) | (show _ < _; decide +kernel)
      | split | dsimp only

theorem Dev.badParam_keeps {d : Dev} {h : CmdHdr} {opcode offset : Nat} : Dev.Keeps [] [.cmds] d (Dev.badParam d h opcode offset) := by
  unfold Dev.badParam
  with_reducible repeat'
    first
      | intro x | assumption | apply Dev.Keeps.refl | apply Dev.Keeps.step Dev.finish_keeps | apply Dev.Keeps.ite
      | apply Dev.Keeps.foldl | (show (_ : Bool) = _; decide +kernel) | (show _ ∈ _; decide +kernel) | (show _ < _; decide +kernel)
      | split | dsimp only

theorem Dev.waitFor_keeps {d : Dev} {h : CmdHdr} {opcode : Nat} {w : Wait} {gvh : Nat} : Dev.Keeps [] [.cmds] d (Dev.waitFor d h opcode
    w gvh) := by
  unfold Dev.waitFor
  with_reducible repeat'
    first
      | intro x | assumption | apply Dev.Keeps.refl | apply Dev.Keeps.step Dev.setCmd_keeps | apply Dev.Keeps.ite
      | apply Dev.Keeps.foldl | (show (_ : Bool) = _; decide +kernel) | (show _ ∈ _; decide +kernel) | (show _ < _; decide +kernel)
      | split | dsimp only

theorem Dev.checkStray_keeps {R : List Reg} {P : List Part} {a d : Dev} {h : CmdHdr} {opcode : Nat} {body : Dev → Dev}
    (hP : Part.cmds ∈ P) (hd : Dev.Keeps R P a d) (hb : ∀ e, Dev.Keeps R P a e → Dev.Keeps R P a (body e)) :
    Dev.Keeps R P a (d.checkStray h opcode body) := by
  unfold Dev.checkStray
  split
  · exact hb _ hd
  · exact .ite (hb _ hd) ((Dev.badParam_keeps.mono (List.nil_subset _) (by simpa using hP)).step' hd)

theorem Dev.command_keeps {R : List Reg} {P : List Part} {a d : Dev} {h : CmdHdr} {opcode : Nat} {roles : List Nat} {own : Bool}
    {target : Nat} {body : Dev → Dev} {away : Bool} (hP : Part.among [.cmds, .out] P = true) (hd : Dev.Keeps R P a d)
    (hb : ∀ e, Dev.Keeps R P a e → Dev.Keeps R P a (body e)) :
    Dev.Keeps R P a (d.command h opcode roles own target body away) := by
  have hc : Part.cmds ∈ P := Part.subset_of_among hP (by decide)
  have ho : [Part.out] ⊆ P := fun p hp => Part.subset_of_among hP (List.mem_cons_of_mem _ hp)
  have hcs : [Part.cmds] ⊆ P := by simpa using hc
  unfold Dev.command
  refine .ite hd (.ite ((Dev.badParam_keeps.mono (List.nil_subset _) hcs).step' hd)
    (.ite ((Dev.finish_keeps.mono (List.nil_subset _) hcs).step' hd) (.ite (Dev.checkStray_keeps hc hd hb)
      (.ite ((Dev.finish_keeps.mono (List.nil_subset _) hcs).step' hd)
        ((Dev.emit_keeps.mono (List.nil_subset _) ho).step' ((Dev.waitFor_keeps.mono (List.nil_subset _) hcs).step' hd))))))

theorem Dev.orWait_keeps {R : List Reg} {P : List Part} {a d : Dev} {h : CmdHdr} {opcode : Nat} {p : Wait → Bool} {gvh : Nat}
    {body : Dev → Dev} (hP : Part.cmds ∈ P) (hd : Dev.Keeps R P a d) (hb : ∀ e, Dev.Keeps R P a e → Dev.Keeps R P a (body e)) :
    Dev.Keeps R P a (d.orWait h opcode p gvh body) := by
  unfold Dev.orWait
  exact .ite ((Dev.setCmd_keeps.mono (List.nil_subset _) (by simpa using hP)).step' hd) (hb _ hd)

theorem Dev.vitrineCommand_keeps {R : List Reg} {P : List Part} {a d : Dev} {h : CmdHdr} {opcode gvh : Nat} {roles : List Nat}
    {own : Bool} {body : Dev → Nat → Dev} {holds : Nat → Wait → Bool} (hP : Part.among [.cmds, .out] P = true)
    (hd : Dev.Keeps R P a d) (hb : ∀ e lv, Dev.Keeps R P a e → Dev.Keeps R P a (body e lv)) :
    Dev.Keeps R P a (d.vitrineCommand h opcode gvh roles own body holds) := by
  have hc : Part.cmds ∈ P := Part.subset_of_among hP (by decide)
  have hcs : [Part.cmds] ⊆ P := by simpa using hc
  have hf : ∀ e, Dev.Keeps R P a e → Dev.Keeps R P a (e.finish h opcode Status.noObject) := fun e he =>
    (Dev.finish_keeps.mono (List.nil_subset _) hcs).step' he
  unfold Dev.vitrineCommand
  split
  · exact .ite hd (.ite ((Dev.badParam_keeps.mono (List.nil_subset _) hcs).step' hd) (.ite (Dev.checkStray_keeps hc hd hf)
      ((Dev.finish_keeps.mono (List.nil_subset _) hcs).step' hd)))
  · refine Dev.command_keeps hP hd fun e he => ?_
    split
    · exact Dev.orWait_keeps hc he fun e' he' => hb e' _ he'
    · exact hf e he

theorem Dev.moduleCommand_keeps {R : List Reg} {P : List Part} {a d : Dev} {h : CmdHdr} {opcode : Nat} {roles : List Nat} {own : Bool}
    {body : Dev → Dev} (hP : Part.among [.cmds, .out] P = true) (hd : Dev.Keeps R P a d)
    (hb : ∀ e, Dev.Keeps R P a e → Dev.Keeps R P a (body e)) : Dev.Keeps R P a (d.moduleCommand h opcode roles own body) :=
  Dev.command_keeps hP hd hb

end Sys2Proof.Machine
end

