-- ==== Sys2Proof/Laws/KeepsBasin.lean ====
section
/-! SUPPORT. What each operation of Machine/Basin.lean may change: every register and structure outside the lists named stays as it was. -/

set_option Elab.async false
set_option linter.all false

namespace Sys2Proof.Machine

theorem Dev.setOut_keeps {d : Dev} {p : Nat} {f : OutPort → OutPort} : Dev.Keeps [] [.outs] d (Dev.setOut d p f) := by
  unfold Dev.setOut
  with_reducible repeat'
    first
      | intro x | assumption | apply Dev.Keeps.refl | apply Dev.Keeps.ite | apply Dev.Keeps.foldl
      | (show (_ : Bool) = _; decide +kernel) | (show _ ∈ _; decide +kernel) | (show _ < _; decide +kernel) | split
      | apply Dev.Keeps.set_outs | dsimp only

theorem Dev.rateGo_keeps {d : Dev} {p : Nat} : Dev.Keeps [] [.ctrs, .outs] d (Dev.rateGo d p) := by
  unfold Dev.rateGo
  with_reducible repeat'
    first
      | intro x | assumption | apply Dev.Keeps.refl | apply Dev.Keeps.step Dev.count_keeps | apply Dev.Keeps.step Dev.setOut_keeps
      | apply Dev.Keeps.ite | apply Dev.Keeps.foldl | (show (_ : Bool) = _; decide +kernel) | (show _ ∈ _; decide +kernel)
      | (show _ < _; decide +kernel) | split | dsimp only

theorem Dev.rateWait_keeps {d : Dev} {p : Nat} : Dev.Keeps [] [.outs] d (Dev.rateWait d p) := by
  unfold Dev.rateWait
  with_reducible repeat'
    first
      | intro x | assumption | apply Dev.Keeps.refl | apply Dev.Keeps.when | apply Dev.Keeps.step Dev.setOut_keeps
      | apply Dev.Keeps.ite | apply Dev.Keeps.foldl | (show (_ : Bool) = _; decide +kernel) | (show _ ∈ _; decide +kernel)
      | (show _ < _; decide +kernel) | split | dsimp only

theorem countSquashed_keeps {q : Nat} {d : Dev} {f : QFrame} : Dev.Keeps [] [.ctrs] d (countSquashed q d f) := by
  unfold countSquashed
  with_reducible repeat'
    first
      | intro x | assumption | apply Dev.Keeps.refl | apply Dev.Keeps.step Dev.count_keeps | apply Dev.Keeps.ite
      | apply Dev.Keeps.foldl | (show (_ : Bool) = _; decide +kernel) | (show _ ∈ _; decide +kernel) | (show _ < _; decide +kernel)
      | split | dsimp only

theorem Dev.setQueue_keeps {d : Dev} {q : Nat} {v : Queue} : Dev.Keeps [] [.queues] d (Dev.setQueue d q v) := by
  unfold Dev.setQueue
  with_reducible repeat'
    first
      | intro x | assumption | apply Dev.Keeps.refl | apply Dev.Keeps.ite | apply Dev.Keeps.foldl
      | (show (_ : Bool) = _; decide +kernel) | (show _ ∈ _; decide +kernel) | (show _ < _; decide +kernel) | split
      | apply Dev.Keeps.set_queues | dsimp only

theorem Dev.freeCells_keeps {d : Dev} {q : Nat} {f : QFrame} : Dev.Keeps [] [.cellsFree, .ctrs] d (Dev.freeCells d q f) := by
  unfold Dev.freeCells
  with_reducible repeat'
    first
      | intro x | assumption | apply Dev.Keeps.refl | apply Dev.Keeps.step Dev.count_keeps | apply Dev.Keeps.ite
      | apply Dev.Keeps.foldl | (show (_ : Bool) = _; decide +kernel) | (show _ ∈ _; decide +kernel) | (show _ < _; decide +kernel)
      | split | apply Dev.Keeps.set_cellsFree | dsimp only

theorem Dev.setDwin_keeps {d : Dev} {src dst : Nat} {f : DWin → DWin} : Dev.Keeps [] [.dwins] d (Dev.setDwin d src dst f) := by
  unfold Dev.setDwin
  with_reducible repeat'
    first
      | intro x | assumption | apply Dev.Keeps.refl | apply Dev.Keeps.ite | apply Dev.Keeps.foldl
      | (show (_ : Bool) = _; decide +kernel) | (show _ ∈ _; decide +kernel) | (show _ < _; decide +kernel) | split
      | apply Dev.Keeps.set_dwins | dsimp only

theorem Dev.owe_keeps {d : Dev} {p : Nat} {f : Frame} : Dev.Keeps [] [.dwins] d (Dev.owe d p f) := by
  unfold Dev.owe
  with_reducible repeat'
    first
      | intro x | assumption | apply Dev.Keeps.refl | apply Dev.Keeps.when | apply Dev.Keeps.step Dev.setDwin_keeps
      | apply Dev.Keeps.ite | apply Dev.Keeps.foldl | (show (_ : Bool) = _; decide +kernel) | (show _ ∈ _; decide +kernel)
      | (show _ < _; decide +kernel) | split | dsimp only

theorem Dev.leave_keeps {d : Dev} {q : Nat} {f : QFrame} : Dev.Keeps [] [.cellsFree, .ctrs, .dwins] d (Dev.leave d q f) := by
  unfold Dev.leave
  with_reducible repeat'
    first
      | intro x | assumption | apply Dev.Keeps.refl | apply Dev.Keeps.step Dev.freeCells_keeps | apply Dev.Keeps.step Dev.owe_keeps
      | apply Dev.Keeps.ite | apply Dev.Keeps.foldl | (show (_ : Bool) = _; decide +kernel) | (show _ ∈ _; decide +kernel)
      | (show _ < _; decide +kernel) | split | dsimp only

theorem Dev.leaveRound_keeps {d : Dev} {q : Nat} : Dev.Keeps [.WR_Q_DRR] [.outs] d (Dev.leaveRound d q) := by
  unfold Dev.leaveRound
  with_reducible repeat'
    first
      | intro x | assumption | apply Dev.Keeps.refl | apply Dev.Keeps.put | apply Dev.Keeps.step Dev.setOut_keeps
      | apply Dev.Keeps.ite | apply Dev.Keeps.foldl | (show (_ : Bool) = _; decide +kernel) | (show _ ∈ _; decide +kernel)
      | (show _ < _; decide +kernel) | split | dsimp only

theorem Dev.dropFrames_keeps {R : List Reg} {P : List Part} {a d : Dev} {q : Nat} {keep : QFrame → Bool} {each : Dev → QFrame → Dev}
    (hR : Reg.among [.WR_Q_DRR] R = true) (hP : Part.among [.cellsFree, .ctrs, .dwins, .outs, .queues] P = true) (h : Dev.Keeps R P a d)
    (he : ∀ e f, Dev.Keeps R P a e → Dev.Keeps R P a (each e f)) : Dev.Keeps R P a (d.dropFrames q keep each) := by
  have hP' := Part.subset_of_among hP
  exact (Dev.leaveRound_keeps.mono (Reg.subset_of_among hR) fun _ h => hP' (by revert h; decide +revert)).step' <|
    .forEach ((Dev.setQueue_keeps.mono (List.nil_subset _) fun _ h => hP' (by revert h; decide +revert)).step' h) fun e f h =>
      he _ f ((Dev.leave_keeps.mono (List.nil_subset _) fun _ h => hP' (by revert h; decide +revert)).step' h)

theorem Dev.squashQueue_keeps {d : Dev} {q : Nat} : Dev.Keeps [.BSN_Q_STATUS, .WR_Q_DRR] [.cellsFree, .ctrs, .dwins, .outs, .queues] d
    (Dev.squashQueue d q) := by
  unfold Dev.squashQueue
  with_reducible repeat'
    first
      | intro x | assumption | apply Dev.Keeps.refl | apply Dev.Keeps.put | apply Dev.dropFrames_keeps
      | apply Dev.Keeps.step countSquashed_keeps | apply Dev.Keeps.ite | apply Dev.Keeps.foldl | (show (_ : Bool) = _; decide +kernel)
      | (show _ ∈ _; decide +kernel) | (show _ < _; decide +kernel) | split | dsimp only

theorem Dev.sideReturn_keeps {d : Dev} {p : Nat} : Dev.Keeps [] [.outs, .queues] d (Dev.sideReturn d p) := by
  unfold Dev.sideReturn
  with_reducible repeat'
    first
      | intro x | assumption | apply Dev.Keeps.refl | apply Dev.Keeps.forEach | apply Dev.Keeps.when
      | apply Dev.Keeps.step Dev.setOut_keeps | apply Dev.Keeps.step Dev.setQueue_keeps | apply Dev.Keeps.ite | apply Dev.Keeps.foldl
      | (show (_ : Bool) = _; decide +kernel) | (show _ ∈ _; decide +kernel) | (show _ < _; decide +kernel) | split | dsimp only

theorem Dev.setQueueState_keeps {d : Dev} {q state : Nat} : Dev.Keeps [.BSN_Q_STATUS] [.queues] d (Dev.setQueueState d q state) := by
  unfold Dev.setQueueState
  with_reducible repeat'
    first
      | intro x | assumption | apply Dev.Keeps.refl | apply Dev.Keeps.put | apply Dev.Keeps.step Dev.setQueue_keeps
      | apply Dev.Keeps.ite | apply Dev.Keeps.foldl | (show (_ : Bool) = _; decide +kernel) | (show _ ∈ _; decide +kernel)
      | (show _ < _; decide +kernel) | split | dsimp only

theorem Dev.lose_keeps {d : Dev} {p : Nat} {f : Frame} : Dev.Keeps [] [.dwins] d (Dev.lose d p f) := by
  unfold Dev.lose
  with_reducible repeat'
    first
      | intro x | assumption | apply Dev.Keeps.refl | apply Dev.Keeps.when | apply Dev.Keeps.step Dev.setDwin_keeps
      | apply Dev.Keeps.ite | apply Dev.Keeps.foldl | (show (_ : Bool) = _; decide +kernel) | (show _ ∈ _; decide +kernel)
      | (show _ < _; decide +kernel) | split | dsimp only

theorem Dev.leaveLost_keeps {d : Dev} {q : Nat} {f : QFrame} : Dev.Keeps [] [.cellsFree, .ctrs, .dwins] d (Dev.leaveLost d q f) := by
  unfold Dev.leaveLost
  with_reducible repeat'
    first
      | intro x | assumption | apply Dev.Keeps.refl | apply Dev.Keeps.step Dev.freeCells_keeps | apply Dev.Keeps.step Dev.lose_keeps
      | apply Dev.Keeps.ite | apply Dev.Keeps.foldl | (show (_ : Bool) = _; decide +kernel) | (show _ ∈ _; decide +kernel)
      | (show _ < _; decide +kernel) | split | dsimp only

theorem Dev.creditFrame_keeps {d : Dev} {src dst : Nat} {kind : CreditKind} {cseq value : Nat} : Dev.Keeps [] [.arrived] d
    (Dev.creditFrame d src dst kind cseq value) := by
  unfold Dev.creditFrame
  with_reducible repeat'
    first
      | intro x | assumption | apply Dev.Keeps.refl | apply Dev.Keeps.ite | apply Dev.Keeps.foldl
      | (show (_ : Bool) = _; decide +kernel) | (show _ ∈ _; decide +kernel) | (show _ < _; decide +kernel) | split
      | apply Dev.Keeps.set_arrived | dsimp only

theorem Dev.answerResync_keeps {d : Dev} {src dst : Nat} : Dev.Keeps [] [.arrived, .dwins] d (Dev.answerResync d src dst) := by
  unfold Dev.answerResync
  with_reducible repeat'
    first
      | intro x | assumption | apply Dev.Keeps.refl | apply Dev.Keeps.step Dev.creditFrame_keeps
      | apply Dev.Keeps.step Dev.setDwin_keeps | apply Dev.Keeps.ite | apply Dev.Keeps.foldl | (show (_ : Bool) = _; decide +kernel)
      | (show _ ∈ _; decide +kernel) | (show _ < _; decide +kernel) | split | dsimp only

theorem Dev.setReserved_keeps {d : Dev} {total : Nat} : Dev.Keeps [.BSN_RESERVED, .BSN_SHARED_SIZE] [] d (Dev.setReserved d total) := by
  unfold Dev.setReserved
  with_reducible repeat'
    first
      | intro x | assumption | apply Dev.Keeps.refl | apply Dev.Keeps.put | apply Dev.Keeps.ite | apply Dev.Keeps.foldl
      | (show (_ : Bool) = _; decide +kernel) | (show _ ∈ _; decide +kernel) | (show _ < _; decide +kernel) | split | dsimp only

theorem Dev.toSide_keeps {d : Dev} {q : Nat} {f : QFrame} {r : List QFrame} : Dev.Keeps [.WR_Q_DRR] [.ctrs, .outs, .queues] d
    (Dev.toSide d q f r) := by
  unfold Dev.toSide
  with_reducible repeat'
    first
      | intro x | assumption | apply Dev.Keeps.refl | apply Dev.Keeps.step Dev.count_keeps | apply Dev.Keeps.step Dev.leaveRound_keeps
      | apply Dev.Keeps.step Dev.setOut_keeps | apply Dev.Keeps.step Dev.setQueue_keeps | apply Dev.Keeps.ite | apply Dev.Keeps.foldl
      | (show (_ : Bool) = _; decide +kernel) | (show _ ∈ _; decide +kernel) | (show _ < _; decide +kernel) | split | dsimp only

theorem Dev.sideMove_keeps {d : Dev} {fuel q : Nat} : Dev.Keeps [.WR_Q_DRR] [.ctrs, .outs, .queues] d (d.sideMove fuel q) := by
  induction fuel generalizing d with
  | zero => exact .refl _ _ _
  | succ n ih =>
    unfold Dev.sideMove
    simp only
    split
    · exact .refl _ _ _
    · exact .ite (ih.step' (.step Dev.toSide_keeps (by decide +kernel) (by decide +kernel) (.refl _ _ _))) (.refl _ _ _)

theorem Dev.countQueue_keeps {d : Dev} {q e n : Nat} : Dev.Keeps [] [.ctrs] d (Dev.countQueue d q e n) := by
  unfold Dev.countQueue
  with_reducible repeat'
    first
      | intro x | assumption | apply Dev.Keeps.refl | apply Dev.Keeps.step Dev.count_keeps | apply Dev.Keeps.ite
      | apply Dev.Keeps.foldl | (show (_ : Bool) = _; decide +kernel) | (show _ ∈ _; decide +kernel) | (show _ < _; decide +kernel)
      | split | dsimp only

theorem Dev.receiveCells_keeps {d : Dev} {p : Nat} {f : Frame} : Dev.Keeps [] [.arrived, .dwins] d (Dev.receiveCells d p f) := by
  unfold Dev.receiveCells
  with_reducible repeat'
    first
      | intro x | assumption | apply Dev.Keeps.refl | apply Dev.Keeps.when | apply Dev.Keeps.step Dev.answerResync_keeps
      | apply Dev.Keeps.step Dev.setDwin_keeps | apply Dev.Keeps.ite | apply Dev.Keeps.foldl | (show (_ : Bool) = _; decide +kernel)
      | (show _ ∈ _; decide +kernel) | (show _ < _; decide +kernel) | split | dsimp only

theorem Dev.refuseFrame_keeps {d : Dev} {p q : Nat} {f : Frame} : Dev.Keeps (.BSN_EVENTS :: recordRegs) (.arrived :: .dwins :: .limited
    :: recordParts) d (Dev.refuseFrame d p q f) := by
  unfold Dev.refuseFrame
  with_reducible repeat'
    first
      | intro x | assumption | apply Dev.Keeps.refl | apply Dev.Keeps.put | apply Dev.Keeps.when
      | apply Dev.Keeps.step Dev.count_keeps | apply Dev.Keeps.step Dev.countQueue_keeps | apply Dev.Keeps.step Dev.owe_keeps
      | apply Dev.Keeps.step (Dev.raiseLimited_keeps ?_) | apply Dev.Keeps.step Dev.receiveCells_keeps | apply Dev.Keeps.ite
      | apply Dev.Keeps.foldl | (show (_ : Bool) = _; decide +kernel) | (show _ ∈ _; decide +kernel) | (show _ < _; decide +kernel)
      | split | dsimp only

theorem Dev.takeCells_keeps {d : Dev} {n : Nat} : Dev.Keeps [] [.cellsFree, .cellsUsed] d (Dev.takeCells d n).2 := by
  unfold Dev.takeCells
  with_reducible repeat'
    first
      | intro x | assumption | apply Dev.Keeps.refl | apply Dev.Keeps.ite | apply Dev.Keeps.foldl
      | (show (_ : Bool) = _; decide +kernel) | (show _ ∈ _; decide +kernel) | (show _ < _; decide +kernel) | split
      | apply Dev.Keeps.set_cellsFree_cellsUsed | apply Dev.Keeps.set_cellsFree | dsimp only

theorem Dev.enqueue_keeps {d : Dev} {p q ingress : Nat} {f : Frame} {r : Region} : Dev.Keeps [.PWR_WAKE] [.arrived, .cellsFree,
    .cellsUsed, .ctrs, .dwins, .lastTraffic, .latched, .outs, .queues, .trafficAt] d (Dev.enqueue d p q ingress f r) := by
  unfold Dev.enqueue
  with_reducible repeat'
    first
      | intro x | assumption | apply Dev.Keeps.refl | apply Dev.Keeps.when | apply Dev.Keeps.step Dev.count_keeps
      | apply Dev.Keeps.step Dev.noteWake_keeps | apply Dev.Keeps.step Dev.receiveCells_keeps | apply Dev.Keeps.step Dev.setOut_keeps
      | apply Dev.Keeps.step Dev.setQueue_keeps | apply Dev.Keeps.step Dev.takeCells_keeps | apply Dev.Keeps.ite
      | apply Dev.Keeps.foldl | (show (_ : Bool) = _; decide +kernel) | (show _ ∈ _; decide +kernel) | (show _ < _; decide +kernel)
      | split | apply Dev.Keeps.set_lastTraffic_trafficAt | refine Dev.Keeps.pair Dev.takeCells_keeps (by assumption) ?_ ?_ ?_
      | dsimp only

theorem Dev.enterBasin_keeps {d : Dev} {ingress p : Nat} {f : Frame} : Dev.Keeps (.BSN_EVENTS :: .RTE_EVENTS :: recordRegs) (.arrived ::
    .cellsFree :: .cellsUsed :: .dwins :: .lastTraffic :: .limited :: .outs :: .queues :: .trafficAt :: recordParts) d (Dev.enterBasin d
    ingress p f) := by
  unfold Dev.enterBasin
  with_reducible repeat'
    first
      | intro x | assumption | apply Dev.Keeps.refl | apply Dev.Keeps.step Dev.count_keeps | apply Dev.Keeps.step Dev.enqueue_keeps
      | apply Dev.Keeps.step Dev.owe_keeps | apply Dev.Keeps.step (Dev.raiseLimited_keeps ?_)
      | apply Dev.Keeps.step Dev.receiveCells_keeps | apply Dev.Keeps.step Dev.refuseFrame_keeps
      | apply Dev.Keeps.step countSquashed_keeps | apply Dev.Keeps.ite | apply Dev.Keeps.foldl | (show (_ : Bool) = _; decide +kernel)
      | (show _ ∈ _; decide +kernel) | (show _ < _; decide +kernel) | split | dsimp only

theorem countAged_keeps {q age : Nat} {d : Dev} {f : QFrame} : Dev.Keeps (.BSN_EVENTS :: recordRegs) (.limited :: recordParts) d
    (countAged q age d f) := by
  unfold countAged
  with_reducible repeat'
    first
      | intro x | assumption | apply Dev.Keeps.refl | apply Dev.Keeps.step Dev.count_keeps | apply Dev.Keeps.step Dev.countQueue_keeps
      | apply Dev.Keeps.step (Dev.raiseLimited_keeps ?_) | apply Dev.Keeps.ite | apply Dev.Keeps.foldl
      | (show (_ : Bool) = _; decide +kernel) | (show _ ∈ _; decide +kernel) | (show _ < _; decide +kernel) | split
      | apply Dev.Keeps.set_limited | dsimp only

theorem Dev.readyHead_keeps {d : Dev} {fuel q : Nat} : Dev.Keeps (.BSN_EVENTS :: .WR_Q_DRR :: recordRegs) (.cellsFree :: .dwins ::
    .limited :: .outs :: .queues :: recordParts) d (d.readyHead fuel q) := by
  induction fuel generalizing d with
  | zero => exact .refl _ _ _
  | succ n ih =>
    unfold Dev.readyHead
    simp only
    split
    · exact .refl _ _ _
    · exact .ite (ih.step' (.step Dev.leaveRound_keeps (by decide +kernel) (by decide +kernel)
        (.step countAged_keeps (by decide +kernel) (by decide +kernel)
          (.step Dev.leave_keeps (by decide +kernel) (by decide +kernel)
            (.step Dev.setQueue_keeps (by decide +kernel) (by decide +kernel) (.refl _ _ _))))))
        (.ite (ih.step' (.step Dev.toSide_keeps (by decide +kernel) (by decide +kernel) (.refl _ _ _))) (.refl _ _ _))

theorem Dev.refreshGrant_keeps {d : Dev} {p : Nat} : Dev.Keeps [.BSN_PORT_GRANT] [] d (Dev.refreshGrant d p) := by
  unfold Dev.refreshGrant
  with_reducible repeat'
    first
      | intro x | assumption | apply Dev.Keeps.refl | apply Dev.Keeps.put | apply Dev.Keeps.ite | apply Dev.Keeps.foldl
      | (show (_ : Bool) = _; decide +kernel) | (show _ ∈ _; decide +kernel) | (show _ < _; decide +kernel) | split | dsimp only

theorem Dev.ageHeads_keeps {d : Dev} {fuel q : Nat} : Dev.Keeps (.BSN_EVENTS :: .WR_Q_DRR :: recordRegs) (.cellsFree :: .dwins ::
    .limited :: .outs :: .queues :: recordParts) d (d.ageHeads fuel q) := by
  induction fuel generalizing d with
  | zero => exact .refl _ _ _
  | succ n ih =>
    unfold Dev.ageHeads
    simp only
    split
    · exact .refl _ _ _
    · exact .ite (ih.step' (.step Dev.leaveRound_keeps (by decide +kernel) (by decide +kernel)
        (.step countAged_keeps (by decide +kernel) (by decide +kernel)
          (.step Dev.leave_keeps (by decide +kernel) (by decide +kernel)
            (.step Dev.setQueue_keeps (by decide +kernel) (by decide +kernel) (.refl _ _ _)))))) (.refl _ _ _)

end Sys2Proof.Machine
end

