-- ==== Sys2Proof/Laws/KeepsWeir.lean ====
section
/-! SUPPORT. What each operation of Machine/Weir.lean may change: every register and structure outside the lists named stays as it was. -/

set_option Elab.async false
set_option linter.all false

namespace Sys2Proof.Machine

theorem Dev.setLink_keeps {d : Dev} {p : Nat} {f : Link → Link} : Dev.Keeps [] [.links] d (Dev.setLink d p f) := by
  unfold Dev.setLink
  with_reducible repeat'
    first
      | intro x | assumption | apply Dev.Keeps.refl | apply Dev.Keeps.ite | apply Dev.Keeps.foldl
      | (show (_ : Bool) = _; decide +kernel) | (show _ ∈ _; decide +kernel) | (show _ < _; decide +kernel) | split
      | apply Dev.Keeps.set_links | dsimp only

theorem Dev.emitFlit_keeps {d : Dev} {p type seq : Nat} {granules : List Byte} {descriptor : Nat} : Dev.Keeps [] [.out] d (Dev.emitFlit
    d p type seq granules descriptor) := by
  unfold Dev.emitFlit
  with_reducible repeat'
    first
      | intro x | assumption | apply Dev.Keeps.refl | apply Dev.Keeps.step Dev.emit_keeps | apply Dev.Keeps.ite
      | apply Dev.Keeps.foldl | (show (_ : Bool) = _; decide +kernel) | (show _ ∈ _; decide +kernel) | (show _ < _; decide +kernel)
      | split | dsimp only

theorem Dev.sendData_keeps {d : Dev} {p : Nat} {replayed : Bool} {f : TxFlit} : Dev.Keeps [] [.out] d (Dev.sendData d p replayed f) :=
    by
  unfold Dev.sendData
  with_reducible repeat'
    first
      | intro x | assumption | apply Dev.Keeps.refl | apply Dev.Keeps.step Dev.emitFlit_keeps | apply Dev.Keeps.ite
      | apply Dev.Keeps.foldl | (show (_ : Bool) = _; decide +kernel) | (show _ ∈ _; decide +kernel) | (show _ < _; decide +kernel)
      | split | dsimp only

theorem Dev.showOutstanding_keeps {d : Dev} {p : Nat} : Dev.Keeps [.FLL_REPLAY] [] d (Dev.showOutstanding d p) := by
  unfold Dev.showOutstanding
  with_reducible repeat'
    first
      | intro x | assumption | apply Dev.Keeps.refl | apply Dev.Keeps.put | apply Dev.Keeps.ite | apply Dev.Keeps.foldl
      | (show (_ : Bool) = _; decide +kernel) | (show _ ∈ _; decide +kernel) | (show _ < _; decide +kernel) | split | dsimp only

theorem Dev.valueRefused_keeps {d : Dev} {master addr : Nat} : Dev.Keeps recordRegs recordParts d (Dev.valueRefused d master addr) := by
  unfold Dev.valueRefused
  with_reducible repeat'
    first
      | intro x | assumption | apply Dev.Keeps.refl | apply Dev.Keeps.step Dev.accessRecord_keeps | apply Dev.Keeps.ite
      | apply Dev.Keeps.foldl | (show (_ : Bool) = _; decide +kernel) | (show _ ∈ _; decide +kernel) | (show _ < _; decide +kernel)
      | split | dsimp only

theorem Dev.showGates_keeps {d : Dev} {p : Nat} : Dev.Keeps [.WR_GATE_STATUS] [] d (Dev.showGates d p) := by
  unfold Dev.showGates
  with_reducible repeat'
    first
      | intro x | assumption | apply Dev.Keeps.refl | apply Dev.Keeps.put | apply Dev.Keeps.mark | apply Dev.Keeps.ite
      | apply Dev.Keeps.foldl | (show (_ : Bool) = _; decide +kernel) | (show _ ∈ _; decide +kernel) | (show _ < _; decide +kernel)
      | split | dsimp only

theorem Dev.lateness_keeps {d : Dev} {p late : Nat} : Dev.Keeps (.WR_GATE_STAT :: .WR_PORT_EVENTS :: recordRegs) (.limited ::
    recordParts) d (Dev.lateness d p late) := by
  unfold Dev.lateness
  with_reducible repeat'
    first
      | intro x | assumption | apply Dev.Keeps.refl | apply Dev.Keeps.put | apply Dev.Keeps.when | apply Dev.Keeps.bump
      | apply Dev.Keeps.step Dev.count_keeps | apply Dev.Keeps.step (Dev.raiseLimited_keeps ?_) | apply Dev.Keeps.ite
      | apply Dev.Keeps.foldl | (show (_ : Bool) = _; decide +kernel) | (show _ ∈ _; decide +kernel) | (show _ < _; decide +kernel)
      | split | dsimp only

theorem Dev.auditGate_keeps {d : Dev} {p : Nat} {was : Bool} : Dev.Keeps (.WR_GATE_STAT :: .WR_PORT_EVENTS :: recordRegs) (.limited ::
    .outs :: recordParts) d (Dev.auditGate d p was) := by
  unfold Dev.auditGate
  with_reducible repeat'
    first
      | intro x | assumption | apply Dev.Keeps.refl | apply Dev.Keeps.when | apply Dev.Keeps.step Dev.count_keeps
      | apply Dev.Keeps.step Dev.lateness_keeps | apply Dev.Keeps.step (Dev.raise_keeps ?_) | apply Dev.Keeps.step Dev.setOut_keeps
      | apply Dev.Keeps.ite | apply Dev.Keeps.foldl | (show (_ : Bool) = _; decide +kernel) | (show _ ∈ _; decide +kernel)
      | (show _ < _; decide +kernel) | split | dsimp only

theorem Dev.gateBoundary_keeps {d : Dev} {p : Nat} : Dev.Keeps (.WR_GATE_STAT :: .WR_GATE_STATUS :: .WR_PORT_EVENTS :: recordRegs)
    (.limited :: .outs :: recordParts) d (Dev.gateBoundary d p) := by
  unfold Dev.gateBoundary
  with_reducible repeat'
    first
      | intro x | assumption | apply Dev.Keeps.refl | apply Dev.Keeps.step Dev.auditGate_keeps
      | apply Dev.Keeps.step Dev.showGates_keeps | apply Dev.Keeps.ite | apply Dev.Keeps.foldl | (show (_ : Bool) = _; decide +kernel)
      | (show _ ∈ _; decide +kernel) | (show _ < _; decide +kernel) | split | dsimp only

theorem Dev.setShaper_keeps {d : Dev} {n : Nat} {x : Shaper} : Dev.Keeps [] [.shapers] d (Dev.setShaper d n x) := by
  unfold Dev.setShaper
  with_reducible repeat'
    first
      | intro x | assumption | apply Dev.Keeps.refl | apply Dev.Keeps.ite | apply Dev.Keeps.foldl
      | (show (_ : Bool) = _; decide +kernel) | (show _ ∈ _; decide +kernel) | (show _ < _; decide +kernel) | split
      | apply Dev.Keeps.set_shapers | dsimp only

theorem Dev.commitShaper_keeps {d : Dev} {n rate : Nat} {full : Bool} : Dev.Keeps [.WR_SHP_RATE] [.shapers] d (Dev.commitShaper d n rate
    full) := by
  unfold Dev.commitShaper
  with_reducible repeat'
    first
      | intro x | assumption | apply Dev.Keeps.refl | apply Dev.Keeps.put | apply Dev.Keeps.mark
      | apply Dev.Keeps.step Dev.setShaper_keeps | apply Dev.Keeps.ite | apply Dev.Keeps.foldl | (show (_ : Bool) = _; decide +kernel)
      | (show _ ∈ _; decide +kernel) | (show _ < _; decide +kernel) | split | dsimp only

theorem Dev.recomputeGuard_keeps {d : Dev} {p : Nat} : Dev.Keeps [.WR_GATE_STATUS, .WR_PORT_GUARD] [] d (Dev.recomputeGuard d p) := by
  unfold Dev.recomputeGuard
  with_reducible repeat'
    first
      | intro x | assumption | apply Dev.Keeps.refl | apply Dev.Keeps.put | apply Dev.Keeps.step Dev.showGates_keeps
      | apply Dev.Keeps.ite | apply Dev.Keeps.foldl | (show (_ : Bool) = _; decide +kernel) | (show _ ∈ _; decide +kernel)
      | (show _ < _; decide +kernel) | split | dsimp only

theorem Dev.gateStart_keeps {d : Dev} {p : Nat} : Dev.Keeps (.WR_GATE_STAT :: .WR_GATE_STATUS :: .WR_PORT_EVENTS :: .WR_PORT_GUARD ::
    recordRegs) (.limited :: .outs :: recordParts) d (Dev.gateStart d p) := by
  unfold Dev.gateStart
  with_reducible repeat'
    first
      | intro x | assumption | apply Dev.Keeps.refl | apply Dev.Keeps.put | apply Dev.Keeps.mark
      | apply Dev.Keeps.step Dev.auditGate_keeps | apply Dev.Keeps.step Dev.recomputeGuard_keeps
      | apply Dev.Keeps.step Dev.setOut_keeps | apply Dev.Keeps.ite | apply Dev.Keeps.foldl | (show (_ : Bool) = _; decide +kernel)
      | (show _ ∈ _; decide +kernel) | (show _ < _; decide +kernel) | split | dsimp only

theorem Dev.departed_keeps {d : Dev} {p : Nat} : Dev.Keeps [] [.time] d (Dev.departed d p) := by
  unfold Dev.departed
  with_reducible repeat'
    first
      | intro x | assumption | apply Dev.Keeps.refl | apply Dev.Keeps.when | apply Dev.Keeps.ite | apply Dev.Keeps.foldl
      | (show (_ : Bool) = _; decide +kernel) | (show _ ∈ _; decide +kernel) | (show _ < _; decide +kernel) | split
      | apply Dev.Keeps.set_time | dsimp only

theorem Dev.pumpFlits_keeps {d : Dev} {fuel p : Nat} {flush : Bool} : Dev.Keeps [.FLL_REPLAY, .FLL_SEQ] [.links, .out] d (d.pumpFlits
    fuel p flush) := by
  induction fuel generalizing d with
  | zero => exact .refl _ _ _
  | succ n ih =>
    unfold Dev.pumpFlits
    dsimp only
    refine .ite (ih.step' ?_) (.refl _ _ _)
    exact .step Dev.sendData_keeps (by decide +kernel) (by decide +kernel)
      (.step Dev.showOutstanding_keeps (by decide +kernel) (by decide +kernel)
        (.put _ _ _ (by decide) (by decide) (.step Dev.setLink_keeps (by decide +kernel) (by decide +kernel) (.refl _ _ _))))

theorem Dev.pump_keeps {d : Dev} {p : Nat} {flush : Bool} : Dev.Keeps [.FLL_REPLAY, .FLL_SEQ] [.links, .out] d (Dev.pump d p flush) :=
    by
  unfold Dev.pump
  with_reducible repeat'
    first
      | intro x | assumption | apply Dev.Keeps.refl | apply Dev.Keeps.step Dev.pumpFlits_keeps | apply Dev.Keeps.ite
      | apply Dev.Keeps.foldl | (show (_ : Bool) = _; decide +kernel) | (show _ ∈ _; decide +kernel) | (show _ < _; decide +kernel)
      | split | dsimp only

theorem Dev.armGate_keeps {d : Dev} {p : Nat} : Dev.Keeps (.WR_GATE_STATUS :: .WR_PORT_EVENTS :: recordRegs) (.outs :: recordParts) d
    (Dev.armGate d p).2 := by
  unfold Dev.armGate
  with_reducible repeat'
    first
      | intro x | assumption | apply Dev.Keeps.refl | apply Dev.Keeps.put | apply Dev.Keeps.when
      | apply Dev.Keeps.step Dev.count_keeps | apply Dev.Keeps.step (Dev.raise_keeps ?_) | apply Dev.Keeps.step Dev.setOut_keeps
      | apply Dev.Keeps.ite | apply Dev.Keeps.foldl | (show (_ : Bool) = _; decide +kernel) | (show _ ∈ _; decide +kernel)
      | (show _ < _; decide +kernel) | split | dsimp only

theorem Dev.noteSmall_keeps {d : Dev} {p q : Nat} : Dev.Keeps [] [.outs] d (Dev.noteSmall d p q) := by
  unfold Dev.noteSmall
  with_reducible repeat'
    first
      | intro x | assumption | apply Dev.Keeps.refl | apply Dev.Keeps.when | apply Dev.Keeps.step Dev.setOut_keeps
      | apply Dev.Keeps.ite | apply Dev.Keeps.foldl | (show (_ : Bool) = _; decide +kernel) | (show _ ∈ _; decide +kernel)
      | (show _ < _; decide +kernel) | split | dsimp only

theorem Dev.linkSend_keeps {d : Dev} {p : Nat} {f : Frame} : Dev.Keeps [.FLL_REPLAY, .FLL_SEQ] [.links, .out, .time] d (Dev.linkSend d p
    f) := by
  unfold Dev.linkSend
  with_reducible repeat'
    first
      | intro x | assumption | apply Dev.Keeps.refl | apply Dev.Keeps.when | apply Dev.Keeps.step Dev.departed_keeps
      | apply Dev.Keeps.step Dev.emit_keeps | apply Dev.Keeps.step Dev.pump_keeps | apply Dev.Keeps.step Dev.setLink_keeps
      | apply Dev.Keeps.ite | apply Dev.Keeps.foldl | (show (_ : Bool) = _; decide +kernel) | (show _ ∈ _; decide +kernel)
      | (show _ < _; decide +kernel) | split | dsimp only

theorem Dev.sendOut_keeps {d : Dev} {p : Nat} {f : Frame} : Dev.Keeps [.FLL_REPLAY, .FLL_SEQ] [.ctrs, .egress, .links, .out, .time] d
    (Dev.sendOut d p f) := by
  unfold Dev.sendOut
  with_reducible repeat'
    first
      | intro x | assumption | apply Dev.Keeps.refl | apply Dev.Keeps.when | apply Dev.Keeps.step Dev.count_keeps
      | apply Dev.Keeps.step Dev.emit_keeps | apply Dev.Keeps.step Dev.linkSend_keeps | apply Dev.Keeps.ite | apply Dev.Keeps.foldl
      | (show (_ : Bool) = _; decide +kernel) | (show _ ∈ _; decide +kernel) | (show _ < _; decide +kernel) | split
      | apply Dev.Keeps.set_egress | dsimp only

theorem Dev.writeShpRate_keeps {d : Dev} {master v : Nat} : Dev.Keeps (.WR_SHP_RATE :: recordRegs) (.shapers :: recordParts) d
    (Dev.writeShpRate d master v) := by
  unfold Dev.writeShpRate
  with_reducible repeat'
    first
      | intro x | assumption | apply Dev.Keeps.refl | apply Dev.Keeps.step Dev.commitShaper_keeps
      | apply Dev.Keeps.step Dev.valueRefused_keeps | apply Dev.Keeps.ite | apply Dev.Keeps.foldl
      | (show (_ : Bool) = _; decide +kernel) | (show _ ∈ _; decide +kernel) | (show _ < _; decide +kernel) | split | dsimp only

theorem Dev.readCells_keeps {d : Dev} {q : Nat} {qf : QFrame} {e : CellError} : Dev.Keeps (.BSN_EVENTS :: recordRegs) (.masked ::
    recordParts) d (Dev.readCells d q qf e).2 := by
  unfold Dev.readCells
  with_reducible repeat'
    first
      | intro x | assumption | apply Dev.Keeps.refl | apply Dev.Keeps.step Dev.count_keeps | apply Dev.Keeps.step Dev.mask_keeps
      | apply Dev.Keeps.step (Dev.raise_keeps ?_) | apply Dev.Keeps.ite | apply Dev.Keeps.foldl
      | (show (_ : Bool) = _; decide +kernel) | (show _ ∈ _; decide +kernel) | (show _ < _; decide +kernel) | split | dsimp only

theorem Dev.readInjected_keeps {d : Dev} {q : Nat} {f : QFrame} {e : CellError} : Dev.Keeps (.BSN_EVENTS :: .SLC_INJ_ARMED :: .TEL_MODE
    :: recordRegs) (.injecting :: .injections :: .masked :: recordParts) d (Dev.readInjected d q f e).2 := by
  unfold Dev.readInjected
  with_reducible repeat'
    first
      | intro x | assumption | apply Dev.Keeps.refl | apply Dev.Keeps.step Dev.consume_keeps
      | apply Dev.Keeps.step Dev.readCells_keeps | apply Dev.Keeps.ite | apply Dev.Keeps.foldl | (show (_ : Bool) = _; decide +kernel)
      | (show _ ∈ _; decide +kernel) | (show _ < _; decide +kernel) | split | apply Dev.Keeps.set_injecting
      | refine Dev.Keeps.pair Dev.readCells_keeps (by assumption) ?_ ?_ ?_ | dsimp only

theorem Dev.curatorOnly_keeps {R : List Reg} {P : List Part} {a d : Dev} {master addr : Nat} {f : Dev → Dev}
    (hR : Reg.among recordRegs R = true) (hP : Part.among recordParts P = true) (hd : Dev.Keeps R P a d)
    (hf : ∀ e, Dev.Keeps R P a e → Dev.Keeps R P a (f e)) : Dev.Keeps R P a (d.curatorOnly master addr f) := by
  unfold Dev.curatorOnly
  exact .ite (hf _ hd) (.step Dev.accessRecord_keeps hR hP hd)

theorem Dev.sendIdle_keeps {d : Dev} {p : Nat} : Dev.Keeps [] [.out] d (Dev.sendIdle d p) := by
  unfold Dev.sendIdle
  with_reducible repeat'
    first
      | intro x | assumption | apply Dev.Keeps.refl | apply Dev.Keeps.step Dev.emitFlit_keeps | apply Dev.Keeps.ite
      | apply Dev.Keeps.foldl | (show (_ : Bool) = _; decide +kernel) | (show _ ∈ _; decide +kernel) | (show _ < _; decide +kernel)
      | split | dsimp only

theorem Dev.turnWheel_keeps {d : Dev} : Dev.Keeps [] [.shapers] d (Dev.turnWheel d) := by
  unfold Dev.turnWheel
  with_reducible repeat'
    first
      | intro x | assumption | apply Dev.Keeps.refl | apply Dev.Keeps.forEach | apply Dev.Keeps.step Dev.setShaper_keeps
      | apply Dev.Keeps.ite | apply Dev.Keeps.foldl | (show (_ : Bool) = _; decide +kernel) | (show _ ∈ _; decide +kernel)
      | (show _ < _; decide +kernel) | split | dsimp only

theorem Dev.writeGateCount_keeps {d : Dev} {master p k v : Nat} : Dev.Keeps (.GATE_COUNT :: .WR_GATE_STATUS :: .WR_PORT_EVENTS ::
    .WR_PORT_GUARD :: recordRegs) (.outs :: recordParts) d (Dev.writeGateCount d master p k v) := by
  unfold Dev.writeGateCount
  with_reducible repeat'
    first
      | intro x | assumption | apply Dev.Keeps.refl | apply Dev.Keeps.put | apply Dev.Keeps.step Dev.armGate_keeps
      | apply Dev.Keeps.step Dev.recomputeGuard_keeps | apply Dev.Keeps.step Dev.valueRefused_keeps | apply Dev.Keeps.ite
      | apply Dev.Keeps.foldl | (show (_ : Bool) = _; decide +kernel) | (show _ ∈ _; decide +kernel) | (show _ < _; decide +kernel)
      | split | refine Dev.Keeps.pair Dev.armGate_keeps (by assumption) ?_ ?_ ?_ | dsimp only

theorem Dev.gatesNow_keeps {d : Dev} {p : Nat} : Dev.Keeps (.WR_GATE_STAT :: .WR_GATE_STATUS :: .WR_PORT_EVENTS :: .WR_PORT_GUARD ::
    recordRegs) (.limited :: .outs :: recordParts) d (Dev.gatesNow d p) := by
  unfold Dev.gatesNow
  with_reducible repeat'
    first
      | intro x | assumption | apply Dev.Keeps.refl | apply Dev.Keeps.when | apply Dev.Keeps.step Dev.gateBoundary_keeps
      | apply Dev.Keeps.step Dev.gateStart_keeps | apply Dev.Keeps.ite | apply Dev.Keeps.foldl | (show (_ : Bool) = _; decide +kernel)
      | (show _ ∈ _; decide +kernel) | (show _ < _; decide +kernel) | split | dsimp only

theorem Dev.startS_keeps {d : Dev} {p n : Nat} : Dev.Keeps (.WR_GATE_STAT :: .WR_PORT_EVENTS :: recordRegs) (.limited :: .outs ::
    recordParts) d (Dev.startS d p n) := by
  unfold Dev.startS
  with_reducible repeat'
    first
      | intro x | assumption | apply Dev.Keeps.refl | apply Dev.Keeps.step Dev.lateness_keeps | apply Dev.Keeps.step Dev.setOut_keeps
      | apply Dev.Keeps.ite | apply Dev.Keeps.foldl | (show (_ : Bool) = _; decide +kernel) | (show _ ∈ _; decide +kernel)
      | (show _ < _; decide +kernel) | split | dsimp only

theorem Dev.replayStall_keeps {d : Dev} {p : Nat} : Dev.Keeps (.FLL_EVENTS :: recordRegs) (.links :: recordParts) d (Dev.replayStall d
    p) := by
  unfold Dev.replayStall
  with_reducible repeat'
    first
      | intro x | assumption | apply Dev.Keeps.refl | apply Dev.Keeps.when | apply Dev.Keeps.step Dev.count_keeps
      | apply Dev.Keeps.step (Dev.raise_keeps ?_) | apply Dev.Keeps.step Dev.sendIdle_keeps | apply Dev.Keeps.step Dev.setLink_keeps
      | apply Dev.Keeps.ite | apply Dev.Keeps.foldl | (show (_ : Bool) = _; decide +kernel) | (show _ ∈ _; decide +kernel)
      | (show _ < _; decide +kernel) | split | dsimp only

theorem Dev.readyPort_keeps {d : Dev} {p : Nat} : Dev.Keeps (.BSN_EVENTS :: .WR_GATE_STAT :: .WR_GATE_STATUS :: .WR_PORT_EVENTS ::
    .WR_PORT_GUARD :: .WR_Q_DRR :: recordRegs) (.cellsFree :: .dwins :: .limited :: .outs :: .queues :: .shapers :: recordParts) d
    (Dev.readyPort d p) := by
  unfold Dev.readyPort
  with_reducible repeat'
    first
      | intro x | assumption | apply Dev.Keeps.refl | apply Dev.Keeps.forEach | apply Dev.Keeps.step Dev.gatesNow_keeps
      | apply Dev.Keeps.step Dev.readyHead_keeps | apply Dev.Keeps.step Dev.turnWheel_keeps | apply Dev.Keeps.ite
      | apply Dev.Keeps.foldl | (show (_ : Bool) = _; decide +kernel) | (show _ ∈ _; decide +kernel) | (show _ < _; decide +kernel)
      | split | dsimp only

theorem Dev.debit_keeps {d : Dev} {q bytes : Nat} : Dev.Keeps [] [.shapers] d (Dev.debit d q bytes) := by
  unfold Dev.debit
  with_reducible repeat'
    first
      | intro x | assumption | apply Dev.Keeps.refl | apply Dev.Keeps.step Dev.setShaper_keeps | apply Dev.Keeps.ite
      | apply Dev.Keeps.foldl | (show (_ : Bool) = _; decide +kernel) | (show _ ∈ _; decide +kernel) | (show _ < _; decide +kernel)
      | split | dsimp only

theorem Dev.serve_keeps {d : Dev} {p q : Nat} {e : CellError} : Dev.Keeps (.BSN_EVENTS :: .FLL_REPLAY :: .FLL_SEQ :: .SLC_INJ_ARMED ::
    .TEL_MODE :: .WR_GATE_STAT :: .WR_PORT_EVENTS :: .WR_Q_DRR :: recordRegs) (.cellsFree :: .dwins :: .egress :: .injecting ::
    .injections :: .limited :: .links :: .masked :: .outs :: .queues :: .shapers :: .time :: recordParts) d (Dev.serve d p q e) := by
  unfold Dev.serve
  with_reducible repeat'
    first
      | intro x | assumption | apply Dev.Keeps.refl | apply Dev.Keeps.when | apply Dev.Keeps.step Dev.countQueue_keeps
      | apply Dev.Keeps.step Dev.debit_keeps | apply Dev.Keeps.step Dev.leave_keeps | apply Dev.Keeps.step Dev.leaveLost_keeps
      | apply Dev.Keeps.step Dev.leaveRound_keeps | apply Dev.Keeps.step Dev.readInjected_keeps
      | apply Dev.Keeps.step Dev.sendOut_keeps | apply Dev.Keeps.step Dev.setQueue_keeps | apply Dev.Keeps.step Dev.startS_keeps
      | apply Dev.Keeps.ite | apply Dev.Keeps.foldl | (show (_ : Bool) = _; decide +kernel) | (show _ ∈ _; decide +kernel)
      | (show _ < _; decide +kernel) | split | refine Dev.Keeps.pair Dev.readInjected_keeps (by assumption) ?_ ?_ ?_ | dsimp only

theorem Dev.selectDrr_keeps {d : Dev} {fuel p : Nat} : Dev.Keeps [.WR_Q_DRR] [.outs] d (d.selectDrr fuel p).2 := by
  induction fuel generalizing d with
  | zero => exact .refl _ _ _
  | succ n ih =>
    unfold Dev.selectDrr
    simp only
    generalize (d.outPort p).drr = l
    by_cases hu : (!l.any d.usable) = true
    · simpa [hu] using Dev.Keeps.refl _ _ _
    · simp only [hu, Bool.false_eq_true, if_false]
      split
      · rename_i q r f _
        generalize hd : (if (d.usable q && !d.is WR_Q_DRR.STARTED q) = true then
            (d.put WR_Q_DRR.DEFICIT q (d.get WR_Q_DRR.DEFICIT q + d.quantum q)).put WR_Q_DRR.STARTED q 1 else d) = e
        have h : Dev.Keeps [.WR_Q_DRR] [.outs] d e := by
          rw [← hd]
          exact .ite (.put _ _ _ (by decide) (by decide) (.put _ _ _ (by decide) (by decide) (.refl _ _ _))) (.refl _ _ _)
        split
        · exact .put _ _ _ (by decide) (by decide) h
        · exact ih.step' (.step Dev.setOut_keeps (by decide +kernel) (by decide +kernel) (.put _ _ _ (by decide) (by decide) h))
      · exact .refl _ _ _

theorem Dev.selectQueue_keeps {d : Dev} {p : Nat} : Dev.Keeps [.WR_Q_DRR] [.outs] d (Dev.selectQueue d p).2 := by
  unfold Dev.selectQueue
  with_reducible repeat'
    first
      | intro x | assumption | apply Dev.Keeps.refl | apply Dev.Keeps.step Dev.selectDrr_keeps | apply Dev.Keeps.step Dev.setOut_keeps
      | apply Dev.Keeps.ite | apply Dev.Keeps.foldl | (show (_ : Bool) = _; decide +kernel) | (show _ ∈ _; decide +kernel)
      | (show _ < _; decide +kernel) | split | refine Dev.Keeps.pair Dev.selectDrr_keeps (by assumption) ?_ ?_ ?_ | dsimp only

end Sys2Proof.Machine
end

