-- ==== Sys2Proof/Laws/KeepsRouting.lean ====
section
/-! SUPPORT. What each operation of Machine/Routing.lean may change: every register and structure outside the lists named stays as it was. -/

set_option Elab.async false
set_option linter.all false

namespace Sys2Proof.Machine

theorem Dev.arrive_keeps {d : Dev} {ingress : Nat} {f : Frame} : Dev.Keeps [] [.arrived] d (Dev.arrive d ingress f) := by
  unfold Dev.arrive
  with_reducible repeat'
    first
      | intro x | assumption | apply Dev.Keeps.refl | apply Dev.Keeps.ite | apply Dev.Keeps.foldl
      | (show (_ : Bool) = _; decide +kernel) | (show _ ∈ _; decide +kernel) | (show _ < _; decide +kernel) | split
      | apply Dev.Keeps.set_arrived | dsimp only

theorem Dev.startDrain_keeps {d : Dev} {src dst tcut : Nat} : Dev.Keeps [] [.arrived, .wins] d (Dev.startDrain d src dst tcut) := by
  unfold Dev.startDrain
  with_reducible repeat'
    first
      | intro x | assumption | apply Dev.Keeps.refl | apply Dev.Keeps.forEach | apply Dev.Keeps.step Dev.arrive_keeps
      | apply Dev.Keeps.ite | apply Dev.Keeps.foldl | (show (_ : Bool) = _; decide +kernel) | (show _ ∈ _; decide +kernel)
      | (show _ < _; decide +kernel) | split | apply Dev.Keeps.set_wins | dsimp only

theorem Dev.mgmt_keeps {d : Dev} {p dst : Nat} {m : MgmtMsg} : Dev.Keeps [] [.arrived] d (Dev.mgmt d p dst m) := by
  unfold Dev.mgmt
  with_reducible repeat'
    first
      | intro x | assumption | apply Dev.Keeps.refl | apply Dev.Keeps.step Dev.arrive_keeps | apply Dev.Keeps.ite
      | apply Dev.Keeps.foldl | (show (_ : Bool) = _; decide +kernel) | (show _ ∈ _; decide +kernel) | (show _ < _; decide +kernel)
      | split | dsimp only

theorem Dev.tell_keeps {d : Dev} {modul : Nat} {m : MgmtMsg} : Dev.Keeps [] [.arrived] d (Dev.tell d modul m) := by
  unfold Dev.tell
  with_reducible repeat'
    first
      | intro x | assumption | apply Dev.Keeps.refl | apply Dev.Keeps.step Dev.mgmt_keeps | apply Dev.Keeps.ite
      | apply Dev.Keeps.foldl | (show (_ : Bool) = _; decide +kernel) | (show _ ∈ _; decide +kernel) | (show _ < _; decide +kernel)
      | split | dsimp only

theorem Dev.discardToward_keeps {d : Dev} {p : Nat} : Dev.Keeps [.WR_Q_DRR] [.cellsFree, .ctrs, .dwins, .outs, .queues] d
    (Dev.discardToward d p) := by
  unfold Dev.discardToward
  with_reducible repeat'
    first
      | intro x | assumption | apply Dev.Keeps.refl | apply Dev.Keeps.forEach | apply Dev.dropFrames_keeps | apply Dev.Keeps.ite
      | apply Dev.Keeps.foldl | (show (_ : Bool) = _; decide +kernel) | (show _ ∈ _; decide +kernel) | (show _ < _; decide +kernel)
      | split | dsimp only

theorem Dev.tellRegistrar_keeps {d : Dev} {m : MgmtMsg} : Dev.Keeps [] [.arrived] d (Dev.tellRegistrar d m) := by
  unfold Dev.tellRegistrar
  with_reducible repeat'
    first
      | intro x | assumption | apply Dev.Keeps.refl | apply Dev.Keeps.step Dev.tell_keeps | apply Dev.Keeps.ite
      | apply Dev.Keeps.foldl | (show (_ : Bool) = _; decide +kernel) | (show _ ∈ _; decide +kernel) | (show _ < _; decide +kernel)
      | split | dsimp only

theorem Dev.withdrawLink_keeps {d : Dev} {p : Nat} : Dev.Keeps (.PIN_CTL :: .PIN_OLD :: .RTE_EVENTS :: .RTE_GRP_SLOT :: .WR_Q_DRR ::
    recordRegs) (.arrived :: .cellsFree :: .dwins :: .outs :: .pins :: .queues :: recordParts) d (Dev.withdrawLink d p) := by
  unfold Dev.withdrawLink
  with_reducible repeat'
    first
      | intro x | assumption | apply Dev.Keeps.refl | apply Dev.Keeps.mark | apply Dev.Keeps.forEach | apply Dev.Keeps.put
      | apply Dev.Keeps.step Dev.count_keeps | apply Dev.Keeps.step Dev.discardToward_keeps
      | apply Dev.Keeps.step (Dev.raise_keeps ?_) | apply Dev.Keeps.step Dev.tellRegistrar_keeps | apply Dev.Keeps.ite
      | apply Dev.Keeps.foldl | (show (_ : Bool) = _; decide +kernel) | (show _ ∈ _; decide +kernel) | (show _ < _; decide +kernel)
      | split | apply Dev.Keeps.set_pins | dsimp only

theorem Dev.setPin_keeps {d : Dev} {n : Nat} {e : Pin} : Dev.Keeps [.PIN_CTL, .PIN_DST, .PIN_OLD, .PIN_SRC, .PIN_TCUT_HI, .PIN_TCUT_LO]
    [.pins] d (Dev.setPin d n e) := by
  unfold Dev.setPin
  with_reducible repeat'
    first
      | intro x | assumption | apply Dev.Keeps.refl | apply Dev.Keeps.put64 | apply Dev.Keeps.mark | apply Dev.Keeps.put
      | apply Dev.Keeps.ite | apply Dev.Keeps.foldl | (show (_ : Bool) = _; decide +kernel) | (show _ ∈ _; decide +kernel)
      | (show _ < _; decide +kernel) | split | apply Dev.Keeps.set_pins | dsimp only

theorem Dev.setAtt_keeps {d : Dev} {n : Nat} {e : Att} : Dev.Keeps [.ATT_CTL, .ATT_EP_HI, .ATT_EP_LO, .ATT_FPID, .ATT_HOST_HI,
    .ATT_HOST_LO] [.atts] d (Dev.setAtt d n e) := by
  unfold Dev.setAtt
  with_reducible repeat'
    first
      | intro x | assumption | apply Dev.Keeps.refl | apply Dev.Keeps.put64 | apply Dev.Keeps.mark | apply Dev.Keeps.put
      | apply Dev.Keeps.ite | apply Dev.Keeps.foldl | (show (_ : Bool) = _; decide +kernel) | (show _ ∈ _; decide +kernel)
      | (show _ < _; decide +kernel) | split | apply Dev.Keeps.set_atts | dsimp only

theorem Dev.routeDrop_keeps {d : Dev} {ingress ctr : Nat} {f : Fld} {gvh : Nat} (hlo : f.lo < 32) :
    Dev.Keeps (f.reg :: recordRegs) (.limited :: recordParts) d (d.routeDrop ingress ctr f gvh) :=
  (Dev.count_keeps.mono (List.nil_subset _) (Part.subset_of_among (by decide +kernel))).trans (Dev.raiseLimited_keeps hlo)

theorem Dev.takeEdge_keeps {d : Dev} {p : Nat} : Dev.Keeps recordRegs (.arrived :: .edges :: .edgesOut :: recordParts) d (Dev.takeEdge d
    p) := by
  unfold Dev.takeEdge
  with_reducible repeat'
    first
      | intro x | assumption | apply Dev.Keeps.refl | apply Dev.Keeps.step Dev.recordUncoded_keeps
      | apply Dev.Keeps.step Dev.tellRegistrar_keeps | apply Dev.Keeps.ite | apply Dev.Keeps.foldl
      | (show (_ : Bool) = _; decide +kernel) | (show _ ∈ _; decide +kernel) | (show _ < _; decide +kernel) | split
      | apply Dev.Keeps.set_edges_edgesOut | apply Dev.Keeps.set_edgesOut | dsimp only

theorem Dev.activatePins_keeps {d : Dev} : Dev.Keeps [.PIN_CTL, .PIN_DST, .PIN_OLD, .PIN_SRC, .PIN_TCUT_HI, .PIN_TCUT_LO] [.arrived,
    .ctrs, .pins, .wins] d (Dev.activatePins d) := by
  unfold Dev.activatePins
  with_reducible repeat'
    first
      | intro x | assumption | apply Dev.Keeps.refl | apply Dev.Keeps.when | apply Dev.Keeps.forEach
      | apply Dev.Keeps.step Dev.count_keeps | apply Dev.Keeps.step Dev.setPin_keeps | apply Dev.Keeps.step Dev.startDrain_keeps
      | apply Dev.Keeps.ite | apply Dev.Keeps.foldl | (show (_ : Bool) = _; decide +kernel) | (show _ ∈ _; decide +kernel)
      | (show _ < _; decide +kernel) | split | apply Dev.Keeps.set_wins | dsimp only

theorem Dev.endDrain_keeps {d : Dev} {w : Nat} {cls : Cls} : Dev.Keeps [] [.wins] d (Dev.endDrain d w cls) := by
  unfold Dev.endDrain
  with_reducible repeat'
    first
      | intro x | assumption | apply Dev.Keeps.refl | apply Dev.Keeps.ite | apply Dev.Keeps.foldl
      | (show (_ : Bool) = _; decide +kernel) | (show _ ∈ _; decide +kernel) | (show _ < _; decide +kernel) | split
      | apply Dev.Keeps.set_wins | dsimp only

theorem Dev.writeSlot_keeps {d : Dev} {i v : Nat} : Dev.Keeps [.RTE_GRP_SLOT] [] d (Dev.writeSlot d i v) := by
  unfold Dev.writeSlot
  with_reducible repeat'
    first
      | intro x | assumption | apply Dev.Keeps.refl | apply Dev.Keeps.put | apply Dev.Keeps.mark | apply Dev.Keeps.ite
      | apply Dev.Keeps.foldl | (show (_ : Bool) = _; decide +kernel) | (show _ ∈ _; decide +kernel) | (show _ < _; decide +kernel)
      | split | dsimp only

theorem Dev.writePin_keeps {d : Dev} {n v : Nat} : Dev.Keeps [.PIN_CTL] [.arrived, .pins] d (Dev.writePin d n v) := by
  unfold Dev.writePin
  with_reducible repeat'
    first
      | intro x | assumption | apply Dev.Keeps.refl | apply Dev.Keeps.mark | apply Dev.Keeps.when | apply Dev.Keeps.put
      | apply Dev.Keeps.step Dev.tellRegistrar_keeps | apply Dev.Keeps.ite | apply Dev.Keeps.foldl
      | (show (_ : Bool) = _; decide +kernel) | (show _ ∈ _; decide +kernel) | (show _ < _; decide +kernel) | split
      | apply Dev.Keeps.set_pins | dsimp only

theorem Dev.writeAtt_keeps {d : Dev} {n v : Nat} : Dev.Keeps [.ATT_CTL] [.atts] d (Dev.writeAtt d n v) := by
  unfold Dev.writeAtt
  with_reducible repeat'
    first
      | intro x | assumption | apply Dev.Keeps.refl | apply Dev.Keeps.mark | apply Dev.Keeps.put | apply Dev.Keeps.ite
      | apply Dev.Keeps.foldl | (show (_ : Bool) = _; decide +kernel) | (show _ ∈ _; decide +kernel) | (show _ < _; decide +kernel)
      | split | apply Dev.Keeps.set_atts | dsimp only

theorem Dev.route_keeps {d : Dev} {ingress : Nat} {f : Frame} : Dev.Keeps (.RTE_EVENTS :: recordRegs) (.limited :: .routed ::
    recordParts) d (Dev.route d ingress f) := by
  unfold Dev.route
  with_reducible repeat'
    first
      | intro x | assumption | apply Dev.Keeps.refl | apply Dev.Keeps.step Dev.emit_keeps
      | apply Dev.Keeps.step (Dev.routeDrop_keeps ?_) | apply Dev.Keeps.ite | apply Dev.Keeps.foldl
      | (show (_ : Bool) = _; decide +kernel) | (show _ ∈ _; decide +kernel) | (show _ < _; decide +kernel) | split
      | apply Dev.Keeps.set_routed | dsimp only

end Sys2Proof.Machine
end

