-- ==== Sys2Proof/Laws/KeepsWindows.lean ====
section
/-! SUPPORT. What each operation of Machine/Windows.lean may change: every register and structure outside the lists named stays as it was. -/

set_option Elab.async false
set_option linter.all false

namespace Sys2Proof.Machine

theorem Dev.discardLine_keeps {d : Dev} {l : PfLine} {reason : Nat} : Dev.Keeps [.EBR_PFLOG_HEAD, .EBR_RAT_PFDISC_HI,
    .EBR_RAT_PFDISC_LO] [.ctrs, .pfLog, .pfSeq] d (Dev.discardLine d l reason) := by
  unfold Dev.discardLine
  with_reducible repeat'
    first
      | intro x | assumption | apply Dev.Keeps.refl | apply Dev.Keeps.put64 | apply Dev.Keeps.put
      | apply Dev.Keeps.step Dev.count_keeps | apply Dev.Keeps.ite | apply Dev.Keeps.foldl | (show (_ : Bool) = _; decide +kernel)
      | (show _ ∈ _; decide +kernel) | (show _ < _; decide +kernel) | split | apply Dev.Keeps.set_pfLog_pfSeq | dsimp only

theorem Dev.dropLines_keeps {d : Dev} {p : PfLine → Bool} {reason : Nat} : Dev.Keeps [.EBR_PFLOG_HEAD, .EBR_RAT_PFDISC_HI,
    .EBR_RAT_PFDISC_LO] [.ctrs, .pfLines, .pfLog, .pfSeq] d (Dev.dropLines d p reason) := by
  unfold Dev.dropLines
  with_reducible repeat'
    first
      | intro x | assumption | apply Dev.Keeps.refl | apply Dev.Keeps.forEach | apply Dev.Keeps.step Dev.discardLine_keeps
      | apply Dev.Keeps.ite | apply Dev.Keeps.foldl | (show (_ : Bool) = _; decide +kernel) | (show _ ∈ _; decide +kernel)
      | (show _ < _; decide +kernel) | split | apply Dev.Keeps.set_pfLines | dsimp only

theorem Dev.entryChanged_keeps {d : Dev} {i : Nat} : Dev.Keeps [.EBR_PFLOG_HEAD, .EBR_RAT_PFDISC_HI, .EBR_RAT_PFDISC_LO] [.ctrs,
    .pfLines, .pfLog, .pfSeq] d (Dev.entryChanged d i) := by
  unfold Dev.entryChanged
  with_reducible repeat'
    first
      | intro x | assumption | apply Dev.Keeps.refl | apply Dev.Keeps.step Dev.dropLines_keeps | apply Dev.Keeps.ite
      | apply Dev.Keeps.foldl | (show (_ : Bool) = _; decide +kernel) | (show _ ∈ _; decide +kernel) | (show _ < _; decide +kernel)
      | split | dsimp only

theorem Dev.setCore_keeps {d : Dev} {k : Nat} {f : Core → Core} : Dev.Keeps [] [.cores] d (Dev.setCore d k f) := by
  unfold Dev.setCore
  with_reducible repeat'
    first
      | intro x | assumption | apply Dev.Keeps.refl | apply Dev.Keeps.ite | apply Dev.Keeps.foldl
      | (show (_ : Bool) = _; decide +kernel) | (show _ ∈ _; decide +kernel) | (show _ < _; decide +kernel) | split
      | apply Dev.Keeps.set_cores | dsimp only

theorem Dev.settle_keeps {d : Dev} {k : Nat} : Dev.Keeps [.DOC_CORE_STATUS] [.cores] d (Dev.settle d k) := by
  unfold Dev.settle
  with_reducible repeat'
    first
      | intro x | assumption | apply Dev.Keeps.refl | apply Dev.Keeps.put | apply Dev.Keeps.when
      | apply Dev.Keeps.step Dev.setCore_keeps | apply Dev.Keeps.ite | apply Dev.Keeps.foldl | (show (_ : Bool) = _; decide +kernel)
      | (show _ ∈ _; decide +kernel) | (show _ < _; decide +kernel) | split | dsimp only

theorem Dev.discardStore_keeps {d : Dev} {w : WinStore} : Dev.Keeps (.DOC_EVENTS :: .DOC_WSTORE_LOST :: .EBR_EVENTS :: recordRegs)
    recordParts d (Dev.discardStore d w) := by
  unfold Dev.discardStore
  with_reducible repeat'
    first
      | intro x | assumption | apply Dev.Keeps.refl | apply Dev.Keeps.bump | apply Dev.Keeps.step Dev.count_keeps
      | apply Dev.Keeps.step (Dev.raise_keeps ?_) | apply Dev.Keeps.ite | apply Dev.Keeps.foldl
      | (show (_ : Bool) = _; decide +kernel) | (show _ ∈ _; decide +kernel) | (show _ < _; decide +kernel) | split | dsimp only

theorem Dev.discardWaiting_keeps {d : Dev} {fpid : Nat} : Dev.Keeps (.DOC_CORE_STATUS :: .DOC_EVENTS :: .DOC_WSTORE_LOST :: .EBR_EVENTS
    :: recordRegs) (.cores :: .winStores :: recordParts) d (Dev.discardWaiting d fpid) := by
  unfold Dev.discardWaiting
  with_reducible repeat'
    first
      | intro x | assumption | apply Dev.Keeps.refl | apply Dev.Keeps.forEach | apply Dev.Keeps.step Dev.discardStore_keeps
      | apply Dev.Keeps.step Dev.settle_keeps | apply Dev.Keeps.ite | apply Dev.Keeps.foldl | (show (_ : Bool) = _; decide +kernel)
      | (show _ ∈ _; decide +kernel) | (show _ < _; decide +kernel) | split | apply Dev.Keeps.set_winStores | dsimp only

theorem Dev.coreTrap_keeps {d : Dev} {master cause addr : Nat} : Dev.Keeps [] [.cores, .out] d (Dev.coreTrap d master cause addr) := by
  unfold Dev.coreTrap
  with_reducible repeat'
    first
      | intro x | assumption | apply Dev.Keeps.refl | apply Dev.Keeps.step Dev.emit_keeps | apply Dev.Keeps.step Dev.setCore_keeps
      | apply Dev.Keeps.ite | apply Dev.Keeps.foldl | (show (_ : Bool) = _; decide +kernel) | (show _ ∈ _; decide +kernel)
      | (show _ < _; decide +kernel) | split | dsimp only

theorem Dev.windowError_keeps {d : Dev} {tag : Nat} {write : Bool} {master : Nat} : Dev.Keeps (.EBR_PFLOG_HEAD :: .EBR_RAT_PFDISC_HI ::
    .EBR_RAT_PFDISC_LO :: recordRegs) (.cores :: .pfLog :: .pfSeq :: .winFetches :: .winReads :: recordParts) d (Dev.windowError d tag
    write master) := by
  unfold Dev.windowError
  with_reducible repeat'
    first
      | intro x | assumption | apply Dev.Keeps.refl | apply Dev.Keeps.step Dev.coreTrap_keeps
      | apply Dev.Keeps.step Dev.discardLine_keeps | apply Dev.Keeps.step Dev.recordUncoded_keeps | apply Dev.Keeps.ite
      | apply Dev.Keeps.foldl | (show (_ : Bool) = _; decide +kernel) | (show _ ∈ _; decide +kernel) | (show _ < _; decide +kernel)
      | split | apply Dev.Keeps.set_winReads | apply Dev.Keeps.set_winFetches | dsimp only

theorem Dev.addLine_keeps {d : Dev} {l : PfLine} : Dev.Keeps [.EBR_PFLOG_HEAD, .EBR_RAT_PFDISC_HI, .EBR_RAT_PFDISC_LO] [.ctrs, .pfLines,
    .pfLog, .pfSeq] d (Dev.addLine d l) := by
  unfold Dev.addLine
  with_reducible repeat'
    first
      | intro x | assumption | apply Dev.Keeps.refl | apply Dev.Keeps.step Dev.count_keeps
      | apply Dev.Keeps.step Dev.discardLine_keeps | apply Dev.Keeps.step Dev.dropLines_keeps | apply Dev.Keeps.ite
      | apply Dev.Keeps.foldl | (show (_ : Bool) = _; decide +kernel) | (show _ ∈ _; decide +kernel) | (show _ < _; decide +kernel)
      | split | apply Dev.Keeps.set_pfLines | dsimp only

theorem Dev.returnRead_keeps {d : Dev} {r : WinRead} {data : List Byte} : Dev.Keeps [] [.out] d (Dev.returnRead d r data) := by
  unfold Dev.returnRead
  with_reducible repeat'
    first
      | intro x | assumption | apply Dev.Keeps.refl | apply Dev.Keeps.step Dev.emit_keeps | apply Dev.Keeps.ite
      | apply Dev.Keeps.foldl | (show (_ : Bool) = _; decide +kernel) | (show _ ∈ _; decide +kernel) | (show _ < _; decide +kernel)
      | split | dsimp only

theorem Dev.windowData_keeps {d : Dev} {tag : Nat} {data : List Byte} : Dev.Keeps [.EBR_PFLOG_HEAD, .EBR_RAT_PFDISC_HI,
    .EBR_RAT_PFDISC_LO] [.ctrs, .out, .pfLines, .pfLog, .pfSeq, .winFetches, .winReads] d (Dev.windowData d tag data) := by
  unfold Dev.windowData
  with_reducible repeat'
    first
      | intro x | assumption | apply Dev.Keeps.refl | apply Dev.Keeps.when | apply Dev.Keeps.step Dev.addLine_keeps
      | apply Dev.Keeps.step Dev.returnRead_keeps | apply Dev.Keeps.ite | apply Dev.Keeps.foldl
      | (show (_ : Bool) = _; decide +kernel) | (show _ ∈ _; decide +kernel) | (show _ < _; decide +kernel) | split
      | apply Dev.Keeps.set_winReads | apply Dev.Keeps.set_winFetches | dsimp only

theorem Dev.coreFault_keeps {d : Dev} {subsystem master cause addr : Nat} : Dev.Keeps recordRegs (.cores :: recordParts) d
    (Dev.coreFault d subsystem master cause addr) := by
  unfold Dev.coreFault
  with_reducible repeat'
    first
      | intro x | assumption | apply Dev.Keeps.refl | apply Dev.Keeps.step Dev.accessRecord_keeps
      | apply Dev.Keeps.step Dev.coreTrap_keeps | apply Dev.Keeps.ite | apply Dev.Keeps.foldl | (show (_ : Bool) = _; decide +kernel)
      | (show _ ∈ _; decide +kernel) | (show _ < _; decide +kernel) | split | dsimp only

theorem Dev.touchLine_keeps {d : Dev} {l : PfLine} : Dev.Keeps [] [.ctrs, .pfLines] d (Dev.touchLine d l) := by
  unfold Dev.touchLine
  with_reducible repeat'
    first
      | intro x | assumption | apply Dev.Keeps.refl | apply Dev.Keeps.step Dev.count_keeps | apply Dev.Keeps.ite
      | apply Dev.Keeps.foldl | (show (_ : Bool) = _; decide +kernel) | (show _ ∈ _; decide +kernel) | (show _ < _; decide +kernel)
      | split | apply Dev.Keeps.set_pfLines | dsimp only

end Sys2Proof.Machine
end

