-- ==== Sys2Proof/Laws/KeepsEdge.lean ====
section
/-! SUPPORT. What each operation of Machine/Edge.lean may change: every register and structure outside the lists named stays as it was. -/

set_option Elab.async false
set_option linter.all false

namespace Sys2Proof.Machine

theorem Dev.linkTlp_keeps {d : Dev} {p : Nat} {e : Option Nat} {t : Tlp} : Dev.Keeps [] [.out] d (Dev.linkTlp d p e t) := by
  unfold Dev.linkTlp
  with_reducible repeat'
    first
      | intro x | assumption | apply Dev.Keeps.refl | apply Dev.Keeps.step Dev.emit_keeps | apply Dev.Keeps.ite
      | apply Dev.Keeps.foldl | (show (_ : Bool) = _; decide +kernel) | (show _ ∈ _; decide +kernel) | (show _ < _; decide +kernel)
      | split | dsimp only

theorem Dev.answer_keeps {d : Dev} {p : Nat} {t : Tlp} : Dev.Keeps [] [.ctrs, .out] d (Dev.answer d p t) := by
  unfold Dev.answer
  with_reducible repeat'
    first
      | intro x | assumption | apply Dev.Keeps.refl | apply Dev.Keeps.step Dev.count_keeps | apply Dev.Keeps.step Dev.linkTlp_keeps
      | apply Dev.Keeps.ite | apply Dev.Keeps.foldl | (show (_ : Bool) = _; decide +kernel) | (show _ ∈ _; decide +kernel)
      | (show _ < _; decide +kernel) | split | dsimp only

theorem Dev.refuse_keeps {d : Dev} {p : Nat} {t : Tlp} {status : Nat} : Dev.Keeps [] [.ctrs, .out] d (Dev.refuse d p t status) := by
  unfold Dev.refuse
  with_reducible repeat'
    first
      | intro x | assumption | apply Dev.Keeps.refl | apply Dev.Keeps.when | apply Dev.Keeps.step Dev.answer_keeps
      | apply Dev.Keeps.ite | apply Dev.Keeps.foldl | (show (_ : Bool) = _; decide +kernel) | (show _ ∈ _; decide +kernel)
      | (show _ < _; decide +kernel) | split | dsimp only

theorem Dev.stray_keeps {d : Dev} {gvh : Nat} : Dev.Keeps (.VIT_EVENTS :: recordRegs) recordParts d (Dev.stray d gvh) := by
  unfold Dev.stray
  with_reducible repeat'
    first
      | intro x | assumption | apply Dev.Keeps.refl | apply Dev.Keeps.step Dev.count_keeps | apply Dev.Keeps.step (Dev.raise_keeps ?_)
      | apply Dev.Keeps.ite | apply Dev.Keeps.foldl | (show (_ : Bool) = _; decide +kernel) | (show _ ∈ _; decide +kernel)
      | (show _ < _; decide +kernel) | split | dsimp only

theorem Dev.setWin_keeps {d : Dev} {w : Nat} {f : Win → Win} : Dev.Keeps [] [.wins] d (Dev.setWin d w f) := by
  unfold Dev.setWin
  with_reducible repeat'
    first
      | intro x | assumption | apply Dev.Keeps.refl | apply Dev.Keeps.ite | apply Dev.Keeps.foldl
      | (show (_ : Bool) = _; decide +kernel) | (show _ ∈ _; decide +kernel) | (show _ < _; decide +kernel) | split
      | apply Dev.Keeps.set_wins | dsimp only

theorem Dev.injectFrame_keeps {d : Dev} {p : Nat} {f : Frame} {handle : Option Nat} {waited : Nat} : Dev.Keeps [.EBR_CRD_AVAIL]
    [.arrived, .ctrs, .trk, .wins] d (Dev.injectFrame d p f handle waited) := by
  unfold Dev.injectFrame
  with_reducible repeat'
    first
      | intro x | assumption | apply Dev.Keeps.refl | apply Dev.Keeps.when | apply Dev.Keeps.put
      | apply Dev.Keeps.step Dev.arrive_keeps | apply Dev.Keeps.step Dev.count_keeps | apply Dev.Keeps.step Dev.setWin_keeps
      | apply Dev.Keeps.ite | apply Dev.Keeps.foldl | (show (_ : Bool) = _; decide +kernel) | (show _ ∈ _; decide +kernel)
      | (show _ < _; decide +kernel) | split | apply Dev.Keeps.set_trk | dsimp only

theorem Dev.useCells_keeps {d : Dev} {p n : Nat} : Dev.Keeps [] [.outs] d (Dev.useCells d p n) := by
  unfold Dev.useCells
  with_reducible repeat'
    first
      | intro x | assumption | apply Dev.Keeps.refl | apply Dev.Keeps.step Dev.setOut_keeps | apply Dev.Keeps.ite
      | apply Dev.Keeps.foldl | (show (_ : Bool) = _; decide +kernel) | (show _ ∈ _; decide +kernel) | (show _ < _; decide +kernel)
      | split | dsimp only

theorem Dev.settleCredits_keeps {d : Dev} : Dev.Keeps [] [.ctrs, .out, .withheld] d (Dev.settleCredits d) := by
  unfold Dev.settleCredits
  with_reducible repeat'
    first
      | intro x | assumption | apply Dev.Keeps.refl | apply Dev.Keeps.forEach | apply Dev.Keeps.step Dev.count_keeps
      | apply Dev.Keeps.step Dev.emit_keeps | apply Dev.Keeps.ite | apply Dev.Keeps.foldl | (show (_ : Bool) = _; decide +kernel)
      | (show _ ∈ _; decide +kernel) | (show _ < _; decide +kernel) | split | apply Dev.Keeps.set_withheld | dsimp only

theorem Dev.takeEntry_keeps {d : Dev} {e : Trk} : Dev.Keeps [] [.trk] d (Dev.takeEntry d e).2 := by
  unfold Dev.takeEntry
  with_reducible repeat'
    first
      | intro x | assumption | apply Dev.Keeps.refl | apply Dev.Keeps.ite | apply Dev.Keeps.foldl
      | (show (_ : Bool) = _; decide +kernel) | (show _ ∈ _; decide +kernel) | (show _ < _; decide +kernel) | split
      | apply Dev.Keeps.set_trk | dsimp only

theorem Dev.takeNeed_keeps {d e : Dev} {h y : HeldTlp} (he : d.takeNeed h = some (y, e)) : Dev.Keeps [] [.ctrs, .trk] d e := by
  unfold Dev.takeNeed at he
  split at he
  · cases he
    exact .refl _ _ _
  · split at he
    · cases he
    · cases he
      refine .ite ?_ (.step Dev.count_keeps (by decide +kernel) (by decide +kernel) (Dev.takeEntry_keeps.widen))
      split
      · exact .step Dev.count_keeps (by decide +kernel) (by decide +kernel)
          (.step Dev.count_keeps (by decide +kernel) (by decide +kernel) (Dev.takeEntry_keeps.widen))
      · exact .step Dev.count_keeps (by decide +kernel) (by decide +kernel) (Dev.takeEntry_keeps.widen)

theorem Dev.releaseFrom_keeps {d : Dev} {earlier waiting : List HeldTlp} :
    Dev.Keeps [.EBR_CRD_AVAIL] [.arrived, .ctrs, .heldTlps, .out, .outs, .trk, .wins, .withheld] d (d.releaseFrom earlier waiting) := by
  induction waiting generalizing d earlier with
  | nil => exact .step Dev.settleCredits_keeps (by decide +kernel) (by decide +kernel) (.set_heldTlps (by decide +kernel) (.refl _ _ _))
  | cons h r ih =>
    unfold Dev.releaseFrom
    refine .ite ih (.ite (ih.step' (.step Dev.rateWait_keeps (by decide +kernel) (by decide +kernel) (.refl _ _ _))) ?_)
    split
    · exact ih
    · rename_i x e he
      have hk := Dev.takeNeed_keeps he
      exact .ite (ih.step' (.step Dev.injectFrame_keeps (by decide +kernel) (by decide +kernel)
        (.step Dev.useCells_keeps (by decide +kernel) (by decide +kernel)
          (.step Dev.rateGo_keeps (by decide +kernel) (by decide +kernel) hk.widen)))) (ih.step' hk.widen)

theorem Dev.inject_keeps {d : Dev} {p : Nat} {f : Frame} {need : Option Trk} : Dev.Keeps [.EBR_CRD_AVAIL] [.arrived, .ctrs, .heldTlps,
    .out, .outs, .trk, .wins, .withheld] d (Dev.inject d p f need) := by
  unfold Dev.inject
  with_reducible repeat'
    first
      | intro x | assumption | apply Dev.Keeps.refl | apply Dev.Keeps.step Dev.count_keeps
      | apply Dev.Keeps.step Dev.releaseFrom_keeps | apply Dev.Keeps.ite | apply Dev.Keeps.foldl
      | (show (_ : Bool) = _; decide +kernel) | (show _ ∈ _; decide +kernel) | (show _ < _; decide +kernel) | split | dsimp only

theorem Dev.squash_keeps {d : Dev} {sel : Trk → Bool} : Dev.Keeps [] [.trk] d (Dev.squash d sel) := by
  unfold Dev.squash
  with_reducible repeat'
    first
      | intro x | assumption | apply Dev.Keeps.refl | apply Dev.Keeps.ite | apply Dev.Keeps.foldl
      | (show (_ : Bool) = _; decide +kernel) | (show _ ∈ _; decide +kernel) | (show _ < _; decide +kernel) | split
      | apply Dev.Keeps.set_trk | dsimp only

theorem Dev.freeLock_keeps {d : Dev} {p : Nat} : Dev.Keeps [.EBR_LOCK] [.lockSince, .lockSrc, .outs, .queues, .vits] d (Dev.freeLock d
    p) := by
  unfold Dev.freeLock
  with_reducible repeat'
    first
      | intro x | assumption | apply Dev.Keeps.refl | apply Dev.Keeps.put | apply Dev.Keeps.step Dev.setVit_keeps
      | apply Dev.Keeps.step Dev.sideReturn_keeps | apply Dev.Keeps.ite | apply Dev.Keeps.foldl
      | (show (_ : Bool) = _; decide +kernel) | (show _ ∈ _; decide +kernel) | (show _ < _; decide +kernel) | split
      | apply Dev.Keeps.set_lockSrc_lockSince | dsimp only

theorem Dev.breakLock_keeps {d : Dev} {p : Nat} {sendUnlock : Bool} : Dev.Keeps (.EBR_LOCK :: recordRegs) (.lockSince :: .lockSrc ::
    .outs :: .queues :: recordParts) d (Dev.breakLock d p sendUnlock) := by
  unfold Dev.breakLock
  with_reducible repeat'
    first
      | intro x | assumption | apply Dev.Keeps.refl | apply Dev.Keeps.when | apply Dev.Keeps.step Dev.count_keeps
      | apply Dev.Keeps.step Dev.emit_keeps | apply Dev.Keeps.step Dev.freeLock_keeps | apply Dev.Keeps.step Dev.recordUncoded_keeps
      | apply Dev.Keeps.ite | apply Dev.Keeps.foldl | (show (_ : Bool) = _; decide +kernel) | (show _ ∈ _; decide +kernel)
      | (show _ < _; decide +kernel) | split | dsimp only

theorem Dev.breakLocksOf_keeps {d : Dev} {gvh : Nat} {sel : Nat → Bool} : Dev.Keeps (.EBR_LOCK :: recordRegs) (.lockSince :: .lockSrc ::
    .outs :: .queues :: recordParts) d (Dev.breakLocksOf d gvh sel) := by
  unfold Dev.breakLocksOf
  with_reducible repeat'
    first
      | intro x | assumption | apply Dev.Keeps.refl | apply Dev.Keeps.forEach | apply Dev.Keeps.step Dev.breakLock_keeps
      | apply Dev.Keeps.ite | apply Dev.Keeps.foldl | (show (_ : Bool) = _; decide +kernel) | (show _ ∈ _; decide +kernel)
      | (show _ < _; decide +kernel) | split | dsimp only

theorem Dev.retryHeld_keeps {d : Dev} : Dev.Keeps [.EBR_CRD_AVAIL] [.arrived, .ctrs, .heldTlps, .out, .outs, .trk, .wins, .withheld] d
    (Dev.retryHeld d) := by
  unfold Dev.retryHeld
  with_reducible repeat'
    first
      | intro x | assumption | apply Dev.Keeps.refl | apply Dev.Keeps.step Dev.releaseFrom_keeps | apply Dev.Keeps.ite
      | apply Dev.Keeps.foldl | (show (_ : Bool) = _; decide +kernel) | (show _ ∈ _; decide +kernel) | (show _ < _; decide +kernel)
      | split | dsimp only

theorem Dev.refuseMem_keeps {d : Dev} {p : Nat} {m : MemMsg} : Dev.Keeps [] [.ctrs, .out] d (Dev.refuseMem d p m) := by
  unfold Dev.refuseMem
  with_reducible repeat'
    first
      | intro x | assumption | apply Dev.Keeps.refl | apply Dev.Keeps.step Dev.count_keeps | apply Dev.Keeps.step Dev.emit_keeps
      | apply Dev.Keeps.ite | apply Dev.Keeps.foldl | (show (_ : Bool) = _; decide +kernel) | (show _ ∈ _; decide +kernel)
      | (show _ < _; decide +kernel) | split | dsimp only

theorem Dev.answerEntry_keeps {d : Dev} {e : Trk} {status : Nat} : Dev.Keeps (.EBR_PFLOG_HEAD :: .EBR_RAT_PFDISC_HI ::
    .EBR_RAT_PFDISC_LO :: recordRegs) (.cores :: .pfLog :: .pfSeq :: .winFetches :: .winReads :: recordParts) d (Dev.answerEntry d e
    status) := by
  unfold Dev.answerEntry
  with_reducible repeat'
    first
      | intro x | assumption | apply Dev.Keeps.refl | apply Dev.Keeps.step Dev.answer_keeps | apply Dev.Keeps.step Dev.refuseMem_keeps
      | apply Dev.Keeps.step Dev.windowError_keeps | apply Dev.Keeps.ite | apply Dev.Keeps.foldl
      | (show (_ : Bool) = _; decide +kernel) | (show _ ∈ _; decide +kernel) | (show _ < _; decide +kernel) | split | dsimp only

theorem Dev.refuseEntries_keeps {d : Dev} {sel : Trk → Bool} : Dev.Keeps (.EBR_PFLOG_HEAD :: .EBR_RAT_PFDISC_HI :: .EBR_RAT_PFDISC_LO ::
    recordRegs) (.cores :: .pfLog :: .pfSeq :: .trk :: .winFetches :: .winReads :: recordParts) d (Dev.refuseEntries d sel) := by
  unfold Dev.refuseEntries
  with_reducible repeat'
    first
      | intro x | assumption | apply Dev.Keeps.refl | apply Dev.Keeps.forEach | apply Dev.Keeps.step Dev.answerEntry_keeps
      | apply Dev.Keeps.step Dev.squash_keeps | apply Dev.Keeps.ite | apply Dev.Keeps.foldl | (show (_ : Bool) = _; decide +kernel)
      | (show _ ∈ _; decide +kernel) | (show _ < _; decide +kernel) | split | dsimp only

theorem Dev.aer_keeps {d : Dev} {lv k severity : Nat} : Dev.Keeps [] [.ctrs, .vports] d (Dev.aer d lv k severity) := by
  unfold Dev.aer
  with_reducible repeat'
    first
      | intro x | assumption | apply Dev.Keeps.refl | apply Dev.Keeps.step Dev.count_keeps | apply Dev.Keeps.step Dev.setVport_keeps
      | apply Dev.Keeps.ite | apply Dev.Keeps.foldl | (show (_ : Bool) = _; decide +kernel) | (show _ ∈ _; decide +kernel)
      | (show _ < _; decide +kernel) | split | dsimp only

theorem Dev.freeEntry_keeps {d : Dev} {h : Nat} : Dev.Keeps [] [.trk] d (Dev.freeEntry d h) := by
  unfold Dev.freeEntry
  with_reducible repeat'
    first
      | intro x | assumption | apply Dev.Keeps.refl | apply Dev.Keeps.ite | apply Dev.Keeps.foldl
      | (show (_ : Bool) = _; decide +kernel) | (show _ ∈ _; decide +kernel) | (show _ < _; decide +kernel) | split
      | apply Dev.Keeps.set_trk | dsimp only

theorem Dev.sendBack_keeps {d : Dev} {p : Nat} {e : Trk} {b : Body} : Dev.Keeps [.EBR_CRD_AVAIL] [.arrived, .ctrs, .heldTlps, .out,
    .outs, .trk, .wins, .withheld] d (Dev.sendBack d p e b) := by
  unfold Dev.sendBack
  with_reducible repeat'
    first
      | intro x | assumption | apply Dev.Keeps.refl | apply Dev.Keeps.step Dev.count_keeps | apply Dev.Keeps.step Dev.inject_keeps
      | apply Dev.Keeps.ite | apply Dev.Keeps.foldl | (show (_ : Bool) = _; decide +kernel) | (show _ ∈ _; decide +kernel)
      | (show _ < _; decide +kernel) | split | dsimp only

theorem Dev.aerUnexpected_keeps {d : Dev} {gvh k : Nat} : Dev.Keeps [] [.ctrs, .vports] d (Dev.aerUnexpected d gvh k) := by
  unfold Dev.aerUnexpected
  with_reducible repeat'
    first
      | intro x | assumption | apply Dev.Keeps.refl | apply Dev.Keeps.step Dev.aer_keeps | apply Dev.Keeps.ite | apply Dev.Keeps.foldl
      | (show (_ : Bool) = _; decide +kernel) | (show _ ∈ _; decide +kernel) | (show _ < _; decide +kernel) | split | dsimp only

end Sys2Proof.Machine
end

