-- ==== Sys2Proof/Laws/KeepsCredits.lean ====
section
/-! SUPPORT. What each operation of Machine/Credits.lean may change: every register and structure outside the lists named stays as it was. -/

set_option Elab.async false
set_option linter.all false

namespace Sys2Proof.Machine

theorem Dev.closeWindow_keeps {d : Dev} {src dst : Nat} : Dev.Keeps [.EBR_CRD_AVAIL, .EBR_CRD_GRANT, .PIN_CTL, .PIN_DST, .PIN_OLD,
    .PIN_SRC, .PIN_TCUT_HI, .PIN_TCUT_LO] [.dwins, .pins, .wins] d (Dev.closeWindow d src dst) := by
  unfold Dev.closeWindow
  with_reducible repeat'
    first
      | intro x | assumption | apply Dev.Keeps.refl | apply Dev.Keeps.forEach | apply Dev.Keeps.put
      | apply Dev.Keeps.step Dev.setPin_keeps | apply Dev.Keeps.ite | apply Dev.Keeps.foldl | (show (_ : Bool) = _; decide +kernel)
      | (show _ ∈ _; decide +kernel) | (show _ < _; decide +kernel) | split | apply Dev.Keeps.set_wins | apply Dev.Keeps.set_dwins
      | dsimp only

theorem Dev.startResync_keeps {d : Dev} {w : Nat} : Dev.Keeps [.EBR_CRD_AVAIL] [.arrived, .wins] d (Dev.startResync d w) := by
  unfold Dev.startResync
  with_reducible repeat'
    first
      | intro x | assumption | apply Dev.Keeps.refl | apply Dev.Keeps.put | apply Dev.Keeps.step Dev.creditFrame_keeps
      | apply Dev.Keeps.step Dev.setWin_keeps | apply Dev.Keeps.ite | apply Dev.Keeps.foldl | (show (_ : Bool) = _; decide +kernel)
      | (show _ ∈ _; decide +kernel) | (show _ < _; decide +kernel) | split | dsimp only

theorem Dev.resyncPort_keeps {d : Dev} {p : Nat} : Dev.Keeps [.EBR_CRD_AVAIL] [.arrived, .wins] d (Dev.resyncPort d p) := by
  unfold Dev.resyncPort
  with_reducible repeat'
    first
      | intro x | assumption | apply Dev.Keeps.refl | apply Dev.Keeps.forEach | apply Dev.Keeps.step Dev.startResync_keeps
      | apply Dev.Keeps.ite | apply Dev.Keeps.foldl | (show (_ : Bool) = _; decide +kernel) | (show _ ∈ _; decide +kernel)
      | (show _ < _; decide +kernel) | split | dsimp only

theorem Dev.grantWindow_keeps {d : Dev} {src dst : Nat} : Dev.Keeps [] [.arrived, .ctrs, .dwins] d (d.grantWindow src dst).2 := by
  unfold Dev.grantWindow
  simp only [apply_ite Prod.snd]
  have h : Dev.Keeps [] [.arrived, .ctrs, .dwins] d (d.count (modCtr 1536 9) 1) := .step Dev.count_keeps (by decide +kernel) (by
      decide +kernel) (.refl _ _ _)
  refine .ite (.refl _ _ _) (.ite h (.ite h (.ite h ?_)))
  have h2 : ∀ w, Dev.Keeps [] [.arrived, .ctrs, .dwins] d (Dev.count { d with dwins := w } (modCtr 1536 8) 1) := fun w =>
    .step Dev.count_keeps (by decide +kernel) (by decide +kernel) (.set_dwins (by decide +kernel) (.refl _ _ _))
  exact .ite (h2 _) (.step Dev.creditFrame_keeps (by decide +kernel) (by decide +kernel)
    (.step Dev.setDwin_keeps (by decide +kernel) (by decide +kernel) (h2 _)))

theorem Dev.openWindow_keeps {d : Dev} {src dst gvh : Nat} {cls : Cls} {grant : Nat} :
    Dev.Keeps (.EBR_CRD_AUDIT :: .EBR_CRD_AVAIL :: .EBR_CRD_GRANT :: .PIN_CTL :: .PIN_DST :: .PIN_OLD :: .PIN_SRC :: .PIN_TCUT_HI ::
        .PIN_TCUT_LO :: .RTE_EVENTS :: recordRegs) (.limited :: .pins :: .wins :: recordParts) d (d.openWindow src dst gvh cls grant).2
        := by
  have h : Dev.Keeps (.EBR_CRD_AUDIT :: .EBR_CRD_AVAIL :: .EBR_CRD_GRANT :: .PIN_CTL :: .PIN_DST :: .PIN_OLD :: .PIN_SRC :: .PIN_TCUT_HI
      :: .PIN_TCUT_LO :: .RTE_EVENTS :: recordRegs) (.limited :: .pins :: .wins :: recordParts) d (d.count (modCtr 1536 9) 1) := .step
      Dev.count_keeps (by decide +kernel) (by decide +kernel) (.refl _ _ _)
  unfold Dev.openWindow
  simp only
  split
  · exact .refl _ _ _
  · split
    · exact h
    · split
      · exact h
      · split
        · exact .step (Dev.raiseLimited_keeps (by decide)) (by decide +kernel) (by decide +kernel)
            (.step Dev.count_keeps (by decide +kernel) (by decide +kernel) h)
        · refine .when ?_ fun _ h => .step Dev.setPin_keeps (by decide +kernel) (by decide +kernel) h
          refine .put _ _ _ (by decide) (by decide) (.put _ _ _ (by decide) (by decide) (.put _ _ _ (by decide) (by decide) (.put _ _ _
              (by decide) (by decide)
            (.put _ _ _ (by decide) (by decide) ?_))))
          exact .set_wins (by decide +kernel) (.refl _ _ _)

theorem Dev.makeWindow_keeps {d : Dev} {src dst gvh : Nat} {cls : Cls} : Dev.Keeps (.EBR_CRD_AUDIT :: .EBR_CRD_AVAIL :: .EBR_CRD_GRANT
    :: .PIN_CTL :: .PIN_DST :: .PIN_OLD :: .PIN_SRC :: .PIN_TCUT_HI :: .PIN_TCUT_LO :: .RTE_EVENTS :: recordRegs) (.arrived :: .dwins ::
    .limited :: .pins :: .wins :: recordParts) d (Dev.makeWindow d src dst gvh cls).2 := by
  unfold Dev.makeWindow
  with_reducible repeat'
    first
      | intro x | assumption | apply Dev.Keeps.refl | apply Dev.Keeps.step Dev.grantWindow_keeps
      | apply Dev.Keeps.step Dev.openWindow_keeps | apply Dev.Keeps.ite | apply Dev.Keeps.foldl
      | (show (_ : Bool) = _; decide +kernel) | (show _ ∈ _; decide +kernel) | (show _ < _; decide +kernel) | split
      | refine Dev.Keeps.pair Dev.grantWindow_keeps (by assumption) ?_ ?_ ?_
      | refine Dev.Keeps.pair Dev.openWindow_keeps (by assumption) ?_ ?_ ?_ | dsimp only

theorem Dev.applyResync_keeps {d : Dev} {w held : Nat} : Dev.Keeps [.EBR_CRD_AUDIT, .EBR_CRD_AVAIL, .EBR_CRD_LOST] [] d (Dev.applyResync
    d w held) := by
  unfold Dev.applyResync
  with_reducible repeat'
    first
      | intro x | assumption | apply Dev.Keeps.refl | apply Dev.Keeps.put | apply Dev.Keeps.bump | apply Dev.Keeps.ite
      | apply Dev.Keeps.foldl | (show (_ : Bool) = _; decide +kernel) | (show _ ∈ _; decide +kernel) | (show _ < _; decide +kernel)
      | split | dsimp only

theorem Dev.applyReturn_keeps {d : Dev} {w value : Nat} : Dev.Keeps [.EBR_CRD_AUDIT, .EBR_CRD_AVAIL] [.ctrs] d (Dev.applyReturn d w
    value) := by
  unfold Dev.applyReturn
  with_reducible repeat'
    first
      | intro x | assumption | apply Dev.Keeps.refl | apply Dev.Keeps.put | apply Dev.Keeps.step Dev.count_keeps | apply Dev.Keeps.ite
      | apply Dev.Keeps.foldl | (show (_ : Bool) = _; decide +kernel) | (show _ ∈ _; decide +kernel) | (show _ < _; decide +kernel)
      | split | dsimp only

theorem Dev.auditCseq_keeps {d : Dev} {w cseq : Nat} : Dev.Keeps [.EBR_CRD_LOST] [.ctrs, .wins] d (Dev.auditCseq d w cseq).2 := by
  unfold Dev.auditCseq
  with_reducible repeat'
    first
      | intro x | assumption | apply Dev.Keeps.refl | apply Dev.Keeps.when | apply Dev.Keeps.bump
      | apply Dev.Keeps.step Dev.count_keeps | apply Dev.Keeps.step Dev.setWin_keeps | apply Dev.Keeps.ite | apply Dev.Keeps.foldl
      | (show (_ : Bool) = _; decide +kernel) | (show _ ∈ _; decide +kernel) | (show _ < _; decide +kernel) | split | dsimp only

theorem Dev.receiveCredit_keeps {d : Dev} {src dst : Nat} {kind : CreditKind} {cseq value : Nat} : Dev.Keeps (.EBR_CRD_AUDIT ::
    .EBR_CRD_AVAIL :: .EBR_CRD_GRANT :: .EBR_CRD_LOST :: .PIN_CTL :: .PIN_DST :: .PIN_OLD :: .PIN_SRC :: .PIN_TCUT_HI :: .PIN_TCUT_LO ::
    .RTE_EVENTS :: .SLC_INJ_ARMED :: .TEL_MODE :: recordRegs) (.arrived :: .heldTlps :: .injections :: .limited :: .outs :: .pins ::
    .trk :: .wins :: .withheld :: recordParts) d (Dev.receiveCredit d src dst kind cseq value) := by
  unfold Dev.receiveCredit
  with_reducible repeat'
    first
      | intro x | assumption | apply Dev.Keeps.refl | apply Dev.Keeps.step Dev.applyResync_keeps
      | apply Dev.Keeps.step Dev.applyReturn_keeps | apply Dev.Keeps.step Dev.auditCseq_keeps | apply Dev.Keeps.step Dev.consume_keeps
      | apply Dev.Keeps.step Dev.openWindow_keeps | apply Dev.Keeps.step Dev.retryHeld_keeps | apply Dev.Keeps.ite
      | apply Dev.Keeps.foldl | (show (_ : Bool) = _; decide +kernel) | (show _ ∈ _; decide +kernel) | (show _ < _; decide +kernel)
      | split | refine Dev.Keeps.pair Dev.auditCseq_keeps (by assumption) ?_ ?_ ?_
      | refine Dev.Keeps.pair Dev.openWindow_keeps (by assumption) ?_ ?_ ?_ | dsimp only

end Sys2Proof.Machine
end

