-- ==== Sys2Proof/Laws/KeepsLanes.lean ====
section
/-! SUPPORT. What each operation of Machine/Lanes.lean may change: every register and structure outside the lists named stays as it was. -/

set_option Elab.async false
set_option linter.all false

namespace Sys2Proof.Machine

theorem Dev.linkFalls_keeps {d : Dev} {p ltssm : Nat} : Dev.Keeps [.PRT_PORT_STATUS] [] d (Dev.linkFalls d p ltssm) := by
  unfold Dev.linkFalls
  with_reducible repeat'
    first
      | intro x | assumption | apply Dev.Keeps.refl | apply Dev.Keeps.put | apply Dev.Keeps.ite | apply Dev.Keeps.foldl
      | (show (_ : Bool) = _; decide +kernel) | (show _ ∈ _; decide +kernel) | (show _ < _; decide +kernel) | split | dsimp only

theorem Dev.setLane_keeps {d : Dev} {n : Nat} {f : LaneX → LaneX} : Dev.Keeps [] [.lanes] d (Dev.setLane d n f) := by
  unfold Dev.setLane
  with_reducible repeat'
    first
      | intro x | assumption | apply Dev.Keeps.refl | apply Dev.Keeps.ite | apply Dev.Keeps.foldl
      | (show (_ : Bool) = _; decide +kernel) | (show _ ∈ _; decide +kernel) | (show _ < _; decide +kernel) | split
      | apply Dev.Keeps.set_lanes | dsimp only

theorem Dev.setPortX_keeps {d : Dev} {p : Nat} {f : PortX → PortX} : Dev.Keeps [] [.ports] d (Dev.setPortX d p f) := by
  unfold Dev.setPortX
  with_reducible repeat'
    first
      | intro x | assumption | apply Dev.Keeps.refl | apply Dev.Keeps.ite | apply Dev.Keeps.foldl
      | (show (_ : Bool) = _; decide +kernel) | (show _ ∈ _; decide +kernel) | (show _ < _; decide +kernel) | split
      | apply Dev.Keeps.set_ports | dsimp only

theorem Dev.loadScanDone_keeps {d : Dev} {p temp : Nat} : Dev.Keeps [.LNA_TRAIN_REF] [.ports] d (Dev.loadScanDone d p temp) := by
  unfold Dev.loadScanDone
  with_reducible repeat'
    first
      | intro x | assumption | apply Dev.Keeps.refl | apply Dev.Keeps.forEach | apply Dev.Keeps.put
      | apply Dev.Keeps.step Dev.setPortX_keeps | apply Dev.Keeps.ite | apply Dev.Keeps.foldl | (show (_ : Bool) = _; decide +kernel)
      | (show _ ∈ _; decide +kernel) | (show _ < _; decide +kernel) | split | dsimp only

theorem Dev.endScans_keeps {d : Dev} : Dev.Keeps [] [.cmds] d (Dev.endScans d) := by
  unfold Dev.endScans
  with_reducible repeat'
    first
      | intro x | assumption | apply Dev.Keeps.refl | apply Dev.Keeps.ite | apply Dev.Keeps.foldl
      | (show (_ : Bool) = _; decide +kernel) | (show _ ∈ _; decide +kernel) | (show _ < _; decide +kernel) | split
      | apply Dev.Keeps.set_cmds | dsimp only

theorem Dev.scanEnds_keeps {d : Dev} {n : Nat} {temp : Nat → Nat} : Dev.Keeps [.LNA_TRAIN_REF] [.cmds, .lanes, .ports] d (Dev.scanEnds d
    n temp) := by
  unfold Dev.scanEnds
  with_reducible repeat'
    first
      | intro x | assumption | apply Dev.Keeps.refl | apply Dev.Keeps.when | apply Dev.Keeps.step Dev.endScans_keeps
      | apply Dev.Keeps.step Dev.loadScanDone_keeps | apply Dev.Keeps.step Dev.setLane_keeps | apply Dev.Keeps.ite
      | apply Dev.Keeps.foldl | (show (_ : Bool) = _; decide +kernel) | (show _ ∈ _; decide +kernel) | (show _ < _; decide +kernel)
      | split | dsimp only

theorem Dev.abortScan_keeps {d : Dev} {n : Nat} : Dev.Keeps [.LNA_MRG_RESULT, .LNA_TRAIN_REF] [.cmds, .lanes, .ports] d (Dev.abortScan d
    n) := by
  unfold Dev.abortScan
  with_reducible repeat'
    first
      | intro x | assumption | apply Dev.Keeps.refl | apply Dev.Keeps.put | apply Dev.Keeps.when
      | apply Dev.Keeps.step Dev.scanEnds_keeps | apply Dev.Keeps.ite | apply Dev.Keeps.foldl | (show (_ : Bool) = _; decide +kernel)
      | (show _ ∈ _; decide +kernel) | (show _ < _; decide +kernel) | split | dsimp only

theorem Dev.enterLane_keeps {d : Dev} {n st rate : Nat} : Dev.Keeps [.LNA_ALIGN, .LNA_LANE_STATE, .LNA_MRG_RESULT, .LNA_TRAIN_REF]
    [.cmds, .lanes, .ports] d (Dev.enterLane d n st rate) := by
  unfold Dev.enterLane
  with_reducible repeat'
    first
      | intro x | assumption | apply Dev.Keeps.refl | apply Dev.Keeps.put | apply Dev.Keeps.when
      | apply Dev.Keeps.step Dev.abortScan_keeps | apply Dev.Keeps.ite | apply Dev.Keeps.foldl | (show (_ : Bool) = _; decide +kernel)
      | (show _ ∈ _; decide +kernel) | (show _ < _; decide +kernel) | split | dsimp only

theorem Dev.setTaps_keeps {d : Dev} {n pre post source : Nat} : Dev.Keeps [.LNA_TX_EQ] [] d (Dev.setTaps d n pre post source) := by
  unfold Dev.setTaps
  with_reducible repeat'
    first
      | intro x | assumption | apply Dev.Keeps.refl | apply Dev.Keeps.put | apply Dev.Keeps.ite | apply Dev.Keeps.foldl
      | (show (_ : Bool) = _; decide +kernel) | (show _ ∈ _; decide +kernel) | (show _ < _; decide +kernel) | split | dsimp only

theorem Dev.loadEntry_keeps {d : Dev} {n rate : Nat} : Dev.Keeps [.LNA_RX_EQ, .LNA_TX_EQ] [] d (Dev.loadEntry d n rate) := by
  unfold Dev.loadEntry
  with_reducible repeat'
    first
      | intro x | assumption | apply Dev.Keeps.refl | apply Dev.Keeps.put | apply Dev.Keeps.step Dev.setTaps_keeps
      | apply Dev.Keeps.ite | apply Dev.Keeps.foldl | (show (_ : Bool) = _; decide +kernel) | (show _ ∈ _; decide +kernel)
      | (show _ < _; decide +kernel) | split | dsimp only

theorem Dev.laneDetect_keeps {d : Dev} {n : Nat} {keep : Bool} : Dev.Keeps (.LNA_ALIGN :: .LNA_LANE_STATE :: .LNA_MRG_RESULT ::
    .LNA_RX_EQ :: .LNA_TRAIN_REF :: .LNA_TX_EQ :: recordRegs) (.cmds :: .eqReported :: .lanes :: .ports :: recordParts) d
    (Dev.laneDetect d n keep) := by
  unfold Dev.laneDetect
  with_reducible repeat'
    first
      | intro x | assumption | apply Dev.Keeps.refl | apply Dev.Keeps.when | apply Dev.Keeps.step Dev.enterLane_keeps
      | apply Dev.Keeps.step Dev.loadEntry_keeps | apply Dev.Keeps.step Dev.record_keeps | apply Dev.Keeps.step Dev.setLane_keeps
      | apply Dev.Keeps.ite | apply Dev.Keeps.foldl | (show (_ : Bool) = _; decide +kernel) | (show _ ∈ _; decide +kernel)
      | (show _ < _; decide +kernel) | split | apply Dev.Keeps.set_eqReported | dsimp only

theorem Dev.retrainLink_keeps {d : Dev} {p : Nat} : Dev.Keeps (.LNA_ALIGN :: .LNA_LANE_STATE :: .LNA_MRG_RESULT :: .LNA_RX_EQ ::
    .LNA_TRAIN_REF :: .LNA_TX_EQ :: .PRT_PORT_STATUS :: recordRegs) (.cmds :: .eqReported :: .lanes :: .ports :: recordParts) d
    (Dev.retrainLink d p) := by
  unfold Dev.retrainLink
  with_reducible repeat'
    first
      | intro x | assumption | apply Dev.Keeps.refl | apply Dev.Keeps.forEach | apply Dev.Keeps.step Dev.laneDetect_keeps
      | apply Dev.Keeps.step Dev.linkFalls_keeps | apply Dev.Keeps.ite | apply Dev.Keeps.foldl | (show (_ : Bool) = _; decide +kernel)
      | (show _ ∈ _; decide +kernel) | (show _ < _; decide +kernel) | split | dsimp only

theorem Dev.answered_keeps {d : Dev} {p subtype : Nat} : Dev.Keeps [] [.links] d (Dev.answered d p subtype) := by
  unfold Dev.answered
  with_reducible repeat'
    first
      | intro x | assumption | apply Dev.Keeps.refl | apply Dev.Keeps.step Dev.setLink_keeps | apply Dev.Keeps.ite
      | apply Dev.Keeps.foldl | (show (_ : Bool) = _; decide +kernel) | (show _ ∈ _; decide +kernel) | (show _ < _; decide +kernel)
      | split | dsimp only

theorem Dev.laneOff_keeps {d : Dev} {n : Nat} : Dev.Keeps [.LNA_ALIGN, .LNA_LANE_STATE, .LNA_MRG_RESULT, .LNA_TRAIN_REF] [.cmds, .lanes,
    .out, .ports] d (Dev.laneOff d n) := by
  unfold Dev.laneOff
  with_reducible repeat'
    first
      | intro x | assumption | apply Dev.Keeps.refl | apply Dev.Keeps.step Dev.emit_keeps | apply Dev.Keeps.step Dev.enterLane_keeps
      | apply Dev.Keeps.ite | apply Dev.Keeps.foldl | (show (_ : Bool) = _; decide +kernel) | (show _ ∈ _; decide +kernel)
      | (show _ < _; decide +kernel) | split | dsimp only

theorem Dev.sendCtl_keeps {d : Dev} {p subtype : Nat} {fields : List Nat} : Dev.Keeps [] [.out] d (Dev.sendCtl d p subtype fields) := by
  unfold Dev.sendCtl
  with_reducible repeat'
    first
      | intro x | assumption | apply Dev.Keeps.refl | apply Dev.Keeps.step Dev.emit_keeps | apply Dev.Keeps.ite
      | apply Dev.Keeps.foldl | (show (_ : Bool) = _; decide +kernel) | (show _ ∈ _; decide +kernel) | (show _ < _; decide +kernel)
      | split | dsimp only

theorem Dev.request_keeps {d : Dev} {p subtype : Nat} {fields : List Nat} : Dev.Keeps [] [.links, .out] d (Dev.request d p subtype
    fields) := by
  unfold Dev.request
  with_reducible repeat'
    first
      | intro x | assumption | apply Dev.Keeps.refl | apply Dev.Keeps.step Dev.sendCtl_keeps | apply Dev.Keeps.step Dev.setLink_keeps
      | apply Dev.Keeps.ite | apply Dev.Keeps.foldl | (show (_ : Bool) = _; decide +kernel) | (show _ ∈ _; decide +kernel)
      | (show _ < _; decide +kernel) | split | dsimp only

theorem Dev.laneStart_keeps {d : Dev} {n : Nat} : Dev.Keeps (.LNA_ALIGN :: .LNA_LANE_STATE :: .LNA_MRG_RESULT :: .LNA_RX_EQ ::
    .LNA_TRAIN_REF :: .LNA_TX_EQ :: recordRegs) (.cmds :: .eqReported :: .lanes :: .ports :: recordParts) d (Dev.laneStart d n) := by
  unfold Dev.laneStart
  with_reducible repeat'
    first
      | intro x | assumption | apply Dev.Keeps.refl | apply Dev.Keeps.step Dev.enterLane_keeps
      | apply Dev.Keeps.step Dev.laneDetect_keeps | apply Dev.Keeps.ite | apply Dev.Keeps.foldl
      | (show (_ : Bool) = _; decide +kernel) | (show _ ∈ _; decide +kernel) | (show _ < _; decide +kernel) | split | dsimp only

theorem Dev.scanResult_keeps {d : Dev} {n : Nat} {eyes : List Eye} : Dev.Keeps (.LNA_EVENTS :: .LNA_MRG_RESULT :: recordRegs)
    recordParts d (Dev.scanResult d n eyes) := by
  unfold Dev.scanResult
  with_reducible repeat'
    first
      | intro x | assumption | apply Dev.Keeps.refl | apply Dev.Keeps.put | apply Dev.Keeps.mark | apply Dev.Keeps.when
      | apply Dev.Keeps.step (Dev.raise_keeps ?_) | apply Dev.Keeps.ite | apply Dev.Keeps.foldl
      | (show (_ : Bool) = _; decide +kernel) | (show _ ∈ _; decide +kernel) | (show _ < _; decide +kernel) | split | dsimp only

theorem Dev.beginScan_keeps {d : Dev} {n axes : Nat} {load : Bool} : Dev.Keeps [.LNA_MRG_RESULT] [.lanes] d (Dev.beginScan d n axes
    load) := by
  unfold Dev.beginScan
  with_reducible repeat'
    first
      | intro x | assumption | apply Dev.Keeps.refl | apply Dev.Keeps.put | apply Dev.Keeps.step Dev.setLane_keeps
      | apply Dev.Keeps.ite | apply Dev.Keeps.foldl | (show (_ : Bool) = _; decide +kernel) | (show _ ∈ _; decide +kernel)
      | (show _ < _; decide +kernel) | split | dsimp only

theorem Dev.writeMargin_keeps {d : Dev} {n v : Nat} : Dev.Keeps [.LNA_MRG_CTL] [] d (Dev.writeMargin d n v) := by
  unfold Dev.writeMargin
  with_reducible repeat'
    first
      | intro x | assumption | apply Dev.Keeps.refl | apply Dev.Keeps.put | apply Dev.Keeps.when | apply Dev.Keeps.ite
      | apply Dev.Keeps.foldl | (show (_ : Bool) = _; decide +kernel) | (show _ ∈ _; decide +kernel) | (show _ < _; decide +kernel)
      | split | dsimp only

theorem Dev.failAttempt_keeps {d : Dev} {n : Nat} : Dev.Keeps (.LNA_ALIGN :: .LNA_EVENTS :: .LNA_LANE_STATE :: .LNA_MRG_RESULT ::
    .LNA_RX_EQ :: .LNA_TRAIN_REF :: .LNA_TX_EQ :: recordRegs) (.cmds :: .eqReported :: .lanes :: .ports :: recordParts) d
    (Dev.failAttempt d n) := by
  unfold Dev.failAttempt
  with_reducible repeat'
    first
      | intro x | assumption | apply Dev.Keeps.refl | apply Dev.Keeps.bump | apply Dev.Keeps.put
      | apply Dev.Keeps.step Dev.enterLane_keeps | apply Dev.Keeps.step Dev.laneDetect_keeps
      | apply Dev.Keeps.step (Dev.raise_keeps ?_) | apply Dev.Keeps.step Dev.setLane_keeps | apply Dev.Keeps.ite
      | apply Dev.Keeps.foldl | (show (_ : Bool) = _; decide +kernel) | (show _ ∈ _; decide +kernel) | (show _ < _; decide +kernel)
      | split | dsimp only

theorem Dev.enableLane_keeps {d : Dev} {n : Nat} : Dev.Keeps (.LNA_ALIGN :: .LNA_LANE_CFG :: .LNA_LANE_STATE :: .LNA_MRG_RESULT ::
    .LNA_RX_EQ :: .LNA_TRAIN_REF :: .LNA_TX_EQ :: recordRegs) (.cmds :: .eqReported :: .lanes :: .ports :: recordParts) d
    (Dev.enableLane d n) := by
  unfold Dev.enableLane
  with_reducible repeat'
    first
      | intro x | assumption | apply Dev.Keeps.refl | apply Dev.Keeps.put | apply Dev.Keeps.step Dev.laneStart_keeps
      | apply Dev.Keeps.ite | apply Dev.Keeps.foldl | (show (_ : Bool) = _; decide +kernel) | (show _ ∈ _; decide +kernel)
      | (show _ < _; decide +kernel) | split | dsimp only

theorem Dev.startPattern_keeps {d : Dev} {n r : Nat} : Dev.Keeps [.LNA_ALIGN, .LNA_LANE_STATE, .LNA_MRG_RESULT, .LNA_RX_EQ,
    .LNA_TRAIN_REF, .LNA_TX_EQ] [.cmds, .lanes, .out, .ports] d (Dev.startPattern d n r) := by
  unfold Dev.startPattern
  with_reducible repeat'
    first
      | intro x | assumption | apply Dev.Keeps.refl | apply Dev.Keeps.put | apply Dev.Keeps.when | apply Dev.Keeps.step Dev.emit_keeps
      | apply Dev.Keeps.step Dev.enterLane_keeps | apply Dev.Keeps.step Dev.loadEntry_keeps | apply Dev.Keeps.step Dev.setTaps_keeps
      | apply Dev.Keeps.ite | apply Dev.Keeps.foldl | (show (_ : Bool) = _; decide +kernel) | (show _ ∈ _; decide +kernel)
      | (show _ < _; decide +kernel) | split | dsimp only

theorem Dev.writeDelay_keeps {d : Dev} {master n delay : Nat} : Dev.Keeps (.LNA_BITSLIP :: recordRegs) (.lanes :: recordParts) d
    (Dev.writeDelay d master n delay) := by
  unfold Dev.writeDelay
  with_reducible repeat'
    first
      | intro x | assumption | apply Dev.Keeps.refl | apply Dev.Keeps.put | apply Dev.Keeps.step Dev.setLane_keeps
      | apply Dev.Keeps.step Dev.valueRefused_keeps | apply Dev.Keeps.ite | apply Dev.Keeps.foldl
      | (show (_ : Bool) = _; decide +kernel) | (show _ ∈ _; decide +kernel) | (show _ < _; decide +kernel) | split | dsimp only

theorem Dev.trySteps_keeps {d : Dev} {n : Nat} {taps : Nat × Nat} {score : Nat} {steps : List (TapStep × Nat)} :
    Dev.Keeps [] [.out] d (d.trySteps n taps score steps).2 := by
  induction steps generalizing d taps score with
  | nil => exact .refl _ _ _
  | cons x r ih =>
    obtain ⟨s, o⟩ := x
    unfold Dev.trySteps
    split
    · exact ih
    · have h : ∀ (e : Dev) y, Dev.Keeps [] [.out] d e → Dev.Keeps [] [.out] d (e.emit y) := fun e y he =>
        .step Dev.emit_keeps (by decide +kernel) (by decide +kernel) he
      dsimp only
      split
      · exact ih.step' (h _ _ (.refl _ _ _))
      · exact ih.step' (h _ _ (h _ _ (.refl _ _ _)))

theorem Dev.startScan_keeps {d : Dev} {n : Nat} {load : Bool} : Dev.Keeps [.LNA_MRG_RESULT] [.lanes] d (Dev.startScan d n load) := by
  unfold Dev.startScan
  with_reducible repeat'
    first
      | intro x | assumption | apply Dev.Keeps.refl | apply Dev.Keeps.step Dev.beginScan_keeps | apply Dev.Keeps.ite
      | apply Dev.Keeps.foldl | (show (_ : Bool) = _; decide +kernel) | (show _ ∈ _; decide +kernel) | (show _ < _; decide +kernel)
      | split | dsimp only

theorem Dev.askWidth_keeps {d : Dev} {p code : Nat} {lanes : List Nat} {narrowing : Bool} : Dev.Keeps [.FLL_LINK_STATUS] [.links, .out,
    .pausedLinks] d (Dev.askWidth d p code lanes narrowing) := by
  unfold Dev.askWidth
  with_reducible repeat'
    first
      | intro x | assumption | apply Dev.Keeps.refl | apply Dev.Keeps.put | apply Dev.Keeps.step Dev.request_keeps
      | apply Dev.Keeps.step Dev.setLink_keeps | apply Dev.Keeps.ite | apply Dev.Keeps.foldl | (show (_ : Bool) = _; decide +kernel)
      | (show _ ∈ _; decide +kernel) | (show _ < _; decide +kernel) | split | apply Dev.Keeps.set_pausedLinks | dsimp only

theorem Dev.writeTaps_keeps {d : Dev} {master n pre post : Nat} : Dev.Keeps (.LNA_TX_EQ :: recordRegs) recordParts d (Dev.writeTaps d
    master n pre post) := by
  unfold Dev.writeTaps
  with_reducible repeat'
    first
      | intro x | assumption | apply Dev.Keeps.refl | apply Dev.Keeps.step Dev.setTaps_keeps
      | apply Dev.Keeps.step Dev.valueRefused_keeps | apply Dev.Keeps.ite | apply Dev.Keeps.foldl
      | (show (_ : Bool) = _; decide +kernel) | (show _ ∈ _; decide +kernel) | (show _ < _; decide +kernel) | split | dsimp only

theorem Dev.disableLane_keeps {d : Dev} {n : Nat} : Dev.Keeps [.LNA_ALIGN, .LNA_LANE_CFG, .LNA_LANE_STATE, .LNA_MRG_RESULT,
    .LNA_TRAIN_REF] [.cmds, .lanes, .out, .ports] d (Dev.disableLane d n) := by
  unfold Dev.disableLane
  with_reducible repeat'
    first
      | intro x | assumption | apply Dev.Keeps.refl | apply Dev.Keeps.put | apply Dev.Keeps.step Dev.laneOff_keeps
      | apply Dev.Keeps.step Dev.setLane_keeps | apply Dev.Keeps.ite | apply Dev.Keeps.foldl | (show (_ : Bool) = _; decide +kernel)
      | (show _ ∈ _; decide +kernel) | (show _ < _; decide +kernel) | split | dsimp only

theorem Dev.applyDelay_keeps {d : Dev} {n : Nat} : Dev.Keeps [.LNA_ALIGN, .LNA_BITSLIP] [.lanes] d (Dev.applyDelay d n) := by
  unfold Dev.applyDelay
  with_reducible repeat'
    first
      | intro x | assumption | apply Dev.Keeps.refl | apply Dev.Keeps.put | apply Dev.Keeps.step Dev.setLane_keeps
      | apply Dev.Keeps.ite | apply Dev.Keeps.foldl | (show (_ : Bool) = _; decide +kernel) | (show _ ∈ _; decide +kernel)
      | (show _ < _; decide +kernel) | split | dsimp only

theorem Dev.requestedTaps_keeps {d : Dev} {n : Nat} {r : TapRequest} : Dev.Keeps [] [.drawn] d (Dev.requestedTaps d n r).2 := by
  unfold Dev.requestedTaps
  with_reducible repeat'
    first
      | intro x | assumption | apply Dev.Keeps.refl | apply Dev.Keeps.step Dev.draw_keeps | apply Dev.Keeps.ite
      | apply Dev.Keeps.foldl | (show (_ : Bool) = _; decide +kernel) | (show _ ∈ _; decide +kernel) | (show _ < _; decide +kernel)
      | split | refine Dev.Keeps.pair Dev.draw_keeps (by assumption) ?_ ?_ ?_ | dsimp only

theorem Dev.searchTaps_keeps {d : Dev} {n : Nat} {x : EqSearch} : Dev.Keeps [] [.lanes, .out] d (Dev.searchTaps d n x) := by
  unfold Dev.searchTaps
  with_reducible repeat'
    first
      | intro x | assumption | apply Dev.Keeps.refl | apply Dev.Keeps.forEach | apply Dev.Keeps.step Dev.emit_keeps
      | apply Dev.Keeps.step Dev.setLane_keeps | apply Dev.Keeps.step Dev.trySteps_keeps | apply Dev.Keeps.ite | apply Dev.Keeps.foldl
      | (show (_ : Bool) = _; decide +kernel) | (show _ ∈ _; decide +kernel) | (show _ < _; decide +kernel) | split
      | refine Dev.Keeps.pair Dev.trySteps_keeps (by assumption) ?_ ?_ ?_ | dsimp only

end Sys2Proof.Machine
end

