-- ==== Sys2Proof/Laws/KeepsMailboxes.lean ====
section
/-! SUPPORT. What each operation of Machine/Mailboxes.lean may change: every register and structure outside the lists named stays as it was. -/

set_option Elab.async false
set_option linter.all false

namespace Sys2Proof.Machine

theorem Dev.resetRegs_keeps {d : Dev} {rs : List Reg} {i : Nat} : Dev.Keeps rs [] d (d.resetRegs rs i) := by
  refine ⟨fun f j hf hlo => ?_, fun p _ => by cases p <;> rfl⟩
  have hk : f.key j % 8192 / 32 = f.reg.ctorIdx := by
    have h1 := f.reg.ctorIdx_lt
    unfold Fld.key Fld.code
    omega
  have h : ∀ m : SMap Nat, SMap.find (m.filter fun e => !(e.1 / 8192 == i && rs.any fun (r : Reg) => e.1 % 8192 / 32 == r.ctorIdx))
      (f.key j) = SMap.find m (f.key j) := by
    intro m
    induction m with
    | nil => rfl
    | cons x r ih =>
      by_cases hx : x.1 = f.key j
      · have hn : (rs.any fun (r : Reg) => x.1 % 8192 / 32 == r.ctorIdx) = false := by
          rw [List.any_eq_false]
          intro q hq hc
          exact hf (by rwa [Reg.ctorIdx_inj (hk.symm.trans (hx ▸ eq_of_beq hc))])
        rw [List.filter_cons]
        simp only [hn, Bool.and_false, Bool.not_false, if_true]
        simp [SMap.find, hx]
      · rw [List.filter_cons]
        split
        · exact (if_neg hx).trans (ih.trans (if_neg hx).symm)
        · exact ih.trans (if_neg hx).symm
  simp only [Dev.get, SMap.get, Dev.resetRegs, h]

theorem Dev.setChannel_keeps {d : Dev} {c : Nat} {q : List Nat} : Dev.Keeps [] [.chans] d (Dev.setChannel d c q) := by
  unfold Dev.setChannel
  with_reducible repeat'
    first
      | intro x | assumption | apply Dev.Keeps.refl | apply Dev.Keeps.ite | apply Dev.Keeps.foldl
      | (show (_ : Bool) = _; decide +kernel) | (show _ ∈ _; decide +kernel) | (show _ < _; decide +kernel) | split
      | apply Dev.Keeps.set_chans | dsimp only

theorem Dev.abortMaster_keeps {d : Dev} {master reason : Nat} : Dev.Keeps (.MBX_CH_STATUS :: recordRegs) (.chans :: recordParts) d
    (Dev.abortMaster d master reason) := by
  unfold Dev.abortMaster
  with_reducible repeat'
    first
      | intro x | assumption | apply Dev.Keeps.refl | apply Dev.Keeps.put | apply Dev.Keeps.forEach | apply Dev.Keeps.bump
      | apply Dev.Keeps.step Dev.count_keeps | apply Dev.Keeps.step Dev.record_keeps | apply Dev.Keeps.step Dev.setChannel_keeps
      | apply Dev.Keeps.ite | apply Dev.Keeps.foldl | (show (_ : Bool) = _; decide +kernel) | (show _ ∈ _; decide +kernel)
      | (show _ < _; decide +kernel) | split | dsimp only

theorem Dev.endTargets_keeps {d : Dev} {lv : Nat} : Dev.Keeps [] [.cats, .samples, .spcs] d (Dev.endTargets d lv) := by
  unfold Dev.endTargets
  with_reducible repeat'
    first
      | intro x | assumption | apply Dev.Keeps.refl | apply Dev.Keeps.ite | apply Dev.Keeps.foldl
      | (show (_ : Bool) = _; decide +kernel) | (show _ ∈ _; decide +kernel) | (show _ < _; decide +kernel) | split
      | apply Dev.Keeps.set_cats_spcs_samples | apply Dev.Keeps.set_spcs | apply Dev.Keeps.set_samples | apply Dev.Keeps.set_cats
      | dsimp only

theorem Dev.resetCfg_keeps {d : Dev} {lv f : Nat} : Dev.Keeps [] [.cfg] d (Dev.resetCfg d lv f) := by
  unfold Dev.resetCfg
  with_reducible repeat'
    first
      | intro x | assumption | apply Dev.Keeps.refl | apply Dev.Keeps.ite | apply Dev.Keeps.foldl
      | (show (_ : Bool) = _; decide +kernel) | (show _ ∈ _; decide +kernel) | (show _ < _; decide +kernel) | split
      | apply Dev.Keeps.set_cfg | dsimp only

theorem Dev.finishFlr_keeps {d : Dev} {lv : Nat} : Dev.Keeps [.VMF_BME, .VMF_CAT_ADDR_HI, .VMF_CAT_ADDR_LO, .VMF_CAT_SIZE,
    .VMF_CAT_WPTR, .VMF_CPL_TMO, .VMF_EVENT_FLAGS, .VMF_EVENT_MASK, .VMF_INTX, .VMF_SPC_ADDR_HI, .VMF_SPC_ADDR_LO, .VMF_SPC_SIZE,
    .VMF_SPC_WPTR] [.cats, .cfg, .ctrs, .out, .samples, .spcs, .vits, .vmfs] d (Dev.finishFlr d lv) := by
  unfold Dev.finishFlr
  with_reducible repeat'
    first
      | intro x | assumption | apply Dev.Keeps.refl | apply Dev.Keeps.step Dev.contribute_keeps
      | apply Dev.Keeps.step Dev.endTargets_keeps | apply Dev.Keeps.step Dev.resetCfg_keeps | apply Dev.Keeps.step Dev.resetRegs_keeps
      | apply Dev.Keeps.step Dev.setVmf_keeps | apply Dev.Keeps.ite | apply Dev.Keeps.foldl | (show (_ : Bool) = _; decide +kernel)
      | (show _ ∈ _; decide +kernel) | (show _ < _; decide +kernel) | split | dsimp only

theorem Dev.showReads_keeps {d : Dev} {lv : Nat} : Dev.Keeps [.VMF_BME] [] d (Dev.showReads d lv) := by
  unfold Dev.showReads
  with_reducible repeat'
    first
      | intro x | assumption | apply Dev.Keeps.refl | apply Dev.Keeps.put | apply Dev.Keeps.mark | apply Dev.Keeps.ite
      | apply Dev.Keeps.foldl | (show (_ : Bool) = _; decide +kernel) | (show _ ∈ _; decide +kernel) | (show _ < _; decide +kernel)
      | split | dsimp only

theorem Dev.clearBme_keeps {d : Dev} {lv : Nat} : Dev.Keeps [.VMF_BME] [.vmfs] d (Dev.clearBme d lv) := by
  unfold Dev.clearBme
  with_reducible repeat'
    first
      | intro x | assumption | apply Dev.Keeps.refl | apply Dev.Keeps.step Dev.setVmf_keeps | apply Dev.Keeps.step Dev.showReads_keeps
      | apply Dev.Keeps.ite | apply Dev.Keeps.foldl | (show (_ : Bool) = _; decide +kernel) | (show _ ∈ _; decide +kernel)
      | (show _ < _; decide +kernel) | split | dsimp only

theorem Dev.startFlr_keeps {d : Dev} {lv : Nat} : Dev.Keeps (.MBX_CH_STATUS :: .VMF_BME :: .VMF_CAT_ADDR_HI :: .VMF_CAT_ADDR_LO ::
    .VMF_CAT_SIZE :: .VMF_CAT_WPTR :: .VMF_CPL_TMO :: .VMF_EVENT_MASK :: .VMF_SPC_ADDR_HI :: .VMF_SPC_ADDR_LO :: .VMF_SPC_SIZE ::
    .VMF_SPC_WPTR :: recordRegs) (.cats :: .cfg :: .chans :: .samples :: .spcs :: .vmfs :: recordParts) d (Dev.startFlr d lv) := by
  unfold Dev.startFlr
  with_reducible repeat'
    first
      | intro x | assumption | apply Dev.Keeps.refl | apply Dev.Keeps.step Dev.abortMaster_keeps
      | apply Dev.Keeps.step Dev.clearBme_keeps | apply Dev.Keeps.step Dev.finishFlr_keeps | apply Dev.Keeps.step Dev.setVmf_keeps
      | apply Dev.Keeps.ite | apply Dev.Keeps.foldl | (show (_ : Bool) = _; decide +kernel) | (show _ ∈ _; decide +kernel)
      | (show _ < _; decide +kernel) | split | dsimp only

theorem Dev.channelRefused_keeps {d : Dev} {master c off : Nat} : Dev.Keeps recordRegs recordParts d (Dev.channelRefused d master c off)
    := by
  unfold Dev.channelRefused
  with_reducible repeat'
    first
      | intro x | assumption | apply Dev.Keeps.refl | apply Dev.Keeps.step Dev.accessRecord_keeps | apply Dev.Keeps.ite
      | apply Dev.Keeps.foldl | (show (_ : Bool) = _; decide +kernel) | (show _ ∈ _; decide +kernel) | (show _ < _; decide +kernel)
      | split | dsimp only

theorem Dev.popNotice_keeps {d : Dev} {c : Nat} : Dev.Keeps [] [.chans] d (Dev.popNotice d c) := by
  unfold Dev.popNotice
  with_reducible repeat'
    first
      | intro x | assumption | apply Dev.Keeps.refl | apply Dev.Keeps.step Dev.setChannel_keeps | apply Dev.Keeps.ite
      | apply Dev.Keeps.foldl | (show (_ : Bool) = _; decide +kernel) | (show _ ∈ _; decide +kernel) | (show _ < _; decide +kernel)
      | split | dsimp only

theorem Dev.writePop_keeps {d : Dev} {master c v : Nat} : Dev.Keeps recordRegs (.chans :: recordParts) d (Dev.writePop d master c v) :=
    by
  unfold Dev.writePop
  with_reducible repeat'
    first
      | intro x | assumption | apply Dev.Keeps.refl | apply Dev.Keeps.when | apply Dev.Keeps.step Dev.channelRefused_keeps
      | apply Dev.Keeps.step Dev.popNotice_keeps | apply Dev.Keeps.ite | apply Dev.Keeps.foldl | (show (_ : Bool) = _; decide +kernel)
      | (show _ ∈ _; decide +kernel) | (show _ < _; decide +kernel) | split | dsimp only

theorem Dev.postNotice_keeps {d : Dev} {c notice : Nat} : Dev.Keeps (.MBX_CH_STATUS :: recordRegs) (.chans :: recordParts) d
    (Dev.postNotice d c notice) := by
  unfold Dev.postNotice
  with_reducible repeat'
    first
      | intro x | assumption | apply Dev.Keeps.refl | apply Dev.Keeps.put | apply Dev.Keeps.bump
      | apply Dev.Keeps.step Dev.count_keeps | apply Dev.Keeps.step Dev.record_keeps | apply Dev.Keeps.step Dev.setChannel_keeps
      | apply Dev.Keeps.ite | apply Dev.Keeps.foldl | (show (_ : Bool) = _; decide +kernel) | (show _ ∈ _; decide +kernel)
      | (show _ < _; decide +kernel) | split | dsimp only

theorem Dev.writePtrHi_keeps {d : Dev} {master c v : Nat} : Dev.Keeps (.MBX_CH_PTR_HI :: .MBX_CH_STATUS :: recordRegs) (.chans ::
    recordParts) d (Dev.writePtrHi d master c v) := by
  unfold Dev.writePtrHi
  with_reducible repeat'
    first
      | intro x | assumption | apply Dev.Keeps.refl | apply Dev.Keeps.put | apply Dev.Keeps.step Dev.channelRefused_keeps
      | apply Dev.Keeps.step Dev.postNotice_keeps | apply Dev.Keeps.ite | apply Dev.Keeps.foldl
      | (show (_ : Bool) = _; decide +kernel) | (show _ ∈ _; decide +kernel) | (show _ < _; decide +kernel) | split | dsimp only

theorem Dev.fetchLost_keeps {d : Dev} {lv : Nat} : Dev.Keeps recordRegs recordParts d (Dev.fetchLost d lv) := by
  unfold Dev.fetchLost
  with_reducible repeat'
    first
      | intro x | assumption | apply Dev.Keeps.refl | apply Dev.Keeps.step Dev.count_keeps | apply Dev.Keeps.step Dev.record_keeps
      | apply Dev.Keeps.step (Dev.vmfFlag_keeps ?_) | apply Dev.Keeps.ite | apply Dev.Keeps.foldl
      | (show (_ : Bool) = _; decide +kernel) | (show _ ∈ _; decide +kernel) | (show _ < _; decide +kernel) | split | dsimp only

theorem Dev.loseReads_keeps {d : Dev} {lv : Nat} : Dev.Keeps recordRegs recordParts d (Dev.loseReads d lv) := by
  unfold Dev.loseReads
  with_reducible repeat'
    first
      | intro x | assumption | apply Dev.Keeps.refl | apply Dev.Keeps.forEach | apply Dev.Keeps.step Dev.fetchLost_keeps
      | apply Dev.Keeps.ite | apply Dev.Keeps.foldl | (show (_ : Bool) = _; decide +kernel) | (show _ ∈ _; decide +kernel)
      | (show _ < _; decide +kernel) | split | dsimp only

theorem Dev.checkBindings_keeps {d : Dev} : Dev.Keeps (.MBX_BIND :: recordRegs) recordParts d (Dev.checkBindings d) := by
  unfold Dev.checkBindings
  with_reducible repeat'
    first
      | intro x | assumption | apply Dev.Keeps.refl | apply Dev.Keeps.put | apply Dev.Keeps.when | apply Dev.Keeps.forEach
      | apply Dev.Keeps.step Dev.record_keeps | apply Dev.Keeps.ite | apply Dev.Keeps.foldl | (show (_ : Bool) = _; decide +kernel)
      | (show _ ∈ _; decide +kernel) | (show _ < _; decide +kernel) | split | dsimp only

theorem Dev.writeLock_keeps {d : Dev} {master v : Nat} : Dev.Keeps (.MBX_BIND :: .MBX_LOCK :: recordRegs) recordParts d (Dev.writeLock d
    master v) := by
  unfold Dev.writeLock
  with_reducible repeat'
    first
      | intro x | assumption | apply Dev.Keeps.refl | apply Dev.Keeps.put | apply Dev.Keeps.step Dev.accessRecord_keeps
      | apply Dev.Keeps.step Dev.checkBindings_keeps | apply Dev.Keeps.ite | apply Dev.Keeps.foldl
      | (show (_ : Bool) = _; decide +kernel) | (show _ ∈ _; decide +kernel) | (show _ < _; decide +kernel) | split | dsimp only

end Sys2Proof.Machine
end

