-- ==== Sys2Proof/Laws/KeepsHierarchy.lean ====
section
/-! SUPPORT. What each operation of Machine/Hierarchy.lean may change: every register and structure outside the lists named stays as it was. -/

set_option Elab.async false
set_option linter.all false

namespace Sys2Proof.Machine

theorem Dev.present_keeps {d : Dev} {lv : Nat} : Dev.Keeps (.LNA_ALIGN :: .LNA_LANE_STATE :: .LNA_MRG_RESULT :: .LNA_RX_EQ ::
    .LNA_TRAIN_REF :: .LNA_TX_EQ :: .PRT_PORT_STATUS :: .VIT_STATE :: recordRegs) (.cmds :: .eqReported :: .lanes :: .owesDetect ::
    .owesDrs :: .ports :: recordParts) d (Dev.present d lv) := by
  unfold Dev.present
  with_reducible repeat'
    first
      | intro x | assumption | apply Dev.Keeps.refl | apply Dev.Keeps.step Dev.count_keeps | apply Dev.Keeps.step Dev.emit_keeps
      | apply Dev.Keeps.step Dev.retrainLink_keeps | apply Dev.Keeps.step Dev.setVitState_keeps | apply Dev.Keeps.ite
      | apply Dev.Keeps.foldl | (show (_ : Bool) = _; decide +kernel) | (show _ ∈ _; decide +kernel) | (show _ < _; decide +kernel)
      | split | apply Dev.Keeps.set_owesDrs_owesDetect | apply Dev.Keeps.set_owesDrs | apply Dev.Keeps.set_owesDetect | dsimp only

theorem Dev.slotIntx_keeps {d : Dev} {lv k : Nat} : Dev.Keeps [] [.ctrs, .out, .vits] d (Dev.slotIntx d lv k) := by
  unfold Dev.slotIntx
  with_reducible repeat'
    first
      | intro x | assumption | apply Dev.Keeps.refl | apply Dev.Keeps.step Dev.contribute_keeps | apply Dev.Keeps.ite
      | apply Dev.Keeps.foldl | (show (_ : Bool) = _; decide +kernel) | (show _ ∈ _; decide +kernel) | (show _ < _; decide +kernel)
      | split | dsimp only

theorem Dev.slotEvent_keeps {d : Dev} {lv k : Nat} {f : VPort → VPort} : Dev.Keeps [] [.ctrs, .out, .vits, .vports] d (Dev.slotEvent d
    lv k f) := by
  unfold Dev.slotEvent
  with_reducible repeat'
    first
      | intro x | assumption | apply Dev.Keeps.refl | apply Dev.Keeps.when | apply Dev.Keeps.step Dev.emit_keeps
      | apply Dev.Keeps.step Dev.setVport_keeps | apply Dev.Keeps.step Dev.slotIntx_keeps | apply Dev.Keeps.ite
      | apply Dev.Keeps.foldl | (show (_ : Bool) = _; decide +kernel) | (show _ ∈ _; decide +kernel) | (show _ < _; decide +kernel)
      | split | dsimp only

theorem Dev.slotGone_keeps {d : Dev} {lv k : Nat} : Dev.Keeps [] [.ctrs, .out, .vits, .vports] d (Dev.slotGone d lv k) := by
  unfold Dev.slotGone
  with_reducible repeat'
    first
      | intro x | assumption | apply Dev.Keeps.refl | apply Dev.Keeps.step Dev.slotEvent_keeps | apply Dev.Keeps.ite
      | apply Dev.Keeps.foldl | (show (_ : Bool) = _; decide +kernel) | (show _ ∈ _; decide +kernel) | (show _ < _; decide +kernel)
      | split | dsimp only

theorem Dev.squashInternal_keeps {d : Dev} {p gvh : Nat} : Dev.Keeps [.WR_Q_DRR] [.cellsFree, .ctrs, .dwins, .outs, .queues] d
    (Dev.squashInternal d p gvh) := by
  unfold Dev.squashInternal
  with_reducible repeat'
    first
      | intro x | assumption | apply Dev.Keeps.refl | apply Dev.Keeps.forEach | apply Dev.dropFrames_keeps
      | apply Dev.Keeps.step countSquashed_keeps | apply Dev.Keeps.ite | apply Dev.Keeps.foldl | (show (_ : Bool) = _; decide +kernel)
      | (show _ ∈ _; decide +kernel) | (show _ < _; decide +kernel) | split | dsimp only

theorem Dev.squashEntries_keeps {d : Dev} {lv : Nat} : Dev.Keeps [] [.arrived, .trk] d (Dev.squashEntries d lv) := by
  unfold Dev.squashEntries
  with_reducible repeat'
    first
      | intro x | assumption | apply Dev.Keeps.refl | apply Dev.Keeps.forEach | apply Dev.Keeps.step Dev.squash_keeps
      | apply Dev.Keeps.step Dev.tell_keeps | apply Dev.Keeps.ite | apply Dev.Keeps.foldl | (show (_ : Bool) = _; decide +kernel)
      | (show _ ∈ _; decide +kernel) | (show _ < _; decide +kernel) | split | dsimp only

theorem Dev.setBound_keeps {d : Dev} {b : Binding} {f : EpBind → EpBind} : Dev.Keeps [] [.endpoints] d (Dev.setBound d b f) := by
  unfold Dev.setBound
  with_reducible repeat'
    first
      | intro x | assumption | apply Dev.Keeps.refl | apply Dev.Keeps.when | apply Dev.Keeps.step Dev.setEndpoint_keeps
      | apply Dev.Keeps.ite | apply Dev.Keeps.foldl | (show (_ : Bool) = _; decide +kernel) | (show _ ∈ _; decide +kernel)
      | (show _ < _; decide +kernel) | split | dsimp only

theorem Dev.refuseBinding_keeps {d : Dev} {lv : Nat} {b : Binding} {on : Bool} : Dev.Keeps [] [.arrived, .endpoints] d
    (Dev.refuseBinding d lv b on) := by
  unfold Dev.refuseBinding
  with_reducible repeat'
    first
      | intro x | assumption | apply Dev.Keeps.refl | apply Dev.Keeps.when | apply Dev.Keeps.step Dev.setBound_keeps
      | apply Dev.Keeps.step Dev.tell_keeps | apply Dev.Keeps.ite | apply Dev.Keeps.foldl | (show (_ : Bool) = _; decide +kernel)
      | (show _ ∈ _; decide +kernel) | (show _ < _; decide +kernel) | split | dsimp only

theorem Dev.setBinding_keeps {d : Dev} {lv k : Nat} {f : Binding → Binding} : Dev.Keeps [] [.vits] d (Dev.setBinding d lv k f) := by
  unfold Dev.setBinding
  with_reducible repeat'
    first
      | intro x | assumption | apply Dev.Keeps.refl | apply Dev.Keeps.step Dev.setVit_keeps | apply Dev.Keeps.ite
      | apply Dev.Keeps.foldl | (show (_ : Bool) = _; decide +kernel) | (show _ ∈ _; decide +kernel) | (show _ < _; decide +kernel)
      | split | dsimp only

theorem Dev.clearEndpointIntx_keeps {d : Dev} {lv k : Nat} : Dev.Keeps [] [.ctrs, .out, .vits] d (Dev.clearEndpointIntx d lv k) := by
  unfold Dev.clearEndpointIntx
  with_reducible repeat'
    first
      | intro x | assumption | apply Dev.Keeps.refl | apply Dev.Keeps.step Dev.clearContributions_keeps | apply Dev.Keeps.ite
      | apply Dev.Keeps.foldl | (show (_ : Bool) = _; decide +kernel) | (show _ ∈ _; decide +kernel) | (show _ < _; decide +kernel)
      | split | dsimp only

theorem Dev.resetEngine_keeps {d : Dev} {n : Nat} : Dev.Keeps [.TUN_CE_GEOM, .TUN_CE_IRQ, .TUN_CE_MODE, .TUN_CE_SCANOUT, .TUN_CE_STATUS,
    .TUN_CE_STRIDE] [.engines] d (Dev.resetEngine d n) := by
  unfold Dev.resetEngine
  with_reducible repeat'
    first
      | intro x | assumption | apply Dev.Keeps.refl | apply Dev.Keeps.put | apply Dev.Keeps.step Dev.resetRegs_keeps
      | apply Dev.Keeps.ite | apply Dev.Keeps.foldl | (show (_ : Bool) = _; decide +kernel) | (show _ ∈ _; decide +kernel)
      | (show _ < _; decide +kernel) | split | apply Dev.Keeps.set_engines | dsimp only

theorem Dev.applyReset_keeps {d : Dev} {p e : Nat} : Dev.Keeps [.TUN_CE_GEOM, .TUN_CE_IRQ, .TUN_CE_MODE, .TUN_CE_SCANOUT,
    .TUN_CE_STATUS, .TUN_CE_STRIDE] [.endpoints, .engines, .out] d (Dev.applyReset d p e) := by
  unfold Dev.applyReset
  with_reducible repeat'
    first
      | intro x | assumption | apply Dev.Keeps.refl | apply Dev.Keeps.step Dev.emit_keeps | apply Dev.Keeps.step Dev.resetEngine_keeps
      | apply Dev.Keeps.step Dev.setEndpoint_keeps | apply Dev.Keeps.ite | apply Dev.Keeps.foldl
      | (show (_ : Bool) = _; decide +kernel) | (show _ ∈ _; decide +kernel) | (show _ < _; decide +kernel) | split | dsimp only

theorem Dev.resetEndpoint_keeps {d : Dev} {p e : Nat} : Dev.Keeps [.TUN_CE_GEOM, .TUN_CE_IRQ, .TUN_CE_MODE, .TUN_CE_SCANOUT,
    .TUN_CE_STATUS, .TUN_CE_STRIDE] [.endpoints, .engines, .out] d (Dev.resetEndpoint d p e) := by
  unfold Dev.resetEndpoint
  with_reducible repeat'
    first
      | intro x | assumption | apply Dev.Keeps.refl | apply Dev.Keeps.step Dev.applyReset_keeps
      | apply Dev.Keeps.step Dev.setEndpoint_keeps | apply Dev.Keeps.ite | apply Dev.Keeps.foldl
      | (show (_ : Bool) = _; decide +kernel) | (show _ ∈ _; decide +kernel) | (show _ < _; decide +kernel) | split | dsimp only

theorem Dev.resetBinding_keeps {d : Dev} {b : Binding} : Dev.Keeps [.TUN_CE_GEOM, .TUN_CE_IRQ, .TUN_CE_MODE, .TUN_CE_SCANOUT,
    .TUN_CE_STATUS, .TUN_CE_STRIDE] [.arrived, .endpoints, .engines, .out] d (Dev.resetBinding d b) := by
  unfold Dev.resetBinding
  with_reducible repeat'
    first
      | intro x | assumption | apply Dev.Keeps.refl | apply Dev.Keeps.step Dev.resetEndpoint_keeps
      | apply Dev.Keeps.step Dev.tell_keeps | apply Dev.Keeps.ite | apply Dev.Keeps.foldl | (show (_ : Bool) = _; decide +kernel)
      | (show _ ∈ _; decide +kernel) | (show _ < _; decide +kernel) | split | dsimp only

theorem Dev.unreserve_keeps {d : Dev} {n : Nat} : Dev.Keeps [.TRK_CPL_RSV, .TRK_FREE] [] d (Dev.unreserve d n) := by
  unfold Dev.unreserve
  with_reducible repeat'
    first
      | intro x | assumption | apply Dev.Keeps.refl | apply Dev.Keeps.put | apply Dev.Keeps.ite | apply Dev.Keeps.foldl
      | (show (_ : Bool) = _; decide +kernel) | (show _ ∈ _; decide +kernel) | (show _ < _; decide +kernel) | split | dsimp only

theorem Dev.squashOnce_keeps {d : Dev} {q : Nat} : Dev.Keeps [.BSN_Q_STATUS, .WR_Q_DRR] [.cellsFree, .ctrs, .dwins, .outs, .queues] d
    (Dev.squashOnce d q) := by
  unfold Dev.squashOnce
  with_reducible repeat'
    first
      | intro x | assumption | apply Dev.Keeps.refl | apply Dev.Keeps.put | apply Dev.Keeps.step Dev.squashQueue_keeps
      | apply Dev.Keeps.ite | apply Dev.Keeps.foldl | (show (_ : Bool) = _; decide +kernel) | (show _ ∈ _; decide +kernel)
      | (show _ < _; decide +kernel) | split | dsimp only

theorem Dev.dropSlot_keeps {d : Dev} {p gvh : Nat} : Dev.Keeps [.BSN_Q_STATUS, .WR_Q_DRR] [.cellsFree, .ctrs, .dwins, .outs, .queues,
    .slots] d (Dev.dropSlot d p gvh) := by
  unfold Dev.dropSlot
  with_reducible repeat'
    first
      | intro x | assumption | apply Dev.Keeps.refl | apply Dev.Keeps.forEach | apply Dev.Keeps.step Dev.squashOnce_keeps
      | apply Dev.Keeps.ite | apply Dev.Keeps.foldl | (show (_ : Bool) = _; decide +kernel) | (show _ ∈ _; decide +kernel)
      | (show _ < _; decide +kernel) | split | apply Dev.Keeps.set_slots | dsimp only

theorem Dev.freeBinding_keeps {d : Dev} {lv : Nat} {b : Binding} : Dev.Keeps [.ATT_CTL, .ATT_EP_HI, .ATT_EP_LO, .ATT_FPID, .ATT_HOST_HI,
    .ATT_HOST_LO, .BSN_Q_STATUS, .EBR_CRD_AVAIL, .EBR_CRD_GRANT, .PIN_CTL, .PIN_DST, .PIN_OLD, .PIN_SRC, .PIN_TCUT_HI, .PIN_TCUT_LO,
    .TRK_CPL_RSV, .TRK_FREE, .WR_Q_DRR] [.arrived, .atts, .cellsFree, .cmds, .ctrs, .dwins, .endpoints, .outs, .pins, .queues, .slots,
    .vits, .vports, .wins] d (Dev.freeBinding d lv b) := by
  unfold Dev.freeBinding
  with_reducible repeat'
    first
      | intro x | assumption | apply Dev.Keeps.refl | apply Dev.Keeps.when | apply Dev.Keeps.forEach
      | apply Dev.Keeps.step Dev.closeWindow_keeps | apply Dev.Keeps.step Dev.dropSlot_keeps
      | apply Dev.Keeps.step Dev.endWaiting_keeps | apply Dev.Keeps.step Dev.setAtt_keeps | apply Dev.Keeps.step Dev.setEndpoint_keeps
      | apply Dev.Keeps.step Dev.setVit_keeps | apply Dev.Keeps.step Dev.setVport_keeps | apply Dev.Keeps.step Dev.tell_keeps
      | apply Dev.Keeps.step Dev.unreserve_keeps | apply Dev.Keeps.ite | apply Dev.Keeps.foldl | (show (_ : Bool) = _; decide +kernel)
      | (show _ ∈ _; decide +kernel) | (show _ < _; decide +kernel) | split | dsimp only

theorem Dev.finishUnbind_keeps {d : Dev} {lv : Nat} {b : Binding} : Dev.Keeps (.ATT_CTL :: .ATT_EP_HI :: .ATT_EP_LO :: .ATT_FPID ::
    .ATT_HOST_HI :: .ATT_HOST_LO :: .BSN_Q_STATUS :: .EBR_CRD_AVAIL :: .EBR_CRD_GRANT :: .EBR_LOCK :: .EBR_PFLOG_HEAD ::
    .EBR_RAT_PFDISC_HI :: .EBR_RAT_PFDISC_LO :: .PIN_CTL :: .PIN_DST :: .PIN_OLD :: .PIN_SRC :: .PIN_TCUT_HI :: .PIN_TCUT_LO ::
    .TRK_CPL_RSV :: .TRK_FREE :: .TUN_CE_GEOM :: .TUN_CE_IRQ :: .TUN_CE_MODE :: .TUN_CE_SCANOUT :: .TUN_CE_STATUS :: .TUN_CE_STRIDE ::
    .WR_Q_DRR :: recordRegs) (.arrived :: .atts :: .cellsFree :: .cmds :: .cores :: .dwins :: .endpoints :: .engines :: .lockSince ::
    .lockSrc :: .outs :: .pfLog :: .pfSeq :: .pins :: .queues :: .slots :: .trk :: .vports :: .winFetches :: .winReads :: .wins ::
    recordParts) d (Dev.finishUnbind d lv b) := by
  unfold Dev.finishUnbind
  with_reducible repeat'
    first
      | intro x | assumption | apply Dev.Keeps.refl | apply Dev.Keeps.step Dev.breakLocksOf_keeps
      | apply Dev.Keeps.step Dev.clearEndpointIntx_keeps | apply Dev.Keeps.step Dev.freeBinding_keeps
      | apply Dev.Keeps.step Dev.refuseEntries_keeps | apply Dev.Keeps.step Dev.resetBinding_keeps | apply Dev.Keeps.ite
      | apply Dev.Keeps.foldl | (show (_ : Bool) = _; decide +kernel) | (show _ ∈ _; decide +kernel) | (show _ < _; decide +kernel)
      | split | dsimp only

theorem Dev.slotUnbound_keeps {d : Dev} {lv k : Nat} : Dev.Keeps [] [.ctrs, .out, .vits, .vports] d (Dev.slotUnbound d lv k) := by
  unfold Dev.slotUnbound
  with_reducible repeat'
    first
      | intro x | assumption | apply Dev.Keeps.refl | apply Dev.Keeps.step Dev.slotEvent_keeps | apply Dev.Keeps.ite
      | apply Dev.Keeps.foldl | (show (_ : Bool) = _; decide +kernel) | (show _ ∈ _; decide +kernel) | (show _ < _; decide +kernel)
      | split | dsimp only

theorem Dev.startUnbind_keeps {d : Dev} {lv : Nat} {b : Binding} : Dev.Keeps (.ATT_CTL :: .ATT_EP_HI :: .ATT_EP_LO :: .ATT_FPID ::
    .ATT_HOST_HI :: .ATT_HOST_LO :: .BSN_Q_STATUS :: .EBR_CRD_AVAIL :: .EBR_CRD_GRANT :: .EBR_LOCK :: .EBR_PFLOG_HEAD ::
    .EBR_RAT_PFDISC_HI :: .EBR_RAT_PFDISC_LO :: .PIN_CTL :: .PIN_DST :: .PIN_OLD :: .PIN_SRC :: .PIN_TCUT_HI :: .PIN_TCUT_LO ::
    .TRK_CPL_RSV :: .TRK_FREE :: .TUN_CE_GEOM :: .TUN_CE_IRQ :: .TUN_CE_MODE :: .TUN_CE_SCANOUT :: .TUN_CE_STATUS :: .TUN_CE_STRIDE ::
    .WR_Q_DRR :: recordRegs) (.arrived :: .atts :: .cellsFree :: .cmds :: .cores :: .dwins :: .endpoints :: .engines :: .lockSince ::
    .lockSrc :: .outs :: .pfLog :: .pfSeq :: .pins :: .queues :: .slots :: .trk :: .vports :: .winFetches :: .winReads :: .wins ::
    recordParts) d (Dev.startUnbind d lv b) := by
  unfold Dev.startUnbind
  with_reducible repeat'
    first
      | intro x | assumption | apply Dev.Keeps.refl | apply Dev.Keeps.forEach | apply Dev.dropFrames_keeps
      | apply Dev.Keeps.step Dev.finishUnbind_keeps | apply Dev.Keeps.step Dev.refuseBinding_keeps
      | apply Dev.Keeps.step Dev.setBinding_keeps | apply Dev.Keeps.step Dev.setVit_keeps | apply Dev.Keeps.step Dev.slotUnbound_keeps
      | apply Dev.Keeps.step Dev.squashInternal_keeps | apply Dev.Keeps.step countSquashed_keeps | apply Dev.Keeps.ite
      | apply Dev.Keeps.foldl | (show (_ : Bool) = _; decide +kernel) | (show _ ∈ _; decide +kernel) | (show _ < _; decide +kernel)
      | split | dsimp only

theorem Dev.dropHeld_keeps {d : Dev} {sel : HeldTlp → Bool} {complete : Bool} : Dev.Keeps [] [.ctrs, .heldTlps, .out, .trk] d
    (Dev.dropHeld d sel complete) := by
  unfold Dev.dropHeld
  with_reducible repeat'
    first
      | intro x | assumption | apply Dev.Keeps.refl | apply Dev.Keeps.when | apply Dev.Keeps.forEach
      | apply Dev.Keeps.step Dev.freeEntry_keeps | apply Dev.Keeps.step Dev.refuse_keeps | apply Dev.Keeps.step Dev.refuseMem_keeps
      | apply Dev.Keeps.ite | apply Dev.Keeps.foldl | (show (_ : Bool) = _; decide +kernel) | (show _ ∈ _; decide +kernel)
      | (show _ < _; decide +kernel) | split | apply Dev.Keeps.set_heldTlps | dsimp only

theorem Dev.applyPending_keeps {d : Dev} {p : Nat} : Dev.Keeps [.TUN_CE_GEOM, .TUN_CE_IRQ, .TUN_CE_MODE, .TUN_CE_SCANOUT,
    .TUN_CE_STATUS, .TUN_CE_STRIDE] [.endpoints, .engines, .out] d (Dev.applyPending d p) := by
  unfold Dev.applyPending
  with_reducible repeat'
    first
      | intro x | assumption | apply Dev.Keeps.refl | apply Dev.Keeps.forEach | apply Dev.Keeps.step Dev.applyReset_keeps
      | apply Dev.Keeps.step Dev.setEndpoint_keeps | apply Dev.Keeps.ite | apply Dev.Keeps.foldl
      | (show (_ : Bool) = _; decide +kernel) | (show _ ∈ _; decide +kernel) | (show _ < _; decide +kernel) | split | dsimp only

theorem Dev.setPerst_keeps {d : Dev} {c : Nat} {on : Bool} : Dev.Keeps [] [.out, .perstReleased] d (Dev.setPerst d c on) := by
  unfold Dev.setPerst
  with_reducible repeat'
    first
      | intro x | assumption | apply Dev.Keeps.refl | apply Dev.Keeps.step Dev.emit_keeps | apply Dev.Keeps.ite
      | apply Dev.Keeps.foldl | (show (_ : Bool) = _; decide +kernel) | (show _ ∈ _; decide +kernel) | (show _ < _; decide +kernel)
      | split | apply Dev.Keeps.set_perstReleased | dsimp only

theorem Dev.slotPresent_keeps {d : Dev} {lv k : Nat} : Dev.Keeps [] [.ctrs, .out, .vits, .vports] d (Dev.slotPresent d lv k) := by
  unfold Dev.slotPresent
  with_reducible repeat'
    first
      | intro x | assumption | apply Dev.Keeps.refl | apply Dev.Keeps.step Dev.slotEvent_keeps | apply Dev.Keeps.ite
      | apply Dev.Keeps.foldl | (show (_ : Bool) = _; decide +kernel) | (show _ ∈ _; decide +kernel) | (show _ < _; decide +kernel)
      | split | dsimp only

theorem Dev.takeSlot_keeps {d e : Dev} {p gvh : Nat} (he : d.takeSlot p gvh = some e) : Dev.Keeps [] [.slots] d e := by
  unfold Dev.takeSlot at he
  split at he
  · cases he
    exact .refl _ _ _
  · obtain ⟨s, _, rfl⟩ := Option.map_eq_some_iff.1 he
    exact .set_slots (by decide +kernel) (.refl _ _ _)

theorem Dev.resetFunctions_keeps {d : Dev} {lv : Nat} : Dev.Keeps (.VMF_BME :: .VMF_CAT_ADDR_HI :: .VMF_CAT_ADDR_LO :: .VMF_CAT_SIZE ::
    .VMF_CAT_WPTR :: .VMF_CPL_TMO :: .VMF_EVENT_MASK :: .VMF_SPC_ADDR_HI :: .VMF_SPC_ADDR_LO :: .VMF_SPC_SIZE :: .VMF_SPC_WPTR ::
    recordRegs) (.cats :: .cfg :: .samples :: .spcs :: .vmfs :: .vports :: recordParts) d (Dev.resetFunctions d lv) := by
  unfold Dev.resetFunctions
  with_reducible repeat'
    first
      | intro x | assumption | apply Dev.Keeps.refl | apply Dev.Keeps.forEach | apply Dev.Keeps.step Dev.endTargets_keeps
      | apply Dev.Keeps.step Dev.loseReads_keeps | apply Dev.Keeps.step Dev.resetCfg_keeps | apply Dev.Keeps.step Dev.resetRegs_keeps
      | apply Dev.Keeps.step Dev.setVit_keeps | apply Dev.Keeps.step Dev.setVmf_keeps | apply Dev.Keeps.step Dev.setVport_keeps
      | apply Dev.Keeps.ite | apply Dev.Keeps.foldl | (show (_ : Bool) = _; decide +kernel) | (show _ ∈ _; decide +kernel)
      | (show _ < _; decide +kernel) | split | dsimp only

theorem Dev.invalidateAtts_keeps {d : Dev} {lv : Nat} {b : Binding} : Dev.Keeps [.ATT_CTL, .ATT_EP_HI, .ATT_EP_LO, .ATT_FPID,
    .ATT_HOST_HI, .ATT_HOST_LO] [.atts, .vits] d (Dev.invalidateAtts d lv b) := by
  unfold Dev.invalidateAtts
  with_reducible repeat'
    first
      | intro x | assumption | apply Dev.Keeps.refl | apply Dev.Keeps.forEach | apply Dev.Keeps.step Dev.setAtt_keeps
      | apply Dev.Keeps.step Dev.setBinding_keeps | apply Dev.Keeps.ite | apply Dev.Keeps.foldl
      | (show (_ : Bool) = _; decide +kernel) | (show _ ∈ _; decide +kernel) | (show _ < _; decide +kernel) | split | dsimp only

theorem Dev.finishReset_keeps {d : Dev} {lv : Nat} : Dev.Keeps (.ATT_CTL :: .ATT_EP_HI :: .ATT_EP_LO :: .ATT_FPID :: .ATT_HOST_HI ::
    .ATT_HOST_LO :: .LNA_ALIGN :: .LNA_LANE_STATE :: .LNA_MRG_RESULT :: .LNA_RX_EQ :: .LNA_TRAIN_REF :: .LNA_TX_EQ :: .MBX_CH_STATUS ::
    .PRT_PORT_STATUS :: .SLC_CONT_STATE :: .TUN_CE_GEOM :: .TUN_CE_IRQ :: .TUN_CE_MODE :: .TUN_CE_SCANOUT :: .TUN_CE_STATUS ::
    .TUN_CE_STRIDE :: .VIT_STATE :: .VMF_BME :: .VMF_CAT_ADDR_HI :: .VMF_CAT_ADDR_LO :: .VMF_CAT_SIZE :: .VMF_CAT_WPTR :: .VMF_CPL_TMO
    :: .VMF_EVENT_MASK :: .VMF_SPC_ADDR_HI :: .VMF_SPC_ADDR_LO :: .VMF_SPC_SIZE :: .VMF_SPC_WPTR :: recordRegs) (.arrived :: .atts ::
    .cats :: .cfg :: .chans :: .cmds :: .endpoints :: .engines :: .eqReported :: .lanes :: .owesDetect :: .owesDrs :: .ports :: .samples
    :: .spcs :: .vmfs :: .vports :: recordParts) d (Dev.finishReset d lv) := by
  unfold Dev.finishReset
  with_reducible repeat'
    first
      | intro x | assumption | apply Dev.Keeps.refl | apply Dev.Keeps.forEach | apply Dev.Keeps.put
      | apply Dev.Keeps.step Dev.abortMaster_keeps | apply Dev.Keeps.step Dev.count_keeps | apply Dev.Keeps.step Dev.endWaiting_keeps
      | apply Dev.Keeps.step Dev.invalidateAtts_keeps | apply Dev.Keeps.step Dev.present_keeps | apply Dev.Keeps.step Dev.record_keeps
      | apply Dev.Keeps.step Dev.refuseBinding_keeps | apply Dev.Keeps.step Dev.resetBinding_keeps
      | apply Dev.Keeps.step Dev.resetFunctions_keeps | apply Dev.Keeps.step Dev.setVit_keeps | apply Dev.Keeps.ite
      | apply Dev.Keeps.foldl | (show (_ : Bool) = _; decide +kernel) | (show _ ∈ _; decide +kernel) | (show _ < _; decide +kernel)
      | split | dsimp only

theorem Dev.squashUp_keeps {d : Dev} {lv : Nat} : Dev.Keeps [.BSN_Q_STATUS, .WR_Q_DRR] [.cellsFree, .ctrs, .dwins, .outs, .queues] d
    (Dev.squashUp d lv) := by
  unfold Dev.squashUp
  with_reducible repeat'
    first
      | intro x | assumption | apply Dev.Keeps.refl | apply Dev.Keeps.forEach | apply Dev.Keeps.step Dev.squashOnce_keeps
      | apply Dev.Keeps.ite | apply Dev.Keeps.foldl | (show (_ : Bool) = _; decide +kernel) | (show _ ∈ _; decide +kernel)
      | (show _ < _; decide +kernel) | split | dsimp only

theorem Dev.drainDown_keeps {d : Dev} {lv : Nat} : Dev.Keeps [.BSN_Q_STATUS, .WR_Q_DRR] [.cellsFree, .ctrs, .dwins, .outs, .queues] d
    (Dev.drainDown d lv) := by
  unfold Dev.drainDown
  with_reducible repeat'
    first
      | intro x | assumption | apply Dev.Keeps.refl | apply Dev.Keeps.forEach | apply Dev.Keeps.step Dev.squashOnce_keeps
      | apply Dev.Keeps.ite | apply Dev.Keeps.foldl | (show (_ : Bool) = _; decide +kernel) | (show _ ∈ _; decide +kernel)
      | (show _ < _; decide +kernel) | split | dsimp only

theorem Dev.squashAndDrain_keeps {d : Dev} {lv : Nat} : Dev.Keeps [.BSN_Q_STATUS, .WR_Q_DRR] [.arrived, .cellsFree, .ctrs, .dwins,
    .endpoints, .outs, .queues, .trk] d (Dev.squashAndDrain d lv) := by
  unfold Dev.squashAndDrain
  with_reducible repeat'
    first
      | intro x | assumption | apply Dev.Keeps.refl | apply Dev.Keeps.forEach | apply Dev.Keeps.step Dev.drainDown_keeps
      | apply Dev.Keeps.step Dev.refuseBinding_keeps | apply Dev.Keeps.step Dev.squashEntries_keeps
      | apply Dev.Keeps.step Dev.squashUp_keeps | apply Dev.Keeps.ite | apply Dev.Keeps.foldl | (show (_ : Bool) = _; decide +kernel)
      | (show _ ∈ _; decide +kernel) | (show _ < _; decide +kernel) | split | dsimp only

theorem Dev.enterReset_keeps {d : Dev} {lv : Nat} {squash : Bool} : Dev.Keeps (.ATT_CTL :: .ATT_EP_HI :: .ATT_EP_LO :: .ATT_FPID ::
    .ATT_HOST_HI :: .ATT_HOST_LO :: .BSN_Q_STATUS :: .EBR_LOCK :: .LNA_ALIGN :: .LNA_LANE_STATE :: .LNA_MRG_RESULT :: .LNA_RX_EQ ::
    .LNA_TRAIN_REF :: .LNA_TX_EQ :: .MBX_CH_STATUS :: .PRT_PORT_STATUS :: .SLC_CONT_STATE :: .TUN_CE_GEOM :: .TUN_CE_IRQ :: .TUN_CE_MODE
    :: .TUN_CE_SCANOUT :: .TUN_CE_STATUS :: .TUN_CE_STRIDE :: .VIT_STATE :: .VMF_BME :: .VMF_CAT_ADDR_HI :: .VMF_CAT_ADDR_LO ::
    .VMF_CAT_SIZE :: .VMF_CAT_WPTR :: .VMF_CPL_TMO :: .VMF_EVENT_MASK :: .VMF_SPC_ADDR_HI :: .VMF_SPC_ADDR_LO :: .VMF_SPC_SIZE ::
    .VMF_SPC_WPTR :: .WR_Q_DRR :: recordRegs) (.arrived :: .atts :: .cats :: .cellsFree :: .cfg :: .chans :: .cmds :: .dwins ::
    .endpoints :: .engines :: .eqReported :: .heldTlps :: .lanes :: .lockSince :: .lockSrc :: .outs :: .owesDetect :: .owesDrs :: .ports
    :: .queues :: .samples :: .spcs :: .trk :: .vmfs :: .vports :: recordParts) d (Dev.enterReset d lv squash) := by
  unfold Dev.enterReset
  with_reducible repeat'
    first
      | intro x | assumption | apply Dev.Keeps.refl | apply Dev.Keeps.forEach | apply Dev.Keeps.step Dev.breakLocksOf_keeps
      | apply Dev.Keeps.step Dev.count_keeps | apply Dev.Keeps.step Dev.drainDown_keeps | apply Dev.Keeps.step Dev.dropHeld_keeps
      | apply Dev.Keeps.step Dev.finishReset_keeps | apply Dev.Keeps.step Dev.refuseBinding_keeps
      | apply Dev.Keeps.step Dev.setVit_keeps | apply Dev.Keeps.step Dev.setVitState_keeps
      | apply Dev.Keeps.step Dev.squashAndDrain_keeps | apply Dev.Keeps.step Dev.squashUp_keeps | apply Dev.Keeps.ite
      | apply Dev.Keeps.foldl | (show (_ : Bool) = _; decide +kernel) | (show _ ∈ _; decide +kernel) | (show _ < _; decide +kernel)
      | split | dsimp only

theorem Dev.hotReset_keeps {d : Dev} {lv : Nat} : Dev.Keeps (.ATT_CTL :: .ATT_EP_HI :: .ATT_EP_LO :: .ATT_FPID :: .ATT_HOST_HI ::
    .ATT_HOST_LO :: .BSN_Q_STATUS :: .EBR_LOCK :: .LNA_ALIGN :: .LNA_LANE_STATE :: .LNA_MRG_RESULT :: .LNA_RX_EQ :: .LNA_TRAIN_REF ::
    .LNA_TX_EQ :: .MBX_CH_STATUS :: .PRT_PORT_STATUS :: .SLC_CONT_STATE :: .TUN_CE_GEOM :: .TUN_CE_IRQ :: .TUN_CE_MODE ::
    .TUN_CE_SCANOUT :: .TUN_CE_STATUS :: .TUN_CE_STRIDE :: .VIT_STATE :: .VMF_BME :: .VMF_CAT_ADDR_HI :: .VMF_CAT_ADDR_LO ::
    .VMF_CAT_SIZE :: .VMF_CAT_WPTR :: .VMF_CPL_TMO :: .VMF_EVENT_MASK :: .VMF_SPC_ADDR_HI :: .VMF_SPC_ADDR_LO :: .VMF_SPC_SIZE ::
    .VMF_SPC_WPTR :: .WR_Q_DRR :: recordRegs) (.arrived :: .atts :: .cats :: .cellsFree :: .cfg :: .chans :: .cmds :: .dwins ::
    .endpoints :: .engines :: .eqReported :: .heldTlps :: .lanes :: .lockSince :: .lockSrc :: .outs :: .owesDetect :: .owesDrs :: .ports
    :: .queues :: .samples :: .spcs :: .trk :: .vmfs :: .vports :: recordParts) d (Dev.hotReset d lv) := by
  unfold Dev.hotReset
  with_reducible repeat'
    first
      | intro x | assumption | apply Dev.Keeps.refl | apply Dev.Keeps.put | apply Dev.Keeps.step Dev.enterReset_keeps
      | apply Dev.Keeps.step Dev.setVit_keeps | apply Dev.Keeps.ite | apply Dev.Keeps.foldl | (show (_ : Bool) = _; decide +kernel)
      | (show _ ∈ _; decide +kernel) | (show _ < _; decide +kernel) | split | dsimp only

theorem Dev.dropMinimum_keeps {d : Dev} {p gvh cells : Nat} : Dev.Keeps [.BSN_Q_CFG, .BSN_RESERVED, .BSN_SHARED_SIZE] [] d
    (Dev.dropMinimum d p gvh cells) := by
  unfold Dev.dropMinimum
  with_reducible repeat'
    first
      | intro x | assumption | apply Dev.Keeps.refl | apply Dev.Keeps.put | apply Dev.Keeps.forEach
      | apply Dev.Keeps.step Dev.setReserved_keeps | apply Dev.Keeps.ite | apply Dev.Keeps.foldl
      | (show (_ : Bool) = _; decide +kernel) | (show _ ∈ _; decide +kernel) | (show _ < _; decide +kernel) | split | dsimp only

theorem Dev.takeAtts_keeps {d : Dev} {lv fpid : Nat} {bars : List (Nat × Nat)} :
    Dev.Keeps [.ATT_CTL, .ATT_EP_HI, .ATT_EP_LO, .ATT_FPID, .ATT_HOST_HI, .ATT_HOST_LO] [.atts] d (d.takeAtts lv fpid bars).2 := by
  induction bars generalizing d with
  | nil => exact .refl _ _ _
  | cons b r ih =>
    unfold Dev.takeAtts
    exact ih.step' (.step Dev.setAtt_keeps (by decide +kernel) (by decide +kernel) (.refl _ _ _))

theorem Dev.reserve_keeps {d : Dev} {n : Nat} : Dev.Keeps [.TRK_CPL_RSV, .TRK_FREE] [] d (Dev.reserve d n) := by
  unfold Dev.reserve
  with_reducible repeat'
    first
      | intro x | assumption | apply Dev.Keeps.refl | apply Dev.Keeps.put | apply Dev.Keeps.ite | apply Dev.Keeps.foldl
      | (show (_ : Bool) = _; decide +kernel) | (show _ ∈ _; decide +kernel) | (show _ < _; decide +kernel) | split | dsimp only

theorem Dev.addMinimum_keeps {d : Dev} {p gvh cells : Nat} : Dev.Keeps [.BSN_Q_CFG, .BSN_RESERVED, .BSN_SHARED_SIZE] [] d
    (Dev.addMinimum d p gvh cells) := by
  unfold Dev.addMinimum
  with_reducible repeat'
    first
      | intro x | assumption | apply Dev.Keeps.refl | apply Dev.Keeps.put | apply Dev.Keeps.forEach
      | apply Dev.Keeps.step Dev.setReserved_keeps | apply Dev.Keeps.ite | apply Dev.Keeps.foldl
      | (show (_ : Bool) = _; decide +kernel) | (show _ ∈ _; decide +kernel) | (show _ < _; decide +kernel) | split | dsimp only

theorem Dev.zeroBank_keeps {d : Dev} {lv gvh : Nat} : Dev.Keeps recordRegs recordParts d (Dev.zeroBank d lv gvh) := by
  unfold Dev.zeroBank
  with_reducible repeat'
    first
      | intro x | assumption | apply Dev.Keeps.refl | apply Dev.Keeps.step Dev.record_keeps | apply Dev.Keeps.ite
      | apply Dev.Keeps.foldl | (show (_ : Bool) = _; decide +kernel) | (show _ ∈ _; decide +kernel) | (show _ < _; decide +kernel)
      | split | apply Dev.Keeps.set_ctrs | dsimp only

theorem Dev.releaseVitrine_keeps {d : Dev} {lv : Nat} : Dev.Keeps (.ATT_CTL :: .ATT_EP_HI :: .ATT_EP_LO :: .ATT_FPID :: .ATT_HOST_HI ::
    .ATT_HOST_LO :: .BSN_Q_CFG :: .BSN_Q_STATUS :: .BSN_RESERVED :: .BSN_SHARED_SIZE :: .EBR_CRD_AVAIL :: .EBR_CRD_GRANT ::
    .MBX_CH_STATUS :: .PIN_CTL :: .PIN_DST :: .PIN_OLD :: .PIN_SRC :: .PIN_TCUT_HI :: .PIN_TCUT_LO :: .SLC_CONT_STATE :: .TRK_CPL_RSV ::
    .TRK_FREE :: .TRK_VIT_QUOTA :: .VIT_EVENTS :: .VIT_PORT :: .VIT_STATE :: .VMF_BME :: .VMF_CAT_ADDR_HI :: .VMF_CAT_ADDR_LO ::
    .VMF_CAT_SIZE :: .VMF_CAT_WPTR :: .VMF_CPL_TMO :: .VMF_EVENT_MASK :: .VMF_GVH :: .VMF_ID :: .VMF_SPC_ADDR_HI :: .VMF_SPC_ADDR_LO ::
    .VMF_SPC_SIZE :: .VMF_SPC_WPTR :: .VMF_VERSION :: .WR_Q_DRR :: recordRegs) (.arrived :: .atts :: .cats :: .cellsFree :: .cfg ::
    .chans :: .cmds :: .dwins :: .endpoints :: .homes :: .outs :: .owesDetect :: .pins :: .queues :: .samples :: .slots :: .spcs ::
    .vmfs :: .vports :: .wins :: recordParts) d (Dev.releaseVitrine d lv) := by
  unfold Dev.releaseVitrine
  with_reducible repeat'
    first
      | intro x | assumption | apply Dev.Keeps.refl | apply Dev.Keeps.forEach | apply Dev.Keeps.put
      | apply Dev.Keeps.step Dev.abortMaster_keeps | apply Dev.Keeps.step Dev.dropMinimum_keeps
      | apply Dev.Keeps.step Dev.dropSlot_keeps | apply Dev.Keeps.step Dev.freeBinding_keeps
      | apply Dev.Keeps.step Dev.loseReads_keeps | apply Dev.Keeps.step Dev.resetCfg_keeps | apply Dev.Keeps.step Dev.resetRegs_keeps
      | apply Dev.Keeps.ite | apply Dev.Keeps.foldl | (show (_ : Bool) = _; decide +kernel) | (show _ ∈ _; decide +kernel)
      | (show _ < _; decide +kernel) | split | apply Dev.Keeps.set_vits_vports_vmfs_owesDetect_homes_cats_spcs_samples
      | apply Dev.Keeps.set_cats_spcs_samples | apply Dev.Keeps.set_owesDetect_homes | apply Dev.Keeps.set_homes
      | apply Dev.Keeps.set_spcs | apply Dev.Keeps.set_samples | apply Dev.Keeps.set_vports | apply Dev.Keeps.set_vmfs
      | apply Dev.Keeps.set_vits | apply Dev.Keeps.set_owesDetect | apply Dev.Keeps.set_cats | dsimp only

end Sys2Proof.Machine
end

