-- ==== Sys2Proof/Laws/KeepsLink.lean ====
section
/-! SUPPORT. What each operation of Machine/Link.lean may change: every register and structure outside the lists named stays as it was. -/

set_option Elab.async false
set_option linter.all false

namespace Sys2Proof.Machine

theorem Dev.sendNak_keeps {d : Dev} {p reason : Nat} : Dev.Keeps [] [.ctrs, .links, .out] d (Dev.sendNak d p reason) := by
  unfold Dev.sendNak
  with_reducible repeat'
    first
      | intro x | assumption | apply Dev.Keeps.refl | apply Dev.Keeps.step Dev.count_keeps | apply Dev.Keeps.step Dev.emitFlit_keeps
      | apply Dev.Keeps.step Dev.setLink_keeps | apply Dev.Keeps.ite | apply Dev.Keeps.foldl | (show (_ : Bool) = _; decide +kernel)
      | (show _ ∈ _; decide +kernel) | (show _ < _; decide +kernel) | split | dsimp only

theorem Dev.takeData_keeps {d : Dev} {p : Nat} {bs : List Byte} {bodies : List Body} : Dev.Keeps [] [.arrived, .ctrs, .links] d
    (Dev.takeData d p bs bodies) := by
  unfold Dev.takeData
  with_reducible repeat'
    first
      | intro x | assumption | apply Dev.Keeps.refl | apply Dev.Keeps.forEach | apply Dev.Keeps.step Dev.arrive_keeps
      | apply Dev.Keeps.step Dev.count_keeps | apply Dev.Keeps.step Dev.setLink_keeps | apply Dev.Keeps.ite | apply Dev.Keeps.foldl
      | (show (_ : Bool) = _; decide +kernel) | (show _ ∈ _; decide +kernel) | (show _ < _; decide +kernel) | split | dsimp only

theorem Dev.acceptData_keeps {d : Dev} {p seq : Nat} {bs : List Byte} {bodies : List Body} : Dev.Keeps [.FLL_SEQ] [.arrived, .ctrs,
    .links, .out] d (Dev.acceptData d p seq bs bodies) := by
  unfold Dev.acceptData
  with_reducible repeat'
    first
      | intro x | assumption | apply Dev.Keeps.refl | apply Dev.Keeps.put | apply Dev.Keeps.step Dev.count_keeps
      | apply Dev.Keeps.step Dev.sendNak_keeps | apply Dev.Keeps.step Dev.takeData_keeps | apply Dev.Keeps.ite | apply Dev.Keeps.foldl
      | (show (_ : Bool) = _; decide +kernel) | (show _ ∈ _; decide +kernel) | (show _ < _; decide +kernel) | split | dsimp only

theorem Dev.replayFrom_keeps {d : Dev} {p e : Nat} : Dev.Keeps [] [.ctrs, .out] d (Dev.replayFrom d p e) := by
  unfold Dev.replayFrom
  with_reducible repeat'
    first
      | intro x | assumption | apply Dev.Keeps.refl | apply Dev.Keeps.forEach | apply Dev.Keeps.step Dev.count_keeps
      | apply Dev.Keeps.step Dev.sendData_keeps | apply Dev.Keeps.ite | apply Dev.Keeps.foldl | (show (_ : Bool) = _; decide +kernel)
      | (show _ ∈ _; decide +kernel) | (show _ < _; decide +kernel) | split | dsimp only

theorem Dev.giveUp_keeps {d : Dev} {p : Nat} {r : CtlReq} : Dev.Keeps [] [.links, .pausedLinks] d (Dev.giveUp d p r) := by
  unfold Dev.giveUp
  with_reducible repeat'
    first
      | intro x | assumption | apply Dev.Keeps.refl | apply Dev.Keeps.step Dev.answered_keeps | apply Dev.Keeps.step Dev.setLink_keeps
      | apply Dev.Keeps.ite | apply Dev.Keeps.foldl | (show (_ : Bool) = _; decide +kernel) | (show _ ∈ _; decide +kernel)
      | (show _ < _; decide +kernel) | split | apply Dev.Keeps.set_pausedLinks | dsimp only

theorem Dev.setLinkState_keeps {d : Dev} {p st : Nat} : Dev.Keeps [.FLL_LINK_STATUS] [] d (Dev.setLinkState d p st) := by
  unfold Dev.setLinkState
  with_reducible repeat'
    first
      | intro x | assumption | apply Dev.Keeps.refl | apply Dev.Keeps.put | apply Dev.Keeps.ite | apply Dev.Keeps.foldl
      | (show (_ : Bool) = _; decide +kernel) | (show _ ∈ _; decide +kernel) | (show _ < _; decide +kernel) | split | dsimp only

theorem Dev.linkDown_keeps {d : Dev} {p st : Nat} : Dev.Keeps (.FLL_LINK_STATUS :: .FLL_REPLAY :: .PIN_CTL :: .PIN_OLD :: .RTE_EVENTS ::
    .RTE_GRP_SLOT :: .WR_Q_DRR :: recordRegs) (.arrived :: .cellsFree :: .dwins :: .links :: .outs :: .pausedLinks :: .pins :: .queues
    :: recordParts) d (Dev.linkDown d p st) := by
  unfold Dev.linkDown
  with_reducible repeat'
    first
      | intro x | assumption | apply Dev.Keeps.refl | apply Dev.Keeps.step Dev.setLink_keeps
      | apply Dev.Keeps.step Dev.setLinkState_keeps | apply Dev.Keeps.step Dev.showOutstanding_keeps
      | apply Dev.Keeps.step Dev.withdrawLink_keeps | apply Dev.Keeps.ite | apply Dev.Keeps.foldl
      | (show (_ : Bool) = _; decide +kernel) | (show _ ∈ _; decide +kernel) | (show _ < _; decide +kernel) | split
      | apply Dev.Keeps.set_pausedLinks | dsimp only

theorem Dev.sendL12Threshold_keeps {d : Dev} {p : Nat} : Dev.Keeps [] [.out] d (Dev.sendL12Threshold d p) := by
  unfold Dev.sendL12Threshold
  with_reducible repeat'
    first
      | intro x | assumption | apply Dev.Keeps.refl | apply Dev.Keeps.step Dev.emit_keeps | apply Dev.Keeps.ite
      | apply Dev.Keeps.foldl | (show (_ : Bool) = _; decide +kernel) | (show _ ∈ _; decide +kernel) | (show _ < _; decide +kernel)
      | split | dsimp only

theorem Dev.fecCorrected_keeps {d : Dev} {p : Nat} {before after : List Byte} {n : Nat} : Dev.Keeps [] [.ctrs, .masked] d
    (Dev.fecCorrected d p before after n) := by
  unfold Dev.fecCorrected
  with_reducible repeat'
    first
      | intro x | assumption | apply Dev.Keeps.refl | apply Dev.Keeps.when | apply Dev.Keeps.forEach
      | apply Dev.Keeps.step Dev.count_keeps | apply Dev.Keeps.step Dev.mask_keeps | apply Dev.Keeps.ite | apply Dev.Keeps.foldl
      | (show (_ : Bool) = _; decide +kernel) | (show _ ∈ _; decide +kernel) | (show _ < _; decide +kernel) | split | dsimp only

theorem Dev.laneActive_keeps {d : Dev} {n rate temp : Nat} : Dev.Keeps [.LNA_ALIGN, .LNA_LANE_STATE, .LNA_MRG_RESULT, .LNA_TRAIN_REF]
    [.cmds, .lanes, .ports] d (Dev.laneActive d n rate temp) := by
  unfold Dev.laneActive
  with_reducible repeat'
    first
      | intro x | assumption | apply Dev.Keeps.refl | apply Dev.Keeps.put | apply Dev.Keeps.when
      | apply Dev.Keeps.step Dev.enterLane_keeps | apply Dev.Keeps.ite | apply Dev.Keeps.foldl | (show (_ : Bool) = _; decide +kernel)
      | (show _ ∈ _; decide +kernel) | (show _ < _; decide +kernel) | split | dsimp only

theorem Dev.laneResumes_keeps {d : Dev} {n rate temp : Nat} : Dev.Keeps [.LNA_ALIGN, .LNA_LANE_STATE, .LNA_MRG_RESULT, .LNA_TRAIN_REF]
    [.cmds, .lanes, .ports] d (Dev.laneResumes d n rate temp) := by
  unfold Dev.laneResumes
  with_reducible repeat'
    first
      | intro x | assumption | apply Dev.Keeps.refl | apply Dev.Keeps.step Dev.enterLane_keeps
      | apply Dev.Keeps.step Dev.laneActive_keeps | apply Dev.Keeps.step Dev.setLane_keeps | apply Dev.Keeps.ite
      | apply Dev.Keeps.foldl | (show (_ : Bool) = _; decide +kernel) | (show _ ∈ _; decide +kernel) | (show _ < _; decide +kernel)
      | split | dsimp only

theorem Dev.sendSpl_keeps {d : Dev} {p : Nat} : Dev.Keeps [] [.out] d (Dev.sendSpl d p) := by
  unfold Dev.sendSpl
  with_reducible repeat'
    first
      | intro x | assumption | apply Dev.Keeps.refl | apply Dev.Keeps.step Dev.emit_keeps | apply Dev.Keeps.ite
      | apply Dev.Keeps.foldl | (show (_ : Bool) = _; decide +kernel) | (show _ ∈ _; decide +kernel) | (show _ < _; decide +kernel)
      | split | dsimp only

theorem Dev.portActiveCapx_keeps {d : Dev} {p : Nat} {c : Capx} : Dev.Keeps (.EBR_CRD_AVAIL :: .LNA_ALIGN :: .LNA_LANE_STATE ::
    .LNA_MRG_RESULT :: .LNA_RX_EQ :: .LNA_TRAIN_REF :: .LNA_TX_EQ :: .PRT_EVENTS :: .PRT_PORT_STATUS :: .WR_GATE_STATUS ::
    .WR_PORT_GUARD :: recordRegs) (.arrived :: .cmds :: .edges :: .edgesOut :: .eqReported :: .lanes :: .ports :: .wins :: recordParts)
    d (Dev.portActiveCapx d p c) := by
  unfold Dev.portActiveCapx
  with_reducible repeat'
    first
      | intro x | assumption | apply Dev.Keeps.refl | apply Dev.Keeps.forEach | apply Dev.Keeps.mark | apply Dev.Keeps.put
      | apply Dev.Keeps.when | apply Dev.Keeps.step Dev.laneActive_keeps | apply Dev.Keeps.step Dev.laneDetect_keeps
      | apply Dev.Keeps.step Dev.loadEntry_keeps | apply Dev.Keeps.step (Dev.raise_keeps ?_)
      | apply Dev.Keeps.step Dev.recomputeGuard_keeps | apply Dev.Keeps.step Dev.resyncPort_keeps
      | apply Dev.Keeps.step Dev.sendL12Threshold_keeps | apply Dev.Keeps.step Dev.sendSpl_keeps
      | apply Dev.Keeps.step Dev.takeEdge_keeps | apply Dev.Keeps.ite | apply Dev.Keeps.foldl | (show (_ : Bool) = _; decide +kernel)
      | (show _ ∈ _; decide +kernel) | (show _ < _; decide +kernel) | split | dsimp only

theorem Dev.applyAck_keeps {d : Dev} {p a : Nat} : Dev.Keeps (.FLL_EVENTS :: .FLL_REPLAY :: .FLL_SEQ :: recordRegs) (.links ::
    recordParts) d (Dev.applyAck d p a) := by
  unfold Dev.applyAck
  with_reducible repeat'
    first
      | intro x | assumption | apply Dev.Keeps.refl | apply Dev.Keeps.put | apply Dev.Keeps.step Dev.count_keeps
      | apply Dev.Keeps.step Dev.pump_keeps | apply Dev.Keeps.step (Dev.raise_keeps ?_) | apply Dev.Keeps.step Dev.setLink_keeps
      | apply Dev.Keeps.step Dev.showOutstanding_keeps | apply Dev.Keeps.ite | apply Dev.Keeps.foldl
      | (show (_ : Bool) = _; decide +kernel) | (show _ ∈ _; decide +kernel) | (show _ < _; decide +kernel) | split | dsimp only

theorem Dev.startPause_keeps {d : Dev} {die : Nat} : Dev.Keeps [] [.links, .out, .pausedLinks] d (Dev.startPause d die) := by
  unfold Dev.startPause
  with_reducible repeat'
    first
      | intro x | assumption | apply Dev.Keeps.refl | apply Dev.Keeps.step Dev.request_keeps | apply Dev.Keeps.ite
      | apply Dev.Keeps.foldl | (show (_ : Bool) = _; decide +kernel) | (show _ ∈ _; decide +kernel) | (show _ < _; decide +kernel)
      | split | apply Dev.Keeps.set_pausedLinks | dsimp only

theorem Dev.resumeLink_keeps {d : Dev} {p e : Nat} : Dev.Keeps (.EBR_CRD_AVAIL :: .FLL_EVENTS :: .FLL_LINK_STATUS :: .FLL_REPLAY ::
    .FLL_SEQ :: .LNA_ALIGN :: .LNA_LANE_STATE :: .LNA_MRG_RESULT :: .LNA_TRAIN_REF :: .WR_GATE_STATUS :: .WR_PORT_GUARD :: recordRegs)
    (.arrived :: .cmds :: .lanes :: .links :: .pausedLinks :: .ports :: .wins :: recordParts) d (Dev.resumeLink d p e) := by
  unfold Dev.resumeLink
  with_reducible repeat'
    first
      | intro x | assumption | apply Dev.Keeps.refl | apply Dev.Keeps.when | apply Dev.Keeps.forEach | apply Dev.Keeps.put
      | apply Dev.Keeps.step Dev.applyAck_keeps | apply Dev.Keeps.step Dev.beginScan_keeps | apply Dev.Keeps.step Dev.count_keeps
      | apply Dev.Keeps.step Dev.laneResumes_keeps | apply Dev.Keeps.step Dev.pump_keeps | apply Dev.Keeps.step (Dev.raise_keeps ?_)
      | apply Dev.Keeps.step Dev.recomputeGuard_keeps | apply Dev.Keeps.step Dev.replayFrom_keeps
      | apply Dev.Keeps.step Dev.resyncPort_keeps | apply Dev.Keeps.step Dev.setLink_keeps
      | apply Dev.Keeps.step Dev.setLinkState_keeps | apply Dev.Keeps.step Dev.setPortX_keeps
      | apply Dev.Keeps.step Dev.startPause_keeps | apply Dev.Keeps.ite | apply Dev.Keeps.foldl
      | (show (_ : Bool) = _; decide +kernel) | (show _ ∈ _; decide +kernel) | (show _ < _; decide +kernel) | split
      | apply Dev.Keeps.set_pausedLinks | dsimp only

theorem Dev.readyToResume_keeps {d : Dev} {p : Nat} : Dev.Keeps (.EBR_CRD_AVAIL :: .FLL_EVENTS :: .FLL_LINK_STATUS :: .FLL_REPLAY ::
    .FLL_SEQ :: .LNA_ALIGN :: .LNA_LANE_STATE :: .LNA_MRG_RESULT :: .LNA_TRAIN_REF :: .WR_GATE_STATUS :: .WR_PORT_GUARD :: recordRegs)
    (.arrived :: .cmds :: .lanes :: .links :: .pausedLinks :: .ports :: .wins :: recordParts) d (Dev.readyToResume d p) := by
  unfold Dev.readyToResume
  with_reducible repeat'
    first
      | intro x | assumption | apply Dev.Keeps.refl | apply Dev.Keeps.step Dev.resumeLink_keeps
      | apply Dev.Keeps.step Dev.sendCtl_keeps | apply Dev.Keeps.ite | apply Dev.Keeps.foldl | (show (_ : Bool) = _; decide +kernel)
      | (show _ ∈ _; decide +kernel) | (show _ < _; decide +kernel) | split | dsimp only

theorem Dev.tryNeighbours_keeps {d : Dev} {n : Nat} {taps : Nat × Nat} {tries : List (TapStep × Bool)} :
    Dev.Keeps [] [.lanes, .out] d (d.tryNeighbours n taps tries).2 := by
  induction tries generalizing d with
  | nil => exact .step Dev.emit_keeps (by decide +kernel) (by decide +kernel) (.refl _ _ _)
  | cons x r ih =>
    obtain ⟨s, o⟩ := x
    unfold Dev.tryNeighbours
    split
    · exact ih
    · have h : ∀ y, Dev.Keeps [] [.lanes, .out] d (d.emit y) := fun y => .step Dev.emit_keeps (by decide +kernel) (by decide +kernel)
        (.refl _ _ _)
      dsimp only
      split
      · exact .step Dev.setLane_keeps (by decide +kernel) (by decide +kernel) (h _)
      · exact ih.step' (h _)

theorem Dev.fabricLaneActive_keeps {d : Dev} {n rate temp : Nat} : Dev.Keeps [.LNA_ALIGN, .LNA_LANE_STATE, .LNA_MRG_RESULT, .LNA_RX_EQ,
    .LNA_TRAIN_REF, .LNA_TX_EQ] [.cmds, .lanes, .ports] d (Dev.fabricLaneActive d n rate temp) := by
  unfold Dev.fabricLaneActive
  with_reducible repeat'
    first
      | intro x | assumption | apply Dev.Keeps.refl | apply Dev.Keeps.step Dev.laneActive_keeps
      | apply Dev.Keeps.step Dev.loadEntry_keeps | apply Dev.Keeps.step Dev.setLane_keeps | apply Dev.Keeps.ite
      | apply Dev.Keeps.foldl | (show (_ : Bool) = _; decide +kernel) | (show _ ∈ _; decide +kernel) | (show _ < _; decide +kernel)
      | split | dsimp only

theorem Dev.noFloor_keeps {d : Dev} {n : Nat} : Dev.Keeps (.LNA_EVENTS :: recordRegs) (.lanes :: recordParts) d (Dev.noFloor d n) := by
  unfold Dev.noFloor
  with_reducible repeat'
    first
      | intro x | assumption | apply Dev.Keeps.refl | apply Dev.Keeps.step (Dev.raise_keeps ?_)
      | apply Dev.Keeps.step Dev.setLane_keeps | apply Dev.Keeps.ite | apply Dev.Keeps.foldl | (show (_ : Bool) = _; decide +kernel)
      | (show _ ∈ _; decide +kernel) | (show _ < _; decide +kernel) | split | dsimp only

theorem Dev.portReequalised_keeps {d : Dev} {p : Nat} {closed : List Nat} {temp : Nat → Nat} : Dev.Keeps (.LNA_EVENTS :: .LNA_TRAIN_REF
    :: recordRegs) (.lanes :: recordParts) d (Dev.portReequalised d p closed temp) := by
  unfold Dev.portReequalised
  with_reducible repeat'
    first
      | intro x | assumption | apply Dev.Keeps.refl | apply Dev.Keeps.put | apply Dev.Keeps.forEach
      | apply Dev.Keeps.step Dev.count_keeps | apply Dev.Keeps.step Dev.noFloor_keeps | apply Dev.Keeps.ite | apply Dev.Keeps.foldl
      | (show (_ : Bool) = _; decide +kernel) | (show _ ∈ _; decide +kernel) | (show _ < _; decide +kernel) | split | dsimp only

theorem Dev.reequalisePort_keeps {d : Dev} {p : Nat} {taken : Bool} {closed : List Nat} {temp : Nat → Nat} : Dev.Keeps (.LNA_EVENTS ::
    .LNA_TRAIN_REF :: recordRegs) (.lanes :: .ports :: recordParts) d (Dev.reequalisePort d p taken closed temp) := by
  unfold Dev.reequalisePort
  with_reducible repeat'
    first
      | intro x | assumption | apply Dev.Keeps.refl | apply Dev.Keeps.when | apply Dev.Keeps.step Dev.count_keeps
      | apply Dev.Keeps.step Dev.emit_keeps | apply Dev.Keeps.step Dev.portReequalised_keeps | apply Dev.Keeps.step Dev.setPortX_keeps
      | apply Dev.Keeps.ite | apply Dev.Keeps.foldl | (show (_ : Bool) = _; decide +kernel) | (show _ ∈ _; decide +kernel)
      | (show _ < _; decide +kernel) | split | dsimp only

theorem Dev.failPort_keeps {d : Dev} {p : Nat} : Dev.Keeps (.LNA_ALIGN :: .LNA_EVENTS :: .LNA_LANE_STATE :: .LNA_MRG_RESULT ::
    .LNA_RX_EQ :: .LNA_TRAIN_REF :: .LNA_TX_EQ :: recordRegs) (.cmds :: .eqReported :: .lanes :: .ports :: recordParts) d (Dev.failPort
    d p) := by
  unfold Dev.failPort
  with_reducible repeat'
    first
      | intro x | assumption | apply Dev.Keeps.refl | apply Dev.Keeps.forEach | apply Dev.Keeps.step Dev.failAttempt_keeps
      | apply Dev.Keeps.ite | apply Dev.Keeps.foldl | (show (_ : Bool) = _; decide +kernel) | (show _ ∈ _; decide +kernel)
      | (show _ < _; decide +kernel) | split | dsimp only

theorem Dev.takeParams_keeps {d : Dev} {p : Nat} {x : Params} : Dev.Keeps (.FLL_LINK_STATUS :: .FLL_PARTNER :: .FLL_REPLAY :: .FLL_SEQ
    :: .LNA_ALIGN :: .LNA_EVENTS :: .LNA_LANE_STATE :: .LNA_MRG_RESULT :: .LNA_RX_EQ :: .LNA_TRAIN_REF :: .LNA_TX_EQ :: recordRegs)
    (.cmds :: .eqReported :: .lanes :: .links :: .ports :: recordParts) d (Dev.takeParams d p x) := by
  unfold Dev.takeParams
  with_reducible repeat'
    first
      | intro x | assumption | apply Dev.Keeps.refl | apply Dev.Keeps.put | apply Dev.Keeps.step Dev.failPort_keeps
      | apply Dev.Keeps.step Dev.setLink_keeps | apply Dev.Keeps.step Dev.setLinkState_keeps
      | apply Dev.Keeps.step Dev.showOutstanding_keeps | apply Dev.Keeps.ite | apply Dev.Keeps.foldl
      | (show (_ : Bool) = _; decide +kernel) | (show _ ∈ _; decide +kernel) | (show _ < _; decide +kernel) | split | dsimp only

theorem Dev.releasePerst_keeps {d : Dev} {c : Nat} : Dev.Keeps [] [.endpoints, .out, .perstReleased, .ports] d (Dev.releasePerst d c) :=
    by
  unfold Dev.releasePerst
  with_reducible repeat'
    first
      | intro x | assumption | apply Dev.Keeps.refl | apply Dev.Keeps.forEach | apply Dev.Keeps.step Dev.setEndpoint_keeps
      | apply Dev.Keeps.step Dev.setPerst_keeps | apply Dev.Keeps.step Dev.setPortX_keeps | apply Dev.Keeps.ite
      | apply Dev.Keeps.foldl | (show (_ : Bool) = _; decide +kernel) | (show _ ∈ _; decide +kernel) | (show _ < _; decide +kernel)
      | split | dsimp only

theorem Dev.stripe_keeps {d : Dev} {p code : Nat} {lanes : List Nat} : Dev.Keeps [.LNA_ALIGN, .LNA_LANE_STATE, .LNA_MRG_RESULT,
    .LNA_TRAIN_REF] [.cmds, .lanes, .links, .out, .ports] d (Dev.stripe d p code lanes) := by
  unfold Dev.stripe
  with_reducible repeat'
    first
      | intro x | assumption | apply Dev.Keeps.refl | apply Dev.Keeps.forEach | apply Dev.Keeps.step Dev.answered_keeps
      | apply Dev.Keeps.step Dev.emit_keeps | apply Dev.Keeps.step Dev.laneOff_keeps | apply Dev.Keeps.step Dev.sendCtl_keeps
      | apply Dev.Keeps.step Dev.setLane_keeps | apply Dev.Keeps.step Dev.setLink_keeps | apply Dev.Keeps.ite | apply Dev.Keeps.foldl
      | (show (_ : Bool) = _; decide +kernel) | (show _ ∈ _; decide +kernel) | (show _ < _; decide +kernel) | split | dsimp only

theorem Dev.narrowLink_keeps {d : Dev} {p : Nat} {lost : Bool} : Dev.Keeps (.FLL_LINK_STATUS :: .FLL_REPLAY :: .PIN_CTL :: .PIN_OLD ::
    .RTE_EVENTS :: .RTE_GRP_SLOT :: .WR_Q_DRR :: recordRegs) (.arrived :: .cellsFree :: .dwins :: .links :: .outs :: .pausedLinks ::
    .pins :: .queues :: recordParts) d (Dev.narrowLink d p lost) := by
  unfold Dev.narrowLink
  with_reducible repeat'
    first
      | intro x | assumption | apply Dev.Keeps.refl | apply Dev.Keeps.step Dev.askWidth_keeps
      | apply Dev.Keeps.step Dev.linkDown_keeps | apply Dev.Keeps.ite | apply Dev.Keeps.foldl | (show (_ : Bool) = _; decide +kernel)
      | (show _ ∈ _; decide +kernel) | (show _ < _; decide +kernel) | split | dsimp only

theorem Dev.retireLane_keeps {d : Dev} {n : Nat} : Dev.Keeps (.EBR_CRD_AVAIL :: .FLL_LINK_STATUS :: .FLL_REPLAY :: .HLT_EVENTS ::
    .LNA_ALIGN :: .LNA_LANE_STATE :: .LNA_MRG_RESULT :: .LNA_RX_EQ :: .LNA_TRAIN_REF :: .LNA_TX_EQ :: .PIN_CTL :: .PIN_OLD ::
    .PRT_PORT_STATUS :: .RTE_EVENTS :: .RTE_GRP_SLOT :: .WR_GATE_STATUS :: .WR_PORT_GUARD :: .WR_Q_DRR :: recordRegs) (.arrived ::
    .cellsFree :: .cmds :: .dwins :: .eqReported :: .lanes :: .links :: .outs :: .pausedLinks :: .pins :: .ports :: .queues :: .wins ::
    recordParts) d (Dev.retireLane d n) := by
  unfold Dev.retireLane
  with_reducible repeat'
    first
      | intro x | assumption | apply Dev.Keeps.refl | apply Dev.Keeps.forEach | apply Dev.Keeps.mark | apply Dev.Keeps.put
      | apply Dev.Keeps.when | apply Dev.Keeps.step Dev.count_keeps | apply Dev.Keeps.step Dev.emit_keeps
      | apply Dev.Keeps.step Dev.enterLane_keeps | apply Dev.Keeps.step Dev.laneDetect_keeps
      | apply Dev.Keeps.step Dev.linkFalls_keeps | apply Dev.Keeps.step Dev.narrowLink_keeps
      | apply Dev.Keeps.step (Dev.raise_keeps ?_) | apply Dev.Keeps.step Dev.recomputeGuard_keeps
      | apply Dev.Keeps.step Dev.resyncPort_keeps | apply Dev.Keeps.ite | apply Dev.Keeps.foldl
      | (show (_ : Bool) = _; decide +kernel) | (show _ ∈ _; decide +kernel) | (show _ < _; decide +kernel) | split | dsimp only

theorem Dev.applyNak_keeps {d : Dev} {p e : Nat} : Dev.Keeps (.FLL_EVENTS :: .FLL_REPLAY :: .FLL_SEQ :: recordRegs) (.links ::
    recordParts) d (Dev.applyNak d p e) := by
  unfold Dev.applyNak
  with_reducible repeat'
    first
      | intro x | assumption | apply Dev.Keeps.refl | apply Dev.Keeps.step Dev.applyAck_keeps | apply Dev.Keeps.step Dev.count_keeps
      | apply Dev.Keeps.step Dev.replayFrom_keeps | apply Dev.Keeps.ite | apply Dev.Keeps.foldl
      | (show (_ : Bool) = _; decide +kernel) | (show _ ∈ _; decide +kernel) | (show _ < _; decide +kernel) | split | dsimp only

theorem Dev.takeFlit_keeps {d : Dev} {p : Nat} {bs : List Byte} {bodies : List Body} : Dev.Keeps (.FLL_EVENTS :: .FLL_REPLAY :: .FLL_SEQ
    :: recordRegs) (.arrived :: .links :: recordParts) d (Dev.takeFlit d p bs bodies) := by
  unfold Dev.takeFlit
  with_reducible repeat'
    first
      | intro x | assumption | apply Dev.Keeps.refl | apply Dev.Keeps.when | apply Dev.Keeps.step Dev.acceptData_keeps
      | apply Dev.Keeps.step Dev.applyAck_keeps | apply Dev.Keeps.step Dev.applyNak_keeps | apply Dev.Keeps.step Dev.count_keeps
      | apply Dev.Keeps.step (Dev.raise_keeps ?_) | apply Dev.Keeps.step Dev.sendNak_keeps | apply Dev.Keeps.ite
      | apply Dev.Keeps.foldl | (show (_ : Bool) = _; decide +kernel) | (show _ ∈ _; decide +kernel) | (show _ < _; decide +kernel)
      | split | dsimp only

theorem Dev.laneInCapx_keeps {nv : NonVolatile} {d : Dev} {n : Nat} : Dev.Keeps (.EBR_CRD_AVAIL :: .FLL_EVENTS :: .FLL_LINK_STATUS ::
    .FLL_REPLAY :: .FLL_SEQ :: .LNA_ALIGN :: .LNA_LANE_STATE :: .LNA_MRG_RESULT :: .LNA_TRAIN_REF :: .WR_GATE_STATUS :: .WR_PORT_GUARD
    :: recordRegs) (.arrived :: .cmds :: .lanes :: .links :: .pausedLinks :: .ports :: .wins :: recordParts) d (Dev.laneInCapx nv d n)
    := by
  unfold Dev.laneInCapx
  with_reducible repeat'
    first
      | intro x | assumption | apply Dev.Keeps.refl | apply Dev.Keeps.when | apply Dev.Keeps.step Dev.askWidth_keeps
      | apply Dev.Keeps.step Dev.readyToResume_keeps | apply Dev.Keeps.step Dev.request_keeps | apply Dev.Keeps.ite
      | apply Dev.Keeps.foldl | (show (_ : Bool) = _; decide +kernel) | (show _ ∈ _; decide +kernel) | (show _ < _; decide +kernel)
      | split | dsimp only

theorem Dev.sendHello_keeps {nv : NonVolatile} {d : Dev} {p : Nat} : Dev.Keeps [] [.arrived] d (Dev.sendHello nv d p) := by
  unfold Dev.sendHello
  with_reducible repeat'
    first
      | intro x | assumption | apply Dev.Keeps.refl | apply Dev.Keeps.step Dev.mgmt_keeps | apply Dev.Keeps.ite
      | apply Dev.Keeps.foldl | (show (_ : Bool) = _; decide +kernel) | (show _ ∈ _; decide +kernel) | (show _ < _; decide +kernel)
      | split | dsimp only

theorem Dev.sendEcho_keeps {d : Dev} {p : Nat} : Dev.Keeps [] [.links, .out] d (Dev.sendEcho d p) := by
  unfold Dev.sendEcho
  with_reducible repeat'
    first
      | intro x | assumption | apply Dev.Keeps.refl | apply Dev.Keeps.step Dev.request_keeps | apply Dev.Keeps.step Dev.setLink_keeps
      | apply Dev.Keeps.ite | apply Dev.Keeps.foldl | (show (_ : Bool) = _; decide +kernel) | (show _ ∈ _; decide +kernel)
      | (show _ < _; decide +kernel) | split | dsimp only

theorem Dev.linkActive_keeps {nv : NonVolatile} {d : Dev} {p temp : Nat} : Dev.Keeps [.EBR_CRD_AVAIL, .FLL_LINK_STATUS, .FLL_REPLAY,
    .LNA_ALIGN, .LNA_LANE_STATE, .LNA_MRG_RESULT, .LNA_RX_EQ, .LNA_TRAIN_REF, .LNA_TX_EQ, .WR_GATE_STATUS, .WR_PORT_GUARD] [.arrived,
    .cmds, .lanes, .links, .out, .ports, .wins] d (Dev.linkActive nv d p temp) := by
  unfold Dev.linkActive
  with_reducible repeat'
    first
      | intro x | assumption | apply Dev.Keeps.refl | apply Dev.Keeps.put | apply Dev.Keeps.forEach
      | apply Dev.Keeps.step Dev.fabricLaneActive_keeps | apply Dev.Keeps.step Dev.recomputeGuard_keeps
      | apply Dev.Keeps.step Dev.resyncPort_keeps | apply Dev.Keeps.step Dev.sendEcho_keeps | apply Dev.Keeps.step Dev.sendHello_keeps
      | apply Dev.Keeps.step Dev.setLinkState_keeps | apply Dev.Keeps.step Dev.tellRegistrar_keeps | apply Dev.Keeps.ite
      | apply Dev.Keeps.foldl | (show (_ : Bool) = _; decide +kernel) | (show _ ∈ _; decide +kernel) | (show _ < _; decide +kernel)
      | split | dsimp only

theorem Dev.keepResume_keeps {d : Dev} {p e : Nat} : Dev.Keeps [] [.links] d (Dev.keepResume d p e) := by
  unfold Dev.keepResume
  with_reducible repeat'
    first
      | intro x | assumption | apply Dev.Keeps.refl | apply Dev.Keeps.step Dev.setLink_keeps | apply Dev.Keeps.ite
      | apply Dev.Keeps.foldl | (show (_ : Bool) = _; decide +kernel) | (show _ ∈ _; decide +kernel) | (show _ < _; decide +kernel)
      | split | dsimp only

theorem Dev.clearEnable_keeps {d : Dev} {n : Nat} : Dev.Keeps (.FLL_LINK_STATUS :: .FLL_REPLAY :: .LNA_ALIGN :: .LNA_LANE_CFG ::
    .LNA_LANE_STATE :: .LNA_MRG_RESULT :: .LNA_TRAIN_REF :: .PIN_CTL :: .PIN_OLD :: .RTE_EVENTS :: .RTE_GRP_SLOT :: .WR_Q_DRR ::
    recordRegs) (.arrived :: .cellsFree :: .cmds :: .dwins :: .lanes :: .links :: .outs :: .pausedLinks :: .pins :: .ports :: .queues ::
    recordParts) d (Dev.clearEnable d n) := by
  unfold Dev.clearEnable
  with_reducible repeat'
    first
      | intro x | assumption | apply Dev.Keeps.refl | apply Dev.Keeps.when | apply Dev.Keeps.step Dev.disableLane_keeps
      | apply Dev.Keeps.step Dev.narrowLink_keeps | apply Dev.Keeps.ite | apply Dev.Keeps.foldl
      | (show (_ : Bool) = _; decide +kernel) | (show _ ∈ _; decide +kernel) | (show _ < _; decide +kernel) | split | dsimp only

theorem Dev.trainBeside_keeps {d : Dev} {n : Nat} : Dev.Keeps (.LNA_ALIGN :: .LNA_LANE_STATE :: .LNA_MRG_RESULT :: .LNA_RX_EQ ::
    .LNA_TRAIN_REF :: .LNA_TX_EQ :: recordRegs) (.cmds :: .eqReported :: .lanes :: .ports :: recordParts) d (Dev.trainBeside d n) := by
  unfold Dev.trainBeside
  with_reducible repeat'
    first
      | intro x | assumption | apply Dev.Keeps.refl | apply Dev.Keeps.when | apply Dev.Keeps.step Dev.laneDetect_keeps
      | apply Dev.Keeps.step Dev.setLane_keeps | apply Dev.Keeps.ite | apply Dev.Keeps.foldl | (show (_ : Bool) = _; decide +kernel)
      | (show _ ∈ _; decide +kernel) | (show _ < _; decide +kernel) | split | dsimp only

theorem Dev.symbolLock_keeps {nv : NonVolatile} {d : Dev} {n matches_ : Nat} : Dev.Keeps (.EBR_CRD_AVAIL :: .FLL_EVENTS ::
    .FLL_LINK_STATUS :: .FLL_REPLAY :: .FLL_SEQ :: .LNA_ALIGN :: .LNA_LANE_STATE :: .LNA_MRG_RESULT :: .LNA_TRAIN_REF :: .WR_GATE_STATUS
    :: .WR_PORT_GUARD :: recordRegs) (.arrived :: .cmds :: .lanes :: .links :: .pausedLinks :: .ports :: .wins :: recordParts) d
    (Dev.symbolLock nv d n matches_) := by
  unfold Dev.symbolLock
  with_reducible repeat'
    first
      | intro x | assumption | apply Dev.Keeps.refl | apply Dev.Keeps.put | apply Dev.Keeps.when
      | apply Dev.Keeps.step Dev.enterLane_keeps | apply Dev.Keeps.step Dev.laneInCapx_keeps | apply Dev.Keeps.step Dev.setLane_keeps
      | apply Dev.Keeps.ite | apply Dev.Keeps.foldl | (show (_ : Bool) = _; decide +kernel) | (show _ ∈ _; decide +kernel)
      | (show _ < _; decide +kernel) | split | dsimp only

theorem Dev.beginSpeed_keeps {d : Dev} {p r : Nat} : Dev.Keeps [.LNA_ALIGN, .LNA_LANE_STATE, .LNA_MRG_RESULT, .LNA_RX_EQ,
    .LNA_TRAIN_REF, .LNA_TX_EQ] [.cmds, .lanes, .links, .out, .ports] d (Dev.beginSpeed d p r) := by
  unfold Dev.beginSpeed
  with_reducible repeat'
    first
      | intro x | assumption | apply Dev.Keeps.refl | apply Dev.Keeps.forEach | apply Dev.Keeps.step Dev.answered_keeps
      | apply Dev.Keeps.step Dev.setLane_keeps | apply Dev.Keeps.step Dev.setLink_keeps | apply Dev.Keeps.step Dev.startPattern_keeps
      | apply Dev.Keeps.ite | apply Dev.Keeps.foldl | (show (_ : Bool) = _; decide +kernel) | (show _ ∈ _; decide +kernel)
      | (show _ < _; decide +kernel) | split | dsimp only

theorem Dev.linkLost_keeps {d : Dev} {p : Nat} : Dev.Keeps (.FLL_EVENTS :: .FLL_LINK_STATUS :: .FLL_REPLAY :: .LNA_ALIGN ::
    .LNA_LANE_STATE :: .LNA_MRG_RESULT :: .LNA_RX_EQ :: .LNA_TRAIN_REF :: .LNA_TX_EQ :: .PIN_CTL :: .PIN_OLD :: .RTE_EVENTS ::
    .RTE_GRP_SLOT :: .WR_Q_DRR :: recordRegs) (.arrived :: .cellsFree :: .cmds :: .dwins :: .eqReported :: .lanes :: .links :: .outs ::
    .pausedLinks :: .pins :: .ports :: .queues :: recordParts) d (Dev.linkLost d p) := by
  unfold Dev.linkLost
  with_reducible repeat'
    first
      | intro x | assumption | apply Dev.Keeps.refl | apply Dev.Keeps.forEach | apply Dev.Keeps.step Dev.laneDetect_keeps
      | apply Dev.Keeps.step Dev.linkDown_keeps | apply Dev.Keeps.step (Dev.raise_keeps ?_) | apply Dev.Keeps.step Dev.setLink_keeps
      | apply Dev.Keeps.ite | apply Dev.Keeps.foldl | (show (_ : Bool) = _; decide +kernel) | (show _ ∈ _; decide +kernel)
      | (show _ < _; decide +kernel) | split | dsimp only

theorem Dev.reequalise_keeps {d : Dev} {n : Nat} {open_ : List Bool} {temp : Nat} : Dev.Keeps (.LNA_EVENTS :: .LNA_TRAIN_REF ::
    recordRegs) (.lanes :: recordParts) d (Dev.reequalise d n open_ temp) := by
  unfold Dev.reequalise
  with_reducible repeat'
    first
      | intro x | assumption | apply Dev.Keeps.refl | apply Dev.Keeps.put | apply Dev.Keeps.step Dev.noFloor_keeps
      | apply Dev.Keeps.step Dev.tryNeighbours_keeps | apply Dev.Keeps.ite | apply Dev.Keeps.foldl
      | (show (_ : Bool) = _; decide +kernel) | (show _ ∈ _; decide +kernel) | (show _ < _; decide +kernel) | split
      | refine Dev.Keeps.pair Dev.tryNeighbours_keeps (by assumption) ?_ ?_ ?_ | dsimp only

theorem Dev.repeatRequest_keeps {d : Dev} {p : Nat} {r : CtlReq} : Dev.Keeps [] [.ctrs, .links, .out] d (Dev.repeatRequest d p r) := by
  unfold Dev.repeatRequest
  with_reducible repeat'
    first
      | intro x | assumption | apply Dev.Keeps.refl | apply Dev.Keeps.step Dev.count_keeps | apply Dev.Keeps.step Dev.sendCtl_keeps
      | apply Dev.Keeps.step Dev.setLink_keeps | apply Dev.Keeps.ite | apply Dev.Keeps.foldl | (show (_ : Bool) = _; decide +kernel)
      | (show _ ∈ _; decide +kernel) | (show _ < _; decide +kernel) | split | dsimp only

theorem Dev.pauseLink_keeps {d : Dev} {p : Nat} : Dev.Keeps [.FLL_LINK_STATUS, .LNA_ALIGN, .LNA_LANE_STATE, .LNA_MRG_RESULT,
    .LNA_TRAIN_REF] [.cmds, .ctrs, .lanes, .ports] d (Dev.pauseLink d p) := by
  unfold Dev.pauseLink
  with_reducible repeat'
    first
      | intro x | assumption | apply Dev.Keeps.refl | apply Dev.Keeps.forEach | apply Dev.Keeps.step Dev.count_keeps
      | apply Dev.Keeps.step Dev.enterLane_keeps | apply Dev.Keeps.step Dev.setLinkState_keeps | apply Dev.Keeps.ite
      | apply Dev.Keeps.foldl | (show (_ : Bool) = _; decide +kernel) | (show _ ∈ _; decide +kernel) | (show _ < _; decide +kernel)
      | split | dsimp only

end Sys2Proof.Machine
end

