-- ==== Sys2Proof/Laws/KeepsSluice.lean ====
section
/-! SUPPORT. What each operation of Machine/Sluice.lean may change: every register and structure outside the lists named stays as it was. -/

set_option Elab.async false
set_option linter.all false

namespace Sys2Proof.Machine

theorem Dev.squashPort_keeps {d : Dev} {id : Nat} : Dev.Keeps [.BSN_Q_STATUS, .WR_Q_DRR] [.cellsFree, .ctrs, .dwins, .outs, .queues] d
    (Dev.squashPort d id) := by
  unfold Dev.squashPort
  with_reducible repeat'
    first
      | intro x | assumption | apply Dev.Keeps.refl | apply Dev.Keeps.forEach | apply Dev.Keeps.step Dev.squashInternal_keeps
      | apply Dev.Keeps.step Dev.squashQueue_keeps | apply Dev.Keeps.ite | apply Dev.Keeps.foldl
      | (show (_ : Bool) = _; decide +kernel) | (show _ ∈ _; decide +kernel) | (show _ < _; decide +kernel) | split | dsimp only

theorem Dev.holdLanes_keeps {d : Dev} {p : Nat} : Dev.Keeps [.LNA_ALIGN, .LNA_LANE_STATE, .LNA_MRG_RESULT, .LNA_TRAIN_REF] [.cmds,
    .lanes, .out, .ports] d (Dev.holdLanes d p) := by
  unfold Dev.holdLanes
  with_reducible repeat'
    first
      | intro x | assumption | apply Dev.Keeps.refl | apply Dev.Keeps.forEach | apply Dev.Keeps.step Dev.laneOff_keeps
      | apply Dev.Keeps.step Dev.setLane_keeps | apply Dev.Keeps.ite | apply Dev.Keeps.foldl | (show (_ : Bool) = _; decide +kernel)
      | (show _ ∈ _; decide +kernel) | (show _ < _; decide +kernel) | split | dsimp only

theorem Dev.disableLink_keeps {d : Dev} {p : Nat} : Dev.Keeps [.LNA_ALIGN, .LNA_LANE_STATE, .LNA_MRG_RESULT, .LNA_TRAIN_REF,
    .PRT_PORT_STATUS] [.cmds, .lanes, .out, .ports] d (Dev.disableLink d p) := by
  unfold Dev.disableLink
  with_reducible repeat'
    first
      | intro x | assumption | apply Dev.Keeps.refl | apply Dev.Keeps.step Dev.emit_keeps | apply Dev.Keeps.step Dev.holdLanes_keeps
      | apply Dev.Keeps.step Dev.linkFalls_keeps | apply Dev.Keeps.ite | apply Dev.Keeps.foldl | (show (_ : Bool) = _; decide +kernel)
      | (show _ ∈ _; decide +kernel) | (show _ < _; decide +kernel) | split | dsimp only

theorem Dev.abandonFreeze_keeps {d : Dev} {lv status : Nat} : Dev.Keeps [.BSN_Q_STATUS, .EBR_CRD_AVAIL, .PWR_WAKE, .VIT_STATE]
    [.arrived, .cmds, .ctrs, .endpoints, .heldTlps, .latched, .out, .outs, .queues, .trk, .vits, .wins, .withheld] d (Dev.abandonFreeze
    d lv status) := by
  unfold Dev.abandonFreeze
  with_reducible repeat'
    first
      | intro x | assumption | apply Dev.Keeps.refl | apply Dev.Keeps.when | apply Dev.Keeps.forEach
      | apply Dev.Keeps.step Dev.endWaiting_keeps | apply Dev.Keeps.step Dev.retryHeld_keeps | apply Dev.Keeps.step Dev.setBound_keeps
      | apply Dev.Keeps.step Dev.setQueueState_keeps | apply Dev.Keeps.step Dev.setVit_keeps
      | apply Dev.Keeps.step Dev.setVitState_keeps | apply Dev.Keeps.ite | apply Dev.Keeps.foldl
      | (show (_ : Bool) = _; decide +kernel) | (show _ ∈ _; decide +kernel) | (show _ < _; decide +kernel) | split | dsimp only

theorem Dev.flagContained_keeps {d : Dev} {lv : Nat} : Dev.Keeps [.VMF_EVENT_FLAGS, .VMF_INTX] [.ctrs, .out, .vits] d (Dev.flagContained
    d lv) := by
  unfold Dev.flagContained
  with_reducible repeat'
    first
      | intro x | assumption | apply Dev.Keeps.refl | apply Dev.Keeps.step Dev.count_keeps
      | apply Dev.Keeps.step (Dev.vmfFlag_keeps ?_) | apply Dev.Keeps.ite | apply Dev.Keeps.foldl
      | (show (_ : Bool) = _; decide +kernel) | (show _ ∈ _; decide +kernel) | (show _ < _; decide +kernel) | split | dsimp only

theorem Dev.enterVitrine_keeps {d : Dev} {lv : Nat} : Dev.Keeps (.BSN_Q_STATUS :: .EBR_CRD_AVAIL :: .EBR_LOCK :: .LNA_ALIGN ::
    .LNA_LANE_STATE :: .LNA_MRG_RESULT :: .LNA_TRAIN_REF :: .PRT_PORT_STATUS :: .VIT_STATE :: recordRegs) (.arrived :: .cmds ::
    .endpoints :: .heldTlps :: .lanes :: .lockSince :: .lockSrc :: .outs :: .ports :: .queues :: .trk :: .wins :: .withheld ::
    recordParts) d (Dev.enterVitrine d lv) := by
  unfold Dev.enterVitrine
  with_reducible repeat'
    first
      | intro x | assumption | apply Dev.Keeps.refl | apply Dev.Keeps.forEach | apply Dev.Keeps.when
      | apply Dev.Keeps.step Dev.abandonFreeze_keeps | apply Dev.Keeps.step Dev.breakLocksOf_keeps
      | apply Dev.Keeps.step Dev.disableLink_keeps | apply Dev.Keeps.step Dev.flagContained_keeps
      | apply Dev.Keeps.step Dev.refuseBinding_keeps | apply Dev.Keeps.step Dev.setQueueState_keeps
      | apply Dev.Keeps.step Dev.setVit_keeps | apply Dev.Keeps.step Dev.squashEntries_keeps | apply Dev.Keeps.ite
      | apply Dev.Keeps.foldl | (show (_ : Bool) = _; decide +kernel) | (show _ ∈ _; decide +kernel) | (show _ < _; decide +kernel)
      | split | dsimp only

theorem Dev.refuseToward_keeps {d : Dev} {fpid : Nat} {gvhs : Option (List Nat)} : Dev.Keeps (.EBR_PFLOG_HEAD :: .EBR_RAT_PFDISC_HI ::
    .EBR_RAT_PFDISC_LO :: recordRegs) (.cores :: .pfLog :: .pfSeq :: .trk :: .winFetches :: .winReads :: recordParts) d
    (Dev.refuseToward d fpid gvhs) := by
  unfold Dev.refuseToward
  with_reducible repeat'
    first
      | intro x | assumption | apply Dev.Keeps.refl | apply Dev.Keeps.step Dev.refuseEntries_keeps | apply Dev.Keeps.ite
      | apply Dev.Keeps.foldl | (show (_ : Bool) = _; decide +kernel) | (show _ ∈ _; decide +kernel) | (show _ < _; decide +kernel)
      | split | dsimp only

theorem Dev.loseView_keeps {d : Dev} {lv k cause : Nat} {ordered : Bool} : Dev.Keeps [.VMF_EVENT_FLAGS, .VMF_INTX] [.ctrs, .out, .vits,
    .vports] d (Dev.loseView d lv k cause ordered) := by
  unfold Dev.loseView
  with_reducible repeat'
    first
      | intro x | assumption | apply Dev.Keeps.refl | apply Dev.Keeps.when | apply Dev.Keeps.step Dev.aer_keeps
      | apply Dev.Keeps.step Dev.clearEndpointIntx_keeps | apply Dev.Keeps.step Dev.flagContained_keeps
      | apply Dev.Keeps.step Dev.setBinding_keeps | apply Dev.Keeps.step Dev.setVport_keeps | apply Dev.Keeps.step Dev.slotEvent_keeps
      | apply Dev.Keeps.step Dev.slotGone_keeps | apply Dev.Keeps.ite | apply Dev.Keeps.foldl | (show (_ : Bool) = _; decide +kernel)
      | (show _ ∈ _; decide +kernel) | (show _ < _; decide +kernel) | split | dsimp only

theorem Dev.enterPort_keeps {d : Dev} {id cause : Nat} {ordered : Bool} : Dev.Keeps (.BSN_Q_STATUS :: .DOC_CORE_STATUS :: .DOC_EVENTS ::
    .DOC_WSTORE_LOST :: .EBR_EVENTS :: .EBR_LOCK :: .EBR_PFLOG_HEAD :: .EBR_RAT_PFDISC_HI :: .EBR_RAT_PFDISC_LO :: .LNA_ALIGN ::
    .LNA_LANE_STATE :: .LNA_MRG_RESULT :: .LNA_TRAIN_REF :: .PRT_PORT_STATUS :: .WR_Q_DRR :: recordRegs) (.cellsFree :: .cmds :: .cores
    :: .dwins :: .lanes :: .lockSince :: .lockSrc :: .outs :: .pfLog :: .pfSeq :: .ports :: .queues :: .trk :: .vports :: .winFetches ::
    .winReads :: .winStores :: recordParts) d (Dev.enterPort d id cause ordered) := by
  unfold Dev.enterPort
  with_reducible repeat'
    first
      | intro x | assumption | apply Dev.Keeps.refl | apply Dev.Keeps.forEach | apply Dev.Keeps.when
      | apply Dev.Keeps.step Dev.breakLock_keeps | apply Dev.Keeps.step Dev.disableLink_keeps
      | apply Dev.Keeps.step Dev.discardWaiting_keeps | apply Dev.Keeps.step Dev.linkFalls_keeps
      | apply Dev.Keeps.step Dev.loseView_keeps | apply Dev.Keeps.step Dev.refuseToward_keeps
      | apply Dev.Keeps.step Dev.squashPort_keeps | apply Dev.Keeps.ite | apply Dev.Keeps.foldl
      | (show (_ : Bool) = _; decide +kernel) | (show _ ∈ _; decide +kernel) | (show _ < _; decide +kernel) | split | dsimp only

theorem Dev.notify_keeps {d : Dev} {scope id cause : Nat} : Dev.Keeps [.SLC_CONT_STATE] [.arrived, .notices] d (Dev.notify d scope id
    cause) := by
  unfold Dev.notify
  with_reducible repeat'
    first
      | intro x | assumption | apply Dev.Keeps.refl | apply Dev.Keeps.forEach | apply Dev.Keeps.put
      | apply Dev.Keeps.step Dev.tell_keeps | apply Dev.Keeps.ite | apply Dev.Keeps.foldl | (show (_ : Bool) = _; decide +kernel)
      | (show _ ∈ _; decide +kernel) | (show _ < _; decide +kernel) | split | apply Dev.Keeps.set_notices | dsimp only

theorem Dev.enterLink_keeps {d : Dev} {p : Nat} : Dev.Keeps (.FLL_LINK_STATUS :: .FLL_REPLAY :: .LNA_ALIGN :: .LNA_LANE_STATE ::
    .LNA_MRG_RESULT :: .LNA_TRAIN_REF :: .PIN_CTL :: .PIN_OLD :: .RTE_EVENTS :: .RTE_GRP_SLOT :: .WR_Q_DRR :: recordRegs) (.arrived ::
    .cellsFree :: .cmds :: .dwins :: .lanes :: .links :: .outs :: .pausedLinks :: .pins :: .ports :: .queues :: recordParts) d
    (Dev.enterLink d p) := by
  unfold Dev.enterLink
  with_reducible repeat'
    first
      | intro x | assumption | apply Dev.Keeps.refl | apply Dev.Keeps.step Dev.holdLanes_keeps
      | apply Dev.Keeps.step Dev.linkDown_keeps | apply Dev.Keeps.step Dev.setLink_keeps | apply Dev.Keeps.ite | apply Dev.Keeps.foldl
      | (show (_ : Bool) = _; decide +kernel) | (show _ ∈ _; decide +kernel) | (show _ < _; decide +kernel) | split | dsimp only

theorem Dev.setCont_keeps {d : Dev} {o st cause cls : Nat} : Dev.Keeps [.SLC_CONT_STATE] [] d (Dev.setCont d o st cause cls) := by
  unfold Dev.setCont
  with_reducible repeat'
    first
      | intro x | assumption | apply Dev.Keeps.refl | apply Dev.Keeps.put | apply Dev.Keeps.ite | apply Dev.Keeps.foldl
      | (show (_ : Bool) = _; decide +kernel) | (show _ ∈ _; decide +kernel) | (show _ < _; decide +kernel) | split | dsimp only

theorem Dev.containedRecord_keeps {d : Dev} {scope id : Nat} : Dev.Keeps (.SLC_CONT_ESEQ_HI :: .SLC_CONT_ESEQ_LO :: recordRegs)
    recordParts d (Dev.containedRecord d scope id) := by
  unfold Dev.containedRecord
  with_reducible repeat'
    first
      | intro x | assumption | apply Dev.Keeps.refl | apply Dev.Keeps.put64 | apply Dev.Keeps.step Dev.record_keeps
      | apply Dev.Keeps.ite | apply Dev.Keeps.foldl | (show (_ : Bool) = _; decide +kernel) | (show _ ∈ _; decide +kernel)
      | (show _ < _; decide +kernel) | split | dsimp only

theorem Dev.contain_keeps {d : Dev} {scope id cause cls : Nat} {ordered : Bool} : Dev.Keeps (.BSN_Q_STATUS :: .DOC_CORE_STATUS ::
    .DOC_EVENTS :: .DOC_WSTORE_LOST :: .EBR_CRD_AVAIL :: .EBR_EVENTS :: .EBR_LOCK :: .EBR_PFLOG_HEAD :: .EBR_RAT_PFDISC_HI ::
    .EBR_RAT_PFDISC_LO :: .FLL_LINK_STATUS :: .FLL_REPLAY :: .LNA_ALIGN :: .LNA_LANE_STATE :: .LNA_MRG_RESULT :: .LNA_TRAIN_REF ::
    .PIN_CTL :: .PIN_OLD :: .PRT_PORT_STATUS :: .RTE_EVENTS :: .RTE_GRP_SLOT :: .SLC_CONT_ESEQ_HI :: .SLC_CONT_ESEQ_LO ::
    .SLC_CONT_STATE :: .VIT_STATE :: .WR_Q_DRR :: recordRegs) (.arrived :: .cellsFree :: .cmds :: .cores :: .dwins :: .endpoints ::
    .heldTlps :: .lanes :: .links :: .lockSince :: .lockSrc :: .notices :: .outs :: .pausedLinks :: .pfLog :: .pfSeq :: .pins :: .ports
    :: .queues :: .trk :: .vports :: .winFetches :: .winReads :: .winStores :: .wins :: .withheld :: recordParts) d (Dev.contain d scope
    id cause cls ordered) := by
  unfold Dev.contain
  with_reducible repeat'
    first
      | intro x | assumption | apply Dev.Keeps.refl | apply Dev.Keeps.step Dev.containedRecord_keeps
      | apply Dev.Keeps.step Dev.count_keeps | apply Dev.Keeps.step Dev.enterLink_keeps | apply Dev.Keeps.step Dev.enterPort_keeps
      | apply Dev.Keeps.step Dev.enterVitrine_keeps | apply Dev.Keeps.step Dev.notify_keeps | apply Dev.Keeps.step Dev.setCont_keeps
      | apply Dev.Keeps.ite | apply Dev.Keeps.foldl | (show (_ : Bool) = _; decide +kernel) | (show _ ∈ _; decide +kernel)
      | (show _ < _; decide +kernel) | split | dsimp only

theorem Dev.remove_keeps {d : Dev} {id : Nat} {ordered : Bool} : Dev.Keeps (.BSN_Q_STATUS :: .DOC_CORE_STATUS :: .DOC_EVENTS ::
    .DOC_WSTORE_LOST :: .EBR_CRD_AVAIL :: .EBR_EVENTS :: .EBR_LOCK :: .EBR_PFLOG_HEAD :: .EBR_RAT_PFDISC_HI :: .EBR_RAT_PFDISC_LO ::
    .FLL_LINK_STATUS :: .FLL_REPLAY :: .LNA_ALIGN :: .LNA_LANE_STATE :: .LNA_MRG_RESULT :: .LNA_TRAIN_REF :: .PIN_CTL :: .PIN_OLD ::
    .PRT_PORT_STATUS :: .RTE_EVENTS :: .RTE_GRP_SLOT :: .SLC_CONT_ESEQ_HI :: .SLC_CONT_ESEQ_LO :: .SLC_CONT_STATE :: .VIT_STATE ::
    .WR_Q_DRR :: recordRegs) (.arrived :: .cellsFree :: .cmds :: .cores :: .dwins :: .endpoints :: .heldTlps :: .lanes :: .links ::
    .lockSince :: .lockSrc :: .notices :: .outs :: .pausedLinks :: .pfLog :: .pfSeq :: .pins :: .ports :: .queues :: .trk :: .vports ::
    .winFetches :: .winReads :: .winStores :: .wins :: .withheld :: recordParts) d (Dev.remove d id ordered) := by
  unfold Dev.remove
  with_reducible repeat'
    first
      | intro x | assumption | apply Dev.Keeps.refl | apply Dev.Keeps.forEach | apply Dev.Keeps.put | apply Dev.Keeps.when
      | apply Dev.Keeps.step Dev.contain_keeps | apply Dev.Keeps.step Dev.endWaiting_keeps | apply Dev.Keeps.step Dev.linkFalls_keeps
      | apply Dev.Keeps.step Dev.setEndpoint_keeps | apply Dev.Keeps.step Dev.slotGone_keeps
      | apply Dev.Keeps.step Dev.squashPort_keeps | apply Dev.Keeps.ite | apply Dev.Keeps.foldl
      | (show (_ : Bool) = _; decide +kernel) | (show _ ∈ _; decide +kernel) | (show _ < _; decide +kernel) | split | dsimp only

theorem Dev.removeUnaccessed_keeps {d : Dev} {p e : Nat} : Dev.Keeps (.ATT_CTL :: .ATT_EP_HI :: .ATT_EP_LO :: .ATT_FPID :: .ATT_HOST_HI
    :: .ATT_HOST_LO :: .BSN_Q_STATUS :: .DOC_CORE_STATUS :: .DOC_EVENTS :: .DOC_WSTORE_LOST :: .EBR_CRD_AVAIL :: .EBR_CRD_GRANT ::
    .EBR_EVENTS :: .EBR_LOCK :: .EBR_PFLOG_HEAD :: .EBR_RAT_PFDISC_HI :: .EBR_RAT_PFDISC_LO :: .FLL_LINK_STATUS :: .FLL_REPLAY ::
    .LNA_ALIGN :: .LNA_LANE_STATE :: .LNA_MRG_RESULT :: .LNA_TRAIN_REF :: .PIN_CTL :: .PIN_DST :: .PIN_OLD :: .PIN_SRC :: .PIN_TCUT_HI
    :: .PIN_TCUT_LO :: .PRT_PORT_STATUS :: .RTE_EVENTS :: .RTE_GRP_SLOT :: .SLC_CONT_ESEQ_HI :: .SLC_CONT_ESEQ_LO :: .SLC_CONT_STATE ::
    .TRK_CPL_RSV :: .TRK_FREE :: .TUN_CE_GEOM :: .TUN_CE_IRQ :: .TUN_CE_MODE :: .TUN_CE_SCANOUT :: .TUN_CE_STATUS :: .TUN_CE_STRIDE ::
    .VIT_STATE :: .WR_Q_DRR :: recordRegs) (.arrived :: .atts :: .cellsFree :: .cmds :: .cores :: .dwins :: .endpoints :: .engines ::
    .heldTlps :: .lanes :: .links :: .lockSince :: .lockSrc :: .notices :: .outs :: .pausedLinks :: .pfLog :: .pfSeq :: .pins :: .ports
    :: .queues :: .slots :: .trk :: .vports :: .winFetches :: .winReads :: .winStores :: .wins :: .withheld :: recordParts) d
    (Dev.removeUnaccessed d p e) := by
  unfold Dev.removeUnaccessed
  with_reducible repeat'
    first
      | intro x | assumption | apply Dev.Keeps.refl | apply Dev.Keeps.step Dev.loseView_keeps | apply Dev.Keeps.step Dev.remove_keeps
      | apply Dev.Keeps.step Dev.startUnbind_keeps | apply Dev.Keeps.step Dev.tell_keeps | apply Dev.Keeps.ite | apply Dev.Keeps.foldl
      | (show (_ : Bool) = _; decide +kernel) | (show _ ∈ _; decide +kernel) | (show _ < _; decide +kernel) | split | dsimp only

theorem Dev.accessionFails_keeps {d : Dev} {p e why : Nat} : Dev.Keeps (.ATT_CTL :: .ATT_EP_HI :: .ATT_EP_LO :: .ATT_FPID ::
    .ATT_HOST_HI :: .ATT_HOST_LO :: .BSN_Q_STATUS :: .DOC_CORE_STATUS :: .DOC_EVENTS :: .DOC_WSTORE_LOST :: .EBR_CRD_AVAIL ::
    .EBR_CRD_GRANT :: .EBR_EVENTS :: .EBR_LOCK :: .EBR_PFLOG_HEAD :: .EBR_RAT_PFDISC_HI :: .EBR_RAT_PFDISC_LO :: .FLL_LINK_STATUS ::
    .FLL_REPLAY :: .LNA_ALIGN :: .LNA_LANE_STATE :: .LNA_MRG_RESULT :: .LNA_TRAIN_REF :: .PIN_CTL :: .PIN_DST :: .PIN_OLD :: .PIN_SRC ::
    .PIN_TCUT_HI :: .PIN_TCUT_LO :: .PRT_PORT_STATUS :: .RTE_EVENTS :: .RTE_GRP_SLOT :: .SLC_CONT_ESEQ_HI :: .SLC_CONT_ESEQ_LO ::
    .SLC_CONT_STATE :: .TRK_CPL_RSV :: .TRK_FREE :: .TUN_CE_GEOM :: .TUN_CE_IRQ :: .TUN_CE_MODE :: .TUN_CE_SCANOUT :: .TUN_CE_STATUS ::
    .TUN_CE_STRIDE :: .VIT_STATE :: .WR_Q_DRR :: recordRegs) (.arrived :: .atts :: .cellsFree :: .cmds :: .cores :: .dwins :: .endpoints
    :: .engines :: .heldTlps :: .lanes :: .links :: .lockSince :: .lockSrc :: .notices :: .outs :: .pausedLinks :: .pfLog :: .pfSeq ::
    .pins :: .ports :: .queues :: .slots :: .trk :: .vports :: .winFetches :: .winReads :: .winStores :: .wins :: .withheld ::
    recordParts) d (Dev.accessionFails d p e why) := by
  unfold Dev.accessionFails
  with_reducible repeat'
    first
      | intro x | assumption | apply Dev.Keeps.refl | apply Dev.Keeps.when | apply Dev.Keeps.step Dev.record_keeps
      | apply Dev.Keeps.step Dev.removeUnaccessed_keeps | apply Dev.Keeps.step Dev.setEndpoint_keeps | apply Dev.Keeps.ite
      | apply Dev.Keeps.foldl | (show (_ : Bool) = _; decide +kernel) | (show _ ∈ _; decide +kernel) | (show _ < _; decide +kernel)
      | split | dsimp only

theorem Dev.again_keeps {d : Dev} {scope id cls : Nat} : Dev.Keeps (.BSN_Q_STATUS :: .DOC_CORE_STATUS :: .DOC_EVENTS :: .DOC_WSTORE_LOST
    :: .EBR_CRD_AVAIL :: .EBR_EVENTS :: .EBR_LOCK :: .EBR_PFLOG_HEAD :: .EBR_RAT_PFDISC_HI :: .EBR_RAT_PFDISC_LO :: .FLL_LINK_STATUS ::
    .FLL_REPLAY :: .LNA_ALIGN :: .LNA_LANE_STATE :: .LNA_MRG_RESULT :: .LNA_TRAIN_REF :: .PIN_CTL :: .PIN_OLD :: .PRT_PORT_STATUS ::
    .RTE_EVENTS :: .RTE_GRP_SLOT :: .SLC_CONT_ESEQ_HI :: .SLC_CONT_ESEQ_LO :: .SLC_CONT_STATE :: .VIT_STATE :: .WR_Q_DRR :: recordRegs)
    (.arrived :: .cellsFree :: .cmds :: .cores :: .dwins :: .endpoints :: .heldTlps :: .lanes :: .links :: .lockSince :: .lockSrc ::
    .notices :: .outs :: .pausedLinks :: .pfLog :: .pfSeq :: .pins :: .ports :: .queues :: .trk :: .vports :: .winFetches :: .winReads
    :: .winStores :: .wins :: .withheld :: recordParts) d (Dev.again d scope id cls) := by
  unfold Dev.again
  with_reducible repeat'
    first
      | intro x | assumption | apply Dev.Keeps.refl | apply Dev.Keeps.bump | apply Dev.Keeps.step Dev.contain_keeps
      | apply Dev.Keeps.step Dev.endWaiting_keeps | apply Dev.Keeps.step Dev.record_keeps | apply Dev.Keeps.ite
      | apply Dev.Keeps.foldl | (show (_ : Bool) = _; decide +kernel) | (show _ ∈ _; decide +kernel) | (show _ < _; decide +kernel)
      | split | dsimp only

theorem Dev.furtherError_keeps {d : Dev} {scope id code cls what : Nat} : Dev.Keeps recordRegs (.limited :: recordParts) d
    (Dev.furtherError d scope id code cls what) := by
  unfold Dev.furtherError
  with_reducible repeat'
    first
      | intro x | assumption | apply Dev.Keeps.refl | apply Dev.Keeps.step Dev.record_keeps
      | apply Dev.Keeps.step Dev.recordLimited_keeps | apply Dev.Keeps.ite | apply Dev.Keeps.foldl
      | (show (_ : Bool) = _; decide +kernel) | (show _ ∈ _; decide +kernel) | (show _ < _; decide +kernel) | split | dsimp only

theorem Dev.class3_keeps {d : Dev} {p e what : Nat} : Dev.Keeps (.BSN_Q_STATUS :: .DOC_CORE_STATUS :: .DOC_EVENTS :: .DOC_WSTORE_LOST ::
    .EBR_CRD_AVAIL :: .EBR_EVENTS :: .EBR_LOCK :: .EBR_PFLOG_HEAD :: .EBR_RAT_PFDISC_HI :: .EBR_RAT_PFDISC_LO :: .FLL_LINK_STATUS ::
    .FLL_REPLAY :: .LNA_ALIGN :: .LNA_LANE_STATE :: .LNA_MRG_RESULT :: .LNA_RX_EQ :: .LNA_TRAIN_REF :: .LNA_TX_EQ :: .PIN_CTL ::
    .PIN_OLD :: .PRT_PORT_STATUS :: .RTE_EVENTS :: .RTE_GRP_SLOT :: .SLC_CONT_ESEQ_HI :: .SLC_CONT_ESEQ_LO :: .SLC_CONT_STATE ::
    .VIT_STATE :: .WR_Q_DRR :: recordRegs) (.arrived :: .cellsFree :: .cmds :: .cores :: .dwins :: .endpoints :: .eqReported ::
    .heldTlps :: .lanes :: .limited :: .links :: .lockSince :: .lockSrc :: .notices :: .outs :: .pausedLinks :: .pfLog :: .pfSeq ::
    .pins :: .ports :: .queues :: .trk :: .vports :: .winFetches :: .winReads :: .winStores :: .wins :: .withheld :: recordParts) d
    (Dev.class3 d p e what) := by
  unfold Dev.class3
  with_reducible repeat'
    first
      | intro x | assumption | apply Dev.Keeps.refl | apply Dev.Keeps.step Dev.again_keeps | apply Dev.Keeps.step Dev.contain_keeps
      | apply Dev.Keeps.step Dev.furtherError_keeps | apply Dev.Keeps.step Dev.record_keeps
      | apply Dev.Keeps.step Dev.retrainLink_keeps | apply Dev.Keeps.step Dev.setVit_keeps | apply Dev.Keeps.ite
      | apply Dev.Keeps.foldl | (show (_ : Bool) = _; decide +kernel) | (show _ ∈ _; decide +kernel) | (show _ < _; decide +kernel)
      | split | dsimp only

theorem Dev.arm_keeps {d : Dev} {point target argument count : Nat} : Dev.Keeps (.SLC_INJ_ARMED :: .TEL_MODE :: recordRegs) (.injections
    :: recordParts) d (Dev.arm d point target argument count) := by
  unfold Dev.arm
  with_reducible repeat'
    first
      | intro x | assumption | apply Dev.Keeps.refl | apply Dev.Keeps.step Dev.record_keeps | apply Dev.Keeps.step Dev.showArmed_keeps
      | apply Dev.Keeps.ite | apply Dev.Keeps.foldl | (show (_ : Bool) = _; decide +kernel) | (show _ ∈ _; decide +kernel)
      | (show _ < _; decide +kernel) | split | apply Dev.Keeps.set_injections | dsimp only

theorem Dev.regainView_keeps {d : Dev} {lv k : Nat} : Dev.Keeps [] [.ctrs, .out, .vits, .vports] d (Dev.regainView d lv k) := by
  unfold Dev.regainView
  with_reducible repeat'
    first
      | intro x | assumption | apply Dev.Keeps.refl | apply Dev.Keeps.step Dev.setBinding_keeps
      | apply Dev.Keeps.step Dev.slotPresent_keeps | apply Dev.Keeps.ite | apply Dev.Keeps.foldl
      | (show (_ : Bool) = _; decide +kernel) | (show _ ∈ _; decide +kernel) | (show _ < _; decide +kernel) | split | dsimp only

theorem Dev.freeLanes_keeps {d : Dev} {p : Nat} : Dev.Keeps (.LNA_ALIGN :: .LNA_LANE_STATE :: .LNA_MRG_RESULT :: .LNA_RX_EQ ::
    .LNA_TRAIN_REF :: .LNA_TX_EQ :: recordRegs) (.cmds :: .eqReported :: .lanes :: .ports :: recordParts) d (Dev.freeLanes d p) := by
  unfold Dev.freeLanes
  with_reducible repeat'
    first
      | intro x | assumption | apply Dev.Keeps.refl | apply Dev.Keeps.forEach | apply Dev.Keeps.when
      | apply Dev.Keeps.step Dev.laneStart_keeps | apply Dev.Keeps.step Dev.setLane_keeps | apply Dev.Keeps.ite
      | apply Dev.Keeps.foldl | (show (_ : Bool) = _; decide +kernel) | (show _ ∈ _; decide +kernel) | (show _ < _; decide +kernel)
      | split | dsimp only

theorem Dev.enableLink_keeps {d : Dev} {p : Nat} : Dev.Keeps (.LNA_ALIGN :: .LNA_LANE_STATE :: .LNA_MRG_RESULT :: .LNA_RX_EQ ::
    .LNA_TRAIN_REF :: .LNA_TX_EQ :: .PRT_PORT_STATUS :: recordRegs) (.cmds :: .eqReported :: .lanes :: .ports :: recordParts) d
    (Dev.enableLink d p) := by
  unfold Dev.enableLink
  with_reducible repeat'
    first
      | intro x | assumption | apply Dev.Keeps.refl | apply Dev.Keeps.put | apply Dev.Keeps.step Dev.emit_keeps
      | apply Dev.Keeps.step Dev.freeLanes_keeps | apply Dev.Keeps.ite | apply Dev.Keeps.foldl | (show (_ : Bool) = _; decide +kernel)
      | (show _ ∈ _; decide +kernel) | (show _ < _; decide +kernel) | split | dsimp only

theorem Dev.takeNotice_keeps {d : Dev} {scope id cause : Nat} : Dev.Keeps (.BSN_Q_STATUS :: .DOC_CORE_STATUS :: .DOC_EVENTS ::
    .DOC_WSTORE_LOST :: .EBR_EVENTS :: .EBR_LOCK :: .EBR_PFLOG_HEAD :: .EBR_RAT_PFDISC_HI :: .EBR_RAT_PFDISC_LO :: recordRegs) (.cores
    :: .endpoints :: .heldRemote :: .lockSince :: .lockSrc :: .outs :: .pfLog :: .pfSeq :: .queues :: .trk :: .vports :: .winFetches ::
    .winReads :: .winStores :: recordParts) d (Dev.takeNotice d scope id cause) := by
  unfold Dev.takeNotice
  with_reducible repeat'
    first
      | intro x | assumption | apply Dev.Keeps.refl | apply Dev.Keeps.forEach | apply Dev.Keeps.step Dev.breakLocksOf_keeps
      | apply Dev.Keeps.step Dev.discardWaiting_keeps | apply Dev.Keeps.step Dev.loseView_keeps
      | apply Dev.Keeps.step Dev.refuseToward_keeps | apply Dev.Keeps.step Dev.setQueueState_keeps
      | apply Dev.Keeps.step Dev.squash_keeps | apply Dev.Keeps.ite | apply Dev.Keeps.foldl | (show (_ : Bool) = _; decide +kernel)
      | (show _ ∈ _; decide +kernel) | (show _ < _; decide +kernel) | split | apply Dev.Keeps.set_heldRemote
      | apply Dev.Keeps.set_endpoints | dsimp only

theorem Dev.leaveCont_keeps {d : Dev} {scope id : Nat} : Dev.Keeps (.BSN_Q_STATUS :: .SLC_CONT_STATE :: recordRegs) (.arrived :: .cmds
    :: .notices :: recordParts) d (Dev.leaveCont d scope id) := by
  unfold Dev.leaveCont
  with_reducible repeat'
    first
      | intro x | assumption | apply Dev.Keeps.refl | apply Dev.Keeps.when | apply Dev.Keeps.forEach | apply Dev.Keeps.put
      | apply Dev.Keeps.step Dev.count_keeps | apply Dev.Keeps.step Dev.endWaiting_keeps | apply Dev.Keeps.step Dev.record_keeps
      | apply Dev.Keeps.step Dev.setCont_keeps | apply Dev.Keeps.step Dev.tell_keeps | apply Dev.Keeps.ite | apply Dev.Keeps.foldl
      | (show (_ : Bool) = _; decide +kernel) | (show _ ∈ _; decide +kernel) | (show _ < _; decide +kernel) | split
      | apply Dev.Keeps.set_notices | dsimp only

theorem Dev.lost_keeps {d : Dev} {scope id : Nat} : Dev.Keeps (.BSN_Q_STATUS :: .DOC_CORE_STATUS :: .DOC_EVENTS :: .DOC_WSTORE_LOST ::
    .EBR_CRD_AVAIL :: .EBR_EVENTS :: .EBR_LOCK :: .EBR_PFLOG_HEAD :: .EBR_RAT_PFDISC_HI :: .EBR_RAT_PFDISC_LO :: .FLL_LINK_STATUS ::
    .FLL_REPLAY :: .LNA_ALIGN :: .LNA_LANE_STATE :: .LNA_MRG_RESULT :: .LNA_TRAIN_REF :: .PIN_CTL :: .PIN_OLD :: .PRT_PORT_STATUS ::
    .RTE_EVENTS :: .RTE_GRP_SLOT :: .SLC_CONT_ESEQ_HI :: .SLC_CONT_ESEQ_LO :: .SLC_CONT_STATE :: .VIT_STATE :: .WR_Q_DRR :: recordRegs)
    (.arrived :: .cellsFree :: .cmds :: .cores :: .dwins :: .endpoints :: .heldTlps :: .lanes :: .links :: .lockSince :: .lockSrc ::
    .notices :: .outs :: .pausedLinks :: .pfLog :: .pfSeq :: .pins :: .ports :: .queues :: .trk :: .vports :: .winFetches :: .winReads
    :: .winStores :: .wins :: .withheld :: recordParts) d (Dev.lost d scope id) := by
  unfold Dev.lost
  with_reducible repeat'
    first
      | intro x | assumption | apply Dev.Keeps.refl | apply Dev.Keeps.put | apply Dev.Keeps.when
      | apply Dev.Keeps.step Dev.contain_keeps | apply Dev.Keeps.step Dev.endWaiting_keeps | apply Dev.Keeps.ite
      | apply Dev.Keeps.foldl | (show (_ : Bool) = _; decide +kernel) | (show _ ∈ _; decide +kernel) | (show _ < _; decide +kernel)
      | split | dsimp only

theorem Dev.insertion_keeps {d : Dev} {id : Nat} : Dev.Keeps (.BSN_Q_STATUS :: .DOC_CORE_STATUS :: .DOC_EVENTS :: .DOC_WSTORE_LOST ::
    .EBR_EVENTS :: .EBR_LOCK :: .EBR_PFLOG_HEAD :: .EBR_RAT_PFDISC_HI :: .EBR_RAT_PFDISC_LO :: .LNA_ALIGN :: .LNA_LANE_STATE ::
    .LNA_MRG_RESULT :: .LNA_TRAIN_REF :: .PRT_PORT_STATUS :: .SLC_CONT_STATE :: .WR_Q_DRR :: recordRegs) (.arrived :: .cellsFree ::
    .cmds :: .cores :: .dwins :: .endpoints :: .lanes :: .lockSince :: .lockSrc :: .notices :: .outs :: .pfLog :: .pfSeq :: .ports ::
    .queues :: .trk :: .vports :: .winFetches :: .winReads :: .winStores :: recordParts) d (Dev.insertion d id) := by
  unfold Dev.insertion
  with_reducible repeat'
    first
      | intro x | assumption | apply Dev.Keeps.refl | apply Dev.Keeps.forEach | apply Dev.Keeps.put
      | apply Dev.Keeps.step Dev.enterPort_keeps | apply Dev.Keeps.step Dev.notify_keeps | apply Dev.Keeps.step Dev.setCont_keeps
      | apply Dev.Keeps.step Dev.setEndpoint_keeps | apply Dev.Keeps.ite | apply Dev.Keeps.foldl
      | (show (_ : Bool) = _; decide +kernel) | (show _ ∈ _; decide +kernel) | (show _ < _; decide +kernel) | split | dsimp only

theorem Dev.representEndpoint_keeps {d : Dev} {p e : Nat} {same : Bool} : Dev.Keeps [] [.arrived, .ctrs, .out, .vits, .vports] d
    (Dev.representEndpoint d p e same) := by
  unfold Dev.representEndpoint
  with_reducible repeat'
    first
      | intro x | assumption | apply Dev.Keeps.refl | apply Dev.Keeps.step Dev.regainView_keeps | apply Dev.Keeps.step Dev.tell_keeps
      | apply Dev.Keeps.ite | apply Dev.Keeps.foldl | (show (_ : Bool) = _; decide +kernel) | (show _ ∈ _; decide +kernel)
      | (show _ < _; decide +kernel) | split | dsimp only

theorem Dev.startRelease_keeps {d : Dev} {scope id : Nat} : Dev.Keeps (.ATT_CTL :: .ATT_EP_HI :: .ATT_EP_LO :: .ATT_FPID :: .ATT_HOST_HI
    :: .ATT_HOST_LO :: .BSN_Q_STATUS :: .EBR_LOCK :: .LNA_ALIGN :: .LNA_LANE_STATE :: .LNA_MRG_RESULT :: .LNA_RX_EQ :: .LNA_TRAIN_REF ::
    .LNA_TX_EQ :: .MBX_CH_STATUS :: .PRT_PORT_STATUS :: .SLC_CONT_STATE :: .TUN_CE_GEOM :: .TUN_CE_IRQ :: .TUN_CE_MODE ::
    .TUN_CE_SCANOUT :: .TUN_CE_STATUS :: .TUN_CE_STRIDE :: .VIT_STATE :: .VMF_BME :: .VMF_CAT_ADDR_HI :: .VMF_CAT_ADDR_LO ::
    .VMF_CAT_SIZE :: .VMF_CAT_WPTR :: .VMF_CPL_TMO :: .VMF_EVENT_MASK :: .VMF_SPC_ADDR_HI :: .VMF_SPC_ADDR_LO :: .VMF_SPC_SIZE ::
    .VMF_SPC_WPTR :: .WR_Q_DRR :: recordRegs) (.arrived :: .atts :: .cats :: .cellsFree :: .cfg :: .chans :: .cmds :: .dwins ::
    .endpoints :: .engines :: .eqReported :: .heldTlps :: .lanes :: .lockSince :: .lockSrc :: .outs :: .owesDetect :: .owesDrs :: .ports
    :: .queues :: .samples :: .spcs :: .trk :: .vmfs :: .vports :: recordParts) d (Dev.startRelease d scope id) := by
  unfold Dev.startRelease
  with_reducible repeat'
    first
      | intro x | assumption | apply Dev.Keeps.refl | apply Dev.Keeps.forEach | apply Dev.Keeps.put | apply Dev.Keeps.when
      | apply Dev.Keeps.step Dev.enableLink_keeps | apply Dev.Keeps.step Dev.enterReset_keeps
      | apply Dev.Keeps.step Dev.freeLanes_keeps | apply Dev.Keeps.step Dev.setEndpoint_keeps
      | apply Dev.Keeps.step Dev.setQueueState_keeps | apply Dev.Keeps.ite | apply Dev.Keeps.foldl
      | (show (_ : Bool) = _; decide +kernel) | (show _ ∈ _; decide +kernel) | (show _ < _; decide +kernel) | split | dsimp only

theorem Dev.release_keeps {d : Dev} {h : CmdHdr} {scope id eseq : Nat} : Dev.Keeps (.ATT_CTL :: .ATT_EP_HI :: .ATT_EP_LO :: .ATT_FPID ::
    .ATT_HOST_HI :: .ATT_HOST_LO :: .BSN_Q_STATUS :: .EBR_LOCK :: .LNA_ALIGN :: .LNA_LANE_STATE :: .LNA_MRG_RESULT :: .LNA_RX_EQ ::
    .LNA_TRAIN_REF :: .LNA_TX_EQ :: .MBX_CH_STATUS :: .PRT_PORT_STATUS :: .SLC_CONT_STATE :: .TUN_CE_GEOM :: .TUN_CE_IRQ :: .TUN_CE_MODE
    :: .TUN_CE_SCANOUT :: .TUN_CE_STATUS :: .TUN_CE_STRIDE :: .VIT_STATE :: .VMF_BME :: .VMF_CAT_ADDR_HI :: .VMF_CAT_ADDR_LO ::
    .VMF_CAT_SIZE :: .VMF_CAT_WPTR :: .VMF_CPL_TMO :: .VMF_EVENT_MASK :: .VMF_SPC_ADDR_HI :: .VMF_SPC_ADDR_LO :: .VMF_SPC_SIZE ::
    .VMF_SPC_WPTR :: .WR_Q_DRR :: recordRegs) (.arrived :: .atts :: .cats :: .cellsFree :: .cfg :: .chans :: .cmds :: .dwins ::
    .endpoints :: .engines :: .eqReported :: .heldTlps :: .lanes :: .lockSince :: .lockSrc :: .outs :: .owesDetect :: .owesDrs :: .ports
    :: .queues :: .samples :: .spcs :: .trk :: .vmfs :: .vports :: recordParts) d (Dev.release d h scope id eseq) := by
  unfold Dev.release
  with_reducible repeat'
    first
      | intro x | assumption | apply Dev.Keeps.refl | apply Dev.Keeps.step Dev.badParam_keeps | apply Dev.Keeps.step Dev.finish_keeps
      | apply Dev.Keeps.step Dev.startRelease_keeps | apply Dev.Keeps.step Dev.waitFor_keeps | apply Dev.Keeps.ite
      | apply Dev.Keeps.foldl | (show (_ : Bool) = _; decide +kernel) | (show _ ∈ _; decide +kernel) | (show _ < _; decide +kernel)
      | split | dsimp only

end Sys2Proof.Machine
end

