-- ==== Sys2Proof/Laws/KeepsPortCommands.lean ====
section
/-! SUPPORT. What each operation of Machine/PortCommands.lean may change: every register and structure outside the lists named stays as it was. -/

set_option Elab.async false
set_option linter.all false

namespace Sys2Proof.Machine

theorem Dev.retrainLane_keeps {d : Dev} {n : Nat} {unretire : Bool} : Dev.Keeps (.LNA_ALIGN :: .LNA_LANE_STATE :: .LNA_MRG_RESULT ::
    .LNA_RX_EQ :: .LNA_TRAIN_REF :: .LNA_TX_EQ :: recordRegs) (.cmds :: .eqReported :: .lanes :: .ports :: recordParts) d
    (Dev.retrainLane d n unretire) := by
  unfold Dev.retrainLane
  with_reducible repeat'
    first
      | intro x | assumption | apply Dev.Keeps.refl | apply Dev.Keeps.put | apply Dev.Keeps.step Dev.laneDetect_keeps
      | apply Dev.Keeps.ite | apply Dev.Keeps.foldl | (show (_ : Bool) = _; decide +kernel) | (show _ ∈ _; decide +kernel)
      | (show _ < _; decide +kernel) | split | dsimp only

theorem Dev.resetMinimums_keeps {d : Dev} {p : Nat} : Dev.Keeps [.BSN_Q_CFG] [] d (Dev.resetMinimums d p) := by
  unfold Dev.resetMinimums
  with_reducible repeat'
    first
      | intro x | assumption | apply Dev.Keeps.refl | apply Dev.Keeps.put | apply Dev.Keeps.forEach | apply Dev.Keeps.ite
      | apply Dev.Keeps.foldl | (show (_ : Bool) = _; decide +kernel) | (show _ ∈ _; decide +kernel) | (show _ < _; decide +kernel)
      | split | dsimp only

theorem Dev.removePort_keeps {d : Dev} {p : Nat} : Dev.Keeps [.BSN_PORT_GRANT, .BSN_PORT_RSV, .BSN_PORT_WIN, .BSN_Q_CFG, .FLL_EVENTS,
    .FLL_LINK_STATUS, .FLL_PARTNER, .FLL_REPLAY, .FLL_RTT, .FLL_SEQ, .PRT_EVENTS, .PRT_LTR, .PRT_PM_CFG, .PRT_PORT_CFG,
    .PRT_PORT_STATUS] [.edges, .edgesOut, .links, .ports] d (Dev.removePort d p) := by
  unfold Dev.removePort
  with_reducible repeat'
    first
      | intro x | assumption | apply Dev.Keeps.refl | apply Dev.Keeps.step Dev.resetMinimums_keeps
      | apply Dev.Keeps.step Dev.resetRegs_keeps | apply Dev.Keeps.ite | apply Dev.Keeps.foldl | (show (_ : Bool) = _; decide +kernel)
      | (show _ ∈ _; decide +kernel) | (show _ < _; decide +kernel) | split | apply Dev.Keeps.set_links_ports_edges_edgesOut
      | apply Dev.Keeps.set_edges_edgesOut | apply Dev.Keeps.set_ports | apply Dev.Keeps.set_links | apply Dev.Keeps.set_edgesOut
      | dsimp only

theorem Dev.applyPort_keeps {d : Dev} {p : Nat} {x : PortSetting} : Dev.Keeps [.BSN_PORT_GRANT, .BSN_PORT_RSV, .BSN_PORT_WIN,
    .BSN_Q_CFG, .LNA_LANE_CFG, .PRT_PM_CFG, .PRT_PORT_CFG, .WR_GATE_STATUS, .WR_PORT_GUARD, .WR_Q_CFG] [] d (Dev.applyPort d p x) := by
  unfold Dev.applyPort
  with_reducible repeat'
    first
      | intro x | assumption | apply Dev.Keeps.refl | apply Dev.Keeps.forEach | apply Dev.Keeps.mark | apply Dev.Keeps.put
      | apply Dev.Keeps.step Dev.recomputeGuard_keeps | apply Dev.Keeps.step Dev.refreshGrant_keeps
      | apply Dev.Keeps.step Dev.resetMinimums_keeps | apply Dev.Keeps.ite | apply Dev.Keeps.foldl
      | (show (_ : Bool) = _; decide +kernel) | (show _ ∈ _; decide +kernel) | (show _ < _; decide +kernel) | split | dsimp only

theorem Dev.disablePort_keeps {d : Dev} {p : Nat} : Dev.Keeps (.ATT_CTL :: .ATT_EP_HI :: .ATT_EP_LO :: .ATT_FPID :: .ATT_HOST_HI ::
    .ATT_HOST_LO :: .BSN_Q_STATUS :: .DOC_CORE_STATUS :: .DOC_EVENTS :: .DOC_WSTORE_LOST :: .EBR_CRD_AVAIL :: .EBR_EVENTS :: .EBR_LOCK
    :: .EBR_PFLOG_HEAD :: .EBR_RAT_PFDISC_HI :: .EBR_RAT_PFDISC_LO :: .FLL_LINK_STATUS :: .FLL_REPLAY :: .LNA_ALIGN :: .LNA_LANE_CFG ::
    .LNA_LANE_STATE :: .LNA_MRG_RESULT :: .LNA_RX_EQ :: .LNA_TRAIN_REF :: .LNA_TX_EQ :: .MBX_CH_STATUS :: .PIN_CTL :: .PIN_OLD ::
    .PRT_PORT_STATUS :: .RTE_EVENTS :: .RTE_GRP_SLOT :: .SLC_CONT_ESEQ_HI :: .SLC_CONT_ESEQ_LO :: .SLC_CONT_STATE :: .TUN_CE_GEOM ::
    .TUN_CE_IRQ :: .TUN_CE_MODE :: .TUN_CE_SCANOUT :: .TUN_CE_STATUS :: .TUN_CE_STRIDE :: .VIT_STATE :: .VMF_BME :: .VMF_CAT_ADDR_HI ::
    .VMF_CAT_ADDR_LO :: .VMF_CAT_SIZE :: .VMF_CAT_WPTR :: .VMF_CPL_TMO :: .VMF_EVENT_MASK :: .VMF_SPC_ADDR_HI :: .VMF_SPC_ADDR_LO ::
    .VMF_SPC_SIZE :: .VMF_SPC_WPTR :: .WR_Q_DRR :: recordRegs) (.arrived :: .atts :: .cats :: .cellsFree :: .cfg :: .chans :: .cmds ::
    .cores :: .dwins :: .endpoints :: .engines :: .eqReported :: .heldTlps :: .lanes :: .links :: .lockSince :: .lockSrc :: .notices ::
    .outs :: .owesDetect :: .owesDrs :: .pausedLinks :: .perstReleased :: .pfLog :: .pfSeq :: .pins :: .ports :: .queues :: .samples ::
    .spcs :: .trk :: .vmfs :: .vports :: .winFetches :: .winReads :: .winStores :: .wins :: .withheld :: recordParts) d (Dev.disablePort
    d p) := by
  unfold Dev.disablePort
  with_reducible repeat'
    first
      | intro x | assumption | apply Dev.Keeps.refl | apply Dev.Keeps.forEach | apply Dev.Keeps.when
      | apply Dev.Keeps.step Dev.disableLane_keeps | apply Dev.Keeps.step Dev.hotReset_keeps | apply Dev.Keeps.step Dev.linkDown_keeps
      | apply Dev.Keeps.step Dev.linkFalls_keeps | apply Dev.Keeps.step Dev.remove_keeps | apply Dev.Keeps.step Dev.setPerst_keeps
      | apply Dev.Keeps.step Dev.setPortX_keeps | apply Dev.Keeps.ite | apply Dev.Keeps.foldl | (show (_ : Bool) = _; decide +kernel)
      | (show _ ∈ _; decide +kernel) | (show _ < _; decide +kernel) | split | dsimp only

theorem Dev.fundamental_keeps {d : Dev} {p : Nat} : Dev.Keeps (.BSN_Q_STATUS :: .DOC_CORE_STATUS :: .DOC_EVENTS :: .DOC_WSTORE_LOST ::
    .EBR_EVENTS :: .EBR_LOCK :: .EBR_PFLOG_HEAD :: .EBR_RAT_PFDISC_HI :: .EBR_RAT_PFDISC_LO :: .LNA_ALIGN :: .LNA_LANE_STATE ::
    .LNA_MRG_RESULT :: .LNA_RX_EQ :: .LNA_TRAIN_REF :: .LNA_TX_EQ :: .PRT_PORT_STATUS :: .SLC_CONT_STATE :: .WR_Q_DRR :: recordRegs)
    (.cellsFree :: .cmds :: .cores :: .dwins :: .endpoints :: .eqReported :: .lanes :: .lockSince :: .lockSrc :: .outs :: .perstReleased
    :: .pfLog :: .pfSeq :: .ports :: .queues :: .trk :: .vports :: .winFetches :: .winReads :: .winStores :: recordParts) d
    (Dev.fundamental d p) := by
  unfold Dev.fundamental
  with_reducible repeat'
    first
      | intro x | assumption | apply Dev.Keeps.refl | apply Dev.Keeps.forEach | apply Dev.Keeps.when
      | apply Dev.Keeps.step Dev.enterPort_keeps | apply Dev.Keeps.step Dev.releasePerst_keeps
      | apply Dev.Keeps.step Dev.retrainLink_keeps | apply Dev.Keeps.step Dev.setCont_keeps
      | apply Dev.Keeps.step Dev.setEndpoint_keeps | apply Dev.Keeps.step Dev.setPerst_keeps | apply Dev.Keeps.ite
      | apply Dev.Keeps.foldl | (show (_ : Bool) = _; decide +kernel) | (show _ ∈ _; decide +kernel) | (show _ < _; decide +kernel)
      | split | dsimp only

theorem Dev.forceReequalise_keeps {d : Dev} {p : Nat} : Dev.Keeps (.LNA_EVENTS :: .LNA_TRAIN_REF :: recordRegs) (.drawn :: .lanes ::
    .ports :: recordParts) d (Dev.forceReequalise d p) := by
  unfold Dev.forceReequalise
  with_reducible repeat'
    first
      | intro x | assumption | apply Dev.Keeps.refl | apply Dev.Keeps.step Dev.draw_keeps
      | apply Dev.Keeps.step Dev.reequalisePort_keeps | apply Dev.Keeps.ite | apply Dev.Keeps.foldl
      | (show (_ : Bool) = _; decide +kernel) | (show _ ∈ _; decide +kernel) | (show _ < _; decide +kernel) | split
      | refine Dev.Keeps.pair Dev.draw_keeps (by assumption) ?_ ?_ ?_ | dsimp only

theorem Dev.retrainPort_keeps {d : Dev} {p flags : Nat} : Dev.Keeps (.BSN_Q_STATUS :: .DOC_CORE_STATUS :: .DOC_EVENTS ::
    .DOC_WSTORE_LOST :: .EBR_CRD_AVAIL :: .EBR_EVENTS :: .EBR_LOCK :: .EBR_PFLOG_HEAD :: .EBR_RAT_PFDISC_HI :: .EBR_RAT_PFDISC_LO ::
    .FLL_LINK_STATUS :: .FLL_REPLAY :: .LNA_ALIGN :: .LNA_EVENTS :: .LNA_LANE_STATE :: .LNA_MRG_RESULT :: .LNA_RX_EQ :: .LNA_TRAIN_REF
    :: .LNA_TX_EQ :: .PIN_CTL :: .PIN_OLD :: .PRT_PORT_STATUS :: .RTE_EVENTS :: .RTE_GRP_SLOT :: .SLC_CONT_STATE :: .WR_Q_DRR ::
    recordRegs) (.arrived :: .cellsFree :: .cmds :: .cores :: .drawn :: .dwins :: .endpoints :: .eqReported :: .lanes :: .links ::
    .lockSince :: .lockSrc :: .outs :: .pausedLinks :: .perstReleased :: .pfLog :: .pfSeq :: .pins :: .ports :: .queues :: .trk ::
    .vports :: .winFetches :: .winReads :: .winStores :: .wins :: recordParts) d (Dev.retrainPort d p flags) := by
  unfold Dev.retrainPort
  with_reducible repeat'
    first
      | intro x | assumption | apply Dev.Keeps.refl | apply Dev.Keeps.forEach | apply Dev.Keeps.step Dev.askWidth_keeps
      | apply Dev.Keeps.step Dev.count_keeps | apply Dev.Keeps.step Dev.emit_keeps | apply Dev.Keeps.step Dev.forceReequalise_keeps
      | apply Dev.Keeps.step Dev.fundamental_keeps | apply Dev.Keeps.step Dev.laneDetect_keeps
      | apply Dev.Keeps.step Dev.linkDown_keeps | apply Dev.Keeps.step Dev.resyncPort_keeps
      | apply Dev.Keeps.step Dev.retrainLane_keeps | apply Dev.Keeps.ite | apply Dev.Keeps.foldl
      | (show (_ : Bool) = _; decide +kernel) | (show _ ∈ _; decide +kernel) | (show _ < _; decide +kernel) | split | dsimp only

theorem Dev.configPort_keeps {d : Dev} {h : CmdHdr} {p : Nat} {x : PortSetting} : Dev.Keeps (.BSN_EVENTS :: .BSN_PORT_GRANT ::
    .BSN_PORT_RSV :: .BSN_PORT_WIN :: .BSN_Q_CFG :: .BSN_RESERVED :: .BSN_SHARED_SIZE :: .FLL_EVENTS :: .FLL_LINK_STATUS :: .FLL_PARTNER
    :: .FLL_REPLAY :: .FLL_RTT :: .FLL_SEQ :: .LNA_LANE_CFG :: .PRT_EVENTS :: .PRT_LTR :: .PRT_PM_CFG :: .PRT_PORT_CFG ::
    .PRT_PORT_STATUS :: .WR_GATE_STATUS :: .WR_PORT_GUARD :: .WR_Q_CFG :: recordRegs) (.cmds :: .edges :: .edgesOut :: .links :: .ports
    :: recordParts) d (Dev.configPort d h p x) := by
  unfold Dev.configPort
  with_reducible repeat'
    first
      | intro x | assumption | apply Dev.Keeps.refl | apply Dev.Keeps.when | apply Dev.Keeps.step Dev.applyPort_keeps
      | apply Dev.Keeps.step Dev.finish_keeps | apply Dev.Keeps.step (Dev.raise_keeps ?_) | apply Dev.Keeps.step Dev.removePort_keeps
      | apply Dev.Keeps.step Dev.setReserved_keeps | apply Dev.Keeps.ite | apply Dev.Keeps.foldl
      | (show (_ : Bool) = _; decide +kernel) | (show _ ∈ _; decide +kernel) | (show _ < _; decide +kernel) | split | dsimp only

theorem Dev.enablePort_keeps {d : Dev} {p : Nat} : Dev.Keeps (.BSN_Q_STATUS :: .DOC_CORE_STATUS :: .DOC_EVENTS :: .DOC_WSTORE_LOST ::
    .EBR_EVENTS :: .EBR_LOCK :: .EBR_PFLOG_HEAD :: .EBR_RAT_PFDISC_HI :: .EBR_RAT_PFDISC_LO :: .LNA_ALIGN :: .LNA_LANE_CFG ::
    .LNA_LANE_STATE :: .LNA_MRG_RESULT :: .LNA_RX_EQ :: .LNA_TRAIN_REF :: .LNA_TX_EQ :: .PRT_PORT_STATUS :: .SLC_CONT_STATE :: .WR_Q_DRR
    :: recordRegs) (.arrived :: .cellsFree :: .cmds :: .cores :: .dwins :: .endpoints :: .eqReported :: .lanes :: .lockSince :: .lockSrc
    :: .notices :: .outs :: .perstReleased :: .pfLog :: .pfSeq :: .ports :: .queues :: .trk :: .vports :: .winFetches :: .winReads ::
    .winStores :: recordParts) d (Dev.enablePort d p) := by
  unfold Dev.enablePort
  with_reducible repeat'
    first
      | intro x | assumption | apply Dev.Keeps.refl | apply Dev.Keeps.forEach | apply Dev.Keeps.when
      | apply Dev.Keeps.step Dev.enableLane_keeps | apply Dev.Keeps.step Dev.insertion_keeps
      | apply Dev.Keeps.step Dev.releasePerst_keeps | apply Dev.Keeps.step Dev.setPortX_keeps | apply Dev.Keeps.ite
      | apply Dev.Keeps.foldl | (show (_ : Bool) = _; decide +kernel) | (show _ ∈ _; decide +kernel) | (show _ < _; decide +kernel)
      | split | dsimp only

theorem Dev.scanLanes_keeps {d : Dev} {h : CmdHdr} {first count dwell errLimit axes hfloor vfloor : Nat} : Dev.Keeps [.LNA_MRG_CTL,
    .LNA_MRG_RESULT] [.cmds, .lanes] d (Dev.scanLanes d h first count dwell errLimit axes hfloor vfloor) := by
  unfold Dev.scanLanes
  with_reducible repeat'
    first
      | intro x | assumption | apply Dev.Keeps.refl | apply Dev.Keeps.put | apply Dev.Keeps.forEach
      | apply Dev.Keeps.step Dev.endScans_keeps | apply Dev.Keeps.step Dev.startScan_keeps | apply Dev.Keeps.step Dev.waitFor_keeps
      | apply Dev.Keeps.ite | apply Dev.Keeps.foldl | (show (_ : Bool) = _; decide +kernel) | (show _ ∈ _; decide +kernel)
      | (show _ < _; decide +kernel) | split | dsimp only

end Sys2Proof.Machine
end

