-- ==== Sys2Proof/Laws/KeepsMessages.lean ====
section
/-! SUPPORT. What each operation of Machine/Messages.lean may change: every register and structure outside the lists named stays as it was. -/

set_option Elab.async false
set_option linter.all false

namespace Sys2Proof.Machine

theorem Dev.linkReady_keeps {d : Dev} {p : Nat} : Dev.Keeps [.PRT_PORT_STATUS] [] d (Dev.linkReady d p) := by
  unfold Dev.linkReady
  with_reducible repeat'
    first
      | intro x | assumption | apply Dev.Keeps.refl | apply Dev.Keeps.put | apply Dev.Keeps.ite | apply Dev.Keeps.foldl
      | (show (_ : Bool) = _; decide +kernel) | (show _ ∈ _; decide +kernel) | (show _ < _; decide +kernel) | split | dsimp only

theorem Dev.sendPmeToAck_keeps {d : Dev} {p : Nat} : Dev.Keeps [.PRT_PORT_STATUS] [.out] d (Dev.sendPmeToAck d p) := by
  unfold Dev.sendPmeToAck
  with_reducible repeat'
    first
      | intro x | assumption | apply Dev.Keeps.refl | apply Dev.Keeps.step Dev.emit_keeps | apply Dev.Keeps.step Dev.linkReady_keeps
      | apply Dev.Keeps.ite | apply Dev.Keeps.foldl | (show (_ : Bool) = _; decide +kernel) | (show _ ∈ _; decide +kernel)
      | (show _ < _; decide +kernel) | split | dsimp only

theorem Dev.clearDpc_keeps {d : Dev} {lv k : Nat} : Dev.Keeps [] [.arrived, .endpoints, .vports] d (Dev.clearDpc d lv k) := by
  unfold Dev.clearDpc
  with_reducible repeat'
    first
      | intro x | assumption | apply Dev.Keeps.refl | apply Dev.Keeps.when | apply Dev.Keeps.step Dev.refuseBinding_keeps
      | apply Dev.Keeps.step Dev.setVport_keeps | apply Dev.Keeps.ite | apply Dev.Keeps.foldl | (show (_ : Bool) = _; decide +kernel)
      | (show _ ∈ _; decide +kernel) | (show _ < _; decide +kernel) | split | dsimp only

theorem Dev.showLtr_keeps {d : Dev} {p : Nat} : Dev.Keeps [.PRT_LTR, .PWR_WAKE] [.latched] d (Dev.showLtr d p) := by
  unfold Dev.showLtr
  with_reducible repeat'
    first
      | intro x | assumption | apply Dev.Keeps.refl | apply Dev.Keeps.put | apply Dev.Keeps.when | apply Dev.Keeps.mark
      | apply Dev.Keeps.step Dev.noteWake_keeps | apply Dev.Keeps.ite | apply Dev.Keeps.foldl | (show (_ : Bool) = _; decide +kernel)
      | (show _ ∈ _; decide +kernel) | (show _ < _; decide +kernel) | split | dsimp only

theorem Dev.takeIntx_keeps {d : Dev} {lv k fn wire : Nat} {on : Bool} : Dev.Keeps [] [.ctrs, .out, .vits] d (Dev.takeIntx d lv k fn wire
    on) := by
  unfold Dev.takeIntx
  with_reducible repeat'
    first
      | intro x | assumption | apply Dev.Keeps.refl | apply Dev.Keeps.step Dev.contribute_keeps | apply Dev.Keeps.ite
      | apply Dev.Keeps.foldl | (show (_ : Bool) = _; decide +kernel) | (show _ ∈ _; decide +kernel) | (show _ < _; decide +kernel)
      | split | dsimp only

theorem Dev.sendLtr_keeps {d : Dev} {lv : Nat} : Dev.Keeps [] [.ctrs, .out, .vits] d (Dev.sendLtr d lv) := by
  unfold Dev.sendLtr
  with_reducible repeat'
    first
      | intro x | assumption | apply Dev.Keeps.refl | apply Dev.Keeps.step Dev.count_keeps | apply Dev.Keeps.step Dev.emit_keeps
      | apply Dev.Keeps.step Dev.setVit_keeps | apply Dev.Keeps.ite | apply Dev.Keeps.foldl | (show (_ : Bool) = _; decide +kernel)
      | (show _ ∈ _; decide +kernel) | (show _ < _; decide +kernel) | split | dsimp only

theorem Dev.enterL1_keeps {d : Dev} {p n : Nat} : Dev.Keeps [.PRT_PORT_STATUS] [.ctrs] d (Dev.enterL1 d p n) := by
  unfold Dev.enterL1
  with_reducible repeat'
    first
      | intro x | assumption | apply Dev.Keeps.refl | apply Dev.Keeps.put | apply Dev.Keeps.step Dev.count_keeps | apply Dev.Keeps.ite
      | apply Dev.Keeps.foldl | (show (_ : Bool) = _; decide +kernel) | (show _ ∈ _; decide +kernel) | (show _ < _; decide +kernel)
      | split | dsimp only

theorem Dev.virtualDpc_keeps {d : Dev} {lv : Nat} {b : Binding} : Dev.Keeps [] [.arrived, .endpoints, .vports] d (Dev.virtualDpc d lv b)
    := by
  unfold Dev.virtualDpc
  with_reducible repeat'
    first
      | intro x | assumption | apply Dev.Keeps.refl | apply Dev.Keeps.step Dev.refuseBinding_keeps
      | apply Dev.Keeps.step Dev.setVport_keeps | apply Dev.Keeps.ite | apply Dev.Keeps.foldl | (show (_ : Bool) = _; decide +kernel)
      | (show _ ∈ _; decide +kernel) | (show _ < _; decide +kernel) | split | dsimp only

theorem Dev.endpointError_keeps {d : Dev} {lv k severity : Nat} : Dev.Keeps [] [.arrived, .ctrs, .endpoints, .vports] d
    (Dev.endpointError d lv k severity) := by
  unfold Dev.endpointError
  with_reducible repeat'
    first
      | intro x | assumption | apply Dev.Keeps.refl | apply Dev.Keeps.when | apply Dev.Keeps.step Dev.aer_keeps
      | apply Dev.Keeps.step Dev.virtualDpc_keeps | apply Dev.Keeps.ite | apply Dev.Keeps.foldl
      | (show (_ : Bool) = _; decide +kernel) | (show _ ∈ _; decide +kernel) | (show _ < _; decide +kernel) | split | dsimp only

end Sys2Proof.Machine
end

