-- ==== Sys2Proof/Laws/KeepsTracker.lean ====
section
/-! SUPPORT. What each operation of Machine/Tracker.lean may change: every register and structure outside the lists named stays as it was. -/

set_option Elab.async false
set_option linter.all false

namespace Sys2Proof.Machine

theorem Dev.aerFrom_keeps {d : Dev} {gvh fpid : Nat} : Dev.Keeps [] [.ctrs, .vports] d (Dev.aerFrom d gvh fpid) := by
  unfold Dev.aerFrom
  with_reducible repeat'
    first
      | intro x | assumption | apply Dev.Keeps.refl | apply Dev.Keeps.step Dev.aer_keeps | apply Dev.Keeps.ite | apply Dev.Keeps.foldl
      | (show (_ : Bool) = _; decide +kernel) | (show _ ∈ _; decide +kernel) | (show _ < _; decide +kernel) | split | dsimp only

theorem Dev.recordUnexpected_keeps {d : Dev} {p gvh src : Nat} {b : Body} : Dev.Keeps recordRegs (.vports :: recordParts) d
    (Dev.recordUnexpected d p gvh src b) := by
  unfold Dev.recordUnexpected
  with_reducible repeat'
    first
      | intro x | assumption | apply Dev.Keeps.refl | apply Dev.Keeps.step Dev.aerFrom_keeps | apply Dev.Keeps.step Dev.count_keeps
      | apply Dev.Keeps.step Dev.record_keeps | apply Dev.Keeps.ite | apply Dev.Keeps.foldl | (show (_ : Bool) = _; decide +kernel)
      | (show _ ∈ _; decide +kernel) | (show _ < _; decide +kernel) | split | dsimp only

theorem Dev.timeOut_keeps {d : Dev} {h : Nat} {e : Trk} : Dev.Keeps (.EBR_PFLOG_HEAD :: .EBR_RAT_PFDISC_HI :: .EBR_RAT_PFDISC_LO ::
    recordRegs) (.cores :: .lates :: .pfLog :: .pfSeq :: .vports :: .winFetches :: .winReads :: recordParts) d (Dev.timeOut d h e) := by
  unfold Dev.timeOut
  with_reducible repeat'
    first
      | intro x | assumption | apply Dev.Keeps.refl | apply Dev.Keeps.when | apply Dev.Keeps.step Dev.aer_keeps
      | apply Dev.Keeps.step Dev.answerEntry_keeps | apply Dev.Keeps.step Dev.count_keeps | apply Dev.Keeps.step Dev.record_keeps
      | apply Dev.Keeps.ite | apply Dev.Keeps.foldl | (show (_ : Bool) = _; decide +kernel) | (show _ ∈ _; decide +kernel)
      | (show _ < _; decide +kernel) | split | apply Dev.Keeps.set_lates | dsimp only

theorem Dev.recordLate_keeps {d : Dev} {p gvh handle fpid deadline : Nat} {b : Body} : Dev.Keeps recordRegs (.vports :: recordParts) d
    (Dev.recordLate d p gvh handle fpid deadline b) := by
  unfold Dev.recordLate
  with_reducible repeat'
    first
      | intro x | assumption | apply Dev.Keeps.refl | apply Dev.Keeps.step Dev.aerFrom_keeps | apply Dev.Keeps.step Dev.count_keeps
      | apply Dev.Keeps.step Dev.record_keeps | apply Dev.Keeps.ite | apply Dev.Keeps.foldl | (show (_ : Bool) = _; decide +kernel)
      | (show _ ∈ _; decide +kernel) | (show _ < _; decide +kernel) | split | dsimp only

theorem Dev.dropSquashed_keeps {d : Dev} {gvh : Nat} : Dev.Keeps recordRegs (.limited :: recordParts) d (Dev.dropSquashed d gvh) := by
  unfold Dev.dropSquashed
  with_reducible repeat'
    first
      | intro x | assumption | apply Dev.Keeps.refl | apply Dev.Keeps.step Dev.count_keeps
      | apply Dev.Keeps.step Dev.recordLimited_keeps | apply Dev.Keeps.ite | apply Dev.Keeps.foldl
      | (show (_ : Bool) = _; decide +kernel) | (show _ ∈ _; decide +kernel) | (show _ < _; decide +kernel) | split | dsimp only

theorem Dev.strayCompletion_keeps {d : Dev} {p : Nat} {b : Body} : Dev.Keeps recordRegs (.limited :: .vports :: recordParts) d
    (Dev.strayCompletion d p b) := by
  unfold Dev.strayCompletion
  with_reducible repeat'
    first
      | intro x | assumption | apply Dev.Keeps.refl | apply Dev.Keeps.step Dev.dropSquashed_keeps
      | apply Dev.Keeps.step Dev.recordLate_keeps | apply Dev.Keeps.step Dev.recordUnexpected_keeps | apply Dev.Keeps.ite
      | apply Dev.Keeps.foldl | (show (_ : Bool) = _; decide +kernel) | (show _ ∈ _; decide +kernel) | (show _ < _; decide +kernel)
      | split | dsimp only

theorem Dev.lockCompletion_keeps {d : Dev} {p : Nat} {withData : Bool} : Dev.Keeps [.EBR_LOCK] [.lockSince, .lockSrc, .outs, .queues,
    .vits] d (Dev.lockCompletion d p withData) := by
  unfold Dev.lockCompletion
  with_reducible repeat'
    first
      | intro x | assumption | apply Dev.Keeps.refl | apply Dev.Keeps.put | apply Dev.Keeps.step Dev.freeLock_keeps
      | apply Dev.Keeps.ite | apply Dev.Keeps.foldl | (show (_ : Bool) = _; decide +kernel) | (show _ ∈ _; decide +kernel)
      | (show _ < _; decide +kernel) | split | dsimp only

theorem Dev.lockFollows_keeps {d : Dev} {p : Nat} {b : Body} : Dev.Keeps [.EBR_LOCK] [.lockSince, .lockSrc, .outs, .queues, .vits] d
    (Dev.lockFollows d p b) := by
  unfold Dev.lockFollows
  with_reducible repeat'
    first
      | intro x | assumption | apply Dev.Keeps.refl | apply Dev.Keeps.step Dev.lockCompletion_keeps | apply Dev.Keeps.ite
      | apply Dev.Keeps.foldl | (show (_ : Bool) = _; decide +kernel) | (show _ ∈ _; decide +kernel) | (show _ < _; decide +kernel)
      | split | dsimp only

theorem Dev.takeCompletion_keeps {d : Dev} {p : Nat} {b : Body} : Dev.Keeps (.EBR_CRD_AVAIL :: .EBR_LOCK :: recordRegs) (.arrived ::
    .heldTlps :: .limited :: .lockSince :: .lockSrc :: .outs :: .queues :: .trk :: .vports :: .wins :: .withheld :: recordParts) d
    (Dev.takeCompletion d p b) := by
  unfold Dev.takeCompletion
  with_reducible repeat'
    first
      | intro x | assumption | apply Dev.Keeps.refl | apply Dev.Keeps.when | apply Dev.Keeps.step Dev.dropSquashed_keeps
      | apply Dev.Keeps.step Dev.freeEntry_keeps | apply Dev.Keeps.step Dev.lockFollows_keeps
      | apply Dev.Keeps.step Dev.retryHeld_keeps | apply Dev.Keeps.step Dev.sendBack_keeps
      | apply Dev.Keeps.step Dev.strayCompletion_keeps | apply Dev.Keeps.ite | apply Dev.Keeps.foldl
      | (show (_ : Bool) = _; decide +kernel) | (show _ ∈ _; decide +kernel) | (show _ < _; decide +kernel) | split | dsimp only

theorem Dev.releaseDue_keeps {d : Dev} : Dev.Keeps (.EBR_CRD_AVAIL :: .EBR_LOCK :: recordRegs) (.arrived :: .heldCpls :: .heldTlps ::
    .injecting :: .limited :: .lockSince :: .lockSrc :: .outs :: .queues :: .trk :: .vports :: .wins :: .withheld :: recordParts) d
    (Dev.releaseDue d) := by
  unfold Dev.releaseDue
  with_reducible repeat'
    first
      | intro x | assumption | apply Dev.Keeps.refl | apply Dev.Keeps.forEach | apply Dev.Keeps.step Dev.takeCompletion_keeps
      | apply Dev.Keeps.ite | apply Dev.Keeps.foldl | (show (_ : Bool) = _; decide +kernel) | (show _ ∈ _; decide +kernel)
      | (show _ < _; decide +kernel) | split | apply Dev.Keeps.set_injecting | apply Dev.Keeps.set_heldCpls | dsimp only

theorem Dev.quarantine_keeps {d : Dev} {h : Nat} {e : Trk} : Dev.Keeps [] [.ctrs, .tagHolds] d (Dev.quarantine d h e) := by
  unfold Dev.quarantine
  with_reducible repeat'
    first
      | intro x | assumption | apply Dev.Keeps.refl | apply Dev.Keeps.step Dev.count_keeps | apply Dev.Keeps.ite
      | apply Dev.Keeps.foldl | (show (_ : Bool) = _; decide +kernel) | (show _ ∈ _; decide +kernel) | (show _ < _; decide +kernel)
      | split | apply Dev.Keeps.set_tagHolds | dsimp only

theorem Dev.strayFrame_keeps {d : Dev} {p src gvh : Nat} {b : Body} : Dev.Keeps (.EBR_CRD_AVAIL :: recordRegs) (.arrived :: .heldTlps ::
    .lates :: .outs :: .trk :: .vports :: .wins :: .withheld :: recordParts) d (Dev.strayFrame d p src gvh b) := by
  unfold Dev.strayFrame
  with_reducible repeat'
    first
      | intro x | assumption | apply Dev.Keeps.refl | apply Dev.Keeps.step Dev.recordLate_keeps
      | apply Dev.Keeps.step Dev.recordUnexpected_keeps | apply Dev.Keeps.step Dev.retryHeld_keeps | apply Dev.Keeps.ite
      | apply Dev.Keeps.foldl | (show (_ : Bool) = _; decide +kernel) | (show _ ∈ _; decide +kernel) | (show _ < _; decide +kernel)
      | split | apply Dev.Keeps.set_lates | dsimp only

theorem Dev.deadline_keeps {d : Dev} {h : Nat} : Dev.Keeps (.EBR_CRD_AVAIL :: .EBR_PFLOG_HEAD :: .EBR_RAT_PFDISC_HI ::
    .EBR_RAT_PFDISC_LO :: recordRegs) (.arrived :: .cores :: .heldTlps :: .lates :: .outs :: .pfLog :: .pfSeq :: .tagHolds :: .trk ::
    .vports :: .winFetches :: .winReads :: .wins :: .withheld :: recordParts) d (Dev.deadline d h) := by
  unfold Dev.deadline
  with_reducible repeat'
    first
      | intro x | assumption | apply Dev.Keeps.refl | apply Dev.Keeps.when | apply Dev.Keeps.step Dev.freeEntry_keeps
      | apply Dev.Keeps.step Dev.quarantine_keeps | apply Dev.Keeps.step Dev.retryHeld_keeps | apply Dev.Keeps.step Dev.timeOut_keeps
      | apply Dev.Keeps.ite | apply Dev.Keeps.foldl | (show (_ : Bool) = _; decide +kernel) | (show _ ∈ _; decide +kernel)
      | (show _ < _; decide +kernel) | split | dsimp only

theorem Dev.takeUnlock_keeps {d : Dev} {p gvh : Nat} : Dev.Keeps [.EBR_LOCK] [.lockSince, .lockSrc, .out, .outs, .queues, .vits] d
    (Dev.takeUnlock d p gvh) := by
  unfold Dev.takeUnlock
  with_reducible repeat'
    first
      | intro x | assumption | apply Dev.Keeps.refl | apply Dev.Keeps.step Dev.emit_keeps | apply Dev.Keeps.step Dev.freeLock_keeps
      | apply Dev.Keeps.ite | apply Dev.Keeps.foldl | (show (_ : Bool) = _; decide +kernel) | (show _ ∈ _; decide +kernel)
      | (show _ < _; decide +kernel) | split | dsimp only

theorem Dev.receiveCompletion_keeps {d : Dev} {p : Nat} {b : Body} : Dev.Keeps (.EBR_CRD_AVAIL :: .EBR_LOCK :: .SLC_INJ_ARMED ::
    .TEL_MODE :: recordRegs) (.arrived :: .heldCpls :: .heldTlps :: .injections :: .limited :: .lockSince :: .lockSrc :: .outs ::
    .queues :: .trk :: .vports :: .wins :: .withheld :: recordParts) d (Dev.receiveCompletion d p b) := by
  unfold Dev.receiveCompletion
  with_reducible repeat'
    first
      | intro x | assumption | apply Dev.Keeps.refl | apply Dev.Keeps.step Dev.consume_keeps
      | apply Dev.Keeps.step Dev.takeCompletion_keeps | apply Dev.Keeps.ite | apply Dev.Keeps.foldl
      | (show (_ : Bool) = _; decide +kernel) | (show _ ∈ _; decide +kernel) | (show _ < _; decide +kernel) | split
      | apply Dev.Keeps.set_heldCpls | dsimp only

theorem Dev.takeMrdlk_keeps {d : Dev} {p src gvh : Nat} {cls : Cls} {t : Tlp} : Dev.Keeps (.EBR_CRD_AVAIL :: .EBR_EVENTS :: .EBR_LOCK ::
    recordRegs) (.arrived :: .egress :: .heldTlps :: .lockSince :: .lockSrc :: .outs :: .trk :: .wins :: .withheld :: recordParts) d
    (Dev.takeMrdlk d p src gvh cls t) := by
  unfold Dev.takeMrdlk
  with_reducible repeat'
    first
      | intro x | assumption | apply Dev.Keeps.refl | apply Dev.Keeps.put | apply Dev.Keeps.step Dev.count_keeps
      | apply Dev.Keeps.step Dev.freeEntry_keeps | apply Dev.Keeps.step Dev.inject_keeps | apply Dev.Keeps.step Dev.linkTlp_keeps
      | apply Dev.Keeps.step (Dev.raise_keeps ?_) | apply Dev.Keeps.ite | apply Dev.Keeps.foldl
      | (show (_ : Bool) = _; decide +kernel) | (show _ ∈ _; decide +kernel) | (show _ < _; decide +kernel) | split
      | apply Dev.Keeps.set_lockSrc_lockSince | apply Dev.Keeps.set_egress | dsimp only

end Sys2Proof.Machine
end

