-- ==== Sys2Proof/Laws/KeepsPortEvents.lean ====
section
/-! SUPPORT. What each operation of Machine/PortEvents.lean may change: every register and structure outside the lists named stays as it was. -/

set_option Elab.async false
set_option linter.all false

namespace Sys2Proof.Machine

theorem Dev.sidebandEffect_keeps {d : Dev} {fpid front kind state value : Nat} : Dev.Keeps [] [.ctrs, .out, .vits, .vports] d
    (Dev.sidebandEffect d fpid front kind state value) := by
  unfold Dev.sidebandEffect
  with_reducible repeat'
    first
      | intro x | assumption | apply Dev.Keeps.refl | apply Dev.Keeps.forEach | apply Dev.Keeps.when
      | apply Dev.Keeps.step Dev.regainView_keeps | apply Dev.Keeps.step Dev.setVport_keeps | apply Dev.Keeps.step Dev.slotEvent_keeps
      | apply Dev.Keeps.step Dev.slotGone_keeps | apply Dev.Keeps.ite | apply Dev.Keeps.foldl | (show (_ : Bool) = _; decide +kernel)
      | (show _ ∈ _; decide +kernel) | (show _ < _; decide +kernel) | split | dsimp only

theorem Dev.sendSideband_keeps {d : Dev} {p : Nat} {es : List Nat} {kind state value : Nat} : Dev.Keeps [] [.arrived, .sbSeq] d
    (Dev.sendSideband d p es kind state value) := by
  unfold Dev.sendSideband
  with_reducible repeat'
    first
      | intro x | assumption | apply Dev.Keeps.refl | apply Dev.Keeps.forEach | apply Dev.Keeps.step Dev.mgmt_keeps
      | apply Dev.Keeps.ite | apply Dev.Keeps.foldl | (show (_ : Bool) = _; decide +kernel) | (show _ ∈ _; decide +kernel)
      | (show _ < _; decide +kernel) | split | apply Dev.Keeps.set_sbSeq | dsimp only

theorem Dev.sideband_keeps {d : Dev} {p kind state value : Nat} : Dev.Keeps [] [.arrived, .ctrs, .out, .sbSeq, .vits, .vports] d
    (Dev.sideband d p kind state value) := by
  unfold Dev.sideband
  with_reducible repeat'
    first
      | intro x | assumption | apply Dev.Keeps.refl | apply Dev.Keeps.step Dev.sendSideband_keeps
      | apply Dev.Keeps.step Dev.sidebandEffect_keeps | apply Dev.Keeps.ite | apply Dev.Keeps.foldl
      | (show (_ : Bool) = _; decide +kernel) | (show _ ∈ _; decide +kernel) | (show _ < _; decide +kernel) | split | dsimp only

theorem Dev.linkDisable_keeps {d : Dev} {b : Binding} : Dev.Keeps [.LNA_ALIGN, .LNA_LANE_STATE, .LNA_MRG_RESULT, .LNA_TRAIN_REF,
    .PRT_PORT_STATUS, .TUN_CE_GEOM, .TUN_CE_IRQ, .TUN_CE_MODE, .TUN_CE_SCANOUT, .TUN_CE_STATUS, .TUN_CE_STRIDE] [.arrived, .cmds,
    .endpoints, .engines, .lanes, .out, .ports] d (Dev.linkDisable d b) := by
  unfold Dev.linkDisable
  with_reducible repeat'
    first
      | intro x | assumption | apply Dev.Keeps.refl | apply Dev.Keeps.step Dev.disableLink_keeps
      | apply Dev.Keeps.step Dev.resetBinding_keeps | apply Dev.Keeps.step Dev.setEndpoint_keeps | apply Dev.Keeps.step Dev.tell_keeps
      | apply Dev.Keeps.ite | apply Dev.Keeps.foldl | (show (_ : Bool) = _; decide +kernel) | (show _ ∈ _; decide +kernel)
      | (show _ < _; decide +kernel) | split | dsimp only

theorem Dev.linkEnable_keeps {d : Dev} {b : Binding} : Dev.Keeps (.LNA_ALIGN :: .LNA_LANE_STATE :: .LNA_MRG_RESULT :: .LNA_RX_EQ ::
    .LNA_TRAIN_REF :: .LNA_TX_EQ :: .PRT_PORT_STATUS :: recordRegs) (.arrived :: .cmds :: .endpoints :: .eqReported :: .lanes :: .ports
    :: recordParts) d (Dev.linkEnable d b) := by
  unfold Dev.linkEnable
  with_reducible repeat'
    first
      | intro x | assumption | apply Dev.Keeps.refl | apply Dev.Keeps.when | apply Dev.Keeps.step Dev.enableLink_keeps
      | apply Dev.Keeps.step Dev.setEndpoint_keeps | apply Dev.Keeps.step Dev.tell_keeps | apply Dev.Keeps.ite | apply Dev.Keeps.foldl
      | (show (_ : Bool) = _; decide +kernel) | (show _ ∈ _; decide +kernel) | (show _ < _; decide +kernel) | split | dsimp only

theorem Dev.surprise_keeps {d : Dev} {p : Nat} {presence : Bool} : Dev.Keeps (.BSN_Q_STATUS :: .DOC_CORE_STATUS :: .DOC_EVENTS ::
    .DOC_WSTORE_LOST :: .EBR_CRD_AVAIL :: .EBR_EVENTS :: .EBR_LOCK :: .EBR_PFLOG_HEAD :: .EBR_RAT_PFDISC_HI :: .EBR_RAT_PFDISC_LO ::
    .FLL_LINK_STATUS :: .FLL_REPLAY :: .LNA_ALIGN :: .LNA_LANE_STATE :: .LNA_MRG_RESULT :: .LNA_TRAIN_REF :: .PIN_CTL :: .PIN_OLD ::
    .PRT_EVENTS :: .PRT_PORT_STATUS :: .RTE_EVENTS :: .RTE_GRP_SLOT :: .SLC_CONT_ESEQ_HI :: .SLC_CONT_ESEQ_LO :: .SLC_CONT_STATE ::
    .VIT_STATE :: .WR_Q_DRR :: recordRegs) (.arrived :: .cellsFree :: .cmds :: .cores :: .dwins :: .endpoints :: .heldTlps :: .lanes ::
    .links :: .lockSince :: .lockSrc :: .notices :: .outs :: .pausedLinks :: .pfLog :: .pfSeq :: .pins :: .ports :: .queues :: .sbSeq ::
    .trk :: .vports :: .winFetches :: .winReads :: .winStores :: .wins :: .withheld :: recordParts) d (Dev.surprise d p presence) := by
  unfold Dev.surprise
  with_reducible repeat'
    first
      | intro x | assumption | apply Dev.Keeps.refl | apply Dev.Keeps.when | apply Dev.Keeps.step Dev.count_keeps
      | apply Dev.Keeps.step (Dev.raise_keeps ?_) | apply Dev.Keeps.step Dev.remove_keeps
      | apply Dev.Keeps.step Dev.sendSideband_keeps | apply Dev.Keeps.ite | apply Dev.Keeps.foldl
      | (show (_ : Bool) = _; decide +kernel) | (show _ ∈ _; decide +kernel) | (show _ < _; decide +kernel) | split | dsimp only

theorem Dev.writeBar_keeps {d : Dev} {lv k n : Nat} {upper wide : Bool} {v : Nat} : Dev.Keeps [.ATT_CTL, .ATT_EP_HI, .ATT_EP_LO,
    .ATT_FPID, .ATT_HOST_HI, .ATT_HOST_LO] [.atts, .vits] d (Dev.writeBar d lv k n upper wide v) := by
  unfold Dev.writeBar
  with_reducible repeat'
    first
      | intro x | assumption | apply Dev.Keeps.refl | apply Dev.Keeps.step Dev.setAtt_keeps
      | apply Dev.Keeps.step Dev.setBinding_keeps | apply Dev.Keeps.ite | apply Dev.Keeps.foldl
      | (show (_ : Bool) = _; decide +kernel) | (show _ ∈ _; decide +kernel) | (show _ < _; decide +kernel) | split | dsimp only

theorem Dev.hotResetPort_keeps {d : Dev} {p : Nat} : Dev.Keeps (.ATT_CTL :: .ATT_EP_HI :: .ATT_EP_LO :: .ATT_FPID :: .ATT_HOST_HI ::
    .ATT_HOST_LO :: .BSN_Q_STATUS :: .EBR_LOCK :: .LNA_ALIGN :: .LNA_LANE_STATE :: .LNA_MRG_RESULT :: .LNA_RX_EQ :: .LNA_TRAIN_REF ::
    .LNA_TX_EQ :: .MBX_CH_STATUS :: .PRT_PORT_STATUS :: .SLC_CONT_STATE :: .TUN_CE_GEOM :: .TUN_CE_IRQ :: .TUN_CE_MODE ::
    .TUN_CE_SCANOUT :: .TUN_CE_STATUS :: .TUN_CE_STRIDE :: .VIT_STATE :: .VMF_BME :: .VMF_CAT_ADDR_HI :: .VMF_CAT_ADDR_LO ::
    .VMF_CAT_SIZE :: .VMF_CAT_WPTR :: .VMF_CPL_TMO :: .VMF_EVENT_MASK :: .VMF_SPC_ADDR_HI :: .VMF_SPC_ADDR_LO :: .VMF_SPC_SIZE ::
    .VMF_SPC_WPTR :: .WR_Q_DRR :: recordRegs) (.arrived :: .atts :: .cats :: .cellsFree :: .cfg :: .chans :: .cmds :: .dwins ::
    .endpoints :: .engines :: .eqReported :: .heldTlps :: .lanes :: .lockSince :: .lockSrc :: .outs :: .owesDetect :: .owesDrs :: .ports
    :: .queues :: .samples :: .spcs :: .trk :: .vmfs :: .vports :: recordParts) d (Dev.hotResetPort d p) := by
  unfold Dev.hotResetPort
  with_reducible repeat'
    first
      | intro x | assumption | apply Dev.Keeps.refl | apply Dev.Keeps.step Dev.hotReset_keeps | apply Dev.Keeps.ite
      | apply Dev.Keeps.foldl | (show (_ : Bool) = _; decide +kernel) | (show _ ∈ _; decide +kernel) | (show _ < _; decide +kernel)
      | split | dsimp only

theorem Dev.sidebandOf_keeps {d : Dev} {t : Nat} {es : List Nat} {kind state value : Nat} : Dev.Keeps [] [.arrived, .ctrs, .out, .sbSeq,
    .vits, .vports] d (Dev.sidebandOf d t es kind state value) := by
  unfold Dev.sidebandOf
  with_reducible repeat'
    first
      | intro x | assumption | apply Dev.Keeps.refl | apply Dev.Keeps.step Dev.sendSideband_keeps
      | apply Dev.Keeps.step Dev.sidebandEffect_keeps | apply Dev.Keeps.ite | apply Dev.Keeps.foldl
      | (show (_ : Bool) = _; decide +kernel) | (show _ ∈ _; decide +kernel) | (show _ < _; decide +kernel) | split | dsimp only

end Sys2Proof.Machine
end

