-- ==== Sys2Proof/Laws/KeepsIntake.lean ====
section
/-! SUPPORT. What each operation of Machine/Intake.lean may change: every register and structure outside the lists named stays as it was. -/

set_option Elab.async false
set_option linter.all false

namespace Sys2Proof.Machine

theorem Dev.showMud_keeps {d : Dev} : Dev.Keeps [.USH_MUD_STATUS] [] d (Dev.showMud d) := by
  unfold Dev.showMud
  with_reducible repeat'
    first
      | intro x | assumption | apply Dev.Keeps.refl | apply Dev.Keeps.put | apply Dev.Keeps.mark | apply Dev.Keeps.ite
      | apply Dev.Keeps.foldl | (show (_ : Bool) = _; decide +kernel) | (show _ ∈ _; decide +kernel) | (show _ < _; decide +kernel)
      | split | dsimp only

theorem Dev.dropRead_keeps {d : Dev} {lv channel : Nat} : Dev.Keeps [.VMF_BME, .VMF_CAT_ADDR_HI, .VMF_CAT_ADDR_LO, .VMF_CAT_SIZE,
    .VMF_CAT_WPTR, .VMF_CPL_TMO, .VMF_EVENT_FLAGS, .VMF_EVENT_MASK, .VMF_INTX, .VMF_SPC_ADDR_HI, .VMF_SPC_ADDR_LO, .VMF_SPC_SIZE,
    .VMF_SPC_WPTR] [.cats, .cfg, .ctrs, .out, .samples, .spcs, .vits, .vmfs] d (Dev.dropRead d lv channel) := by
  unfold Dev.dropRead
  with_reducible repeat'
    first
      | intro x | assumption | apply Dev.Keeps.refl | apply Dev.Keeps.step Dev.finishFlr_keeps | apply Dev.Keeps.step Dev.setVmf_keeps
      | apply Dev.Keeps.step Dev.showReads_keeps | apply Dev.Keeps.ite | apply Dev.Keeps.foldl | (show (_ : Bool) = _; decide +kernel)
      | (show _ ∈ _; decide +kernel) | (show _ < _; decide +kernel) | split | dsimp only

theorem Dev.askRecord_keeps {d : Dev} {h : CmdHdr} {c : Cmd} : Dev.Keeps [] [.arrived, .cmds] d (Dev.askRecord d h c) := by
  unfold Dev.askRecord
  with_reducible repeat'
    first
      | intro x | assumption | apply Dev.Keeps.refl | apply Dev.Keeps.step Dev.setCmd_keeps
      | apply Dev.Keeps.step Dev.tellRegistrar_keeps | apply Dev.Keeps.ite | apply Dev.Keeps.foldl
      | (show (_ : Bool) = _; decide +kernel) | (show _ ∈ _; decide +kernel) | (show _ < _; decide +kernel) | split | dsimp only

theorem Dev.recovered_keeps {d : Dev} : Dev.Keeps (.TEL_MODE :: recordRegs) recordParts d (Dev.recovered d) := by
  unfold Dev.recovered
  with_reducible repeat'
    first
      | intro x | assumption | apply Dev.Keeps.refl | apply Dev.Keeps.step (Dev.setTel_keeps ?_) | apply Dev.Keeps.ite
      | apply Dev.Keeps.foldl | (show (_ : Bool) = _; decide +kernel) | (show _ ∈ _; decide +kernel) | (show _ < _; decide +kernel)
      | split | dsimp only

theorem Dev.intake_keeps {d : Dev} {h : CmdHdr} {channel : Option Nat} {x : Descriptor} : Dev.Keeps [] [.cmds, .ctrs] d (Dev.intake d h
    channel x) := by
  unfold Dev.intake
  with_reducible repeat'
    first
      | intro x | assumption | apply Dev.Keeps.refl | apply Dev.Keeps.when | apply Dev.Keeps.step Dev.count_keeps
      | apply Dev.Keeps.step Dev.finish_keeps | apply Dev.Keeps.step Dev.setCmd_keeps | apply Dev.Keeps.ite | apply Dev.Keeps.foldl
      | (show (_ : Bool) = _; decide +kernel) | (show _ ∈ _; decide +kernel) | (show _ < _; decide +kernel) | split | dsimp only

theorem Dev.notifyDone_keeps {d : Dev} {c : Cmd} : Dev.Keeps (.MBX_CH_STATUS :: recordRegs) (.chans :: recordParts) d (Dev.notifyDone d
    c) := by
  unfold Dev.notifyDone
  with_reducible repeat'
    first
      | intro x | assumption | apply Dev.Keeps.refl | apply Dev.Keeps.when | apply Dev.Keeps.step Dev.postNotice_keeps
      | apply Dev.Keeps.ite | apply Dev.Keeps.foldl | (show (_ : Bool) = _; decide +kernel) | (show _ ∈ _; decide +kernel)
      | (show _ < _; decide +kernel) | split | dsimp only

theorem Dev.countCmd_keeps {d : Dev} {c : Cmd} : Dev.Keeps [] [.ctrs] d (Dev.countCmd d c) := by
  unfold Dev.countCmd
  with_reducible repeat'
    first
      | intro x | assumption | apply Dev.Keeps.refl | apply Dev.Keeps.step Dev.count_keeps | apply Dev.Keeps.ite
      | apply Dev.Keeps.foldl | (show (_ : Bool) = _; decide +kernel) | (show _ ∈ _; decide +kernel) | (show _ < _; decide +kernel)
      | split | dsimp only

end Sys2Proof.Machine
end

