-- ==== Sys2Proof/Laws/KeepsTunnel.lean ====
section
/-! SUPPORT. What each operation of Machine/Tunnel.lean may change: every register and structure outside the lists named stays as it was. -/

set_option Elab.async false
set_option linter.all false

namespace Sys2Proof.Machine

theorem grantField_lo {u : Nat} : (grantField u).lo < 32 := by
  unfold grantField
  split <;> decide

theorem upField_lo {u : Nat} : (upField u).lo < 32 := by
  unfold upField
  split <;> decide

theorem grantField_mem {R : List Reg} {u : Nat} (h : Reg.TUN_PORT_ALLOT ∈ R) : (grantField u).reg ∈ R := by
  unfold grantField
  split <;> exact h

theorem upField_mem {R : List Reg} {u : Nat} (h : Reg.TUN_PORT_STATUS ∈ R) : (upField u).reg ∈ R := by
  unfold upField
  split <;> exact h

theorem Dev.requestBandwidth_keeps {d : Dev} {e units : Nat} : Dev.Keeps [] [.arrived, .out] d (Dev.requestBandwidth d e units) := by
  unfold Dev.requestBandwidth
  with_reducible repeat'
    first
      | intro x | assumption | apply Dev.Keeps.refl | apply Dev.Keeps.step Dev.emit_keeps | apply Dev.Keeps.step Dev.tell_keeps
      | apply Dev.Keeps.ite | apply Dev.Keeps.foldl | (show (_ : Bool) = _; decide +kernel) | (show _ ∈ _; decide +kernel)
      | (show _ < _; decide +kernel) | split | dsimp only

theorem Dev.engineIrq_keeps {d : Dev} {e : Nat} {f : Fld} : Dev.Keeps [] [.out] d (d.engineIrq e f) :=
  .when (.refl _ _ _) fun _ h => .step Dev.emit_keeps (by decide +kernel) (by decide +kernel) h

theorem Dev.setEngineState_keeps {d : Dev} {e : Nat} {f : Fld} {on : Bool} (hlo : f.lo < 32) :
    Dev.Keeps [f.reg] [.out] d (d.setEngineState e f on) := by
  unfold Dev.setEngineState
  exact .ite (.refl _ _ _) ((Dev.Keeps.mark f e on hlo List.mem_cons_self (.refl _ _ _)).trans (Dev.engineIrq_keeps.mono
    (List.nil_subset _) fun _ h => h))

theorem Dev.setEngine_keeps {d : Dev} {e : Nat} {f : Engine → Engine} : Dev.Keeps [] [.engines] d (Dev.setEngine d e f) := by
  unfold Dev.setEngine
  with_reducible repeat'
    first
      | intro x | assumption | apply Dev.Keeps.refl | apply Dev.Keeps.ite | apply Dev.Keeps.foldl
      | (show (_ : Bool) = _; decide +kernel) | (show _ ∈ _; decide +kernel) | (show _ < _; decide +kernel) | split
      | apply Dev.Keeps.set_engines | dsimp only

theorem Dev.stopStream_keeps {d : Dev} {e : Nat} : Dev.Keeps [.TUN_CE_DEST, .TUN_CE_IRQ, .TUN_CE_STATUS, .TUN_PORT_STATUS] [.out] d
    (Dev.stopStream d e) := by
  unfold Dev.stopStream
  with_reducible repeat'
    first
      | intro x | assumption | apply Dev.Keeps.refl | apply Dev.Keeps.put | apply Dev.Keeps.step (Dev.setEngineState_keeps ?_)
      | apply Dev.Keeps.ite | apply Dev.Keeps.foldl | exact upField_lo | exact upField_mem (by decide +kernel) | exact grantField_lo
      | exact grantField_mem (by decide +kernel) | (show (_ : Bool) = _; decide +kernel) | (show _ ∈ _; decide +kernel)
      | (show _ < _; decide +kernel) | split | dsimp only

theorem Dev.tryStream_keeps {d : Dev} {e : Nat} : Dev.Keeps [.TUN_CE_DEST, .TUN_CE_IRQ, .TUN_CE_STATUS, .TUN_PORT_STATUS] [.arrived,
    .engines, .out] d (Dev.tryStream d e) := by
  unfold Dev.tryStream
  with_reducible repeat'
    first
      | intro x | assumption | apply Dev.Keeps.refl | apply Dev.Keeps.step Dev.requestBandwidth_keeps
      | apply Dev.Keeps.step Dev.setEngine_keeps | apply Dev.Keeps.step (Dev.setEngineState_keeps ?_)
      | apply Dev.Keeps.step Dev.stopStream_keeps | apply Dev.Keeps.ite | apply Dev.Keeps.foldl
      | (show (_ : Bool) = _; decide +kernel) | (show _ ∈ _; decide +kernel) | (show _ < _; decide +kernel) | split | dsimp only

theorem Dev.budgetFreed_keeps {d : Dev} : Dev.Keeps [.TUN_CE_DEST, .TUN_CE_IRQ, .TUN_CE_STATUS, .TUN_PORT_STATUS] [.arrived, .engines,
    .out] d (Dev.budgetFreed d) := by
  unfold Dev.budgetFreed
  with_reducible repeat'
    first
      | intro x | assumption | apply Dev.Keeps.refl | apply Dev.Keeps.forEach | apply Dev.Keeps.step Dev.tryStream_keeps
      | apply Dev.Keeps.ite | apply Dev.Keeps.foldl | (show (_ : Bool) = _; decide +kernel) | (show _ ∈ _; decide +kernel)
      | (show _ < _; decide +kernel) | split | dsimp only

theorem Dev.setFront_keeps {d : Dev} {t : Nat} {f : Front → Front} : Dev.Keeps [] [.fronts] d (Dev.setFront d t f) := by
  unfold Dev.setFront
  with_reducible repeat'
    first
      | intro x | assumption | apply Dev.Keeps.refl | apply Dev.Keeps.ite | apply Dev.Keeps.foldl
      | (show (_ : Bool) = _; decide +kernel) | (show _ ∈ _; decide +kernel) | (show _ < _; decide +kernel) | split
      | apply Dev.Keeps.set_fronts | dsimp only

theorem Dev.engineFlag_keeps {d : Dev} {e : Nat} {f : Fld} (hlo : f.lo < 32) : Dev.Keeps [f.reg] [.out] d (d.engineFlag e f) :=
  (Dev.Keeps.put f e 1 hlo List.mem_cons_self (.refl _ _ _)).trans (Dev.engineIrq_keeps.mono (List.nil_subset _) fun _ h => h)

theorem Dev.startStream_keeps {d : Dev} {e : Nat} : Dev.Keeps [.TUN_CE_IRQ, .TUN_CE_STATUS] [.engines, .out] d (Dev.startStream d e) :=
    by
  unfold Dev.startStream
  with_reducible repeat'
    first
      | intro x | assumption | apply Dev.Keeps.refl | apply Dev.Keeps.step Dev.setEngine_keeps
      | apply Dev.Keeps.step (Dev.setEngineState_keeps ?_) | apply Dev.Keeps.ite | apply Dev.Keeps.foldl
      | (show (_ : Bool) = _; decide +kernel) | (show _ ∈ _; decide +kernel) | (show _ < _; decide +kernel) | split | dsimp only

theorem Dev.streamAnswered_keeps {d : Dev} {e : Nat} {f : FarGrant} {kept : Bool} : Dev.Keeps [.TUN_CE_DEST, .TUN_CE_IRQ,
    .TUN_CE_STATUS, .TUN_PORT_STATUS] [.engines, .out] d (Dev.streamAnswered d e f kept) := by
  unfold Dev.streamAnswered
  with_reducible repeat'
    first
      | intro x | assumption | apply Dev.Keeps.refl | apply Dev.Keeps.when | apply Dev.Keeps.step (Dev.engineFlag_keeps ?_)
      | apply Dev.Keeps.step Dev.setEngine_keeps | apply Dev.Keeps.step Dev.startStream_keeps
      | apply Dev.Keeps.step Dev.stopStream_keeps | apply Dev.Keeps.ite | apply Dev.Keeps.foldl
      | (show (_ : Bool) = _; decide +kernel) | (show _ ∈ _; decide +kernel) | (show _ < _; decide +kernel) | split | dsimp only

theorem Dev.answerEngine_keeps {d : Dev} {t tunnel : Nat} {f : FarGrant} {kept : Bool} : Dev.Keeps [.TUN_CE_DEST, .TUN_CE_IRQ,
    .TUN_CE_STATUS, .TUN_PORT_STATUS] [.arrived, .engines, .out] d (Dev.answerEngine d t tunnel f kept) := by
  unfold Dev.answerEngine
  with_reducible repeat'
    first
      | intro x | assumption | apply Dev.Keeps.refl | apply Dev.Keeps.step Dev.streamAnswered_keeps
      | apply Dev.Keeps.step Dev.tell_keeps | apply Dev.Keeps.ite | apply Dev.Keeps.foldl | (show (_ : Bool) = _; decide +kernel)
      | (show _ ∈ _; decide +kernel) | (show _ < _; decide +kernel) | split | dsimp only

theorem Dev.withdrawGrant_keeps {d : Dev} {t tunnel : Nat} : Dev.Keeps (.TUN_CE_DEST :: .TUN_CE_IRQ :: .TUN_CE_STATUS :: .TUN_PORT_ALLOT
    :: .TUN_PORT_EVENTS :: .TUN_PORT_STATUS :: recordRegs) (.arrived :: .engines :: recordParts) d (Dev.withdrawGrant d t tunnel) := by
  unfold Dev.withdrawGrant
  with_reducible repeat'
    first
      | intro x | assumption | apply Dev.Keeps.refl | apply Dev.Keeps.put | apply Dev.Keeps.step Dev.answerEngine_keeps
      | apply Dev.Keeps.step Dev.count_keeps | apply Dev.Keeps.step (Dev.raise_keeps ?_) | apply Dev.Keeps.ite | apply Dev.Keeps.foldl
      | exact upField_lo | exact upField_mem (by decide +kernel) | exact grantField_lo | exact grantField_mem (by decide +kernel)
      | (show (_ : Bool) = _; decide +kernel) | (show _ ∈ _; decide +kernel) | (show _ < _; decide +kernel) | split | dsimp only

theorem Dev.fitGrants_keeps {d : Dev} {t : Nat} : Dev.Keeps (.TUN_CE_DEST :: .TUN_CE_IRQ :: .TUN_CE_STATUS :: .TUN_PORT_ALLOT ::
    .TUN_PORT_EVENTS :: .TUN_PORT_STATUS :: recordRegs) (.arrived :: .engines :: recordParts) d (Dev.fitGrants d t) := by
  unfold Dev.fitGrants
  with_reducible repeat'
    first
      | intro x | assumption | apply Dev.Keeps.refl | apply Dev.Keeps.when | apply Dev.Keeps.step Dev.withdrawGrant_keeps
      | apply Dev.Keeps.ite | apply Dev.Keeps.foldl | exact upField_lo | exact upField_mem (by decide +kernel) | exact grantField_lo
      | exact grantField_mem (by decide +kernel) | (show (_ : Bool) = _; decide +kernel) | (show _ ∈ _; decide +kernel)
      | (show _ < _; decide +kernel) | split | dsimp only

theorem Dev.writeTunCfg_keeps {d : Dev} {t v : Nat} : Dev.Keeps (.TUN_CE_DEST :: .TUN_CE_IRQ :: .TUN_CE_STATUS :: .TUN_PORT_ALLOT ::
    .TUN_PORT_CFG :: .TUN_PORT_EVENTS :: .TUN_PORT_STATUS :: recordRegs) (.arrived :: .engines :: recordParts) d (Dev.writeTunCfg d t v)
    := by
  unfold Dev.writeTunCfg
  with_reducible repeat'
    first
      | intro x | assumption | apply Dev.Keeps.refl | apply Dev.Keeps.put | apply Dev.Keeps.mark
      | apply Dev.Keeps.step Dev.fitGrants_keeps | apply Dev.Keeps.ite | apply Dev.Keeps.foldl | (show (_ : Bool) = _; decide +kernel)
      | (show _ ∈ _; decide +kernel) | (show _ < _; decide +kernel) | split | dsimp only

theorem Dev.stopTunnels_keeps {d : Dev} {t : Nat} : Dev.Keeps [.TUN_CE_DEST, .TUN_CE_IRQ, .TUN_CE_STATUS, .TUN_PORT_ALLOT,
    .TUN_PORT_STATUS] [.arrived, .engines, .fronts, .out] d (Dev.stopTunnels d t) := by
  unfold Dev.stopTunnels
  with_reducible repeat'
    first
      | intro x | assumption | apply Dev.Keeps.refl | apply Dev.Keeps.put | apply Dev.Keeps.forEach
      | apply Dev.Keeps.step Dev.answerEngine_keeps | apply Dev.Keeps.step Dev.setFront_keeps | apply Dev.Keeps.ite
      | apply Dev.Keeps.foldl | (show (_ : Bool) = _; decide +kernel) | (show _ ∈ _; decide +kernel) | (show _ < _; decide +kernel)
      | split | dsimp only

theorem Dev.setPool_keeps {d : Dev} {t : Nat} {p : Nat × Nat} : Dev.Keeps [.TUN_PORT_ALLOT, .TUN_PORT_STATUS] [] d (Dev.setPool d t p)
    := by
  unfold Dev.setPool
  with_reducible repeat'
    first
      | intro x | assumption | apply Dev.Keeps.refl | apply Dev.Keeps.put | apply Dev.Keeps.ite | apply Dev.Keeps.foldl
      | (show (_ : Bool) = _; decide +kernel) | (show _ ∈ _; decide +kernel) | (show _ < _; decide +kernel) | split | dsimp only

theorem Dev.tearTunnel_keeps {d : Dev} {t : Nat} : Dev.Keeps (.BSN_Q_STATUS :: .DOC_CORE_STATUS :: .DOC_EVENTS :: .DOC_WSTORE_LOST ::
    .EBR_CRD_AVAIL :: .EBR_EVENTS :: .EBR_LOCK :: .EBR_PFLOG_HEAD :: .EBR_RAT_PFDISC_HI :: .EBR_RAT_PFDISC_LO :: .FLL_LINK_STATUS ::
    .FLL_REPLAY :: .LNA_ALIGN :: .LNA_LANE_STATE :: .LNA_MRG_RESULT :: .LNA_TRAIN_REF :: .PIN_CTL :: .PIN_OLD :: .PRT_PORT_STATUS ::
    .RTE_EVENTS :: .RTE_GRP_SLOT :: .SLC_CONT_ESEQ_HI :: .SLC_CONT_ESEQ_LO :: .SLC_CONT_STATE :: .TUN_PORT_STATUS :: .VIT_STATE ::
    .WR_Q_DRR :: recordRegs) (.arrived :: .cellsFree :: .cmds :: .cores :: .dwins :: .endpoints :: .heldTlps :: .lanes :: .links ::
    .lockSince :: .lockSrc :: .notices :: .outs :: .pausedLinks :: .pfLog :: .pfSeq :: .pins :: .ports :: .queues :: .sbSeq :: .trk ::
    .vports :: .winFetches :: .winReads :: .winStores :: .wins :: .withheld :: recordParts) d (Dev.tearTunnel d t) := by
  unfold Dev.tearTunnel
  with_reducible repeat'
    first
      | intro x | assumption | apply Dev.Keeps.refl | apply Dev.Keeps.forEach | apply Dev.Keeps.put
      | apply Dev.Keeps.step Dev.count_keeps | apply Dev.Keeps.step Dev.remove_keeps | apply Dev.Keeps.step Dev.sendSideband_keeps
      | apply Dev.Keeps.step Dev.setEndpoint_keeps | apply Dev.Keeps.ite | apply Dev.Keeps.foldl
      | (show (_ : Bool) = _; decide +kernel) | (show _ ∈ _; decide +kernel) | (show _ < _; decide +kernel) | split | dsimp only

theorem Dev.usb4Lost_keeps {d : Dev} {t : Nat} : Dev.Keeps (.BSN_Q_STATUS :: .DOC_CORE_STATUS :: .DOC_EVENTS :: .DOC_WSTORE_LOST ::
    .EBR_CRD_AVAIL :: .EBR_EVENTS :: .EBR_LOCK :: .EBR_PFLOG_HEAD :: .EBR_RAT_PFDISC_HI :: .EBR_RAT_PFDISC_LO :: .FLL_LINK_STATUS ::
    .FLL_REPLAY :: .LNA_ALIGN :: .LNA_LANE_STATE :: .LNA_MRG_RESULT :: .LNA_TRAIN_REF :: .PIN_CTL :: .PIN_OLD :: .PRT_PORT_STATUS ::
    .RTE_EVENTS :: .RTE_GRP_SLOT :: .SLC_CONT_ESEQ_HI :: .SLC_CONT_ESEQ_LO :: .SLC_CONT_STATE :: .TUN_CE_DEST :: .TUN_CE_IRQ ::
    .TUN_CE_STATUS :: .TUN_PORT_ALLOT :: .TUN_PORT_STATUS :: .VIT_STATE :: .WR_Q_DRR :: recordRegs) (.arrived :: .cellsFree :: .cmds ::
    .cores :: .dwins :: .endpoints :: .engines :: .fronts :: .heldTlps :: .lanes :: .links :: .lockSince :: .lockSrc :: .notices ::
    .outs :: .pausedLinks :: .pfLog :: .pfSeq :: .pins :: .ports :: .queues :: .sbSeq :: .trk :: .vports :: .winFetches :: .winReads ::
    .winStores :: .wins :: .withheld :: recordParts) d (Dev.usb4Lost d t) := by
  unfold Dev.usb4Lost
  with_reducible repeat'
    first
      | intro x | assumption | apply Dev.Keeps.refl | apply Dev.Keeps.put | apply Dev.Keeps.step Dev.setFront_keeps
      | apply Dev.Keeps.step Dev.setPool_keeps | apply Dev.Keeps.step Dev.stopTunnels_keeps
      | apply Dev.Keeps.step Dev.tearTunnel_keeps | apply Dev.Keeps.ite | apply Dev.Keeps.foldl
      | (show (_ : Bool) = _; decide +kernel) | (show _ ∈ _; decide +kernel) | (show _ < _; decide +kernel) | split | dsimp only

theorem Dev.detachHere_keeps {d : Dev} {h : CmdHdr} {m e : Nat} : Dev.Keeps [.TUN_PORT_ALLOT, .TUN_PORT_STATUS] [.cmds, .fronts,
    .inStreams] d (Dev.detachHere d h m e) := by
  unfold Dev.detachHere
  with_reducible repeat'
    first
      | intro x | assumption | apply Dev.Keeps.refl | apply Dev.Keeps.forEach | apply Dev.Keeps.put
      | apply Dev.Keeps.step Dev.finish_keeps | apply Dev.Keeps.step Dev.setFront_keeps | apply Dev.Keeps.ite | apply Dev.Keeps.foldl
      | exact upField_lo | exact upField_mem (by decide +kernel) | exact grantField_lo | exact grantField_mem (by decide +kernel)
      | (show (_ : Bool) = _; decide +kernel) | (show _ ∈ _; decide +kernel) | (show _ < _; decide +kernel) | split
      | apply Dev.Keeps.set_inStreams | dsimp only

theorem Dev.leaveBudget_keeps {d : Dev} {e : Nat} : Dev.Keeps [.TUN_CE_DEST, .TUN_CE_IRQ, .TUN_CE_STATUS, .TUN_PORT_STATUS] [.arrived,
    .engines, .out] d (Dev.leaveBudget d e) := by
  unfold Dev.leaveBudget
  with_reducible repeat'
    first
      | intro x | assumption | apply Dev.Keeps.refl | apply Dev.Keeps.when | apply Dev.Keeps.step Dev.budgetFreed_keeps
      | apply Dev.Keeps.step Dev.setEngine_keeps | apply Dev.Keeps.step (Dev.setEngineState_keeps ?_) | apply Dev.Keeps.ite
      | apply Dev.Keeps.foldl | (show (_ : Bool) = _; decide +kernel) | (show _ ∈ _; decide +kernel) | (show _ < _; decide +kernel)
      | split | dsimp only

theorem Dev.detach_keeps {d : Dev} {e : Nat} : Dev.Keeps [.TUN_CE_DEST, .TUN_CE_IRQ, .TUN_CE_STATUS, .TUN_PORT_ALLOT, .TUN_PORT_STATUS]
    [.arrived, .engines, .fronts, .out] d (Dev.detach d e) := by
  unfold Dev.detach
  with_reducible repeat'
    first
      | intro x | assumption | apply Dev.Keeps.refl | apply Dev.Keeps.put | apply Dev.Keeps.step Dev.leaveBudget_keeps
      | apply Dev.Keeps.step Dev.resetRegs_keeps | apply Dev.Keeps.step Dev.setEngine_keeps
      | apply Dev.Keeps.step (Dev.setEngineState_keeps ?_) | apply Dev.Keeps.step Dev.setFront_keeps
      | apply Dev.Keeps.step Dev.stopStream_keeps | apply Dev.Keeps.step Dev.tell_keeps | apply Dev.Keeps.ite | apply Dev.Keeps.foldl
      | exact upField_lo | exact upField_mem (by decide +kernel) | exact grantField_lo | exact grantField_mem (by decide +kernel)
      | (show (_ : Bool) = _; decide +kernel) | (show _ ∈ _; decide +kernel) | (show _ < _; decide +kernel) | split | dsimp only

theorem Dev.attachHere_keeps {d : Dev} {h : CmdHdr} {m e t u : Nat} : Dev.Keeps [] [.cmds, .fronts] d (Dev.attachHere d h m e t u) := by
  unfold Dev.attachHere
  with_reducible repeat'
    first
      | intro x | assumption | apply Dev.Keeps.refl | apply Dev.Keeps.when | apply Dev.Keeps.step Dev.finish_keeps
      | apply Dev.Keeps.step Dev.setFront_keeps | apply Dev.Keeps.ite | apply Dev.Keeps.foldl | (show (_ : Bool) = _; decide +kernel)
      | (show _ ∈ _; decide +kernel) | (show _ < _; decide +kernel) | split | dsimp only

theorem Dev.setInStream_keeps {d : Dev} {x : InStream} : Dev.Keeps [] [.inStreams] d (Dev.setInStream d x) := by
  unfold Dev.setInStream
  with_reducible repeat'
    first
      | intro x | assumption | apply Dev.Keeps.refl | apply Dev.Keeps.ite | apply Dev.Keeps.foldl
      | (show (_ : Bool) = _; decide +kernel) | (show _ ∈ _; decide +kernel) | (show _ < _; decide +kernel) | split
      | apply Dev.Keeps.set_inStreams | dsimp only

theorem Dev.placeSegment_keeps {d : Dev} {x : InStream} {c : ConsoleFrame} : Dev.Keeps [] [.ctrs, .inStreams] d (Dev.placeSegment d x c)
    := by
  unfold Dev.placeSegment
  with_reducible repeat'
    first
      | intro x | assumption | apply Dev.Keeps.refl | apply Dev.Keeps.step Dev.count_keeps
      | apply Dev.Keeps.step Dev.setInStream_keeps | apply Dev.Keeps.ite | apply Dev.Keeps.foldl
      | (show (_ : Bool) = _; decide +kernel) | (show _ ∈ _; decide +kernel) | (show _ < _; decide +kernel) | split | dsimp only

theorem Dev.askAgain_keeps {d : Dev} {t : Nat} : Dev.Keeps [.TUN_CE_DEST, .TUN_CE_IRQ, .TUN_CE_STATUS, .TUN_PORT_STATUS] [.arrived,
    .engines, .out] d (Dev.askAgain d t) := by
  unfold Dev.askAgain
  with_reducible repeat'
    first
      | intro x | assumption | apply Dev.Keeps.refl | apply Dev.Keeps.forEach | apply Dev.Keeps.step Dev.tryStream_keeps
      | apply Dev.Keeps.ite | apply Dev.Keeps.foldl | (show (_ : Bool) = _; decide +kernel) | (show _ ∈ _; decide +kernel)
      | (show _ < _; decide +kernel) | split | dsimp only

theorem Dev.sendSegment_keeps {d : Dev} {e gvh : Nat} {m : Mode} {line x count : Nat} {pixels : List Byte} : Dev.Keeps [] [.arrived,
    .engines] d (Dev.sendSegment d e gvh m line x count pixels) := by
  unfold Dev.sendSegment
  with_reducible repeat'
    first
      | intro x | assumption | apply Dev.Keeps.refl | apply Dev.Keeps.step Dev.arrive_keeps | apply Dev.Keeps.step Dev.setEngine_keeps
      | apply Dev.Keeps.ite | apply Dev.Keeps.foldl | (show (_ : Bool) = _; decide +kernel) | (show _ ∈ _; decide +kernel)
      | (show _ < _; decide +kernel) | split | dsimp only

theorem Dev.endStream_keeps {d : Dev} {e : Nat} : Dev.Keeps [.TUN_CE_DEST, .TUN_CE_IRQ, .TUN_CE_STATUS, .TUN_PORT_STATUS] [.arrived,
    .engines, .out] d (Dev.endStream d e) := by
  unfold Dev.endStream
  with_reducible repeat'
    first
      | intro x | assumption | apply Dev.Keeps.refl | apply Dev.Keeps.when | apply Dev.Keeps.step Dev.leaveBudget_keeps
      | apply Dev.Keeps.step Dev.requestBandwidth_keeps | apply Dev.Keeps.step Dev.stopStream_keeps | apply Dev.Keeps.ite
      | apply Dev.Keeps.foldl | exact upField_lo | exact upField_mem (by decide +kernel) | exact grantField_lo
      | exact grantField_mem (by decide +kernel) | (show (_ : Bool) = _; decide +kernel) | (show _ ∈ _; decide +kernel)
      | (show _ < _; decide +kernel) | split | dsimp only

theorem Dev.stopEngine_keeps {d : Dev} {e : Nat} : Dev.Keeps [.TUN_CE_DEST, .TUN_CE_IRQ, .TUN_CE_MODE, .TUN_CE_STATUS, .TUN_PORT_STATUS]
    [.arrived, .engines, .out] d (Dev.stopEngine d e) := by
  unfold Dev.stopEngine
  with_reducible repeat'
    first
      | intro x | assumption | apply Dev.Keeps.refl | apply Dev.Keeps.put | apply Dev.Keeps.step Dev.endStream_keeps
      | apply Dev.Keeps.step Dev.setEngine_keeps | apply Dev.Keeps.ite | apply Dev.Keeps.foldl | (show (_ : Bool) = _; decide +kernel)
      | (show _ ∈ _; decide +kernel) | (show _ < _; decide +kernel) | split | dsimp only

theorem Dev.flip_keeps {d : Dev} {e : Nat} : Dev.Keeps [.TUN_CE_IRQ, .TUN_CE_SCANOUT, .TUN_CE_STATUS] [.engines, .out] d (Dev.flip d e)
    := by
  unfold Dev.flip
  with_reducible repeat'
    first
      | intro x | assumption | apply Dev.Keeps.refl | apply Dev.Keeps.put | apply Dev.Keeps.step Dev.engineIrq_keeps
      | apply Dev.Keeps.step Dev.setEngine_keeps | apply Dev.Keeps.ite | apply Dev.Keeps.foldl | (show (_ : Bool) = _; decide +kernel)
      | (show _ ∈ _; decide +kernel) | (show _ < _; decide +kernel) | split | dsimp only

theorem Dev.changeMode_keeps {d : Dev} {e : Nat} : Dev.Keeps [.TUN_CE_DEST, .TUN_CE_IRQ, .TUN_CE_STATUS, .TUN_PORT_STATUS] [.arrived,
    .engines, .out] d (Dev.changeMode d e) := by
  unfold Dev.changeMode
  with_reducible repeat'
    first
      | intro x | assumption | apply Dev.Keeps.refl | apply Dev.Keeps.when | apply Dev.Keeps.step Dev.requestBandwidth_keeps
      | apply Dev.Keeps.step Dev.setEngine_keeps | apply Dev.Keeps.step (Dev.setEngineState_keeps ?_)
      | apply Dev.Keeps.step Dev.stopStream_keeps | apply Dev.Keeps.step Dev.tryStream_keeps | apply Dev.Keeps.ite
      | apply Dev.Keeps.foldl | (show (_ : Bool) = _; decide +kernel) | (show _ ∈ _; decide +kernel) | (show _ < _; decide +kernel)
      | split | dsimp only

theorem Dev.writeCeScanout_keeps {d : Dev} {e v : Nat} : Dev.Keeps [.TUN_CE_SCANOUT] [.engines] d (Dev.writeCeScanout d e v) := by
  unfold Dev.writeCeScanout
  with_reducible repeat'
    first
      | intro x | assumption | apply Dev.Keeps.refl | apply Dev.Keeps.put | apply Dev.Keeps.step Dev.setEngine_keeps
      | apply Dev.Keeps.ite | apply Dev.Keeps.foldl | (show (_ : Bool) = _; decide +kernel) | (show _ ∈ _; decide +kernel)
      | (show _ < _; decide +kernel) | split | dsimp only

theorem Dev.addTunnelEndpoint_keeps {d : Dev} {t : Nat} {x : Found} : Dev.Keeps [] [.endpoints] d (Dev.addTunnelEndpoint d t x).2 := by
  unfold Dev.addTunnelEndpoint
  with_reducible repeat'
    first
      | intro x | assumption | apply Dev.Keeps.refl | apply Dev.Keeps.step Dev.setEndpoint_keeps | apply Dev.Keeps.ite
      | apply Dev.Keeps.foldl | (show (_ : Bool) = _; decide +kernel) | (show _ ∈ _; decide +kernel) | (show _ < _; decide +kernel)
      | split | dsimp only

theorem Dev.enumerateTunnel_keeps {d : Dev} {t n : Nat} {l : List Found} : Dev.Keeps [] [.endpoints] d (d.enumerateTunnel t n l).2 := by
  induction l generalizing d n with
  | nil => exact .refl _ _ _
  | cons x r ih =>
    unfold Dev.enumerateTunnel
    exact ih.step' (.step Dev.addTunnelEndpoint_keeps (by decide +kernel) (by decide +kernel) (.refl _ _ _))

theorem Dev.farAnswer_keeps {d : Dev} {t tunnel e : Nat} {f : FarGrant} : Dev.Keeps [.TUN_CE_DEST, .TUN_CE_IRQ, .TUN_CE_STATUS,
    .TUN_PORT_STATUS] [.engines, .out] d (Dev.farAnswer d t tunnel e f) := by
  unfold Dev.farAnswer
  with_reducible repeat'
    first
      | intro x | assumption | apply Dev.Keeps.refl | apply Dev.Keeps.when | apply Dev.Keeps.step Dev.streamAnswered_keeps
      | apply Dev.Keeps.ite | apply Dev.Keeps.foldl | (show (_ : Bool) = _; decide +kernel) | (show _ ∈ _; decide +kernel)
      | (show _ < _; decide +kernel) | split | dsimp only

theorem Dev.writeCeMode_keeps {d : Dev} {e v : Nat} : Dev.Keeps [.TUN_CE_DEST, .TUN_CE_IRQ, .TUN_CE_MODE, .TUN_CE_STATUS,
    .TUN_PORT_STATUS] [.arrived, .engines, .out] d (Dev.writeCeMode d e v) := by
  unfold Dev.writeCeMode
  with_reducible repeat'
    first
      | intro x | assumption | apply Dev.Keeps.refl | apply Dev.Keeps.put | apply Dev.Keeps.step Dev.endStream_keeps
      | apply Dev.Keeps.step Dev.setEngine_keeps | apply Dev.Keeps.step Dev.tryStream_keeps | apply Dev.Keeps.ite
      | apply Dev.Keeps.foldl | (show (_ : Bool) = _; decide +kernel) | (show _ ∈ _; decide +kernel) | (show _ < _; decide +kernel)
      | split | dsimp only

theorem Dev.attach_keeps {d : Dev} {e m t u : Nat} : Dev.Keeps [.TUN_CE_DEST, .TUN_CE_IRQ, .TUN_CE_STATUS, .TUN_PORT_ALLOT,
    .TUN_PORT_STATUS] [.arrived, .engines, .fronts, .out] d (Dev.attach d e m t u) := by
  unfold Dev.attach
  with_reducible repeat'
    first
      | intro x | assumption | apply Dev.Keeps.refl | apply Dev.Keeps.put | apply Dev.Keeps.mark
      | apply Dev.Keeps.step Dev.detach_keeps | apply Dev.Keeps.step Dev.setFront_keeps | apply Dev.Keeps.step Dev.tell_keeps
      | apply Dev.Keeps.step Dev.tryStream_keeps | apply Dev.Keeps.ite | apply Dev.Keeps.foldl | (show (_ : Bool) = _; decide +kernel)
      | (show _ ∈ _; decide +kernel) | (show _ < _; decide +kernel) | split | dsimp only

theorem Dev.dpRequest_keeps {d : Dev} {t tunnel units : Nat} : Dev.Keeps (.TUN_CE_DEST :: .TUN_CE_IRQ :: .TUN_CE_STATUS ::
    .TUN_PORT_ALLOT :: .TUN_PORT_EVENTS :: .TUN_PORT_STATUS :: recordRegs) (.arrived :: .engines :: recordParts) d (Dev.dpRequest d t
    tunnel units) := by
  unfold Dev.dpRequest
  with_reducible repeat'
    first
      | intro x | assumption | apply Dev.Keeps.refl | apply Dev.Keeps.put | apply Dev.Keeps.mark | apply Dev.Keeps.when
      | apply Dev.Keeps.step Dev.answerEngine_keeps | apply Dev.Keeps.step Dev.count_keeps | apply Dev.Keeps.step (Dev.raise_keeps ?_)
      | apply Dev.Keeps.ite | apply Dev.Keeps.foldl | exact upField_lo | exact upField_mem (by decide +kernel) | exact grantField_lo
      | exact grantField_mem (by decide +kernel) | (show (_ : Bool) = _; decide +kernel) | (show _ ∈ _; decide +kernel)
      | (show _ < _; decide +kernel) | split | dsimp only

theorem Dev.lineDue_keeps {d : Dev} {m e line : Nat} {segments : List Nat} : Dev.Keeps [] [.ctrs, .inStreams] d (Dev.lineDue d m e line
    segments) := by
  unfold Dev.lineDue
  with_reducible repeat'
    first
      | intro x | assumption | apply Dev.Keeps.refl | apply Dev.Keeps.step Dev.count_keeps
      | apply Dev.Keeps.step Dev.setInStream_keeps | apply Dev.Keeps.ite | apply Dev.Keeps.foldl
      | (show (_ : Bool) = _; decide +kernel) | (show _ ∈ _; decide +kernel) | (show _ < _; decide +kernel) | split | dsimp only

end Sys2Proof.Machine
end

