-- ==== Sys2Proof/Laws/KeepsService.lean ====
section
/-! SUPPORT. What each operation of Machine/Service.lean may change: every register and structure outside the lists named stays as it was. -/

set_option Elab.async false
set_option linter.all false

namespace Sys2Proof.Machine

theorem Dev.discardSession_keeps {d : Dev} : Dev.Keeps (.USH_EVENTS :: recordRegs) (.mud :: recordParts) d (Dev.discardSession d) := by
  unfold Dev.discardSession
  with_reducible repeat'
    first
      | intro x | assumption | apply Dev.Keeps.refl | apply Dev.Keeps.step (Dev.raise_keeps ?_) | apply Dev.Keeps.ite
      | apply Dev.Keeps.foldl | (show (_ : Bool) = _; decide +kernel) | (show _ ∈ _; decide +kernel) | (show _ < _; decide +kernel)
      | split | apply Dev.Keeps.set_mud | dsimp only

theorem Dev.mudReset_keeps {d : Dev} : Dev.Keeps (.MBX_CH_STATUS :: .USH_EVENTS :: recordRegs) (.chans :: .mud :: recordParts) d
    (Dev.mudReset d) := by
  unfold Dev.mudReset
  with_reducible repeat'
    first
      | intro x | assumption | apply Dev.Keeps.refl | apply Dev.Keeps.put | apply Dev.Keeps.step Dev.abortMaster_keeps
      | apply Dev.Keeps.step Dev.discardSession_keeps | apply Dev.Keeps.step Dev.showMud_keeps | apply Dev.Keeps.ite
      | apply Dev.Keeps.foldl | (show (_ : Bool) = _; decide +kernel) | (show _ ∈ _; decide +kernel) | (show _ < _; decide +kernel)
      | split | apply Dev.Keeps.set_mud | dsimp only

theorem Dev.reinit_keeps {d : Dev} {t : Nat} : Dev.Keeps (.BSN_Q_STATUS :: .DOC_CORE_STATUS :: .DOC_EVENTS :: .DOC_WSTORE_LOST ::
    .EBR_CRD_AVAIL :: .EBR_EVENTS :: .EBR_LOCK :: .EBR_PFLOG_HEAD :: .EBR_RAT_PFDISC_HI :: .EBR_RAT_PFDISC_LO :: .FLL_LINK_STATUS ::
    .FLL_REPLAY :: .LNA_ALIGN :: .LNA_LANE_STATE :: .LNA_MRG_RESULT :: .LNA_TRAIN_REF :: .PIN_CTL :: .PIN_OLD :: .PRT_PORT_STATUS ::
    .RTE_EVENTS :: .RTE_GRP_SLOT :: .SLC_CONT_ESEQ_HI :: .SLC_CONT_ESEQ_LO :: .SLC_CONT_STATE :: .TUN_CE_DEST :: .TUN_CE_IRQ ::
    .TUN_CE_STATUS :: .TUN_PORT_ALLOT :: .TUN_PORT_STATUS :: .VIT_STATE :: .WR_Q_DRR :: recordRegs) (.arrived :: .cellsFree :: .cmds ::
    .cores :: .dwins :: .endpoints :: .engines :: .fronts :: .heldTlps :: .lanes :: .links :: .lockSince :: .lockSrc :: .notices ::
    .outs :: .pausedLinks :: .pfLog :: .pfSeq :: .pins :: .ports :: .queues :: .sbSeq :: .trk :: .vports :: .winFetches :: .winReads ::
    .winStores :: .wins :: .withheld :: recordParts) d (Dev.reinit d t) := by
  unfold Dev.reinit
  with_reducible repeat'
    first
      | intro x | assumption | apply Dev.Keeps.refl | apply Dev.Keeps.when | apply Dev.Keeps.step Dev.emit_keeps
      | apply Dev.Keeps.step Dev.usb4Lost_keeps | apply Dev.Keeps.ite | apply Dev.Keeps.foldl | (show (_ : Bool) = _; decide +kernel)
      | (show _ ∈ _; decide +kernel) | (show _ < _; decide +kernel) | split | dsimp only

theorem Dev.setOwner_keeps {d : Dev} {target : Option Nat} : Dev.Keeps (.BSN_Q_STATUS :: .DOC_CORE_STATUS :: .DOC_EVENTS ::
    .DOC_WSTORE_LOST :: .EBR_CRD_AVAIL :: .EBR_EVENTS :: .EBR_LOCK :: .EBR_PFLOG_HEAD :: .EBR_RAT_PFDISC_HI :: .EBR_RAT_PFDISC_LO ::
    .FLL_LINK_STATUS :: .FLL_REPLAY :: .LNA_ALIGN :: .LNA_LANE_STATE :: .LNA_MRG_RESULT :: .LNA_TRAIN_REF :: .PIN_CTL :: .PIN_OLD ::
    .PRT_PORT_STATUS :: .RTE_EVENTS :: .RTE_GRP_SLOT :: .SLC_CONT_ESEQ_HI :: .SLC_CONT_ESEQ_LO :: .SLC_CONT_STATE :: .TUN_CE_DEST ::
    .TUN_CE_IRQ :: .TUN_CE_STATUS :: .TUN_PORT_ALLOT :: .TUN_PORT_STATUS :: .USH_OWNER :: .VIT_STATE :: .WR_Q_DRR :: recordRegs)
    (.arrived :: .cellsFree :: .cmds :: .cores :: .dwins :: .endpoints :: .engines :: .fronts :: .heldTlps :: .lanes :: .links ::
    .lockSince :: .lockSrc :: .notices :: .outs :: .pausedLinks :: .pfLog :: .pfSeq :: .pins :: .ports :: .queues :: .sbSeq :: .trk ::
    .vports :: .winFetches :: .winReads :: .winStores :: .wins :: .withheld :: recordParts) d (Dev.setOwner d target) := by
  unfold Dev.setOwner
  with_reducible repeat'
    first
      | intro x | assumption | apply Dev.Keeps.refl | apply Dev.Keeps.put | apply Dev.Keeps.mark
      | apply Dev.Keeps.step Dev.reinit_keeps | apply Dev.Keeps.ite | apply Dev.Keeps.foldl | (show (_ : Bool) = _; decide +kernel)
      | (show _ ∈ _; decide +kernel) | (show _ < _; decide +kernel) | split | dsimp only

theorem Dev.assignOwner_keeps {d : Dev} : Dev.Keeps (.BSN_Q_STATUS :: .DOC_CORE_STATUS :: .DOC_EVENTS :: .DOC_WSTORE_LOST ::
    .EBR_CRD_AVAIL :: .EBR_EVENTS :: .EBR_LOCK :: .EBR_PFLOG_HEAD :: .EBR_RAT_PFDISC_HI :: .EBR_RAT_PFDISC_LO :: .FLL_LINK_STATUS ::
    .FLL_REPLAY :: .LNA_ALIGN :: .LNA_LANE_STATE :: .LNA_MRG_RESULT :: .LNA_TRAIN_REF :: .PIN_CTL :: .PIN_OLD :: .PRT_PORT_STATUS ::
    .RTE_EVENTS :: .RTE_GRP_SLOT :: .SLC_CONT_ESEQ_HI :: .SLC_CONT_ESEQ_LO :: .SLC_CONT_STATE :: .TUN_CE_DEST :: .TUN_CE_IRQ ::
    .TUN_CE_STATUS :: .TUN_PORT_ALLOT :: .TUN_PORT_STATUS :: .USH_OWNER :: .VIT_STATE :: .WR_Q_DRR :: recordRegs) (.arrived ::
    .cellsFree :: .cmds :: .cores :: .dwins :: .endpoints :: .engines :: .fronts :: .heldTlps :: .lanes :: .links :: .lockSince ::
    .lockSrc :: .notices :: .outs :: .pausedLinks :: .pfLog :: .pfSeq :: .pins :: .ports :: .queues :: .sbSeq :: .trk :: .vports ::
    .winFetches :: .winReads :: .winStores :: .wins :: .withheld :: recordParts) d (Dev.assignOwner d) := by
  unfold Dev.assignOwner
  with_reducible repeat'
    first
      | intro x | assumption | apply Dev.Keeps.refl | apply Dev.Keeps.step Dev.setOwner_keeps | apply Dev.Keeps.ite
      | apply Dev.Keeps.foldl | (show (_ : Bool) = _; decide +kernel) | (show _ ∈ _; decide +kernel) | (show _ < _; decide +kernel)
      | split | dsimp only

theorem Dev.addCandidate_keeps {d : Dev} {t : Nat} {usb4 : Bool} : Dev.Keeps (.BSN_Q_STATUS :: .DOC_CORE_STATUS :: .DOC_EVENTS ::
    .DOC_WSTORE_LOST :: .EBR_CRD_AVAIL :: .EBR_EVENTS :: .EBR_LOCK :: .EBR_PFLOG_HEAD :: .EBR_RAT_PFDISC_HI :: .EBR_RAT_PFDISC_LO ::
    .FLL_LINK_STATUS :: .FLL_REPLAY :: .LNA_ALIGN :: .LNA_LANE_STATE :: .LNA_MRG_RESULT :: .LNA_TRAIN_REF :: .PIN_CTL :: .PIN_OLD ::
    .PRT_PORT_STATUS :: .RTE_EVENTS :: .RTE_GRP_SLOT :: .SLC_CONT_ESEQ_HI :: .SLC_CONT_ESEQ_LO :: .SLC_CONT_STATE :: .TUN_CE_DEST ::
    .TUN_CE_IRQ :: .TUN_CE_STATUS :: .TUN_PORT_ALLOT :: .TUN_PORT_STATUS :: .USH_OWNER :: .VIT_STATE :: .WR_Q_DRR :: recordRegs)
    (.arrived :: .candidates :: .cellsFree :: .cmds :: .cores :: .dwins :: .endpoints :: .engines :: .fronts :: .heldTlps :: .lanes ::
    .links :: .lockSince :: .lockSrc :: .notices :: .outs :: .pausedLinks :: .pfLog :: .pfSeq :: .pins :: .ports :: .queues :: .sbSeq ::
    .trk :: .vports :: .winFetches :: .winReads :: .winStores :: .wins :: .withheld :: recordParts) d (Dev.addCandidate d t usb4) := by
  unfold Dev.addCandidate
  with_reducible repeat'
    first
      | intro x | assumption | apply Dev.Keeps.refl | apply Dev.Keeps.put | apply Dev.Keeps.step Dev.assignOwner_keeps
      | apply Dev.Keeps.ite | apply Dev.Keeps.foldl | (show (_ : Bool) = _; decide +kernel) | (show _ ∈ _; decide +kernel)
      | (show _ < _; decide +kernel) | split | apply Dev.Keeps.set_candidates | dsimp only

theorem Dev.hubLeave_keeps {d : Dev} : Dev.Keeps (.MBX_CH_STATUS :: .TUN_PORT_STATUS :: .USH_EVENTS :: .USH_OWNER :: recordRegs) (.chans
    :: .hubPort :: .mud :: .usbaOpen :: recordParts) d (Dev.hubLeave d) := by
  unfold Dev.hubLeave
  with_reducible repeat'
    first
      | intro x | assumption | apply Dev.Keeps.refl | apply Dev.Keeps.put | apply Dev.Keeps.step Dev.mudReset_keeps
      | apply Dev.Keeps.ite | apply Dev.Keeps.foldl | (show (_ : Bool) = _; decide +kernel) | (show _ ∈ _; decide +kernel)
      | (show _ < _; decide +kernel) | split | apply Dev.Keeps.set_usbaOpen_hubPort | apply Dev.Keeps.set_usbaOpen
      | apply Dev.Keeps.set_hubPort | dsimp only

theorem Dev.dropCandidate_keeps {d : Dev} {t : Nat} : Dev.Keeps [] [.candidates] d (Dev.dropCandidate d t) := by
  unfold Dev.dropCandidate
  with_reducible repeat'
    first
      | intro x | assumption | apply Dev.Keeps.refl | apply Dev.Keeps.ite | apply Dev.Keeps.foldl
      | (show (_ : Bool) = _; decide +kernel) | (show _ ∈ _; decide +kernel) | (show _ < _; decide +kernel) | split
      | apply Dev.Keeps.set_candidates | dsimp only

theorem Dev.serviceEnds_keeps {d : Dev} {t : Nat} : Dev.Keeps (.BSN_Q_STATUS :: .DOC_CORE_STATUS :: .DOC_EVENTS :: .DOC_WSTORE_LOST ::
    .EBR_CRD_AVAIL :: .EBR_EVENTS :: .EBR_LOCK :: .EBR_PFLOG_HEAD :: .EBR_RAT_PFDISC_HI :: .EBR_RAT_PFDISC_LO :: .FLL_LINK_STATUS ::
    .FLL_REPLAY :: .LNA_ALIGN :: .LNA_LANE_STATE :: .LNA_MRG_RESULT :: .LNA_TRAIN_REF :: .MBX_CH_STATUS :: .PIN_CTL :: .PIN_OLD ::
    .PRT_PORT_STATUS :: .RTE_EVENTS :: .RTE_GRP_SLOT :: .SLC_CONT_ESEQ_HI :: .SLC_CONT_ESEQ_LO :: .SLC_CONT_STATE :: .TUN_CE_DEST ::
    .TUN_CE_IRQ :: .TUN_CE_STATUS :: .TUN_PORT_ALLOT :: .TUN_PORT_STATUS :: .USH_EVENTS :: .USH_OWNER :: .VIT_STATE :: .WR_Q_DRR ::
    recordRegs) (.arrived :: .candidates :: .cellsFree :: .chans :: .cmds :: .cores :: .dwins :: .endpoints :: .engines :: .fronts ::
    .heldTlps :: .hubPort :: .lanes :: .links :: .lockSince :: .lockSrc :: .mud :: .notices :: .outs :: .pausedLinks :: .pfLog :: .pfSeq
    :: .pins :: .ports :: .queues :: .sbSeq :: .trk :: .usbaOpen :: .vports :: .winFetches :: .winReads :: .winStores :: .wins ::
    .withheld :: recordParts) d (Dev.serviceEnds d t) := by
  unfold Dev.serviceEnds
  with_reducible repeat'
    first
      | intro x | assumption | apply Dev.Keeps.refl | apply Dev.Keeps.step Dev.assignOwner_keeps
      | apply Dev.Keeps.step Dev.dropCandidate_keeps | apply Dev.Keeps.step Dev.hubLeave_keeps
      | apply Dev.Keeps.step Dev.setOwner_keeps | apply Dev.Keeps.ite | apply Dev.Keeps.foldl | (show (_ : Bool) = _; decide +kernel)
      | (show _ ∈ _; decide +kernel) | (show _ < _; decide +kernel) | split | dsimp only

theorem Dev.abandonRequest_keeps {d : Dev} : Dev.Keeps (.USH_EVENTS :: recordRegs) recordParts d (Dev.abandonRequest d) := by
  unfold Dev.abandonRequest
  with_reducible repeat'
    first
      | intro x | assumption | apply Dev.Keeps.refl | apply Dev.Keeps.step (Dev.raise_keeps ?_) | apply Dev.Keeps.ite
      | apply Dev.Keeps.foldl | (show (_ : Bool) = _; decide +kernel) | (show _ ∈ _; decide +kernel) | (show _ < _; decide +kernel)
      | split | dsimp only

theorem Dev.mudConfigure_keeps {d : Dev} {speed : Nat} : Dev.Keeps [.USH_MUD_STATUS] [] d (Dev.mudConfigure d speed) := by
  unfold Dev.mudConfigure
  with_reducible repeat'
    first
      | intro x | assumption | apply Dev.Keeps.refl | apply Dev.Keeps.put | apply Dev.Keeps.ite | apply Dev.Keeps.foldl
      | (show (_ : Bool) = _; decide +kernel) | (show _ ∈ _; decide +kernel) | (show _ < _; decide +kernel) | split | dsimp only

theorem Dev.writeMudCtl_keeps {d : Dev} {v speed : Nat} : Dev.Keeps (.MBX_CH_STATUS :: .USH_EVENTS :: .USH_MUD_CTL :: recordRegs)
    (.chans :: .mud :: recordParts) d (Dev.writeMudCtl d v speed) := by
  unfold Dev.writeMudCtl
  with_reducible repeat'
    first
      | intro x | assumption | apply Dev.Keeps.refl | apply Dev.Keeps.put | apply Dev.Keeps.step Dev.mudConfigure_keeps
      | apply Dev.Keeps.step Dev.mudReset_keeps | apply Dev.Keeps.ite | apply Dev.Keeps.foldl | (show (_ : Bool) = _; decide +kernel)
      | (show _ ∈ _; decide +kernel) | (show _ < _; decide +kernel) | split | dsimp only

theorem Dev.ownerDetach_keeps {d : Dev} : Dev.Keeps (.MBX_CH_STATUS :: .TUN_PORT_STATUS :: .USH_EVENTS :: .USH_OWNER :: recordRegs)
    (.candidates :: .chans :: .hubPort :: .mud :: .usbaOpen :: recordParts) d (Dev.ownerDetach d) := by
  unfold Dev.ownerDetach
  with_reducible repeat'
    first
      | intro x | assumption | apply Dev.Keeps.refl | apply Dev.Keeps.put | apply Dev.Keeps.step Dev.dropCandidate_keeps
      | apply Dev.Keeps.step Dev.hubLeave_keeps | apply Dev.Keeps.ite | apply Dev.Keeps.foldl | (show (_ : Bool) = _; decide +kernel)
      | (show _ ∈ _; decide +kernel) | (show _ < _; decide +kernel) | split | dsimp only

theorem Dev.stall_keeps {d : Dev} {what : String} : Dev.Keeps [] [.out] d (Dev.stall d what) := by
  unfold Dev.stall
  with_reducible repeat'
    first
      | intro x | assumption | apply Dev.Keeps.refl | apply Dev.Keeps.step Dev.emit_keeps | apply Dev.Keeps.ite
      | apply Dev.Keeps.foldl | (show (_ : Bool) = _; decide +kernel) | (show _ ∈ _; decide +kernel) | (show _ < _; decide +kernel)
      | split | dsimp only

end Sys2Proof.Machine
end

