-- ==== Sys2Proof/Laws/KeepsEfuse.lean ====
section
/-! SUPPORT. What each operation of Machine/Efuse.lean may change: every register and structure outside the lists named stays as it was. -/

set_option Elab.async false
set_option linter.all false

namespace Sys2Proof.Machine

theorem Dev.setEfuse_keeps {d : Dev} {n : Nat} {f : Efuse → Efuse} : Dev.Keeps [] [.efuses] d (Dev.setEfuse d n f) := by
  unfold Dev.setEfuse
  with_reducible repeat'
    first
      | intro x | assumption | apply Dev.Keeps.refl | apply Dev.Keeps.ite | apply Dev.Keeps.foldl
      | (show (_ : Bool) = _; decide +kernel) | (show _ ∈ _; decide +kernel) | (show _ < _; decide +kernel) | split
      | apply Dev.Keeps.set_efuses | dsimp only

theorem Dev.chargeCage_keeps {d : Dev} {n mw : Nat} : Dev.Keeps [.PWR_CAGE_USED] [.efuses] d (Dev.chargeCage d n mw) := by
  unfold Dev.chargeCage
  with_reducible repeat'
    first
      | intro x | assumption | apply Dev.Keeps.refl | apply Dev.Keeps.put | apply Dev.Keeps.step Dev.setEfuse_keeps
      | apply Dev.Keeps.ite | apply Dev.Keeps.foldl | (show (_ : Bool) = _; decide +kernel) | (show _ ∈ _; decide +kernel)
      | (show _ < _; decide +kernel) | split | dsimp only

theorem Dev.ramp_keeps {d : Dev} {n : Nat} : Dev.Keeps [.EF_STATUS] [] d (Dev.ramp d n) := by
  unfold Dev.ramp
  with_reducible repeat'
    first
      | intro x | assumption | apply Dev.Keeps.refl | apply Dev.Keeps.put | apply Dev.Keeps.ite | apply Dev.Keeps.foldl
      | (show (_ : Bool) = _; decide +kernel) | (show _ ∈ _; decide +kernel) | (show _ < _; decide +kernel) | split | dsimp only

theorem Dev.rampNext_keeps {d : Dev} : Dev.Keeps [.EF_STATUS] [.efQueue] d (Dev.rampNext d) := by
  unfold Dev.rampNext
  with_reducible repeat'
    first
      | intro x | assumption | apply Dev.Keeps.refl | apply Dev.Keeps.step Dev.ramp_keeps | apply Dev.Keeps.ite
      | apply Dev.Keeps.foldl | (show (_ : Bool) = _; decide +kernel) | (show _ ∈ _; decide +kernel) | (show _ < _; decide +kernel)
      | split | apply Dev.Keeps.set_efQueue | dsimp only

theorem Dev.gateOff_keeps {d : Dev} {n st : Nat} : Dev.Keeps [.EF_STATUS] [.efQueue] d (Dev.gateOff d n st) := by
  unfold Dev.gateOff
  with_reducible repeat'
    first
      | intro x | assumption | apply Dev.Keeps.refl | apply Dev.Keeps.put | apply Dev.Keeps.step Dev.rampNext_keeps
      | apply Dev.Keeps.ite | apply Dev.Keeps.foldl | (show (_ : Bool) = _; decide +kernel) | (show _ ∈ _; decide +kernel)
      | (show _ < _; decide +kernel) | split | apply Dev.Keeps.set_efQueue | dsimp only

theorem Dev.efOff_keeps {d : Dev} {n : Nat} : Dev.Keeps [.EBR_SIDEBAND, .EF_STATUS, .PWR_CAGE_USED] [.efQueue, .efuses, .out,
    .perstReleased] d (Dev.efOff d n) := by
  unfold Dev.efOff
  with_reducible repeat'
    first
      | intro x | assumption | apply Dev.Keeps.refl | apply Dev.Keeps.put | apply Dev.Keeps.when | apply Dev.Keeps.forEach
      | apply Dev.Keeps.step Dev.chargeCage_keeps | apply Dev.Keeps.step Dev.gateOff_keeps | apply Dev.Keeps.step Dev.setPerst_keeps
      | apply Dev.Keeps.ite | apply Dev.Keeps.foldl | (show (_ : Bool) = _; decide +kernel) | (show _ ∈ _; decide +kernel)
      | (show _ < _; decide +kernel) | split | dsimp only

theorem Dev.tellSpl_keeps {d : Dev} {c : Nat} : Dev.Keeps [.EBR_SIDEBAND] [.arrived, .ctrs, .out, .sbSeq, .vits, .vports] d (Dev.tellSpl
    d c) := by
  unfold Dev.tellSpl
  with_reducible repeat'
    first
      | intro x | assumption | apply Dev.Keeps.refl | apply Dev.Keeps.put | apply Dev.Keeps.forEach | apply Dev.Keeps.when
      | apply Dev.Keeps.step Dev.emit_keeps | apply Dev.Keeps.step Dev.sideband_keeps | apply Dev.Keeps.ite | apply Dev.Keeps.foldl
      | (show (_ : Bool) = _; decide +kernel) | (show _ ∈ _; decide +kernel) | (show _ < _; decide +kernel) | split | dsimp only

theorem Dev.startRamp_keeps {d : Dev} {n : Nat} : Dev.Keeps [.EF_STATUS] [.efQueue] d (Dev.startRamp d n) := by
  unfold Dev.startRamp
  with_reducible repeat'
    first
      | intro x | assumption | apply Dev.Keeps.refl | apply Dev.Keeps.put | apply Dev.Keeps.step Dev.ramp_keeps | apply Dev.Keeps.ite
      | apply Dev.Keeps.foldl | (show (_ : Bool) = _; decide +kernel) | (show _ ∈ _; decide +kernel) | (show _ < _; decide +kernel)
      | split | apply Dev.Keeps.set_efQueue | dsimp only

theorem Dev.efRaise_keeps {d : Dev} {n : Nat} {f : Fld} (hlo : f.lo < 32) :
    Dev.Keeps (f.reg :: recordRegs) recordParts d (d.efRaise n f) := Dev.raise_keeps hlo

theorem Dev.powerFault_keeps {d : Dev} {n : Nat} : Dev.Keeps [.EBR_SIDEBAND] [.arrived, .ctrs, .out, .sbSeq, .vits, .vports] d
    (Dev.powerFault d n) := by
  unfold Dev.powerFault
  with_reducible repeat'
    first
      | intro x | assumption | apply Dev.Keeps.refl | apply Dev.Keeps.put | apply Dev.Keeps.forEach
      | apply Dev.Keeps.step Dev.sideband_keeps | apply Dev.Keeps.step Dev.sidebandOf_keeps | apply Dev.Keeps.ite
      | apply Dev.Keeps.foldl | (show (_ : Bool) = _; decide +kernel) | (show _ ∈ _; decide +kernel) | (show _ < _; decide +kernel)
      | split | dsimp only

theorem Dev.withdrawPg_keeps {d : Dev} {n : Nat} : Dev.Keeps [.EBR_SIDEBAND, .EF_STATUS] [.arrived, .ctrs, .out, .perstReleased, .sbSeq,
    .vits, .vports] d (Dev.withdrawPg d n) := by
  unfold Dev.withdrawPg
  with_reducible repeat'
    first
      | intro x | assumption | apply Dev.Keeps.refl | apply Dev.Keeps.put | apply Dev.Keeps.when
      | apply Dev.Keeps.step Dev.powerFault_keeps | apply Dev.Keeps.step Dev.setPerst_keeps | apply Dev.Keeps.ite
      | apply Dev.Keeps.foldl | (show (_ : Bool) = _; decide +kernel) | (show _ ∈ _; decide +kernel) | (show _ < _; decide +kernel)
      | split | dsimp only

theorem Dev.limitReached_keeps {d : Dev} {n : Nat} : Dev.Keeps (.EBR_SIDEBAND :: .EF_EVENTS :: .EF_STATUS :: recordRegs) (.arrived ::
    .perstReleased :: .sbSeq :: .vports :: recordParts) d (Dev.limitReached d n) := by
  unfold Dev.limitReached
  with_reducible repeat'
    first
      | intro x | assumption | apply Dev.Keeps.refl | apply Dev.Keeps.put | apply Dev.Keeps.when
      | apply Dev.Keeps.step (Dev.efRaise_keeps ?_) | apply Dev.Keeps.step Dev.withdrawPg_keeps | apply Dev.Keeps.ite
      | apply Dev.Keeps.foldl | (show (_ : Bool) = _; decide +kernel) | (show _ ∈ _; decide +kernel) | (show _ < _; decide +kernel)
      | split | dsimp only

theorem Dev.setLimit_keeps {d : Dev} {n ma : Nat} : Dev.Keeps (.EBR_SIDEBAND :: .EF_CTL :: .EF_EVENTS :: .EF_STATUS :: recordRegs)
    (.arrived :: .perstReleased :: .sbSeq :: .vports :: recordParts) d (Dev.setLimit d n ma) := by
  unfold Dev.setLimit
  with_reducible repeat'
    first
      | intro x | assumption | apply Dev.Keeps.refl | apply Dev.Keeps.put | apply Dev.Keeps.when
      | apply Dev.Keeps.step Dev.limitReached_keeps | apply Dev.Keeps.ite | apply Dev.Keeps.foldl
      | (show (_ : Bool) = _; decide +kernel) | (show _ ∈ _; decide +kernel) | (show _ < _; decide +kernel) | split | dsimp only

theorem Dev.tryCage_keeps {d : Dev} {c value scale priority : Nat} : Dev.Keeps (.EBR_EVENTS :: .EBR_SIDEBAND :: .EF_CTL :: .EF_EVENTS ::
    .EF_STATUS :: .PWR_CAGE_USED :: recordRegs) (.arrived :: .efQueue :: .efuses :: .perstReleased :: .sbSeq :: .vports :: recordParts)
    d (Dev.tryCage d c value scale priority).2.2 := by
  unfold Dev.tryCage
  with_reducible repeat'
    first
      | intro x | assumption | apply Dev.Keeps.refl | apply Dev.Keeps.forEach | apply Dev.Keeps.put | apply Dev.Keeps.when
      | apply Dev.Keeps.step Dev.chargeCage_keeps | apply Dev.Keeps.step (Dev.raise_keeps ?_)
      | apply Dev.Keeps.step Dev.setEfuse_keeps | apply Dev.Keeps.step Dev.setLimit_keeps | apply Dev.Keeps.step Dev.startRamp_keeps
      | apply Dev.Keeps.step Dev.tellSpl_keeps | apply Dev.Keeps.ite | apply Dev.Keeps.foldl | (show (_ : Bool) = _; decide +kernel)
      | (show _ ∈ _; decide +kernel) | (show _ < _; decide +kernel) | split | dsimp only

theorem Dev.enableCage_keeps {d : Dev} {h : CmdHdr} {c value scale priority : Nat} : Dev.Keeps (.EBR_EVENTS :: .EBR_SIDEBAND :: .EF_CTL
    :: .EF_EVENTS :: .EF_STATUS :: .PWR_CAGE_USED :: recordRegs) (.arrived :: .cmds :: .efQueue :: .efuses :: .perstReleased :: .sbSeq
    :: .vports :: recordParts) d (Dev.enableCage d h c value scale priority) := by
  unfold Dev.enableCage
  with_reducible repeat'
    first
      | intro x | assumption | apply Dev.Keeps.refl | apply Dev.Keeps.step Dev.finish_keeps | apply Dev.Keeps.step Dev.tryCage_keeps
      | apply Dev.Keeps.ite | apply Dev.Keeps.foldl | (show (_ : Bool) = _; decide +kernel) | (show _ ∈ _; decide +kernel)
      | (show _ < _; decide +kernel) | split | refine Dev.Keeps.pair Dev.tryCage_keeps (by assumption) ?_ ?_ ?_ | dsimp only

theorem Dev.efPresence_keeps {d : Dev} {n : Nat} : Dev.Keeps (.EBR_SIDEBAND :: .EF_EVENTS :: .EF_STATUS :: .PWR_CAGE_USED :: recordRegs)
    (.efQueue :: .efuses :: .perstReleased :: recordParts) d (Dev.efPresence d n) := by
  unfold Dev.efPresence
  with_reducible repeat'
    first
      | intro x | assumption | apply Dev.Keeps.refl | apply Dev.Keeps.step Dev.efOff_keeps
      | apply Dev.Keeps.step (Dev.efRaise_keeps ?_) | apply Dev.Keeps.ite | apply Dev.Keeps.foldl
      | (show (_ : Bool) = _; decide +kernel) | (show _ ∈ _; decide +kernel) | (show _ < _; decide +kernel) | split | dsimp only

theorem Dev.efDamaged_keeps {d : Dev} {n cause : Nat} : Dev.Keeps [.EBR_SIDEBAND, .EF_STATUS, .PWR_CAGE_USED] [.arrived, .ctrs,
    .efQueue, .efuses, .out, .perstReleased, .sbSeq, .vits, .vports] d (Dev.efDamaged d n cause) := by
  unfold Dev.efDamaged
  with_reducible repeat'
    first
      | intro x | assumption | apply Dev.Keeps.refl | apply Dev.Keeps.put | apply Dev.Keeps.when
      | apply Dev.Keeps.step Dev.chargeCage_keeps | apply Dev.Keeps.step Dev.gateOff_keeps | apply Dev.Keeps.step Dev.withdrawPg_keeps
      | apply Dev.Keeps.ite | apply Dev.Keeps.foldl | (show (_ : Bool) = _; decide +kernel) | (show _ ∈ _; decide +kernel)
      | (show _ < _; decide +kernel) | split | dsimp only

theorem Dev.trip_keeps {d : Dev} {n : Nat} {fast : Bool} : Dev.Keeps (.EBR_SIDEBAND :: .EF_EVENTS :: .EF_STATUS :: recordRegs) (.arrived
    :: .efQueue :: .perstReleased :: .sbSeq :: .vports :: recordParts) d (Dev.trip d n fast) := by
  unfold Dev.trip
  with_reducible repeat'
    first
      | intro x | assumption | apply Dev.Keeps.refl | apply Dev.Keeps.when | apply Dev.Keeps.step Dev.count_keeps
      | apply Dev.Keeps.step (Dev.efRaise_keeps ?_) | apply Dev.Keeps.step Dev.gateOff_keeps
      | apply Dev.Keeps.step Dev.powerFault_keeps | apply Dev.Keeps.step Dev.withdrawPg_keeps | apply Dev.Keeps.ite
      | apply Dev.Keeps.foldl | (show (_ : Bool) = _; decide +kernel) | (show _ ∈ _; decide +kernel) | (show _ < _; decide +kernel)
      | split | dsimp only

end Sys2Proof.Machine
end

