-- ==== Sys2Proof/Laws/KeepsTypeC.lean ====
section
/-! SUPPORT. What each operation of Machine/TypeC.lean may change: every register and structure outside the lists named stays as it was. -/

set_option Elab.async false
set_option linter.all false

namespace Sys2Proof.Machine

theorem Dev.setPd_keeps {d : Dev} {t : Nat} {f : PdPort → PdPort} : Dev.Keeps [] [.pds] d (Dev.setPd d t f) := by
  unfold Dev.setPd
  with_reducible repeat'
    first
      | intro x | assumption | apply Dev.Keeps.refl | apply Dev.Keeps.ite | apply Dev.Keeps.foldl
      | (show (_ : Bool) = _; decide +kernel) | (show _ ∈ _; decide +kernel) | (show _ < _; decide +kernel) | split
      | apply Dev.Keeps.set_pds | dsimp only

theorem Dev.offerUpTo_keeps {d : Dev} {t mw : Nat} : Dev.Keeps [.PD_PORT_STATUS] [.out, .pds] d (Dev.offerUpTo d t mw) := by
  unfold Dev.offerUpTo
  with_reducible repeat'
    first
      | intro x | assumption | apply Dev.Keeps.refl | apply Dev.Keeps.mark | apply Dev.Keeps.step Dev.emit_keeps
      | apply Dev.Keeps.step Dev.setPd_keeps | apply Dev.Keeps.ite | apply Dev.Keeps.foldl | (show (_ : Bool) = _; decide +kernel)
      | (show _ ∈ _; decide +kernel) | (show _ < _; decide +kernel) | split | dsimp only

theorem Dev.sinkContract_keeps {d : Dev} {t : Nat} : Dev.Keeps [.PD_CONTRACT] [.out, .pds] d (Dev.sinkContract d t) := by
  unfold Dev.sinkContract
  with_reducible repeat'
    first
      | intro x | assumption | apply Dev.Keeps.refl | apply Dev.Keeps.put | apply Dev.Keeps.step Dev.emit_keeps
      | apply Dev.Keeps.step Dev.setPd_keeps | apply Dev.Keeps.ite | apply Dev.Keeps.foldl | (show (_ : Bool) = _; decide +kernel)
      | (show _ ∈ _; decide +kernel) | (show _ < _; decide +kernel) | split | dsimp only

theorem Dev.setPolicy_keeps {d : Dev} {t w : Nat} : Dev.Keeps [.PD_PORT_POLICY] [] d (Dev.setPolicy d t w) := by
  unfold Dev.setPolicy
  with_reducible repeat'
    first
      | intro x | assumption | apply Dev.Keeps.refl | apply Dev.Keeps.put | apply Dev.Keeps.mark | apply Dev.Keeps.ite
      | apply Dev.Keeps.foldl | (show (_ : Bool) = _; decide +kernel) | (show _ ∈ _; decide +kernel) | (show _ < _; decide +kernel)
      | split | dsimp only

theorem Dev.chargePort_keeps {d : Dev} {t mw : Nat} : Dev.Keeps [.PD_POOL_USED] [.pds] d (Dev.chargePort d t mw) := by
  unfold Dev.chargePort
  with_reducible repeat'
    first
      | intro x | assumption | apply Dev.Keeps.refl | apply Dev.Keeps.put | apply Dev.Keeps.step Dev.setPd_keeps | apply Dev.Keeps.ite
      | apply Dev.Keeps.foldl | (show (_ : Bool) = _; decide +kernel) | (show _ ∈ _; decide +kernel) | (show _ < _; decide +kernel)
      | split | dsimp only

theorem Dev.openVbus_keeps {d : Dev} {t : Nat} : Dev.Keeps [.EBR_SIDEBAND, .EF_STATUS, .PD_POOL_USED, .PWR_CAGE_USED] [.efQueue,
    .efuses, .out, .pds, .perstReleased] d (Dev.openVbus d t) := by
  unfold Dev.openVbus
  with_reducible repeat'
    first
      | intro x | assumption | apply Dev.Keeps.refl | apply Dev.Keeps.step Dev.chargePort_keeps | apply Dev.Keeps.step Dev.efOff_keeps
      | apply Dev.Keeps.ite | apply Dev.Keeps.foldl | (show (_ : Bool) = _; decide +kernel) | (show _ ∈ _; decide +kernel)
      | (show _ < _; decide +kernel) | split | dsimp only

theorem Dev.setPdState_keeps {d : Dev} {t st : Nat} : Dev.Keeps [.PD_PORT_STATUS] [] d (Dev.setPdState d t st) := by
  unfold Dev.setPdState
  with_reducible repeat'
    first
      | intro x | assumption | apply Dev.Keeps.refl | apply Dev.Keeps.put | apply Dev.Keeps.ite | apply Dev.Keeps.foldl
      | (show (_ : Bool) = _; decide +kernel) | (show _ ∈ _; decide +kernel) | (show _ < _; decide +kernel) | split | dsimp only

theorem Dev.endContract_keeps {d : Dev} {t : Nat} : Dev.Keeps [.PD_CONTRACT, .PD_PORT_STATUS] [.pds] d (Dev.endContract d t) := by
  unfold Dev.endContract
  with_reducible repeat'
    first
      | intro x | assumption | apply Dev.Keeps.refl | apply Dev.Keeps.put | apply Dev.Keeps.step Dev.setPd_keeps | apply Dev.Keeps.ite
      | apply Dev.Keeps.foldl | (show (_ : Bool) = _; decide +kernel) | (show _ ∈ _; decide +kernel) | (show _ < _; decide +kernel)
      | split | dsimp only

theorem Dev.attachRoles_keeps {d : Dev} {t : Nat} : Dev.Keeps (.BSN_Q_STATUS :: .DOC_CORE_STATUS :: .DOC_EVENTS :: .DOC_WSTORE_LOST ::
    .EBR_CRD_AVAIL :: .EBR_EVENTS :: .EBR_LOCK :: .EBR_PFLOG_HEAD :: .EBR_RAT_PFDISC_HI :: .EBR_RAT_PFDISC_LO :: .FLL_LINK_STATUS ::
    .FLL_REPLAY :: .LNA_ALIGN :: .LNA_LANE_STATE :: .LNA_MRG_RESULT :: .LNA_TRAIN_REF :: .MBX_CH_STATUS :: .PD_PORT_STATUS :: .PIN_CTL
    :: .PIN_OLD :: .PRT_PORT_STATUS :: .RTE_EVENTS :: .RTE_GRP_SLOT :: .SLC_CONT_ESEQ_HI :: .SLC_CONT_ESEQ_LO :: .SLC_CONT_STATE ::
    .TUN_CE_DEST :: .TUN_CE_IRQ :: .TUN_CE_STATUS :: .TUN_PORT_ALLOT :: .TUN_PORT_STATUS :: .USH_EVENTS :: .USH_OWNER :: .VIT_STATE ::
    .WR_Q_DRR :: recordRegs) (.arrived :: .candidates :: .cellsFree :: .chans :: .cmds :: .cores :: .dwins :: .endpoints :: .engines ::
    .fronts :: .heldTlps :: .hubPort :: .lanes :: .links :: .lockSince :: .lockSrc :: .mud :: .notices :: .outs :: .pausedLinks :: .pds
    :: .pfLog :: .pfSeq :: .pins :: .ports :: .queues :: .sbSeq :: .trk :: .usbaOpen :: .vports :: .winFetches :: .winReads ::
    .winStores :: .wins :: .withheld :: recordParts) d (Dev.attachRoles d t) := by
  unfold Dev.attachRoles
  with_reducible repeat'
    first
      | intro x | assumption | apply Dev.Keeps.refl | apply Dev.Keeps.mark | apply Dev.Keeps.step Dev.addCandidate_keeps
      | apply Dev.Keeps.step Dev.serviceEnds_keeps | apply Dev.Keeps.step Dev.setPd_keeps | apply Dev.Keeps.ite
      | apply Dev.Keeps.foldl | (show (_ : Bool) = _; decide +kernel) | (show _ ∈ _; decide +kernel) | (show _ < _; decide +kernel)
      | split | dsimp only

theorem Dev.setCable_keeps {d : Dev} {t : Nat} {m : Option Marker} : Dev.Keeps [.PD_CABLE, .TUN_PORT_STATUS] [.pds] d (Dev.setCable d t
    m) := by
  unfold Dev.setCable
  with_reducible repeat'
    first
      | intro x | assumption | apply Dev.Keeps.refl | apply Dev.Keeps.mark | apply Dev.Keeps.put
      | apply Dev.Keeps.step Dev.setPd_keeps | apply Dev.Keeps.ite | apply Dev.Keeps.foldl | (show (_ : Bool) = _; decide +kernel)
      | (show _ ∈ _; decide +kernel) | (show _ < _; decide +kernel) | split | dsimp only

theorem Dev.leaveEpr_keeps {d : Dev} {t : Nat} : Dev.Keeps [.PD_CONTRACT, .PD_POOL_USED, .PD_PORT_STATUS] [.pds] d (Dev.leaveEpr d t) :=
    by
  unfold Dev.leaveEpr
  with_reducible repeat'
    first
      | intro x | assumption | apply Dev.Keeps.refl | apply Dev.Keeps.put | apply Dev.Keeps.step Dev.chargePort_keeps
      | apply Dev.Keeps.ite | apply Dev.Keeps.foldl | (show (_ : Bool) = _; decide +kernel) | (show _ ∈ _; decide +kernel)
      | (show _ < _; decide +kernel) | split | dsimp only

theorem Dev.startSwap_keeps {d : Dev} {t : Nat} {k : PdSwap} {byPartner able : Bool} : Dev.Keeps [.PD_CABLE, .PD_CONTRACT,
    .PD_POOL_USED, .PD_PORT_STATUS, .TUN_PORT_STATUS] [.cmds, .out, .pds] d (Dev.startSwap d t k byPartner able) := by
  unfold Dev.startSwap
  with_reducible repeat'
    first
      | intro x | assumption | apply Dev.Keeps.refl | apply Dev.Keeps.when | apply Dev.Keeps.step Dev.emit_keeps
      | apply Dev.Keeps.step Dev.endWaiting_keeps | apply Dev.Keeps.step Dev.leaveEpr_keeps | apply Dev.Keeps.step Dev.setCable_keeps
      | apply Dev.Keeps.step Dev.setPd_keeps | apply Dev.Keeps.step Dev.setPdState_keeps | apply Dev.Keeps.ite | apply Dev.Keeps.foldl
      | (show (_ : Bool) = _; decide +kernel) | (show _ ∈ _; decide +kernel) | (show _ < _; decide +kernel) | split | dsimp only

theorem Dev.pdRaise_keeps {d : Dev} {t : Nat} {f : Fld} {object : Nat} {detail : List Byte} (hlo : f.lo < 32) :
    Dev.Keeps (f.reg :: recordRegs) recordParts d (d.pdRaise t f object detail) := Dev.raise_keeps hlo

theorem Dev.sourceVbus_keeps {d : Dev} {t : Nat} : Dev.Keeps (.EF_CTL :: .EF_STATUS :: .PD_EVENTS :: .PD_POOL_USED :: .PD_PORT_STATUS ::
    recordRegs) (.efQueue :: .pds :: recordParts) d (Dev.sourceVbus d t) := by
  unfold Dev.sourceVbus
  with_reducible repeat'
    first
      | intro x | assumption | apply Dev.Keeps.refl | apply Dev.Keeps.put | apply Dev.Keeps.step Dev.chargePort_keeps
      | apply Dev.Keeps.step (Dev.pdRaise_keeps ?_) | apply Dev.Keeps.step Dev.setPd_keeps | apply Dev.Keeps.step Dev.startRamp_keeps
      | apply Dev.Keeps.ite | apply Dev.Keeps.foldl | (show (_ : Bool) = _; decide +kernel) | (show _ ∈ _; decide +kernel)
      | (show _ < _; decide +kernel) | split | dsimp only

theorem Dev.swapRoles_keeps {d : Dev} {t : Nat} {k : PdSwap} : Dev.Keeps (.BSN_Q_STATUS :: .DOC_CORE_STATUS :: .DOC_EVENTS ::
    .DOC_WSTORE_LOST :: .EBR_CRD_AVAIL :: .EBR_EVENTS :: .EBR_LOCK :: .EBR_PFLOG_HEAD :: .EBR_RAT_PFDISC_HI :: .EBR_RAT_PFDISC_LO ::
    .EBR_SIDEBAND :: .EF_CTL :: .EF_STATUS :: .FLL_LINK_STATUS :: .FLL_REPLAY :: .LNA_ALIGN :: .LNA_LANE_STATE :: .LNA_MRG_RESULT ::
    .LNA_TRAIN_REF :: .MBX_CH_STATUS :: .PD_CONTRACT :: .PD_EVENTS :: .PD_POOL_USED :: .PD_PORT_STATUS :: .PIN_CTL :: .PIN_OLD ::
    .PRT_PORT_STATUS :: .PWR_CAGE_USED :: .RTE_EVENTS :: .RTE_GRP_SLOT :: .SLC_CONT_ESEQ_HI :: .SLC_CONT_ESEQ_LO :: .SLC_CONT_STATE ::
    .TUN_CE_DEST :: .TUN_CE_IRQ :: .TUN_CE_STATUS :: .TUN_PORT_ALLOT :: .TUN_PORT_STATUS :: .USH_EVENTS :: .USH_OWNER :: .VIT_STATE ::
    .WR_Q_DRR :: recordRegs) (.arrived :: .candidates :: .cellsFree :: .chans :: .cmds :: .cores :: .dwins :: .efQueue :: .efuses ::
    .endpoints :: .engines :: .fronts :: .heldTlps :: .hubPort :: .lanes :: .links :: .lockSince :: .lockSrc :: .mud :: .notices ::
    .outs :: .pausedLinks :: .pds :: .perstReleased :: .pfLog :: .pfSeq :: .pins :: .ports :: .queues :: .sbSeq :: .trk :: .usbaOpen ::
    .vports :: .winFetches :: .winReads :: .winStores :: .wins :: .withheld :: recordParts) d (Dev.swapRoles d t k) := by
  unfold Dev.swapRoles
  with_reducible repeat'
    first
      | intro x | assumption | apply Dev.Keeps.refl | apply Dev.Keeps.mark | apply Dev.Keeps.step Dev.addCandidate_keeps
      | apply Dev.Keeps.step Dev.endContract_keeps | apply Dev.Keeps.step Dev.openVbus_keeps
      | apply Dev.Keeps.step Dev.serviceEnds_keeps | apply Dev.Keeps.step Dev.setPd_keeps | apply Dev.Keeps.step Dev.setPdState_keeps
      | apply Dev.Keeps.step Dev.sourceVbus_keeps | apply Dev.Keeps.ite | apply Dev.Keeps.foldl
      | (show (_ : Bool) = _; decide +kernel) | (show _ ∈ _; decide +kernel) | (show _ < _; decide +kernel) | split | dsimp only

theorem Dev.dischargeDone_keeps {d : Dev} {t : Nat} : Dev.Keeps [.PD_PORT_STATUS] [.out, .pds] d (Dev.dischargeDone d t) := by
  unfold Dev.dischargeDone
  with_reducible repeat'
    first
      | intro x | assumption | apply Dev.Keeps.refl | apply Dev.Keeps.put | apply Dev.Keeps.step Dev.emit_keeps
      | apply Dev.Keeps.step Dev.setPd_keeps | apply Dev.Keeps.step Dev.setPdState_keeps | apply Dev.Keeps.ite | apply Dev.Keeps.foldl
      | (show (_ : Bool) = _; decide +kernel) | (show _ ∈ _; decide +kernel) | (show _ < _; decide +kernel) | split | dsimp only

theorem Dev.failSwaps_keeps {d : Dev} {t : Nat} : Dev.Keeps (.PD_EVENTS :: recordRegs) (.cmds :: .pds :: recordParts) d (Dev.failSwaps d
    t) := by
  unfold Dev.failSwaps
  with_reducible repeat'
    first
      | intro x | assumption | apply Dev.Keeps.refl | apply Dev.Keeps.forEach | apply Dev.Keeps.step Dev.endWaiting_keeps
      | apply Dev.Keeps.step (Dev.pdRaise_keeps ?_) | apply Dev.Keeps.step Dev.setPd_keeps | apply Dev.Keeps.ite
      | apply Dev.Keeps.foldl | (show (_ : Bool) = _; decide +kernel) | (show _ ∈ _; decide +kernel) | (show _ < _; decide +kernel)
      | split | dsimp only

theorem Dev.hardReset_keeps {d : Dev} {t : Nat} : Dev.Keeps (.BSN_Q_STATUS :: .DOC_CORE_STATUS :: .DOC_EVENTS :: .DOC_WSTORE_LOST ::
    .EBR_CRD_AVAIL :: .EBR_EVENTS :: .EBR_LOCK :: .EBR_PFLOG_HEAD :: .EBR_RAT_PFDISC_HI :: .EBR_RAT_PFDISC_LO :: .EBR_SIDEBAND ::
    .EF_STATUS :: .FLL_LINK_STATUS :: .FLL_REPLAY :: .LNA_ALIGN :: .LNA_LANE_STATE :: .LNA_MRG_RESULT :: .LNA_TRAIN_REF ::
    .MBX_CH_STATUS :: .PD_CONTRACT :: .PD_EVENTS :: .PD_POOL_USED :: .PD_PORT_STATUS :: .PIN_CTL :: .PIN_OLD :: .PRT_PORT_STATUS ::
    .PWR_CAGE_USED :: .RTE_EVENTS :: .RTE_GRP_SLOT :: .SLC_CONT_ESEQ_HI :: .SLC_CONT_ESEQ_LO :: .SLC_CONT_STATE :: .TUN_CE_DEST ::
    .TUN_CE_IRQ :: .TUN_CE_STATUS :: .TUN_PORT_ALLOT :: .TUN_PORT_STATUS :: .USH_EVENTS :: .USH_OWNER :: .VIT_STATE :: .WR_Q_DRR ::
    recordRegs) (.arrived :: .candidates :: .cellsFree :: .chans :: .cmds :: .cores :: .dwins :: .efQueue :: .efuses :: .endpoints ::
    .engines :: .fronts :: .heldTlps :: .hubPort :: .lanes :: .links :: .lockSince :: .lockSrc :: .mud :: .notices :: .outs ::
    .pausedLinks :: .pds :: .perstReleased :: .pfLog :: .pfSeq :: .pins :: .ports :: .queues :: .sbSeq :: .trk :: .usbaOpen :: .vports
    :: .winFetches :: .winReads :: .winStores :: .wins :: .withheld :: recordParts) d (Dev.hardReset d t) := by
  unfold Dev.hardReset
  with_reducible repeat'
    first
      | intro x | assumption | apply Dev.Keeps.refl | apply Dev.Keeps.put | apply Dev.Keeps.when
      | apply Dev.Keeps.step Dev.attachRoles_keeps | apply Dev.Keeps.step Dev.count_keeps | apply Dev.Keeps.step Dev.endContract_keeps
      | apply Dev.Keeps.step Dev.failSwaps_keeps | apply Dev.Keeps.step Dev.openVbus_keeps
      | apply Dev.Keeps.step (Dev.pdRaise_keeps ?_) | apply Dev.Keeps.step Dev.setPdState_keeps | apply Dev.Keeps.ite
      | apply Dev.Keeps.foldl | (show (_ : Bool) = _; decide +kernel) | (show _ ∈ _; decide +kernel) | (show _ < _; decide +kernel)
      | split | dsimp only

theorem Dev.cutPort_keeps {d : Dev} {t : Nat} : Dev.Keeps (.PD_EVENTS :: .PD_POOL_USED :: .PD_PORT_STATUS :: recordRegs) (.pds ::
    recordParts) d (Dev.cutPort d t) := by
  unfold Dev.cutPort
  with_reducible repeat'
    first
      | intro x | assumption | apply Dev.Keeps.refl | apply Dev.Keeps.step Dev.chargePort_keeps | apply Dev.Keeps.step Dev.count_keeps
      | apply Dev.Keeps.step Dev.offerUpTo_keeps | apply Dev.Keeps.step (Dev.pdRaise_keeps ?_) | apply Dev.Keeps.ite
      | apply Dev.Keeps.foldl | (show (_ : Bool) = _; decide +kernel) | (show _ ∈ _; decide +kernel) | (show _ < _; decide +kernel)
      | split | dsimp only

theorem Dev.pdShed_keeps {d : Dev} : Dev.Keeps (.BSN_Q_STATUS :: .DOC_CORE_STATUS :: .DOC_EVENTS :: .DOC_WSTORE_LOST :: .EBR_CRD_AVAIL
    :: .EBR_EVENTS :: .EBR_LOCK :: .EBR_PFLOG_HEAD :: .EBR_RAT_PFDISC_HI :: .EBR_RAT_PFDISC_LO :: .EBR_SIDEBAND :: .EF_STATUS ::
    .FLL_LINK_STATUS :: .FLL_REPLAY :: .LNA_ALIGN :: .LNA_LANE_STATE :: .LNA_MRG_RESULT :: .LNA_TRAIN_REF :: .MBX_CH_STATUS ::
    .PD_CONTRACT :: .PD_EVENTS :: .PD_POOL_USED :: .PD_PORT_STATUS :: .PIN_CTL :: .PIN_OLD :: .PRT_PORT_STATUS :: .PWR_CAGE_USED ::
    .RTE_EVENTS :: .RTE_GRP_SLOT :: .SLC_CONT_ESEQ_HI :: .SLC_CONT_ESEQ_LO :: .SLC_CONT_STATE :: .TUN_CE_DEST :: .TUN_CE_IRQ ::
    .TUN_CE_STATUS :: .TUN_PORT_ALLOT :: .TUN_PORT_STATUS :: .USH_EVENTS :: .USH_OWNER :: .VIT_STATE :: .WR_Q_DRR :: recordRegs)
    (.arrived :: .candidates :: .cellsFree :: .chans :: .cmds :: .cores :: .dwins :: .efQueue :: .efuses :: .endpoints :: .engines ::
    .fronts :: .heldTlps :: .hubPort :: .lanes :: .links :: .lockSince :: .lockSrc :: .mud :: .notices :: .outs :: .pausedLinks :: .pds
    :: .perstReleased :: .pfLog :: .pfSeq :: .pins :: .ports :: .queues :: .sbSeq :: .trk :: .usbaOpen :: .vports :: .winFetches ::
    .winReads :: .winStores :: .wins :: .withheld :: recordParts) d (Dev.pdShed d) := by
  unfold Dev.pdShed
  with_reducible repeat'
    first
      | intro x | assumption | apply Dev.Keeps.refl | apply Dev.Keeps.forEach | apply Dev.Keeps.step Dev.count_keeps
      | apply Dev.Keeps.step Dev.cutPort_keeps | apply Dev.Keeps.step Dev.hardReset_keeps
      | apply Dev.Keeps.step (Dev.pdRaise_keeps ?_) | apply Dev.Keeps.step Dev.setPd_keeps | apply Dev.Keeps.ite
      | apply Dev.Keeps.foldl | (show (_ : Bool) = _; decide +kernel) | (show _ ∈ _; decide +kernel) | (show _ < _; decide +kernel)
      | split | dsimp only

theorem Dev.showMoist_keeps {d : Dev} {t : Nat} {m : Moisture} : Dev.Keeps [.PD_MOIST] [] d (Dev.showMoist d t m) := by
  unfold Dev.showMoist
  with_reducible repeat'
    first
      | intro x | assumption | apply Dev.Keeps.refl | apply Dev.Keeps.put | apply Dev.Keeps.ite | apply Dev.Keeps.foldl
      | (show (_ : Bool) = _; decide +kernel) | (show _ ∈ _; decide +kernel) | (show _ < _; decide +kernel) | split | dsimp only

theorem Dev.discharge_keeps {d : Dev} {t : Nat} : Dev.Keeps (.EBR_SIDEBAND :: .EF_STATUS :: .MBX_CH_STATUS :: .PD_CONTRACT ::
    .PD_POOL_USED :: .PD_PORT_STATUS :: .PWR_CAGE_USED :: .TUN_PORT_STATUS :: .USH_EVENTS :: .USH_OWNER :: recordRegs) (.candidates ::
    .chans :: .efQueue :: .efuses :: .hubPort :: .mud :: .pds :: .perstReleased :: .usbaOpen :: recordParts) d (Dev.discharge d t) := by
  unfold Dev.discharge
  with_reducible repeat'
    first
      | intro x | assumption | apply Dev.Keeps.refl | apply Dev.Keeps.put | apply Dev.Keeps.step Dev.dropCandidate_keeps
      | apply Dev.Keeps.step Dev.endContract_keeps | apply Dev.Keeps.step Dev.openVbus_keeps
      | apply Dev.Keeps.step Dev.ownerDetach_keeps | apply Dev.Keeps.step Dev.setPd_keeps | apply Dev.Keeps.step Dev.setPdState_keeps
      | apply Dev.Keeps.ite | apply Dev.Keeps.foldl | (show (_ : Bool) = _; decide +kernel) | (show _ ∈ _; decide +kernel)
      | (show _ < _; decide +kernel) | split | dsimp only

theorem Dev.acceptRequest_keeps {d : Dev} {t mv ma mw : Nat} : Dev.Keeps [.EF_CTL, .PD_CONTRACT, .PD_POOL_USED, .PD_PORT_STATUS] [.out,
    .pds] d (Dev.acceptRequest d t mv ma mw) := by
  unfold Dev.acceptRequest
  with_reducible repeat'
    first
      | intro x | assumption | apply Dev.Keeps.refl | apply Dev.Keeps.put | apply Dev.Keeps.step Dev.chargePort_keeps
      | apply Dev.Keeps.step Dev.emit_keeps | apply Dev.Keeps.step Dev.setPd_keeps | apply Dev.Keeps.step Dev.setPdState_keeps
      | apply Dev.Keeps.ite | apply Dev.Keeps.foldl | (show (_ : Bool) = _; decide +kernel) | (show _ ∈ _; decide +kernel)
      | (show _ < _; decide +kernel) | split | dsimp only

theorem Dev.sendOffer_keeps {d : Dev} {t : Nat} : Dev.Keeps [.PD_PORT_STATUS] [.out, .pds] d (Dev.sendOffer d t) := by
  unfold Dev.sendOffer
  with_reducible repeat'
    first
      | intro x | assumption | apply Dev.Keeps.refl | apply Dev.Keeps.step Dev.offerUpTo_keeps | apply Dev.Keeps.ite
      | apply Dev.Keeps.foldl | (show (_ : Bool) = _; decide +kernel) | (show _ ∈ _; decide +kernel) | (show _ < _; decide +kernel)
      | split | dsimp only

end Sys2Proof.Machine
end

