-- ==== Sys2Proof/Laws/KeepsPower.lean ====
section
/-! SUPPORT. What each operation of Machine/Power.lean may change: every register and structure outside the lists named stays as it was. -/

set_option Elab.async false
set_option linter.all false

namespace Sys2Proof.Machine

theorem feedField_lo {f : Nat} : (feedPresent f).lo < 32 ∧ (feedHigh f).lo < 32 := by
  unfold feedPresent feedHigh
  split <;> decide

theorem feedField_mem {R : List Reg} {f : Nat} (ha : Reg.PWR_FEED_A ∈ R) (hb : Reg.PWR_FEED_B ∈ R) :
    (feedPresent f).reg ∈ R ∧ (feedHigh f).reg ∈ R := by
  unfold feedPresent feedHigh
  split
  · exact ⟨ha, ha⟩
  · exact ⟨hb, hb⟩

theorem Dev.slotIndicators_keeps {d : Dev} {b : Binding} {attention power : Nat} : Dev.Keeps [.EBR_SIDEBAND] [.arrived, .out] d
    (Dev.slotIndicators d b attention power) := by
  unfold Dev.slotIndicators
  with_reducible repeat'
    first
      | intro x | assumption | apply Dev.Keeps.refl | apply Dev.Keeps.put | apply Dev.Keeps.forEach
      | apply Dev.Keeps.step Dev.emit_keeps | apply Dev.Keeps.step Dev.tell_keeps | apply Dev.Keeps.ite | apply Dev.Keeps.foldl
      | (show (_ : Bool) = _; decide +kernel) | (show _ ∈ _; decide +kernel) | (show _ < _; decide +kernel) | split | dsimp only

theorem Dev.cageOn_keeps {d : Dev} {c : Nat} : Dev.Keeps (.EBR_EVENTS :: .EBR_SIDEBAND :: .EF_STATUS :: .PWR_CAGE_USED :: recordRegs)
    (.arrived :: .efQueue :: .efuses :: .sbSeq :: .vports :: recordParts) d (Dev.cageOn d c) := by
  unfold Dev.cageOn
  with_reducible repeat'
    first
      | intro x | assumption | apply Dev.Keeps.refl | apply Dev.Keeps.forEach | apply Dev.Keeps.step Dev.chargeCage_keeps
      | apply Dev.Keeps.step (Dev.raise_keeps ?_) | apply Dev.Keeps.step Dev.setEfuse_keeps | apply Dev.Keeps.step Dev.startRamp_keeps
      | apply Dev.Keeps.step Dev.tellSpl_keeps | apply Dev.Keeps.ite | apply Dev.Keeps.foldl | (show (_ : Bool) = _; decide +kernel)
      | (show _ ∈ _; decide +kernel) | (show _ < _; decide +kernel) | split | dsimp only

theorem Dev.slotCage_keeps {d : Dev} {c : Nat} {off : Bool} : Dev.Keeps (.EBR_EVENTS :: .EBR_SIDEBAND :: .EF_STATUS :: .PWR_CAGE_USED ::
    recordRegs) (.arrived :: .efQueue :: .efuses :: .perstReleased :: .sbSeq :: .vports :: recordParts) d (Dev.slotCage d c off) := by
  unfold Dev.slotCage
  with_reducible repeat'
    first
      | intro x | assumption | apply Dev.Keeps.refl | apply Dev.Keeps.step Dev.cageOn_keeps | apply Dev.Keeps.step Dev.efOff_keeps
      | apply Dev.Keeps.ite | apply Dev.Keeps.foldl | (show (_ : Bool) = _; decide +kernel) | (show _ ∈ _; decide +kernel)
      | (show _ < _; decide +kernel) | split | dsimp only

theorem Dev.slotPower_keeps {d : Dev} {lv : Nat} {b : Binding} {off : Bool} : Dev.Keeps (.EBR_EVENTS :: .EBR_SIDEBAND :: .EF_STATUS ::
    .PWR_CAGE_USED :: recordRegs) (.arrived :: .efQueue :: .efuses :: .perstReleased :: .sbSeq :: .vports :: recordParts) d
    (Dev.slotPower d lv b off) := by
  unfold Dev.slotPower
  with_reducible repeat'
    first
      | intro x | assumption | apply Dev.Keeps.refl | apply Dev.Keeps.forEach | apply Dev.Keeps.step Dev.setBinding_keeps
      | apply Dev.Keeps.step Dev.slotCage_keeps | apply Dev.Keeps.step Dev.slotEvent_keeps | apply Dev.Keeps.step Dev.tell_keeps
      | apply Dev.Keeps.ite | apply Dev.Keeps.foldl | (show (_ : Bool) = _; decide +kernel) | (show _ ∈ _; decide +kernel)
      | (show _ < _; decide +kernel) | split | dsimp only

theorem Dev.slotControl_keeps {d : Dev} {lv k : Nat} {off : Bool} {attention power : Nat} {interrupt : Bool} {enables : Nat} : Dev.Keeps
    (.EBR_EVENTS :: .EBR_SIDEBAND :: .EF_STATUS :: .PWR_CAGE_USED :: recordRegs) (.arrived :: .efQueue :: .efuses :: .perstReleased ::
    .sbSeq :: .vports :: recordParts) d (Dev.slotControl d lv k off attention power interrupt enables) := by
  unfold Dev.slotControl
  with_reducible repeat'
    first
      | intro x | assumption | apply Dev.Keeps.refl | apply Dev.Keeps.when | apply Dev.Keeps.step Dev.slotEvent_keeps
      | apply Dev.Keeps.step Dev.slotIndicators_keeps | apply Dev.Keeps.step Dev.slotPower_keeps | apply Dev.Keeps.ite
      | apply Dev.Keeps.foldl | (show (_ : Bool) = _; decide +kernel) | (show _ ∈ _; decide +kernel) | (show _ < _; decide +kernel)
      | split | dsimp only

theorem Dev.vbusTrip_keeps {d : Dev} {n : Nat} : Dev.Keeps [.EF_CTL, .PD_CONTRACT, .PD_POOL_USED, .PD_PORT_STATUS] [.pds] d
    (Dev.vbusTrip d n) := by
  unfold Dev.vbusTrip
  with_reducible repeat'
    first
      | intro x | assumption | apply Dev.Keeps.refl | apply Dev.Keeps.put | apply Dev.Keeps.when
      | apply Dev.Keeps.step Dev.chargePort_keeps | apply Dev.Keeps.step Dev.endContract_keeps
      | apply Dev.Keeps.step Dev.setPdState_keeps | apply Dev.Keeps.ite | apply Dev.Keeps.foldl
      | (show (_ : Bool) = _; decide +kernel) | (show _ ∈ _; decide +kernel) | (show _ < _; decide +kernel) | split | dsimp only

theorem Dev.setEfCtl_keeps {d : Dev} {master n w : Nat} : Dev.Keeps (.EBR_SIDEBAND :: .EF_CTL :: .EF_EVENTS :: .EF_STATUS :: recordRegs)
    (.arrived :: .perstReleased :: .sbSeq :: .vports :: recordParts) d (Dev.setEfCtl d master n w) := by
  unfold Dev.setEfCtl
  with_reducible repeat'
    first
      | intro x | assumption | apply Dev.Keeps.refl | apply Dev.Keeps.put | apply Dev.Keeps.when
      | apply Dev.Keeps.step Dev.accessRecord_keeps | apply Dev.Keeps.step Dev.setLimit_keeps | apply Dev.Keeps.ite
      | apply Dev.Keeps.foldl | (show (_ : Bool) = _; decide +kernel) | (show _ ∈ _; decide +kernel) | (show _ < _; decide +kernel)
      | split | dsimp only

theorem Dev.efDisable_keeps {d : Dev} {master n w : Nat} : Dev.Keeps (.EBR_SIDEBAND :: .EF_CTL :: .EF_EVENTS :: .EF_STATUS ::
    .PD_POOL_USED :: .PWR_CAGE_USED :: recordRegs) (.arrived :: .efQueue :: .efuses :: .pds :: .perstReleased :: .sbSeq :: .vports ::
    recordParts) d (Dev.efDisable d master n w) := by
  unfold Dev.efDisable
  with_reducible repeat'
    first
      | intro x | assumption | apply Dev.Keeps.refl | apply Dev.Keeps.step Dev.efOff_keeps | apply Dev.Keeps.step Dev.openVbus_keeps
      | apply Dev.Keeps.step Dev.setEfCtl_keeps | apply Dev.Keeps.ite | apply Dev.Keeps.foldl | (show (_ : Bool) = _; decide +kernel)
      | (show _ ∈ _; decide +kernel) | (show _ < _; decide +kernel) | split | dsimp only

theorem Dev.setPools_keeps {d : Dev} {cage pd : Nat} : Dev.Keeps [.PD_POOL_LIMIT, .PWR_POOLS] [] d (Dev.setPools d cage pd) := by
  unfold Dev.setPools
  with_reducible repeat'
    first
      | intro x | assumption | apply Dev.Keeps.refl | apply Dev.Keeps.put | apply Dev.Keeps.ite | apply Dev.Keeps.foldl
      | (show (_ : Bool) = _; decide +kernel) | (show _ ∈ _; decide +kernel) | (show _ < _; decide +kernel) | split | dsimp only

theorem Dev.applySplit_keeps {d : Dev} : Dev.Keeps [.PD_POOL_LIMIT, .PWR_POOLS] [] d (Dev.applySplit d) := by
  unfold Dev.applySplit
  with_reducible repeat'
    first
      | intro x | assumption | apply Dev.Keeps.refl | apply Dev.Keeps.step Dev.setPools_keeps | apply Dev.Keeps.ite
      | apply Dev.Keeps.foldl | (show (_ : Bool) = _; decide +kernel) | (show _ ∈ _; decide +kernel) | (show _ < _; decide +kernel)
      | split | dsimp only

theorem Dev.rebudget_keeps {d : Dev} : Dev.Keeps (.PD_POOL_LIMIT :: .PWR_BUDGET :: .PWR_EVENTS :: .PWR_POOLS :: recordRegs) recordParts
    d (Dev.rebudget d) := by
  unfold Dev.rebudget
  with_reducible repeat'
    first
      | intro x | assumption | apply Dev.Keeps.refl | apply Dev.Keeps.put | apply Dev.Keeps.mark
      | apply Dev.Keeps.step Dev.applySplit_keeps | apply Dev.Keeps.step Dev.count_keeps | apply Dev.Keeps.step (Dev.raise_keeps ?_)
      | apply Dev.Keeps.ite | apply Dev.Keeps.foldl | (show (_ : Bool) = _; decide +kernel) | (show _ ∈ _; decide +kernel)
      | (show _ < _; decide +kernel) | split | dsimp only

theorem Dev.singleFeed_keeps {d : Dev} : Dev.Keeps (.PWR_BUDGET :: .PWR_EVENTS :: recordRegs) recordParts d (Dev.singleFeed d) := by
  unfold Dev.singleFeed
  with_reducible repeat'
    first
      | intro x | assumption | apply Dev.Keeps.refl | apply Dev.Keeps.when | apply Dev.Keeps.mark
      | apply Dev.Keeps.step (Dev.raise_keeps ?_) | apply Dev.Keeps.ite | apply Dev.Keeps.foldl
      | (show (_ : Bool) = _; decide +kernel) | (show _ ∈ _; decide +kernel) | (show _ < _; decide +kernel) | split | dsimp only

theorem Dev.measureFeed_keeps {d : Dev} {f vrms freq : Nat} : Dev.Keeps [.PWR_FEED_A, .PWR_FEED_B] [] d (Dev.measureFeed d f vrms freq)
    := by
  unfold Dev.measureFeed
  with_reducible repeat'
    first
      | intro x | assumption | apply Dev.Keeps.refl | apply Dev.Keeps.put | apply Dev.Keeps.ite | apply Dev.Keeps.foldl
      | (show (_ : Bool) = _; decide +kernel) | (show _ ∈ _; decide +kernel) | (show _ < _; decide +kernel) | split | dsimp only

theorem Dev.measure_keeps {d : Dev} {n ma : Nat} : Dev.Keeps [.EF_MEAS] [] d (Dev.measure d n ma) := by
  unfold Dev.measure
  with_reducible repeat'
    first
      | intro x | assumption | apply Dev.Keeps.refl | apply Dev.Keeps.put | apply Dev.Keeps.ite | apply Dev.Keeps.foldl
      | (show (_ : Bool) = _; decide +kernel) | (show _ ∈ _; decide +kernel) | (show _ < _; decide +kernel) | split | dsimp only

theorem Dev.efEnable_keeps {d : Dev} {master n w : Nat} : Dev.Keeps (.EBR_EVENTS :: .EBR_SIDEBAND :: .EF_CTL :: .EF_EVENTS :: .EF_STATUS
    :: .PD_EVENTS :: .PD_POOL_USED :: .PD_PORT_STATUS :: .PWR_CAGE_USED :: recordRegs) (.arrived :: .efQueue :: .efuses :: .pds ::
    .perstReleased :: .sbSeq :: .vports :: recordParts) d (Dev.efEnable d master n w) := by
  unfold Dev.efEnable
  with_reducible repeat'
    first
      | intro x | assumption | apply Dev.Keeps.refl | apply Dev.Keeps.step Dev.cageOn_keeps | apply Dev.Keeps.step Dev.setEfCtl_keeps
      | apply Dev.Keeps.step Dev.sourceVbus_keeps | apply Dev.Keeps.ite | apply Dev.Keeps.foldl
      | (show (_ : Bool) = _; decide +kernel) | (show _ ∈ _; decide +kernel) | (show _ < _; decide +kernel) | split | dsimp only

theorem Dev.cagePoweredUp_keeps {d : Dev} {c : Nat} : Dev.Keeps (.BSN_Q_STATUS :: .DOC_CORE_STATUS :: .DOC_EVENTS :: .DOC_WSTORE_LOST ::
    .EBR_EVENTS :: .EBR_LOCK :: .EBR_PFLOG_HEAD :: .EBR_RAT_PFDISC_HI :: .EBR_RAT_PFDISC_LO :: .EBR_SIDEBAND :: .LNA_ALIGN ::
    .LNA_LANE_STATE :: .LNA_MRG_RESULT :: .LNA_TRAIN_REF :: .PRT_PORT_STATUS :: .SLC_CONT_STATE :: .WR_Q_DRR :: recordRegs) (.arrived ::
    .cellsFree :: .cmds :: .cores :: .dwins :: .efuses :: .endpoints :: .lanes :: .lockSince :: .lockSrc :: .notices :: .outs :: .pfLog
    :: .pfSeq :: .ports :: .queues :: .trk :: .vports :: .winFetches :: .winReads :: .winStores :: recordParts) d (Dev.cagePoweredUp d
    c) := by
  unfold Dev.cagePoweredUp
  with_reducible repeat'
    first
      | intro x | assumption | apply Dev.Keeps.refl | apply Dev.Keeps.put | apply Dev.Keeps.forEach | apply Dev.Keeps.when
      | apply Dev.Keeps.step Dev.insertion_keeps | apply Dev.Keeps.step Dev.setEfuse_keeps | apply Dev.Keeps.ite
      | apply Dev.Keeps.foldl | (show (_ : Bool) = _; decide +kernel) | (show _ ∈ _; decide +kernel) | (show _ < _; decide +kernel)
      | split | dsimp only

end Sys2Proof.Machine
end

