-- ==== Sys2Proof/Laws/KeepsConfigSpace.lean ====
section
/-! SUPPORT. What each operation of Machine/ConfigSpace.lean may change: every register and structure outside the lists named stays as it was. -/

set_option Elab.async false
set_option linter.all false

namespace Sys2Proof.Machine

theorem Dev.setSecondary_keeps {d : Dev} {lv k bus : Nat} : Dev.Keeps [] [.arrived, .endpoints, .vports] d (Dev.setSecondary d lv k bus)
    := by
  unfold Dev.setSecondary
  with_reducible repeat'
    first
      | intro x | assumption | apply Dev.Keeps.refl | apply Dev.Keeps.step Dev.setBound_keeps
      | apply Dev.Keeps.step Dev.setVport_keeps | apply Dev.Keeps.step Dev.tell_keeps | apply Dev.Keeps.ite | apply Dev.Keeps.foldl
      | (show (_ : Bool) = _; decide +kernel) | (show _ ∈ _; decide +kernel) | (show _ < _; decide +kernel) | split | dsimp only

theorem Dev.setHostLtr_keeps {d : Dev} {lv : Nat} : Dev.Keeps [.PRT_LTR, .PWR_WAKE] [.latched, .vits] d (Dev.setHostLtr d lv) := by
  unfold Dev.setHostLtr
  with_reducible repeat'
    first
      | intro x | assumption | apply Dev.Keeps.refl | apply Dev.Keeps.step Dev.setVit_keeps | apply Dev.Keeps.step Dev.showLtr_keeps
      | apply Dev.Keeps.ite | apply Dev.Keeps.foldl | (show (_ : Bool) = _; decide +kernel) | (show _ ∈ _; decide +kernel)
      | (show _ < _; decide +kernel) | split | dsimp only

theorem Dev.setCfg_keeps {d : Dev} {lv f w v : Nat} : Dev.Keeps [] [.cfg] d (Dev.setCfg d lv f w v) := by
  unfold Dev.setCfg
  with_reducible repeat'
    first
      | intro x | assumption | apply Dev.Keeps.refl | apply Dev.Keeps.ite | apply Dev.Keeps.foldl
      | (show (_ : Bool) = _; decide +kernel) | (show _ ∈ _; decide +kernel) | (show _ < _; decide +kernel) | split
      | apply Dev.Keeps.set_cfg | dsimp only

theorem Dev.writeUpstream_keeps {d : Dev} {lv w v be : Nat} : Dev.Keeps [.PRT_LTR, .PWR_WAKE] [.cfg, .latched, .vits] d
    (Dev.writeUpstream d lv w v be) := by
  unfold Dev.writeUpstream
  with_reducible repeat'
    first
      | intro x | assumption | apply Dev.Keeps.refl | apply Dev.Keeps.when | apply Dev.Keeps.step Dev.setCfg_keeps
      | apply Dev.Keeps.step Dev.setHostLtr_keeps | apply Dev.Keeps.step Dev.setVit_keeps | apply Dev.Keeps.ite
      | apply Dev.Keeps.foldl | (show (_ : Bool) = _; decide +kernel) | (show _ ∈ _; decide +kernel) | (show _ < _; decide +kernel)
      | split | dsimp only

theorem Dev.writeVmf_keeps {d : Dev} {lv w v be : Nat} : Dev.Keeps (.MBX_CH_STATUS :: .VMF_BME :: .VMF_CAT_ADDR_HI :: .VMF_CAT_ADDR_LO
    :: .VMF_CAT_SIZE :: .VMF_CAT_WPTR :: .VMF_CPL_TMO :: .VMF_EVENT_MASK :: .VMF_SPC_ADDR_HI :: .VMF_SPC_ADDR_LO :: .VMF_SPC_SIZE ::
    .VMF_SPC_WPTR :: recordRegs) (.cats :: .cfg :: .chans :: .samples :: .spcs :: .vmfs :: recordParts) d (Dev.writeVmf d lv w v be) :=
    by
  unfold Dev.writeVmf
  with_reducible repeat'
    first
      | intro x | assumption | apply Dev.Keeps.refl | apply Dev.Keeps.when | apply Dev.Keeps.step Dev.clearBme_keeps
      | apply Dev.Keeps.step Dev.setCfg_keeps | apply Dev.Keeps.step Dev.setVmf_keeps | apply Dev.Keeps.step Dev.startFlr_keeps
      | apply Dev.Keeps.step Dev.vmfInta_keeps | apply Dev.Keeps.ite | apply Dev.Keeps.foldl | (show (_ : Bool) = _; decide +kernel)
      | (show _ ∈ _; decide +kernel) | (show _ < _; decide +kernel) | split | dsimp only

theorem Dev.writeSlotWord_keeps {d : Dev} {lv k v be : Nat} : Dev.Keeps (.EBR_EVENTS :: .EBR_SIDEBAND :: .EF_STATUS :: .PWR_CAGE_USED ::
    recordRegs) (.arrived :: .efQueue :: .efuses :: .perstReleased :: .sbSeq :: .vports :: recordParts) d (Dev.writeSlotWord d lv k v
    be) := by
  unfold Dev.writeSlotWord
  with_reducible repeat'
    first
      | intro x | assumption | apply Dev.Keeps.refl | apply Dev.Keeps.step Dev.setVport_keeps
      | apply Dev.Keeps.step Dev.slotControl_keeps | apply Dev.Keeps.step Dev.slotIntx_keeps | apply Dev.Keeps.ite
      | apply Dev.Keeps.foldl | (show (_ : Bool) = _; decide +kernel) | (show _ ∈ _; decide +kernel) | (show _ < _; decide +kernel)
      | split | dsimp only

theorem Dev.setMsi_keeps {d : Dev} {lv k : Nat} {on : Bool} : Dev.Keeps [] [.ctrs, .out, .vits, .vports] d (Dev.setMsi d lv k on) := by
  unfold Dev.setMsi
  with_reducible repeat'
    first
      | intro x | assumption | apply Dev.Keeps.refl | apply Dev.Keeps.step Dev.setVport_keeps
      | apply Dev.Keeps.step Dev.slotIntx_keeps | apply Dev.Keeps.ite | apply Dev.Keeps.foldl | (show (_ : Bool) = _; decide +kernel)
      | (show _ ∈ _; decide +kernel) | (show _ < _; decide +kernel) | split | dsimp only

theorem Dev.writeLink_keeps {d : Dev} {lv k v be : Nat} : Dev.Keeps (.LNA_ALIGN :: .LNA_LANE_STATE :: .LNA_MRG_RESULT :: .LNA_RX_EQ ::
    .LNA_TRAIN_REF :: .LNA_TX_EQ :: .PRT_PORT_STATUS :: .TUN_CE_GEOM :: .TUN_CE_IRQ :: .TUN_CE_MODE :: .TUN_CE_SCANOUT :: .TUN_CE_STATUS
    :: .TUN_CE_STRIDE :: recordRegs) (.arrived :: .cmds :: .endpoints :: .engines :: .eqReported :: .lanes :: .ports :: .vports ::
    recordParts) d (Dev.writeLink d lv k v be) := by
  unfold Dev.writeLink
  with_reducible repeat'
    first
      | intro x | assumption | apply Dev.Keeps.refl | apply Dev.Keeps.step Dev.linkDisable_keeps
      | apply Dev.Keeps.step Dev.linkEnable_keeps | apply Dev.Keeps.step Dev.setVport_keeps | apply Dev.Keeps.ite
      | apply Dev.Keeps.foldl | (show (_ : Bool) = _; decide +kernel) | (show _ ∈ _; decide +kernel) | (show _ < _; decide +kernel)
      | split | dsimp only

theorem Dev.writePortCap_keeps {d : Dev} {lv k w v be : Nat} : Dev.Keeps (.EBR_EVENTS :: .EBR_SIDEBAND :: .EF_STATUS :: .LNA_ALIGN ::
    .LNA_LANE_STATE :: .LNA_MRG_RESULT :: .LNA_RX_EQ :: .LNA_TRAIN_REF :: .LNA_TX_EQ :: .PRT_PORT_STATUS :: .PWR_CAGE_USED ::
    .TUN_CE_GEOM :: .TUN_CE_IRQ :: .TUN_CE_MODE :: .TUN_CE_SCANOUT :: .TUN_CE_STATUS :: .TUN_CE_STRIDE :: recordRegs) (.arrived :: .cfg
    :: .cmds :: .efQueue :: .efuses :: .endpoints :: .engines :: .eqReported :: .lanes :: .perstReleased :: .ports :: .sbSeq :: .vports
    :: recordParts) d (Dev.writePortCap d lv k w v be) := by
  unfold Dev.writePortCap
  with_reducible repeat'
    first
      | intro x | assumption | apply Dev.Keeps.refl | apply Dev.Keeps.when | apply Dev.Keeps.step Dev.clearDpc_keeps
      | apply Dev.Keeps.step Dev.setCfg_keeps | apply Dev.Keeps.step Dev.setMsi_keeps | apply Dev.Keeps.step Dev.setVport_keeps
      | apply Dev.Keeps.step Dev.writeLink_keeps | apply Dev.Keeps.step Dev.writeSlotWord_keeps | apply Dev.Keeps.ite
      | apply Dev.Keeps.foldl | (show (_ : Bool) = _; decide +kernel) | (show _ ∈ _; decide +kernel) | (show _ < _; decide +kernel)
      | split | dsimp only

theorem Dev.setIoWindow_keeps {d : Dev} {lv k : Nat} : Dev.Keeps [] [.vports] d (Dev.setIoWindow d lv k) := by
  unfold Dev.setIoWindow
  with_reducible repeat'
    first
      | intro x | assumption | apply Dev.Keeps.refl | apply Dev.Keeps.step Dev.setVport_keeps | apply Dev.Keeps.ite
      | apply Dev.Keeps.foldl | (show (_ : Bool) = _; decide +kernel) | (show _ ∈ _; decide +kernel) | (show _ < _; decide +kernel)
      | split | dsimp only

theorem Dev.writePort_keeps {d : Dev} {lv k w v be : Nat} : Dev.Keeps (.EBR_EVENTS :: .EBR_SIDEBAND :: .EF_STATUS :: .LNA_ALIGN ::
    .LNA_LANE_STATE :: .LNA_MRG_RESULT :: .LNA_RX_EQ :: .LNA_TRAIN_REF :: .LNA_TX_EQ :: .PRT_PORT_STATUS :: .PWR_CAGE_USED ::
    .TUN_CE_GEOM :: .TUN_CE_IRQ :: .TUN_CE_MODE :: .TUN_CE_SCANOUT :: .TUN_CE_STATUS :: .TUN_CE_STRIDE :: recordRegs) (.arrived :: .cfg
    :: .cmds :: .efQueue :: .efuses :: .endpoints :: .engines :: .eqReported :: .lanes :: .perstReleased :: .ports :: .sbSeq :: .vports
    :: recordParts) d (Dev.writePort d lv k w v be) := by
  unfold Dev.writePort
  with_reducible repeat'
    first
      | intro x | assumption | apply Dev.Keeps.refl | apply Dev.Keeps.step Dev.resetBinding_keeps
      | apply Dev.Keeps.step Dev.setCfg_keeps | apply Dev.Keeps.step Dev.setIoWindow_keeps
      | apply Dev.Keeps.step Dev.setSecondary_keeps | apply Dev.Keeps.step Dev.writePortCap_keeps | apply Dev.Keeps.ite
      | apply Dev.Keeps.foldl | (show (_ : Bool) = _; decide +kernel) | (show _ ∈ _; decide +kernel) | (show _ < _; decide +kernel)
      | split | dsimp only

theorem Dev.writeFunction_keeps {d : Dev} {lv f w v be : Nat} : Dev.Keeps (.EBR_EVENTS :: .EBR_SIDEBAND :: .EF_STATUS :: .LNA_ALIGN ::
    .LNA_LANE_STATE :: .LNA_MRG_RESULT :: .LNA_RX_EQ :: .LNA_TRAIN_REF :: .LNA_TX_EQ :: .MBX_CH_STATUS :: .PRT_LTR :: .PRT_PORT_STATUS
    :: .PWR_CAGE_USED :: .TUN_CE_GEOM :: .TUN_CE_IRQ :: .TUN_CE_MODE :: .TUN_CE_SCANOUT :: .TUN_CE_STATUS :: .TUN_CE_STRIDE :: .VMF_BME
    :: .VMF_CAT_ADDR_HI :: .VMF_CAT_ADDR_LO :: .VMF_CAT_SIZE :: .VMF_CAT_WPTR :: .VMF_CPL_TMO :: .VMF_EVENT_MASK :: .VMF_SPC_ADDR_HI ::
    .VMF_SPC_ADDR_LO :: .VMF_SPC_SIZE :: .VMF_SPC_WPTR :: recordRegs) (.arrived :: .cats :: .cfg :: .chans :: .cmds :: .efQueue ::
    .efuses :: .endpoints :: .engines :: .eqReported :: .lanes :: .perstReleased :: .ports :: .samples :: .sbSeq :: .spcs :: .vmfs ::
    .vports :: recordParts) d (Dev.writeFunction d lv f w v be) := by
  unfold Dev.writeFunction
  with_reducible repeat'
    first
      | intro x | assumption | apply Dev.Keeps.refl | apply Dev.Keeps.step Dev.writePort_keeps
      | apply Dev.Keeps.step Dev.writeUpstream_keeps | apply Dev.Keeps.step Dev.writeVmf_keeps | apply Dev.Keeps.ite
      | apply Dev.Keeps.foldl | (show (_ : Bool) = _; decide +kernel) | (show _ ∈ _; decide +kernel) | (show _ < _; decide +kernel)
      | split | dsimp only

theorem Dev.readComponent_keeps {d : Dev} {lv w : Nat} : Dev.Keeps [] [.drawn] d (Dev.readComponent d lv w).2 := by
  unfold Dev.readComponent
  with_reducible repeat'
    first
      | intro x | assumption | apply Dev.Keeps.refl | apply Dev.Keeps.step Dev.draw_keeps | apply Dev.Keeps.ite
      | apply Dev.Keeps.foldl | (show (_ : Bool) = _; decide +kernel) | (show _ ∈ _; decide +kernel) | (show _ < _; decide +kernel)
      | split | refine Dev.Keeps.pair Dev.draw_keeps (by assumption) ?_ ?_ ?_ | dsimp only

theorem Dev.readFunction_keeps {d : Dev} {lv f w : Nat} : Dev.Keeps [] [.drawn] d (Dev.readFunction d lv f w).2 := by
  unfold Dev.readFunction
  with_reducible repeat'
    first
      | intro x | assumption | apply Dev.Keeps.refl | apply Dev.Keeps.step Dev.draw_keeps | apply Dev.Keeps.ite
      | apply Dev.Keeps.foldl | (show (_ : Bool) = _; decide +kernel) | (show _ ∈ _; decide +kernel) | (show _ < _; decide +kernel)
      | split | refine Dev.Keeps.pair Dev.draw_keeps (by assumption) ?_ ?_ ?_ | dsimp only

theorem Dev.writeComponent_keeps {d : Dev} {lv w v : Nat} : Dev.Keeps [] [.cfg, .vits] d (Dev.writeComponent d lv w v) := by
  unfold Dev.writeComponent
  with_reducible repeat'
    first
      | intro x | assumption | apply Dev.Keeps.refl | apply Dev.Keeps.step Dev.setCfg_keeps | apply Dev.Keeps.step Dev.setVit_keeps
      | apply Dev.Keeps.ite | apply Dev.Keeps.foldl | (show (_ : Bool) = _; decide +kernel) | (show _ ∈ _; decide +kernel)
      | (show _ < _; decide +kernel) | split | dsimp only

end Sys2Proof.Machine
end

