-- ==== Sys2Proof/Laws/KeepsTelemetry.lean ====
section
/-! SUPPORT. What each operation of Machine/Telemetry.lean may change: every register and structure outside the lists named stays as it was. -/

set_option Elab.async false
set_option linter.all false

namespace Sys2Proof.Machine

theorem Dev.setCat_keeps {d : Dev} {n : Nat} {c : CatStream} : Dev.Keeps [.TEL_CAT_WPTR, .VMF_CAT_WPTR] [.cats] d (Dev.setCat d n c) :=
    by
  unfold Dev.setCat
  with_reducible repeat'
    first
      | intro x | assumption | apply Dev.Keeps.refl | apply Dev.Keeps.put | apply Dev.Keeps.ite | apply Dev.Keeps.foldl
      | (show (_ : Bool) = _; decide +kernel) | (show _ ∈ _; decide +kernel) | (show _ < _; decide +kernel) | split
      | apply Dev.Keeps.set_cats | dsimp only

theorem Dev.skipCat_keeps {d : Dev} {n : Nat} : Dev.Keeps (.TEL_CAT_WPTR :: .TEL_EVENTS :: .VMF_CAT_WPTR :: recordRegs) (.cats ::
    recordParts) d (Dev.skipCat d n) := by
  unfold Dev.skipCat
  with_reducible repeat'
    first
      | intro x | assumption | apply Dev.Keeps.refl | apply Dev.Keeps.when | apply Dev.Keeps.step Dev.count_keeps
      | apply Dev.Keeps.step (Dev.raise_keeps ?_) | apply Dev.Keeps.step Dev.setCat_keeps | apply Dev.Keeps.ite
      | apply Dev.Keeps.foldl | (show (_ : Bool) = _; decide +kernel) | (show _ ∈ _; decide +kernel) | (show _ < _; decide +kernel)
      | split | dsimp only

theorem Dev.setSpc_keeps {d : Dev} {n : Nat} {c : SpcStream} : Dev.Keeps [.TEL_SPC_WPTR, .VMF_SPC_WPTR] [.spcs] d (Dev.setSpc d n c) :=
    by
  unfold Dev.setSpc
  with_reducible repeat'
    first
      | intro x | assumption | apply Dev.Keeps.refl | apply Dev.Keeps.put | apply Dev.Keeps.ite | apply Dev.Keeps.foldl
      | (show (_ : Bool) = _; decide +kernel) | (show _ ∈ _; decide +kernel) | (show _ < _; decide +kernel) | split
      | apply Dev.Keeps.set_spcs | dsimp only

theorem Dev.snapshot_keeps {d : Dev} {n ftime : Nat} {atStep : Bool} : Dev.Keeps (.TEL_CAT_WPTR :: .TEL_EVENTS :: .VMF_CAT_WPTR ::
    recordRegs) (.cats :: recordParts) d (Dev.snapshot d n ftime atStep) := by
  unfold Dev.snapshot
  with_reducible repeat'
    first
      | intro x | assumption | apply Dev.Keeps.refl | apply Dev.Keeps.step Dev.count_keeps | apply Dev.Keeps.step Dev.setCat_keeps
      | apply Dev.Keeps.step Dev.skipCat_keeps | apply Dev.Keeps.ite | apply Dev.Keeps.foldl | (show (_ : Bool) = _; decide +kernel)
      | (show _ ∈ _; decide +kernel) | (show _ < _; decide +kernel) | split | dsimp only

theorem Dev.takeInstant_keeps {d : Dev} {n : Nat} : Dev.Keeps (.TEL_CAT_WPTR :: .TEL_EVENTS :: .VMF_CAT_WPTR :: recordRegs) (.cats ::
    recordParts) d (Dev.takeInstant d n) := by
  unfold Dev.takeInstant
  with_reducible repeat'
    first
      | intro x | assumption | apply Dev.Keeps.refl | apply Dev.Keeps.step Dev.setCat_keeps | apply Dev.Keeps.step Dev.snapshot_keeps
      | apply Dev.Keeps.ite | apply Dev.Keeps.foldl | (show (_ : Bool) = _; decide +kernel) | (show _ ∈ _; decide +kernel)
      | (show _ < _; decide +kernel) | split | dsimp only

theorem Dev.sampleFor_keeps {d : Dev} {n : Nat} {t : Sampled} : Dev.Keeps [] [.samples, .spcs] d (Dev.sampleFor d n t) := by
  unfold Dev.sampleFor
  with_reducible repeat'
    first
      | intro x | assumption | apply Dev.Keeps.refl | apply Dev.Keeps.ite | apply Dev.Keeps.foldl
      | (show (_ : Bool) = _; decide +kernel) | (show _ ∈ _; decide +kernel) | (show _ < _; decide +kernel) | split
      | apply Dev.Keeps.set_spcs | apply Dev.Keeps.set_samples | dsimp only

theorem Dev.wroteSpecimen_keeps {d : Dev} {n : Nat} : Dev.Keeps [.TEL_SPC_WPTR, .VMF_EVENT_FLAGS, .VMF_INTX, .VMF_SPC_WPTR] [.ctrs,
    .out, .ringRecords, .spcs, .vits] d (Dev.wroteSpecimen d n) := by
  unfold Dev.wroteSpecimen
  with_reducible repeat'
    first
      | intro x | assumption | apply Dev.Keeps.refl | apply Dev.Keeps.when | apply Dev.Keeps.step Dev.count_keeps
      | apply Dev.Keeps.step Dev.setSpc_keeps | apply Dev.Keeps.step (Dev.vmfFlag_keeps ?_) | apply Dev.Keeps.ite
      | apply Dev.Keeps.foldl | (show (_ : Bool) = _; decide +kernel) | (show _ ∈ _; decide +kernel) | (show _ < _; decide +kernel)
      | split | apply Dev.Keeps.set_ringRecords | dsimp only

theorem Dev.vmfWrite_keeps {d : Dev} {lv addr : Nat} {bs : List Byte} : Dev.Keeps [] [.out] d (Dev.vmfWrite d lv addr bs) := by
  unfold Dev.vmfWrite
  with_reducible repeat'
    first
      | intro x | assumption | apply Dev.Keeps.refl | apply Dev.Keeps.step Dev.emit_keeps | apply Dev.Keeps.ite
      | apply Dev.Keeps.foldl | (show (_ : Bool) = _; decide +kernel) | (show _ ∈ _; decide +kernel) | (show _ < _; decide +kernel)
      | split | dsimp only

theorem Dev.clearSticky_keeps {d : Dev} {bank first n : Nat} : Dev.Keeps recordRegs recordParts d (Dev.clearSticky d bank first n) := by
  unfold Dev.clearSticky
  with_reducible repeat'
    first
      | intro x | assumption | apply Dev.Keeps.refl | apply Dev.Keeps.forEach | apply Dev.Keeps.step Dev.count_keeps
      | apply Dev.Keeps.step Dev.record_keeps | apply Dev.Keeps.ite | apply Dev.Keeps.foldl | (show (_ : Bool) = _; decide +kernel)
      | (show _ ∈ _; decide +kernel) | (show _ < _; decide +kernel) | split | apply Dev.Keeps.set_ctrs | dsimp only

theorem Dev.startCat_keeps {d : Dev} {n : Nat} {c : CatStream} : Dev.Keeps [.TEL_CAT_WPTR, .VMF_CAT_ADDR_HI, .VMF_CAT_ADDR_LO,
    .VMF_CAT_SIZE, .VMF_CAT_WPTR] [.cats, .ringRecords] d (Dev.startCat d n c) := by
  unfold Dev.startCat
  with_reducible repeat'
    first
      | intro x | assumption | apply Dev.Keeps.refl | apply Dev.Keeps.put64 | apply Dev.Keeps.put
      | apply Dev.Keeps.step Dev.setCat_keeps | apply Dev.Keeps.ite | apply Dev.Keeps.foldl | (show (_ : Bool) = _; decide +kernel)
      | (show _ ∈ _; decide +kernel) | (show _ < _; decide +kernel) | split | apply Dev.Keeps.set_ringRecords | dsimp only

end Sys2Proof.Machine
end

