-- ==== Sys2Proof/Laws/KeepsVitrines.lean ====
section
/-! SUPPORT. What each operation of Machine/Vitrines.lean may change: every register and structure outside the lists named stays as it was. -/

set_option Elab.async false
set_option linter.all false

namespace Sys2Proof.Machine

theorem Dev.withdrawThaw_keeps {d : Dev} {lv : Nat} : Dev.Keeps (.VIT_EVENTS :: recordRegs) (.arrived :: .cmds :: .endpoints ::
    recordParts) d (Dev.withdrawThaw d lv) := by
  unfold Dev.withdrawThaw
  with_reducible repeat'
    first
      | intro x | assumption | apply Dev.Keeps.refl | apply Dev.Keeps.forEach | apply Dev.Keeps.step Dev.endWaiting_keeps
      | apply Dev.Keeps.step (Dev.raise_keeps ?_) | apply Dev.Keeps.step Dev.setBound_keeps | apply Dev.Keeps.step Dev.setVit_keeps
      | apply Dev.Keeps.step Dev.tell_keeps | apply Dev.Keeps.ite | apply Dev.Keeps.foldl | (show (_ : Bool) = _; decide +kernel)
      | (show _ ∈ _; decide +kernel) | (show _ < _; decide +kernel) | split | dsimp only

theorem Dev.applyHeld_keeps {d : Dev} {lv : Nat} : Dev.Keeps (.ATT_CTL :: .ATT_EP_HI :: .ATT_EP_LO :: .ATT_FPID :: .ATT_HOST_HI ::
    .ATT_HOST_LO :: .BSN_Q_STATUS :: .DOC_CORE_STATUS :: .DOC_EVENTS :: .DOC_WSTORE_LOST :: .EBR_CRD_AVAIL :: .EBR_EVENTS :: .EBR_LOCK
    :: .EBR_PFLOG_HEAD :: .EBR_RAT_PFDISC_HI :: .EBR_RAT_PFDISC_LO :: .FLL_LINK_STATUS :: .FLL_REPLAY :: .LNA_ALIGN :: .LNA_LANE_STATE
    :: .LNA_MRG_RESULT :: .LNA_RX_EQ :: .LNA_TRAIN_REF :: .LNA_TX_EQ :: .MBX_CH_STATUS :: .PIN_CTL :: .PIN_OLD :: .PRT_PORT_STATUS ::
    .RTE_EVENTS :: .RTE_GRP_SLOT :: .SLC_CONT_ESEQ_HI :: .SLC_CONT_ESEQ_LO :: .SLC_CONT_STATE :: .TUN_CE_GEOM :: .TUN_CE_IRQ ::
    .TUN_CE_MODE :: .TUN_CE_SCANOUT :: .TUN_CE_STATUS :: .TUN_CE_STRIDE :: .VIT_STATE :: .VMF_BME :: .VMF_CAT_ADDR_HI ::
    .VMF_CAT_ADDR_LO :: .VMF_CAT_SIZE :: .VMF_CAT_WPTR :: .VMF_CPL_TMO :: .VMF_EVENT_MASK :: .VMF_SPC_ADDR_HI :: .VMF_SPC_ADDR_LO ::
    .VMF_SPC_SIZE :: .VMF_SPC_WPTR :: .WR_Q_DRR :: recordRegs) (.arrived :: .atts :: .cats :: .cellsFree :: .cfg :: .chans :: .cmds ::
    .cores :: .dwins :: .endpoints :: .engines :: .eqReported :: .heldTlps :: .lanes :: .links :: .lockSince :: .lockSrc :: .notices ::
    .outs :: .owesDetect :: .owesDrs :: .pausedLinks :: .pfLog :: .pfSeq :: .pins :: .ports :: .queues :: .samples :: .spcs :: .trk ::
    .vmfs :: .vports :: .winFetches :: .winReads :: .winStores :: .wins :: .withheld :: recordParts) d (Dev.applyHeld d lv) := by
  unfold Dev.applyHeld
  with_reducible repeat'
    first
      | intro x | assumption | apply Dev.Keeps.refl | apply Dev.Keeps.put | apply Dev.Keeps.when
      | apply Dev.Keeps.step Dev.contain_keeps | apply Dev.Keeps.step Dev.hotReset_keeps | apply Dev.Keeps.step Dev.setVit_keeps
      | apply Dev.Keeps.ite | apply Dev.Keeps.foldl | (show (_ : Bool) = _; decide +kernel) | (show _ ∈ _; decide +kernel)
      | (show _ < _; decide +kernel) | split | dsimp only

theorem Dev.thawHere_keeps {d : Dev} {lv : Nat} : Dev.Keeps (.ATT_CTL :: .ATT_EP_HI :: .ATT_EP_LO :: .ATT_FPID :: .ATT_HOST_HI ::
    .ATT_HOST_LO :: .BSN_Q_STATUS :: .DOC_CORE_STATUS :: .DOC_EVENTS :: .DOC_WSTORE_LOST :: .EBR_CRD_AVAIL :: .EBR_EVENTS :: .EBR_LOCK
    :: .EBR_PFLOG_HEAD :: .EBR_RAT_PFDISC_HI :: .EBR_RAT_PFDISC_LO :: .FLL_LINK_STATUS :: .FLL_REPLAY :: .LNA_ALIGN :: .LNA_LANE_STATE
    :: .LNA_MRG_RESULT :: .LNA_RX_EQ :: .LNA_TRAIN_REF :: .LNA_TX_EQ :: .MBX_CH_STATUS :: .PIN_CTL :: .PIN_OLD :: .PRT_PORT_STATUS ::
    .RTE_EVENTS :: .RTE_GRP_SLOT :: .SLC_CONT_ESEQ_HI :: .SLC_CONT_ESEQ_LO :: .SLC_CONT_STATE :: .TUN_CE_GEOM :: .TUN_CE_IRQ ::
    .TUN_CE_MODE :: .TUN_CE_SCANOUT :: .TUN_CE_STATUS :: .TUN_CE_STRIDE :: .VIT_STATE :: .VMF_BME :: .VMF_CAT_ADDR_HI ::
    .VMF_CAT_ADDR_LO :: .VMF_CAT_SIZE :: .VMF_CAT_WPTR :: .VMF_CPL_TMO :: .VMF_EVENT_MASK :: .VMF_SPC_ADDR_HI :: .VMF_SPC_ADDR_LO ::
    .VMF_SPC_SIZE :: .VMF_SPC_WPTR :: .WR_Q_DRR :: recordRegs) (.arrived :: .atts :: .cats :: .cellsFree :: .cfg :: .chans :: .cmds ::
    .cores :: .dwins :: .endpoints :: .engines :: .eqReported :: .heldTlps :: .lanes :: .links :: .lockSince :: .lockSrc :: .notices ::
    .outs :: .owesDetect :: .owesDrs :: .pausedLinks :: .pfLog :: .pfSeq :: .pins :: .ports :: .queues :: .samples :: .spcs :: .trk ::
    .vmfs :: .vports :: .winFetches :: .winReads :: .winStores :: .wins :: .withheld :: recordParts) d (Dev.thawHere d lv) := by
  unfold Dev.thawHere
  with_reducible repeat'
    first
      | intro x | assumption | apply Dev.Keeps.refl | apply Dev.Keeps.when | apply Dev.Keeps.forEach
      | apply Dev.Keeps.step Dev.applyHeld_keeps | apply Dev.Keeps.step Dev.endWaiting_keeps
      | apply Dev.Keeps.step Dev.retryHeld_keeps | apply Dev.Keeps.step Dev.setBound_keeps
      | apply Dev.Keeps.step Dev.setQueueState_keeps | apply Dev.Keeps.step Dev.setVit_keeps
      | apply Dev.Keeps.step Dev.setVitState_keeps | apply Dev.Keeps.step Dev.tell_keeps | apply Dev.Keeps.ite | apply Dev.Keeps.foldl
      | (show (_ : Bool) = _; decide +kernel) | (show _ ∈ _; decide +kernel) | (show _ < _; decide +kernel) | split | dsimp only

theorem Dev.switchUpstream_keeps {d : Dev} {lv : Nat} {sourceHeld : Bool} : Dev.Keeps (.ATT_CTL :: .ATT_EP_HI :: .ATT_EP_LO :: .ATT_FPID
    :: .ATT_HOST_HI :: .ATT_HOST_LO :: .BSN_Q_STATUS :: .EBR_CRD_AVAIL :: .EBR_LOCK :: .LNA_ALIGN :: .LNA_LANE_STATE :: .LNA_MRG_RESULT
    :: .LNA_RX_EQ :: .LNA_TRAIN_REF :: .LNA_TX_EQ :: .MBX_CH_STATUS :: .PRT_PORT_STATUS :: .SLC_CONT_STATE :: .TUN_CE_GEOM ::
    .TUN_CE_IRQ :: .TUN_CE_MODE :: .TUN_CE_SCANOUT :: .TUN_CE_STATUS :: .TUN_CE_STRIDE :: .VIT_STATE :: .VMF_BME :: .VMF_CAT_ADDR_HI ::
    .VMF_CAT_ADDR_LO :: .VMF_CAT_SIZE :: .VMF_CAT_WPTR :: .VMF_CPL_TMO :: .VMF_EVENT_MASK :: .VMF_SPC_ADDR_HI :: .VMF_SPC_ADDR_LO ::
    .VMF_SPC_SIZE :: .VMF_SPC_WPTR :: .WR_Q_DRR :: recordRegs) (.arrived :: .atts :: .cats :: .cellsFree :: .cfg :: .chans :: .cmds ::
    .dwins :: .endpoints :: .engines :: .eqReported :: .heldTlps :: .homes :: .lanes :: .lockSince :: .lockSrc :: .outs :: .owesDetect
    :: .owesDrs :: .ports :: .queues :: .samples :: .spcs :: .trk :: .vmfs :: .vports :: .wins :: .withheld :: recordParts) d
    (Dev.switchUpstream d lv sourceHeld) := by
  unfold Dev.switchUpstream
  with_reducible repeat'
    first
      | intro x | assumption | apply Dev.Keeps.refl | apply Dev.Keeps.when | apply Dev.Keeps.forEach
      | apply Dev.Keeps.step Dev.endWaiting_keeps | apply Dev.Keeps.step Dev.hotReset_keeps | apply Dev.Keeps.step Dev.present_keeps
      | apply Dev.Keeps.step Dev.retryHeld_keeps | apply Dev.Keeps.step Dev.setBound_keeps
      | apply Dev.Keeps.step Dev.setQueueState_keeps | apply Dev.Keeps.step Dev.setVit_keeps | apply Dev.Keeps.step Dev.tell_keeps
      | apply Dev.Keeps.ite | apply Dev.Keeps.foldl | (show (_ : Bool) = _; decide +kernel) | (show _ ∈ _; decide +kernel)
      | (show _ < _; decide +kernel) | split | apply Dev.Keeps.set_homes | apply Dev.Keeps.set_heldTlps | dsimp only

theorem Dev.thawCut_keeps {d : Dev} {lv : Nat} {sourceHeld : Bool} : Dev.Keeps (.ATT_CTL :: .ATT_EP_HI :: .ATT_EP_LO :: .ATT_FPID ::
    .ATT_HOST_HI :: .ATT_HOST_LO :: .BSN_Q_STATUS :: .DOC_CORE_STATUS :: .DOC_EVENTS :: .DOC_WSTORE_LOST :: .EBR_CRD_AVAIL ::
    .EBR_EVENTS :: .EBR_LOCK :: .EBR_PFLOG_HEAD :: .EBR_RAT_PFDISC_HI :: .EBR_RAT_PFDISC_LO :: .FLL_LINK_STATUS :: .FLL_REPLAY ::
    .LNA_ALIGN :: .LNA_LANE_STATE :: .LNA_MRG_RESULT :: .LNA_RX_EQ :: .LNA_TRAIN_REF :: .LNA_TX_EQ :: .MBX_CH_STATUS :: .PIN_CTL ::
    .PIN_OLD :: .PRT_PORT_STATUS :: .RTE_EVENTS :: .RTE_GRP_SLOT :: .SLC_CONT_ESEQ_HI :: .SLC_CONT_ESEQ_LO :: .SLC_CONT_STATE ::
    .TUN_CE_GEOM :: .TUN_CE_IRQ :: .TUN_CE_MODE :: .TUN_CE_SCANOUT :: .TUN_CE_STATUS :: .TUN_CE_STRIDE :: .VIT_EVENTS :: .VIT_STATE ::
    .VMF_BME :: .VMF_CAT_ADDR_HI :: .VMF_CAT_ADDR_LO :: .VMF_CAT_SIZE :: .VMF_CAT_WPTR :: .VMF_CPL_TMO :: .VMF_EVENT_MASK ::
    .VMF_SPC_ADDR_HI :: .VMF_SPC_ADDR_LO :: .VMF_SPC_SIZE :: .VMF_SPC_WPTR :: .WR_Q_DRR :: recordRegs) (.arrived :: .atts :: .cats ::
    .cellsFree :: .cfg :: .chans :: .cmds :: .cores :: .dwins :: .endpoints :: .engines :: .eqReported :: .heldTlps :: .homes :: .lanes
    :: .links :: .lockSince :: .lockSrc :: .notices :: .outs :: .owesDetect :: .owesDrs :: .pausedLinks :: .pfLog :: .pfSeq :: .pins ::
    .ports :: .queues :: .samples :: .spcs :: .trk :: .vmfs :: .vports :: .winFetches :: .winReads :: .winStores :: .wins :: .withheld
    :: recordParts) d (Dev.thawCut d lv sourceHeld) := by
  unfold Dev.thawCut
  with_reducible repeat'
    first
      | intro x | assumption | apply Dev.Keeps.refl | apply Dev.Keeps.step Dev.switchUpstream_keeps
      | apply Dev.Keeps.step Dev.thawHere_keeps | apply Dev.Keeps.step Dev.withdrawThaw_keeps | apply Dev.Keeps.ite
      | apply Dev.Keeps.foldl | (show (_ : Bool) = _; decide +kernel) | (show _ ∈ _; decide +kernel) | (show _ < _; decide +kernel)
      | split | dsimp only

theorem Dev.finishFreeze_keeps {d : Dev} {lv : Nat} : Dev.Keeps [.BSN_Q_STATUS, .PWR_WAKE, .VIT_STATE] [.cmds, .latched, .queues] d
    (Dev.finishFreeze d lv) := by
  unfold Dev.finishFreeze
  with_reducible repeat'
    first
      | intro x | assumption | apply Dev.Keeps.refl | apply Dev.Keeps.forEach | apply Dev.Keeps.step Dev.endWaiting_keeps
      | apply Dev.Keeps.step Dev.setQueueState_keeps | apply Dev.Keeps.step Dev.setVitState_keeps | apply Dev.Keeps.ite
      | apply Dev.Keeps.foldl | (show (_ : Bool) = _; decide +kernel) | (show _ ∈ _; decide +kernel) | (show _ < _; decide +kernel)
      | split | dsimp only

theorem Dev.freezeCut_keeps {d : Dev} {lv : Nat} : Dev.Keeps [.BSN_Q_STATUS, .PWR_WAKE, .VIT_STATE] [.cmds, .endpoints, .latched,
    .queues, .vits] d (Dev.freezeCut d lv) := by
  unfold Dev.freezeCut
  with_reducible repeat'
    first
      | intro x | assumption | apply Dev.Keeps.refl | apply Dev.Keeps.forEach | apply Dev.Keeps.step Dev.endWaiting_keeps
      | apply Dev.Keeps.step Dev.finishFreeze_keeps | apply Dev.Keeps.step Dev.setBound_keeps | apply Dev.Keeps.step Dev.setVit_keeps
      | apply Dev.Keeps.step Dev.setVitState_keeps | apply Dev.Keeps.ite | apply Dev.Keeps.foldl
      | (show (_ : Bool) = _; decide +kernel) | (show _ ∈ _; decide +kernel) | (show _ < _; decide +kernel) | split | dsimp only

theorem Dev.loadReg_keeps {d : Dev} {lv : Nat} {r : Nat × Nat} : Dev.Keeps savedVmfRegs [] d (d.loadReg lv r) := by
  unfold Dev.loadReg
  split
  · rename_i h
    refine ⟨fun f i hf hlo => ?_, fun p _ => by cases p <;> rfl⟩
    have hk : f.key i ≠ r.1 + 8192 * lv := by
      intro hc
      obtain ⟨q, hq, he⟩ := List.any_eq_true.1 h.2
      have h1 := f.reg.ctorIdx_lt
      have h2 := eq_of_beq he
      refine hf ?_
      have : f.reg.ctorIdx = q.ctorIdx := by
        unfold Fld.key Fld.code at hc
        omega
      rwa [Reg.ctorIdx_inj this]
    simp only [Dev.get, SMap.get]
    rw [SMap.find_insert_ne _ _ hk, SMap.find_erase_ne _ hk]
  · exact .refl _ _ _

theorem Dev.loadImage_keeps {d : Dev} {lv : Nat} {x : Image} : Dev.Keeps (.VMF_CPL_TMO :: .VMF_EVENT_MASK :: .WR_Q_CFG :: .WR_SHP_BURST
    :: .WR_SHP_RATE :: recordRegs) (.cfg :: .shapers :: .vmfs :: .vports :: recordParts) d (Dev.loadImage d lv x) := by
  unfold Dev.loadImage
  with_reducible repeat'
    first
      | intro x | assumption | apply Dev.Keeps.refl | apply Dev.Keeps.forEach | apply Dev.Keeps.put
      | apply Dev.Keeps.step Dev.commitShaper_keeps | apply Dev.Keeps.step Dev.loadReg_keeps | apply Dev.Keeps.step Dev.record_keeps
      | apply Dev.Keeps.step Dev.setVit_keeps | apply Dev.Keeps.step Dev.setVmf_keeps | apply Dev.Keeps.step Dev.setVport_keeps
      | apply Dev.Keeps.ite | apply Dev.Keeps.foldl | (show (_ : Bool) = _; decide +kernel) | (show _ ∈ _; decide +kernel)
      | (show _ < _; decide +kernel) | split | apply Dev.Keeps.set_ctrs | apply Dev.Keeps.set_cfg | dsimp only

theorem Dev.windowPair_keeps {d : Dev} {up ep gvh : Nat} {cls : Cls} : Dev.Keeps (.EBR_CRD_AUDIT :: .EBR_CRD_AVAIL :: .EBR_CRD_GRANT ::
    .PIN_CTL :: .PIN_DST :: .PIN_OLD :: .PIN_SRC :: .PIN_TCUT_HI :: .PIN_TCUT_LO :: .RTE_EVENTS :: recordRegs) (.arrived :: .dwins ::
    .limited :: .pins :: .wins :: recordParts) d (Dev.windowPair d up ep gvh cls).2 := by
  unfold Dev.windowPair
  with_reducible repeat'
    first
      | intro x | assumption | apply Dev.Keeps.refl | apply Dev.Keeps.step Dev.makeWindow_keeps | apply Dev.Keeps.ite
      | apply Dev.Keeps.foldl | (show (_ : Bool) = _; decide +kernel) | (show _ ∈ _; decide +kernel) | (show _ < _; decide +kernel)
      | split | refine Dev.Keeps.pair Dev.makeWindow_keeps (by assumption) ?_ ?_ ?_ | dsimp only

theorem Dev.restoreBinding_keeps {d e : Dev} {lv : Nat} {b : SavedBinding} (he : d.restoreBinding lv b = .inr e) :
    Dev.Keeps (.ATT_CTL :: .ATT_EP_HI :: .ATT_EP_LO :: .ATT_FPID :: .ATT_HOST_HI :: .ATT_HOST_LO :: .EBR_CRD_AUDIT :: .EBR_CRD_AVAIL ::
        .EBR_CRD_GRANT :: .PIN_CTL :: .PIN_DST :: .PIN_OLD :: .PIN_SRC :: .PIN_TCUT_HI :: .PIN_TCUT_LO :: .RTE_EVENTS :: .TRK_CPL_RSV ::
        .TRK_FREE :: recordRegs) (.arrived :: .atts :: .dwins :: .limited :: .pins :: .wins :: recordParts) d e := by
  unfold Dev.restoreBinding at he
  simp only at he
  split at he
  · cases he
  · split at he
    · cases he
    · split at he
      · cases he
      · cases he
        refine .step Dev.setVit_keeps (by decide +kernel) (by decide +kernel) (.forEach ?_ fun _ _ h =>
          .step Dev.setAtt_keeps (by decide +kernel) (by decide +kernel) h)
        exact .step Dev.takeAtts_keeps (by decide +kernel) (by decide +kernel)
          (.step Dev.windowPair_keeps (by decide +kernel) (by decide +kernel) Dev.reserve_keeps.widen)

theorem Dev.divide_keeps {d : Dev} {lv gvh p st : Nat} {x : VitrineSetting} : Dev.Keeps [.BSN_Q_CFG, .BSN_RESERVED, .BSN_SHARED_SIZE,
    .PWR_WAKE, .TRK_FREE, .TRK_VIT_QUOTA, .VIT_PORT, .VIT_STATE, .VMF_GVH, .VMF_ID] [.latched, .slots, .vits] d (d.divide lv gvh p st x)
    := by
  unfold Dev.divide
  refine .step Dev.setVitState_keeps (by decide +kernel) (by decide +kernel) (.put _ _ _ (by decide) (by decide)
    (.put _ _ _ (by decide) (by decide) (.put _ _ _ (by decide) (by decide)
      (.step Dev.addMinimum_keeps (by decide +kernel) (by decide +kernel) ?_))))
  have h : ∀ e, Dev.Keeps [.BSN_Q_CFG, .BSN_RESERVED, .BSN_SHARED_SIZE, .PWR_WAKE, .TRK_FREE, .TRK_VIT_QUOTA, .VIT_PORT, .VIT_STATE,
      .VMF_GVH, .VMF_ID] [.latched, .slots, .vits] d e → Dev.Keeps [.BSN_Q_CFG, .BSN_RESERVED, .BSN_SHARED_SIZE, .PWR_WAKE, .TRK_FREE,
      .TRK_VIT_QUOTA, .VIT_PORT, .VIT_STATE, .VMF_GVH, .VMF_ID] [.latched, .slots, .vits] d ((e.takeSlot p gvh).getD e) := by
    intro e he
    cases hs : e.takeSlot p gvh with
    | none => exact he
    | some x => exact .step (Dev.takeSlot_keeps hs) (by decide +kernel) (by decide +kernel) he
  exact h _ (.put _ _ _ (by decide) (by decide) (.put _ _ _ (by decide) (by decide) (.put _ _ _ (by decide) (by decide)
    (.put _ _ _ (by decide) (by decide) (.put _ _ _ (by decide) (by decide)
      (.step Dev.setVit_keeps (by decide +kernel) (by decide +kernel) (.refl _ _ _)))))))

theorem Dev.createVitrine_keeps {d : Dev} {h : CmdHdr} {p : Nat} {x : VitrineSetting} : Dev.Keeps (.BSN_EVENTS :: .BSN_Q_CFG ::
    .BSN_RESERVED :: .BSN_SHARED_SIZE :: .LNA_ALIGN :: .LNA_LANE_STATE :: .LNA_MRG_RESULT :: .LNA_RX_EQ :: .LNA_TRAIN_REF :: .LNA_TX_EQ
    :: .PRT_PORT_STATUS :: .TRK_FREE :: .TRK_VIT_QUOTA :: .VIT_PORT :: .VIT_STATE :: .VMF_GVH :: .VMF_ID :: recordRegs) (.cmds ::
    .eqReported :: .homes :: .lanes :: .owesDetect :: .owesDrs :: .ports :: .slots :: recordParts) d (Dev.createVitrine d h p x) := by
  unfold Dev.createVitrine
  with_reducible repeat'
    first
      | intro x | assumption | apply Dev.Keeps.refl | apply Dev.Keeps.when | apply Dev.Keeps.step Dev.divide_keeps
      | apply Dev.Keeps.step Dev.finish_keeps | apply Dev.Keeps.step Dev.present_keeps | apply Dev.Keeps.step (Dev.raise_keeps ?_)
      | apply Dev.Keeps.step Dev.zeroBank_keeps | apply Dev.Keeps.ite | apply Dev.Keeps.foldl | (show (_ : Bool) = _; decide +kernel)
      | (show _ ∈ _; decide +kernel) | (show _ < _; decide +kernel) | split | apply Dev.Keeps.set_homes | dsimp only

theorem Dev.finishDestroy_keeps {d : Dev} {lv : Nat} : Dev.Keeps (.ATT_CTL :: .ATT_EP_HI :: .ATT_EP_LO :: .ATT_FPID :: .ATT_HOST_HI ::
    .ATT_HOST_LO :: .BSN_Q_CFG :: .BSN_Q_STATUS :: .BSN_RESERVED :: .BSN_SHARED_SIZE :: .EBR_CRD_AVAIL :: .EBR_CRD_GRANT :: .EBR_LOCK ::
    .EBR_PFLOG_HEAD :: .EBR_RAT_PFDISC_HI :: .EBR_RAT_PFDISC_LO :: .MBX_CH_STATUS :: .PIN_CTL :: .PIN_DST :: .PIN_OLD :: .PIN_SRC ::
    .PIN_TCUT_HI :: .PIN_TCUT_LO :: .SLC_CONT_STATE :: .TRK_CPL_RSV :: .TRK_FREE :: .TRK_VIT_QUOTA :: .TUN_CE_GEOM :: .TUN_CE_IRQ ::
    .TUN_CE_MODE :: .TUN_CE_SCANOUT :: .TUN_CE_STATUS :: .TUN_CE_STRIDE :: .VIT_EVENTS :: .VIT_PORT :: .VIT_STATE :: .VMF_BME ::
    .VMF_CAT_ADDR_HI :: .VMF_CAT_ADDR_LO :: .VMF_CAT_SIZE :: .VMF_CAT_WPTR :: .VMF_CPL_TMO :: .VMF_EVENT_MASK :: .VMF_GVH :: .VMF_ID ::
    .VMF_SPC_ADDR_HI :: .VMF_SPC_ADDR_LO :: .VMF_SPC_SIZE :: .VMF_SPC_WPTR :: .VMF_VERSION :: .WR_Q_DRR :: recordRegs) (.arrived ::
    .atts :: .cats :: .cellsFree :: .cfg :: .chans :: .cmds :: .cores :: .dwins :: .endpoints :: .engines :: .homes :: .lockSince ::
    .lockSrc :: .outs :: .owesDetect :: .pfLog :: .pfSeq :: .pins :: .queues :: .samples :: .slots :: .spcs :: .trk :: .vmfs :: .vports
    :: .winFetches :: .winReads :: .wins :: recordParts) d (Dev.finishDestroy d lv) := by
  unfold Dev.finishDestroy
  with_reducible repeat'
    first
      | intro x | assumption | apply Dev.Keeps.refl | apply Dev.Keeps.forEach | apply Dev.Keeps.step Dev.endWaiting_keeps
      | apply Dev.Keeps.step Dev.finishUnbind_keeps | apply Dev.Keeps.step Dev.releaseVitrine_keeps | apply Dev.Keeps.ite
      | apply Dev.Keeps.foldl | (show (_ : Bool) = _; decide +kernel) | (show _ ∈ _; decide +kernel) | (show _ < _; decide +kernel)
      | split | dsimp only

theorem Dev.endFlow_keeps {d : Dev} {lv : Nat} : Dev.Keeps (.ATT_CTL :: .ATT_EP_HI :: .ATT_EP_LO :: .ATT_FPID :: .ATT_HOST_HI ::
    .ATT_HOST_LO :: .BSN_Q_CFG :: .BSN_Q_STATUS :: .BSN_RESERVED :: .BSN_SHARED_SIZE :: .EBR_CRD_AVAIL :: .EBR_CRD_GRANT :: .EBR_LOCK ::
    .EBR_PFLOG_HEAD :: .EBR_RAT_PFDISC_HI :: .EBR_RAT_PFDISC_LO :: .LNA_ALIGN :: .LNA_LANE_STATE :: .LNA_MRG_RESULT :: .LNA_RX_EQ ::
    .LNA_TRAIN_REF :: .LNA_TX_EQ :: .MBX_CH_STATUS :: .PIN_CTL :: .PIN_DST :: .PIN_OLD :: .PIN_SRC :: .PIN_TCUT_HI :: .PIN_TCUT_LO ::
    .PRT_PORT_STATUS :: .SLC_CONT_STATE :: .TRK_CPL_RSV :: .TRK_FREE :: .TRK_VIT_QUOTA :: .TUN_CE_GEOM :: .TUN_CE_IRQ :: .TUN_CE_MODE ::
    .TUN_CE_SCANOUT :: .TUN_CE_STATUS :: .TUN_CE_STRIDE :: .VIT_EVENTS :: .VIT_PORT :: .VIT_STATE :: .VMF_BME :: .VMF_CAT_ADDR_HI ::
    .VMF_CAT_ADDR_LO :: .VMF_CAT_SIZE :: .VMF_CAT_WPTR :: .VMF_CPL_TMO :: .VMF_EVENT_MASK :: .VMF_GVH :: .VMF_ID :: .VMF_SPC_ADDR_HI ::
    .VMF_SPC_ADDR_LO :: .VMF_SPC_SIZE :: .VMF_SPC_WPTR :: .VMF_VERSION :: .WR_Q_DRR :: recordRegs) (.arrived :: .atts :: .cats ::
    .cellsFree :: .cfg :: .chans :: .cmds :: .cores :: .dwins :: .endpoints :: .engines :: .eqReported :: .homes :: .lanes :: .lockSince
    :: .lockSrc :: .outs :: .owesDetect :: .owesDrs :: .pfLog :: .pfSeq :: .pins :: .ports :: .queues :: .samples :: .slots :: .spcs ::
    .trk :: .vmfs :: .vports :: .winFetches :: .winReads :: .wins :: recordParts) d (Dev.endFlow d lv) := by
  unfold Dev.endFlow
  with_reducible repeat'
    first
      | intro x | assumption | apply Dev.Keeps.refl | apply Dev.Keeps.step Dev.finishDestroy_keeps
      | apply Dev.Keeps.step Dev.finishReset_keeps | apply Dev.Keeps.ite | apply Dev.Keeps.foldl
      | (show (_ : Bool) = _; decide +kernel) | (show _ ∈ _; decide +kernel) | (show _ < _; decide +kernel) | split | dsimp only

theorem Dev.bindSteps_keeps {d e : Dev} {lv : Nat} {b : Binding} {spl : Nat × Nat} {bars : List (Nat × Nat)}
    (he : d.bindSteps lv b spl bars = .inr e) :
    Dev.Keeps (.ATT_CTL :: .ATT_EP_HI :: .ATT_EP_LO :: .ATT_FPID :: .ATT_HOST_HI :: .ATT_HOST_LO :: .EBR_CRD_AUDIT :: .EBR_CRD_AVAIL ::
        .EBR_CRD_GRANT :: .PIN_CTL :: .PIN_DST :: .PIN_OLD :: .PIN_SRC :: .PIN_TCUT_HI :: .PIN_TCUT_LO :: .RTE_EVENTS :: .TRK_CPL_RSV ::
        .TRK_FREE :: recordRegs) (.arrived :: .atts :: .dwins :: .endpoints :: .limited :: .pins :: .slots :: .vports :: .wins ::
        recordParts) d e := by
  unfold Dev.bindSteps at he
  simp only at he
  split at he
  · cases he
  · rename_i d1 h1
    have k1 : Dev.Keeps (.ATT_CTL :: .ATT_EP_HI :: .ATT_EP_LO :: .ATT_FPID :: .ATT_HOST_HI :: .ATT_HOST_LO :: .EBR_CRD_AUDIT ::
        .EBR_CRD_AVAIL :: .EBR_CRD_GRANT :: .PIN_CTL :: .PIN_DST :: .PIN_OLD :: .PIN_SRC :: .PIN_TCUT_HI :: .PIN_TCUT_LO :: .RTE_EVENTS
        :: .TRK_CPL_RSV :: .TRK_FREE :: recordRegs) (.arrived :: .atts :: .dwins :: .endpoints :: .limited :: .pins :: .slots :: .vports
        :: .wins :: recordParts) d d1 := by
      split at h1
      · exact (Dev.takeSlot_keeps h1).widen
      · cases h1
        exact .refl _ _ _
    split at he
    · cases he
    · have k2 := Dev.Keeps.step (@Dev.windowPair_keeps (d1.reserve (d1.shareNeed b.fpid b.share)) (d.upFpid lv) b.fpid (d.gvh lv) b.cls)
        (by decide +kernel) (by decide +kernel) (.step Dev.reserve_keeps (by decide +kernel) (by decide +kernel) k1)
      split at he
      · cases he
      · split at he
        · cases he
        · cases he
          refine .when ?_ fun _ h => .step Dev.slotPresent_keeps (by decide +kernel) (by decide +kernel) h
          refine .step Dev.setVport_keeps (by decide +kernel) (by decide +kernel) ?_
          have k3 : ∀ f, Dev.Keeps (.ATT_CTL :: .ATT_EP_HI :: .ATT_EP_LO :: .ATT_FPID :: .ATT_HOST_HI :: .ATT_HOST_LO :: .EBR_CRD_AUDIT
              :: .EBR_CRD_AVAIL :: .EBR_CRD_GRANT :: .PIN_CTL :: .PIN_DST :: .PIN_OLD :: .PIN_SRC :: .PIN_TCUT_HI :: .PIN_TCUT_LO ::
              .RTE_EVENTS :: .TRK_CPL_RSV :: .TRK_FREE :: recordRegs) (.arrived :: .atts :: .dwins :: .endpoints :: .limited :: .pins ::
              .slots :: .vports :: .wins :: recordParts) d (Dev.setVit _ lv f) := fun f =>
            .step Dev.setVit_keeps (by decide +kernel) (by decide +kernel)
              (.step (@Dev.takeAtts_keeps _ lv b.fpid bars) (by decide +kernel) (by decide +kernel) k2)
          exact .ite (.step Dev.setEndpoint_keeps (by decide +kernel) (by decide +kernel) (k3 _))
            (.step Dev.tell_keeps (by decide +kernel) (by decide +kernel) (k3 _))

theorem Dev.restoreBindings_keeps {d e : Dev} {lv : Nat} {bs : List SavedBinding} (he : d.restoreBindings lv bs = .inr e) :
    Dev.Keeps (.ATT_CTL :: .ATT_EP_HI :: .ATT_EP_LO :: .ATT_FPID :: .ATT_HOST_HI :: .ATT_HOST_LO :: .EBR_CRD_AUDIT :: .EBR_CRD_AVAIL ::
        .EBR_CRD_GRANT :: .PIN_CTL :: .PIN_DST :: .PIN_OLD :: .PIN_SRC :: .PIN_TCUT_HI :: .PIN_TCUT_LO :: .RTE_EVENTS :: .TRK_CPL_RSV ::
        .TRK_FREE :: recordRegs) (.arrived :: .atts :: .dwins :: .limited :: .pins :: .wins :: recordParts) d e := by
  induction bs generalizing d with
  | nil =>
    cases he
    exact .refl _ _ _
  | cons b r ih =>
    unfold Dev.restoreBindings at he
    split at he
    · cases he
    · rename_i d1 h1
      exact (ih he).step' (Dev.restoreBinding_keeps h1).widen

theorem Dev.bindEndpoint_keeps {d : Dev} {h : CmdHdr} {lv fpid ld k cls share : Nat} {far : RemoteEp} : Dev.Keeps (.ATT_CTL ::
    .ATT_EP_HI :: .ATT_EP_LO :: .ATT_FPID :: .ATT_HOST_HI :: .ATT_HOST_LO :: .EBR_CRD_AUDIT :: .EBR_CRD_AVAIL :: .EBR_CRD_GRANT ::
    .PIN_CTL :: .PIN_DST :: .PIN_OLD :: .PIN_SRC :: .PIN_TCUT_HI :: .PIN_TCUT_LO :: .RTE_EVENTS :: .TRK_CPL_RSV :: .TRK_FREE ::
    recordRegs) (.arrived :: .atts :: .cmds :: .dwins :: .endpoints :: .limited :: .pins :: .slots :: .vports :: .wins :: recordParts) d
    (Dev.bindEndpoint d h lv fpid ld k cls share far) := by
  unfold Dev.bindEndpoint
  with_reducible repeat'
    first
      | intro x | assumption | apply Dev.Keeps.refl | apply Dev.Keeps.step Dev.badParam_keeps | apply Dev.Keeps.step Dev.finish_keeps
      | apply Dev.Keeps.ite | apply Dev.Keeps.foldl | (show (_ : Bool) = _; decide +kernel) | (show _ ∈ _; decide +kernel)
      | (show _ < _; decide +kernel) | split | refine Dev.Keeps.step (Dev.bindSteps_keeps (by assumption)) ?_ ?_ ?_ | dsimp only

theorem Dev.restoreVitrine_keeps {d : Dev} {h : CmdHdr} {g p lvid : Nat} {image : Option Image} : Dev.Keeps (.ATT_CTL :: .ATT_EP_HI ::
    .ATT_EP_LO :: .ATT_FPID :: .ATT_HOST_HI :: .ATT_HOST_LO :: .BSN_EVENTS :: .BSN_Q_CFG :: .BSN_RESERVED :: .BSN_SHARED_SIZE ::
    .EBR_CRD_AUDIT :: .EBR_CRD_AVAIL :: .EBR_CRD_GRANT :: .PIN_CTL :: .PIN_DST :: .PIN_OLD :: .PIN_SRC :: .PIN_TCUT_HI :: .PIN_TCUT_LO
    :: .RTE_EVENTS :: .TRK_CPL_RSV :: .TRK_FREE :: .TRK_VIT_QUOTA :: .VIT_EVENTS :: .VIT_PORT :: .VIT_STATE :: .VMF_CPL_TMO ::
    .VMF_EVENT_MASK :: .VMF_GVH :: .VMF_ID :: .WR_Q_CFG :: .WR_SHP_BURST :: .WR_SHP_RATE :: recordRegs) (.arrived :: .atts :: .cfg ::
    .cmds :: .dwins :: .limited :: .pins :: .shapers :: .slots :: .vmfs :: .vports :: .wins :: recordParts) d (Dev.restoreVitrine d h g
    p lvid image) := by
  unfold Dev.restoreVitrine
  with_reducible repeat'
    first
      | intro x | assumption | apply Dev.Keeps.refl | apply Dev.Keeps.when | apply Dev.Keeps.step Dev.badParam_keeps
      | apply Dev.Keeps.step Dev.divide_keeps | apply Dev.Keeps.step Dev.finish_keeps | apply Dev.Keeps.step Dev.loadImage_keeps
      | apply Dev.Keeps.step (Dev.raise_keeps ?_) | apply Dev.Keeps.ite | apply Dev.Keeps.foldl
      | (show (_ : Bool) = _; decide +kernel) | (show _ ∈ _; decide +kernel) | (show _ < _; decide +kernel) | split
      | refine Dev.Keeps.step (Dev.restoreBindings_keeps (by assumption)) ?_ ?_ ?_ | dsimp only

theorem Dev.startDestroy_keeps {d : Dev} {lv : Nat} : Dev.Keeps (.ATT_CTL :: .ATT_EP_HI :: .ATT_EP_LO :: .ATT_FPID :: .ATT_HOST_HI ::
    .ATT_HOST_LO :: .BSN_Q_CFG :: .BSN_Q_STATUS :: .BSN_RESERVED :: .BSN_SHARED_SIZE :: .EBR_CRD_AVAIL :: .EBR_CRD_GRANT :: .EBR_LOCK ::
    .EBR_PFLOG_HEAD :: .EBR_RAT_PFDISC_HI :: .EBR_RAT_PFDISC_LO :: .MBX_CH_STATUS :: .PIN_CTL :: .PIN_DST :: .PIN_OLD :: .PIN_SRC ::
    .PIN_TCUT_HI :: .PIN_TCUT_LO :: .SLC_CONT_STATE :: .TRK_CPL_RSV :: .TRK_FREE :: .TRK_VIT_QUOTA :: .TUN_CE_GEOM :: .TUN_CE_IRQ ::
    .TUN_CE_MODE :: .TUN_CE_SCANOUT :: .TUN_CE_STATUS :: .TUN_CE_STRIDE :: .VIT_EVENTS :: .VIT_PORT :: .VIT_STATE :: .VMF_BME ::
    .VMF_CAT_ADDR_HI :: .VMF_CAT_ADDR_LO :: .VMF_CAT_SIZE :: .VMF_CAT_WPTR :: .VMF_CPL_TMO :: .VMF_EVENT_MASK :: .VMF_GVH :: .VMF_ID ::
    .VMF_SPC_ADDR_HI :: .VMF_SPC_ADDR_LO :: .VMF_SPC_SIZE :: .VMF_SPC_WPTR :: .VMF_VERSION :: .WR_Q_DRR :: recordRegs) (.arrived ::
    .atts :: .cats :: .cellsFree :: .cfg :: .chans :: .cmds :: .cores :: .dwins :: .endpoints :: .engines :: .heldTlps :: .homes ::
    .lockSince :: .lockSrc :: .outs :: .owesDetect :: .pfLog :: .pfSeq :: .pins :: .queues :: .samples :: .slots :: .spcs :: .trk ::
    .vmfs :: .vports :: .winFetches :: .winReads :: .wins :: recordParts) d (Dev.startDestroy d lv) := by
  unfold Dev.startDestroy
  with_reducible repeat'
    first
      | intro x | assumption | apply Dev.Keeps.refl | apply Dev.Keeps.forEach | apply Dev.Keeps.step Dev.dropHeld_keeps
      | apply Dev.Keeps.step Dev.endWaiting_keeps | apply Dev.Keeps.step Dev.finishDestroy_keeps
      | apply Dev.Keeps.step Dev.setVit_keeps | apply Dev.Keeps.step Dev.setVitState_keeps
      | apply Dev.Keeps.step Dev.squashAndDrain_keeps | apply Dev.Keeps.step Dev.startUnbind_keeps | apply Dev.Keeps.ite
      | apply Dev.Keeps.foldl | (show (_ : Bool) = _; decide +kernel) | (show _ ∈ _; decide +kernel) | (show _ < _; decide +kernel)
      | split | dsimp only

end Sys2Proof.Machine
end

