-- ==== Sys2Proof/Laws/KeepsTime.lean ====
section
/-! SUPPORT. What each operation of Machine/Time.lean may change: every register and structure outside the lists named stays as it was. -/

set_option Elab.async false
set_option linter.all false

namespace Sys2Proof.Machine

theorem Dev.resyncsDue_keeps {d : Dev} : Dev.Keeps [] [.arrived, .dwins] d (Dev.resyncsDue d) := by
  unfold Dev.resyncsDue
  with_reducible repeat'
    first
      | intro x | assumption | apply Dev.Keeps.refl | apply Dev.Keeps.forEach | apply Dev.Keeps.step Dev.answerResync_keeps
      | apply Dev.Keeps.ite | apply Dev.Keeps.foldl | (show (_ : Bool) = _; decide +kernel) | (show _ ∈ _; decide +kernel)
      | (show _ < _; decide +kernel) | split | dsimp only

theorem Dev.timers_keeps {d : Dev} : Dev.Keeps [.DOC_CORE_STATUS] [.cores] d (Dev.timers d) := by
  unfold Dev.timers
  with_reducible repeat'
    first
      | intro x | assumption | apply Dev.Keeps.refl | apply Dev.Keeps.when | apply Dev.Keeps.forEach | apply Dev.Keeps.put
      | apply Dev.Keeps.ite | apply Dev.Keeps.foldl | (show (_ : Bool) = _; decide +kernel) | (show _ ∈ _; decide +kernel)
      | (show _ < _; decide +kernel) | split | apply Dev.Keeps.set_cores | dsimp only

theorem Dev.tick_keeps {d : Dev} : Dev.Keeps [.DOC_CORE_STATUS] [.arrived, .cores, .dwins, .now, .out, .time, .weir] d (Dev.tick d) :=
    by
  unfold Dev.tick
  with_reducible repeat'
    first
      | intro x | assumption | apply Dev.Keeps.refl | apply Dev.Keeps.when | apply Dev.Keeps.step Dev.emit_keeps
      | apply Dev.Keeps.step Dev.resyncsDue_keeps | apply Dev.Keeps.step Dev.timers_keeps | apply Dev.Keeps.ite
      | apply Dev.Keeps.foldl | (show (_ : Bool) = _; decide +kernel) | (show _ ∈ _; decide +kernel) | (show _ < _; decide +kernel)
      | split | apply Dev.Keeps.set_now_time | apply Dev.Keeps.set_time | apply Dev.Keeps.set_weir | dsimp only

theorem Dev.act_keeps {d : Dev} {a : TimedAction} : Dev.Keeps (.ATT_CTL :: .ATT_EP_HI :: .ATT_EP_LO :: .ATT_FPID :: .ATT_HOST_HI ::
    .ATT_HOST_LO :: .BSN_Q_STATUS :: .DOC_CORE_STATUS :: .DOC_EVENTS :: .DOC_WSTORE_LOST :: .EBR_CRD_AVAIL :: .EBR_EVENTS :: .EBR_LOCK
    :: .EBR_PFLOG_HEAD :: .EBR_RAT_PFDISC_HI :: .EBR_RAT_PFDISC_LO :: .FLL_LINK_STATUS :: .FLL_REPLAY :: .LNA_ALIGN :: .LNA_LANE_STATE
    :: .LNA_MRG_RESULT :: .LNA_RX_EQ :: .LNA_TRAIN_REF :: .LNA_TX_EQ :: .MBX_CH_STATUS :: .PIN_CTL :: .PIN_DST :: .PIN_OLD :: .PIN_SRC
    :: .PIN_TCUT_HI :: .PIN_TCUT_LO :: .PRT_PORT_STATUS :: .RTE_EVENTS :: .RTE_GRP_SLOT :: .SLC_CONT_ESEQ_HI :: .SLC_CONT_ESEQ_LO ::
    .SLC_CONT_STATE :: .TEL_CAT_WPTR :: .TEL_EVENTS :: .TUN_CE_GEOM :: .TUN_CE_IRQ :: .TUN_CE_MODE :: .TUN_CE_SCANOUT :: .TUN_CE_STATUS
    :: .TUN_CE_STRIDE :: .VIT_EVENTS :: .VIT_STATE :: .VMF_BME :: .VMF_CAT_ADDR_HI :: .VMF_CAT_ADDR_LO :: .VMF_CAT_SIZE :: .VMF_CAT_WPTR
    :: .VMF_CPL_TMO :: .VMF_EVENT_MASK :: .VMF_SPC_ADDR_HI :: .VMF_SPC_ADDR_LO :: .VMF_SPC_SIZE :: .VMF_SPC_WPTR :: .WR_GATE_STAT ::
    .WR_GATE_STATUS :: .WR_PORT_EVENTS :: .WR_PORT_GUARD :: .WR_Q_DRR :: recordRegs) (.arrived :: .atts :: .cats :: .cellsFree :: .cfg
    :: .chans :: .cmds :: .cores :: .dwins :: .endpoints :: .engines :: .eqReported :: .heldTlps :: .homes :: .lanes :: .limited ::
    .links :: .lockSince :: .lockSrc :: .notices :: .outs :: .owesDetect :: .owesDrs :: .pausedLinks :: .pfLog :: .pfSeq :: .pins ::
    .ports :: .queues :: .samples :: .spcs :: .trk :: .vmfs :: .vports :: .winFetches :: .winReads :: .winStores :: .wins :: .withheld
    :: recordParts) d (Dev.act d a) := by
  unfold Dev.act
  with_reducible repeat'
    first
      | intro x | assumption | apply Dev.Keeps.refl | apply Dev.Keeps.step Dev.activatePins_keeps
      | apply Dev.Keeps.step Dev.freezeCut_keeps | apply Dev.Keeps.step Dev.gateBoundary_keeps
      | apply Dev.Keeps.step Dev.gateStart_keeps | apply Dev.Keeps.step Dev.takeInstant_keeps | apply Dev.Keeps.step Dev.thawCut_keeps
      | apply Dev.Keeps.ite | apply Dev.Keeps.foldl | (show (_ : Bool) = _; decide +kernel) | (show _ ∈ _; decide +kernel)
      | (show _ < _; decide +kernel) | split | dsimp only

theorem Dev.timeEvent_keeps {d : Dev} {f : Fld} {ticks : Int} (hlo : f.lo < 32) :
    Dev.Keeps (f.reg :: recordRegs) recordParts d (d.timeEvent f ticks) := Dev.raise_keeps hlo

theorem Dev.showRoot_keeps {d : Dev} {cls prio modul : Nat} : Dev.Keeps (.TIM_EVENTS :: .TIM_ROOT :: recordRegs) recordParts d
    (Dev.showRoot d cls prio modul) := by
  unfold Dev.showRoot
  with_reducible repeat'
    first
      | intro x | assumption | apply Dev.Keeps.refl | apply Dev.Keeps.put | apply Dev.Keeps.step Dev.count_keeps
      | apply Dev.Keeps.step (Dev.timeEvent_keeps ?_) | apply Dev.Keeps.ite | apply Dev.Keeps.foldl
      | (show (_ : Bool) = _; decide +kernel) | (show _ ∈ _; decide +kernel) | (show _ < _; decide +kernel) | split | dsimp only

theorem Dev.setTimeState_keeps {d : Dev} {st : Nat} {ticks : Int} : Dev.Keeps (.TIM_EVENTS :: .TIM_STATE :: recordRegs) recordParts d
    (Dev.setTimeState d st ticks) := by
  unfold Dev.setTimeState
  with_reducible repeat'
    first
      | intro x | assumption | apply Dev.Keeps.refl | apply Dev.Keeps.put | apply Dev.Keeps.step Dev.count_keeps
      | apply Dev.Keeps.step (Dev.timeEvent_keeps ?_) | apply Dev.Keeps.ite | apply Dev.Keeps.foldl
      | (show (_ : Bool) = _; decide +kernel) | (show _ ∈ _; decide +kernel) | (show _ < _; decide +kernel) | split | dsimp only

theorem Dev.beRoot_keeps {d : Dev} : Dev.Keeps (.TIM_ERR_EST :: .TIM_EVENTS :: .TIM_ROOT :: .TIM_STATE :: recordRegs) (.time ::
    recordParts) d (Dev.beRoot d) := by
  unfold Dev.beRoot
  with_reducible repeat'
    first
      | intro x | assumption | apply Dev.Keeps.refl | apply Dev.Keeps.when | apply Dev.Keeps.put
      | apply Dev.Keeps.step Dev.setTimeState_keeps | apply Dev.Keeps.step Dev.showRoot_keeps | apply Dev.Keeps.ite
      | apply Dev.Keeps.foldl | (show (_ : Bool) = _; decide +kernel) | (show _ ∈ _; decide +kernel) | (show _ < _; decide +kernel)
      | split | apply Dev.Keeps.set_time | dsimp only

theorem Dev.follow_keeps {d : Dev} {p : Nat} {a : Announce} : Dev.Keeps (.TIM_EVENTS :: .TIM_ROOT :: .TIM_STATE :: recordRegs) (.time ::
    recordParts) d (Dev.follow d p a) := by
  unfold Dev.follow
  with_reducible repeat'
    first
      | intro x | assumption | apply Dev.Keeps.refl | apply Dev.Keeps.put | apply Dev.Keeps.step Dev.showRoot_keeps
      | apply Dev.Keeps.ite | apply Dev.Keeps.foldl | (show (_ : Bool) = _; decide +kernel) | (show _ ∈ _; decide +kernel)
      | (show _ < _; decide +kernel) | split | apply Dev.Keeps.set_time | dsimp only

theorem Dev.chooseRoot_keeps {d : Dev} : Dev.Keeps (.TIM_ERR_EST :: .TIM_EVENTS :: .TIM_ROOT :: .TIM_STATE :: recordRegs) (.time ::
    recordParts) d (Dev.chooseRoot d) := by
  unfold Dev.chooseRoot
  with_reducible repeat'
    first
      | intro x | assumption | apply Dev.Keeps.refl | apply Dev.Keeps.step Dev.beRoot_keeps | apply Dev.Keeps.step Dev.follow_keeps
      | apply Dev.Keeps.ite | apply Dev.Keeps.foldl | (show (_ : Bool) = _; decide +kernel) | (show _ ∈ _; decide +kernel)
      | (show _ < _; decide +kernel) | split | dsimp only

theorem Dev.estimate_keeps {d : Dev} {ticks : Int} {mayLock : Bool} : Dev.Keeps (.TIM_ERR_EST :: .TIM_EVENTS :: .TIM_STATE ::
    recordRegs) (.drawn :: recordParts) d (Dev.estimate d ticks mayLock) := by
  unfold Dev.estimate
  with_reducible repeat'
    first
      | intro x | assumption | apply Dev.Keeps.refl | apply Dev.Keeps.put | apply Dev.Keeps.step Dev.draw_keeps
      | apply Dev.Keeps.step Dev.setTimeState_keeps | apply Dev.Keeps.ite | apply Dev.Keeps.foldl
      | (show (_ : Bool) = _; decide +kernel) | (show _ ∈ _; decide +kernel) | (show _ < _; decide +kernel) | split
      | refine Dev.Keeps.pair Dev.draw_keeps (by assumption) ?_ ?_ ?_ | dsimp only

theorem Dev.dropExchange_keeps {d : Dev} : Dev.Keeps [] [.ctrs, .time] d (Dev.dropExchange d) := by
  unfold Dev.dropExchange
  with_reducible repeat'
    first
      | intro x | assumption | apply Dev.Keeps.refl | apply Dev.Keeps.step Dev.count_keeps | apply Dev.Keeps.ite
      | apply Dev.Keeps.foldl | (show (_ : Bool) = _; decide +kernel) | (show _ ∈ _; decide +kernel) | (show _ < _; decide +kernel)
      | split | apply Dev.Keeps.set_time | dsimp only

theorem Dev.timeFrame_keeps {d : Dev} {p : Nat} {kind : TimeKind} {stamp : Nat} : Dev.Keeps [] [.routed] d (Dev.timeFrame d p kind
    stamp) := by
  unfold Dev.timeFrame
  with_reducible repeat'
    first
      | intro x | assumption | apply Dev.Keeps.refl | apply Dev.Keeps.ite | apply Dev.Keeps.foldl
      | (show (_ : Bool) = _; decide +kernel) | (show _ ∈ _; decide +kernel) | (show _ < _; decide +kernel) | split
      | apply Dev.Keeps.set_routed | dsimp only

theorem Dev.takeSync_keeps {d : Dev} {p : Nat} {m : TimeMsg} {arrival : Nat} {replayed : Bool} : Dev.Keeps (.TIM_ERR_EST :: .TIM_EVENTS
    :: .TIM_ROOT :: .TIM_STATE :: recordRegs) (.routed :: .time :: recordParts) d (Dev.takeSync d p m arrival replayed) := by
  unfold Dev.takeSync
  with_reducible repeat'
    first
      | intro x | assumption | apply Dev.Keeps.refl | apply Dev.Keeps.step Dev.chooseRoot_keeps | apply Dev.Keeps.step Dev.count_keeps
      | apply Dev.Keeps.step Dev.dropExchange_keeps | apply Dev.Keeps.step Dev.timeFrame_keeps | apply Dev.Keeps.ite
      | apply Dev.Keeps.foldl | (show (_ : Bool) = _; decide +kernel) | (show _ ∈ _; decide +kernel) | (show _ < _; decide +kernel)
      | split | apply Dev.Keeps.set_time | dsimp only

theorem Dev.stepSnapshots_keeps {d : Dev} {before : Nat} : Dev.Keeps (.TEL_CAT_WPTR :: .TEL_EVENTS :: .VMF_CAT_WPTR :: recordRegs)
    (.cats :: recordParts) d (Dev.stepSnapshots d before) := by
  unfold Dev.stepSnapshots
  with_reducible repeat'
    first
      | intro x | assumption | apply Dev.Keeps.refl | apply Dev.Keeps.forEach | apply Dev.Keeps.step Dev.setCat_keeps
      | apply Dev.Keeps.step Dev.snapshot_keeps | apply Dev.Keeps.ite | apply Dev.Keeps.foldl | (show (_ : Bool) = _; decide +kernel)
      | (show _ ∈ _; decide +kernel) | (show _ < _; decide +kernel) | split | dsimp only

theorem Dev.advance_keeps {d : Dev} {ticks : Nat} : Dev.Keeps [] [.now, .queues, .trk] d (Dev.advance d ticks) := by
  unfold Dev.advance
  with_reducible repeat'
    first
      | intro x | assumption | apply Dev.Keeps.refl | apply Dev.Keeps.ite | apply Dev.Keeps.foldl
      | (show (_ : Bool) = _; decide +kernel) | (show _ ∈ _; decide +kernel) | (show _ < _; decide +kernel) | split
      | apply Dev.Keeps.set_now_queues_trk | apply Dev.Keeps.set_trk | apply Dev.Keeps.set_queues | dsimp only

theorem Dev.setSource_keeps {d : Dev} {source prio : Nat} : Dev.Keeps (.TIM_ERR_EST :: .TIM_EVENTS :: .TIM_ROOT :: .TIM_SRC_CFG ::
    .TIM_STATE :: recordRegs) (.time :: recordParts) d (Dev.setSource d source prio) := by
  unfold Dev.setSource
  with_reducible repeat'
    first
      | intro x | assumption | apply Dev.Keeps.refl | apply Dev.Keeps.put | apply Dev.Keeps.step Dev.chooseRoot_keeps
      | apply Dev.Keeps.ite | apply Dev.Keeps.foldl | (show (_ : Bool) = _; decide +kernel) | (show _ ∈ _; decide +kernel)
      | (show _ < _; decide +kernel) | split | apply Dev.Keeps.set_time | dsimp only

end Sys2Proof.Machine
end

