-- ==== Sys2Proof/Laws/KeepsReliability.lean ====
section
/-! SUPPORT. What each operation of Machine/Reliability.lean may change: every register and structure outside the lists named stays as it was. -/

set_option Elab.async false
set_option linter.all false

namespace Sys2Proof.Machine

theorem Dev.setPair_keeps {d : Dev} {pair st : Nat} : Dev.Keeps [.CUR_PAIR_STATUS] [] d (Dev.setPair d pair st) := by
  unfold Dev.setPair
  with_reducible repeat'
    first
      | intro x | assumption | apply Dev.Keeps.refl | apply Dev.Keeps.put | apply Dev.Keeps.ite | apply Dev.Keeps.foldl
      | (show (_ : Bool) = _; decide +kernel) | (show _ ∈ _; decide +kernel) | (show _ < _; decide +kernel) | split | dsimp only

theorem Dev.copyRepaired_keeps {d : Dev} {table : Nat} : Dev.Keeps [] [.masked] d (Dev.copyRepaired d table) := by
  unfold Dev.copyRepaired
  with_reducible repeat'
    first
      | intro x | assumption | apply Dev.Keeps.refl | apply Dev.Keeps.step Dev.mask_keeps | apply Dev.Keeps.ite
      | apply Dev.Keeps.foldl | (show (_ : Bool) = _; decide +kernel) | (show _ ∈ _; decide +kernel) | (show _ < _; decide +kernel)
      | split | dsimp only

theorem Dev.leastDays_keeps {d : Dev} {fs : List (Option Nat)} : Dev.Keeps [] [.drawn] d (d.leastDays fs).2 := by
  unfold Dev.leastDays
  have h : ∀ (l : List (Option Nat)) (acc : Nat × Dev), Dev.Keeps [] [.drawn] d acc.2 →
      Dev.Keeps [] [.drawn] d (l.foldl (fun (acc : Nat × Dev) f => match f with
        | some n => (min acc.1 n, acc.2)
        | none => let (v, d) := acc.2.draw; (min acc.1 (v % 65536), d)) acc).2 := by
    intro l
    induction l with
    | nil => exact fun _ h => h
    | cons x r ih =>
      intro acc h
      refine ih _ ?_
      cases x with
      | some n => exact h
      | none => exact .set_drawn (by decide +kernel) h
  exact h fs _ (.refl _ _ _)

theorem Dev.writePlanCtl_keeps {d : Dev} {v : Nat} : Dev.Keeps [.HLT_PLAN_CTL, .HLT_PLAN_STATUS] [] d (Dev.writePlanCtl d v) := by
  unfold Dev.writePlanCtl
  with_reducible repeat'
    first
      | intro x | assumption | apply Dev.Keeps.refl | apply Dev.Keeps.put | apply Dev.Keeps.when | apply Dev.Keeps.mark
      | apply Dev.Keeps.ite | apply Dev.Keeps.foldl | (show (_ : Bool) = _; decide +kernel) | (show _ ∈ _; decide +kernel)
      | (show _ < _; decide +kernel) | split | dsimp only

theorem Dev.setRail_keeps {d : Dev} {r : Nat} {x : Rail} : Dev.Keeps [.HLT_RAIL_NOW] [.rails] d (Dev.setRail d r x) := by
  unfold Dev.setRail
  with_reducible repeat'
    first
      | intro x | assumption | apply Dev.Keeps.refl | apply Dev.Keeps.put | apply Dev.Keeps.ite | apply Dev.Keeps.foldl
      | (show (_ : Bool) = _; decide +kernel) | (show _ ∈ _; decide +kernel) | (show _ < _; decide +kernel) | split
      | apply Dev.Keeps.set_rails | dsimp only

theorem Dev.issueStep_keeps {d : Dev} {r : Nat} : Dev.Keeps [.HLT_RAIL_NOW] [.out, .rails] d (Dev.issueStep d r) := by
  unfold Dev.issueStep
  with_reducible repeat'
    first
      | intro x | assumption | apply Dev.Keeps.refl | apply Dev.Keeps.step Dev.emit_keeps | apply Dev.Keeps.step Dev.setRail_keeps
      | apply Dev.Keeps.ite | apply Dev.Keeps.foldl | (show (_ : Bool) = _; decide +kernel) | (show _ ∈ _; decide +kernel)
      | (show _ < _; decide +kernel) | split | dsimp only

theorem Dev.squashLost_keeps {d : Dev} {p : Nat} : Dev.Keeps [.WR_Q_DRR] [.cellsFree, .ctrs, .dwins, .outs, .queues, .trk] d
    (Dev.squashLost d p) := by
  unfold Dev.squashLost
  with_reducible repeat'
    first
      | intro x | assumption | apply Dev.Keeps.refl | apply Dev.Keeps.forEach | apply Dev.dropFrames_keeps
      | apply Dev.Keeps.step Dev.squash_keeps | apply Dev.Keeps.step countSquashed_keeps | apply Dev.Keeps.ite | apply Dev.Keeps.foldl
      | (show (_ : Bool) = _; decide +kernel) | (show _ ∈ _; decide +kernel) | (show _ < _; decide +kernel) | split | dsimp only

theorem Dev.stepMade_keeps {d : Dev} {r : Nat} {up : Bool} : Dev.Keeps [.HLT_RAIL_NOW] [.ctrs, .out, .rails] d (Dev.stepMade d r up) :=
    by
  unfold Dev.stepMade
  with_reducible repeat'
    first
      | intro x | assumption | apply Dev.Keeps.refl | apply Dev.Keeps.put | apply Dev.Keeps.step Dev.count_keeps
      | apply Dev.Keeps.step Dev.issueStep_keeps | apply Dev.Keeps.step Dev.setRail_keeps | apply Dev.Keeps.ite
      | apply Dev.Keeps.foldl | (show (_ : Bool) = _; decide +kernel) | (show _ ∈ _; decide +kernel) | (show _ < _; decide +kernel)
      | split | dsimp only

theorem Dev.planScan_keeps {d : Dev} {n : Nat} {eyes : List Eye} : Dev.Keeps (.LNA_EVENTS :: .LNA_MRG_RESULT :: recordRegs) (.lanes ::
    recordParts) d (Dev.planScan d n eyes) := by
  unfold Dev.planScan
  with_reducible repeat'
    first
      | intro x | assumption | apply Dev.Keeps.refl | apply Dev.Keeps.step Dev.scanResult_keeps
      | apply Dev.Keeps.step Dev.setLane_keeps | apply Dev.Keeps.step Dev.startScan_keeps | apply Dev.Keeps.ite
      | apply Dev.Keeps.foldl | (show (_ : Bool) = _; decide +kernel) | (show _ ∈ _; decide +kernel) | (show _ < _; decide +kernel)
      | split | dsimp only

theorem Dev.planReequalise_keeps {d : Dev} {p : Nat} : Dev.Keeps [] [.ports] d (Dev.planReequalise d p) := by
  unfold Dev.planReequalise
  with_reducible repeat'
    first
      | intro x | assumption | apply Dev.Keeps.refl | apply Dev.Keeps.step Dev.setPortX_keeps | apply Dev.Keeps.ite
      | apply Dev.Keeps.foldl | (show (_ : Bool) = _; decide +kernel) | (show _ ∈ _; decide +kernel) | (show _ < _; decide +kernel)
      | split | dsimp only

theorem Dev.forecast_keeps {d : Dev} {active : List Nat} {hours : Nat} : Dev.Keeps (.HLT_EVENTS :: .HLT_FORECAST :: recordRegs) (.drawn
    :: recordParts) d (Dev.forecast d active hours) := by
  unfold Dev.forecast
  with_reducible repeat'
    first
      | intro x | assumption | apply Dev.Keeps.refl | apply Dev.Keeps.put | apply Dev.Keeps.when
      | apply Dev.Keeps.step Dev.leastDays_keeps | apply Dev.Keeps.step (Dev.raise_keeps ?_) | apply Dev.Keeps.ite
      | apply Dev.Keeps.foldl | (show (_ : Bool) = _; decide +kernel) | (show _ ∈ _; decide +kernel) | (show _ < _; decide +kernel)
      | split | refine Dev.Keeps.pair Dev.leastDays_keeps (by assumption) ?_ ?_ ?_ | dsimp only

theorem Dev.planRail_keeps {d : Dev} {r hours : Nat} : Dev.Keeps [.HLT_RAIL_NOW, .HLT_RAIL_PLAN] [.out, .rails] d (Dev.planRail d r
    hours) := by
  unfold Dev.planRail
  with_reducible repeat'
    first
      | intro x | assumption | apply Dev.Keeps.refl | apply Dev.Keeps.put | apply Dev.Keeps.step Dev.issueStep_keeps
      | apply Dev.Keeps.step Dev.setRail_keeps | apply Dev.Keeps.ite | apply Dev.Keeps.foldl | (show (_ : Bool) = _; decide +kernel)
      | (show _ ∈ _; decide +kernel) | (show _ < _; decide +kernel) | split | dsimp only

theorem Dev.judgeLane_keeps {d : Dev} {n : Nat} : Dev.Keeps [] [.lanes] d (Dev.judgeLane d n).2 := by
  unfold Dev.judgeLane
  with_reducible repeat'
    first
      | intro x | assumption | apply Dev.Keeps.refl | apply Dev.Keeps.step Dev.setLane_keeps | apply Dev.Keeps.ite
      | apply Dev.Keeps.foldl | (show (_ : Bool) = _; decide +kernel) | (show _ ∈ _; decide +kernel) | (show _ < _; decide +kernel)
      | split | dsimp only

theorem Dev.planRetire_keeps {d : Dev} {p : Nat} : Dev.Keeps (.EBR_CRD_AVAIL :: .FLL_LINK_STATUS :: .FLL_REPLAY :: .HLT_EVENTS ::
    .LNA_ALIGN :: .LNA_LANE_STATE :: .LNA_MRG_RESULT :: .LNA_RX_EQ :: .LNA_TRAIN_REF :: .LNA_TX_EQ :: .PIN_CTL :: .PIN_OLD ::
    .PRT_PORT_STATUS :: .RTE_EVENTS :: .RTE_GRP_SLOT :: .WR_GATE_STATUS :: .WR_PORT_GUARD :: .WR_Q_DRR :: recordRegs) (.arrived ::
    .cellsFree :: .cmds :: .dwins :: .eqReported :: .lanes :: .links :: .outs :: .pausedLinks :: .pins :: .ports :: .queues :: .wins ::
    recordParts) d (d.planRetire p) := by
  have h : ∀ (l : List Nat) (acc : List Nat × Dev), Dev.Keeps (.EBR_CRD_AVAIL :: .FLL_LINK_STATUS :: .FLL_REPLAY :: .HLT_EVENTS ::
      .LNA_ALIGN :: .LNA_LANE_STATE :: .LNA_MRG_RESULT :: .LNA_RX_EQ :: .LNA_TRAIN_REF :: .LNA_TX_EQ :: .PIN_CTL :: .PIN_OLD ::
      .PRT_PORT_STATUS :: .RTE_EVENTS :: .RTE_GRP_SLOT :: .WR_GATE_STATUS :: .WR_PORT_GUARD :: .WR_Q_DRR :: recordRegs) (.arrived ::
      .cellsFree :: .cmds :: .dwins :: .eqReported :: .lanes :: .links :: .outs :: .pausedLinks :: .pins :: .ports :: .queues :: .wins
      :: recordParts) d acc.2 →
      Dev.Keeps (.EBR_CRD_AVAIL :: .FLL_LINK_STATUS :: .FLL_REPLAY :: .HLT_EVENTS :: .LNA_ALIGN :: .LNA_LANE_STATE :: .LNA_MRG_RESULT ::
          .LNA_RX_EQ :: .LNA_TRAIN_REF :: .LNA_TX_EQ :: .PIN_CTL :: .PIN_OLD :: .PRT_PORT_STATUS :: .RTE_EVENTS :: .RTE_GRP_SLOT ::
          .WR_GATE_STATUS :: .WR_PORT_GUARD :: .WR_Q_DRR :: recordRegs) (.arrived :: .cellsFree :: .cmds :: .dwins :: .eqReported ::
          .lanes :: .links :: .outs :: .pausedLinks :: .pins :: .ports :: .queues :: .wins :: recordParts) d (l.foldl (fun (acc : List
          Nat × Dev) n =>
        (if (acc.2.judgeLane n).1 = true then acc.1 ++ [n] else acc.1, (acc.2.judgeLane n).2)) acc).2 := by
    intro l
    induction l with
    | nil => exact fun _ h => h
    | cons x r ih => exact fun acc h => ih _ (.step Dev.judgeLane_keeps (by decide +kernel) (by decide +kernel) h)
  unfold Dev.planRetire
  have hf := h ((d.lanesOf p).filter fun n => d.laneState n == 6) ([], d) (.refl _ _ _)
  simp only
  split
  · exact hf
  · exact .ite (.step (Dev.raise_keeps (by decide)) (by decide +kernel) (by decide +kernel) hf)
      (.ite (.step Dev.retireLane_keeps (by decide +kernel) (by decide +kernel) hf)
        (.step Dev.setPortX_keeps (by decide +kernel) (by decide +kernel) hf))

theorem Dev.keepMargin_keeps {d : Dev} {hours n : Nat} : Dev.Keeps [] [.lanes] d (Dev.keepMargin d hours n) := by
  unfold Dev.keepMargin
  with_reducible repeat'
    first
      | intro x | assumption | apply Dev.Keeps.refl | apply Dev.Keeps.step Dev.setLane_keeps | apply Dev.Keeps.ite
      | apply Dev.Keeps.foldl | (show (_ : Bool) = _; decide +kernel) | (show _ ∈ _; decide +kernel) | (show _ < _; decide +kernel)
      | split | dsimp only

theorem Dev.runPlan_keeps {d : Dev} {x : PlanRun} : Dev.Keeps (.EBR_CRD_AVAIL :: .FLL_LINK_STATUS :: .FLL_REPLAY :: .HLT_EVENTS ::
    .HLT_FORECAST :: .HLT_PLAN_STATUS :: .HLT_RAIL_NOW :: .HLT_RAIL_PLAN :: .LNA_ALIGN :: .LNA_EVENTS :: .LNA_LANE_STATE ::
    .LNA_MRG_RESULT :: .LNA_RX_EQ :: .LNA_TRAIN_REF :: .LNA_TX_EQ :: .PIN_CTL :: .PIN_OLD :: .PRT_PORT_STATUS :: .RTE_EVENTS ::
    .RTE_GRP_SLOT :: .WR_GATE_STATUS :: .WR_PORT_GUARD :: .WR_Q_DRR :: recordRegs) (.arrived :: .cellsFree :: .cmds :: .drawn :: .dwins
    :: .eqReported :: .lanes :: .links :: .outs :: .pausedLinks :: .pins :: .ports :: .queues :: .rails :: .wins :: recordParts) d
    (Dev.runPlan d x) := by
  unfold Dev.runPlan
  with_reducible repeat'
    first
      | intro x | assumption | apply Dev.Keeps.refl | apply Dev.Keeps.put | apply Dev.Keeps.forEach | apply Dev.Keeps.bump
      | apply Dev.Keeps.step Dev.count_keeps | apply Dev.Keeps.step Dev.forecast_keeps | apply Dev.Keeps.step Dev.keepMargin_keeps
      | apply Dev.Keeps.step Dev.planRail_keeps | apply Dev.Keeps.step Dev.planReequalise_keeps
      | apply Dev.Keeps.step Dev.planRetire_keeps | apply Dev.Keeps.step Dev.planScan_keeps | apply Dev.Keeps.step Dev.record_keeps
      | apply Dev.Keeps.ite | apply Dev.Keeps.foldl | (show (_ : Bool) = _; decide +kernel) | (show _ ∈ _; decide +kernel)
      | (show _ < _; decide +kernel) | split | dsimp only

theorem Dev.entryInvalid_keeps {d : Dev} {table n : Nat} : Dev.Keeps [.ATT_CTL, .ATT_EP_HI, .ATT_EP_LO, .ATT_FPID, .ATT_HOST_HI,
    .ATT_HOST_LO, .GATE_COUNT, .PIN_CTL, .PIN_DST, .PIN_OLD, .PIN_SRC, .PIN_TCUT_HI, .PIN_TCUT_LO, .RTE_GRP_SLOT, .RTE_MRT,
    .WR_GATE_STATUS, .WR_PORT_GUARD, .WR_Q_CFG] [.atts, .pins, .shapers] d (Dev.entryInvalid d table n) := by
  unfold Dev.entryInvalid
  with_reducible repeat'
    first
      | intro x | assumption | apply Dev.Keeps.refl | apply Dev.Keeps.put | apply Dev.Keeps.when
      | apply Dev.Keeps.step Dev.recomputeGuard_keeps | apply Dev.Keeps.step Dev.resetRegs_keeps
      | apply Dev.Keeps.step Dev.setAtt_keeps | apply Dev.Keeps.step Dev.setPin_keeps | apply Dev.Keeps.step Dev.setShaper_keeps
      | apply Dev.Keeps.ite | apply Dev.Keeps.foldl | (show (_ : Bool) = _; decide +kernel) | (show _ ∈ _; decide +kernel)
      | (show _ < _; decide +kernel) | split | dsimp only

theorem Dev.standbyLost_keeps {d : Dev} {pair : Nat} : Dev.Keeps (.CUR_PAIR_STATUS :: recordRegs) recordParts d (Dev.standbyLost d pair)
    := by
  unfold Dev.standbyLost
  with_reducible repeat'
    first
      | intro x | assumption | apply Dev.Keeps.refl | apply Dev.Keeps.put | apply Dev.Keeps.step Dev.record_keeps
      | apply Dev.Keeps.step Dev.setPair_keeps | apply Dev.Keeps.ite | apply Dev.Keeps.foldl | (show (_ : Bool) = _; decide +kernel)
      | (show _ ∈ _; decide +kernel) | (show _ < _; decide +kernel) | split | dsimp only

theorem Dev.idleAll_keeps {d : Dev} : Dev.Keeps (.FLL_LINK_STATUS :: .FLL_REPLAY :: .LNA_ALIGN :: .LNA_LANE_STATE :: .LNA_MRG_RESULT ::
    .LNA_TRAIN_REF :: .PIN_CTL :: .PIN_OLD :: .PRT_PORT_STATUS :: .RTE_EVENTS :: .RTE_GRP_SLOT :: .WR_Q_DRR :: recordRegs) (.arrived ::
    .cellsFree :: .cmds :: .dwins :: .halted :: .lanes :: .links :: .outs :: .pausedLinks :: .pins :: .ports :: .queues :: recordParts)
    d (Dev.idleAll d) := by
  unfold Dev.idleAll
  with_reducible repeat'
    first
      | intro x | assumption | apply Dev.Keeps.refl | apply Dev.Keeps.forEach | apply Dev.Keeps.step Dev.laneOff_keeps
      | apply Dev.Keeps.step Dev.linkDown_keeps | apply Dev.Keeps.step Dev.linkFalls_keeps | apply Dev.Keeps.ite
      | apply Dev.Keeps.foldl | (show (_ : Bool) = _; decide +kernel) | (show _ ∈ _; decide +kernel) | (show _ < _; decide +kernel)
      | split | apply Dev.Keeps.set_halted | dsimp only

theorem Dev.takeOverCommands_keeps {d : Dev} : Dev.Keeps [] [.cmds] d (Dev.takeOverCommands d) := by
  unfold Dev.takeOverCommands
  with_reducible repeat'
    first
      | intro x | assumption | apply Dev.Keeps.refl | apply Dev.Keeps.ite | apply Dev.Keeps.foldl
      | (show (_ : Bool) = _; decide +kernel) | (show _ ∈ _; decide +kernel) | (show _ < _; decide +kernel) | split
      | apply Dev.Keeps.set_cmds | dsimp only

theorem Dev.losePort_keeps {d : Dev} {p : Nat} : Dev.Keeps (.BSN_Q_STATUS :: .DOC_CORE_STATUS :: .DOC_EVENTS :: .DOC_WSTORE_LOST ::
    .EBR_CRD_AVAIL :: .EBR_EVENTS :: .EBR_LOCK :: .EBR_PFLOG_HEAD :: .EBR_RAT_PFDISC_HI :: .EBR_RAT_PFDISC_LO :: .FLL_LINK_STATUS ::
    .FLL_REPLAY :: .LNA_ALIGN :: .LNA_LANE_STATE :: .LNA_MRG_RESULT :: .LNA_TRAIN_REF :: .PIN_CTL :: .PIN_OLD :: .PRT_EVENTS ::
    .PRT_PORT_STATUS :: .RTE_EVENTS :: .RTE_GRP_SLOT :: .SLC_CONT_ESEQ_HI :: .SLC_CONT_ESEQ_LO :: .SLC_CONT_STATE :: .VIT_STATE ::
    .WR_Q_DRR :: recordRegs) (.arrived :: .cellsFree :: .cmds :: .cores :: .dwins :: .endpoints :: .heldTlps :: .lanes :: .links ::
    .lockSince :: .lockSrc :: .notices :: .outs :: .pausedLinks :: .pfLog :: .pfSeq :: .pins :: .ports :: .queues :: .sbSeq :: .trk ::
    .vports :: .winFetches :: .winReads :: .winStores :: .wins :: .withheld :: recordParts) d (Dev.losePort d p) := by
  unfold Dev.losePort
  with_reducible repeat'
    first
      | intro x | assumption | apply Dev.Keeps.refl | apply Dev.Keeps.step Dev.holdLanes_keeps
      | apply Dev.Keeps.step Dev.linkFalls_keeps | apply Dev.Keeps.step Dev.lost_keeps | apply Dev.Keeps.step Dev.setVit_keeps
      | apply Dev.Keeps.step Dev.squashLost_keeps | apply Dev.Keeps.step Dev.surprise_keeps | apply Dev.Keeps.ite
      | apply Dev.Keeps.foldl | (show (_ : Bool) = _; decide +kernel) | (show _ ∈ _; decide +kernel) | (show _ < _; decide +kernel)
      | split | dsimp only

end Sys2Proof.Machine
end

