-- ==== Sys2Proof/Laws/KeepsWeirCommands.lean ====
section
/-! SUPPORT. What each operation of Machine/WeirCommands.lean may change: every register and structure outside the lists named stays as it was. -/

set_option Elab.async false
set_option linter.all false

namespace Sys2Proof.Machine

theorem Dev.writeBank_keeps {d : Dev} {bank base cycle : Nat} {words : List Nat} : Dev.Keeps [.GATE_BASE_HI, .GATE_BASE_LO, .GATE_COUNT,
    .GATE_CYCLE, .GATE_ENTRY] [] d (Dev.writeBank d bank base cycle words) := by
  unfold Dev.writeBank
  with_reducible repeat'
    first
      | intro x | assumption | apply Dev.Keeps.refl | apply Dev.Keeps.put | apply Dev.Keeps.forEach | apply Dev.Keeps.mark
      | apply Dev.Keeps.put64 | apply Dev.Keeps.ite | apply Dev.Keeps.foldl | (show (_ : Bool) = _; decide +kernel)
      | (show _ ∈ _; decide +kernel) | (show _ < _; decide +kernel) | split | dsimp only

theorem Dev.setShaperCfg_keeps {d : Dev} {n : Nat} {x : ShaperSetting} : Dev.Keeps [.WR_Q_CFG, .WR_SHP_BURST, .WR_SHP_RATE] [.shapers] d
    (Dev.setShaperCfg d n x) := by
  unfold Dev.setShaperCfg
  with_reducible repeat'
    first
      | intro x | assumption | apply Dev.Keeps.refl | apply Dev.Keeps.put | apply Dev.Keeps.when | apply Dev.Keeps.forEach
      | apply Dev.Keeps.step Dev.commitShaper_keeps | apply Dev.Keeps.ite | apply Dev.Keeps.foldl
      | (show (_ : Bool) = _; decide +kernel) | (show _ ∈ _; decide +kernel) | (show _ < _; decide +kernel) | split | dsimp only

theorem Dev.onVitrine_keeps {d : Dev} {h : CmdHdr} {is : Dev → Bool} : Dev.Keeps [] [.cmds] d (Dev.onVitrine d h is) := by
  unfold Dev.onVitrine
  with_reducible repeat'
    first
      | intro x | assumption | apply Dev.Keeps.refl | apply Dev.Keeps.when | apply Dev.Keeps.ite | apply Dev.Keeps.foldl
      | (show (_ : Bool) = _; decide +kernel) | (show _ ∈ _; decide +kernel) | (show _ < _; decide +kernel) | split
      | apply Dev.Keeps.set_cmds | dsimp only

theorem Dev.shaperSet_keeps {d : Dev} {h : CmdHdr} {owner : Option Nat} {x : ShaperSetting} : Dev.Keeps [.WR_Q_CFG, .WR_SHP_BURST,
    .WR_SHP_RATE] [.cmds, .shapers] d (Dev.shaperSet d h owner x) := by
  unfold Dev.shaperSet
  with_reducible repeat'
    first
      | intro x | assumption | apply Dev.Keeps.refl | apply Dev.Keeps.step Dev.badParam_keeps | apply Dev.Keeps.step Dev.finish_keeps
      | apply Dev.Keeps.step Dev.onVitrine_keeps | apply Dev.Keeps.step Dev.setShaperCfg_keeps | apply Dev.Keeps.ite
      | apply Dev.Keeps.foldl | (show (_ : Bool) = _; decide +kernel) | (show _ ∈ _; decide +kernel) | (show _ < _; decide +kernel)
      | split | dsimp only

theorem Dev.loadGates_keeps {d : Dev} {h : CmdHdr} {p count bmax base cycle : Nat} {bytes : Option (List Byte)} : Dev.Keeps
    (.GATE_BASE_HI :: .GATE_BASE_LO :: .GATE_COUNT :: .GATE_CYCLE :: .GATE_ENTRY :: .WR_GATE_STATUS :: .WR_PORT_CFG :: .WR_PORT_EVENTS
    :: .WR_PORT_GUARD :: recordRegs) (.cmds :: .outs :: recordParts) d (Dev.loadGates d h p count bmax base cycle bytes) := by
  unfold Dev.loadGates
  with_reducible repeat'
    first
      | intro x | assumption | apply Dev.Keeps.refl | apply Dev.Keeps.put | apply Dev.Keeps.when
      | apply Dev.Keeps.step Dev.armGate_keeps | apply Dev.Keeps.step Dev.finish_keeps | apply Dev.Keeps.step Dev.recomputeGuard_keeps
      | apply Dev.Keeps.step Dev.writeBank_keeps | apply Dev.Keeps.ite | apply Dev.Keeps.foldl | (show (_ : Bool) = _; decide +kernel)
      | (show _ ∈ _; decide +kernel) | (show _ < _; decide +kernel) | split
      | refine Dev.Keeps.pair Dev.armGate_keeps (by assumption) ?_ ?_ ?_ | dsimp only

end Sys2Proof.Machine
end

