-- ==== Sys2Proof/Laws/KeepsFormation.lean ====
section
/-! SUPPORT. What each operation of Machine/Formation.lean may change: every register and structure outside the lists named stays as it was. -/

set_option Elab.async false
set_option linter.all false

namespace Sys2Proof.Machine

theorem Dev.setPower_keeps {d : Dev} {st bit : Nat} : Dev.Keeps (.PWR_PS_STATUS :: recordRegs) recordParts d (Dev.setPower d st bit) :=
    by
  unfold Dev.setPower
  with_reducible repeat'
    first
      | intro x | assumption | apply Dev.Keeps.refl | apply Dev.Keeps.put | apply Dev.Keeps.when
      | apply Dev.Keeps.step Dev.record_keeps | apply Dev.Keeps.ite | apply Dev.Keeps.foldl | (show (_ : Bool) = _; decide +kernel)
      | (show _ ∈ _; decide +kernel) | (show _ < _; decide +kernel) | split | dsimp only

theorem Dev.takeBase_keeps {d : Dev} {base : Option (Nat × Bool)} : Dev.Keeps (.PWR_MODE :: .PWR_PS_STATUS :: recordRegs) recordParts d
    (Dev.takeBase d base) := by
  unfold Dev.takeBase
  with_reducible repeat'
    first
      | intro x | assumption | apply Dev.Keeps.refl | apply Dev.Keeps.put | apply Dev.Keeps.mark
      | apply Dev.Keeps.step Dev.setPower_keeps | apply Dev.Keeps.ite | apply Dev.Keeps.foldl | (show (_ : Bool) = _; decide +kernel)
      | (show _ ∈ _; decide +kernel) | (show _ < _; decide +kernel) | split | dsimp only

theorem Dev.halt_keeps {d : Dev} {step : Nat} {cause : HaltCause} : Dev.Keeps [.CUR_START_STATUS] [.halted, .haltedBy, .out] d (Dev.halt
    d step cause) := by
  unfold Dev.halt
  with_reducible repeat'
    first
      | intro x | assumption | apply Dev.Keeps.refl | apply Dev.Keeps.put | apply Dev.Keeps.step Dev.emit_keeps | apply Dev.Keeps.ite
      | apply Dev.Keeps.foldl | (show (_ : Bool) = _; decide +kernel) | (show _ ∈ _; decide +kernel) | (show _ < _; decide +kernel)
      | split | apply Dev.Keeps.set_halted_haltedBy | apply Dev.Keeps.set_halted | dsimp only

theorem Dev.failDie_keeps {d : Dev} {die : Nat} : Dev.Keeps (.CUR_START_STATUS :: recordRegs) (.halted :: .haltedBy :: .lostDies ::
    recordParts) d (Dev.failDie d die) := by
  unfold Dev.failDie
  with_reducible repeat'
    first
      | intro x | assumption | apply Dev.Keeps.refl | apply Dev.Keeps.step Dev.halt_keeps | apply Dev.Keeps.step Dev.record_keeps
      | apply Dev.Keeps.ite | apply Dev.Keeps.foldl | (show (_ : Bool) = _; decide +kernel) | (show _ ∈ _; decide +kernel)
      | (show _ < _; decide +kernel) | split | apply Dev.Keeps.set_lostDies | dsimp only

theorem Dev.numberStaged_keeps {d : Dev} {boot : Nat} : Dev.Keeps [.SLC_ESEQ_HI, .SLC_ESEQ_LO] [.booted, .staging] d (Dev.numberStaged d
    boot) := by
  unfold Dev.numberStaged
  with_reducible repeat'
    first
      | intro x | assumption | apply Dev.Keeps.refl | apply Dev.Keeps.put64 | apply Dev.Keeps.ite | apply Dev.Keeps.foldl
      | (show (_ : Bool) = _; decide +kernel) | (show _ ∈ _; decide +kernel) | (show _ < _; decide +kernel) | split
      | apply Dev.Keeps.set_staging_booted | apply Dev.Keeps.set_staging | dsimp only

theorem Dev.applyStored_keeps {d : Dev} {lv : Nat} {x : StoredVitrine} : Dev.Keeps (.GATE_BASE_HI :: .GATE_BASE_LO :: .GATE_COUNT ::
    .GATE_CYCLE :: .GATE_ENTRY :: .WR_GATE_STATUS :: .WR_PORT_EVENTS :: .WR_PORT_GUARD :: .WR_Q_CFG :: .WR_SHP_BURST :: .WR_SHP_RATE ::
    recordRegs) (.outs :: .shapers :: recordParts) d (Dev.applyStored d lv x) := by
  unfold Dev.applyStored
  with_reducible repeat'
    first
      | intro x | assumption | apply Dev.Keeps.refl | apply Dev.Keeps.put | apply Dev.Keeps.forEach
      | apply Dev.Keeps.step Dev.armGate_keeps | apply Dev.Keeps.step Dev.commitShaper_keeps
      | apply Dev.Keeps.step Dev.recomputeGuard_keeps | apply Dev.Keeps.step Dev.writeBank_keeps | apply Dev.Keeps.ite
      | apply Dev.Keeps.foldl | (show (_ : Bool) = _; decide +kernel) | (show _ ∈ _; decide +kernel) | (show _ < _; decide +kernel)
      | split | refine Dev.Keeps.pair Dev.armGate_keeps (by assumption) ?_ ?_ ?_ | dsimp only

theorem Dev.phase_keeps {d : Dev} {n : Nat} : Dev.Keeps [.CUR_START_STATUS] [] d (Dev.phase d n) := by
  unfold Dev.phase
  with_reducible repeat'
    first
      | intro x | assumption | apply Dev.Keeps.refl | apply Dev.Keeps.put | apply Dev.Keeps.ite | apply Dev.Keeps.foldl
      | (show (_ : Bool) = _; decide +kernel) | (show _ ∈ _; decide +kernel) | (show _ < _; decide +kernel) | split | dsimp only

theorem Dev.yieldId_keeps {d : Dev} {nv : NonVolatile} : Dev.Keeps (.CUR_START_STATUS :: .RTE_MODULE_ID :: .RTE_MRT :: recordRegs)
    (.conflict :: .registrar :: recordParts) d (Dev.yieldId d nv) := by
  unfold Dev.yieldId
  with_reducible repeat'
    first
      | intro x | assumption | apply Dev.Keeps.refl | apply Dev.Keeps.forEach | apply Dev.Keeps.put
      | apply Dev.Keeps.step Dev.phase_keeps | apply Dev.Keeps.step Dev.record_keeps | apply Dev.Keeps.ite | apply Dev.Keeps.foldl
      | (show (_ : Bool) = _; decide +kernel) | (show _ ∈ _; decide +kernel) | (show _ < _; decide +kernel) | split
      | apply Dev.Keeps.set_registrar_conflict | dsimp only

theorem Dev.layPorts_keeps {d : Dev} {ports : List (Nat × PortSetting × Bool)} : Dev.Keeps (.BSN_PORT_GRANT :: .BSN_PORT_RSV ::
    .BSN_PORT_WIN :: .BSN_Q_CFG :: .BSN_RESERVED :: .BSN_SHARED_SIZE :: .LNA_ALIGN :: .LNA_LANE_CFG :: .LNA_LANE_STATE ::
    .LNA_MRG_RESULT :: .LNA_RX_EQ :: .LNA_TRAIN_REF :: .LNA_TX_EQ :: .PRT_PM_CFG :: .PRT_PORT_CFG :: .WR_GATE_STATUS :: .WR_PORT_GUARD
    :: .WR_Q_CFG :: recordRegs) (.cmds :: .eqReported :: .lanes :: .ports :: recordParts) d (Dev.layPorts d ports) := by
  unfold Dev.layPorts
  with_reducible repeat'
    first
      | intro x | assumption | apply Dev.Keeps.refl | apply Dev.Keeps.when | apply Dev.Keeps.forEach
      | apply Dev.Keeps.step Dev.applyPort_keeps | apply Dev.Keeps.step Dev.enableLane_keeps
      | apply Dev.Keeps.step Dev.setReserved_keeps | apply Dev.Keeps.ite | apply Dev.Keeps.foldl
      | (show (_ : Bool) = _; decide +kernel) | (show _ ∈ _; decide +kernel) | (show _ < _; decide +kernel) | split | dsimp only

theorem Dev.startPairs_keeps {d : Dev} {standby : Bool} : Dev.Keeps (.CUR_PAIR_STATUS :: recordRegs) recordParts d (Dev.startPairs d
    standby) := by
  unfold Dev.startPairs
  with_reducible repeat'
    first
      | intro x | assumption | apply Dev.Keeps.refl | apply Dev.Keeps.put | apply Dev.Keeps.step Dev.setPair_keeps
      | apply Dev.Keeps.step Dev.standbyLost_keeps | apply Dev.Keeps.ite | apply Dev.Keeps.foldl
      | (show (_ : Bool) = _; decide +kernel) | (show _ ∈ _; decide +kernel) | (show _ < _; decide +kernel) | split | dsimp only

theorem Dev.setUpBasin_keeps {d : Dev} : Dev.Keeps [.BSN_PORT_GRANT, .BSN_PORT_RSV, .BSN_PORT_WIN, .BSN_Q_CFG, .BSN_RESERVED,
    .BSN_SHARED_SIZE] [] d (Dev.setUpBasin d) := by
  unfold Dev.setUpBasin
  with_reducible repeat'
    first
      | intro x | assumption | apply Dev.Keeps.refl | apply Dev.Keeps.put | apply Dev.Keeps.forEach
      | apply Dev.Keeps.step Dev.refreshGrant_keeps | apply Dev.Keeps.step Dev.setReserved_keeps | apply Dev.Keeps.ite
      | apply Dev.Keeps.foldl | (show (_ : Bool) = _; decide +kernel) | (show _ ∈ _; decide +kernel) | (show _ < _; decide +kernel)
      | split | dsimp only

theorem Dev.sendAdj_keeps {d : Dev} {ports : List Nat} {m : AdjMsg} : Dev.Keeps [] [.arrived] d (Dev.sendAdj d ports m) := by
  unfold Dev.sendAdj
  with_reducible repeat'
    first
      | intro x | assumption | apply Dev.Keeps.refl | apply Dev.Keeps.forEach | apply Dev.Keeps.step Dev.mgmt_keeps
      | apply Dev.Keeps.ite | apply Dev.Keeps.foldl | (show (_ : Bool) = _; decide +kernel) | (show _ ∈ _; decide +kernel)
      | (show _ < _; decide +kernel) | split | dsimp only

theorem Dev.describe_keeps {d : Dev} {nv : NonVolatile} : Dev.Keeps [] [.arrived, .described, .ownAseq] d (Dev.describe d nv) := by
  unfold Dev.describe
  with_reducible repeat'
    first
      | intro x | assumption | apply Dev.Keeps.refl | apply Dev.Keeps.forEach | apply Dev.Keeps.step Dev.sendAdj_keeps
      | apply Dev.Keeps.ite | apply Dev.Keeps.foldl | (show (_ : Bool) = _; decide +kernel) | (show _ ∈ _; decide +kernel)
      | (show _ < _; decide +kernel) | split | apply Dev.Keeps.set_ownAseq_described | dsimp only

theorem Dev.bindChannels_keeps {d : Dev} {list : List (Nat × Nat × Nat)} : Dev.Keeps (.MBX_BIND :: .MBX_LOCK :: recordRegs) recordParts
    d (Dev.bindChannels d list) := by
  unfold Dev.bindChannels
  with_reducible repeat'
    first
      | intro x | assumption | apply Dev.Keeps.refl | apply Dev.Keeps.put | apply Dev.Keeps.forEach
      | apply Dev.Keeps.step Dev.checkBindings_keeps | apply Dev.Keeps.ite | apply Dev.Keeps.foldl
      | (show (_ : Bool) = _; decide +kernel) | (show _ ∈ _; decide +kernel) | (show _ < _; decide +kernel) | split | dsimp only

theorem Dev.stepTook_keeps {d : Dev} {n ms : Nat} : Dev.Keeps recordRegs recordParts d (Dev.stepTook d n ms) := by
  unfold Dev.stepTook
  with_reducible repeat'
    first
      | intro x | assumption | apply Dev.Keeps.refl | apply Dev.Keeps.when | apply Dev.Keeps.step Dev.record_keeps
      | apply Dev.Keeps.ite | apply Dev.Keeps.foldl | (show (_ : Bool) = _; decide +kernel) | (show _ ∈ _; decide +kernel)
      | (show _ < _; decide +kernel) | split | dsimp only

theorem Dev.startEngine_keeps {d : Dev} {e : Nat} : Dev.Keeps [] [.endpoints] d (Dev.startEngine d e) := by
  unfold Dev.startEngine
  with_reducible repeat'
    first
      | intro x | assumption | apply Dev.Keeps.refl | apply Dev.Keeps.step Dev.setEndpoint_keeps | apply Dev.Keeps.ite
      | apply Dev.Keeps.foldl | (show (_ : Bool) = _; decide +kernel) | (show _ ∈ _; decide +kernel) | (show _ < _; decide +kernel)
      | split | dsimp only

theorem Dev.installRoute_keeps {d : Dev} {e : RouteEntry} : Dev.Keeps [.RTE_GRP_SLOT, .RTE_MRT] [] d (Dev.installRoute d e) := by
  unfold Dev.installRoute
  with_reducible repeat'
    first
      | intro x | assumption | apply Dev.Keeps.refl | apply Dev.Keeps.put | apply Dev.Keeps.forEach
      | apply Dev.Keeps.step Dev.writeSlot_keeps | apply Dev.Keeps.ite | apply Dev.Keeps.foldl | (show (_ : Bool) = _; decide +kernel)
      | (show _ ∈ _; decide +kernel) | (show _ < _; decide +kernel) | split | dsimp only

theorem Dev.setNode_keeps {d : Dev} {n : Node} : Dev.Keeps [] [.topo] d (Dev.setNode d n) := by
  unfold Dev.setNode
  with_reducible repeat'
    first
      | intro x | assumption | apply Dev.Keeps.refl | apply Dev.Keeps.ite | apply Dev.Keeps.foldl
      | (show (_ : Bool) = _; decide +kernel) | (show _ ∈ _; decide +kernel) | (show _ < _; decide +kernel) | split
      | apply Dev.Keeps.set_topo | dsimp only

theorem Dev.sendAdmit_keeps {d : Dev} {nv : NonVolatile} {serial id registrar : Nat} : Dev.Keeps [] [.arrived] d (Dev.sendAdmit d nv
    serial id registrar) := by
  unfold Dev.sendAdmit
  with_reducible repeat'
    first
      | intro x | assumption | apply Dev.Keeps.refl | apply Dev.Keeps.step Dev.mgmt_keeps | apply Dev.Keeps.ite
      | apply Dev.Keeps.foldl | (show (_ : Bool) = _; decide +kernel) | (show _ ∈ _; decide +kernel) | (show _ < _; decide +kernel)
      | split | dsimp only

theorem Dev.bindStored_keeps {d : Dev} {lv : Nat} {x : SavedBinding × RemoteEp} : Dev.Keeps (.ATT_CTL :: .ATT_EP_HI :: .ATT_EP_LO ::
    .ATT_FPID :: .ATT_HOST_HI :: .ATT_HOST_LO :: .EBR_CRD_AUDIT :: .EBR_CRD_AVAIL :: .EBR_CRD_GRANT :: .PIN_CTL :: .PIN_DST :: .PIN_OLD
    :: .PIN_SRC :: .PIN_TCUT_HI :: .PIN_TCUT_LO :: .RTE_EVENTS :: .TRK_CPL_RSV :: .TRK_FREE :: recordRegs) (.arrived :: .atts :: .dwins
    :: .endpoints :: .limited :: .pins :: .slots :: .vports :: .wins :: recordParts) d (Dev.bindStored d lv x) := by
  unfold Dev.bindStored
  with_reducible repeat'
    first
      | intro x | assumption | apply Dev.Keeps.refl | apply Dev.Keeps.ite | apply Dev.Keeps.foldl
      | (show (_ : Bool) = _; decide +kernel) | (show _ ∈ _; decide +kernel) | (show _ < _; decide +kernel) | split
      | refine Dev.Keeps.step (Dev.bindSteps_keeps (by assumption)) ?_ ?_ ?_ | dsimp only

theorem Dev.setStep_keeps {d : Dev} {n : Nat} : Dev.Keeps [.CUR_START_STATUS] [.out] d (Dev.setStep d n) := by
  unfold Dev.setStep
  with_reducible repeat'
    first
      | intro x | assumption | apply Dev.Keeps.refl | apply Dev.Keeps.put | apply Dev.Keeps.step Dev.emit_keeps | apply Dev.Keeps.ite
      | apply Dev.Keeps.foldl | (show (_ : Bool) = _; decide +kernel) | (show _ ∈ _; decide +kernel) | (show _ < _; decide +kernel)
      | split | dsimp only

end Sys2Proof.Machine
end

