-- ==== Sys2Proof/Laws/KeepsRegisters.lean ====
section
/-! SUPPORT. What each operation of Machine/Registers.lean may change: every register and structure outside the lists named stays as it was. -/

set_option Elab.async false
set_option linter.all false

namespace Sys2Proof.Machine

theorem Dev.accessAtRecord_keeps {d : Dev} {what master : Nat} {place : RegAt} : Dev.Keeps recordRegs recordParts d (Dev.accessAtRecord
    d what master place) := by
  unfold Dev.accessAtRecord
  with_reducible repeat'
    first
      | intro x | assumption | apply Dev.Keeps.refl | apply Dev.Keeps.step Dev.accessRecord_keeps | apply Dev.Keeps.ite
      | apply Dev.Keeps.foldl | (show (_ : Bool) = _; decide +kernel) | (show _ ∈ _; decide +kernel) | (show _ < _; decide +kernel)
      | split | dsimp only

theorem Dev.writeQueueCfg_keeps {d : Dev} {q v : Nat} : Dev.Keeps (.BSN_EVENTS :: .BSN_Q_CFG :: .BSN_RESERVED :: .BSN_SHARED_SIZE ::
    recordRegs) recordParts d (Dev.writeQueueCfg d q v) := by
  unfold Dev.writeQueueCfg
  with_reducible repeat'
    first
      | intro x | assumption | apply Dev.Keeps.refl | apply Dev.Keeps.put | apply Dev.Keeps.step (Dev.raise_keeps ?_)
      | apply Dev.Keeps.step Dev.setReserved_keeps | apply Dev.Keeps.ite | apply Dev.Keeps.foldl
      | (show (_ : Bool) = _; decide +kernel) | (show _ ∈ _; decide +kernel) | (show _ < _; decide +kernel) | split | dsimp only

theorem Dev.writeChannel_keeps {d : Dev} {master : Nat} {r : Reg} {c v : Nat} : Dev.Keeps (.MBX_CH_PTR_HI :: .MBX_CH_PTR_LO ::
    .MBX_CH_STATUS :: recordRegs) (.chans :: recordParts) d (Dev.writeChannel d master r c v) := by
  unfold Dev.writeChannel
  with_reducible repeat'
    first
      | intro x | assumption | apply Dev.Keeps.refl | apply Dev.Keeps.put | apply Dev.Keeps.when
      | apply Dev.Keeps.step Dev.channelRefused_keeps | apply Dev.Keeps.step Dev.writePop_keeps
      | apply Dev.Keeps.step Dev.writePtrHi_keeps | apply Dev.Keeps.ite | apply Dev.Keeps.foldl
      | (show (_ : Bool) = _; decide +kernel) | (show _ ∈ _; decide +kernel) | (show _ < _; decide +kernel) | split | dsimp only

theorem Dev.writeMarginCtl_keeps {d : Dev} {n v : Nat} : Dev.Keeps [.LNA_MRG_CTL, .LNA_MRG_RESULT, .LNA_TRAIN_REF] [.cmds, .lanes,
    .ports] d (Dev.writeMarginCtl d n v) := by
  unfold Dev.writeMarginCtl
  with_reducible repeat'
    first
      | intro x | assumption | apply Dev.Keeps.refl | apply Dev.Keeps.when | apply Dev.Keeps.step Dev.abortScan_keeps
      | apply Dev.Keeps.step Dev.startScan_keeps | apply Dev.Keeps.step Dev.writeMargin_keeps | apply Dev.Keeps.ite
      | apply Dev.Keeps.foldl | (show (_ : Bool) = _; decide +kernel) | (show _ ∈ _; decide +kernel) | (show _ < _; decide +kernel)
      | split | dsimp only

theorem Dev.writeLaneCfg_keeps {d : Dev} {n v : Nat} : Dev.Keeps (.FLL_LINK_STATUS :: .FLL_REPLAY :: .LNA_ALIGN :: .LNA_LANE_CFG ::
    .LNA_LANE_STATE :: .LNA_MRG_RESULT :: .LNA_RX_EQ :: .LNA_TRAIN_REF :: .LNA_TX_EQ :: .PIN_CTL :: .PIN_OLD :: .RTE_EVENTS ::
    .RTE_GRP_SLOT :: .WR_Q_DRR :: recordRegs) (.arrived :: .cellsFree :: .cmds :: .dwins :: .eqReported :: .lanes :: .links :: .outs ::
    .pausedLinks :: .pins :: .ports :: .queues :: recordParts) d (Dev.writeLaneCfg d n v) := by
  unfold Dev.writeLaneCfg
  with_reducible repeat'
    first
      | intro x | assumption | apply Dev.Keeps.refl | apply Dev.Keeps.put | apply Dev.Keeps.when
      | apply Dev.Keeps.step Dev.clearEnable_keeps | apply Dev.Keeps.step Dev.enableLane_keeps | apply Dev.Keeps.ite
      | apply Dev.Keeps.foldl | (show (_ : Bool) = _; decide +kernel) | (show _ ∈ _; decide +kernel) | (show _ < _; decide +kernel)
      | split | dsimp only

theorem Dev.writeEfCtl_keeps {d : Dev} {master n v : Nat} : Dev.Keeps (.EBR_EVENTS :: .EBR_SIDEBAND :: .EF_CTL :: .EF_EVENTS ::
    .EF_STATUS :: .PD_EVENTS :: .PD_POOL_USED :: .PD_PORT_STATUS :: .PWR_CAGE_USED :: recordRegs) (.arrived :: .efQueue :: .efuses ::
    .pds :: .perstReleased :: .sbSeq :: .vports :: recordParts) d (Dev.writeEfCtl d master n v) := by
  unfold Dev.writeEfCtl
  with_reducible repeat'
    first
      | intro x | assumption | apply Dev.Keeps.refl | apply Dev.Keeps.step Dev.efDisable_keeps
      | apply Dev.Keeps.step Dev.efEnable_keeps | apply Dev.Keeps.ite | apply Dev.Keeps.foldl | (show (_ : Bool) = _; decide +kernel)
      | (show _ ∈ _; decide +kernel) | (show _ < _; decide +kernel) | split | dsimp only

theorem Dev.writePadHold_keeps {d : Dev} {v : Nat} : Dev.Keeps [.PWR_PAD_HOLD] [] d (Dev.writePadHold d v) := by
  unfold Dev.writePadHold
  with_reducible repeat'
    first
      | intro x | assumption | apply Dev.Keeps.refl | apply Dev.Keeps.put | apply Dev.Keeps.ite | apply Dev.Keeps.foldl
      | (show (_ : Bool) = _; decide +kernel) | (show _ ∈ _; decide +kernel) | (show _ < _; decide +kernel) | split | dsimp only

theorem Dev.writeWeirQueue_keeps {d : Dev} {master q v : Nat} {place : RegAt} : Dev.Keeps (.WR_Q_CFG :: recordRegs) recordParts d
    (Dev.writeWeirQueue d master q v place) := by
  unfold Dev.writeWeirQueue
  with_reducible repeat'
    first
      | intro x | assumption | apply Dev.Keeps.refl | apply Dev.Keeps.put | apply Dev.Keeps.step Dev.accessAtRecord_keeps
      | apply Dev.Keeps.ite | apply Dev.Keeps.foldl | (show (_ : Bool) = _; decide +kernel) | (show _ ∈ _; decide +kernel)
      | (show _ < _; decide +kernel) | split | dsimp only

end Sys2Proof.Machine
end

