-- ==== Sys2Proof/Laws/KeepsBridge.lean ====
section
/-! SUPPORT. What each operation of Machine/Bridge.lean may change: every register and structure outside the lists named stays as it was. -/

set_option Elab.async false
set_option linter.all false

namespace Sys2Proof.Machine

theorem Dev.sendIn_keeps {d : Dev} {p dst gvh k : Nat} {cls : Cls} {fromHost : Bool} {b : Body} : Dev.Keeps [.EBR_CRD_AVAIL] [.arrived,
    .ctrs, .heldTlps, .out, .outs, .trk, .wins, .withheld] d (Dev.sendIn d p dst gvh k cls fromHost b) := by
  unfold Dev.sendIn
  with_reducible repeat'
    first
      | intro x | assumption | apply Dev.Keeps.refl | apply Dev.Keeps.step Dev.inject_keeps | apply Dev.Keeps.ite
      | apply Dev.Keeps.foldl | (show (_ : Bool) = _; decide +kernel) | (show _ ∈ _; decide +kernel) | (show _ < _; decide +kernel)
      | split | dsimp only

theorem Dev.toBinding_keeps {d : Dev} {lv p : Nat} {b : Binding} {t : Tlp} : Dev.Keeps (.EBR_CRD_AVAIL :: .VIT_EVENTS :: recordRegs)
    (.arrived :: .heldTlps :: .outs :: .trk :: .wins :: .withheld :: recordParts) d (Dev.toBinding d lv p b t) := by
  unfold Dev.toBinding
  with_reducible repeat'
    first
      | intro x | assumption | apply Dev.Keeps.refl | apply Dev.Keeps.when | apply Dev.Keeps.step Dev.refuse_keeps
      | apply Dev.Keeps.step Dev.sendIn_keeps | apply Dev.Keeps.step Dev.stray_keeps | apply Dev.Keeps.ite | apply Dev.Keeps.foldl
      | (show (_ : Bool) = _; decide +kernel) | (show _ ∈ _; decide +kernel) | (show _ < _; decide +kernel) | split | dsimp only

theorem Dev.lockRefused_keeps {d : Dev} {lv p : Nat} {t : Tlp} : Dev.Keeps (.EBR_EVENTS :: recordRegs) recordParts d (Dev.lockRefused d
    lv p t) := by
  unfold Dev.lockRefused
  with_reducible repeat'
    first
      | intro x | assumption | apply Dev.Keeps.refl | apply Dev.Keeps.step Dev.count_keeps | apply Dev.Keeps.step (Dev.raise_keeps ?_)
      | apply Dev.Keeps.step Dev.refuse_keeps | apply Dev.Keeps.ite | apply Dev.Keeps.foldl | (show (_ : Bool) = _; decide +kernel)
      | (show _ ∈ _; decide +kernel) | (show _ < _; decide +kernel) | split | dsimp only

theorem Dev.toEntry_keeps {d : Dev} {lv p n : Nat} {e : Att} {t : Tlp} : Dev.Keeps (.EBR_CRD_AVAIL :: .EBR_EVENTS :: .VIT_EVENTS ::
    recordRegs) (.arrived :: .heldTlps :: .outs :: .trk :: .wins :: .withheld :: recordParts) d (Dev.toEntry d lv p n e t) := by
  unfold Dev.toEntry
  with_reducible repeat'
    first
      | intro x | assumption | apply Dev.Keeps.refl | apply Dev.Keeps.when | apply Dev.Keeps.step Dev.lockRefused_keeps
      | apply Dev.Keeps.step Dev.sendIn_keeps | apply Dev.Keeps.step Dev.setVit_keeps | apply Dev.Keeps.step Dev.toBinding_keeps
      | apply Dev.Keeps.ite | apply Dev.Keeps.foldl | (show (_ : Bool) = _; decide +kernel) | (show _ ∈ _; decide +kernel)
      | (show _ < _; decide +kernel) | split | dsimp only

theorem Dev.hostMemory_keeps {d : Dev} {lv p : Nat} {t : Tlp} : Dev.Keeps (.EBR_CRD_AVAIL :: .EBR_EVENTS :: .VIT_EVENTS :: recordRegs)
    (.arrived :: .heldTlps :: .outs :: .trk :: .wins :: .withheld :: recordParts) d (Dev.hostMemory d lv p t) := by
  unfold Dev.hostMemory
  with_reducible repeat'
    first
      | intro x | assumption | apply Dev.Keeps.refl | apply Dev.Keeps.when | apply Dev.Keeps.step Dev.count_keeps
      | apply Dev.Keeps.step Dev.record_keeps | apply Dev.Keeps.step Dev.refuse_keeps | apply Dev.Keeps.step Dev.toEntry_keeps
      | apply Dev.Keeps.ite | apply Dev.Keeps.foldl | (show (_ : Bool) = _; decide +kernel) | (show _ ∈ _; decide +kernel)
      | (show _ < _; decide +kernel) | split | dsimp only

theorem Dev.countOut_keeps {d : Dev} {p : Nat} {t : Tlp} : Dev.Keeps [] [.ctrs] d (Dev.countOut d p t) := by
  unfold Dev.countOut
  with_reducible repeat'
    first
      | intro x | assumption | apply Dev.Keeps.refl | apply Dev.Keeps.step Dev.count_keeps | apply Dev.Keeps.ite
      | apply Dev.Keeps.foldl | (show (_ : Bool) = _; decide +kernel) | (show _ ∈ _; decide +kernel) | (show _ < _; decide +kernel)
      | split | dsimp only

theorem Dev.sendTlp_keeps {d : Dev} {p : Nat} {e : Option Nat} {t : Tlp} : Dev.Keeps [] [.ctrs, .out] d (Dev.sendTlp d p e t) := by
  unfold Dev.sendTlp
  with_reducible repeat'
    first
      | intro x | assumption | apply Dev.Keeps.refl | apply Dev.Keeps.step Dev.countOut_keeps | apply Dev.Keeps.step Dev.linkTlp_keeps
      | apply Dev.Keeps.ite | apply Dev.Keeps.foldl | (show (_ : Bool) = _; decide +kernel) | (show _ ∈ _; decide +kernel)
      | (show _ < _; decide +kernel) | split | dsimp only

theorem Dev.windowEnds_keeps {d : Dev} {poison : Bool} {t : Tlp} : Dev.Keeps (.EBR_PFLOG_HEAD :: .EBR_RAT_PFDISC_HI ::
    .EBR_RAT_PFDISC_LO :: recordRegs) (.cores :: .pfLines :: .pfLog :: .pfSeq :: .winFetches :: .winReads :: recordParts) d
    (Dev.windowEnds d poison t) := by
  unfold Dev.windowEnds
  with_reducible repeat'
    first
      | intro x | assumption | apply Dev.Keeps.refl | apply Dev.Keeps.step Dev.windowData_keeps
      | apply Dev.Keeps.step Dev.windowError_keeps | apply Dev.Keeps.ite | apply Dev.Keeps.foldl
      | (show (_ : Bool) = _; decide +kernel) | (show _ ∈ _; decide +kernel) | (show _ < _; decide +kernel) | split | dsimp only

theorem Dev.deliverCompletion_keeps {d : Dev} {p : Nat} {f : Frame} : Dev.Keeps (.EBR_PFLOG_HEAD :: .EBR_RAT_PFDISC_HI ::
    .EBR_RAT_PFDISC_LO :: recordRegs) (.cores :: .pfLines :: .pfLog :: .pfSeq :: .winFetches :: .winReads :: recordParts) d
    (Dev.deliverCompletion d p f) := by
  unfold Dev.deliverCompletion
  with_reducible repeat'
    first
      | intro x | assumption | apply Dev.Keeps.refl | apply Dev.Keeps.when | apply Dev.Keeps.step Dev.count_keeps
      | apply Dev.Keeps.step Dev.emit_keeps | apply Dev.Keeps.step Dev.sendTlp_keeps | apply Dev.Keeps.step Dev.setVit_keeps
      | apply Dev.Keeps.step Dev.windowEnds_keeps | apply Dev.Keeps.ite | apply Dev.Keeps.foldl
      | (show (_ : Bool) = _; decide +kernel) | (show _ ∈ _; decide +kernel) | (show _ < _; decide +kernel) | split | dsimp only

theorem Dev.discardMessage_keeps {d : Dev} {p : Nat} : Dev.Keeps recordRegs recordParts d (Dev.discardMessage d p) := by
  unfold Dev.discardMessage
  with_reducible repeat'
    first
      | intro x | assumption | apply Dev.Keeps.refl | apply Dev.Keeps.step Dev.record_keeps | apply Dev.Keeps.ite
      | apply Dev.Keeps.foldl | (show (_ : Bool) = _; decide +kernel) | (show _ ∈ _; decide +kernel) | (show _ < _; decide +kernel)
      | split | dsimp only

theorem Dev.poisonNoData_keeps {d : Dev} {p : Nat} {f : Frame} : Dev.Keeps (.EBR_CRD_AVAIL :: .EBR_PFLOG_HEAD :: .EBR_RAT_PFDISC_HI ::
    .EBR_RAT_PFDISC_LO :: recordRegs) (.arrived :: .cores :: .heldTlps :: .outs :: .pfLog :: .pfSeq :: .trk :: .winFetches :: .winReads
    :: .wins :: .withheld :: recordParts) d (Dev.poisonNoData d p f) := by
  unfold Dev.poisonNoData
  with_reducible repeat'
    first
      | intro x | assumption | apply Dev.Keeps.refl | apply Dev.Keeps.when | apply Dev.Keeps.step Dev.answerEntry_keeps
      | apply Dev.Keeps.step Dev.freeEntry_keeps | apply Dev.Keeps.step Dev.inject_keeps | apply Dev.Keeps.step Dev.record_keeps
      | apply Dev.Keeps.step Dev.retryHeld_keeps | apply Dev.Keeps.ite | apply Dev.Keeps.foldl | (show (_ : Bool) = _; decide +kernel)
      | (show _ ∈ _; decide +kernel) | (show _ < _; decide +kernel) | split | dsimp only

theorem Dev.answerWord_keeps {d : Dev} {p : Nat} {t : Tlp} {v : Nat} : Dev.Keeps [] [.ctrs, .out] d (Dev.answerWord d p t v) := by
  unfold Dev.answerWord
  with_reducible repeat'
    first
      | intro x | assumption | apply Dev.Keeps.refl | apply Dev.Keeps.step Dev.answer_keeps | apply Dev.Keeps.ite
      | apply Dev.Keeps.foldl | (show (_ : Bool) = _; decide +kernel) | (show _ ∈ _; decide +kernel) | (show _ < _; decide +kernel)
      | split | dsimp only

theorem Dev.hostMessage_keeps {d : Dev} {lv p : Nat} {t : Tlp} : Dev.Keeps (.EBR_CRD_AVAIL :: .VIT_EVENTS :: recordRegs) (.arrived ::
    .heldTlps :: .outs :: .trk :: .wins :: .withheld :: recordParts) d (Dev.hostMessage d lv p t) := by
  unfold Dev.hostMessage
  with_reducible repeat'
    first
      | intro x | assumption | apply Dev.Keeps.refl | apply Dev.Keeps.forEach | apply Dev.Keeps.step Dev.toBinding_keeps
      | apply Dev.Keeps.ite | apply Dev.Keeps.foldl | (show (_ : Bool) = _; decide +kernel) | (show _ ∈ _; decide +kernel)
      | (show _ < _; decide +kernel) | split | dsimp only

theorem Dev.answerDone_keeps {d : Dev} {p : Nat} {t : Tlp} : Dev.Keeps [] [.ctrs, .out] d (Dev.answerDone d p t) := by
  unfold Dev.answerDone
  with_reducible repeat'
    first
      | intro x | assumption | apply Dev.Keeps.refl | apply Dev.Keeps.step Dev.answer_keeps | apply Dev.Keeps.ite
      | apply Dev.Keeps.foldl | (show (_ : Bool) = _; decide +kernel) | (show _ ∈ _; decide +kernel) | (show _ < _; decide +kernel)
      | split | dsimp only

theorem Dev.hostBar_keeps {d : Dev} {lv p : Nat} {b : Binding} {n : Nat} {upper wide : Bool} {t : Tlp} : Dev.Keeps [.ATT_CTL,
    .ATT_EP_HI, .ATT_EP_LO, .ATT_FPID, .ATT_HOST_HI, .ATT_HOST_LO] [.atts, .ctrs, .drawn, .out, .vits] d (Dev.hostBar d lv p b n upper
    wide t) := by
  unfold Dev.hostBar
  with_reducible repeat'
    first
      | intro x | assumption | apply Dev.Keeps.refl | apply Dev.Keeps.step Dev.answerDone_keeps
      | apply Dev.Keeps.step Dev.answerWord_keeps | apply Dev.Keeps.step Dev.draw_keeps | apply Dev.Keeps.step Dev.writeBar_keeps
      | apply Dev.Keeps.ite | apply Dev.Keeps.foldl | (show (_ : Bool) = _; decide +kernel) | (show _ ∈ _; decide +kernel)
      | (show _ < _; decide +kernel) | split | refine Dev.Keeps.pair Dev.draw_keeps (by assumption) ?_ ?_ ?_ | dsimp only

theorem Dev.hostToEndpoint_keeps {d : Dev} {lv p : Nat} {b : Binding} {t : Tlp} : Dev.Keeps (.ATT_CTL :: .ATT_EP_HI :: .ATT_EP_LO ::
    .ATT_FPID :: .ATT_HOST_HI :: .ATT_HOST_LO :: .EBR_CRD_AVAIL :: .VIT_EVENTS :: recordRegs) (.arrived :: .atts :: .drawn :: .heldTlps
    :: .outs :: .trk :: .wins :: .withheld :: recordParts) d (Dev.hostToEndpoint d lv p b t) := by
  unfold Dev.hostToEndpoint
  with_reducible repeat'
    first
      | intro x | assumption | apply Dev.Keeps.refl | apply Dev.Keeps.when | apply Dev.Keeps.step Dev.hostBar_keeps
      | apply Dev.Keeps.step Dev.refuse_keeps | apply Dev.Keeps.step Dev.stray_keeps | apply Dev.Keeps.step Dev.toBinding_keeps
      | apply Dev.Keeps.ite | apply Dev.Keeps.foldl | (show (_ : Bool) = _; decide +kernel) | (show _ ∈ _; decide +kernel)
      | (show _ < _; decide +kernel) | split | dsimp only

theorem Dev.takeTag_keeps {d : Dev} {p : Nat} {f : Frame} {cto : Nat} : Dev.Keeps [] [.trk] d (Dev.takeTag d p f cto).2 := by
  unfold Dev.takeTag
  with_reducible repeat'
    first
      | intro x | assumption | apply Dev.Keeps.refl | apply Dev.Keeps.step Dev.takeEntry_keeps | apply Dev.Keeps.ite
      | apply Dev.Keeps.foldl | (show (_ : Bool) = _; decide +kernel) | (show _ ∈ _; decide +kernel) | (show _ < _; decide +kernel)
      | split | refine Dev.Keeps.pair Dev.takeEntry_keeps (by assumption) ?_ ?_ ?_ | dsimp only

theorem Dev.memEgress_keeps {d : Dev} {p : Nat} {f : Frame} {m : MemMsg} : Dev.Keeps (.EBR_CRD_AVAIL :: .EBR_PFLOG_HEAD ::
    .EBR_RAT_PFDISC_HI :: .EBR_RAT_PFDISC_LO :: recordRegs) (.arrived :: .cores :: .heldTlps :: .outs :: .pfLog :: .pfSeq :: .trk ::
    .winFetches :: .winReads :: .wins :: .withheld :: recordParts) d (Dev.memEgress d p f m) := by
  unfold Dev.memEgress
  with_reducible repeat'
    first
      | intro x | assumption | apply Dev.Keeps.refl | apply Dev.Keeps.when | apply Dev.Keeps.step Dev.answerEntry_keeps
      | apply Dev.Keeps.step Dev.emit_keeps | apply Dev.Keeps.step Dev.freeEntry_keeps | apply Dev.Keeps.step Dev.inject_keeps
      | apply Dev.Keeps.step Dev.retryHeld_keeps | apply Dev.Keeps.step Dev.takeTag_keeps | apply Dev.Keeps.ite
      | apply Dev.Keeps.foldl | (show (_ : Bool) = _; decide +kernel) | (show _ ∈ _; decide +kernel) | (show _ < _; decide +kernel)
      | split | refine Dev.Keeps.pair Dev.takeTag_keeps (by assumption) ?_ ?_ ?_ | dsimp only

theorem Dev.endpointTlp_keeps {d : Dev} {p : Nat} {b : EpBind} {t : Tlp} : Dev.Keeps [.EBR_CRD_AVAIL] [.arrived, .ctrs, .heldTlps, .out,
    .outs, .trk, .wins, .withheld] d (Dev.endpointTlp d p b t) := by
  unfold Dev.endpointTlp
  with_reducible repeat'
    first
      | intro x | assumption | apply Dev.Keeps.refl | apply Dev.Keeps.step Dev.sendIn_keeps | apply Dev.Keeps.ite
      | apply Dev.Keeps.foldl | (show (_ : Bool) = _; decide +kernel) | (show _ ∈ _; decide +kernel) | (show _ < _; decide +kernel)
      | split | dsimp only

theorem Dev.reportEcrc_keeps {d : Dev} {p : Nat} {t : Tlp} : Dev.Keeps [] [.arrived, .ctrs, .vits, .vports] d (Dev.reportEcrc d p t) :=
    by
  unfold Dev.reportEcrc
  with_reducible repeat'
    first
      | intro x | assumption | apply Dev.Keeps.refl | apply Dev.Keeps.step Dev.aer_keeps | apply Dev.Keeps.step Dev.count_keeps
      | apply Dev.Keeps.step Dev.setVit_keeps | apply Dev.Keeps.step Dev.tell_keeps | apply Dev.Keeps.ite | apply Dev.Keeps.foldl
      | (show (_ : Bool) = _; decide +kernel) | (show _ ∈ _; decide +kernel) | (show _ < _; decide +kernel) | split | dsimp only

theorem Dev.hostIo_keeps {d : Dev} {lv p : Nat} {t : Tlp} : Dev.Keeps (.EBR_CRD_AVAIL :: .VIT_EVENTS :: recordRegs) (.arrived ::
    .heldTlps :: .outs :: .trk :: .wins :: .withheld :: recordParts) d (Dev.hostIo d lv p t) := by
  unfold Dev.hostIo
  with_reducible repeat'
    first
      | intro x | assumption | apply Dev.Keeps.refl | apply Dev.Keeps.step Dev.refuse_keeps | apply Dev.Keeps.step Dev.toBinding_keeps
      | apply Dev.Keeps.ite | apply Dev.Keeps.foldl | (show (_ : Bool) = _; decide +kernel) | (show _ ∈ _; decide +kernel)
      | (show _ < _; decide +kernel) | split | dsimp only

theorem Dev.countIn_keeps {d : Dev} {p : Nat} {t : Tlp} : Dev.Keeps [] [.ctrs] d (Dev.countIn d p t) := by
  unfold Dev.countIn
  with_reducible repeat'
    first
      | intro x | assumption | apply Dev.Keeps.refl | apply Dev.Keeps.step Dev.count_keeps | apply Dev.Keeps.ite
      | apply Dev.Keeps.foldl | (show (_ : Bool) = _; decide +kernel) | (show _ ∈ _; decide +kernel) | (show _ < _; decide +kernel)
      | split | dsimp only

theorem Dev.deviceIngress_keeps {d : Dev} {p : Nat} {t : Tlp} : Dev.Keeps (.EBR_CRD_AVAIL :: .EBR_EVENTS :: .EBR_LOCK :: .SLC_INJ_ARMED
    :: .TEL_MODE :: .VIT_EVENTS :: recordRegs) (.arrived :: .heldCpls :: .heldTlps :: .injections :: .limited :: .lockSince :: .lockSrc
    :: .outs :: .queues :: .trk :: .vports :: .wins :: .withheld :: recordParts) d (Dev.deviceIngress d p t) := by
  unfold Dev.deviceIngress
  with_reducible repeat'
    first
      | intro x | assumption | apply Dev.Keeps.refl | apply Dev.Keeps.step Dev.count_keeps
      | apply Dev.Keeps.step Dev.discardMessage_keeps | apply Dev.Keeps.step Dev.endpointTlp_keeps
      | apply Dev.Keeps.step (Dev.raise_keeps ?_) | apply Dev.Keeps.step Dev.receiveCompletion_keeps
      | apply Dev.Keeps.step Dev.recordLimited_keeps | apply Dev.Keeps.step Dev.refuse_keeps | apply Dev.Keeps.step Dev.stray_keeps
      | apply Dev.Keeps.ite | apply Dev.Keeps.foldl | (show (_ : Bool) = _; decide +kernel) | (show _ ∈ _; decide +kernel)
      | (show _ < _; decide +kernel) | split | dsimp only

theorem Dev.hostMem_keeps {d : Dev} {lv p : Nat} {m : MemMsg} : Dev.Keeps (.EBR_CRD_AVAIL :: .VIT_EVENTS :: recordRegs) (.arrived ::
    .heldTlps :: .outs :: .trk :: .wins :: .withheld :: recordParts) d (Dev.hostMem d lv p m) := by
  unfold Dev.hostMem
  with_reducible repeat'
    first
      | intro x | assumption | apply Dev.Keeps.refl | apply Dev.Keeps.when | apply Dev.Keeps.step Dev.count_keeps
      | apply Dev.Keeps.step Dev.refuseMem_keeps | apply Dev.Keeps.step Dev.sendIn_keeps | apply Dev.Keeps.step Dev.stray_keeps
      | apply Dev.Keeps.ite | apply Dev.Keeps.foldl | (show (_ : Bool) = _; decide +kernel) | (show _ ∈ _; decide +kernel)
      | (show _ < _; decide +kernel) | split | dsimp only

theorem Dev.hostEgress_keeps {d : Dev} {p : Nat} {f : Frame} {t : Tlp} : Dev.Keeps [.EBR_CRD_AVAIL] [.arrived, .ctrs, .heldTlps, .out,
    .outs, .trk, .vits, .wins, .withheld] d (Dev.hostEgress d p f t) := by
  unfold Dev.hostEgress
  with_reducible repeat'
    first
      | intro x | assumption | apply Dev.Keeps.refl | apply Dev.Keeps.step Dev.sendIn_keeps | apply Dev.Keeps.step Dev.sendTlp_keeps
      | apply Dev.Keeps.step Dev.takeIntx_keeps | apply Dev.Keeps.step Dev.takeTag_keeps | apply Dev.Keeps.ite | apply Dev.Keeps.foldl
      | (show (_ : Bool) = _; decide +kernel) | (show _ ∈ _; decide +kernel) | (show _ < _; decide +kernel) | split
      | refine Dev.Keeps.pair Dev.takeTag_keeps (by assumption) ?_ ?_ ?_ | dsimp only

theorem Dev.unpresented_keeps {d : Dev} {p : Nat} {t : Tlp} : Dev.Keeps [] [.ctrs, .out] d (Dev.unpresented d p t) := by
  unfold Dev.unpresented
  with_reducible repeat'
    first
      | intro x | assumption | apply Dev.Keeps.refl | apply Dev.Keeps.step Dev.refuse_keeps | apply Dev.Keeps.ite
      | apply Dev.Keeps.foldl | (show (_ : Bool) = _; decide +kernel) | (show _ ∈ _; decide +kernel) | (show _ < _; decide +kernel)
      | split | dsimp only

theorem Dev.flowCheck_keeps {d : Dev} {p : Nat} {f : Frame} : Dev.Keeps (.RTE_EVENTS :: recordRegs) (.dwins :: .limited :: recordParts)
    d (Dev.flowCheck d p f).2 := by
  unfold Dev.flowCheck
  with_reducible repeat'
    first
      | intro x | assumption | apply Dev.Keeps.refl | apply Dev.Keeps.step Dev.count_keeps
      | apply Dev.Keeps.step (Dev.raiseLimited_keeps ?_) | apply Dev.Keeps.step Dev.setDwin_keeps | apply Dev.Keeps.ite
      | apply Dev.Keeps.foldl | (show (_ : Bool) = _; decide +kernel) | (show _ ∈ _; decide +kernel) | (show _ < _; decide +kernel)
      | split | dsimp only

theorem Dev.componentAccess_keeps {d : Dev} {lv p off : Nat} {t : Tlp} : Dev.Keeps [] [.cfg, .ctrs, .drawn, .out, .vits] d
    (Dev.componentAccess d lv p off t) := by
  unfold Dev.componentAccess
  with_reducible repeat'
    first
      | intro x | assumption | apply Dev.Keeps.refl | apply Dev.Keeps.when | apply Dev.Keeps.step Dev.answer_keeps
      | apply Dev.Keeps.step Dev.readComponent_keeps | apply Dev.Keeps.step Dev.refuse_keeps
      | apply Dev.Keeps.step Dev.writeComponent_keeps | apply Dev.Keeps.ite | apply Dev.Keeps.foldl
      | (show (_ : Bool) = _; decide +kernel) | (show _ ∈ _; decide +kernel) | (show _ < _; decide +kernel) | split
      | refine Dev.Keeps.pair Dev.readComponent_keeps (by assumption) ?_ ?_ ?_ | dsimp only

theorem Dev.hostUnlock_keeps {d : Dev} {lv p : Nat} {t : Tlp} : Dev.Keeps [.EBR_CRD_AVAIL] [.arrived, .ctrs, .heldTlps, .out, .outs,
    .trk, .vits, .wins, .withheld] d (Dev.hostUnlock d lv p t) := by
  unfold Dev.hostUnlock
  with_reducible repeat'
    first
      | intro x | assumption | apply Dev.Keeps.refl | apply Dev.Keeps.step Dev.sendIn_keeps | apply Dev.Keeps.step Dev.setVit_keeps
      | apply Dev.Keeps.ite | apply Dev.Keeps.foldl | (show (_ : Bool) = _; decide +kernel) | (show _ ∈ _; decide +kernel)
      | (show _ < _; decide +kernel) | split | dsimp only

theorem Dev.completionEgress_keeps {d : Dev} {p : Nat} {f : Frame} : Dev.Keeps (.EBR_CRD_AVAIL :: .EBR_PFLOG_HEAD :: .EBR_RAT_PFDISC_HI
    :: .EBR_RAT_PFDISC_LO :: recordRegs) (.arrived :: .cores :: .heldTlps :: .lates :: .limited :: .outs :: .pfLines :: .pfLog :: .pfSeq
    :: .trk :: .vports :: .winFetches :: .winReads :: .wins :: .withheld :: recordParts) d (Dev.completionEgress d p f) := by
  unfold Dev.completionEgress
  with_reducible repeat'
    first
      | intro x | assumption | apply Dev.Keeps.refl | apply Dev.Keeps.when | apply Dev.Keeps.step Dev.deliverCompletion_keeps
      | apply Dev.Keeps.step Dev.dropSquashed_keeps | apply Dev.Keeps.step Dev.freeEntry_keeps
      | apply Dev.Keeps.step Dev.retryHeld_keeps | apply Dev.Keeps.step Dev.strayFrame_keeps | apply Dev.Keeps.ite
      | apply Dev.Keeps.foldl | (show (_ : Bool) = _; decide +kernel) | (show _ ∈ _; decide +kernel) | (show _ < _; decide +kernel)
      | split | dsimp only

theorem Dev.hostConfig_keeps {d : Dev} {lv p : Nat} {t : Tlp} : Dev.Keeps (.ATT_CTL :: .ATT_EP_HI :: .ATT_EP_LO :: .ATT_FPID ::
    .ATT_HOST_HI :: .ATT_HOST_LO :: .EBR_CRD_AVAIL :: .EBR_EVENTS :: .EBR_SIDEBAND :: .EF_STATUS :: .LNA_ALIGN :: .LNA_LANE_STATE ::
    .LNA_MRG_RESULT :: .LNA_RX_EQ :: .LNA_TRAIN_REF :: .LNA_TX_EQ :: .MBX_CH_STATUS :: .PRT_LTR :: .PRT_PORT_STATUS :: .PWR_CAGE_USED ::
    .TUN_CE_GEOM :: .TUN_CE_IRQ :: .TUN_CE_MODE :: .TUN_CE_SCANOUT :: .TUN_CE_STATUS :: .TUN_CE_STRIDE :: .VIT_EVENTS :: .VMF_BME ::
    .VMF_CAT_ADDR_HI :: .VMF_CAT_ADDR_LO :: .VMF_CAT_SIZE :: .VMF_CAT_WPTR :: .VMF_CPL_TMO :: .VMF_EVENT_MASK :: .VMF_SPC_ADDR_HI ::
    .VMF_SPC_ADDR_LO :: .VMF_SPC_SIZE :: .VMF_SPC_WPTR :: recordRegs) (.arrived :: .atts :: .cats :: .cfg :: .chans :: .cmds :: .drawn
    :: .efQueue :: .efuses :: .endpoints :: .engines :: .eqReported :: .heldTlps :: .lanes :: .outs :: .perstReleased :: .ports ::
    .samples :: .sbSeq :: .spcs :: .trk :: .vmfs :: .vports :: .wins :: .withheld :: recordParts) d (Dev.hostConfig d lv p t) := by
  unfold Dev.hostConfig
  with_reducible repeat'
    first
      | intro x | assumption | apply Dev.Keeps.refl | apply Dev.Keeps.step Dev.answerDone_keeps
      | apply Dev.Keeps.step Dev.answerWord_keeps | apply Dev.Keeps.step Dev.hostToEndpoint_keeps
      | apply Dev.Keeps.step Dev.readFunction_keeps | apply Dev.Keeps.step Dev.refuse_keeps
      | apply Dev.Keeps.step Dev.writeFunction_keeps | apply Dev.Keeps.ite | apply Dev.Keeps.foldl
      | (show (_ : Bool) = _; decide +kernel) | (show _ ∈ _; decide +kernel) | (show _ < _; decide +kernel) | split
      | refine Dev.Keeps.pair Dev.readFunction_keeps (by assumption) ?_ ?_ ?_ | dsimp only

theorem Dev.hostTlp_keeps {d : Dev} {lv p : Nat} {t : Tlp} : Dev.Keeps (.ATT_CTL :: .ATT_EP_HI :: .ATT_EP_LO :: .ATT_FPID ::
    .ATT_HOST_HI :: .ATT_HOST_LO :: .EBR_CRD_AVAIL :: .EBR_EVENTS :: .EBR_LOCK :: .EBR_SIDEBAND :: .EF_STATUS :: .LNA_ALIGN ::
    .LNA_LANE_STATE :: .LNA_MRG_RESULT :: .LNA_RX_EQ :: .LNA_TRAIN_REF :: .LNA_TX_EQ :: .MBX_CH_STATUS :: .PRT_LTR :: .PRT_PORT_STATUS
    :: .PWR_CAGE_USED :: .SLC_INJ_ARMED :: .TEL_MODE :: .TUN_CE_GEOM :: .TUN_CE_IRQ :: .TUN_CE_MODE :: .TUN_CE_SCANOUT :: .TUN_CE_STATUS
    :: .TUN_CE_STRIDE :: .VIT_EVENTS :: .VMF_BME :: .VMF_CAT_ADDR_HI :: .VMF_CAT_ADDR_LO :: .VMF_CAT_SIZE :: .VMF_CAT_WPTR ::
    .VMF_CPL_TMO :: .VMF_EVENT_MASK :: .VMF_SPC_ADDR_HI :: .VMF_SPC_ADDR_LO :: .VMF_SPC_SIZE :: .VMF_SPC_WPTR :: recordRegs) (.arrived
    :: .atts :: .cats :: .cfg :: .chans :: .cmds :: .drawn :: .efQueue :: .efuses :: .endpoints :: .engines :: .eqReported :: .heldCpls
    :: .heldTlps :: .injections :: .lanes :: .limited :: .lockSince :: .lockSrc :: .outs :: .perstReleased :: .ports :: .queues ::
    .samples :: .sbSeq :: .spcs :: .trk :: .vmfs :: .vports :: .wins :: .withheld :: recordParts) d (Dev.hostTlp d lv p t) := by
  unfold Dev.hostTlp
  with_reducible repeat'
    first
      | intro x | assumption | apply Dev.Keeps.refl | apply Dev.Keeps.step Dev.discardMessage_keeps
      | apply Dev.Keeps.step Dev.hostConfig_keeps | apply Dev.Keeps.step Dev.hostIo_keeps | apply Dev.Keeps.step Dev.hostMemory_keeps
      | apply Dev.Keeps.step Dev.hostMessage_keeps | apply Dev.Keeps.step Dev.hostUnlock_keeps
      | apply Dev.Keeps.step Dev.receiveCompletion_keeps | apply Dev.Keeps.ite | apply Dev.Keeps.foldl
      | (show (_ : Bool) = _; decide +kernel) | (show _ ∈ _; decide +kernel) | (show _ < _; decide +kernel) | split | dsimp only

end Sys2Proof.Machine
end

