-- ==== Sys2Proof/Laws/KeepsDocents.lean ====
section
/-! SUPPORT. What each operation of Machine/Docents.lean may change: every register and structure outside the lists named stays as it was. -/

set_option Elab.async false
set_option linter.all false

namespace Sys2Proof.Machine

theorem Dev.bufferStore_keeps {d : Dev} {k addr : Nat} {data : List Byte} {entry : Nat} : Dev.Keeps [] [.cores] d (Dev.bufferStore d k
    addr data entry) := by
  unfold Dev.bufferStore
  with_reducible repeat'
    first
      | intro x | assumption | apply Dev.Keeps.refl | apply Dev.Keeps.step Dev.setCore_keeps | apply Dev.Keeps.ite
      | apply Dev.Keeps.foldl | (show (_ : Bool) = _; decide +kernel) | (show _ ∈ _; decide +kernel) | (show _ < _; decide +kernel)
      | split | dsimp only

theorem Dev.refuseAccess_keeps {d : Dev} {k addr kind : Nat} {recorded : Bool} : Dev.Keeps recordRegs (.cores :: recordParts) d
    (Dev.refuseAccess d k addr kind recorded) := by
  unfold Dev.refuseAccess
  with_reducible repeat'
    first
      | intro x | assumption | apply Dev.Keeps.refl | apply Dev.Keeps.step Dev.coreFault_keeps
      | apply Dev.Keeps.step Dev.coreTrap_keeps | apply Dev.Keeps.ite | apply Dev.Keeps.foldl | (show (_ : Bool) = _; decide +kernel)
      | (show _ ∈ _; decide +kernel) | (show _ < _; decide +kernel) | split | dsimp only

theorem Dev.issueStore_keeps {d : Dev} {k addr : Nat} {data : List Byte} : Dev.Keeps recordRegs (.cores :: recordParts) d
    (Dev.issueStore d k addr data) := by
  unfold Dev.issueStore
  with_reducible repeat'
    first
      | intro x | assumption | apply Dev.Keeps.refl | apply Dev.Keeps.step Dev.accessRecord_keeps
      | apply Dev.Keeps.step Dev.bufferStore_keeps | apply Dev.Keeps.step Dev.coreFault_keeps
      | apply Dev.Keeps.step Dev.coreTrap_keeps | apply Dev.Keeps.step Dev.refuseAccess_keeps | apply Dev.Keeps.ite
      | apply Dev.Keeps.foldl | (show (_ : Bool) = _; decide +kernel) | (show _ ∈ _; decide +kernel) | (show _ < _; decide +kernel)
      | split | dsimp only

theorem Dev.acceptStore_keeps {d e : Dev} {w : WinStore} (he : d.acceptStore w = some e) : Dev.Keeps (.DOC_EVENTS :: .DOC_WSTORE_LOST ::
    .EBR_CRD_AVAIL :: .EBR_EVENTS :: .EBR_PFLOG_HEAD :: .EBR_RAT_PFDISC_HI :: .EBR_RAT_PFDISC_LO :: recordRegs) (.arrived :: .pfLines ::
    .pfLog :: .pfSeq :: .trk :: .wins :: recordParts) d e := by
  unfold Dev.acceptStore at he
  split at he
  · cases he
    exact Dev.discardStore_keeps.widen
  · simp only at he
    split at he
    · cases he
    · obtain ⟨⟨y, x⟩, hx, rfl⟩ := Option.map_eq_some_iff.1 he
      exact .step Dev.dropLines_keeps (by decide +kernel) (by decide +kernel)
        (.step Dev.injectFrame_keeps (by decide +kernel) (by decide +kernel) (Dev.takeNeed_keeps hx).widen)

theorem Dev.answerSc_keeps {d : Dev} {k addr result : Nat} : Dev.Keeps [] [.cores, .out] d (Dev.answerSc d k addr result) := by
  unfold Dev.answerSc
  with_reducible repeat'
    first
      | intro x | assumption | apply Dev.Keeps.refl | apply Dev.Keeps.step Dev.emit_keeps | apply Dev.Keeps.step Dev.setCore_keeps
      | apply Dev.Keeps.ite | apply Dev.Keeps.foldl | (show (_ : Bool) = _; decide +kernel) | (show _ ∈ _; decide +kernel)
      | (show _ < _; decide +kernel) | split | dsimp only

theorem Dev.sendRead_keeps {d : Dev} {master entry off bytes tag : Nat} : Dev.Keeps [.EBR_CRD_AVAIL] [.arrived, .ctrs, .heldTlps, .out,
    .outs, .trk, .wins, .withheld] d (Dev.sendRead d master entry off bytes tag) := by
  unfold Dev.sendRead
  with_reducible repeat'
    first
      | intro x | assumption | apply Dev.Keeps.refl | apply Dev.Keeps.step Dev.inject_keeps | apply Dev.Keeps.ite
      | apply Dev.Keeps.foldl | (show (_ : Bool) = _; decide +kernel) | (show _ ∈ _; decide +kernel) | (show _ < _; decide +kernel)
      | split | dsimp only

theorem Dev.curatorStore_keeps {d : Dev} {w : WinWord} : Dev.Keeps recordRegs (.cores :: .winStores :: recordParts) d (Dev.curatorStore
    d w) := by
  unfold Dev.curatorStore
  with_reducible repeat'
    first
      | intro x | assumption | apply Dev.Keeps.refl | apply Dev.Keeps.step Dev.coreFault_keeps | apply Dev.Keeps.ite
      | apply Dev.Keeps.foldl | (show (_ : Bool) = _; decide +kernel) | (show _ ∈ _; decide +kernel) | (show _ < _; decide +kernel)
      | split | apply Dev.Keeps.set_winStores | dsimp only

theorem Dev.issueLoad_keeps {d : Dev} {master off bytes : Nat} : Dev.Keeps (.EBR_CRD_AVAIL :: recordRegs) (.arrived :: .cores ::
    .heldTlps :: .outs :: .pfLines :: .trk :: .winReads :: .wins :: .withheld :: recordParts) d (Dev.issueLoad d master off bytes) := by
  unfold Dev.issueLoad
  with_reducible repeat'
    first
      | intro x | assumption | apply Dev.Keeps.refl | apply Dev.Keeps.step Dev.coreFault_keeps
      | apply Dev.Keeps.step Dev.coreTrap_keeps | apply Dev.Keeps.step Dev.returnRead_keeps | apply Dev.Keeps.step Dev.sendRead_keeps
      | apply Dev.Keeps.step Dev.touchLine_keeps | apply Dev.Keeps.ite | apply Dev.Keeps.foldl | (show (_ : Bool) = _; decide +kernel)
      | (show _ ∈ _; decide +kernel) | (show _ < _; decide +kernel) | split | apply Dev.Keeps.set_winReads | dsimp only

theorem Dev.acceptFrom_keeps {d : Dev} {ws : List WinStore} : Dev.Keeps (.DOC_EVENTS :: .DOC_WSTORE_LOST :: .EBR_CRD_AVAIL ::
    .EBR_EVENTS :: .EBR_PFLOG_HEAD :: .EBR_RAT_PFDISC_HI :: .EBR_RAT_PFDISC_LO :: recordRegs) (.arrived :: .pfLines :: .pfLog :: .pfSeq
    :: .trk :: .wins :: recordParts) d (d.acceptFrom ws).2 := by
  induction ws generalizing d with
  | nil => exact .refl _ _ _
  | cons w r ih =>
    unfold Dev.acceptFrom
    split
    · rename_i e he
      exact ih.step' (Dev.acceptStore_keeps he).widen
    · exact .refl _ _ _

end Sys2Proof.Machine
end

