-- ==== Sys2Proof/Laws/KeepsPowerStates.lean ====
section
/-! SUPPORT. What each operation of Machine/PowerStates.lean may change: every register and structure outside the lists named stays as it was. -/

set_option Elab.async false
set_option linter.all false

namespace Sys2Proof.Machine

theorem Dev.quiesce_keeps {d : Dev} : Dev.Keeps [] [.out, .perstReleased] d (Dev.quiesce d) := by
  unfold Dev.quiesce
  with_reducible repeat'
    first
      | intro x | assumption | apply Dev.Keeps.refl | apply Dev.Keeps.forEach | apply Dev.Keeps.step Dev.emit_keeps
      | apply Dev.Keeps.step Dev.setPerst_keeps | apply Dev.Keeps.ite | apply Dev.Keeps.foldl | (show (_ : Bool) = _; decide +kernel)
      | (show _ ∈ _; decide +kernel) | (show _ < _; decide +kernel) | split | dsimp only

theorem Dev.powerDownDocents_keeps {d : Dev} : Dev.Keeps [.DOC_CORE_STATUS] [.cores] d (Dev.powerDownDocents d) := by
  unfold Dev.powerDownDocents
  with_reducible repeat'
    first
      | intro x | assumption | apply Dev.Keeps.refl | apply Dev.Keeps.put | apply Dev.Keeps.forEach
      | apply Dev.Keeps.step Dev.setCore_keeps | apply Dev.Keeps.ite | apply Dev.Keeps.foldl | (show (_ : Bool) = _; decide +kernel)
      | (show _ ∈ _; decide +kernel) | (show _ < _; decide +kernel) | split | dsimp only

theorem Dev.refuseEntry_keeps {d : Dev} {aborted : Bool} {rs : List (Nat × Nat)} : Dev.Keeps (.PWR_PS_CNT :: .PWR_PS_LAST :: recordRegs)
    recordParts d (Dev.refuseEntry d aborted rs) := by
  unfold Dev.refuseEntry
  with_reducible repeat'
    first
      | intro x | assumption | apply Dev.Keeps.refl | apply Dev.Keeps.put | apply Dev.Keeps.bump | apply Dev.Keeps.forEach
      | apply Dev.Keeps.mark | apply Dev.Keeps.step Dev.record_keeps | apply Dev.Keeps.ite | apply Dev.Keeps.foldl
      | (show (_ : Bool) = _; decide +kernel) | (show _ ∈ _; decide +kernel) | (show _ < _; decide +kernel) | split | dsimp only

theorem Dev.feedComes_keeps {d : Dev} {f vrms freq : Nat} : Dev.Keeps (.PD_POOL_LIMIT :: .PWR_BUDGET :: .PWR_EVENTS :: .PWR_FEED_A ::
    .PWR_FEED_B :: .PWR_POOLS :: recordRegs) (.feedOff :: recordParts) d (Dev.feedComes d f vrms freq) := by
  unfold Dev.feedComes
  with_reducible repeat'
    first
      | intro x | assumption | apply Dev.Keeps.refl | apply Dev.Keeps.put | apply Dev.Keeps.step Dev.measureFeed_keeps
      | apply Dev.Keeps.step (Dev.raise_keeps ?_) | apply Dev.Keeps.step Dev.rebudget_keeps
      | apply Dev.Keeps.step Dev.singleFeed_keeps | apply Dev.Keeps.ite | apply Dev.Keeps.foldl | exact feedField_lo.1
      | exact feedField_lo.2 | exact (feedField_mem (by decide +kernel) (by decide +kernel)).1
      | exact (feedField_mem (by decide +kernel) (by decide +kernel)).2 | (show (_ : Bool) = _; decide +kernel)
      | (show _ ∈ _; decide +kernel) | (show _ < _; decide +kernel) | split | apply Dev.Keeps.set_feedOff | dsimp only

theorem Dev.leaveQuiet_keeps {d : Dev} {bit : Nat} : Dev.Keeps (.DOC_CORE_STATUS :: .PWR_PS_STATUS :: recordRegs) (.byCommand ::
    .lastTraffic :: recordParts) d (Dev.leaveQuiet d bit) := by
  unfold Dev.leaveQuiet
  with_reducible repeat'
    first
      | intro x | assumption | apply Dev.Keeps.refl | apply Dev.Keeps.forEach | apply Dev.Keeps.put
      | apply Dev.Keeps.step Dev.emit_keeps | apply Dev.Keeps.step Dev.setPower_keeps | apply Dev.Keeps.ite | apply Dev.Keeps.foldl
      | (show (_ : Bool) = _; decide +kernel) | (show _ ∈ _; decide +kernel) | (show _ < _; decide +kernel) | split
      | apply Dev.Keeps.set_lastTraffic_byCommand | apply Dev.Keeps.set_byCommand | dsimp only

theorem Dev.arm__keeps {d : Dev} {target : Nat} {byCommand : Bool} : Dev.Keeps [.PWR_MODE] [.byCommand] d (Dev.arm_ d target byCommand)
    := by
  unfold Dev.arm_
  with_reducible repeat'
    first
      | intro x | assumption | apply Dev.Keeps.refl | apply Dev.Keeps.mark | apply Dev.Keeps.put | apply Dev.Keeps.ite
      | apply Dev.Keeps.foldl | (show (_ : Bool) = _; decide +kernel) | (show _ ∈ _; decide +kernel) | (show _ < _; decide +kernel)
      | split | apply Dev.Keeps.set_byCommand | dsimp only

theorem Dev.wake_keeps {d : Dev} {bit : Nat} : Dev.Keeps (.DOC_CORE_STATUS :: .PWR_PS_STATUS :: recordRegs) (.byCommand :: .lastTraffic
    :: recordParts) d (Dev.wake d bit) := by
  unfold Dev.wake
  with_reducible repeat'
    first
      | intro x | assumption | apply Dev.Keeps.refl | apply Dev.Keeps.when | apply Dev.Keeps.step Dev.leaveQuiet_keeps
      | apply Dev.Keeps.step Dev.noteWake_keeps | apply Dev.Keeps.ite | apply Dev.Keeps.foldl | (show (_ : Bool) = _; decide +kernel)
      | (show _ ∈ _; decide +kernel) | (show _ < _; decide +kernel) | split | dsimp only

theorem Dev.commandPower_keeps {d : Dev} {gen : Nat} {h : CmdHdr} {target auto : Nat} : Dev.Keeps (.DOC_CORE_STATUS :: .PWR_MODE ::
    .PWR_PS_CNT :: .PWR_PS_LAST :: .PWR_PS_STATUS :: recordRegs) (.byCommand :: .cmds :: .lastTraffic :: recordParts) d
    (Dev.commandPower d gen h target auto) := by
  unfold Dev.commandPower
  with_reducible repeat'
    first
      | intro x | assumption | apply Dev.Keeps.refl | apply Dev.Keeps.put | apply Dev.Keeps.when | apply Dev.Keeps.step Dev.arm__keeps
      | apply Dev.Keeps.step Dev.badParam_keeps | apply Dev.Keeps.step Dev.finish_keeps | apply Dev.Keeps.step Dev.refuseEntry_keeps
      | apply Dev.Keeps.step Dev.setCmd_keeps | apply Dev.Keeps.step Dev.setPower_keeps | apply Dev.Keeps.step Dev.waitFor_keeps
      | apply Dev.Keeps.step Dev.wake_keeps | apply Dev.Keeps.ite | apply Dev.Keeps.foldl | (show (_ : Bool) = _; decide +kernel)
      | (show _ ∈ _; decide +kernel) | (show _ < _; decide +kernel) | split | dsimp only

theorem Dev.latchPads_keeps {d : Dev} {die : Nat} : Dev.Keeps [.PWR_PAD_HOLD] [.out, .perstReleased] d (Dev.latchPads d die) := by
  unfold Dev.latchPads
  with_reducible repeat'
    first
      | intro x | assumption | apply Dev.Keeps.refl | apply Dev.Keeps.put | apply Dev.Keeps.forEach
      | apply Dev.Keeps.step Dev.setPerst_keeps | apply Dev.Keeps.ite | apply Dev.Keeps.foldl | (show (_ : Bool) = _; decide +kernel)
      | (show _ ∈ _; decide +kernel) | (show _ < _; decide +kernel) | split | dsimp only

end Sys2Proof.Machine
end

