-- ==== Sys2Proof/Laws/Frames.lean ====
section
/-! SUPPORT. The frame of every command that acts on registers and structures alone: whatever it answers next differs from the state
before only in the registers and structures named. -/

set_option Elab.async false
set_option linter.all false

namespace Sys2Proof.Machine

theorem onDev_frame {R : List Reg} {P : List Part} {s t : State} {f : Dev → Dev} (hk : Dev.Keeps R P s.dev (f s.dev))
    (h : onDev s f = .next t) : s.Keeps R P t := by
  unfold onDev powered at h
  injection h with h
  subst h
  split
  · exact ⟨⟨rfl, rfl, rfl⟩, hk⟩
  · exact ⟨⟨rfl, rfl, rfl⟩, .refl _ _ _⟩

theorem execFrameAdmission_frame {s t : State} (h : execFrameAdmission s = .next t) : s.Keeps (.BSN_EVENTS :: .RTE_EVENTS :: recordRegs)
    (.arrived :: .cellsFree :: .cellsUsed :: .dwins :: .lastTraffic :: .limited :: .outs :: .queues :: .routed :: .trafficAt ::
    recordParts) t := by
  refine onDev_frame ?_ h
  with_reducible repeat'
    first
      | intro x | assumption | apply Dev.Keeps.refl | apply Dev.Keeps.step Dev.enterBasin_keeps | apply Dev.Keeps.ite
      | apply Dev.Keeps.foldl | (show (_ : Bool) = _; decide +kernel) | (show _ ∈ _; decide +kernel) | (show _ < _; decide +kernel)
      | split | apply Dev.Keeps.set_routed | dsimp only

theorem execAgeDiscard_frame {queue : Fin 65536} {s t : State} (h : execAgeDiscard queue s = .next t) : s.Keeps (.BSN_EVENTS ::
    .WR_Q_DRR :: recordRegs) (.cellsFree :: .dwins :: .limited :: .outs :: .queues :: recordParts) t := by
  refine onDev_frame ?_ h
  with_reducible repeat'
    first
      | intro x | assumption | apply Dev.Keeps.refl | apply Dev.Keeps.step Dev.ageHeads_keeps | apply Dev.Keeps.ite
      | apply Dev.Keeps.foldl | (show (_ : Bool) = _; decide +kernel) | (show _ ∈ _; decide +kernel) | (show _ < _; decide +kernel)
      | split | dsimp only

theorem execQueueHeadAgeCheck_frame {s t : State} (h : execQueueHeadAgeCheck s = .next t) : s.Keeps (.BSN_EVENTS :: .WR_Q_DRR ::
    recordRegs) (.cellsFree :: .dwins :: .limited :: .outs :: .queues :: recordParts) t := by
  refine onDev_frame ?_ h
  with_reducible repeat'
    first
      | intro x | assumption | apply Dev.Keeps.refl | apply Dev.Keeps.forEach | apply Dev.Keeps.step Dev.ageHeads_keeps
      | apply Dev.Keeps.ite | apply Dev.Keeps.foldl | (show (_ : Bool) = _; decide +kernel) | (show _ ∈ _; decide +kernel)
      | (show _ < _; decide +kernel) | split | dsimp only

theorem execLinkEcc_frame {queue : Fin 65536} {reach : Nat} {s t : State} (h : execLinkEcc queue reach s = .next t) : s.Keeps
    (.BSN_EVENTS :: .BSN_Q_STATUS :: .WR_Q_DRR :: recordRegs) (.brokenQueues :: .cellsFree :: .dwins :: .outs :: .queues :: recordParts)
    t := by
  refine onDev_frame ?_ h
  with_reducible repeat'
    first
      | intro x | assumption | apply Dev.Keeps.refl | apply Dev.Keeps.step Dev.count_keeps | apply Dev.Keeps.step (Dev.raise_keeps ?_)
      | apply Dev.Keeps.step Dev.setQueue_keeps | apply Dev.Keeps.step Dev.squashQueue_keeps | apply Dev.Keeps.ite
      | apply Dev.Keeps.foldl | (show (_ : Bool) = _; decide +kernel) | (show _ ∈ _; decide +kernel) | (show _ < _; decide +kernel)
      | split | apply Dev.Keeps.set_brokenQueues | dsimp only

theorem execCellAudit_frame {missing : Bool} {s t : State} (h : execCellAudit missing s = .next t) : s.Keeps (.BSN_EVENTS ::
    .BSN_Q_STATUS :: recordRegs) (.brokenQueues :: .cellsFree :: .dwins :: .queues :: recordParts) t := by
  refine onDev_frame ?_ h
  with_reducible repeat'
    first
      | intro x | assumption | apply Dev.Keeps.refl | apply Dev.Keeps.when | apply Dev.Keeps.forEach
      | apply Dev.Keeps.step Dev.count_keeps | apply Dev.Keeps.step Dev.leaveLost_keeps | apply Dev.Keeps.step (Dev.raise_keeps ?_)
      | apply Dev.Keeps.step Dev.setQueue_keeps | apply Dev.Keeps.step Dev.setQueueState_keeps | apply Dev.Keeps.ite
      | apply Dev.Keeps.foldl | (show (_ : Bool) = _; decide +kernel) | (show _ ∈ _; decide +kernel) | (show _ < _; decide +kernel)
      | split | apply Dev.Keeps.set_brokenQueues | dsimp only

theorem execFrameSelection_frame {port : Fin 512} {cells : CellError} {s t : State} (h : execFrameSelection port cells s = .next t) :
    s.Keeps (.BSN_EVENTS :: .FLL_EVENTS :: .FLL_REPLAY :: .FLL_SEQ :: .SLC_INJ_ARMED :: .TEL_MODE :: .WR_GATE_STAT :: .WR_GATE_STATUS ::
    .WR_PORT_EVENTS :: .WR_PORT_GUARD :: .WR_Q_DRR :: recordRegs) (.cellsFree :: .dwins :: .egress :: .injecting :: .injections ::
    .limited :: .links :: .masked :: .outs :: .queues :: .shapers :: .time :: recordParts) t := by
  refine onDev_frame ?_ h
  with_reducible repeat'
    first
      | intro x | assumption | apply Dev.Keeps.refl | apply Dev.Keeps.when | apply Dev.Keeps.step Dev.noteSmall_keeps
      | apply Dev.Keeps.step Dev.pump_keeps | apply Dev.Keeps.step Dev.rateGo_keeps | apply Dev.Keeps.step Dev.rateWait_keeps
      | apply Dev.Keeps.step Dev.readyPort_keeps | apply Dev.Keeps.step Dev.replayStall_keeps
      | apply Dev.Keeps.step Dev.selectQueue_keeps | apply Dev.Keeps.step Dev.sendIdle_keeps | apply Dev.Keeps.step Dev.serve_keeps
      | apply Dev.Keeps.ite | apply Dev.Keeps.foldl | (show (_ : Bool) = _; decide +kernel) | (show _ ∈ _; decide +kernel)
      | (show _ < _; decide +kernel) | split | refine Dev.Keeps.pair Dev.selectQueue_keeps (by assumption) ?_ ?_ ?_ | dsimp only

theorem execShaperWheelSlot_frame {s t : State} (h : execShaperWheelSlot s = .next t) : s.Keeps [] [.shapers] t := by
  refine onDev_frame ?_ h
  with_reducible repeat'
    first
      | intro x | assumption | apply Dev.Keeps.refl | apply Dev.Keeps.step Dev.turnWheel_keeps | apply Dev.Keeps.ite
      | apply Dev.Keeps.foldl | (show (_ : Bool) = _; decide +kernel) | (show _ ∈ _; decide +kernel) | (show _ < _; decide +kernel)
      | split | dsimp only

theorem execWrShpRateWrite_frame {master : Fin 2048} {value : Word} {s t : State} (h : execWrShpRateWrite master value s = .next t) :
    s.Keeps (.WR_SHP_RATE :: recordRegs) (.shapers :: recordParts) t := by
  refine onDev_frame ?_ h
  with_reducible repeat'
    first
      | intro x | assumption | apply Dev.Keeps.refl | apply Dev.curatorOnly_keeps | apply Dev.Keeps.step Dev.writeShpRate_keeps
      | apply Dev.Keeps.ite | apply Dev.Keeps.foldl | (show (_ : Bool) = _; decide +kernel) | (show _ ∈ _; decide +kernel)
      | (show _ < _; decide +kernel) | split | dsimp only

theorem execGateBankCountWrite_frame {master : Fin 2048} {port : Fin 512} {bank : Fin 2} {value : Word} {s t : State} (h :
    execGateBankCountWrite master port bank value s = .next t) : s.Keeps (.GATE_COUNT :: .WR_GATE_STATUS :: .WR_PORT_EVENTS ::
    .WR_PORT_GUARD :: recordRegs) (.outs :: recordParts) t := by
  refine onDev_frame ?_ h
  with_reducible repeat'
    first
      | intro x | assumption | apply Dev.Keeps.refl | apply Dev.curatorOnly_keeps | apply Dev.Keeps.step Dev.writeGateCount_keeps
      | apply Dev.Keeps.ite | apply Dev.Keeps.foldl | (show (_ : Bool) = _; decide +kernel) | (show _ ∈ _; decide +kernel)
      | (show _ < _; decide +kernel) | split | dsimp only

theorem execGateListStart_frame {port : Fin 512} {s t : State} (h : execGateListStart port s = .next t) : s.Keeps (.WR_GATE_STAT ::
    .WR_GATE_STATUS :: .WR_PORT_EVENTS :: .WR_PORT_GUARD :: recordRegs) (.limited :: .outs :: recordParts) t := by
  refine onDev_frame ?_ h
  with_reducible repeat'
    first
      | intro x | assumption | apply Dev.Keeps.refl | apply Dev.Keeps.step Dev.gateStart_keeps | apply Dev.Keeps.ite
      | apply Dev.Keeps.foldl | (show (_ : Bool) = _; decide +kernel) | (show _ ∈ _; decide +kernel) | (show _ < _; decide +kernel)
      | split | dsimp only

theorem execGateEntryBoundary_frame {port : Fin 512} {s t : State} (h : execGateEntryBoundary port s = .next t) : s.Keeps (.WR_GATE_STAT
    :: .WR_GATE_STATUS :: .WR_PORT_EVENTS :: recordRegs) (.limited :: .outs :: recordParts) t := by
  refine onDev_frame ?_ h
  with_reducible repeat'
    first
      | intro x | assumption | apply Dev.Keeps.refl | apply Dev.Keeps.step Dev.gateBoundary_keeps | apply Dev.Keeps.ite
      | apply Dev.Keeps.foldl | (show (_ : Bool) = _; decide +kernel) | (show _ ∈ _; decide +kernel) | (show _ < _; decide +kernel)
      | split | dsimp only

theorem execGuardBandRecompute_frame {port : Fin 512} {s t : State} (h : execGuardBandRecompute port s = .next t) : s.Keeps
    [.WR_GATE_STATUS, .WR_PORT_GUARD] [] t := by
  refine onDev_frame ?_ h
  with_reducible repeat'
    first
      | intro x | assumption | apply Dev.Keeps.refl | apply Dev.Keeps.step Dev.recomputeGuard_keeps | apply Dev.Keeps.ite
      | apply Dev.Keeps.foldl | (show (_ : Bool) = _; decide +kernel) | (show _ ∈ _; decide +kernel) | (show _ < _; decide +kernel)
      | split | dsimp only

theorem execBOversize_frame {queue : Fin 65536} {s t : State} (h : execBOversize queue s = .next t) : s.Keeps (.WR_PORT_EVENTS ::
    .WR_Q_DRR :: recordRegs) (.cellsFree :: .dwins :: .limited :: .outs :: .queues :: recordParts) t := by
  refine onDev_frame ?_ h
  with_reducible repeat'
    first
      | intro x | assumption | apply Dev.Keeps.refl | apply Dev.Keeps.step Dev.count_keeps | apply Dev.Keeps.step Dev.leaveLost_keeps
      | apply Dev.Keeps.step Dev.leaveRound_keeps | apply Dev.Keeps.step (Dev.raiseLimited_keeps ?_)
      | apply Dev.Keeps.step Dev.setQueue_keeps | apply Dev.Keeps.ite | apply Dev.Keeps.foldl | (show (_ : Bool) = _; decide +kernel)
      | (show _ ∈ _; decide +kernel) | (show _ < _; decide +kernel) | split | dsimp only

theorem execShaperAudit_frame {faulty : List (Fin 16384)} {s t : State} (h : execShaperAudit faulty s = .next t) : s.Keeps (.WR_EVENTS
    :: recordRegs) (.shapers :: recordParts) t := by
  refine onDev_frame ?_ h
  with_reducible repeat'
    first
      | intro x | assumption | apply Dev.Keeps.refl | apply Dev.Keeps.forEach | apply Dev.Keeps.when
      | apply Dev.Keeps.step Dev.count_keeps | apply Dev.Keeps.step (Dev.raise_keeps ?_) | apply Dev.Keeps.step Dev.setShaper_keeps
      | apply Dev.Keeps.ite | apply Dev.Keeps.foldl | (show (_ : Bool) = _; decide +kernel) | (show _ ∈ _; decide +kernel)
      | (show _ < _; decide +kernel) | split | dsimp only

theorem execFrameRoute_frame {s t : State} (h : execFrameRoute s = .next t) : s.Keeps (.RTE_EVENTS :: recordRegs) (.arrived :: .limited
    :: .routed :: recordParts) t := by
  refine onDev_frame ?_ h
  with_reducible repeat'
    first
      | intro x | assumption | apply Dev.Keeps.refl | apply Dev.Keeps.step Dev.route_keeps | apply Dev.Keeps.ite
      | apply Dev.Keeps.foldl | (show (_ : Bool) = _; decide +kernel) | (show _ ∈ _; decide +kernel) | (show _ < _; decide +kernel)
      | split | apply Dev.Keeps.set_arrived | dsimp only

theorem execLinkWithdrawal_frame {port : Fin 512} {s t : State} (h : execLinkWithdrawal port s = .next t) : s.Keeps (.PIN_CTL ::
    .PIN_OLD :: .RTE_EVENTS :: .RTE_GRP_SLOT :: .WR_Q_DRR :: recordRegs) (.arrived :: .cellsFree :: .dwins :: .outs :: .pins :: .queues
    :: recordParts) t := by
  refine onDev_frame ?_ h
  with_reducible repeat'
    first
      | intro x | assumption | apply Dev.Keeps.refl | apply Dev.Keeps.when | apply Dev.Keeps.step Dev.withdrawLink_keeps
      | apply Dev.Keeps.ite | apply Dev.Keeps.foldl | (show (_ : Bool) = _; decide +kernel) | (show _ ∈ _; decide +kernel)
      | (show _ < _; decide +kernel) | split | dsimp only

theorem execWithdrawnClear_frame {master : Fin 2048} {slot : Fin 65536} {value : Word} {s t : State} (h : execWithdrawnClear master slot
    value s = .next t) : s.Keeps (.RTE_GRP_SLOT :: recordRegs) recordParts t := by
  refine onDev_frame ?_ h
  with_reducible repeat'
    first
      | intro x | assumption | apply Dev.Keeps.refl | apply Dev.curatorOnly_keeps | apply Dev.Keeps.step Dev.writeSlot_keeps
      | apply Dev.Keeps.ite | apply Dev.Keeps.foldl | (show (_ : Bool) = _; decide +kernel) | (show _ ∈ _; decide +kernel)
      | (show _ < _; decide +kernel) | split | dsimp only

theorem execPathPinEntryWrite_frame {master : Fin 2048} {entry : Fin 16384} {value : Word} {s t : State} (h : execPathPinEntryWrite
    master entry value s = .next t) : s.Keeps (.PIN_CTL :: recordRegs) (.arrived :: .pins :: recordParts) t := by
  refine onDev_frame ?_ h
  with_reducible repeat'
    first
      | intro x | assumption | apply Dev.Keeps.refl | apply Dev.curatorOnly_keeps | apply Dev.Keeps.step Dev.writePin_keeps
      | apply Dev.Keeps.ite | apply Dev.Keeps.foldl | (show (_ : Bool) = _; decide +kernel) | (show _ ∈ _; decide +kernel)
      | (show _ < _; decide +kernel) | split | dsimp only

theorem execPinCutPoint_frame {s t : State} (h : execPinCutPoint s = .next t) : s.Keeps [.PIN_CTL, .PIN_DST, .PIN_OLD, .PIN_SRC,
    .PIN_TCUT_HI, .PIN_TCUT_LO] [.arrived, .ctrs, .pins, .wins] t := by
  refine onDev_frame ?_ h
  with_reducible repeat'
    first
      | intro x | assumption | apply Dev.Keeps.refl | apply Dev.Keeps.step Dev.activatePins_keeps | apply Dev.Keeps.ite
      | apply Dev.Keeps.foldl | (show (_ : Bool) = _; decide +kernel) | (show _ ∈ _; decide +kernel) | (show _ < _; decide +kernel)
      | split | dsimp only

theorem execRepinAborted_frame {tcut : Nat} {modules : List (Fin 8192)} {command : Option CmdHdr} {s t : State} (h : execRepinAborted
    tcut modules command s = .next t) : s.Keeps (.PIN_CTL :: .PIN_DST :: .PIN_OLD :: .PIN_SRC :: .PIN_TCUT_HI :: .PIN_TCUT_LO ::
    .RTE_EVENTS :: recordRegs) (.cmds :: .pinAcks :: .pins :: recordParts) t := by
  refine onDev_frame ?_ h
  with_reducible repeat'
    first
      | intro x | assumption | apply Dev.Keeps.refl | apply Dev.Keeps.when | apply Dev.Keeps.forEach
      | apply Dev.Keeps.step Dev.count_keeps | apply Dev.Keeps.step Dev.finish_keeps | apply Dev.Keeps.step (Dev.raise_keeps ?_)
      | apply Dev.Keeps.step Dev.setPin_keeps | apply Dev.Keeps.ite | apply Dev.Keeps.foldl | (show (_ : Bool) = _; decide +kernel)
      | (show _ ∈ _; decide +kernel) | (show _ < _; decide +kernel) | split | apply Dev.Keeps.set_pinAcks | dsimp only

theorem execDrain_frame {src dst : Fin 4194304} {cls : Cls} {s t : State} (h : execDrain src dst cls s = .next t) : s.Keeps []
    [.arrived] t := by
  refine onDev_frame ?_ h
  with_reducible repeat'
    first
      | intro x | assumption | apply Dev.Keeps.refl | apply Dev.Keeps.when | apply Dev.Keeps.step Dev.mgmt_keeps | apply Dev.Keeps.ite
      | apply Dev.Keeps.foldl | (show (_ : Bool) = _; decide +kernel) | (show _ ∈ _; decide +kernel) | (show _ < _; decide +kernel)
      | split | dsimp only

theorem execOldPathExpiry_frame {s t : State} (h : execOldPathExpiry s = .next t) : s.Keeps [.PIN_CTL, .PIN_DST, .PIN_OLD, .PIN_SRC,
    .PIN_TCUT_HI, .PIN_TCUT_LO] [.pins] t := by
  refine onDev_frame ?_ h
  with_reducible repeat'
    first
      | intro x | assumption | apply Dev.Keeps.refl | apply Dev.Keeps.forEach | apply Dev.Keeps.step Dev.setPin_keeps
      | apply Dev.Keeps.ite | apply Dev.Keeps.foldl | (show (_ : Bool) = _; decide +kernel) | (show _ ∈ _; decide +kernel)
      | (show _ < _; decide +kernel) | split | dsimp only

theorem execAttEntryWrite_frame {master : Fin 2048} {entry : Fin 65536} {value : Word} {s t : State} (h : execAttEntryWrite master entry
    value s = .next t) : s.Keeps (.ATT_CTL :: recordRegs) (.atts :: recordParts) t := by
  refine onDev_frame ?_ h
  with_reducible repeat'
    first
      | intro x | assumption | apply Dev.Keeps.refl | apply Dev.curatorOnly_keeps | apply Dev.Keeps.step Dev.writeAtt_keeps
      | apply Dev.Keeps.ite | apply Dev.Keeps.foldl | (show (_ : Bool) = _; decide +kernel) | (show _ ∈ _; decide +kernel)
      | (show _ < _; decide +kernel) | split | dsimp only

theorem execPinEntryAck_frame {modul : Fin 8192} {tcut : Nat} {s t : State} (h : execPinEntryAck modul tcut s = .next t) : s.Keeps []
    [.pinAcks, .vits] t := by
  refine onDev_frame ?_ h
  with_reducible repeat'
    first
      | intro x | assumption | apply Dev.Keeps.refl | apply Dev.Keeps.forEach | apply Dev.Keeps.step Dev.setVit_keeps
      | apply Dev.Keeps.ite | apply Dev.Keeps.foldl | (show (_ : Bool) = _; decide +kernel) | (show _ ∈ _; decide +kernel)
      | (show _ < _; decide +kernel) | split | apply Dev.Keeps.set_pinAcks | dsimp only

theorem execCreditFrameReceived_frame {src dst : Fin 4194304} {kind : CreditKind} {cseq : Fin 65536} {value : Word} {s t : State} (h :
    execCreditFrameReceived src dst kind cseq value s = .next t) : s.Keeps (.EBR_CRD_AUDIT :: .EBR_CRD_AVAIL :: .EBR_CRD_GRANT ::
    .EBR_CRD_LOST :: .PIN_CTL :: .PIN_DST :: .PIN_OLD :: .PIN_SRC :: .PIN_TCUT_HI :: .PIN_TCUT_LO :: .RTE_EVENTS :: .SLC_INJ_ARMED ::
    .TEL_MODE :: recordRegs) (.arrived :: .heldTlps :: .injections :: .limited :: .outs :: .pins :: .trk :: .wins :: .withheld ::
    recordParts) t := by
  refine onDev_frame ?_ h
  with_reducible repeat'
    first
      | intro x | assumption | apply Dev.Keeps.refl | apply Dev.Keeps.step Dev.receiveCredit_keeps | apply Dev.Keeps.ite
      | apply Dev.Keeps.foldl | (show (_ : Bool) = _; decide +kernel) | (show _ ∈ _; decide +kernel) | (show _ < _; decide +kernel)
      | split | dsimp only

theorem execCreditReturnSend_frame {src dst : Fin 4194304} {s t : State} (h : execCreditReturnSend src dst s = .next t) : s.Keeps []
    [.arrived, .dwins] t := by
  refine onDev_frame ?_ h
  with_reducible repeat'
    first
      | intro x | assumption | apply Dev.Keeps.refl | apply Dev.Keeps.step Dev.creditFrame_keeps
      | apply Dev.Keeps.step Dev.setDwin_keeps | apply Dev.Keeps.ite | apply Dev.Keeps.foldl | (show (_ : Bool) = _; decide +kernel)
      | (show _ ∈ _; decide +kernel) | (show _ < _; decide +kernel) | split | dsimp only

theorem execCreditWindowGrant_frame {src dst : Fin 4194304} {gvh : Fin 8388608} {cls : Cls} {s t : State} (h : execCreditWindowGrant src
    dst gvh cls s = .next t) : s.Keeps (.EBR_CRD_AUDIT :: .EBR_CRD_AVAIL :: .EBR_CRD_GRANT :: .PIN_CTL :: .PIN_DST :: .PIN_OLD ::
    .PIN_SRC :: .PIN_TCUT_HI :: .PIN_TCUT_LO :: .RTE_EVENTS :: recordRegs) (.arrived :: .dwins :: .limited :: .pins :: .wins ::
    recordParts) t := by
  refine onDev_frame ?_ h
  with_reducible repeat'
    first
      | intro x | assumption | apply Dev.Keeps.refl | apply Dev.Keeps.step Dev.makeWindow_keeps | apply Dev.Keeps.ite
      | apply Dev.Keeps.foldl | (show (_ : Bool) = _; decide +kernel) | (show _ ∈ _; decide +kernel) | (show _ < _; decide +kernel)
      | split | refine Dev.Keeps.pair Dev.makeWindow_keeps (by assumption) ?_ ?_ ?_ | dsimp only

theorem execCreditQuietPoint_frame {window : Fin 32768} {s t : State} (h : execCreditQuietPoint window s = .next t) : s.Keeps
    (.EBR_CRD_AUDIT :: recordRegs) recordParts t := by
  refine onDev_frame ?_ h
  with_reducible repeat'
    first
      | intro x | assumption | apply Dev.Keeps.refl | apply Dev.Keeps.put | apply Dev.Keeps.when
      | apply Dev.Keeps.step Dev.record_keeps | apply Dev.Keeps.ite | apply Dev.Keeps.foldl | (show (_ : Bool) = _; decide +kernel)
      | (show _ ∈ _; decide +kernel) | (show _ < _; decide +kernel) | split | dsimp only

theorem execResyncStart_frame {port : Fin 512} {s t : State} (h : execResyncStart port s = .next t) : s.Keeps [.EBR_CRD_AVAIL]
    [.arrived, .wins] t := by
  refine onDev_frame ?_ h
  with_reducible repeat'
    first
      | intro x | assumption | apply Dev.Keeps.refl | apply Dev.Keeps.step Dev.resyncPort_keeps | apply Dev.Keeps.ite
      | apply Dev.Keeps.foldl | (show (_ : Bool) = _; decide +kernel) | (show _ ∈ _; decide +kernel) | (show _ < _; decide +kernel)
      | split | dsimp only

theorem execResyncReq_frame {src dst : Fin 4194304} {sent : Word} {s t : State} (h : execResyncReq src dst sent s = .next t) : s.Keeps
    [] [.arrived, .dwins] t := by
  refine onDev_frame ?_ h
  with_reducible repeat'
    first
      | intro x | assumption | apply Dev.Keeps.refl | apply Dev.Keeps.step Dev.answerResync_keeps
      | apply Dev.Keeps.step Dev.setDwin_keeps | apply Dev.Keeps.ite | apply Dev.Keeps.foldl | (show (_ : Bool) = _; decide +kernel)
      | (show _ ∈ _; decide +kernel) | (show _ < _; decide +kernel) | split | dsimp only

theorem execResyncAck_frame {src dst : Fin 4194304} {cseq : Fin 65536} {held : Word} {s t : State} (h : execResyncAck src dst cseq held
    s = .next t) : s.Keeps (.EBR_CRD_AUDIT :: .EBR_CRD_AVAIL :: .EBR_CRD_GRANT :: .EBR_CRD_LOST :: .PIN_CTL :: .PIN_DST :: .PIN_OLD ::
    .PIN_SRC :: .PIN_TCUT_HI :: .PIN_TCUT_LO :: .RTE_EVENTS :: .SLC_INJ_ARMED :: .TEL_MODE :: recordRegs) (.arrived :: .heldTlps ::
    .injections :: .limited :: .outs :: .pins :: .trk :: .wins :: .withheld :: recordParts) t := by
  refine onDev_frame ?_ h
  with_reducible repeat'
    first
      | intro x | assumption | apply Dev.Keeps.refl | apply Dev.Keeps.step Dev.receiveCredit_keeps | apply Dev.Keeps.ite
      | apply Dev.Keeps.foldl | (show (_ : Bool) = _; decide +kernel) | (show _ ∈ _; decide +kernel) | (show _ < _; decide +kernel)
      | split | dsimp only

theorem execResyncTimeout_frame {window : Fin 32768} {s t : State} (h : execResyncTimeout window s = .next t) : s.Keeps (.EBR_CRD_AUDIT
    :: .EBR_CRD_AVAIL :: recordRegs) (.arrived :: .heldTlps :: .outs :: .trk :: .wins :: .withheld :: recordParts) t := by
  refine onDev_frame ?_ h
  with_reducible repeat'
    first
      | intro x | assumption | apply Dev.Keeps.refl | apply Dev.Keeps.put | apply Dev.Keeps.step Dev.recordUncoded_keeps
      | apply Dev.Keeps.step Dev.retryHeld_keeps | apply Dev.Keeps.ite | apply Dev.Keeps.foldl | (show (_ : Bool) = _; decide +kernel)
      | (show _ ∈ _; decide +kernel) | (show _ < _; decide +kernel) | split | dsimp only

theorem execDrainAck_frame {src dst : Fin 4194304} {cls : Cls} {s t : State} (h : execDrainAck src dst cls s = .next t) : s.Keeps
    [.EBR_CRD_AVAIL] [.arrived, .ctrs, .heldTlps, .out, .outs, .trk, .wins, .withheld] t := by
  refine onDev_frame ?_ h
  with_reducible repeat'
    first
      | intro x | assumption | apply Dev.Keeps.refl | apply Dev.Keeps.step Dev.endDrain_keeps
      | apply Dev.Keeps.step Dev.retryHeld_keeps | apply Dev.Keeps.ite | apply Dev.Keeps.foldl | (show (_ : Bool) = _; decide +kernel)
      | (show _ ∈ _; decide +kernel) | (show _ < _; decide +kernel) | split | dsimp only

theorem execDrainCapExpiry_frame {window : Fin 32768} {cls : Cls} {s t : State} (h : execDrainCapExpiry window cls s = .next t) :
    s.Keeps [.EBR_CRD_AVAIL] [.arrived, .ctrs, .heldTlps, .out, .outs, .trk, .wins, .withheld] t := by
  refine onDev_frame ?_ h
  with_reducible repeat'
    first
      | intro x | assumption | apply Dev.Keeps.refl | apply Dev.Keeps.step Dev.endDrain_keeps
      | apply Dev.Keeps.step Dev.retryHeld_keeps | apply Dev.Keeps.ite | apply Dev.Keeps.foldl | (show (_ : Bool) = _; decide +kernel)
      | (show _ ∈ _; decide +kernel) | (show _ < _; decide +kernel) | split | dsimp only

theorem execLaneEnableSet_frame {master : Fin 2048} {lane : Fin 512} {s t : State} (h : execLaneEnableSet master lane s = .next t) :
    s.Keeps (.LNA_ALIGN :: .LNA_LANE_CFG :: .LNA_LANE_STATE :: .LNA_MRG_RESULT :: .LNA_RX_EQ :: .LNA_TRAIN_REF :: .LNA_TX_EQ ::
    recordRegs) (.cmds :: .eqReported :: .lanes :: .ports :: recordParts) t := by
  refine onDev_frame ?_ h
  with_reducible repeat'
    first
      | intro x | assumption | apply Dev.Keeps.refl | apply Dev.curatorOnly_keeps | apply Dev.Keeps.step Dev.enableLane_keeps
      | apply Dev.Keeps.ite | apply Dev.Keeps.foldl | (show (_ : Bool) = _; decide +kernel) | (show _ ∈ _; decide +kernel)
      | (show _ < _; decide +kernel) | split | dsimp only

theorem execLaneTxEqWrite_frame {master : Fin 2048} {lane : Fin 512} {pre : Fin 16} {post : Fin 32} {s t : State} (h : execLaneTxEqWrite
    master lane pre post s = .next t) : s.Keeps (.LNA_TX_EQ :: recordRegs) recordParts t := by
  refine onDev_frame ?_ h
  with_reducible repeat'
    first
      | intro x | assumption | apply Dev.Keeps.refl | apply Dev.curatorOnly_keeps | apply Dev.Keeps.step Dev.writeTaps_keeps
      | apply Dev.Keeps.ite | apply Dev.Keeps.foldl | (show (_ : Bool) = _; decide +kernel) | (show _ ∈ _; decide +kernel)
      | (show _ < _; decide +kernel) | split | dsimp only

theorem execCagePowerGoodLaneRelease_frame {cage : Fin 56} {s t : State} (h : execCagePowerGoodLaneRelease cage s = .next t) : s.Keeps
    (.LNA_ALIGN :: .LNA_LANE_STATE :: .LNA_MRG_RESULT :: .LNA_RX_EQ :: .LNA_TRAIN_REF :: .LNA_TX_EQ :: recordRegs) (.cmds :: .eqReported
    :: .lanes :: .ports :: recordParts) t := by
  refine onDev_frame ?_ h
  with_reducible repeat'
    first
      | intro x | assumption | apply Dev.Keeps.refl | apply Dev.Keeps.when | apply Dev.Keeps.forEach
      | apply Dev.Keeps.step Dev.laneStart_keeps | apply Dev.Keeps.ite | apply Dev.Keeps.foldl | (show (_ : Bool) = _; decide +kernel)
      | (show _ ∈ _; decide +kernel) | (show _ < _; decide +kernel) | split | dsimp only

theorem execReceiverDetected_frame {lane : Fin 512} {s t : State} (h : execReceiverDetected lane s = .next t) : s.Keeps [.LNA_ALIGN,
    .LNA_LANE_STATE, .LNA_MRG_RESULT, .LNA_RX_EQ, .LNA_TRAIN_REF, .LNA_TX_EQ] [.cmds, .lanes, .out, .ports] t := by
  refine onDev_frame ?_ h
  with_reducible repeat'
    first
      | intro x | assumption | apply Dev.Keeps.refl | apply Dev.Keeps.step Dev.startPattern_keeps | apply Dev.Keeps.ite
      | apply Dev.Keeps.foldl | (show (_ : Bool) = _; decide +kernel) | (show _ ∈ _; decide +kernel) | (show _ < _; decide +kernel)
      | split | dsimp only

theorem execDetectTimerExpiry_frame {lane : Fin 512} {s t : State} (h : execDetectTimerExpiry lane s = .next t) : s.Keeps [] [.out] t :=
    by
  refine onDev_frame ?_ h
  with_reducible repeat'
    first
      | intro x | assumption | apply Dev.Keeps.refl | apply Dev.Keeps.when | apply Dev.Keeps.step Dev.emit_keeps | apply Dev.Keeps.ite
      | apply Dev.Keeps.foldl | (show (_ : Bool) = _; decide +kernel) | (show _ ∈ _; decide +kernel) | (show _ < _; decide +kernel)
      | split | dsimp only

theorem execBitLockAcquired_frame {lane : Fin 512} {s t : State} (h : execBitLockAcquired lane s = .next t) : s.Keeps [.LNA_ALIGN,
    .LNA_BITSLIP, .LNA_LANE_STATE, .LNA_MRG_RESULT, .LNA_TRAIN_REF] [.cmds, .lanes, .ports] t := by
  refine onDev_frame ?_ h
  with_reducible repeat'
    first
      | intro x | assumption | apply Dev.Keeps.refl | apply Dev.Keeps.put | apply Dev.Keeps.step Dev.enterLane_keeps
      | apply Dev.Keeps.ite | apply Dev.Keeps.foldl | (show (_ : Bool) = _; decide +kernel) | (show _ ∈ _; decide +kernel)
      | (show _ < _; decide +kernel) | split | dsimp only

theorem execRearSymlockTimeout_frame {lane : Fin 512} {s t : State} (h : execRearSymlockTimeout lane s = .next t) : s.Keeps (.LNA_EVENTS
    :: recordRegs) (.lanes :: recordParts) t := by
  refine onDev_frame ?_ h
  with_reducible repeat'
    first
      | intro x | assumption | apply Dev.Keeps.refl | apply Dev.Keeps.step (Dev.raise_keeps ?_)
      | apply Dev.Keeps.step Dev.setLane_keeps | apply Dev.Keeps.ite | apply Dev.Keeps.foldl | (show (_ : Bool) = _; decide +kernel)
      | (show _ ∈ _; decide +kernel) | (show _ < _; decide +kernel) | split | dsimp only

theorem execLnaBitslipDelayWrite_frame {master : Fin 2048} {lane : Fin 512} {delay : Byte} {s t : State} (h : execLnaBitslipDelayWrite
    master lane delay s = .next t) : s.Keeps (.LNA_BITSLIP :: recordRegs) (.lanes :: recordParts) t := by
  refine onDev_frame ?_ h
  with_reducible repeat'
    first
      | intro x | assumption | apply Dev.Keeps.refl | apply Dev.curatorOnly_keeps | apply Dev.Keeps.step Dev.writeDelay_keeps
      | apply Dev.Keeps.ite | apply Dev.Keeps.foldl | (show (_ : Bool) = _; decide +kernel) | (show _ ∈ _; decide +kernel)
      | (show _ < _; decide +kernel) | split | dsimp only

theorem execBitslipDelayApplied_frame {lane : Fin 512} {s t : State} (h : execBitslipDelayApplied lane s = .next t) : s.Keeps
    [.LNA_ALIGN, .LNA_BITSLIP] [.lanes] t := by
  refine onDev_frame ?_ h
  with_reducible repeat'
    first
      | intro x | assumption | apply Dev.Keeps.refl | apply Dev.Keeps.step Dev.applyDelay_keeps | apply Dev.Keeps.ite
      | apply Dev.Keeps.foldl | (show (_ : Bool) = _; decide +kernel) | (show _ ∈ _; decide +kernel) | (show _ < _; decide +kernel)
      | split | dsimp only

theorem execLaneAttemptTimerExpiry_frame {lane : Fin 512} {s t : State} (h : execLaneAttemptTimerExpiry lane s = .next t) : s.Keeps
    (.LNA_ALIGN :: .LNA_EVENTS :: .LNA_LANE_STATE :: .LNA_MRG_RESULT :: .LNA_RX_EQ :: .LNA_TRAIN_REF :: .LNA_TX_EQ :: recordRegs) (.cmds
    :: .eqReported :: .lanes :: .ports :: recordParts) t := by
  refine onDev_frame ?_ h
  with_reducible repeat'
    first
      | intro x | assumption | apply Dev.Keeps.refl | apply Dev.Keeps.when | apply Dev.Keeps.step Dev.failAttempt_keeps
      | apply Dev.Keeps.ite | apply Dev.Keeps.foldl | (show (_ : Bool) = _; decide +kernel) | (show _ ∈ _; decide +kernel)
      | (show _ < _; decide +kernel) | split | dsimp only

theorem execLaneBitLockLost_frame {lane : Fin 512} {s t : State} (h : execLaneBitLockLost lane s = .next t) : s.Keeps (.LNA_ALIGN ::
    .LNA_EVENTS :: .LNA_LANE_STATE :: .LNA_MRG_RESULT :: .LNA_RX_EQ :: .LNA_TRAIN_REF :: .LNA_TX_EQ :: .SLC_INJ_ARMED :: .TEL_MODE ::
    recordRegs) (.cmds :: .eqReported :: .injecting :: .injections :: .lanes :: .ports :: recordParts) t := by
  refine onDev_frame ?_ h
  with_reducible repeat'
    first
      | intro x | assumption | apply Dev.Keeps.refl | apply Dev.Keeps.put | apply Dev.Keeps.step Dev.count_keeps
      | apply Dev.Keeps.step Dev.laneDetect_keeps | apply Dev.Keeps.step Dev.laneOff_keeps | apply Dev.Keeps.step (Dev.raise_keeps ?_)
      | apply Dev.Keeps.step Dev.setLane_keeps | apply Dev.underInjection_keeps | apply Dev.Keeps.ite | apply Dev.Keeps.foldl
      | (show (_ : Bool) = _; decide +kernel) | (show _ ∈ _; decide +kernel) | (show _ < _; decide +kernel) | split | dsimp only

theorem execMarginScanStart_frame {master : Fin 2048} {lane : Fin 512} {value : Word} {s t : State} (h : execMarginScanStart master lane
    value s = .next t) : s.Keeps (.LNA_MRG_CTL :: .LNA_MRG_RESULT :: recordRegs) (.lanes :: recordParts) t := by
  refine onDev_frame ?_ h
  with_reducible repeat'
    first
      | intro x | assumption | apply Dev.Keeps.refl | apply Dev.curatorOnly_keeps | apply Dev.Keeps.step Dev.startScan_keeps
      | apply Dev.Keeps.step Dev.writeMargin_keeps | apply Dev.Keeps.ite | apply Dev.Keeps.foldl
      | (show (_ : Bool) = _; decide +kernel) | (show _ ∈ _; decide +kernel) | (show _ < _; decide +kernel) | split | dsimp only

theorem execMarginScanAbort_frame {master : Fin 2048} {lane : Fin 512} {value : Word} {s t : State} (h : execMarginScanAbort master lane
    value s = .next t) : s.Keeps (.LNA_MRG_CTL :: .LNA_MRG_RESULT :: .LNA_TRAIN_REF :: recordRegs) (.cmds :: .lanes :: .ports ::
    recordParts) t := by
  refine onDev_frame ?_ h
  with_reducible repeat'
    first
      | intro x | assumption | apply Dev.Keeps.refl | apply Dev.Keeps.step Dev.abortScan_keeps | apply Dev.curatorOnly_keeps
      | apply Dev.Keeps.step Dev.writeMargin_keeps | apply Dev.Keeps.ite | apply Dev.Keeps.foldl
      | (show (_ : Bool) = _; decide +kernel) | (show _ ∈ _; decide +kernel) | (show _ < _; decide +kernel) | split | dsimp only

theorem execMarginScanComplete_frame {lane : Fin 512} {eyes : List Eye} {temp : Byte} {s t : State} (h : execMarginScanComplete lane
    eyes temp s = .next t) : s.Keeps (.LNA_EVENTS :: .LNA_MRG_RESULT :: .LNA_TRAIN_REF :: recordRegs) (.cmds :: .lanes :: .ports ::
    recordParts) t := by
  refine onDev_frame ?_ h
  with_reducible repeat'
    first
      | intro x | assumption | apply Dev.Keeps.refl | apply Dev.Keeps.when | apply Dev.Keeps.step Dev.count_keeps
      | apply Dev.Keeps.step Dev.scanEnds_keeps | apply Dev.Keeps.step Dev.scanResult_keeps | apply Dev.Keeps.ite
      | apply Dev.Keeps.foldl | (show (_ : Bool) = _; decide +kernel) | (show _ ∈ _; decide +kernel) | (show _ < _; decide +kernel)
      | split | dsimp only

theorem execLoadTriggerEvaluation_frame {port : Fin 512} {util : Fin 101} {temp : Byte} {s t : State} (h : execLoadTriggerEvaluation
    port util temp s = .next t) : s.Keeps [.LNA_MRG_RESULT] [.ctrs, .lanes, .ports] t := by
  refine onDev_frame ?_ h
  with_reducible repeat'
    first
      | intro x | assumption | apply Dev.Keeps.refl | apply Dev.Keeps.forEach | apply Dev.Keeps.when
      | apply Dev.Keeps.step Dev.count_keeps | apply Dev.Keeps.step Dev.setPortX_keeps | apply Dev.Keeps.step Dev.startScan_keeps
      | apply Dev.Keeps.ite | apply Dev.Keeps.foldl | (show (_ : Bool) = _; decide +kernel) | (show _ ∈ _; decide +kernel)
      | (show _ < _; decide +kernel) | split | dsimp only

theorem execRateChangeOrdered_frame {port : Fin 512} {rate : Fin 8} {s t : State} (h : execRateChangeOrdered port rate s = .next t) :
    s.Keeps [.LNA_ALIGN, .LNA_LANE_STATE, .LNA_MRG_RESULT, .LNA_RX_EQ, .LNA_TRAIN_REF, .LNA_TX_EQ] [.cmds, .lanes, .links, .out, .ports]
    t := by
  refine onDev_frame ?_ h
  with_reducible repeat'
    first
      | intro x | assumption | apply Dev.Keeps.refl | apply Dev.Keeps.forEach | apply Dev.Keeps.when
      | apply Dev.Keeps.step Dev.request_keeps | apply Dev.Keeps.step Dev.startPattern_keeps | apply Dev.Keeps.ite
      | apply Dev.Keeps.foldl | (show (_ : Bool) = _; decide +kernel) | (show _ ∈ _; decide +kernel) | (show _ < _; decide +kernel)
      | split | dsimp only

theorem execMailboxPost_frame {master : Fin 2048} {channel : Fin 256} {value : Word} {s t : State} (h : execMailboxPost master channel
    value s = .next t) : s.Keeps (.MBX_CH_PTR_HI :: .MBX_CH_STATUS :: recordRegs) (.chans :: recordParts) t := by
  refine onDev_frame ?_ h
  with_reducible repeat'
    first
      | intro x | assumption | apply Dev.Keeps.refl | apply Dev.Keeps.step Dev.writePtrHi_keeps | apply Dev.Keeps.ite
      | apply Dev.Keeps.foldl | (show (_ : Bool) = _; decide +kernel) | (show _ ∈ _; decide +kernel) | (show _ < _; decide +kernel)
      | split | dsimp only

theorem execMailboxPop_frame {master : Fin 2048} {channel : Fin 256} {value : Word} {s t : State} (h : execMailboxPop master channel
    value s = .next t) : s.Keeps recordRegs (.chans :: recordParts) t := by
  refine onDev_frame ?_ h
  with_reducible repeat'
    first
      | intro x | assumption | apply Dev.Keeps.refl | apply Dev.Keeps.step Dev.writePop_keeps | apply Dev.Keeps.ite
      | apply Dev.Keeps.foldl | (show (_ : Bool) = _; decide +kernel) | (show _ ∈ _; decide +kernel) | (show _ < _; decide +kernel)
      | split | dsimp only

theorem execMbxLockWrite_frame {master : Fin 2048} {value : Word} {s t : State} (h : execMbxLockWrite master value s = .next t) :
    s.Keeps (.MBX_BIND :: .MBX_LOCK :: recordRegs) recordParts t := by
  refine onDev_frame ?_ h
  with_reducible repeat'
    first
      | intro x | assumption | apply Dev.Keeps.refl | apply Dev.curatorOnly_keeps | apply Dev.Keeps.step Dev.writeLock_keeps
      | apply Dev.Keeps.ite | apply Dev.Keeps.foldl | (show (_ : Bool) = _; decide +kernel) | (show _ ∈ _; decide +kernel)
      | (show _ < _; decide +kernel) | split | dsimp only

theorem execChannelAborted_frame {master : Fin 2048} {reason : Fin 16} {s t : State} (h : execChannelAborted master reason s = .next t)
    : s.Keeps (.MBX_CH_STATUS :: recordRegs) (.chans :: recordParts) t := by
  refine onDev_frame ?_ h
  with_reducible repeat'
    first
      | intro x | assumption | apply Dev.Keeps.refl | apply Dev.Keeps.step Dev.abortMaster_keeps | apply Dev.Keeps.ite
      | apply Dev.Keeps.foldl | (show (_ : Bool) = _; decide +kernel) | (show _ ∈ _; decide +kernel) | (show _ < _; decide +kernel)
      | split | dsimp only

theorem execVmfBmeClear_frame {lvid : Fin 1024} {s t : State} (h : execVmfBmeClear lvid s = .next t) : s.Keeps [.VMF_BME] [.vmfs] t :=
    by
  refine onDev_frame ?_ h
  with_reducible repeat'
    first
      | intro x | assumption | apply Dev.Keeps.refl | apply Dev.Keeps.step Dev.clearBme_keeps | apply Dev.Keeps.ite
      | apply Dev.Keeps.foldl | (show (_ : Bool) = _; decide +kernel) | (show _ ∈ _; decide +kernel) | (show _ < _; decide +kernel)
      | split | dsimp only

theorem execVmfFlr_frame {lvid : Fin 1024} {s t : State} (h : execVmfFlr lvid s = .next t) : s.Keeps (.MBX_CH_STATUS :: .VMF_BME ::
    .VMF_CAT_ADDR_HI :: .VMF_CAT_ADDR_LO :: .VMF_CAT_SIZE :: .VMF_CAT_WPTR :: .VMF_CPL_TMO :: .VMF_EVENT_MASK :: .VMF_SPC_ADDR_HI ::
    .VMF_SPC_ADDR_LO :: .VMF_SPC_SIZE :: .VMF_SPC_WPTR :: recordRegs) (.cats :: .cfg :: .chans :: .samples :: .spcs :: .vmfs ::
    recordParts) t := by
  refine onDev_frame ?_ h
  with_reducible repeat'
    first
      | intro x | assumption | apply Dev.Keeps.refl | apply Dev.Keeps.step Dev.startFlr_keeps | apply Dev.Keeps.ite
      | apply Dev.Keeps.foldl | (show (_ : Bool) = _; decide +kernel) | (show _ ∈ _; decide +kernel) | (show _ < _; decide +kernel)
      | split | dsimp only

theorem execVmfReadTimeout_frame {lvid : Fin 1024} {s t : State} (h : execVmfReadTimeout lvid s = .next t) : s.Keeps (.VMF_BME ::
    .VMF_CAT_ADDR_HI :: .VMF_CAT_ADDR_LO :: .VMF_CAT_SIZE :: .VMF_CAT_WPTR :: .VMF_CPL_TMO :: .VMF_EVENT_MASK :: .VMF_SPC_ADDR_HI ::
    .VMF_SPC_ADDR_LO :: .VMF_SPC_SIZE :: .VMF_SPC_WPTR :: recordRegs) (.cats :: .cfg :: .samples :: .spcs :: .vmfs :: recordParts) t :=
    by
  refine onDev_frame ?_ h
  with_reducible repeat'
    first
      | intro x | assumption | apply Dev.Keeps.refl | apply Dev.Keeps.step Dev.fetchLost_keeps
      | apply Dev.Keeps.step Dev.finishFlr_keeps | apply Dev.Keeps.step Dev.setVmf_keeps | apply Dev.Keeps.step Dev.showReads_keeps
      | apply Dev.Keeps.ite | apply Dev.Keeps.foldl | (show (_ : Bool) = _; decide +kernel) | (show _ ∈ _; decide +kernel)
      | (show _ < _; decide +kernel) | split | dsimp only

theorem execLaneEnableCleared_frame {master : Fin 2048} {lane : Fin 512} {s t : State} (h : execLaneEnableCleared master lane s = .next
    t) : s.Keeps (.FLL_LINK_STATUS :: .FLL_REPLAY :: .LNA_ALIGN :: .LNA_LANE_CFG :: .LNA_LANE_STATE :: .LNA_MRG_RESULT :: .LNA_TRAIN_REF
    :: .PIN_CTL :: .PIN_OLD :: .RTE_EVENTS :: .RTE_GRP_SLOT :: .WR_Q_DRR :: recordRegs) (.arrived :: .cellsFree :: .cmds :: .dwins ::
    .lanes :: .links :: .outs :: .pausedLinks :: .pins :: .ports :: .queues :: recordParts) t := by
  refine onDev_frame ?_ h
  with_reducible repeat'
    first
      | intro x | assumption | apply Dev.Keeps.refl | apply Dev.Keeps.step Dev.clearEnable_keeps | apply Dev.curatorOnly_keeps
      | apply Dev.Keeps.ite | apply Dev.Keeps.foldl | (show (_ : Bool) = _; decide +kernel) | (show _ ∈ _; decide +kernel)
      | (show _ < _; decide +kernel) | split | dsimp only

theorem execSymbolLockAcquired_frame {lane : Fin 512} {found : Fin 256} {s t : State} (h : execSymbolLockAcquired lane found s = .next
    t) : s.Keeps (.EBR_CRD_AVAIL :: .FLL_EVENTS :: .FLL_LINK_STATUS :: .FLL_REPLAY :: .FLL_SEQ :: .LNA_ALIGN :: .LNA_LANE_STATE ::
    .LNA_MRG_RESULT :: .LNA_TRAIN_REF :: .WR_GATE_STATUS :: .WR_PORT_GUARD :: recordRegs) (.arrived :: .cmds :: .lanes :: .links ::
    .pausedLinks :: .ports :: .wins :: recordParts) t := by
  refine onDev_frame ?_ h
  with_reducible repeat'
    first
      | intro x | assumption | apply Dev.Keeps.refl | apply Dev.Keeps.when | apply Dev.Keeps.step Dev.symbolLock_keeps
      | apply Dev.Keeps.ite | apply Dev.Keeps.foldl | (show (_ : Bool) = _; decide +kernel) | (show _ ∈ _; decide +kernel)
      | (show _ < _; decide +kernel) | split | dsimp only

theorem execBitslipSearchStep_frame {lane : Fin 512} {locked : Bool} {found : Fin 256} {s t : State} (h : execBitslipSearchStep lane
    locked found s = .next t) : s.Keeps (.EBR_CRD_AVAIL :: .FLL_EVENTS :: .FLL_LINK_STATUS :: .FLL_REPLAY :: .FLL_SEQ :: .LNA_ALIGN ::
    .LNA_BITSLIP :: .LNA_LANE_STATE :: .LNA_MRG_RESULT :: .LNA_TRAIN_REF :: .WR_GATE_STATUS :: .WR_PORT_GUARD :: recordRegs) (.arrived
    :: .cmds :: .lanes :: .links :: .pausedLinks :: .ports :: .wins :: recordParts) t := by
  refine onDev_frame ?_ h
  with_reducible repeat'
    first
      | intro x | assumption | apply Dev.Keeps.refl | apply Dev.Keeps.mark | apply Dev.Keeps.put
      | apply Dev.Keeps.step Dev.record_keeps | apply Dev.Keeps.step Dev.setLane_keeps | apply Dev.Keeps.step Dev.symbolLock_keeps
      | apply Dev.Keeps.ite | apply Dev.Keeps.foldl | (show (_ : Bool) = _; decide +kernel) | (show _ ∈ _; decide +kernel)
      | (show _ < _; decide +kernel) | split | dsimp only

theorem execTapsAgreed_frame {lane : Fin 512} {report : TapsReport} {s t : State} (h : execTapsAgreed lane report s = .next t) : s.Keeps
    (.EBR_CRD_AVAIL :: .FLL_EVENTS :: .FLL_LINK_STATUS :: .FLL_REPLAY :: .FLL_SEQ :: .LNA_ALIGN :: .LNA_LANE_STATE :: .LNA_MRG_RESULT ::
    .LNA_TRAIN_REF :: .WR_GATE_STATUS :: .WR_PORT_GUARD :: recordRegs) (.arrived :: .cmds :: .lanes :: .links :: .pausedLinks :: .ports
    :: .wins :: recordParts) t := by
  refine onDev_frame ?_ h
  with_reducible repeat'
    first
      | intro x | assumption | apply Dev.Keeps.refl | apply Dev.Keeps.put | apply Dev.Keeps.when
      | apply Dev.Keeps.step Dev.enterLane_keeps | apply Dev.Keeps.step Dev.laneInCapx_keeps
      | apply Dev.Keeps.step Dev.searchTaps_keeps | apply Dev.Keeps.step Dev.setLane_keeps | apply Dev.Keeps.ite
      | apply Dev.Keeps.foldl | (show (_ : Bool) = _; decide +kernel) | (show _ ∈ _; decide +kernel) | (show _ < _; decide +kernel)
      | split | dsimp only

theorem execCapxExchangeComplete_frame {port : Fin 512} {found : Capx} {s t : State} (h : execCapxExchangeComplete port found s = .next
    t) : s.Keeps (.EBR_CRD_AVAIL :: .FLL_LINK_STATUS :: .FLL_REPLAY :: .LNA_ALIGN :: .LNA_LANE_STATE :: .LNA_MRG_RESULT :: .LNA_RX_EQ ::
    .LNA_TRAIN_REF :: .LNA_TX_EQ :: .PRT_EVENTS :: .PRT_PORT_STATUS :: .TUN_CE_GEOM :: .TUN_CE_IRQ :: .TUN_CE_MODE :: .TUN_CE_SCANOUT ::
    .TUN_CE_STATUS :: .TUN_CE_STRIDE :: .WR_GATE_STATUS :: .WR_PORT_GUARD :: recordRegs) (.arrived :: .cmds :: .edges :: .edgesOut ::
    .endpoints :: .engines :: .eqReported :: .lanes :: .links :: .ports :: .wins :: recordParts) t := by
  refine onDev_frame ?_ h
  with_reducible repeat'
    first
      | intro x | assumption | apply Dev.Keeps.refl | apply Dev.Keeps.step Dev.applyPending_keeps
      | apply Dev.Keeps.step Dev.linkActive_keeps | apply Dev.Keeps.step Dev.portActiveCapx_keeps | apply Dev.Keeps.ite
      | apply Dev.Keeps.foldl | (show (_ : Bool) = _; decide +kernel) | (show _ ∈ _; decide +kernel) | (show _ < _; decide +kernel)
      | split | dsimp only

theorem execDeskewFail_frame {port : Fin 512} {skews : List Int} {s t : State} (h : execDeskewFail port skews s = .next t) : s.Keeps
    (.FLL_LINK_STATUS :: .LNA_ALIGN :: .LNA_BITSLIP :: .LNA_EVENTS :: .LNA_LANE_STATE :: .LNA_MRG_RESULT :: .LNA_RX_EQ :: .LNA_TRAIN_REF
    :: .LNA_TX_EQ :: recordRegs) (.cmds :: .eqReported :: .lanes :: .ports :: recordParts) t := by
  refine onDev_frame ?_ h
  with_reducible repeat'
    first
      | intro x | assumption | apply Dev.Keeps.refl | apply Dev.Keeps.put | apply Dev.Keeps.forEach
      | apply Dev.Keeps.step Dev.enterLane_keeps | apply Dev.Keeps.step Dev.failPort_keeps | apply Dev.Keeps.step (Dev.raise_keeps ?_)
      | apply Dev.Keeps.step Dev.setLinkState_keeps | apply Dev.Keeps.step Dev.writeDelay_keeps | apply Dev.Keeps.ite
      | apply Dev.Keeps.foldl | (show (_ : Bool) = _; decide +kernel) | (show _ ∈ _; decide +kernel) | (show _ < _; decide +kernel)
      | split | dsimp only

theorem execLaneRetirement_frame {lane : Fin 512} {s t : State} (h : execLaneRetirement lane s = .next t) : s.Keeps (.EBR_CRD_AVAIL ::
    .FLL_LINK_STATUS :: .FLL_REPLAY :: .HLT_EVENTS :: .LNA_ALIGN :: .LNA_LANE_STATE :: .LNA_MRG_RESULT :: .LNA_RX_EQ :: .LNA_TRAIN_REF
    :: .LNA_TX_EQ :: .PIN_CTL :: .PIN_OLD :: .PRT_PORT_STATUS :: .RTE_EVENTS :: .RTE_GRP_SLOT :: .WR_GATE_STATUS :: .WR_PORT_GUARD ::
    .WR_Q_DRR :: recordRegs) (.arrived :: .cellsFree :: .cmds :: .dwins :: .eqReported :: .lanes :: .links :: .outs :: .pausedLinks ::
    .pins :: .ports :: .queues :: .wins :: recordParts) t := by
  refine onDev_frame ?_ h
  with_reducible repeat'
    first
      | intro x | assumption | apply Dev.Keeps.refl | apply Dev.Keeps.step Dev.retireLane_keeps | apply Dev.Keeps.ite
      | apply Dev.Keeps.foldl | (show (_ : Bool) = _; decide +kernel) | (show _ ∈ _; decide +kernel) | (show _ < _; decide +kernel)
      | split | dsimp only

theorem execFabricLinkReequalisation_frame {port : Fin 512} {tries : List (Fin 512 × List Bool)} {temp : Byte} {s t : State} (h :
    execFabricLinkReequalisation port tries temp s = .next t) : s.Keeps (.EBR_CRD_AVAIL :: .FLL_EVENTS :: .FLL_LINK_STATUS ::
    .FLL_REPLAY :: .FLL_SEQ :: .LNA_ALIGN :: .LNA_EVENTS :: .LNA_LANE_STATE :: .LNA_MRG_RESULT :: .LNA_TRAIN_REF :: .WR_GATE_STATUS ::
    .WR_PORT_GUARD :: recordRegs) (.arrived :: .cmds :: .lanes :: .links :: .pausedLinks :: .ports :: .wins :: recordParts) t := by
  refine onDev_frame ?_ h
  with_reducible repeat'
    first
      | intro x | assumption | apply Dev.Keeps.refl | apply Dev.Keeps.forEach | apply Dev.Keeps.step Dev.count_keeps
      | apply Dev.Keeps.step Dev.readyToResume_keeps | apply Dev.Keeps.step Dev.reequalise_keeps
      | apply Dev.Keeps.step Dev.setPortX_keeps | apply Dev.Keeps.step Dev.startPause_keeps | apply Dev.Keeps.ite
      | apply Dev.Keeps.foldl | (show (_ : Bool) = _; decide +kernel) | (show _ ∈ _; decide +kernel) | (show _ < _; decide +kernel)
      | split | dsimp only

theorem execPcieReeqWindowOpen_frame {port : Fin 512} {answer : ReeqAnswer} {temp : Byte} {s t : State} (h : execPcieReeqWindowOpen port
    answer temp s = .next t) : s.Keeps (.EBR_CRD_AVAIL :: .FLL_LINK_STATUS :: .FLL_REPLAY :: .HLT_EVENTS :: .LNA_ALIGN :: .LNA_EVENTS ::
    .LNA_LANE_STATE :: .LNA_MRG_RESULT :: .LNA_RX_EQ :: .LNA_TRAIN_REF :: .LNA_TX_EQ :: .PIN_CTL :: .PIN_OLD :: .PRT_PORT_STATUS ::
    .RTE_EVENTS :: .RTE_GRP_SLOT :: .WR_GATE_STATUS :: .WR_PORT_GUARD :: .WR_Q_DRR :: recordRegs) (.arrived :: .cellsFree :: .cmds ::
    .dwins :: .eqReported :: .lanes :: .links :: .outs :: .pausedLinks :: .pins :: .ports :: .queues :: .wins :: recordParts) t := by
  refine onDev_frame ?_ h
  with_reducible repeat'
    first
      | intro x | assumption | apply Dev.Keeps.refl | apply Dev.Keeps.when | apply Dev.Keeps.step Dev.reequalisePort_keeps
      | apply Dev.Keeps.step Dev.retireLane_keeps | apply Dev.Keeps.step Dev.setPortX_keeps | apply Dev.Keeps.ite
      | apply Dev.Keeps.foldl | (show (_ : Bool) = _; decide +kernel) | (show _ ∈ _; decide +kernel) | (show _ < _; decide +kernel)
      | split | dsimp only

theorem execReeqDeferred_frame {port : Fin 512} {s t : State} (h : execReeqDeferred port s = .next t) : s.Keeps recordRegs (.ports ::
    recordParts) t := by
  refine onDev_frame ?_ h
  with_reducible repeat'
    first
      | intro x | assumption | apply Dev.Keeps.refl | apply Dev.Keeps.when | apply Dev.Keeps.step Dev.count_keeps
      | apply Dev.Keeps.step Dev.record_keeps | apply Dev.Keeps.step Dev.setPortX_keeps | apply Dev.Keeps.ite | apply Dev.Keeps.foldl
      | (show (_ : Bool) = _; decide +kernel) | (show _ ∈ _; decide +kernel) | (show _ < _; decide +kernel) | split | dsimp only

theorem execFlitReceived_frame {port : Fin 512} {bytes : List Byte} {bodies : List Body} {s t : State} (h : execFlitReceived port bytes
    bodies s = .next t) : s.Keeps (.FLL_EVENTS :: .FLL_REPLAY :: .FLL_SEQ :: .SLC_INJ_ARMED :: .TEL_MODE :: recordRegs) (.arrived ::
    .injecting :: .injections :: .links :: .masked :: recordParts) t := by
  refine onDev_frame ?_ h
  with_reducible repeat'
    first
      | intro x | assumption | apply Dev.Keeps.refl | apply Dev.Keeps.step Dev.consume_keeps | apply Dev.Keeps.step Dev.count_keeps
      | apply Dev.Keeps.step Dev.fecCorrected_keeps | apply Dev.Keeps.step Dev.sendNak_keeps | apply Dev.Keeps.step Dev.takeFlit_keeps
      | apply Dev.Keeps.ite | apply Dev.Keeps.foldl | (show (_ : Bool) = _; decide +kernel) | (show _ ∈ _; decide +kernel)
      | (show _ < _; decide +kernel) | split | apply Dev.Keeps.set_injecting | dsimp only

theorem execNakReceived_frame {port : Fin 512} {expected : Fin 16384} {s t : State} (h : execNakReceived port expected s = .next t) :
    s.Keeps (.FLL_EVENTS :: .FLL_REPLAY :: .FLL_SEQ :: recordRegs) (.links :: recordParts) t := by
  refine onDev_frame ?_ h
  with_reducible repeat'
    first
      | intro x | assumption | apply Dev.Keeps.refl | apply Dev.Keeps.when | apply Dev.Keeps.step Dev.applyNak_keeps
      | apply Dev.Keeps.ite | apply Dev.Keeps.foldl | (show (_ : Bool) = _; decide +kernel) | (show _ ∈ _; decide +kernel)
      | (show _ < _; decide +kernel) | split | dsimp only

theorem execReplayTimerExpiry_frame {port : Fin 512} {s t : State} (h : execReplayTimerExpiry port s = .next t) : s.Keeps (.FLL_EVENTS
    :: .FLL_LINK_STATUS :: .FLL_REPLAY :: .LNA_ALIGN :: .LNA_LANE_STATE :: .LNA_MRG_RESULT :: .LNA_RX_EQ :: .LNA_TRAIN_REF :: .LNA_TX_EQ
    :: .PIN_CTL :: .PIN_OLD :: .RTE_EVENTS :: .RTE_GRP_SLOT :: .WR_Q_DRR :: recordRegs) (.arrived :: .cellsFree :: .cmds :: .dwins ::
    .eqReported :: .lanes :: .links :: .outs :: .pausedLinks :: .pins :: .ports :: .queues :: recordParts) t := by
  refine onDev_frame ?_ h
  with_reducible repeat'
    first
      | intro x | assumption | apply Dev.Keeps.refl | apply Dev.Keeps.put | apply Dev.Keeps.step Dev.linkLost_keeps
      | apply Dev.Keeps.step Dev.replayFrom_keeps | apply Dev.Keeps.ite | apply Dev.Keeps.foldl
      | (show (_ : Bool) = _; decide +kernel) | (show _ ∈ _; decide +kernel) | (show _ < _; decide +kernel) | split | dsimp only

theorem execAlignmentMarker_frame {port : Fin 512} {skews : List Int} {s t : State} (h : execAlignmentMarker port skews s = .next t) :
    s.Keeps [.LNA_ALIGN] [.out] t := by
  refine onDev_frame ?_ h
  with_reducible repeat'
    first
      | intro x | assumption | apply Dev.Keeps.refl | apply Dev.Keeps.put | apply Dev.Keeps.when | apply Dev.Keeps.forEach
      | apply Dev.Keeps.step Dev.emit_keeps | apply Dev.Keeps.ite | apply Dev.Keeps.foldl | (show (_ : Bool) = _; decide +kernel)
      | (show _ ∈ _; decide +kernel) | (show _ < _; decide +kernel) | split | dsimp only

theorem execEchoReq_frame {port : Fin 512} {asked : Option (Nat × Nat)} {s t : State} (h : execEchoReq port asked s = .next t) : s.Keeps
    [] [.links, .out] t := by
  refine onDev_frame ?_ h
  with_reducible repeat'
    first
      | intro x | assumption | apply Dev.Keeps.refl | apply Dev.Keeps.step Dev.sendCtl_keeps | apply Dev.Keeps.step Dev.sendEcho_keeps
      | apply Dev.Keeps.ite | apply Dev.Keeps.foldl | (show (_ : Bool) = _; decide +kernel) | (show _ ∈ _; decide +kernel)
      | (show _ < _; decide +kernel) | split | dsimp only

theorem execEchoRsp_frame {port : Fin 512} {tag turnaround : Nat} {s t : State} (h : execEchoRsp port tag turnaround s = .next t) :
    s.Keeps [.FLL_RTT] [.links] t := by
  refine onDev_frame ?_ h
  with_reducible repeat'
    first
      | intro x | assumption | apply Dev.Keeps.refl | apply Dev.Keeps.put | apply Dev.Keeps.step Dev.answered_keeps
      | apply Dev.Keeps.step Dev.setLink_keeps | apply Dev.Keeps.ite | apply Dev.Keeps.foldl | (show (_ : Bool) = _; decide +kernel)
      | (show _ ∈ _; decide +kernel) | (show _ < _; decide +kernel) | split | dsimp only

theorem execParams_frame {port : Fin 512} {partner : Params} {s t : State} (h : execParams port partner s = .next t) : s.Keeps
    (.FLL_LINK_STATUS :: .FLL_PARTNER :: .FLL_REPLAY :: .FLL_SEQ :: .LNA_ALIGN :: .LNA_EVENTS :: .LNA_LANE_STATE :: .LNA_MRG_RESULT ::
    .LNA_RX_EQ :: .LNA_TRAIN_REF :: .LNA_TX_EQ :: recordRegs) (.cmds :: .eqReported :: .lanes :: .links :: .ports :: recordParts) t :=
    by
  refine onDev_frame ?_ h
  with_reducible repeat'
    first
      | intro x | assumption | apply Dev.Keeps.refl | apply Dev.Keeps.put | apply Dev.Keeps.when
      | apply Dev.Keeps.step Dev.sendCtl_keeps | apply Dev.Keeps.step Dev.setLink_keeps | apply Dev.Keeps.step Dev.takeParams_keeps
      | apply Dev.Keeps.ite | apply Dev.Keeps.foldl | (show (_ : Bool) = _; decide +kernel) | (show _ ∈ _; decide +kernel)
      | (show _ < _; decide +kernel) | split | dsimp only

theorem execLinkCtlRetryTimer_frame {request : CtlAwaited} {s t : State} (h : execLinkCtlRetryTimer request s = .next t) : s.Keeps []
    [.ctrs, .links, .out, .pausedLinks] t := by
  refine onDev_frame ?_ h
  with_reducible repeat'
    first
      | intro x | assumption | apply Dev.Keeps.refl | apply Dev.Keeps.step Dev.giveUp_keeps
      | apply Dev.Keeps.step Dev.repeatRequest_keeps | apply Dev.Keeps.ite | apply Dev.Keeps.foldl
      | (show (_ : Bool) = _; decide +kernel) | (show _ ∈ _; decide +kernel) | (show _ < _; decide +kernel) | split | dsimp only

theorem execFabricLaneLost_frame {lane : Fin 512} {s t : State} (h : execFabricLaneLost lane s = .next t) : s.Keeps (.FLL_LINK_STATUS ::
    .FLL_REPLAY :: .LNA_ALIGN :: .LNA_LANE_STATE :: .LNA_MRG_RESULT :: .LNA_TRAIN_REF :: .PIN_CTL :: .PIN_OLD :: .RTE_EVENTS ::
    .RTE_GRP_SLOT :: .WR_Q_DRR :: recordRegs) (.arrived :: .cellsFree :: .cmds :: .dwins :: .lanes :: .links :: .outs :: .pausedLinks ::
    .pins :: .ports :: .queues :: recordParts) t := by
  refine onDev_frame ?_ h
  with_reducible repeat'
    first
      | intro x | assumption | apply Dev.Keeps.refl | apply Dev.Keeps.step Dev.laneOff_keeps
      | apply Dev.Keeps.step Dev.narrowLink_keeps | apply Dev.Keeps.step Dev.setLane_keeps | apply Dev.Keeps.ite
      | apply Dev.Keeps.foldl | (show (_ : Bool) = _; decide +kernel) | (show _ ∈ _; decide +kernel) | (show _ < _; decide +kernel)
      | split | dsimp only

theorem execWidthReq_frame {port : Fin 512} {width : Fin 5} {mask : Fin 65536} {s t : State} (h : execWidthReq port width mask s = .next
    t) : s.Keeps [.FLL_LINK_STATUS, .LNA_ALIGN, .LNA_LANE_STATE, .LNA_MRG_RESULT, .LNA_TRAIN_REF] [.cmds, .lanes, .links, .out,
    .pausedLinks, .ports] t := by
  refine onDev_frame ?_ h
  with_reducible repeat'
    first
      | intro x | assumption | apply Dev.Keeps.refl | apply Dev.Keeps.step Dev.sendCtl_keeps | apply Dev.Keeps.step Dev.setLink_keeps
      | apply Dev.Keeps.step Dev.setLinkState_keeps | apply Dev.Keeps.step Dev.stripe_keeps | apply Dev.Keeps.ite
      | apply Dev.Keeps.foldl | (show (_ : Bool) = _; decide +kernel) | (show _ ∈ _; decide +kernel) | (show _ < _; decide +kernel)
      | split | apply Dev.Keeps.set_pausedLinks | dsimp only

theorem execWidthAck_frame {port : Fin 512} {width : Fin 5} {mask : Fin 65536} {s t : State} (h : execWidthAck port width mask s = .next
    t) : s.Keeps [.LNA_ALIGN, .LNA_LANE_STATE, .LNA_MRG_RESULT, .LNA_TRAIN_REF] [.cmds, .lanes, .links, .out, .ports] t := by
  refine onDev_frame ?_ h
  with_reducible repeat'
    first
      | intro x | assumption | apply Dev.Keeps.refl | apply Dev.Keeps.step Dev.stripe_keeps | apply Dev.Keeps.ite
      | apply Dev.Keeps.foldl | (show (_ : Bool) = _; decide +kernel) | (show _ ∈ _; decide +kernel) | (show _ < _; decide +kernel)
      | split | dsimp only

theorem execResume_frame {port : Fin 512} {expected : Fin 16384} {s t : State} (h : execResume port expected s = .next t) : s.Keeps
    (.EBR_CRD_AVAIL :: .FLL_EVENTS :: .FLL_LINK_STATUS :: .FLL_REPLAY :: .FLL_SEQ :: .LNA_ALIGN :: .LNA_LANE_STATE :: .LNA_MRG_RESULT ::
    .LNA_TRAIN_REF :: .WR_GATE_STATUS :: .WR_PORT_GUARD :: recordRegs) (.arrived :: .cmds :: .lanes :: .links :: .pausedLinks :: .ports
    :: .wins :: recordParts) t := by
  refine onDev_frame ?_ h
  with_reducible repeat'
    first
      | intro x | assumption | apply Dev.Keeps.refl | apply Dev.Keeps.when | apply Dev.Keeps.step Dev.keepResume_keeps
      | apply Dev.Keeps.step Dev.resumeLink_keeps | apply Dev.Keeps.step Dev.sendCtl_keeps | apply Dev.Keeps.ite
      | apply Dev.Keeps.foldl | (show (_ : Bool) = _; decide +kernel) | (show _ ∈ _; decide +kernel) | (show _ < _; decide +kernel)
      | split | dsimp only

theorem execLinkWidthIncrease_frame {port : Fin 512} {width : Fin 5} {s t : State} (h : execLinkWidthIncrease port width s = .next t) :
    s.Keeps (.LNA_ALIGN :: .LNA_LANE_STATE :: .LNA_MRG_RESULT :: .LNA_RX_EQ :: .LNA_TRAIN_REF :: .LNA_TX_EQ :: recordRegs) (.cmds ::
    .eqReported :: .lanes :: .links :: .ports :: recordParts) t := by
  refine onDev_frame ?_ h
  with_reducible repeat'
    first
      | intro x | assumption | apply Dev.Keeps.refl | apply Dev.Keeps.forEach | apply Dev.Keeps.step Dev.setLink_keeps
      | apply Dev.Keeps.step Dev.trainBeside_keeps | apply Dev.Keeps.ite | apply Dev.Keeps.foldl
      | (show (_ : Bool) = _; decide +kernel) | (show _ ∈ _; decide +kernel) | (show _ < _; decide +kernel) | split | dsimp only

theorem execSpeedReq_frame {port : Fin 512} {frame : SpeedCtl} {s t : State} (h : execSpeedReq port frame s = .next t) : s.Keeps
    [.FLL_LINK_STATUS, .LNA_ALIGN, .LNA_LANE_STATE, .LNA_MRG_RESULT, .LNA_RX_EQ, .LNA_TRAIN_REF, .LNA_TX_EQ] [.cmds, .lanes, .links,
    .out, .ports] t := by
  refine onDev_frame ?_ h
  with_reducible repeat'
    first
      | intro x | assumption | apply Dev.Keeps.refl | apply Dev.Keeps.when | apply Dev.Keeps.step Dev.beginSpeed_keeps
      | apply Dev.Keeps.step Dev.sendCtl_keeps | apply Dev.Keeps.step Dev.setLinkState_keeps | apply Dev.Keeps.ite
      | apply Dev.Keeps.foldl | (show (_ : Bool) = _; decide +kernel) | (show _ ∈ _; decide +kernel) | (show _ < _; decide +kernel)
      | split | dsimp only

theorem execSpeedChangeTimeout_frame {port : Fin 512} {s t : State} (h : execSpeedChangeTimeout port s = .next t) : s.Keeps
    (.EBR_CRD_AVAIL :: .FLL_EVENTS :: .FLL_LINK_STATUS :: .FLL_REPLAY :: .FLL_SEQ :: .LNA_ALIGN :: .LNA_LANE_STATE :: .LNA_MRG_RESULT ::
    .LNA_RX_EQ :: .LNA_TRAIN_REF :: .LNA_TX_EQ :: .WR_GATE_STATUS :: .WR_PORT_GUARD :: recordRegs) (.arrived :: .cmds :: .lanes ::
    .links :: .pausedLinks :: .ports :: .wins :: recordParts) t := by
  refine onDev_frame ?_ h
  with_reducible repeat'
    first
      | intro x | assumption | apply Dev.Keeps.refl | apply Dev.Keeps.forEach | apply Dev.Keeps.put
      | apply Dev.Keeps.step Dev.enterLane_keeps | apply Dev.Keeps.step Dev.loadEntry_keeps
      | apply Dev.Keeps.step (Dev.raise_keeps ?_) | apply Dev.Keeps.step Dev.readyToResume_keeps
      | apply Dev.Keeps.step Dev.setLink_keeps | apply Dev.Keeps.step Dev.setTaps_keeps | apply Dev.Keeps.ite | apply Dev.Keeps.foldl
      | (show (_ : Bool) = _; decide +kernel) | (show _ ∈ _; decide +kernel) | (show _ < _; decide +kernel) | split | dsimp only

theorem execPauseReq_frame {port : Fin 512} {reason : Byte} {s t : State} (h : execPauseReq port reason s = .next t) : s.Keeps
    [.FLL_LINK_STATUS, .LNA_ALIGN, .LNA_LANE_STATE, .LNA_MRG_RESULT, .LNA_TRAIN_REF] [.cmds, .ctrs, .lanes, .out, .pausedLinks, .ports]
    t := by
  refine onDev_frame ?_ h
  with_reducible repeat'
    first
      | intro x | assumption | apply Dev.Keeps.refl | apply Dev.Keeps.step Dev.pauseLink_keeps
      | apply Dev.Keeps.step Dev.sendCtl_keeps | apply Dev.Keeps.ite | apply Dev.Keeps.foldl | (show (_ : Bool) = _; decide +kernel)
      | (show _ ∈ _; decide +kernel) | (show _ < _; decide +kernel) | split | apply Dev.Keeps.set_pausedLinks | dsimp only

theorem execPauseAck_frame {port : Fin 512} {s t : State} (h : execPauseAck port s = .next t) : s.Keeps [.FLL_LINK_STATUS, .LNA_ALIGN,
    .LNA_LANE_STATE, .LNA_MRG_RESULT, .LNA_TRAIN_REF] [.cmds, .ctrs, .lanes, .links, .ports] t := by
  refine onDev_frame ?_ h
  with_reducible repeat'
    first
      | intro x | assumption | apply Dev.Keeps.refl | apply Dev.Keeps.when | apply Dev.Keeps.step Dev.answered_keeps
      | apply Dev.Keeps.step Dev.pauseLink_keeps | apply Dev.Keeps.step Dev.setLink_keeps | apply Dev.Keeps.ite
      | apply Dev.Keeps.foldl | (show (_ : Bool) = _; decide +kernel) | (show _ ∈ _; decide +kernel) | (show _ < _; decide +kernel)
      | split | dsimp only

theorem execClass3Error_frame {port : Fin 512} {ep : Fin 128} {error : Fin 5} {s t : State} (h : execClass3Error port ep error s = .next
    t) : s.Keeps (.BSN_Q_STATUS :: .DOC_CORE_STATUS :: .DOC_EVENTS :: .DOC_WSTORE_LOST :: .EBR_CRD_AVAIL :: .EBR_EVENTS :: .EBR_LOCK ::
    .EBR_PFLOG_HEAD :: .EBR_RAT_PFDISC_HI :: .EBR_RAT_PFDISC_LO :: .FLL_LINK_STATUS :: .FLL_REPLAY :: .LNA_ALIGN :: .LNA_LANE_STATE ::
    .LNA_MRG_RESULT :: .LNA_RX_EQ :: .LNA_TRAIN_REF :: .LNA_TX_EQ :: .PIN_CTL :: .PIN_OLD :: .PRT_PORT_STATUS :: .RTE_EVENTS ::
    .RTE_GRP_SLOT :: .SLC_CONT_ESEQ_HI :: .SLC_CONT_ESEQ_LO :: .SLC_CONT_STATE :: .SLC_INJ_ARMED :: .TEL_MODE :: .VIT_STATE :: .WR_Q_DRR
    :: recordRegs) (.arrived :: .cellsFree :: .cmds :: .cores :: .dwins :: .endpoints :: .eqReported :: .heldTlps :: .injecting ::
    .injections :: .lanes :: .limited :: .links :: .lockSince :: .lockSrc :: .notices :: .outs :: .pausedLinks :: .pfLog :: .pfSeq ::
    .pins :: .ports :: .queues :: .trk :: .vports :: .winFetches :: .winReads :: .winStores :: .wins :: .withheld :: recordParts) t :=
    by
  refine onDev_frame ?_ h
  with_reducible repeat'
    first
      | intro x | assumption | apply Dev.Keeps.refl | apply Dev.Keeps.step Dev.class3_keeps | apply Dev.underInjection_keeps
      | apply Dev.Keeps.ite | apply Dev.Keeps.foldl | (show (_ : Bool) = _; decide +kernel) | (show _ ∈ _; decide +kernel)
      | (show _ < _; decide +kernel) | split | dsimp only

theorem execClass4Condition_frame {port : Fin 512} {fault : LinkFault} {s t : State} (h : execClass4Condition port fault s = .next t) :
    s.Keeps (.BSN_Q_STATUS :: .DOC_CORE_STATUS :: .DOC_EVENTS :: .DOC_WSTORE_LOST :: .EBR_CRD_AVAIL :: .EBR_EVENTS :: .EBR_LOCK ::
    .EBR_PFLOG_HEAD :: .EBR_RAT_PFDISC_HI :: .EBR_RAT_PFDISC_LO :: .FLL_LINK_STATUS :: .FLL_REPLAY :: .LNA_ALIGN :: .LNA_LANE_STATE ::
    .LNA_MRG_RESULT :: .LNA_TRAIN_REF :: .PIN_CTL :: .PIN_OLD :: .PRT_PORT_STATUS :: .RTE_EVENTS :: .RTE_GRP_SLOT :: .SLC_CONT_ESEQ_HI
    :: .SLC_CONT_ESEQ_LO :: .SLC_CONT_STATE :: .SLC_INJ_ARMED :: .TEL_MODE :: .VIT_STATE :: .WR_Q_DRR :: recordRegs) (.arrived ::
    .cellsFree :: .cmds :: .cores :: .dwins :: .endpoints :: .heldTlps :: .injecting :: .injections :: .lanes :: .limited :: .links ::
    .lockSince :: .lockSrc :: .notices :: .outs :: .pausedLinks :: .pfLog :: .pfSeq :: .pins :: .ports :: .queues :: .trk :: .vports ::
    .winFetches :: .winReads :: .winStores :: .wins :: .withheld :: recordParts) t := by
  refine onDev_frame ?_ h
  with_reducible repeat'
    first
      | intro x | assumption | apply Dev.Keeps.refl | apply Dev.Keeps.step Dev.again_keeps | apply Dev.Keeps.step Dev.contain_keeps
      | apply Dev.Keeps.step Dev.furtherError_keeps | apply Dev.Keeps.step Dev.record_keeps | apply Dev.underInjection_keeps
      | apply Dev.Keeps.ite | apply Dev.Keeps.foldl | (show (_ : Bool) = _; decide +kernel) | (show _ ∈ _; decide +kernel)
      | (show _ < _; decide +kernel) | split | dsimp only

theorem execContainmentNotice_frame {source : Fin 8192} {scope : Fin 4} {id : Fin 8388608} {cause : Fin 4} {s t : State} (h :
    execContainmentNotice source scope id cause s = .next t) : s.Keeps (.BSN_Q_STATUS :: .DOC_CORE_STATUS :: .DOC_EVENTS ::
    .DOC_WSTORE_LOST :: .EBR_EVENTS :: .EBR_LOCK :: .EBR_PFLOG_HEAD :: .EBR_RAT_PFDISC_HI :: .EBR_RAT_PFDISC_LO :: recordRegs) (.arrived
    :: .cores :: .endpoints :: .heldRemote :: .lockSince :: .lockSrc :: .outs :: .pfLog :: .pfSeq :: .queues :: .trk :: .vports ::
    .winFetches :: .winReads :: .winStores :: recordParts) t := by
  refine onDev_frame ?_ h
  with_reducible repeat'
    first
      | intro x | assumption | apply Dev.Keeps.refl | apply Dev.Keeps.step Dev.takeNotice_keeps | apply Dev.Keeps.step Dev.tell_keeps
      | apply Dev.Keeps.ite | apply Dev.Keeps.foldl | (show (_ : Bool) = _; decide +kernel) | (show _ ∈ _; decide +kernel)
      | (show _ < _; decide +kernel) | split | dsimp only

theorem execNoticeRepeatTimer_frame {modul : Fin 8192} {scope : Fin 4} {id : Fin 1024} {s t : State} (h : execNoticeRepeatTimer modul
    scope id s = .next t) : s.Keeps recordRegs (.arrived :: .notices :: recordParts) t := by
  refine onDev_frame ?_ h
  with_reducible repeat'
    first
      | intro x | assumption | apply Dev.Keeps.refl | apply Dev.Keeps.step Dev.record_keeps | apply Dev.Keeps.step Dev.tell_keeps
      | apply Dev.Keeps.ite | apply Dev.Keeps.foldl | (show (_ : Bool) = _; decide +kernel) | (show _ ∈ _; decide +kernel)
      | (show _ < _; decide +kernel) | split | apply Dev.Keeps.set_notices | dsimp only

theorem execAccessionStart_frame {port : Fin 512} {ep : Fin 128} {found : Found} {s t : State} (h : execAccessionStart port ep found s =
    .next t) : s.Keeps [] [.endpoints] t := by
  refine onDev_frame ?_ h
  with_reducible repeat'
    first
      | intro x | assumption | apply Dev.Keeps.refl | apply Dev.Keeps.step Dev.setEndpoint_keeps | apply Dev.Keeps.ite
      | apply Dev.Keeps.foldl | (show (_ : Bool) = _; decide +kernel) | (show _ ∈ _; decide +kernel) | (show _ < _; decide +kernel)
      | split | dsimp only

theorem execAccessionSucceeds_frame {port : Fin 512} {ep : Fin 128} {identity : Option Nat} {s t : State} (h : execAccessionSucceeds
    port ep identity s = .next t) : s.Keeps (.ATT_CTL :: .ATT_EP_HI :: .ATT_EP_LO :: .ATT_FPID :: .ATT_HOST_HI :: .ATT_HOST_LO ::
    .BSN_Q_STATUS :: .DOC_CORE_STATUS :: .DOC_EVENTS :: .DOC_WSTORE_LOST :: .EBR_CRD_AVAIL :: .EBR_CRD_GRANT :: .EBR_EVENTS :: .EBR_LOCK
    :: .EBR_PFLOG_HEAD :: .EBR_RAT_PFDISC_HI :: .EBR_RAT_PFDISC_LO :: .FLL_LINK_STATUS :: .FLL_REPLAY :: .LNA_ALIGN :: .LNA_LANE_STATE
    :: .LNA_MRG_RESULT :: .LNA_TRAIN_REF :: .PIN_CTL :: .PIN_DST :: .PIN_OLD :: .PIN_SRC :: .PIN_TCUT_HI :: .PIN_TCUT_LO ::
    .PRT_PORT_STATUS :: .RTE_EVENTS :: .RTE_GRP_SLOT :: .SLC_CONT_ESEQ_HI :: .SLC_CONT_ESEQ_LO :: .SLC_CONT_STATE :: .TRK_CPL_RSV ::
    .TRK_FREE :: .TUN_CE_GEOM :: .TUN_CE_IRQ :: .TUN_CE_MODE :: .TUN_CE_SCANOUT :: .TUN_CE_STATUS :: .TUN_CE_STRIDE :: .TUN_PORT_EVENTS
    :: .VIT_STATE :: .WR_Q_DRR :: recordRegs) (.arrived :: .atts :: .cellsFree :: .cmds :: .cores :: .dwins :: .endpoints :: .engines ::
    .heldTlps :: .lanes :: .links :: .lockSince :: .lockSrc :: .notices :: .outs :: .pausedLinks :: .pfLog :: .pfSeq :: .pins :: .ports
    :: .queues :: .slots :: .trk :: .vports :: .winFetches :: .winReads :: .winStores :: .wins :: .withheld :: recordParts) t := by
  refine onDev_frame ?_ h
  with_reducible repeat'
    first
      | intro x | assumption | apply Dev.Keeps.refl | apply Dev.Keeps.when | apply Dev.Keeps.step Dev.accessionFails_keeps
      | apply Dev.Keeps.step Dev.leaveCont_keeps | apply Dev.Keeps.step (Dev.raise_keeps ?_)
      | apply Dev.Keeps.step Dev.representEndpoint_keeps | apply Dev.Keeps.step Dev.setEndpoint_keeps | apply Dev.Keeps.ite
      | apply Dev.Keeps.foldl | (show (_ : Bool) = _; decide +kernel) | (show _ ∈ _; decide +kernel) | (show _ < _; decide +kernel)
      | split | dsimp only

theorem execAccessionFailed_frame {port : Fin 512} {ep : Fin 128} {responder : Bool} {s t : State} (h : execAccessionFailed port ep
    responder s = .next t) : s.Keeps (.ATT_CTL :: .ATT_EP_HI :: .ATT_EP_LO :: .ATT_FPID :: .ATT_HOST_HI :: .ATT_HOST_LO :: .BSN_Q_STATUS
    :: .DOC_CORE_STATUS :: .DOC_EVENTS :: .DOC_WSTORE_LOST :: .EBR_CRD_AVAIL :: .EBR_CRD_GRANT :: .EBR_EVENTS :: .EBR_LOCK ::
    .EBR_PFLOG_HEAD :: .EBR_RAT_PFDISC_HI :: .EBR_RAT_PFDISC_LO :: .FLL_LINK_STATUS :: .FLL_REPLAY :: .LNA_ALIGN :: .LNA_LANE_STATE ::
    .LNA_MRG_RESULT :: .LNA_TRAIN_REF :: .PIN_CTL :: .PIN_DST :: .PIN_OLD :: .PIN_SRC :: .PIN_TCUT_HI :: .PIN_TCUT_LO ::
    .PRT_PORT_STATUS :: .RTE_EVENTS :: .RTE_GRP_SLOT :: .SLC_CONT_ESEQ_HI :: .SLC_CONT_ESEQ_LO :: .SLC_CONT_STATE :: .TRK_CPL_RSV ::
    .TRK_FREE :: .TUN_CE_GEOM :: .TUN_CE_IRQ :: .TUN_CE_MODE :: .TUN_CE_SCANOUT :: .TUN_CE_STATUS :: .TUN_CE_STRIDE :: .VIT_STATE ::
    .WR_Q_DRR :: recordRegs) (.arrived :: .atts :: .cellsFree :: .cmds :: .cores :: .dwins :: .endpoints :: .engines :: .heldTlps ::
    .lanes :: .links :: .lockSince :: .lockSrc :: .notices :: .outs :: .pausedLinks :: .pfLog :: .pfSeq :: .pins :: .ports :: .queues ::
    .slots :: .trk :: .vports :: .winFetches :: .winReads :: .winStores :: .wins :: .withheld :: recordParts) t := by
  refine onDev_frame ?_ h
  with_reducible repeat'
    first
      | intro x | assumption | apply Dev.Keeps.refl | apply Dev.Keeps.step Dev.accessionFails_keeps | apply Dev.Keeps.ite
      | apply Dev.Keeps.foldl | (show (_ : Bool) = _; decide +kernel) | (show _ ∈ _; decide +kernel) | (show _ < _; decide +kernel)
      | split | dsimp only

theorem execAccessionLimit_frame {port : Fin 512} {ep : Fin 128} {s t : State} (h : execAccessionLimit port ep s = .next t) : s.Keeps
    (.ATT_CTL :: .ATT_EP_HI :: .ATT_EP_LO :: .ATT_FPID :: .ATT_HOST_HI :: .ATT_HOST_LO :: .BSN_Q_STATUS :: .DOC_CORE_STATUS ::
    .DOC_EVENTS :: .DOC_WSTORE_LOST :: .EBR_CRD_AVAIL :: .EBR_CRD_GRANT :: .EBR_EVENTS :: .EBR_LOCK :: .EBR_PFLOG_HEAD ::
    .EBR_RAT_PFDISC_HI :: .EBR_RAT_PFDISC_LO :: .FLL_LINK_STATUS :: .FLL_REPLAY :: .LNA_ALIGN :: .LNA_LANE_STATE :: .LNA_MRG_RESULT ::
    .LNA_TRAIN_REF :: .PIN_CTL :: .PIN_DST :: .PIN_OLD :: .PIN_SRC :: .PIN_TCUT_HI :: .PIN_TCUT_LO :: .PRT_PORT_STATUS :: .RTE_EVENTS ::
    .RTE_GRP_SLOT :: .SLC_CONT_ESEQ_HI :: .SLC_CONT_ESEQ_LO :: .SLC_CONT_STATE :: .TRK_CPL_RSV :: .TRK_FREE :: .TUN_CE_GEOM ::
    .TUN_CE_IRQ :: .TUN_CE_MODE :: .TUN_CE_SCANOUT :: .TUN_CE_STATUS :: .TUN_CE_STRIDE :: .VIT_STATE :: .WR_Q_DRR :: recordRegs)
    (.arrived :: .atts :: .cellsFree :: .cmds :: .cores :: .dwins :: .endpoints :: .engines :: .heldTlps :: .lanes :: .links ::
    .lockSince :: .lockSrc :: .notices :: .outs :: .pausedLinks :: .pfLog :: .pfSeq :: .pins :: .ports :: .queues :: .slots :: .trk ::
    .vports :: .winFetches :: .winReads :: .winStores :: .wins :: .withheld :: recordParts) t := by
  refine onDev_frame ?_ h
  with_reducible repeat'
    first
      | intro x | assumption | apply Dev.Keeps.refl | apply Dev.Keeps.when | apply Dev.Keeps.step Dev.accessionFails_keeps
      | apply Dev.Keeps.ite | apply Dev.Keeps.foldl | (show (_ : Bool) = _; decide +kernel) | (show _ ∈ _; decide +kernel)
      | (show _ < _; decide +kernel) | split | dsimp only

theorem execSluiceRelease_frame {h : CmdHdr} {scope : Fin 4} {object : Word} {eseq : Nat} {s t : State} (h : execSluiceRelease h scope
    object eseq s = .next t) : s.Keeps (.ATT_CTL :: .ATT_EP_HI :: .ATT_EP_LO :: .ATT_FPID :: .ATT_HOST_HI :: .ATT_HOST_LO ::
    .BSN_Q_STATUS :: .EBR_LOCK :: .LNA_ALIGN :: .LNA_LANE_STATE :: .LNA_MRG_RESULT :: .LNA_RX_EQ :: .LNA_TRAIN_REF :: .LNA_TX_EQ ::
    .MBX_CH_STATUS :: .PRT_PORT_STATUS :: .SLC_CONT_STATE :: .TUN_CE_GEOM :: .TUN_CE_IRQ :: .TUN_CE_MODE :: .TUN_CE_SCANOUT ::
    .TUN_CE_STATUS :: .TUN_CE_STRIDE :: .VIT_STATE :: .VMF_BME :: .VMF_CAT_ADDR_HI :: .VMF_CAT_ADDR_LO :: .VMF_CAT_SIZE :: .VMF_CAT_WPTR
    :: .VMF_CPL_TMO :: .VMF_EVENT_MASK :: .VMF_SPC_ADDR_HI :: .VMF_SPC_ADDR_LO :: .VMF_SPC_SIZE :: .VMF_SPC_WPTR :: .WR_Q_DRR ::
    recordRegs) (.arrived :: .atts :: .cats :: .cellsFree :: .cfg :: .chans :: .cmds :: .dwins :: .endpoints :: .engines :: .eqReported
    :: .heldTlps :: .lanes :: .lockSince :: .lockSrc :: .outs :: .owesDetect :: .owesDrs :: .ports :: .queues :: .samples :: .spcs ::
    .trk :: .vmfs :: .vports :: recordParts) t := by
  refine onDev_frame ?_ h
  with_reducible repeat'
    first
      | intro x | assumption | apply Dev.Keeps.refl | apply Dev.Keeps.step Dev.badParam_keeps | apply Dev.command_keeps
      | apply Dev.Keeps.step Dev.finish_keeps | apply Dev.orWait_keeps | apply Dev.Keeps.step Dev.release_keeps
      | apply Dev.vitrineCommand_keeps | apply Dev.Keeps.ite | apply Dev.Keeps.foldl | (show (_ : Bool) = _; decide +kernel)
      | (show _ ∈ _; decide +kernel) | (show _ < _; decide +kernel) | split | dsimp only

theorem execReleaseComplete_frame {scope : Fin 4} {id : Fin 1024} {s t : State} (h : execReleaseComplete scope id s = .next t) : s.Keeps
    (.BSN_Q_STATUS :: .SLC_CONT_STATE :: recordRegs) (.arrived :: .cmds :: .notices :: recordParts) t := by
  refine onDev_frame ?_ h
  with_reducible repeat'
    first
      | intro x | assumption | apply Dev.Keeps.refl | apply Dev.Keeps.when | apply Dev.Keeps.step Dev.leaveCont_keeps
      | apply Dev.Keeps.ite | apply Dev.Keeps.foldl | (show (_ : Bool) = _; decide +kernel) | (show _ ∈ _; decide +kernel)
      | (show _ < _; decide +kernel) | split | dsimp only

theorem execReleaseFailed_frame {scope : Fin 4} {id : Fin 1024} {s t : State} (h : execReleaseFailed scope id s = .next t) : s.Keeps
    (.BSN_Q_STATUS :: .DOC_CORE_STATUS :: .DOC_EVENTS :: .DOC_WSTORE_LOST :: .EBR_CRD_AVAIL :: .EBR_EVENTS :: .EBR_LOCK ::
    .EBR_PFLOG_HEAD :: .EBR_RAT_PFDISC_HI :: .EBR_RAT_PFDISC_LO :: .FLL_LINK_STATUS :: .FLL_REPLAY :: .LNA_ALIGN :: .LNA_LANE_STATE ::
    .LNA_MRG_RESULT :: .LNA_TRAIN_REF :: .PIN_CTL :: .PIN_OLD :: .PRT_PORT_STATUS :: .RTE_EVENTS :: .RTE_GRP_SLOT :: .SLC_CONT_ESEQ_HI
    :: .SLC_CONT_ESEQ_LO :: .SLC_CONT_STATE :: .VIT_STATE :: .WR_Q_DRR :: recordRegs) (.arrived :: .cellsFree :: .cmds :: .cores ::
    .dwins :: .endpoints :: .heldTlps :: .lanes :: .links :: .lockSince :: .lockSrc :: .notices :: .outs :: .pausedLinks :: .pfLog ::
    .pfSeq :: .pins :: .ports :: .queues :: .trk :: .vports :: .winFetches :: .winReads :: .winStores :: .wins :: .withheld ::
    recordParts) t := by
  refine onDev_frame ?_ h
  with_reducible repeat'
    first
      | intro x | assumption | apply Dev.Keeps.refl | apply Dev.Keeps.when | apply Dev.Keeps.step Dev.again_keeps
      | apply Dev.Keeps.ite | apply Dev.Keeps.foldl | (show (_ : Bool) = _; decide +kernel) | (show _ ∈ _; decide +kernel)
      | (show _ < _; decide +kernel) | split | dsimp only

theorem execMaskedSummary_frame {s t : State} (h : execMaskedSummary s = .next t) : s.Keeps recordRegs (.masked :: recordParts) t := by
  refine onDev_frame ?_ h
  with_reducible repeat'
    first
      | intro x | assumption | apply Dev.Keeps.refl | apply Dev.Keeps.forEach | apply Dev.Keeps.step Dev.record_keeps
      | apply Dev.Keeps.ite | apply Dev.Keeps.foldl | (show (_ : Bool) = _; decide +kernel) | (show _ ∈ _; decide +kernel)
      | (show _ < _; decide +kernel) | split | apply Dev.Keeps.set_masked | dsimp only

theorem execStagingCopy_frame {s t : State} (h : execStagingCopy s = .next t) : s.Keeps recordRegs recordParts t := by
  refine onDev_frame ?_ h
  with_reducible repeat'
    first
      | intro x | assumption | apply Dev.Keeps.refl | apply Dev.Keeps.when | apply Dev.Keeps.forEach | apply Dev.Keeps.put
      | apply Dev.Keeps.step Dev.number_keeps | apply Dev.Keeps.step Dev.record_keeps | apply Dev.Keeps.step Dev.ringWrite_keeps
      | apply Dev.Keeps.ite | apply Dev.Keeps.foldl | (show (_ : Bool) = _; decide +kernel) | (show _ ∈ _; decide +kernel)
      | (show _ < _; decide +kernel) | split | apply Dev.Keeps.set_staging | apply Dev.Keeps.set_overrun
      | refine Dev.Keeps.pair Dev.number_keeps (by assumption) ?_ ?_ ?_ | dsimp only

theorem execFaultInject_frame {h : CmdHdr} {point : Byte} {count : Word} {target argument : Nat} {s t : State} (h : execFaultInject h
    point count target argument s = .next t) : s.Keeps (.SLC_INJ_ARMED :: .TEL_MODE :: recordRegs) (.cmds :: .injections :: recordParts)
    t := by
  refine onDev_frame ?_ h
  with_reducible repeat'
    first
      | intro x | assumption | apply Dev.Keeps.refl | apply Dev.Keeps.step Dev.arm_keeps | apply Dev.Keeps.step Dev.badParam_keeps
      | apply Dev.command_keeps | apply Dev.Keeps.step Dev.finish_keeps | apply Dev.Keeps.ite | apply Dev.Keeps.foldl
      | (show (_ : Bool) = _; decide +kernel) | (show _ ∈ _; decide +kernel) | (show _ < _; decide +kernel) | split | dsimp only

theorem execContainmentNoticeAck_frame {modul : Fin 8192} {scope : Fin 4} {id : Fin 1024} {s t : State} (h : execContainmentNoticeAck
    modul scope id s = .next t) : s.Keeps [.SLC_CONT_STATE] [.notices] t := by
  refine onDev_frame ?_ h
  with_reducible repeat'
    first
      | intro x | assumption | apply Dev.Keeps.refl | apply Dev.Keeps.put | apply Dev.Keeps.ite | apply Dev.Keeps.foldl
      | (show (_ : Bool) = _; decide +kernel) | (show _ ∈ _; decide +kernel) | (show _ < _; decide +kernel) | split
      | apply Dev.Keeps.set_notices | dsimp only

theorem execPortConfig_frame {h : CmdHdr} {fpid : Word} {kind width rate flags : Byte} {lr : Word} {oversub : Byte} {windows : Fin
    65536} {pm : Word} {s t : State} (h : execPortConfig h fpid kind width rate flags lr oversub windows pm s = .next t) : s.Keeps
    (.BSN_EVENTS :: .BSN_PORT_GRANT :: .BSN_PORT_RSV :: .BSN_PORT_WIN :: .BSN_Q_CFG :: .BSN_RESERVED :: .BSN_SHARED_SIZE :: .FLL_EVENTS
    :: .FLL_LINK_STATUS :: .FLL_PARTNER :: .FLL_REPLAY :: .FLL_RTT :: .FLL_SEQ :: .LNA_LANE_CFG :: .PRT_EVENTS :: .PRT_LTR ::
    .PRT_PM_CFG :: .PRT_PORT_CFG :: .PRT_PORT_STATUS :: .WR_GATE_STATUS :: .WR_PORT_GUARD :: .WR_Q_CFG :: recordRegs) (.cmds :: .edges
    :: .edgesOut :: .links :: .ports :: recordParts) t := by
  refine onDev_frame ?_ h
  with_reducible repeat'
    first
      | intro x | assumption | apply Dev.Keeps.refl | apply Dev.Keeps.step Dev.badParam_keeps | apply Dev.command_keeps
      | apply Dev.Keeps.step Dev.configPort_keeps | apply Dev.Keeps.ite | apply Dev.Keeps.foldl
      | (show (_ : Bool) = _; decide +kernel) | (show _ ∈ _; decide +kernel) | (show _ < _; decide +kernel) | split | dsimp only

theorem execPortEnable_frame {h : CmdHdr} {fpid : Word} {on : Byte} {s t : State} (h : execPortEnable h fpid on s = .next t) : s.Keeps
    (.ATT_CTL :: .ATT_EP_HI :: .ATT_EP_LO :: .ATT_FPID :: .ATT_HOST_HI :: .ATT_HOST_LO :: .BSN_Q_STATUS :: .DOC_CORE_STATUS ::
    .DOC_EVENTS :: .DOC_WSTORE_LOST :: .EBR_CRD_AVAIL :: .EBR_EVENTS :: .EBR_LOCK :: .EBR_PFLOG_HEAD :: .EBR_RAT_PFDISC_HI ::
    .EBR_RAT_PFDISC_LO :: .FLL_LINK_STATUS :: .FLL_REPLAY :: .LNA_ALIGN :: .LNA_LANE_CFG :: .LNA_LANE_STATE :: .LNA_MRG_RESULT ::
    .LNA_RX_EQ :: .LNA_TRAIN_REF :: .LNA_TX_EQ :: .MBX_CH_STATUS :: .PIN_CTL :: .PIN_OLD :: .PRT_PORT_STATUS :: .RTE_EVENTS ::
    .RTE_GRP_SLOT :: .SLC_CONT_ESEQ_HI :: .SLC_CONT_ESEQ_LO :: .SLC_CONT_STATE :: .TUN_CE_GEOM :: .TUN_CE_IRQ :: .TUN_CE_MODE ::
    .TUN_CE_SCANOUT :: .TUN_CE_STATUS :: .TUN_CE_STRIDE :: .VIT_STATE :: .VMF_BME :: .VMF_CAT_ADDR_HI :: .VMF_CAT_ADDR_LO ::
    .VMF_CAT_SIZE :: .VMF_CAT_WPTR :: .VMF_CPL_TMO :: .VMF_EVENT_MASK :: .VMF_SPC_ADDR_HI :: .VMF_SPC_ADDR_LO :: .VMF_SPC_SIZE ::
    .VMF_SPC_WPTR :: .WR_Q_DRR :: recordRegs) (.arrived :: .atts :: .cats :: .cellsFree :: .cfg :: .chans :: .cmds :: .cores :: .dwins
    :: .endpoints :: .engines :: .eqReported :: .heldTlps :: .lanes :: .links :: .lockSince :: .lockSrc :: .notices :: .outs ::
    .owesDetect :: .owesDrs :: .pausedLinks :: .perstReleased :: .pfLog :: .pfSeq :: .pins :: .ports :: .queues :: .samples :: .spcs ::
    .trk :: .vmfs :: .vports :: .winFetches :: .winReads :: .winStores :: .wins :: .withheld :: recordParts) t := by
  refine onDev_frame ?_ h
  with_reducible repeat'
    first
      | intro x | assumption | apply Dev.Keeps.refl | apply Dev.Keeps.step Dev.badParam_keeps | apply Dev.command_keeps
      | apply Dev.Keeps.step Dev.disablePort_keeps | apply Dev.Keeps.step Dev.enablePort_keeps | apply Dev.Keeps.step Dev.finish_keeps
      | apply Dev.orWait_keeps | apply Dev.Keeps.ite | apply Dev.Keeps.foldl | (show (_ : Bool) = _; decide +kernel)
      | (show _ ∈ _; decide +kernel) | (show _ < _; decide +kernel) | split | dsimp only

theorem execMarginScan_frame {h : CmdHdr} {first : Fin 65536} {count dwell errLimit axes hfloor vfloor : Byte} {s t : State} (h :
    execMarginScan h first count dwell errLimit axes hfloor vfloor s = .next t) : s.Keeps [.LNA_MRG_CTL, .LNA_MRG_RESULT] [.cmds,
    .lanes, .out] t := by
  refine onDev_frame ?_ h
  with_reducible repeat'
    first
      | intro x | assumption | apply Dev.Keeps.refl | apply Dev.Keeps.step Dev.badParam_keeps | apply Dev.moduleCommand_keeps
      | apply Dev.orWait_keeps | apply Dev.Keeps.step Dev.scanLanes_keeps | apply Dev.Keeps.ite | apply Dev.Keeps.foldl
      | (show (_ : Bool) = _; decide +kernel) | (show _ ∈ _; decide +kernel) | (show _ < _; decide +kernel) | split | dsimp only

theorem execBitslip_frame {h : CmdHdr} {lane : Fin 65536} {delay : Byte} {locked : Bool} {found : Fin 256} {s t : State} (h :
    execBitslip h lane delay locked found s = .next t) : s.Keeps [.LNA_ALIGN, .LNA_BITSLIP] [.cmds, .lanes, .out] t := by
  refine onDev_frame ?_ h
  with_reducible repeat'
    first
      | intro x | assumption | apply Dev.Keeps.refl | apply Dev.Keeps.mark | apply Dev.Keeps.put
      | apply Dev.Keeps.step Dev.applyDelay_keeps | apply Dev.Keeps.step Dev.badParam_keeps | apply Dev.Keeps.step Dev.finish_keeps
      | apply Dev.moduleCommand_keeps | apply Dev.Keeps.step Dev.setLane_keeps | apply Dev.Keeps.ite | apply Dev.Keeps.foldl
      | (show (_ : Bool) = _; decide +kernel) | (show _ ∈ _; decide +kernel) | (show _ < _; decide +kernel) | split | dsimp only

theorem execRetrain_frame {h : CmdHdr} {object : Word} {flags : Byte} {s t : State} (h : execRetrain h object flags s = .next t) :
    s.Keeps (.BSN_Q_STATUS :: .DOC_CORE_STATUS :: .DOC_EVENTS :: .DOC_WSTORE_LOST :: .EBR_CRD_AVAIL :: .EBR_EVENTS :: .EBR_LOCK ::
    .EBR_PFLOG_HEAD :: .EBR_RAT_PFDISC_HI :: .EBR_RAT_PFDISC_LO :: .FLL_LINK_STATUS :: .FLL_REPLAY :: .LNA_ALIGN :: .LNA_EVENTS ::
    .LNA_LANE_STATE :: .LNA_MRG_RESULT :: .LNA_RX_EQ :: .LNA_TRAIN_REF :: .LNA_TX_EQ :: .PIN_CTL :: .PIN_OLD :: .PRT_PORT_STATUS ::
    .RTE_EVENTS :: .RTE_GRP_SLOT :: .SLC_CONT_STATE :: .WR_Q_DRR :: recordRegs) (.arrived :: .cellsFree :: .cmds :: .cores :: .drawn ::
    .dwins :: .endpoints :: .eqReported :: .lanes :: .links :: .lockSince :: .lockSrc :: .outs :: .pausedLinks :: .perstReleased ::
    .pfLog :: .pfSeq :: .pins :: .ports :: .queues :: .trk :: .vports :: .winFetches :: .winReads :: .winStores :: .wins :: recordParts)
    t := by
  refine onDev_frame ?_ h
  with_reducible repeat'
    first
      | intro x | assumption | apply Dev.Keeps.refl | apply Dev.Keeps.step Dev.badParam_keeps | apply Dev.command_keeps
      | apply Dev.Keeps.step Dev.finish_keeps | apply Dev.moduleCommand_keeps | apply Dev.orWait_keeps
      | apply Dev.Keeps.step Dev.retrainLane_keeps | apply Dev.Keeps.step Dev.retrainPort_keeps | apply Dev.Keeps.ite
      | apply Dev.Keeps.foldl | (show (_ : Bool) = _; decide +kernel) | (show _ ∈ _; decide +kernel) | (show _ < _; decide +kernel)
      | split | dsimp only

theorem execIntxMessage_frame {lvid : Fin 1024} {k : Fin 64} {fn : Fin 256} {wire : Fin 4} {assert : Bool} {s t : State} (h :
    execIntxMessage lvid k fn wire assert s = .next t) : s.Keeps [] [.ctrs, .out, .vits] t := by
  refine onDev_frame ?_ h
  with_reducible repeat'
    first
      | intro x | assumption | apply Dev.Keeps.refl | apply Dev.Keeps.step Dev.takeIntx_keeps | apply Dev.Keeps.ite
      | apply Dev.Keeps.foldl | (show (_ : Bool) = _; decide +kernel) | (show _ ∈ _; decide +kernel) | (show _ < _; decide +kernel)
      | split | dsimp only

theorem execErrorMessage_frame {port : Fin 512} {ep : Fin 128} {severity : Fin 3} {s t : State} (h : execErrorMessage port ep severity s
    = .next t) : s.Keeps [] [.arrived, .ctrs, .endpoints, .vports] t := by
  refine onDev_frame ?_ h
  with_reducible repeat'
    first
      | intro x | assumption | apply Dev.Keeps.refl | apply Dev.Keeps.step Dev.endpointError_keeps
      | apply Dev.Keeps.step Dev.tell_keeps | apply Dev.Keeps.ite | apply Dev.Keeps.foldl | (show (_ : Bool) = _; decide +kernel)
      | (show _ ∈ _; decide +kernel) | (show _ < _; decide +kernel) | split | dsimp only

theorem execPmeTurnOff_frame {port : Fin 512} {s t : State} (h : execPmeTurnOff port s = .next t) : s.Keeps [.PRT_PORT_STATUS]
    [.arrived, .out, .vits] t := by
  refine onDev_frame ?_ h
  with_reducible repeat'
    first
      | intro x | assumption | apply Dev.Keeps.refl | apply Dev.Keeps.forEach | apply Dev.Keeps.step Dev.emit_keeps
      | apply Dev.Keeps.step Dev.sendPmeToAck_keeps | apply Dev.Keeps.step Dev.setVit_keeps | apply Dev.Keeps.step Dev.tell_keeps
      | apply Dev.Keeps.ite | apply Dev.Keeps.foldl | (show (_ : Bool) = _; decide +kernel) | (show _ ∈ _; decide +kernel)
      | (show _ < _; decide +kernel) | split | dsimp only

theorem execPmeToAck_frame {lvid : Fin 1024} {k : Fin 64} {s t : State} (h : execPmeToAck lvid k s = .next t) : s.Keeps
    [.PRT_PORT_STATUS] [.out, .vits] t := by
  refine onDev_frame ?_ h
  with_reducible repeat'
    first
      | intro x | assumption | apply Dev.Keeps.refl | apply Dev.Keeps.when | apply Dev.Keeps.step Dev.linkReady_keeps
      | apply Dev.Keeps.step Dev.sendPmeToAck_keeps | apply Dev.Keeps.step Dev.setVit_keeps | apply Dev.Keeps.ite
      | apply Dev.Keeps.foldl | (show (_ : Bool) = _; decide +kernel) | (show _ ∈ _; decide +kernel) | (show _ < _; decide +kernel)
      | split | dsimp only

theorem execPmeToAckTimeout_frame {lvid : Fin 1024} {s t : State} (h : execPmeToAckTimeout lvid s = .next t) : s.Keeps (.PRT_EVENTS ::
    .PRT_PORT_STATUS :: recordRegs) (.arrived :: recordParts) t := by
  refine onDev_frame ?_ h
  with_reducible repeat'
    first
      | intro x | assumption | apply Dev.Keeps.refl | apply Dev.Keeps.forEach | apply Dev.Keeps.step (Dev.raise_keeps ?_)
      | apply Dev.Keeps.step Dev.sendPmeToAck_keeps | apply Dev.Keeps.step Dev.setVit_keeps | apply Dev.Keeps.step Dev.tell_keeps
      | apply Dev.Keeps.ite | apply Dev.Keeps.foldl | (show (_ : Bool) = _; decide +kernel) | (show _ ∈ _; decide +kernel)
      | (show _ < _; decide +kernel) | split | dsimp only

theorem execLtrMessage_frame {fpid : Fin 4194304} {ep : Fin 128} {required : Bool} {ns : Nat} {s t : State} (h : execLtrMessage fpid ep
    required ns s = .next t) : s.Keeps [.PRT_LTR, .PWR_WAKE] [.arrived, .ctrs, .endpoints, .latched, .out, .vits] t := by
  refine onDev_frame ?_ h
  with_reducible repeat'
    first
      | intro x | assumption | apply Dev.Keeps.refl | apply Dev.Keeps.forEach | apply Dev.Keeps.step Dev.sendLtr_keeps
      | apply Dev.Keeps.step Dev.setBinding_keeps | apply Dev.Keeps.step Dev.setEndpoint_keeps
      | apply Dev.Keeps.step Dev.showLtr_keeps | apply Dev.Keeps.step Dev.tell_keeps | apply Dev.Keeps.ite | apply Dev.Keeps.foldl
      | (show (_ : Bool) = _; decide +kernel) | (show _ ∈ _; decide +kernel) | (show _ < _; decide +kernel) | split | dsimp only

theorem execLtrUpstreamSend_frame {port : Fin 512} {s t : State} (h : execLtrUpstreamSend port s = .next t) : s.Keeps [] [.ctrs, .out,
    .vits] t := by
  refine onDev_frame ?_ h
  with_reducible repeat'
    first
      | intro x | assumption | apply Dev.Keeps.refl | apply Dev.Keeps.step Dev.sendLtr_keeps | apply Dev.Keeps.ite
      | apply Dev.Keeps.foldl | (show (_ : Bool) = _; decide +kernel) | (show _ ∈ _; decide +kernel) | (show _ < _; decide +kernel)
      | split | dsimp only

theorem execMessageDiscarded_frame {port : Fin 512} {s t : State} (h : execMessageDiscarded port s = .next t) : s.Keeps recordRegs
    recordParts t := by
  refine onDev_frame ?_ h
  with_reducible repeat'
    first
      | intro x | assumption | apply Dev.Keeps.refl | apply Dev.Keeps.step Dev.record_keeps | apply Dev.Keeps.ite
      | apply Dev.Keeps.foldl | (show (_ : Bool) = _; decide +kernel) | (show _ ∈ _; decide +kernel) | (show _ < _; decide +kernel)
      | split | dsimp only

theorem execDpcTriggerStatusClear_frame {lvid : Fin 1024} {k : Fin 64} {s t : State} (h : execDpcTriggerStatusClear lvid k s = .next t)
    : s.Keeps [] [.arrived, .endpoints, .vports] t := by
  refine onDev_frame ?_ h
  with_reducible repeat'
    first
      | intro x | assumption | apply Dev.Keeps.refl | apply Dev.Keeps.step Dev.clearDpc_keeps | apply Dev.Keeps.ite
      | apply Dev.Keeps.foldl | (show (_ : Bool) = _; decide +kernel) | (show _ ∈ _; decide +kernel) | (show _ < _; decide +kernel)
      | split | dsimp only

theorem execAspmL1IdleTimer_frame {port : Fin 512} {enabled : Fin 8} {s t : State} (h : execAspmL1IdleTimer port enabled s = .next t) :
    s.Keeps [.PRT_PORT_STATUS] [.ctrs] t := by
  refine onDev_frame ?_ h
  with_reducible repeat'
    first
      | intro x | assumption | apply Dev.Keeps.refl | apply Dev.Keeps.step Dev.enterL1_keeps | apply Dev.Keeps.ite
      | apply Dev.Keeps.foldl | (show (_ : Bool) = _; decide +kernel) | (show _ ∈ _; decide +kernel) | (show _ < _; decide +kernel)
      | split | dsimp only

theorem execEndpointL1Request_frame {port : Fin 512} {enabled : Fin 8} {s t : State} (h : execEndpointL1Request port enabled s = .next
    t) : s.Keeps (.PRT_EVENTS :: .PRT_PORT_STATUS :: recordRegs) recordParts t := by
  refine onDev_frame ?_ h
  with_reducible repeat'
    first
      | intro x | assumption | apply Dev.Keeps.refl | apply Dev.Keeps.step Dev.count_keeps | apply Dev.Keeps.step Dev.emit_keeps
      | apply Dev.Keeps.step Dev.enterL1_keeps | apply Dev.Keeps.step (Dev.raise_keeps ?_) | apply Dev.Keeps.ite
      | apply Dev.Keeps.foldl | (show (_ : Bool) = _; decide +kernel) | (show _ ∈ _; decide +kernel) | (show _ < _; decide +kernel)
      | split | dsimp only

theorem execL0pEvaluation_frame {port : Fin 512} {util : Fin 1001} {supported : Bool} {s t : State} (h : execL0pEvaluation port util
    supported s = .next t) : s.Keeps [.PRT_PORT_STATUS] [.ctrs] t := by
  refine onDev_frame ?_ h
  with_reducible repeat'
    first
      | intro x | assumption | apply Dev.Keeps.refl | apply Dev.Keeps.put | apply Dev.Keeps.step Dev.count_keeps | apply Dev.Keeps.ite
      | apply Dev.Keeps.foldl | (show (_ : Bool) = _; decide +kernel) | (show _ ∈ _; decide +kernel) | (show _ < _; decide +kernel)
      | split | dsimp only

theorem execUnlock_frame {port : Fin 512} {gvh : Fin 8388608} {s t : State} (h : execUnlock port gvh s = .next t) : s.Keeps [.EBR_LOCK]
    [.lockSince, .lockSrc, .out, .outs, .queues, .vits] t := by
  refine onDev_frame ?_ h
  with_reducible repeat'
    first
      | intro x | assumption | apply Dev.Keeps.refl | apply Dev.Keeps.step Dev.takeUnlock_keeps | apply Dev.Keeps.ite
      | apply Dev.Keeps.foldl | (show (_ : Bool) = _; decide +kernel) | (show _ ∈ _; decide +kernel) | (show _ < _; decide +kernel)
      | split | dsimp only

theorem execLockTimerExpiry_frame {port : Fin 512} {s t : State} (h : execLockTimerExpiry port s = .next t) : s.Keeps (.EBR_EVENTS ::
    .EBR_LOCK :: recordRegs) (.lockSince :: .lockSrc :: .outs :: .queues :: recordParts) t := by
  refine onDev_frame ?_ h
  with_reducible repeat'
    first
      | intro x | assumption | apply Dev.Keeps.refl | apply Dev.Keeps.step Dev.count_keeps | apply Dev.Keeps.step Dev.emit_keeps
      | apply Dev.Keeps.step Dev.freeLock_keeps | apply Dev.Keeps.step (Dev.raise_keeps ?_) | apply Dev.Keeps.ite
      | apply Dev.Keeps.foldl | (show (_ : Bool) = _; decide +kernel) | (show _ ∈ _; decide +kernel) | (show _ < _; decide +kernel)
      | split | dsimp only

theorem execLockSideListMove_frame {queue : Fin 65536} {s t : State} (h : execLockSideListMove queue s = .next t) : s.Keeps [.WR_Q_DRR]
    [.ctrs, .outs, .queues] t := by
  refine onDev_frame ?_ h
  with_reducible repeat'
    first
      | intro x | assumption | apply Dev.Keeps.refl | apply Dev.Keeps.step Dev.sideMove_keeps | apply Dev.Keeps.ite
      | apply Dev.Keeps.foldl | (show (_ : Bool) = _; decide +kernel) | (show _ ∈ _; decide +kernel) | (show _ < _; decide +kernel)
      | split | dsimp only

theorem execCompletionReceived_frame {port : Fin 512} {body : Body} {s t : State} (h : execCompletionReceived port body s = .next t) :
    s.Keeps (.EBR_CRD_AVAIL :: .EBR_LOCK :: .SLC_INJ_ARMED :: .TEL_MODE :: recordRegs) (.arrived :: .heldCpls :: .heldTlps ::
    .injections :: .limited :: .lockSince :: .lockSrc :: .outs :: .queues :: .trk :: .vports :: .wins :: .withheld :: recordParts) t :=
    by
  refine onDev_frame ?_ h
  with_reducible repeat'
    first
      | intro x | assumption | apply Dev.Keeps.refl | apply Dev.Keeps.step Dev.receiveCompletion_keeps | apply Dev.Keeps.ite
      | apply Dev.Keeps.foldl | (show (_ : Bool) = _; decide +kernel) | (show _ ∈ _; decide +kernel) | (show _ < _; decide +kernel)
      | split | dsimp only

theorem execTrackerDeadline_frame {handle : Fin 262144} {s t : State} (h : execTrackerDeadline handle s = .next t) : s.Keeps
    (.EBR_CRD_AVAIL :: .EBR_PFLOG_HEAD :: .EBR_RAT_PFDISC_HI :: .EBR_RAT_PFDISC_LO :: .SLC_INJ_ARMED :: .TEL_MODE :: recordRegs)
    (.arrived :: .cores :: .heldTlps :: .injecting :: .injections :: .lates :: .outs :: .pfLog :: .pfSeq :: .tagHolds :: .trk :: .vports
    :: .winFetches :: .winReads :: .wins :: .withheld :: recordParts) t := by
  refine onDev_frame ?_ h
  with_reducible repeat'
    first
      | intro x | assumption | apply Dev.Keeps.refl | apply Dev.Keeps.step Dev.deadline_keeps | apply Dev.underInjection_keeps
      | apply Dev.Keeps.ite | apply Dev.Keeps.foldl | (show (_ : Bool) = _; decide +kernel) | (show _ ∈ _; decide +kernel)
      | (show _ < _; decide +kernel) | split | dsimp only

theorem execLateCompletion_frame {port : Fin 512} {source : Option (Fin 4194304)} {body : Body} {s t : State} (h : execLateCompletion
    port source body s = .next t) : s.Keeps (.EBR_CRD_AVAIL :: recordRegs) (.arrived :: .heldTlps :: .lates :: .limited :: .outs :: .trk
    :: .vports :: .wins :: .withheld :: recordParts) t := by
  refine onDev_frame ?_ h
  with_reducible repeat'
    first
      | intro x | assumption | apply Dev.Keeps.refl | apply Dev.Keeps.when | apply Dev.Keeps.step Dev.strayCompletion_keeps
      | apply Dev.Keeps.step Dev.strayFrame_keeps | apply Dev.Keeps.ite | apply Dev.Keeps.foldl
      | (show (_ : Bool) = _; decide +kernel) | (show _ ∈ _; decide +kernel) | (show _ < _; decide +kernel) | split | dsimp only

theorem execUnexpectedCompletion_frame {port : Fin 512} {source : Option (Fin 4194304)} {body : Body} {s t : State} (h :
    execUnexpectedCompletion port source body s = .next t) : s.Keeps recordRegs (.vports :: recordParts) t := by
  refine onDev_frame ?_ h
  with_reducible repeat'
    first
      | intro x | assumption | apply Dev.Keeps.refl | apply Dev.Keeps.when | apply Dev.Keeps.step Dev.recordUnexpected_keeps
      | apply Dev.Keeps.ite | apply Dev.Keeps.foldl | (show (_ : Bool) = _; decide +kernel) | (show _ ∈ _; decide +kernel)
      | (show _ < _; decide +kernel) | split | dsimp only

theorem execTagQuarantineExpiry_frame {port : Fin 512} {tag : Nat} {s t : State} (h : execTagQuarantineExpiry port tag s = .next t) :
    s.Keeps [.EBR_CRD_AVAIL] [.arrived, .ctrs, .heldTlps, .out, .outs, .tagHolds, .trk, .wins, .withheld] t := by
  refine onDev_frame ?_ h
  with_reducible repeat'
    first
      | intro x | assumption | apply Dev.Keeps.refl | apply Dev.Keeps.step Dev.retryHeld_keeps | apply Dev.Keeps.ite
      | apply Dev.Keeps.foldl | (show (_ : Bool) = _; decide +kernel) | (show _ ∈ _; decide +kernel) | (show _ < _; decide +kernel)
      | split | apply Dev.Keeps.set_tagHolds | dsimp only

theorem execLateRecordExpiry_frame {completer : Fin 4194304} {requester : Fin 65536} {tag : Nat} {s t : State} (h : execLateRecordExpiry
    completer requester tag s = .next t) : s.Keeps [.EBR_CRD_AVAIL] [.arrived, .ctrs, .heldTlps, .lates, .out, .outs, .trk, .wins,
    .withheld] t := by
  refine onDev_frame ?_ h
  with_reducible repeat'
    first
      | intro x | assumption | apply Dev.Keeps.refl | apply Dev.Keeps.step Dev.retryHeld_keeps | apply Dev.Keeps.ite
      | apply Dev.Keeps.foldl | (show (_ : Bool) = _; decide +kernel) | (show _ ∈ _; decide +kernel) | (show _ < _; decide +kernel)
      | split | apply Dev.Keeps.set_lates | dsimp only

theorem execDrsReceived_frame {port : Fin 512} {ep : Fin 128} {s t : State} (h : execDrsReceived port ep s = .next t) : s.Keeps []
    [.endpoints, .ports] t := by
  refine onDev_frame ?_ h
  with_reducible repeat'
    first
      | intro x | assumption | apply Dev.Keeps.refl | apply Dev.Keeps.step Dev.setEndpoint_keeps
      | apply Dev.Keeps.step Dev.setPortX_keeps | apply Dev.Keeps.ite | apply Dev.Keeps.foldl | (show (_ : Bool) = _; decide +kernel)
      | (show _ ∈ _; decide +kernel) | (show _ < _; decide +kernel) | split | dsimp only

theorem execDrsWaitExpiry_frame {port : Fin 512} {s t : State} (h : execDrsWaitExpiry port s = .next t) : s.Keeps [] [.endpoints,
    .ports] t := by
  refine onDev_frame ?_ h
  with_reducible repeat'
    first
      | intro x | assumption | apply Dev.Keeps.refl | apply Dev.Keeps.forEach | apply Dev.Keeps.step Dev.setEndpoint_keeps
      | apply Dev.Keeps.step Dev.setPortX_keeps | apply Dev.Keeps.ite | apply Dev.Keeps.foldl | (show (_ : Bool) = _; decide +kernel)
      | (show _ ∈ _; decide +kernel) | (show _ < _; decide +kernel) | split | dsimp only

theorem execRrsRetryLimit_frame {port : Fin 512} {ep : Fin 128} {s t : State} (h : execRrsRetryLimit port ep s = .next t) : s.Keeps
    (.ATT_CTL :: .ATT_EP_HI :: .ATT_EP_LO :: .ATT_FPID :: .ATT_HOST_HI :: .ATT_HOST_LO :: .BSN_Q_STATUS :: .DOC_CORE_STATUS ::
    .DOC_EVENTS :: .DOC_WSTORE_LOST :: .EBR_CRD_AVAIL :: .EBR_CRD_GRANT :: .EBR_EVENTS :: .EBR_LOCK :: .EBR_PFLOG_HEAD ::
    .EBR_RAT_PFDISC_HI :: .EBR_RAT_PFDISC_LO :: .FLL_LINK_STATUS :: .FLL_REPLAY :: .LNA_ALIGN :: .LNA_LANE_STATE :: .LNA_MRG_RESULT ::
    .LNA_TRAIN_REF :: .PIN_CTL :: .PIN_DST :: .PIN_OLD :: .PIN_SRC :: .PIN_TCUT_HI :: .PIN_TCUT_LO :: .PRT_PORT_STATUS :: .RTE_EVENTS ::
    .RTE_GRP_SLOT :: .SLC_CONT_ESEQ_HI :: .SLC_CONT_ESEQ_LO :: .SLC_CONT_STATE :: .TRK_CPL_RSV :: .TRK_FREE :: .TUN_CE_GEOM ::
    .TUN_CE_IRQ :: .TUN_CE_MODE :: .TUN_CE_SCANOUT :: .TUN_CE_STATUS :: .TUN_CE_STRIDE :: .VIT_STATE :: .WR_Q_DRR :: recordRegs)
    (.arrived :: .atts :: .cellsFree :: .cmds :: .cores :: .dwins :: .endpoints :: .engines :: .heldTlps :: .lanes :: .links ::
    .lockSince :: .lockSrc :: .notices :: .outs :: .pausedLinks :: .pfLog :: .pfSeq :: .pins :: .ports :: .queues :: .slots :: .trk ::
    .vports :: .winFetches :: .winReads :: .winStores :: .wins :: .withheld :: recordParts) t := by
  refine onDev_frame ?_ h
  with_reducible repeat'
    first
      | intro x | assumption | apply Dev.Keeps.refl | apply Dev.Keeps.step Dev.accessionFails_keeps | apply Dev.Keeps.ite
      | apply Dev.Keeps.foldl | (show (_ : Bool) = _; decide +kernel) | (show _ ∈ _; decide +kernel) | (show _ < _; decide +kernel)
      | split | dsimp only

theorem execPendingEndpointReset_frame {port : Fin 512} {s t : State} (h : execPendingEndpointReset port s = .next t) : s.Keeps
    [.TUN_CE_GEOM, .TUN_CE_IRQ, .TUN_CE_MODE, .TUN_CE_SCANOUT, .TUN_CE_STATUS, .TUN_CE_STRIDE] [.endpoints, .engines, .out] t := by
  refine onDev_frame ?_ h
  with_reducible repeat'
    first
      | intro x | assumption | apply Dev.Keeps.refl | apply Dev.Keeps.step Dev.applyPending_keeps | apply Dev.Keeps.ite
      | apply Dev.Keeps.foldl | (show (_ : Bool) = _; decide +kernel) | (show _ ∈ _; decide +kernel) | (show _ < _; decide +kernel)
      | split | dsimp only

theorem execHostPerstAsserted_frame {cage : Fin 64} {s t : State} (h : execHostPerstAsserted cage s = .next t) : s.Keeps (.ATT_CTL ::
    .ATT_EP_HI :: .ATT_EP_LO :: .ATT_FPID :: .ATT_HOST_HI :: .ATT_HOST_LO :: .BSN_Q_STATUS :: .EBR_LOCK :: .LNA_ALIGN :: .LNA_LANE_STATE
    :: .LNA_MRG_RESULT :: .LNA_RX_EQ :: .LNA_TRAIN_REF :: .LNA_TX_EQ :: .MBX_CH_STATUS :: .PRT_PORT_STATUS :: .SLC_CONT_STATE ::
    .TUN_CE_GEOM :: .TUN_CE_IRQ :: .TUN_CE_MODE :: .TUN_CE_SCANOUT :: .TUN_CE_STATUS :: .TUN_CE_STRIDE :: .VIT_STATE :: .VMF_BME ::
    .VMF_CAT_ADDR_HI :: .VMF_CAT_ADDR_LO :: .VMF_CAT_SIZE :: .VMF_CAT_WPTR :: .VMF_CPL_TMO :: .VMF_EVENT_MASK :: .VMF_SPC_ADDR_HI ::
    .VMF_SPC_ADDR_LO :: .VMF_SPC_SIZE :: .VMF_SPC_WPTR :: .WR_Q_DRR :: recordRegs) (.arrived :: .atts :: .cats :: .cellsFree :: .cfg ::
    .chans :: .cmds :: .dwins :: .endpoints :: .engines :: .eqReported :: .heldTlps :: .lanes :: .lockSince :: .lockSrc :: .outs ::
    .owesDetect :: .owesDrs :: .ports :: .queues :: .samples :: .spcs :: .trk :: .vmfs :: .vports :: recordParts) t := by
  refine onDev_frame ?_ h
  with_reducible repeat'
    first
      | intro x | assumption | apply Dev.Keeps.refl | apply Dev.Keeps.step Dev.emit_keeps
      | apply Dev.Keeps.step Dev.hotResetPort_keeps | apply Dev.Keeps.step Dev.retrainLink_keeps
      | apply Dev.Keeps.step Dev.setPortX_keeps | apply Dev.Keeps.ite | apply Dev.Keeps.foldl | (show (_ : Bool) = _; decide +kernel)
      | (show _ ∈ _; decide +kernel) | (show _ < _; decide +kernel) | split | dsimp only

theorem execHotResetReceived_frame {port : Fin 512} {s t : State} (h : execHotResetReceived port s = .next t) : s.Keeps (.ATT_CTL ::
    .ATT_EP_HI :: .ATT_EP_LO :: .ATT_FPID :: .ATT_HOST_HI :: .ATT_HOST_LO :: .BSN_Q_STATUS :: .EBR_LOCK :: .LNA_ALIGN :: .LNA_LANE_STATE
    :: .LNA_MRG_RESULT :: .LNA_RX_EQ :: .LNA_TRAIN_REF :: .LNA_TX_EQ :: .MBX_CH_STATUS :: .PRT_PORT_STATUS :: .SLC_CONT_STATE ::
    .TUN_CE_GEOM :: .TUN_CE_IRQ :: .TUN_CE_MODE :: .TUN_CE_SCANOUT :: .TUN_CE_STATUS :: .TUN_CE_STRIDE :: .VIT_STATE :: .VMF_BME ::
    .VMF_CAT_ADDR_HI :: .VMF_CAT_ADDR_LO :: .VMF_CAT_SIZE :: .VMF_CAT_WPTR :: .VMF_CPL_TMO :: .VMF_EVENT_MASK :: .VMF_SPC_ADDR_HI ::
    .VMF_SPC_ADDR_LO :: .VMF_SPC_SIZE :: .VMF_SPC_WPTR :: .WR_Q_DRR :: recordRegs) (.arrived :: .atts :: .cats :: .cellsFree :: .cfg ::
    .chans :: .cmds :: .dwins :: .endpoints :: .engines :: .eqReported :: .heldTlps :: .lanes :: .lockSince :: .lockSrc :: .outs ::
    .owesDetect :: .owesDrs :: .ports :: .queues :: .samples :: .spcs :: .trk :: .vmfs :: .vports :: recordParts) t := by
  refine onDev_frame ?_ h
  with_reducible repeat'
    first
      | intro x | assumption | apply Dev.Keeps.refl | apply Dev.Keeps.when | apply Dev.Keeps.step Dev.emit_keeps
      | apply Dev.Keeps.step Dev.hotResetPort_keeps | apply Dev.Keeps.step Dev.retrainLink_keeps | apply Dev.Keeps.ite
      | apply Dev.Keeps.foldl | (show (_ : Bool) = _; decide +kernel) | (show _ ∈ _; decide +kernel) | (show _ < _; decide +kernel)
      | split | dsimp only

theorem execUpstreamDlActiveLost_frame {port : Fin 512} {s t : State} (h : execUpstreamDlActiveLost port s = .next t) : s.Keeps
    (.ATT_CTL :: .ATT_EP_HI :: .ATT_EP_LO :: .ATT_FPID :: .ATT_HOST_HI :: .ATT_HOST_LO :: .BSN_Q_STATUS :: .EBR_LOCK :: .LNA_ALIGN ::
    .LNA_LANE_STATE :: .LNA_MRG_RESULT :: .LNA_RX_EQ :: .LNA_TRAIN_REF :: .LNA_TX_EQ :: .MBX_CH_STATUS :: .PRT_PORT_STATUS ::
    .SLC_CONT_STATE :: .TUN_CE_GEOM :: .TUN_CE_IRQ :: .TUN_CE_MODE :: .TUN_CE_SCANOUT :: .TUN_CE_STATUS :: .TUN_CE_STRIDE :: .VIT_STATE
    :: .VMF_BME :: .VMF_CAT_ADDR_HI :: .VMF_CAT_ADDR_LO :: .VMF_CAT_SIZE :: .VMF_CAT_WPTR :: .VMF_CPL_TMO :: .VMF_EVENT_MASK ::
    .VMF_SPC_ADDR_HI :: .VMF_SPC_ADDR_LO :: .VMF_SPC_SIZE :: .VMF_SPC_WPTR :: .WR_Q_DRR :: recordRegs) (.arrived :: .atts :: .cats ::
    .cellsFree :: .cfg :: .chans :: .cmds :: .dwins :: .endpoints :: .engines :: .eqReported :: .heldTlps :: .lanes :: .lockSince ::
    .lockSrc :: .outs :: .owesDetect :: .owesDrs :: .ports :: .queues :: .samples :: .spcs :: .trk :: .vmfs :: .vports :: recordParts) t
    := by
  refine onDev_frame ?_ h
  with_reducible repeat'
    first
      | intro x | assumption | apply Dev.Keeps.refl | apply Dev.Keeps.when | apply Dev.Keeps.step Dev.hotResetPort_keeps
      | apply Dev.Keeps.step Dev.retrainLink_keeps | apply Dev.Keeps.ite | apply Dev.Keeps.foldl
      | (show (_ : Bool) = _; decide +kernel) | (show _ ∈ _; decide +kernel) | (show _ < _; decide +kernel) | split | dsimp only

theorem execUpstreamDlActive_frame {port : Fin 512} {s t : State} (h : execUpstreamDlActive port s = .next t) : s.Keeps (.LNA_ALIGN ::
    .LNA_LANE_STATE :: .LNA_MRG_RESULT :: .LNA_RX_EQ :: .LNA_TRAIN_REF :: .LNA_TX_EQ :: .PRT_PORT_STATUS :: .VIT_STATE :: recordRegs)
    (.cmds :: .eqReported :: .lanes :: .owesDetect :: .owesDrs :: .ports :: recordParts) t := by
  refine onDev_frame ?_ h
  with_reducible repeat'
    first
      | intro x | assumption | apply Dev.Keeps.refl | apply Dev.Keeps.when | apply Dev.Keeps.put | apply Dev.Keeps.step Dev.emit_keeps
      | apply Dev.Keeps.step Dev.present_keeps | apply Dev.Keeps.ite | apply Dev.Keeps.foldl | (show (_ : Bool) = _; decide +kernel)
      | (show _ ∈ _; decide +kernel) | (show _ < _; decide +kernel) | split | apply Dev.Keeps.set_owesDrs | dsimp only

theorem execRrsExpired_frame {port : Fin 512} {s t : State} (h : execRrsExpired port s = .next t) : s.Keeps (.PRT_EVENTS :: recordRegs)
    (.owesDetect :: recordParts) t := by
  refine onDev_frame ?_ h
  with_reducible repeat'
    first
      | intro x | assumption | apply Dev.Keeps.refl | apply Dev.Keeps.step (Dev.raise_keeps ?_) | apply Dev.Keeps.ite
      | apply Dev.Keeps.foldl | (show (_ : Bool) = _; decide +kernel) | (show _ ∈ _; decide +kernel) | (show _ < _; decide +kernel)
      | split | apply Dev.Keeps.set_owesDetect | dsimp only

theorem execSurpriseRemoval_frame {port : Fin 512} {presence : Bool} {s t : State} (h : execSurpriseRemoval port presence s = .next t) :
    s.Keeps (.BSN_Q_STATUS :: .DOC_CORE_STATUS :: .DOC_EVENTS :: .DOC_WSTORE_LOST :: .EBR_CRD_AVAIL :: .EBR_EVENTS :: .EBR_LOCK ::
    .EBR_PFLOG_HEAD :: .EBR_RAT_PFDISC_HI :: .EBR_RAT_PFDISC_LO :: .EBR_SIDEBAND :: .FLL_LINK_STATUS :: .FLL_REPLAY :: .LNA_ALIGN ::
    .LNA_LANE_STATE :: .LNA_MRG_RESULT :: .LNA_TRAIN_REF :: .PIN_CTL :: .PIN_OLD :: .PRT_EVENTS :: .PRT_PORT_STATUS :: .RTE_EVENTS ::
    .RTE_GRP_SLOT :: .SLC_CONT_ESEQ_HI :: .SLC_CONT_ESEQ_LO :: .SLC_CONT_STATE :: .VIT_STATE :: .WR_Q_DRR :: recordRegs) (.arrived ::
    .cellsFree :: .cmds :: .cores :: .dwins :: .endpoints :: .heldTlps :: .lanes :: .links :: .lockSince :: .lockSrc :: .notices ::
    .outs :: .pausedLinks :: .pfLog :: .pfSeq :: .pins :: .ports :: .queues :: .sbSeq :: .trk :: .vports :: .winFetches :: .winReads ::
    .winStores :: .wins :: .withheld :: recordParts) t := by
  refine onDev_frame ?_ h
  with_reducible repeat'
    first
      | intro x | assumption | apply Dev.Keeps.refl | apply Dev.Keeps.put | apply Dev.Keeps.when | apply Dev.Keeps.forEach
      | apply Dev.Keeps.step Dev.noteWake_keeps | apply Dev.Keeps.step Dev.surprise_keeps | apply Dev.Keeps.ite
      | apply Dev.Keeps.foldl | (show (_ : Bool) = _; decide +kernel) | (show _ ∈ _; decide +kernel) | (show _ < _; decide +kernel)
      | split | dsimp only

theorem execPresenceDebounced_frame {cage : Fin 64} {s t : State} (h : execPresenceDebounced cage s = .next t) : s.Keeps (.BSN_Q_STATUS
    :: .DOC_CORE_STATUS :: .DOC_EVENTS :: .DOC_WSTORE_LOST :: .EBR_EVENTS :: .EBR_LOCK :: .EBR_PFLOG_HEAD :: .EBR_RAT_PFDISC_HI ::
    .EBR_RAT_PFDISC_LO :: .EBR_SIDEBAND :: .LNA_ALIGN :: .LNA_LANE_STATE :: .LNA_MRG_RESULT :: .LNA_TRAIN_REF :: .PRT_EVENTS ::
    .PRT_PORT_STATUS :: .SLC_CONT_STATE :: .WR_Q_DRR :: recordRegs) (.arrived :: .cellsFree :: .cmds :: .cores :: .dwins :: .endpoints
    :: .lanes :: .lockSince :: .lockSrc :: .notices :: .outs :: .pfLog :: .pfSeq :: .ports :: .queues :: .trk :: .vports :: .winFetches
    :: .winReads :: .winStores :: recordParts) t := by
  refine onDev_frame ?_ h
  with_reducible repeat'
    first
      | intro x | assumption | apply Dev.Keeps.refl | apply Dev.Keeps.put | apply Dev.Keeps.forEach | apply Dev.Keeps.when
      | apply Dev.Keeps.step Dev.count_keeps | apply Dev.Keeps.step Dev.emit_keeps | apply Dev.Keeps.step Dev.insertion_keeps
      | apply Dev.Keeps.step Dev.noteWake_keeps | apply Dev.Keeps.step (Dev.raise_keeps ?_) | apply Dev.Keeps.ite
      | apply Dev.Keeps.foldl | (show (_ : Bool) = _; decide +kernel) | (show _ ∈ _; decide +kernel) | (show _ < _; decide +kernel)
      | split | dsimp only

theorem execAttentionButton_frame {button : ButtonEvent} {s t : State} (h : execAttentionButton button s = .next t) : s.Keeps
    (.EBR_SIDEBAND :: recordRegs) (.arrived :: .sbSeq :: .vports :: recordParts) t := by
  refine onDev_frame ?_ h
  with_reducible repeat'
    first
      | intro x | assumption | apply Dev.Keeps.refl | apply Dev.Keeps.forEach | apply Dev.Keeps.mark
      | apply Dev.Keeps.step Dev.recordUncoded_keeps | apply Dev.Keeps.step Dev.sideband_keeps | apply Dev.Keeps.ite
      | apply Dev.Keeps.foldl | (show (_ : Bool) = _; decide +kernel) | (show _ ∈ _; decide +kernel) | (show _ < _; decide +kernel)
      | split | dsimp only

theorem execSidebandFrame_frame {source : Fin 4194304} {kind : Fin 256} {state value : Byte} {tag : SidebandTag} {s t : State} (h :
    execSidebandFrame source kind state value tag s = .next t) : s.Keeps [] [.ctrs, .out, .sbSeen, .vits, .vports] t := by
  refine onDev_frame ?_ h
  with_reducible repeat'
    first
      | intro x | assumption | apply Dev.Keeps.refl | apply Dev.Keeps.when | apply Dev.Keeps.step Dev.sidebandEffect_keeps
      | apply Dev.Keeps.ite | apply Dev.Keeps.foldl | (show (_ : Bool) = _; decide +kernel) | (show _ ∈ _; decide +kernel)
      | (show _ < _; decide +kernel) | split | apply Dev.Keeps.set_sbSeen | dsimp only

theorem execBarWrite_frame {lvid : Fin 1024} {k : Fin 64} {bar : Fin 6} {upper wide : Bool} {value : Word} {s t : State} (h :
    execBarWrite lvid k bar upper wide value s = .next t) : s.Keeps [.ATT_CTL, .ATT_EP_HI, .ATT_EP_LO, .ATT_FPID, .ATT_HOST_HI,
    .ATT_HOST_LO] [.atts, .vits] t := by
  refine onDev_frame ?_ h
  with_reducible repeat'
    first
      | intro x | assumption | apply Dev.Keeps.refl | apply Dev.Keeps.step Dev.writeBar_keeps | apply Dev.Keeps.ite
      | apply Dev.Keeps.foldl | (show (_ : Bool) = _; decide +kernel) | (show _ ∈ _; decide +kernel) | (show _ < _; decide +kernel)
      | split | dsimp only

theorem execSecondaryBusReset_frame {lvid : Fin 1024} {k : Fin 64} {disable : Option Bool} {s t : State} (h : execSecondaryBusReset lvid
    k disable s = .next t) : s.Keeps (.LNA_ALIGN :: .LNA_LANE_STATE :: .LNA_MRG_RESULT :: .LNA_RX_EQ :: .LNA_TRAIN_REF :: .LNA_TX_EQ ::
    .PRT_PORT_STATUS :: .TUN_CE_GEOM :: .TUN_CE_IRQ :: .TUN_CE_MODE :: .TUN_CE_SCANOUT :: .TUN_CE_STATUS :: .TUN_CE_STRIDE ::
    recordRegs) (.arrived :: .cmds :: .endpoints :: .engines :: .eqReported :: .lanes :: .ports :: .vports :: recordParts) t := by
  refine onDev_frame ?_ h
  with_reducible repeat'
    first
      | intro x | assumption | apply Dev.Keeps.refl | apply Dev.Keeps.step Dev.linkDisable_keeps
      | apply Dev.Keeps.step Dev.linkEnable_keeps | apply Dev.Keeps.step Dev.resetBinding_keeps
      | apply Dev.Keeps.step Dev.setVport_keeps | apply Dev.Keeps.ite | apply Dev.Keeps.foldl | (show (_ : Bool) = _; decide +kernel)
      | (show _ ∈ _; decide +kernel) | (show _ < _; decide +kernel) | split | dsimp only

theorem execHostPerstRelease_frame {cage : Fin 64} {s t : State} (h : execHostPerstRelease cage s = .next t) : s.Keeps [] [.out, .ports]
    t := by
  refine onDev_frame ?_ h
  with_reducible repeat'
    first
      | intro x | assumption | apply Dev.Keeps.refl | apply Dev.Keeps.forEach | apply Dev.Keeps.step Dev.emit_keeps
      | apply Dev.Keeps.step Dev.setPortX_keeps | apply Dev.Keeps.ite | apply Dev.Keeps.foldl | (show (_ : Bool) = _; decide +kernel)
      | (show _ ∈ _; decide +kernel) | (show _ < _; decide +kernel) | split | dsimp only

theorem execDevicePerstRelease_frame {cage : Fin 64} {s t : State} (h : execDevicePerstRelease cage s = .next t) : s.Keeps []
    [.endpoints, .out, .perstReleased, .ports] t := by
  refine onDev_frame ?_ h
  with_reducible repeat'
    first
      | intro x | assumption | apply Dev.Keeps.refl | apply Dev.Keeps.step Dev.releasePerst_keeps | apply Dev.Keeps.ite
      | apply Dev.Keeps.foldl | (show (_ : Bool) = _; decide +kernel) | (show _ ∈ _; decide +kernel) | (show _ < _; decide +kernel)
      | split | dsimp only

theorem execCommandForward_frame {h : CmdHdr} {source : Fin 8192} {x : Descriptor} {s t : State} (h : execCommandForward h source x s =
    .next t) : s.Keeps [] [.cmds] t := by
  refine onDev_frame ?_ h
  with_reducible repeat'
    first
      | intro x | assumption | apply Dev.Keeps.refl | apply Dev.Keeps.when | apply Dev.Keeps.step Dev.finish_keeps
      | apply Dev.Keeps.step Dev.setCmd_keeps | apply Dev.Keeps.ite | apply Dev.Keeps.foldl | (show (_ : Bool) = _; decide +kernel)
      | (show _ ∈ _; decide +kernel) | (show _ < _; decide +kernel) | split | dsimp only

theorem execRemoteProgress_frame {h : CmdHdr} {source : Option (Fin 8192)} {s t : State} (h : execRemoteProgress h source s = .next t) :
    s.Keeps [] [.arrived, .cmds] t := by
  refine onDev_frame ?_ h
  with_reducible repeat'
    first
      | intro x | assumption | apply Dev.Keeps.refl | apply Dev.Keeps.step Dev.setCmd_keeps | apply Dev.Keeps.step Dev.tell_keeps
      | apply Dev.Keeps.ite | apply Dev.Keeps.foldl | (show (_ : Bool) = _; decide +kernel) | (show _ ∈ _; decide +kernel)
      | (show _ < _; decide +kernel) | split | dsimp only

theorem execRemoteTimeout_frame {h : CmdHdr} {s t : State} (h : execRemoteTimeout h s = .next t) : s.Keeps [] [.cmds] t := by
  refine onDev_frame ?_ h
  with_reducible repeat'
    first
      | intro x | assumption | apply Dev.Keeps.refl | apply Dev.Keeps.step Dev.finish_keeps | apply Dev.Keeps.ite
      | apply Dev.Keeps.foldl | (show (_ : Bool) = _; decide +kernel) | (show _ ∈ _; decide +kernel) | (show _ < _; decide +kernel)
      | split | dsimp only

theorem execObjectWaitTimeout_frame {h : CmdHdr} {s t : State} (h : execObjectWaitTimeout h s = .next t) : s.Keeps [] [.cmds] t := by
  refine onDev_frame ?_ h
  with_reducible repeat'
    first
      | intro x | assumption | apply Dev.Keeps.refl | apply Dev.Keeps.step Dev.finish_keeps | apply Dev.Keeps.ite
      | apply Dev.Keeps.foldl | (show (_ : Bool) = _; decide +kernel) | (show _ ∈ _; decide +kernel) | (show _ < _; decide +kernel)
      | split | dsimp only

theorem execUsb4Attach_frame {port : Fin 16} {partner : Usb4Partner} {trained : Fin 5} {asym : Bool} {s t : State} (h : execUsb4Attach
    port partner trained asym s = .next t) : s.Keeps (.TUN_PORT_ALLOT :: .TUN_PORT_EVENTS :: .TUN_PORT_STATUS :: recordRegs) (.fronts ::
    recordParts) t := by
  refine onDev_frame ?_ h
  with_reducible repeat'
    first
      | intro x | assumption | apply Dev.Keeps.refl | apply Dev.Keeps.mark | apply Dev.Keeps.put | apply Dev.Keeps.when
      | apply Dev.Keeps.step Dev.count_keeps | apply Dev.Keeps.step (Dev.raise_keeps ?_) | apply Dev.Keeps.step Dev.setFront_keeps
      | apply Dev.Keeps.step Dev.setPool_keeps | apply Dev.Keeps.ite | apply Dev.Keeps.foldl | (show (_ : Bool) = _; decide +kernel)
      | (show _ ∈ _; decide +kernel) | (show _ < _; decide +kernel) | split | dsimp only

theorem execUsb4LinkLoss_frame {port : Fin 16} {s t : State} (h : execUsb4LinkLoss port s = .next t) : s.Keeps (.BSN_Q_STATUS ::
    .DOC_CORE_STATUS :: .DOC_EVENTS :: .DOC_WSTORE_LOST :: .EBR_CRD_AVAIL :: .EBR_EVENTS :: .EBR_LOCK :: .EBR_PFLOG_HEAD ::
    .EBR_RAT_PFDISC_HI :: .EBR_RAT_PFDISC_LO :: .FLL_LINK_STATUS :: .FLL_REPLAY :: .LNA_ALIGN :: .LNA_LANE_STATE :: .LNA_MRG_RESULT ::
    .LNA_TRAIN_REF :: .PIN_CTL :: .PIN_OLD :: .PRT_PORT_STATUS :: .RTE_EVENTS :: .RTE_GRP_SLOT :: .SLC_CONT_ESEQ_HI :: .SLC_CONT_ESEQ_LO
    :: .SLC_CONT_STATE :: .TUN_CE_DEST :: .TUN_CE_IRQ :: .TUN_CE_STATUS :: .TUN_PORT_ALLOT :: .TUN_PORT_STATUS :: .VIT_STATE ::
    .WR_Q_DRR :: recordRegs) (.arrived :: .cellsFree :: .cmds :: .cores :: .dwins :: .endpoints :: .engines :: .fronts :: .heldTlps ::
    .lanes :: .links :: .lockSince :: .lockSrc :: .notices :: .outs :: .pausedLinks :: .pfLog :: .pfSeq :: .pins :: .ports :: .queues ::
    .sbSeq :: .trk :: .vports :: .winFetches :: .winReads :: .winStores :: .wins :: .withheld :: recordParts) t := by
  refine onDev_frame ?_ h
  with_reducible repeat'
    first
      | intro x | assumption | apply Dev.Keeps.refl | apply Dev.Keeps.step Dev.usb4Lost_keeps | apply Dev.Keeps.ite
      | apply Dev.Keeps.foldl | (show (_ : Bool) = _; decide +kernel) | (show _ ∈ _; decide +kernel) | (show _ < _; decide +kernel)
      | split | dsimp only

theorem execDpBandwidthRequest_frame {port : Fin 16} {tunnel : Fin 2} {ask : DpAsk} {s t : State} (h : execDpBandwidthRequest port
    tunnel ask s = .next t) : s.Keeps (.TUN_CE_DEST :: .TUN_CE_IRQ :: .TUN_CE_STATUS :: .TUN_PORT_ALLOT :: .TUN_PORT_EVENTS ::
    .TUN_PORT_STATUS :: recordRegs) (.arrived :: .engines :: recordParts) t := by
  refine onDev_frame ?_ h
  with_reducible repeat'
    first
      | intro x | assumption | apply Dev.Keeps.refl | apply Dev.Keeps.step Dev.dpRequest_keeps
      | apply Dev.Keeps.step Dev.farAnswer_keeps | apply Dev.Keeps.ite | apply Dev.Keeps.foldl | (show (_ : Bool) = _; decide +kernel)
      | (show _ ∈ _; decide +kernel) | (show _ < _; decide +kernel) | split | dsimp only

theorem execUsb4PoolShrink_frame {port : Fin 16} {link : Fin 5} {s t : State} (h : execUsb4PoolShrink port link s = .next t) : s.Keeps
    (.TUN_CE_DEST :: .TUN_CE_IRQ :: .TUN_CE_STATUS :: .TUN_PORT_ALLOT :: .TUN_PORT_EVENTS :: .TUN_PORT_STATUS :: recordRegs) (.arrived
    :: .engines :: recordParts) t := by
  refine onDev_frame ?_ h
  with_reducible repeat'
    first
      | intro x | assumption | apply Dev.Keeps.refl | apply Dev.Keeps.put | apply Dev.Keeps.when
      | apply Dev.Keeps.step Dev.askAgain_keeps | apply Dev.Keeps.step Dev.fitGrants_keeps | apply Dev.Keeps.step Dev.setPool_keeps
      | apply Dev.Keeps.ite | apply Dev.Keeps.foldl | (show (_ : Bool) = _; decide +kernel) | (show _ ∈ _; decide +kernel)
      | (show _ < _; decide +kernel) | split | dsimp only

theorem execSymmetryEvaluation_frame {port : Fin 16} {to100 from100 to1s from1s : Nat} {s t : State} (h : execSymmetryEvaluation port
    to100 from100 to1s from1s s = .next t) : s.Keeps (.TUN_CE_DEST :: .TUN_CE_IRQ :: .TUN_CE_STATUS :: .TUN_PORT_ALLOT ::
    .TUN_PORT_EVENTS :: .TUN_PORT_STATUS :: recordRegs) (.arrived :: .engines :: .fronts :: recordParts) t := by
  refine onDev_frame ?_ h
  with_reducible repeat'
    first
      | intro x | assumption | apply Dev.Keeps.refl | apply Dev.Keeps.put | apply Dev.Keeps.step Dev.askAgain_keeps
      | apply Dev.Keeps.step Dev.count_keeps | apply Dev.Keeps.step Dev.emit_keeps | apply Dev.Keeps.step Dev.fitGrants_keeps
      | apply Dev.Keeps.step (Dev.raise_keeps ?_) | apply Dev.Keeps.step Dev.setFront_keeps | apply Dev.Keeps.step Dev.setPool_keeps
      | apply Dev.Keeps.ite | apply Dev.Keeps.foldl | (show (_ : Bool) = _; decide +kernel) | (show _ ∈ _; decide +kernel)
      | (show _ < _; decide +kernel) | split | dsimp only

theorem execPcieTunnelEstablish_frame {port : Fin 16} {found : List Found} {deep : Bool} {s t : State} (h : execPcieTunnelEstablish port
    found deep s = .next t) : s.Keeps (.BSN_Q_STATUS :: .DOC_CORE_STATUS :: .DOC_EVENTS :: .DOC_WSTORE_LOST :: .EBR_EVENTS :: .EBR_LOCK
    :: .EBR_PFLOG_HEAD :: .EBR_RAT_PFDISC_HI :: .EBR_RAT_PFDISC_LO :: .LNA_ALIGN :: .LNA_LANE_STATE :: .LNA_MRG_RESULT :: .LNA_TRAIN_REF
    :: .PRT_PORT_STATUS :: .SLC_CONT_STATE :: .TUN_PORT_EVENTS :: .TUN_PORT_STATUS :: .WR_Q_DRR :: recordRegs) (.arrived :: .cellsFree
    :: .cmds :: .cores :: .dwins :: .endpoints :: .lanes :: .lockSince :: .lockSrc :: .notices :: .outs :: .pfLog :: .pfSeq :: .ports ::
    .queues :: .trk :: .vports :: .winFetches :: .winReads :: .winStores :: recordParts) t := by
  refine onDev_frame ?_ h
  with_reducible repeat'
    first
      | intro x | assumption | apply Dev.Keeps.refl | apply Dev.Keeps.put | apply Dev.Keeps.when
      | apply Dev.Keeps.step Dev.enumerateTunnel_keeps | apply Dev.Keeps.step Dev.insertion_keeps
      | apply Dev.Keeps.step (Dev.raise_keeps ?_) | apply Dev.Keeps.ite | apply Dev.Keeps.foldl
      | (show (_ : Bool) = _; decide +kernel) | (show _ ∈ _; decide +kernel) | (show _ < _; decide +kernel) | split
      | refine Dev.Keeps.pair Dev.enumerateTunnel_keeps (by assumption) ?_ ?_ ?_ | dsimp only

theorem execTunCeModeWrite_frame {engine : Fin 64} {value : Word} {s t : State} (h : execTunCeModeWrite engine value s = .next t) :
    s.Keeps [.TUN_CE_DEST, .TUN_CE_IRQ, .TUN_CE_MODE, .TUN_CE_STATUS, .TUN_PORT_STATUS] [.arrived, .engines, .out] t := by
  refine onDev_frame ?_ h
  with_reducible repeat'
    first
      | intro x | assumption | apply Dev.Keeps.refl | apply Dev.Keeps.step Dev.writeCeMode_keeps | apply Dev.Keeps.ite
      | apply Dev.Keeps.foldl | (show (_ : Bool) = _; decide +kernel) | (show _ ∈ _; decide +kernel) | (show _ < _; decide +kernel)
      | split | dsimp only

theorem execTunCeScanoutWrite_frame {engine : Fin 64} {value : Word} {s t : State} (h : execTunCeScanoutWrite engine value s = .next t)
    : s.Keeps [.TUN_CE_SCANOUT] [.engines] t := by
  refine onDev_frame ?_ h
  with_reducible repeat'
    first
      | intro x | assumption | apply Dev.Keeps.refl | apply Dev.Keeps.step Dev.writeCeScanout_keeps | apply Dev.Keeps.ite
      | apply Dev.Keeps.foldl | (show (_ : Bool) = _; decide +kernel) | (show _ ∈ _; decide +kernel) | (show _ < _; decide +kernel)
      | split | dsimp only

theorem execVerticalBlanking_frame {engine : Fin 64} {s t : State} (h : execVerticalBlanking engine s = .next t) : s.Keeps
    [.TUN_CE_DEST, .TUN_CE_IRQ, .TUN_CE_SCANOUT, .TUN_CE_STATUS, .TUN_PORT_STATUS] [.arrived, .engines, .out] t := by
  refine onDev_frame ?_ h
  with_reducible repeat'
    first
      | intro x | assumption | apply Dev.Keeps.refl | apply Dev.Keeps.put | apply Dev.Keeps.step Dev.changeMode_keeps
      | apply Dev.Keeps.step Dev.engineIrq_keeps | apply Dev.Keeps.step Dev.flip_keeps | apply Dev.Keeps.ite | apply Dev.Keeps.foldl
      | (show (_ : Bool) = _; decide +kernel) | (show _ ∈ _; decide +kernel) | (show _ < _; decide +kernel) | split | dsimp only

theorem execConsoleEngineFlr_frame {engine : Fin 64} {s t : State} (h : execConsoleEngineFlr engine s = .next t) : s.Keeps
    [.TUN_CE_DEST, .TUN_CE_GEOM, .TUN_CE_IRQ, .TUN_CE_MODE, .TUN_CE_SCANOUT, .TUN_CE_STATUS, .TUN_CE_STRIDE, .TUN_PORT_STATUS]
    [.arrived, .engines, .out] t := by
  refine onDev_frame ?_ h
  with_reducible repeat'
    first
      | intro x | assumption | apply Dev.Keeps.refl | apply Dev.Keeps.step Dev.endStream_keeps
      | apply Dev.Keeps.step Dev.resetEngine_keeps | apply Dev.Keeps.step Dev.setEngine_keeps | apply Dev.Keeps.ite
      | apply Dev.Keeps.foldl | (show (_ : Bool) = _; decide +kernel) | (show _ ∈ _; decide +kernel) | (show _ < _; decide +kernel)
      | split | dsimp only

theorem execStreamBudgetFreed_frame {s t : State} (h : execStreamBudgetFreed s = .next t) : s.Keeps [.TUN_CE_DEST, .TUN_CE_IRQ,
    .TUN_CE_STATUS, .TUN_PORT_STATUS] [.arrived, .engines, .out] t := by
  refine onDev_frame ?_ h
  with_reducible repeat'
    first
      | intro x | assumption | apply Dev.Keeps.refl | apply Dev.Keeps.step Dev.budgetFreed_keeps | apply Dev.Keeps.ite
      | apply Dev.Keeps.foldl | (show (_ : Bool) = _; decide +kernel) | (show _ ∈ _; decide +kernel) | (show _ < _; decide +kernel)
      | split | dsimp only

theorem execDpSinkReappears_frame {port : Fin 16} {tunnel : Fin 2} {sink : DpSink} {s t : State} (h : execDpSinkReappears port tunnel
    sink s = .next t) : s.Keeps [.TUN_CE_DEST, .TUN_CE_IRQ, .TUN_CE_STATUS, .TUN_PORT_STATUS] [.arrived, .engines, .fronts, .out] t :=
    by
  refine onDev_frame ?_ h
  with_reducible repeat'
    first
      | intro x | assumption | apply Dev.Keeps.refl | apply Dev.Keeps.when | apply Dev.Keeps.step Dev.setEngine_keeps
      | apply Dev.Keeps.step Dev.setFront_keeps | apply Dev.Keeps.step Dev.tell_keeps | apply Dev.Keeps.step Dev.tryStream_keeps
      | apply Dev.Keeps.ite | apply Dev.Keeps.foldl | (show (_ : Bool) = _; decide +kernel) | (show _ ∈ _; decide +kernel)
      | (show _ < _; decide +kernel) | split | dsimp only

theorem execConsoleFrame_frame {source : Fin 8192} {frame : ConsoleFrame} {s t : State} (h : execConsoleFrame source frame s = .next t)
    : s.Keeps (.RTE_EVENTS :: recordRegs) (.inStreams :: .limited :: recordParts) t := by
  refine onDev_frame ?_ h
  with_reducible repeat'
    first
      | intro x | assumption | apply Dev.Keeps.refl | apply Dev.Keeps.step Dev.count_keeps
      | apply Dev.Keeps.step Dev.placeSegment_keeps | apply Dev.Keeps.step (Dev.raiseLimited_keeps ?_) | apply Dev.Keeps.ite
      | apply Dev.Keeps.foldl | (show (_ : Bool) = _; decide +kernel) | (show _ ∈ _; decide +kernel) | (show _ < _; decide +kernel)
      | split | dsimp only

theorem execConsoleSegments_frame {s t : State} (h : execConsoleSegments s = .next t) : s.Keeps recordRegs (.inStreams :: recordParts) t
    := by
  refine onDev_frame ?_ h
  with_reducible repeat'
    first
      | intro x | assumption | apply Dev.Keeps.refl | apply Dev.Keeps.forEach | apply Dev.Keeps.step Dev.record_keeps
      | apply Dev.Keeps.ite | apply Dev.Keeps.foldl | (show (_ : Bool) = _; decide +kernel) | (show _ ∈ _; decide +kernel)
      | (show _ < _; decide +kernel) | split | apply Dev.Keeps.set_inStreams | dsimp only

theorem execConsoleAttach_frame {h : CmdHdr} {engine : Byte} {dest : Fin 65536} {port tunnel : Byte} {far : Nat} {s t : State} (h :
    execConsoleAttach h engine dest port tunnel far s = .next t) : s.Keeps [.TUN_CE_DEST, .TUN_CE_IRQ, .TUN_CE_STATUS, .TUN_PORT_ALLOT,
    .TUN_PORT_STATUS] [.arrived, .cmds, .engines, .fronts, .out] t := by
  refine onDev_frame ?_ h
  with_reducible repeat'
    first
      | intro x | assumption | apply Dev.Keeps.refl | apply Dev.Keeps.step Dev.attach_keeps
      | apply Dev.Keeps.step Dev.attachHere_keeps | apply Dev.Keeps.step Dev.badParam_keeps | apply Dev.command_keeps
      | apply Dev.Keeps.step Dev.finish_keeps | apply Dev.Keeps.ite | apply Dev.Keeps.foldl | (show (_ : Bool) = _; decide +kernel)
      | (show _ ∈ _; decide +kernel) | (show _ < _; decide +kernel) | split | dsimp only

theorem execConsoleDetach_frame {h : CmdHdr} {engine : Byte} {s t : State} (h : execConsoleDetach h engine s = .next t) : s.Keeps
    [.TUN_CE_DEST, .TUN_CE_IRQ, .TUN_CE_STATUS, .TUN_PORT_ALLOT, .TUN_PORT_STATUS] [.arrived, .cmds, .engines, .fronts, .inStreams,
    .out] t := by
  refine onDev_frame ?_ h
  with_reducible repeat'
    first
      | intro x | assumption | apply Dev.Keeps.refl | apply Dev.Keeps.step Dev.badParam_keeps | apply Dev.command_keeps
      | apply Dev.Keeps.step Dev.detach_keeps | apply Dev.Keeps.step Dev.detachHere_keeps | apply Dev.Keeps.step Dev.finish_keeps
      | apply Dev.Keeps.ite | apply Dev.Keeps.foldl | (show (_ : Bool) = _; decide +kernel) | (show _ ∈ _; decide +kernel)
      | (show _ < _; decide +kernel) | split | dsimp only

theorem execTunnelConfig_frame {h : CmdHdr} {port : Byte} {value : Word} {s t : State} (h : execTunnelConfig h port value s = .next t) :
    s.Keeps (.TUN_CE_DEST :: .TUN_CE_IRQ :: .TUN_CE_STATUS :: .TUN_PORT_ALLOT :: .TUN_PORT_CFG :: .TUN_PORT_EVENTS :: .TUN_PORT_STATUS
    :: recordRegs) (.arrived :: .cmds :: .engines :: recordParts) t := by
  refine onDev_frame ?_ h
  with_reducible repeat'
    first
      | intro x | assumption | apply Dev.Keeps.refl | apply Dev.Keeps.step Dev.badParam_keeps | apply Dev.Keeps.step Dev.finish_keeps
      | apply Dev.moduleCommand_keeps | apply Dev.Keeps.step Dev.writeTunCfg_keeps | apply Dev.Keeps.ite | apply Dev.Keeps.foldl
      | (show (_ : Bool) = _; decide +kernel) | (show _ ∈ _; decide +kernel) | (show _ < _; decide +kernel) | split | dsimp only

theorem execServiceOwner_frame {h : CmdHdr} {port pin : Byte} {s t : State} (h : execServiceOwner h port pin s = .next t) : s.Keeps
    (.BSN_Q_STATUS :: .DOC_CORE_STATUS :: .DOC_EVENTS :: .DOC_WSTORE_LOST :: .EBR_CRD_AVAIL :: .EBR_EVENTS :: .EBR_LOCK ::
    .EBR_PFLOG_HEAD :: .EBR_RAT_PFDISC_HI :: .EBR_RAT_PFDISC_LO :: .FLL_LINK_STATUS :: .FLL_REPLAY :: .LNA_ALIGN :: .LNA_LANE_STATE ::
    .LNA_MRG_RESULT :: .LNA_TRAIN_REF :: .PIN_CTL :: .PIN_OLD :: .PRT_PORT_STATUS :: .RTE_EVENTS :: .RTE_GRP_SLOT :: .SLC_CONT_ESEQ_HI
    :: .SLC_CONT_ESEQ_LO :: .SLC_CONT_STATE :: .TUN_CE_DEST :: .TUN_CE_IRQ :: .TUN_CE_STATUS :: .TUN_PORT_ALLOT :: .TUN_PORT_STATUS ::
    .USH_OWNER :: .USH_OWNER_CFG :: .VIT_STATE :: .WR_Q_DRR :: recordRegs) (.arrived :: .cellsFree :: .cmds :: .cores :: .dwins ::
    .endpoints :: .engines :: .fronts :: .heldTlps :: .lanes :: .links :: .lockSince :: .lockSrc :: .notices :: .outs :: .pausedLinks ::
    .pfLog :: .pfSeq :: .pins :: .ports :: .queues :: .sbSeq :: .trk :: .vports :: .winFetches :: .winReads :: .winStores :: .wins ::
    .withheld :: recordParts) t := by
  refine onDev_frame ?_ h
  with_reducible repeat'
    first
      | intro x | assumption | apply Dev.Keeps.refl | apply Dev.Keeps.put | apply Dev.Keeps.mark | apply Dev.Keeps.when
      | apply Dev.Keeps.step Dev.assignOwner_keeps | apply Dev.Keeps.step Dev.badParam_keeps | apply Dev.Keeps.step Dev.finish_keeps
      | apply Dev.moduleCommand_keeps | apply Dev.Keeps.step Dev.setOwner_keeps | apply Dev.Keeps.ite | apply Dev.Keeps.foldl
      | (show (_ : Bool) = _; decide +kernel) | (show _ ∈ _; decide +kernel) | (show _ < _; decide +kernel) | split | dsimp only

theorem execServiceCandidateAttach_frame {port : Fin 16} {usb4 : Bool} {s t : State} (h : execServiceCandidateAttach port usb4 s = .next
    t) : s.Keeps (.BSN_Q_STATUS :: .DOC_CORE_STATUS :: .DOC_EVENTS :: .DOC_WSTORE_LOST :: .EBR_CRD_AVAIL :: .EBR_EVENTS :: .EBR_LOCK ::
    .EBR_PFLOG_HEAD :: .EBR_RAT_PFDISC_HI :: .EBR_RAT_PFDISC_LO :: .FLL_LINK_STATUS :: .FLL_REPLAY :: .LNA_ALIGN :: .LNA_LANE_STATE ::
    .LNA_MRG_RESULT :: .LNA_TRAIN_REF :: .PIN_CTL :: .PIN_OLD :: .PRT_PORT_STATUS :: .RTE_EVENTS :: .RTE_GRP_SLOT :: .SLC_CONT_ESEQ_HI
    :: .SLC_CONT_ESEQ_LO :: .SLC_CONT_STATE :: .TUN_CE_DEST :: .TUN_CE_IRQ :: .TUN_CE_STATUS :: .TUN_PORT_ALLOT :: .TUN_PORT_STATUS ::
    .USH_OWNER :: .VIT_STATE :: .WR_Q_DRR :: recordRegs) (.arrived :: .candidates :: .cellsFree :: .cmds :: .cores :: .dwins ::
    .endpoints :: .engines :: .fronts :: .heldTlps :: .lanes :: .links :: .lockSince :: .lockSrc :: .notices :: .outs :: .pausedLinks ::
    .pfLog :: .pfSeq :: .pins :: .ports :: .queues :: .sbSeq :: .trk :: .vports :: .winFetches :: .winReads :: .winStores :: .wins ::
    .withheld :: recordParts) t := by
  refine onDev_frame ?_ h
  with_reducible repeat'
    first
      | intro x | assumption | apply Dev.Keeps.refl | apply Dev.Keeps.step Dev.addCandidate_keeps | apply Dev.Keeps.ite
      | apply Dev.Keeps.foldl | (show (_ : Bool) = _; decide +kernel) | (show _ ∈ _; decide +kernel) | (show _ < _; decide +kernel)
      | split | dsimp only

theorem execOwnerDetach_frame {s t : State} (h : execOwnerDetach s = .next t) : s.Keeps (.MBX_CH_STATUS :: .TUN_PORT_STATUS ::
    .USH_EVENTS :: .USH_OWNER :: recordRegs) (.candidates :: .chans :: .hubPort :: .mud :: .usbaOpen :: recordParts) t := by
  refine onDev_frame ?_ h
  with_reducible repeat'
    first
      | intro x | assumption | apply Dev.Keeps.refl | apply Dev.Keeps.step Dev.ownerDetach_keeps | apply Dev.Keeps.ite
      | apply Dev.Keeps.foldl | (show (_ : Bool) = _; decide +kernel) | (show _ ∈ _; decide +kernel) | (show _ < _; decide +kernel)
      | split | dsimp only

theorem execOwnerWaitExpiry_frame {s t : State} (h : execOwnerWaitExpiry s = .next t) : s.Keeps (.BSN_Q_STATUS :: .DOC_CORE_STATUS ::
    .DOC_EVENTS :: .DOC_WSTORE_LOST :: .EBR_CRD_AVAIL :: .EBR_EVENTS :: .EBR_LOCK :: .EBR_PFLOG_HEAD :: .EBR_RAT_PFDISC_HI ::
    .EBR_RAT_PFDISC_LO :: .FLL_LINK_STATUS :: .FLL_REPLAY :: .LNA_ALIGN :: .LNA_LANE_STATE :: .LNA_MRG_RESULT :: .LNA_TRAIN_REF ::
    .PIN_CTL :: .PIN_OLD :: .PRT_PORT_STATUS :: .RTE_EVENTS :: .RTE_GRP_SLOT :: .SLC_CONT_ESEQ_HI :: .SLC_CONT_ESEQ_LO ::
    .SLC_CONT_STATE :: .TUN_CE_DEST :: .TUN_CE_IRQ :: .TUN_CE_STATUS :: .TUN_PORT_ALLOT :: .TUN_PORT_STATUS :: .USH_OWNER :: .VIT_STATE
    :: .WR_Q_DRR :: recordRegs) (.arrived :: .cellsFree :: .cmds :: .cores :: .dwins :: .endpoints :: .engines :: .fronts :: .heldTlps
    :: .lanes :: .links :: .lockSince :: .lockSrc :: .notices :: .outs :: .pausedLinks :: .pfLog :: .pfSeq :: .pins :: .ports :: .queues
    :: .sbSeq :: .trk :: .vports :: .winFetches :: .winReads :: .winStores :: .wins :: .withheld :: recordParts) t := by
  refine onDev_frame ?_ h
  with_reducible repeat'
    first
      | intro x | assumption | apply Dev.Keeps.refl | apply Dev.Keeps.step Dev.assignOwner_keeps
      | apply Dev.Keeps.step Dev.setOwner_keeps | apply Dev.Keeps.ite | apply Dev.Keeps.foldl | (show (_ : Bool) = _; decide +kernel)
      | (show _ ∈ _; decide +kernel) | (show _ < _; decide +kernel) | split | dsimp only

theorem execOwnerChanged_frame {speed : Fin 4} {s t : State} (h : execOwnerChanged speed s = .next t) : s.Keeps (.MBX_CH_STATUS ::
    .TUN_PORT_STATUS :: .USH_EVENTS :: .USH_OWNER :: recordRegs) (.chans :: .hubPort :: .mud :: .usbaOpen :: recordParts) t := by
  refine onDev_frame ?_ h
  with_reducible repeat'
    first
      | intro x | assumption | apply Dev.Keeps.refl | apply Dev.Keeps.mark | apply Dev.Keeps.put
      | apply Dev.Keeps.step Dev.hubLeave_keeps | apply Dev.Keeps.step Dev.mudConfigure_keeps
      | apply Dev.Keeps.step (Dev.raise_keeps ?_) | apply Dev.Keeps.ite | apply Dev.Keeps.foldl
      | (show (_ : Bool) = _; decide +kernel) | (show _ ∈ _; decide +kernel) | (show _ < _; decide +kernel) | split
      | apply Dev.Keeps.set_hubPort | dsimp only

theorem execUsbaOvercurrent_frame {port : Fin 4} {s t : State} (h : execUsbaOvercurrent port s = .next t) : s.Keeps (.USH_EVENTS ::
    recordRegs) (.usbaOpen :: recordParts) t := by
  refine onDev_frame ?_ h
  with_reducible repeat'
    first
      | intro x | assumption | apply Dev.Keeps.refl | apply Dev.Keeps.step Dev.emit_keeps | apply Dev.Keeps.step (Dev.raise_keeps ?_)
      | apply Dev.Keeps.ite | apply Dev.Keeps.foldl | (show (_ : Bool) = _; decide +kernel) | (show _ ∈ _; decide +kernel)
      | (show _ < _; decide +kernel) | split | apply Dev.Keeps.set_usbaOpen | dsimp only

theorem execUshMudConnectWrite_frame {master : Fin 2048} {value : Word} {speed : Fin 4} {s t : State} (h : execUshMudConnectWrite master
    value speed s = .next t) : s.Keeps (.MBX_CH_STATUS :: .USH_EVENTS :: .USH_MUD_CTL :: recordRegs) (.chans :: .mud :: recordParts) t
    := by
  refine onDev_frame ?_ h
  with_reducible repeat'
    first
      | intro x | assumption | apply Dev.Keeps.refl | apply Dev.curatorOnly_keeps | apply Dev.Keeps.step Dev.writeMudCtl_keeps
      | apply Dev.Keeps.ite | apply Dev.Keeps.foldl | (show (_ : Bool) = _; decide +kernel) | (show _ ∈ _; decide +kernel)
      | (show _ < _; decide +kernel) | split | dsimp only

theorem execUsbBusReset_frame {gone abandons : Bool} {speed : Fin 4} {s t : State} (h : execUsbBusReset gone abandons speed s = .next t)
    : s.Keeps (.MBX_CH_STATUS :: .USH_EVENTS :: recordRegs) (.chans :: .mud :: recordParts) t := by
  refine onDev_frame ?_ h
  with_reducible repeat'
    first
      | intro x | assumption | apply Dev.Keeps.refl | apply Dev.Keeps.when | apply Dev.Keeps.step Dev.abandonRequest_keeps
      | apply Dev.Keeps.step Dev.mudConfigure_keeps | apply Dev.Keeps.step Dev.mudReset_keeps | apply Dev.Keeps.ite
      | apply Dev.Keeps.foldl | (show (_ : Bool) = _; decide +kernel) | (show _ ∈ _; decide +kernel) | (show _ < _; decide +kernel)
      | split | dsimp only

theorem execResponseExpiry_frame {tag : Fin 65536} {s t : State} (h : execResponseExpiry tag s = .next t) : s.Keeps [.USH_MUD_STATUS]
    [.mudDone] t := by
  refine onDev_frame ?_ h
  with_reducible repeat'
    first
      | intro x | assumption | apply Dev.Keeps.refl | apply Dev.Keeps.step Dev.showMud_keeps | apply Dev.Keeps.ite
      | apply Dev.Keeps.foldl | (show (_ : Bool) = _; decide +kernel) | (show _ ∈ _; decide +kernel) | (show _ < _; decide +kernel)
      | split | apply Dev.Keeps.set_mudDone | dsimp only

theorem execRemoteWake_frame {s t : State} (h : execRemoteWake s = .next t) : s.Keeps [.USH_MUD_STATUS, .USH_MUD_WAKE] [.out] t := by
  refine onDev_frame ?_ h
  with_reducible repeat'
    first
      | intro x | assumption | apply Dev.Keeps.refl | apply Dev.Keeps.put | apply Dev.Keeps.bump | apply Dev.Keeps.step Dev.emit_keeps
      | apply Dev.Keeps.ite | apply Dev.Keeps.foldl | (show (_ : Bool) = _; decide +kernel) | (show _ ∈ _; decide +kernel)
      | (show _ < _; decide +kernel) | split | dsimp only

theorem execHostResume_frame {s t : State} (h : execHostResume s = .next t) : s.Keeps (.USH_EVENTS :: .USH_MUD_WAKE :: recordRegs)
    recordParts t := by
  refine onDev_frame ?_ h
  with_reducible repeat'
    first
      | intro x | assumption | apply Dev.Keeps.refl | apply Dev.Keeps.put | apply Dev.Keeps.bump
      | apply Dev.Keeps.step (Dev.raise_keeps ?_) | apply Dev.Keeps.ite | apply Dev.Keeps.foldl
      | (show (_ : Bool) = _; decide +kernel) | (show _ ∈ _; decide +kernel) | (show _ < _; decide +kernel) | split | dsimp only

theorem execPdPortDisabled_frame {port : Fin 16} {s t : State} (h : execPdPortDisabled port s = .next t) : s.Keeps (.EBR_SIDEBAND ::
    .EF_STATUS :: .MBX_CH_STATUS :: .PD_CONTRACT :: .PD_POOL_USED :: .PD_PORT_STATUS :: .PWR_CAGE_USED :: .TUN_PORT_STATUS ::
    .USH_EVENTS :: .USH_OWNER :: recordRegs) (.candidates :: .chans :: .cmds :: .efQueue :: .efuses :: .hubPort :: .mud :: .pds ::
    .perstReleased :: .usbaOpen :: recordParts) t := by
  refine onDev_frame ?_ h
  with_reducible repeat'
    first
      | intro x | assumption | apply Dev.Keeps.refl | apply Dev.Keeps.step Dev.discharge_keeps
      | apply Dev.Keeps.step Dev.endWaiting_keeps | apply Dev.Keeps.step Dev.setPd_keeps | apply Dev.Keeps.ite | apply Dev.Keeps.foldl
      | (show (_ : Bool) = _; decide +kernel) | (show _ ∈ _; decide +kernel) | (show _ < _; decide +kernel) | split | dsimp only

theorem execMoistureCheck_frame {port : Fin 16} {reading : Moisture} {s t : State} (h : execMoistureCheck port reading s = .next t) :
    s.Keeps (.PD_EVENTS :: .PD_MOIST :: .PD_PORT_STATUS :: recordRegs) (.pds :: recordParts) t := by
  refine onDev_frame ?_ h
  with_reducible repeat'
    first
      | intro x | assumption | apply Dev.Keeps.refl | apply Dev.Keeps.step (Dev.pdRaise_keeps ?_)
      | apply Dev.Keeps.step Dev.setPd_keeps | apply Dev.Keeps.step Dev.setPdState_keeps | apply Dev.Keeps.step Dev.showMoist_keeps
      | apply Dev.Keeps.ite | apply Dev.Keeps.foldl | (show (_ : Bool) = _; decide +kernel) | (show _ ∈ _; decide +kernel)
      | (show _ < _; decide +kernel) | split | dsimp only

theorem execMoistureRecheck_frame {port : Fin 16} {reading : Moisture} {s t : State} (h : execMoistureRecheck port reading s = .next t)
    : s.Keeps [.PD_MOIST, .PD_PORT_STATUS] [] t := by
  refine onDev_frame ?_ h
  with_reducible repeat'
    first
      | intro x | assumption | apply Dev.Keeps.refl | apply Dev.Keeps.step Dev.setPdState_keeps
      | apply Dev.Keeps.step Dev.showMoist_keeps | apply Dev.Keeps.ite | apply Dev.Keeps.foldl | (show (_ : Bool) = _; decide +kernel)
      | (show _ ∈ _; decide +kernel) | (show _ < _; decide +kernel) | split | dsimp only

theorem execCorrosion_frame {port : Fin 16} {s t : State} (h : execCorrosion port s = .next t) : s.Keeps (.PD_EVENTS :: recordRegs)
    recordParts t := by
  refine onDev_frame ?_ h
  with_reducible repeat'
    first
      | intro x | assumption | apply Dev.Keeps.refl | apply Dev.Keeps.step (Dev.pdRaise_keeps ?_) | apply Dev.Keeps.ite
      | apply Dev.Keeps.foldl | (show (_ : Bool) = _; decide +kernel) | (show _ ∈ _; decide +kernel) | (show _ < _; decide +kernel)
      | split | dsimp only

theorem execTypecAttach_frame {port : Fin 16} {source cc2 : Bool} {s t : State} (h : execTypecAttach port source cc2 s = .next t) :
    s.Keeps (.EBR_SIDEBAND :: .EF_CTL :: .EF_EVENTS :: .EF_STATUS :: .PD_EVENTS :: .PD_POOL_USED :: .PD_PORT_STATUS :: .PWR_CAGE_USED ::
    recordRegs) (.efQueue :: .efuses :: .pds :: .perstReleased :: recordParts) t := by
  refine onDev_frame ?_ h
  with_reducible repeat'
    first
      | intro x | assumption | apply Dev.Keeps.refl | apply Dev.Keeps.mark | apply Dev.Keeps.step Dev.efPresence_keeps
      | apply Dev.Keeps.step Dev.setPd_keeps | apply Dev.Keeps.step Dev.setPdState_keeps | apply Dev.Keeps.step Dev.sourceVbus_keeps
      | apply Dev.Keeps.ite | apply Dev.Keeps.foldl | (show (_ : Bool) = _; decide +kernel) | (show _ ∈ _; decide +kernel)
      | (show _ < _; decide +kernel) | split | dsimp only

theorem execCableMarkerRead_frame {port : Fin 16} {marker : Marker} {s t : State} (h : execCableMarkerRead port marker s = .next t) :
    s.Keeps [.PD_CABLE, .TUN_PORT_STATUS] [.pds] t := by
  refine onDev_frame ?_ h
  with_reducible repeat'
    first
      | intro x | assumption | apply Dev.Keeps.refl | apply Dev.Keeps.step Dev.setCable_keeps | apply Dev.Keeps.ite
      | apply Dev.Keeps.foldl | (show (_ : Bool) = _; decide +kernel) | (show _ ∈ _; decide +kernel) | (show _ < _; decide +kernel)
      | split | dsimp only

theorem execCableMarkerTimeout_frame {port : Fin 16} {s t : State} (h : execCableMarkerTimeout port s = .next t) : s.Keeps [.PD_CABLE,
    .TUN_PORT_STATUS] [.pds] t := by
  refine onDev_frame ?_ h
  with_reducible repeat'
    first
      | intro x | assumption | apply Dev.Keeps.refl | apply Dev.Keeps.step Dev.setCable_keeps | apply Dev.Keeps.ite
      | apply Dev.Keeps.foldl | (show (_ : Bool) = _; decide +kernel) | (show _ ∈ _; decide +kernel) | (show _ < _; decide +kernel)
      | split | dsimp only

theorem execSourceCapabilitiesOffer_frame {port : Fin 16} {s t : State} (h : execSourceCapabilitiesOffer port s = .next t) : s.Keeps
    [.PD_CONTRACT, .PD_PORT_STATUS] [.out, .pds] t := by
  refine onDev_frame ?_ h
  with_reducible repeat'
    first
      | intro x | assumption | apply Dev.Keeps.refl | apply Dev.Keeps.step Dev.sendOffer_keeps
      | apply Dev.Keeps.step Dev.sinkContract_keeps | apply Dev.Keeps.ite | apply Dev.Keeps.foldl
      | (show (_ : Bool) = _; decide +kernel) | (show _ ∈ _; decide +kernel) | (show _ < _; decide +kernel) | split | dsimp only

theorem execPdRequest_frame {port : Fin 16} {request : PdRequest} {s t : State} (h : execPdRequest port request s = .next t) : s.Keeps
    [.EF_CTL, .PD_CONTRACT, .PD_POOL_USED, .PD_PORT_STATUS] [.out, .pds] t := by
  refine onDev_frame ?_ h
  with_reducible repeat'
    first
      | intro x | assumption | apply Dev.Keeps.refl | apply Dev.Keeps.step Dev.acceptRequest_keeps
      | apply Dev.Keeps.step Dev.emit_keeps | apply Dev.Keeps.ite | apply Dev.Keeps.foldl | (show (_ : Bool) = _; decide +kernel)
      | (show _ ∈ _; decide +kernel) | (show _ < _; decide +kernel) | split | dsimp only

theorem execVbusWithinRange_frame {port : Fin 16} {s t : State} (h : execVbusWithinRange port s = .next t) : s.Keeps [.EF_CTL,
    .PD_PORT_STATUS] [.out, .pds] t := by
  refine onDev_frame ?_ h
  with_reducible repeat'
    first
      | intro x | assumption | apply Dev.Keeps.refl | apply Dev.Keeps.put | apply Dev.Keeps.step Dev.emit_keeps
      | apply Dev.Keeps.step Dev.setPd_keeps | apply Dev.Keeps.step Dev.setPdState_keeps | apply Dev.Keeps.ite | apply Dev.Keeps.foldl
      | (show (_ : Bool) = _; decide +kernel) | (show _ ∈ _; decide +kernel) | (show _ < _; decide +kernel) | split | dsimp only

theorem execPdHeadroomGrowth_frame {s t : State} (h : execPdHeadroomGrowth s = .next t) : s.Keeps (.EF_CTL :: .EF_STATUS :: .PD_EVENTS
    :: .PD_POOL_USED :: .PD_PORT_STATUS :: recordRegs) (.efQueue :: .pds :: recordParts) t := by
  refine onDev_frame ?_ h
  with_reducible repeat'
    first
      | intro x | assumption | apply Dev.Keeps.refl | apply Dev.Keeps.forEach | apply Dev.Keeps.step Dev.sendOffer_keeps
      | apply Dev.Keeps.step Dev.sourceVbus_keeps | apply Dev.Keeps.ite | apply Dev.Keeps.foldl
      | (show (_ : Bool) = _; decide +kernel) | (show _ ∈ _; decide +kernel) | (show _ < _; decide +kernel) | split | dsimp only

theorem execPdPoolShed_frame {s t : State} (h : execPdPoolShed s = .next t) : s.Keeps (.BSN_Q_STATUS :: .DOC_CORE_STATUS :: .DOC_EVENTS
    :: .DOC_WSTORE_LOST :: .EBR_CRD_AVAIL :: .EBR_EVENTS :: .EBR_LOCK :: .EBR_PFLOG_HEAD :: .EBR_RAT_PFDISC_HI :: .EBR_RAT_PFDISC_LO ::
    .EBR_SIDEBAND :: .EF_STATUS :: .FLL_LINK_STATUS :: .FLL_REPLAY :: .LNA_ALIGN :: .LNA_LANE_STATE :: .LNA_MRG_RESULT :: .LNA_TRAIN_REF
    :: .MBX_CH_STATUS :: .PD_CONTRACT :: .PD_EVENTS :: .PD_POOL_USED :: .PD_PORT_STATUS :: .PIN_CTL :: .PIN_OLD :: .PRT_PORT_STATUS ::
    .PWR_CAGE_USED :: .RTE_EVENTS :: .RTE_GRP_SLOT :: .SLC_CONT_ESEQ_HI :: .SLC_CONT_ESEQ_LO :: .SLC_CONT_STATE :: .TUN_CE_DEST ::
    .TUN_CE_IRQ :: .TUN_CE_STATUS :: .TUN_PORT_ALLOT :: .TUN_PORT_STATUS :: .USH_EVENTS :: .USH_OWNER :: .VIT_STATE :: .WR_Q_DRR ::
    recordRegs) (.arrived :: .candidates :: .cellsFree :: .chans :: .cmds :: .cores :: .dwins :: .efQueue :: .efuses :: .endpoints ::
    .engines :: .fronts :: .heldTlps :: .hubPort :: .lanes :: .links :: .lockSince :: .lockSrc :: .mud :: .notices :: .outs ::
    .pausedLinks :: .pds :: .perstReleased :: .pfLog :: .pfSeq :: .pins :: .ports :: .queues :: .sbSeq :: .trk :: .usbaOpen :: .vports
    :: .winFetches :: .winReads :: .winStores :: .wins :: .withheld :: recordParts) t := by
  refine onDev_frame ?_ h
  with_reducible repeat'
    first
      | intro x | assumption | apply Dev.Keeps.refl | apply Dev.Keeps.step Dev.pdShed_keeps | apply Dev.Keeps.ite
      | apply Dev.Keeps.foldl | (show (_ : Bool) = _; decide +kernel) | (show _ ∈ _; decide +kernel) | (show _ < _; decide +kernel)
      | split | dsimp only

theorem execEprKeepaliveLapse_frame {port : Fin 16} {s t : State} (h : execEprKeepaliveLapse port s = .next t) : s.Keeps (.BSN_Q_STATUS
    :: .DOC_CORE_STATUS :: .DOC_EVENTS :: .DOC_WSTORE_LOST :: .EBR_CRD_AVAIL :: .EBR_EVENTS :: .EBR_LOCK :: .EBR_PFLOG_HEAD ::
    .EBR_RAT_PFDISC_HI :: .EBR_RAT_PFDISC_LO :: .EBR_SIDEBAND :: .EF_STATUS :: .FLL_LINK_STATUS :: .FLL_REPLAY :: .LNA_ALIGN ::
    .LNA_LANE_STATE :: .LNA_MRG_RESULT :: .LNA_TRAIN_REF :: .MBX_CH_STATUS :: .PD_CONTRACT :: .PD_EVENTS :: .PD_POOL_USED ::
    .PD_PORT_STATUS :: .PIN_CTL :: .PIN_OLD :: .PRT_PORT_STATUS :: .PWR_CAGE_USED :: .RTE_EVENTS :: .RTE_GRP_SLOT :: .SLC_CONT_ESEQ_HI
    :: .SLC_CONT_ESEQ_LO :: .SLC_CONT_STATE :: .TUN_CE_DEST :: .TUN_CE_IRQ :: .TUN_CE_STATUS :: .TUN_PORT_ALLOT :: .TUN_PORT_STATUS ::
    .USH_EVENTS :: .USH_OWNER :: .VIT_STATE :: .WR_Q_DRR :: recordRegs) (.arrived :: .candidates :: .cellsFree :: .chans :: .cmds ::
    .cores :: .dwins :: .efQueue :: .efuses :: .endpoints :: .engines :: .fronts :: .heldTlps :: .hubPort :: .lanes :: .links ::
    .lockSince :: .lockSrc :: .mud :: .notices :: .outs :: .pausedLinks :: .pds :: .perstReleased :: .pfLog :: .pfSeq :: .pins :: .ports
    :: .queues :: .sbSeq :: .trk :: .usbaOpen :: .vports :: .winFetches :: .winReads :: .winStores :: .wins :: .withheld :: recordParts)
    t := by
  refine onDev_frame ?_ h
  with_reducible repeat'
    first
      | intro x | assumption | apply Dev.Keeps.refl | apply Dev.Keeps.step Dev.hardReset_keeps
      | apply Dev.Keeps.step (Dev.pdRaise_keeps ?_) | apply Dev.Keeps.ite | apply Dev.Keeps.foldl
      | (show (_ : Bool) = _; decide +kernel) | (show _ ∈ _; decide +kernel) | (show _ < _; decide +kernel) | split | dsimp only

theorem execSwapRequest_frame {port : Fin 16} {swap : PdSwap} {byPartner able : Bool} {s t : State} (h : execSwapRequest port swap
    byPartner able s = .next t) : s.Keeps [.PD_CABLE, .PD_CONTRACT, .PD_POOL_USED, .PD_PORT_STATUS, .TUN_PORT_STATUS] [.cmds, .out,
    .pds] t := by
  refine onDev_frame ?_ h
  with_reducible repeat'
    first
      | intro x | assumption | apply Dev.Keeps.refl | apply Dev.Keeps.step Dev.startSwap_keeps | apply Dev.Keeps.ite
      | apply Dev.Keeps.foldl | (show (_ : Bool) = _; decide +kernel) | (show _ ∈ _; decide +kernel) | (show _ < _; decide +kernel)
      | split | dsimp only

theorem execSwapComplete_frame {port : Fin 16} {s t : State} (h : execSwapComplete port s = .next t) : s.Keeps (.BSN_Q_STATUS ::
    .DOC_CORE_STATUS :: .DOC_EVENTS :: .DOC_WSTORE_LOST :: .EBR_CRD_AVAIL :: .EBR_EVENTS :: .EBR_LOCK :: .EBR_PFLOG_HEAD ::
    .EBR_RAT_PFDISC_HI :: .EBR_RAT_PFDISC_LO :: .EBR_SIDEBAND :: .EF_CTL :: .EF_STATUS :: .FLL_LINK_STATUS :: .FLL_REPLAY :: .LNA_ALIGN
    :: .LNA_LANE_STATE :: .LNA_MRG_RESULT :: .LNA_TRAIN_REF :: .MBX_CH_STATUS :: .PD_CABLE :: .PD_CONTRACT :: .PD_EVENTS ::
    .PD_POOL_USED :: .PD_PORT_STATUS :: .PIN_CTL :: .PIN_OLD :: .PRT_PORT_STATUS :: .PWR_CAGE_USED :: .RTE_EVENTS :: .RTE_GRP_SLOT ::
    .SLC_CONT_ESEQ_HI :: .SLC_CONT_ESEQ_LO :: .SLC_CONT_STATE :: .TUN_CE_DEST :: .TUN_CE_IRQ :: .TUN_CE_STATUS :: .TUN_PORT_ALLOT ::
    .TUN_PORT_STATUS :: .USH_EVENTS :: .USH_OWNER :: .VIT_STATE :: .WR_Q_DRR :: recordRegs) (.arrived :: .candidates :: .cellsFree ::
    .chans :: .cmds :: .cores :: .dwins :: .efQueue :: .efuses :: .endpoints :: .engines :: .fronts :: .heldTlps :: .hubPort :: .lanes
    :: .links :: .lockSince :: .lockSrc :: .mud :: .notices :: .outs :: .pausedLinks :: .pds :: .perstReleased :: .pfLog :: .pfSeq ::
    .pins :: .ports :: .queues :: .sbSeq :: .trk :: .usbaOpen :: .vports :: .winFetches :: .winReads :: .winStores :: .wins :: .withheld
    :: recordParts) t := by
  refine onDev_frame ?_ h
  with_reducible repeat'
    first
      | intro x | assumption | apply Dev.Keeps.refl | apply Dev.Keeps.when | apply Dev.Keeps.step Dev.endWaiting_keeps
      | apply Dev.Keeps.step Dev.setPd_keeps | apply Dev.Keeps.step Dev.startSwap_keeps | apply Dev.Keeps.step Dev.swapRoles_keeps
      | apply Dev.Keeps.ite | apply Dev.Keeps.foldl | (show (_ : Bool) = _; decide +kernel) | (show _ ∈ _; decide +kernel)
      | (show _ < _; decide +kernel) | split | dsimp only

theorem execSwapRetryHoldExpiry_frame {port : Fin 16} {s t : State} (h : execSwapRetryHoldExpiry port s = .next t) : s.Keeps [] [.pds] t
    := by
  refine onDev_frame ?_ h
  with_reducible repeat'
    first
      | intro x | assumption | apply Dev.Keeps.refl | apply Dev.Keeps.step Dev.setPd_keeps | apply Dev.Keeps.ite
      | apply Dev.Keeps.foldl | (show (_ : Bool) = _; decide +kernel) | (show _ ∈ _; decide +kernel) | (show _ < _; decide +kernel)
      | split | dsimp only

theorem execPdHardReset_frame {port : Fin 16} {s t : State} (h : execPdHardReset port s = .next t) : s.Keeps (.BSN_Q_STATUS ::
    .DOC_CORE_STATUS :: .DOC_EVENTS :: .DOC_WSTORE_LOST :: .EBR_CRD_AVAIL :: .EBR_EVENTS :: .EBR_LOCK :: .EBR_PFLOG_HEAD ::
    .EBR_RAT_PFDISC_HI :: .EBR_RAT_PFDISC_LO :: .EBR_SIDEBAND :: .EF_STATUS :: .FLL_LINK_STATUS :: .FLL_REPLAY :: .LNA_ALIGN ::
    .LNA_LANE_STATE :: .LNA_MRG_RESULT :: .LNA_TRAIN_REF :: .MBX_CH_STATUS :: .PD_CONTRACT :: .PD_EVENTS :: .PD_POOL_USED ::
    .PD_PORT_STATUS :: .PIN_CTL :: .PIN_OLD :: .PRT_PORT_STATUS :: .PWR_CAGE_USED :: .RTE_EVENTS :: .RTE_GRP_SLOT :: .SLC_CONT_ESEQ_HI
    :: .SLC_CONT_ESEQ_LO :: .SLC_CONT_STATE :: .TUN_CE_DEST :: .TUN_CE_IRQ :: .TUN_CE_STATUS :: .TUN_PORT_ALLOT :: .TUN_PORT_STATUS ::
    .USH_EVENTS :: .USH_OWNER :: .VIT_STATE :: .WR_Q_DRR :: recordRegs) (.arrived :: .candidates :: .cellsFree :: .chans :: .cmds ::
    .cores :: .dwins :: .efQueue :: .efuses :: .endpoints :: .engines :: .fronts :: .heldTlps :: .hubPort :: .lanes :: .links ::
    .lockSince :: .lockSrc :: .mud :: .notices :: .outs :: .pausedLinks :: .pds :: .perstReleased :: .pfLog :: .pfSeq :: .pins :: .ports
    :: .queues :: .sbSeq :: .trk :: .usbaOpen :: .vports :: .winFetches :: .winReads :: .winStores :: .wins :: .withheld :: recordParts)
    t := by
  refine onDev_frame ?_ h
  with_reducible repeat'
    first
      | intro x | assumption | apply Dev.Keeps.refl | apply Dev.Keeps.step Dev.hardReset_keeps | apply Dev.Keeps.ite
      | apply Dev.Keeps.foldl | (show (_ : Bool) = _; decide +kernel) | (show _ ∈ _; decide +kernel) | (show _ < _; decide +kernel)
      | split | dsimp only

theorem execHardResetRecovery_frame {port : Fin 16} {s t : State} (h : execHardResetRecovery port s = .next t) : s.Keeps (.EF_CTL ::
    .EF_STATUS :: .PD_EVENTS :: .PD_POOL_USED :: .PD_PORT_STATUS :: recordRegs) (.efQueue :: .pds :: recordParts) t := by
  refine onDev_frame ?_ h
  with_reducible repeat'
    first
      | intro x | assumption | apply Dev.Keeps.refl | apply Dev.Keeps.step Dev.sendOffer_keeps | apply Dev.Keeps.step Dev.setPd_keeps
      | apply Dev.Keeps.step Dev.setPdState_keeps | apply Dev.Keeps.step Dev.sourceVbus_keeps | apply Dev.Keeps.ite
      | apply Dev.Keeps.foldl | (show (_ : Bool) = _; decide +kernel) | (show _ ∈ _; decide +kernel) | (show _ < _; decide +kernel)
      | split | dsimp only

theorem execCcOpen_frame {port : Fin 16} {s t : State} (h : execCcOpen port s = .next t) : s.Keeps (.EBR_SIDEBAND :: .EF_EVENTS ::
    .EF_STATUS :: .MBX_CH_STATUS :: .PD_CONTRACT :: .PD_EVENTS :: .PD_POOL_USED :: .PD_PORT_STATUS :: .PWR_CAGE_USED :: .TUN_PORT_STATUS
    :: .USH_EVENTS :: .USH_OWNER :: recordRegs) (.candidates :: .chans :: .cmds :: .efQueue :: .efuses :: .hubPort :: .mud :: .pds ::
    .perstReleased :: .usbaOpen :: recordParts) t := by
  refine onDev_frame ?_ h
  with_reducible repeat'
    first
      | intro x | assumption | apply Dev.Keeps.refl | apply Dev.Keeps.when | apply Dev.Keeps.step Dev.discharge_keeps
      | apply Dev.Keeps.step Dev.efPresence_keeps | apply Dev.Keeps.step Dev.endWaiting_keeps
      | apply Dev.Keeps.step (Dev.pdRaise_keeps ?_) | apply Dev.Keeps.step Dev.setPd_keeps | apply Dev.Keeps.ite
      | apply Dev.Keeps.foldl | (show (_ : Bool) = _; decide +kernel) | (show _ ∈ _; decide +kernel) | (show _ < _; decide +kernel)
      | split | dsimp only

theorem execDischargeComplete_frame {port : Fin 16} {s t : State} (h : execDischargeComplete port s = .next t) : s.Keeps
    [.PD_PORT_STATUS] [.out, .pds] t := by
  refine onDev_frame ?_ h
  with_reducible repeat'
    first
      | intro x | assumption | apply Dev.Keeps.refl | apply Dev.Keeps.step Dev.dischargeDone_keeps | apply Dev.Keeps.ite
      | apply Dev.Keeps.foldl | (show (_ : Bool) = _; decide +kernel) | (show _ ∈ _; decide +kernel) | (show _ < _; decide +kernel)
      | split | dsimp only

theorem execDischargeTimeout_frame {port : Fin 16} {mv : Fin 65536} {s t : State} (h : execDischargeTimeout port mv s = .next t) :
    s.Keeps [.PD_PORT_STATUS] [.pds] t := by
  refine onDev_frame ?_ h
  with_reducible repeat'
    first
      | intro x | assumption | apply Dev.Keeps.refl | apply Dev.Keeps.put | apply Dev.Keeps.step Dev.setPd_keeps | apply Dev.Keeps.ite
      | apply Dev.Keeps.foldl | (show (_ : Bool) = _; decide +kernel) | (show _ ∈ _; decide +kernel) | (show _ < _; decide +kernel)
      | split | dsimp only

theorem execPdPolicySet_frame {h : CmdHdr} {port swap : Byte} {policy : Word} {able : Bool} {s t : State} (h : execPdPolicySet h port
    swap policy able s = .next t) : s.Keeps [.PD_CABLE, .PD_CONTRACT, .PD_POOL_USED, .PD_PORT_POLICY, .PD_PORT_STATUS, .TUN_PORT_STATUS]
    [.cmds, .out, .pds] t := by
  refine onDev_frame ?_ h
  with_reducible repeat'
    first
      | intro x | assumption | apply Dev.Keeps.refl | apply Dev.Keeps.step Dev.badParam_keeps | apply Dev.Keeps.step Dev.finish_keeps
      | apply Dev.moduleCommand_keeps | apply Dev.orWait_keeps | apply Dev.Keeps.step Dev.setPolicy_keeps
      | apply Dev.Keeps.step Dev.startSwap_keeps | apply Dev.Keeps.step Dev.waitFor_keeps | apply Dev.Keeps.ite
      | apply Dev.Keeps.foldl | (show (_ : Bool) = _; decide +kernel) | (show _ ∈ _; decide +kernel) | (show _ < _; decide +kernel)
      | split | dsimp only

theorem execEprModeEntry_frame {port : Fin 16} {s t : State} (h : execEprModeEntry port s = .next t) : s.Keeps [.PD_PORT_STATUS] [.out,
    .pds] t := by
  refine onDev_frame ?_ h
  with_reducible repeat'
    first
      | intro x | assumption | apply Dev.Keeps.refl | apply Dev.Keeps.put | apply Dev.Keeps.step Dev.emit_keeps
      | apply Dev.Keeps.step Dev.sendOffer_keeps | apply Dev.Keeps.ite | apply Dev.Keeps.foldl | (show (_ : Bool) = _; decide +kernel)
      | (show _ ∈ _; decide +kernel) | (show _ < _; decide +kernel) | split | dsimp only

theorem execSlotControlWrite_frame {lvid : Fin 1024} {k : Fin 64} {off : Bool} {attention power : Fin 4} {irq : SlotEnables} {s t :
    State} (h : execSlotControlWrite lvid k off attention power irq s = .next t) : s.Keeps (.EBR_EVENTS :: .EBR_SIDEBAND :: .EF_STATUS
    :: .PWR_CAGE_USED :: recordRegs) (.arrived :: .efQueue :: .efuses :: .perstReleased :: .sbSeq :: .vports :: recordParts) t := by
  refine onDev_frame ?_ h
  with_reducible repeat'
    first
      | intro x | assumption | apply Dev.Keeps.refl | apply Dev.Keeps.step Dev.slotControl_keeps | apply Dev.Keeps.ite
      | apply Dev.Keeps.foldl | (show (_ : Bool) = _; decide +kernel) | (show _ ∈ _; decide +kernel) | (show _ < _; decide +kernel)
      | split | dsimp only

theorem execLineCategoryChange_frame {feed : Fin 2} {high : Bool} {s t : State} (h : execLineCategoryChange feed high s = .next t) :
    s.Keeps (.PD_POOL_LIMIT :: .PWR_BUDGET :: .PWR_EVENTS :: .PWR_FEED_A :: .PWR_FEED_B :: .PWR_POOLS :: recordRegs) recordParts t := by
  refine onDev_frame ?_ h
  with_reducible repeat'
    first
      | intro x | assumption | apply Dev.Keeps.refl | apply Dev.Keeps.mark | apply Dev.Keeps.step Dev.rebudget_keeps
      | apply Dev.Keeps.ite | apply Dev.Keeps.foldl | exact feedField_lo.1 | exact feedField_lo.2
      | exact (feedField_mem (by decide +kernel) (by decide +kernel)).1
      | exact (feedField_mem (by decide +kernel) (by decide +kernel)).2 | (show (_ : Bool) = _; decide +kernel)
      | (show _ ∈ _; decide +kernel) | (show _ < _; decide +kernel) | split | dsimp only

theorem execLoadShedding_frame {s t : State} (h : execLoadShedding s = .next t) : s.Keeps (.BSN_Q_STATUS :: .DOC_CORE_STATUS ::
    .DOC_EVENTS :: .DOC_WSTORE_LOST :: .EBR_CRD_AVAIL :: .EBR_EVENTS :: .EBR_LOCK :: .EBR_PFLOG_HEAD :: .EBR_RAT_PFDISC_HI ::
    .EBR_RAT_PFDISC_LO :: .EBR_SIDEBAND :: .EF_EVENTS :: .EF_STATUS :: .FLL_LINK_STATUS :: .FLL_REPLAY :: .LNA_ALIGN :: .LNA_LANE_STATE
    :: .LNA_MRG_RESULT :: .LNA_TRAIN_REF :: .MBX_CH_STATUS :: .PD_CONTRACT :: .PD_EVENTS :: .PD_POOL_USED :: .PD_PORT_STATUS :: .PIN_CTL
    :: .PIN_OLD :: .PRT_PORT_STATUS :: .PWR_CAGE_USED :: .PWR_EVENTS :: .RTE_EVENTS :: .RTE_GRP_SLOT :: .SLC_CONT_ESEQ_HI ::
    .SLC_CONT_ESEQ_LO :: .SLC_CONT_STATE :: .TUN_CE_DEST :: .TUN_CE_IRQ :: .TUN_CE_STATUS :: .TUN_PORT_ALLOT :: .TUN_PORT_STATUS ::
    .USH_EVENTS :: .USH_OWNER :: .VIT_STATE :: .WR_Q_DRR :: recordRegs) (.arrived :: .candidates :: .cellsFree :: .chans :: .cmds ::
    .cores :: .dwins :: .efQueue :: .efuses :: .endpoints :: .engines :: .fronts :: .heldTlps :: .hubPort :: .lanes :: .links ::
    .lockSince :: .lockSrc :: .mud :: .notices :: .outs :: .pausedLinks :: .pds :: .perstReleased :: .pfLog :: .pfSeq :: .pins :: .ports
    :: .queues :: .sbSeq :: .trk :: .usbaOpen :: .vports :: .winFetches :: .winReads :: .winStores :: .wins :: .withheld :: recordParts)
    t := by
  refine onDev_frame ?_ h
  with_reducible repeat'
    first
      | intro x | assumption | apply Dev.Keeps.refl | apply Dev.Keeps.forEach | apply Dev.Keeps.step Dev.count_keeps
      | apply Dev.Keeps.step Dev.efOff_keeps | apply Dev.Keeps.step (Dev.efRaise_keeps ?_) | apply Dev.Keeps.step Dev.pdShed_keeps
      | apply Dev.Keeps.step (Dev.raise_keeps ?_) | apply Dev.Keeps.ite | apply Dev.Keeps.foldl
      | (show (_ : Bool) = _; decide +kernel) | (show _ ∈ _; decide +kernel) | (show _ < _; decide +kernel) | split | dsimp only

theorem execStageLost_frame {stage : Fin 3} {s t : State} (h : execStageLost stage s = .next t) : s.Keeps (.PD_POOL_LIMIT :: .PWR_BUDGET
    :: .PWR_EVENTS :: .PWR_POOLS :: .PWR_STAGES :: recordRegs) recordParts t := by
  refine onDev_frame ?_ h
  with_reducible repeat'
    first
      | intro x | assumption | apply Dev.Keeps.refl | apply Dev.Keeps.put | apply Dev.Keeps.step Dev.count_keeps
      | apply Dev.Keeps.step (Dev.raise_keeps ?_) | apply Dev.Keeps.step Dev.rebudget_keeps | apply Dev.Keeps.ite
      | apply Dev.Keeps.foldl | (show (_ : Bool) = _; decide +kernel) | (show _ ∈ _; decide +kernel) | (show _ < _; decide +kernel)
      | split | dsimp only

theorem execBudgetSet_frame {h : CmdHdr} {highCage highPd lowCage lowPd : Fin 65536} {s t : State} (h : execBudgetSet h highCage highPd
    lowCage lowPd s = .next t) : s.Keeps [.PD_POOL_LIMIT, .PWR_POOLS] [.cmds, .out, .splits] t := by
  refine onDev_frame ?_ h
  with_reducible repeat'
    first
      | intro x | assumption | apply Dev.Keeps.refl | apply Dev.Keeps.when | apply Dev.Keeps.step Dev.applySplit_keeps
      | apply Dev.Keeps.step Dev.finish_keeps | apply Dev.moduleCommand_keeps | apply Dev.Keeps.ite | apply Dev.Keeps.foldl
      | (show (_ : Bool) = _; decide +kernel) | (show _ ∈ _; decide +kernel) | (show _ < _; decide +kernel) | split
      | apply Dev.Keeps.set_splits | dsimp only

theorem execEfuseEnable_frame {h : CmdHdr} {cage value scale priority : Byte} {s t : State} (h : execEfuseEnable h cage value scale
    priority s = .next t) : s.Keeps (.EBR_EVENTS :: .EBR_SIDEBAND :: .EF_CTL :: .EF_EVENTS :: .EF_STATUS :: .PWR_CAGE_USED ::
    recordRegs) (.arrived :: .cmds :: .efQueue :: .efuses :: .perstReleased :: .sbSeq :: .vports :: recordParts) t := by
  refine onDev_frame ?_ h
  with_reducible repeat'
    first
      | intro x | assumption | apply Dev.Keeps.refl | apply Dev.Keeps.step Dev.badParam_keeps
      | apply Dev.Keeps.step Dev.enableCage_keeps | apply Dev.moduleCommand_keeps | apply Dev.Keeps.ite | apply Dev.Keeps.foldl
      | (show (_ : Bool) = _; decide +kernel) | (show _ ∈ _; decide +kernel) | (show _ < _; decide +kernel) | split | dsimp only

theorem execEfuseDisable_frame {h : CmdHdr} {cage : Byte} {s t : State} (h : execEfuseDisable h cage s = .next t) : s.Keeps
    [.EBR_SIDEBAND, .EF_STATUS, .PWR_CAGE_USED] [.cmds, .efQueue, .efuses, .out, .perstReleased] t := by
  refine onDev_frame ?_ h
  with_reducible repeat'
    first
      | intro x | assumption | apply Dev.Keeps.refl | apply Dev.Keeps.step Dev.badParam_keeps | apply Dev.Keeps.step Dev.efOff_keeps
      | apply Dev.Keeps.step Dev.finish_keeps | apply Dev.moduleCommand_keeps | apply Dev.Keeps.ite | apply Dev.Keeps.foldl
      | (show (_ : Bool) = _; decide +kernel) | (show _ ∈ _; decide +kernel) | (show _ < _; decide +kernel) | split | dsimp only

theorem execEfCtlEnable_frame {master : Fin 2048} {fuse : Fin 72} {value : Word} {s t : State} (h : execEfCtlEnable master fuse value s
    = .next t) : s.Keeps (.EBR_EVENTS :: .EBR_SIDEBAND :: .EF_CTL :: .EF_EVENTS :: .EF_STATUS :: .PD_EVENTS :: .PD_POOL_USED ::
    .PD_PORT_STATUS :: .PWR_CAGE_USED :: recordRegs) (.arrived :: .efQueue :: .efuses :: .pds :: .perstReleased :: .sbSeq :: .vports ::
    recordParts) t := by
  refine onDev_frame ?_ h
  with_reducible repeat'
    first
      | intro x | assumption | apply Dev.Keeps.refl | apply Dev.curatorOnly_keeps | apply Dev.Keeps.step Dev.efEnable_keeps
      | apply Dev.Keeps.ite | apply Dev.Keeps.foldl | (show (_ : Bool) = _; decide +kernel) | (show _ ∈ _; decide +kernel)
      | (show _ < _; decide +kernel) | split | dsimp only

theorem execEfCtlDisable_frame {master : Fin 2048} {fuse : Fin 72} {value : Word} {s t : State} (h : execEfCtlDisable master fuse value
    s = .next t) : s.Keeps (.EBR_SIDEBAND :: .EF_CTL :: .EF_EVENTS :: .EF_STATUS :: .PD_POOL_USED :: .PWR_CAGE_USED :: recordRegs)
    (.arrived :: .efQueue :: .efuses :: .pds :: .perstReleased :: .sbSeq :: .vports :: recordParts) t := by
  refine onDev_frame ?_ h
  with_reducible repeat'
    first
      | intro x | assumption | apply Dev.Keeps.refl | apply Dev.curatorOnly_keeps | apply Dev.Keeps.step Dev.efDisable_keeps
      | apply Dev.Keeps.ite | apply Dev.Keeps.foldl | (show (_ : Bool) = _; decide +kernel) | (show _ ∈ _; decide +kernel)
      | (show _ < _; decide +kernel) | split | dsimp only

theorem execEfuseGateCheck_frame {fuse : Fin 72} {vgs : Fin 256} {s t : State} (h : execEfuseGateCheck fuse vgs s = .next t) : s.Keeps
    (.EBR_SIDEBAND :: .EF_EVENTS :: .EF_STATUS :: .PWR_CAGE_USED :: recordRegs) (.arrived :: .efQueue :: .efuses :: .perstReleased ::
    .sbSeq :: .vports :: recordParts) t := by
  refine onDev_frame ?_ h
  with_reducible repeat'
    first
      | intro x | assumption | apply Dev.Keeps.refl | apply Dev.Keeps.put | apply Dev.Keeps.step Dev.efDamaged_keeps
      | apply Dev.Keeps.step (Dev.efRaise_keeps ?_) | apply Dev.Keeps.ite | apply Dev.Keeps.foldl
      | (show (_ : Bool) = _; decide +kernel) | (show _ ∈ _; decide +kernel) | (show _ < _; decide +kernel) | split | dsimp only

theorem execEfuseGateFull_frame {fuse : Fin 72} {s t : State} (h : execEfuseGateFull fuse s = .next t) : s.Keeps [.EF_STATUS] [.efQueue]
    t := by
  refine onDev_frame ?_ h
  with_reducible repeat'
    first
      | intro x | assumption | apply Dev.Keeps.refl | apply Dev.Keeps.put | apply Dev.Keeps.step Dev.rampNext_keeps
      | apply Dev.Keeps.ite | apply Dev.Keeps.foldl | (show (_ : Bool) = _; decide +kernel) | (show _ ∈ _; decide +kernel)
      | (show _ < _; decide +kernel) | split | dsimp only

theorem execEfusePowerGood_frame {fuse : Fin 72} {s t : State} (h : execEfusePowerGood fuse s = .next t) : s.Keeps (.BSN_Q_STATUS ::
    .DOC_CORE_STATUS :: .DOC_EVENTS :: .DOC_WSTORE_LOST :: .EBR_EVENTS :: .EBR_LOCK :: .EBR_PFLOG_HEAD :: .EBR_RAT_PFDISC_HI ::
    .EBR_RAT_PFDISC_LO :: .EBR_SIDEBAND :: .EF_STATUS :: .LNA_ALIGN :: .LNA_LANE_STATE :: .LNA_MRG_RESULT :: .LNA_TRAIN_REF ::
    .PD_PORT_STATUS :: .PRT_PORT_STATUS :: .SLC_CONT_STATE :: .WR_Q_DRR :: recordRegs) (.arrived :: .cellsFree :: .cmds :: .cores ::
    .dwins :: .efuses :: .endpoints :: .lanes :: .lockSince :: .lockSrc :: .notices :: .outs :: .pds :: .pfLog :: .pfSeq :: .ports ::
    .queues :: .trk :: .vports :: .winFetches :: .winReads :: .winStores :: recordParts) t := by
  refine onDev_frame ?_ h
  with_reducible repeat'
    first
      | intro x | assumption | apply Dev.Keeps.refl | apply Dev.Keeps.put | apply Dev.Keeps.step Dev.cagePoweredUp_keeps
      | apply Dev.Keeps.step Dev.sendOffer_keeps | apply Dev.Keeps.ite | apply Dev.Keeps.foldl | (show (_ : Bool) = _; decide +kernel)
      | (show _ ∈ _; decide +kernel) | (show _ < _; decide +kernel) | split | dsimp only

theorem execEfuseCurrentLimit_frame {fuse : Fin 72} {ma : Fin 65536} {s t : State} (h : execEfuseCurrentLimit fuse ma s = .next t) :
    s.Keeps (.EBR_SIDEBAND :: .EF_EVENTS :: .EF_MEAS :: .EF_STATUS :: .SLC_INJ_ARMED :: .TEL_MODE :: recordRegs) (.arrived :: .injecting
    :: .injections :: .perstReleased :: .sbSeq :: .vports :: recordParts) t := by
  refine onDev_frame ?_ h
  with_reducible repeat'
    first
      | intro x | assumption | apply Dev.Keeps.refl | apply Dev.Keeps.step Dev.limitReached_keeps
      | apply Dev.Keeps.step Dev.measure_keeps | apply Dev.underInjection_keeps | apply Dev.Keeps.ite | apply Dev.Keeps.foldl
      | (show (_ : Bool) = _; decide +kernel) | (show _ ∈ _; decide +kernel) | (show _ < _; decide +kernel) | split | dsimp only

theorem execEfuseCurrentNormal_frame {fuse : Fin 72} {ma : Fin 65536} {s t : State} (h : execEfuseCurrentNormal fuse ma s = .next t) :
    s.Keeps [.EF_MEAS, .EF_STATUS] [] t := by
  refine onDev_frame ?_ h
  with_reducible repeat'
    first
      | intro x | assumption | apply Dev.Keeps.refl | apply Dev.Keeps.put | apply Dev.Keeps.step Dev.measure_keeps
      | apply Dev.Keeps.ite | apply Dev.Keeps.foldl | (show (_ : Bool) = _; decide +kernel) | (show _ ∈ _; decide +kernel)
      | (show _ < _; decide +kernel) | split | dsimp only

theorem execEfuseFaultTimerExpiry_frame {fuse : Fin 72} {s t : State} (h : execEfuseFaultTimerExpiry fuse s = .next t) : s.Keeps
    (.EBR_SIDEBAND :: .EF_CTL :: .EF_EVENTS :: .EF_STATUS :: .PD_CONTRACT :: .PD_POOL_USED :: .PD_PORT_STATUS :: recordRegs) (.arrived
    :: .efQueue :: .pds :: .perstReleased :: .sbSeq :: .vports :: recordParts) t := by
  refine onDev_frame ?_ h
  with_reducible repeat'
    first
      | intro x | assumption | apply Dev.Keeps.refl | apply Dev.Keeps.step Dev.trip_keeps | apply Dev.Keeps.step Dev.vbusTrip_keeps
      | apply Dev.Keeps.ite | apply Dev.Keeps.foldl | (show (_ : Bool) = _; decide +kernel) | (show _ ∈ _; decide +kernel)
      | (show _ < _; decide +kernel) | split | dsimp only

theorem execEfuseFastTrip_frame {fuse : Fin 72} {ma : Fin 65536} {s t : State} (h : execEfuseFastTrip fuse ma s = .next t) : s.Keeps
    (.EBR_SIDEBAND :: .EF_CTL :: .EF_EVENTS :: .EF_MEAS :: .EF_STATUS :: .PD_CONTRACT :: .PD_POOL_USED :: .PD_PORT_STATUS :: recordRegs)
    (.arrived :: .efQueue :: .pds :: .perstReleased :: .sbSeq :: .vports :: recordParts) t := by
  refine onDev_frame ?_ h
  with_reducible repeat'
    first
      | intro x | assumption | apply Dev.Keeps.refl | apply Dev.Keeps.step Dev.measure_keeps | apply Dev.Keeps.step Dev.trip_keeps
      | apply Dev.Keeps.step Dev.vbusTrip_keeps | apply Dev.Keeps.ite | apply Dev.Keeps.foldl | (show (_ : Bool) = _; decide +kernel)
      | (show _ ∈ _; decide +kernel) | (show _ < _; decide +kernel) | split | dsimp only

theorem execEfuseRetry_frame {fuse : Fin 72} {s t : State} (h : execEfuseRetry fuse s = .next t) : s.Keeps [.EF_STATUS] [.efQueue] t :=
    by
  refine onDev_frame ?_ h
  with_reducible repeat'
    first
      | intro x | assumption | apply Dev.Keeps.refl | apply Dev.Keeps.put | apply Dev.Keeps.step Dev.startRamp_keeps
      | apply Dev.Keeps.ite | apply Dev.Keeps.foldl | (show (_ : Bool) = _; decide +kernel) | (show _ ∈ _; decide +kernel)
      | (show _ < _; decide +kernel) | split | dsimp only

theorem execEfusePresenceChange_frame {fuse : Fin 72} {s t : State} (h : execEfusePresenceChange fuse s = .next t) : s.Keeps
    (.EBR_SIDEBAND :: .EF_EVENTS :: .EF_STATUS :: .PD_POOL_USED :: .PWR_CAGE_USED :: recordRegs) (.efQueue :: .efuses :: .pds ::
    .perstReleased :: recordParts) t := by
  refine onDev_frame ?_ h
  with_reducible repeat'
    first
      | intro x | assumption | apply Dev.Keeps.refl | apply Dev.Keeps.when | apply Dev.Keeps.step Dev.chargePort_keeps
      | apply Dev.Keeps.step Dev.efPresence_keeps | apply Dev.Keeps.ite | apply Dev.Keeps.foldl
      | (show (_ : Bool) = _; decide +kernel) | (show _ ∈ _; decide +kernel) | (show _ < _; decide +kernel) | split | dsimp only

theorem execEfuseRetriesClear_frame {fuse : Fin 72} {s t : State} (h : execEfuseRetriesClear fuse s = .next t) : s.Keeps [.EF_STATUS] []
    t := by
  refine onDev_frame ?_ h
  with_reducible repeat'
    first
      | intro x | assumption | apply Dev.Keeps.refl | apply Dev.Keeps.put | apply Dev.Keeps.ite | apply Dev.Keeps.foldl
      | (show (_ : Bool) = _; decide +kernel) | (show _ ∈ _; decide +kernel) | (show _ < _; decide +kernel) | split | dsimp only

theorem execBackfeed_frame {port : Fin 16} {mv : Fin 65536} {s t : State} (h : execBackfeed port mv s = .next t) : s.Keeps
    (.EBR_SIDEBAND :: .EF_EVENTS :: .EF_MEAS :: .EF_STATUS :: .PD_PORT_STATUS :: .PWR_CAGE_USED :: recordRegs) (.arrived :: .efQueue ::
    .efuses :: .perstReleased :: .sbSeq :: .vports :: recordParts) t := by
  refine onDev_frame ?_ h
  with_reducible repeat'
    first
      | intro x | assumption | apply Dev.Keeps.refl | apply Dev.Keeps.put | apply Dev.Keeps.step Dev.efDamaged_keeps
      | apply Dev.Keeps.step (Dev.efRaise_keeps ?_) | apply Dev.Keeps.step Dev.emit_keeps | apply Dev.Keeps.step Dev.setPdState_keeps
      | apply Dev.Keeps.ite | apply Dev.Keeps.foldl | (show (_ : Bool) = _; decide +kernel) | (show _ ∈ _; decide +kernel)
      | (show _ < _; decide +kernel) | split | dsimp only

theorem execVbusSwitchTest_frame {port : Fin 16} {rises : Bool} {s t : State} (h : execVbusSwitchTest port rises s = .next t) : s.Keeps
    [.EF_STATUS, .PD_PORT_STATUS] [.out, .pds] t := by
  refine onDev_frame ?_ h
  with_reducible repeat'
    first
      | intro x | assumption | apply Dev.Keeps.refl | apply Dev.Keeps.put | apply Dev.Keeps.step Dev.dischargeDone_keeps
      | apply Dev.Keeps.ite | apply Dev.Keeps.foldl | (show (_ : Bool) = _; decide +kernel) | (show _ ∈ _; decide +kernel)
      | (show _ < _; decide +kernel) | split | dsimp only

theorem execCagePresenceLostPowered_frame {cage : Fin 56} {s t : State} (h : execCagePresenceLostPowered cage s = .next t) : s.Keeps
    [.EBR_SIDEBAND, .EF_STATUS, .PWR_CAGE_USED] [.efQueue, .efuses, .out, .perstReleased] t := by
  refine onDev_frame ?_ h
  with_reducible repeat'
    first
      | intro x | assumption | apply Dev.Keeps.refl | apply Dev.Keeps.step Dev.efOff_keeps | apply Dev.Keeps.ite
      | apply Dev.Keeps.foldl | (show (_ : Bool) = _; decide +kernel) | (show _ ∈ _; decide +kernel) | (show _ < _; decide +kernel)
      | split | dsimp only

theorem execCageId_frame {cage : Fin 56} {block : Option (List Byte)} {s t : State} (h : execCageId cage block s = .next t) : s.Keeps
    recordRegs recordParts t := by
  refine onDev_frame ?_ h
  with_reducible repeat'
    first
      | intro x | assumption | apply Dev.Keeps.refl | apply Dev.Keeps.when | apply Dev.Keeps.step Dev.record_keeps
      | apply Dev.Keeps.ite | apply Dev.Keeps.foldl | (show (_ : Bool) = _; decide +kernel) | (show _ ∈ _; decide +kernel)
      | (show _ < _; decide +kernel) | split | dsimp only

theorem execCageAlert_frame {cage : Fin 56} {status : Byte} {s t : State} (h : execCageAlert cage status s = .next t) : s.Keeps
    recordRegs recordParts t := by
  refine onDev_frame ?_ h
  with_reducible repeat'
    first
      | intro x | assumption | apply Dev.Keeps.refl | apply Dev.Keeps.step Dev.record_keeps | apply Dev.Keeps.ite
      | apply Dev.Keeps.foldl | (show (_ : Bool) = _; decide +kernel) | (show _ ∈ _; decide +kernel) | (show _ < _; decide +kernel)
      | split | dsimp only

theorem execFrontEndDisconnect_frame {feed : Fin 2} {s t : State} (h : execFrontEndDisconnect feed s = .next t) : s.Keeps [] [.feedOff,
    .out] t := by
  refine onDev_frame ?_ h
  with_reducible repeat'
    first
      | intro x | assumption | apply Dev.Keeps.refl | apply Dev.Keeps.step Dev.emit_keeps | apply Dev.Keeps.ite
      | apply Dev.Keeps.foldl | (show (_ : Bool) = _; decide +kernel) | (show _ ∈ _; decide +kernel) | (show _ < _; decide +kernel)
      | split | apply Dev.Keeps.set_feedOff | dsimp only

theorem execPortList_frame {h : CmdHdr} {first : Fin 65536} {s t : State} (h : execPortList h first s = .next t) : s.Keeps [] [.cmds,
    .out] t := by
  refine onDev_frame ?_ h
  with_reducible repeat'
    first
      | intro x | assumption | apply Dev.Keeps.refl | apply Dev.Keeps.step Dev.badParam_keeps | apply Dev.Keeps.step Dev.finish_keeps
      | apply Dev.moduleCommand_keeps | apply Dev.Keeps.ite | apply Dev.Keeps.foldl | (show (_ : Bool) = _; decide +kernel)
      | (show _ ∈ _; decide +kernel) | (show _ < _; decide +kernel) | split | dsimp only

theorem execEndpointList_frame {h : CmdHdr} {first : Word} {s t : State} (h : execEndpointList h first s = .next t) : s.Keeps [] [.cmds,
    .out] t := by
  refine onDev_frame ?_ h
  with_reducible repeat'
    first
      | intro x | assumption | apply Dev.Keeps.refl | apply Dev.Keeps.step Dev.finish_keeps | apply Dev.moduleCommand_keeps
      | apply Dev.Keeps.ite | apply Dev.Keeps.foldl | (show (_ : Bool) = _; decide +kernel) | (show _ ∈ _; decide +kernel)
      | (show _ < _; decide +kernel) | split | dsimp only

theorem execEndpointInfo_frame {h : CmdHdr} {fpid : Word} {ld : Byte} {s t : State} (h : execEndpointInfo h fpid ld s = .next t) :
    s.Keeps [] [.cmds, .out] t := by
  refine onDev_frame ?_ h
  with_reducible repeat'
    first
      | intro x | assumption | apply Dev.Keeps.refl | apply Dev.command_keeps | apply Dev.Keeps.step Dev.finish_keeps
      | apply Dev.Keeps.ite | apply Dev.Keeps.foldl | (show (_ : Bool) = _; decide +kernel) | (show _ ∈ _; decide +kernel)
      | (show _ < _; decide +kernel) | split | dsimp only

theorem execVitrineInfo_frame {h : CmdHdr} {gvh : Word} {s t : State} (h : execVitrineInfo h gvh s = .next t) : s.Keeps [] [.cmds, .out]
    t := by
  refine onDev_frame ?_ h
  with_reducible repeat'
    first
      | intro x | assumption | apply Dev.Keeps.refl | apply Dev.Keeps.step Dev.finish_keeps | apply Dev.vitrineCommand_keeps
      | apply Dev.Keeps.ite | apply Dev.Keeps.foldl | (show (_ : Bool) = _; decide +kernel) | (show _ ∈ _; decide +kernel)
      | (show _ < _; decide +kernel) | split | dsimp only

theorem execTimeGet_frame {h : CmdHdr} {s t : State} (h : execTimeGet h s = .next t) : s.Keeps [] [.cmds, .out] t := by
  refine onDev_frame ?_ h
  with_reducible repeat'
    first
      | intro x | assumption | apply Dev.Keeps.refl | apply Dev.Keeps.step Dev.finish_keeps | apply Dev.moduleCommand_keeps
      | apply Dev.Keeps.ite | apply Dev.Keeps.foldl | (show (_ : Bool) = _; decide +kernel) | (show _ ∈ _; decide +kernel)
      | (show _ < _; decide +kernel) | split | dsimp only

theorem execScheduleCancel_frame {h : CmdHdr} {id : Fin 65536} {s t : State} (h : execScheduleCancel h id s = .next t) : s.Keeps []
    [.cmds, .out, .scheduled] t := by
  refine onDev_frame ?_ h
  with_reducible repeat'
    first
      | intro x | assumption | apply Dev.Keeps.refl | apply Dev.Keeps.step Dev.finish_keeps | apply Dev.moduleCommand_keeps
      | apply Dev.Keeps.ite | apply Dev.Keeps.foldl | (show (_ : Bool) = _; decide +kernel) | (show _ ∈ _; decide +kernel)
      | (show _ < _; decide +kernel) | split | apply Dev.Keeps.set_cmds_scheduled | apply Dev.Keeps.set_cmds
      | apply Dev.Keeps.set_scheduled | dsimp only

theorem execRangeSet_frame {h : CmdHdr} {entry flags : Byte} {base limit attr fpid : Word} {addr : Nat} {s t : State} (h : execRangeSet
    h entry flags base limit attr fpid addr s = .next t) : s.Keeps [.EBR_PFLOG_HEAD, .EBR_RAT_ATTR, .EBR_RAT_BASE, .EBR_RAT_LIMIT,
    .EBR_RAT_PFDISC_HI, .EBR_RAT_PFDISC_LO, .EBR_RAT_TARGET, .EBR_RAT_XLATE_HI, .EBR_RAT_XLATE_LO] [.cmds, .ctrs, .out, .pfLines,
    .pfLog, .pfSeq] t := by
  refine onDev_frame ?_ h
  with_reducible repeat'
    first
      | intro x | assumption | apply Dev.Keeps.refl | apply Dev.Keeps.mark | apply Dev.Keeps.put | apply Dev.Keeps.put64
      | apply Dev.Keeps.step Dev.badParam_keeps | apply Dev.Keeps.step Dev.entryChanged_keeps | apply Dev.Keeps.step Dev.finish_keeps
      | apply Dev.moduleCommand_keeps | apply Dev.Keeps.ite | apply Dev.Keeps.foldl | (show (_ : Bool) = _; decide +kernel)
      | (show _ ∈ _; decide +kernel) | (show _ < _; decide +kernel) | split | dsimp only

theorem execCatalogueConfig_frame {h : CmdHdr} {scope dest : Byte} {count : Fin 65536} {first period ring : Word} {addr : Nat} {s t :
    State} (h : execCatalogueConfig h scope dest count first period ring addr s = .next t) : s.Keeps [.TEL_CAT_WPTR, .VMF_CAT_ADDR_HI,
    .VMF_CAT_ADDR_LO, .VMF_CAT_SIZE, .VMF_CAT_WPTR] [.cats, .cmds, .out, .ringRecords] t := by
  refine onDev_frame ?_ h
  with_reducible repeat'
    first
      | intro x | assumption | apply Dev.Keeps.refl | apply Dev.Keeps.step Dev.finish_keeps | apply Dev.moduleCommand_keeps
      | apply Dev.Keeps.step Dev.startCat_keeps | apply Dev.Keeps.ite | apply Dev.Keeps.foldl | (show (_ : Bool) = _; decide +kernel)
      | (show _ ∈ _; decide +kernel) | (show _ < _; decide +kernel) | split | dsimp only

theorem execSpecimenConfig_frame {h : CmdHdr} {on k : Byte} {mask : Fin 65536} {port gvh ring : Word} {addr : Nat} {s t : State} (h :
    execSpecimenConfig h on k mask port gvh ring addr s = .next t) : s.Keeps [.TEL_SPC_WPTR, .VMF_SPC_ADDR_HI, .VMF_SPC_ADDR_LO,
    .VMF_SPC_SIZE, .VMF_SPC_WPTR] [.cmds, .out, .ringRecords, .spcs] t := by
  refine onDev_frame ?_ h
  with_reducible repeat'
    first
      | intro x | assumption | apply Dev.Keeps.refl | apply Dev.Keeps.put64 | apply Dev.Keeps.put
      | apply Dev.Keeps.step Dev.finish_keeps | apply Dev.moduleCommand_keeps | apply Dev.Keeps.step Dev.setSpc_keeps
      | apply Dev.Keeps.ite | apply Dev.Keeps.foldl | (show (_ : Bool) = _; decide +kernel) | (show _ ∈ _; decide +kernel)
      | (show _ < _; decide +kernel) | split | apply Dev.Keeps.set_ringRecords | dsimp only

theorem execCounterClearSticky_frame {h : CmdHdr} {bank : Word} {first count : Byte} {s t : State} (h : execCounterClearSticky h bank
    first count s = .next t) : s.Keeps recordRegs (.cmds :: recordParts) t := by
  refine onDev_frame ?_ h
  with_reducible repeat'
    first
      | intro x | assumption | apply Dev.Keeps.refl | apply Dev.Keeps.step Dev.badParam_keeps
      | apply Dev.Keeps.step Dev.clearSticky_keeps | apply Dev.Keeps.step Dev.finish_keeps | apply Dev.moduleCommand_keeps
      | apply Dev.Keeps.ite | apply Dev.Keeps.foldl | (show (_ : Bool) = _; decide +kernel) | (show _ ∈ _; decide +kernel)
      | (show _ < _; decide +kernel) | split | dsimp only

theorem execCatalogueSnapshot_frame {tenant : Option (Fin 1024)} {s t : State} (h : execCatalogueSnapshot tenant s = .next t) : s.Keeps
    (.TEL_CAT_WPTR :: .TEL_EVENTS :: .VMF_CAT_WPTR :: recordRegs) (.cats :: recordParts) t := by
  refine onDev_frame ?_ h
  with_reducible repeat'
    first
      | intro x | assumption | apply Dev.Keeps.refl | apply Dev.Keeps.step Dev.takeInstant_keeps | apply Dev.Keeps.ite
      | apply Dev.Keeps.foldl | (show (_ : Bool) = _; decide +kernel) | (show _ ∈ _; decide +kernel) | (show _ < _; decide +kernel)
      | split | dsimp only

theorem execSpecimenSample_frame {tlp : Sampled} {s t : State} (h : execSpecimenSample tlp s = .next t) : s.Keeps [] [.samples, .spcs] t
    := by
  refine onDev_frame ?_ h
  with_reducible repeat'
    first
      | intro x | assumption | apply Dev.Keeps.refl | apply Dev.Keeps.forEach | apply Dev.Keeps.step Dev.sampleFor_keeps
      | apply Dev.Keeps.ite | apply Dev.Keeps.foldl | (show (_ : Bool) = _; decide +kernel) | (show _ ∈ _; decide +kernel)
      | (show _ < _; decide +kernel) | split | dsimp only

theorem execTelModeChanged_frame {which : Fin 3} {on : Bool} {s t : State} (h : execTelModeChanged which on s = .next t) : s.Keeps
    (.TEL_MODE :: recordRegs) recordParts t := by
  refine onDev_frame ?_ h
  with_reducible repeat'
    first
      | intro x | assumption | apply Dev.Keeps.refl | apply Dev.Keeps.step (Dev.setTel_keeps ?_) | apply Dev.Keeps.ite
      | apply Dev.Keeps.foldl | (show (_ : Bool) = _; decide +kernel) | (show _ ∈ _; decide +kernel) | (show _ < _; decide +kernel)
      | split | dsimp only

theorem execVitrineCreate_frame {h : CmdHdr} {fpid : Word} {lvid : Fin 65536} {nvdp cto : Byte} {flags minimum quota : Word} {shapers
    channels : Byte} {s t : State} (h : execVitrineCreate h fpid lvid nvdp cto flags minimum quota shapers channels s = .next t) :
    s.Keeps (.BSN_EVENTS :: .BSN_Q_CFG :: .BSN_RESERVED :: .BSN_SHARED_SIZE :: .LNA_ALIGN :: .LNA_LANE_STATE :: .LNA_MRG_RESULT ::
    .LNA_RX_EQ :: .LNA_TRAIN_REF :: .LNA_TX_EQ :: .PRT_PORT_STATUS :: .TRK_FREE :: .TRK_VIT_QUOTA :: .VIT_PORT :: .VIT_STATE :: .VMF_GVH
    :: .VMF_ID :: recordRegs) (.cmds :: .eqReported :: .homes :: .lanes :: .owesDetect :: .owesDrs :: .ports :: .slots :: recordParts) t
    := by
  refine onDev_frame ?_ h
  with_reducible repeat'
    first
      | intro x | assumption | apply Dev.Keeps.refl | apply Dev.Keeps.step Dev.badParam_keeps | apply Dev.command_keeps
      | apply Dev.Keeps.step Dev.createVitrine_keeps | apply Dev.Keeps.ite | apply Dev.Keeps.foldl
      | (show (_ : Bool) = _; decide +kernel) | (show _ ∈ _; decide +kernel) | (show _ < _; decide +kernel) | split | dsimp only

theorem execVitrineDestroy_frame {h : CmdHdr} {gvh : Word} {s t : State} (h : execVitrineDestroy h gvh s = .next t) : s.Keeps (.ATT_CTL
    :: .ATT_EP_HI :: .ATT_EP_LO :: .ATT_FPID :: .ATT_HOST_HI :: .ATT_HOST_LO :: .BSN_Q_CFG :: .BSN_Q_STATUS :: .BSN_RESERVED ::
    .BSN_SHARED_SIZE :: .EBR_CRD_AVAIL :: .EBR_CRD_GRANT :: .EBR_LOCK :: .EBR_PFLOG_HEAD :: .EBR_RAT_PFDISC_HI :: .EBR_RAT_PFDISC_LO ::
    .MBX_CH_STATUS :: .PIN_CTL :: .PIN_DST :: .PIN_OLD :: .PIN_SRC :: .PIN_TCUT_HI :: .PIN_TCUT_LO :: .SLC_CONT_STATE :: .TRK_CPL_RSV ::
    .TRK_FREE :: .TRK_VIT_QUOTA :: .TUN_CE_GEOM :: .TUN_CE_IRQ :: .TUN_CE_MODE :: .TUN_CE_SCANOUT :: .TUN_CE_STATUS :: .TUN_CE_STRIDE ::
    .VIT_EVENTS :: .VIT_PORT :: .VIT_STATE :: .VMF_BME :: .VMF_CAT_ADDR_HI :: .VMF_CAT_ADDR_LO :: .VMF_CAT_SIZE :: .VMF_CAT_WPTR ::
    .VMF_CPL_TMO :: .VMF_EVENT_MASK :: .VMF_GVH :: .VMF_ID :: .VMF_SPC_ADDR_HI :: .VMF_SPC_ADDR_LO :: .VMF_SPC_SIZE :: .VMF_SPC_WPTR ::
    .VMF_VERSION :: .WR_Q_DRR :: recordRegs) (.arrived :: .atts :: .cats :: .cellsFree :: .cfg :: .chans :: .cmds :: .cores :: .dwins ::
    .endpoints :: .engines :: .heldTlps :: .homes :: .lockSince :: .lockSrc :: .outs :: .owesDetect :: .pfLog :: .pfSeq :: .pins ::
    .queues :: .samples :: .slots :: .spcs :: .trk :: .vmfs :: .vports :: .winFetches :: .winReads :: .wins :: recordParts) t := by
  refine onDev_frame ?_ h
  with_reducible repeat'
    first
      | intro x | assumption | apply Dev.Keeps.refl | apply Dev.Keeps.step Dev.endWaiting_keeps
      | apply Dev.Keeps.step Dev.finish_keeps | apply Dev.Keeps.step Dev.releaseVitrine_keeps
      | apply Dev.Keeps.step Dev.startDestroy_keeps | apply Dev.vitrineCommand_keeps | apply Dev.Keeps.step Dev.waitFor_keeps
      | apply Dev.Keeps.ite | apply Dev.Keeps.foldl | (show (_ : Bool) = _; decide +kernel) | (show _ ∈ _; decide +kernel)
      | (show _ < _; decide +kernel) | split | dsimp only

theorem execBindEndpoint_frame {h : CmdHdr} {gvh fpid : Word} {ld k cls : Byte} {share : Fin 65536} {far : RemoteEp} {s t : State} (h :
    execBindEndpoint h gvh fpid ld k cls share far s = .next t) : s.Keeps (.ATT_CTL :: .ATT_EP_HI :: .ATT_EP_LO :: .ATT_FPID ::
    .ATT_HOST_HI :: .ATT_HOST_LO :: .EBR_CRD_AUDIT :: .EBR_CRD_AVAIL :: .EBR_CRD_GRANT :: .PIN_CTL :: .PIN_DST :: .PIN_OLD :: .PIN_SRC
    :: .PIN_TCUT_HI :: .PIN_TCUT_LO :: .RTE_EVENTS :: .TRK_CPL_RSV :: .TRK_FREE :: recordRegs) (.arrived :: .atts :: .cmds :: .dwins ::
    .endpoints :: .limited :: .pins :: .slots :: .vports :: .wins :: recordParts) t := by
  refine onDev_frame ?_ h
  with_reducible repeat'
    first
      | intro x | assumption | apply Dev.Keeps.refl | apply Dev.Keeps.step Dev.bindEndpoint_keeps | apply Dev.vitrineCommand_keeps
      | apply Dev.Keeps.ite | apply Dev.Keeps.foldl | (show (_ : Bool) = _; decide +kernel) | (show _ ∈ _; decide +kernel)
      | (show _ < _; decide +kernel) | split | dsimp only

theorem execUnbindEndpoint_frame {h : CmdHdr} {gvh : Word} {k : Byte} {s t : State} (h : execUnbindEndpoint h gvh k s = .next t) :
    s.Keeps (.ATT_CTL :: .ATT_EP_HI :: .ATT_EP_LO :: .ATT_FPID :: .ATT_HOST_HI :: .ATT_HOST_LO :: .BSN_Q_STATUS :: .EBR_CRD_AVAIL ::
    .EBR_CRD_GRANT :: .EBR_LOCK :: .EBR_PFLOG_HEAD :: .EBR_RAT_PFDISC_HI :: .EBR_RAT_PFDISC_LO :: .PIN_CTL :: .PIN_DST :: .PIN_OLD ::
    .PIN_SRC :: .PIN_TCUT_HI :: .PIN_TCUT_LO :: .TRK_CPL_RSV :: .TRK_FREE :: .TUN_CE_GEOM :: .TUN_CE_IRQ :: .TUN_CE_MODE ::
    .TUN_CE_SCANOUT :: .TUN_CE_STATUS :: .TUN_CE_STRIDE :: .WR_Q_DRR :: recordRegs) (.arrived :: .atts :: .cellsFree :: .cmds :: .cores
    :: .dwins :: .endpoints :: .engines :: .lockSince :: .lockSrc :: .outs :: .pfLog :: .pfSeq :: .pins :: .queues :: .slots :: .trk ::
    .vports :: .winFetches :: .winReads :: .wins :: recordParts) t := by
  refine onDev_frame ?_ h
  with_reducible repeat'
    first
      | intro x | assumption | apply Dev.Keeps.refl | apply Dev.Keeps.step Dev.finish_keeps
      | apply Dev.Keeps.step Dev.startUnbind_keeps | apply Dev.vitrineCommand_keeps | apply Dev.Keeps.step Dev.waitFor_keeps
      | apply Dev.Keeps.ite | apply Dev.Keeps.foldl | (show (_ : Bool) = _; decide +kernel) | (show _ ∈ _; decide +kernel)
      | (show _ < _; decide +kernel) | split | dsimp only

theorem execVitrineSet_frame {h : CmdHdr} {gvh : Word} {cto flags : Byte} {s t : State} (h : execVitrineSet h gvh cto flags s = .next t)
    : s.Keeps [] [.cmds, .out, .vits] t := by
  refine onDev_frame ?_ h
  with_reducible repeat'
    first
      | intro x | assumption | apply Dev.Keeps.refl | apply Dev.Keeps.step Dev.badParam_keeps | apply Dev.Keeps.step Dev.finish_keeps
      | apply Dev.Keeps.step Dev.setVit_keeps | apply Dev.vitrineCommand_keeps | apply Dev.Keeps.ite | apply Dev.Keeps.foldl
      | (show (_ : Bool) = _; decide +kernel) | (show _ ∈ _; decide +kernel) | (show _ < _; decide +kernel) | split | dsimp only

theorem execVitrineHotReset_frame {lvid : Fin 1024} {s t : State} (h : execVitrineHotReset lvid s = .next t) : s.Keeps (.ATT_CTL ::
    .ATT_EP_HI :: .ATT_EP_LO :: .ATT_FPID :: .ATT_HOST_HI :: .ATT_HOST_LO :: .BSN_Q_STATUS :: .EBR_LOCK :: .LNA_ALIGN :: .LNA_LANE_STATE
    :: .LNA_MRG_RESULT :: .LNA_RX_EQ :: .LNA_TRAIN_REF :: .LNA_TX_EQ :: .MBX_CH_STATUS :: .PRT_PORT_STATUS :: .SLC_CONT_STATE ::
    .TUN_CE_GEOM :: .TUN_CE_IRQ :: .TUN_CE_MODE :: .TUN_CE_SCANOUT :: .TUN_CE_STATUS :: .TUN_CE_STRIDE :: .VIT_STATE :: .VMF_BME ::
    .VMF_CAT_ADDR_HI :: .VMF_CAT_ADDR_LO :: .VMF_CAT_SIZE :: .VMF_CAT_WPTR :: .VMF_CPL_TMO :: .VMF_EVENT_MASK :: .VMF_SPC_ADDR_HI ::
    .VMF_SPC_ADDR_LO :: .VMF_SPC_SIZE :: .VMF_SPC_WPTR :: .WR_Q_DRR :: recordRegs) (.arrived :: .atts :: .cats :: .cellsFree :: .cfg ::
    .chans :: .cmds :: .dwins :: .endpoints :: .engines :: .eqReported :: .heldTlps :: .lanes :: .lockSince :: .lockSrc :: .outs ::
    .owesDetect :: .owesDrs :: .ports :: .queues :: .samples :: .spcs :: .trk :: .vmfs :: .vports :: recordParts) t := by
  refine onDev_frame ?_ h
  with_reducible repeat'
    first
      | intro x | assumption | apply Dev.Keeps.refl | apply Dev.Keeps.step Dev.hotReset_keeps | apply Dev.Keeps.ite
      | apply Dev.Keeps.foldl | (show (_ : Bool) = _; decide +kernel) | (show _ ∈ _; decide +kernel) | (show _ < _; decide +kernel)
      | split | dsimp only

theorem execInflightCountZero_frame {lvid : Fin 1024} {k : Option (Fin 64)} {s t : State} (h : execInflightCountZero lvid k s = .next t)
    : s.Keeps (.ATT_CTL :: .ATT_EP_HI :: .ATT_EP_LO :: .ATT_FPID :: .ATT_HOST_HI :: .ATT_HOST_LO :: .BSN_Q_CFG :: .BSN_Q_STATUS ::
    .BSN_RESERVED :: .BSN_SHARED_SIZE :: .EBR_CRD_AVAIL :: .EBR_CRD_GRANT :: .EBR_LOCK :: .EBR_PFLOG_HEAD :: .EBR_RAT_PFDISC_HI ::
    .EBR_RAT_PFDISC_LO :: .LNA_ALIGN :: .LNA_LANE_STATE :: .LNA_MRG_RESULT :: .LNA_RX_EQ :: .LNA_TRAIN_REF :: .LNA_TX_EQ ::
    .MBX_CH_STATUS :: .PIN_CTL :: .PIN_DST :: .PIN_OLD :: .PIN_SRC :: .PIN_TCUT_HI :: .PIN_TCUT_LO :: .PRT_PORT_STATUS ::
    .SLC_CONT_STATE :: .TRK_CPL_RSV :: .TRK_FREE :: .TRK_VIT_QUOTA :: .TUN_CE_GEOM :: .TUN_CE_IRQ :: .TUN_CE_MODE :: .TUN_CE_SCANOUT ::
    .TUN_CE_STATUS :: .TUN_CE_STRIDE :: .VIT_EVENTS :: .VIT_PORT :: .VIT_STATE :: .VMF_BME :: .VMF_CAT_ADDR_HI :: .VMF_CAT_ADDR_LO ::
    .VMF_CAT_SIZE :: .VMF_CAT_WPTR :: .VMF_CPL_TMO :: .VMF_EVENT_MASK :: .VMF_GVH :: .VMF_ID :: .VMF_SPC_ADDR_HI :: .VMF_SPC_ADDR_LO ::
    .VMF_SPC_SIZE :: .VMF_SPC_WPTR :: .VMF_VERSION :: .WR_Q_DRR :: recordRegs) (.arrived :: .atts :: .cats :: .cellsFree :: .cfg ::
    .chans :: .cmds :: .cores :: .dwins :: .endpoints :: .engines :: .eqReported :: .homes :: .lanes :: .lockSince :: .lockSrc :: .outs
    :: .owesDetect :: .owesDrs :: .pfLog :: .pfSeq :: .pins :: .ports :: .queues :: .samples :: .slots :: .spcs :: .trk :: .vmfs ::
    .vports :: .winFetches :: .winReads :: .wins :: recordParts) t := by
  refine onDev_frame ?_ h
  with_reducible repeat'
    first
      | intro x | assumption | apply Dev.Keeps.refl | apply Dev.Keeps.step Dev.endFlow_keeps
      | apply Dev.Keeps.step Dev.finishFreeze_keeps | apply Dev.Keeps.step Dev.finishUnbind_keeps | apply Dev.Keeps.ite
      | apply Dev.Keeps.foldl | (show (_ : Bool) = _; decide +kernel) | (show _ ∈ _; decide +kernel) | (show _ < _; decide +kernel)
      | split | dsimp only

theorem execInflightReport_frame {modul : Fin 8192} {gvh : Fin 8388608} {count : Nat} {s t : State} (h : execInflightReport modul gvh
    count s = .next t) : s.Keeps [] [.vits] t := by
  refine onDev_frame ?_ h
  with_reducible repeat'
    first
      | intro x | assumption | apply Dev.Keeps.refl | apply Dev.Keeps.step Dev.setVit_keeps | apply Dev.Keeps.ite
      | apply Dev.Keeps.foldl | (show (_ : Bool) = _; decide +kernel) | (show _ ∈ _; decide +kernel) | (show _ < _; decide +kernel)
      | split | dsimp only

theorem execSquashTimeout_frame {lvid : Fin 1024} {k : Option (Fin 64)} {s t : State} (h : execSquashTimeout lvid k s = .next t) :
    s.Keeps (.ATT_CTL :: .ATT_EP_HI :: .ATT_EP_LO :: .ATT_FPID :: .ATT_HOST_HI :: .ATT_HOST_LO :: .BSN_Q_CFG :: .BSN_Q_STATUS ::
    .BSN_RESERVED :: .BSN_SHARED_SIZE :: .EBR_CRD_AVAIL :: .EBR_CRD_GRANT :: .EBR_LOCK :: .EBR_PFLOG_HEAD :: .EBR_RAT_PFDISC_HI ::
    .EBR_RAT_PFDISC_LO :: .LNA_ALIGN :: .LNA_LANE_STATE :: .LNA_MRG_RESULT :: .LNA_RX_EQ :: .LNA_TRAIN_REF :: .LNA_TX_EQ ::
    .MBX_CH_STATUS :: .PIN_CTL :: .PIN_DST :: .PIN_OLD :: .PIN_SRC :: .PIN_TCUT_HI :: .PIN_TCUT_LO :: .PRT_PORT_STATUS ::
    .SLC_CONT_STATE :: .TRK_CPL_RSV :: .TRK_FREE :: .TRK_VIT_QUOTA :: .TUN_CE_GEOM :: .TUN_CE_IRQ :: .TUN_CE_MODE :: .TUN_CE_SCANOUT ::
    .TUN_CE_STATUS :: .TUN_CE_STRIDE :: .VIT_EVENTS :: .VIT_PORT :: .VIT_STATE :: .VMF_BME :: .VMF_CAT_ADDR_HI :: .VMF_CAT_ADDR_LO ::
    .VMF_CAT_SIZE :: .VMF_CAT_WPTR :: .VMF_CPL_TMO :: .VMF_EVENT_MASK :: .VMF_GVH :: .VMF_ID :: .VMF_SPC_ADDR_HI :: .VMF_SPC_ADDR_LO ::
    .VMF_SPC_SIZE :: .VMF_SPC_WPTR :: .VMF_VERSION :: .WR_Q_DRR :: recordRegs) (.arrived :: .atts :: .cats :: .cellsFree :: .cfg ::
    .chans :: .cmds :: .cores :: .dwins :: .endpoints :: .engines :: .eqReported :: .homes :: .lanes :: .lockSince :: .lockSrc :: .outs
    :: .owesDetect :: .owesDrs :: .pfLog :: .pfSeq :: .pins :: .ports :: .queues :: .samples :: .slots :: .spcs :: .trk :: .vmfs ::
    .vports :: .winFetches :: .winReads :: .wins :: recordParts) t := by
  refine onDev_frame ?_ h
  with_reducible repeat'
    first
      | intro x | assumption | apply Dev.Keeps.refl | apply Dev.Keeps.step Dev.endFlow_keeps
      | apply Dev.Keeps.step Dev.finishUnbind_keeps | apply Dev.Keeps.step (Dev.raise_keeps ?_) | apply Dev.Keeps.ite
      | apply Dev.Keeps.foldl | (show (_ : Bool) = _; decide +kernel) | (show _ ∈ _; decide +kernel) | (show _ < _; decide +kernel)
      | split | dsimp only

theorem execFreeze_frame {h : CmdHdr} {gvh : Word} {tcut : Nat} {s t : State} (h : execFreeze h gvh tcut s = .next t) : s.Keeps []
    [.arrived, .cmds, .out, .vits] t := by
  refine onDev_frame ?_ h
  with_reducible repeat'
    first
      | intro x | assumption | apply Dev.Keeps.refl | apply Dev.Keeps.forEach | apply Dev.Keeps.step Dev.finish_keeps
      | apply Dev.Keeps.step Dev.setVit_keeps | apply Dev.Keeps.step Dev.tell_keeps | apply Dev.vitrineCommand_keeps
      | apply Dev.Keeps.step Dev.waitFor_keeps | apply Dev.Keeps.ite | apply Dev.Keeps.foldl | (show (_ : Bool) = _; decide +kernel)
      | (show _ ∈ _; decide +kernel) | (show _ < _; decide +kernel) | split | dsimp only

theorem execFreezeCutPoint_frame {lvid : Fin 1024} {s t : State} (h : execFreezeCutPoint lvid s = .next t) : s.Keeps [.BSN_Q_STATUS,
    .PWR_WAKE, .VIT_STATE] [.cmds, .endpoints, .latched, .queues, .vits] t := by
  refine onDev_frame ?_ h
  with_reducible repeat'
    first
      | intro x | assumption | apply Dev.Keeps.refl | apply Dev.Keeps.step Dev.freezeCut_keeps | apply Dev.Keeps.ite
      | apply Dev.Keeps.foldl | (show (_ : Bool) = _; decide +kernel) | (show _ ∈ _; decide +kernel) | (show _ < _; decide +kernel)
      | split | dsimp only

theorem execFreezeTimeout_frame {lvid : Fin 1024} {s t : State} (h : execFreezeTimeout lvid s = .next t) : s.Keeps (.ATT_CTL ::
    .ATT_EP_HI :: .ATT_EP_LO :: .ATT_FPID :: .ATT_HOST_HI :: .ATT_HOST_LO :: .BSN_Q_STATUS :: .DOC_CORE_STATUS :: .DOC_EVENTS ::
    .DOC_WSTORE_LOST :: .EBR_CRD_AVAIL :: .EBR_EVENTS :: .EBR_LOCK :: .EBR_PFLOG_HEAD :: .EBR_RAT_PFDISC_HI :: .EBR_RAT_PFDISC_LO ::
    .FLL_LINK_STATUS :: .FLL_REPLAY :: .LNA_ALIGN :: .LNA_LANE_STATE :: .LNA_MRG_RESULT :: .LNA_RX_EQ :: .LNA_TRAIN_REF :: .LNA_TX_EQ ::
    .MBX_CH_STATUS :: .PIN_CTL :: .PIN_OLD :: .PRT_PORT_STATUS :: .RTE_EVENTS :: .RTE_GRP_SLOT :: .SLC_CONT_ESEQ_HI :: .SLC_CONT_ESEQ_LO
    :: .SLC_CONT_STATE :: .TUN_CE_GEOM :: .TUN_CE_IRQ :: .TUN_CE_MODE :: .TUN_CE_SCANOUT :: .TUN_CE_STATUS :: .TUN_CE_STRIDE ::
    .VIT_EVENTS :: .VIT_STATE :: .VMF_BME :: .VMF_CAT_ADDR_HI :: .VMF_CAT_ADDR_LO :: .VMF_CAT_SIZE :: .VMF_CAT_WPTR :: .VMF_CPL_TMO ::
    .VMF_EVENT_MASK :: .VMF_SPC_ADDR_HI :: .VMF_SPC_ADDR_LO :: .VMF_SPC_SIZE :: .VMF_SPC_WPTR :: .WR_Q_DRR :: recordRegs) (.arrived ::
    .atts :: .cats :: .cellsFree :: .cfg :: .chans :: .cmds :: .cores :: .dwins :: .endpoints :: .engines :: .eqReported :: .heldTlps ::
    .lanes :: .links :: .lockSince :: .lockSrc :: .notices :: .outs :: .owesDetect :: .owesDrs :: .pausedLinks :: .pfLog :: .pfSeq ::
    .pins :: .ports :: .queues :: .samples :: .spcs :: .trk :: .vmfs :: .vports :: .winFetches :: .winReads :: .winStores :: .wins ::
    .withheld :: recordParts) t := by
  refine onDev_frame ?_ h
  with_reducible repeat'
    first
      | intro x | assumption | apply Dev.Keeps.refl | apply Dev.Keeps.forEach | apply Dev.Keeps.step Dev.abandonFreeze_keeps
      | apply Dev.Keeps.step Dev.applyHeld_keeps | apply Dev.Keeps.step (Dev.raise_keeps ?_) | apply Dev.Keeps.step Dev.tell_keeps
      | apply Dev.Keeps.ite | apply Dev.Keeps.foldl | (show (_ : Bool) = _; decide +kernel) | (show _ ∈ _; decide +kernel)
      | (show _ < _; decide +kernel) | split | dsimp only

theorem execSave_frame {h : CmdHdr} {gvh : Word} {s t : State} (h : execSave h gvh s = .next t) : s.Keeps [.PWR_WAKE, .VIT_STATE]
    [.arrived, .cmds, .latched, .out, .saves, .vits] t := by
  refine onDev_frame ?_ h
  with_reducible repeat'
    first
      | intro x | assumption | apply Dev.Keeps.refl | apply Dev.Keeps.step Dev.finish_keeps | apply Dev.Keeps.step Dev.setVit_keeps
      | apply Dev.Keeps.step Dev.setVitState_keeps | apply Dev.Keeps.step Dev.tellRegistrar_keeps | apply Dev.vitrineCommand_keeps
      | apply Dev.Keeps.ite | apply Dev.Keeps.foldl | (show (_ : Bool) = _; decide +kernel) | (show _ ∈ _; decide +kernel)
      | (show _ < _; decide +kernel) | split | apply Dev.Keeps.set_saves | dsimp only

theorem execRestore_frame {h : CmdHdr} {gvh fpid : Word} {lvid source : Fin 65536} {image : Option Image} {s t : State} (h : execRestore
    h gvh fpid lvid source image s = .next t) : s.Keeps (.ATT_CTL :: .ATT_EP_HI :: .ATT_EP_LO :: .ATT_FPID :: .ATT_HOST_HI ::
    .ATT_HOST_LO :: .BSN_EVENTS :: .BSN_Q_CFG :: .BSN_RESERVED :: .BSN_SHARED_SIZE :: .EBR_CRD_AUDIT :: .EBR_CRD_AVAIL :: .EBR_CRD_GRANT
    :: .PIN_CTL :: .PIN_DST :: .PIN_OLD :: .PIN_SRC :: .PIN_TCUT_HI :: .PIN_TCUT_LO :: .RTE_EVENTS :: .TRK_CPL_RSV :: .TRK_FREE ::
    .TRK_VIT_QUOTA :: .VIT_EVENTS :: .VIT_PORT :: .VIT_STATE :: .VMF_CPL_TMO :: .VMF_EVENT_MASK :: .VMF_GVH :: .VMF_ID :: .WR_Q_CFG ::
    .WR_SHP_BURST :: .WR_SHP_RATE :: recordRegs) (.arrived :: .atts :: .cfg :: .cmds :: .dwins :: .limited :: .pins :: .shapers ::
    .slots :: .vmfs :: .vports :: .wins :: recordParts) t := by
  refine onDev_frame ?_ h
  with_reducible repeat'
    first
      | intro x | assumption | apply Dev.Keeps.refl | apply Dev.command_keeps | apply Dev.Keeps.step Dev.restoreVitrine_keeps
      | apply Dev.Keeps.ite | apply Dev.Keeps.foldl | (show (_ : Bool) = _; decide +kernel) | (show _ ∈ _; decide +kernel)
      | (show _ < _; decide +kernel) | split | dsimp only

theorem execThaw_frame {h : CmdHdr} {gvh : Word} {modul : Fin 65536} {tcut : Nat} {s t : State} (h : execThaw h gvh modul tcut s = .next
    t) : s.Keeps [] [.arrived, .cmds, .endpoints, .out, .vits] t := by
  refine onDev_frame ?_ h
  with_reducible repeat'
    first
      | intro x | assumption | apply Dev.Keeps.refl | apply Dev.Keeps.when | apply Dev.Keeps.forEach
      | apply Dev.Keeps.step Dev.badParam_keeps | apply Dev.command_keeps | apply Dev.Keeps.step Dev.finish_keeps
      | apply Dev.orWait_keeps | apply Dev.Keeps.step Dev.setBound_keeps | apply Dev.Keeps.step Dev.setVit_keeps
      | apply Dev.Keeps.step Dev.tell_keeps | apply Dev.Keeps.step Dev.waitFor_keeps | apply Dev.Keeps.ite | apply Dev.Keeps.foldl
      | (show (_ : Bool) = _; decide +kernel) | (show _ ∈ _; decide +kernel) | (show _ < _; decide +kernel) | split | dsimp only

theorem execThawCutPoint_frame {cut : ThawCut} {s t : State} (h : execThawCutPoint cut s = .next t) : s.Keeps (.ATT_CTL :: .ATT_EP_HI ::
    .ATT_EP_LO :: .ATT_FPID :: .ATT_HOST_HI :: .ATT_HOST_LO :: .BSN_Q_STATUS :: .DOC_CORE_STATUS :: .DOC_EVENTS :: .DOC_WSTORE_LOST ::
    .EBR_CRD_AVAIL :: .EBR_EVENTS :: .EBR_LOCK :: .EBR_PFLOG_HEAD :: .EBR_RAT_PFDISC_HI :: .EBR_RAT_PFDISC_LO :: .FLL_LINK_STATUS ::
    .FLL_REPLAY :: .LNA_ALIGN :: .LNA_LANE_STATE :: .LNA_MRG_RESULT :: .LNA_RX_EQ :: .LNA_TRAIN_REF :: .LNA_TX_EQ :: .MBX_CH_STATUS ::
    .PIN_CTL :: .PIN_OLD :: .PRT_PORT_STATUS :: .RTE_EVENTS :: .RTE_GRP_SLOT :: .SLC_CONT_ESEQ_HI :: .SLC_CONT_ESEQ_LO ::
    .SLC_CONT_STATE :: .TUN_CE_GEOM :: .TUN_CE_IRQ :: .TUN_CE_MODE :: .TUN_CE_SCANOUT :: .TUN_CE_STATUS :: .TUN_CE_STRIDE :: .VIT_EVENTS
    :: .VIT_STATE :: .VMF_BME :: .VMF_CAT_ADDR_HI :: .VMF_CAT_ADDR_LO :: .VMF_CAT_SIZE :: .VMF_CAT_WPTR :: .VMF_CPL_TMO ::
    .VMF_EVENT_MASK :: .VMF_SPC_ADDR_HI :: .VMF_SPC_ADDR_LO :: .VMF_SPC_SIZE :: .VMF_SPC_WPTR :: .WR_Q_DRR :: recordRegs) (.arrived ::
    .atts :: .cats :: .cellsFree :: .cfg :: .chans :: .cmds :: .cores :: .dwins :: .endpoints :: .engines :: .eqReported :: .heldTlps ::
    .homes :: .lanes :: .links :: .lockSince :: .lockSrc :: .notices :: .outs :: .owesDetect :: .owesDrs :: .pausedLinks :: .pfLog ::
    .pfSeq :: .pins :: .ports :: .queues :: .samples :: .spcs :: .trk :: .vmfs :: .vports :: .winFetches :: .winReads :: .winStores ::
    .wins :: .withheld :: recordParts) t := by
  refine onDev_frame ?_ h
  with_reducible repeat'
    first
      | intro x | assumption | apply Dev.Keeps.refl | apply Dev.Keeps.step Dev.thawCut_keeps | apply Dev.Keeps.ite
      | apply Dev.Keeps.foldl | (show (_ : Bool) = _; decide +kernel) | (show _ ∈ _; decide +kernel) | (show _ < _; decide +kernel)
      | split | dsimp only

theorem execThawCompleteRelease_frame {lvid : Fin 1024} {target : Fin 8192} {s t : State} (h : execThawCompleteRelease lvid target s =
    .next t) : s.Keeps (.ATT_CTL :: .ATT_EP_HI :: .ATT_EP_LO :: .ATT_FPID :: .ATT_HOST_HI :: .ATT_HOST_LO :: .BSN_Q_CFG :: .BSN_Q_STATUS
    :: .BSN_RESERVED :: .BSN_SHARED_SIZE :: .EBR_CRD_AVAIL :: .EBR_CRD_GRANT :: .MBX_CH_STATUS :: .PIN_CTL :: .PIN_DST :: .PIN_OLD ::
    .PIN_SRC :: .PIN_TCUT_HI :: .PIN_TCUT_LO :: .SLC_CONT_STATE :: .TRK_CPL_RSV :: .TRK_FREE :: .TRK_VIT_QUOTA :: .VIT_EVENTS ::
    .VIT_PORT :: .VIT_STATE :: .VMF_BME :: .VMF_CAT_ADDR_HI :: .VMF_CAT_ADDR_LO :: .VMF_CAT_SIZE :: .VMF_CAT_WPTR :: .VMF_CPL_TMO ::
    .VMF_EVENT_MASK :: .VMF_GVH :: .VMF_ID :: .VMF_SPC_ADDR_HI :: .VMF_SPC_ADDR_LO :: .VMF_SPC_SIZE :: .VMF_SPC_WPTR :: .VMF_VERSION ::
    .WR_Q_DRR :: recordRegs) (.arrived :: .atts :: .cats :: .cellsFree :: .cfg :: .chans :: .cmds :: .dwins :: .endpoints :: .heldTlps
    :: .homes :: .outs :: .owesDetect :: .pins :: .queues :: .samples :: .slots :: .spcs :: .trk :: .vmfs :: .vports :: .wins ::
    recordParts) t := by
  refine onDev_frame ?_ h
  with_reducible repeat'
    first
      | intro x | assumption | apply Dev.Keeps.refl | apply Dev.Keeps.when | apply Dev.Keeps.forEach
      | apply Dev.Keeps.step Dev.closeWindow_keeps | apply Dev.Keeps.step Dev.dropHeld_keeps
      | apply Dev.Keeps.step Dev.releaseVitrine_keeps | apply Dev.Keeps.step Dev.setAtt_keeps | apply Dev.Keeps.step Dev.setVit_keeps
      | apply Dev.Keeps.step Dev.stray_keeps | apply Dev.Keeps.step Dev.unreserve_keeps | apply Dev.Keeps.ite | apply Dev.Keeps.foldl
      | (show (_ : Bool) = _; decide +kernel) | (show _ ∈ _; decide +kernel) | (show _ < _; decide +kernel) | split
      | apply Dev.Keeps.set_owesDetect_homes | apply Dev.Keeps.set_homes | apply Dev.Keeps.set_owesDetect | dsimp only

theorem execTimeSourceSet_frame {h : CmdHdr} {source prio : Byte} {signal : Bool} {s t : State} (h : execTimeSourceSet h source prio
    signal s = .next t) : s.Keeps (.TIM_ERR_EST :: .TIM_EVENTS :: .TIM_ROOT :: .TIM_SRC_CFG :: .TIM_STATE :: recordRegs) (.cmds :: .time
    :: recordParts) t := by
  refine onDev_frame ?_ h
  with_reducible repeat'
    first
      | intro x | assumption | apply Dev.Keeps.refl | apply Dev.Keeps.step Dev.badParam_keeps | apply Dev.Keeps.step Dev.finish_keeps
      | apply Dev.moduleCommand_keeps | apply Dev.Keeps.step Dev.setSource_keeps | apply Dev.Keeps.ite | apply Dev.Keeps.foldl
      | (show (_ : Bool) = _; decide +kernel) | (show _ ∈ _; decide +kernel) | (show _ < _; decide +kernel) | split | dsimp only

theorem execSync_frame {port : Fin 512} {received : Option (TimeMsg × Nat × Bool)} {s t : State} (h : execSync port received s = .next
    t) : s.Keeps (.TIM_ERR_EST :: .TIM_EVENTS :: .TIM_ROOT :: .TIM_STATE :: recordRegs) (.routed :: .time :: recordParts) t := by
  refine onDev_frame ?_ h
  with_reducible repeat'
    first
      | intro x | assumption | apply Dev.Keeps.refl | apply Dev.Keeps.step Dev.chooseRoot_keeps
      | apply Dev.Keeps.step Dev.takeSync_keeps | apply Dev.Keeps.step Dev.timeFrame_keeps | apply Dev.Keeps.ite
      | apply Dev.Keeps.foldl | (show (_ : Bool) = _; decide +kernel) | (show _ ∈ _; decide +kernel) | (show _ < _; decide +kernel)
      | split | dsimp only

theorem execDelayReq_frame {port : Fin 512} {arrival : Nat} {replayed : Bool} {s t : State} (h : execDelayReq port arrival replayed s =
    .next t) : s.Keeps [] [.routed] t := by
  refine onDev_frame ?_ h
  with_reducible repeat'
    first
      | intro x | assumption | apply Dev.Keeps.refl | apply Dev.Keeps.step Dev.timeFrame_keeps | apply Dev.Keeps.ite
      | apply Dev.Keeps.foldl | (show (_ : Bool) = _; decide +kernel) | (show _ ∈ _; decide +kernel) | (show _ < _; decide +kernel)
      | split | dsimp only

theorem execParentLinkLost_frame {s t : State} (h : execParentLinkLost s = .next t) : s.Keeps (.TIM_ERR_EST :: .TIM_EVENTS :: .TIM_ROOT
    :: .TIM_STATE :: recordRegs) (.time :: recordParts) t := by
  refine onDev_frame ?_ h
  with_reducible repeat'
    first
      | intro x | assumption | apply Dev.Keeps.refl | apply Dev.Keeps.when | apply Dev.Keeps.step Dev.chooseRoot_keeps
      | apply Dev.Keeps.step Dev.setTimeState_keeps | apply Dev.Keeps.ite | apply Dev.Keeps.foldl
      | (show (_ : Bool) = _; decide +kernel) | (show _ ∈ _; decide +kernel) | (show _ < _; decide +kernel) | split
      | apply Dev.Keeps.set_time | dsimp only

theorem execTimeSourceLost_frame {s t : State} (h : execTimeSourceLost s = .next t) : s.Keeps (.TIM_ERR_EST :: .TIM_EVENTS :: .TIM_ROOT
    :: .TIM_STATE :: recordRegs) (.time :: recordParts) t := by
  refine onDev_frame ?_ h
  with_reducible repeat'
    first
      | intro x | assumption | apply Dev.Keeps.refl | apply Dev.Keeps.when | apply Dev.Keeps.step Dev.chooseRoot_keeps
      | apply Dev.Keeps.step Dev.setTimeState_keeps | apply Dev.Keeps.step (Dev.timeEvent_keeps ?_) | apply Dev.Keeps.ite
      | apply Dev.Keeps.foldl | (show (_ : Bool) = _; decide +kernel) | (show _ ∈ _; decide +kernel) | (show _ < _; decide +kernel)
      | split | apply Dev.Keeps.set_time | dsimp only

theorem execHardwareTimedAction_frame {action : TimedAction} {s t : State} (h : execHardwareTimedAction action s = .next t) : s.Keeps
    (.ATT_CTL :: .ATT_EP_HI :: .ATT_EP_LO :: .ATT_FPID :: .ATT_HOST_HI :: .ATT_HOST_LO :: .BSN_Q_STATUS :: .DOC_CORE_STATUS ::
    .DOC_EVENTS :: .DOC_WSTORE_LOST :: .EBR_CRD_AVAIL :: .EBR_EVENTS :: .EBR_LOCK :: .EBR_PFLOG_HEAD :: .EBR_RAT_PFDISC_HI ::
    .EBR_RAT_PFDISC_LO :: .FLL_LINK_STATUS :: .FLL_REPLAY :: .LNA_ALIGN :: .LNA_LANE_STATE :: .LNA_MRG_RESULT :: .LNA_RX_EQ ::
    .LNA_TRAIN_REF :: .LNA_TX_EQ :: .MBX_CH_STATUS :: .PIN_CTL :: .PIN_DST :: .PIN_OLD :: .PIN_SRC :: .PIN_TCUT_HI :: .PIN_TCUT_LO ::
    .PRT_PORT_STATUS :: .RTE_EVENTS :: .RTE_GRP_SLOT :: .SLC_CONT_ESEQ_HI :: .SLC_CONT_ESEQ_LO :: .SLC_CONT_STATE :: .TEL_CAT_WPTR ::
    .TEL_EVENTS :: .TUN_CE_GEOM :: .TUN_CE_IRQ :: .TUN_CE_MODE :: .TUN_CE_SCANOUT :: .TUN_CE_STATUS :: .TUN_CE_STRIDE :: .VIT_EVENTS ::
    .VIT_STATE :: .VMF_BME :: .VMF_CAT_ADDR_HI :: .VMF_CAT_ADDR_LO :: .VMF_CAT_SIZE :: .VMF_CAT_WPTR :: .VMF_CPL_TMO :: .VMF_EVENT_MASK
    :: .VMF_SPC_ADDR_HI :: .VMF_SPC_ADDR_LO :: .VMF_SPC_SIZE :: .VMF_SPC_WPTR :: .WR_GATE_STAT :: .WR_GATE_STATUS :: .WR_PORT_EVENTS ::
    .WR_PORT_GUARD :: .WR_Q_DRR :: recordRegs) (.arrived :: .atts :: .cats :: .cellsFree :: .cfg :: .chans :: .cmds :: .cores :: .dwins
    :: .endpoints :: .engines :: .eqReported :: .heldTlps :: .homes :: .lanes :: .limited :: .links :: .lockSince :: .lockSrc ::
    .notices :: .outs :: .owesDetect :: .owesDrs :: .pausedLinks :: .pfLog :: .pfSeq :: .pins :: .ports :: .queues :: .samples :: .spcs
    :: .trk :: .vmfs :: .vports :: .winFetches :: .winReads :: .winStores :: .wins :: .withheld :: recordParts) t := by
  refine onDev_frame ?_ h
  with_reducible repeat'
    first
      | intro x | assumption | apply Dev.Keeps.refl | apply Dev.Keeps.when | apply Dev.Keeps.step Dev.act_keeps | apply Dev.Keeps.ite
      | apply Dev.Keeps.foldl | (show (_ : Bool) = _; decide +kernel) | (show _ ∈ _; decide +kernel) | (show _ < _; decide +kernel)
      | split | dsimp only

theorem execLockstepDivergence_frame {pair : Fin 2} {s t : State} (h : execLockstepDivergence pair s = .next t) : s.Keeps
    (.CUR_PAIR_STATUS :: .SLC_INJ_ARMED :: .TEL_MODE :: recordRegs) (.injecting :: .injections :: recordParts) t := by
  refine onDev_frame ?_ h
  with_reducible repeat'
    first
      | intro x | assumption | apply Dev.Keeps.refl | apply Dev.Keeps.step Dev.count_keeps | apply Dev.Keeps.step Dev.setPair_keeps
      | apply Dev.Keeps.step Dev.standbyLost_keeps | apply Dev.underInjection_keeps | apply Dev.Keeps.ite | apply Dev.Keeps.foldl
      | (show (_ : Bool) = _; decide +kernel) | (show _ ∈ _; decide +kernel) | (show _ < _; decide +kernel) | split | dsimp only

theorem execFailover_frame {s t : State} (h : execFailover s = .next t) : s.Keeps (.CUR_PAIR_STATUS :: .MBX_CH_STATUS :: .TEL_MODE ::
    .USH_EVENTS :: .USH_MUD_CTL :: recordRegs) (.chans :: .cmds :: .mud :: recordParts) t := by
  refine onDev_frame ?_ h
  with_reducible repeat'
    first
      | intro x | assumption | apply Dev.Keeps.refl | apply Dev.Keeps.put | apply Dev.Keeps.bump
      | apply Dev.Keeps.step Dev.count_keeps | apply Dev.Keeps.step Dev.mudReset_keeps | apply Dev.Keeps.step Dev.record_keeps
      | apply Dev.Keeps.step Dev.recovered_keeps | apply Dev.Keeps.step Dev.setPair_keeps | apply Dev.Keeps.step (Dev.setTel_keeps ?_)
      | apply Dev.Keeps.step Dev.takeOverCommands_keeps | apply Dev.Keeps.ite | apply Dev.Keeps.foldl
      | (show (_ : Bool) = _; decide +kernel) | (show _ ∈ _; decide +kernel) | (show _ < _; decide +kernel) | split | dsimp only

theorem execPairSelftestDone_frame {passed : Bool} {s t : State} (h : execPairSelftestDone passed s = .next t) : s.Keeps
    (.CUR_PAIR_STATUS :: recordRegs) recordParts t := by
  refine onDev_frame ?_ h
  with_reducible repeat'
    first
      | intro x | assumption | apply Dev.Keeps.refl | apply Dev.Keeps.put | apply Dev.Keeps.step Dev.setPair_keeps
      | apply Dev.Keeps.step Dev.standbyLost_keeps | apply Dev.Keeps.ite | apply Dev.Keeps.foldl
      | (show (_ : Bool) = _; decide +kernel) | (show _ ∈ _; decide +kernel) | (show _ < _; decide +kernel) | split | dsimp only

theorem execTableParity_frame {table : Fin 7} {entry : Word} {both : Bool} {s t : State} (h : execTableParity table entry both s = .next
    t) : s.Keeps (.ATT_CTL :: .ATT_EP_HI :: .ATT_EP_LO :: .ATT_FPID :: .ATT_HOST_HI :: .ATT_HOST_LO :: .GATE_COUNT :: .PIN_CTL ::
    .PIN_DST :: .PIN_OLD :: .PIN_SRC :: .PIN_TCUT_HI :: .PIN_TCUT_LO :: .RTE_GRP_SLOT :: .RTE_MRT :: .SLC_INJ_ARMED :: .TEL_MODE ::
    .WR_GATE_STATUS :: .WR_PORT_GUARD :: .WR_Q_CFG :: recordRegs) (.atts :: .injecting :: .injections :: .masked :: .pins :: .shapers ::
    recordParts) t := by
  refine onDev_frame ?_ h
  with_reducible repeat'
    first
      | intro x | assumption | apply Dev.Keeps.refl | apply Dev.Keeps.step Dev.copyRepaired_keeps
      | apply Dev.Keeps.step Dev.entryInvalid_keeps | apply Dev.Keeps.step Dev.record_keeps | apply Dev.underInjection_keeps
      | apply Dev.Keeps.ite | apply Dev.Keeps.foldl | (show (_ : Bool) = _; decide +kernel) | (show _ ∈ _; decide +kernel)
      | (show _ < _; decide +kernel) | split | dsimp only

theorem execTableScrub_frame {found : List (Fin 7 × Word)} {s t : State} (h : execTableScrub found s = .next t) : s.Keeps [] [.masked] t
    := by
  refine onDev_frame ?_ h
  with_reducible repeat'
    first
      | intro x | assumption | apply Dev.Keeps.refl | apply Dev.Keeps.forEach | apply Dev.Keeps.step Dev.copyRepaired_keeps
      | apply Dev.Keeps.ite | apply Dev.Keeps.foldl | (show (_ : Bool) = _; decide +kernel) | (show _ ∈ _; decide +kernel)
      | (show _ < _; decide +kernel) | split | dsimp only

theorem execRefclkSwitch_frame {die : Fin 7} {s t : State} (h : execRefclkSwitch die s = .next t) : s.Keeps (.SLC_INJ_ARMED :: .TEL_MODE
    :: recordRegs) (.injecting :: .injections :: .refB :: recordParts) t := by
  refine onDev_frame ?_ h
  with_reducible repeat'
    first
      | intro x | assumption | apply Dev.Keeps.refl | apply Dev.Keeps.step Dev.record_keeps | apply Dev.underInjection_keeps
      | apply Dev.Keeps.ite | apply Dev.Keeps.foldl | (show (_ : Bool) = _; decide +kernel) | (show _ ∈ _; decide +kernel)
      | (show _ < _; decide +kernel) | split | apply Dev.Keeps.set_refB | dsimp only

theorem execCoolantFlowLow_frame {s t : State} (h : execCoolantFlowLow s = .next t) : s.Keeps recordRegs recordParts t := by
  refine onDev_frame ?_ h
  with_reducible repeat'
    first
      | intro x | assumption | apply Dev.Keeps.refl | apply Dev.Keeps.step Dev.record_keeps | apply Dev.Keeps.ite
      | apply Dev.Keeps.foldl | (show (_ : Bool) = _; decide +kernel) | (show _ ∈ _; decide +kernel) | (show _ < _; decide +kernel)
      | split | dsimp only

theorem execCoolantHot_frame {s t : State} (h : execCoolantHot s = .next t) : s.Keeps recordRegs recordParts t := by
  refine onDev_frame ?_ h
  with_reducible repeat'
    first
      | intro x | assumption | apply Dev.Keeps.refl | apply Dev.Keeps.step Dev.record_keeps | apply Dev.Keeps.ite
      | apply Dev.Keeps.foldl | (show (_ : Bool) = _; decide +kernel) | (show _ ∈ _; decide +kernel) | (show _ < _; decide +kernel)
      | split | dsimp only

theorem execThermalWarn_frame {die : Fin 7} {temp : Byte} {s t : State} (h : execThermalWarn die temp s = .next t) : s.Keeps
    (.HLT_EVENTS :: .HLT_RAIL_AGE :: recordRegs) recordParts t := by
  refine onDev_frame ?_ h
  with_reducible repeat'
    first
      | intro x | assumption | apply Dev.Keeps.refl | apply Dev.Keeps.put | apply Dev.Keeps.when
      | apply Dev.Keeps.step (Dev.raise_keeps ?_) | apply Dev.Keeps.ite | apply Dev.Keeps.foldl
      | (show (_ : Bool) = _; decide +kernel) | (show _ ∈ _; decide +kernel) | (show _ < _; decide +kernel) | split | dsimp only

theorem execThermalTrip_frame {die : Fin 7} {s t : State} (h : execThermalTrip die s = .next t) : s.Keeps (.FLL_LINK_STATUS ::
    .FLL_REPLAY :: .LNA_ALIGN :: .LNA_LANE_STATE :: .LNA_MRG_RESULT :: .LNA_TRAIN_REF :: .PIN_CTL :: .PIN_OLD :: .PRT_PORT_STATUS ::
    .RTE_EVENTS :: .RTE_GRP_SLOT :: .WR_Q_DRR :: recordRegs) (.arrived :: .cellsFree :: .cmds :: .dwins :: .halted :: .lanes :: .links
    :: .outs :: .pausedLinks :: .pins :: .ports :: .queues :: .tripped :: recordParts) t := by
  refine onDev_frame ?_ h
  with_reducible repeat'
    first
      | intro x | assumption | apply Dev.Keeps.refl | apply Dev.Keeps.step Dev.idleAll_keeps | apply Dev.Keeps.step Dev.record_keeps
      | apply Dev.Keeps.ite | apply Dev.Keeps.foldl | (show (_ : Bool) = _; decide +kernel) | (show _ ∈ _; decide +kernel)
      | (show _ < _; decide +kernel) | split | apply Dev.Keeps.set_tripped | dsimp only

theorem execAmbientHot_frame {temp : Byte} {s t : State} (h : execAmbientHot temp s = .next t) : s.Keeps recordRegs recordParts t := by
  refine onDev_frame ?_ h
  with_reducible repeat'
    first
      | intro x | assumption | apply Dev.Keeps.refl | apply Dev.Keeps.step Dev.record_keeps | apply Dev.Keeps.ite
      | apply Dev.Keeps.foldl | (show (_ : Bool) = _; decide +kernel) | (show _ ∈ _; decide +kernel) | (show _ < _; decide +kernel)
      | split | dsimp only

theorem execAgeingMeasurement_frame {die : Fin 7} {pairs : List (Nat × Nat)} {temp : Byte} {s t : State} (h : execAgeingMeasurement die
    pairs temp s = .next t) : s.Keeps (.HLT_RAIL_AGE :: recordRegs) recordParts t := by
  refine onDev_frame ?_ h
  with_reducible repeat'
    first
      | intro x | assumption | apply Dev.Keeps.refl | apply Dev.Keeps.put | apply Dev.Keeps.forEach
      | apply Dev.Keeps.step Dev.count_keeps | apply Dev.Keeps.step Dev.record_keeps | apply Dev.Keeps.ite | apply Dev.Keeps.foldl
      | (show (_ : Bool) = _; decide +kernel) | (show _ ∈ _; decide +kernel) | (show _ < _; decide +kernel) | split | dsimp only

theorem execDroopRaise_frame {rail : Fin 7} {s t : State} (h : execDroopRaise rail s = .next t) : s.Keeps (.HLT_EVENTS :: .HLT_RAIL_NOW
    :: recordRegs) (.rails :: recordParts) t := by
  refine onDev_frame ?_ h
  with_reducible repeat'
    first
      | intro x | assumption | apply Dev.Keeps.refl | apply Dev.Keeps.put | apply Dev.Keeps.step Dev.count_keeps
      | apply Dev.Keeps.step Dev.issueStep_keeps | apply Dev.Keeps.step (Dev.raise_keeps ?_) | apply Dev.Keeps.step Dev.setRail_keeps
      | apply Dev.Keeps.ite | apply Dev.Keeps.foldl | (show (_ : Bool) = _; decide +kernel) | (show _ ∈ _; decide +kernel)
      | (show _ < _; decide +kernel) | split | dsimp only

theorem execAvsAcknowledged_frame {rail : Fin 7} {s t : State} (h : execAvsAcknowledged rail s = .next t) : s.Keeps [.HLT_RAIL_NOW]
    [.ctrs, .out, .rails] t := by
  refine onDev_frame ?_ h
  with_reducible repeat'
    first
      | intro x | assumption | apply Dev.Keeps.refl | apply Dev.Keeps.step Dev.issueStep_keeps
      | apply Dev.Keeps.step Dev.stepMade_keeps | apply Dev.Keeps.ite | apply Dev.Keeps.foldl | (show (_ : Bool) = _; decide +kernel)
      | (show _ ∈ _; decide +kernel) | (show _ < _; decide +kernel) | split | dsimp only

theorem execAvsAckTimeout_frame {rail : Fin 7} {vout : Fin 65536} {s t : State} (h : execAvsAckTimeout rail vout s = .next t) : s.Keeps
    (.HLT_EVENTS :: .HLT_RAIL_NOW :: recordRegs) (.rails :: recordParts) t := by
  refine onDev_frame ?_ h
  with_reducible repeat'
    first
      | intro x | assumption | apply Dev.Keeps.refl | apply Dev.Keeps.step Dev.emit_keeps | apply Dev.Keeps.step Dev.issueStep_keeps
      | apply Dev.Keeps.step (Dev.raise_keeps ?_) | apply Dev.Keeps.step Dev.setRail_keeps | apply Dev.Keeps.step Dev.stepMade_keeps
      | apply Dev.Keeps.ite | apply Dev.Keeps.foldl | (show (_ : Bool) = _; decide +kernel) | (show _ ∈ _; decide +kernel)
      | (show _ < _; decide +kernel) | split | dsimp only

theorem execHltPlanRunWrite_frame {master : Fin 2048} {value : Word} {s t : State} (h : execHltPlanRunWrite master value s = .next t) :
    s.Keeps (.HLT_PLAN_CTL :: .HLT_PLAN_STATUS :: recordRegs) recordParts t := by
  refine onDev_frame ?_ h
  with_reducible repeat'
    first
      | intro x | assumption | apply Dev.Keeps.refl | apply Dev.curatorOnly_keeps | apply Dev.Keeps.step Dev.writePlanCtl_keeps
      | apply Dev.Keeps.ite | apply Dev.Keeps.foldl | (show (_ : Bool) = _; decide +kernel) | (show _ ∈ _; decide +kernel)
      | (show _ < _; decide +kernel) | split | dsimp only

theorem execModuleWatchdogExpiry_frame {s t : State} (h : execModuleWatchdogExpiry s = .next t) : s.Keeps (.FLL_LINK_STATUS ::
    .FLL_REPLAY :: .LNA_ALIGN :: .LNA_LANE_STATE :: .LNA_MRG_RESULT :: .LNA_TRAIN_REF :: .PIN_CTL :: .PIN_OLD :: .PRT_PORT_STATUS ::
    .RTE_EVENTS :: .RTE_GRP_SLOT :: .WR_Q_DRR :: recordRegs) (.arrived :: .cellsFree :: .cmds :: .dwins :: .halted :: .lanes :: .links
    :: .outs :: .pausedLinks :: .pins :: .ports :: .queues :: recordParts) t := by
  refine onDev_frame ?_ h
  with_reducible repeat'
    first
      | intro x | assumption | apply Dev.Keeps.refl | apply Dev.Keeps.step Dev.idleAll_keeps
      | apply Dev.Keeps.step Dev.recordUncoded_keeps | apply Dev.Keeps.ite | apply Dev.Keeps.foldl
      | (show (_ : Bool) = _; decide +kernel) | (show _ ∈ _; decide +kernel) | (show _ < _; decide +kernel) | split | dsimp only

theorem execPortDieLoss_frame {die : Fin 4} {s t : State} (h : execPortDieLoss die s = .next t) : s.Keeps (.BSN_Q_STATUS ::
    .DOC_CORE_STATUS :: .DOC_EVENTS :: .DOC_WSTORE_LOST :: .EBR_CRD_AVAIL :: .EBR_EVENTS :: .EBR_LOCK :: .EBR_PFLOG_HEAD ::
    .EBR_RAT_PFDISC_HI :: .EBR_RAT_PFDISC_LO :: .FLL_LINK_STATUS :: .FLL_REPLAY :: .LNA_ALIGN :: .LNA_LANE_STATE :: .LNA_MRG_RESULT ::
    .LNA_TRAIN_REF :: .PIN_CTL :: .PIN_OLD :: .PRT_EVENTS :: .PRT_PORT_STATUS :: .RTE_EVENTS :: .RTE_GRP_SLOT :: .SLC_CONT_ESEQ_HI ::
    .SLC_CONT_ESEQ_LO :: .SLC_CONT_STATE :: .VIT_STATE :: .WR_Q_DRR :: recordRegs) (.arrived :: .cellsFree :: .cmds :: .cores :: .dwins
    :: .endpoints :: .heldTlps :: .lanes :: .links :: .lockSince :: .lockSrc :: .lostDies :: .notices :: .outs :: .pausedLinks :: .pfLog
    :: .pfSeq :: .pins :: .ports :: .queues :: .sbSeq :: .trk :: .vports :: .winFetches :: .winReads :: .winStores :: .wins :: .withheld
    :: recordParts) t := by
  refine onDev_frame ?_ h
  with_reducible repeat'
    first
      | intro x | assumption | apply Dev.Keeps.refl | apply Dev.Keeps.forEach | apply Dev.Keeps.step Dev.laneOff_keeps
      | apply Dev.Keeps.step Dev.losePort_keeps | apply Dev.Keeps.step Dev.recordUncoded_keeps
      | apply Dev.Keeps.step Dev.setLane_keeps | apply Dev.Keeps.ite | apply Dev.Keeps.foldl | (show (_ : Bool) = _; decide +kernel)
      | (show _ ∈ _; decide +kernel) | (show _ < _; decide +kernel) | split | apply Dev.Keeps.set_lostDies | dsimp only

theorem execTunnelHubDieLoss_frame {s t : State} (h : execTunnelHubDieLoss s = .next t) : s.Keeps (.BSN_Q_STATUS :: .DOC_CORE_STATUS ::
    .DOC_EVENTS :: .DOC_WSTORE_LOST :: .EBR_CRD_AVAIL :: .EBR_EVENTS :: .EBR_LOCK :: .EBR_PFLOG_HEAD :: .EBR_RAT_PFDISC_HI ::
    .EBR_RAT_PFDISC_LO :: .EBR_SIDEBAND :: .EF_STATUS :: .FLL_LINK_STATUS :: .FLL_REPLAY :: .LNA_ALIGN :: .LNA_LANE_STATE ::
    .LNA_MRG_RESULT :: .LNA_TRAIN_REF :: .MBX_CH_STATUS :: .PD_CONTRACT :: .PD_POOL_USED :: .PD_PORT_STATUS :: .PIN_CTL :: .PIN_OLD ::
    .PRT_PORT_STATUS :: .PWR_CAGE_USED :: .RTE_EVENTS :: .RTE_GRP_SLOT :: .SLC_CONT_ESEQ_HI :: .SLC_CONT_ESEQ_LO :: .SLC_CONT_STATE ::
    .TUN_CE_DEST :: .TUN_CE_IRQ :: .TUN_CE_MODE :: .TUN_CE_STATUS :: .TUN_PORT_ALLOT :: .TUN_PORT_STATUS :: .USH_EVENTS :: .USH_OWNER ::
    .VIT_STATE :: .WR_Q_DRR :: recordRegs) (.arrived :: .candidates :: .cellsFree :: .chans :: .cmds :: .cores :: .dwins :: .efQueue ::
    .efuses :: .endpoints :: .engines :: .fronts :: .heldTlps :: .hubPort :: .inStreams :: .lanes :: .links :: .lockSince :: .lockSrc ::
    .lostDies :: .mud :: .notices :: .outs :: .pausedLinks :: .pds :: .perstReleased :: .pfLog :: .pfSeq :: .pins :: .ports :: .queues
    :: .sbSeq :: .trk :: .usbaOpen :: .vports :: .winFetches :: .winReads :: .winStores :: .wins :: .withheld :: recordParts) t := by
  refine onDev_frame ?_ h
  with_reducible repeat'
    first
      | intro x | assumption | apply Dev.Keeps.refl | apply Dev.Keeps.forEach | apply Dev.Keeps.step Dev.endContract_keeps
      | apply Dev.Keeps.step Dev.hubLeave_keeps | apply Dev.Keeps.step Dev.openVbus_keeps
      | apply Dev.Keeps.step Dev.recordUncoded_keeps | apply Dev.Keeps.step Dev.remove_keeps | apply Dev.Keeps.step Dev.setOwner_keeps
      | apply Dev.Keeps.step Dev.stopEngine_keeps | apply Dev.Keeps.step Dev.usb4Lost_keeps | apply Dev.Keeps.ite
      | apply Dev.Keeps.foldl | (show (_ : Bool) = _; decide +kernel) | (show _ ∈ _; decide +kernel) | (show _ < _; decide +kernel)
      | split | apply Dev.Keeps.set_inStreams_candidates | apply Dev.Keeps.set_lostDies | apply Dev.Keeps.set_inStreams
      | apply Dev.Keeps.set_candidates | dsimp only

theorem execShaperSet_frame {h : CmdHdr} {shaper : Fin 65536} {flags : Byte} {queues : List (Fin 65536)} {owner rate burst : Word} {s t
    : State} (h : execShaperSet h shaper flags queues owner rate burst s = .next t) : s.Keeps [.WR_Q_CFG, .WR_SHP_BURST, .WR_SHP_RATE]
    [.cmds, .out, .shapers] t := by
  refine onDev_frame ?_ h
  with_reducible repeat'
    first
      | intro x | assumption | apply Dev.Keeps.refl | apply Dev.moduleCommand_keeps | apply Dev.Keeps.step Dev.shaperSet_keeps
      | apply Dev.vitrineCommand_keeps | apply Dev.Keeps.ite | apply Dev.Keeps.foldl | (show (_ : Bool) = _; decide +kernel)
      | (show _ ∈ _; decide +kernel) | (show _ < _; decide +kernel) | split | dsimp only

theorem execQuantumSet_frame {h : CmdHdr} {queue : Fin 65536} {quantum : Word} {s t : State} (h : execQuantumSet h queue quantum s =
    .next t) : s.Keeps [.WR_Q_CFG] [.cmds, .out] t := by
  refine onDev_frame ?_ h
  with_reducible repeat'
    first
      | intro x | assumption | apply Dev.Keeps.refl | apply Dev.Keeps.put | apply Dev.Keeps.step Dev.badParam_keeps
      | apply Dev.Keeps.step Dev.finish_keeps | apply Dev.moduleCommand_keeps | apply Dev.Keeps.step Dev.onVitrine_keeps
      | apply Dev.Keeps.ite | apply Dev.Keeps.foldl | (show (_ : Bool) = _; decide +kernel) | (show _ ∈ _; decide +kernel)
      | (show _ < _; decide +kernel) | split | dsimp only

theorem execGateListLoad_frame {h : CmdHdr} {fpid : Word} {count bmax : Fin 65536} {base : Nat} {cycle : Word} {addr : Nat} {source :
    Fetch} {s t : State} (h : execGateListLoad h fpid count bmax base cycle addr source s = .next t) : s.Keeps (.GATE_BASE_HI ::
    .GATE_BASE_LO :: .GATE_COUNT :: .GATE_CYCLE :: .GATE_ENTRY :: .WR_GATE_STATUS :: .WR_PORT_CFG :: .WR_PORT_EVENTS :: .WR_PORT_GUARD
    :: recordRegs) (.cmds :: .outs :: recordParts) t := by
  refine onDev_frame ?_ h
  with_reducible repeat'
    first
      | intro x | assumption | apply Dev.Keeps.refl | apply Dev.command_keeps | apply Dev.Keeps.step Dev.loadGates_keeps
      | apply Dev.Keeps.ite | apply Dev.Keeps.foldl | (show (_ : Bool) = _; decide +kernel) | (show _ ∈ _; decide +kernel)
      | (show _ < _; decide +kernel) | split | dsimp only

theorem execAgeLimitSet_frame {h : CmdHdr} {cls : Byte} {limit : Word} {s t : State} (h : execAgeLimitSet h cls limit s = .next t) :
    s.Keeps [.BSN_AGE_B, .BSN_AGE_C, .BSN_AGE_L, .BSN_AGE_S] [.cmds, .out] t := by
  refine onDev_frame ?_ h
  with_reducible repeat'
    first
      | intro x | assumption | apply Dev.Keeps.refl | apply Dev.Keeps.put | apply Dev.Keeps.step Dev.badParam_keeps
      | apply Dev.Keeps.step Dev.finish_keeps | apply Dev.moduleCommand_keeps | apply Dev.Keeps.ite | apply Dev.Keeps.foldl
      | (show (_ : Bool) = _; decide +kernel) | (show _ ∈ _; decide +kernel) | (show _ < _; decide +kernel) | split | dsimp only

theorem execCageGroupEnable_frame {group : Fin 7} {s t : State} (h : execCageGroupEnable group s = .next t) : s.Keeps (.CUR_START_STATUS
    :: .EBR_EVENTS :: .EBR_SIDEBAND :: .EF_CTL :: .EF_EVENTS :: .EF_STATUS :: .LNA_ALIGN :: .LNA_LANE_CFG :: .LNA_LANE_STATE ::
    .LNA_MRG_RESULT :: .LNA_RX_EQ :: .LNA_TRAIN_REF :: .LNA_TX_EQ :: .PWR_CAGE_USED :: recordRegs) (.arrived :: .cmds :: .efQueue ::
    .efuses :: .eqReported :: .lanes :: .perstReleased :: .ports :: .sbSeq :: .vports :: recordParts) t := by
  refine onDev_frame ?_ h
  with_reducible repeat'
    first
      | intro x | assumption | apply Dev.Keeps.refl | apply Dev.Keeps.forEach | apply Dev.Keeps.when
      | apply Dev.Keeps.step Dev.enableLane_keeps | apply Dev.Keeps.step Dev.record_keeps | apply Dev.Keeps.step Dev.setStep_keeps
      | apply Dev.Keeps.step Dev.tryCage_keeps | apply Dev.Keeps.ite | apply Dev.Keeps.foldl | (show (_ : Bool) = _; decide +kernel)
      | (show _ ∈ _; decide +kernel) | (show _ < _; decide +kernel) | split
      | refine Dev.Keeps.pair Dev.tryCage_keeps (by assumption) ?_ ?_ ?_ | dsimp only

theorem execModuleReady_frame {ms : Word} {late : Bool} {steps : List (Fin 4096)} {s t : State} (h : execModuleReady ms late steps s =
    .next t) : s.Keeps (.CUR_START_STATUS :: .PWR_MODE :: .PWR_PS_STATUS :: .TEL_CAT_WPTR :: .TEL_MODE :: .VMF_CAT_ADDR_HI ::
    .VMF_CAT_ADDR_LO :: .VMF_CAT_SIZE :: .VMF_CAT_WPTR :: recordRegs) (.cats :: .ringRecords :: recordParts) t := by
  refine onDev_frame ?_ h
  with_reducible repeat'
    first
      | intro x | assumption | apply Dev.Keeps.refl | apply Dev.Keeps.put | apply Dev.Keeps.forEach
      | apply Dev.Keeps.step Dev.record_keeps | apply Dev.Keeps.step Dev.setStep_keeps | apply Dev.Keeps.step (Dev.setTel_keeps ?_)
      | apply Dev.Keeps.step Dev.startCat_keeps | apply Dev.Keeps.step Dev.stepTook_keeps | apply Dev.Keeps.step Dev.takeBase_keeps
      | apply Dev.Keeps.ite | apply Dev.Keeps.foldl | (show (_ : Bool) = _; decide +kernel) | (show _ ∈ _; decide +kernel)
      | (show _ < _; decide +kernel) | split | dsimp only

theorem execHello_frame {port : Fin 512} {msg : Option HelloMsg} {s t : State} (h : execHello port msg s = .next t) : s.Keeps
    [.CUR_START_STATUS] [.arrived, .described, .ownAseq, .partners, .topo] t := by
  refine onDev_frame ?_ h
  with_reducible repeat'
    first
      | intro x | assumption | apply Dev.Keeps.refl | apply Dev.Keeps.when | apply Dev.Keeps.step Dev.describe_keeps
      | apply Dev.Keeps.step Dev.phase_keeps | apply Dev.Keeps.step Dev.sendHello_keeps | apply Dev.Keeps.step Dev.setNode_keeps
      | apply Dev.Keeps.ite | apply Dev.Keeps.foldl | (show (_ : Bool) = _; decide +kernel) | (show _ ∈ _; decide +kernel)
      | (show _ < _; decide +kernel) | split | apply Dev.Keeps.set_partners | dsimp only

theorem execAdj_frame {port : Fin 512} {msg : AdjMsg} {s t : State} (h : execAdj port msg s = .next t) : s.Keeps [] [.arrived, .topo] t
    := by
  refine onDev_frame ?_ h
  with_reducible repeat'
    first
      | intro x | assumption | apply Dev.Keeps.refl | apply Dev.Keeps.step Dev.sendAdj_keeps | apply Dev.Keeps.step Dev.setNode_keeps
      | apply Dev.Keeps.ite | apply Dev.Keeps.foldl | (show (_ : Bool) = _; decide +kernel) | (show _ ∈ _; decide +kernel)
      | (show _ < _; decide +kernel) | split | dsimp only

theorem execRouteDistribution_frame {entries : List RouteEntry} {sent : List (Fin 8192 × List Nat)} {s t : State} (h :
    execRouteDistribution entries sent s = .next t) : s.Keeps [.CUR_START_STATUS, .RTE_GRP_SLOT, .RTE_MRT] [.arrived] t := by
  refine onDev_frame ?_ h
  with_reducible repeat'
    first
      | intro x | assumption | apply Dev.Keeps.refl | apply Dev.Keeps.when | apply Dev.Keeps.forEach
      | apply Dev.Keeps.step Dev.installRoute_keeps | apply Dev.Keeps.step Dev.phase_keeps | apply Dev.Keeps.step Dev.tell_keeps
      | apply Dev.Keeps.ite | apply Dev.Keeps.foldl | (show (_ : Bool) = _; decide +kernel) | (show _ ∈ _; decide +kernel)
      | (show _ < _; decide +kernel) | split | dsimp only

theorem execVitrineRestoreAtStart_frame {lvid : Fin 1024} {vitrine : StoredVitrine} {s t : State} (h : execVitrineRestoreAtStart lvid
    vitrine s = .next t) : s.Keeps (.ATT_CTL :: .ATT_EP_HI :: .ATT_EP_LO :: .ATT_FPID :: .ATT_HOST_HI :: .ATT_HOST_LO :: .BSN_Q_CFG ::
    .BSN_RESERVED :: .BSN_SHARED_SIZE :: .CUR_START_STATUS :: .EBR_CRD_AUDIT :: .EBR_CRD_AVAIL :: .EBR_CRD_GRANT :: .GATE_BASE_HI ::
    .GATE_BASE_LO :: .GATE_COUNT :: .GATE_CYCLE :: .GATE_ENTRY :: .LNA_ALIGN :: .LNA_LANE_STATE :: .LNA_MRG_RESULT :: .LNA_RX_EQ ::
    .LNA_TRAIN_REF :: .LNA_TX_EQ :: .PIN_CTL :: .PIN_DST :: .PIN_OLD :: .PIN_SRC :: .PIN_TCUT_HI :: .PIN_TCUT_LO :: .PRT_PORT_STATUS ::
    .RTE_EVENTS :: .TRK_CPL_RSV :: .TRK_FREE :: .TRK_VIT_QUOTA :: .VIT_PORT :: .VIT_STATE :: .VMF_GVH :: .VMF_ID :: .WR_GATE_STATUS ::
    .WR_PORT_EVENTS :: .WR_PORT_GUARD :: .WR_Q_CFG :: .WR_SHP_BURST :: .WR_SHP_RATE :: recordRegs) (.arrived :: .atts :: .cmds :: .dwins
    :: .endpoints :: .eqReported :: .homes :: .lanes :: .limited :: .outs :: .owesDetect :: .owesDrs :: .pins :: .ports :: .shapers ::
    .slots :: .vports :: .wins :: recordParts) t := by
  refine onDev_frame ?_ h
  with_reducible repeat'
    first
      | intro x | assumption | apply Dev.Keeps.refl | apply Dev.Keeps.when | apply Dev.Keeps.forEach
      | apply Dev.Keeps.step Dev.applyStored_keeps | apply Dev.Keeps.step Dev.bindStored_keeps | apply Dev.Keeps.step Dev.divide_keeps
      | apply Dev.Keeps.step Dev.phase_keeps | apply Dev.Keeps.step Dev.present_keeps | apply Dev.Keeps.step Dev.zeroBank_keeps
      | apply Dev.Keeps.ite | apply Dev.Keeps.foldl | (show (_ : Bool) = _; decide +kernel) | (show _ ∈ _; decide +kernel)
      | (show _ < _; decide +kernel) | split | apply Dev.Keeps.set_homes | dsimp only

theorem execRegAccessBad_frame {master : Fin 2048} {place : RegAt} {load : Bool} {s t : State} (h : execRegAccessBad master place load s
    = .next t) : s.Keeps recordRegs recordParts t := by
  refine onDev_frame ?_ h
  with_reducible repeat'
    first
      | intro x | assumption | apply Dev.Keeps.refl | apply Dev.Keeps.when | apply Dev.Keeps.step Dev.accessAtRecord_keeps
      | apply Dev.Keeps.step Dev.emit_keeps | apply Dev.Keeps.ite | apply Dev.Keeps.foldl | (show (_ : Bool) = _; decide +kernel)
      | (show _ ∈ _; decide +kernel) | (show _ < _; decide +kernel) | split | dsimp only

theorem execCxlMemRequest_frame {port : Fin 512} {m : MemMsg} {s t : State} (h : execCxlMemRequest port m s = .next t) : s.Keeps
    (.EBR_CRD_AVAIL :: .EBR_LOCK :: .SLC_INJ_ARMED :: .TEL_MODE :: .VIT_EVENTS :: recordRegs) (.arrived :: .heldCpls :: .heldTlps ::
    .injections :: .limited :: .lockSince :: .lockSrc :: .outs :: .queues :: .trk :: .vports :: .wins :: .withheld :: recordParts) t :=
    by
  refine onDev_frame ?_ h
  with_reducible repeat'
    first
      | intro x | assumption | apply Dev.Keeps.refl | apply Dev.Keeps.step Dev.hostMem_keeps
      | apply Dev.Keeps.step Dev.receiveCompletion_keeps | apply Dev.Keeps.step Dev.refuseMem_keeps | apply Dev.Keeps.ite
      | apply Dev.Keeps.foldl | (show (_ : Bool) = _; decide +kernel) | (show _ ∈ _; decide +kernel) | (show _ < _; decide +kernel)
      | split | dsimp only

theorem execDocentFence_frame {core : Fin 16} {s t : State} (h : execDocentFence core s = .next t) : s.Keeps [.DOC_CORE_STATUS] [.cores]
    t := by
  refine onDev_frame ?_ h
  with_reducible repeat'
    first
      | intro x | assumption | apply Dev.Keeps.refl | apply Dev.Keeps.step Dev.setCore_keeps | apply Dev.Keeps.step Dev.settle_keeps
      | apply Dev.Keeps.ite | apply Dev.Keeps.foldl | (show (_ : Bool) = _; decide +kernel) | (show _ ∈ _; decide +kernel)
      | (show _ < _; decide +kernel) | split | dsimp only

theorem execDocentStore_frame {core : Fin 16} {addr : Nat} {data : List Byte} {s t : State} (h : execDocentStore core addr data s =
    .next t) : s.Keeps recordRegs (.cores :: recordParts) t := by
  refine onDev_frame ?_ h
  with_reducible repeat'
    first
      | intro x | assumption | apply Dev.Keeps.refl | apply Dev.Keeps.step Dev.issueStore_keeps | apply Dev.Keeps.ite
      | apply Dev.Keeps.foldl | (show (_ : Bool) = _; decide +kernel) | (show _ ∈ _; decide +kernel) | (show _ < _; decide +kernel)
      | split | dsimp only

theorem execDocentWindowLoad_frame {master : Fin 2048} {off : Nat} {bytes : Fin 9} {s t : State} (h : execDocentWindowLoad master off
    bytes s = .next t) : s.Keeps (.EBR_CRD_AVAIL :: recordRegs) (.arrived :: .cores :: .heldTlps :: .outs :: .pfLines :: .trk ::
    .winReads :: .wins :: .withheld :: recordParts) t := by
  refine onDev_frame ?_ h
  with_reducible repeat'
    first
      | intro x | assumption | apply Dev.Keeps.refl | apply Dev.Keeps.step Dev.issueLoad_keeps | apply Dev.Keeps.ite
      | apply Dev.Keeps.foldl | (show (_ : Bool) = _; decide +kernel) | (show _ ∈ _; decide +kernel) | (show _ < _; decide +kernel)
      | split | dsimp only

theorem execPrefetchMissFetch_frame {master : Fin 2048} {s t : State} (h : execPrefetchMissFetch master s = .next t) : s.Keeps
    [.EBR_CRD_AVAIL] [.arrived, .ctrs, .heldTlps, .out, .outs, .trk, .winFetches, .winReads, .wins, .withheld] t := by
  refine onDev_frame ?_ h
  with_reducible repeat'
    first
      | intro x | assumption | apply Dev.Keeps.refl | apply Dev.Keeps.forEach | apply Dev.Keeps.step Dev.sendRead_keeps
      | apply Dev.Keeps.ite | apply Dev.Keeps.foldl | (show (_ : Bool) = _; decide +kernel) | (show _ ∈ _; decide +kernel)
      | (show _ < _; decide +kernel) | split | apply Dev.Keeps.set_winReads | apply Dev.Keeps.set_winFetches | dsimp only

theorem execHeldReadDetach_frame {master : Fin 2048} {s t : State} (h : execHeldReadDetach master s = .next t) : s.Keeps [] [.winReads]
    t := by
  refine onDev_frame ?_ h
  with_reducible repeat'
    first
      | intro x | assumption | apply Dev.Keeps.refl | apply Dev.Keeps.ite | apply Dev.Keeps.foldl
      | (show (_ : Bool) = _; decide +kernel) | (show _ ∈ _; decide +kernel) | (show _ < _; decide +kernel) | split
      | apply Dev.Keeps.set_winReads | dsimp only

theorem execParkedCompletionReplay_frame {master : Fin 2048} {s t : State} (h : execParkedCompletionReplay master s = .next t) : s.Keeps
    [] [.out, .winReads] t := by
  refine onDev_frame ?_ h
  with_reducible repeat'
    first
      | intro x | assumption | apply Dev.Keeps.refl | apply Dev.Keeps.step Dev.returnRead_keeps | apply Dev.Keeps.ite
      | apply Dev.Keeps.foldl | (show (_ : Bool) = _; decide +kernel) | (show _ ∈ _; decide +kernel) | (show _ < _; decide +kernel)
      | split | apply Dev.Keeps.set_winReads | dsimp only

theorem execWindowReadError_frame {handle : Fin 262144} {status : Fin 8} {s t : State} (h : execWindowReadError handle status s = .next
    t) : s.Keeps (.EBR_CRD_AVAIL :: .EBR_PFLOG_HEAD :: .EBR_RAT_PFDISC_HI :: .EBR_RAT_PFDISC_LO :: recordRegs) (.arrived :: .cores ::
    .heldTlps :: .outs :: .pfLog :: .pfSeq :: .trk :: .winFetches :: .winReads :: .wins :: .withheld :: recordParts) t := by
  refine onDev_frame ?_ h
  with_reducible repeat'
    first
      | intro x | assumption | apply Dev.Keeps.refl | apply Dev.Keeps.when | apply Dev.Keeps.step Dev.freeEntry_keeps
      | apply Dev.Keeps.step Dev.retryHeld_keeps | apply Dev.Keeps.step Dev.windowError_keeps | apply Dev.Keeps.ite
      | apply Dev.Keeps.foldl | (show (_ : Bool) = _; decide +kernel) | (show _ ∈ _; decide +kernel) | (show _ < _; decide +kernel)
      | split | dsimp only

theorem execPrefetchLineExpiry_frame {s t : State} (h : execPrefetchLineExpiry s = .next t) : s.Keeps [.EBR_PFLOG_HEAD,
    .EBR_RAT_PFDISC_HI, .EBR_RAT_PFDISC_LO] [.ctrs, .pfLines, .pfLog, .pfSeq] t := by
  refine onDev_frame ?_ h
  with_reducible repeat'
    first
      | intro x | assumption | apply Dev.Keeps.refl | apply Dev.Keeps.step Dev.dropLines_keeps | apply Dev.Keeps.ite
      | apply Dev.Keeps.foldl | (show (_ : Bool) = _; decide +kernel) | (show _ ∈ _; decide +kernel) | (show _ < _; decide +kernel)
      | split | dsimp only

theorem execDocentLr_frame {core : Fin 16} {addr : Nat} {bytes : Fin 9} {constrained : Bool} {s t : State} (h : execDocentLr core addr
    bytes constrained s = .next t) : s.Keeps recordRegs (.cores :: recordParts) t := by
  refine onDev_frame ?_ h
  with_reducible repeat'
    first
      | intro x | assumption | apply Dev.Keeps.refl | apply Dev.Keeps.step Dev.coreTrap_keeps | apply Dev.Keeps.step Dev.emit_keeps
      | apply Dev.Keeps.step Dev.refuseAccess_keeps | apply Dev.Keeps.step Dev.setCore_keeps | apply Dev.Keeps.ite
      | apply Dev.Keeps.foldl | (show (_ : Bool) = _; decide +kernel) | (show _ ∈ _; decide +kernel) | (show _ < _; decide +kernel)
      | split | dsimp only

theorem execDocentDeviceAtomic_frame {core : Fin 16} {addr : Nat} {kind : Fin 3} {s t : State} (h : execDocentDeviceAtomic core addr
    kind s = .next t) : s.Keeps recordRegs (.cores :: recordParts) t := by
  refine onDev_frame ?_ h
  with_reducible repeat'
    first
      | intro x | assumption | apply Dev.Keeps.refl | apply Dev.Keeps.step Dev.answerSc_keeps
      | apply Dev.Keeps.step Dev.coreTrap_keeps | apply Dev.Keeps.step Dev.refuseAccess_keeps | apply Dev.Keeps.ite
      | apply Dev.Keeps.foldl | (show (_ : Bool) = _; decide +kernel) | (show _ ∈ _; decide +kernel) | (show _ < _; decide +kernel)
      | split | dsimp only

theorem execDocentWfi_frame {core : Fin 16} {s t : State} (h : execDocentWfi core s = .next t) : s.Keeps [.DOC_CORE_STATUS] [.cores] t
    := by
  refine onDev_frame ?_ h
  with_reducible repeat'
    first
      | intro x | assumption | apply Dev.Keeps.refl | apply Dev.Keeps.step Dev.setCore_keeps | apply Dev.Keeps.step Dev.settle_keeps
      | apply Dev.Keeps.ite | apply Dev.Keeps.foldl | (show (_ : Bool) = _; decide +kernel) | (show _ ∈ _; decide +kernel)
      | (show _ < _; decide +kernel) | split | dsimp only

theorem execDocentTimerInterrupt_frame {core : Fin 16} {taken : Bool} {s t : State} (h : execDocentTimerInterrupt core taken s = .next
    t) : s.Keeps [.DOC_CORE_STATUS] [.cores, .out] t := by
  refine onDev_frame ?_ h
  with_reducible repeat'
    first
      | intro x | assumption | apply Dev.Keeps.refl | apply Dev.Keeps.step Dev.emit_keeps | apply Dev.Keeps.step Dev.setCore_keeps
      | apply Dev.Keeps.step Dev.timers_keeps | apply Dev.Keeps.ite | apply Dev.Keeps.foldl | (show (_ : Bool) = _; decide +kernel)
      | (show _ ∈ _; decide +kernel) | (show _ < _; decide +kernel) | split | dsimp only

theorem execDocentAccessFault_frame {core : Fin 16} {addr : Nat} {bytes : Fin 9} {kind : Fin 3} {s t : State} (h : execDocentAccessFault
    core addr bytes kind s = .next t) : s.Keeps recordRegs (.cores :: recordParts) t := by
  refine onDev_frame ?_ h
  with_reducible repeat'
    first
      | intro x | assumption | apply Dev.Keeps.refl | apply Dev.Keeps.step Dev.refuseAccess_keeps | apply Dev.Keeps.ite
      | apply Dev.Keeps.foldl | (show (_ : Bool) = _; decide +kernel) | (show _ ∈ _; decide +kernel) | (show _ < _; decide +kernel)
      | split | dsimp only

theorem execPowerState_frame {h : CmdHdr} {target auto : Byte} {s t : State} (h : execPowerState h target auto s = .next t) : s.Keeps
    (.DOC_CORE_STATUS :: .PWR_MODE :: .PWR_PS_CNT :: .PWR_PS_LAST :: .PWR_PS_STATUS :: recordRegs) (.byCommand :: .cmds :: .lastTraffic
    :: recordParts) t := by
  refine onDev_frame ?_ h
  with_reducible repeat'
    first
      | intro x | assumption | apply Dev.Keeps.refl | apply Dev.Keeps.step Dev.commandPower_keeps | apply Dev.moduleCommand_keeps
      | apply Dev.Keeps.ite | apply Dev.Keeps.foldl | (show (_ : Bool) = _; decide +kernel) | (show _ ∈ _; decide +kernel)
      | (show _ < _; decide +kernel) | split | dsimp only

theorem execQuietEvaluation_frame {s t : State} (h : execQuietEvaluation s = .next t) : s.Keeps (.PWR_MODE :: .PWR_PS_CNT ::
    .PWR_PS_LAST :: recordRegs) (.byCommand :: .tried :: recordParts) t := by
  refine onDev_frame ?_ h
  with_reducible repeat'
    first
      | intro x | assumption | apply Dev.Keeps.refl | apply Dev.Keeps.step Dev.arm__keeps | apply Dev.Keeps.step Dev.refuseEntry_keeps
      | apply Dev.Keeps.ite | apply Dev.Keeps.foldl | (show (_ : Bool) = _; decide +kernel) | (show _ ∈ _; decide +kernel)
      | (show _ < _; decide +kernel) | split | apply Dev.Keeps.set_tried | dsimp only

theorem execPowerEntryCommit_frame {s t : State} (h : execPowerEntryCommit s = .next t) : s.Keeps [.PWR_MODE, .PWR_PS_STATUS] [] t := by
  refine onDev_frame ?_ h
  with_reducible repeat'
    first
      | intro x | assumption | apply Dev.Keeps.refl | apply Dev.Keeps.mark | apply Dev.Keeps.ite | apply Dev.Keeps.foldl
      | (show (_ : Bool) = _; decide +kernel) | (show _ ∈ _; decide +kernel) | (show _ < _; decide +kernel) | split | dsimp only

theorem execQuietEntry_frame {nak : Option (Fin 512)} {s t : State} (h : execQuietEntry nak s = .next t) : s.Keeps (.DOC_CORE_STATUS ::
    .PRT_PORT_STATUS :: .PWR_PAD_HOLD :: .PWR_PS_CNT :: .PWR_PS_LAST :: .PWR_PS_STATUS :: recordRegs) (.byCommand :: .cmds :: .cores ::
    .perstReleased :: .tried :: recordParts) t := by
  refine onDev_frame ?_ h
  with_reducible repeat'
    first
      | intro x | assumption | apply Dev.Keeps.refl | apply Dev.Keeps.mark | apply Dev.Keeps.when | apply Dev.Keeps.forEach
      | apply Dev.Keeps.put | apply Dev.Keeps.step Dev.endWaiting_keeps | apply Dev.Keeps.step Dev.enterL1_keeps
      | apply Dev.Keeps.step Dev.latchPads_keeps | apply Dev.Keeps.step Dev.powerDownDocents_keeps
      | apply Dev.Keeps.step Dev.refuseEntry_keeps | apply Dev.Keeps.step Dev.setPower_keeps | apply Dev.Keeps.ite
      | apply Dev.Keeps.foldl | (show (_ : Bool) = _; decide +kernel) | (show _ ∈ _; decide +kernel) | (show _ < _; decide +kernel)
      | split | apply Dev.Keeps.set_byCommand_latched | apply Dev.Keeps.set_tried | apply Dev.Keeps.set_latched
      | apply Dev.Keeps.set_byCommand | dsimp only

theorem execWakeEvent_frame {event : Fin 10} {s t : State} (h : execWakeEvent event s = .next t) : s.Keeps (.DOC_CORE_STATUS ::
    .PWR_PS_STATUS :: recordRegs) (.byCommand :: .lastTraffic :: recordParts) t := by
  refine onDev_frame ?_ h
  with_reducible repeat'
    first
      | intro x | assumption | apply Dev.Keeps.refl | apply Dev.Keeps.step Dev.wake_keeps | apply Dev.Keeps.ite
      | apply Dev.Keeps.foldl | (show (_ : Bool) = _; decide +kernel) | (show _ ∈ _; decide +kernel) | (show _ < _; decide +kernel)
      | split | dsimp only

theorem execWakeReplayed_frame {s t : State} (h : execWakeReplayed s = .next t) : s.Keeps (.DOC_CORE_STATUS :: .PWR_PS_STATUS ::
    recordRegs) (.byCommand :: .lastTraffic :: recordParts) t := by
  refine onDev_frame ?_ h
  with_reducible repeat'
    first
      | intro x | assumption | apply Dev.Keeps.refl | apply Dev.Keeps.mark | apply Dev.Keeps.step Dev.leaveQuiet_keeps
      | apply Dev.Keeps.step Dev.record_keeps | apply Dev.Keeps.ite | apply Dev.Keeps.foldl | (show (_ : Bool) = _; decide +kernel)
      | (show _ ∈ _; decide +kernel) | (show _ < _; decide +kernel) | split | apply Dev.Keeps.set_latched | dsimp only

end Sys2Proof.Machine
end

