-- ==== Sys2Proof/Laws/Memory.lean ====
section
/-! SUPPORT. Memory: what a read answers after a write, that every operation keeps the canonical form, and what the ways a command
acts on the state answer. -/

namespace Sys2Proof.Machine

/-! ### Bytes -/

@[simp] theorem readByte_writeByte_self (m : List Host.Cell) (a : Nat) (b : Byte) : readByte (writeByte m a b) a = b :=
  SMap.get_set_self _ _ _ _

theorem readByte_writeByte_ne (m : List Host.Cell) {a a' : Nat} (b : Byte) (h : a' ≠ a) :
    readByte (writeByte m a b) a' = readByte m a' := SMap.get_set_ne _ _ _ _ h

/-- A write of bytes leaves every address before and after them alone. -/
theorem readByte_writeBytes_outside (m : List Host.Cell) (a : Nat) (bs : List Byte) {a' : Nat} (h : a' < a ∨ a + bs.length ≤ a') :
    readByte (writeBytes m a bs) a' = readByte m a' := by
  induction bs generalizing m a with
  | nil => rfl
  | cons b r ih =>
    have h' : a' < a + 1 ∨ a + 1 + r.length ≤ a' := by
      simp only [List.length_cons] at h
      omega
    have hn : a' ≠ a := by
      simp only [List.length_cons] at h
      omega
    exact (ih _ _ h').trans (readByte_writeByte_ne m b hn)

theorem readByte_writeBytes_inside (m : List Host.Cell) (a i : Nat) (bs : List Byte) (h : i < bs.length) :
    readByte (writeBytes m a bs) (a + i) = bs[i] := by
  induction bs generalizing m a i with
  | nil => simp at h
  | cons b r ih =>
    cases i with
    | zero =>
      exact (readByte_writeBytes_outside _ _ r (Or.inl (by omega))).trans (readByte_writeByte_self m a b)
    | succ n =>
      have hn : n < r.length := by simpa using h
      have := ih (writeByte m a b) (a + 1) n hn
      simpa [writeBytes, Nat.add_assoc, Nat.add_comm 1 n] using this

/-! ### The canonical form -/

theorem Memory.wf_writeByte {m : List Host.Cell} (a : Nat) (b : Byte) (h : Memory.wf m = true) : Memory.wf (writeByte m a b) = true :=
  SMap.wf_set _ _ _ _ h

theorem Memory.wf_writeBytes {m : List Host.Cell} (a : Nat) (bs : List Byte) (h : Memory.wf m = true) :
    Memory.wf (writeBytes m a bs) = true := by
  induction bs generalizing m a with
  | nil => exact h
  | cons b r ih => exact ih _ (Memory.wf_writeByte a b h)

theorem State.MemoryOk.store {s : State} (own : Option Nat) (a : Nat) (bs : List Byte) (h : s.MemoryOk) : (s.store own a bs).MemoryOk :=
  Memory.wf_writeBytes a bs h

theorem State.MemoryOk.of_mem {s t : State} (h : s.MemoryOk) (he : t.mem = s.mem) : t.MemoryOk := by
  unfold State.MemoryOk
  rwa [he]

/-! ### The ways a command acts on the state -/

@[simp] theorem powered_on {s t : State} (h : s.dev.supply = .on) : powered s t = t := if_pos h

@[simp] theorem powered_off {s t : State} (h : s.dev.supply ≠ .on) : powered s t = s := if_neg h

/-- On a powered module a command on registers and structures answers what it says. -/
theorem onDev_on {s : State} {f : Dev → Dev} (h : s.dev.supply = .on) : onDev s f = .next { s with dev := f s.dev } := by
  unfold onDev
  rw [powered_on h]

theorem onState_on {s : State} {f : State → State} (h : s.dev.supply = .on) : onState s f = .next (f s) := by
  unfold onState
  rw [powered_on h]

/-- What holds of the state a command on registers and structures makes holds of its outcome. -/
theorem NextIs.onDev {s : State} {f : Dev → Dev} {Q : State → Prop} (h : s.dev.supply = .on) (hq : Q { s with dev := f s.dev }) :
    NextIs (onDev s f) Q := ⟨_, onDev_on h, hq⟩

theorem NextIs.onState {s : State} {f : State → State} {Q : State → Prop} (h : s.dev.supply = .on) (hq : Q (f s)) :
    NextIs (onState s f) Q := ⟨_, onState_on h, hq⟩

end Sys2Proof.Machine
end

