-- ==== Sys2Proof/Laws/PerInstr.lean ====
section
/-! SUPPORT. One lemma for each command about its encoding: the table gives the commands no bits, so no word spells one. -/

namespace Sys2Proof.Laws.Row

/-- No word of any length spells the command: the opcode table gives its rows no bits. -/
def Statement (i : Instr) : Prop := ∀ nbits w : Nat, decodeTableWord nbits w ≠ some i

theorem moduleResetEvent : Statement (.moduleResetEvent) := fun _ _ h => by cases h
theorem registerWrite (master : Fin 2048) (place : RegAt) (value : Word) : Statement (.registerWrite master place value) := fun _ _ h => by cases h
theorem regAccessBad (master : Fin 2048) (place : RegAt) (load : Bool) : Statement (.regAccessBad master place load) := fun _ _ h => by cases h
theorem regPairLowRead (master : Fin 2048) (place : RegAt) : Statement (.regPairLowRead master place) := fun _ _ h => by cases h
theorem regPairHighRead (master : Fin 2048) (place : RegAt) : Statement (.regPairHighRead master place) := fun _ _ h => by cases h
theorem readClearFieldRead (master : Fin 2048) (place : RegAt) : Statement (.readClearFieldRead master place) := fun _ _ h => by cases h
theorem laneEnableSet (master : Fin 2048) (lane : Fin 512) : Statement (.laneEnableSet master lane) := fun _ _ h => by cases h
theorem laneEnableCleared (master : Fin 2048) (lane : Fin 512) : Statement (.laneEnableCleared master lane) := fun _ _ h => by cases h
theorem laneTxEqWrite (master : Fin 2048) (lane : Fin 512) (pre : Fin 16) (post : Fin 32) : Statement (.laneTxEqWrite master lane pre post) := fun _ _ h => by cases h
theorem cagePowerGoodLaneRelease (cage : Fin 56) : Statement (.cagePowerGoodLaneRelease cage) := fun _ _ h => by cases h
theorem receiverDetected (lane : Fin 512) : Statement (.receiverDetected lane) := fun _ _ h => by cases h
theorem detectTimerExpiry (lane : Fin 512) : Statement (.detectTimerExpiry lane) := fun _ _ h => by cases h
theorem bitLockAcquired (lane : Fin 512) : Statement (.bitLockAcquired lane) := fun _ _ h => by cases h
theorem symbolLockAcquired (lane : Fin 512) (found : Fin 256) : Statement (.symbolLockAcquired lane found) := fun _ _ h => by cases h
theorem rearSymlockTimeout (lane : Fin 512) : Statement (.rearSymlockTimeout lane) := fun _ _ h => by cases h
theorem bitslipSearchStep (lane : Fin 512) (locked : Bool) (found : Fin 256) : Statement (.bitslipSearchStep lane locked found) := fun _ _ h => by cases h
theorem lnaBitslipDelayWrite (master : Fin 2048) (lane : Fin 512) (delay : Byte) : Statement (.lnaBitslipDelayWrite master lane delay) := fun _ _ h => by cases h
theorem bitslipDelayApplied (lane : Fin 512) : Statement (.bitslipDelayApplied lane) := fun _ _ h => by cases h
theorem partnerCoefficientRequest (lane : Fin 512) (request : TapRequest) : Statement (.partnerCoefficientRequest lane request) := fun _ _ h => by cases h
theorem tapsAgreed (lane : Fin 512) (report : TapsReport) : Statement (.tapsAgreed lane report) := fun _ _ h => by cases h
theorem capxExchangeComplete (port : Fin 512) (found : Capx) : Statement (.capxExchangeComplete port found) := fun _ _ h => by cases h
theorem laneAttemptTimerExpiry (lane : Fin 512) : Statement (.laneAttemptTimerExpiry lane) := fun _ _ h => by cases h
theorem laneBitLockLost (lane : Fin 512) : Statement (.laneBitLockLost lane) := fun _ _ h => by cases h
theorem deskewFail (port : Fin 512) (skews : List Int) : Statement (.deskewFail port skews) := fun _ _ h => by cases h
theorem laneRetirement (lane : Fin 512) : Statement (.laneRetirement lane) := fun _ _ h => by cases h
theorem marginScanStart (master : Fin 2048) (lane : Fin 512) (value : Word) : Statement (.marginScanStart master lane value) := fun _ _ h => by cases h
theorem marginScanAbort (master : Fin 2048) (lane : Fin 512) (value : Word) : Statement (.marginScanAbort master lane value) := fun _ _ h => by cases h
theorem marginScanComplete (lane : Fin 512) (eyes : List Eye) (temp : Byte) : Statement (.marginScanComplete lane eyes temp) := fun _ _ h => by cases h
theorem loadTriggerEvaluation (port : Fin 512) (util : Fin 101) (temp : Byte) : Statement (.loadTriggerEvaluation port util temp) := fun _ _ h => by cases h
theorem fabricLinkReequalisation (port : Fin 512) (tries : List (Fin 512 × List Bool)) (temp : Byte) : Statement (.fabricLinkReequalisation port tries temp) := fun _ _ h => by cases h
theorem pcieReeqWindowOpen (port : Fin 512) (answer : ReeqAnswer) (temp : Byte) : Statement (.pcieReeqWindowOpen port answer temp) := fun _ _ h => by cases h
theorem reeqDeferred (port : Fin 512) : Statement (.reeqDeferred port) := fun _ _ h => by cases h
theorem flitReceived (port : Fin 512) (bytes : List Byte) (bodies : List Body) : Statement (.flitReceived port bytes bodies) := fun _ _ h => by cases h
theorem nakReceived (port : Fin 512) (expected : Fin 16384) : Statement (.nakReceived port expected) := fun _ _ h => by cases h
theorem replayTimerExpiry (port : Fin 512) : Statement (.replayTimerExpiry port) := fun _ _ h => by cases h
theorem alignmentMarker (port : Fin 512) (skews : List Int) : Statement (.alignmentMarker port skews) := fun _ _ h => by cases h
theorem echoReq (port : Fin 512) (asked : Option (Nat × Nat)) : Statement (.echoReq port asked) := fun _ _ h => by cases h
theorem echoRsp (port : Fin 512) (tag turnaround : Nat) : Statement (.echoRsp port tag turnaround) := fun _ _ h => by cases h
theorem params (port : Fin 512) (partner : Params) : Statement (.params port partner) := fun _ _ h => by cases h
theorem linkCtlRetryTimer (request : CtlAwaited) : Statement (.linkCtlRetryTimer request) := fun _ _ h => by cases h
theorem fabricLaneLost (lane : Fin 512) : Statement (.fabricLaneLost lane) := fun _ _ h => by cases h
theorem widthReq (port : Fin 512) (width : Fin 5) (mask : Fin 65536) : Statement (.widthReq port width mask) := fun _ _ h => by cases h
theorem widthAck (port : Fin 512) (width : Fin 5) (mask : Fin 65536) : Statement (.widthAck port width mask) := fun _ _ h => by cases h
theorem resume (port : Fin 512) (expected : Fin 16384) : Statement (.resume port expected) := fun _ _ h => by cases h
theorem linkWidthIncrease (port : Fin 512) (width : Fin 5) : Statement (.linkWidthIncrease port width) := fun _ _ h => by cases h
theorem speedReq (port : Fin 512) (frame : SpeedCtl) : Statement (.speedReq port frame) := fun _ _ h => by cases h
theorem speedChangeTimeout (port : Fin 512) : Statement (.speedChangeTimeout port) := fun _ _ h => by cases h
theorem pauseReq (port : Fin 512) (reason : Byte) : Statement (.pauseReq port reason) := fun _ _ h => by cases h
theorem pauseAck (port : Fin 512) : Statement (.pauseAck port) := fun _ _ h => by cases h
theorem creditFrameReceived (src dst : Fin 4194304) (kind : CreditKind) (cseq : Fin 65536) (value : Word) : Statement (.creditFrameReceived src dst kind cseq value) := fun _ _ h => by cases h
theorem creditReturnSend (src dst : Fin 4194304) : Statement (.creditReturnSend src dst) := fun _ _ h => by cases h
theorem creditWindowGrant (src dst : Fin 4194304) (gvh : Fin 8388608) (cls : Cls) : Statement (.creditWindowGrant src dst gvh cls) := fun _ _ h => by cases h
theorem creditQuietPoint (window : Fin 32768) : Statement (.creditQuietPoint window) := fun _ _ h => by cases h
theorem resyncStart (port : Fin 512) : Statement (.resyncStart port) := fun _ _ h => by cases h
theorem resyncReq (src dst : Fin 4194304) (sent : Word) : Statement (.resyncReq src dst sent) := fun _ _ h => by cases h
theorem resyncAck (src dst : Fin 4194304) (cseq : Fin 65536) (held : Word) : Statement (.resyncAck src dst cseq held) := fun _ _ h => by cases h
theorem resyncTimeout (window : Fin 32768) : Statement (.resyncTimeout window) := fun _ _ h => by cases h
theorem portConfig (h : CmdHdr) (fpid : Word) (kind width rate flags : Byte) (lr : Word) (oversub : Byte) (windows : Fin 65536) (pm : Word) : Statement (.portConfig h fpid kind width rate flags lr oversub windows pm) := fun _ _ h => by cases h
theorem portEnable (h : CmdHdr) (fpid : Word) (on : Byte) : Statement (.portEnable h fpid on) := fun _ _ h => by cases h
theorem eqTableLoad (h : CmdHdr) (addr : Nat) (length : Word) (source : Fetch) : Statement (.eqTableLoad h addr length source) := fun _ _ h => by cases h
theorem marginScan (h : CmdHdr) (first : Fin 65536) (count dwell errLimit axes hfloor vfloor : Byte) : Statement (.marginScan h first count dwell errLimit axes hfloor vfloor) := fun _ _ h => by cases h
theorem bitslip (h : CmdHdr) (lane : Fin 65536) (delay : Byte) (locked : Bool) (found : Fin 256) : Statement (.bitslip h lane delay locked found) := fun _ _ h => by cases h
theorem retrain (h : CmdHdr) (object : Word) (flags : Byte) : Statement (.retrain h object flags) := fun _ _ h => by cases h
theorem tlpIngress (port : Fin 512) (t : Tlp) : Statement (.tlpIngress port t) := fun _ _ h => by cases h
theorem tlpEgress (port : Fin 512) : Statement (.tlpEgress port) := fun _ _ h => by cases h
theorem cxlMemRequest (port : Fin 512) (m : MemMsg) : Statement (.cxlMemRequest port m) := fun _ _ h => by cases h
theorem intxMessage (lvid : Fin 1024) (k : Fin 64) (fn : Fin 256) (wire : Fin 4) (assert : Bool) : Statement (.intxMessage lvid k fn wire assert) := fun _ _ h => by cases h
theorem errorMessage (port : Fin 512) (ep : Fin 128) (severity : Fin 3) : Statement (.errorMessage port ep severity) := fun _ _ h => by cases h
theorem pmeTurnOff (port : Fin 512) : Statement (.pmeTurnOff port) := fun _ _ h => by cases h
theorem pmeToAck (lvid : Fin 1024) (k : Fin 64) : Statement (.pmeToAck lvid k) := fun _ _ h => by cases h
theorem pmeToAckTimeout (lvid : Fin 1024) : Statement (.pmeToAckTimeout lvid) := fun _ _ h => by cases h
theorem ltrMessage (fpid : Fin 4194304) (ep : Fin 128) (required : Bool) (ns : Nat) : Statement (.ltrMessage fpid ep required ns) := fun _ _ h => by cases h
theorem ltrUpstreamSend (port : Fin 512) : Statement (.ltrUpstreamSend port) := fun _ _ h => by cases h
theorem messageDiscarded (port : Fin 512) : Statement (.messageDiscarded port) := fun _ _ h => by cases h
theorem mrdlk (port : Fin 512) (src : Fin 4194304) (gvh : Fin 8388608) (t : Tlp) : Statement (.mrdlk port src gvh t) := fun _ _ h => by cases h
theorem cpldlk (port : Fin 512) (t : Tlp) (withData : Bool) : Statement (.cpldlk port t withData) := fun _ _ h => by cases h
theorem unlock (port : Fin 512) (gvh : Fin 8388608) : Statement (.unlock port gvh) := fun _ _ h => by cases h
theorem lockTimerExpiry (port : Fin 512) : Statement (.lockTimerExpiry port) := fun _ _ h => by cases h
theorem lockSideListMove (queue : Fin 65536) : Statement (.lockSideListMove queue) := fun _ _ h => by cases h
theorem completionReceived (port : Fin 512) (body : Body) : Statement (.completionReceived port body) := fun _ _ h => by cases h
theorem trackerDeadline (handle : Fin 262144) : Statement (.trackerDeadline handle) := fun _ _ h => by cases h
theorem lateCompletion (port : Fin 512) (source : Option (Fin 4194304)) (body : Body) : Statement (.lateCompletion port source body) := fun _ _ h => by cases h
theorem unexpectedCompletion (port : Fin 512) (source : Option (Fin 4194304)) (body : Body) : Statement (.unexpectedCompletion port source body) := fun _ _ h => by cases h
theorem tagQuarantineExpiry (port : Fin 512) (tag : Nat) : Statement (.tagQuarantineExpiry port tag) := fun _ _ h => by cases h
theorem lateRecordExpiry (completer : Fin 4194304) (requester : Fin 65536) (tag : Nat) : Statement (.lateRecordExpiry completer requester tag) := fun _ _ h => by cases h
theorem drsReceived (port : Fin 512) (ep : Fin 128) : Statement (.drsReceived port ep) := fun _ _ h => by cases h
theorem drsWaitExpiry (port : Fin 512) : Statement (.drsWaitExpiry port) := fun _ _ h => by cases h
theorem rrsRetryLimit (port : Fin 512) (ep : Fin 128) : Statement (.rrsRetryLimit port ep) := fun _ _ h => by cases h
theorem pendingEndpointReset (port : Fin 512) : Statement (.pendingEndpointReset port) := fun _ _ h => by cases h
theorem hostPerstAsserted (cage : Fin 64) : Statement (.hostPerstAsserted cage) := fun _ _ h => by cases h
theorem hotResetReceived (port : Fin 512) : Statement (.hotResetReceived port) := fun _ _ h => by cases h
theorem upstreamDlActiveLost (port : Fin 512) : Statement (.upstreamDlActiveLost port) := fun _ _ h => by cases h
theorem upstreamDlActive (port : Fin 512) : Statement (.upstreamDlActive port) := fun _ _ h => by cases h
theorem rrsExpired (port : Fin 512) : Statement (.rrsExpired port) := fun _ _ h => by cases h
theorem surpriseRemoval (port : Fin 512) (presence : Bool) : Statement (.surpriseRemoval port presence) := fun _ _ h => by cases h
theorem presenceDebounced (cage : Fin 64) : Statement (.presenceDebounced cage) := fun _ _ h => by cases h
theorem attentionButton (button : ButtonEvent) : Statement (.attentionButton button) := fun _ _ h => by cases h
theorem sidebandFrame (source : Fin 4194304) (kind : Fin 256) (state value : Byte) (tag : SidebandTag) : Statement (.sidebandFrame source kind state value tag) := fun _ _ h => by cases h
theorem slotControlWrite (lvid : Fin 1024) (k : Fin 64) (off : Bool) (attention power : Fin 4) (irq : SlotEnables) : Statement (.slotControlWrite lvid k off attention power irq) := fun _ _ h => by cases h
theorem barWrite (lvid : Fin 1024) (k : Fin 64) (bar : Fin 6) (upper wide : Bool) (value : Word) : Statement (.barWrite lvid k bar upper wide value) := fun _ _ h => by cases h
theorem secondaryBusReset (lvid : Fin 1024) (k : Fin 64) (disable : Option Bool) : Statement (.secondaryBusReset lvid k disable) := fun _ _ h => by cases h
theorem endpointFlr (port : Fin 512) (t : Tlp) : Statement (.endpointFlr port t) := fun _ _ h => by cases h
theorem dpcTriggerStatusClear (lvid : Fin 1024) (k : Fin 64) : Statement (.dpcTriggerStatusClear lvid k) := fun _ _ h => by cases h
theorem aspmL1IdleTimer (port : Fin 512) (enabled : Fin 8) : Statement (.aspmL1IdleTimer port enabled) := fun _ _ h => by cases h
theorem endpointL1Request (port : Fin 512) (enabled : Fin 8) : Statement (.endpointL1Request port enabled) := fun _ _ h => by cases h
theorem l0pEvaluation (port : Fin 512) (util : Fin 1001) (supported : Bool) : Statement (.l0pEvaluation port util supported) := fun _ _ h => by cases h
theorem frameAdmission : Statement (.frameAdmission) := fun _ _ h => by cases h
theorem frameSelection (port : Fin 512) (cells : CellError) : Statement (.frameSelection port cells) := fun _ _ h => by cases h
theorem ageDiscard (queue : Fin 65536) : Statement (.ageDiscard queue) := fun _ _ h => by cases h
theorem queueHeadAgeCheck : Statement (.queueHeadAgeCheck) := fun _ _ h => by cases h
theorem linkEcc (queue : Fin 65536) (reach : Nat) : Statement (.linkEcc queue reach) := fun _ _ h => by cases h
theorem cellAudit (missing : Bool) : Statement (.cellAudit missing) := fun _ _ h => by cases h
theorem frameRoute : Statement (.frameRoute) := fun _ _ h => by cases h
theorem linkWithdrawal (port : Fin 512) : Statement (.linkWithdrawal port) := fun _ _ h => by cases h
theorem withdrawnClear (master : Fin 2048) (slot : Fin 65536) (value : Word) : Statement (.withdrawnClear master slot value) := fun _ _ h => by cases h
theorem pathPinEntryWrite (master : Fin 2048) (entry : Fin 16384) (value : Word) : Statement (.pathPinEntryWrite master entry value) := fun _ _ h => by cases h
theorem pinCutPoint : Statement (.pinCutPoint) := fun _ _ h => by cases h
theorem repinAborted (tcut : Nat) (modules : List (Fin 8192)) (command : Option CmdHdr) : Statement (.repinAborted tcut modules command) := fun _ _ h => by cases h
theorem drain (src dst : Fin 4194304) (cls : Cls) : Statement (.drain src dst cls) := fun _ _ h => by cases h
theorem drainAck (src dst : Fin 4194304) (cls : Cls) : Statement (.drainAck src dst cls) := fun _ _ h => by cases h
theorem drainCapExpiry (window : Fin 32768) (cls : Cls) : Statement (.drainCapExpiry window cls) := fun _ _ h => by cases h
theorem oldPathExpiry : Statement (.oldPathExpiry) := fun _ _ h => by cases h
theorem attEntryWrite (master : Fin 2048) (entry : Fin 65536) (value : Word) : Statement (.attEntryWrite master entry value) := fun _ _ h => by cases h
theorem shaperWheelSlot : Statement (.shaperWheelSlot) := fun _ _ h => by cases h
theorem wrShpRateWrite (master : Fin 2048) (value : Word) : Statement (.wrShpRateWrite master value) := fun _ _ h => by cases h
theorem gateBankCountWrite (master : Fin 2048) (port : Fin 512) (bank : Fin 2) (value : Word) : Statement (.gateBankCountWrite master port bank value) := fun _ _ h => by cases h
theorem gateListStart (port : Fin 512) : Statement (.gateListStart port) := fun _ _ h => by cases h
theorem gateEntryBoundary (port : Fin 512) : Statement (.gateEntryBoundary port) := fun _ _ h => by cases h
theorem guardBandRecompute (port : Fin 512) : Statement (.guardBandRecompute port) := fun _ _ h => by cases h
theorem bOversize (queue : Fin 65536) : Statement (.bOversize queue) := fun _ _ h => by cases h
theorem shaperAudit (faulty : List (Fin 16384)) : Statement (.shaperAudit faulty) := fun _ _ h => by cases h
theorem shaperSet (h : CmdHdr) (shaper : Fin 65536) (flags : Byte) (queues : List (Fin 65536)) (owner rate burst : Word) : Statement (.shaperSet h shaper flags queues owner rate burst) := fun _ _ h => by cases h
theorem quantumSet (h : CmdHdr) (queue : Fin 65536) (quantum : Word) : Statement (.quantumSet h queue quantum) := fun _ _ h => by cases h
theorem gateListLoad (h : CmdHdr) (fpid : Word) (count bmax : Fin 65536) (base : Nat) (cycle : Word) (addr : Nat) (source : Fetch) : Statement (.gateListLoad h fpid count bmax base cycle addr source) := fun _ _ h => by cases h
theorem ageLimitSet (h : CmdHdr) (cls : Byte) (limit : Word) : Statement (.ageLimitSet h cls limit) := fun _ _ h => by cases h
theorem vitrineCreate (h : CmdHdr) (fpid : Word) (lvid : Fin 65536) (nvdp cto : Byte) (flags minimum quota : Word) (shapers channels : Byte) : Statement (.vitrineCreate h fpid lvid nvdp cto flags minimum quota shapers channels) := fun _ _ h => by cases h
theorem vitrineDestroy (h : CmdHdr) (gvh : Word) : Statement (.vitrineDestroy h gvh) := fun _ _ h => by cases h
theorem bindEndpoint (h : CmdHdr) (gvh fpid : Word) (ld k cls : Byte) (share : Fin 65536) (far : RemoteEp) : Statement (.bindEndpoint h gvh fpid ld k cls share far) := fun _ _ h => by cases h
theorem unbindEndpoint (h : CmdHdr) (gvh : Word) (k : Byte) : Statement (.unbindEndpoint h gvh k) := fun _ _ h => by cases h
theorem vitrineSet (h : CmdHdr) (gvh : Word) (cto flags : Byte) : Statement (.vitrineSet h gvh cto flags) := fun _ _ h => by cases h
theorem vitrineHotReset (lvid : Fin 1024) : Statement (.vitrineHotReset lvid) := fun _ _ h => by cases h
theorem inflightCountZero (lvid : Fin 1024) (k : Option (Fin 64)) : Statement (.inflightCountZero lvid k) := fun _ _ h => by cases h
theorem inflightReport (modul : Fin 8192) (gvh : Fin 8388608) (count : Nat) : Statement (.inflightReport modul gvh count) := fun _ _ h => by cases h
theorem squashTimeout (lvid : Fin 1024) (k : Option (Fin 64)) : Statement (.squashTimeout lvid k) := fun _ _ h => by cases h
theorem freeze (h : CmdHdr) (gvh : Word) (tcut : Nat) : Statement (.freeze h gvh tcut) := fun _ _ h => by cases h
theorem freezeCutPoint (lvid : Fin 1024) : Statement (.freezeCutPoint lvid) := fun _ _ h => by cases h
theorem freezeTimeout (lvid : Fin 1024) : Statement (.freezeTimeout lvid) := fun _ _ h => by cases h
theorem save (h : CmdHdr) (gvh : Word) : Statement (.save h gvh) := fun _ _ h => by cases h
theorem restore (h : CmdHdr) (gvh fpid : Word) (lvid source : Fin 65536) (image : Option Image) : Statement (.restore h gvh fpid lvid source image) := fun _ _ h => by cases h
theorem thaw (h : CmdHdr) (gvh : Word) (modul : Fin 65536) (tcut : Nat) : Statement (.thaw h gvh modul tcut) := fun _ _ h => by cases h
theorem thawCutPoint (cut : ThawCut) : Statement (.thawCutPoint cut) := fun _ _ h => by cases h
theorem thawCompleteRelease (lvid : Fin 1024) (target : Fin 8192) : Statement (.thawCompleteRelease lvid target) := fun _ _ h => by cases h
theorem class3Error (port : Fin 512) (ep : Fin 128) (error : Fin 5) : Statement (.class3Error port ep error) := fun _ _ h => by cases h
theorem class4Condition (port : Fin 512) (fault : LinkFault) : Statement (.class4Condition port fault) := fun _ _ h => by cases h
theorem containmentNotice (source : Fin 8192) (scope : Fin 4) (id : Fin 8388608) (cause : Fin 4) : Statement (.containmentNotice source scope id cause) := fun _ _ h => by cases h
theorem noticeRepeatTimer (modul : Fin 8192) (scope : Fin 4) (id : Fin 1024) : Statement (.noticeRepeatTimer modul scope id) := fun _ _ h => by cases h
theorem accessionStart (port : Fin 512) (ep : Fin 128) (found : Found) : Statement (.accessionStart port ep found) := fun _ _ h => by cases h
theorem accessionSucceeds (port : Fin 512) (ep : Fin 128) (identity : Option Nat) : Statement (.accessionSucceeds port ep identity) := fun _ _ h => by cases h
theorem accessionFailed (port : Fin 512) (ep : Fin 128) (responder : Bool) : Statement (.accessionFailed port ep responder) := fun _ _ h => by cases h
theorem accessionLimit (port : Fin 512) (ep : Fin 128) : Statement (.accessionLimit port ep) := fun _ _ h => by cases h
theorem sluiceRelease (h : CmdHdr) (scope : Fin 4) (object : Word) (eseq : Nat) : Statement (.sluiceRelease h scope object eseq) := fun _ _ h => by cases h
theorem releaseComplete (scope : Fin 4) (id : Fin 1024) : Statement (.releaseComplete scope id) := fun _ _ h => by cases h
theorem releaseFailed (scope : Fin 4) (id : Fin 1024) : Statement (.releaseFailed scope id) := fun _ _ h => by cases h
theorem maskedSummary : Statement (.maskedSummary) := fun _ _ h => by cases h
theorem stagingCopy : Statement (.stagingCopy) := fun _ _ h => by cases h
theorem faultInject (h : CmdHdr) (point : Byte) (count : Word) (target argument : Nat) : Statement (.faultInject h point count target argument) := fun _ _ h => by cases h
theorem eventLogRead (h : CmdHdr) (first : Nat) (most : Word) (dest : Nat) : Statement (.eventLogRead h first most dest) := fun _ _ h => by cases h
theorem usb4Attach (port : Fin 16) (partner : Usb4Partner) (trained : Fin 5) (asym : Bool) : Statement (.usb4Attach port partner trained asym) := fun _ _ h => by cases h
theorem usb4LinkLoss (port : Fin 16) : Statement (.usb4LinkLoss port) := fun _ _ h => by cases h
theorem dpBandwidthRequest (port : Fin 16) (tunnel : Fin 2) (ask : DpAsk) : Statement (.dpBandwidthRequest port tunnel ask) := fun _ _ h => by cases h
theorem usb4PoolShrink (port : Fin 16) (link : Fin 5) : Statement (.usb4PoolShrink port link) := fun _ _ h => by cases h
theorem symmetryEvaluation (port : Fin 16) (to100 from100 to1s from1s : Nat) : Statement (.symmetryEvaluation port to100 from100 to1s from1s) := fun _ _ h => by cases h
theorem pcieTunnelEstablish (port : Fin 16) (found : List Found) (deep : Bool) : Statement (.pcieTunnelEstablish port found deep) := fun _ _ h => by cases h
theorem tunCeModeWrite (engine : Fin 64) (value : Word) : Statement (.tunCeModeWrite engine value) := fun _ _ h => by cases h
theorem tunCeScanoutWrite (engine : Fin 64) (value : Word) : Statement (.tunCeScanoutWrite engine value) := fun _ _ h => by cases h
theorem verticalBlanking (engine : Fin 64) : Statement (.verticalBlanking engine) := fun _ _ h => by cases h
theorem consoleEngineFlr (engine : Fin 64) : Statement (.consoleEngineFlr engine) := fun _ _ h => by cases h
theorem streamBudgetFreed : Statement (.streamBudgetFreed) := fun _ _ h => by cases h
theorem dpSinkReappears (port : Fin 16) (tunnel : Fin 2) (sink : DpSink) : Statement (.dpSinkReappears port tunnel sink) := fun _ _ h => by cases h
theorem consoleFrame (source : Fin 8192) (frame : ConsoleFrame) : Statement (.consoleFrame source frame) := fun _ _ h => by cases h
theorem consoleLineDue (source : Fin 8192) (engine : Fin 64) (line : Fin 65536) (segments : List (Fin 65536)) : Statement (.consoleLineDue source engine line segments) := fun _ _ h => by cases h
theorem consoleSegments : Statement (.consoleSegments) := fun _ _ h => by cases h
theorem consoleAttach (h : CmdHdr) (engine : Byte) (dest : Fin 65536) (port tunnel : Byte) (far : Nat) : Statement (.consoleAttach h engine dest port tunnel far) := fun _ _ h => by cases h
theorem consoleDetach (h : CmdHdr) (engine : Byte) : Statement (.consoleDetach h engine) := fun _ _ h => by cases h
theorem tunnelConfig (h : CmdHdr) (port : Byte) (value : Word) : Statement (.tunnelConfig h port value) := fun _ _ h => by cases h
theorem serviceOwner (h : CmdHdr) (port pin : Byte) : Statement (.serviceOwner h port pin) := fun _ _ h => by cases h
theorem serviceCandidateAttach (port : Fin 16) (usb4 : Bool) : Statement (.serviceCandidateAttach port usb4) := fun _ _ h => by cases h
theorem ownerDetach : Statement (.ownerDetach) := fun _ _ h => by cases h
theorem ownerWaitExpiry : Statement (.ownerWaitExpiry) := fun _ _ h => by cases h
theorem ownerChanged (speed : Fin 4) : Statement (.ownerChanged speed) := fun _ _ h => by cases h
theorem usbaOvercurrent (port : Fin 4) : Statement (.usbaOvercurrent port) := fun _ _ h => by cases h
theorem ushMudConnectWrite (master : Fin 2048) (value : Word) (speed : Fin 4) : Statement (.ushMudConnectWrite master value speed) := fun _ _ h => by cases h
theorem getInfo (len : Fin 65536) : Statement (.getInfo len) := fun _ _ h => by cases h
theorem submitCommand (len : Fin 65536) (addr : Nat) (data : List Byte) (completes : Bool) : Statement (.submitCommand len addr data completes) := fun _ _ h => by cases h
theorem getResponse (len tag : Fin 65536) : Statement (.getResponse len tag) := fun _ _ h => by cases h
theorem imageBegin (len : Fin 65536) (target length crc : Word) (completes : Bool) : Statement (.imageBegin len target length crc completes) := fun _ _ h => by cases h
theorem imageData (data : List Byte) : Statement (.imageData data) := fun _ _ h => by cases h
theorem imageCommit (len : Fin 65536) (completes : Bool) : Statement (.imageCommit len completes) := fun _ _ h => by cases h
theorem imageAbort (len : Fin 65536) (completes : Bool) : Statement (.imageAbort len completes) := fun _ _ h => by cases h
theorem logOpen (len : Fin 65536) (source : Word) (start : Nat) (completes : Bool) : Statement (.logOpen len source start completes) := fun _ _ h => by cases h
theorem logClose (len : Fin 65536) (completes : Bool) : Statement (.logClose len completes) := fun _ _ h => by cases h
theorem logPipeSend (count : Nat) : Statement (.logPipeSend count) := fun _ _ h => by cases h
theorem usbBusReset (gone abandons : Bool) (speed : Fin 4) : Statement (.usbBusReset gone abandons speed) := fun _ _ h => by cases h
theorem responseExpiry (tag : Fin 65536) : Statement (.responseExpiry tag) := fun _ _ h => by cases h
theorem usbLpmRequest (state : Fin 4) (besl : Fin 16) : Statement (.usbLpmRequest state besl) := fun _ _ h => by cases h
theorem usbIdleLinkEntry (u2 enabled : Bool) : Statement (.usbIdleLinkEntry u2 enabled) := fun _ _ h => by cases h
theorem remoteWake : Statement (.remoteWake) := fun _ _ h => by cases h
theorem hostResume : Statement (.hostResume) := fun _ _ h => by cases h
theorem pdPortDisabled (port : Fin 16) : Statement (.pdPortDisabled port) := fun _ _ h => by cases h
theorem moistureCheck (port : Fin 16) (reading : Moisture) : Statement (.moistureCheck port reading) := fun _ _ h => by cases h
theorem moistureRecheck (port : Fin 16) (reading : Moisture) : Statement (.moistureRecheck port reading) := fun _ _ h => by cases h
theorem corrosion (port : Fin 16) : Statement (.corrosion port) := fun _ _ h => by cases h
theorem typecAttach (port : Fin 16) (source cc2 : Bool) : Statement (.typecAttach port source cc2) := fun _ _ h => by cases h
theorem cableMarkerRead (port : Fin 16) (marker : Marker) : Statement (.cableMarkerRead port marker) := fun _ _ h => by cases h
theorem cableMarkerTimeout (port : Fin 16) : Statement (.cableMarkerTimeout port) := fun _ _ h => by cases h
theorem sourceCapabilitiesOffer (port : Fin 16) : Statement (.sourceCapabilitiesOffer port) := fun _ _ h => by cases h
theorem pdRequest (port : Fin 16) (request : PdRequest) : Statement (.pdRequest port request) := fun _ _ h => by cases h
theorem vbusWithinRange (port : Fin 16) : Statement (.vbusWithinRange port) := fun _ _ h => by cases h
theorem pdHeadroomGrowth : Statement (.pdHeadroomGrowth) := fun _ _ h => by cases h
theorem pdPoolShed : Statement (.pdPoolShed) := fun _ _ h => by cases h
theorem eprKeepaliveLapse (port : Fin 16) : Statement (.eprKeepaliveLapse port) := fun _ _ h => by cases h
theorem swapRequest (port : Fin 16) (swap : PdSwap) (byPartner able : Bool) : Statement (.swapRequest port swap byPartner able) := fun _ _ h => by cases h
theorem swapComplete (port : Fin 16) : Statement (.swapComplete port) := fun _ _ h => by cases h
theorem swapRetryHoldExpiry (port : Fin 16) : Statement (.swapRetryHoldExpiry port) := fun _ _ h => by cases h
theorem pdHardReset (port : Fin 16) : Statement (.pdHardReset port) := fun _ _ h => by cases h
theorem hardResetRecovery (port : Fin 16) : Statement (.hardResetRecovery port) := fun _ _ h => by cases h
theorem ccOpen (port : Fin 16) : Statement (.ccOpen port) := fun _ _ h => by cases h
theorem dischargeComplete (port : Fin 16) : Statement (.dischargeComplete port) := fun _ _ h => by cases h
theorem dischargeTimeout (port : Fin 16) (mv : Fin 65536) : Statement (.dischargeTimeout port mv) := fun _ _ h => by cases h
theorem pdPolicySet (h : CmdHdr) (port swap : Byte) (policy : Word) (able : Bool) : Statement (.pdPolicySet h port swap policy able) := fun _ _ h => by cases h
theorem feedPresent (feed : Fin 2) (vrms : Fin 512) (freq : Fin 256) : Statement (.feedPresent feed vrms freq) := fun _ _ h => by cases h
theorem feedLost (feed : Fin 2) (vrms : Fin 512) (freq : Fin 256) : Statement (.feedLost feed vrms freq) := fun _ _ h => by cases h
theorem lineCategoryChange (feed : Fin 2) (high : Bool) : Statement (.lineCategoryChange feed high) := fun _ _ h => by cases h
theorem loadShedding : Statement (.loadShedding) := fun _ _ h => by cases h
theorem stageLost (stage : Fin 3) : Statement (.stageLost stage) := fun _ _ h => by cases h
theorem bothFeedsLost : Statement (.bothFeedsLost) := fun _ _ h => by cases h
theorem budgetSet (h : CmdHdr) (highCage highPd lowCage lowPd : Fin 65536) : Statement (.budgetSet h highCage highPd lowCage lowPd) := fun _ _ h => by cases h
theorem efuseEnable (h : CmdHdr) (cage value scale priority : Byte) : Statement (.efuseEnable h cage value scale priority) := fun _ _ h => by cases h
theorem efuseDisable (h : CmdHdr) (cage : Byte) : Statement (.efuseDisable h cage) := fun _ _ h => by cases h
theorem efCtlEnable (master : Fin 2048) (fuse : Fin 72) (value : Word) : Statement (.efCtlEnable master fuse value) := fun _ _ h => by cases h
theorem efCtlDisable (master : Fin 2048) (fuse : Fin 72) (value : Word) : Statement (.efCtlDisable master fuse value) := fun _ _ h => by cases h
theorem efuseGateCheck (fuse : Fin 72) (vgs : Fin 256) : Statement (.efuseGateCheck fuse vgs) := fun _ _ h => by cases h
theorem efuseGateFull (fuse : Fin 72) : Statement (.efuseGateFull fuse) := fun _ _ h => by cases h
theorem efusePowerGood (fuse : Fin 72) : Statement (.efusePowerGood fuse) := fun _ _ h => by cases h
theorem efuseCurrentLimit (fuse : Fin 72) (ma : Fin 65536) : Statement (.efuseCurrentLimit fuse ma) := fun _ _ h => by cases h
theorem efuseCurrentNormal (fuse : Fin 72) (ma : Fin 65536) : Statement (.efuseCurrentNormal fuse ma) := fun _ _ h => by cases h
theorem efuseFaultTimerExpiry (fuse : Fin 72) : Statement (.efuseFaultTimerExpiry fuse) := fun _ _ h => by cases h
theorem efuseFastTrip (fuse : Fin 72) (ma : Fin 65536) : Statement (.efuseFastTrip fuse ma) := fun _ _ h => by cases h
theorem efuseRetry (fuse : Fin 72) : Statement (.efuseRetry fuse) := fun _ _ h => by cases h
theorem efusePresenceChange (fuse : Fin 72) : Statement (.efusePresenceChange fuse) := fun _ _ h => by cases h
theorem efuseRetriesClear (fuse : Fin 72) : Statement (.efuseRetriesClear fuse) := fun _ _ h => by cases h
theorem backfeed (port : Fin 16) (mv : Fin 65536) : Statement (.backfeed port mv) := fun _ _ h => by cases h
theorem vbusSwitchTest (port : Fin 16) (rises : Bool) : Statement (.vbusSwitchTest port rises) := fun _ _ h => by cases h
theorem cagePresenceLostPowered (cage : Fin 56) : Statement (.cagePresenceLostPowered cage) := fun _ _ h => by cases h
theorem cageId (cage : Fin 56) (block : Option (List Byte)) : Statement (.cageId cage block) := fun _ _ h => by cases h
theorem cageAlert (cage : Fin 56) (status : Byte) : Statement (.cageAlert cage status) := fun _ _ h => by cases h
theorem commandNoticeIntake (channel : Fin 256) (source : Fetch) : Statement (.commandNoticeIntake channel source) := fun _ _ h => by cases h
theorem commandDone (h : CmdHdr) (far : Option RemoteResult) (commit : CmdCommit) : Statement (.commandDone h far commit) := fun _ _ h => by cases h
theorem commandForward (h : CmdHdr) (source : Fin 8192) (x : Descriptor) : Statement (.commandForward h source x) := fun _ _ h => by cases h
theorem remoteProgress (h : CmdHdr) (source : Option (Fin 8192)) : Statement (.remoteProgress h source) := fun _ _ h => by cases h
theorem remoteTimeout (h : CmdHdr) : Statement (.remoteTimeout h) := fun _ _ h => by cases h
theorem objectWaitTimeout (h : CmdHdr) : Statement (.objectWaitTimeout h) := fun _ _ h => by cases h
theorem moduleInfo (h : CmdHdr) : Statement (.moduleInfo h) := fun _ _ h => by cases h
theorem portList (h : CmdHdr) (first : Fin 65536) : Statement (.portList h first) := fun _ _ h => by cases h
theorem endpointList (h : CmdHdr) (first : Word) : Statement (.endpointList h first) := fun _ _ h => by cases h
theorem endpointInfo (h : CmdHdr) (fpid : Word) (ld : Byte) : Statement (.endpointInfo h fpid ld) := fun _ _ h => by cases h
theorem vitrineInfo (h : CmdHdr) (gvh : Word) : Statement (.vitrineInfo h gvh) := fun _ _ h => by cases h
theorem powerState (h : CmdHdr) (target auto : Byte) : Statement (.powerState h target auto) := fun _ _ h => by cases h
theorem catalogueConfig (h : CmdHdr) (scope dest : Byte) (count : Fin 65536) (first : Word) (period ring : Word) (addr : Nat) : Statement (.catalogueConfig h scope dest count first period ring addr) := fun _ _ h => by cases h
theorem specimenConfig (h : CmdHdr) (on k : Byte) (mask : Fin 65536) (port gvh ring : Word) (addr : Nat) : Statement (.specimenConfig h on k mask port gvh ring addr) := fun _ _ h => by cases h
theorem counterClearSticky (h : CmdHdr) (bank : Word) (first count : Byte) : Statement (.counterClearSticky h bank first count) := fun _ _ h => by cases h
theorem timeGet (h : CmdHdr) : Statement (.timeGet h) := fun _ _ h => by cases h
theorem timeSourceSet (h : CmdHdr) (source prio : Byte) (signal : Bool) : Statement (.timeSourceSet h source prio signal) := fun _ _ h => by cases h
theorem schedule (h : CmdHdr) (time addr : Nat) (source : Fetch) : Statement (.schedule h time addr source) := fun _ _ h => by cases h
theorem scheduleCancel (h : CmdHdr) (id : Fin 65536) : Statement (.scheduleCancel h id) := fun _ _ h => by cases h
theorem scheduledCommandDue (id : Fin 65536) : Statement (.scheduledCommandDue id) := fun _ _ h => by cases h
theorem imageStage (h : CmdHdr) (target : Byte) (length : Word) (addr : Nat) (crc : Word) (source : Fetch) : Statement (.imageStage h target length addr crc source) := fun _ _ h => by cases h
theorem fwWrite (h : CmdHdr) (target : Byte) (signed checks : Bool) (version : Fin 65536) : Statement (.fwWrite h target signed checks version) := fun _ _ h => by cases h
theorem fwActivate (h : CmdHdr) (image reset : Byte) : Statement (.fwActivate h image reset) := fun _ _ h => by cases h
theorem roleSet (h : CmdHdr) (docent role : Byte) : Statement (.roleSet h docent role) := fun _ _ h => by cases h
theorem rangeSet (h : CmdHdr) (entry flags : Byte) (base limit attr fpid : Word) (addr : Nat) : Statement (.rangeSet h entry flags base limit attr fpid addr) := fun _ _ h => by cases h
theorem moduleReset (h : CmdHdr) (confirm : Word) : Statement (.moduleReset h confirm) := fun _ _ h => by cases h
theorem mailboxPost (master : Fin 2048) (channel : Fin 256) (value : Word) : Statement (.mailboxPost master channel value) := fun _ _ h => by cases h
theorem mailboxPop (master : Fin 2048) (channel : Fin 256) (value : Word) : Statement (.mailboxPop master channel value) := fun _ _ h => by cases h
theorem mbxLockWrite (master : Fin 2048) (value : Word) : Statement (.mbxLockWrite master value) := fun _ _ h => by cases h
theorem channelAborted (master : Fin 2048) (reason : Fin 16) : Statement (.channelAborted master reason) := fun _ _ h => by cases h
theorem vmfBmeClear (lvid : Fin 1024) : Statement (.vmfBmeClear lvid) := fun _ _ h => by cases h
theorem vmfFlr (lvid : Fin 1024) : Statement (.vmfFlr lvid) := fun _ _ h => by cases h
theorem vmfReadTimeout (lvid : Fin 1024) : Statement (.vmfReadTimeout lvid) := fun _ _ h => by cases h
theorem docCoreRunSet (master : Fin 2048) (core : Fin 16) (value : Word) : Statement (.docCoreRunSet master core value) := fun _ _ h => by cases h
theorem docentReset (master : Fin 2048) (core : Fin 16) (value : Word) : Statement (.docentReset master core value) := fun _ _ h => by cases h
theorem docentFence (core : Fin 16) : Statement (.docentFence core) := fun _ _ h => by cases h
theorem docentStore (core : Fin 16) (addr : Nat) (data : List Byte) : Statement (.docentStore core addr data) := fun _ _ h => by cases h
theorem storeBufferEntryDelivery (core : Fin 16) (cached : Bool) : Statement (.storeBufferEntryDelivery core cached) := fun _ _ h => by cases h
theorem windowStoreAccepted (tried : WindowTry) : Statement (.windowStoreAccepted tried) := fun _ _ h => by cases h
theorem docentWindowLoad (master : Fin 2048) (off : Nat) (bytes : Fin 9) : Statement (.docentWindowLoad master off bytes) := fun _ _ h => by cases h
theorem prefetchMissFetch (master : Fin 2048) : Statement (.prefetchMissFetch master) := fun _ _ h => by cases h
theorem heldReadDetach (master : Fin 2048) : Statement (.heldReadDetach master) := fun _ _ h => by cases h
theorem parkedCompletionReplay (master : Fin 2048) : Statement (.parkedCompletionReplay master) := fun _ _ h => by cases h
theorem windowReadError (handle : Fin 262144) (status : Fin 8) : Statement (.windowReadError handle status) := fun _ _ h => by cases h
theorem prefetchLineExpiry : Statement (.prefetchLineExpiry) := fun _ _ h => by cases h
theorem docentLr (core : Fin 16) (addr : Nat) (bytes : Fin 9) (constrained : Bool) : Statement (.docentLr core addr bytes constrained) := fun _ _ h => by cases h
theorem docentSc (core : Fin 16) (addr : Nat) (data : List Byte) (spurious : Bool) : Statement (.docentSc core addr data spurious) := fun _ _ h => by cases h
theorem docentDeviceAtomic (core : Fin 16) (addr : Nat) (kind : Fin 3) : Statement (.docentDeviceAtomic core addr kind) := fun _ _ h => by cases h
theorem docentWfi (core : Fin 16) : Statement (.docentWfi core) := fun _ _ h => by cases h
theorem docentTimerInterrupt (core : Fin 16) (taken : Bool) : Statement (.docentTimerInterrupt core taken) := fun _ _ h => by cases h
theorem docentAccessFault (core : Fin 16) (addr : Nat) (bytes : Fin 9) (kind : Fin 3) : Statement (.docentAccessFault core addr bytes kind) := fun _ _ h => by cases h
theorem sync (port : Fin 512) (received : Option (TimeMsg × Nat × Bool)) : Statement (.sync port received) := fun _ _ h => by cases h
theorem delayReq (port : Fin 512) (arrival : Nat) (replayed : Bool) : Statement (.delayReq port arrival replayed) := fun _ _ h => by cases h
theorem delayRsp (port : Fin 512) (stamp : Nat) (replayed : Bool) : Statement (.delayRsp port stamp replayed) := fun _ _ h => by cases h
theorem parentLinkLost : Statement (.parentLinkLost) := fun _ _ h => by cases h
theorem ppsEdge (seconds : Option Nat) : Statement (.ppsEdge seconds) := fun _ _ h => by cases h
theorem timeSourceLost : Statement (.timeSourceLost) := fun _ _ h => by cases h
theorem hardwareTimedAction (action : TimedAction) : Statement (.hardwareTimedAction action) := fun _ _ h => by cases h
theorem catalogueSnapshot (tenant : Option (Fin 1024)) : Statement (.catalogueSnapshot tenant) := fun _ _ h => by cases h
theorem catalogueDumpComplete (tenant : Option (Fin 1024)) : Statement (.catalogueDumpComplete tenant) := fun _ _ h => by cases h
theorem specimenSample (tlp : Sampled) : Statement (.specimenSample tlp) := fun _ _ h => by cases h
theorem specimenRecordWrite (sample : Nat) (result : SampleEnd) (room : Bool) : Statement (.specimenRecordWrite sample result room) := fun _ _ h => by cases h
theorem telModeChanged (which : Fin 3) (on : Bool) : Statement (.telModeChanged which on) := fun _ _ h => by cases h
theorem lockstepDivergence (pair : Fin 2) : Statement (.lockstepDivergence pair) := fun _ _ h => by cases h
theorem failover : Statement (.failover) := fun _ _ h => by cases h
theorem pairSelftestDone (passed : Bool) : Statement (.pairSelftestDone passed) := fun _ _ h => by cases h
theorem tableParity (table : Fin 7) (entry : Word) (both : Bool) : Statement (.tableParity table entry both) := fun _ _ h => by cases h
theorem tableScrub (found : List (Fin 7 × Word)) : Statement (.tableScrub found) := fun _ _ h => by cases h
theorem refclkSwitch (die : Fin 7) : Statement (.refclkSwitch die) := fun _ _ h => by cases h
theorem memUncorrectable (offset : Nat) (reader : Option (Fin 16 × Bool)) : Statement (.memUncorrectable offset reader) := fun _ _ h => by cases h
theorem coolantFlowLow : Statement (.coolantFlowLow) := fun _ _ h => by cases h
theorem coolantHot : Statement (.coolantHot) := fun _ _ h => by cases h
theorem thermalWarn (die : Fin 7) (temp : Byte) : Statement (.thermalWarn die temp) := fun _ _ h => by cases h
theorem thermalTrip (die : Fin 7) : Statement (.thermalTrip die) := fun _ _ h => by cases h
theorem ambientHot (temp : Byte) : Statement (.ambientHot temp) := fun _ _ h => by cases h
theorem ageingMeasurement (die : Fin 7) (pairs : List (Nat × Nat)) (temp : Byte) : Statement (.ageingMeasurement die pairs temp) := fun _ _ h => by cases h
theorem droopRaise (rail : Fin 7) : Statement (.droopRaise rail) := fun _ _ h => by cases h
theorem avsAcknowledged (rail : Fin 7) : Statement (.avsAcknowledged rail) := fun _ _ h => by cases h
theorem avsAckTimeout (rail : Fin 7) (vout : Fin 65536) : Statement (.avsAckTimeout rail vout) := fun _ _ h => by cases h
theorem marginPlanRun (run : PlanRun) : Statement (.marginPlanRun run) := fun _ _ h => by cases h
theorem hltPlanRunWrite (master : Fin 2048) (value : Word) : Statement (.hltPlanRunWrite master value) := fun _ _ h => by cases h
theorem moduleWatchdogExpiry : Statement (.moduleWatchdogExpiry) := fun _ _ h => by cases h
theorem portDieLoss (die : Fin 4) : Statement (.portDieLoss die) := fun _ _ h => by cases h
theorem tunnelHubDieLoss : Statement (.tunnelHubDieLoss) := fun _ _ h => by cases h
theorem moduleStart (run : StartRun) : Statement (.moduleStart run) := fun _ _ h => by cases h
theorem cageGroupEnable (group : Fin 7) : Statement (.cageGroupEnable group) := fun _ _ h => by cases h
theorem moduleReady (ms : Word) (late : Bool) (steps : List (Fin 4096)) : Statement (.moduleReady ms late steps) := fun _ _ h => by cases h
theorem hello (port : Fin 512) (msg : Option HelloMsg) : Statement (.hello port msg) := fun _ _ h => by cases h
theorem adj (port : Fin 512) (msg : AdjMsg) : Statement (.adj port msg) := fun _ _ h => by cases h
theorem topologySettled (directory : List (Nat × Fin 8192)) : Statement (.topologySettled directory) := fun _ _ h => by cases h
theorem admitModule (port : Fin 512) (target : Nat) (id registrar : Fin 8192) : Statement (.admitModule port target id registrar) := fun _ _ h => by cases h
theorem compositionLoaded (gen : Nat) (homes : List (Nat × Fin 8192)) : Statement (.compositionLoaded gen homes) := fun _ _ h => by cases h
theorem routeDistribution (entries : List RouteEntry) (sent : List (Fin 8192 × List Nat)) : Statement (.routeDistribution entries sent) := fun _ _ h => by cases h
theorem vitrineRestoreAtStart (lvid : Fin 1024) (vitrine : StoredVitrine) : Statement (.vitrineRestoreAtStart lvid vitrine) := fun _ _ h => by cases h
theorem registrarLost : Statement (.registrarLost) := fun _ _ h => by cases h
theorem quietEvaluation : Statement (.quietEvaluation) := fun _ _ h => by cases h
theorem pwrModeArm (master : Fin 2048) (value : Word) : Statement (.pwrModeArm master value) := fun _ _ h => by cases h
theorem powerEntryCommit : Statement (.powerEntryCommit) := fun _ _ h => by cases h
theorem quietEntry (nak : Option (Fin 512)) : Statement (.quietEntry nak) := fun _ _ h => by cases h
theorem wakeEvent (event : Fin 10) : Statement (.wakeEvent event) := fun _ _ h => by cases h
theorem wakeReplayed : Statement (.wakeReplayed) := fun _ _ h => by cases h
theorem padReleaseWrite (master : Fin 2048) (value : Word) : Statement (.padReleaseWrite master value) := fun _ _ h => by cases h
theorem dormantEntry : Statement (.dormantEntry) := fun _ _ h => by cases h
theorem wakeN : Statement (.wakeN) := fun _ _ h => by cases h
theorem rateChangeOrdered (port : Fin 512) (rate : Fin 8) : Statement (.rateChangeOrdered port rate) := fun _ _ h => by cases h
theorem hostPerstRelease (cage : Fin 64) : Statement (.hostPerstRelease cage) := fun _ _ h => by cases h
theorem devicePerstRelease (cage : Fin 64) : Statement (.devicePerstRelease cage) := fun _ _ h => by cases h
theorem eprModeEntry (port : Fin 16) : Statement (.eprModeEntry port) := fun _ _ h => by cases h
theorem usbSuspend (remoteWakeup : Bool) : Statement (.usbSuspend remoteWakeup) := fun _ _ h => by cases h
theorem ieee1588Message (message : PtpMsg) : Statement (.ieee1588Message message) := fun _ _ h => by cases h
theorem containmentNoticeAck (modul : Fin 8192) (scope : Fin 4) (id : Fin 1024) : Statement (.containmentNoticeAck modul scope id) := fun _ _ h => by cases h
theorem pinEntryAck (modul : Fin 8192) (tcut : Nat) : Statement (.pinEntryAck modul tcut) := fun _ _ h => by cases h
theorem frontEndDisconnect (feed : Fin 2) : Statement (.frontEndDisconnect feed) := fun _ _ h => by cases h

end Sys2Proof.Laws.Row
end

