-- ==== Sys2Proof/Laws/State.lean ====
section
/-! SUPPORT. One lemma for each structure after a write of a register field, and for the registers after an update of what stands
beside them, each true by unfolding: no proof needs to unfold a record update. -/

namespace Sys2Proof.Machine

@[simp] theorem Dev.put_now (d : Dev) (f : Fld) (i v : Nat) : (d.put f i v).now = d.now := rfl
@[simp] theorem Dev.put_weir (d : Dev) (f : Fld) (i v : Nat) : (d.put f i v).weir = d.weir := rfl
@[simp] theorem Dev.put_shadows (d : Dev) (f : Fld) (i v : Nat) : (d.put f i v).shadows = d.shadows := rfl
@[simp] theorem Dev.put_drawn (d : Dev) (f : Fld) (i v : Nat) : (d.put f i v).drawn = d.drawn := rfl
@[simp] theorem Dev.put_out (d : Dev) (f : Fld) (i v : Nat) : (d.put f i v).out = d.out := rfl
@[simp] theorem Dev.put_ring (d : Dev) (f : Fld) (i v : Nat) : (d.put f i v).ring = d.ring := rfl
@[simp] theorem Dev.put_staging (d : Dev) (f : Fld) (i v : Nat) : (d.put f i v).staging = d.staging := rfl
@[simp] theorem Dev.put_overrun (d : Dev) (f : Fld) (i v : Nat) : (d.put f i v).overrun = d.overrun := rfl
@[simp] theorem Dev.put_booted (d : Dev) (f : Fld) (i v : Nat) : (d.put f i v).booted = d.booted := rfl
@[simp] theorem Dev.put_limited (d : Dev) (f : Fld) (i v : Nat) : (d.put f i v).limited = d.limited := rfl
@[simp] theorem Dev.put_masked (d : Dev) (f : Fld) (i v : Nat) : (d.put f i v).masked = d.masked := rfl
@[simp] theorem Dev.put_ctrs (d : Dev) (f : Fld) (i v : Nat) : (d.put f i v).ctrs = d.ctrs := rfl
@[simp] theorem Dev.put_injections (d : Dev) (f : Fld) (i v : Nat) : (d.put f i v).injections = d.injections := rfl
@[simp] theorem Dev.put_injecting (d : Dev) (f : Fld) (i v : Nat) : (d.put f i v).injecting = d.injecting := rfl
@[simp] theorem Dev.put_arrived (d : Dev) (f : Fld) (i v : Nat) : (d.put f i v).arrived = d.arrived := rfl
@[simp] theorem Dev.put_routed (d : Dev) (f : Fld) (i v : Nat) : (d.put f i v).routed = d.routed := rfl
@[simp] theorem Dev.put_egress (d : Dev) (f : Fld) (i v : Nat) : (d.put f i v).egress = d.egress := rfl
@[simp] theorem Dev.put_queues (d : Dev) (f : Fld) (i v : Nat) : (d.put f i v).queues = d.queues := rfl
@[simp] theorem Dev.put_cellsFree (d : Dev) (f : Fld) (i v : Nat) : (d.put f i v).cellsFree = d.cellsFree := rfl
@[simp] theorem Dev.put_cellsUsed (d : Dev) (f : Fld) (i v : Nat) : (d.put f i v).cellsUsed = d.cellsUsed := rfl
@[simp] theorem Dev.put_outs (d : Dev) (f : Fld) (i v : Nat) : (d.put f i v).outs = d.outs := rfl
@[simp] theorem Dev.put_wins (d : Dev) (f : Fld) (i v : Nat) : (d.put f i v).wins = d.wins := rfl
@[simp] theorem Dev.put_dwins (d : Dev) (f : Fld) (i v : Nat) : (d.put f i v).dwins = d.dwins := rfl
@[simp] theorem Dev.put_trk (d : Dev) (f : Fld) (i v : Nat) : (d.put f i v).trk = d.trk := rfl
@[simp] theorem Dev.put_tagHolds (d : Dev) (f : Fld) (i v : Nat) : (d.put f i v).tagHolds = d.tagHolds := rfl
@[simp] theorem Dev.put_lates (d : Dev) (f : Fld) (i v : Nat) : (d.put f i v).lates = d.lates := rfl
@[simp] theorem Dev.put_endpoints (d : Dev) (f : Fld) (i v : Nat) : (d.put f i v).endpoints = d.endpoints := rfl
@[simp] theorem Dev.put_vits (d : Dev) (f : Fld) (i v : Nat) : (d.put f i v).vits = d.vits := rfl
@[simp] theorem Dev.put_vports (d : Dev) (f : Fld) (i v : Nat) : (d.put f i v).vports = d.vports := rfl
@[simp] theorem Dev.put_vmfs (d : Dev) (f : Fld) (i v : Nat) : (d.put f i v).vmfs = d.vmfs := rfl
@[simp] theorem Dev.put_cfg (d : Dev) (f : Fld) (i v : Nat) : (d.put f i v).cfg = d.cfg := rfl
@[simp] theorem Dev.put_heldTlps (d : Dev) (f : Fld) (i v : Nat) : (d.put f i v).heldTlps = d.heldTlps := rfl
@[simp] theorem Dev.put_notices (d : Dev) (f : Fld) (i v : Nat) : (d.put f i v).notices = d.notices := rfl
@[simp] theorem Dev.put_lockSrc (d : Dev) (f : Fld) (i v : Nat) : (d.put f i v).lockSrc = d.lockSrc := rfl
@[simp] theorem Dev.put_lockSince (d : Dev) (f : Fld) (i v : Nat) : (d.put f i v).lockSince = d.lockSince := rfl
@[simp] theorem Dev.put_slots (d : Dev) (f : Fld) (i v : Nat) : (d.put f i v).slots = d.slots := rfl
@[simp] theorem Dev.put_lastTraffic (d : Dev) (f : Fld) (i v : Nat) : (d.put f i v).lastTraffic = d.lastTraffic := rfl
@[simp] theorem Dev.put_brokenQueues (d : Dev) (f : Fld) (i v : Nat) : (d.put f i v).brokenQueues = d.brokenQueues := rfl
@[simp] theorem Dev.put_links (d : Dev) (f : Fld) (i v : Nat) : (d.put f i v).links = d.links := rfl
@[simp] theorem Dev.put_shapers (d : Dev) (f : Fld) (i v : Nat) : (d.put f i v).shapers = d.shapers := rfl
@[simp] theorem Dev.put_pins (d : Dev) (f : Fld) (i v : Nat) : (d.put f i v).pins = d.pins := rfl
@[simp] theorem Dev.put_atts (d : Dev) (f : Fld) (i v : Nat) : (d.put f i v).atts = d.atts := rfl
@[simp] theorem Dev.put_pinAcks (d : Dev) (f : Fld) (i v : Nat) : (d.put f i v).pinAcks = d.pinAcks := rfl
@[simp] theorem Dev.put_registrar (d : Dev) (f : Fld) (i v : Nat) : (d.put f i v).registrar = d.registrar := rfl
@[simp] theorem Dev.put_perstReleased (d : Dev) (f : Fld) (i v : Nat) : (d.put f i v).perstReleased = d.perstReleased := rfl
@[simp] theorem Dev.put_owesDrs (d : Dev) (f : Fld) (i v : Nat) : (d.put f i v).owesDrs = d.owesDrs := rfl
@[simp] theorem Dev.put_sbSeq (d : Dev) (f : Fld) (i v : Nat) : (d.put f i v).sbSeq = d.sbSeq := rfl
@[simp] theorem Dev.put_sbSeen (d : Dev) (f : Fld) (i v : Nat) : (d.put f i v).sbSeen = d.sbSeen := rfl
@[simp] theorem Dev.put_heldCpls (d : Dev) (f : Fld) (i v : Nat) : (d.put f i v).heldCpls = d.heldCpls := rfl
@[simp] theorem Dev.put_saves (d : Dev) (f : Fld) (i v : Nat) : (d.put f i v).saves = d.saves := rfl
@[simp] theorem Dev.put_lanes (d : Dev) (f : Fld) (i v : Nat) : (d.put f i v).lanes = d.lanes := rfl
@[simp] theorem Dev.put_ports (d : Dev) (f : Fld) (i v : Nat) : (d.put f i v).ports = d.ports := rfl
@[simp] theorem Dev.put_pausedLinks (d : Dev) (f : Fld) (i v : Nat) : (d.put f i v).pausedLinks = d.pausedLinks := rfl
@[simp] theorem Dev.put_eqTable (d : Dev) (f : Fld) (i v : Nat) : (d.put f i v).eqTable = d.eqTable := rfl
@[simp] theorem Dev.put_eqReported (d : Dev) (f : Fld) (i v : Nat) : (d.put f i v).eqReported = d.eqReported := rfl
@[simp] theorem Dev.put_owesDetect (d : Dev) (f : Fld) (i v : Nat) : (d.put f i v).owesDetect = d.owesDetect := rfl
@[simp] theorem Dev.put_fronts (d : Dev) (f : Fld) (i v : Nat) : (d.put f i v).fronts = d.fronts := rfl
@[simp] theorem Dev.put_engines (d : Dev) (f : Fld) (i v : Nat) : (d.put f i v).engines = d.engines := rfl
@[simp] theorem Dev.put_inStreams (d : Dev) (f : Fld) (i v : Nat) : (d.put f i v).inStreams = d.inStreams := rfl
@[simp] theorem Dev.put_candidates (d : Dev) (f : Fld) (i v : Nat) : (d.put f i v).candidates = d.candidates := rfl
@[simp] theorem Dev.put_usbaOpen (d : Dev) (f : Fld) (i v : Nat) : (d.put f i v).usbaOpen = d.usbaOpen := rfl
@[simp] theorem Dev.put_hubPort (d : Dev) (f : Fld) (i v : Nat) : (d.put f i v).hubPort = d.hubPort := rfl
@[simp] theorem Dev.put_mud (d : Dev) (f : Fld) (i v : Nat) : (d.put f i v).mud = d.mud := rfl
@[simp] theorem Dev.put_mudDone (d : Dev) (f : Fld) (i v : Nat) : (d.put f i v).mudDone = d.mudDone := rfl
@[simp] theorem Dev.put_ringRecords (d : Dev) (f : Fld) (i v : Nat) : (d.put f i v).ringRecords = d.ringRecords := rfl
@[simp] theorem Dev.put_pds (d : Dev) (f : Fld) (i v : Nat) : (d.put f i v).pds = d.pds := rfl
@[simp] theorem Dev.put_efuses (d : Dev) (f : Fld) (i v : Nat) : (d.put f i v).efuses = d.efuses := rfl
@[simp] theorem Dev.put_efQueue (d : Dev) (f : Fld) (i v : Nat) : (d.put f i v).efQueue = d.efQueue := rfl
@[simp] theorem Dev.put_splits (d : Dev) (f : Fld) (i v : Nat) : (d.put f i v).splits = d.splits := rfl
@[simp] theorem Dev.put_feedOff (d : Dev) (f : Fld) (i v : Nat) : (d.put f i v).feedOff = d.feedOff := rfl
@[simp] theorem Dev.put_cmds (d : Dev) (f : Fld) (i v : Nat) : (d.put f i v).cmds = d.cmds := rfl
@[simp] theorem Dev.put_homes (d : Dev) (f : Fld) (i v : Nat) : (d.put f i v).homes = d.homes := rfl
@[simp] theorem Dev.put_edges (d : Dev) (f : Fld) (i v : Nat) : (d.put f i v).edges = d.edges := rfl
@[simp] theorem Dev.put_edgesOut (d : Dev) (f : Fld) (i v : Nat) : (d.put f i v).edgesOut = d.edgesOut := rfl
@[simp] theorem Dev.put_images (d : Dev) (f : Fld) (i v : Nat) : (d.put f i v).images = d.images := rfl
@[simp] theorem Dev.put_scheduled (d : Dev) (f : Fld) (i v : Nat) : (d.put f i v).scheduled = d.scheduled := rfl
@[simp] theorem Dev.put_chans (d : Dev) (f : Fld) (i v : Nat) : (d.put f i v).chans = d.chans := rfl
@[simp] theorem Dev.put_pfLines (d : Dev) (f : Fld) (i v : Nat) : (d.put f i v).pfLines = d.pfLines := rfl
@[simp] theorem Dev.put_pfLog (d : Dev) (f : Fld) (i v : Nat) : (d.put f i v).pfLog = d.pfLog := rfl
@[simp] theorem Dev.put_pfSeq (d : Dev) (f : Fld) (i v : Nat) : (d.put f i v).pfSeq = d.pfSeq := rfl
@[simp] theorem Dev.put_winReads (d : Dev) (f : Fld) (i v : Nat) : (d.put f i v).winReads = d.winReads := rfl
@[simp] theorem Dev.put_winFetches (d : Dev) (f : Fld) (i v : Nat) : (d.put f i v).winFetches = d.winFetches := rfl
@[simp] theorem Dev.put_winStores (d : Dev) (f : Fld) (i v : Nat) : (d.put f i v).winStores = d.winStores := rfl
@[simp] theorem Dev.put_heldRemote (d : Dev) (f : Fld) (i v : Nat) : (d.put f i v).heldRemote = d.heldRemote := rfl
@[simp] theorem Dev.put_cores (d : Dev) (f : Fld) (i v : Nat) : (d.put f i v).cores = d.cores := rfl
@[simp] theorem Dev.put_time (d : Dev) (f : Fld) (i v : Nat) : (d.put f i v).time = d.time := rfl
@[simp] theorem Dev.put_cats (d : Dev) (f : Fld) (i v : Nat) : (d.put f i v).cats = d.cats := rfl
@[simp] theorem Dev.put_spcs (d : Dev) (f : Fld) (i v : Nat) : (d.put f i v).spcs = d.spcs := rfl
@[simp] theorem Dev.put_samples (d : Dev) (f : Fld) (i v : Nat) : (d.put f i v).samples = d.samples := rfl
@[simp] theorem Dev.put_rails (d : Dev) (f : Fld) (i v : Nat) : (d.put f i v).rails = d.rails := rfl
@[simp] theorem Dev.put_refB (d : Dev) (f : Fld) (i v : Nat) : (d.put f i v).refB = d.refB := rfl
@[simp] theorem Dev.put_halted (d : Dev) (f : Fld) (i v : Nat) : (d.put f i v).halted = d.halted := rfl
@[simp] theorem Dev.put_haltedBy (d : Dev) (f : Fld) (i v : Nat) : (d.put f i v).haltedBy = d.haltedBy := rfl
@[simp] theorem Dev.put_conditions (d : Dev) (f : Fld) (i v : Nat) : (d.put f i v).conditions = d.conditions := rfl
@[simp] theorem Dev.put_alertUntil (d : Dev) (f : Fld) (i v : Nat) : (d.put f i v).alertUntil = d.alertUntil := rfl
@[simp] theorem Dev.put_tripped (d : Dev) (f : Fld) (i v : Nat) : (d.put f i v).tripped = d.tripped := rfl
@[simp] theorem Dev.put_lostDies (d : Dev) (f : Fld) (i v : Nat) : (d.put f i v).lostDies = d.lostDies := rfl
@[simp] theorem Dev.put_withheld (d : Dev) (f : Fld) (i v : Nat) : (d.put f i v).withheld = d.withheld := rfl
@[simp] theorem Dev.put_topo (d : Dev) (f : Fld) (i v : Nat) : (d.put f i v).topo = d.topo := rfl
@[simp] theorem Dev.put_partners (d : Dev) (f : Fld) (i v : Nat) : (d.put f i v).partners = d.partners := rfl
@[simp] theorem Dev.put_ownAseq (d : Dev) (f : Fld) (i v : Nat) : (d.put f i v).ownAseq = d.ownAseq := rfl
@[simp] theorem Dev.put_described (d : Dev) (f : Fld) (i v : Nat) : (d.put f i v).described = d.described := rfl
@[simp] theorem Dev.put_elected (d : Dev) (f : Fld) (i v : Nat) : (d.put f i v).elected = d.elected := rfl
@[simp] theorem Dev.put_assigned (d : Dev) (f : Fld) (i v : Nat) : (d.put f i v).assigned = d.assigned := rfl
@[simp] theorem Dev.put_bootFailed (d : Dev) (f : Fld) (i v : Nat) : (d.put f i v).bootFailed = d.bootFailed := rfl
@[simp] theorem Dev.put_orphaned (d : Dev) (f : Fld) (i v : Nat) : (d.put f i v).orphaned = d.orphaned := rfl
@[simp] theorem Dev.put_conflict (d : Dev) (f : Fld) (i v : Nat) : (d.put f i v).conflict = d.conflict := rfl
@[simp] theorem Dev.put_supply (d : Dev) (f : Fld) (i v : Nat) : (d.put f i v).supply = d.supply := rfl
@[simp] theorem Dev.put_byCommand (d : Dev) (f : Fld) (i v : Nat) : (d.put f i v).byCommand = d.byCommand := rfl
@[simp] theorem Dev.put_tried (d : Dev) (f : Fld) (i v : Nat) : (d.put f i v).tried = d.tried := rfl
@[simp] theorem Dev.put_latched (d : Dev) (f : Fld) (i v : Nat) : (d.put f i v).latched = d.latched := rfl
@[simp] theorem Dev.put_trafficAt (d : Dev) (f : Fld) (i v : Nat) : (d.put f i v).trafficAt = d.trafficAt := rfl

@[simp] theorem Dev.get_with_now (d : Dev) (f : Fld) (i : Nat) (x) : Dev.get { d with now := x } f i = d.get f i := rfl
@[simp] theorem Dev.get_with_weir (d : Dev) (f : Fld) (i : Nat) (x) : Dev.get { d with weir := x } f i = d.get f i := rfl
@[simp] theorem Dev.get_with_shadows (d : Dev) (f : Fld) (i : Nat) (x) : Dev.get { d with shadows := x } f i = d.get f i := rfl
@[simp] theorem Dev.get_with_drawn (d : Dev) (f : Fld) (i : Nat) (x) : Dev.get { d with drawn := x } f i = d.get f i := rfl
@[simp] theorem Dev.get_with_out (d : Dev) (f : Fld) (i : Nat) (x) : Dev.get { d with out := x } f i = d.get f i := rfl
@[simp] theorem Dev.get_with_ring (d : Dev) (f : Fld) (i : Nat) (x) : Dev.get { d with ring := x } f i = d.get f i := rfl
@[simp] theorem Dev.get_with_staging (d : Dev) (f : Fld) (i : Nat) (x) : Dev.get { d with staging := x } f i = d.get f i := rfl
@[simp] theorem Dev.get_with_overrun (d : Dev) (f : Fld) (i : Nat) (x) : Dev.get { d with overrun := x } f i = d.get f i := rfl
@[simp] theorem Dev.get_with_booted (d : Dev) (f : Fld) (i : Nat) (x) : Dev.get { d with booted := x } f i = d.get f i := rfl
@[simp] theorem Dev.get_with_limited (d : Dev) (f : Fld) (i : Nat) (x) : Dev.get { d with limited := x } f i = d.get f i := rfl
@[simp] theorem Dev.get_with_masked (d : Dev) (f : Fld) (i : Nat) (x) : Dev.get { d with masked := x } f i = d.get f i := rfl
@[simp] theorem Dev.get_with_ctrs (d : Dev) (f : Fld) (i : Nat) (x) : Dev.get { d with ctrs := x } f i = d.get f i := rfl
@[simp] theorem Dev.get_with_injections (d : Dev) (f : Fld) (i : Nat) (x) : Dev.get { d with injections := x } f i = d.get f i := rfl
@[simp] theorem Dev.get_with_injecting (d : Dev) (f : Fld) (i : Nat) (x) : Dev.get { d with injecting := x } f i = d.get f i := rfl
@[simp] theorem Dev.get_with_arrived (d : Dev) (f : Fld) (i : Nat) (x) : Dev.get { d with arrived := x } f i = d.get f i := rfl
@[simp] theorem Dev.get_with_routed (d : Dev) (f : Fld) (i : Nat) (x) : Dev.get { d with routed := x } f i = d.get f i := rfl
@[simp] theorem Dev.get_with_egress (d : Dev) (f : Fld) (i : Nat) (x) : Dev.get { d with egress := x } f i = d.get f i := rfl
@[simp] theorem Dev.get_with_queues (d : Dev) (f : Fld) (i : Nat) (x) : Dev.get { d with queues := x } f i = d.get f i := rfl
@[simp] theorem Dev.get_with_cellsFree (d : Dev) (f : Fld) (i : Nat) (x) : Dev.get { d with cellsFree := x } f i = d.get f i := rfl
@[simp] theorem Dev.get_with_cellsUsed (d : Dev) (f : Fld) (i : Nat) (x) : Dev.get { d with cellsUsed := x } f i = d.get f i := rfl
@[simp] theorem Dev.get_with_outs (d : Dev) (f : Fld) (i : Nat) (x) : Dev.get { d with outs := x } f i = d.get f i := rfl
@[simp] theorem Dev.get_with_wins (d : Dev) (f : Fld) (i : Nat) (x) : Dev.get { d with wins := x } f i = d.get f i := rfl
@[simp] theorem Dev.get_with_dwins (d : Dev) (f : Fld) (i : Nat) (x) : Dev.get { d with dwins := x } f i = d.get f i := rfl
@[simp] theorem Dev.get_with_trk (d : Dev) (f : Fld) (i : Nat) (x) : Dev.get { d with trk := x } f i = d.get f i := rfl
@[simp] theorem Dev.get_with_tagHolds (d : Dev) (f : Fld) (i : Nat) (x) : Dev.get { d with tagHolds := x } f i = d.get f i := rfl
@[simp] theorem Dev.get_with_lates (d : Dev) (f : Fld) (i : Nat) (x) : Dev.get { d with lates := x } f i = d.get f i := rfl
@[simp] theorem Dev.get_with_endpoints (d : Dev) (f : Fld) (i : Nat) (x) : Dev.get { d with endpoints := x } f i = d.get f i := rfl
@[simp] theorem Dev.get_with_vits (d : Dev) (f : Fld) (i : Nat) (x) : Dev.get { d with vits := x } f i = d.get f i := rfl
@[simp] theorem Dev.get_with_vports (d : Dev) (f : Fld) (i : Nat) (x) : Dev.get { d with vports := x } f i = d.get f i := rfl
@[simp] theorem Dev.get_with_vmfs (d : Dev) (f : Fld) (i : Nat) (x) : Dev.get { d with vmfs := x } f i = d.get f i := rfl
@[simp] theorem Dev.get_with_cfg (d : Dev) (f : Fld) (i : Nat) (x) : Dev.get { d with cfg := x } f i = d.get f i := rfl
@[simp] theorem Dev.get_with_heldTlps (d : Dev) (f : Fld) (i : Nat) (x) : Dev.get { d with heldTlps := x } f i = d.get f i := rfl
@[simp] theorem Dev.get_with_notices (d : Dev) (f : Fld) (i : Nat) (x) : Dev.get { d with notices := x } f i = d.get f i := rfl
@[simp] theorem Dev.get_with_lockSrc (d : Dev) (f : Fld) (i : Nat) (x) : Dev.get { d with lockSrc := x } f i = d.get f i := rfl
@[simp] theorem Dev.get_with_lockSince (d : Dev) (f : Fld) (i : Nat) (x) : Dev.get { d with lockSince := x } f i = d.get f i := rfl
@[simp] theorem Dev.get_with_slots (d : Dev) (f : Fld) (i : Nat) (x) : Dev.get { d with slots := x } f i = d.get f i := rfl
@[simp] theorem Dev.get_with_lastTraffic (d : Dev) (f : Fld) (i : Nat) (x) : Dev.get { d with lastTraffic := x } f i = d.get f i := rfl
@[simp] theorem Dev.get_with_brokenQueues (d : Dev) (f : Fld) (i : Nat) (x) : Dev.get { d with brokenQueues := x } f i = d.get f i := rfl
@[simp] theorem Dev.get_with_links (d : Dev) (f : Fld) (i : Nat) (x) : Dev.get { d with links := x } f i = d.get f i := rfl
@[simp] theorem Dev.get_with_shapers (d : Dev) (f : Fld) (i : Nat) (x) : Dev.get { d with shapers := x } f i = d.get f i := rfl
@[simp] theorem Dev.get_with_pins (d : Dev) (f : Fld) (i : Nat) (x) : Dev.get { d with pins := x } f i = d.get f i := rfl
@[simp] theorem Dev.get_with_atts (d : Dev) (f : Fld) (i : Nat) (x) : Dev.get { d with atts := x } f i = d.get f i := rfl
@[simp] theorem Dev.get_with_pinAcks (d : Dev) (f : Fld) (i : Nat) (x) : Dev.get { d with pinAcks := x } f i = d.get f i := rfl
@[simp] theorem Dev.get_with_registrar (d : Dev) (f : Fld) (i : Nat) (x) : Dev.get { d with registrar := x } f i = d.get f i := rfl
@[simp] theorem Dev.get_with_perstReleased (d : Dev) (f : Fld) (i : Nat) (x) : Dev.get { d with perstReleased := x } f i = d.get f i := rfl
@[simp] theorem Dev.get_with_owesDrs (d : Dev) (f : Fld) (i : Nat) (x) : Dev.get { d with owesDrs := x } f i = d.get f i := rfl
@[simp] theorem Dev.get_with_sbSeq (d : Dev) (f : Fld) (i : Nat) (x) : Dev.get { d with sbSeq := x } f i = d.get f i := rfl
@[simp] theorem Dev.get_with_sbSeen (d : Dev) (f : Fld) (i : Nat) (x) : Dev.get { d with sbSeen := x } f i = d.get f i := rfl
@[simp] theorem Dev.get_with_heldCpls (d : Dev) (f : Fld) (i : Nat) (x) : Dev.get { d with heldCpls := x } f i = d.get f i := rfl
@[simp] theorem Dev.get_with_saves (d : Dev) (f : Fld) (i : Nat) (x) : Dev.get { d with saves := x } f i = d.get f i := rfl
@[simp] theorem Dev.get_with_lanes (d : Dev) (f : Fld) (i : Nat) (x) : Dev.get { d with lanes := x } f i = d.get f i := rfl
@[simp] theorem Dev.get_with_ports (d : Dev) (f : Fld) (i : Nat) (x) : Dev.get { d with ports := x } f i = d.get f i := rfl
@[simp] theorem Dev.get_with_pausedLinks (d : Dev) (f : Fld) (i : Nat) (x) : Dev.get { d with pausedLinks := x } f i = d.get f i := rfl
@[simp] theorem Dev.get_with_eqTable (d : Dev) (f : Fld) (i : Nat) (x) : Dev.get { d with eqTable := x } f i = d.get f i := rfl
@[simp] theorem Dev.get_with_eqReported (d : Dev) (f : Fld) (i : Nat) (x) : Dev.get { d with eqReported := x } f i = d.get f i := rfl
@[simp] theorem Dev.get_with_owesDetect (d : Dev) (f : Fld) (i : Nat) (x) : Dev.get { d with owesDetect := x } f i = d.get f i := rfl
@[simp] theorem Dev.get_with_fronts (d : Dev) (f : Fld) (i : Nat) (x) : Dev.get { d with fronts := x } f i = d.get f i := rfl
@[simp] theorem Dev.get_with_engines (d : Dev) (f : Fld) (i : Nat) (x) : Dev.get { d with engines := x } f i = d.get f i := rfl
@[simp] theorem Dev.get_with_inStreams (d : Dev) (f : Fld) (i : Nat) (x) : Dev.get { d with inStreams := x } f i = d.get f i := rfl
@[simp] theorem Dev.get_with_candidates (d : Dev) (f : Fld) (i : Nat) (x) : Dev.get { d with candidates := x } f i = d.get f i := rfl
@[simp] theorem Dev.get_with_usbaOpen (d : Dev) (f : Fld) (i : Nat) (x) : Dev.get { d with usbaOpen := x } f i = d.get f i := rfl
@[simp] theorem Dev.get_with_hubPort (d : Dev) (f : Fld) (i : Nat) (x) : Dev.get { d with hubPort := x } f i = d.get f i := rfl
@[simp] theorem Dev.get_with_mud (d : Dev) (f : Fld) (i : Nat) (x) : Dev.get { d with mud := x } f i = d.get f i := rfl
@[simp] theorem Dev.get_with_mudDone (d : Dev) (f : Fld) (i : Nat) (x) : Dev.get { d with mudDone := x } f i = d.get f i := rfl
@[simp] theorem Dev.get_with_ringRecords (d : Dev) (f : Fld) (i : Nat) (x) : Dev.get { d with ringRecords := x } f i = d.get f i := rfl
@[simp] theorem Dev.get_with_pds (d : Dev) (f : Fld) (i : Nat) (x) : Dev.get { d with pds := x } f i = d.get f i := rfl
@[simp] theorem Dev.get_with_efuses (d : Dev) (f : Fld) (i : Nat) (x) : Dev.get { d with efuses := x } f i = d.get f i := rfl
@[simp] theorem Dev.get_with_efQueue (d : Dev) (f : Fld) (i : Nat) (x) : Dev.get { d with efQueue := x } f i = d.get f i := rfl
@[simp] theorem Dev.get_with_splits (d : Dev) (f : Fld) (i : Nat) (x) : Dev.get { d with splits := x } f i = d.get f i := rfl
@[simp] theorem Dev.get_with_feedOff (d : Dev) (f : Fld) (i : Nat) (x) : Dev.get { d with feedOff := x } f i = d.get f i := rfl
@[simp] theorem Dev.get_with_cmds (d : Dev) (f : Fld) (i : Nat) (x) : Dev.get { d with cmds := x } f i = d.get f i := rfl
@[simp] theorem Dev.get_with_homes (d : Dev) (f : Fld) (i : Nat) (x) : Dev.get { d with homes := x } f i = d.get f i := rfl
@[simp] theorem Dev.get_with_edges (d : Dev) (f : Fld) (i : Nat) (x) : Dev.get { d with edges := x } f i = d.get f i := rfl
@[simp] theorem Dev.get_with_edgesOut (d : Dev) (f : Fld) (i : Nat) (x) : Dev.get { d with edgesOut := x } f i = d.get f i := rfl
@[simp] theorem Dev.get_with_images (d : Dev) (f : Fld) (i : Nat) (x) : Dev.get { d with images := x } f i = d.get f i := rfl
@[simp] theorem Dev.get_with_scheduled (d : Dev) (f : Fld) (i : Nat) (x) : Dev.get { d with scheduled := x } f i = d.get f i := rfl
@[simp] theorem Dev.get_with_chans (d : Dev) (f : Fld) (i : Nat) (x) : Dev.get { d with chans := x } f i = d.get f i := rfl
@[simp] theorem Dev.get_with_pfLines (d : Dev) (f : Fld) (i : Nat) (x) : Dev.get { d with pfLines := x } f i = d.get f i := rfl
@[simp] theorem Dev.get_with_pfLog (d : Dev) (f : Fld) (i : Nat) (x) : Dev.get { d with pfLog := x } f i = d.get f i := rfl
@[simp] theorem Dev.get_with_pfSeq (d : Dev) (f : Fld) (i : Nat) (x) : Dev.get { d with pfSeq := x } f i = d.get f i := rfl
@[simp] theorem Dev.get_with_winReads (d : Dev) (f : Fld) (i : Nat) (x) : Dev.get { d with winReads := x } f i = d.get f i := rfl
@[simp] theorem Dev.get_with_winFetches (d : Dev) (f : Fld) (i : Nat) (x) : Dev.get { d with winFetches := x } f i = d.get f i := rfl
@[simp] theorem Dev.get_with_winStores (d : Dev) (f : Fld) (i : Nat) (x) : Dev.get { d with winStores := x } f i = d.get f i := rfl
@[simp] theorem Dev.get_with_heldRemote (d : Dev) (f : Fld) (i : Nat) (x) : Dev.get { d with heldRemote := x } f i = d.get f i := rfl
@[simp] theorem Dev.get_with_cores (d : Dev) (f : Fld) (i : Nat) (x) : Dev.get { d with cores := x } f i = d.get f i := rfl
@[simp] theorem Dev.get_with_time (d : Dev) (f : Fld) (i : Nat) (x) : Dev.get { d with time := x } f i = d.get f i := rfl
@[simp] theorem Dev.get_with_cats (d : Dev) (f : Fld) (i : Nat) (x) : Dev.get { d with cats := x } f i = d.get f i := rfl
@[simp] theorem Dev.get_with_spcs (d : Dev) (f : Fld) (i : Nat) (x) : Dev.get { d with spcs := x } f i = d.get f i := rfl
@[simp] theorem Dev.get_with_samples (d : Dev) (f : Fld) (i : Nat) (x) : Dev.get { d with samples := x } f i = d.get f i := rfl
@[simp] theorem Dev.get_with_rails (d : Dev) (f : Fld) (i : Nat) (x) : Dev.get { d with rails := x } f i = d.get f i := rfl
@[simp] theorem Dev.get_with_refB (d : Dev) (f : Fld) (i : Nat) (x) : Dev.get { d with refB := x } f i = d.get f i := rfl
@[simp] theorem Dev.get_with_halted (d : Dev) (f : Fld) (i : Nat) (x) : Dev.get { d with halted := x } f i = d.get f i := rfl
@[simp] theorem Dev.get_with_haltedBy (d : Dev) (f : Fld) (i : Nat) (x) : Dev.get { d with haltedBy := x } f i = d.get f i := rfl
@[simp] theorem Dev.get_with_conditions (d : Dev) (f : Fld) (i : Nat) (x) : Dev.get { d with conditions := x } f i = d.get f i := rfl
@[simp] theorem Dev.get_with_alertUntil (d : Dev) (f : Fld) (i : Nat) (x) : Dev.get { d with alertUntil := x } f i = d.get f i := rfl
@[simp] theorem Dev.get_with_tripped (d : Dev) (f : Fld) (i : Nat) (x) : Dev.get { d with tripped := x } f i = d.get f i := rfl
@[simp] theorem Dev.get_with_lostDies (d : Dev) (f : Fld) (i : Nat) (x) : Dev.get { d with lostDies := x } f i = d.get f i := rfl
@[simp] theorem Dev.get_with_withheld (d : Dev) (f : Fld) (i : Nat) (x) : Dev.get { d with withheld := x } f i = d.get f i := rfl
@[simp] theorem Dev.get_with_topo (d : Dev) (f : Fld) (i : Nat) (x) : Dev.get { d with topo := x } f i = d.get f i := rfl
@[simp] theorem Dev.get_with_partners (d : Dev) (f : Fld) (i : Nat) (x) : Dev.get { d with partners := x } f i = d.get f i := rfl
@[simp] theorem Dev.get_with_ownAseq (d : Dev) (f : Fld) (i : Nat) (x) : Dev.get { d with ownAseq := x } f i = d.get f i := rfl
@[simp] theorem Dev.get_with_described (d : Dev) (f : Fld) (i : Nat) (x) : Dev.get { d with described := x } f i = d.get f i := rfl
@[simp] theorem Dev.get_with_elected (d : Dev) (f : Fld) (i : Nat) (x) : Dev.get { d with elected := x } f i = d.get f i := rfl
@[simp] theorem Dev.get_with_assigned (d : Dev) (f : Fld) (i : Nat) (x) : Dev.get { d with assigned := x } f i = d.get f i := rfl
@[simp] theorem Dev.get_with_bootFailed (d : Dev) (f : Fld) (i : Nat) (x) : Dev.get { d with bootFailed := x } f i = d.get f i := rfl
@[simp] theorem Dev.get_with_orphaned (d : Dev) (f : Fld) (i : Nat) (x) : Dev.get { d with orphaned := x } f i = d.get f i := rfl
@[simp] theorem Dev.get_with_conflict (d : Dev) (f : Fld) (i : Nat) (x) : Dev.get { d with conflict := x } f i = d.get f i := rfl
@[simp] theorem Dev.get_with_supply (d : Dev) (f : Fld) (i : Nat) (x) : Dev.get { d with supply := x } f i = d.get f i := rfl
@[simp] theorem Dev.get_with_byCommand (d : Dev) (f : Fld) (i : Nat) (x) : Dev.get { d with byCommand := x } f i = d.get f i := rfl
@[simp] theorem Dev.get_with_tried (d : Dev) (f : Fld) (i : Nat) (x) : Dev.get { d with tried := x } f i = d.get f i := rfl
@[simp] theorem Dev.get_with_latched (d : Dev) (f : Fld) (i : Nat) (x) : Dev.get { d with latched := x } f i = d.get f i := rfl
@[simp] theorem Dev.get_with_trafficAt (d : Dev) (f : Fld) (i : Nat) (x) : Dev.get { d with trafficAt := x } f i = d.get f i := rfl

@[simp] theorem Dev.emit_out (d : Dev) (o : Out) : (d.emit o).out = d.out ++ [o] := rfl
@[simp] theorem Dev.emit_get (d : Dev) (o : Out) (f : Fld) (i : Nat) : (d.emit o).get f i = d.get f i := rfl
@[simp] theorem Dev.count_get (d : Dev) (w n : Nat) (f : Fld) (i : Nat) : (d.count w n).get f i = d.get f i := rfl
@[simp] theorem Dev.when_true (d : Dev) (f : Dev → Dev) : d.when true f = f d := rfl
@[simp] theorem Dev.when_false (d : Dev) (f : Dev → Dev) : d.when false f = d := rfl

end Sys2Proof.Machine
end

