-- ==== Sys2Proof/WellFormed.lean ====
section
/-! DEFINITION. Well-formed commands: operands that Lean's numbers and lists leave unbounded lie in the ranges the manual gives them. The
meanings need no such hypothesis; statements about what a real interface can send may ask for it. -/

namespace Sys2Proof

/-- A number of n bits. -/
def fits (n v : Nat) : Bool := decide (v < 2 ^ n)

/-- Sizes a core's access has (R407). -/
def accessBytes (n : Nat) : Bool := n == 1 || n == 2 || n == 4 || n == 8

/-- A TLP within R108: 14-bit tags, payloads and read requests of at most 4,096 bytes, a header that R144 holds; its data is all there. -/
def Tlp.ok (t : Tlp) : Bool :=
  fits 64 t.addr && fits 16 t.target && fits 16 t.requester && fits 14 t.tag && fits 16 t.completer && fits 3 t.status &&
    decide (t.bytes ≤ 4096) && decide (t.header ≤ 40) && fits 16 t.ldId && fits 4 t.be &&
    decide (t.data.length = if t.hasData then t.bytes else 0)

/-- A CXL.mem message (R150). -/
def MemMsg.ok (m : MemMsg) : Bool := fits 64 m.addr && fits 16 m.tag && fits 16 m.ldId

/-- What a frame carries. -/
def Body.ok (b : Body) : Bool :=
  match b with
  | .tlp t => t.ok
  | .mem m => m.ok
  | .credit _ cseq value => fits 16 cseq && fits 32 value
  | .time m => fits 64 m.stamp
  | .mgmt _ => true
  | .console c => fits 8 c.engine && fits 8 c.flags && fits 16 c.line && fits 16 c.x && fits 16 c.count && decide (c.pixels.length ≤ 4096)
  | .raw n => decide (n ≤ 4160)

/-- The header of a command (R361). -/
def CmdHdr.ok (h : CmdHdr) : Bool := fits 64 h.addr && fits 11 h.caller && fits 32 h.tag && fits 16 h.modul

/-- A descriptor's fields (R361). -/
def Descriptor.ok (x : Descriptor) : Bool :=
  fits 16 x.opcode && fits 16 x.flags && fits 32 x.tag && fits 16 x.length && fits 16 x.modul && fits 8 x.role && fits 8 x.byte15

/-- Where a register access goes (R8, R301, R384). -/
def RegAt.ok (a : RegAt) : Bool :=
  match a with
  | .device addr => fits 64 addr
  | .bar0 off => fits 16 off
  | .bar2 _ off => fits 14 off

/-- BARs by size, log 2, and base (R215, R216): aligned to their size. -/
def barsOk (bs : List (Nat × Nat)) : Bool := decide (bs.length ≤ 6) && bs.all fun b => decide (b.1 < 64) && fits 64 b.2 && b.2 % 2 ^ b.1 == 0

/-- What Accession finds at an endpoint. -/
def Found.ok (f : Found) : Bool := f.ldId.all (fun l => decide (l < 16)) && barsOk f.bars && fits 16 f.busDev && decide (f.front < 16)

/-- PARAMS (R92). -/
def Params.ok (p : Params) : Bool := fits 22 p.fpid && decide (p.width ≤ 4) && p.rates.all (decide <| · ≤ 7)

/-- What a capability exchange finds (R107). -/
def Capx.ok (c : Capx) : Bool := decide (c.width ≤ 4) && decide (1 ≤ c.rate) && decide (c.rate ≤ 7)

/-- Margins in the units of R58. -/
def Eye.ok (e : Eye) : Bool := fits 6 e.left && fits 6 e.right && fits 6 e.up && fits 6 e.down

/-- Taps a partner asks for (R41). -/
def TapRequest.ok (r : TapRequest) : Bool :=
  match r with
  | .coefficients pre post => fits 6 pre && fits 6 post
  | .preset _ => true

/-- A timing (R299). -/
def Timing.ok (t : Timing) : Bool := fits 16 t.w && fits 16 t.h && fits 16 t.refresh

/-- A save image's numbers (R260). -/
def Image.ok (x : Image) : Bool :=
  fits 23 x.gvh && fits 13 x.srcModule && fits 10 x.srcLvid && decide (1 ≤ x.nvdp) && decide (x.nvdp ≤ 64) && decide (x.bindings.length ≤ x.nvdp)

/-- A sampled TLP (R453). -/
def Sampled.ok (t : Sampled) : Bool := fits 22 t.src && fits 22 t.dst && fits 23 t.gvh && decide (t.hdr.length ≤ 16)

/-- A Vitrine of the composition store (R487). -/
def StoredVitrine.ok (v : StoredVitrine) : Bool :=
  fits 23 v.gvh && decide (v.port < 512) && decide (1 ≤ v.nvdp) && decide (v.nvdp ≤ 64) && decide (v.bindings.length ≤ v.nvdp)

/-- A HELLO (R480). -/
def HelloMsg.ok (h : HelloMsg) : Bool := fits 8 h.prio && fits 64 h.serial && h.lastId.all fun n => decide (n < 8192)

/-- An ADJ (R480, R481). -/
def AdjMsg.ok (a : AdjMsg) : Bool := a.origin.ok && decide (a.part < a.parts) && a.links.all fun l => decide (l.port < 512) && fits 64 l.partner

/-- A command whose operands the interfaces could carry. -/
def Instr.wellFormed (i : Instr) : Bool :=
  match i with
  | .moduleResetEvent => true
  | .registerWrite _ place _ => place.ok
  | .regAccessBad _ place _ => place.ok
  | .regPairLowRead _ place => place.ok
  | .regPairHighRead _ place => place.ok
  | .readClearFieldRead _ place => place.ok
  | .laneEnableSet _ _ => true
  | .laneEnableCleared _ _ => true
  | .laneTxEqWrite _ _ _ _ => true
  | .cagePowerGoodLaneRelease _ => true
  | .receiverDetected _ => true
  | .detectTimerExpiry _ => true
  | .bitLockAcquired _ => true
  | .symbolLockAcquired _ _ => true
  | .rearSymlockTimeout _ => true
  | .bitslipSearchStep _ _ _ => true
  | .lnaBitslipDelayWrite _ _ _ => true
  | .bitslipDelayApplied _ => true
  | .partnerCoefficientRequest _ request => request.ok
  | .tapsAgreed _ _ => true
  | .capxExchangeComplete _ found => found.ok
  | .laneAttemptTimerExpiry _ => true
  | .laneBitLockLost _ => true
  | .deskewFail _ _ => true
  | .laneRetirement _ => true
  | .marginScanStart _ _ _ => true
  | .marginScanAbort _ _ _ => true
  | .marginScanComplete _ eyes _ => eyes.all Eye.ok
  | .loadTriggerEvaluation _ _ _ => true
  | .fabricLinkReequalisation _ _ _ => true
  | .pcieReeqWindowOpen _ _ _ => true
  | .reeqDeferred _ => true
  | .flitReceived _ bytes bodies => bodies.all Body.ok && decide (bytes.length ≤ 256)
  | .nakReceived _ _ => true
  | .replayTimerExpiry _ => true
  | .alignmentMarker _ _ => true
  | .echoReq _ _ => true
  | .echoRsp _ tag turnaround => fits 64 tag && fits 64 turnaround
  | .params _ partner => partner.ok
  | .linkCtlRetryTimer _ => true
  | .fabricLaneLost _ => true
  | .widthReq _ _ _ => true
  | .widthAck _ _ _ => true
  | .resume _ _ => true
  | .linkWidthIncrease _ _ => true
  | .speedReq _ _ => true
  | .speedChangeTimeout _ => true
  | .pauseReq _ _ => true
  | .pauseAck _ => true
  | .creditFrameReceived _ _ _ _ _ => true
  | .creditReturnSend _ _ => true
  | .creditWindowGrant _ _ _ _ => true
  | .creditQuietPoint _ => true
  | .resyncStart _ => true
  | .resyncReq _ _ _ => true
  | .resyncAck _ _ _ _ => true
  | .resyncTimeout _ => true
  | .portConfig h _ _ _ _ _ _ _ _ _ => h.ok
  | .portEnable h _ _ => h.ok
  | .eqTableLoad h addr _ _ => h.ok && fits 64 addr
  | .marginScan h _ _ _ _ _ _ _ => h.ok
  | .bitslip h _ _ _ _ => h.ok
  | .retrain h _ _ => h.ok
  | .tlpIngress _ t => t.ok
  | .tlpEgress _ => true
  | .cxlMemRequest _ m => m.ok
  | .intxMessage _ _ _ _ _ => true
  | .errorMessage _ _ _ => true
  | .pmeTurnOff _ => true
  | .pmeToAck _ _ => true
  | .pmeToAckTimeout _ => true
  | .ltrMessage _ _ _ ns => fits 64 ns
  | .ltrUpstreamSend _ => true
  | .messageDiscarded _ => true
  | .mrdlk _ _ _ t => t.ok
  | .cpldlk _ t _ => t.ok
  | .unlock _ _ => true
  | .lockTimerExpiry _ => true
  | .lockSideListMove _ => true
  | .completionReceived _ body => body.ok
  | .trackerDeadline _ => true
  | .lateCompletion _ _ body => body.ok
  | .unexpectedCompletion _ _ body => body.ok
  | .tagQuarantineExpiry _ tag => fits 64 tag
  | .lateRecordExpiry _ _ tag => fits 64 tag
  | .drsReceived _ _ => true
  | .drsWaitExpiry _ => true
  | .rrsRetryLimit _ _ => true
  | .pendingEndpointReset _ => true
  | .hostPerstAsserted _ => true
  | .hotResetReceived _ => true
  | .upstreamDlActiveLost _ => true
  | .upstreamDlActive _ => true
  | .rrsExpired _ => true
  | .surpriseRemoval _ _ => true
  | .presenceDebounced _ => true
  | .attentionButton _ => true
  | .sidebandFrame _ _ _ _ _ => true
  | .slotControlWrite _ _ _ _ _ _ => true
  | .barWrite _ _ _ _ _ _ => true
  | .secondaryBusReset _ _ _ => true
  | .endpointFlr _ t => t.ok
  | .dpcTriggerStatusClear _ _ => true
  | .aspmL1IdleTimer _ _ => true
  | .endpointL1Request _ _ => true
  | .l0pEvaluation _ _ _ => true
  | .frameAdmission => true
  | .frameSelection _ _ => true
  | .ageDiscard _ => true
  | .queueHeadAgeCheck => true
  | .linkEcc _ reach => fits 64 reach
  | .cellAudit _ => true
  | .frameRoute => true
  | .linkWithdrawal _ => true
  | .withdrawnClear _ _ _ => true
  | .pathPinEntryWrite _ _ _ => true
  | .pinCutPoint => true
  | .repinAborted tcut _ command => fits 64 tcut && command.all CmdHdr.ok
  | .drain _ _ _ => true
  | .drainAck _ _ _ => true
  | .drainCapExpiry _ _ => true
  | .oldPathExpiry => true
  | .attEntryWrite _ _ _ => true
  | .shaperWheelSlot => true
  | .wrShpRateWrite _ _ => true
  | .gateBankCountWrite _ _ _ _ => true
  | .gateListStart _ => true
  | .gateEntryBoundary _ => true
  | .guardBandRecompute _ => true
  | .bOversize _ => true
  | .shaperAudit _ => true
  | .shaperSet h _ _ _ _ _ _ => h.ok
  | .quantumSet h _ _ => h.ok
  | .gateListLoad h _ _ _ base _ addr _ => h.ok && fits 64 base && fits 64 addr
  | .ageLimitSet h _ _ => h.ok
  | .vitrineCreate h _ _ _ _ _ _ _ _ _ => h.ok
  | .vitrineDestroy h _ => h.ok
  | .bindEndpoint h _ _ _ _ _ _ far => h.ok && barsOk far.bars
  | .unbindEndpoint h _ _ => h.ok
  | .vitrineSet h _ _ _ => h.ok
  | .vitrineHotReset _ => true
  | .inflightCountZero _ _ => true
  | .inflightReport _ _ count => fits 64 count
  | .squashTimeout _ _ => true
  | .freeze h _ tcut => h.ok && fits 64 tcut
  | .freezeCutPoint _ => true
  | .freezeTimeout _ => true
  | .save h _ => h.ok
  | .restore h _ _ _ _ image => h.ok && image.all Image.ok
  | .thaw h _ _ tcut => h.ok && fits 64 tcut
  | .thawCutPoint _ => true
  | .thawCompleteRelease _ _ => true
  | .class3Error _ _ _ => true
  | .class4Condition _ _ => true
  | .containmentNotice _ _ _ _ => true
  | .noticeRepeatTimer _ _ _ => true
  | .accessionStart _ _ found => found.ok
  | .accessionSucceeds _ _ identity => identity.all (fits 64)
  | .accessionFailed _ _ _ => true
  | .accessionLimit _ _ => true
  | .sluiceRelease h _ _ eseq => h.ok && fits 64 eseq
  | .releaseComplete _ _ => true
  | .releaseFailed _ _ => true
  | .maskedSummary => true
  | .stagingCopy => true
  | .faultInject h _ _ target argument => h.ok && fits 64 target && fits 64 argument
  | .eventLogRead h first _ dest => h.ok && fits 64 first && fits 64 dest
  | .usb4Attach _ _ _ _ => true
  | .usb4LinkLoss _ => true
  | .dpBandwidthRequest _ _ _ => true
  | .usb4PoolShrink _ _ => true
  | .symmetryEvaluation _ to100 from100 to1s from1s => fits 64 to100 && fits 64 from100 && fits 64 to1s && fits 64 from1s
  | .pcieTunnelEstablish _ found _ => found.all Found.ok
  | .tunCeModeWrite _ _ => true
  | .tunCeScanoutWrite _ _ => true
  | .verticalBlanking _ => true
  | .consoleEngineFlr _ => true
  | .streamBudgetFreed => true
  | .dpSinkReappears _ _ sink => sink.edid.all Timing.ok
  | .consoleFrame _ _ => true
  | .consoleLineDue _ _ _ _ => true
  | .consoleSegments => true
  | .consoleAttach h _ _ _ _ far => h.ok && fits 64 far
  | .consoleDetach h _ => h.ok
  | .tunnelConfig h _ _ => h.ok
  | .serviceOwner h _ _ => h.ok
  | .serviceCandidateAttach _ _ => true
  | .ownerDetach => true
  | .ownerWaitExpiry => true
  | .ownerChanged _ => true
  | .usbaOvercurrent _ => true
  | .ushMudConnectWrite _ _ _ => true
  | .getInfo _ => true
  | .submitCommand _ addr _ _ => fits 64 addr
  | .getResponse _ _ => true
  | .imageBegin _ _ _ _ _ => true
  | .imageData _ => true
  | .imageCommit _ _ => true
  | .imageAbort _ _ => true
  | .logOpen _ _ start _ => fits 64 start
  | .logClose _ _ => true
  | .logPipeSend count => fits 64 count
  | .usbBusReset _ _ _ => true
  | .responseExpiry _ => true
  | .usbLpmRequest _ _ => true
  | .usbIdleLinkEntry _ _ => true
  | .remoteWake => true
  | .hostResume => true
  | .pdPortDisabled _ => true
  | .moistureCheck _ _ => true
  | .moistureRecheck _ _ => true
  | .corrosion _ => true
  | .typecAttach _ _ _ => true
  | .cableMarkerRead _ _ => true
  | .cableMarkerTimeout _ => true
  | .sourceCapabilitiesOffer _ => true
  | .pdRequest _ _ => true
  | .vbusWithinRange _ => true
  | .pdHeadroomGrowth => true
  | .pdPoolShed => true
  | .eprKeepaliveLapse _ => true
  | .swapRequest _ _ _ _ => true
  | .swapComplete _ => true
  | .swapRetryHoldExpiry _ => true
  | .pdHardReset _ => true
  | .hardResetRecovery _ => true
  | .ccOpen _ => true
  | .dischargeComplete _ => true
  | .dischargeTimeout _ _ => true
  | .pdPolicySet h _ _ _ _ => h.ok
  | .feedPresent _ _ _ => true
  | .feedLost _ _ _ => true
  | .lineCategoryChange _ _ => true
  | .loadShedding => true
  | .stageLost _ => true
  | .bothFeedsLost => true
  | .budgetSet h _ _ _ _ => h.ok
  | .efuseEnable h _ _ _ _ => h.ok
  | .efuseDisable h _ => h.ok
  | .efCtlEnable _ _ _ => true
  | .efCtlDisable _ _ _ => true
  | .efuseGateCheck _ _ => true
  | .efuseGateFull _ => true
  | .efusePowerGood _ => true
  | .efuseCurrentLimit _ _ => true
  | .efuseCurrentNormal _ _ => true
  | .efuseFaultTimerExpiry _ => true
  | .efuseFastTrip _ _ => true
  | .efuseRetry _ => true
  | .efusePresenceChange _ => true
  | .efuseRetriesClear _ => true
  | .backfeed _ _ => true
  | .vbusSwitchTest _ _ => true
  | .cagePresenceLostPowered _ => true
  | .cageId _ _ => true
  | .cageAlert _ _ => true
  | .commandNoticeIntake _ _ => true
  | .commandDone h far _ => h.ok && (far.all fun r => fits 16 r.status && fits 32 r.detail)
  | .commandForward h _ x => h.ok && x.ok
  | .remoteProgress h _ => h.ok
  | .remoteTimeout h => h.ok
  | .objectWaitTimeout h => h.ok
  | .moduleInfo h => h.ok
  | .portList h _ => h.ok
  | .endpointList h _ => h.ok
  | .endpointInfo h _ _ => h.ok
  | .vitrineInfo h _ => h.ok
  | .powerState h _ _ => h.ok
  | .catalogueConfig h _ _ _ _ _ _ addr => h.ok && fits 64 addr
  | .specimenConfig h _ _ _ _ _ _ addr => h.ok && fits 64 addr
  | .counterClearSticky h _ _ _ => h.ok
  | .timeGet h => h.ok
  | .timeSourceSet h _ _ _ => h.ok
  | .schedule h time addr _ => h.ok && fits 64 time && fits 64 addr
  | .scheduleCancel h _ => h.ok
  | .scheduledCommandDue _ => true
  | .imageStage h _ _ addr _ _ => h.ok && fits 64 addr
  | .fwWrite h _ _ _ _ => h.ok
  | .fwActivate h _ _ => h.ok
  | .roleSet h _ _ => h.ok
  | .rangeSet h _ _ _ _ _ _ addr => h.ok && fits 64 addr
  | .moduleReset h _ => h.ok
  | .mailboxPost _ _ _ => true
  | .mailboxPop _ _ _ => true
  | .mbxLockWrite _ _ => true
  | .channelAborted _ _ => true
  | .vmfBmeClear _ => true
  | .vmfFlr _ => true
  | .vmfReadTimeout _ => true
  | .docCoreRunSet _ _ _ => true
  | .docentReset _ _ _ => true
  | .docentFence _ => true
  | .docentStore _ addr data => fits 64 addr && accessBytes data.length
  | .storeBufferEntryDelivery _ _ => true
  | .windowStoreAccepted _ => true
  | .docentWindowLoad _ off bytes => fits 64 off && accessBytes bytes
  | .prefetchMissFetch _ => true
  | .heldReadDetach _ => true
  | .parkedCompletionReplay _ => true
  | .windowReadError _ _ => true
  | .prefetchLineExpiry => true
  | .docentLr _ addr bytes _ => fits 64 addr && accessBytes bytes
  | .docentSc _ addr data _ => fits 64 addr && accessBytes data.length
  | .docentDeviceAtomic _ addr _ => fits 64 addr
  | .docentWfi _ => true
  | .docentTimerInterrupt _ _ => true
  | .docentAccessFault _ addr _ _ => fits 64 addr
  | .sync _ _ => true
  | .delayReq _ arrival _ => fits 64 arrival
  | .delayRsp _ stamp _ => fits 64 stamp
  | .parentLinkLost => true
  | .ppsEdge seconds => seconds.all (fits 64)
  | .timeSourceLost => true
  | .hardwareTimedAction _ => true
  | .catalogueSnapshot _ => true
  | .catalogueDumpComplete _ => true
  | .specimenSample tlp => tlp.ok
  | .specimenRecordWrite sample _ _ => fits 64 sample
  | .telModeChanged _ _ => true
  | .lockstepDivergence _ => true
  | .failover => true
  | .pairSelftestDone _ => true
  | .tableParity _ _ _ => true
  | .tableScrub _ => true
  | .refclkSwitch _ => true
  | .memUncorrectable offset _ => fits 64 offset
  | .coolantFlowLow => true
  | .coolantHot => true
  | .thermalWarn _ _ => true
  | .thermalTrip _ => true
  | .ambientHot _ => true
  | .ageingMeasurement _ pairs _ => (pairs.all fun p => fits 32 p.1 && fits 32 p.2)
  | .droopRaise _ => true
  | .avsAcknowledged _ => true
  | .avsAckTimeout _ _ => true
  | .marginPlanRun _ => true
  | .hltPlanRunWrite _ _ => true
  | .moduleWatchdogExpiry => true
  | .portDieLoss _ => true
  | .tunnelHubDieLoss => true
  | .moduleStart _ => true
  | .cageGroupEnable _ => true
  | .moduleReady _ _ _ => true
  | .hello _ msg => msg.all HelloMsg.ok
  | .adj _ msg => msg.ok
  | .topologySettled directory => (directory.all fun p => fits 64 p.1)
  | .admitModule _ target _ _ => fits 64 target
  | .compositionLoaded gen homes => fits 64 gen && (homes.all fun p => fits 64 p.1)
  | .routeDistribution _ _ => true
  | .vitrineRestoreAtStart _ vitrine => vitrine.ok
  | .registrarLost => true
  | .quietEvaluation => true
  | .pwrModeArm _ _ => true
  | .powerEntryCommit => true
  | .quietEntry _ => true
  | .wakeEvent _ => true
  | .wakeReplayed => true
  | .padReleaseWrite _ _ => true
  | .dormantEntry => true
  | .wakeN => true
  | .rateChangeOrdered _ _ => true
  | .hostPerstRelease _ => true
  | .devicePerstRelease _ => true
  | .eprModeEntry _ => true
  | .usbSuspend _ => true
  | .ieee1588Message _ => true
  | .containmentNoticeAck _ _ _ => true
  | .pinEntryAck _ tcut => fits 64 tcut
  | .frontEndDisconnect _ => true

end Sys2Proof
end

