-- ==== Sys2Proof/Tests/Slice0.lean ====
section
/-! SUPPORT. Tests: ill-formed commands that `Instr.wellFormed` refuses, one step at a time of small modules, and for every statement with
hypotheses a state and operands that meet them. -/

set_option Elab.async false
set_option linter.all false

namespace Sys2Proof.Machine

/-- The state after reset with its structures changed. -/
def onReset (f : Dev → Dev) : State := { State.reset with dev := f State.reset.dev }
/-- A frame of 4 granules. -/
def smallFrame : Frame := { ftype := 1, cls := .l, len := 4, dst := 0, src := 0, gvh := 0, body := .credit .ret 0 0 }
/-- A rear-lane table of one entry: lane 0, rate 5. -/
def eqImage : List Byte :=
  [89, 78, 69, 81, 1, 0, 1, 0, 0, 0, 0, 0, 0, 0, 0, 0, 0, 0, 0, 0, 0, 0, 0, 0, 0, 0, 0, 0, 183, 215, 236, 62, 0, 5, 0, 0, 0, 0, 0, 0]
/-- A module with Vitrine 0 (handle 77) presented on port 3, one endpoint bound on port 5, and windows both ways between them. -/
def hostDev (d : Dev) : Dev :=
  let d := { d with
    vits := [(0, { live := true, bindings := [{ k := 0, fpid := 5, ep := 0 }] })]
    endpoints := [(1280, { exists_ := true, bound := some { gvh := 77, k := 0, up := 3, bus := 7 } })]
    wins := [(0, { src := 5, dst := 3 }), (1, { src := 3, dst := 5 })] }
  let d := (((d.put PRT_PORT_CFG.KIND 3 1).put PRT_PORT_CFG.KIND 5 2).put VIT_STATE.STATE 0 2).put VIT_STATE.GVH 0 77
  let d := ((d.put VIT_PORT.UPORT 0 3).put EBR_CRD_GRANT.VALID 0 1).put EBR_CRD_GRANT.VALID 1 1
  (d.put EBR_CRD_AVAIL.AVAIL 0 100).put EBR_CRD_AVAIL.AVAIL 1 100
/-- A host's read from port 3 toward port 5 that waits for its completion under tag 0. -/
def openEntry : Trk :=
  { gvh := 77, requester := 256, tag := 9, src := 3, dst := 5 }
/-- A host's read in a queue toward port 5. -/
def lockedFrame : QFrame := { frame := edgeFrame 3 5 78 .l (.tlp { kind := .memRead }), stamp := 0, region := .sharedPool }
/-- A class C frame for port 5 of this module as it stands in a queue. -/
def restingFrame : QFrame := { frame := edgeFrame 3 5 77 .c (.tlp { kind := .memWrite }), stamp := 0, region := .sharedPool }

/-! ### Ill-formed commands are refused -/

theorem test_ill_tlp : (Instr.tlpIngress 3 { kind := .memRead, bytes := 4097 }).wellFormed = false := by decide
theorem test_ill_tlp_tag : (Instr.tlpIngress 3 { kind := .memRead, tag := 16384 }).wellFormed = false := by decide
theorem test_ill_mem : (Instr.completionReceived 3 (.mem { withData := false, ldId := 65536 })).wellFormed = false := by decide
theorem test_ill_credit : (Instr.completionReceived 3 (.credit .ret 65536 0)).wellFormed = false := by decide
theorem test_ill_raw : (Instr.completionReceived 3 (.raw 4161)).wellFormed = false := by decide
theorem test_ill_flit : (Instr.flitReceived 3 (List.replicate 257 0) []).wellFormed = false := by decide +kernel
theorem test_ill_place : (Instr.registerWrite 0 (.bar2 0 16384) 0).wellFormed = false := by decide
theorem test_ill_offset : (Instr.regAccessBad 0 (.bar0 65536) true).wellFormed = false := by decide
theorem test_ill_header : (Instr.retrain { caller := 2048 } 0 0).wellFormed = false := by decide
theorem test_ill_tap : (Instr.partnerCoefficientRequest 3 (.coefficients 64 0)).wellFormed = false := by decide
theorem test_ill_params : (Instr.params 3 { width := 5 }).wellFormed = false := by decide
theorem test_ill_image : (Instr.restore { } 0 0 0 0 (some { nvdp := 65 })).wellFormed = false := by decide
theorem test_ill_hello : (Instr.hello 3 (some { prio := 256 })).wellFormed = false := by decide
theorem test_ill_adj : (Instr.adj 3 { origin := { }, part := 4, parts := 4 }).wellFormed = false := by decide
theorem test_well_tlp : (Instr.tlpIngress 3 { kind := .memRead, bytes := 4096, tag := 16383 }).wellFormed = true := by decide

/-! ### One step -/

/-- R154's table: 18 W gives 1,500 mA, 0.5 W the least limit. -/
theorem test_allotment : splMilliamps (splMilliwatts 18 0) = 1500 ∧ splMilliamps (splMilliwatts 5 1) = 250 := by decide
/-- R437: a wrapping counter passes 2^48. -/
theorem test_counter_wraps : Ctr.add { value := 2 ^ 48 - 1 } false 2 = { value := 1, wrap := true } := by decide
/-- R437: a saturating counter stays at its end. -/
theorem test_counter_saturates : Ctr.add { value := 2 ^ 48 - 1 } true 2 = { value := 2 ^ 48 - 1, sat := true } := by decide
/-- The command in front is taken and the rest waits. -/
theorem test_step_takes_front :
    ∃ t, step { State.reset with pending := [.frameAdmission, .stagingCopy] } = .next t ∧ t.pending = [.stagingCopy] := ⟨_, rfl, rfl⟩


/-! ### An idle flit with its CRC (R72) -/

/-- An idle flit with its CRC and check symbols. -/
def quietFlit : List Byte :=
  [16, 0, 63, 255] ++ List.replicate 232 0 ++ [46, 246, 195, 189, 50, 212, 71, 10, 111, 157, 180, 201, 17, 53, 39, 98, 103, 150, 5, 199]
/-- 29 bytes of zero. -/
def zeros : List Byte := List.replicate 29 0
theorem crc_0 : ([16, 0, 63, 255] : List Byte).foldl crc64Step (2 ^ 64 - 1) = 2586294488107802405 := by decide +kernel
theorem crc_1 : zeros.foldl crc64Step 2586294488107802405 = 16031627604094523109 := by decide +kernel
theorem crc_2 : zeros.foldl crc64Step 16031627604094523109 = 9383874000263667430 := by decide +kernel
theorem crc_3 : zeros.foldl crc64Step 9383874000263667430 = 11922703429384025649 := by decide +kernel
theorem crc_4 : zeros.foldl crc64Step 11922703429384025649 = 11904727811460300185 := by decide +kernel
theorem crc_5 : zeros.foldl crc64Step 11904727811460300185 = 11729282115749923709 := by decide +kernel
theorem crc_6 : zeros.foldl crc64Step 11729282115749923709 = 7347113915820241278 := by decide +kernel
theorem crc_7 : zeros.foldl crc64Step 7347113915820241278 = 902568771724760149 := by decide +kernel
theorem crc_8 : zeros.foldl crc64Step 902568771724760149 = 15062636686325037301 := by decide +kernel
theorem quiet_bytes : quietFlit.take 236 =
    [16, 0, 63, 255] ++ (zeros ++ (zeros ++ (zeros ++ (zeros ++ (zeros ++ (zeros ++ (zeros ++ zeros))))))) := by decide +kernel
theorem quiet_register : (quietFlit.take 236).foldl crc64Step (2 ^ 64 - 1) = 15062636686325037301 := by
  simp only [quiet_bytes, List.foldl_append, crc_0, crc_1, crc_2, crc_3, crc_4, crc_5, crc_6, crc_7, crc_8]
theorem quiet_tail : ofBeBytes ((quietFlit.drop 236).take 8) = 3384107387384514314 := by decide +kernel
theorem flitCrcOk_of {bs : List Byte} {r v : Nat} (h : (bs.take 236).foldl crc64Step (2 ^ 64 - 1) = r)
    (hv : ofBeBytes ((bs.drop 236).take 8) = v) (he : (r ^^^ (2 ^ 64 - 1) == v) = true) : flitCrcOk bs = true := by
  subst h hv
  exact he
theorem quiet_crc : flitCrcOk quietFlit = true := flitCrcOk_of quiet_register quiet_tail (by decide +kernel)
/-- Every lane is OFF after reset. -/
theorem reset_lane_state (n : Nat) : State.reset.dev.laneState n ≤ 10 := by
  have h : LNA_LANE_STATE.STATE.reset n = 0 := by simp [Fld.reset, LNA_LANE_STATE.STATE, Reg.resetWord]
  exact Nat.le_trans (Nat.le_of_eq h) (by decide)

/-! ### The hypotheses of every statement are met -/

theorem witness_EmptyQueueIdles :
  (State.reset.pending = []) ∧
  (State.reset.pending = [] ∧ State.reset.dev.supply = .on ∧ State.reset.dev.time.slew = 0) :=
  ⟨by decide +kernel,
  by decide +kernel⟩

theorem witness_MemoryStaysCanonical :
  (∃ s t : State, s.MemoryOk ∧ step s = .next t) :=
  ⟨State.reset, _, rfl, rfl⟩

theorem witness_LaneStatesStayLegal :
  (∃ s t : State, (∀ n : Nat, s.dev.laneState n ≤ 10) ∧ step s = .next t) :=
  ⟨State.reset, _, reset_lane_state, rfl⟩

theorem witness_UnpoweredModuleIsInert :
  (∃ s : State, s.dev.supply ≠ .on ∧ Instr.frameAdmission ≠ .bothFeedsLost ∧ Instr.frameAdmission ≠ .wakeN) ∧
  (∃ s : State, s.dev.supply ≠ .on ∧ s.pending = []) :=
  ⟨⟨onReset fun d => { d with supply := .dormant }, by decide +kernel⟩,
  ⟨onReset fun d => { d with supply := .off }, by decide +kernel⟩⟩

theorem witness_FramesOfLanesLinksAndPorts :
  (∃ s t : State, familyOf ((.deskewFail 0 [])) = .links ∧ exec ((.deskewFail 0 [])) s = .next t) :=
  ⟨State.reset, _, by decide +kernel, rfl⟩

theorem witness_FramesOfTheFabric :
  (∃ s t : State, familyOf (.frameAdmission) = .fabric ∧ exec (.frameAdmission) s = .next t) :=
  ⟨State.reset, _, by decide +kernel, rfl⟩

theorem witness_FramesOfVitrinesAndSluice :
  (∃ s t : State, familyOf (.stagingCopy) = .vitrines ∧ exec (.stagingCopy) s = .next t) :=
  ⟨State.reset, _, by decide +kernel, rfl⟩

theorem witness_FramesOfHubsAndPower :
  (∃ s t : State, familyOf (.remoteWake) = .hubs ∧ exec (.remoteWake) s = .next t) :=
  ⟨State.reset, _, by decide +kernel, rfl⟩

theorem witness_FramesOfServices :
  (∃ s t : State, familyOf (.failover) = .service ∧ exec (.failover) s = .next t) :=
  ⟨State.reset, _, by decide +kernel, rfl⟩

theorem witness_FramesOfStoringCommands :
  (∃ s t : State, familyOf (.moduleResetEvent) = .stored ∧ exec (.moduleResetEvent) s = .next t) :=
  ⟨State.reset, _, by decide +kernel, rfl⟩

theorem witness_StoredBytes :
  (∃ (s t : State) (core : Fin 16) (addr : Nat) (data : List Byte) (spurious : Bool) (a : Nat), exec (.docentSc core addr data spurious) s
    = .next t ∧ ((a < addr ∨ addr + data.length ≤ a) ∧ ∀ e ∈ (s.dev.core core).stb, e.line = addr / 64 → ∀ b ∈ e.bytes, a ≠ e.line * 64 +
    b.1)) ∧
  (∃ (s t : State) (core : Fin 16) (cached : Bool) (e : StbEntry) (a : Nat), exec (.storeBufferEntryDelivery core cached) s = .next t ∧
    (s.dev.core core).stb.find? (fun e => cachedAt (e.line * 64) == cached) = some e ∧ (∀ b ∈ e.bytes, a ≠ e.line * 64 + b.1)) ∧
  (∃ (s t : State) (master : Fin 2048) (core : Fin 16) (value : Word) (a : Nat), exec (.docentReset master core value) s = .next t ∧ (∀ e
    ∈ (s.dev.core core).stb, ∀ b ∈ e.bytes, a ≠ e.line * 64 + b.1)) ∧
  (∃ (s t : State) (master : Fin 2048) (core : Fin 16) (value : Word) (a : Nat), exec (.docCoreRunSet master core value) s = .next t ∧ (∀
    e ∈ (s.dev.core core).stb, ∀ b ∈ e.bytes, a ≠ e.line * 64 + b.1)) ∧
  (∃ (s t : State) (h : CmdHdr) (first : Nat) (most : Word) (dest : Nat) (a : Nat), exec (.eventLogRead h first most dest) s = .next t ∧
    (a < dest ∨ dest + ((s.dev.logChosen h first most.toNat).1.flatMap EvRec.bytes).length ≤ a)) ∧
  (∃ (s t : State) (tenant : Option (Fin 1024)) (x : CatDump) (a : Nat), exec (.catalogueDumpComplete tenant) s = .next t ∧ (s.dev.cat
    (streamNo tenant)).writing = some x ∧ (a < ddrBase + regionCatalogue.1 + x.start ∨ ddrBase + regionCatalogue.1 + x.start +
    (s.dev.dumpImage (s.dev.cat (streamNo tenant)).dseq x).length ≤ a)) ∧
  (∃ (s t : State) (sample : Nat) (result : SampleEnd) (room : Bool) (x : Sample) (a : Nat), exec (.specimenRecordWrite sample result
    room) s = .next t ∧ s.dev.samples[sample]? = some x ∧ (a < ddrBase + regionSpecimen.1 + (s.dev.spc x.stream).wptr ∨ ddrBase +
    regionSpecimen.1 + (s.dev.spc x.stream).wptr + (specimenBytes s.dev.now (s.dev.spc x.stream).sseq x result).length ≤ a)) ∧
  (∃ (s t : State) (channel : Fin 256) (source : Fetch) (n : Nat) (a : Nat), exec (.commandNoticeIntake channel source) s = .next t ∧
    (s.dev.channel channel).head? = some n ∧ (a < n + 8 ∨ n + 8 + 8 ≤ a)) ∧
  (∃ (s t : State) (len : Fin 65536) (addr : Nat) (data : List Byte) (completes : Bool) (a : Nat), exec (.submitCommand len addr data
    completes) s = .next t ∧ (a < addr ∨ addr + 128 ≤ a)) ∧
  (∃ (s t : State) (h : CmdHdr) (far : Option RemoteResult) (recorded : Bool) (writable : Bool) (c : Cmd) (a : Nat), exec (.commandDone h
    far ⟨recorded, writable⟩) s = .next t ∧ s.dev.findCmd h = some c ∧ ((a < c.addr + 10 ∨ c.addr + 24 ≤ a) ∧ ∀ r ∈ (c.withResult
    far).resp, a < c.addr + (24 + r.1) ∨ c.addr + (24 + r.1) + r.2.1 ≤ a)) ∧
  (∃ (s t : State) (id : Fin 65536) (e : Sched) (a : Nat), exec (.scheduledCommandDue id) s = .next t ∧ s.dev.scheduled.find? (fun e =>
    e.id == id.val) = some e ∧ (a < e.cmd.addr + 10 ∨ e.cmd.addr + 10 + 2 ≤ a)) ∧
  (∃ (s t : State) (port : Fin 512) (stamp : Nat) (replayed : Bool) (a : Nat), exec (.delayRsp port stamp replayed) s = .next t ∧ (∀ e ∈
    s.dev.scheduled, a < e.cmd.addr + 10 ∨ e.cmd.addr + 12 ≤ a)) ∧
  (∃ (s t : State) (seconds : Option Nat) (a : Nat), exec (.ppsEdge seconds) s = .next t ∧ (∀ e ∈ s.dev.scheduled, a < e.cmd.addr + 10 ∨
    e.cmd.addr + 12 ≤ a)) ∧
  (∃ (s t : State) (message : PtpMsg) (a : Nat), exec (.ieee1588Message message) s = .next t ∧ (∀ e ∈ s.dev.scheduled, a < e.cmd.addr + 10
    ∨ e.cmd.addr + 12 ≤ a)) ∧
  (∃ (s t : State) (h : CmdHdr) (time : Nat) (addr : Nat) (source : Fetch) (a : Nat), exec (.schedule h time addr source) s = .next t ∧ (a
    < addr + 8 ∨ addr + 8 + 12 ≤ a)) ∧
  (∃ (s t : State) (offset : Nat) (reader : Option (Fin 16 × Bool)) (a : Nat), exec (.memUncorrectable offset reader) s = .next t ∧ (if
    inRegion regionEventLog offset 1 then a < ddrBase + offset / 64 * 64 ∨ ddrBase + offset / 64 * 64 + 64 ≤ a else a < ddrBase + offset /
    8 * 8 ∨ ddrBase + offset / 8 * 8 + 8 ≤ a)) ∧
  (∃ (s t : State) (h : CmdHdr) (target : Byte) (signed : Bool) (checks : Bool) (version : Fin 65536) (a : Nat), exec (.fwWrite h target
    signed checks version) s = .next t ∧ (target ≠ 4 ∨ a < ddrBase + regionDocent.1 ∨ ddrBase + regionDocent.1 + (SMap.get [] s.dev.images
    4).length ≤ a)) ∧
  (∃ (s t : State) (h : CmdHdr) (image : Byte) (reset : Byte) (a : Nat), exec (.fwActivate h image reset) s = .next t ∧ (a < h.addr + 10 ∨
    h.addr + 10 + 14 ≤ a)) ∧
  (∃ (s t : State) (h : CmdHdr) (confirm : Word) (a : Nat), exec (.moduleReset h confirm) s = .next t ∧ (a < h.addr + 10 ∨ h.addr + 10 +
    14 ≤ a)) ∧
  (∃ (s t : State) (port : Fin 512) (x : Nat × Frame) (a : Nat), exec (.tlpEgress port) s = .next t ∧ s.dev.egress.find? (fun x => x.1 ==
    port.val && !s.dev.lockBlocks port x.2) = some x ∧ (a < ddrBase + regionConsole.1 ∨ ddrBase + regionConsole.1 + 64 * 0x4000000 ≤ a)) ∧
  (∃ (s t : State) (master : Fin 2048) (place : RegAt) (value : Word) (a : Nat), exec (.registerWrite master place value) s = .next t ∧ (∀
    core : Fin 16, s.dev.target master place = some (.DOC_CORE_CTL, core.val) → ∀ e ∈ (s.dev.core core).stb, ∀ b ∈ e.bytes, a ≠ e.line *
    64 + b.1)) :=
  ⟨⟨(onReset fun d => { d with cores := [(3, { stb := [{ line := 64, bytes := [(5, 7)] }] })] }), _, (3 : Fin 16), (0x1000 : Nat), ([1] :
    List Byte), (false : Bool), 0x1001, rfl, by decide +kernel⟩,
  ⟨(onReset fun d => { d with cores := [(3, { stb := [{ line := 64, bytes := [(5, 7)] }] })] }), _, (3 : Fin 16), (true : Bool),
    ({ line := 64, bytes := [(5, 7)] } : StbEntry), 4102, rfl, by decide +kernel⟩,
  ⟨(onReset fun d => { d with cores := [(3, { stb := [{ line := 64, bytes := [(5, 7)] }] })] }), _, (0 : Fin 2048), (3 : Fin 16), (0 :
    Word), 4100, rfl, by decide +kernel⟩,
  ⟨(onReset fun d => { d with cores := [(3, { stb := [{ line := 64, bytes := [(5, 7)] }] })] }), _, (0 : Fin 2048), (3 : Fin 16), (0 :
    Word), 4100, rfl, by decide +kernel⟩,
  ⟨(State.reset), _, ({ } : CmdHdr), (0 : Nat), (4 : Word), (0x2000 : Nat), 0x1FFF, rfl, by decide +kernel⟩,
  ⟨(onReset fun d => { d with cats := [(0, { writing := some { first := 0, banks := 1, ftime := 0 } })] }), _, (none : Option (Fin 1024)),
    ({ first := 0, banks := 1, ftime := 0 } : CatDump), 0, rfl, by decide +kernel⟩,
  ⟨(onReset fun d => { d with samples := [⟨0, 0, true, { }⟩] }), _, (0 : Nat), ({ } : SampleEnd), (true : Bool), (⟨0, 0, true, { }⟩ :
    Sample), 0, rfl, by decide +kernel⟩,
  ⟨(onReset fun d => { d with chans := [(3, [128])] }), _, (3 : Fin 256), (.local_ : Fetch), (128 : Nat), 144, rfl, by decide +kernel⟩,
  ⟨(State.reset), _, (128 : Fin 65536), (4096 : Nat), ([] : List Byte), (true : Bool), 4095, rfl, by decide +kernel⟩,
  ⟨(onReset fun d => { d with cmds := [{ addr := 128, caller := 1, role := 1, tag := 0, opcode := 257, status := 0 }] }), _,
    ({ addr := 128, caller := 1 } : CmdHdr), (none : Option RemoteResult), (true : Bool), (true : Bool),
    ({ addr := 128, caller := 1, role := 1, tag := 0, opcode := 257, status := 0 } : Cmd), 152, rfl, by decide +kernel⟩,
  ⟨(onReset fun d =>
    { d with scheduled := [{ id := 7, time := 0, cmd := { addr := 128, caller := 1, role := 1, tag := 0, opcode := 257 } }] }), _, (7 :
    Fin 65536), ({ id := 7, time := 0, cmd := { addr := 128, caller := 1, role := 1, tag := 0, opcode := 257 } } : Sched), 140, rfl,
    by decide +kernel⟩,
  ⟨(onReset fun d =>
    { d with scheduled := [{ id := 7, time := 0, cmd := { addr := 128, caller := 1, role := 1, tag := 0, opcode := 257 } }] }), _, (8 :
    Fin 512), (5 : Nat), (false : Bool), 140, rfl, by decide +kernel⟩,
  ⟨(onReset fun d =>
    { d with scheduled := [{ id := 7, time := 0, cmd := { addr := 128, caller := 1, role := 1, tag := 0, opcode := 257 } }] }), _, (none :
    Option Nat), 140, rfl, by decide +kernel⟩,
  ⟨(onReset fun d =>
    { d with scheduled := [{ id := 7, time := 0, cmd := { addr := 128, caller := 1, role := 1, tag := 0, opcode := 257 } }] }), _,
    (.offset 5 : PtpMsg), 140, rfl, by decide +kernel⟩,
  ⟨(State.reset), _, ({ } : CmdHdr), (0 : Nat), (128 : Nat), (.local_ : Fetch), 148, rfl, by decide +kernel⟩,
  ⟨(State.reset), _, (0x180000008 : Nat), (none : Option (Fin 16 × Bool)), ddrBase + 0x180000010, rfl, by decide +kernel⟩,
  ⟨(State.reset), _, ({ } : CmdHdr), (2 : Byte), (true : Bool), (true : Bool), (0 : Fin 65536), 0, rfl, by decide +kernel⟩,
  ⟨(State.reset), _, ({ } : CmdHdr), (0 : Byte), (1 : Byte), 24, rfl, by decide +kernel⟩,
  ⟨(State.reset), _, ({ } : CmdHdr), (0x5120 : Word), 24, rfl, by decide +kernel⟩,
  ⟨(onReset fun d => { d with egress := [(447, smallFrame)] }), _, (447 : Fin 512), ((447, smallFrame) : Nat × Frame), 0, rfl,
    by decide +kernel⟩,
  ⟨(State.reset), _, (0 : Fin 2048), (.device 0x802800020 : RegAt), (5 : Word), 0, rfl, by decide +kernel⟩⟩

theorem witness_RegisterReadsAndWrites :
  (∃ s : State, s.dev.supply = .on ∧ s.dev.target 0 (.device 0x802800020) = some (.BSN_Q_SEL, 0)) ∧
  (∃ s : State, s.dev.target 16 (.device 0x802800020) = some (.BSN_Q_SEL, 0) ∧ channelWord .BSN_Q_SEL = false) ∧
  (∃ s : State, s.dev.supply = .on) ∧
  (∃ s : State, (Reg.TIM_NOW_LO, Reg.TIM_NOW_HI) ∈ pairs ∧ s.dev.target 0 (.device 0x809800000) = some (.TIM_NOW_LO, 0)) ∧
  (∃ s : State, s.dev.target 0 (.device 0x809800004) = some (.TIM_NOW_HI, 0) ∧ s.dev.shadows.find? (fun x => x.1 == 0 && x.2.1 == pairKey
    .TIM_NOW_LO 0) = some (0, pairKey .TIM_NOW_LO 0, 7)) ∧
  (∃ s : State, s.dev.target 0 (.device 0x809800004) = some (.TIM_NOW_HI, 0) ∧ s.dev.shadows.find? (fun x => x.1 == 0 && x.2.1 == pairKey
    .TIM_NOW_LO 0) = none) ∧
  (∃ s : State, s.dev.target 0 (.device (0x80381000C + 0x60)) = some (.WR_GATE_STAT, 3)) :=
  ⟨⟨State.reset, by decide +kernel⟩,
  ⟨State.reset, by decide +kernel⟩,
  ⟨State.reset, by decide +kernel⟩,
  ⟨State.reset, by decide +kernel⟩,
  ⟨onReset fun d => { d with shadows := [(0, pairKey .TIM_NOW_LO 0, 7)] }, by decide +kernel⟩,
  ⟨State.reset, by decide +kernel⟩,
  ⟨State.reset, by decide +kernel⟩⟩

theorem witness_ModuleResetReturnsRegisters :
  (∃ s : State, s.dev.supply = .on) :=
  ⟨State.reset, by decide +kernel⟩

theorem witness_CounterIncrements :
  (∃ s : State, s.dev.saturating 70000 = false ∧ (SMap.get ({} : Ctr) s.dev.ctrs 70000).value = 2 ^ 48 - 1) ∧
  (∃ s : State, s.dev.saturating 70000 = true) :=
  ⟨⟨onReset fun d => { d with ctrs := [(70000, { value := 2 ^ 48 - 1 })] }.put TEL_MODE.STARTUP 0 0, by decide +kernel⟩,
  ⟨onReset fun d => d.put TEL_MODE.STARTUP 0 1, by decide +kernel⟩⟩

theorem witness_CageAllotment :
  ((3 : Nat) ≤ 3) ∧
  (∃ s : State, s.dev.supply = .on ∧ s.dev.CarriesOut { } 0x0602 [1, 2, 4] s.dev.moduleId ∧ (∀ r ∈ List.range 7, signedOf 8 (s.dev.get
    HLT_RAIL_AGE.TEMP_C r) ≤ 100) ∧ s.dev.efState 55 ≠ 4 ∧ s.dev.efState 55 ≠ 5 ∧ 24000 < splMilliwatts 255 0) ∧
  (∃ s : State, s.dev.supply = .on ∧ s.dev.CarriesOut { } 0x0602 [1, 2, 4] s.dev.moduleId ∧ (∀ r ∈ List.range 7, signedOf 8 (s.dev.get
    HLT_RAIL_AGE.TEMP_C r) ≤ 100) ∧ s.dev.efState 55 ≠ 4 ∧ s.dev.efState 55 ≠ 5 ∧ s.dev.cageRoom 55 < splMilliwatts 24 0) ∧
  (∃ s : State, s.dev.supply = .on ∧ s.dev.CarriesOut { } 0x0602 [1, 2, 4] s.dev.moduleId ∧ (∀ r ∈ List.range 7, signedOf 8 (s.dev.get
    HLT_RAIL_AGE.TEMP_C r) ≤ 100) ∧ s.dev.efState 55 ≠ 4 ∧ s.dev.efState 55 ≠ 5 ∧ splMilliwatts 18 0 ≤ s.dev.cageRoom 55) :=
  ⟨by decide,
  ⟨(onReset fun d => (d.put CUR_START_STATUS.READY 0 1).put PWR_POOLS.CAGE_W 0 20), (by unfold Dev.CarriesOut; decide +kernel)⟩,
  ⟨(onReset fun d => (d.put CUR_START_STATUS.READY 0 1).put PWR_POOLS.CAGE_W 0 20), (by unfold Dev.CarriesOut; decide +kernel)⟩,
  ⟨(onReset fun d => (d.put CUR_START_STATUS.READY 0 1).put PWR_POOLS.CAGE_W 0 20), (by unfold Dev.CarriesOut; decide +kernel)⟩⟩

theorem witness_DocentAtomicsOutsideMemory :
  (∃ s : State, s.dev.supply = .on ∧ s.dev.coreRuns 3 = true ∧ 0x800000000 ≤ ddrBase - 4 ∧ ddrBase - 4 + 4 ≤ ddrBase) ∧
  (∃ s : State, s.dev.supply = .on ∧ s.dev.coreRuns 3 = true ∧ windowBase + 8 ≤ windowBase + windowSize) ∧
  (∃ s : State, s.dev.supply = .on ∧ s.dev.coreRuns 3 = true ∧ windowBase ≤ windowBase + windowSize - 4 ∧ windowBase + windowSize - 4 + 4
    ≤ windowBase + windowSize) :=
  ⟨⟨(onReset fun d => d.put DOC_CORE_STATUS.STATE 3 1), by decide +kernel⟩,
  ⟨(onReset fun d => d.put DOC_CORE_STATUS.STATE 3 1), by decide +kernel⟩,
  ⟨(onReset fun d => d.put DOC_CORE_STATUS.STATE 3 1), by decide +kernel⟩⟩

theorem witness_LaneBringUpAdvances :
  (∃ (s : State) (master : Fin 2048) (lane : Fin 512), s.dev.supply = .on) ∧
  (∃ (s : State) (lane : Fin 512) (rate : Nat), s.dev.supply = .on ∧ s.dev.laneState lane = 1 ∧ (s.dev.lane lane).held = false ∧
    s.dev.hostPerst lane = false ∧ s.dev.startRate lane = some rate) ∧
  (∃ (s : State) (lane : Fin 512), s.dev.supply = .on ∧ s.dev.laneState lane = 1) ∧
  (∃ (s : State) (lane : Fin 512), s.dev.supply = .on ∧ s.dev.laneState lane = 2) ∧
  (∃ (s : State) (lane : Fin 512) (found : Fin 256), s.dev.supply = .on ∧ s.dev.laneState lane = 3 ∧ 8 ≤ found.val ∧ s.dev.changesSpeed
    lane = false) ∧
  (∃ (s : State) (lane : Fin 512) (temp : Byte) (search : EqSearch), s.dev.supply = .on ∧ s.dev.laneState lane = 4 ∧ s.dev.changesSpeed
    lane = false) ∧
  (∃ (s : State) (cage : Fin 56) (lane : Fin 512), s.dev.supply = .on ∧ lane.val / 8 = cage.val ∧ s.dev.is LNA_LANE_CFG.ENABLE lane = true
    ∧ s.dev.laneState lane = 0 ∧ (s.dev.lane lane).held = false ∧ s.dev.halted = false ∧ s.dev.is EF_STATUS.PG cage = true ∧ dieOf lane ∉
    s.dev.lostDies) :=
  ⟨⟨onReset fun d => d.put EF_STATUS.PG 0 1, (0 : Fin 2048), (3 : Fin 512), by decide +kernel⟩,
  ⟨onReset fun d => (d.put LNA_LANE_STATE.STATE 3 1).put LNA_LANE_CFG.RATE_MAX 3 2, (3 : Fin 512), (2 : Nat), by decide +kernel⟩,
  ⟨onReset fun d => d.put LNA_LANE_STATE.STATE 511 1, (511 : Fin 512), by decide +kernel⟩,
  ⟨onReset fun d => d.put LNA_LANE_STATE.STATE 0 2, (0 : Fin 512), by decide +kernel⟩,
  ⟨onReset fun d => d.put LNA_LANE_STATE.STATE 447 3, (447 : Fin 512), (8 : Fin 256), by decide +kernel⟩,
  ⟨onReset fun d => d.put LNA_LANE_STATE.STATE 1 4, (1 : Fin 512), (40 : Byte), ({ } : EqSearch), by decide +kernel⟩,
  ⟨onReset fun d => (d.put EF_STATUS.PG 2 1).put LNA_LANE_CFG.ENABLE 17 1, (2 : Fin 56), (17 : Fin 512), by decide +kernel⟩⟩

theorem witness_LaneBitSlipAndFailures :
  (∃ (s : State) (master : Fin 2048) (lane : Fin 512), s.dev.supply = .on) ∧
  (∃ (s : State) (master : Fin 2048) (lane : Fin 512) (pre : Fin 16) (post : Fin 32), s.dev.supply = .on) ∧
  (∃ (s : State) (lane : Fin 512), s.dev.supply = .on ∧ s.dev.laneState lane = 3 ∧ rearLane lane = true) ∧
  (∃ (s : State) (lane : Fin 512) (locked : Bool) (found : Fin 256) (start : Nat) (step : Nat), s.dev.supply = .on ∧ (s.dev.lane
    lane).search = some (start, step) ∧ s.dev.laneState lane = 3) ∧
  (∃ (s : State) (master : Fin 2048) (lane : Fin 512) (delay : Byte), s.dev.supply = .on) ∧
  (∃ (s : State) (lane : Fin 512) (v : Nat), s.dev.supply = .on ∧ (s.dev.lane lane).delay = some v) ∧
  (∃ (s : State) (lane : Fin 512), s.dev.supply = .on ∧ 2 ≤ s.dev.laneState lane ∧ s.dev.laneState lane ≤ 5 ∧ s.dev.changesSpeed lane =
    false) ∧
  (∃ (s : State) (lane : Fin 512), s.dev.supply = .on ∧ (s.dev.laneState lane = 6 ∨ s.dev.laneState lane = 7) ∧ s.dev.armedFor 2 lane =
    false) :=
  ⟨⟨onReset fun d => d.put LNA_LANE_STATE.STATE 5 6, (0 : Fin 2048), (5 : Fin 512), by decide +kernel⟩,
  ⟨onReset fun d => d.put LNA_LANE_CFG.TEST 7 1, (0 : Fin 2048), (7 : Fin 512), (3 : Fin 16), (5 : Fin 32), by decide +kernel⟩,
  ⟨onReset fun d => d.put LNA_LANE_STATE.STATE 448 3, (448 : Fin 512), by decide +kernel⟩,
  ⟨onReset fun d => (d.put LNA_LANE_STATE.STATE 450 3).setLane 450 fun l => { l with search := some (5, 2) }, (450 : Fin 512), (true :
    Bool), (8 : Fin 256), (5 : Nat), (2 : Nat), by decide +kernel⟩,
  ⟨onReset fun d => d.put LNA_LANE_STATE.STATE 450 10, (0 : Fin 2048), (450 : Fin 512), (9 : Byte), by decide +kernel⟩,
  ⟨onReset fun d => d.setLane 450 fun l => { l with delay := some 9 }, (450 : Fin 512), (9 : Nat), by decide +kernel⟩,
  ⟨onReset fun d => (d.put LNA_LANE_STATE.STATE 1 2).put LNA_LANE_STATE.ATTEMPTS 1 7, (1 : Fin 512), by decide +kernel⟩,
  ⟨onReset fun d => d.put LNA_LANE_STATE.STATE 1 7, (1 : Fin 512), by decide +kernel⟩⟩

theorem witness_MarginScansAndTriggers :
  (∃ (s : State) (master : Fin 2048) (lane : Fin 512) (value : Word), s.dev.supply = .on) ∧
  (∃ (s : State) (master : Fin 2048) (lane : Fin 512) (value : Word), s.dev.supply = .on ∧ (s.dev.lane lane).scanning = true) ∧
  (∃ (s : State) (lane : Fin 512) (eyes : List Eye) (temp : Byte), s.dev.supply = .on ∧ (s.dev.lane lane).scanning = true) ∧
  (∃ (s : State) (port : Fin 512) (lane : Fin 512) (util : Fin 101) (temp : Byte), s.dev.supply = .on ∧ s.dev.configured port = true ∧
    lane.val ∈ s.dev.lanesOf port ∧ s.dev.laneState lane = 6 ∧ (s.dev.portX port).disarmed = false ∧ s.dev.get LNA_TRIG_CFG.UTIL_PCT 0 <
    util.val ∧ s.dev.get LNA_TRIG_CFG.REARM_PCT 0 ≤ util.val ∧ (((s.dev.lanesOf port).all fun n => !(s.dev.lane n).scanning) = true)) ∧
  (∃ (s : State) (port : Fin 512), s.dev.supply = .on ∧ (s.dev.portX port).wanted.isSome = true) ∧
  (∃ (s : State) (lane : Fin 512) (pre : Nat) (post : Nat), s.dev.supply = .on) ∧
  (∃ (s : State) (lane : Fin 512) (k : Fin 16), s.dev.supply = .on) ∧
  (∃ (s : State) (port : Fin 512) (taken : Bool) (closed : List (Fin 512)) (temp : Byte), s.dev.supply = .on ∧ s.dev.fabricPort port =
    false ∧ s.dev.trained port = true ∧ s.dev.is PRT_LTR.NONE port = false ∧ s.dev.get LNA_REEQ_CFG.LTR_MIN 0 ≤ s.dev.get PRT_LTR.LTR_US
    port ∧ (s.dev.portX port).wanted.isSome = true ∧ (s.dev.portX port).retireLater = none) ∧
  (∃ (s : State) (lane : Fin 512), s.dev.supply = .on ∧ s.dev.laneState lane ≠ 0 ∧ s.dev.laneState lane ≠ 9) ∧
  (∃ (s : State) (port : Fin 512) (skews : List Int) (e : Nat × Int) (ls : List (Nat × Int)) (spread : Int), s.dev.supply = .on ∧
    s.dev.fabricPort port = true ∧ ls = (s.dev.deskewLanes port).zip skews ∧ (s.dev.deskewLanes port).Nodup ∧ ((s.dev.deskewLanes
    port).all (s.dev.lanesOf port).contains) = true ∧ e ∈ ls ∧ spread = largestSkew (ls.map (·.2)) - leastSkew (ls.map (·.2)) ∧ 64 <
    spread) :=
  ⟨⟨onReset fun d => d.put LNA_LANE_STATE.STATE 1 6, (0 : Fin 2048), (1 : Fin 512), (0x80300000 : Word), by decide +kernel⟩,
  ⟨onReset fun d => d.setLane 1 fun l => { l with scanning := true }, (0 : Fin 2048), (1 : Fin 512), (0x40000000 : Word),
    by decide +kernel⟩,
  ⟨onReset fun d => d.setLane 1 fun l => { l with scanning := true }, (1 : Fin 512), ([⟨3, 4, 5, 6⟩] : List Eye), (40 : Byte),
    by decide +kernel⟩,
  ⟨onReset fun d => (d.put PRT_PORT_CFG.KIND 0 2).put LNA_LANE_STATE.STATE 0 6, (0 : Fin 512), (0 : Fin 512), (90 : Fin 101), (40 : Byte),
    by decide +kernel⟩,
  ⟨onReset fun d => d.setPortX 0 fun x => { x with wanted := some 5 }, (0 : Fin 512), by decide +kernel⟩,
  ⟨onReset fun d => d, (3 : Fin 512), (2 : Nat), (3 : Nat), by decide +kernel⟩,
  ⟨onReset fun d => d, (3 : Fin 512), (4 : Fin 16), by decide +kernel⟩,
  ⟨onReset fun d => (((d.put PRT_PORT_CFG.KIND 0 2).put PRT_PORT_STATUS.LTSSM 0 3).put PRT_LTR.LTR_US 0 3000).put PRT_LTR.NONE 0 0 |>.put
    PRT_PORT_STATUS.DL_ACTIVE 0 1 |>.setPortX 0 fun x => { x with wanted := some 5 }, (0 : Fin 512), (false : Bool), ([] : List (Fin
    512)), (40 : Byte), by decide +kernel⟩,
  ⟨onReset fun d => d.put LNA_LANE_STATE.STATE 1 6, (1 : Fin 512), by decide +kernel⟩,
  ⟨onReset fun d => (((d.put PRT_PORT_CFG.KIND 0 4).put PRT_PORT_CFG.WIDTH 0 1).put LNA_LANE_STATE.STATE 0 4).put LNA_LANE_STATE.STATE 1 4
    |>.setLink 0 fun l => { l with lanes := [0, 1] }, (0 : Fin 512), ([100, 5] : List Int), ((1, 5) : Nat × Int), ([(0, 100), (1, 5)] :
    List (Nat × Int)), (95 : Int), by decide +kernel⟩⟩

theorem witness_FlitsAndReplay :
  (∃ (s : State) (port : Fin 512) (bytes : List Byte) (bs : List Byte) (bodies : List Body) (n : Nat), s.dev.supply = .on ∧
    s.dev.fabricPort port = true ∧ (s.dev.linkState port = 2 ∨ s.dev.linkState port = 3) ∧ s.dev.injections = [] ∧ fecDecode bytes = some
    (bs, n) ∧ flitCrcOk bs = true ∧ bitsOf (ofBeBytes (bs.take 4)) 31 28 = 1) ∧
  (∃ (s : State) (port : Fin 512) (expected : Fin 16384), s.dev.supply = .on ∧ s.dev.fabricPort port = true) ∧
  (∃ (s : State) (port : Fin 512), s.dev.supply = .on ∧ (s.dev.link port).unacked ≠ [] ∧ s.dev.linkState port = 2) ∧
  (∃ (s : State) (port : Fin 512) (skews : List Int) (e : Nat × Int), s.dev.supply = .on ∧ s.dev.fabricPort port = true ∧ (s.dev.link
    port).lanes.Nodup ∧ e ∈ (s.dev.link port).lanes.zip skews) ∧
  (∃ (s : State) (port : Fin 512) (asked : Option (Nat × Nat)), s.dev.supply = .on ∧ s.dev.fabricPort port = true) ∧
  (∃ (s : State) (port : Fin 512) (tag : Nat) (turnaround : Nat) (sent : Nat), s.dev.supply = .on ∧ (s.dev.link port).echo = some (tag,
    sent)) ∧
  (∃ (s : State) (port : Fin 512) (partner : Params), s.dev.supply = .on ∧ s.dev.fabricPort port = true ∧ (s.dev.linkState port = 2 ∨
    s.dev.linkState port = 3)) ∧
  (∃ (s : State) (port : Fin 512) (partner : Params) (w : Nat) (rate : Nat) (lanes : List Nat), s.dev.supply = .on ∧ s.dev.fabricPort port
    = true ∧ s.dev.linkState port ≠ 2 ∧ s.dev.linkState port ≠ 3 ∧ (((s.dev.lanesOf port).any fun n => s.dev.laneState n == 5) = true) ∧
    partner.version = 1 ∧ pickWidth (s.dev.lanesOf port) (s.dev.is PRT_PORT_CFG.REVERSAL_OK port) (fun n => s.dev.laneState n == 5) (min
    (s.dev.get PRT_PORT_CFG.WIDTH port) partner.width) = some (w, lanes) ∧ (s.dev.fabricRates port).find? (fun r => partner.rates.contains
    r) = some rate) ∧
  (∃ (s : State) (port : Fin 512) (subtype : Fin 256) (r : CtlReq), s.dev.supply = .on ∧ s.dev.asked port subtype = some r) ∧
  (∃ (s : State) (port : Fin 512) (found : Capx) (n : Nat) (w : Nat) (lanes : List Nat), s.dev.supply = .on ∧ s.dev.configured port = true
    ∧ s.dev.fabricPort port = false ∧ pickWidth (s.dev.lanesOf port) (s.dev.is PRT_PORT_CFG.REVERSAL_OK port) (fun n => s.dev.laneState n
    == 5) (min (s.dev.get PRT_PORT_CFG.WIDTH port) found.width) = some (w, lanes) ∧ n ∈ lanes ∧ (((s.dev.endpointsOf port).all fun e =>
    !(s.dev.endpoint port e).resetPending) = true)) ∧
  (∃ (s : State) (port : Fin 512) (found : Capx) (n : Nat), s.dev.supply = .on ∧ s.dev.configured port = true ∧ s.dev.fabricPort port =
    true ∧ s.dev.linkState port = 1 ∧ (s.dev.link port).params.isSome = true ∧ (((s.dev.link port).lanes.all fun m => s.dev.laneState m ==
    5) = true) ∧ n ∈ (s.dev.link port).lanes) :=
  ⟨⟨onReset fun d => (((d.put PRT_PORT_CFG.KIND 0 4).put PRT_PORT_CFG.WIDTH 0 1).put FLL_LINK_STATUS.STATE 0 2), (0 : Fin 512), (quietFlit
    : List Byte), (quietFlit : List Byte), ([] : List Body), (0 : Nat), ⟨by decide +kernel, by decide +kernel, by decide +kernel,
    by decide +kernel, by decide +kernel, quiet_crc, by decide +kernel⟩⟩,
  ⟨onReset fun d => (((d.put PRT_PORT_CFG.KIND 0 4).put PRT_PORT_CFG.WIDTH 0 1).put FLL_SEQ.NEXT_TX 0 3).setLink 0 fun l =>
    { l with unacked := [⟨1, []⟩, ⟨2, []⟩] }, (0 : Fin 512), (2 : Fin 16384), by decide +kernel⟩,
  ⟨onReset fun d => (((d.put PRT_PORT_CFG.KIND 0 4).put PRT_PORT_CFG.WIDTH 0 1).put FLL_LINK_STATUS.STATE 0 2).setLink 0 fun l =>
    { l with unacked := [⟨2, []⟩] }, (0 : Fin 512), by decide +kernel⟩,
  ⟨onReset fun d => ((d.put PRT_PORT_CFG.KIND 0 4).put PRT_PORT_CFG.WIDTH 0 1).setLink 0 fun l => { l with lanes := [0, 1] }, (0 : Fin
    512), ([-3, 4] : List Int), ((1, 4) : Nat × Int), by decide +kernel⟩,
  ⟨onReset fun d => ((d.put PRT_PORT_CFG.KIND 0 4).put PRT_PORT_CFG.WIDTH 0 1), (0 : Fin 512), (none : Option (Nat × Nat)),
    by decide +kernel⟩,
  ⟨onReset fun d => { ((d.put PRT_PORT_CFG.KIND 0 4).put PRT_PORT_CFG.WIDTH 0 1) with now := 50000 }.setLink 0 fun l =>
    { l with echo := some (7, 100) }, (0 : Fin 512), (7 : Nat), (20 : Nat), (100 : Nat), by decide +kernel⟩,
  ⟨onReset fun d => (((d.put PRT_PORT_CFG.KIND 0 4).put PRT_PORT_CFG.WIDTH 0 1).put FLL_LINK_STATUS.STATE 0 2), (0 : Fin 512),
    ({ fpid := 5 } : Params), by decide +kernel⟩,
  ⟨onReset fun d => ((d.put PRT_PORT_CFG.KIND 0 4).put LNA_LANE_STATE.STATE 0 5).put PRT_PORT_CFG.RATE_MAX 0 7, (0 : Fin 512),
    ({ fpid := 5, version := 1, rates := [6] } : Params), (0 : Nat), (6 : Nat), ([0] : List Nat), by decide +kernel⟩,
  ⟨onReset fun d => ((d.put PRT_PORT_CFG.KIND 0 4).put PRT_PORT_CFG.WIDTH 0 1).setLink 0 fun l =>
    { l with requests := [{ subtype := 16, fields := [1] }] }, (0 : Fin 512), (16 : Fin 256), ({ subtype := 16, fields := [1] } : CtlReq),
    by decide +kernel⟩,
  ⟨onReset fun d => (d.put PRT_PORT_CFG.KIND 0 2).put LNA_LANE_STATE.STATE 0 5, (0 : Fin 512), ({} : Capx), (0 : Nat), (0 : Nat), ([0] :
    List Nat), by decide +kernel⟩,
  ⟨onReset fun d => (((d.put PRT_PORT_CFG.KIND 0 4).put PRT_PORT_CFG.WIDTH 0 1).put FLL_LINK_STATUS.STATE 0 1).put LNA_LANE_STATE.STATE 0
    5 |>.setLink 0 fun l => { l with lanes := [0], params := some { fpid := 5 } }, (0 : Fin 512), ({} : Capx), (0 : Nat),
    by decide +kernel⟩⟩

theorem witness_WidthSpeedPause :
  (∃ (s : State) (port : Fin 512) (tries : List (Fin 512 × List Bool)) (temp : Byte), s.dev.supply = .on ∧ s.dev.linkState port = 3 ∧
    (s.dev.link port).ownPause = true) ∧
  (∃ (s : State) (lane : Fin 512) (port : Nat), s.dev.supply = .on ∧ s.dev.portOfLane lane = some port ∧ s.dev.fabricPort port = true ∧
    s.dev.linkServing port = true ∧ (s.dev.link port).lanes.contains lane.val = true) ∧
  (∃ (s : State) (port : Fin 512) (width : Fin 5) (mask : Fin 65536), s.dev.supply = .on ∧ s.dev.fabricPort port = true ∧
    s.dev.linkServing port = true ∧ (lanesOfMask port mask).length = widthLanes width ∧ (lanesOfMask port mask).all (s.dev.lanesOf
    port).contains = true) ∧
  (∃ (s : State) (port : Fin 512) (width : Fin 5) (mask : Fin 65536) (lanes : List Nat), s.dev.supply = .on ∧ (s.dev.asked port 16).isSome
    = true ∧ (s.dev.link port).newWidth = some (width.val, lanes) ∧ maskOfLanes port lanes = mask.val) ∧
  (∃ (s : State) (port : Fin 512) (expected : Fin 16384) (n : Nat), s.dev.supply = .on ∧ s.dev.fabricPort port = true ∧ 3 ≤
    s.dev.linkState port ∧ s.dev.linkState port ≤ 5 ∧ (s.dev.linkState port = 4 → s.dev.asked port 16 = none) ∧ n ∈ (s.dev.link
    port).lanes) ∧
  (∃ (s : State) (port : Fin 512) (width : Fin 5) (code : Nat) (n : Nat) (lanes : List Nat), s.dev.supply = .on ∧ s.dev.fabricPort port =
    true ∧ s.dev.linkState port = 2 ∧ pickWidth (s.dev.lanesOf port) (s.dev.is PRT_PORT_CFG.REVERSAL_OK port) (fun n => s.dev.is
    LNA_LANE_CFG.ENABLE n && s.dev.cagePowered n && decide (s.dev.laneState n ≤ 7)) (min width.val (s.dev.get PRT_PORT_CFG.WIDTH port)) =
    some (code, lanes) ∧ s.dev.get FLL_LINK_STATUS.WIDTH port < code ∧ n ∈ lanes ∧ n ∉ (s.dev.link port).lanes) ∧
  (∃ (s : State) (port : Fin 512) (rate : Fin 8) (ack : Bool) (n : Nat), s.dev.supply = .on ∧ s.dev.fabricPort port = true ∧
    s.dev.linkState port = 2 ∧ (ack = false → (s.dev.fabricRates port).contains rate.val = true ∧ s.dev.rateHeld (s.dev.link port).lanes
    rate = true) ∧ (ack = true → (s.dev.asked port 18).map (·.fields) = some [rate.val]) ∧ n ∈ (s.dev.link port).lanes) ∧
  (∃ (s : State) (port : Fin 512) (n : Nat), s.dev.supply = .on ∧ s.dev.linkState port = 5 ∧ (((s.dev.link port).lanes.all fun m =>
    s.dev.laneState m == 5) = false) ∧ n ∈ (s.dev.link port).lanes) ∧
  (∃ (s : State) (port : Fin 512) (reason : Byte) (n : Nat), s.dev.supply = .on ∧ s.dev.fabricPort port = true ∧ reason = 1 ∧
    s.dev.linkState port = 2 ∧ s.dev.diePausing port = false ∧ n ∈ (s.dev.link port).lanes ∧ s.dev.laneState n = 6) ∧
  (∃ (s : State) (port : Fin 512) (n : Nat), s.dev.supply = .on ∧ (s.dev.asked port 20).isSome = true ∧ s.dev.linkState port = 2 ∧ n ∈
    (s.dev.link port).lanes ∧ s.dev.laneState n = 6) :=
  ⟨⟨onReset fun d => (((d.put PRT_PORT_CFG.KIND 0 4).put PRT_PORT_CFG.WIDTH 0 1).put FLL_LINK_STATUS.STATE 0 3).setLink 0 fun l =>
    { l with ownPause := true }, (0 : Fin 512), ([] : List (Fin 512 × List Bool)), (40 : Byte), by decide +kernel⟩,
  ⟨onReset fun d => (((((d.put PRT_PORT_CFG.KIND 0 4).put PRT_PORT_CFG.WIDTH 0 1).put FLL_LINK_STATUS.STATE 0 2).put LNA_LANE_STATE.STATE
    0 6).setLink 0 fun l => { l with lanes := [0] }), (0 : Fin 512), (0 : Nat), by decide +kernel⟩,
  ⟨onReset fun d => ((((d.put PRT_PORT_CFG.KIND 0 4).put PRT_PORT_CFG.WIDTH 0 1).put FLL_LINK_STATUS.STATE 0 2).put PRT_PORT_CFG.WIDTH 0
    1), (0 : Fin 512), (0 : Fin 5), (1 : Fin 65536), by decide +kernel⟩,
  ⟨onReset fun d => (((d.put PRT_PORT_CFG.KIND 0 4).put PRT_PORT_CFG.WIDTH 0 1).put FLL_LINK_STATUS.STATE 0 2).setLink 0 fun l =>
    { l with requests := [{ subtype := 16, fields := [0, 1] }], newWidth := some (0, [0]) }, (0 : Fin 512), (0 : Fin 5), (1 : Fin 65536),
    ([0] : List Nat), by decide +kernel⟩,
  ⟨onReset fun d => (d.put PRT_PORT_CFG.KIND 0 4).put FLL_LINK_STATUS.STATE 0 4 |>.setLink 0 fun l => { l with lanes := [0] }, (0 : Fin
    512), (0 : Fin 16384), (0 : Nat), by decide +kernel⟩,
  ⟨onReset fun d => (((((((d.put PRT_PORT_CFG.KIND 0 4).put PRT_PORT_CFG.WIDTH 0 1).put FLL_LINK_STATUS.STATE 0 2).put EF_STATUS.PG 0
    1).put LNA_LANE_CFG.ENABLE 0 1).put LNA_LANE_CFG.ENABLE 1 1).put LNA_LANE_STATE.STATE 0 6).setLink 0 fun l => { l with lanes := [0] },
    (0 : Fin 512), (1 : Fin 5), (1 : Nat), (1 : Nat), ([0, 1] : List Nat), by decide +kernel⟩,
  ⟨onReset fun d => ((((d.put PRT_PORT_CFG.KIND 0 4).put PRT_PORT_CFG.WIDTH 0 1).put FLL_LINK_STATUS.STATE 0 2).put PRT_PORT_CFG.RATE_MAX
    0 7).setLink 0 fun l => { l with lanes := [0] }, (0 : Fin 512), (6 : Fin 8), (false : Bool), (0 : Nat), by decide +kernel⟩,
  ⟨onReset fun d => (((d.put PRT_PORT_CFG.KIND 0 4).put PRT_PORT_CFG.WIDTH 0 1).put FLL_LINK_STATUS.STATE 0 5).setLink 0 fun l =>
    { l with lanes := [0] }, (0 : Fin 512), (0 : Nat), by decide +kernel⟩,
  ⟨onReset fun d => ((((d.put PRT_PORT_CFG.KIND 0 4).put PRT_PORT_CFG.WIDTH 0 1).put FLL_LINK_STATUS.STATE 0 2).put LNA_LANE_STATE.STATE 0
    6).setLink 0 fun l => { l with lanes := [0] }, (0 : Fin 512), (1 : Byte), (0 : Nat), by decide +kernel⟩,
  ⟨onReset fun d => ((((d.put PRT_PORT_CFG.KIND 0 4).put PRT_PORT_CFG.WIDTH 0 1).put FLL_LINK_STATUS.STATE 0 2).put LNA_LANE_STATE.STATE 0
    6).setLink 0 fun l => { l with lanes := [0], requests := [{ subtype := 20, fields := [1] }] }, (0 : Fin 512), (0 : Nat),
    by decide +kernel⟩⟩

theorem witness_CreditWindows :
  (∃ (s : State) (src : Fin 4194304) (dst : Fin 4194304) (gvh : Fin 8388608) (cls : Cls), s.dev.supply = .on ∧ fpidModule dst =
    s.dev.moduleId ∧ s.dev.dwin src dst = none ∧ s.dev.fabricPort (fpidPort dst) = false ∧ (internalPort (fpidPort dst) = true ∨
    s.dev.configured (fpidPort dst) = true) ∧ ((s.dev.dwins.filter fun w => w.dst == dst.val).length < s.dev.get BSN_PORT_WIN.WINDOWS
    (fpidPort dst)) ∧ s.dev.portGrant (fpidPort dst) ≠ 0) ∧
  (∃ (s : State) (src : Fin 4194304) (dst : Fin 4194304) (w : DWin), s.dev.supply = .on ∧ s.dev.dwin src dst = some w ∧ w.owed ≠ 0) ∧
  (∃ (s : State) (src : Fin 4194304) (dst : Fin 4194304) (kind : CreditKind) (cseq : Fin 65536) (value : Word) (w : Nat), s.dev.supply =
    .on ∧ s.dev.winOf src dst = some w ∧ s.dev.armedFor 6 w = false ∧ (s.dev.win w).cseq = some cseq.val) ∧
  (∃ (s : State) (src : Fin 4194304) (dst : Fin 4194304) (cseq : Fin 65536) (value : Word) (w : Nat), s.dev.supply = .on ∧ s.dev.winOf src
    dst = none ∧ firstFree s.dev.wins 0 = w ∧ (s.dev.openWindow src dst gvhModule .c value.toNat).1 = Status.ok) ∧
  (∃ (s : State) (window : Fin 32768), s.dev.supply = .on ∧ s.dev.is EBR_CRD_GRANT.VALID window = true ∧ s.dev.stoppedFrames (s.dev.win
    window).src (s.dev.win window).dst = false) ∧
  (∃ (s : State) (port : Fin 512) (w : Nat), s.dev.supply = .on ∧ w ∈ s.dev.windowsBy port ∧ s.dev.is EBR_CRD_GRANT.VALID w = true) ∧
  (∃ (s : State) (src : Fin 4194304) (dst : Fin 4194304) (sent : Word) (w : DWin), s.dev.supply = .on ∧ s.dev.dwin src dst = some w) ∧
  (∃ (s : State) (src : Fin 4194304) (dst : Fin 4194304) (cseq : Fin 65536) (held : Word) (w : Nat), s.dev.supply = .on ∧ s.dev.winOf src
    dst = some w ∧ (s.dev.win w).cseq = some cseq.val ∧ s.dev.is EBR_CRD_AVAIL.RESYNC_ACTIVE w = true) ∧
  (∃ (s : State) (window : Fin 32768), s.dev.supply = .on ∧ s.dev.is EBR_CRD_AVAIL.RESYNC_ACTIVE window = true) :=
  ⟨⟨onReset fun d => (((d.put PRT_PORT_CFG.KIND 3 1).put BSN_PORT_WIN.WINDOWS 3 8).put BSN_PORT_RSV.LR 3 1000).put RTE_MODULE_ID.ID 0 1,
    (1024 : Fin 4194304), (515 : Fin 4194304), (0 : Fin 8388608), (.c : Cls), by decide +kernel⟩,
  ⟨onReset fun d => { d with dwins := [{ src := 0, dst := 7, grant := 100, owed := 5 }] }, (0 : Fin 4194304), (7 : Fin 4194304),
    ({ src := 0, dst := 7, grant := 100, owed := 5 } : DWin), by decide +kernel⟩,
  ⟨onReset fun d => ((((Dev.put { d with wins := [(5, { src := 0, dst := 7, cseq := some 3 })] } EBR_CRD_GRANT.VALID 5 1).put
    EBR_CRD_GRANT.GRANT 5 100).put EBR_CRD_AVAIL.AVAIL 5 10).put EBR_CRD_AVAIL.RESYNC_ACTIVE 5 1), (0 : Fin 4194304), (7 : Fin 4194304),
    (.ret : CreditKind), (3 : Fin 65536), (20 : Word), (5 : Nat), by decide +kernel⟩,
  ⟨onReset fun d => d, (0 : Fin 4194304), (7 : Fin 4194304), (0 : Fin 65536), (20 : Word), (0 : Nat), by decide +kernel⟩,
  ⟨onReset fun d => ((d.put EBR_CRD_GRANT.VALID 5 1).put EBR_CRD_GRANT.GRANT 5 100), (5 : Fin 32768), by decide +kernel⟩,
  ⟨onReset fun d => (Dev.put { d with wins := [(5, { src := 0, dst := 7 })] } EBR_CRD_GRANT.VALID 5 1), (7 : Fin 512), (5 : Nat),
    by decide +kernel⟩,
  ⟨onReset fun d => { d with dwins := [{ src := 0, dst := 7, grant := 100, owed := 5 }] }, (0 : Fin 4194304), (7 : Fin 4194304), (0 :
    Word), ({ src := 0, dst := 7, grant := 100, owed := 5 } : DWin), by decide +kernel⟩,
  ⟨onReset fun d => ((((Dev.put { d with wins := [(5, { src := 0, dst := 7, cseq := some 3 })] } EBR_CRD_GRANT.VALID 5 1).put
    EBR_CRD_GRANT.GRANT 5 100).put EBR_CRD_AVAIL.AVAIL 5 10).put EBR_CRD_AVAIL.RESYNC_ACTIVE 5 1), (0 : Fin 4194304), (7 : Fin 4194304),
    (3 : Fin 65536), (20 : Word), (5 : Nat), by decide +kernel⟩,
  ⟨onReset fun d => d.put EBR_CRD_AVAIL.RESYNC_ACTIVE 5 1, (5 : Fin 32768), by decide +kernel⟩⟩

theorem witness_PortCommands :
  (∃ (s : State) (h : CmdHdr) (fpid : Word) (kind : Byte) (width : Byte) (rate : Byte) (flags : Byte) (lr : Word) (oversub : Byte)
    (windows : Fin 65536) (pm : Word) (p : Nat) (x : PortSetting), s.dev.supply = .on ∧ s.dev.CarriesOut h 0x0501 [1, 2] (fpidModule
    (fpidField fpid.toNat)) ∧ fpidPort (fpidField fpid.toNat) = p ∧ (⟨kind.toNat, width.toNat, rate.toNat, flags.toNat, lr.toNat,
    oversub.toNat, windows, pm.toNat⟩ : PortSetting) = x ∧ x.bad = none) ∧
  (∃ (s : State) (h : CmdHdr) (fpid : Word) (on : Byte) (n : Nat), s.dev.supply = .on ∧ s.dev.CarriesOut h 0x0502 [1, 2] (fpidModule
    (fpidField fpid.toNat)) ∧ s.dev.objectHeld h (Wait.holdsLanes (s.dev.lanesOf (fpidPort (fpidField fpid.toNat)))) = false ∧ on.toNat ≤
    1 ∧ s.dev.configured (fpidPort (fpidField fpid.toNat)) = true ∧ n ∈ s.dev.lanesOf (fpidPort (fpidField fpid.toNat))) ∧
  (∃ (s : State) (h : CmdHdr) (addr : Nat) (length : Word) (source : Fetch) (bs : List Byte) (table : List EqEntry), s.dev.supply = .on ∧
    s.dev.CarriesOut h 0x0503 [2, 4] s.dev.moduleId ∧ (if addr = 0 then (if SMap.get [] s.dev.images 2 = [] then none else some (SMap.get
    [] s.dev.images 2)) else fetched s.mem source addr length.toNat) = some bs ∧ eqTableOf bs = some table) ∧
  (∃ (s : State) (h : CmdHdr) (first : Fin 65536) (count : Byte) (dwell : Byte) (errLimit : Byte) (axes : Byte) (hfloor : Byte) (vfloor :
    Byte) (n : Nat), s.dev.supply = .on ∧ s.dev.CarriesOut h 0x0504 [1, 2, 4] s.dev.moduleId ∧ s.dev.objectHeld h (Wait.holdsLanes
    ((List.range count.toNat).map (first.val + ·))) = false ∧ first.val + count.toNat ≤ 512 ∧ 1 ≤ count.toNat ∧ count.toNat ≤ 16 ∧
    dwell.toNat ≤ 8 ∧ errLimit.toNat ≤ 15 ∧ axes.toNat ≤ 3 ∧ hfloor.toNat ≤ 63 ∧ vfloor.toNat ≤ 63 ∧ first.val ≤ n ∧ n < first.val +
    count.toNat) ∧
  (∃ (s : State) (h : CmdHdr) (lane : Fin 65536) (delay : Byte) (locked : Bool) (found : Fin 256), s.dev.supply = .on ∧ s.dev.CarriesOut h
    0x0505 [2] s.dev.moduleId ∧ lane.val < 512 ∧ (s.dev.laneState lane = 3 ∨ s.dev.laneState lane = 10)) ∧
  (∃ (s : State) (h : CmdHdr) (object : Word) (flags : Byte), s.dev.supply = .on ∧ s.dev.CarriesOut h 0x0506 [1, 2, 4] s.dev.moduleId ∧
    s.dev.objectHeld h (Wait.holdsLanes [object.toNat]) = false ∧ object.toNat < 512 ∧ bitOf flags.toNat 4 = true ∧ flags.toNat < 32) ∧
  (∃ (s : State) (h : CmdHdr) (object : Word) (flags : Byte) (p : Nat), s.dev.supply = .on ∧ s.dev.CarriesOut h 0x0506 [1, 2, 4]
    (fpidModule (fpidField object.toNat)) ∧ s.dev.objectHeld h (Wait.holdsLanes (s.dev.lanesOf (fpidPort (fpidField object.toNat)))) =
    false ∧ fpidPort (fpidField object.toNat) = p ∧ bitOf flags.toNat 4 = false ∧ flags.toNat < 32 ∧ s.dev.configured p = true ∧ (bitOf
    flags.toNat 2 = true → s.dev.deviceFacing p = true)) :=
  ⟨⟨onReset fun d => d.put CUR_START_STATUS.READY 0 1, ({ } : CmdHdr), (0 : Word), (1 : Byte), (0 : Byte), (5 : Byte), (0 : Byte), (0 :
    Word), (0 : Byte), (0 : Fin 65536), (0xFFFFFFFF : Word), (0 : Nat), (⟨1, 0, 5, 0, 0, 0, 0, 4294967295⟩ : PortSetting),
    by unfold Dev.CarriesOut; decide +kernel⟩,
  ⟨onReset fun d => (d.put PRT_PORT_CFG.KIND 3 1).put CUR_START_STATUS.READY 0 1, ({ } : CmdHdr), (3 : Word), (1 : Byte), (3 : Nat),
    by unfold Dev.CarriesOut; decide +kernel⟩,
  ⟨onReset fun d => ({ d with images := [(2, eqImage)] }).put CUR_START_STATUS.READY 0 1, ({ } : CmdHdr), (0 : Nat), (0 : Word), (.local_
    : Fetch), (eqImage : List Byte), ([⟨0, 5, 0, 0, 0, 0, 0⟩] : List EqEntry), by unfold Dev.CarriesOut; decide +kernel⟩,
  ⟨onReset fun d => d.put CUR_START_STATUS.READY 0 1, ({ } : CmdHdr), (3 : Fin 65536), (2 : Byte), (1 : Byte), (2 : Byte), (3 : Byte), (4
    : Byte), (5 : Byte), (4 : Nat), by unfold Dev.CarriesOut; decide +kernel⟩,
  ⟨onReset fun d => (d.put LNA_LANE_STATE.STATE 3 10).put CUR_START_STATUS.READY 0 1, ({ } : CmdHdr), (3 : Fin 65536), (7 : Byte), (true :
    Bool), (9 : Fin 256), by unfold Dev.CarriesOut; decide +kernel⟩,
  ⟨onReset fun d => (d.put LNA_LANE_STATE.STATE 3 8).put CUR_START_STATUS.READY 0 1, ({ } : CmdHdr), (3 : Word), (16 : Byte),
    by unfold Dev.CarriesOut; decide +kernel⟩,
  ⟨onReset fun d => ((d.put PRT_PORT_CFG.KIND 3 1).put PRT_PORT_STATUS.DL_ACTIVE 3 1).put CUR_START_STATUS.READY 0 1, ({ } : CmdHdr), (3 :
    Word), (0 : Byte), (3 : Nat), by unfold Dev.CarriesOut; decide +kernel⟩⟩

theorem witness_TlpsAndMessages :
  (∃ (s : State) (port : Fin 512) (t : Tlp) (e : Nat) (b : EpBind) (f : Frame) (w : Nat), s.dev.supply = .on ∧ s.dev.hostFacing port =
    false ∧ s.dev.deviceFacing port = true ∧ (t.kind = .memWrite ∨ t.kind = .memRead ∨ t.kind = .atomic) ∧ t.ecrc ≠ some false ∧
    s.dev.selectEndpoint port t.requester t.ldId = some e ∧ (s.dev.endpoint port e).bound = some b ∧ b.refusing = false ∧ s.dev.peer b
    t.addr = none ∧ edgeFrame (s.dev.fpid port) b.up b.gvh b.cls (.tlp
    { t with ecrc := none, flit := true, requester := s.dev.hostId port t.requester t.ldId }) = f ∧ s.dev.heldTlps = [] ∧ s.dev.cellsMayGo
    port = true ∧ s.dev.frozenAt port b.gvh = false ∧ s.dev.winOf f.src f.dst = some w ∧ (((s.dev.need port b.up b.gvh b.k b.cls false
    f.body).all fun e => (s.dev.entryWait e).isNone) = true)) ∧
  (∃ (s : State) (port : Fin 512) (x : Nat × Frame) (t : Tlp) (d : Dev), s.dev.supply = .on ∧ s.dev.halted = false ∧ ((s.dev.egress.find?
    fun y => y.1 == port.val && !s.dev.lockBlocks port y.2) = some x) ∧ Dev.flowCheck { s.dev with egress := s.dev.egress.erase x } port
    x.2 = (true, d) ∧ x.2.body = .tlp t ∧ t.kind.completion = false ∧ t.kind.nonPosted = false ∧ t.kind ≠ .intxMsg ∧ s.dev.hostFacing port
    = true ∧ d.peerOf port x.2 t = none ∧ (x.2.poison = false ∨ bodyData x.2.body = true)) ∧
  (∃ (s : State) (port : Fin 512) (m : MemMsg), s.dev.supply = .on ∧ s.dev.hostFacing port = true ∧ m.response = false ∧
    s.dev.vitrineOfPort port = none) ∧
  (∃ (s : State) (port : Fin 512) (m : MemMsg) (lv : Nat) (x : Nat × Nat) (b : Binding) (f : Frame) (w : Nat), s.dev.supply = .on ∧
    s.dev.hostFacing port = true ∧ m.response = false ∧ s.dev.vitrineOfPort port = some lv ∧ s.dev.contained 1 lv = false ∧ s.dev.get
    VIT_STATE.STATE lv = 2 ∧ hdmSelect (s.dev.vit lv).hdm m.addr = some x ∧ (s.dev.vit lv).binding x.1 = some b ∧ s.dev.hostReaches lv b =
    true ∧ s.dev.takesMem b = true ∧ edgeFrame (s.dev.fpid port) b.fpid (s.dev.gvh lv) b.cls (.mem
    { m with addr := x.2, ldId := b.ldId.getD 0 }) = f ∧ s.dev.heldTlps = [] ∧ s.dev.cellsMayGo port = true ∧ s.dev.winOf f.src f.dst =
    some w ∧ s.dev.canInject f = true ∧ s.dev.frozenAt port f.gvh = false ∧ (((s.dev.need port b.fpid (s.dev.gvh lv) b.k b.cls true
    f.body).all fun e => (s.dev.entryWait e).isNone) = true)) ∧
  (∃ (s : State) (lvid : Fin 1024) (k : Fin 64) (fn : Fin 256) (wire : Fin 4) (assert : Bool) (b : Binding), s.dev.supply = .on ∧
    (s.dev.vit lvid).binding k = some b) ∧
  (∃ (s : State) (port : Fin 512) (ep : Fin 128) (severity : Fin 3) (lv : Nat) (k : Nat) (b : Binding), s.dev.supply = .on ∧ s.dev.boundTo
    port ep = some (lv, k) ∧ (s.dev.vit lv).binding k = some b ∧ b.k = k) ∧
  (∃ (s : State) (port : Fin 512) (ep : Fin 128) (severity : Fin 3) (b : EpBind), s.dev.supply = .on ∧ s.dev.boundTo port ep = none ∧
    (s.dev.endpoint port ep).bound = some b) ∧
  (∃ (s : State) (port : Fin 512) (lv : Nat), s.dev.supply = .on ∧ s.dev.vitrineOfPort port = some lv) ∧
  (∃ (s : State) (lvid : Fin 1024) (k : Fin 64) (ks : List Nat), s.dev.supply = .on ∧ (s.dev.vit lvid).pmeWait = some ks) ∧
  (∃ (s : State) (lvid : Fin 1024) (ks : List Nat), s.dev.supply = .on ∧ (s.dev.vit lvid).pmeWait = some ks) ∧
  (∃ (s : State) (fpid : Fin 4194304) (ep : Fin 128) (required : Bool) (ns : Nat), s.dev.supply = .on) ∧
  (∃ (s : State) (port : Fin 512) (lv : Nat), s.dev.supply = .on ∧ s.dev.vitrineOfPort port = some lv) ∧
  (∃ (s : State) (port : Fin 512), s.dev.supply = .on) :=
  ⟨⟨onReset fun d => (hostDev d), (5 : Fin 512), ({ kind := .memWrite, addr := 4096, bytes := 4, data := [1, 2, 3, 4] } : Tlp), (0 : Nat),
    ({ gvh := 77, k := 0, up := 3, bus := 7 } : EpBind), (edgeFrame 5 3 77 .l (.tlp
    { kind := .memWrite, addr := 4096, bytes := 4, data := [1, 2, 3, 4], requester := 1792, flit := true }) : Frame), (0 : Nat),
    by decide +kernel⟩,
  ⟨onReset fun d => { hostDev d with egress := [(3, edgeFrame 5 3 77 .l (.tlp { kind := .memWrite }))] }, (3 : Fin 512), ((3, edgeFrame 5
    3 77 .l (.tlp { kind := .memWrite })) : Nat × Frame), ({ kind := .memWrite } : Tlp), ((Dev.flowCheck
    { (onReset fun d => { hostDev d with egress := [(3, edgeFrame 5 3 77 .l (.tlp { kind := .memWrite }))] }).dev with egress := [] } 3
    (edgeFrame 5 3 77 .l (.tlp { kind := .memWrite }))).2 : Dev), by decide +kernel⟩,
  ⟨onReset fun d => d.put PRT_PORT_CFG.KIND 3 1, (3 : Fin 512), ({ withData := false } : MemMsg), by decide +kernel⟩,
  ⟨onReset fun d => ((hostDev d).put PRT_PORT_CFG.KIND 5 3 |>.put PRT_PORT_STATUS.CXL 5 1 |>.put TRK_VIT_QUOTA.QUOTA 0 9 |>.put
    PRT_PORT_STATUS.DL_ACTIVE 5 1).setVit 0 fun v =>
    { v with hdm := [{ enabled := true, base := 0, size := 268435456, targets := [0] }] }, (3 : Fin 512),
    ({ withData := false, addr := 64 } : MemMsg), (0 : Nat), ((0, 64) : Nat × Nat), ({ k := 0, fpid := 5, ep := 0 } : Binding), (edgeFrame
    3 5 77 .l (.mem { withData := false, addr := 64 }) : Frame), (1 : Nat), by decide +kernel⟩,
  ⟨onReset fun d => (hostDev d), (0 : Fin 1024), (0 : Fin 64), (1 : Fin 256), (2 : Fin 4), (true : Bool), ({ k := 0, fpid := 5, ep := 0 }
    : Binding), by decide +kernel⟩,
  ⟨onReset fun d => (hostDev d), (5 : Fin 512), (0 : Fin 128), (2 : Fin 3), (0 : Nat), (0 : Nat), ({ k := 0, fpid := 5, ep := 0 } :
    Binding), by decide +kernel⟩,
  ⟨onReset fun d => (hostDev d).put VIT_STATE.GVH 0 78, (5 : Fin 512), (0 : Fin 128), (2 : Fin 3),
    ({ gvh := 77, k := 0, up := 3, bus := 7 } : EpBind), by decide +kernel⟩,
  ⟨onReset fun d => (hostDev d), (3 : Fin 512), (0 : Nat), by decide +kernel⟩,
  ⟨onReset fun d => (hostDev d).setVit 0 fun v => { v with pmeWait := some [0] }, (0 : Fin 1024), (0 : Fin 64), ([0] : List Nat),
    by decide +kernel⟩,
  ⟨onReset fun d => (hostDev d).setVit 0 fun v => { v with pmeWait := some [0] }, (0 : Fin 1024), ([0] : List Nat), by decide +kernel⟩,
  ⟨onReset fun d => (hostDev d), (5 : Fin 4194304), (0 : Fin 128), (true : Bool), (5000 : Nat), by decide +kernel⟩,
  ⟨onReset fun d => (hostDev d).setEndpoint 5 0 fun x => { x with ltr := some 5000000, ltrSeen := true }, (3 : Fin 512), (0 : Nat),
    by decide +kernel⟩,
  ⟨onReset fun d => d, (3 : Fin 512), by decide +kernel⟩⟩

theorem witness_CompletionsAndLocks :
  (∃ (s : State) (port : Fin 512) (src : Fin 4194304) (gvh : Fin 8388608) (t : Tlp), s.dev.supply = .on) ∧
  (∃ (s : State) (port : Fin 512) (t : Tlp) (withData : Bool) (h : Nat) (e : Trk), s.dev.supply = .on ∧ s.dev.matchEntry port t.tag = some
    (h, e) ∧ e.squashed = false) ∧
  (∃ (s : State) (port : Fin 512) (gvh : Fin 8388608), s.dev.supply = .on) ∧
  (∃ (s : State) (port : Fin 512), s.dev.supply = .on ∧ s.dev.get EBR_LOCK.STATE port ≠ 0) ∧
  (∃ (s : State) (queue : Fin 65536), s.dev.supply = .on) ∧
  (∃ (s : State) (port : Fin 512) (body : Body) (h : Nat) (e : Trk), s.dev.supply = .on ∧ s.dev.armedFor 7 (s.dev.fpid port) = false ∧
    s.dev.matchEntry port (bodyTag body) = some (h, e) ∧ s.dev.heldTlps = []) ∧
  (∃ (s : State) (handle : Fin 262144) (e : Trk), s.dev.supply = .on ∧ SMap.find s.dev.trk handle = some e ∧ s.dev.heldTlps = []) ∧
  (∃ (s : State) (port : Fin 512) (src : Fin 4194304) (body : Body) (l : LateRec), s.dev.supply = .on ∧ s.dev.matchLate src (bodyRequester
    body) (bodyTag body) = some l) ∧
  (∃ (s : State) (port : Fin 512) (body : Body) (h : TagHold), s.dev.supply = .on ∧ s.dev.matchHold port (bodyTag body) = some h) ∧
  (∃ (s : State) (port : Fin 512) (source : Option (Fin 4194304)) (body : Body), s.dev.supply = .on ∧ (source = none → s.dev.matchEntry
    port (bodyTag body) = none ∧ s.dev.matchHold port (bodyTag body) = none) ∧ (((source.map fun x => s.dev.matchLate x (bodyRequester
    body) (bodyTag body)).all (·.isNone)) = true)) ∧
  (∃ (s : State) (port : Fin 512) (tag : Nat), s.dev.supply = .on) ∧
  (∃ (s : State) (completer : Fin 4194304) (requester : Fin 65536) (tag : Nat), s.dev.supply = .on) :=
  ⟨⟨onReset fun d => (hostDev d), (5 : Fin 512), (3 : Fin 4194304), (77 : Fin 8388608), ({ kind := .memReadLocked } : Tlp),
    by decide +kernel⟩,
  ⟨onReset fun d => { hostDev d with trk := [(0, openEntry)] }.put EBR_LOCK.STATE 5 1, (5 : Fin 512), ({ kind := .cplDataLocked } : Tlp),
    (true : Bool), (0 : Nat), (openEntry : Trk), by decide +kernel⟩,
  ⟨onReset fun d => (d.put EBR_LOCK.STATE 5 2).put EBR_LOCK.OWNER 5 77, (5 : Fin 512), (77 : Fin 8388608), by decide +kernel⟩,
  ⟨onReset fun d => (d.put EBR_LOCK.STATE 5 2).put EBR_LOCK.OWNER 5 77, (5 : Fin 512), by decide +kernel⟩,
  ⟨onReset fun d => ({ d with queues := [(640, { frames := [lockedFrame] })] }.put EBR_LOCK.STATE 5 2).put EBR_LOCK.OWNER 5 77, (640 : Fin
    65536), by decide +kernel⟩,
  ⟨onReset fun d => { hostDev d with trk := [(0, openEntry)] }, (5 : Fin 512), (.tlp { kind := .cplData } : Body), (0 : Nat), (openEntry :
    Trk), by decide +kernel⟩,
  ⟨onReset fun d => { hostDev d with trk := [(0, { openEntry with edge := .completer })] }, (0 : Fin 262144),
    ({ openEntry with edge := .completer } : Trk), by decide +kernel⟩,
  ⟨onReset fun d => { d with lates := [⟨5, 256, 9, 0, 77, 0, 0⟩] }, (3 : Fin 512), (5 : Fin 4194304), (.tlp
    { kind := .cpl, requester := 256, tag := 9 } : Body), (⟨5, 256, 9, 0, 77, 0, 0⟩ : LateRec), by decide +kernel⟩,
  ⟨onReset fun d => { d with tagHolds := [⟨3, 4, 0, 77, false, 0, 0⟩] }, (3 : Fin 512), (.tlp { kind := .cpl, requester := 256, tag := 4 }
    : Body), (⟨3, 4, 0, 77, false, 0, 0⟩ : TagHold), by decide +kernel⟩,
  ⟨onReset fun d => d, (3 : Fin 512), (none : Option (Fin 4194304)), (.tlp { kind := .cpl } : Body), by decide +kernel⟩,
  ⟨onReset fun d => { d with tagHolds := [⟨3, 4, 0, 77, false, 0, 0⟩] }, (3 : Fin 512), (4 : Nat), by decide +kernel⟩,
  ⟨onReset fun d => { d with lates := [⟨5, 256, 9, 0, 77, 0, 0⟩] }, (5 : Fin 4194304), (256 : Fin 65536), (9 : Nat), by decide +kernel⟩⟩

theorem witness_ResetsAndPresence :
  (∃ (s : State) (port : Fin 512) (ep : Fin 128), s.dev.supply = .on) ∧
  (∃ (s : State) (port : Fin 512) (e : Nat), s.dev.supply = .on ∧ e ∈ s.dev.endpointsOf port) ∧
  (∃ (s : State) (port : Fin 512) (ep : Fin 128), s.dev.supply = .on ∧ ((s.dev.endpoint port ep).accession = .running ∨ (s.dev.endpoint
    port ep).accession = .passed)) ∧
  (∃ (s : State) (port : Fin 512) (e : Nat), s.dev.supply = .on ∧ s.dev.linkUp port = true ∧ e ∈ s.dev.endpointsOf port) ∧
  (∃ (s : State) (cage : Fin 64) (p : Nat), s.dev.supply = .on ∧ s.dev.perstPort cage = some p) ∧
  (∃ (s : State) (cage : Fin 64) (p : Nat) (lv : Nat), s.dev.supply = .on ∧ s.dev.perstPort cage = some p ∧ s.dev.vitrineOfPort p = some
    lv) ∧
  (∃ (s : State) (port : Fin 512) (lv : Nat), s.dev.supply = .on ∧ s.dev.hostFacing port = true ∧ s.dev.vitrineOfPort port = some lv) ∧
  (∃ (s : State) (port : Fin 512), s.dev.supply = .on ∧ s.dev.hostFacing port = true ∧ s.dev.vitrineOfPort port = none) ∧
  (∃ (s : State) (port : Fin 512) (lv : Nat), s.dev.supply = .on ∧ s.dev.hostFacing port = true ∧ s.dev.vitrineOfPort port = some lv) ∧
  (∃ (s : State) (port : Fin 512) (lv : Nat), s.dev.supply = .on ∧ s.dev.hostFacing port = true ∧ s.dev.vitrineOfPort port = some lv) ∧
  (∃ (s : State) (port : Fin 512), s.dev.supply = .on ∧ s.dev.hostFacing port = true ∧ (((s.dev.vitrineOfPort port).all fun lv =>
    !s.dev.presented lv) = true)) ∧
  (∃ (s : State) (port : Fin 512) (presence : Bool) (q : Nat), s.dev.supply = .on ∧ q ∈ (if presence then ((s.dev.cagesOf port).flatMap
    s.dev.portsInCage).eraseDups else [port.val]) ∧ s.dev.deviceFacing q = true) ∧
  (∃ (s : State) (cage : Fin 64) (p : Nat), s.dev.supply = .on ∧ p ∈ s.dev.portsInCage cage) :=
  ⟨⟨onReset fun d => (hostDev d).setEndpoint 5 0 fun x => { x with awaitDrs := true }, (5 : Fin 512), (0 : Fin 128), by decide +kernel⟩,
  ⟨onReset fun d => (hostDev d).setEndpoint 5 0 fun x => { x with awaitDrs := true }, (5 : Fin 512), (0 : Nat), by decide +kernel⟩,
  ⟨onReset fun d => (hostDev d).setEndpoint 5 0 fun x => { x with accession := .running }, (5 : Fin 512), (0 : Fin 128),
    by decide +kernel⟩,
  ⟨onReset fun d => ((hostDev d).setEndpoint 5 0 fun x => { x with resetPending := true }).put PRT_PORT_STATUS.DL_ACTIVE 5 1, (5 : Fin
    512), (0 : Nat), by decide +kernel⟩,
  ⟨onReset fun d => d.put PRT_PORT_CFG.KIND 8 1, (1 : Fin 64), (8 : Nat), by decide +kernel⟩,
  ⟨onReset fun d => ((hostDev d).put PRT_PORT_CFG.KIND 8 1).put VIT_PORT.UPORT 0 8, (1 : Fin 64), (8 : Nat), (0 : Nat),
    by decide +kernel⟩,
  ⟨onReset fun d => (hostDev d).put VIT_STATE.STATE 0 5, (3 : Fin 512), (0 : Nat), by decide +kernel⟩,
  ⟨onReset fun d => d.put PRT_PORT_CFG.KIND 3 1, (3 : Fin 512), by decide +kernel⟩,
  ⟨onReset fun d => (hostDev d).put VIT_STATE.STATE 0 4, (3 : Fin 512), (0 : Nat), by decide +kernel⟩,
  ⟨onReset fun d => (hostDev d).put VIT_STATE.STATE 0 1, (3 : Fin 512), (0 : Nat), by decide +kernel⟩,
  ⟨onReset fun d => d.put PRT_PORT_CFG.KIND 3 1, (3 : Fin 512), by decide +kernel⟩,
  ⟨onReset fun d => d.put PRT_PORT_CFG.KIND 5 2, (5 : Fin 512), (false : Bool), (5 : Nat), by decide +kernel⟩,
  ⟨onReset fun d => d.put PRT_PORT_CFG.KIND 8 2, (1 : Fin 64), (8 : Nat), by decide +kernel⟩⟩

theorem witness_SlotsBarsAndLinkPower :
  (∃ (s : State) (cage : Fin 56) (released : Bool) (p : Nat), s.dev.supply = .on ∧ p ∈ s.dev.portsInCage cage) ∧
  (∃ (s : State) (source : Fin 4194304) (kind : Fin 256) (state : Byte) (value : Byte) (eseq : Word) (front : Fin 16) (lv : Nat) (v : Vit)
    (b : Binding), s.dev.supply = .on ∧ (((s.dev.sbSeen.find? fun e => e.1 == source.val).all fun e => eseq.toNat == e.2 || !decide ((e.2
    + 2 ^ 32 - eseq.toNat) % 2 ^ 32 < 2 ^ 31)) = true) ∧ (lv, v) ∈ s.dev.vits ∧ b ∈ v.bindings ∧ s.dev.concernedBy source front b = true)
    ∧
  (∃ (s : State) (lvid : Fin 1024) (k : Fin 64) (off : Bool) (attention : Fin 4) (power : Fin 4) (interrupt : Bool) (enables : Fin 8192),
    s.dev.supply = .on) ∧
  (∃ (s : State) (lvid : Fin 1024) (k : Fin 64) (bar : Fin 6) (upper : Bool) (wide : Bool) (value : Word) (b : Binding) (a : Nat),
    s.dev.supply = .on ∧ (s.dev.vit lvid).binding k = some b ∧ b.atts[bar.val]? = some a) ∧
  (∃ (s : State) (lvid : Fin 1024) (k : Fin 64) (disable : Option Bool), s.dev.supply = .on) ∧
  (∃ (s : State) (port : Fin 512) (t : Tlp) (lv : Nat) (b : Binding) (f : Frame) (w : Nat), s.dev.supply = .on ∧ s.dev.vitrineOfPort port
    = some lv ∧ s.dev.get VIT_STATE.STATE lv = 2 ∧ s.dev.cfgTarget lv t.target = .endpoint b ∧ s.dev.hostReaches lv b = true ∧ edgeFrame
    (s.dev.fpid port) b.fpid (s.dev.gvh lv) b.cls (.tlp { t with kind := .cfgWrite }) = f ∧ s.dev.heldTlps = [] ∧ s.dev.cellsMayGo port =
    true ∧ s.dev.frozenAt port (s.dev.gvh lv) = false ∧ s.dev.winOf f.src f.dst = some w ∧ s.dev.canInject f = true ∧ (((s.dev.need port
    b.fpid (s.dev.gvh lv) b.k b.cls true f.body).all fun e => (s.dev.entryWait e).isNone) = true)) ∧
  (∃ (s : State) (lvid : Fin 1024) (k : Fin 64), s.dev.supply = .on) ∧
  (∃ (s : State) (port : Fin 512) (enabled : Fin 8) (lv : Nat), s.dev.supply = .on ∧ s.dev.vitrineOfPort port = some lv ∧ (s.dev.vit
    lv).aspmL1 = true ∧ s.dev.is PRT_PORT_STATUS.DL_ACTIVE port = true) ∧
  (∃ (s : State) (port : Fin 512) (enabled : Fin 8), s.dev.supply = .on ∧ s.dev.deviceFacing port = true) ∧
  (∃ (s : State) (port : Fin 512) (util : Fin 1001) (supported : Bool), s.dev.supply = .on ∧ s.dev.fabricPort port = false ∧ s.dev.is
    PRT_PORT_STATUS.FLIT port = true ∧ s.dev.is PRT_PORT_STATUS.DL_ACTIVE port = true) :=
  ⟨⟨onReset fun d => d.put PRT_PORT_CFG.KIND 8 2, (1 : Fin 56), (false : Bool), (8 : Nat), by decide +kernel⟩,
  ⟨onReset fun d => (hostDev d), (5 : Fin 4194304), (4 : Fin 256), (1 : Byte), (9 : Byte), (3 : Word), (0 : Fin 16), (0 : Nat),
    ({ live := true, bindings := [{ k := 0, fpid := 5, ep := 0 }] } : Vit), ({ k := 0, fpid := 5, ep := 0 } : Binding),
    by decide +kernel⟩,
  ⟨onReset fun d => d, (0 : Fin 1024), (3 : Fin 64), (true : Bool), (1 : Fin 4), (2 : Fin 4), (true : Bool), (4096 : Fin 8192),
    by decide +kernel⟩,
  ⟨onReset fun d => (hostDev d).setVit 0 fun v => { v with bindings := [{ k := 0, fpid := 5, ep := 0, atts := [4] }] }, (0 : Fin 1024), (0
    : Fin 64), (0 : Fin 6), (false : Bool), (true : Bool), (65536 : Word), ({ k := 0, fpid := 5, ep := 0, atts := [4] } : Binding), (4 :
    Nat), by decide +kernel⟩,
  ⟨onReset fun d => (hostDev d), (0 : Fin 1024), (0 : Fin 64), (none : Option Bool), by decide +kernel⟩,
  ⟨onReset fun d => ((hostDev d).setVport 0 0 fun v => { v with secondaryBus := 7 }).put VIT_PORT.NVDP 0 1 |>.put TRK_VIT_QUOTA.QUOTA 0 9,
    (3 : Fin 512), ({ kind := .cfgWrite, target := 1792 } : Tlp), (0 : Nat), ({ k := 0, fpid := 5, ep := 0 } : Binding), (edgeFrame 3 5 77
    .l (.tlp { kind := .cfgWrite, target := 1792 }) : Frame), (1 : Nat), by decide +kernel⟩,
  ⟨onReset fun d => d.setVport 0 3 fun v => { v with dpcStatus := true }, (0 : Fin 1024), (3 : Fin 64), by decide +kernel⟩,
  ⟨onReset fun d => ((hostDev d).setVit 0 fun v => { v with aspmL1 := true, hostLtr := some 100000000 }).put PRT_PORT_STATUS.DL_ACTIVE 3
    1, (3 : Fin 512), (1 : Fin 8), (0 : Nat), by decide +kernel⟩,
  ⟨onReset fun d => d.put PRT_PORT_CFG.KIND 5 2, (5 : Fin 512), (0 : Fin 8), by decide +kernel⟩,
  ⟨onReset fun d => ((((d.put PRT_PORT_STATUS.FLIT 3 1).put PRT_PORT_STATUS.DL_ACTIVE 3 1).put PWR_PS_STATUS.STATE 0 1).put
    PRT_PM_CFG.L0P_EN 3 1).put PRT_PORT_STATUS.WIDTH 3 2, (3 : Fin 512), (199 : Fin 1001), (true : Bool), by decide +kernel⟩⟩

theorem witness_BasinAndSelection :
  (∃ (s : State) (ingress : Nat) (f : Frame) (rest : List (Nat × Frame)), s.dev.supply = .on ∧ s.dev.arrived = (ingress, f) :: rest) ∧
  (∃ (s : State) (ingress : Nat) (p : Nat) (slot : Nat) (f : Frame) (rest : List (Nat × Nat × Frame)), s.dev.supply = .on ∧ s.dev.routed =
    (ingress, p, f) :: rest ∧ s.dev.slotOf p f = some slot) ∧
  (∃ (s : State) (port : Fin 512) (cells : CellError) (q : Nat) (d : Dev) (d2 : Dev) (f : QFrame), s.dev.supply = .on ∧ s.dev.canStart
    port = true ∧ s.dev.readyPort port = d ∧ d.selectQueue port = (some q, d2) ∧ d.cellsFit port q = true ∧ d.headOf q = some f) ∧
  (∃ (s : State) (queue : Fin 65536), s.dev.supply = .on) ∧
  (∃ (s : State) (q : Nat), s.dev.supply = .on ∧ q ∈ s.dev.queues.map (·.1)) ∧
  (∃ (s : State) (queue : Fin 65536) (reach : Nat), s.dev.supply = .on) ∧
  (∃ (s : State) (missing : Bool), s.dev.supply = .on) :=
  ⟨⟨onReset fun d => { hostDev d with arrived := [(3, edgeFrame 3 5 77 .l (.tlp { kind := .memWrite }))] }, (3 : Nat), (edgeFrame 3 5 77
    .l (.tlp { kind := .memWrite }) : Frame), ([] : List (Nat × Frame)), by decide +kernel⟩,
  ⟨onReset fun d => { hostDev d with routed := [(3, 5, edgeFrame 3 5 77 .l (.tlp { kind := .memWrite }))], slots := [(5, 77, 0)] }, (3 :
    Nat), (5 : Nat), (0 : Nat), (edgeFrame 3 5 77 .l (.tlp { kind := .memWrite }) : Frame), ([] : List (Nat × Nat × Frame)),
    by decide +kernel⟩,
  ⟨onReset fun d => { hostDev d with queues := [(672, { frames := [restingFrame] })], slots := [(5, 77, 0)] }.put
    PRT_PORT_STATUS.DL_ACTIVE 5 1, (5 : Fin 512), (.clean : CellError), (672 : Nat), ((onReset fun d =>
    { hostDev d with queues := [(672, { frames := [restingFrame] })], slots := [(5, 77, 0)] }.put PRT_PORT_STATUS.DL_ACTIVE 5
    1).dev.readyPort 5 : Dev), ((((onReset fun d =>
    { hostDev d with queues := [(672, { frames := [restingFrame] })], slots := [(5, 77, 0)] }.put PRT_PORT_STATUS.DL_ACTIVE 5
    1).dev.readyPort 5).selectQueue 5).2 : Dev), (restingFrame : QFrame), by decide +kernel⟩,
  ⟨onReset fun d => { hostDev d with queues := [(672, { frames := [restingFrame] })], now := 1000000000 }, (672 : Fin 65536),
    by decide +kernel⟩,
  ⟨onReset fun d => { hostDev d with queues := [(672, { frames := [restingFrame] })], now := 1000000000 }, (672 : Nat),
    by decide +kernel⟩,
  ⟨onReset fun d => { hostDev d with queues := [(672, { frames := [restingFrame] })], slots := [(5, 77, 0)] }, (672 : Fin 65536), (0 :
    Nat), by decide +kernel⟩,
  ⟨onReset fun d => { d with brokenQueues := [672] }.put BSN_Q_STATUS.STATE 672 3, (true : Bool), by decide +kernel⟩⟩

theorem witness_RoutesAndPins :
  (∃ (s : State) (port : Fin 512) (i : Nat), s.dev.supply = .on ∧ s.dev.fabricPort port = true ∧ i ∈ s.dev.instances RTE_GRP_SLOT.VALID ∧
    s.dev.get RTE_GRP_SLOT.PORT i = port.val) ∧
  (∃ (s : State) (master : Fin 2048) (slot : Fin 65536) (value : Word), s.dev.supply = .on) ∧
  (∃ (s : State) (master : Fin 2048) (entry : Fin 16384) (value : Word), s.dev.supply = .on) ∧
  (∃ (s : State) (n : Nat) (e : Pin), s.dev.supply = .on ∧ (s.dev.pins.map (·.1)).Nodup ∧ (n, e) ∈ s.dev.pins ∧ e.valid = true ∧ e.pending
    = true) ∧
  (∃ (s : State) (tcut : Nat) (modules : List (Fin 8192)) (command : Option CmdHdr) (n : Nat) (e : Pin), s.dev.supply = .on ∧
    (s.dev.pins.map (·.1)).Nodup ∧ ((modules.any fun m => !s.dev.pinAcks.contains (tcut, m.val)) = true) ∧ (n, e) ∈ s.dev.pins ∧ e.pending
    = true ∧ e.tcut = tcut) ∧
  (∃ (s : State) (src : Fin 4194304) (dst : Fin 4194304) (cls : Cls), s.dev.supply = .on) ∧
  (∃ (s : State) (src : Fin 4194304) (dst : Fin 4194304) (cls : Cls) (w : Nat), s.dev.supply = .on ∧ s.dev.winOf src dst = some w) ∧
  (∃ (s : State) (window : Fin 32768) (cls : Cls), s.dev.supply = .on) ∧
  (∃ (s : State) (n : Nat) (e : Pin), s.dev.supply = .on ∧ (s.dev.pins.map (·.1)).Nodup ∧ (n, e) ∈ s.dev.pins ∧ e.oldValid = true ∧
    e.pending = false ∧ msTicks 100 ≤ sinceTicks e.tcut s.dev.now) ∧
  (∃ (s : State) (master : Fin 2048) (entry : Fin 65536) (value : Word), s.dev.supply = .on) :=
  ⟨⟨onReset fun d => ((d.put PRT_PORT_CFG.KIND 8 4).put RTE_GRP_SLOT.VALID 33 1).put RTE_GRP_SLOT.PORT 33 8, (8 : Fin 512), (33 : Nat),
    by decide +kernel⟩,
  ⟨onReset fun d => d.put RTE_GRP_SLOT.WITHDRAWN 3 1, (0 : Fin 2048), (3 : Fin 65536), (0x80000005 : Word), by decide +kernel⟩,
  ⟨onReset fun d => d.put PIN_SRC.FPID 3 77, (0 : Fin 2048), (3 : Fin 16384), (0x80000005 : Word), by decide +kernel⟩,
  ⟨onReset fun d =>
    { d with pins := [(3, { valid := true, pending := true, newPort := 9, src := 3, dst := 515, oldValid := true, oldPort := 8, tcut := 64 })], now := 64 },
    (3 : Nat), ({ valid := true, pending := true, newPort := 9, src := 3, dst := 515, oldValid := true, oldPort := 8, tcut := 64 } : Pin),
    by decide +kernel⟩,
  ⟨onReset fun d =>
    { d with pins := [(3, { valid := true, pending := true, newPort := 9, src := 3, dst := 515, oldValid := true, oldPort := 8, tcut := 64 })] },
    (64 : Nat), ([2] : List (Fin 8192)), (none : Option CmdHdr), (3 : Nat),
    ({ valid := true, pending := true, newPort := 9, src := 3, dst := 515, oldValid := true, oldPort := 8, tcut := 64 } : Pin),
    by decide +kernel⟩,
  ⟨onReset fun d => d, (515 : Fin 4194304), (5 : Fin 4194304), (.l : Cls), by decide +kernel⟩,
  ⟨onReset fun d => { d with wins := [(5, { src := 0, dst := 7, drain := [.l, .b] })] }, (0 : Fin 4194304), (7 : Fin 4194304), (.l : Cls),
    (5 : Nat), by decide +kernel⟩,
  ⟨onReset fun d => { d with wins := [(5, { src := 0, dst := 7, drain := [.l, .b] })] }, (5 : Fin 32768), (.b : Cls), by decide +kernel⟩,
  ⟨onReset fun d =>
    { d with pins := [(3, { valid := true, pending := false, newPort := 9, src := 3, dst := 515, oldValid := true, oldPort := 8, tcut := 64 })], now := 2 ^ 40 },
    (3 : Nat), ({ valid := true, pending := false, newPort := 9, src := 3, dst := 515, oldValid := true, oldPort := 8, tcut := 64 } :
    Pin), by decide +kernel⟩,
  ⟨onReset fun d => d.put ATT_FPID.FPID 3 77, (0 : Fin 2048), (3 : Fin 65536), (0x800C0005 : Word), by decide +kernel⟩⟩

theorem witness_SchedulingAndGates :
  (∃ (s : State) (n : Nat) (due : Nat) (x : Shaper), s.dev.supply = .on ∧ (s.dev.shapers.map (·.1)).Nodup ∧ (n, x) ∈ s.dev.shapers ∧
    x.wheel = some (1, due) ∧ bitsOf due 18 7 = bitsOf s.dev.weir 18 7 ∧ due ≤ s.dev.weir) ∧
  (∃ (s : State) (master : Fin 2048) (value : Word) (n : Nat), s.dev.supply = .on ∧ s.dev.get WR_SHP_SEL.SHAPER 0 = n) ∧
  (∃ (s : State) (master : Fin 2048) (port : Fin 512) (bank : Fin 2) (value : Word), s.dev.supply = .on) ∧
  (∃ (s : State) (port : Fin 512) (start : Nat), s.dev.supply = .on ∧ (s.dev.outPort port).tstart = some start) ∧
  (∃ (s : State) (port : Fin 512), s.dev.supply = .on) ∧
  (∃ (s : State) (port : Fin 512), s.dev.supply = .on) ∧
  (∃ (s : State) (queue : Fin 65536) (f : QFrame), s.dev.supply = .on ∧ s.dev.headOf queue = some f ∧ f.frame.cls = .b ∧ s.dev.get
    WR_PORT_CFG.B_MAX (queue.val / 128) < f.frame.len) ∧
  (∃ (s : State) (faulty : List (Fin 16384)) (n : Nat) (x : Shaper), s.dev.supply = .on ∧ (s.dev.shapers.map (·.1)).Nodup ∧ (n, x) ∈
    s.dev.shapers) :=
  ⟨⟨onReset fun d => { d with shapers := [(3, { wheel := some (1, 128), exact := -50 })], weir := 130 }, (3 : Nat), (128 : Nat),
    ({ wheel := some (1, 128), exact := -50 } : Shaper), by decide +kernel⟩,
  ⟨onReset fun d => d.put WR_SHP_SEL.SHAPER 0 4, (0 : Fin 2048), (0x80000064 : Word), (4 : Nat), by decide +kernel⟩,
  ⟨onReset fun d => d.put WR_GATE_STATUS.LIST 3 1, (0 : Fin 2048), (3 : Fin 512), (1 : Fin 2), (0 : Word), by decide +kernel⟩,
  ⟨onReset fun d => d.setOut 3 fun o => { o with tstart := some 128 }, (3 : Fin 512), (128 : Nat), by decide +kernel⟩,
  ⟨onReset fun d => { hostDev d with queues := [(640, { frames := [restingFrame] })] }.put WR_GATE_STATUS.LIST 5 1 |>.put
    WR_GATE_STATUS.S_OPEN 5 0, (5 : Fin 512), by decide +kernel⟩,
  ⟨onReset fun d => d, (3 : Fin 512), by decide +kernel⟩,
  ⟨onReset fun d =>
    { d with queues := [(736, { frames := [{ restingFrame with frame := { restingFrame.frame with cls := .b, len := 261 } }] })] }, (736 :
    Fin 65536), ({ restingFrame with frame := { restingFrame.frame with cls := .b, len := 261 } } : QFrame), by decide +kernel⟩,
  ⟨onReset fun d => { d with shapers := [(3, { sent := 99 })] }.put WR_SHP_RATE.RATE_MBPS 3 10, ([3] : List (Fin 16384)), (3 : Nat),
    ({ sent := 99 } : Shaper), by decide +kernel⟩⟩

theorem witness_SchedulingCommands :
  (∃ (s : State) (h : CmdHdr) (shaper : Fin 65536) (flags : Byte) (queues : List (Fin 65536)) (owner : Word) (rate : Word) (burst : Word)
    (x : ShaperSetting), s.dev.supply = .on ∧ s.dev.CarriesOut h 0x0401 [1] s.dev.moduleId ∧ owner.toNat = 0xFFFFFFFF ∧ (⟨shaper,
    flags.toNat, queues.map (·.val), rate.toNat, burst.toNat⟩ : ShaperSetting) = x ∧ x.bad false = none ∧ ((x.queues.any fun q => q % 32
    == 31) = false)) ∧
  (∃ (s : State) (h : CmdHdr) (shaper : Fin 65536) (flags : Byte) (queues : List (Fin 65536)) (owner : Word) (rate : Word) (burst : Word)
    (x : ShaperSetting) (lv : Nat), s.dev.supply = .on ∧ s.dev.CarriesOut h 0x0401 [1] s.dev.moduleId ∧ s.dev.lvidOf (gvhField
    owner.toNat) = some lv ∧ s.dev.objectHeld h (Wait.holdsVitrine lv) = false ∧ s.dev.recording h 0x0401 (gvhField owner.toNat) = false ∧
    owner.toNat ≠ 0xFFFFFFFF ∧ (⟨shaper, flags.toNat, queues.map (·.val), rate.toNat, burst.toNat⟩ : ShaperSetting) = x ∧ x.bad true =
    none ∧ (s.dev.vit lv).shapers.contains shaper.val = true ∧ ((x.queues.any fun q => q % 32 == 31 || !(s.dev.queuesOf (s.dev.gvh lv) fun
    _ => true).contains q) = false)) ∧
  (∃ (s : State) (h : CmdHdr) (queue : Fin 65536) (quantum : Word), s.dev.supply = .on ∧ s.dev.CarriesOut h 0x0402 [1] s.dev.moduleId ∧ 64
    ≤ queue.val % 128 ∧ quantum.toNat % 64 = 0 ∧ quantum.toNat ≠ 0 ∧ quantum.toNat ≤ 1048576) ∧
  (∃ (s : State) (h : CmdHdr) (fpid : Word) (count : Fin 65536) (bmax : Fin 65536) (base : Nat) (cycle : Word) (addr : Nat) (source :
    Fetch) (p : Nat) (r : Option (Nat × Nat)), s.dev.supply = .on ∧ s.dev.CarriesOut h 0x0403 [1] (fpidModule (fpidField fpid.toNat)) ∧
    fpidPort (fpidField fpid.toNat) = p ∧ s.dev.gatesRefused p count bmax (base % 2 ^ 64) cycle.toNat (fetched s.mem source addr (4 *
    count.val)) = r) ∧
  (∃ (s : State) (h : CmdHdr) (cls : Byte) (limit : Word), s.dev.supply = .on ∧ s.dev.CarriesOut h 0x0404 [1] s.dev.moduleId ∧ cls.toNat ≤
    3 ∧ 1 ≤ limit.toNat ∧ limit.toNat ≤ 1000000 ∧ s.dev.ageClash cls.toNat limit.toNat = false) :=
  ⟨⟨onReset fun d => d.put CUR_START_STATUS.READY 0 1, ({ } : CmdHdr), (3 : Fin 65536), (1 : Byte), ([] : List (Fin 65536)), (0xFFFFFFFF :
    Word), (1000 : Word), (4096 : Word), (⟨3, 1, [], 1000, 4096⟩ : ShaperSetting), by unfold Dev.CarriesOut; decide +kernel⟩,
  ⟨onReset fun d => ((hostDev d).setVit 0 fun v => { v with shapers := [3] }).put CUR_START_STATUS.READY 0 1, ({ } : CmdHdr), (3 : Fin
    65536), (1 : Byte), ([] : List (Fin 65536)), (77 : Word), (1000 : Word), (4096 : Word), (⟨3, 1, [], 1000, 4096⟩ : ShaperSetting), (0 :
    Nat), by unfold Dev.CarriesOut; decide +kernel⟩,
  ⟨onReset fun d => d.put CUR_START_STATUS.READY 0 1, ({ } : CmdHdr), (64 : Fin 65536), (4096 : Word),
    by unfold Dev.CarriesOut; decide +kernel⟩,
  ⟨onReset fun d => (d.put PRT_PORT_CFG.KIND 3 1).put CUR_START_STATUS.READY 0 1, ({ } : CmdHdr), (3 : Word), (0 : Fin 65536), (200 : Fin
    65536), (0 : Nat), (0 : Word), (0 : Nat), (.local_ : Fetch), (3 : Nat), (none : Option (Nat × Nat)),
    by unfold Dev.CarriesOut; decide +kernel⟩,
  ⟨onReset fun d => d.put CUR_START_STATUS.READY 0 1, ({ } : CmdHdr), (0 : Byte), (500 : Word), by unfold Dev.CarriesOut; decide +kernel⟩⟩

theorem witness_VitrineLifecycle :
  (∃ (s : State) (h : CmdHdr) (fpid : Word) (lvid : Fin 65536) (nvdp : Byte) (cto : Byte) (flags : Word) (minimum : Word) (quota : Word)
    (shapers : Byte) (channels : Byte) (p : Nat) (lv : Nat) (x : VitrineSetting), s.dev.supply = .on ∧ s.dev.CarriesOut h 0x0201 [1]
    (fpidModule (fpidField fpid.toNat)) ∧ fpidPort (fpidField fpid.toNat) = p ∧ badVitrine lvid nvdp.toNat cto.toNat flags.toNat
    minimum.toNat quota.toNat shapers.toNat = none ∧
    (({ lvid := lvid, nvdp := nvdp.toNat, cto := cto.toNat, silent := bitOf flags.toNat 0, slotPower := bitOf flags.toNat 1, minimum := if minimum.toNat = 0xFFFFFFFF then 512 else minimum.toNat, quota := if quota.toNat = 0 then 2048 else quota.toNat, shapers := shapers.toNat, channels := channels.toNat }
    : VitrineSetting) = x) ∧ s.dev.createCheck p x = .inl lv) ∧
  (∃ (s : State) (h : CmdHdr) (gvh : Word) (lv : Nat), s.dev.supply = .on ∧ s.dev.CarriesOut h 0x0202 [1] s.dev.moduleId ∧ s.dev.lvidOf
    (gvhField gvh.toNat) = some lv ∧ s.dev.objectHeld h (Wait.holdsDestroy lv) = false ∧ s.dev.recording h 0x0202 (gvhField gvh.toNat) =
    false) ∧
  (∃ (s : State) (h : CmdHdr) (gvh : Word) (fpid : Word) (ld : Byte) (k : Byte) (cls : Byte) (share : Fin 65536) (far : RemoteEp) (b :
    Binding) (d : Dev) (lv : Nat), s.dev.supply = .on ∧ s.dev.CarriesOut h 0x0203 [1] s.dev.moduleId ∧ s.dev.lvidOf (gvhField gvh.toNat) =
    some lv ∧ s.dev.objectHeld h (Wait.holdsVitrine lv) = false ∧ s.dev.recording h 0x0203 (gvhField gvh.toNat) = false ∧ badBind
    (fpidPort (fpidField fpid.toNat)) ld.toNat cls.toNat share = none ∧ s.dev.bindingFor lv (fpidField fpid.toNat) ld.toNat k.toNat
    cls.toNat share far = .inl b ∧ s.dev.bindSteps lv b far.spl (s.dev.barsOf b far) = .inr d) ∧
  (∃ (s : State) (h : CmdHdr) (gvh : Word) (k : Byte) (b : Binding) (lv : Nat), s.dev.supply = .on ∧ s.dev.CarriesOut h 0x0204 [1]
    s.dev.moduleId ∧ s.dev.lvidOf (gvhField gvh.toNat) = some lv ∧ s.dev.objectHeld h (Wait.holdsVitrine lv) = false ∧ s.dev.recording h
    0x0204 (gvhField gvh.toNat) = false ∧ (s.dev.get VIT_STATE.STATE lv = 1 ∨ s.dev.get VIT_STATE.STATE lv = 2) ∧ (s.dev.vit lv).binding
    k.toNat = some b) ∧
  (∃ (s : State) (h : CmdHdr) (gvh : Word) (cto : Byte) (flags : Byte) (lv : Nat), s.dev.supply = .on ∧ s.dev.CarriesOut h 0x0205 [1]
    s.dev.moduleId ∧ s.dev.lvidOf (gvhField gvh.toNat) = some lv ∧ s.dev.objectHeld h (Wait.holdsVitrine lv) = false ∧ s.dev.recording h
    0x0205 (gvhField gvh.toNat) = false ∧ ctoTicks cto.toNat ≠ none ∧ flags.toNat ≤ 1 ∧ 1 ≤ s.dev.get VIT_STATE.STATE lv ∧ s.dev.get
    VIT_STATE.STATE lv ≤ 3) ∧
  (∃ (s : State) (lvid : Fin 1024), s.dev.supply = .on) ∧
  (∃ (s : State) (lvid : Fin 1024) (k : Option (Fin 64)), s.dev.supply = .on ∧ (k = none → s.dev.inflight lvid = 0)) ∧
  (∃ (s : State) (modul : Fin 8192) (gvh : Fin 8388608) (count : Nat) (lv : Nat), s.dev.supply = .on ∧ s.dev.lvidOf gvh = some lv) ∧
  (∃ (s : State) (lvid : Fin 1024) (k : Option (Fin 64)), s.dev.supply = .on ∧ (k = none → s.dev.get VIT_STATE.STATE lvid = 3 ∨ s.dev.get
    VIT_STATE.STATE lvid = 8) ∧ (((k.map fun k => ((s.dev.vit lvid).binding k).any (·.unbinding)).all id) = true)) :=
  ⟨⟨onReset fun d => (d.put PRT_PORT_CFG.KIND 3 1).put CUR_START_STATUS.READY 0 1, ({ } : CmdHdr), (3 : Word), (0xFFFF : Fin 65536), (4 :
    Byte), (9 : Byte), (0 : Word), (0xFFFFFFFF : Word), (0 : Word), (0 : Byte), (0 : Byte), (3 : Nat), (0 : Nat),
    ({ lvid := 0xFFFF, nvdp := 4, cto := 9, silent := false, slotPower := false, minimum := 512, quota := 2048, shapers := 0, channels := 0 }
    : VitrineSetting), by unfold Dev.CarriesOut; decide +kernel⟩,
  ⟨onReset fun d => ((hostDev d).put VIT_STATE.STATE 0 7).put CUR_START_STATUS.READY 0 1, ({ } : CmdHdr), (77 : Word), (0 : Nat),
    by unfold Dev.CarriesOut; decide +kernel⟩,
  ⟨onReset fun d => (((({ d with vits := [(0, { live := true })], endpoints := [(1280, { exists_ := true, accession := .passed })] }.put
    PRT_PORT_CFG.KIND 3 1).put PRT_PORT_CFG.KIND 5 2).put VIT_STATE.STATE 0 1).put VIT_STATE.GVH 0 77 |>.put VIT_PORT.UPORT 0 3 |>.put
    VIT_PORT.NVDP 0 4 |>.put BSN_PORT_RSV.LR 3 1000 |>.put BSN_PORT_RSV.LR 5 1000).put CUR_START_STATUS.READY 0 1, ({ } : CmdHdr), (77 :
    Word), (5 : Word), (0xFF : Byte), (2 : Byte), (0 : Byte), (0 : Fin 65536), ({ } : RemoteEp),
    ({ k := 2, fpid := 5, ep := 0, share := 256, cls := .s } : Binding), ((((onReset fun d =>
    (((({ d with vits := [(0, { live := true })], endpoints := [(1280, { exists_ := true, accession := .passed })] }.put PRT_PORT_CFG.KIND
    3 1).put PRT_PORT_CFG.KIND 5 2).put VIT_STATE.STATE 0 1).put VIT_STATE.GVH 0 77 |>.put VIT_PORT.UPORT 0 3 |>.put VIT_PORT.NVDP 0 4
    |>.put BSN_PORT_RSV.LR 3 1000 |>.put BSN_PORT_RSV.LR 5 1000).put CUR_START_STATUS.READY 0 1).dev.bindSteps 0
    { k := 2, fpid := 5, ep := 0, share := 256, cls := .s } (0, 0) []).getRight?).getD (onReset fun d =>
    (((({ d with vits := [(0, { live := true })], endpoints := [(1280, { exists_ := true, accession := .passed })] }.put PRT_PORT_CFG.KIND
    3 1).put PRT_PORT_CFG.KIND 5 2).put VIT_STATE.STATE 0 1).put VIT_STATE.GVH 0 77 |>.put VIT_PORT.UPORT 0 3 |>.put VIT_PORT.NVDP 0 4
    |>.put BSN_PORT_RSV.LR 3 1000 |>.put BSN_PORT_RSV.LR 5 1000).put CUR_START_STATUS.READY 0 1).dev : Dev), (0 : Nat),
    by unfold Dev.CarriesOut; decide +kernel⟩,
  ⟨onReset fun d => ((hostDev d).put VIT_STATE.STATE 0 1).put CUR_START_STATUS.READY 0 1, ({ } : CmdHdr), (77 : Word), (0 : Byte),
    ({ k := 0, fpid := 5, ep := 0 } : Binding), (0 : Nat), by unfold Dev.CarriesOut; decide +kernel⟩,
  ⟨onReset fun d => (hostDev d).put CUR_START_STATUS.READY 0 1, ({ } : CmdHdr), (77 : Word), (10 : Byte), (1 : Byte), (0 : Nat),
    by unfold Dev.CarriesOut; decide +kernel⟩,
  ⟨onReset fun d => (hostDev d).put VIT_STATE.STATE 0 5, (0 : Fin 1024), by decide +kernel⟩,
  ⟨onReset fun d => (hostDev d).put VIT_STATE.STATE 0 4, (0 : Fin 1024), (none : Option (Fin 64)), by decide +kernel⟩,
  ⟨onReset fun d => hostDev d, (2 : Fin 8192), (77 : Fin 8388608), (9 : Nat), (0 : Nat), by decide +kernel⟩,
  ⟨onReset fun d => (hostDev d).put VIT_STATE.STATE 0 3, (0 : Fin 1024), (none : Option (Fin 64)), by decide +kernel⟩⟩

theorem witness_VitrineMigration :
  (∃ (s : State) (h : CmdHdr) (gvh : Word) (tcut : Nat) (lv : Nat), s.dev.supply = .on ∧ s.dev.CarriesOut h 0x0301 [1] s.dev.moduleId ∧
    s.dev.lvidOf (gvhField gvh.toNat) = some lv ∧ s.dev.objectHeld h (Wait.holdsVitrine lv) = false ∧ s.dev.recording h 0x0301 (gvhField
    gvh.toNat) = false ∧ s.dev.get VIT_STATE.STATE lv = 2 ∧ s.dev.now + msTicks 10 ≤ tcut) ∧
  (∃ (s : State) (lvid : Fin 1024), s.dev.supply = .on ∧ (s.dev.vit lvid).tcut1.isSome = true) ∧
  (∃ (s : State) (lvid : Fin 1024), s.dev.supply = .on ∧ s.dev.get VIT_STATE.STATE lvid = 4) ∧
  (∃ (s : State) (h : CmdHdr) (gvh : Word) (lv : Nat), s.dev.supply = .on ∧ s.dev.CarriesOut h 0x0302 [1] s.dev.moduleId ∧ s.dev.lvidOf
    (gvhField gvh.toNat) = some lv ∧ s.dev.objectHeld h (Wait.holdsVitrine lv) = false ∧ s.dev.recording h 0x0302 (gvhField gvh.toNat) =
    false ∧ s.dev.get VIT_STATE.STATE lv = 5) ∧
  (∃ (s : State) (h : CmdHdr) (gvh : Word) (fpid : Word) (lvid : Fin 65536) (source : Fin 65536) (image : Option Image) (x : Image) (p :
    Nat) (lv : Nat) (y : VitrineSetting) (d : Dev), s.dev.supply = .on ∧ s.dev.CarriesOut h 0x0303 [1] (fpidModule (fpidField fpid.toNat))
    ∧ fpidPort (fpidField fpid.toNat) = p ∧ (lvid.val < 1024 ∨ lvid.val = 0xFFFF) ∧ s.dev.edgeUsable p = true ∧ s.dev.hostFacing p = true
    ∧ s.dev.vitrineOfPort p = none ∧ ((if source.val = s.dev.moduleId ∧ (((s.dev.saves.filter fun e => e.2.gvh == gvhField gvh.toNat &&
    s.dev.gvh e.1 == gvhField gvh.toNat).map (·.2)).head?).isSome then ((s.dev.saves.filter fun e => e.2.gvh == gvhField gvh.toNat &&
    s.dev.gvh e.1 == gvhField gvh.toNat).map (·.2)).head? else image) = some x) ∧ s.dev.chooseId lvid x.channels = .inl lv ∧ x.valid =
    true ∧ x.gvh = gvhField gvh.toNat ∧
    ({ lvid := lv, nvdp := x.nvdp, cto := x.cto, silent := x.silent, slotPower := x.slotPower, minimum := x.minimum, quota := x.quota, shapers := x.shapers.length, channels := x.channels }
    : VitrineSetting) = y ∧ (s.dev.poolShort p y (s.dev.slots.any fun s => s.1 == p && s.2.1 == gvhField gvh.toNat) = none) ∧
    (s.dev.divide lv (gvhField gvh.toNat) p 7 y).restoreBindings lv x.bindings = .inr d) ∧
  (∃ (s : State) (h : CmdHdr) (gvh : Word) (modul : Fin 65536) (tcut : Nat) (lv : Nat), s.dev.supply = .on ∧ s.dev.CarriesOut h 0x0304 [1]
    modul ∧ modul.val < 8192 ∧ s.dev.thawCopy (gvhField gvh.toNat) = some lv ∧ s.dev.objectHeld h (Wait.holdsVitrine lv) = false ∧
    s.dev.recording h 0x0304 (gvhField gvh.toNat) = false ∧ 5 ≤ s.dev.get VIT_STATE.STATE lv ∧ s.dev.get VIT_STATE.STATE lv ≤ 7 ∧
    s.dev.now + msTicks 10 ≤ tcut) ∧
  (∃ (s : State) (lvid : Fin 1024) (sourceHeld : Bool), s.dev.supply = .on ∧ (s.dev.vit lvid).tcut2.isSome = true) ∧
  (∃ (s : State) (lvid : Fin 1024) (target : Fin 8192), s.dev.supply = .on ∧ s.dev.get VIT_STATE.STATE lvid = 6) :=
  ⟨⟨onReset fun d => (hostDev d).put CUR_START_STATUS.READY 0 1, ({ } : CmdHdr), (77 : Word), (1000000000000 : Nat), (0 : Nat),
    by unfold Dev.CarriesOut; decide +kernel⟩,
  ⟨onReset fun d => { d with vits := [(0, { live := true, tcut1 := some 64 })] }.put VIT_STATE.STATE 0 2, (0 : Fin 1024),
    by decide +kernel⟩,
  ⟨onReset fun d => (hostDev d).put VIT_STATE.STATE 0 4, (0 : Fin 1024), by decide +kernel⟩,
  ⟨onReset fun d => ((hostDev d).put VIT_STATE.STATE 0 5).put CUR_START_STATUS.READY 0 1, ({ } : CmdHdr), (77 : Word), (0 : Nat),
    by unfold Dev.CarriesOut; decide +kernel⟩,
  ⟨onReset fun d => (d.put PRT_PORT_CFG.KIND 3 1).put CUR_START_STATUS.READY 0 1, ({ } : CmdHdr), (4097 : Word), (3 : Word), (5 : Fin
    65536), (2 : Fin 65536), (some { gvh := 4097 } : Option Image), ({ gvh := 4097 } : Image), (3 : Nat), (5 : Nat),
    ({ lvid := 5, nvdp := ({ gvh := 4097 } : Image).nvdp, cto := ({ gvh := 4097 } : Image).cto, silent := ({ gvh := 4097 } : Image).silent, slotPower := ({ gvh := 4097 } : Image).slotPower, minimum := ({ gvh := 4097 } : Image).minimum, quota := ({ gvh := 4097 } : Image).quota, shapers := 0, channels := ({ gvh := 4097 } : Image).channels }
    : VitrineSetting), (((((onReset fun d => (d.put PRT_PORT_CFG.KIND 3 1).put CUR_START_STATUS.READY 0 1).dev.divide 5 4097 3 7
    { lvid := 5, nvdp := ({ gvh := 4097 } : Image).nvdp, cto := ({ gvh := 4097 } : Image).cto, silent := ({ gvh := 4097 } : Image).silent, slotPower := ({ gvh := 4097 } : Image).slotPower, minimum := ({ gvh := 4097 } : Image).minimum, quota := ({ gvh := 4097 } : Image).quota, shapers := 0, channels := ({ gvh := 4097 } : Image).channels }).restoreBindings
    5 []).getRight?).getD (onReset fun d => (d.put PRT_PORT_CFG.KIND 3 1).put CUR_START_STATUS.READY 0 1).dev : Dev),
    by unfold Dev.CarriesOut; decide +kernel⟩,
  ⟨onReset fun d => ((hostDev d).put VIT_STATE.STATE 0 5).put CUR_START_STATUS.READY 0 1, ({ } : CmdHdr), (77 : Word), (0 : Fin 65536),
    (1000000000000 : Nat), (0 : Nat), by unfold Dev.CarriesOut; decide +kernel⟩,
  ⟨onReset fun d => { d with vits := [(0, { live := true, tcut2 := some 64 })] }.put VIT_STATE.STATE 0 5, (0 : Fin 1024), (false : Bool),
    by decide +kernel⟩,
  ⟨onReset fun d => (hostDev d).put VIT_STATE.STATE 0 6, (0 : Fin 1024), (2 : Fin 8192), by decide +kernel⟩⟩

theorem witness_FatalErrors :
  (∃ (s : State) (port : Fin 512) (ep : Fin 128) (error : Fin 5), s.dev.supply = .on ∧ port.val ≠ 447 ∧ s.dev.deviceFacing port = true ∧
    s.dev.contState (contObj 0 port) ≤ 1) ∧
  (∃ (s : State) (port : Fin 512) (ep : Fin 128) (error : Fin 5) (lv : Nat), s.dev.supply = .on ∧ port.val ≠ 447 ∧ s.dev.deviceFacing port
    = false ∧ s.dev.hostFacing port = true ∧ s.dev.vitrineOfPort port = some lv) ∧
  (∃ (s : State) (port : Fin 512) (fault : LinkFault), s.dev.supply = .on ∧ s.dev.fabricPort port = true ∧ s.dev.linkFaulty port fault =
    true ∧ s.dev.contState (contObj 2 port) ≤ 1) ∧
  (∃ (s : State) (source : Fin 8192) (scope : Fin 4) (id : Fin 8388608) (cause : Fin 4), s.dev.supply = .on) ∧
  (∃ (s : State) (modul : Fin 8192) (scope : Fin 4) (id : Fin 1024) (n : Notice), s.dev.supply = .on ∧ ((s.dev.notices.find? fun n =>
    n.modul == modul.val && n.object == contObj scope id) = some n) ∧ n.recorded = false) :=
  ⟨⟨onReset fun d => d.put PRT_PORT_CFG.KIND 5 2, (5 : Fin 512), (0 : Fin 128), (0 : Fin 5), by decide +kernel⟩,
  ⟨onReset fun d => hostDev d, (3 : Fin 512), (0 : Fin 128), (0 : Fin 5), (0 : Nat), by decide +kernel⟩,
  ⟨onReset fun d => d.put PRT_PORT_CFG.KIND 8 4, (8 : Fin 512), (.replaySram : LinkFault), by decide +kernel⟩,
  ⟨onReset fun d => d, (2 : Fin 8192), (0 : Fin 4), (515 : Fin 8388608), (1 : Fin 4), by decide +kernel⟩,
  ⟨onReset fun d => { d with notices := [{ modul := 2, object := contObj 0 5, attempts := 3 }] }, (2 : Fin 8192), (0 : Fin 4), (5 : Fin
    1024), ({ modul := 2, object := contObj 0 5, attempts := 3 } : Notice), by decide +kernel⟩⟩

theorem witness_AccessionReleaseAndLog :
  (∃ (s : State) (port : Fin 512) (ep : Fin 128) (found : Found), s.dev.supply = .on ∧ s.dev.mayAccede port ep found.front = true) ∧
  (∃ (s : State) (port : Fin 512) (ep : Fin 128) (identity : Option Nat), s.dev.supply = .on ∧ (s.dev.endpoint port ep).accession =
    .running ∧ (identity = none → s.dev.unauthAllowed port ep = true)) ∧
  (∃ (s : State) (port : Fin 512) (ep : Fin 128) (responder : Bool), s.dev.supply = .on ∧ ((s.dev.endpoint port ep).accession = .running ∨
    (s.dev.endpoint port ep).accession = .passed)) ∧
  (∃ (s : State) (port : Fin 512) (ep : Fin 128), s.dev.supply = .on ∧ (s.dev.endpoint port ep).accession = .running) ∧
  (∃ (s : State) (h : CmdHdr) (scope : Fin 4) (object : Word) (eseq : Nat) (p : Nat) (id : Nat), s.dev.supply = .on ∧ s.dev.CarriesOut h
    0x0801 [1, 2, 4] (fpidModule (fpidField object.toNat)) ∧ s.dev.objectHeld h (· == .release scope id) = false ∧ (scope = 0 ∨ scope = 2)
    ∧ s.dev.releaseObject scope (fpidField object.toNat) = some p ∧ s.dev.releaseId p = id ∧ s.dev.contState (contObj scope id) = 1 ∧
    s.dev.contCause (contObj scope id) = 1 ∧ ((s.dev.notices.any fun n => n.object == contObj scope id) = false) ∧ eseq = s.dev.get64
    SLC_CONT_ESEQ_LO.ESEQ SLC_CONT_ESEQ_HI.ESEQ (contObj scope id)) ∧
  (∃ (s : State) (h : CmdHdr) (object : Word) (eseq : Nat) (lv : Nat), s.dev.supply = .on ∧ s.dev.CarriesOut h 0x0801 [1, 2, 4]
    s.dev.moduleId ∧ s.dev.lvidOf (gvhField object.toNat) = some lv ∧ s.dev.objectHeld h (Wait.holdsVitrine lv) = false ∧ s.dev.recording
    h 0x0801 (gvhField object.toNat) = false ∧ s.dev.contState (contObj 1 lv) = 1 ∧ s.dev.contCause (contObj 1 lv) = 1 ∧
    ((s.dev.notices.any fun n => n.object == contObj 1 lv) = false) ∧ eseq = s.dev.get64 SLC_CONT_ESEQ_LO.ESEQ SLC_CONT_ESEQ_HI.ESEQ
    (contObj 1 lv)) ∧
  (∃ (s : State) (scope : Fin 4) (id : Fin 1024), s.dev.supply = .on ∧ s.dev.contState (contObj scope id) = 2 ∧ s.dev.releaseDone scope id
    = true) ∧
  (∃ (s : State) (scope : Fin 4) (id : Fin 1024), s.dev.supply = .on ∧ s.dev.contState (contObj scope id) = 2) ∧
  (∃ (s : State), s.dev.supply = .on) ∧
  (∃ (s : State), s.dev.supply = .on ∧ s.dev.booted = true ∧ s.dev.is SLC_LOG_HEAD.STAGING 0 = true) ∧
  (∃ (s : State) (h : CmdHdr) (point : Byte) (count : Word) (target : Nat) (argument : Nat) (m : Nat), s.dev.supply = .on ∧
    s.dev.CarriesOut h 0x0803 [1, 2] m ∧ s.dev.injectionModule h point.toNat target = some m ∧ point.toNat ≤ 13 ∧ 1 ≤ count.toNat ∧
    ((injectionForm point.toNat).2 = true → count.toNat = 1) ∧ injectionTarget point.toNat target = true ∧ injectionArgument point.toNat
    argument = true ∧ ((s.dev.injections.any fun i => i.point == point.toNat) = false)) ∧
  (∃ (s : State) (h : CmdHdr) (first : Nat) (most : Word) (dest : Nat), s.dev.supply = .on ∧ s.dev.CarriesOut h 0x0802 [1, 2, 3, 4]
    s.dev.moduleId ∧ (storeFor s h dest ((s.dev.logChosen h first most.toNat).1.flatMap EvRec.bytes)).isSome = true) :=
  ⟨⟨onReset fun d => (d.put SLC_CONT_STATE.STATE (contObj 0 5) 1).put SLC_CONT_STATE.CAUSE (contObj 0 5) 3, (5 : Fin 512), (0 : Fin 128),
    ({ bars := [(0, 4096)] } : Found), by decide +kernel⟩,
  ⟨onReset fun d => { d with endpoints := [(1280, { exists_ := true, accession := .running })] }, (5 : Fin 512), (0 : Fin 128), (some 99 :
    Option Nat), by decide +kernel⟩,
  ⟨onReset fun d => { d with endpoints := [(1280, { exists_ := true, accession := .running })] }, (5 : Fin 512), (0 : Fin 128), (true :
    Bool), by decide +kernel⟩,
  ⟨onReset fun d => { d with endpoints := [(1280, { exists_ := true, accession := .running })] }, (5 : Fin 512), (0 : Fin 128),
    by decide +kernel⟩,
  ⟨onReset fun d => (((d.put PRT_PORT_CFG.KIND 5 2).put SLC_CONT_STATE.STATE (contObj 0 5) 1).put SLC_CONT_STATE.CAUSE (contObj 0 5)
    1).put CUR_START_STATUS.READY 0 1, ({ } : CmdHdr), (0 : Fin 4), (5 : Word), (0 : Nat), (5 : Nat), (5 : Nat),
    by unfold Dev.CarriesOut; decide +kernel⟩,
  ⟨onReset fun d => (((hostDev d).put SLC_CONT_STATE.STATE (contObj 1 0) 1).put SLC_CONT_STATE.CAUSE (contObj 1 0) 1).put
    CUR_START_STATUS.READY 0 1, ({ } : CmdHdr), (77 : Word), (0 : Nat), (0 : Nat), by unfold Dev.CarriesOut; decide +kernel⟩,
  ⟨onReset fun d => (d.put SLC_CONT_STATE.STATE (contObj 0 5) 2), (0 : Fin 4), (5 : Fin 1024), by decide +kernel⟩,
  ⟨onReset fun d => (d.put SLC_CONT_STATE.STATE (contObj 0 5) 2), (0 : Fin 4), (5 : Fin 1024), by decide +kernel⟩,
  ⟨onReset fun d => { d with booted := true, masked := [{ subsystem := 3, port := 5, object := 0, count := 9, addr := 0 }] },
    by decide +kernel⟩,
  ⟨onReset fun d => { d with overrun := 2, booted := true }.put SLC_LOG_HEAD.STAGING 0 1, by decide +kernel⟩,
  ⟨onReset fun d => d.put CUR_START_STATUS.READY 0 1, ({ } : CmdHdr), (1 : Byte), (1 : Word), (5 : Nat), (0 : Nat), (0 : Nat),
    by unfold Dev.CarriesOut; decide +kernel⟩,
  ⟨onReset fun d => d.put CUR_START_STATUS.READY 0 1, ({ } : CmdHdr), (0 : Nat), (1 : Word), (0 : Nat),
    by unfold Dev.CarriesOut; decide +kernel⟩⟩

theorem witness_Usb4Tunnels :
  (∃ (s : State) (port : Fin 16) (partner : Usb4Partner) (trained : Fin 5) (asym : Bool), s.dev.supply = .on ∧ s.dev.hubLost = false) ∧
  (∃ (s : State) (port : Fin 16), s.dev.supply = .on) ∧
  (∃ (s : State) (port : Fin 16) (tunnel : Fin 2) (units : Fin 256), s.dev.supply = .on ∧ s.dev.get TUN_PORT_STATUS.ROLE port = 1) ∧
  (∃ (s : State) (port : Fin 16) (tunnel : Fin 2) (units : Fin 256) (engine : Fin 64) (f : FarGrant), s.dev.supply = .on ∧ s.dev.is
    TUN_CE_DEST.VALID engine = true ∧ s.dev.is TUN_CE_DEST.REMOTE engine = true ∧ s.dev.get TUN_CE_DEST.PORT engine = port ∧ s.dev.get
    TUN_CE_DEST.TUNNEL engine = tunnel) ∧
  (∃ (s : State) (port : Fin 16) (link : Fin 5), s.dev.supply = .on ∧ s.dev.get TUN_PORT_STATUS.ROLE port = 1 ∧ 2 ≤ link.val) ∧
  (∃ (s : State) (port : Fin 16) (to100 : Nat) (from100 : Nat) (to1s : Nat) (from1s : Nat) (link : Nat), s.dev.supply = .on ∧ s.dev.get
    TUN_PORT_STATUS.ROLE port = 1 ∧ s.dev.symmetry port to100 from100 to1s from1s = some link ∧ (((s.dev.front port).symAt.all fun at_ =>
    decide (msTicks 1000 ≤ sinceTicks at_ s.dev.now)) = true)) ∧
  (∃ (s : State) (port : Fin 16) (found : List Found) (deep : Bool), s.dev.supply = .on ∧ s.dev.get TUN_PORT_STATUS.ROLE port = 1 ∧
    s.dev.is TUN_PORT_CFG.PCIE_EN port = true ∧ s.dev.is TUN_PORT_STATUS.PCIE_UP port = false) ∧
  (∃ (s : State) (h : CmdHdr) (port : Byte) (value : Word), s.dev.supply = .on ∧ s.dev.CarriesOut h 0x0A01 [2] s.dev.moduleId ∧ port.toNat
    < 16 ∧ bitsOf value.toNat 27 8 = 0 ∧ 2 ≤ bitsOf value.toNat 7 0 ∧ bitsOf value.toNat 7 0 ≤ 40) :=
  ⟨⟨onReset fun d => d.put TUN_PORT_STATUS.CABLE 3 4, (3 : Fin 16), (.deviceRouter : Usb4Partner), (4 : Fin 5), (true : Bool),
    by decide +kernel⟩,
  ⟨onReset fun d => d.put TUN_PORT_STATUS.ROLE 3 1, (3 : Fin 16), by decide +kernel⟩,
  ⟨onReset fun d => (d.put TUN_PORT_STATUS.ROLE 3 1).put TUN_PORT_STATUS.POOL 3 144, (3 : Fin 16), (0 : Fin 2), (20 : Fin 256),
    by decide +kernel⟩,
  ⟨onReset fun d =>
    ((({ d with engines := [(3, { running := some { w := 640, h := 480, refresh := 60, format := 0, stride := 2560 } })] }.put
    TUN_CE_DEST.VALID 3 1).put TUN_CE_DEST.REMOTE 3 1).put TUN_CE_DEST.PORT 3 4), (4 : Fin 16), (0 : Fin 2), (20 : Fin 256), (3 : Fin 64),
    (.granted : FarGrant), by decide +kernel⟩,
  ⟨onReset fun d => d.put TUN_PORT_STATUS.ROLE 3 1, (3 : Fin 16), (2 : Fin 5), by decide +kernel⟩,
  ⟨onReset fun d => ((({ d with fronts := [(3, { asymOk := true })] }.put TUN_PORT_STATUS.ROLE 3 1).put TUN_PORT_STATUS.LINK 3 4).put
    TUN_PORT_CFG.ASYM_EN 3 1), (3 : Fin 16), (700 : Nat), (20 : Nat), (0 : Nat), (0 : Nat), (5 : Nat), by decide +kernel⟩,
  ⟨onReset fun d => (d.put TUN_PORT_STATUS.ROLE 3 1).put TUN_PORT_CFG.PCIE_EN 3 1, (3 : Fin 16), ([{ }] : List Found), (false : Bool),
    by decide +kernel⟩,
  ⟨onReset fun d => d.put CUR_START_STATUS.READY 0 1, ({ } : CmdHdr), (3 : Byte), (0x8000000A : Word),
    by unfold Dev.CarriesOut; decide +kernel⟩⟩

theorem witness_ConsoleEngines :
  (∃ (s : State) (engine : Fin 64) (value : Word), s.dev.supply = .on ∧ s.dev.hubLost = false) ∧
  (∃ (s : State) (engine : Fin 64) (value : Word), s.dev.supply = .on) ∧
  (∃ (s : State) (engine : Fin 64), s.dev.supply = .on ∧ (s.dev.engine engine).running.isSome = true) ∧
  (∃ (s : State) (engine : Fin 64), s.dev.supply = .on) ∧
  (∃ (s : State) (engine : Fin 64) (m : Mode), s.dev.supply = .on ∧ (((List.range 64).find? fun e => s.dev.is TUN_CE_STATUS.BUDGET e) =
    some engine.val) ∧ (s.dev.engine engine).running = some m ∧ s.dev.is TUN_CE_DEST.VALID engine = true ∧ s.dev.streamLoad.1 < 32 ∧
    s.dev.streamLoad.2 + m.pixels ≤ 7962624000) ∧
  (∃ (s : State) (port : Fin 16) (tunnel : Fin 2) (edid : List Timing), s.dev.supply = .on) ∧
  (∃ (s : State) (port : Fin 16) (tunnel : Fin 2) (edid : List Timing) (engine : Fin 64), s.dev.supply = .on ∧ s.dev.is TUN_CE_DEST.VALID
    engine = true ∧ s.dev.is TUN_CE_DEST.REMOTE engine = true ∧ s.dev.get TUN_CE_DEST.PORT engine = port ∧ s.dev.get TUN_CE_DEST.TUNNEL
    engine = tunnel) ∧
  (∃ (s : State) (source : Fin 8192) (frame : ConsoleFrame) (x : InStream), s.dev.supply = .on ∧ bitOf frame.flags 2 = false ∧
    s.dev.inStream source frame.engine = some x) ∧
  (∃ (s : State) (source : Fin 8192) (frame : ConsoleFrame), s.dev.supply = .on ∧ bitOf frame.flags 2 = true) ∧
  (∃ (s : State) (source : Fin 8192) (engine : Fin 64) (line : Fin 65536) (segments : List (Fin 65536)) (x : InStream), s.dev.supply = .on
    ∧ source.val ≠ s.dev.moduleId ∧ s.dev.inStream source engine = some x) ∧
  (∃ (s : State) (source : Fin 8192) (engine : Fin 64) (line : Fin 65536) (segments : List (Fin 65536)) (m : Mode), s.dev.supply = .on ∧
    source.val = s.dev.moduleId ∧ (s.dev.engine engine).running = some m ∧ (s.dev.endpoint 447 (64 + engine.val)).bound.isSome = true ∧
    s.dev.is TUN_CE_DEST.REMOTE engine = true ∧ s.dev.is TUN_CE_STATUS.STREAMING engine = true ∧ line.val < m.h) ∧
  (∃ (s : State), s.dev.supply = .on) ∧
  (∃ (s : State) (h : CmdHdr) (engine : Byte) (dest : Fin 65536) (port : Byte) (tunnel : Byte) (far : Nat), s.dev.supply = .on ∧
    s.dev.CarriesOut h 0x0A02 [1, 4] ((if h.modul = 0xFFFF then s.dev.moduleId else h.modul)) ∧ (s.dev.destinationPart h && dest.val ==
    s.dev.moduleId) = false ∧ engine.toNat < 64 ∧ dest.val < 8192 ∧ port.toNat < 16 ∧ tunnel.toNat < 2) ∧
  (∃ (s : State) (h : CmdHdr) (engine : Byte) (dest : Fin 65536) (port : Byte) (tunnel : Byte) (far : Nat), s.dev.supply = .on ∧
    s.dev.destinationPart h = true ∧ dest.val = s.dev.moduleId) ∧
  (∃ (s : State) (h : CmdHdr) (engine : Byte), s.dev.supply = .on ∧ s.dev.CarriesOut h 0x0A03 [1, 4] ((if h.modul = 0xFFFF then
    s.dev.moduleId else h.modul)) ∧ s.dev.destinationPart h = false ∧ engine.toNat < 64) ∧
  (∃ (s : State) (h : CmdHdr) (engine : Byte), s.dev.supply = .on ∧ s.dev.destinationPart h = true) :=
  ⟨⟨onReset fun d => ((d.put TUN_CE_GEOM.WIDTH 3 640).put TUN_CE_GEOM.HEIGHT 3 480).put TUN_CE_STRIDE.STRIDE 3 2560, (3 : Fin 64),
    (0x8000003C : Word), by decide +kernel⟩,
  ⟨onReset fun d => d, (3 : Fin 64), (0x1000 : Word), by decide +kernel⟩,
  ⟨onReset fun d =>
    { d with engines := [(3, { running := some { w := 640, h := 480, refresh := 60, format := 0, stride := 2560 }, armed := some 4096 })] },
    (3 : Fin 64), by decide +kernel⟩,
  ⟨onReset fun d => d.put TUN_CE_MODE.ENABLE 3 1, (3 : Fin 64), by decide +kernel⟩,
  ⟨onReset fun d =>
    ({ d with engines := [(3, { running := some { w := 640, h := 480, refresh := 60, format := 0, stride := 2560 } })] }.put
    TUN_CE_STATUS.BUDGET 3 1).put TUN_CE_DEST.VALID 3 1, (3 : Fin 64), ({ w := 640, h := 480, refresh := 60, format := 0, stride := 2560 }
    : Mode), by decide +kernel⟩,
  ⟨onReset fun d => d, (3 : Fin 16), (1 : Fin 2), ([] : List Timing), by decide +kernel⟩,
  ⟨onReset fun d =>
    ((({ d with engines := [(3, { running := some { w := 640, h := 480, refresh := 60, format := 0, stride := 2560 } })] }.put
    TUN_CE_DEST.VALID 3 1).put TUN_CE_DEST.REMOTE 3 1).put TUN_CE_DEST.PORT 3 4), (4 : Fin 16), (0 : Fin 2), ([] : List Timing), (3 : Fin
    64), by decide +kernel⟩,
  ⟨onReset fun d => { d with inStreams := [{ modul := 2, engine := 3 }] }, (2 : Fin 8192),
    ({ engine := 3, flags := 0, fseq := 0, line := 0, x := 0, count := 64 } : ConsoleFrame), ({ modul := 2, engine := 3 } : InStream),
    by decide +kernel⟩,
  ⟨onReset fun d => d, (2 : Fin 8192), ({ engine := 3, flags := 4, fseq := 0, line := 0, x := 0, count := 64 } : ConsoleFrame),
    by decide +kernel⟩,
  ⟨onReset fun d => { d with inStreams := [{ modul := 2, engine := 3 }] }.put RTE_MODULE_ID.ID 0 1, (2 : Fin 8192), (3 : Fin 64), (7 : Fin
    65536), ([0] : List (Fin 65536)), ({ modul := 2, engine := 3 } : InStream), by decide +kernel⟩,
  ⟨onReset fun d =>
    (({ d with engines := [(3, { running := some { w := 8, h := 1, refresh := 60, format := 0, stride := 2560 } })], endpoints := [(447 * 256 + 67, { exists_ := true, bound := some { gvh := 77, k := 0, up := 3 } })] }.put
    TUN_CE_DEST.REMOTE 3 1).put TUN_CE_DEST.VALID 3 1).put TUN_CE_STATUS.STREAMING 3 1, (0 : Fin 8192), (3 : Fin 64), (0 : Fin 65536), ([]
    : List (Fin 65536)), ({ w := 8, h := 1, refresh := 60, format := 0, stride := 2560 } : Mode), by decide +kernel⟩,
  ⟨onReset fun d => { d with inStreams := [{ modul := 2, engine := 3, black := 4 }] }, by decide +kernel⟩,
  ⟨onReset fun d => (d.put TUN_PORT_STATUS.ROLE 3 1).put CUR_START_STATUS.READY 0 1, ({ } : CmdHdr), (5 : Byte), (0 : Fin 65536), (3 :
    Byte), (1 : Byte), (0 : Nat), by unfold Dev.CarriesOut; decide +kernel⟩,
  ⟨onReset fun d => (d.put TUN_PORT_STATUS.ROLE 3 1), ({ forwarded := some 4, modul := 2 } : CmdHdr), (5 : Byte), (0 : Fin 65536), (3 :
    Byte), (1 : Byte), (0 : Nat), by decide +kernel⟩,
  ⟨onReset fun d => (d.put TUN_CE_DEST.VALID 5 1).put CUR_START_STATUS.READY 0 1, ({ } : CmdHdr), (5 : Byte),
    by unfold Dev.CarriesOut; decide +kernel⟩,
  ⟨onReset fun d => { d with inStreams := [{ modul := 2, engine := 3 }] }, ({ forwarded := some 4, modul := 2 } : CmdHdr), (3 : Byte),
    by decide +kernel⟩⟩

theorem witness_ServiceOwnership :
  (∃ (s : State) (h : CmdHdr) (port : Byte) (pin : Byte), s.dev.supply = .on ∧ s.dev.CarriesOut h 0x0A04 [2, 4] s.dev.moduleId ∧
    port.toNat < 16 ∧ pin.toNat ≤ 1 ∧ s.dev.candidate port.toNat = true) ∧
  (∃ (s : State) (h : CmdHdr) (port : Byte) (pin : Byte), s.dev.supply = .on ∧ s.dev.CarriesOut h 0x0A04 [2, 4] s.dev.moduleId ∧
    port.toNat = 0xFF ∧ pin.toNat = 0) ∧
  (∃ (s : State) (port : Fin 16) (usb4 : Bool), s.dev.supply = .on ∧ s.dev.hubLost = false ∧ s.dev.canServe port = true) ∧
  (∃ (s : State) (p : Nat), s.dev.supply = .on ∧ s.dev.owner = some p) ∧
  (∃ (s : State), s.dev.supply = .on ∧ s.dev.is USH_OWNER.WAITING 0 = true) ∧
  (∃ (s : State) (speed : Fin 4), s.dev.supply = .on ∧ s.dev.hubPort ≠ s.dev.owner) ∧
  (∃ (s : State) (port : Fin 4), s.dev.supply = .on ∧ s.dev.hubPort.isSome = true ∧ port.val ∉ s.dev.usbaOpen) ∧
  (∃ (s : State) (master : Fin 2048) (value : Word) (speed : Fin 4), s.dev.supply = .on) ∧
  (∃ (s : State) (gone : Bool) (abandons : Bool) (speed : Fin 4), s.dev.supply = .on ∧ s.dev.hubPort.isSome = true ∧ s.dev.is
    USH_MUD_CTL.CONNECT 0 = true) ∧
  (∃ (s : State) (tag : Fin 65536), s.dev.supply = .on) ∧
  (∃ (s : State) (state : Fin 4) (besl : Fin 16), s.dev.supply = .on ∧ s.dev.is USH_MUD_CTL.CONNECT 0 = true ∧ s.dev.is
    USH_MUD_STATUS.CONFIGURED 0 = true ∧ s.dev.get USH_MUD_STATUS.LINK 0 ≠ 4) ∧
  (∃ (s : State) (u2 : Bool) (enabled : Bool), s.dev.supply = .on ∧ s.dev.is USH_MUD_CTL.CONNECT 0 = true ∧ s.dev.is
    USH_MUD_STATUS.CONFIGURED 0 = true ∧ s.dev.get USH_MUD_STATUS.LINK 0 ≠ 4) ∧
  (∃ (s : State), s.dev.supply = .on ∧ s.dev.get USH_MUD_STATUS.LINK 0 = 4 ∧ s.dev.is USH_MUD_STATUS.WAKE_PENDING 0 = true) ∧
  (∃ (s : State), s.dev.supply = .on ∧ s.dev.get USH_MUD_STATUS.LINK 0 = 4) :=
  ⟨⟨onReset fun d => ({ d with candidates := [⟨3, false, 0⟩] }).put CUR_START_STATUS.READY 0 1, ({ } : CmdHdr), (3 : Byte), (1 : Byte),
    by unfold Dev.CarriesOut; decide +kernel⟩,
  ⟨onReset fun d => ({ d with candidates := [⟨3, false, 0⟩] }.put USH_OWNER_CFG.PIN 0 1).put CUR_START_STATUS.READY 0 1, ({ } : CmdHdr),
    (0xFF : Byte), (0 : Byte), by unfold Dev.CarriesOut; decide +kernel⟩,
  ⟨onReset fun d => d.put PD_PORT_STATUS.STATE 3 3, (3 : Fin 16), (true : Bool), by decide +kernel⟩,
  ⟨onReset fun d => ({ d with candidates := [⟨3, false, 0⟩] }.put USH_OWNER.VALID 0 1).put USH_OWNER.PORT 0 3, (3 : Nat),
    by decide +kernel⟩,
  ⟨onReset fun d => { d with candidates := [⟨3, false, 0⟩] }.put USH_OWNER.WAITING 0 1, by decide +kernel⟩,
  ⟨onReset fun d => ({ d with candidates := [⟨3, true, 0⟩] }.put USH_OWNER.VALID 0 1).put USH_OWNER.PORT 0 3, (3 : Fin 4),
    by decide +kernel⟩,
  ⟨onReset fun d => { d with hubPort := some 3 }, (2 : Fin 4), by decide +kernel⟩,
  ⟨onReset fun d => { d with hubPort := some 3 }, (0 : Fin 2048), (1 : Word), (3 : Fin 4), by decide +kernel⟩,
  ⟨onReset fun d => (({ d with hubPort := some 3, mud := { log := some (1, 0) } }).put USH_MUD_CTL.CONNECT 0 1).put
    USH_MUD_STATUS.CONFIGURED 0 1, (true : Bool), (false : Bool), (3 : Fin 4), by decide +kernel⟩,
  ⟨onReset fun d => { d with mudDone := [(7, 0, 0)] }, (7 : Fin 65536), by decide +kernel⟩,
  ⟨onReset fun d => ((d).put USH_MUD_CTL.CONNECT 0 1).put USH_MUD_STATUS.CONFIGURED 0 1, (1 : Fin 4), (4 : Fin 16), by decide +kernel⟩,
  ⟨onReset fun d => ((d.put USH_MUD_STATUS.SPEED 0 3).put USH_MUD_CTL.CONNECT 0 1).put USH_MUD_STATUS.CONFIGURED 0 1, (true : Bool), (true
    : Bool), by decide +kernel⟩,
  ⟨onReset fun d => (d.put USH_MUD_STATUS.LINK 0 4).put USH_MUD_STATUS.WAKE_PENDING 0 1, by decide +kernel⟩,
  ⟨onReset fun d => (d.put USH_MUD_STATUS.LINK 0 4).put USH_MUD_STATUS.WAKE_PENDING 0 1, by decide +kernel⟩⟩

theorem witness_ManagementUsbDevice :
  (∃ (s : State) (len : Fin 65536), s.dev.supply = .on ∧ s.dev.is USH_MUD_CTL.CONNECT 0 = true ∧ s.dev.is USH_MUD_STATUS.CONFIGURED 0 =
    true ∧ s.dev.get USH_MUD_STATUS.LINK 0 ≠ 4) ∧
  (∃ (s : State) (len : Fin 65536) (addr : Nat) (data : List Byte) (completes : Bool), s.dev.supply = .on ∧ s.dev.is USH_MUD_CTL.CONNECT 0
    = true ∧ s.dev.is USH_MUD_STATUS.CONFIGURED 0 = true ∧ s.dev.get USH_MUD_STATUS.LINK 0 ≠ 4) ∧
  (∃ (s : State) (len : Fin 65536) (tag : Fin 65536) (addr : Nat) (at_ : Nat), s.dev.supply = .on ∧ s.dev.is USH_MUD_CTL.CONNECT 0 = true
    ∧ s.dev.is USH_MUD_STATUS.CONFIGURED 0 = true ∧ s.dev.get USH_MUD_STATUS.LINK 0 ≠ 4 ∧ s.dev.mudDone.find? (fun r => r.1 == tag.val) =
    some (tag.val, addr, at_)) ∧
  (∃ (s : State) (len : Fin 65536) (target : Word) (length : Word) (crc : Word) (completes : Bool), s.dev.supply = .on ∧ s.dev.is
    USH_MUD_CTL.CONNECT 0 = true ∧ s.dev.is USH_MUD_STATUS.CONFIGURED 0 = true ∧ s.dev.get USH_MUD_STATUS.LINK 0 ≠ 4) ∧
  (∃ (s : State) (data : List Byte) (got : List Byte) (target : Nat) (length : Nat) (crc : Nat), s.dev.supply = .on ∧ s.dev.is
    USH_MUD_CTL.CONNECT 0 = true ∧ s.dev.is USH_MUD_STATUS.CONFIGURED 0 = true ∧ s.dev.get USH_MUD_STATUS.LINK 0 ≠ 4 ∧ s.dev.mud.session =
    some (target, length, crc, got)) ∧
  (∃ (s : State) (len : Fin 65536) (completes : Bool) (got : List Byte) (target : Nat) (length : Nat) (crc : Nat), s.dev.supply = .on ∧
    s.dev.is USH_MUD_CTL.CONNECT 0 = true ∧ s.dev.is USH_MUD_STATUS.CONFIGURED 0 = true ∧ s.dev.get USH_MUD_STATUS.LINK 0 ≠ 4 ∧
    s.dev.mud.session = some (target, length, crc, got)) ∧
  (∃ (s : State) (len : Fin 65536) (completes : Bool), s.dev.supply = .on ∧ s.dev.is USH_MUD_CTL.CONNECT 0 = true ∧ s.dev.is
    USH_MUD_STATUS.CONFIGURED 0 = true ∧ s.dev.get USH_MUD_STATUS.LINK 0 ≠ 4) ∧
  (∃ (s : State) (len : Fin 65536) (source : Word) (start : Nat) (completes : Bool), s.dev.supply = .on ∧ s.dev.is USH_MUD_CTL.CONNECT 0 =
    true ∧ s.dev.is USH_MUD_STATUS.CONFIGURED 0 = true ∧ s.dev.get USH_MUD_STATUS.LINK 0 ≠ 4) ∧
  (∃ (s : State) (len : Fin 65536) (completes : Bool), s.dev.supply = .on ∧ s.dev.is USH_MUD_CTL.CONNECT 0 = true ∧ s.dev.is
    USH_MUD_STATUS.CONFIGURED 0 = true ∧ s.dev.get USH_MUD_STATUS.LINK 0 ≠ 4) ∧
  (∃ (s : State) (count : Nat) (src : Nat) (pos : Nat), s.dev.supply = .on ∧ s.dev.is USH_MUD_CTL.CONNECT 0 = true ∧ s.dev.is
    USH_MUD_STATUS.CONFIGURED 0 = true ∧ s.dev.get USH_MUD_STATUS.LINK 0 ≠ 4 ∧ s.dev.mud.log = some (src, pos)) :=
  ⟨⟨onReset fun d => ((d).put USH_MUD_CTL.CONNECT 0 1).put USH_MUD_STATUS.CONFIGURED 0 1, (64 : Fin 65536), by decide +kernel⟩,
  ⟨onReset fun d => ((d).put USH_MUD_CTL.CONNECT 0 1).put USH_MUD_STATUS.CONFIGURED 0 1, (128 : Fin 65536), (0 : Nat), (List.replicate 128
    0 : List Byte), (true : Bool), by decide +kernel⟩,
  ⟨onReset fun d => (({ d with mudDone := [(7, 0, 0)] }).put USH_MUD_CTL.CONNECT 0 1).put USH_MUD_STATUS.CONFIGURED 0 1, (128 : Fin
    65536), (7 : Fin 65536), (0 : Nat), (0 : Nat), by decide +kernel⟩,
  ⟨onReset fun d => ((d).put USH_MUD_CTL.CONNECT 0 1).put USH_MUD_STATUS.CONFIGURED 0 1, (16 : Fin 65536), (1 : Word), (8 : Word), (0 :
    Word), (true : Bool), by decide +kernel⟩,
  ⟨onReset fun d => (({ d with mud := { session := some (1, 8, 0, [5]) } }).put USH_MUD_CTL.CONNECT 0 1).put USH_MUD_STATUS.CONFIGURED 0
    1, ([1, 2] : List Byte), ([5] : List Byte), (1 : Nat), (8 : Nat), (0 : Nat), by decide +kernel⟩,
  ⟨onReset fun d => (({ d with mud := { session := some (1, 1, crc32 [5], [5]) } }).put USH_MUD_CTL.CONNECT 0 1).put
    USH_MUD_STATUS.CONFIGURED 0 1, (0 : Fin 65536), (true : Bool), ([5] : List Byte), (1 : Nat), (1 : Nat), (crc32 [5] : Nat),
    by decide +kernel⟩,
  ⟨onReset fun d => (({ d with mud := { session := some (1, 1, 0, []) } }).put USH_MUD_CTL.CONNECT 0 1).put USH_MUD_STATUS.CONFIGURED 0 1,
    (0 : Fin 65536), (true : Bool), by decide +kernel⟩,
  ⟨onReset fun d => ((d).put USH_MUD_CTL.CONNECT 0 1).put USH_MUD_STATUS.CONFIGURED 0 1, (16 : Fin 65536), (1 : Word), (0 : Nat), (true :
    Bool), by decide +kernel⟩,
  ⟨onReset fun d => (({ d with mud := { log := some (1, 0) } }).put USH_MUD_CTL.CONNECT 0 1).put USH_MUD_STATUS.CONFIGURED 0 1, (0 : Fin
    65536), (true : Bool), by decide +kernel⟩,
  ⟨onReset fun d => (({ d with mud := { log := some (1, 0) } }).put USH_MUD_CTL.CONNECT 0 1).put USH_MUD_STATUS.CONFIGURED 0 1, (3 : Nat),
    (1 : Nat), (0 : Nat), by decide +kernel⟩⟩

theorem witness_TypeCPorts :
  (∃ (s : State) (port : Fin 16), s.dev.supply = .on ∧ s.dev.is PD_PORT_POLICY.ENABLE port = false) ∧
  (∃ (s : State) (port : Fin 16) (reading : Moisture), s.dev.supply = .on ∧ s.dev.pdState port = 0) ∧
  (∃ (s : State) (port : Fin 16) (reading : Moisture), s.dev.supply = .on ∧ s.dev.pdState port = 1) ∧
  (∃ (s : State) (port : Fin 16), s.dev.supply = .on ∧ s.dev.pdState port = 1) ∧
  (∃ (s : State) (port : Fin 16) (source : Bool) (cc2 : Bool), s.dev.supply = .on ∧ s.dev.pdState port = 0 ∧ s.dev.is
    PD_PORT_POLICY.ENABLE port = true ∧ s.dev.hubLost = false) ∧
  (∃ (s : State) (port : Fin 16) (marker : Marker), s.dev.supply = .on ∧ (s.dev.pd port).discovering = true ∧ s.dev.is
    PD_PORT_STATUS.VCONN port = true) ∧
  (∃ (s : State) (port : Fin 16), s.dev.supply = .on ∧ (s.dev.pd port).discovering = true) ∧
  (∃ (s : State) (port : Fin 16), s.dev.supply = .on ∧ s.dev.is PD_PORT_STATUS.EPR port = true ∧ 2 ≤ s.dev.pdState port ∧ s.dev.pdState
    port ≤ 5) ∧
  (∃ (s : State) (port : Fin 16), s.dev.supply = .on ∧ 2 ≤ s.dev.pdState port ∧ s.dev.pdState port ≤ 5) ∧
  (∃ (s : State) (port : Fin 16), s.dev.supply = .on ∧ s.dev.pdState port = 6) ∧
  (∃ (s : State) (port : Fin 16), s.dev.supply = .on ∧ 2 ≤ s.dev.pdState port ∧ s.dev.pdState port ≤ 6) ∧
  (∃ (s : State) (port : Fin 16), s.dev.supply = .on ∧ s.dev.pdState port = 7 ∧ s.dev.efState (vbusFuse port) ≠ 5) ∧
  (∃ (s : State) (port : Fin 16) (mv : Fin 65536), s.dev.supply = .on ∧ s.dev.pdState port = 7) :=
  ⟨⟨onReset fun d => (d.put PD_PORT_POLICY.ENABLE 3 0), (3 : Fin 16), by decide +kernel⟩,
  ⟨onReset fun d => d, (3 : Fin 16), (⟨900000, 100, 900000, 900000⟩ : Moisture), by decide +kernel⟩,
  ⟨onReset fun d => (d).put PD_PORT_STATUS.STATE 3 1, (3 : Fin 16), (⟨900000, 900000, 900000, 900000⟩ : Moisture), by decide +kernel⟩,
  ⟨onReset fun d => (d).put PD_PORT_STATUS.STATE 3 1, (3 : Fin 16), by decide +kernel⟩,
  ⟨onReset fun d => d.put PD_PORT_POLICY.ENABLE 3 1, (3 : Fin 16), (true : Bool), (false : Bool), by decide +kernel⟩,
  ⟨onReset fun d => { d with pds := [(3, { discovering := true })] }.put PD_PORT_STATUS.VCONN 3 1, (3 : Fin 16), (⟨4, true, true, false,
    false⟩ : Marker), by decide +kernel⟩,
  ⟨onReset fun d => { d with pds := [(3, { discovering := true })] }, (3 : Fin 16), by decide +kernel⟩,
  ⟨onReset fun d => (d.put PD_PORT_STATUS.EPR 3 1).put PD_PORT_STATUS.STATE 3 2, (3 : Fin 16), by decide +kernel⟩,
  ⟨onReset fun d => (d).put PD_PORT_STATUS.STATE 3 2, (3 : Fin 16), by decide +kernel⟩,
  ⟨onReset fun d => (d).put PD_PORT_STATUS.STATE 3 6, (3 : Fin 16), by decide +kernel⟩,
  ⟨onReset fun d => (d).put PD_PORT_STATUS.STATE 3 2, (3 : Fin 16), by decide +kernel⟩,
  ⟨onReset fun d => (d).put PD_PORT_STATUS.STATE 3 7, (3 : Fin 16), by decide +kernel⟩,
  ⟨onReset fun d => (d).put PD_PORT_STATUS.STATE 3 7, (3 : Fin 16), (900 : Fin 65536), by decide +kernel⟩⟩

theorem witness_PdContractsAndSwaps :
  (∃ (s : State) (port : Fin 16), s.dev.supply = .on) ∧
  (∃ (s : State) (port : Fin 16) (request : PdRequest) (mw : Nat), s.dev.supply = .on ∧ s.dev.pdState port = 2 ∧ (s.dev.pd port).chargeFor
    request = some mw) ∧
  (∃ (s : State) (port : Fin 16) (mv : Nat), s.dev.supply = .on ∧ s.dev.pdState port = 5 ∧ (s.dev.pd port).target = some mv) ∧
  (∃ (s : State) (p : Nat), s.dev.supply = .on ∧ ((s.dev.pdOrder.find? fun p => s.dev.pdState p == 2 && (s.dev.pd p).source && ((s.dev.pd
    p).refused || s.dev.is PD_PORT_STATUS.POOL_LIMITED p)) = some p)) ∧
  (∃ (s : State), s.dev.supply = .on) ∧
  (∃ (s : State) (port : Fin 16), s.dev.supply = .on ∧ s.dev.pdState port = 2) ∧
  (∃ (s : State) (port : Fin 16) (k : PdSwap) (byPartner : Bool) (able : Bool), s.dev.supply = .on) ∧
  (∃ (s : State) (port : Fin 16) (k : PdSwap) (mine : Bool), s.dev.supply = .on ∧ (s.dev.pd port).swap = some (k, mine) ∧ (s.dev.pd
    port).waiting = []) ∧
  (∃ (s : State) (port : Fin 16), s.dev.supply = .on) ∧
  (∃ (s : State) (h : CmdHdr) (port : Byte) (swap : Byte) (policy : Word) (able : Bool), s.dev.supply = .on ∧ s.dev.CarriesOut h 0x0604
    [1, 2] s.dev.moduleId ∧ s.dev.objectHeld h (· == .swap port.toNat) = false ∧ port.toNat < 16 ∧ swap.toNat ≤ 3 ∧ policyBad policy.toNat
    = false) :=
  ⟨⟨onReset fun d => ({ d with pds := [(3, { source := true })] }).put PD_PORT_STATUS.STATE 3 2, (3 : Fin 16), by decide +kernel⟩,
  ⟨onReset fun d => (({ d with pds := [(3, { source := true, offer := [⟨0, 180, 180, 300⟩] })] }.put PD_POOL_LIMIT.LIMIT_W 0 100).put
    PD_PORT_POLICY.PMAX 3 100).put PD_PORT_STATUS.STATE 3 2, (3 : Fin 16), (.fixed 180 300 : PdRequest), (27000 : Nat),
    by decide +kernel⟩,
  ⟨onReset fun d => ({ d with pds := [(3, { source := true, target := some 9000 })] }).put PD_PORT_STATUS.STATE 3 5, (3 : Fin 16), (9000 :
    Nat), by decide +kernel⟩,
  ⟨onReset fun d => (({ d with pds := [(3, { source := true, refused := true })] }.put PD_POOL_LIMIT.LIMIT_W 0 100)).put
    PD_PORT_STATUS.STATE 3 2, (3 : Nat), by decide +kernel⟩,
  ⟨onReset fun d => ({ d with pds := [(3, { source := true, charge := 60000 })] }.put PD_POOL_LIMIT.LIMIT_W 0 30).put PD_POOL_USED.USED_MW
    0 60000, by decide +kernel⟩,
  ⟨onReset fun d => (d).put PD_PORT_STATUS.STATE 3 2, (3 : Fin 16), by decide +kernel⟩,
  ⟨onReset fun d => ({ d with pds := [(3, { source := true })] }.put PD_PORT_POLICY.DR_ACCEPT 3 1).put PD_PORT_STATUS.STATE 3 2, (3 : Fin
    16), (.dr : PdSwap), (true : Bool), (true : Bool), by decide +kernel⟩,
  ⟨onReset fun d => ({ d with pds := [(3, { source := true, swap := some (.vconn, false) })] }).put PD_PORT_STATUS.STATE 3 4, (3 : Fin
    16), (.vconn : PdSwap), (false : Bool), by decide +kernel⟩,
  ⟨onReset fun d => { d with pds := [(3, { hold := [.dr] })] }, (3 : Fin 16), by decide +kernel⟩,
  ⟨onReset fun d => d.put CUR_START_STATUS.READY 0 1, ({ } : CmdHdr), (3 : Byte), (0 : Byte), (0x80000064 : Word), (true : Bool),
    by unfold Dev.CarriesOut; decide +kernel⟩⟩

theorem witness_SupplyAndBudget :
  (∃ (s : State) (feed : Fin 2) (vrms : Fin 512) (freq : Fin 256), s.dev.supply = .on ∧ s.dev.is (feedPresent feed) 0 = false) ∧
  (∃ (s : State) (feed : Fin 2) (vrms : Fin 512) (freq : Fin 256), s.dev.supply = .off ∧ (85 ≤ vrms.val ∧ vrms.val ≤ 265 ∧ 47 ≤ freq.val ∧
    freq.val ≤ 63)) ∧
  (∃ (s : State) (feed : Fin 2) (vrms : Fin 512) (freq : Fin 256), s.dev.supply = .on ∧ s.dev.is (feedPresent feed) 0 = true) ∧
  (∃ (s : State), True) ∧
  (∃ (s : State) (feed : Fin 2) (high : Bool), s.dev.supply = .on ∧ s.dev.is (feedPresent feed) 0 = true) ∧
  (∃ (s : State) (feed : Fin 2), s.dev.supply = .on) ∧
  (∃ (s : State), s.dev.supply = .on) ∧
  (∃ (s : State) (stage : Fin 3), s.dev.supply = .on ∧ bitOf (s.dev.get PWR_STAGES.STAGE_OK 0) stage = true) ∧
  (∃ (s : State) (h : CmdHdr) (highCage : Fin 65536) (highPd : Fin 65536) (lowCage : Fin 65536) (lowPd : Fin 65536), s.dev.supply = .on ∧
    s.dev.CarriesOut h 0x0601 [1, 2] s.dev.moduleId ∧ highCage.val + highPd.val ≤ 1535 ∧ lowCage.val + lowPd.val ≤ 285 ∧ highCage.val ≤
    1344 ∧ (s.dev.get PWR_BUDGET.BUDGET_W 0 = 0 ∨ s.dev.get PWR_CAGE_USED.USED_MW 0 ≤ (if s.dev.is PWR_BUDGET.HIGH 0 then highCage.val
    else lowCage.val) * 1000)) :=
  ⟨⟨onReset fun d => d.put PWR_FEED_A.PRESENT 0 0, (0 : Fin 2), (230 : Fin 512), (50 : Fin 256), by decide +kernel⟩,
  ⟨onReset fun d => { d with supply := .off }, (0 : Fin 2), (230 : Fin 512), (50 : Fin 256), by decide +kernel⟩,
  ⟨onReset fun d => d.put PWR_FEED_B.PRESENT 0 1, (1 : Fin 2), (0 : Fin 512), (0 : Fin 256), by decide +kernel⟩,
  ⟨onReset fun d => d, by decide +kernel⟩,
  ⟨onReset fun d => d.put PWR_FEED_A.PRESENT 0 1, (0 : Fin 2), (true : Bool), by decide +kernel⟩,
  ⟨onReset fun d => d, (1 : Fin 2), by decide +kernel⟩,
  ⟨onReset fun d => ({ d with efuses := [(3, { charge := 9000 })] }.put PWR_POOLS.CAGE_W 0 1).put PWR_CAGE_USED.USED_MW 0 9000,
    by decide +kernel⟩,
  ⟨onReset fun d => d.put PWR_STAGES.STAGE_OK 0 7, (1 : Fin 3), by decide +kernel⟩,
  ⟨onReset fun d => ((d.put PWR_BUDGET.BUDGET_W 0 2400).put PWR_BUDGET.HIGH 0 1).put CUR_START_STATUS.READY 0 1, ({ } : CmdHdr), (900 :
    Fin 65536), (600 : Fin 65536), (40 : Fin 65536), (240 : Fin 65536), by unfold Dev.CarriesOut; decide +kernel⟩⟩

theorem witness_ElectronicFuses :
  (∃ (s : State) (h : CmdHdr) (cage : Byte) (value : Byte) (scale : Byte) (priority : Byte), s.dev.supply = .on ∧ s.dev.CarriesOut h
    0x0602 [1, 2, 4] s.dev.moduleId ∧ cage.toNat < 56 ∧ scale.toNat ≤ 3 ∧ priority.toNat ≤ 3) ∧
  (∃ (s : State) (h : CmdHdr) (cage : Byte), s.dev.supply = .on ∧ s.dev.CarriesOut h 0x0603 [1, 2, 4] s.dev.moduleId ∧ cage.toNat < 56) ∧
  (∃ (s : State) (master : Fin 2048) (fuse : Fin 72) (value : Word), s.dev.supply = .on) ∧
  (∃ (s : State) (master : Fin 2048) (fuse : Fin 72) (value : Word), s.dev.supply = .on) ∧
  (∃ (s : State) (fuse : Fin 72) (vgs : Fin 256), s.dev.supply = .on ∧ s.dev.efState fuse = 1) ∧
  (∃ (s : State) (fuse : Fin 72), s.dev.supply = .on ∧ s.dev.efState fuse = 1 ∧ fuse.val ∉ s.dev.efQueue) ∧
  (∃ (s : State) (fuse : Fin 72), s.dev.supply = .on ∧ s.dev.efState fuse = 2 ∧ s.dev.is EF_STATUS.TIMER fuse = false) ∧
  (∃ (s : State) (fuse : Fin 72) (ma : Fin 65536), s.dev.supply = .on ∧ (s.dev.efState fuse = 1 ∨ s.dev.efState fuse = 2) ∧ s.dev.is
    EF_STATUS.TIMER fuse = false) ∧
  (∃ (s : State) (fuse : Fin 72) (ma : Fin 65536), s.dev.supply = .on) ∧
  (∃ (s : State) (fuse : Fin 72), s.dev.supply = .on ∧ (s.dev.efState fuse = 1 ∨ s.dev.efState fuse = 2) ∧ s.dev.is EF_STATUS.TIMER fuse =
    true) ∧
  (∃ (s : State) (fuse : Fin 72) (ma : Fin 65536), s.dev.supply = .on ∧ (s.dev.efState fuse = 1 ∨ s.dev.efState fuse = 2) ∧ 2 * s.dev.get
    EF_CTL.LIMIT_MA fuse ≤ ma.val) ∧
  (∃ (s : State) (fuse : Fin 72), s.dev.supply = .on ∧ s.dev.efState fuse = 3 ∧ s.dev.get EF_STATUS.RETRIES fuse < 8) ∧
  (∃ (s : State) (fuse : Fin 72), s.dev.supply = .on ∧ (s.dev.efState fuse = 3 ∨ s.dev.efState fuse = 4)) ∧
  (∃ (s : State) (fuse : Fin 72), s.dev.supply = .on ∧ s.dev.efState fuse = 2 ∧ s.dev.is EF_STATUS.PG fuse = true) ∧
  (∃ (s : State) (port : Fin 16) (mv : Fin 65536), s.dev.supply = .on ∧ s.dev.efState (vbusFuse port) = 0 ∧ (s.dev.pd port).watch = true ∧
    s.dev.pdState port ≠ 3) ∧
  (∃ (s : State) (port : Fin 16) (rises : Bool), s.dev.supply = .on ∧ s.dev.efState (vbusFuse port) = 5 ∧ s.dev.get EF_STATUS.DAMAGE
    (vbusFuse port) = 2) ∧
  (∃ (s : State) (cage : Fin 56), s.dev.supply = .on ∧ (s.dev.efState cage = 1 ∨ s.dev.efState cage = 2)) ∧
  (∃ (s : State) (cage : Fin 56) (block : Option (List Byte)), s.dev.supply = .on ∧ s.dev.is EF_STATUS.PG cage = true) ∧
  (∃ (s : State) (cage : Fin 56) (status : Byte), s.dev.supply = .on ∧ s.dev.is EF_STATUS.PG cage = true) :=
  ⟨⟨onReset fun d => ((d.put PWR_POOLS.CAGE_W 0 900)).put CUR_START_STATUS.READY 0 1, ({ } : CmdHdr), (3 : Byte), (10 : Byte), (0 : Byte),
    (1 : Byte), by unfold Dev.CarriesOut; decide +kernel⟩,
  ⟨onReset fun d => ((d).put EF_STATUS.STATE 3 2).put CUR_START_STATUS.READY 0 1, ({ } : CmdHdr), (3 : Byte),
    by unfold Dev.CarriesOut; decide +kernel⟩,
  ⟨onReset fun d => (d.put PWR_POOLS.CAGE_W 0 900), (0 : Fin 2048), (3 : Fin 72), (0x80000200 : Word), by decide +kernel⟩,
  ⟨onReset fun d => (d).put EF_STATUS.STATE 3 2, (0 : Fin 2048), (3 : Fin 72), (0x40000000 : Word), by decide +kernel⟩,
  ⟨onReset fun d => (d).put EF_STATUS.STATE 3 1, (3 : Fin 72), (20 : Fin 256), by decide +kernel⟩,
  ⟨onReset fun d => (d).put EF_STATUS.STATE 3 1, (3 : Fin 72), by decide +kernel⟩,
  ⟨onReset fun d => (d).put EF_STATUS.STATE 3 2, (3 : Fin 72), by decide +kernel⟩,
  ⟨onReset fun d => (d).put EF_STATUS.STATE 3 2, (3 : Fin 72), (9000 : Fin 65536), by decide +kernel⟩,
  ⟨onReset fun d => d.put EF_STATUS.TIMER 3 1, (3 : Fin 72), (100 : Fin 65536), by decide +kernel⟩,
  ⟨onReset fun d => (d.put EF_STATUS.TIMER 3 1).put EF_STATUS.STATE 3 2, (3 : Fin 72), by decide +kernel⟩,
  ⟨onReset fun d => (d.put EF_CTL.LIMIT_MA 3 100).put EF_STATUS.STATE 3 2, (3 : Fin 72), (900 : Fin 65536), by decide +kernel⟩,
  ⟨onReset fun d => (d).put EF_STATUS.STATE 60 3, (60 : Fin 72), by decide +kernel⟩,
  ⟨onReset fun d => (d).put EF_STATUS.STATE 3 4, (3 : Fin 72), by decide +kernel⟩,
  ⟨onReset fun d => (d.put EF_STATUS.PG 3 1).put EF_STATUS.STATE 3 2, (3 : Fin 72), by decide +kernel⟩,
  ⟨onReset fun d => { d with pds := [(3, { watch := true })] }, (3 : Fin 16), (5000 : Fin 65536), by decide +kernel⟩,
  ⟨onReset fun d => (d.put EF_STATUS.STATE (vbusFuse 3) 5).put EF_STATUS.DAMAGE (vbusFuse 3) 2, (3 : Fin 16), (false : Bool),
    by decide +kernel⟩,
  ⟨onReset fun d => (d).put EF_STATUS.STATE 3 2, (3 : Fin 56), by decide +kernel⟩,
  ⟨onReset fun d => d.put EF_STATUS.PG 3 1, (3 : Fin 56), (none : Option (List Byte)), by decide +kernel⟩,
  ⟨onReset fun d => d.put EF_STATUS.PG 3 1, (3 : Fin 56), (7 : Byte), by decide +kernel⟩⟩

theorem witness_CommandLifecycle :
  (∃ (s : State) (channel : Fin 256) (source : Fetch) (n : Nat) (rest : List Nat), s.dev.supply = .on ∧ s.dev.isReceiver 0 channel = true
    ∧ s.dev.curatorDown = false ∧ s.dev.is CUR_START_STATUS.READY 0 = true ∧ hostCaller (s.dev.get MBX_BIND.SENDER channel) = false ∧
    s.dev.channel channel = n :: rest) ∧
  (∃ (s : State) (channel : Fin 256) (n : Nat) (rest : List Nat), s.dev.supply = .on ∧ s.dev.isReceiver 0 channel = true ∧
    s.dev.curatorDown = false ∧ s.dev.is CUR_START_STATUS.READY 0 = true ∧ hostCaller (s.dev.get MBX_BIND.SENDER channel) = true ∧
    s.dev.channel channel = n :: rest ∧ descriptorAllowed (s.dev.get MBX_BIND.SENDER channel) n = true ∧ (s.dev.vmf ((s.dev.get
    MBX_BIND.SENDER channel) - 0x400)).busMaster = true) ∧
  (∃ (s : State) (h : CmdHdr) (far : Option RemoteResult) (recorded : Bool) (writable : Bool) (c : Cmd), s.dev.supply = .on ∧
    s.dev.findCmd h = some c) ∧
  (∃ (s : State) (h : CmdHdr) (source : Fin 8192) (x : Descriptor), s.dev.supply = .on) ∧
  (∃ (s : State) (h : CmdHdr) (m : Fin 8192) (c : Cmd), s.dev.supply = .on ∧ s.dev.findCmd h = some c ∧ c.wait = .remote m.val) ∧
  (∃ (s : State) (h : CmdHdr) (c : Cmd) (m : Nat), s.dev.supply = .on ∧ s.dev.findCmd h = some c ∧ c.origin = some m ∧ c.status =
    Status.pending) ∧
  (∃ (s : State) (h : CmdHdr) (m : Nat) (c : Cmd), s.dev.supply = .on ∧ s.dev.findCmd h = some c ∧ c.wait = .remote m) ∧
  (∃ (s : State) (h : CmdHdr) (c : Cmd), s.dev.supply = .on ∧ s.dev.findCmd h = some c ∧ c.wait = .objects) :=
  ⟨⟨onReset fun d => (({ d with chans := [(16, [128])] }.put MBX_BIND.VALID 16 1).put MBX_BIND.SENDER 16 17).put CUR_START_STATUS.READY 0
    1, (16 : Fin 256), (.local_ : Fetch), (128 : Nat), ([] : List Nat), by decide +kernel⟩,
  ⟨onReset fun d => (({ d with chans := [(16, [128])], vmfs := [(0, { busMaster := true })] }.put MBX_BIND.VALID 16 1).put MBX_BIND.SENDER
    16 0x400).put CUR_START_STATUS.READY 0 1, (16 : Fin 256), (128 : Nat), ([] : List Nat), by decide +kernel⟩,
  ⟨onReset fun d =>
    { d with cmds := [{ addr := 0, caller := 32, role := 4, tag := 7, opcode := 0x0101, notify := true, detach := false, since := 0, heard := 0, status := Status.ok }] },
    ({ addr := 0, caller := 32, tag := 7 } : CmdHdr), (none : Option RemoteResult), (false : Bool), (true : Bool),
    ({ addr := 0, caller := 32, role := 4, tag := 7, opcode := 0x0101, notify := true, detach := false, since := 0, heard := 0, status := Status.ok }
    : Cmd), by decide +kernel⟩,
  ⟨onReset fun d => d, ({ addr := 0, caller := 32, tag := 7 } : CmdHdr), (2 : Fin 8192), (descriptorOf (List.replicate 128 0) :
    Descriptor), by decide +kernel⟩,
  ⟨onReset fun d =>
    { d with cmds := [{ addr := 0, caller := 32, role := 4, tag := 7, opcode := 0x0101, notify := true, detach := false, since := 0, heard := 0, wait := .remote 2 }], now := 64 },
    ({ addr := 0, caller := 32, tag := 7 } : CmdHdr), (2 : Fin 8192),
    ({ addr := 0, caller := 32, role := 4, tag := 7, opcode := 0x0101, notify := true, detach := false, since := 0, heard := 0, wait := .remote 2 }
    : Cmd), by decide +kernel⟩,
  ⟨onReset fun d =>
    { d with cmds := [{ addr := 0, caller := 32, role := 4, tag := 7, opcode := 0x0101, notify := true, detach := false, since := 0, heard := 0, origin := some 2 }] },
    ({ addr := 0, caller := 32, tag := 7 } : CmdHdr),
    ({ addr := 0, caller := 32, role := 4, tag := 7, opcode := 0x0101, notify := true, detach := false, since := 0, heard := 0, origin := some 2 }
    : Cmd), (2 : Nat), by decide +kernel⟩,
  ⟨onReset fun d =>
    { d with cmds := [{ addr := 0, caller := 32, role := 4, tag := 7, opcode := 0x0101, notify := true, detach := false, since := 0, heard := 0, wait := .remote 2 }] },
    ({ addr := 0, caller := 32, tag := 7 } : CmdHdr), (2 : Nat),
    ({ addr := 0, caller := 32, role := 4, tag := 7, opcode := 0x0101, notify := true, detach := false, since := 0, heard := 0, wait := .remote 2 }
    : Cmd), by decide +kernel⟩,
  ⟨onReset fun d =>
    { d with cmds := [{ addr := 0, caller := 32, role := 4, tag := 7, opcode := 0x0101, notify := true, detach := false, since := 0, heard := 0, wait := .objects }] },
    ({ addr := 0, caller := 32, tag := 7 } : CmdHdr),
    ({ addr := 0, caller := 32, role := 4, tag := 7, opcode := 0x0101, notify := true, detach := false, since := 0, heard := 0, wait := .objects }
    : Cmd), by decide +kernel⟩⟩

theorem witness_InformationCommands :
  (∃ (s : State) (h : CmdHdr), s.dev.supply = .on ∧ s.dev.CarriesOut h 0x0101 [1, 2, 4] s.dev.moduleId) ∧
  (∃ (s : State) (h : CmdHdr) (first : Fin 65536), s.dev.supply = .on ∧ s.dev.CarriesOut h 0x0102 [1, 2, 4] s.dev.moduleId ∧ first.val <
    512) ∧
  (∃ (s : State) (h : CmdHdr) (first : Word), s.dev.supply = .on ∧ s.dev.CarriesOut h 0x0103 [1, 2, 4] s.dev.moduleId) ∧
  (∃ (s : State) (h : CmdHdr) (fpid : Word) (ld : Byte) (p : Nat) (e : Nat), s.dev.supply = .on ∧ s.dev.CarriesOut h 0x0104 [1, 2, 4]
    (fpidModule (fpidField fpid.toNat)) ∧ fpidPort (fpidField fpid.toNat) = p ∧ s.dev.findEndpoint p ld.toNat = some e ∧ (s.dev.roleOf h ≠
    3 ∨ s.dev.ownVitrine h (((s.dev.endpoint p e).bound.map fun b => b.gvh).getD 0xFFFFFFFF) = true)) ∧
  (∃ (s : State) (h : CmdHdr) (gvh : Word) (lv : Nat), s.dev.supply = .on ∧ s.dev.CarriesOut h 0x0105 [1, 2, 4] s.dev.moduleId ∧
    s.dev.lvidOf (gvhField gvh.toNat) = some lv ∧ s.dev.objectHeld h (Wait.holdsNone lv) = false ∧ s.dev.recording h 0x0105 (gvhField
    gvh.toNat) = false ∧ (s.dev.roleOf h ≠ 3 ∨ s.dev.ownVitrine h (gvhField gvh.toNat) = true)) ∧
  (∃ (s : State) (h : CmdHdr), s.dev.supply = .on ∧ s.dev.CarriesOut h 0x0901 [1, 2, 4] s.dev.moduleId) :=
  ⟨⟨onReset fun d => d.put CUR_START_STATUS.READY 0 1, ({ } : CmdHdr), by unfold Dev.CarriesOut; decide +kernel⟩,
  ⟨onReset fun d => (d.put PRT_PORT_CFG.KIND 9 1).put CUR_START_STATUS.READY 0 1, ({ } : CmdHdr), (2 : Fin 65536),
    by unfold Dev.CarriesOut; decide +kernel⟩,
  ⟨onReset fun d => ({ d with endpoints := [(1280, { exists_ := true })] }).put CUR_START_STATUS.READY 0 1, ({ } : CmdHdr), (0 : Word),
    by unfold Dev.CarriesOut; decide +kernel⟩,
  ⟨onReset fun d => ({ d with endpoints := [(1280, { exists_ := true })] }).put CUR_START_STATUS.READY 0 1, ({ } : CmdHdr), (5 : Word),
    (0xFF : Byte), (5 : Nat), (0 : Nat), by unfold Dev.CarriesOut; decide +kernel⟩,
  ⟨onReset fun d => (hostDev d).put CUR_START_STATUS.READY 0 1, ({ } : CmdHdr), (77 : Word), (0 : Nat),
    by unfold Dev.CarriesOut; decide +kernel⟩,
  ⟨onReset fun d => ({ d with now := 99 }).put CUR_START_STATUS.READY 0 1, ({ } : CmdHdr), by unfold Dev.CarriesOut; decide +kernel⟩⟩

theorem witness_ModuleCommands :
  (∃ (s : State) (h : CmdHdr) (target : Byte) (auto : Byte), s.dev.supply = .on ∧ s.dev.CarriesOut h 0x0605 [1, 2] s.dev.moduleId ∧
    target.toNat < 2 ∧ s.dev.entering = false) ∧
  (∃ (s : State) (h : CmdHdr) (scope : Byte) (dest : Byte) (count : Fin 65536) (first : Word) (period : Word) (ring : Word) (addr : Nat)
    (n : Nat), s.dev.supply = .on ∧ s.dev.CarriesOut h 0x0701 [1, 2] s.dev.moduleId ∧ badCatalogue (tenantBank h) scope.toNat dest.toNat
    count.val first.toNat period.toNat ring.toNat = none ∧ ((tenantOf h).map (· + 1)).getD 0 = n) ∧
  (∃ (s : State) (h : CmdHdr) (on : Byte) (k : Byte) (mask : Fin 65536) (port : Word) (gvh : Word) (ring : Word) (addr : Nat) (n : Nat),
    s.dev.supply = .on ∧ s.dev.CarriesOut h 0x0702 [1, 2] s.dev.moduleId ∧ (badSpecimen (tenantOf h).isSome (((tenantOf h).map fun lv =>
    s.dev.gvh lv).getD 0) on.toNat k.toNat mask.val port.toNat gvh.toNat ring.toNat addr = none) ∧ ((tenantOf h).map (· + 1)).getD 0 = n)
    ∧
  (∃ (s : State) (h : CmdHdr) (bank : Word) (first : Byte) (count : Byte), s.dev.supply = .on ∧ s.dev.CarriesOut h 0x0703 [1, 2]
    s.dev.moduleId ∧ bank.toNat < 1544 ∧ (s.dev.roleOf h ≠ 3 ∨ tenantBank h = some bank.toNat) ∧ (count = 0 ∨ first.toNat + count.toNat ≤
    (bankWords bank.toNat).2) ∧ (count = 0 ∨ first.toNat < (bankWords bank.toNat).2)) ∧
  (∃ (s : State) (h : CmdHdr) (source : Byte) (prio : Byte) (signal : Bool), s.dev.supply = .on ∧ s.dev.CarriesOut h 0x0902 [1]
    s.dev.moduleId ∧ source.toNat ≤ 2 ∧ (source = 0 ∨ signal = true)) ∧
  (∃ (s : State) (h : CmdHdr) (time : Nat) (addr : Nat) (source : Fetch) (bs : List Byte) (id : Nat), s.dev.supply = .on ∧
    s.dev.CarriesOut h 0x0903 [1, 2] s.dev.moduleId ∧ fetched s.mem source addr 128 = some bs ∧ s.dev.now + msTicks 1 ≤ time ∧ time ≤
    s.dev.now + msTicks 86400000 ∧ s.dev.freeSchedule = some id ∧ headerFault (descriptorOf bs) = none ∧ schedulable (descriptorOf
    bs).opcode = true) ∧
  (∃ (s : State) (h : CmdHdr) (id : Fin 65536), s.dev.supply = .on ∧ s.dev.CarriesOut h 0x0904 [1, 2] s.dev.moduleId ∧
    ((s.dev.scheduled.find? fun e => e.id == id.val).isSome = true)) ∧
  (∃ (s : State) (id : Fin 65536) (e : Sched), s.dev.supply = .on ∧ ((s.dev.scheduled.find? fun e => e.id == id.val) = some e)) :=
  ⟨⟨onReset fun d => d.put CUR_START_STATUS.READY 0 1, ({ } : CmdHdr), (1 : Byte), (1 : Byte), by unfold Dev.CarriesOut; decide +kernel⟩,
  ⟨onReset fun d => d.put CUR_START_STATUS.READY 0 1, ({ } : CmdHdr), (1 : Byte), (0 : Byte), (4 : Fin 65536), (8 : Word), (1000 : Word),
    (0 : Word), (0 : Nat), (0 : Nat), by unfold Dev.CarriesOut; decide +kernel⟩,
  ⟨onReset fun d => d.put CUR_START_STATUS.READY 0 1, ({ } : CmdHdr), (1 : Byte), (4 : Byte), (5 : Fin 65536), (0xFFFFFFFF : Word),
    (0xFFFFFFFF : Word), (0 : Word), (0 : Nat), (0 : Nat), by unfold Dev.CarriesOut; decide +kernel⟩,
  ⟨onReset fun d => ({ d with ctrs := [(bankWords 3 |>.1, { sat := true })] }).put CUR_START_STATUS.READY 0 1, ({ } : CmdHdr), (3 : Word),
    (0 : Byte), (2 : Byte), by unfold Dev.CarriesOut; decide +kernel⟩,
  ⟨onReset fun d => d.put CUR_START_STATUS.READY 0 1, ({ } : CmdHdr), (2 : Byte), (9 : Byte), (true : Bool),
    by unfold Dev.CarriesOut; decide +kernel⟩,
  ⟨onReset fun d => d.put CUR_START_STATUS.READY 0 1, ({ } : CmdHdr), (1000000000 : Nat), (128 : Nat), (.remote (some ([4, 4, 0, 0, 0, 0,
    8, 0, 0, 0, 0, 0, 255, 255] ++ List.replicate 114 0)) : Fetch), ([4, 4, 0, 0, 0, 0, 8, 0, 0, 0, 0, 0, 255, 255] ++ List.replicate 114
    0 : List Byte), (0 : Nat), by unfold Dev.CarriesOut; decide +kernel⟩,
  ⟨onReset fun d =>
    ({ d with scheduled := [⟨5, 64, { addr := 0, caller := 32, role := 4, tag := 7, opcode := 0x0101, notify := true, detach := false, since := 0, heard := 0 }⟩] }).put
    CUR_START_STATUS.READY 0 1, ({ } : CmdHdr), (5 : Fin 65536), by unfold Dev.CarriesOut; decide +kernel⟩,
  ⟨onReset fun d =>
    { d with scheduled := [⟨5, 64, { addr := 0, caller := 32, role := 4, tag := 7, opcode := 0x0101, notify := true, detach := false, since := 0, heard := 0 }⟩] },
    (5 : Fin 65536), (⟨5, 64,
    { addr := 0, caller := 32, role := 4, tag := 7, opcode := 0x0101, notify := true, detach := false, since := 0, heard := 0 }⟩ : Sched),
    by decide +kernel⟩⟩

theorem witness_FirmwareRolesAndRanges :
  (∃ (s : State) (h : CmdHdr) (target : Byte) (length : Word) (addr : Nat) (crc : Word) (source : Fetch) (bs : List Byte), s.dev.supply =
    .on ∧ s.dev.CarriesOut h 0x0B01 [2, 4] s.dev.moduleId ∧ 1 ≤ target.toNat ∧ target.toNat ≤ 4 ∧ (s.dev.roleOf h ≠ 4 ∨ target.toNat ≤ 2)
    ∧ fetched s.mem source addr length.toNat = some bs ∧ crc32 bs = crc.toNat) ∧
  (∃ (s : State) (h : CmdHdr) (target : Byte) (signed : Bool) (checks : Bool) (version : Fin 65536), s.dev.supply = .on ∧ s.dev.CarriesOut
    h 0x0B02 [2, 4] s.dev.moduleId ∧ 1 ≤ target.toNat ∧ target.toNat ≤ 4 ∧ (s.dev.roleOf h ≠ 4 ∨ target.toNat ≤ 2) ∧ (SMap.get []
    s.dev.images target.toNat) ≠ [] ∧ checks = true ∧ (target = 1 → signed = true) ∧ (target = 2 → (eqTableOf (SMap.get [] s.dev.images
    target.toNat)).isSome = true)) ∧
  (∃ (s : State) (h : CmdHdr) (image : Byte) (reset : Byte), s.dev.supply = .on ∧ s.dev.CarriesOut h 0x0B03 [2, 4] s.dev.moduleId ∧
    image.toNat ≤ 1 ∧ reset.toNat ≤ 1 ∧ (if image = 0 then s.nv.fwA else s.nv.fwB).checked = true) ∧
  (∃ (s : State) (h : CmdHdr) (docent : Byte) (role : Byte), s.dev.supply = .on ∧ s.dev.CarriesOut h 0x0B04 [1] s.dev.moduleId ∧
    docent.toNat < 16 ∧ (role = 0 ∨ role = 1 ∨ role = 2 ∨ role = 4)) ∧
  (∃ (s : State) (h : CmdHdr) (entry : Byte) (flags : Byte) (base : Word) (limit : Word) (attr : Word) (fpid : Word) (addr : Nat),
    s.dev.supply = .on ∧ s.dev.CarriesOut h 0x0B05 [1, 2] s.dev.moduleId ∧ badRange entry.toNat flags.toNat base.toNat limit.toNat
    attr.toNat addr = none) ∧
  (∃ (s : State) (h : CmdHdr) (confirm : Word), s.dev.supply = .on ∧ s.dev.CarriesOut h 0x0B06 [1, 2, 4] s.dev.moduleId) :=
  ⟨⟨onReset fun d => d.put CUR_START_STATUS.READY 0 1, ({ } : CmdHdr), (1 : Byte), (2 : Word), (0 : Nat), ((BitVec.ofNat 32 (crc32 [1,
    2])) : Word), (.remote (some [1, 2]) : Fetch), ([1, 2] : List Byte), by unfold Dev.CarriesOut; decide +kernel⟩,
  ⟨onReset fun d => ({ d with images := [(1, [7])] }).put CUR_START_STATUS.READY 0 1, ({ } : CmdHdr), (1 : Byte), (true : Bool), (true :
    Bool), (3 : Fin 65536), by unfold Dev.CarriesOut; decide +kernel⟩,
  ⟨{ (onReset fun d => d.put CUR_START_STATUS.READY 0 1) with nv := { State.reset.nv with fwB := { checked := true } } }, ({ } : CmdHdr),
    (1 : Byte), (0 : Byte), by unfold Dev.CarriesOut; decide +kernel⟩,
  ⟨onReset fun d => d.put CUR_START_STATUS.READY 0 1, ({ } : CmdHdr), (3 : Byte), (2 : Byte), by unfold Dev.CarriesOut; decide +kernel⟩,
  ⟨onReset fun d => d.put CUR_START_STATUS.READY 0 1, ({ } : CmdHdr), (3 : Byte), (1 : Byte), (16 : Word), (31 : Word), (0 : Word), (5 :
    Word), (4096 : Nat), by unfold Dev.CarriesOut; decide +kernel⟩,
  ⟨onReset fun d => ({ hostDev d with booted := true }).put CUR_START_STATUS.READY 0 1, ({ } : CmdHdr), (0x5120 : Word),
    by unfold Dev.CarriesOut; decide +kernel⟩⟩

theorem witness_MailboxesAndVmf :
  (∃ (s : State) (master : Fin 2048) (channel : Fin 256) (value : Word), s.dev.supply = .on) ∧
  (∃ (s : State) (master : Fin 2048) (channel : Fin 256) (value : Word), s.dev.supply = .on) ∧
  (∃ (s : State) (master : Fin 2048) (value : Word), s.dev.supply = .on) ∧
  (∃ (s : State) (master : Fin 2048) (reason : Fin 16) (channel : Fin 256), s.dev.supply = .on) ∧
  (∃ (s : State) (lvid : Fin 1024), s.dev.supply = .on) ∧
  (∃ (s : State) (lvid : Fin 1024), s.dev.supply = .on) ∧
  (∃ (s : State) (lvid : Fin 1024) (r : Nat × Nat × Bool) (rest : List (Nat × Nat × Bool)), s.dev.supply = .on ∧ (s.dev.vmf lvid).reads =
    r :: rest) :=
  ⟨⟨onReset fun d => (d.put MBX_BIND.VALID 16 1).put MBX_BIND.SENDER 16 17, (17 : Fin 2048), (16 : Fin 256), (3 : Word),
    by decide +kernel⟩,
  ⟨onReset fun d => ({ d with chans := [(16, [1, 2])] }.put MBX_BIND.VALID 16 1).put MBX_BIND.RECEIVER 16 17, (17 : Fin 2048), (16 : Fin
    256), (1 : Word), by decide +kernel⟩,
  ⟨onReset fun d => d.put MBX_LOCK.LOCK 0 0, (0 : Fin 2048), (1 : Word), by decide +kernel⟩,
  ⟨onReset fun d => ({ d with chans := [(16, [1, 2])] }.put MBX_BIND.VALID 16 1).put MBX_BIND.RECEIVER 16 17, (17 : Fin 2048), (4 : Fin
    16), (16 : Fin 256), by decide +kernel⟩,
  ⟨onReset fun d => { d with vmfs := [(3, { busMaster := true, reads := [(5, 128, false)] })] }, (3 : Fin 1024), by decide +kernel⟩,
  ⟨onReset fun d => { d with vmfs := [(3, { busMaster := true })] }, (3 : Fin 1024), by decide +kernel⟩,
  ⟨onReset fun d => { d with vmfs := [(3, { busMaster := true, reads := [(5, 128, false)] })] }, (3 : Fin 1024), ((5, 128, false) : Nat ×
    Nat × Bool), ([] : List (Nat × Nat × Bool)), by decide +kernel⟩⟩

theorem witness_DocentCores :
  (∃ (s : State) (master : Fin 2048) (core : Fin 16) (value : Word), s.dev.supply = .on) ∧
  (∃ (s : State) (master : Fin 2048) (core : Fin 16) (value : Word), s.dev.supply = .on) ∧
  (∃ (s : State) (core : Fin 16), s.dev.supply = .on ∧ s.dev.coreRuns core = true) ∧
  (∃ (s : State) (core : Fin 16), s.dev.supply = .on ∧ s.dev.coreRuns core = true) ∧
  (∃ (s : State) (core : Fin 16) (addr : Nat) (data : List Byte), s.dev.supply = .on ∧ s.dev.coreRuns core = true ∧ docentRefuses addr
    data.length 2 = none) ∧
  (∃ (s : State) (core : Fin 16) (cached : Bool) (e : StbEntry), s.dev.supply = .on ∧ (((s.dev.core core).stb.find? fun e => cachedAt
    (e.line * 64) == cached) = some e)) ∧
  (∃ (s : State) (core : Fin 16) (addr : Nat) (bytes : Fin 9) (constrained : Bool), s.dev.supply = .on ∧ s.dev.coreRuns core = true ∧
    docentRefuses addr bytes 1 = none ∧ cachedAt addr = true) ∧
  (∃ (s : State) (core : Fin 16) (addr : Nat) (data : List Byte) (spurious : Bool), s.dev.supply = .on ∧ s.dev.coreRuns core = true ∧
    docentRefuses addr data.length 2 = none ∧ cachedAt addr = true ∧ addr % data.length = 0) ∧
  (∃ (s : State) (core : Fin 16) (addr : Nat) (kind : Fin 3), s.dev.supply = .on ∧ s.dev.coreRuns core = true ∧ cachedAt addr = false ∧
    docentRefuses addr 4 1 = none) ∧
  (∃ (s : State) (core : Fin 16) (taken : Bool), s.dev.supply = .on) ∧
  (∃ (s : State) (core : Fin 16) (addr : Nat) (bytes : Fin 9) (kind : Fin 3), s.dev.supply = .on ∧ s.dev.coreRuns core = true) :=
  ⟨⟨onReset fun d => (d.put DOC_CORE_CTL.RUN 3 0).put DOC_CORE_STATUS.STATE 3 0, (0 : Fin 2048), (3 : Fin 16), (0x80000000 : Word),
    by decide +kernel⟩,
  ⟨onReset fun d => (d.put DOC_CORE_CTL.RUN 3 1), (0 : Fin 2048), (3 : Fin 16), (0 : Word), by decide +kernel⟩,
  ⟨onReset fun d => { d with cores := [(3, { stb := [{ line := 5 }] })] }.put DOC_CORE_STATUS.STATE 3 1, (3 : Fin 16), by decide +kernel⟩,
  ⟨onReset fun d => (d.put DOC_CORE_STATUS.STATE 3 1), (3 : Fin 16), by decide +kernel⟩,
  ⟨onReset fun d => (d.put DOC_CORE_STATUS.STATE 3 1), (3 : Fin 16), (8192 : Nat), ([7] : List Byte), by decide +kernel⟩,
  ⟨onReset fun d => { d with cores := [(3, { stb := [{ line := 128, bytes := [(4, 9)] }] })] }, (3 : Fin 16), (true : Bool),
    ({ line := 128, bytes := [(4, 9)] } : StbEntry), by decide +kernel⟩,
  ⟨onReset fun d => (d.put DOC_CORE_STATUS.STATE 3 1), (3 : Fin 16), (8192 : Nat), (8 : Fin 9), (true : Bool), by decide +kernel⟩,
  ⟨onReset fun d => { d with cores := [(3, { reserved := some 128 })] }.put DOC_CORE_STATUS.STATE 3 1, (3 : Fin 16), (8192 : Nat), ([7] :
    List Byte), (false : Bool), by decide +kernel⟩,
  ⟨onReset fun d => (d.put DOC_CORE_STATUS.STATE 3 1), (3 : Fin 16), (0x808000000 : Nat), (2 : Fin 3), by decide +kernel⟩,
  ⟨onReset fun d => ((({ d with now := 6400 }).put DOC_CORE_STATUS.STATE 3 2).put DOC_MTIMECMP_LO.CMP 3 4).put DOC_MTIMECMP_HI.CMP 3 0, (3
    : Fin 16), (true : Bool), by decide +kernel⟩,
  ⟨onReset fun d => (d.put DOC_CORE_STATUS.STATE 3 1), (3 : Fin 16), (16 : Nat), (8 : Fin 9), (2 : Fin 3), by decide +kernel⟩⟩

theorem witness_FabricWindow :
  (∃ (s : State) (master : Fin 2048) (w : WinStore) (rest : List WinStore), s.dev.supply = .on ∧ ((s.dev.winStores.filter fun w =>
    w.master == master.val) = w :: rest)) ∧
  (∃ (s : State) (master : Fin 2048) (x : WinWord), s.dev.supply = .on ∧ master.val = 0 ∧ ((s.dev.winStores.filter fun w => w.master ==
    master.val) = [])) ∧
  (∃ (s : State) (master : Fin 2048) (off : Nat) (bytes : Fin 9), s.dev.supply = .on ∧ s.dev.loadReady master = true) ∧
  (∃ (s : State) (master : Fin 2048), s.dev.supply = .on ∧ ((s.dev.winReads.any fun r => r.master == master.val && r.prefetch &&
    r.tag.isNone) = true)) ∧
  (∃ (s : State) (master : Fin 2048), s.dev.supply = .on ∧ ((s.dev.winReads.any fun r => r.master == master.val && !r.detached) = true)) ∧
  (∃ (s : State) (master : Fin 2048) (r : WinRead) (data : List Byte), s.dev.supply = .on ∧ (s.dev.readsOf master).all (·.detached) = true
    ∧ ((s.dev.winReads.find? fun r => r.master == master.val && r.parked.isSome) = some r) ∧ r.parked = some data) ∧
  (∃ (s : State) (handle : Fin 262144) (status : Fin 8) (e : Trk), s.dev.supply = .on ∧ SMap.find s.dev.trk handle = some e ∧ e.gvh =
    gvhWindow ∧ e.edge ≠ .completer ∧ status ≠ 0) ∧
  (∃ (s : State), s.dev.supply = .on) :=
  ⟨⟨onReset fun d => ({ d with winStores := [{ master := 19, entry := 2, addr := 64, value := 9 }] }.put EBR_RAT_TARGET.FPID 2 5).put
    SLC_CONT_STATE.STATE 5 1, (19 : Fin 2048), ({ master := 19, entry := 2, addr := 64, value := 9 } : WinStore), ([] : List WinStore),
    by decide +kernel⟩,
  ⟨onReset fun d => (((d.put EBR_RAT_BASE.VALID 0 1).put EBR_RAT_LIMIT.LIMIT_PG 0 9).put EBR_RAT_ATTR.CURATOR 0 1).put EBR_RAT_ATTR.WRITE
    0 1, (0 : Fin 2048), ({ off := 64, value := 9, be := 15 } : WinWord), by decide +kernel⟩,
  ⟨onReset fun d => (((d.put EBR_RAT_BASE.VALID 0 1).put EBR_RAT_LIMIT.LIMIT_PG 0 9).put EBR_RAT_ATTR.CURATOR 0 1).put EBR_RAT_ATTR.MODE 0
    1, (0 : Fin 2048), (64 : Nat), (8 : Fin 9), by decide +kernel⟩,
  ⟨onReset fun d => { d with winReads := [{ master := 0, addr := 64, bytes := 8, entry := 0, prefetch := true }] }, (0 : Fin 2048),
    by decide +kernel⟩,
  ⟨onReset fun d => { d with winReads := [{ master := 19, addr := 64, bytes := 8, entry := 0 }] }, (19 : Fin 2048), by decide +kernel⟩,
  ⟨onReset fun d =>
    { d with winReads := [{ master := 19, addr := 64, bytes := 8, entry := 0, detached := true, parked := some [1, 2] }] }, (19 : Fin
    2048), ({ master := 19, addr := 64, bytes := 8, entry := 0, detached := true, parked := some [1, 2] } : WinRead), ([1, 2] : List
    Byte), by decide +kernel⟩,
  ⟨onReset fun d =>
    { d with trk := [(4, { openEntry with gvh := gvhWindow, edge := .requester, tag := 9 })], winReads := [{ master := 19, addr := 64, bytes := 8, entry := 0, tag := some 9 }] },
    (4 : Fin 262144), (1 : Fin 8), ({ openEntry with gvh := gvhWindow, edge := .requester, tag := 9 } : Trk), by decide +kernel⟩,
  ⟨onReset fun d => { d with now := 2 ^ 30, pfLines := [{ entry := 0, line := 5 }] }, by decide +kernel⟩⟩

theorem witness_FabricTime :
  (∃ (s : State) (port : Fin 512), s.dev.supply = .on ∧ s.dev.linkServing port = true) ∧
  (∃ (s : State) (port : Fin 512) (m : TimeMsg) (arrival : Nat) (replayed : Bool), s.dev.supply = .on ∧ s.dev.linkServing port = true) ∧
  (∃ (s : State) (port : Fin 512) (arrival : Nat) (replayed : Bool), s.dev.supply = .on ∧ s.dev.linkServing port = true) ∧
  (∃ (s : State) (port : Fin 512) (stamp : Nat) (replayed : Bool) (x : Exchange), s.dev.supply = .on ∧ s.dev.time.exch = some x ∧ x.port =
    port) ∧
  (∃ (s : State), s.dev.supply = .on ∧ s.dev.is TIM_STATE.ROOT 0 = false) ∧
  (∃ (s : State) (seconds : Option Nat), s.dev.supply = .on ∧ s.dev.get TIM_SRC_CFG.SOURCE 0 = 2) ∧
  (∃ (s : State), s.dev.supply = .on ∧ s.dev.get TIM_SRC_CFG.SOURCE 0 ≠ 0) ∧
  (∃ (s : State) (action : TimedAction) (i : Nat), s.dev.supply = .on ∧ s.dev.instant action = some i) ∧
  (∃ (s : State) (ahead : Int), s.dev.supply = .on ∧ s.dev.get TIM_SRC_CFG.SOURCE 0 = 1) :=
  ⟨⟨onReset fun d => ((d.put PRT_PORT_CFG.KIND 8 4).put FLL_LINK_STATUS.STATE 8 2), (8 : Fin 512), by decide +kernel⟩,
  ⟨onReset fun d => ((d.put PRT_PORT_CFG.KIND 8 4).put FLL_LINK_STATUS.STATE 8 2), (8 : Fin 512), ({ kind := .sync } : TimeMsg), (5 :
    Nat), (false : Bool), by decide +kernel⟩,
  ⟨onReset fun d => ((d.put PRT_PORT_CFG.KIND 8 4).put FLL_LINK_STATUS.STATE 8 2), (8 : Fin 512), (5 : Nat), (false : Bool),
    by decide +kernel⟩,
  ⟨onReset fun d => { d with time := { d.time with exch := some { port := 8, t1 := 10, t2 := 20, t3 := some 30 } } }, (8 : Fin 512), (40 :
    Nat), (false : Bool), ({ port := 8, t1 := 10, t2 := 20, t3 := some 30 } : Exchange), by decide +kernel⟩,
  ⟨onReset fun d => ({ d with time := { d.time with heard := [(8, { cls := 1, prio := 1, modul := 2, hops := 0 })] } }.put TIM_STATE.ROOT
    0 0).put TIM_STATE.PARENT 0 8, by decide +kernel⟩,
  ⟨onReset fun d => d.put TIM_SRC_CFG.SOURCE 0 2, (some 0 : Option Nat), by decide +kernel⟩,
  ⟨onReset fun d => d.put TIM_SRC_CFG.SOURCE 0 2, by decide +kernel⟩,
  ⟨onReset fun d => d, (.pins : TimedAction), (0 : Nat), by decide +kernel⟩,
  ⟨onReset fun d => d.put TIM_SRC_CFG.SOURCE 0 1, (50 : Int), by decide +kernel⟩⟩

theorem witness_Telemetry :
  (∃ (s : State) (tenant : Option (Fin 1024)), s.dev.supply = .on ∧ (s.dev.cat (streamNo tenant)).due s.dev.now = true) ∧
  (∃ (s : State) (tenant : Option (Fin 1024)) (x : CatDump), s.dev.supply = .on ∧ (s.dev.cat (streamNo tenant)).writing = some x) ∧
  (∃ (s : State) (tlp : Sampled) (n : Nat), s.dev.supply = .on ∧ n ∈ s.dev.spcs.map (·.1) ∧ (s.dev.spc n).takes tlp = true ∧ ((s.dev.spc
    n).k = 0 ∨ (SMap.get 0 (s.dev.spc n).seen tlp.die + 1) % 2 ^ (s.dev.spc n).k = 0)) ∧
  (∃ (s : State) (sample : Nat) (result : SampleEnd) (room : Bool) (x : Sample), s.dev.supply = .on ∧ s.dev.samples[sample]? = some x) ∧
  (∃ (s : State) (which : Fin 3) (on : Bool), s.dev.supply = .on) :=
  ⟨⟨onReset fun d => { d with now := 2 ^ 40, cats := [(0, { scope := 1, period := 100, ring := 4096, banks := 1 })] }, (none : Option (Fin
    1024)), by decide +kernel⟩,
  ⟨onReset fun d =>
    { d with cats := [(0, { scope := 1, period := 100, ring := 4096, banks := 1, writing := some { first := 0, banks := 1, ftime := 0, atStep := false, tstate := 0, full := false, skipped := 0, words := [] } })] },
    (none : Option (Fin 1024)),
    ({ first := 0, banks := 1, ftime := 0, atStep := false, tstate := 0, full := false, skipped := 0, words := [] } : CatDump),
    by decide +kernel⟩,
  ⟨onReset fun d => { d with spcs := [(0, { on := true, mask := 2047, port := 0xFFFFFFFF, gvh := 0xFFFFFFFF, ring := 4096 })] },
    ({ kind := 1 } : Sampled), (0 : Nat), by decide +kernel⟩,
  ⟨onReset fun d => { d with spcs := [(0, { on := true, ring := 4096 })], samples := [⟨0, 5, true, { }⟩] }, (0 : Nat), ({ } : SampleEnd),
    (true : Bool), (⟨0, 5, true, { }⟩ : Sample), by decide +kernel⟩,
  ⟨onReset fun d => d, (0 : Fin 3), (true : Bool), by decide +kernel⟩⟩

theorem witness_Reliability :
  (∃ (s : State) (pair : Fin 2), s.dev.supply = .on) ∧
  (∃ (s : State), s.dev.supply = .on ∧ s.dev.curatorDown = true ∧ s.dev.is CUR_PAIR_STATUS.STANDBY_OK 0 = true) ∧
  (∃ (s : State) (passed : Bool), s.dev.supply = .on ∧ s.dev.curatorDown = false ∧ s.dev.pairState (1 - s.dev.get CUR_PAIR_STATUS.ACTIVE
    0) = 2) ∧
  (∃ (s : State) (table : Fin 7) (entry : Word) (both : Bool), s.dev.supply = .on) ∧
  (∃ (s : State) (found : List (Fin 7 × Word)), s.dev.supply = .on) ∧
  (∃ (s : State) (die : Fin 7), s.dev.supply = .on) ∧
  (∃ (s : State) (offset : Nat) (reader : Option (Fin 16 × Bool)), s.dev.supply = .on ∧ s.dev.armedFor 9 (offset / 8 * 8) = false) ∧
  (∃ (s : State), s.dev.supply = .on) ∧
  (∃ (s : State) (die : Fin 4) (lane : Fin 512), s.dev.supply = .on ∧ dieOf lane = die.val ∧ s.dev.laneState lane ≠ 9) ∧
  (∃ (s : State), s.dev.supply = .on) :=
  ⟨⟨onReset fun d => ((d.put CUR_PAIR_STATUS.ACTIVE 0 0).put CUR_PAIR_STATUS.A_STATE 0 0), (0 : Fin 2), by decide +kernel⟩,
  ⟨onReset fun d => (((d.put CUR_PAIR_STATUS.ACTIVE 0 0).put CUR_PAIR_STATUS.A_STATE 0 2).put CUR_PAIR_STATUS.STANDBY_OK 0 1).put
    CUR_PAIR_STATUS.B_STATE 0 1, by decide +kernel⟩,
  ⟨onReset fun d => ((d.put CUR_PAIR_STATUS.ACTIVE 0 0).put CUR_PAIR_STATUS.A_STATE 0 0).put CUR_PAIR_STATUS.B_STATE 0 2, (true : Bool),
    by decide +kernel⟩,
  ⟨onReset fun d => d.put RTE_MRT.VALID 9 1, (0 : Fin 7), (9 : Word), (true : Bool), by decide +kernel⟩,
  ⟨onReset fun d => d, ([(3, 9)] : List (Fin 7 × Word)), by decide +kernel⟩,
  ⟨onReset fun d => d, (3 : Fin 7), by decide +kernel⟩,
  ⟨onReset fun d => d, (regionEventLog.1 + 128 : Nat), (none : Option (Fin 16 × Bool)), by decide +kernel⟩,
  ⟨onReset fun d => d, by decide +kernel⟩,
  ⟨onReset fun d => d, (1 : Fin 4), (130 : Fin 512), by decide +kernel⟩,
  ⟨onReset fun d => ({ d with candidates := [⟨3, true, 0⟩], hubPort := some 3 }.put USH_OWNER.VALID 0 1).put USH_OWNER.PORT 0 3,
    by decide +kernel⟩⟩

theorem witness_CoolingAgeingAndRails :
  (∃ (s : State), s.dev.supply = .on) ∧
  (∃ (s : State), s.dev.supply = .on) ∧
  (∃ (s : State) (die : Fin 7) (temp : Byte), s.dev.supply = .on) ∧
  (∃ (s : State) (die : Fin 7), s.dev.supply = .on) ∧
  (∃ (s : State) (temp : Byte), s.dev.supply = .on) ∧
  (∃ (s : State) (die : Fin 7) (pairs : List (Nat × Nat)) (temp : Byte), s.dev.supply = .on) ∧
  (∃ (s : State) (rail : Fin 7), s.dev.supply = .on ∧ (((s.dev.rail rail).raisedAt.any fun x => decide (sinceTicks x s.dev.now < msTicks
    1)) = false) ∧ s.dev.get HLT_RAIL_NOW.DROOP_ADD_MV rail + 5 ≤ s.dev.get HLT_DROOP_CFG.MAX_MV 0 ∧ s.dev.setPoint rail + 5 *
    ((s.dev.rail rail).raises + 1) ≤ 900) ∧
  (∃ (s : State) (rail : Fin 7) (up : Bool) (n : Nat), s.dev.supply = .on ∧ (s.dev.rail rail).step = some (up, n)) ∧
  (∃ (s : State) (rail : Fin 7) (vout : Fin 65536) (up : Bool) (n : Nat), s.dev.supply = .on ∧ (s.dev.rail rail).step = some (up, n)) ∧
  (∃ (s : State) (run : PlanRun), s.dev.supply = .on ∧ ((run.weekly && s.dev.is HLT_PLAN_CTL.WEEKLY 0) = true ∨ s.dev.get
    HLT_PLAN_STATUS.STATE 0 = 1)) ∧
  (∃ (s : State) (master : Fin 2048) (value : Word), s.dev.supply = .on) :=
  ⟨⟨onReset fun d => d, by decide +kernel⟩,
  ⟨onReset fun d => d, by decide +kernel⟩,
  ⟨onReset fun d => d, (2 : Fin 7), (105 : Byte), by decide +kernel⟩,
  ⟨onReset fun d => d, (2 : Fin 7), by decide +kernel⟩,
  ⟨onReset fun d => d, (50 : Byte), by decide +kernel⟩,
  ⟨onReset fun d => d, (2 : Fin 7), ([(990, 1000)] : List (Nat × Nat)), (40 : Byte), by decide +kernel⟩,
  ⟨onReset fun d => (d.put HLT_DROOP_CFG.MAX_MV 0 50).put HLT_RAIL_NOW.SETPOINT_MV 2 780, (2 : Fin 7), by decide +kernel⟩,
  ⟨onReset fun d => { d with rails := [(2, { step := some (true, 1), raises := 1 })] }.put HLT_RAIL_NOW.SETPOINT_MV 2 780, (2 : Fin 7),
    (true : Bool), (1 : Nat), by decide +kernel⟩,
  ⟨onReset fun d => { d with rails := [(2, { step := some (true, 1), raises := 1 })] }.put HLT_RAIL_NOW.SETPOINT_MV 2 780, (2 : Fin 7),
    (780 : Fin 65536), (true : Bool), (1 : Nat), by decide +kernel⟩,
  ⟨onReset fun d => d.put HLT_PLAN_CTL.WEEKLY 0 1, ({ weekly := true, hours := 10 } : PlanRun), by decide +kernel⟩,
  ⟨onReset fun d => d, (0 : Fin 2048), (0x80000000 : Word), by decide +kernel⟩⟩

theorem witness_StartUpAndFormation :
  (∃ (s : State) (run : StartRun), s.dev.supply = .on ∧ s.dev.feeds ≠ [] ∧ s.dev.get CUR_START_STATUS.STEP 0 = 0 ∧ bootImage s.nv run =
    none) ∧
  (∃ (s : State) (run : StartRun) (image : Nat), s.dev.supply = .on ∧ s.dev.feeds ≠ [] ∧ s.dev.get CUR_START_STATUS.STEP 0 = 0 ∧
    s.dev.halted = false ∧ bootImage s.nv run = some image) ∧
  (∃ (s : State) (group : Fin 7), s.dev.supply = .on ∧ s.dev.get CUR_START_STATUS.STEP 0 = 6) ∧
  (∃ (s : State) (ms : Word) (late : Bool) (steps : List (Fin 4096)), s.dev.supply = .on ∧ s.dev.get CUR_START_STATUS.STEP 0 = 7 ∧ (late
    || s.dev.allTrained s.nv) = true) ∧
  (∃ (s : State) (port : Fin 512), s.dev.supply = .on ∧ s.dev.fabricPort port = true ∧ s.dev.linkState port = 2) ∧
  (∃ (s : State) (port : Fin 512) (m : HelloMsg), s.dev.supply = .on ∧ s.dev.fabricPort port = true ∧ s.dev.linkState port = 2) ∧
  (∃ (s : State) (port : Fin 512) (msg : AdjMsg), s.dev.supply = .on ∧ msg.origin.serial ≠ s.nv.serial) ∧
  (∃ (s : State) (directory : List (Nat × Fin 8192)), s.dev.supply = .on ∧ s.dev.conflict = false) ∧
  (∃ (s : State) (port : Fin 512) (target : Nat) (id : Fin 8192) (registrar : Fin 8192), s.dev.supply = .on ∧ s.dev.linkState port = 2) ∧
  (∃ (s : State) (gen : Nat) (homes : List (Nat × Fin 8192)), s.dev.supply = .on ∧ s.dev.is CUR_START_STATUS.REGISTRAR 0 = true) ∧
  (∃ (s : State) (before : List RouteEntry) (e : RouteEntry) (sent : List (Fin 8192 × List Nat)), s.dev.supply = .on ∧ s.dev.is
    RTE_MODULE_ID.ASSIGNED 0 = true) ∧
  (∃ (s : State) (lvid : Fin 1024) (vitrine : StoredVitrine), s.dev.supply = .on ∧ s.dev.is RTE_MODULE_ID.ASSIGNED 0 = true ∧
    s.dev.edgeUsable vitrine.port = true ∧ s.dev.hostFacing vitrine.port = true ∧ s.dev.vitrineOfPort vitrine.port = none ∧ s.dev.idFree
    lvid = true ∧ s.dev.idAllowed lvid = true ∧ s.dev.poolShort vitrine.port
    { lvid := lvid, nvdp := vitrine.nvdp, cto := vitrine.cto, silent := vitrine.silent, slotPower := vitrine.slotPower, minimum := vitrine.minimum, quota := vitrine.quota, shapers := vitrine.shapers.length, channels := vitrine.channels }
    false = none) ∧
  (∃ (s : State) (e : Nat), s.dev.supply = .on ∧ s.dev.elected = some e ∧ e ≠ s.nv.serial) :=
  ⟨⟨onReset fun d => d.put PWR_FEED_A.PRESENT 0 1, ({ signedA := false, signedB := false } : StartRun), by decide +kernel⟩,
  ⟨onReset fun d => d.put PWR_FEED_A.PRESENT 0 1, ({ } : StartRun), (0 : Nat), by decide +kernel⟩,
  ⟨onReset fun d => d.put CUR_START_STATUS.STEP 0 6, (6 : Fin 7), by decide +kernel⟩,
  ⟨onReset fun d => d.put CUR_START_STATUS.STEP 0 7, (5000 : Word), (true : Bool), ([] : List (Fin 4096)), by decide +kernel⟩,
  ⟨onReset fun d => ((d.put PRT_PORT_CFG.KIND 8 4).put FLL_LINK_STATUS.STATE 8 2), (8 : Fin 512), by decide +kernel⟩,
  ⟨onReset fun d => ((d.put PRT_PORT_CFG.KIND 8 4).put FLL_LINK_STATUS.STATE 8 2), (8 : Fin 512), ({ serial := 77 } : HelloMsg),
    by decide +kernel⟩,
  ⟨onReset fun d => d, (8 : Fin 512), ({ origin := { serial := 77 }, aseq := 3 } : AdjMsg), by decide +kernel⟩,
  ⟨onReset fun d => d, ([] : List (Nat × Fin 8192)), by decide +kernel⟩,
  ⟨onReset fun d => ((d.put PRT_PORT_CFG.KIND 8 4).put FLL_LINK_STATUS.STATE 8 2), (8 : Fin 512), ((onReset fun d => ((d.put
    PRT_PORT_CFG.KIND 8 4).put FLL_LINK_STATUS.STATE 8 2)).nv.serial : Nat), (5 : Fin 8192), (2 : Fin 8192), by decide +kernel⟩,
  ⟨onReset fun d => d.put CUR_START_STATUS.REGISTRAR 0 1, (9 : Nat), ([] : List (Nat × Fin 8192)), by decide +kernel⟩,
  ⟨onReset fun d => d.put RTE_MODULE_ID.ASSIGNED 0 1, ([] : List RouteEntry), ({ dest := 7, dist := 1, group := 2, ports := [8] } :
    RouteEntry), ([] : List (Fin 8192 × List Nat)), by decide +kernel⟩,
  ⟨onReset fun d => (d.put RTE_MODULE_ID.ASSIGNED 0 1).put PRT_PORT_CFG.KIND 3 1, (2 : Fin 1024), ({ gvh := 77, port := 3 } :
    StoredVitrine), by decide +kernel⟩,
  ⟨onReset fun d => { d with elected := some 77, topo := [{ info := { serial := 77 } }] }, (77 : Nat), by decide +kernel⟩⟩

theorem witness_PowerStates :
  (∃ (s : State), s.dev.supply = .on ∧ s.dev.attemptDue = true ∧ s.dev.quietConditions = true) ∧
  (∃ (s : State) (master : Fin 2048) (value : Word), s.dev.supply = .on) ∧
  (∃ (s : State), s.dev.supply = .on ∧ s.dev.is PWR_MODE.ARM 0 = true) ∧
  (∃ (s : State) (nak : Option (Fin 512)), s.dev.supply = .on ∧ s.dev.is PWR_PS_STATUS.ENTERING 0 = true ∧ s.dev.get PWR_MODE.TARGET 0 =
    2) ∧
  (∃ (s : State) (event : Fin 10), s.dev.supply = .on ∧ s.dev.get PWR_PS_STATUS.STATE 0 = 2 ∧ s.dev.entering = false) ∧
  (∃ (s : State), s.dev.supply = .on ∧ s.dev.is PWR_WAKE.REPLAY_PENDING 0 = true ∧ s.dev.entering = false ∧ s.dev.get PWR_PS_STATUS.STATE
    0 = 2) ∧
  (∃ (s : State) (master : Fin 2048) (value : Word), s.dev.supply = .on) ∧
  (∃ (s : State), s.dev.supply = .on ∧ s.dev.is PWR_PS_STATUS.ENTERING 0 = true ∧ s.dev.get PWR_MODE.TARGET 0 = 3) ∧
  (∃ (s : State), True) :=
  ⟨⟨onReset fun d => ({ d with now := 2 ^ 40 }.put PWR_MODE.AUTO 0 1).put CUR_START_STATUS.READY 0 1, by decide +kernel⟩,
  ⟨onReset fun d => d, (0 : Fin 2048), (0x80000002 : Word), by decide +kernel⟩,
  ⟨onReset fun d => (d.put PWR_MODE.ARM 0 1).put PWR_MODE.TARGET 0 2, by decide +kernel⟩,
  ⟨onReset fun d => (d.put PWR_PS_STATUS.ENTERING 0 1).put PWR_MODE.TARGET 0 2, (none : Option (Fin 512)), by decide +kernel⟩,
  ⟨onReset fun d => d.put PWR_PS_STATUS.STATE 0 2, (3 : Fin 10), by decide +kernel⟩,
  ⟨onReset fun d => ({ d with latched := 8 }.put PWR_PS_STATUS.STATE 0 2).put PWR_WAKE.REPLAY_PENDING 0 1, by decide +kernel⟩,
  ⟨onReset fun d => d.put PWR_PAD_HOLD.HELD 0 31, (0 : Fin 2048), (0x30000 : Word), by decide +kernel⟩,
  ⟨onReset fun d => (d.put PWR_PS_STATUS.ENTERING 0 1).put PWR_MODE.TARGET 0 3, by decide +kernel⟩,
  ⟨onReset fun d => { d with supply := .dormant }, by decide +kernel⟩⟩

theorem witness_OrdersReleasesAndAcknowledgements :
  (∃ (s : State) (port : Fin 512) (rate : Fin 8), s.dev.supply = .on ∧ s.dev.configured port = true) ∧
  (∃ (s : State) (cage : Fin 64) (p : Nat), s.dev.supply = .on ∧ s.dev.perstPort cage = some p) ∧
  (∃ (s : State) (cage : Fin 64), s.dev.supply = .on ∧ ((if cage.val < 56 then s.dev.is EF_STATUS.PG cage else (List.range 8).any fun i =>
    s.dev.is LNA_LANE_CFG.ENABLE (cage.val * 8 + i)) = true) ∧ (s.dev.portsInCage cage).any s.dev.deviceFacing = true ∧
    (((s.dev.portsInCage cage).all fun p => (s.dev.portX p).ordered) = false)) ∧
  (∃ (s : State) (remoteWakeup : Bool), s.dev.supply = .on ∧ s.dev.is USH_MUD_CTL.CONNECT 0 = true ∧ s.dev.is USH_MUD_STATUS.CONFIGURED 0
    = true ∧ s.dev.get USH_MUD_STATUS.LINK 0 ≠ 4) ∧
  (∃ (s : State) (modul : Fin 8192) (scope : Fin 4) (id : Fin 1024), s.dev.supply = .on) ∧
  (∃ (s : State) (modul : Fin 8192) (tcut : Nat), s.dev.supply = .on) :=
  ⟨⟨onReset fun d => (((d.put PRT_PORT_CFG.KIND 24 1).put PRT_PORT_CFG.RATE_MAX 24 5).put LNA_LANE_CFG.RATE_MAX 24 5).put
    LNA_LANE_STATE.STATE 24 6, (24 : Fin 512), (3 : Fin 8), by decide +kernel⟩,
  ⟨onReset fun d => { d with ports := [(24, { hostPerst := true })] }.put PRT_PORT_CFG.KIND 24 1, (3 : Fin 64), (24 : Nat),
    by decide +kernel⟩,
  ⟨onReset fun d => (d.put PRT_PORT_CFG.KIND 24 2).put EF_STATUS.PG 3 1, (3 : Fin 64), by decide +kernel⟩,
  ⟨onReset fun d => ((d).put USH_MUD_CTL.CONNECT 0 1).put USH_MUD_STATUS.CONFIGURED 0 1, (true : Bool), by decide +kernel⟩,
  ⟨onReset fun d => { d with notices := [{ modul := 2, object := contObj 0 5 }] }, (2 : Fin 8192), (0 : Fin 4), (5 : Fin 1024),
    by decide +kernel⟩,
  ⟨onReset fun d => d, (2 : Fin 8192), (64 : Nat), by decide +kernel⟩⟩


end Sys2Proof.Machine
end

/-! PROOF. EFUSE_ENABLE (R154, R27): how an allotment becomes a current limit, what the enable of a cage answers, and what it leaves in
the e-fuse's limit. -/

namespace Sys2Proof.Machine

/-! ### From an allotment to a current limit -/

/-- A Scale up to 3 loses nothing of an allotment: 10^Scale divides the 1,000 mW of a watt. -/
theorem splMilliwatts_mul_pow {scale : Nat} (value : Nat) (hs : scale ≤ 3) : splMilliwatts value scale * 10 ^ scale = value * 1000 := by
  have hdvd : 10 ^ scale ∣ value * 10 ^ 3 := Nat.dvd_mul_left_of_dvd (Nat.pow_dvd_pow 10 hs) value
  exact Nat.div_mul_cancel hdvd

theorem le_splMilliamps (mw : Nat) : 250 ≤ splMilliamps mw := Nat.le_max_left _ _

theorem dvd_splMilliamps (mw : Nat) : 25 ∣ splMilliamps mw := by
  unfold splMilliamps
  omega

/-- The limit lets the whole allotment through at 12 V. -/
theorem le_mul_splMilliamps (mw : Nat) : mw ≤ 12 * splMilliamps mw := by
  unfold splMilliamps
  omega

/-- The limit is the least one: 25 mA less would not do, unless it is the minimum of 250 mA. -/
theorem splMilliamps_least (mw : Nat) : splMilliamps mw = 250 ∨ 12 * (splMilliamps mw - 25) < mw := by
  unfold splMilliamps
  omega

/-- An allotment of at most 24 W gives a limit that LIMIT_MA's 13 bits hold. -/
theorem splMilliamps_mod {mw : Nat} (h : mw ≤ 24000) : splMilliamps mw % 2 ^ EF_CTL.LIMIT_MA.width = splMilliamps mw := by
  have hle : splMilliamps mw ≤ 2000 := by
    unfold splMilliamps
    omega
  exact Nat.mod_eq_of_lt (Nat.lt_of_le_of_lt hle (by decide))

/-! ### The outcomes of an enable -/

/-- The module after an allotment was refused: SPL_REFUSED on every port of the cage (R154). -/
def Dev.refuseAllotment (d : Dev) (c : Nat) : Dev :=
  d.forEach (d.portsInCage c) fun d p => d.raise EBR_EVENTS.SPL_REFUSED p (d.portEv p)

/-- The module after an allotment was taken: charged to the pool, rescaled into the limit, told to the ports, and the gate turned on
where the e-fuse was OFF (R154, R155, R349, R350). -/
def Dev.takeAllotment (d : Dev) (c value scale priority : Nat) : Dev :=
  let mw := splMilliwatts value scale
  let charged := (d.chargeCage c mw).setEfuse c fun e => { e with value := value, scale := scale }
  let limited := (charged.setLimit c (splMilliamps mw)).put EF_CTL.PRIORITY c priority
  (limited.tellSpl c).when (d.efState c == 0) (·.startRamp c)

/-- With no rail above 100 °C and the e-fuse neither LATCHED nor DAMAGED, only R154's limit and R27's pool decide an enable. -/
theorem Dev.tryCage_eq {d : Dev} {c : Nat} (value scale priority : Nat)
    (hcool : ∀ r ∈ List.range 7, signedOf 8 (d.get HLT_RAIL_AGE.TEMP_C r) ≤ 100) (h4 : d.efState c ≠ 4) (h5 : d.efState c ≠ 5) :
    d.tryCage c value scale priority =
      if 24000 < splMilliwatts value scale then (Status.limitExceeded, 0, d.refuseAllotment c)
      else if d.cageRoom c < splMilliwatts value scale then (Status.budgetExceeded, d.cageRoom c / 1000, d.refuseAllotment c)
      else (Status.ok, 0, d.takeAllotment c value scale priority) := by
  have hhot : ¬((List.range 7).any fun r => decide (100 < signedOf 8 (d.get HLT_RAIL_AGE.TEMP_C r))) = true := by
    simpa only [List.any_eq_true, decide_eq_true_eq, not_exists, not_and, Int.not_lt] using hcool
  unfold Dev.tryCage
  rw [if_neg hhot, if_neg h5, if_neg h4]
  rfl

/-- EFUSE_ENABLE ends with the status of its test, whatever that is. -/
theorem Dev.enableCage_ends (d : Dev) (h : CmdHdr) (c value scale priority : Nat) :
    (d.enableCage h c value scale priority).Ends h 0x0602 (d.tryCage c value scale priority).1 := Dev.finish_ends ..

theorem Dev.enableCage_get_limit (d : Dev) (h : CmdHdr) (c value scale priority : Nat) (i : Nat) :
    (d.enableCage h c value scale priority).get EF_CTL.LIMIT_MA i = (d.tryCage c value scale priority).2.2.get EF_CTL.LIMIT_MA i :=
  Dev.finish_keeps.get EF_CTL.LIMIT_MA i

/-! ### The limit after an enable -/

/-- The limit that was written stays, even where it engages at once and the fault timer starts (R352, R358). -/
theorem Dev.setLimit_get_limit (d : Dev) (n ma : Nat) :
    (d.setLimit n ma).get EF_CTL.LIMIT_MA n = ma % 2 ^ EF_CTL.LIMIT_MA.width := by
  have hk : ∀ e : Dev, ∀ b : Bool, Dev.Keeps _ _ e (e.when b (·.limitReached n)) := fun e _ =>
    (Dev.Keeps.refl _ _ e).when fun _ h => h.trans Dev.limitReached_keeps
  calc (d.setLimit n ma).get EF_CTL.LIMIT_MA n
      = (d.put EF_CTL.LIMIT_MA n ma).get EF_CTL.LIMIT_MA n := (hk _ _).get EF_CTL.LIMIT_MA n
    _ = ma % 2 ^ EF_CTL.LIMIT_MA.width := d.get_put_self EF_CTL.LIMIT_MA n ma

/-- A refused allotment leaves the e-fuse's registers alone (R154). -/
theorem Dev.refuseAllotment_keeps (d : Dev) (c : Nat) : Dev.Keeps (.EBR_EVENTS :: recordRegs) recordParts d (d.refuseAllotment c) :=
  (Dev.Keeps.refl _ _ d).forEach fun _ _ h => h.trans (Dev.raise_keeps (f := EBR_EVENTS.SPL_REFUSED) (by decide))

/-- Telling the ports and turning the gate on leaves the limit alone, so a taken allotment's limit is the one written. -/
theorem Dev.takeAllotment_get_limit (d : Dev) (c value scale priority : Nat) :
    (d.takeAllotment c value scale priority).get EF_CTL.LIMIT_MA c =
      splMilliamps (splMilliwatts value scale) % 2 ^ EF_CTL.LIMIT_MA.width := by
  unfold Dev.takeAllotment
  extract_lets mw charged limited
  have hramp : Dev.Keeps [.EF_STATUS] [.efQueue] (limited.tellSpl c) ((limited.tellSpl c).when (d.efState c == 0) (·.startRamp c)) :=
    (Dev.Keeps.refl _ _ _).when fun _ h => h.trans Dev.startRamp_keeps
  calc ((limited.tellSpl c).when (d.efState c == 0) (·.startRamp c)).get EF_CTL.LIMIT_MA c
      = (limited.tellSpl c).get EF_CTL.LIMIT_MA c := hramp.get EF_CTL.LIMIT_MA c
    _ = limited.get EF_CTL.LIMIT_MA c := Dev.tellSpl_keeps.get EF_CTL.LIMIT_MA c
    _ = (charged.setLimit c (splMilliamps mw)).get EF_CTL.LIMIT_MA c := Dev.get_put_code _ _ _ _ _ _ (by decide)
    _ = splMilliamps mw % 2 ^ EF_CTL.LIMIT_MA.width := charged.setLimit_get_limit c _

/-! ### The command -/

/-- With its operands in range, a command that the module carries out is the enable of the cage. -/
theorem efuseEnable_runs {s : State} {h : CmdHdr} {cage value scale priority : Byte} (hon : s.dev.supply = .on)
    (hc : s.dev.CarriesOut h 0x0602 [1, 2, 4] s.dev.moduleId) (hcage : cage.toNat < 56) (hscale : scale.toNat ≤ 3)
    (hprio : priority.toNat ≤ 3) :
    exec (.efuseEnable h cage value scale priority) s =
      .next { s with dev := s.dev.enableCage h cage.toNat value.toNat scale.toNat priority.toNat } := by
  change execEfuseEnable h cage value scale priority s = _
  unfold execEfuseEnable
  rw [onDev_on hon, Dev.moduleCommand_runs false _ hc, if_neg (by omega), if_neg (by omega), if_neg (by omega)]

/-- What an enable leaves in the e-fuse's limit, by the branch that decides it. -/
theorem Dev.enableCage_outcome {d : Dev} {c : Nat} (h : CmdHdr) (value scale priority : Nat)
    (hcool : ∀ r ∈ List.range 7, signedOf 8 (d.get HLT_RAIL_AGE.TEMP_C r) ≤ 100) (h4 : d.efState c ≠ 4) (h5 : d.efState c ≠ 5) :
    let e := d.enableCage h c value scale priority
    if 24000 < splMilliwatts value scale then e.Ends h 0x0602 Status.limitExceeded ∧ e.get EF_CTL.LIMIT_MA c = d.get EF_CTL.LIMIT_MA c
    else if d.cageRoom c < splMilliwatts value scale then
      e.Ends h 0x0602 Status.budgetExceeded ∧ e.get EF_CTL.LIMIT_MA c = d.get EF_CTL.LIMIT_MA c
    else e.Ends h 0x0602 Status.ok ∧ e.get EF_CTL.LIMIT_MA c = splMilliamps (splMilliwatts value scale) := by
  intro e
  have hends := d.enableCage_ends h c value scale priority
  have hlimit := d.enableCage_get_limit h c value scale priority c
  rw [Dev.tryCage_eq value scale priority hcool h4 h5] at hends hlimit
  have hrefused := (d.refuseAllotment_keeps c).get EF_CTL.LIMIT_MA c
  by_cases hmax : 24000 < splMilliwatts value scale
  · rw [if_pos hmax] at hends hlimit ⊢
    exact ⟨hends, hlimit.trans hrefused⟩
  · rw [if_neg hmax] at hends hlimit ⊢
    by_cases hroom : d.cageRoom c < splMilliwatts value scale
    · rw [if_pos hroom] at hends hlimit ⊢
      exact ⟨hends, hlimit.trans hrefused⟩
    · rw [if_neg hroom] at hends hlimit ⊢
      have htaken := d.takeAllotment_get_limit c value scale priority
      rw [splMilliamps_mod (Nat.not_lt.1 hmax)] at htaken
      exact ⟨hends, hlimit.trans htaken⟩

/-- Settles O18: the rescaling by arithmetic, the enable by its three outcomes. -/
theorem cageAllotment : Obligations.CageAllotment := by
  refine ⟨fun value _ hs => splMilliwatts_mul_pow value hs,
    fun mw => ⟨le_splMilliamps mw, dvd_splMilliamps mw, le_mul_splMilliamps mw, splMilliamps_least mw⟩, ?_⟩
  intro s h cage value scale priority hon hc hcage hscale hprio hcool h4 h5
  exact ⟨_, efuseEnable_runs hon hc hcage hscale hprio, Dev.enableCage_outcome h _ _ _ hcool h4 h5⟩

end Sys2Proof.Machine

/-! PROOF. LR, SC and AMO outside memory (R415, R417): what the address map answers for device space and the fabric window, and the trap
or the result that a core gets there. -/

namespace Sys2Proof.Machine

/-- An access of n bytes lies in device space or in the fabric window (R406). -/
def InDeviceOrWindow (addr n : Nat) : Prop :=
  0x800000000 ≤ addr ∧ addr + n ≤ ddrBase ∨ windowBase ≤ addr ∧ addr + n ≤ windowBase + windowSize

/-- Device space and the window lie above the first megabyte and on either side of LPDDR4X, so no byte there is cached; n is positive,
as an empty access could stand at the first address of LPDDR4X. -/
theorem cachedAt_of_deviceOrWindow {addr n : Nat} (h : InDeviceOrWindow addr n) (hn : 0 < n) : cachedAt addr = false := by
  unfold InDeviceOrWindow ddrBase windowBase at h
  unfold cachedAt ddrBase
  rw [Bool.or_eq_false_iff, Bool.and_eq_false_iff, decide_eq_false_iff_not, decide_eq_false_iff_not, decide_eq_false_iff_not]
  omega

/-- The map lets every load and store to device space or the window through; only a fetch from there is refused (R406). -/
theorem docentRefuses_of_deviceOrWindow {addr n kind : Nat} (h : InDeviceOrWindow addr n) (hk : kind ≠ 0) :
    docentRefuses addr n kind = none := by
  unfold InDeviceOrWindow at h
  have hlow : ¬addr + n ≤ 0x100000 := by
    unfold windowBase at h
    omega
  unfold docentRefuses
  rw [if_neg hlow, if_pos h, if_neg hk]

/-- An LR outside memory is a load access fault, cause 5 (R417). -/
theorem docentLr_outsideMemory {s : State} {core : Fin 16} {addr : Nat} {bytes : Fin 9} (constrained : Bool) (hon : s.dev.supply = .on)
    (hruns : s.dev.coreRuns core = true) (h : InDeviceOrWindow addr bytes) (hn : 0 < bytes.val) :
    exec (.docentLr core addr bytes constrained) s = .next { s with dev := s.dev.coreTrap (0x010 + core) 5 addr } := by
  change execDocentLr core addr bytes constrained s = _
  unfold execDocentLr
  rw [onDev_on hon]
  have hmap : docentRefuses addr bytes 1 = none := docentRefuses_of_deviceOrWindow h (by decide)
  have huncached : cachedAt addr = false := cachedAt_of_deviceOrWindow h hn
  simp only [hruns, hmap, huncached, Bool.not_true, Bool.not_false, Bool.false_eq_true, if_true, if_false]

/-- An SC outside memory answers 1 and traps nowhere, whatever the core has reserved (R415, R417). -/
theorem docentSc_outsideMemory {s : State} {core : Fin 16} {addr : Nat} {data : List Byte} (spurious : Bool) (hon : s.dev.supply = .on)
    (hruns : s.dev.coreRuns core = true) (h : InDeviceOrWindow addr data.length) (hn : 0 < data.length) :
    exec (.docentSc core addr data spurious) s = .next { s with dev := s.dev.answerSc core addr 1 } := by
  change execDocentSc core addr data spurious s = _
  unfold execDocentSc
  rw [onState_on hon]
  have hmap : docentRefuses addr data.length 2 = none := docentRefuses_of_deviceOrWindow h (by decide)
  have huncached : cachedAt addr = false := cachedAt_of_deviceOrWindow h hn
  simp only [hruns, hmap, huncached, Bool.not_true, Bool.not_false, Bool.false_eq_true, if_true, if_false]

/-- The general form of the three operations: kind 0 is the LR, kind 1 the SC, and kind 2 the AMO, whose fault is of a store, cause 7
(R417). -/
theorem docentDeviceAtomic_outsideMemory {s : State} {core : Fin 16} {addr : Nat} (kind : Fin 3) (hon : s.dev.supply = .on)
    (hruns : s.dev.coreRuns core = true) (h : InDeviceOrWindow addr 4) :
    exec (.docentDeviceAtomic core addr kind) s = .next
      { s with
        dev :=
          if kind = 0 then s.dev.coreTrap (0x010 + core) 5 addr
          else if kind = 1 then s.dev.answerSc core addr 1
          else s.dev.coreTrap (0x010 + core) 7 addr } := by
  change execDocentDeviceAtomic core addr kind s = _
  unfold execDocentDeviceAtomic
  rw [onDev_on hon]
  have hmap : docentRefuses addr 4 1 = none := docentRefuses_of_deviceOrWindow h (by decide)
  have huncached : cachedAt addr = false := cachedAt_of_deviceOrWindow h (by decide)
  simp only [hruns, hmap, huncached, Bool.not_true, Bool.or_false, Bool.false_eq_true, if_false]
  match kind with
  | 0 => rfl
  | 1 => rfl
  | 2 => rfl

/-- Settles O19: each operation passes the address map, finds its address uncached, and takes R417's branch; the state changes in its
device part alone. -/
theorem docentAtomicsOutsideMemory : Obligations.DocentAtomicsOutsideMemory := by
  refine ⟨?atomic, ?lr, ?sc⟩
  case atomic =>
    intro s core addr kind hon hruns hout
    exact ⟨_, docentDeviceAtomic_outsideMemory kind hon hruns hout, ⟨rfl, rfl, rfl⟩, rfl⟩
  case lr =>
    intro s core addr bytes constrained hon hruns hout hn
    exact ⟨_, docentLr_outsideMemory constrained hon hruns hout (by omega), ⟨rfl, rfl, rfl⟩, rfl⟩
  case sc =>
    intro s core addr data spurious hon hruns hout hn
    exact ⟨_, docentSc_outsideMemory spurious hon hruns hout (by omega), ⟨rfl, rfl, rfl⟩, rfl⟩

end Sys2Proof.Machine

/-! PROOF. Counters (R436, R437): what an increment makes of a counter in each mode, and what it leaves alone. -/

namespace Sys2Proof.Machine

/-! ### One counter -/

/-- Wrapping mode (R437): the count goes round at 2^48 and WRAP remembers it; SAT is not touched. -/
theorem Ctr.add_wrapping (c : Ctr) (n : Nat) :
    c.add false n = { value := (c.value + n) % 2 ^ 48, wrap := c.wrap || decide (2 ^ 48 ≤ c.value + n), sat := c.sat } := rfl

/-- Saturating mode (R437): the count stops at 2^48 - 1 and SAT remembers what was lost; WRAP is not touched. -/
theorem Ctr.add_saturating (c : Ctr) (n : Nat) :
    c.add true n =
      { value := min (c.value + n) (2 ^ 48 - 1), wrap := c.wrap, sat := c.sat || decide (2 ^ 48 - 1 < c.value + n) } := rfl

/-- From 2^48 - 1, where saturation leaves a counter, the first increment in wrapping mode wraps it (R437). -/
theorem Ctr.add_wrapping_of_end {c : Ctr} {n : Nat} (hend : c.value = 2 ^ 48 - 1) (hn : 1 ≤ n) :
    c.add false n = { value := (n - 1) % 2 ^ 48, wrap := true, sat := c.sat } := by
  have hsum : c.value + n = (n - 1) + 2 ^ 48 := by omega
  have hreach : 2 ^ 48 ≤ c.value + n := by omega
  rw [Ctr.add_wrapping, decide_eq_true hreach, Bool.or_true, hsum, Nat.add_mod_right]

/-! ### The counters of the module -/

/-- The counter that counts takes the increment in the mode its bank has now (R437, R438). -/
theorem Dev.get_count_self (d : Dev) (w n : Nat) :
    SMap.get {} (d.count w n).ctrs w = (SMap.get {} d.ctrs w).add (d.saturating w) n :=
  SMap.get_modify_self {} d.ctrs w fun c => c.add (d.saturating w) n

theorem Dev.get_count_ne (d : Dev) {v w : Nat} (n : Nat) (h : v ≠ w) :
    SMap.get {} (d.count w n).ctrs v = SMap.get ({} : Ctr) d.ctrs v :=
  SMap.get_modify_ne {} {} d.ctrs (fun c => c.add (d.saturating w) n) h

@[simp] theorem Dev.count_regs (d : Dev) (w n : Nat) : (d.count w n).regs = d.regs := rfl

/-- Settles O17: a counter that counts is one `Ctr.add` in its bank's mode; every other counter is read past the write. -/
theorem counterIncrements : Obligations.CounterIncrements := by
  intro d w n hn c e
  have he : e = c.add (d.saturating w) n := d.get_count_self w n
  refine ⟨?wrapping, ?saturating, ?fromEnd, fun v hv => d.get_count_ne n hv, d.count_regs w n⟩
  case wrapping =>
    intro hmode
    rw [he, hmode, Ctr.add_wrapping]
    exact ⟨rfl, rfl, rfl⟩
  case saturating =>
    intro hmode
    rw [he, hmode, Ctr.add_saturating]
    exact ⟨rfl, rfl, rfl⟩
  case fromEnd =>
    intro hmode hend
    rw [he, hmode, Ctr.add_wrapping_of_end hend hn]
    exact ⟨rfl, rfl⟩

end Sys2Proof.Machine
